-- ==== Sys2Proof/Word.lean ====
section
/-! DEFINITION. The plain carriers of the model: bytes, register words, zone masks and laid-out fields. -/
namespace Sys2Proof

/-- One byte of a host structure, a packet or a payload. -/
abbrev Byte := BitVec 8

/-- One register word of BAR0 (00 R3). -/
abbrev Word := BitVec 32

/-- A zone mask: zone z is bit (z mod 8) of byte z / 8, so bit z of the little-endian number (10 Table 10.2). -/
abbrev ZoneMask := BitVec 256

/-- A sparse table keyed by a number, in ascending key order; a key that is not listed holds the table's default. -/
abbrev SMap (α : Type) := List (Nat × α)

/-- A little-endian layout: the fields in ascending offset, each with its size in bytes and its value. -/
abbrev Pay := List (Nat × Nat)

end Sys2Proof
end

