-- ==== Sys2Proof/Syntax.lean ====
section
/-! DEFINITION. The commands of the block, one constructor per row of the opcode table, and their operands: what the host, the
pins, the network, the timers and the device's own units bring to a step (95, 98). -/
namespace Sys2Proof

/-- Where a command came from: a submission ring of the local host, a Heivo tunnel (requesting seat, TUN_ID, MGR_SEQ, which is
zero for a command that no manager stamped), or the device itself (06 R165, 02 R46). -/
inductive Src where
  | ring (s : Nat)
  | tunnel (seat tunId mgrSeq : Nat)
  | own
deriving DecidableEq, Repr

/-- An operator key record (16 Table 16.5): its public key as the 96 bytes X and Y, and its roles. -/
structure KeyRec where
  key : List Byte
  roles : Nat
deriving DecidableEq, Repr

/-- The operator envelope that ends a signed command's buffer (16 Table 16.3). sigOk says that the signature verifies under the
key that the envelope names, or under its inline key where that key is used. -/
structure Env where
  magic : Nat := 0x4B4F514E
  format : Nat := 1
  opcode : Nat
  keyId : Nat
  counter : Nat
  notAfter : Nat
  tableId : Nat
  target : Nat
  inline : Option KeyRec := none
  sigOk : Bool
deriving DecidableEq, Repr

/-- A deal marker as a ring port receives it (05 Table 5.2, 06 Tables 6.3 and 6.4), with its local ingress stamp and the measured
rate of the neighbour against this device in ppb. Domain times stand in units of 1/65,536 ns. -/
structure MarkerIn where
  sender : Nat
  version : Nat := 1
  tableId : Nat
  deal : Nat
  epoch : Nat
  flags : Nat
  ins : Nat
  mgr : Nat
  srcSeat : Nat
  gen : Nat
  hops : Nat
  origin : Nat
  corr : Int
  txPrev : Nat
  rxPrev : Nat
  ingress : Nat
  ratePpb : Int := 0
deriving DecidableEq, Repr

/-- The data set of a grandmaster as an Announce gives it (05 R140, R141): its priorities, class and identity, and the steps to it. -/
structure GmSet where
  prio1 : Nat
  cls : Nat
  prio2 : Nat
  gmId : Nat
  steps : Nat
deriving DecidableEq, Repr

/-- What a gPTP or IEEE 1588 message brings (05 R140-R142): an Announce with the grandmaster's data set; a
Sync, with its Follow_Up where it is two-step, as the master's time t1 with its corrections and the local ingress t2; or the end of a delay
measurement with its four stamps, of which 1588 gives the request's egress t3 and the master's ingress t4 alone. Times stand in units of
1/65,536 ns. -/
inductive PtpBody where
  | announce (g : GmSet)
  | sync (t1 t2 : Nat)
  | delay (t1 t2 t3 t4 : Nat)
deriving DecidableEq, Repr

/-- A gPTP or IEEE 1588 message on a local port: whether it is of IEEE 802.1AS, its domainNumber, whether it came over IEEE 802.3 rather
than UDP/IPv4, and whether the neighbour is asCapable, as the standard judges it. -/
structure PtpIn where
  gptp : Bool
  domain : Nat
  l2 : Bool
  asCapable : Bool
  body : PtpBody
deriving DecidableEq, Repr

/-- One measurement bin of the media clock unit (04 R92): for each REFIN input its mean offset against the XO in ppb where the bin
holds a complete interval, whether the servo is locked, and the die temperature in units of 0.25 degrees C. -/
structure RefBin where
  offs : List (Option Int)
  locked : Bool
  temp : Int
deriving DecidableEq, Repr

/-- What the loss detector meets at a REFIN input (04 R91): the ps since its last edge, or the ps between two edges. -/
inductive RefEdge where
  | silent (ps : Nat)
  | interval (ps : Nat)
deriving DecidableEq, Repr

/-- A frame on a ring or local port as the switch sees it (06 R166, Table 6.2): the ring tag, whether the frame is for this
device, its traffic class as its PCP, length in bytes, its packet number, and what the receiver found wrong. ident stands for its content,
now for the ns of domain time at which it can leave, heivo for SUBTYPE, VERSION and TABLE_ID of a Heivo control frame, ingress for its stamp as
the port takes it, in units of 1/65,536 ns (05 R144). -/
structure RingFrame where
  origin : Nat
  hopsLeft : Nat
  dual : Bool
  epoch : Nat
  toMe : Bool
  pcp : Nat
  len : Nat
  ident : Nat
  now : Nat
  fcsOk : Bool := true
  icvOk : Bool := true
  poisoned : Bool := false
  pn : Nat
  heivo : Option (Nat × Nat × Nat) := none
  ingress : Nat := 0
deriving DecidableEq, Repr

/-- A frame on a local port (06 R184): addressed to the device, to a reserved group address, whether MACsec passed it, its packet number,
whether a PCS error control character ended it, and its ingress stamp as the port takes it. -/
structure LocalFrame where
  toMe : Bool
  reservedGroup : Bool
  pcp : Nat
  len : Nat
  ident : Nat
  now : Nat
  fcsOk : Bool := true
  macsecOk : Bool := true
  pn : Nat := 0
  poisoned : Bool := false
  ingress : Nat := 0
deriving DecidableEq, Repr

/-- What an MKPDU brings a port (06 R170, 15 R405; 16 R447): the peer, its LDevID identifier, whether it is new, the CKN that it names and
the CAK under which its ICV was formed, and the SAK that the exchange installs now as its association number and key number, with whether the
peer distributed it as key server. -/
structure MkIn where
  peer : Nat
  ldev : Nat
  new : Bool
  ckn : Nat
  cak : Nat
  sak : Option (Nat × Nat)
  served : Bool := false
deriving DecidableEq, Repr

/-- A seam point: a port of a seat, 0 for A and 1 for B (06 R173). -/
structure SeamPt where
  seat : Nat
  port : Nat
deriving DecidableEq, Repr

/-- A ring-status frame (06 R164). -/
structure RingStatus where
  kind : Nat
  cause : Nat
  a : SeamPt
  b : Option SeamPt
  eff : Nat
deriving DecidableEq, Repr

/-- A stream packet whose delivery has completed under R166 (07 R190-R204): the port it came by (0 A, 1 B, 2 L0, 3 L1), whether it
is RTP over UDP or IEEE 1722, its stream identifier, its destination (MAC or IPv4 address), the header fields a listener judges,
its sample frames as signed words of the wire format or the CRF timestamps in ns, and the ns of the deal at which it is delivered, and its tu.
fmt is the AAF format, the CRF type or the RTP payload type; len is stream_data_length or the UDP payload's length. -/
structure StreamPkt where
  port : Nat
  rtp : Bool
  id : Nat
  dest : Nat
  udp : Nat := 0
  ver : Nat
  sub : Nat := 2
  fmt : Nat
  nsr : Nat := 5
  chans : Nat := 0
  depth : Nat := 0
  sv : Nat := 1
  tv : Nat := 1
  sp : Nat := 0
  pull : Nat := 0
  base : Nat := 0
  interval : Nat := 0
  len : Nat
  ssrc : Nat := 0
  seq : Nat
  stamp : Nat
  frames : List (List Int) := []
  ts : List Nat := []
  ns : Nat
  tu : Nat := 0
deriving DecidableEq, Repr

/-- The parameter set of a node (08 Table 8.3). The manual leaves the byte layout of a set to Dorrex and gives what it holds. -/
inductive Par where
  /-- Gain, Q2.30. -/
  | gain (g : Int)
  /-- Mix: one Q2.30 gain for each input. -/
  | mix (g : List Int)
  /-- Matrix: for each output one gain for each input. -/
  | matrix (rows : List (List Int))
  /-- Biquad sections: b0, b1, b2, a1, a2 in Q2.30. -/
  | biquad (secs : List (List Int))
  /-- FIR taps in Q2.30. -/
  | fir (taps : List Int)
  /-- Delay in samples. -/
  | delay (d : Nat)
  /-- Compressor, limiter and ducker (R221). -/
  | dyn (thr depth slope att rel makeup ceil : Int)
  /-- Meter, renderer output. -/
  | plain
  /-- ASRC bridge: the bridge channel, the direction number and the port slot (13 R358). -/
  | bridge (ch dir slot : Nat)
  /-- Pilot tone: INC and amp. -/
  | pilot (inc : Nat) (amp : Int)
  /-- Renderer input: the object. -/
  | object (o : Nat)
  /-- Renderer output: the loudspeaker entry. -/
  | speaker (i : Nat)
  /-- Correction: the set. -/
  | set (c : Nat)
  /-- Intercom: the channel. -/
  | icom (ch : Nat)
  /-- Announcement source: the zone. -/
  | ann (zone : Nat)
  /-- User kernel: the descriptor's index and the parameter words (09 R260). -/
  | kernel (desc : Nat) (words : List Nat)
deriving DecidableEq, Repr

/-- A node of the frame program (08 R219). win is the word at which Dorrex placed the window of a user kernel (09 R261). -/
structure NodeD where
  ix : Nat
  typ : Nat
  id : Nat
  cluster : Nat
  ins : List Nat
  outs : List Nat
  pset : Nat
  win : Nat := 0
deriving DecidableEq, Repr

/-- A user kernel: its descriptor (09 Table 9.3) and code. -/
structure KernelD where
  id : Nat
  code : List Nat
  ins : Nat
  outs : Nat
  params : Nat
  state : Nat
  scratch : Nat
  flags : Nat
  cost : Nat
  latency : Nat
deriving DecidableEq, Repr

/-- A loudspeaker entry (10 Table 10.2); zones is the 256-bit zone mask. -/
structure SpkEnt where
  x : Int
  y : Int
  z : Int
  az : Nat
  el : Int
  slot : Nat
  modes : Nat
  present : Bool
  delayTrim : Nat
  gainTrim : Int
  zones : Nat
deriving DecidableEq, Repr

/-- A loudspeaker section (10 Table 10.1) with its triangles. -/
structure SpkTable where
  cx : Int
  cy : Int
  cz : Int
  speed : Nat
  ents : List SpkEnt
  tris : List (Nat × Nat × Nat)
deriving DecidableEq, Repr

/-- A correction set (12 R331, R335): biquad sections, group exponents, mantissas and output gain. -/
structure CorrSet where
  secs : List (List Int)
  exps : List Nat
  mants : List Int
  g : Int
deriving DecidableEq, Repr

/-- A delay line of deck section type 7 (11 R313): of an object, or of a delay node by its identifier. -/
structure LineD where
  node : Bool
  id : Nat
  blocks : Nat
deriving DecidableEq, Repr

/-- One copy of a critical output (11 R320): its cluster, its nodes and its private copy of the egress slot. -/
structure CritCopy where
  cluster : Nat
  nodes : List Nat
  out : Nat
deriving DecidableEq, Repr

/-- A critical output (11 R320). -/
structure Crit where
  slot : Nat
  copies : List CritCopy
deriving DecidableEq, Repr

/-- The sections of a deck (08 R225). roles and hashes are keyed by slot, psets by set index, corr by set number; players gives the
rate-bridge channel of an announcement player. -/
structure DeckBody where
  nodes : List NodeD := []
  psets : List (Nat × Par) := []
  roles : List (Nat × Nat) := []
  hashes : List (Nat × Nat) := []
  speakers : Option SpkTable := none
  corr : List (Nat × CorrSet) := []
  lines : List LineD := []
  kernels : List KernelD := []
  crit : List Crit := []
  players : List (Nat × Nat) := []
deriving DecidableEq, Repr

/-- A deck, loudspeaker or correction image (08 Table 8.4, 10 Table 10.3): its header, what its section table lists, whether its
bytes are laid out as those tables say (malformed is set where they are not), whether its signature verifies under the key SIGNER
and whether the digest computed under R226 equals DIGEST. A loudspeaker or correction image uses KIND 1. -/
structure DeckImg where
  magic : Nat
  format : Nat := 1
  rate : Nat
  kind : Nat
  digest : Nat
  base : Nat
  length : Nat
  group : Nat
  load : Nat := 0
  nodeCnt : Nat := 0
  bridgeCh : Nat := 0
  fade : Nat := 0
  blocks : Nat := 0
  signer : Nat
  sections : List Nat
  malformed : Bool := false
  sigOk : Bool
  hashOk : Bool
  body : DeckBody
deriving DecidableEq, Repr

/-- Samples that a receive direction of domain A took from its pins: the direction and one frame of slot words for each sample. -/
structure PinIn where
  dir : Nat
  frames : List (List Int)
deriving DecidableEq, Repr

/-- How the work of a deal stood when it was committed, or when the next tick came (02 R31-R34): the load in cycles, the nodes and
the retiring deck's nodes that had not finished, and the engine tasks that had not. -/
structure Work where
  load : Nat
  nodes : List Nat := []
  retiring : List Nat := []
  traj : Bool := false
  tap : Bool := false
  cor : Bool := false
deriving DecidableEq, Repr

/-- A deal boundary (02 R24): how the deal before stood where it had not been committed, the frames the domain-A receive
directions took from their pins in the deal before, and the levels at the GPIO inputs. -/
structure TickIn where
  late : Option Work := none
  pins : List PinIn := []
  gpio : Nat := 0
deriving DecidableEq, Repr

/-- What a port direction meets at a frame start (13 R364, R365): the direction, the frame's number in the deal, whether its frame
sync lay away from the counted boundary, whether its FIFO ran empty or full, the misalignment in bits, the slot of the frame before at
which the FIFO lost its word, the domain time in ns and the frame rate in mHz that the direction measures. -/
structure FrameIn where
  dir : Nat
  k : Nat
  away : Bool := false
  fifo : Bool := false
  offset : Nat := 0
  lost : Option Nat := none
  ns : Nat
  mhz : Nat
deriving DecidableEq, Repr

/-- A subframe error at a biphase receiver (13 R371): its kinds, and the error-free frames since the error before. -/
structure AesErr where
  r : Nat
  biphase : Bool
  parity : Bool
  quiet : Nat
deriving DecidableEq, Repr

/-- A block at a biphase receiver (13 R372): channel-status and user bits of both subframes as 192-bit numbers in the order of
their registers, whether the CRCC of AES3-2009 holds, the last V bits, the samples with V set, and the error-free frames since
the last error. -/
structure AesBlk where
  r : Nat
  csA : Nat
  csB : Nat
  uA : Nat
  uB : Nat
  crcOk : Bool
  vA : Bool := false
  vB : Bool := false
  vCount : Nat := 0
  quiet : Nat := 0
deriving DecidableEq, Repr

/-- A boot image (16 Table 16.2): its header, whether its bytes are laid out as the table says, whether ENDORSE and SIGNATURE
verify, the words that the measurement takes from its sections (R444), and the Subsystem Vendor ID and Subsystem ID that it puts in the
place of the device's own (03 Table 3.1). -/
structure BootImg where
  magic : Nat := 0x4B46514E
  format : Nat := 1
  svn : Nat
  sections : Nat
  length : Nat
  build : Nat
  malformed : Bool := false
  endorseOk : Bool
  sigOk : Bool
  hashes : List Nat := []
  subsys : Option (Nat × Nat) := none
deriving DecidableEq, Repr

/-- What a boot finds (16 R438, R451; 17 R470): the levels of GPIO1 and GPIO0, the copy of the saved state that authenticates (0 the
newer, 1 the older, 2 none), and the images in the slots that this device has not written itself. -/
structure BootIn where
  strap : Nat
  store : Nat := 0
  slots : List (Nat × BootImg) := []
deriving DecidableEq, Repr

/-- An LDevID certificate and key package (16 Table 16.5): its operator keys and deck keys, the ring key number, the public key that the
certificate names (keys as the 96 bytes X and Y), whether the wrap decrypts, and whether the layout is that of the table. -/
structure KeyPkg where
  magic : Nat := 0x4B50514E
  format : Nat := 1
  operators : List KeyRec
  decks : List (List Byte)
  ringKey : Nat
  certKey : List Byte
  wrapOk : Bool
  malformed : Bool := false
deriving DecidableEq, Repr

/-- A join report (15 R406): the seat that has joined, and the peers on its ports A and B, 0xFFFF for none. -/
structure JoinRep where
  seat : Nat
  a : Nat
  b : Nat
deriving DecidableEq, Repr

/-- The IDevID identifier of an enrolling device, and its LDevID identifier, 0 for none (15 R406; 16 R432, R450). -/
structure CandIds where
  idev : Nat
  ldev : Nat
deriving DecidableEq, Repr

/-- A DIGEST record (15 Table 15.3). -/
structure DigRec where
  idx : Nat
  flags : Nat
  sender : Nat
  active : Nat
  deal : Nat
  d : Nat
  d1 : Nat
  d2 : Nat
  agreed : Nat
  version : Nat
  reach : Nat
deriving DecidableEq, Repr

/-- An object record of a snapshot image (15 Table 15.4): placement state, the parameters at offsets 28-49 of 10 Table 10.4, the
evaluated position and the points as T, x, y, z, JUMP, END. -/
structure SnapObj where
  o : Nat
  state : Nat
  mode : Nat
  trump : Nat
  enable : Bool
  fine : Bool
  gain : Int
  spread : Nat
  rolloff : Nat
  aperture : Nat
  refDist : Nat
  zone : Nat
  x : Int
  y : Int
  z : Int
  pts : List (Nat × (Int × Int × Int) × Bool × Bool)
deriving DecidableEq, Repr

/-- A fragment of a copy (15 R423): its sender, index and count, the checkpoint's deal, and the image that the fragments spell:
the last MGR_SEQ of each trio index and the object records. -/
structure SnapIn where
  seat : Nat
  idx : Nat
  cnt : Nat
  deal : Nat
  last : List Nat
  objs : List SnapObj
deriving DecidableEq, Repr

/-- What a failing word holds (01 Table 1.4, R502), by the rows of the table: two samples of a delay line from an index, a
correction set's coefficients, a state word of a set, the nodes that read a word, a slot, samples of contexts as their role, context,
presentation index (for a talker the place in its frame buffer) and channels, the node on a cluster, firmware code, firmware data, and a packet buffer word, with
the receiving port and the content of the frame that holds it. -/
inductive EccHit where
  | pool (line idx : Nat)
  | coef (set : Nat)
  | corState (set word : Nat)
  | program (nodes : List Nat)
  | slot (s : Nat)
  | stream (l : List (Nat × Nat × Nat × List Nat))
  | localMem (node : Nat)
  | code
  | data
  | packet (held : Option (Nat × Nat))
deriving DecidableEq, Repr

/-- What the read of a command's host buffer gives (03 Table 3.9, Buffer payloads). Images whose inner layout the manual leaves to
Dorrex and to the signing tool stand as structured data. -/
inductive Buf where
  | none
  | bytes (l : List Byte)
  | deck (i : DeckImg)
  | admission (l : List Byte) (p : KeyPkg)
  | rotate (l : List Byte) (wrapOk : Bool)
  | boot (i : BootImg)
deriving DecidableEq, Repr

/-- A host command as its descriptor gives it (03 Table 3.14), without the opcode, which the row is: the reserved bytes 10-15 as
one number, the effective deal, the 40 payload bytes from offset 24, what the read of its host buffer gives, and the envelope
that a signed command's buffer ends with. -/
structure Cmd where
  tag : Nat := 0
  flags : Nat := 0
  target : Nat := 0xFFFE
  rsvd : Nat := 0
  deal : Nat := 0
  pay : List Byte
  buf : Buf := .none
  env : Option Env := none
  src : Src := .ring 0
deriving DecidableEq, Repr

/-- A descriptor in a submission ring: its opcode and the rest (03 Table 3.14). -/
structure Desc where
  op : Nat
  cmd : Cmd
deriving DecidableEq, Repr

/-- What one poll reads (03 R55, Table 3.5): the producer words, the consumer words, the watermark acknowledgement, and for each
submission ring the descriptors that stand in it from the device's consumer index on. -/
structure PollIn where
  sqProd : List Nat
  cqCons : List Nat
  eqCons : List Nat
  ackSeq : Nat
  ackMask : Nat
  descs : List (List Desc)
deriving DecidableEq, Repr

/-- The words of the function's configuration space that 03 Table 3.1 gives a content: Device and Vendor ID, class code and Revision
ID, the Subsystem IDs, the two words of BAR0, and the sticky error status of AER (R83). -/
inductive CfgWord where
  | id
  | classRev
  | subsys
  | barLo
  | barHi
  | aer
deriving DecidableEq, Repr

/-- An address the host reaches over PCIe: a byte offset in BAR0, the control word of the MSI-X capability, or another word of
configuration space (03 R49). -/
inductive RegAddr where
  | bar (off : Nat)
  | msixCtrl
  | cfg (w : CfgWord)
deriving DecidableEq, Repr

/-- A tunnel-request fragment (06 R165): the requesting seat, TUN_ID, MGR_SEQ, fragment index and count, and the command that
the whole request carries. A trio record is such a request with MGR_SEQ 0 (15 R409) and has a row of its own. -/
structure TunnelReq where
  seat : Nat
  target : Nat
  tunId : Nat
  mgrSeq : Nat
  idx : Nat
  cnt : Nat
  whole : Desc
deriving DecidableEq, Repr

/-- A fragment of a tunnel reply (06 R165): TUN_ID, fragment index and count, and what the whole reply holds: the completion and the
result data. -/
structure TunnelRep where
  tunId : Nat
  status : Nat
  deal : Nat
  result : Pay
  idx : Nat := 0
  cnt : Nat := 1
deriving DecidableEq, Repr

/-- The commands: one constructor per row of spec/opcode_table.json. -/
inductive Instr where
  /-- R228: Starts staging a signed deck image into the free deck slot at the effective deal. -/
  | deckStage (c : Cmd)
  /-- R231: At step 3 of the effective deal, makes the ready staged deck live when EXPECT and GROUP match, or records a late or missed cut. -/
  | deckCut (c : Cmd)
  /-- R240: Writes the live, staged and retiring deck digests and the deck-slot state to a host buffer. -/
  | deckDigest (c : Cmd)
  /-- R280: Adds one time-stamped point to an object's trajectory queue, with REPLACE, late handling and the 16-point limit. -/
  | trajPush (c : Cmd)
  /-- R283: Empties an object's queue, then either holds the object at its last position or unplaces it. -/
  | trajClear (c : Cmd)
  /-- R277: Writes the object parameters whose SET bits are set. -/
  | objSet (c : Cmd)
  /-- R274: Stages a deck in which only the loudspeaker section of the live deck is replaced. -/
  | spkLoad (c : Cmd)
  /-- R336: Stages a deck in which some correction sets of the live deck are replaced or added. -/
  | corrLoad (c : Cmd)
  /-- R340: Allocates delay-pool blocks and starts an impulse-response measurement of the listed loudspeakers and microphones. -/
  | measureRun (c : Cmd)
  /-- R197: Opens a listener or talker context at its effective deal. -/
  | streamOpen (c : Cmd)
  /-- R198: Closes a context; a listener fades out in the closing deal, and a talker stops at the next packet boundary. -/
  | streamClose (c : Cmd)
  /-- R209: Applies a buffer of channel-map entries as one change, restoring the map if the uniqueness rules fail. -/
  | chmapWrite (c : Cmd)
  /-- R361: Starts the port directions of a mask so that their data begins together at the data deal. -/
  | portStartGroup (c : Cmd)
  /-- R363: Stops the port directions of a mask, fading out transmit directions. -/
  | portStop (c : Cmd)
  /-- R119: Configures a reference candidate, an output, the selector or SYNC_IN, according to its kind. -/
  | refConfig (c : Cmd)
  /-- R117: Loads a frequency-offset profile into a ramp engine for a running FREE output. -/
  | rampLoad (c : Cmd)
  /-- R381: Writes a clip into the clip store or deletes one. -/
  | clipWrite (c : Cmd)
  /-- R383: Applies a buffer of message definitions as one change. -/
  | msgDefine (c : Cmd)
  /-- R392: Applies a buffer of schedule entries as one change. -/
  | schedWrite (c : Cmd)
  /-- R391: Submits a play request for a message, with an optional class and zone mask. -/
  | annPlay (c : Cmd)
  /-- R391: Stops every matching unlatched play and waiting request. -/
  | annStop (c : Cmd)
  /-- R396: Removes the voice-alarm latches of the named zones under an operator signature. -/
  | trumpClear (c : Cmd)
  /-- R346: Connects, updates or disconnects an intercom channel. -/
  | icomConnect (c : Cmd)
  /-- R463: Replaces the selected service wake tolerances and recomputes the target power state. -/
  | powerTolerance (c : Cmd)
  /-- R43: Writes the latency of the live deck's paths between one source and one consumer. -/
  | latencyQuery (c : Cmd)
  /-- R69: Writes a one-deal snapshot of the counter group of one instance. -/
  | counterQuery (c : Cmd)
  /-- R152: Writes the time state or the local-port PTP state. -/
  | timeQuery (c : Cmd)
  /-- R78: Discards the unwritten rest of a packet on an event ring; in this stepping it changes nothing. -/
  | eventDropPacket (c : Cmd)
  /-- R403: Replaces the signed roster at every seat in one step. -/
  | rosterLoad (c : Cmd)
  /-- R407: Binds a seat to an LDevID, updates the roster and starts delivery of the key package. -/
  | seatAdmit (c : Cmd)
  /-- R408: Removes a seat from the roster and from the spare list, vacating its trio index if it has one. -/
  | seatEvict (c : Cmd)
  /-- R448: Installs a new ring key, operator keys, deck keys or a local-port CAK. -/
  | keyRotate (c : Cmd)
  /-- R439: Writes a signed boot image into the flash slot that is not running. -/
  | fwStage (c : Cmd)
  /-- R468: At step 3 of the effective deal, makes the empty deck live and resets the render path and the scene. -/
  | renderReset (c : Cmd)
  /-- R469: Makes a planned or an immediate system reset. -/
  | systemReset (c : Cmd)
  /-- R55: At each poll instant, reads the doorbell and consumer pages, takes descriptors and writes the status page. -/
  | doorbellPoll (p : PollIn)
  /-- R465: Applies a command held behind a shutdown at the first boundary after the shutdown completes. -/
  | heldCommandRelease
  /-- R230: Starts a held staging once the free deck slot becomes available. -/
  | stageHeldStart
  /-- R165: Receives a tunnel-request fragment, reassembles the command and stamps or applies it. -/
  | tunnelRequestReceive (r : TunnelReq)
  /-- R70: Receives a tunnel reply, writes the result data and the final completion. -/
  | tunnelReplyReceive (r : TunnelRep)
  /-- R506: Receives the stamper's acknowledgement and writes PENDING with the stamped deal. -/
  | stamperAckReceive (tunId : Nat) (stamped : Nat)
  /-- R71: Completes a sent command with NOT_MEMBER when no reply arrives within HIF_TUNNEL_TMO deals. -/
  | tunnelTimeout (tunId : Nat)
  /-- R165: Discards a request that is still incomplete 64 deals after its first fragment. -/
  | tunnelReassemblyDiscard (seat : Nat) (tunId : Nat)
  /-- R53: Validates the host-interface set-up and starts polling, or refuses it with CFG_ERR. -/
  | hifEnable
  /-- R84: Starts a host-function reset, written through HIF_CTRL.HOST_RESET. -/
  | hostReset (v : Word)
  /-- R84: A PCIe function-level reset starts a host-function reset. -/
  | flr
  /-- R481: Asserting PCIE_PERST_N holds the link in reset and acts as a host-function reset. -/
  | pciePerst
  /-- R84: Returns the HIF registers to reset and clears RESET_BUSY within 2 deals of the request. -/
  | hostResetComplete
  /-- R83: A failed DMA completion stops all DMA, sets DMA_FAULT and sends the fault vector. -/
  | dmaFault
  /-- R81: Fires a ring's MSI-X vector when COAL_DEALS have passed since the first unsignalled entry. -/
  | coalesceTimeout (ring : Nat)
  /-- R79: Empties a capture FIFO as one packet when its oldest entry has waited HIF_LINGER deals. -/
  | captureFifoLinger (k : Nat)
  /-- R8: Setting SYS_LOCK makes every RWL field read-only until a power-on, pin or system reset. -/
  | sysLock (v : Word)
  /-- R469: Writing SYS_RESET.FULL makes a planned system reset with the next deal as e. -/
  | sysResetFull (v : Word)
  /-- R469: Writing SYS_RESET.NOW makes an immediate system reset. -/
  | sysResetNow (v : Word)
  /-- R471: Reads a PCIe boot image once by DMA and checks it. -/
  | sysPbootGo (v : Word)
  /-- R471: Completes a PCIe boot by setting DONE when the image runs, or FAIL when it is refused. -/
  | pbootImageChecked (img : BootImg)
  /-- R444: Writing SEC_CTRL.ATTEST starts an attestation report over SEC_NONCE. -/
  | secAttest (v : Word)
  /-- R444: The attestation report is placed in SEC_ATTEST and ATTEST reads 0. -/
  | attestReady
  /-- R159: Starts a host Clause 45 MDIO transaction once any PHY poll in progress has ended. -/
  | mdioGo (v : Word)
  /-- R159: Completes an MDIO transaction and clears GO. -/
  | mdioDone (data : Nat)
  /-- R159: Every 8 deals, polls the PMA/PMD and PCS status of each external PHY. -/
  | phyStatusPoll (p : Nat) (pma : Nat) (pcs : Nat)
  /-- R183: Writing RING_TAS_CHANGE_HI arms a gate-list change, or sets ERR if the deal has passed. -/
  | tasChangeArm (p : Nat) (hi : Word)
  /-- R183: Puts the administrative gate list into force at the first cycle start at or after the change deal. -/
  | tasChangeApply (p : Nat)
  /-- R153: Writing TIM_CTRL.MODE restarts the time unit as after a reset. -/
  | timModeWrite (v : Word)
  /-- R179: Setting RING_CTRL.ENABLE turns on the ring ports and allows insertion, or is refused when the speeds differ. -/
  | ringEnableSet (v : Word)
  /-- R180: Clearing RING_CTRL.ENABLE while inserted makes a planned leave. -/
  | ringEnableClear (v : Word)
  /-- R180: Setting RING_CTRL.FORCE_BYPASS makes a planned leave and keeps the device bypassed. -/
  | forceBypass (v : Word)
  /-- R482: Sets bits of GPIO_OUT, which are driven from the next deal boundary. -/
  | gpioOutSet (v : Word)
  /-- R482: Clears bits of GPIO_OUT, which are driven from the next deal boundary. -/
  | gpioOutClr (v : Word)
  /-- R374: Setting AES_TX_CFG.CS_LOAD requests a copy of the channel-status shadows. -/
  | csLoad (t : Nat)
  /-- R374: Setting AES_TX_CFG.U_LOAD requests a copy of the user-bit shadows. -/
  | uLoad (t : Nat)
  /-- R374: At the first block start after the next deal boundary, copies the shadows into the active copy and clears the load bit. -/
  | aesTxShadowCopy (t : Nat)
  /-- R360: A write to SAP_x_MASK takes effect at the first frame start at or after the next deal boundary. -/
  | sapMaskWrite (d : Nat) (v : Word)
  /-- R4: A write to a register that has no row of its own, acting as its field types state. -/
  | registerWrite (a : RegAddr) (v : Word)
  /-- R4: A read of an RC field returns its value and returns the field to its reset value. -/
  | rcRead (a : RegAddr)
  /-- R24: At each deal boundary, issues the tick, applies due commands, makes a due cut and starts the frame program. -/
  | dealTick (x : TickIn)
  /-- R25: When the last node finishes, commits the deal's slot writes, node state and sample counts. -/
  | dealCommit (w : Work)
  /-- R264: Stops a user kernel that leaves its window, stores into its parameters or runs past its code. -/
  | kernelFault (node : Nat) (cause : Nat) (instr : Nat) (addr : Nat)
  /-- R249: An accumulator sum leaves its range and becomes sticky, raising EV_LANE_OVERFLOW on the first overflow. -/
  | laneOverflow (cluster : Nat) (lanes : Nat) (signs : Nat) (node : Nat)
  /-- R228: A staging has passed every check, and the staged deck is ready. -/
  | deckStageReady
  /-- R229: A staging fails a check while the image is read and built, and completes with BAD_ARG or REFUSED_AUTH. -/
  | deckStageRefused
  /-- R30: A B-domain clock stops or leaves its rate, and its bridge channels fade to zero. -/
  | bridgeLost (ch : Nat) (rate : Nat)
  /-- R30: After 64 deals in range, a bridge restarts and fades in. -/
  | bridgeLocked (ch : Nat) (rate : Nat)
  /-- R91: The loss detector disqualifies a candidate that lost its edges or jumped grossly. -/
  | refLoss (k : Nat) (x : RefEdge)
  /-- R92: Closes each 1 s measurement bin and updates the mean offset of every candidate. -/
  | refBin (b : RefBin)
  /-- R92: A candidate out of tolerance for DWELL_S seconds is disqualified. -/
  | refDisqualified (k : Nat)
  /-- R92: A candidate within tolerance for QUAL_S seconds qualifies again. -/
  | refQualified (k : Nat)
  /-- R97: At the new reference's first edge, measures and absorbs the phase and raises EV_REF_SWITCH. -/
  | refFirstEdge (phase : Int)
  /-- R99: Sets HIST_VALID after 61 s of unbroken lock. -/
  | histValidSet
  /-- R104: Updates the holdover error estimate once per second of holdover. -/
  | holdoverEstimate (temp : Int)
  /-- R101: At each full hour of lock, stores the mean control word and temperature in flash. ctl and temp are the means as the device rounds
  them. -/
  | savedValueStore (ctl : Int) (temp : Int)
  /-- R113: Ends an aligner measurement window and judges lock or loss of lock. -/
  | alignerWindowEnd (a : Nat) (freqPpb : Int) (phasePs : Int)
  /-- R116: An active SYNC_IN edge aligns the outputs of the armed mask. -/
  | syncInEdge (edgeNs : Nat)
  /-- R117: Ends a ramp segment, starting the next one or holding the final offset. -/
  | rampSegmentEnd (k : Nat)
  /-- R123: Detects loss of the XO within 10 µs and bypasses under R22. -/
  | xoLoss
  /-- R22: Drives BYP_A and BYP_B low within 2 deals when a unit of the pass-through set stops working. -/
  | passThroughUnitLost (unit : Nat)
  /-- R131: Receives a deal marker, measures the link delay and updates theta for that direction. -/
  | markerReceive (p : Nat) (k : MarkerIn)
  /-- R135: After FILT deals of valid records, sets local domain time to the estimate once. -/
  | timeFirstStep
  /-- R135: Declares lock once theta has stayed within TIM_LOCK.NS for TIM_LOCK.DEALS deals. -/
  | timeLock
  /-- R136: Refuses a step over TIM_STEP.NS after a change of source and starts a slew on ramp engine 0. -/
  | stepRefused
  /-- R136: The slew remainder reaches zero, and SLEWING is cleared. -/
  | slewDone
  /-- R132: A direction that delivered no record in a deal leaves the average. -/
  | timeDirectionLost (p : Nat)
  /-- R127: A time source with TOD_ARM starts its domain time at the first 1 PPS edge. -/
  | todPpsEdge
  /-- R141: Receives a gPTP or IEEE 1588 message on a local port and runs the port's protocol. -/
  | ptpMessageReceive (l : Nat) (k : PtpIn)
  /-- R140: Sends the periodic Sync, Announce or delay messages of a local PTP port. -/
  | ptpMessageInterval (l : Nat) (kind : Nat)
  /-- R141: Changes a local port's state when announceReceiptTimeout expires. new is the best of the other masters that the port still hears. -/
  | ptpAnnounceTimeout (l : Nat) (new : Option GmSet)
  /-- R147: Raises PPS_OUT at each whole second of local domain time for WIDTH_MS. -/
  | ppsOutSecond
  /-- R145: Starts a launch-time frame when its time, its gate and an idle port allow, or discards it as late. -/
  | launchTimeReached (p : Nat) (q : Nat) (now : Nat)
  /-- R150: Stamps every DIV + 1 edges of an interval-counter input into its capture FIFO. -/
  | ticEdgeCapture (ch : Nat) (coarse : Nat) (fine : Nat) (falling : Bool)
  /-- R150: Stamps every whole second of domain time as channel 8. -/
  | ticAnchor (coarse : Nat) (fine : Nat)
  /-- R149: With no REFIN3 edge for 4 periods, holds the counter clock and sets TB_HOLD. -/
  | ticTimebaseLost (coarse : Nat)
  /-- R149: Relocks to returning REFIN3 edges and clears TB_HOLD. -/
  | ticTimebaseRelock (coarse : Nat)
  /-- R166: Decides for an arriving ring frame whether to forward it, deliver it locally or strip it. -/
  | ringFrameReceive (p : Nat) (f : RingFrame)
  /-- R184: Handles a frame received on L0 or L1, bridging it when LCL_BRIDGE is set. -/
  | localFrameReceive (p : Nat) (f : LocalFrame)
  /-- R160: Declares a ring-port link down and withdraws its SA. -/
  | linkDown (p : Nat)
  /-- R160: Declares a link up after 1 ms of PCS lock and PHY link. -/
  | linkUp (p : Nat)
  /-- R170: Runs MKA on a received MKPDU and installs SAKs. -/
  | mkpduReceive (p : Nat) (k : MkIn)
  /-- R170: Sends an MKPDU every HELLO_MS. -/
  | mkaHello (p : Nat)
  /-- R164: Launches the deal marker of each ring port MARKER_US after the boundary. -/
  | markerLaunch (p : Nat) (egressAt : Nat)
  /-- R174: Two deals without a valid marker make the port a fault point and flood a ring status. -/
  | markerMissed (p : Nat)
  /-- R174: Receives a ring-status frame and holds it for its effective deal. -/
  | ringStatusReceive (p : Nat) (x : RingStatus)
  /-- R173: At the effective deal, applies ring statuses, changes the seam configuration and increments EPOCH. -/
  | ringStatusApply
  /-- R173: One deal after a seam change, drops the previous configuration for old-parity frames. -/
  | epochGraceEnd
  /-- R176: After WTR_DEALS of valid markers, the lower seat floods a KIND 2 status. -/
  | linkHeal (p : Nat)
  /-- R179: Ends the PREPARE loopback test and moves on to CLOSING, or back to BYPASSED. -/
  | loopbackTestDone (pass : Bool)
  /-- R179: RELAY_MS after CLOSING, moves on to KEYING once a link is up. -/
  | relaySettled
  /-- R180: KEY_TMO_S after entry to CLOSING, leaves without a ring status and drops the drives. -/
  | keyingTimeout
  /-- R179: RETRY_S after a failure, a bypassed device starts insertion again. -/
  | insertRetry
  /-- R180: Drops both drives at the effective deal of a planned leave. -/
  | leaveDrivesDrop
  /-- R409: Receives the active manager's VERDICT on a peer's identity. -/
  | verdictReceive (p : Nat) (accept : Bool)
  /-- R201: Places, drops or stores the frames of a delivered stream packet, eliminating duplicates. -/
  | streamPacketReceive (p : StreamPkt)
  /-- R207: Flags a context that accepted no packet for STR_LOSS deals. -/
  | streamLost (ctx : Nat)
  /-- R193: Each second, reports a CRF listener's frequency offset and phase error. -/
  | crfReport (ctx : Nat)
  /-- R192: Answers ARP for STR_IP_ADDR while ARP_EN is set. -/
  | arpRequest (l : Nat) (addr : Nat)
  /-- R192: Answers an IGMP query with membership reports while IGMP_EN is set. -/
  | igmpQuery (l : Nat)
  /-- R365: Checks slot alignment at each frame start and declares a slip. -/
  | sapFrameStart (f : FrameIn)
  /-- R366: Restarts a slipped direction at the next deal boundary, or after its group relocks. -/
  | sapRestart (d : Nat)
  /-- R364: A direction with no frame start for 1 ms loses its clock. -/
  | sapClockLoss (d : Nat)
  /-- R364: Every 64 deals, writes RATE and NOMINAL and queues a rate-change record. -/
  | sapRateUpdate (d : Nat) (mhz : Nat)
  /-- R371: A receiver locks after two block preambles 192 frames apart. -/
  | aesLock (r : Nat) (mhz : Nat)
  /-- R371: A receiver loses lock on missing preambles or repeated violations. -/
  | aesUnlock (r : Nat)
  /-- R371: Replaces a subframe with a violation or parity error by the previous sample and counts it. -/
  | aesSubframeError (e : AesErr)
  /-- R372: Latches channel-status and user bits at each block end and checks the CRCC. -/
  | aesBlockEnd (b : AesBlk)
  /-- R393: A once, periodic or daily schedule entry fires as a request. -/
  | scheduleFire (e : Nat)
  /-- R393: A pin held active for 8 deals fires its schedule entry. -/
  | gpioTrigger (e : Nat)
  /-- R393: With RELEASE_STOPS, a pin inactive for 8 deals stops the play. -/
  | gpioRelease (e : Nat)
  /-- R388: Ends a request that has waited for its message's wait limit. -/
  | annWaitLimit (k : Nat)
  /-- R390: A play reaches its end and fades out of its zones. -/
  | annPlayEnd (p : Nat)
  /-- R383: A page that reaches its page limit ends with its closing chime. -/
  | annPageLimit (p : Nat)
  /-- R382: A clip whose units fail authentication plays as silence. -/
  | clipError (p : Nat) (unit : Nat)
  /-- R381: Switches a written and verified clip into the directory and writes DONE. -/
  | clipWriteDone (clip : Nat)
  /-- R439: Reads back and verifies a staged image and raises EV_FW_STAGED. -/
  | fwStageDone
  /-- R342: Writes the deconvolved responses and RESULT, frees the blocks and completes the run. -/
  | measureDone
  /-- R347: Declares a channel converged after 8,000 deals at 20 dB ERLE. -/
  | icomConverged (c : Nat) (erle : Nat)
  /-- R347: Zeroes a diverged channel's filter and raises EV_ICOM_DIVERGED. -/
  | icomDiverged (c : Nat)
  /-- R348: The start of near-end speech requests the channel's duck zone. -/
  | icomTalk (c : Nat)
  /-- R348: HOLD_MS after near-end speech ends, the duck ramps out. -/
  | duckHoldExpiry (c : Nat)
  /-- R416: Receives a DIGEST record and updates reach and divergence. -/
  | digestRecordReceive (r : DigRec)
  /-- R415: Fences a member that no one has reached for REACH_DEALS deals, or self-fences. -/
  | reachTimeout (j : Nat)
  /-- R419: The lowest managing trio index becomes active manager and time source. -/
  | activeChange
  /-- R420: A worker enters autonomous mode after AUTO_DEALS without a managing record. -/
  | autonomousEnter
  /-- R406: The active manager records a seat's JOINED state and answers it. -/
  | joinReportReceive (r : JoinRep)
  /-- R406: A candidate's enrolment exchange reaches the active manager, which raises EV_SEAT_CANDIDATE. -/
  | enrolmentReceive (a : Nat) (b : Nat) (ids : CandIds)
  /-- R423: A source starts serving a copy of its checkpoint. -/
  | copyReqReceive (seat : Nat) (spare : Bool)
  /-- R423: Receives a copy fragment, and loads and replays the image when it is complete. -/
  | snapshotReceive (f : SnapIn)
  /-- R425: Restarts a copy with the other member after a fragment gap of 16 deals or DOM_COPY.DEALS. -/
  | copyTimeout
  /-- R424: A spare whose digest matched for two deals joins the trio. -/
  | spareJoin
  /-- R426: Removes a dissenting service core from the vote and resynchronises it. -/
  | svcCoreDissent (k : Nat)
  /-- R426: Completes the copy into a dissenting core, which rejoins the vote. -/
  | svcResyncDone (k : Nat)
  /-- R436: A self-test or integrity failure bypasses the device and is followed by a system reset. -/
  | kolicaFault
  /-- R449: KEY_GRACE_S after a rotation, erases the previous ring key. -/
  | keyGraceExpiry
  /-- R438: After 600 s without reset, blows SVN fuses for the image on trial. -/
  | fwCommit
  /-- R452: JTAG reads a fresh debug challenge. -/
  | debugChallengeRead
  /-- R452: A valid signed response unlocks debug after a planned leave. -/
  | debugResponse (key : Nat) (ok : Bool)
  /-- R452: Selecting EXTEST holds the device in system reset. -/
  | extestSelect
  /-- R461: After DWELL deals of a deeper target, starts entry to it. -/
  | powerEntryStart
  /-- R457: Completes entry to a power state and raises EV_POWER_STATE. -/
  | powerEntryDone
  /-- R462: Completes a wake, restoring every service in the first deal after it. -/
  | wakeDone
  /-- R467: Supplies rising with PWRGOOD start a power-on reset. -/
  | powerOn
  /-- R467: RESET_N low starts a pin reset with the drives low. -/
  | resetNAssert
  /-- R485: At the end of reset, samples the boot strap and boots the verified image. -/
  | resetRelease (b : BootIn)
  /-- R485: PWRGOOD falling drops the drives and holds the device in reset. -/
  | pwrgoodFall
  /-- R473: Writes a full deck live for 60 s to the resume area. -/
  | resumeDeckSave
  /-- R473: After a reset and time lock, stages the newest authentic resume copy and cuts it. -/
  | resumeDeckRestore (authentic : Nat)
  /-- R486: A rail leaves its limits for 10 µs, and the device bypasses and raises EV_SUPPLY. -/
  | supplyOutOfLimits (rail : Nat) (mv : Nat)
  /-- R486: A rail back in range for 1 ms raises EV_SUPPLY phase 1. -/
  | supplyBack (rail : Nat) (mv : Nat)
  /-- R497: Measures the junction temperature every 1 ms and drives THERM_N and the watermark. -/
  | tjSample (t : Int)
  /-- R19: Corrects, writes back and counts a single-bit error. -/
  | eccCorrected (bank : Nat)
  /-- R502: A double-bit error is handled per region and reported by EV_ECC_UNCORRECTED. -/
  | eccUncorrected (bank : Nat) (word : Nat) (t : EccHit)
  /-- R160: A port's MKA peer stops being live, its secure channel becomes unsecured, its SA is withdrawn and EV_MACSEC_UNSECURED cause 1 is raised. -/
  | mkaPeerLost (p : Nat)
  /-- R446: A candidate or a seat without a common CAK receives a key package or the last ring-key buffer through the enrolment exchange and installs it. -/
  | keyPackageReceive (c : Cmd)
  /-- R481: Releasing PCIE_PERST_N ends the link reset and starts PCIe link training. -/
  | pciePerstRelease
  /-- R452: Leaving the EXTEST instruction ends the system reset in which the device was held. -/
  | extestRelease
  /-- R168: The last byte of a queued frame leaves its egress port, returning its buffer tokens and freeing the port for the next queued frame. -/
  | egressFrameEnd (p : Nat) (now : Nat)
  /-- R183: A gate-control-list interval expires and the next entry's gate states take force, starting frames held for a closed gate. -/
  | gateIntervalEnd (p : Nat) (now : Nat)
deriving DecidableEq, Repr

end Sys2Proof
end

