-- ==== Sys2Proof/WellFormed.lean ====
section
/-! DEFINITION. When a command is well formed: its operands fit the fields that carry them, and its indices name what exists. -/
namespace Sys2Proof

/-- A host command's fields fit its descriptor (03 Table 3.14). -/
def Cmd.wf (c : Cmd) : Bool :=
  c.pay.length == 40 && c.tag < 2 ^ 32 && c.flags < 2 ^ 16 && c.target < 2 ^ 16 && c.rsvd < 2 ^ 48 && c.deal < 2 ^ 64

/-- A descriptor. -/
def Desc.wf (d : Desc) : Bool := d.op < 2 ^ 16 && Cmd.wf d.cmd

/-- What a poll reads: 16 producer words, 16 and 8 consumer words, and the descriptors of 16 rings (03 Tables 3.1, 3.5). -/
def PollIn.wf (p : PollIn) : Bool :=
  p.sqProd.length == 16 && p.cqCons.length == 16 && p.eqCons.length == 8 && p.descs.length == 16 &&
    (p.sqProd ++ p.cqCons ++ p.eqCons ++ [p.ackSeq, p.ackMask]).all (fun v => v < 2 ^ 32) && p.descs.all (fun l => l.all Desc.wf)

/-- A tunnel-request fragment (06 R165). -/
def TunnelReq.wf (r : TunnelReq) : Bool :=
  r.seat < 1024 && r.tunId < 2 ^ 32 && r.mgrSeq < 2 ^ 32 && r.idx < r.cnt && r.cnt < 2 ^ 16 && Desc.wf r.whole

/-- An aligned word of the 256 KiB of BAR0, or the control word of the MSI-X capability (00 R3, 03 Table 3.1). -/
def RegAddr.wf (a : RegAddr) : Bool := match a with | .bar off => off % 4 == 0 && off < 0x40000 | _ => true

/-- A well-formed command. -/
def Instr.wf (i : Instr) : Bool :=
  match i with
  | .deckStage c => Cmd.wf c
  | .deckCut c => Cmd.wf c
  | .deckDigest c => Cmd.wf c
  | .trajPush c => Cmd.wf c
  | .trajClear c => Cmd.wf c
  | .objSet c => Cmd.wf c
  | .spkLoad c => Cmd.wf c
  | .corrLoad c => Cmd.wf c
  | .measureRun c => Cmd.wf c
  | .streamOpen c => Cmd.wf c
  | .streamClose c => Cmd.wf c
  | .chmapWrite c => Cmd.wf c
  | .portStartGroup c => Cmd.wf c
  | .portStop c => Cmd.wf c
  | .refConfig c => Cmd.wf c
  | .rampLoad c => Cmd.wf c
  | .clipWrite c => Cmd.wf c
  | .msgDefine c => Cmd.wf c
  | .schedWrite c => Cmd.wf c
  | .annPlay c => Cmd.wf c
  | .annStop c => Cmd.wf c
  | .trumpClear c => Cmd.wf c
  | .icomConnect c => Cmd.wf c
  | .powerTolerance c => Cmd.wf c
  | .latencyQuery c => Cmd.wf c
  | .counterQuery c => Cmd.wf c
  | .timeQuery c => Cmd.wf c
  | .eventDropPacket c => Cmd.wf c
  | .rosterLoad c => Cmd.wf c
  | .seatAdmit c => Cmd.wf c
  | .seatEvict c => Cmd.wf c
  | .keyRotate c => Cmd.wf c
  | .fwStage c => Cmd.wf c
  | .renderReset c => Cmd.wf c
  | .systemReset c => Cmd.wf c
  | .doorbellPoll p => PollIn.wf p
  | .tunnelRequestReceive r => TunnelReq.wf r
  | .tunnelReplyReceive r => r.tunId < 2 ^ 32 && r.status < 2 ^ 16 && r.deal < 2 ^ 64
  | .stamperAckReceive tunId stamped => tunId < 2 ^ 32 && stamped < 2 ^ 64
  | .tunnelTimeout tunId => tunId < 2 ^ 32
  | .tunnelReassemblyDiscard seat tunId => seat < 1024 && tunId < 2 ^ 32
  | .coalesceTimeout ring => 16 ≤ ring && ring < 40
  | .captureFifoLinger k => k < 2 ^ 16
  | .mdioDone data => data < 2 ^ 16
  | .phyStatusPoll p pma pcs => p < 2 && pma < 2 ^ 16 && pcs < 2 ^ 16
  | .tasChangeArm p _ => p < 4
  | .tasChangeApply p => p < 4
  | .csLoad t => t < 8
  | .uLoad t => t < 8
  | .aesTxShadowCopy t => t < 8
  | .sapMaskWrite d _ => d < 32
  | .kernelFault node cause _ _ => node < 8192 && 1 ≤ cause && cause ≤ 3
  | .laneOverflow cluster lanes signs _ => cluster < 16 && lanes < 256 && signs < 256
  | .bridgeLost ch _ => ch < 128
  | .bridgeLocked ch _ => ch < 128
  | .refLoss i _ => i < 5
  | .refBin b => b.offs.length == 5
  | .refDisqualified i => i < 5
  | .refQualified i => i < 5
  | .alignerWindowEnd a _ _ => a < 24
  | .rampSegmentEnd k => k < 8
  | .passThroughUnitLost unit => unit < 8
  | .markerReceive p _ => p < 2
  | .timeDirectionLost p => p < 2
  | .ptpMessageReceive l _ => l < 2
  | .ptpMessageInterval l _ => l < 2
  | .ptpAnnounceTimeout l _ => l < 2
  | .launchTimeReached p q _ => p < 4 && q < 2
  | .ticEdgeCapture ch _ _ _ => ch < 8
  | .ringFrameReceive p f => p < 2 && f.pcp < 8
  | .localFrameReceive p f => 2 ≤ p && p < 4 && f.pcp < 8
  | .linkDown p => p < 4
  | .linkUp p => p < 4
  | .mkpduReceive p _ => p < 4
  | .mkaHello p => p < 4
  | .markerLaunch p _ => p < 2
  | .markerMissed p => p < 2
  | .ringStatusReceive p _ => p < 2
  | .linkHeal p => p < 2
  | .verdictReceive p _ => p < 2
  | .streamPacketReceive p => p.port < 4
  | .streamLost ctx => ctx < 1024
  | .crfReport ctx => ctx < 1024
  | .arpRequest l _ => l == 2 || l == 3
  | .igmpQuery l => l == 2 || l == 3
  | .sapFrameStart f => f.dir < 32
  | .sapRestart d => d < 32
  | .sapClockLoss d => d < 48
  | .sapRateUpdate d _ => d < 48
  | .aesLock r _ => r < 8
  | .aesUnlock r => r < 8
  | .aesSubframeError e => e.r < 8
  | .aesBlockEnd b => b.r < 8
  | .scheduleFire e => e < 4096
  | .gpioTrigger e => e < 4096
  | .gpioRelease e => e < 4096
  | .icomConverged c _ => c < 32
  | .icomDiverged c => c < 32
  | .icomTalk c => c < 32
  | .duckHoldExpiry c => c < 32
  | .digestRecordReceive r => r.idx < 3
  | .reachTimeout j => j < 3
  | .joinReportReceive r => r.seat < 1024 && (r.a < 1024 || r.a == 0xFFFF) && (r.b < 1024 || r.b == 0xFFFF)
  | .copyReqReceive seat _ => seat < 1024
  | .snapshotReceive f => f.idx < f.cnt && f.last.length == 3
  | .svcCoreDissent k => k < 3
  | .svcResyncDone k => k < 3
  | .resetRelease b => b.strap < 4 && b.store < 3
  | .resumeDeckRestore authentic => authentic < 4
  | .supplyOutOfLimits rail mv => rail < 7 && mv < 2 ^ 16
  | .supplyBack rail mv => rail < 7 && mv < 2 ^ 16
  | .tjSample t => -32768 ≤ t && t < 32768
  | .eccCorrected bank => bank < 64
  | .eccUncorrected bank word _ => bank < 64 && word < 2 ^ 32
  | .mkaPeerLost p => p < 4
  | .keyPackageReceive c => Cmd.wf c
  | .registerWrite a _ => RegAddr.wf a
  | .rcRead a => RegAddr.wf a
  | .egressFrameEnd p _ => p < 4
  | .gateIntervalEnd p _ => p < 4
  | .heldCommandRelease | .stageHeldStart | .hifEnable | .hostReset .. | .flr | .pciePerst | .hostResetComplete | .dmaFault
  | .sysLock .. | .sysResetFull .. | .sysResetNow .. | .sysPbootGo .. | .pbootImageChecked .. | .secAttest .. | .attestReady
  | .mdioGo .. | .timModeWrite .. | .ringEnableSet .. | .ringEnableClear .. | .forceBypass .. | .gpioOutSet .. | .gpioOutClr ..
  | .dealTick .. | .dealCommit .. | .deckStageReady | .deckStageRefused | .refFirstEdge ..
  | .histValidSet | .holdoverEstimate .. | .savedValueStore .. | .syncInEdge .. | .xoLoss | .timeFirstStep | .timeLock
  | .stepRefused | .slewDone | .todPpsEdge | .ppsOutSecond | .ticAnchor .. | .ticTimebaseLost .. | .ticTimebaseRelock ..
  | .ringStatusApply | .epochGraceEnd | .loopbackTestDone .. | .relaySettled | .keyingTimeout | .insertRetry | .leaveDrivesDrop
  | .annWaitLimit .. | .annPlayEnd .. | .annPageLimit .. | .clipError .. | .clipWriteDone .. | .fwStageDone | .measureDone
  | .activeChange | .autonomousEnter | .enrolmentReceive .. | .copyTimeout | .spareJoin | .kolicaFault | .keyGraceExpiry | .fwCommit
  | .debugChallengeRead | .debugResponse .. | .extestSelect | .powerEntryStart | .powerEntryDone | .wakeDone | .powerOn
  | .resetNAssert | .pwrgoodFall | .resumeDeckSave | .pciePerstRelease | .extestRelease => true

end Sys2Proof
end

