-- ==== Sys2Proof/Decode.lean ====
section
/-! DEFINITION. The command that a word of the opcode table spells. The table gives no row any bits: the block takes its commands as
descriptors, register accesses, frames and pins, and a word spells none. -/
namespace Sys2Proof

/-- The command that a word of nbits bits spells. -/
def decodeTableWord (_nbits _w : Nat) : Option Instr := none

end Sys2Proof
end

