-- ==== Sys2Proof/Config.lean ====
section
/-! DEFINITION. What a part fixes and what the manual leaves open: constants without a body. -/
namespace Sys2Proof.Config

/-- The fused base MAC address of the part (06 Table 6.8, reset value "Fused"). -/
opaque macBase : Nat

/-- Bytes X and Y of the part's IDevID public key (16 Table 16.1, fused). -/
opaque idevKey : Nat → BitVec 8

/-- A free value of 32 bits: the n-th open sample, number or nonce the manual does not fix. -/
opaque freeWord : Nat → BitVec 32

/-- The deviation, in LSB, of a pan, spread or zone gain from its exactly rounded value (11 R304 allows four either way).
It depends on the inputs of the law alone: every part of one stepping gives the same bits. -/
opaque gainLsb : List Int → Int

/-- The signs of the maximum-length sequence of an order (12 R341 names its order alone). -/
opaque mlsBit : Nat → Nat → Bool

/-- The deviation, in LSB, of a sweep sample from its exactly rounded value (12 R341 gives the value, not its rounding). -/
opaque sweepLsb : Int → Nat → Int

/-- A digest of 64 bits over a sequence of bytes, where the manual names SHA-384 (08 R226, 15 R401, 16 R432). -/
opaque sha384Low : List (BitVec 8) → Nat

/-- The measurement digest of the running image, as words (16 R444). -/
opaque measurement : List Nat → List (BitVec 32)

/-- The deviation, in LSB, of a ducking gain from its exactly rounded value (12 R348 gives the depth, not the word). -/
opaque duckLsb : Nat → Int

/-- Bytes X and Y of the public key of the n-th LDevID key pair that the part generates (16 R431, R435). -/
opaque pubKey : Nat → Nat → BitVec 8

/-- The words of the part's IDevID certificate, and its length in bytes (16 Table 16.5). -/
opaque idevCert : Nat → BitVec 32
opaque idevCertLen : Nat

/-- The check byte of a professional channel-status block over its first 23 bytes (13 R373 names the CRCC of AES3-2009). -/
opaque aesCrcc : Nat → BitVec 8

/-- The clock identity of the part's PTP instance (05 Table 5.5 reports identities of IEEE 1588-2019). -/
opaque clockId : Nat

/-- The IEEE 802.1X-2020 KDF of 16 R447 over the ring key of a number, with the seats of a link: the CAK, 32 bytes. -/
opaque ringCak : Nat → Nat → Nat → Nat

/-- The CAK that a KEY_ROTATE of kind 4 wraps for a CKN (16 R448). -/
opaque localCak : Nat → Nat

/-- The step of the servo's control word in a second, in ppb, for a loop bandwidth, a frequency difference in ppb and, for domain time, a
phase in ps (04 R96 names the bandwidth and no law). -/
opaque servoStep : Nat → Int → Int → Int

/-- The set-up fields that the board-settings section of a build presets (17 R472), as register words by BAR0 offset. -/
opaque boardSettings : Nat → List (Nat × Nat)

end Sys2Proof.Config
end

