-- ==== Sys2Proof/Machine/Regs.lean ====
section
/-! DEFINITION. Every register field of BAR0 as the register tables of the spec give it: offset in BAR0, place, width, type,
reset value, repetition and legal range (00 R3-R6). A reset value the tables give as Fused, Pins or Cause stands as 0 here. -/
namespace Sys2Proof

/-- The field types of 00 Table 0.4. -/
inductive FTyp where
  | rw | ro | wo | w1c | w1s | rwl | rc
deriving DecidableEq, Repr

/-- A register field, repeated n1 times at stride s1 and each of those n2 times at stride s2. ok lists the legal ranges of
a written value (00 R6); the empty list admits every value. -/
structure Fld where
  addr : Nat
  lsb : Nat
  width : Nat
  typ : FTyp
  reset : Nat
  n1 : Nat
  s1 : Nat
  n2 : Nat
  s2 : Nat
  ok : List (Nat × Nat)
deriving DecidableEq, Repr

namespace F

/-- 02 Table 2.5, R40. -/
def GRF_DOMAIN_RATE_A : Fld := ⟨0xB000, 0, 2, .rw, 0, 1, 0, 1, 0, [(0, 1)]⟩
/-- 02 Table 2.5, R40. -/
def GRF_LOAD_LAST_CYCLES : Fld := ⟨0xB004, 0, 18, .ro, 0, 1, 0, 1, 0, []⟩
/-- 02 Table 2.5, R40. -/
def GRF_LOAD_MEAN_CYCLES : Fld := ⟨0xB008, 0, 18, .ro, 0, 1, 0, 1, 0, []⟩
/-- 02 Table 2.5, R40. -/
def GRF_LOAD_MAX_CYCLES : Fld := ⟨0xB00C, 0, 18, .rc, 0, 1, 0, 1, 0, []⟩
/-- 02 Table 2.5, R40. -/
def GRF_OVERRUN_CNT_COUNT : Fld := ⟨0xB010, 0, 32, .ro, 0, 1, 0, 1, 0, []⟩
/-- 02 Table 2.5, R40. -/
def GRF_OVERRUN_CTRL_REPEAT_DEALS : Fld := ⟨0xB014, 0, 16, .rw, 8000, 1, 0, 1, 0, []⟩
/-- 02 Table 2.5, R40. -/
def GRF_LOAD_WARN_THRESH : Fld := ⟨0xB018, 0, 18, .rw, 135000, 1, 0, 1, 0, []⟩
/-- 02 Table 2.5, R40. -/
def GRF_BRIDGE_LOCK_LOCKED : Fld := ⟨0xB020, 0, 32, .ro, 0, 4, 4, 1, 0, []⟩
/-- 03 Table 3.2, R51. -/
def SYS_ID_PART : Fld := ⟨0x0, 0, 16, .ro, 28992, 1, 0, 1, 0, []⟩
/-- 03 Table 3.2, R51. -/
def SYS_ID_STEPPING : Fld := ⟨0x0, 16, 8, .ro, 32, 1, 0, 1, 0, []⟩
/-- 03 Table 3.2, R51. -/
def SYS_ID_FAMILY : Fld := ⟨0x0, 24, 8, .ro, 1, 1, 0, 1, 0, []⟩
/-- 03 Table 3.3, R52. -/
def HIF_CTRL_ENABLE : Fld := ⟨0x1000, 0, 1, .w1s, 0, 1, 0, 1, 0, []⟩
/-- 03 Table 3.3, R52. -/
def HIF_CTRL_HOST_RESET : Fld := ⟨0x1000, 1, 1, .wo, 0, 1, 0, 1, 0, []⟩
/-- 03 Table 3.3, R52. -/
def HIF_CTRL_POLL4 : Fld := ⟨0x1000, 2, 1, .rw, 0, 1, 0, 1, 0, []⟩
/-- 03 Table 3.3, R52. -/
def HIF_CTRL_FAULT_VEC : Fld := ⟨0x1000, 3, 6, .rw, 0, 1, 0, 1, 0, []⟩
/-- 03 Table 3.3, R52. -/
def HIF_STATUS_RUNNING : Fld := ⟨0x1004, 0, 1, .ro, 0, 1, 0, 1, 0, []⟩
/-- 03 Table 3.3, R52. -/
def HIF_STATUS_RESET_BUSY : Fld := ⟨0x1004, 1, 1, .ro, 0, 1, 0, 1, 0, []⟩
/-- 03 Table 3.3, R52. -/
def HIF_STATUS_DMA_FAULT : Fld := ⟨0x1004, 2, 1, .ro, 0, 1, 0, 1, 0, []⟩
/-- 03 Table 3.3, R52. -/
def HIF_STATUS_CFG_ERR : Fld := ⟨0x1004, 3, 1, .ro, 0, 1, 0, 1, 0, []⟩
/-- 03 Table 3.3, R52. -/
def HIF_STATUS_CFG_ERR_CODE : Fld := ⟨0x1004, 4, 4, .ro, 0, 1, 0, 1, 0, []⟩
/-- 03 Table 3.3, R52. -/
def HIF_STATUS_CFG_ERR_ITEM : Fld := ⟨0x1004, 8, 6, .ro, 0, 1, 0, 1, 0, []⟩
/-- 03 Table 3.3, R52. -/
def HIF_DB_ADDR_LO_ADDR : Fld := ⟨0x1008, 6, 26, .rw, 0, 1, 0, 1, 0, []⟩
/-- 03 Table 3.3, R52. -/
def HIF_DB_ADDR_HI_ADDR : Fld := ⟨0x100C, 0, 32, .rw, 0, 1, 0, 1, 0, []⟩
/-- 03 Table 3.3, R52. -/
def HIF_CONS_ADDR_LO_ADDR : Fld := ⟨0x1010, 7, 25, .rw, 0, 1, 0, 1, 0, []⟩
/-- 03 Table 3.3, R52. -/
def HIF_CONS_ADDR_HI_ADDR : Fld := ⟨0x1014, 0, 32, .rw, 0, 1, 0, 1, 0, []⟩
/-- 03 Table 3.3, R52. -/
def HIF_STAT_ADDR_LO_ADDR : Fld := ⟨0x1018, 8, 24, .rw, 0, 1, 0, 1, 0, []⟩
/-- 03 Table 3.3, R52. -/
def HIF_STAT_ADDR_HI_ADDR : Fld := ⟨0x101C, 0, 32, .rw, 0, 1, 0, 1, 0, []⟩
/-- 03 Table 3.3, R52. -/
def HIF_EVT_ROUTE_RING0 : Fld := ⟨0x1024, 0, 4, .rw, 0, 2, 4, 1, 0, [(0, 7)]⟩
/-- 03 Table 3.3, R52. -/
def HIF_EVT_ROUTE_RING1 : Fld := ⟨0x1020, 4, 4, .rw, 0, 3, 4, 1, 0, [(0, 7)]⟩
/-- 03 Table 3.3, R52. -/
def HIF_EVT_ROUTE_RING2 : Fld := ⟨0x1020, 8, 4, .rw, 0, 3, 4, 1, 0, [(0, 7)]⟩
/-- 03 Table 3.3, R52. -/
def HIF_EVT_ROUTE_RING3 : Fld := ⟨0x1020, 12, 4, .rw, 0, 3, 4, 1, 0, [(0, 7)]⟩
/-- 03 Table 3.3, R52. -/
def HIF_EVT_ROUTE_RING4 : Fld := ⟨0x1020, 16, 4, .rw, 0, 3, 4, 1, 0, [(0, 7)]⟩
/-- 03 Table 3.3, R52. -/
def HIF_EVT_ROUTE_RING5 : Fld := ⟨0x1020, 20, 4, .rw, 0, 3, 4, 1, 0, [(0, 7)]⟩
/-- 03 Table 3.3, R52. -/
def HIF_EVT_ROUTE_RING6 : Fld := ⟨0x1020, 24, 4, .rw, 0, 3, 4, 1, 0, [(0, 7)]⟩
/-- 03 Table 3.3, R52. -/
def HIF_EVT_ROUTE_RING7 : Fld := ⟨0x1020, 28, 4, .rw, 0, 3, 4, 1, 0, [(0, 7)]⟩
/-- 03 Table 3.3, R52. -/
def HIF_LINGER_DEALS : Fld := ⟨0x102C, 0, 16, .rw, 80, 1, 0, 1, 0, [(1, 65535)]⟩
/-- 03 Table 3.3, R52. -/
def HIF_TUNNEL_TMO_DEALS : Fld := ⟨0x1030, 0, 16, .rw, 800, 1, 0, 1, 0, [(16, 65535)]⟩
/-- 03 Table 3.3, R52. -/
def HIF_EV_DISCARD_COUNT : Fld := ⟨0x1034, 0, 32, .ro, 0, 1, 0, 1, 0, []⟩
/-- 03 Table 3.3, R52. -/
def HIF_WIN_BASE_LO_BASE : Fld := ⟨0x1040, 12, 20, .rw, 0, 8, 16, 1, 0, []⟩
/-- 03 Table 3.3, R52. -/
def HIF_WIN_BASE_HI_BASE : Fld := ⟨0x1044, 0, 32, .rw, 0, 8, 16, 1, 0, []⟩
/-- 03 Table 3.3, R52. -/
def HIF_WIN_SIZE_PAGES : Fld := ⟨0x1048, 0, 20, .rw, 0, 8, 16, 1, 0, []⟩
/-- 03 Table 3.3, R52. -/
def HIF_WIN_CTRL_READ : Fld := ⟨0x104C, 0, 1, .rw, 0, 8, 16, 1, 0, []⟩
/-- 03 Table 3.3, R52. -/
def HIF_WIN_CTRL_WRITE : Fld := ⟨0x104C, 1, 1, .rw, 0, 8, 16, 1, 0, []⟩
/-- 03 Table 3.3, R52. -/
def HIF_SQ_BASE_LO_BASE : Fld := ⟨0x1100, 12, 20, .rw, 0, 16, 16, 1, 0, []⟩
/-- 03 Table 3.3, R52. -/
def HIF_SQ_BASE_HI_BASE : Fld := ⟨0x1104, 0, 32, .rw, 0, 16, 16, 1, 0, []⟩
/-- 03 Table 3.3, R52. -/
def HIF_SQ_SIZE_LOG2 : Fld := ⟨0x1108, 0, 4, .rw, 0, 16, 16, 1, 0, []⟩
/-- 03 Table 3.3, R52. -/
def HIF_SQ_CTRL_CQ : Fld := ⟨0x110C, 0, 4, .rw, 0, 16, 16, 1, 0, []⟩
/-- 03 Table 3.3, R52. -/
def HIF_SQ_CTRL_BURST : Fld := ⟨0x110C, 4, 8, .rw, 32, 16, 16, 1, 0, []⟩
/-- 03 Table 3.3, R52. -/
def HIF_CQ_BASE_LO_BASE : Fld := ⟨0x1200, 12, 20, .rw, 0, 16, 16, 1, 0, []⟩
/-- 03 Table 3.3, R52. -/
def HIF_CQ_BASE_HI_BASE : Fld := ⟨0x1204, 0, 32, .rw, 0, 16, 16, 1, 0, []⟩
/-- 03 Table 3.3, R52. -/
def HIF_CQ_SIZE_LOG2 : Fld := ⟨0x1208, 0, 4, .rw, 0, 16, 16, 1, 0, []⟩
/-- 03 Table 3.3, R52. -/
def HIF_CQ_CTRL_VEC : Fld := ⟨0x120C, 0, 6, .rw, 0, 16, 16, 1, 0, []⟩
/-- 03 Table 3.3, R52. -/
def HIF_CQ_CTRL_MSIX_EN : Fld := ⟨0x120C, 6, 1, .rw, 0, 16, 16, 1, 0, []⟩
/-- 03 Table 3.3, R52. -/
def HIF_CQ_CTRL_COAL_CNT : Fld := ⟨0x120C, 8, 8, .rw, 1, 16, 16, 1, 0, []⟩
/-- 03 Table 3.3, R52. -/
def HIF_CQ_CTRL_COAL_DEALS : Fld := ⟨0x120C, 16, 8, .rw, 0, 16, 16, 1, 0, []⟩
/-- 03 Table 3.3, R52. -/
def HIF_EQ_BASE_LO_BASE : Fld := ⟨0x1300, 12, 20, .rw, 0, 8, 16, 1, 0, []⟩
/-- 03 Table 3.3, R52. -/
def HIF_EQ_BASE_HI_BASE : Fld := ⟨0x1304, 0, 32, .rw, 0, 8, 16, 1, 0, []⟩
/-- 03 Table 3.3, R52. -/
def HIF_EQ_SIZE_LOG2 : Fld := ⟨0x1308, 0, 4, .rw, 0, 8, 16, 1, 0, []⟩
/-- 03 Table 3.3, R52. -/
def HIF_EQ_CTRL_VEC : Fld := ⟨0x130C, 0, 6, .rw, 0, 8, 16, 1, 0, []⟩
/-- 03 Table 3.3, R52. -/
def HIF_EQ_CTRL_MSIX_EN : Fld := ⟨0x130C, 6, 1, .rw, 0, 8, 16, 1, 0, []⟩
/-- 03 Table 3.3, R52. -/
def HIF_EQ_CTRL_COAL_CNT : Fld := ⟨0x130C, 8, 8, .rw, 1, 8, 16, 1, 0, []⟩
/-- 03 Table 3.3, R52. -/
def HIF_EQ_CTRL_COAL_DEALS : Fld := ⟨0x130C, 16, 8, .rw, 0, 8, 16, 1, 0, []⟩
/-- 03 Table 3.3, R52. -/
def HIF_EQ_CTRL_WM : Fld := ⟨0x130C, 24, 3, .rw, 0, 8, 16, 1, 0, []⟩
/-- 04 Table 4.3, R122. -/
def CLK_CTRL_SAVE_EN : Fld := ⟨0x4000, 0, 1, .rw, 1, 1, 0, 1, 0, []⟩
/-- 04 Table 4.3, R122. -/
def CLK_CTRL_REVERT : Fld := ⟨0x4000, 1, 1, .rw, 1, 1, 0, 1, 0, []⟩
/-- 04 Table 4.3, R122. -/
def CLK_SERVO_BW : Fld := ⟨0x4004, 0, 2, .rw, 1, 1, 0, 1, 0, []⟩
/-- 04 Table 4.3, R122. -/
def CLK_SERVO_FSLEW : Fld := ⟨0x4004, 8, 8, .rw, 10, 1, 0, 1, 0, [(1, 255)]⟩
/-- 04 Table 4.3, R122. -/
def CLK_MON_AVG_S : Fld := ⟨0x4008, 0, 8, .rw, 4, 1, 0, 1, 0, [(1, 255)]⟩
/-- 04 Table 4.3, R122. -/
def CLK_MON_DWELL_S : Fld := ⟨0x4008, 8, 8, .rw, 10, 1, 0, 1, 0, [(1, 255)]⟩
/-- 04 Table 4.3, R122. -/
def CLK_MON_QUAL_S : Fld := ⟨0x4008, 16, 8, .rw, 10, 1, 0, 1, 0, [(1, 255)]⟩
/-- 04 Table 4.3, R122. -/
def CLK_MON_LOSS_PER : Fld := ⟨0x4008, 24, 4, .rw, 4, 1, 0, 1, 0, [(2, 15)]⟩
/-- 04 Table 4.3, R122. -/
def CLK_DISAGREE_PPB : Fld := ⟨0x400C, 0, 24, .rw, 2000, 1, 0, 1, 0, []⟩
/-- 04 Table 4.3, R122. -/
def CLK_XO_AGE_AGE : Fld := ⟨0x4010, 0, 20, .rw, 0, 1, 0, 1, 0, []⟩
/-- 04 Table 4.3, R122. -/
def CLK_XO_EPOCH_SEC : Fld := ⟨0x4014, 0, 32, .rw, 0, 1, 0, 1, 0, []⟩
/-- 04 Table 4.3, R122. -/
def CLK_HOLD_LIMIT_NS : Fld := ⟨0x4018, 0, 32, .rw, 10000, 1, 0, 1, 0, []⟩
/-- 04 Table 4.3, R122. -/
def CLK_HOLD_Y0_NORMAL : Fld := ⟨0x401C, 0, 16, .rw, 16, 1, 0, 1, 0, []⟩
/-- 04 Table 4.3, R122. -/
def CLK_HOLD_Y0_SAVED : Fld := ⟨0x401C, 16, 16, .rw, 800, 1, 0, 1, 0, []⟩
/-- 04 Table 4.3, R122. -/
def CLK_HOLD_DRIFT_AGE_UNC : Fld := ⟨0x4020, 0, 16, .rw, 16, 1, 0, 1, 0, []⟩
/-- 04 Table 4.3, R122. -/
def CLK_HOLD_DRIFT_TEMPCO : Fld := ⟨0x4020, 16, 16, .rw, 16, 1, 0, 1, 0, []⟩
/-- 04 Table 4.3, R122. -/
def CLK_LOCK_PPM : Fld := ⟨0x4024, 0, 8, .rw, 10, 1, 0, 1, 0, [(1, 255)]⟩
/-- 04 Table 4.3, R122. -/
def CLK_STATE_MODE : Fld := ⟨0x4040, 0, 3, .ro, 0, 1, 0, 1, 0, []⟩
/-- 04 Table 4.3, R122. -/
def CLK_STATE_SEL : Fld := ⟨0x4040, 4, 3, .ro, 7, 1, 0, 1, 0, []⟩
/-- 04 Table 4.3, R122. -/
def CLK_STATE_HIST_VALID : Fld := ⟨0x4040, 8, 1, .ro, 0, 1, 0, 1, 0, []⟩
/-- 04 Table 4.3, R122. -/
def CLK_STATE_SAVED_VALID : Fld := ⟨0x4040, 9, 1, .ro, 0, 1, 0, 1, 0, []⟩
/-- 04 Table 4.3, R122. -/
def CLK_STATE_SOURCE : Fld := ⟨0x4040, 10, 1, .ro, 0, 1, 0, 1, 0, []⟩
/-- 04 Table 4.3, R122. -/
def CLK_STATE_BRIDGING : Fld := ⟨0x4040, 11, 1, .ro, 0, 1, 0, 1, 0, []⟩
/-- 04 Table 4.3, R122. -/
def CLK_FLAGS_REF_DISAGREE : Fld := ⟨0x4044, 0, 1, .w1c, 0, 1, 0, 1, 0, []⟩
/-- 04 Table 4.3, R122. -/
def CLK_FLAGS_HOLDOVER_OUT_OF_SPEC : Fld := ⟨0x4044, 1, 1, .w1c, 0, 1, 0, 1, 0, []⟩
/-- 04 Table 4.3, R122. -/
def CLK_AL_LOCK_LOCK : Fld := ⟨0x4048, 0, 24, .ro, 0, 1, 0, 1, 0, []⟩
/-- 04 Table 4.3, R122. -/
def CLK_AL_LOSS_LOSS : Fld := ⟨0x404C, 0, 24, .w1c, 0, 1, 0, 1, 0, []⟩
/-- 04 Table 4.3, R122. -/
def CLK_AL_RUN_RUN : Fld := ⟨0x4050, 0, 24, .ro, 0, 1, 0, 1, 0, []⟩
/-- 04 Table 4.3, R122. -/
def CLK_HOLD_EST_NS : Fld := ⟨0x4054, 0, 32, .ro, 0, 1, 0, 1, 0, []⟩
/-- 04 Table 4.3, R122. -/
def CLK_HOLD_SEC_SEC : Fld := ⟨0x4058, 0, 32, .ro, 0, 1, 0, 1, 0, []⟩
/-- 04 Table 4.3, R122. -/
def CLK_SAVED_AGE_SEC : Fld := ⟨0x405C, 0, 32, .ro, 4294967295, 1, 0, 1, 0, []⟩
/-- 04 Table 4.3, R122. -/
def CLK_REF_STAT_ENABLED : Fld := ⟨0x4060, 0, 1, .ro, 0, 5, 8, 1, 0, []⟩
/-- 04 Table 4.3, R122. -/
def CLK_REF_STAT_PRESENT : Fld := ⟨0x4060, 1, 1, .ro, 0, 5, 8, 1, 0, []⟩
/-- 04 Table 4.3, R122. -/
def CLK_REF_STAT_IN_TOL : Fld := ⟨0x4060, 2, 1, .ro, 0, 5, 8, 1, 0, []⟩
/-- 04 Table 4.3, R122. -/
def CLK_REF_STAT_QUALIFIED : Fld := ⟨0x4060, 3, 1, .ro, 0, 5, 8, 1, 0, []⟩
/-- 04 Table 4.3, R122. -/
def CLK_REF_STAT_SELECTED : Fld := ⟨0x4060, 4, 1, .ro, 0, 5, 8, 1, 0, []⟩
/-- 04 Table 4.3, R122. -/
def CLK_REF_STAT_RANK : Fld := ⟨0x4060, 8, 3, .ro, 0, 5, 8, 1, 0, []⟩
/-- 04 Table 4.3, R122. -/
def CLK_REF_STAT_TOL : Fld := ⟨0x4060, 16, 16, .ro, 0, 5, 8, 1, 0, []⟩
/-- 04 Table 4.3, R122. -/
def CLK_REF_OFS_PPB : Fld := ⟨0x4064, 0, 32, .ro, 0, 5, 8, 1, 0, []⟩
/-- 04 Table 4.3, R122. -/
def CLK_SYNC_STAT_ARMED : Fld := ⟨0x4088, 0, 1, .ro, 0, 1, 0, 1, 0, []⟩
/-- 04 Table 4.3, R122. -/
def CLK_SYNC_STAT_POL : Fld := ⟨0x4088, 1, 1, .ro, 0, 1, 0, 1, 0, []⟩
/-- 04 Table 4.3, R122. -/
def CLK_SYNC_MASK_MASK : Fld := ⟨0x408C, 0, 24, .ro, 0, 1, 0, 1, 0, []⟩
/-- 04 Table 4.3, R122. -/
def CLK_RAMP_STAT_ACTIVE : Fld := ⟨0x4090, 0, 8, .ro, 0, 1, 0, 1, 0, []⟩
/-- 04 Table 4.3, R122. -/
def CLK_RAMP_OFS_PPB : Fld := ⟨0x40A0, 0, 32, .ro, 0, 8, 4, 1, 0, []⟩
/-- 05 Table 5.6, R153. -/
def TIM_CTRL_MODE : Fld := ⟨0x5000, 0, 2, .rwl, 0, 1, 0, 1, 0, [(0, 2)]⟩
/-- 05 Table 5.6, R153. -/
def TIM_CTRL_PPS_OUT_EN : Fld := ⟨0x5000, 2, 1, .rw, 0, 1, 0, 1, 0, []⟩
/-- 05 Table 5.6, R153. -/
def TIM_CTRL_TOD_ARM : Fld := ⟨0x5000, 3, 1, .rw, 0, 1, 0, 1, 0, []⟩
/-- 05 Table 5.6, R153. -/
def TIM_CTRL_PPS_REF : Fld := ⟨0x5000, 4, 2, .rw, 0, 1, 0, 1, 0, []⟩
/-- 05 Table 5.6, R153. -/
def TIM_TOD_SEC_LO_SEC : Fld := ⟨0x5004, 0, 32, .rw, 0, 1, 0, 1, 0, []⟩
/-- 05 Table 5.6, R153. -/
def TIM_TOD_SEC_HI_SEC : Fld := ⟨0x5008, 0, 16, .rw, 0, 1, 0, 1, 0, []⟩
/-- 05 Table 5.6, R153. -/
def TIM_STEP_NS : Fld := ⟨0x500C, 0, 32, .rw, 1000, 1, 0, 1, 0, [(50, 1000000)]⟩
/-- 05 Table 5.6, R153. -/
def TIM_SLEW_RATE : Fld := ⟨0x5010, 0, 12, .rw, 500, 1, 0, 1, 0, [(1, 2000)]⟩
/-- 05 Table 5.6, R153. -/
def TIM_RING_FILT : Fld := ⟨0x5014, 0, 8, .rw, 16, 1, 0, 1, 0, [(1, 255)]⟩
/-- 05 Table 5.6, R153. -/
def TIM_RING_LOSS_DEALS : Fld := ⟨0x5014, 8, 8, .rw, 8, 1, 0, 1, 0, [(2, 255)]⟩
/-- 05 Table 5.6, R153. -/
def TIM_RING_DISAGREE_NS : Fld := ⟨0x5014, 16, 16, .rw, 60, 1, 0, 1, 0, []⟩
/-- 05 Table 5.6, R153. -/
def TIM_LOCK_NS : Fld := ⟨0x5018, 0, 16, .rw, 100, 1, 0, 1, 0, []⟩
/-- 05 Table 5.6, R153. -/
def TIM_LOCK_DEALS : Fld := ⟨0x5018, 16, 8, .rw, 16, 1, 0, 1, 0, [(1, 255)]⟩
/-- 05 Table 5.6, R153. -/
def TIM_UTC_OFFSET : Fld := ⟨0x501C, 0, 16, .rw, 37, 1, 0, 1, 0, []⟩
/-- 05 Table 5.6, R153. -/
def TIM_UTC_LI61 : Fld := ⟨0x501C, 16, 1, .rw, 0, 1, 0, 1, 0, []⟩
/-- 05 Table 5.6, R153. -/
def TIM_UTC_LI59 : Fld := ⟨0x501C, 17, 1, .rw, 0, 1, 0, 1, 0, []⟩
/-- 05 Table 5.6, R153. -/
def TIM_UTC_VALID : Fld := ⟨0x501C, 18, 1, .rw, 0, 1, 0, 1, 0, []⟩
/-- 05 Table 5.6, R153. -/
def TIM_PPS_WIDTH_MS : Fld := ⟨0x5020, 0, 10, .rw, 100, 1, 0, 1, 0, [(1, 999)]⟩
/-- 05 Table 5.6, R153. -/
def TIM_LAUNCH_LATE_NS : Fld := ⟨0x5024, 0, 16, .rw, 20000, 1, 0, 1, 0, []⟩
/-- 05 Table 5.6, R153. -/
def TIM_LAUNCH_HORIZON : Fld := ⟨0x5024, 16, 8, .rw, 64, 1, 0, 1, 0, [(1, 255)]⟩
/-- 05 Table 5.6, R153. -/
def TIM_PORT_ASYM_PS : Fld := ⟨0x5040, 0, 32, .rw, 0, 4, 16, 1, 0, []⟩
/-- 05 Table 5.6, R153. -/
def TIM_PORT_RX_EXT_PS : Fld := ⟨0x5044, 0, 20, .rw, 0, 4, 16, 1, 0, []⟩
/-- 05 Table 5.6, R153. -/
def TIM_PORT_TX_EXT_PS : Fld := ⟨0x5048, 0, 20, .rw, 0, 4, 16, 1, 0, []⟩
/-- 05 Table 5.6, R153. -/
def TIM_PTP_CTRL_ROLE : Fld := ⟨0x5080, 0, 3, .rw, 0, 2, 16, 1, 0, [(0, 5)]⟩
/-- 05 Table 5.6, R153. -/
def TIM_PTP_CTRL_PROFILE : Fld := ⟨0x5080, 3, 1, .rw, 0, 2, 16, 1, 0, []⟩
/-- 05 Table 5.6, R153. -/
def TIM_PTP_CTRL_ONE_STEP : Fld := ⟨0x5080, 4, 1, .rw, 0, 2, 16, 1, 0, []⟩
/-- 05 Table 5.6, R153. -/
def TIM_PTP_CTRL_L2 : Fld := ⟨0x5080, 5, 1, .rw, 0, 2, 16, 1, 0, []⟩
/-- 05 Table 5.6, R153. -/
def TIM_PTP_CTRL_DOMAIN : Fld := ⟨0x5080, 8, 8, .rw, 0, 2, 16, 1, 0, []⟩
/-- 05 Table 5.6, R153. -/
def TIM_PTP_PRIO_PRIORITY1 : Fld := ⟨0x5084, 0, 8, .rw, 128, 2, 16, 1, 0, []⟩
/-- 05 Table 5.6, R153. -/
def TIM_PTP_PRIO_PRIORITY2 : Fld := ⟨0x5084, 8, 8, .rw, 128, 2, 16, 1, 0, []⟩
/-- 05 Table 5.6, R153. -/
def TIM_PTP_INTV_LOG_SYNC : Fld := ⟨0x5088, 0, 8, .rw, 253, 2, 16, 1, 0, [(0, 1), (252, 255)]⟩
/-- 05 Table 5.6, R153. -/
def TIM_PTP_INTV_LOG_ANNOUNCE : Fld := ⟨0x5088, 8, 8, .rw, 1, 2, 16, 1, 0, [(0, 4), (253, 255)]⟩
/-- 05 Table 5.6, R153. -/
def TIM_PTP_INTV_LOG_DELAY : Fld := ⟨0x5088, 16, 8, .rw, 0, 2, 16, 1, 0, [(0, 5), (252, 255)]⟩
/-- 05 Table 5.6, R153. -/
def TIM_PTP_INTV_ANN_TMO : Fld := ⟨0x5088, 24, 4, .rw, 3, 2, 16, 1, 0, [(2, 10)]⟩
/-- 05 Table 5.6, R153. -/
def TIM_PTP_STAT_STATE : Fld := ⟨0x508C, 0, 4, .ro, 0, 2, 16, 1, 0, []⟩
/-- 05 Table 5.6, R153. -/
def TIM_PTP_STAT_AS_CAPABLE : Fld := ⟨0x508C, 4, 1, .ro, 0, 2, 16, 1, 0, []⟩
/-- 05 Table 5.6, R153. -/
def TIM_PTP_STAT_GM_CLASS : Fld := ⟨0x508C, 8, 8, .ro, 0, 2, 16, 1, 0, []⟩
/-- 05 Table 5.6, R153. -/
def TIM_PTP_STAT_STEPS : Fld := ⟨0x508C, 16, 16, .ro, 0, 2, 16, 1, 0, []⟩
/-- 05 Table 5.6, R153. -/
def TIM_STATE_LOCKED : Fld := ⟨0x50A0, 0, 1, .ro, 0, 1, 0, 1, 0, []⟩
/-- 05 Table 5.6, R153. -/
def TIM_STATE_EVER_LOCKED : Fld := ⟨0x50A0, 1, 1, .ro, 0, 1, 0, 1, 0, []⟩
/-- 05 Table 5.6, R153. -/
def TIM_STATE_HOLD : Fld := ⟨0x50A0, 2, 1, .ro, 0, 1, 0, 1, 0, []⟩
/-- 05 Table 5.6, R153. -/
def TIM_STATE_SLEWING : Fld := ⟨0x50A0, 3, 1, .ro, 0, 1, 0, 1, 0, []⟩
/-- 05 Table 5.6, R153. -/
def TIM_STATE_OFFGRID : Fld := ⟨0x50A0, 4, 1, .ro, 0, 1, 0, 1, 0, []⟩
/-- 05 Table 5.6, R153. -/
def TIM_STATE_PATH_A : Fld := ⟨0x50A0, 5, 1, .ro, 0, 1, 0, 1, 0, []⟩
/-- 05 Table 5.6, R153. -/
def TIM_STATE_PATH_B : Fld := ⟨0x50A0, 6, 1, .ro, 0, 1, 0, 1, 0, []⟩
/-- 05 Table 5.6, R153. -/
def TIM_STATE_SOURCE : Fld := ⟨0x50A0, 7, 1, .ro, 0, 1, 0, 1, 0, []⟩
/-- 05 Table 5.6, R153. -/
def TIM_STATE_SOURCE_SEAT : Fld := ⟨0x50A0, 16, 16, .ro, 65535, 1, 0, 1, 0, []⟩
/-- 05 Table 5.6, R153. -/
def TIM_OFFSET_PS : Fld := ⟨0x50A4, 0, 32, .ro, 0, 1, 0, 1, 0, []⟩
/-- 05 Table 5.6, R153. -/
def TIM_SLEW_REM_NS : Fld := ⟨0x50A8, 0, 32, .ro, 0, 1, 0, 1, 0, []⟩
/-- 05 Table 5.6, R153. -/
def TIM_FLAGS_STEP_REFUSED : Fld := ⟨0x50AC, 0, 1, .w1c, 0, 1, 0, 1, 0, []⟩
/-- 05 Table 5.6, R153. -/
def TIM_FLAGS_PATH_DISAGREE : Fld := ⟨0x50AC, 1, 1, .w1c, 0, 1, 0, 1, 0, []⟩
/-- 05 Table 5.6, R153. -/
def TIM_FLAGS_UNLOCKED : Fld := ⟨0x50AC, 2, 1, .w1c, 0, 1, 0, 1, 0, []⟩
/-- 05 Table 5.6, R153. -/
def TIM_LINK_A_PS : Fld := ⟨0x50B0, 0, 32, .ro, 0, 1, 0, 1, 0, []⟩
/-- 05 Table 5.6, R153. -/
def TIM_LINK_B_PS : Fld := ⟨0x50B4, 0, 32, .ro, 0, 1, 0, 1, 0, []⟩
/-- 05 Table 5.6, R153. -/
def TIM_GEN_GEN : Fld := ⟨0x50B8, 0, 16, .ro, 0, 1, 0, 1, 0, []⟩
/-- 05 Table 5.7, R154. -/
def TIC_CTRL_ENABLE : Fld := ⟨0x6000, 0, 1, .rw, 0, 1, 0, 1, 0, []⟩
/-- 05 Table 5.7, R154. -/
def TIC_CTRL_TB_EXT : Fld := ⟨0x6000, 1, 1, .rw, 0, 1, 0, 1, 0, []⟩
/-- 05 Table 5.7, R154. -/
def TIC_CTRL_ANCHOR : Fld := ⟨0x6000, 2, 1, .rw, 0, 1, 0, 1, 0, []⟩
/-- 05 Table 5.7, R154. -/
def TIC_STATUS_TB_LOCKED : Fld := ⟨0x6004, 0, 1, .ro, 0, 1, 0, 1, 0, []⟩
/-- 05 Table 5.7, R154. -/
def TIC_STATUS_EXT_PRESENT : Fld := ⟨0x6004, 1, 1, .ro, 0, 1, 0, 1, 0, []⟩
/-- 05 Table 5.7, R154. -/
def TIC_STATUS_TB_HOLD : Fld := ⟨0x6004, 2, 1, .ro, 0, 1, 0, 1, 0, []⟩
/-- 05 Table 5.7, R154. -/
def TIC_STATUS_EPOCH : Fld := ⟨0x6004, 8, 8, .ro, 0, 1, 0, 1, 0, []⟩
/-- 05 Table 5.7, R154. -/
def TIC_FLAGS_TB_LOST : Fld := ⟨0x6008, 0, 1, .w1c, 0, 1, 0, 1, 0, []⟩
/-- 05 Table 5.7, R154. -/
def TIC_CH_EN : Fld := ⟨0x6020, 0, 1, .rw, 0, 8, 4, 1, 0, []⟩
/-- 05 Table 5.7, R154. -/
def TIC_CH_FALL : Fld := ⟨0x6020, 1, 1, .rw, 0, 8, 4, 1, 0, []⟩
/-- 05 Table 5.7, R154. -/
def TIC_CH_BOTH : Fld := ⟨0x6020, 2, 1, .rw, 0, 8, 4, 1, 0, []⟩
/-- 05 Table 5.7, R154. -/
def TIC_CH_DIV : Fld := ⟨0x6020, 4, 24, .rw, 0, 8, 4, 1, 0, []⟩
/-- 06 Table 6.8, R185. -/
def RING_CTRL_ENABLE : Fld := ⟨0x8000, 0, 1, .rw, 0, 1, 0, 1, 0, []⟩
/-- 06 Table 6.8, R185. -/
def RING_CTRL_FORCE_BYPASS : Fld := ⟨0x8000, 1, 1, .rw, 0, 1, 0, 1, 0, []⟩
/-- 06 Table 6.8, R185. -/
def RING_CTRL_SPEED_A : Fld := ⟨0x8000, 4, 2, .rw, 0, 1, 0, 1, 0, [(0, 2)]⟩
/-- 06 Table 6.8, R185. -/
def RING_CTRL_SPEED_B : Fld := ⟨0x8000, 6, 2, .rw, 0, 1, 0, 1, 0, [(0, 2)]⟩
/-- 06 Table 6.8, R185. -/
def RING_CTRL_FEC_A : Fld := ⟨0x8000, 8, 1, .rw, 0, 1, 0, 1, 0, []⟩
/-- 06 Table 6.8, R185. -/
def RING_CTRL_FEC_B : Fld := ⟨0x8000, 9, 1, .rw, 0, 1, 0, 1, 0, []⟩
/-- 06 Table 6.8, R185. -/
def RING_CTRL_EXT_PHY_A : Fld := ⟨0x8000, 10, 1, .rw, 0, 1, 0, 1, 0, []⟩
/-- 06 Table 6.8, R185. -/
def RING_CTRL_EXT_PHY_B : Fld := ⟨0x8000, 11, 1, .rw, 0, 1, 0, 1, 0, []⟩
/-- 06 Table 6.8, R185. -/
def RING_CTRL_LCL_BRIDGE : Fld := ⟨0x8000, 12, 1, .rw, 0, 1, 0, 1, 0, []⟩
/-- 06 Table 6.8, R185. -/
def RING_TIMERS_RELAY_MS : Fld := ⟨0x8004, 0, 8, .rw, 10, 1, 0, 1, 0, [(2, 100)]⟩
/-- 06 Table 6.8, R185. -/
def RING_TIMERS_MARKER_US : Fld := ⟨0x8004, 8, 8, .rw, 2, 1, 0, 1, 0, [(1, 60)]⟩
/-- 06 Table 6.8, R185. -/
def RING_TIMERS_FLOOD_DEALS : Fld := ⟨0x8004, 16, 4, .rw, 2, 1, 0, 1, 0, [(2, 15)]⟩
/-- 06 Table 6.8, R185. -/
def RING_WTR_WTR_DEALS : Fld := ⟨0x8008, 0, 16, .rw, 8000, 1, 0, 1, 0, [(8, 65535)]⟩
/-- 06 Table 6.8, R185. -/
def RING_MKA_HELLO_MS : Fld := ⟨0x800C, 0, 12, .rw, 100, 1, 0, 1, 0, [(10, 2000)]⟩
/-- 06 Table 6.8, R185. -/
def RING_MKA_KEY_TMO_S : Fld := ⟨0x800C, 12, 8, .rw, 30, 1, 0, 1, 0, [(1, 255)]⟩
/-- 06 Table 6.8, R185. -/
def RING_MKA_RETRY_S : Fld := ⟨0x800C, 20, 8, .rw, 60, 1, 0, 1, 0, [(1, 255)]⟩
/-- 06 Table 6.8, R185. -/
def RING_STATE_INS : Fld := ⟨0x8010, 0, 3, .ro, 0, 1, 0, 1, 0, []⟩
/-- 06 Table 6.8, R185. -/
def RING_STATE_SEAM_HERE : Fld := ⟨0x8010, 3, 1, .ro, 0, 1, 0, 1, 0, []⟩
/-- 06 Table 6.8, R185. -/
def RING_STATE_LINK_A : Fld := ⟨0x8010, 4, 1, .ro, 0, 1, 0, 1, 0, []⟩
/-- 06 Table 6.8, R185. -/
def RING_STATE_LINK_B : Fld := ⟨0x8010, 5, 1, .ro, 0, 1, 0, 1, 0, []⟩
/-- 06 Table 6.8, R185. -/
def RING_STATE_SECURE_A : Fld := ⟨0x8010, 6, 1, .ro, 0, 1, 0, 1, 0, []⟩
/-- 06 Table 6.8, R185. -/
def RING_STATE_SECURE_B : Fld := ⟨0x8010, 7, 1, .ro, 0, 1, 0, 1, 0, []⟩
/-- 06 Table 6.8, R185. -/
def RING_STATE_MARK_A : Fld := ⟨0x8010, 8, 1, .ro, 0, 1, 0, 1, 0, []⟩
/-- 06 Table 6.8, R185. -/
def RING_STATE_MARK_B : Fld := ⟨0x8010, 9, 1, .ro, 0, 1, 0, 1, 0, []⟩
/-- 06 Table 6.8, R185. -/
def RING_STATE_EPOCH : Fld := ⟨0x8010, 16, 16, .ro, 0, 1, 0, 1, 0, []⟩
/-- 06 Table 6.8, R185. -/
def RING_SEAM_SEAT : Fld := ⟨0x8014, 0, 16, .ro, 65535, 1, 0, 1, 0, []⟩
/-- 06 Table 6.8, R185. -/
def RING_SEAM_PORT : Fld := ⟨0x8014, 16, 1, .ro, 0, 1, 0, 1, 0, []⟩
/-- 06 Table 6.8, R185. -/
def RING_SEAM_HOME : Fld := ⟨0x8014, 17, 1, .ro, 0, 1, 0, 1, 0, []⟩
/-- 06 Table 6.8, R185. -/
def RING_SEAM_SPLIT : Fld := ⟨0x8014, 18, 1, .ro, 0, 1, 0, 1, 0, []⟩
/-- 06 Table 6.8, R185. -/
def RING_NBR_NBR_A : Fld := ⟨0x8018, 0, 16, .ro, 65535, 1, 0, 1, 0, []⟩
/-- 06 Table 6.8, R185. -/
def RING_NBR_NBR_B : Fld := ⟨0x8018, 16, 16, .ro, 65535, 1, 0, 1, 0, []⟩
/-- 06 Table 6.8, R185. -/
def RING_FLAGS_BYPASSED : Fld := ⟨0x801C, 0, 1, .w1c, 0, 1, 0, 1, 0, []⟩
/-- 06 Table 6.8, R185. -/
def RING_FLAGS_SEAM_MOVED : Fld := ⟨0x801C, 1, 1, .w1c, 0, 1, 0, 1, 0, []⟩
/-- 06 Table 6.8, R185. -/
def RING_FLAGS_ICV_FAIL : Fld := ⟨0x801C, 2, 1, .w1c, 0, 1, 0, 1, 0, []⟩
/-- 06 Table 6.8, R185. -/
def RING_FLAGS_TOKEN_LOW : Fld := ⟨0x801C, 3, 1, .w1c, 0, 1, 0, 1, 0, []⟩
/-- 06 Table 6.8, R185. -/
def RING_FLAGS_NBR_CHANGED : Fld := ⟨0x801C, 4, 1, .w1c, 0, 1, 0, 1, 0, []⟩
/-- 06 Table 6.8, R185. -/
def RING_MAC_LO_MAC : Fld := ⟨0x8020, 0, 32, .ro, 0, 1, 0, 1, 0, []⟩
/-- 06 Table 6.8, R185. -/
def RING_MAC_HI_MAC : Fld := ⟨0x8024, 0, 16, .ro, 0, 1, 0, 1, 0, []⟩
/-- 06 Table 6.8, R185. -/
def RING_MDIO_CTRL_PRTAD : Fld := ⟨0x8028, 0, 5, .rw, 0, 1, 0, 1, 0, []⟩
/-- 06 Table 6.8, R185. -/
def RING_MDIO_CTRL_DEVAD : Fld := ⟨0x8028, 5, 5, .rw, 0, 1, 0, 1, 0, []⟩
/-- 06 Table 6.8, R185. -/
def RING_MDIO_CTRL_OP : Fld := ⟨0x8028, 10, 2, .rw, 0, 1, 0, 1, 0, []⟩
/-- 06 Table 6.8, R185. -/
def RING_MDIO_CTRL_GO : Fld := ⟨0x8028, 12, 1, .w1s, 0, 1, 0, 1, 0, []⟩
/-- 06 Table 6.8, R185. -/
def RING_MDIO_CTRL_BUSY : Fld := ⟨0x8028, 13, 1, .ro, 0, 1, 0, 1, 0, []⟩
/-- 06 Table 6.8, R185. -/
def RING_MDIO_CTRL_DIV : Fld := ⟨0x8028, 16, 6, .rw, 39, 1, 0, 1, 0, [(7, 63)]⟩
/-- 06 Table 6.8, R185. -/
def RING_MDIO_DATA_DATA : Fld := ⟨0x802C, 0, 16, .rw, 0, 1, 0, 1, 0, []⟩
/-- 06 Table 6.8, R185. -/
def RING_PORT_CFG_EN : Fld := ⟨0x8040, 0, 1, .rw, 0, 4, 16, 1, 0, []⟩
/-- 06 Table 6.8, R185. -/
def RING_PORT_CFG_LSPEED : Fld := ⟨0x8040, 1, 2, .rw, 0, 4, 16, 1, 0, [(0, 2)]⟩
/-- 06 Table 6.8, R185. -/
def RING_PORT_CFG_MACSEC : Fld := ⟨0x8040, 3, 1, .rw, 0, 4, 16, 1, 0, []⟩
/-- 06 Table 6.8, R185. -/
def RING_PORT_CFG_XPN : Fld := ⟨0x8040, 4, 1, .rw, 0, 4, 16, 1, 0, []⟩
/-- 06 Table 6.8, R185. -/
def RING_PORT_CFG_MAX_FRAME : Fld := ⟨0x8040, 16, 13, .rw, 1522, 4, 16, 1, 0, [(1522, 4096)]⟩
/-- 06 Table 6.8, R185. -/
def RING_TC_MAP_TC0 : Fld := ⟨0x8044, 0, 3, .rw, 0, 4, 16, 1, 0, []⟩
/-- 06 Table 6.8, R185. -/
def RING_TC_MAP_TC1 : Fld := ⟨0x8044, 3, 3, .rw, 1, 4, 16, 1, 0, []⟩
/-- 06 Table 6.8, R185. -/
def RING_TC_MAP_TC2 : Fld := ⟨0x8044, 6, 3, .rw, 2, 4, 16, 1, 0, []⟩
/-- 06 Table 6.8, R185. -/
def RING_TC_MAP_TC3 : Fld := ⟨0x8044, 9, 3, .rw, 3, 4, 16, 1, 0, []⟩
/-- 06 Table 6.8, R185. -/
def RING_TC_MAP_TC4 : Fld := ⟨0x8044, 12, 3, .rw, 4, 4, 16, 1, 0, []⟩
/-- 06 Table 6.8, R185. -/
def RING_TC_MAP_TC5 : Fld := ⟨0x8044, 15, 3, .rw, 1, 4, 16, 1, 0, []⟩
/-- 06 Table 6.8, R185. -/
def RING_TC_MAP_TC6 : Fld := ⟨0x8044, 18, 3, .rw, 5, 4, 16, 1, 0, []⟩
/-- 06 Table 6.8, R185. -/
def RING_TC_MAP_TC7 : Fld := ⟨0x8044, 21, 3, .rw, 7, 4, 16, 1, 0, []⟩
/-- 06 Table 6.8, R185. -/
def RING_TOK_FREE_FREE : Fld := ⟨0x8048, 0, 13, .ro, 4096, 4, 16, 1, 0, []⟩
/-- 06 Table 6.8, R185. -/
def RING_PORT_STAT_LINK : Fld := ⟨0x804C, 0, 1, .ro, 0, 4, 16, 1, 0, []⟩
/-- 06 Table 6.8, R185. -/
def RING_PORT_STAT_SECURE : Fld := ⟨0x804C, 1, 1, .ro, 0, 4, 16, 1, 0, []⟩
/-- 06 Table 6.8, R185. -/
def RING_PORT_STAT_AN : Fld := ⟨0x804C, 2, 2, .ro, 0, 4, 16, 1, 0, []⟩
/-- 06 Table 6.8, R185. -/
def RING_TAS_CTRL_ENABLE : Fld := ⟨0x8100, 0, 1, .rw, 0, 4, 32, 1, 0, []⟩
/-- 06 Table 6.8, R185. -/
def RING_TAS_CTRL_PENDING : Fld := ⟨0x8100, 1, 1, .ro, 0, 4, 32, 1, 0, []⟩
/-- 06 Table 6.8, R185. -/
def RING_TAS_CTRL_ERR : Fld := ⟨0x8100, 2, 1, .w1c, 0, 4, 32, 1, 0, []⟩
/-- 06 Table 6.8, R185. -/
def RING_TAS_CTRL_ADMIN_LEN : Fld := ⟨0x8100, 8, 9, .rw, 1, 4, 32, 1, 0, [(1, 256)]⟩
/-- 06 Table 6.8, R185. -/
def RING_TAS_CYCLE_NS : Fld := ⟨0x8104, 0, 30, .rw, 125000, 4, 32, 1, 0, [(1000, 1000000000)]⟩
/-- 06 Table 6.8, R185. -/
def RING_TAS_BASE_LO_DEAL : Fld := ⟨0x8108, 0, 32, .rw, 0, 4, 32, 1, 0, []⟩
/-- 06 Table 6.8, R185. -/
def RING_TAS_BASE_HI_DEAL : Fld := ⟨0x810C, 0, 32, .rw, 0, 4, 32, 1, 0, []⟩
/-- 06 Table 6.8, R185. -/
def RING_TAS_CHANGE_LO_DEAL : Fld := ⟨0x8110, 0, 32, .rw, 0, 4, 32, 1, 0, []⟩
/-- 06 Table 6.8, R185. -/
def RING_TAS_CHANGE_HI_DEAL : Fld := ⟨0x8114, 0, 32, .rw, 0, 4, 32, 1, 0, []⟩
/-- 06 Table 6.8, R185. -/
def RING_GCL_ADDR_ENTRY : Fld := ⟨0x8118, 0, 8, .rw, 0, 4, 32, 1, 0, []⟩
/-- 06 Table 6.8, R185. -/
def RING_GCL_ADDR_OPER : Fld := ⟨0x8118, 8, 1, .rw, 0, 4, 32, 1, 0, []⟩
/-- 06 Table 6.8, R185. -/
def RING_GCL_DATA_GATES : Fld := ⟨0x811C, 0, 8, .rw, 255, 4, 32, 1, 0, []⟩
/-- 06 Table 6.8, R185. -/
def RING_GCL_DATA_INTERVAL_NS : Fld := ⟨0x811C, 8, 24, .rw, 125000, 4, 32, 1, 0, [(1, 16777215)]⟩
/-- 06 Table 6.8, R185. -/
def RING_CBS_EN : Fld := ⟨0x8200, 0, 1, .rw, 0, 4, 16, 4, 4, []⟩
/-- 06 Table 6.8, R185. -/
def RING_CBS_IDLE_KBPS : Fld := ⟨0x8200, 1, 25, .rw, 0, 4, 16, 4, 4, []⟩
/-- 07 Table 7.4, R213. -/
def STR_CTRL_IGMP_EN : Fld := ⟨0xA000, 0, 1, .rw, 1, 1, 0, 1, 0, []⟩
/-- 07 Table 7.4, R213. -/
def STR_CTRL_IGMP_V2 : Fld := ⟨0xA000, 1, 1, .rw, 0, 1, 0, 1, 0, []⟩
/-- 07 Table 7.4, R213. -/
def STR_CTRL_ARP_EN : Fld := ⟨0xA000, 2, 1, .rw, 1, 1, 0, 1, 0, []⟩
/-- 07 Table 7.4, R213. -/
def STR_USE_CH_IN : Fld := ⟨0xA004, 0, 12, .ro, 0, 1, 0, 1, 0, []⟩
/-- 07 Table 7.4, R213. -/
def STR_USE_CH_OUT : Fld := ⟨0xA004, 16, 12, .ro, 0, 1, 0, 1, 0, []⟩
/-- 07 Table 7.4, R213. -/
def STR_CTX_LISTENERS : Fld := ⟨0xA008, 0, 11, .ro, 0, 1, 0, 1, 0, []⟩
/-- 07 Table 7.4, R213. -/
def STR_CTX_TALKERS : Fld := ⟨0xA008, 16, 11, .ro, 0, 1, 0, 1, 0, []⟩
/-- 07 Table 7.4, R213. -/
def STR_CHMAP_ACTIVE : Fld := ⟨0xA00C, 0, 15, .ro, 0, 1, 0, 1, 0, []⟩
/-- 07 Table 7.4, R213. -/
def STR_CHMAP_DORMANT : Fld := ⟨0xA00C, 16, 15, .ro, 0, 1, 0, 1, 0, []⟩
/-- 07 Table 7.4, R213. -/
def STR_JB_WARN_DEFICIT : Fld := ⟨0xA010, 0, 6, .rw, 1, 1, 0, 1, 0, []⟩
/-- 07 Table 7.4, R213. -/
def STR_LOSS_DEALS : Fld := ⟨0xA014, 0, 16, .rw, 80, 1, 0, 1, 0, [(2, 65535)]⟩
/-- 07 Table 7.4, R213. -/
def STR_CRF_WARN_PPB : Fld := ⟨0xA018, 0, 24, .rw, 1000, 1, 0, 1, 0, []⟩
/-- 07 Table 7.4, R213. -/
def STR_FLAGS_UNDERRUN : Fld := ⟨0xA01C, 0, 1, .w1c, 0, 1, 0, 1, 0, []⟩
/-- 07 Table 7.4, R213. -/
def STR_FLAGS_MALFORMED : Fld := ⟨0xA01C, 1, 1, .w1c, 0, 1, 0, 1, 0, []⟩
/-- 07 Table 7.4, R213. -/
def STR_FLAGS_DORMANT : Fld := ⟨0xA01C, 2, 1, .w1c, 0, 1, 0, 1, 0, []⟩
/-- 07 Table 7.4, R213. -/
def STR_FLAGS_CRF_OFFSET : Fld := ⟨0xA01C, 3, 1, .w1c, 0, 1, 0, 1, 0, []⟩
/-- 07 Table 7.4, R213. -/
def STR_FLAGS_LOST : Fld := ⟨0xA01C, 4, 1, .w1c, 0, 1, 0, 1, 0, []⟩
/-- 07 Table 7.4, R213. -/
def STR_IP_ADDR_ADDR : Fld := ⟨0xA020, 0, 32, .rw, 0, 2, 16, 1, 0, []⟩
/-- 07 Table 7.4, R213. -/
def STR_IP_CFG_TTL : Fld := ⟨0xA024, 0, 8, .rw, 32, 2, 16, 1, 0, [(1, 255)]⟩
/-- 08 Table 8.9, R242. -/
def GRF_DECK_STATE_STAGED : Fld := ⟨0xB030, 0, 2, .ro, 0, 1, 0, 1, 0, []⟩
/-- 08 Table 8.9, R242. -/
def GRF_DECK_STATE_FADING : Fld := ⟨0xB030, 2, 1, .ro, 0, 1, 0, 1, 0, []⟩
/-- 08 Table 8.9, R242. -/
def GRF_DECK_STATE_RETIRING : Fld := ⟨0xB030, 3, 1, .ro, 0, 1, 0, 1, 0, []⟩
/-- 08 Table 8.9, R242. -/
def GRF_DECK_STATE_LIVE_SLOT : Fld := ⟨0xB030, 4, 1, .ro, 0, 1, 0, 1, 0, []⟩
/-- 08 Table 8.9, R242. -/
def GRF_DECK_STATE_HELD : Fld := ⟨0xB030, 5, 1, .ro, 0, 1, 0, 1, 0, []⟩
/-- 08 Table 8.9, R242. -/
def GRF_LIVE_DIG_LO_DIGEST : Fld := ⟨0xB034, 0, 32, .ro, 0, 1, 0, 1, 0, []⟩
/-- 08 Table 8.9, R242. -/
def GRF_LIVE_DIG_HI_DIGEST : Fld := ⟨0xB038, 0, 32, .ro, 0, 1, 0, 1, 0, []⟩
/-- 08 Table 8.9, R242. -/
def GRF_STAGED_DIG_LO_DIGEST : Fld := ⟨0xB03C, 0, 32, .ro, 0, 1, 0, 1, 0, []⟩
/-- 08 Table 8.9, R242. -/
def GRF_STAGED_DIG_HI_DIGEST : Fld := ⟨0xB040, 0, 32, .ro, 0, 1, 0, 1, 0, []⟩
/-- 08 Table 8.9, R242. -/
def GRF_CUT_DEAL_LO_DEAL : Fld := ⟨0xB044, 0, 32, .ro, 0, 1, 0, 1, 0, []⟩
/-- 08 Table 8.9, R242. -/
def GRF_CUT_DEAL_HI_DEAL : Fld := ⟨0xB048, 0, 32, .ro, 0, 1, 0, 1, 0, []⟩
/-- 08 Table 8.9, R242. -/
def GRF_XFADE_SAMPLES : Fld := ⟨0xB04C, 0, 13, .rw, 64, 1, 0, 1, 0, [(6, 4096)]⟩
/-- 08 Table 8.9, R242. -/
def GRF_FADE_REM_SAMPLES : Fld := ⟨0xB050, 0, 13, .ro, 0, 1, 0, 1, 0, []⟩
/-- 08 Table 8.9, R242. -/
def GRF_CUT_GROUP_GROUP : Fld := ⟨0xB054, 0, 32, .ro, 0, 1, 0, 1, 0, []⟩
/-- 08 Table 8.9, R242. -/
def GRF_LIVE_NODES_NODES : Fld := ⟨0xB058, 0, 14, .ro, 0, 1, 0, 1, 0, []⟩
/-- 08 Table 8.9, R242. -/
def GRF_FLAGS_CUT_LATE : Fld := ⟨0xB05C, 0, 1, .w1c, 0, 1, 0, 1, 0, []⟩
/-- 08 Table 8.9, R242. -/
def GRF_FLAGS_CUT_MISSED : Fld := ⟨0xB05C, 1, 1, .w1c, 0, 1, 0, 1, 0, []⟩
/-- 08 Table 8.9, R242. -/
def GRF_FLAGS_STAGE_REFUSED : Fld := ⟨0xB05C, 2, 1, .w1c, 0, 1, 0, 1, 0, []⟩
/-- 09 Table 9.4, R265. -/
def DIAG_LANE_OVF_COUNT : Fld := ⟨0x11400, 0, 32, .ro, 0, 128, 4, 1, 0, []⟩
/-- 09 Table 9.4, R265. -/
def DIAG_LANE_SAT_COUNT : Fld := ⟨0x11600, 0, 32, .ro, 0, 128, 4, 1, 0, []⟩
/-- 09 Table 9.4, R265. -/
def DIAG_OVF_FLAG_LANE : Fld := ⟨0x11800, 0, 32, .w1c, 0, 4, 4, 1, 0, []⟩
/-- 09 Table 9.4, R265. -/
def DIAG_SAT_FLAG_LANE : Fld := ⟨0x11810, 0, 32, .w1c, 0, 4, 4, 1, 0, []⟩
/-- 09 Table 9.4, R265. -/
def DIAG_CL_FAULT_CLUSTER : Fld := ⟨0x11820, 0, 16, .w1c, 0, 1, 0, 1, 0, []⟩
/-- 09 Table 9.4, R265. -/
def DIAG_CL_BUSY_CLUSTER : Fld := ⟨0x11824, 0, 16, .ro, 0, 1, 0, 1, 0, []⟩
/-- 10 Table 10.8, R292. -/
def OBJ_SCENE_STAT_ENABLED : Fld := ⟨0xF000, 0, 10, .ro, 0, 1, 0, 1, 0, []⟩
/-- 10 Table 10.8, R292. -/
def OBJ_SCENE_STAT_PLACED : Fld := ⟨0xF000, 16, 10, .ro, 0, 1, 0, 1, 0, []⟩
/-- 10 Table 10.8, R292. -/
def OBJ_FLAGS_LATE : Fld := ⟨0xF004, 0, 1, .w1c, 0, 1, 0, 1, 0, []⟩
/-- 10 Table 10.8, R292. -/
def OBJ_FLAGS_STARVED : Fld := ⟨0xF004, 1, 1, .w1c, 0, 1, 0, 1, 0, []⟩
/-- 10 Table 10.8, R292. -/
def OBJ_FLAGS_CLAMP : Fld := ⟨0xF004, 2, 1, .w1c, 0, 1, 0, 1, 0, []⟩
/-- 10 Table 10.8, R292. -/
def OBJ_LATE_CNT_COUNT : Fld := ⟨0xF008, 0, 32, .ro, 0, 1, 0, 1, 0, []⟩
/-- 10 Table 10.8, R292. -/
def OBJ_LATE_DISC_COUNT : Fld := ⟨0xF00C, 0, 32, .ro, 0, 1, 0, 1, 0, []⟩
/-- 10 Table 10.8, R292. -/
def OBJ_STARVE_CNT_COUNT : Fld := ⟨0xF010, 0, 32, .ro, 0, 1, 0, 1, 0, []⟩
/-- 10 Table 10.8, R292. -/
def OBJ_PROBE_SEL_OBJECT : Fld := ⟨0xF014, 0, 9, .rw, 0, 1, 0, 1, 0, []⟩
/-- 10 Table 10.8, R292. -/
def OBJ_PROBE_STAT_STATE : Fld := ⟨0xF018, 0, 2, .ro, 0, 1, 0, 1, 0, []⟩
/-- 10 Table 10.8, R292. -/
def OBJ_PROBE_STAT_POINTS : Fld := ⟨0xF018, 4, 5, .ro, 0, 1, 0, 1, 0, []⟩
/-- 10 Table 10.8, R292. -/
def OBJ_PROBE_STAT_KIND : Fld := ⟨0xF018, 9, 3, .ro, 0, 1, 0, 1, 0, []⟩
/-- 10 Table 10.8, R292. -/
def OBJ_PROBE_STAT_ENABLE : Fld := ⟨0xF018, 12, 1, .ro, 0, 1, 0, 1, 0, []⟩
/-- 10 Table 10.8, R292. -/
def OBJ_PROBE_X_MM : Fld := ⟨0xF01C, 0, 32, .ro, 0, 1, 0, 1, 0, []⟩
/-- 10 Table 10.8, R292. -/
def OBJ_PROBE_Y_MM : Fld := ⟨0xF020, 0, 32, .ro, 0, 1, 0, 1, 0, []⟩
/-- 10 Table 10.8, R292. -/
def OBJ_PROBE_Z_MM : Fld := ⟨0xF024, 0, 32, .ro, 0, 1, 0, 1, 0, []⟩
/-- 10 Table 10.8, R292. -/
def OBJ_PROBE_FRAC_X : Fld := ⟨0xF028, 0, 8, .ro, 0, 1, 0, 1, 0, []⟩
/-- 10 Table 10.8, R292. -/
def OBJ_PROBE_FRAC_Y : Fld := ⟨0xF028, 8, 8, .ro, 0, 1, 0, 1, 0, []⟩
/-- 10 Table 10.8, R292. -/
def OBJ_PROBE_FRAC_Z : Fld := ⟨0xF028, 16, 8, .ro, 0, 1, 0, 1, 0, []⟩
/-- 10 Table 10.8, R292. -/
def OBJ_PROBE_DEAL_LO_DEAL : Fld := ⟨0xF02C, 0, 32, .ro, 0, 1, 0, 1, 0, []⟩
/-- 10 Table 10.8, R292. -/
def OBJ_PROBE_DEAL_HI_DEAL : Fld := ⟨0xF030, 0, 32, .ro, 0, 1, 0, 1, 0, []⟩
/-- 10 Table 10.8, R292. -/
def OBJ_SPK_STAT_PRESENT : Fld := ⟨0xF034, 0, 9, .ro, 0, 1, 0, 1, 0, []⟩
/-- 10 Table 10.8, R292. -/
def OBJ_SPK_STAT_TRIANGLES : Fld := ⟨0xF034, 16, 12, .ro, 0, 1, 0, 1, 0, []⟩
/-- 11 Table 11.5, R325. -/
def OBJ_PAIR_LIMIT_SLOTS : Fld := ⟨0xF040, 0, 18, .rw, 131072, 1, 0, 1, 0, [(0, 131072)]⟩
/-- 11 Table 11.5, R325. -/
def OBJ_PAIR_USE_SLOTS : Fld := ⟨0xF044, 0, 18, .ro, 0, 1, 0, 1, 0, []⟩
/-- 11 Table 11.5, R325. -/
def OBJ_PAIR_PEAK_SLOTS : Fld := ⟨0xF048, 0, 18, .rc, 0, 1, 0, 1, 0, []⟩
/-- 11 Table 11.5, R325. -/
def OBJ_NEAR_MM : Fld := ⟨0xF04C, 0, 20, .rw, 1000, 1, 0, 1, 0, [(1, 1000000)]⟩
/-- 11 Table 11.5, R325. -/
def OBJ_POOL_FREE : Fld := ⟨0xF050, 0, 12, .ro, 2048, 1, 0, 1, 0, []⟩
/-- 11 Table 11.5, R325. -/
def OBJ_POOL_ALLOCATED : Fld := ⟨0xF050, 16, 12, .ro, 0, 1, 0, 1, 0, []⟩
/-- 11 Table 11.5, R325. -/
def OBJ_POOL_WARN_FREE_MIN : Fld := ⟨0xF054, 0, 12, .rw, 64, 1, 0, 1, 0, []⟩
/-- 11 Table 11.5, R325. -/
def OBJ_RFLAGS_SLOPE : Fld := ⟨0xF058, 0, 1, .w1c, 0, 1, 0, 1, 0, []⟩
/-- 11 Table 11.5, R325. -/
def OBJ_RFLAGS_RANGE : Fld := ⟨0xF058, 1, 1, .w1c, 0, 1, 0, 1, 0, []⟩
/-- 11 Table 11.5, R325. -/
def OBJ_RFLAGS_NEAR : Fld := ⟨0xF058, 2, 1, .w1c, 0, 1, 0, 1, 0, []⟩
/-- 11 Table 11.5, R325. -/
def OBJ_RFLAGS_BUDGET : Fld := ⟨0xF058, 3, 1, .w1c, 0, 1, 0, 1, 0, []⟩
/-- 11 Table 11.5, R325. -/
def OBJ_RFLAGS_DISPLACED : Fld := ⟨0xF058, 4, 1, .w1c, 0, 1, 0, 1, 0, []⟩
/-- 11 Table 11.5, R325. -/
def OBJ_RFLAGS_POOL_SHORT : Fld := ⟨0xF058, 5, 1, .w1c, 0, 1, 0, 1, 0, []⟩
/-- 11 Table 11.5, R325. -/
def OBJ_RFLAGS_SAT : Fld := ⟨0xF058, 6, 1, .w1c, 0, 1, 0, 1, 0, []⟩
/-- 11 Table 11.5, R325. -/
def OBJ_SLOPE_CNT_COUNT : Fld := ⟨0xF05C, 0, 32, .ro, 0, 1, 0, 1, 0, []⟩
/-- 11 Table 11.5, R325. -/
def OBJ_RANGE_CNT_COUNT : Fld := ⟨0xF060, 0, 32, .ro, 0, 1, 0, 1, 0, []⟩
/-- 11 Table 11.5, R325. -/
def OBJ_NEAR_CNT_COUNT : Fld := ⟨0xF064, 0, 32, .ro, 0, 1, 0, 1, 0, []⟩
/-- 11 Table 11.5, R325. -/
def OBJ_DEFER_CNT_COUNT : Fld := ⟨0xF068, 0, 32, .ro, 0, 1, 0, 1, 0, []⟩
/-- 11 Table 11.5, R325. -/
def OBJ_DISPLACE_CNT_COUNT : Fld := ⟨0xF06C, 0, 32, .ro, 0, 1, 0, 1, 0, []⟩
/-- 11 Table 11.5, R325. -/
def OBJ_SAT_CNT_COUNT : Fld := ⟨0xF070, 0, 32, .ro, 0, 1, 0, 1, 0, []⟩
/-- 11 Table 11.5, R325. -/
def OBJ_PAIR_PROBE_SEL_SPEAKER : Fld := ⟨0xF074, 0, 8, .rw, 0, 1, 0, 1, 0, []⟩
/-- 11 Table 11.5, R325. -/
def OBJ_PAIR_PROBE_GAIN_GAIN : Fld := ⟨0xF078, 0, 32, .ro, 0, 1, 0, 1, 0, []⟩
/-- 11 Table 11.5, R325. -/
def OBJ_PAIR_PROBE_DELAY_DELAY : Fld := ⟨0xF07C, 0, 24, .ro, 0, 1, 0, 1, 0, []⟩
/-- 11 Table 11.5, R325. -/
def OBJ_PAIR_PROBE_DELAY_STATE : Fld := ⟨0xF07C, 24, 2, .ro, 0, 1, 0, 1, 0, []⟩
/-- 11 Table 11.5, R325. -/
def OBJ_PAIR_PROBE_DELAY_FINE : Fld := ⟨0xF07C, 26, 1, .ro, 0, 1, 0, 1, 0, []⟩
/-- 11 Table 11.6, R326. -/
def DIAG_CRIT_MAP_SLOT : Fld := ⟨0x11900, 0, 12, .ro, 0, 16, 32, 1, 0, []⟩
/-- 11 Table 11.6, R326. -/
def DIAG_CRIT_MAP_VALID : Fld := ⟨0x11900, 12, 1, .ro, 0, 16, 32, 1, 0, []⟩
/-- 11 Table 11.6, R326. -/
def DIAG_CRIT_MAP_CL_A : Fld := ⟨0x11900, 16, 4, .ro, 0, 16, 32, 1, 0, []⟩
/-- 11 Table 11.6, R326. -/
def DIAG_CRIT_MAP_CL_B : Fld := ⟨0x11900, 20, 4, .ro, 0, 16, 32, 1, 0, []⟩
/-- 11 Table 11.6, R326. -/
def DIAG_CRIT_MAP_CL_C : Fld := ⟨0x11900, 24, 4, .ro, 0, 16, 32, 1, 0, []⟩
/-- 11 Table 11.6, R326. -/
def DIAG_CRIT_MAP_SPARE : Fld := ⟨0x11900, 28, 2, .ro, 0, 16, 32, 1, 0, []⟩
/-- 11 Table 11.6, R326. -/
def DIAG_CRIT_DIS_A_COUNT : Fld := ⟨0x11904, 0, 32, .ro, 0, 16, 32, 1, 0, []⟩
/-- 11 Table 11.6, R326. -/
def DIAG_CRIT_DIS_B_COUNT : Fld := ⟨0x11908, 0, 32, .ro, 0, 16, 32, 1, 0, []⟩
/-- 11 Table 11.6, R326. -/
def DIAG_CRIT_DIS_C_COUNT : Fld := ⟨0x1190C, 0, 32, .ro, 0, 16, 32, 1, 0, []⟩
/-- 11 Table 11.6, R326. -/
def DIAG_CRIT_NOMAJ_COUNT : Fld := ⟨0x11910, 0, 32, .ro, 0, 16, 32, 1, 0, []⟩
/-- 11 Table 11.6, R326. -/
def DIAG_CRIT_RESTORE_COUNT : Fld := ⟨0x11914, 0, 32, .ro, 0, 16, 32, 1, 0, []⟩
/-- 11 Table 11.6, R326. -/
def DIAG_CRIT_FLAG_DISSENT : Fld := ⟨0x11B00, 0, 16, .w1c, 0, 1, 0, 1, 0, []⟩
/-- 11 Table 11.6, R326. -/
def DIAG_CRIT_FLAG_NO_MAJORITY : Fld := ⟨0x11B00, 16, 16, .w1c, 0, 1, 0, 1, 0, []⟩
/-- 11 Table 11.6, R326. -/
def DIAG_CRIT_STAT_FADED : Fld := ⟨0x11B04, 0, 16, .ro, 0, 1, 0, 1, 0, []⟩
/-- 12 Table 12.6, R350. -/
def COR_STAT_SETS : Fld := ⟨0xF100, 0, 9, .ro, 0, 1, 0, 1, 0, []⟩
/-- 12 Table 12.6, R350. -/
def COR_STAT_LIVE_COPY : Fld := ⟨0xF100, 9, 1, .ro, 0, 1, 0, 1, 0, []⟩
/-- 12 Table 12.6, R350. -/
def COR_STAT_STAGING : Fld := ⟨0xF100, 10, 1, .ro, 0, 1, 0, 1, 0, []⟩
/-- 12 Table 12.6, R350. -/
def COR_FLAGS_SAT : Fld := ⟨0xF104, 0, 1, .w1c, 0, 1, 0, 1, 0, []⟩
/-- 12 Table 12.6, R350. -/
def COR_FLAGS_ECC_MUTE : Fld := ⟨0xF104, 1, 1, .w1c, 0, 1, 0, 1, 0, []⟩
/-- 12 Table 12.6, R350. -/
def COR_FLAGS_MEAS_ABORT : Fld := ⟨0xF104, 2, 1, .w1c, 0, 1, 0, 1, 0, []⟩
/-- 12 Table 12.6, R350. -/
def COR_SAT_CNT_COUNT : Fld := ⟨0xF108, 0, 32, .ro, 0, 1, 0, 1, 0, []⟩
/-- 12 Table 12.6, R350. -/
def COR_MUTED_SETS : Fld := ⟨0xF10C, 0, 9, .ro, 0, 1, 0, 1, 0, []⟩
/-- 12 Table 12.6, R350. -/
def COR_MEAS_LIMIT : Fld := ⟨0xF110, 0, 16, .rw, 8192, 1, 0, 1, 0, []⟩
/-- 12 Table 12.6, R350. -/
def COR_MEAS_ABORT_CLASS : Fld := ⟨0xF110, 16, 4, .rw, 3, 1, 0, 1, 0, []⟩
/-- 12 Table 12.6, R350. -/
def COR_MEAS_STAT_STATE : Fld := ⟨0xF114, 0, 2, .ro, 0, 1, 0, 1, 0, []⟩
/-- 12 Table 12.6, R350. -/
def COR_MEAS_STAT_OUTPUT : Fld := ⟨0xF114, 8, 4, .ro, 0, 1, 0, 1, 0, []⟩
/-- 12 Table 12.7, R351. -/
def AEC_CTRL_CLUSTERS : Fld := ⟨0x13000, 0, 2, .rw, 0, 1, 0, 1, 0, [(0, 2)]⟩
/-- 12 Table 12.7, R351. -/
def AEC_DUCK_MIN_CLASS : Fld := ⟨0x13004, 0, 4, .rw, 4, 1, 0, 1, 0, []⟩
/-- 12 Table 12.7, R351. -/
def AEC_DUCK_HOLD_MS : Fld := ⟨0x13004, 16, 16, .rw, 500, 1, 0, 1, 0, []⟩
/-- 12 Table 12.7, R351. -/
def AEC_CONN_CHANNEL : Fld := ⟨0x13008, 0, 32, .ro, 0, 1, 0, 1, 0, []⟩
/-- 12 Table 12.7, R351. -/
def AEC_DORMANT_CHANNEL : Fld := ⟨0x1300C, 0, 32, .ro, 0, 1, 0, 1, 0, []⟩
/-- 12 Table 12.7, R351. -/
def AEC_TALK_CHANNEL : Fld := ⟨0x13010, 0, 32, .ro, 0, 1, 0, 1, 0, []⟩
/-- 12 Table 12.7, R351. -/
def AEC_FLAGS_DIVERGED : Fld := ⟨0x13014, 0, 1, .w1c, 0, 1, 0, 1, 0, []⟩
/-- 12 Table 12.7, R351. -/
def AEC_CH_STAT_CONVERGED : Fld := ⟨0x13100, 0, 1, .ro, 0, 32, 16, 1, 0, []⟩
/-- 12 Table 12.7, R351. -/
def AEC_CH_STAT_DOUBLE_TALK : Fld := ⟨0x13100, 1, 1, .ro, 0, 32, 16, 1, 0, []⟩
/-- 12 Table 12.7, R351. -/
def AEC_CH_STAT_NS_DB : Fld := ⟨0x13100, 8, 8, .ro, 0, 32, 16, 1, 0, []⟩
/-- 12 Table 12.7, R351. -/
def AEC_CH_STAT_ERLE : Fld := ⟨0x13100, 16, 16, .ro, 0, 32, 16, 1, 0, []⟩
/-- 12 Table 12.7, R351. -/
def AEC_CH_DIV_COUNT : Fld := ⟨0x13104, 0, 32, .ro, 0, 32, 16, 1, 0, []⟩
/-- 13 Table 13.2, R376. -/
def SAP_RUN_DIR : Fld := ⟨0xC000, 0, 32, .ro, 0, 1, 0, 1, 0, []⟩
/-- 13 Table 13.2, R376. -/
def SAP_FLAGS_SLIP : Fld := ⟨0xC004, 0, 32, .w1c, 0, 1, 0, 1, 0, []⟩
/-- 13 Table 13.2, R376. -/
def SAP_RATE_TOL_PPM : Fld := ⟨0xC008, 0, 16, .rw, 100, 1, 0, 1, 0, [(1, 1000)]⟩
/-- 13 Table 13.2, R376. -/
def SAP_GRP_FRAME_BITS : Fld := ⟨0xC040, 0, 11, .rw, 64, 16, 4, 1, 0, [(16, 1024)]⟩
/-- 13 Table 13.2, R376. -/
def SAP_x_CFG_FORMAT : Fld := ⟨0xC100, 0, 2, .rw, 0, 16, 128, 2, 64, []⟩
/-- 13 Table 13.2, R376. -/
def SAP_x_CFG_MASTER : Fld := ⟨0xC100, 2, 1, .rw, 0, 16, 128, 2, 64, []⟩
/-- 13 Table 13.2, R376. -/
def SAP_x_CFG_BCK_INV : Fld := ⟨0xC100, 3, 1, .rw, 0, 16, 128, 2, 64, []⟩
/-- 13 Table 13.2, R376. -/
def SAP_x_CFG_FS_INV : Fld := ⟨0xC100, 4, 1, .rw, 0, 16, 128, 2, 64, []⟩
/-- 13 Table 13.2, R376. -/
def SAP_x_CFG_TRI : Fld := ⟨0xC100, 5, 1, .rw, 0, 16, 128, 2, 64, []⟩
/-- 13 Table 13.2, R376. -/
def SAP_x_CFG_WIDTH : Fld := ⟨0xC100, 6, 2, .rw, 2, 16, 128, 2, 64, []⟩
/-- 13 Table 13.2, R376. -/
def SAP_x_CFG_WORD : Fld := ⟨0xC100, 8, 2, .rw, 2, 16, 128, 2, 64, []⟩
/-- 13 Table 13.2, R376. -/
def SAP_x_CFG_SLOTS : Fld := ⟨0xC100, 10, 5, .rw, 1, 16, 128, 2, 64, []⟩
/-- 13 Table 13.2, R376. -/
def SAP_x_CFG_AUTO_RESTART : Fld := ⟨0xC100, 15, 1, .rw, 0, 16, 128, 2, 64, []⟩
/-- 13 Table 13.2, R376. -/
def SAP_x_CFG_GROUP : Fld := ⟨0xC100, 16, 4, .rw, 0, 16, 128, 2, 64, []⟩
/-- 13 Table 13.2, R376. -/
def SAP_x_CFG_SILENT : Fld := ⟨0xC100, 20, 8, .rw, 16, 16, 128, 2, 64, []⟩
/-- 13 Table 13.2, R376. -/
def SAP_x_CFG_HB_EN : Fld := ⟨0xC100, 28, 1, .rw, 0, 16, 128, 2, 64, []⟩
/-- 13 Table 13.2, R376. -/
def SAP_x_CFG_HB_PACK : Fld := ⟨0xC100, 29, 1, .rw, 0, 16, 128, 2, 64, []⟩
/-- 13 Table 13.2, R376. -/
def SAP_x_BASE_SLOT : Fld := ⟨0xC104, 0, 12, .rw, 0, 16, 128, 2, 64, []⟩
/-- 13 Table 13.2, R376. -/
def SAP_x_MASK_SLOT : Fld := ⟨0xC108, 0, 32, .rw, 4294967295, 16, 128, 2, 64, []⟩
/-- 13 Table 13.2, R376. -/
def SAP_x_STAT_RUN : Fld := ⟨0xC10C, 0, 1, .ro, 0, 16, 128, 2, 64, []⟩
/-- 13 Table 13.2, R376. -/
def SAP_x_STAT_SILENT : Fld := ⟨0xC10C, 1, 1, .ro, 0, 16, 128, 2, 64, []⟩
/-- 13 Table 13.2, R376. -/
def SAP_x_STAT_DOMAIN_A : Fld := ⟨0xC10C, 2, 1, .ro, 0, 16, 128, 2, 64, []⟩
/-- 13 Table 13.2, R376. -/
def SAP_x_STAT_SLIPPED : Fld := ⟨0xC10C, 3, 1, .ro, 0, 16, 128, 2, 64, []⟩
/-- 13 Table 13.2, R376. -/
def SAP_x_STAT_CLOCK : Fld := ⟨0xC10C, 4, 1, .ro, 0, 16, 128, 2, 64, []⟩
/-- 13 Table 13.2, R376. -/
def SAP_x_STAT_OFFSET : Fld := ⟨0xC10C, 8, 10, .ro, 0, 16, 128, 2, 64, []⟩
/-- 13 Table 13.2, R376. -/
def SAP_x_RATE_MHZ : Fld := ⟨0xC110, 0, 28, .ro, 0, 16, 128, 2, 64, []⟩
/-- 13 Table 13.2, R376. -/
def SAP_x_RATE_NOMINAL : Fld := ⟨0xC110, 28, 3, .ro, 0, 16, 128, 2, 64, []⟩
/-- 13 Table 13.2, R376. -/
def SAP_x_HB_LO_ADDR : Fld := ⟨0xC114, 6, 26, .rw, 0, 16, 128, 2, 64, []⟩
/-- 13 Table 13.2, R376. -/
def SAP_x_HB_HI_ADDR : Fld := ⟨0xC118, 0, 32, .rw, 0, 16, 128, 2, 64, []⟩
/-- 13 Table 13.2, R376. -/
def SAP_x_HB_FRAMES_FRAMES : Fld := ⟨0xC11C, 0, 16, .rw, 0, 16, 128, 2, 64, [(1, 65535)]⟩
/-- 13 Table 13.2, R376. -/
def SAP_x_HB_POS_FRAME : Fld := ⟨0xC120, 0, 16, .ro, 0, 16, 128, 2, 64, []⟩
/-- 13 Table 13.2, R376. -/
def SAP_x_HB_POS_ACTIVE : Fld := ⟨0xC120, 16, 1, .ro, 0, 16, 128, 2, 64, []⟩
/-- 13 Table 13.3, R377. -/
def AES_RX_CFG_VMUTE : Fld := ⟨0xD000, 0, 1, .rw, 0, 8, 128, 1, 0, []⟩
/-- 13 Table 13.3, R377. -/
def AES_RX_CFG_SILENT : Fld := ⟨0xD000, 20, 8, .rw, 16, 8, 128, 1, 0, []⟩
/-- 13 Table 13.3, R377. -/
def AES_RX_STAT_RUN : Fld := ⟨0xD004, 0, 1, .ro, 0, 8, 128, 1, 0, []⟩
/-- 13 Table 13.3, R377. -/
def AES_RX_STAT_LOCK : Fld := ⟨0xD004, 1, 1, .ro, 0, 8, 128, 1, 0, []⟩
/-- 13 Table 13.3, R377. -/
def AES_RX_STAT_PRO : Fld := ⟨0xD004, 2, 1, .ro, 0, 8, 128, 1, 0, []⟩
/-- 13 Table 13.3, R377. -/
def AES_RX_STAT_V_A : Fld := ⟨0xD004, 3, 1, .ro, 0, 8, 128, 1, 0, []⟩
/-- 13 Table 13.3, R377. -/
def AES_RX_STAT_V_B : Fld := ⟨0xD004, 4, 1, .ro, 0, 8, 128, 1, 0, []⟩
/-- 13 Table 13.3, R377. -/
def AES_RX_STAT_CS_SEQ : Fld := ⟨0xD004, 8, 8, .ro, 0, 8, 128, 1, 0, []⟩
/-- 13 Table 13.3, R377. -/
def AES_RX_RATE_MHZ : Fld := ⟨0xD008, 0, 28, .ro, 0, 8, 128, 1, 0, []⟩
/-- 13 Table 13.3, R377. -/
def AES_RX_RATE_NOMINAL : Fld := ⟨0xD008, 28, 3, .ro, 0, 8, 128, 1, 0, []⟩
/-- 13 Table 13.3, R377. -/
def AES_RX_FLAGS_BIPHASE : Fld := ⟨0xD00C, 0, 1, .w1c, 0, 8, 128, 1, 0, []⟩
/-- 13 Table 13.3, R377. -/
def AES_RX_FLAGS_PARITY : Fld := ⟨0xD00C, 1, 1, .w1c, 0, 8, 128, 1, 0, []⟩
/-- 13 Table 13.3, R377. -/
def AES_RX_FLAGS_CS_CRC : Fld := ⟨0xD00C, 2, 1, .w1c, 0, 8, 128, 1, 0, []⟩
/-- 13 Table 13.3, R377. -/
def AES_RX_FLAGS_UNLOCK : Fld := ⟨0xD00C, 3, 1, .w1c, 0, 8, 128, 1, 0, []⟩
/-- 13 Table 13.3, R377. -/
def AES_RX_CS_A_BYTES : Fld := ⟨0xD010, 0, 32, .ro, 0, 8, 128, 6, 4, []⟩
/-- 13 Table 13.3, R377. -/
def AES_RX_CS_B_BYTES : Fld := ⟨0xD028, 0, 32, .ro, 0, 8, 128, 6, 4, []⟩
/-- 13 Table 13.3, R377. -/
def AES_RX_U_A_BYTES : Fld := ⟨0xD040, 0, 32, .ro, 0, 8, 128, 6, 4, []⟩
/-- 13 Table 13.3, R377. -/
def AES_RX_U_B_BYTES : Fld := ⟨0xD058, 0, 32, .ro, 0, 8, 128, 6, 4, []⟩
/-- 13 Table 13.3, R377. -/
def AES_TX_CFG_GROUP : Fld := ⟨0xD400, 0, 4, .rw, 0, 8, 128, 1, 0, []⟩
/-- 13 Table 13.3, R377. -/
def AES_TX_CFG_VAUTO : Fld := ⟨0xD400, 4, 1, .rw, 1, 8, 128, 1, 0, []⟩
/-- 13 Table 13.3, R377. -/
def AES_TX_CFG_V_A : Fld := ⟨0xD400, 5, 1, .rw, 0, 8, 128, 1, 0, []⟩
/-- 13 Table 13.3, R377. -/
def AES_TX_CFG_V_B : Fld := ⟨0xD400, 6, 1, .rw, 0, 8, 128, 1, 0, []⟩
/-- 13 Table 13.3, R377. -/
def AES_TX_CFG_CRC_AUTO : Fld := ⟨0xD400, 7, 1, .rw, 1, 8, 128, 1, 0, []⟩
/-- 13 Table 13.3, R377. -/
def AES_TX_CFG_CS_LOAD : Fld := ⟨0xD400, 8, 1, .w1s, 0, 8, 128, 1, 0, []⟩
/-- 13 Table 13.3, R377. -/
def AES_TX_CFG_U_LOAD : Fld := ⟨0xD400, 9, 1, .w1s, 0, 8, 128, 1, 0, []⟩
/-- 13 Table 13.3, R377. -/
def AES_TX_CFG_SILENT : Fld := ⟨0xD400, 20, 8, .rw, 16, 8, 128, 1, 0, []⟩
/-- 13 Table 13.3, R377. -/
def AES_TX_BASE_SLOT : Fld := ⟨0xD404, 0, 12, .rw, 0, 8, 128, 1, 0, []⟩
/-- 13 Table 13.3, R377. -/
def AES_TX_STAT_RUN : Fld := ⟨0xD408, 0, 1, .ro, 0, 8, 128, 1, 0, []⟩
/-- 13 Table 13.3, R377. -/
def AES_TX_STAT_DOMAIN_A : Fld := ⟨0xD408, 1, 1, .ro, 0, 8, 128, 1, 0, []⟩
/-- 13 Table 13.3, R377. -/
def AES_TX_CS_A_BYTES : Fld := ⟨0xD410, 0, 32, .rw, 0, 8, 128, 6, 4, []⟩
/-- 13 Table 13.3, R377. -/
def AES_TX_CS_B_BYTES : Fld := ⟨0xD428, 0, 32, .rw, 0, 8, 128, 6, 4, []⟩
/-- 13 Table 13.3, R377. -/
def AES_TX_U_A_BYTES : Fld := ⟨0xD440, 0, 32, .rw, 0, 8, 128, 6, 4, []⟩
/-- 13 Table 13.3, R377. -/
def AES_TX_U_B_BYTES : Fld := ⟨0xD458, 0, 32, .rw, 0, 8, 128, 6, 4, []⟩
/-- 14 Table 14.4, R399. -/
def ANN_CTRL_XFADE : Fld := ⟨0x12000, 0, 13, .rw, 240, 1, 0, 1, 0, [(6, 4096)]⟩
/-- 14 Table 14.4, R399. -/
def ANN_CTRL_LATCH_CLASS : Fld := ⟨0x12000, 16, 4, .rw, 1, 1, 0, 1, 0, []⟩
/-- 14 Table 14.4, R399. -/
def ANN_STORE_CFG_CS : Fld := ⟨0x12004, 0, 1, .rwl, 0, 1, 0, 1, 0, []⟩
/-- 14 Table 14.4, R399. -/
def ANN_STORE_CFG_BASE : Fld := ⟨0x12004, 1, 15, .rwl, 0, 1, 0, 1, 0, []⟩
/-- 14 Table 14.4, R399. -/
def ANN_STORE_CFG_SIZE : Fld := ⟨0x12004, 16, 16, .rwl, 0, 1, 0, 1, 0, []⟩
/-- 14 Table 14.4, R399. -/
def ANN_STORE_USE_UNITS : Fld := ⟨0x12008, 0, 16, .ro, 0, 1, 0, 1, 0, []⟩
/-- 14 Table 14.4, R399. -/
def ANN_STORE_WARN_UNITS : Fld := ⟨0x1200C, 0, 16, .rw, 65535, 1, 0, 1, 0, []⟩
/-- 14 Table 14.4, R399. -/
def ANN_PLAYERS_BUSY : Fld := ⟨0x12010, 0, 16, .ro, 0, 1, 0, 1, 0, []⟩
/-- 14 Table 14.4, R399. -/
def ANN_WAITING_COUNT : Fld := ⟨0x12014, 0, 7, .ro, 0, 1, 0, 1, 0, []⟩
/-- 14 Table 14.4, R399. -/
def ANN_FLAGS_LATCHED : Fld := ⟨0x12018, 0, 1, .w1c, 0, 1, 0, 1, 0, []⟩
/-- 14 Table 14.4, R399. -/
def ANN_FLAGS_DROPPED : Fld := ⟨0x12018, 1, 1, .w1c, 0, 1, 0, 1, 0, []⟩
/-- 14 Table 14.4, R399. -/
def ANN_FLAGS_CLIP_ERR : Fld := ⟨0x12018, 2, 1, .w1c, 0, 1, 0, 1, 0, []⟩
/-- 14 Table 14.4, R399. -/
def ANN_PLAY_CNT_COUNT : Fld := ⟨0x1201C, 0, 32, .ro, 0, 1, 0, 1, 0, []⟩
/-- 14 Table 14.4, R399. -/
def ANN_PREEMPT_CNT_COUNT : Fld := ⟨0x12020, 0, 32, .ro, 0, 1, 0, 1, 0, []⟩
/-- 14 Table 14.4, R399. -/
def ANN_LATCH_ZONE : Fld := ⟨0x12040, 0, 32, .ro, 0, 8, 4, 1, 0, []⟩
/-- 15 Table 15.5, R428. -/
def DOM_CTRL_AUTO_RESYNC : Fld := ⟨0x10000, 0, 1, .rw, 0, 1, 0, 1, 0, []⟩
/-- 15 Table 15.5, R428. -/
def DOM_TRIO_LEAD : Fld := ⟨0x10004, 0, 8, .rw, 2, 1, 0, 1, 0, [(2, 255)]⟩
/-- 15 Table 15.5, R428. -/
def DOM_TRIO_REACH_DEALS : Fld := ⟨0x10004, 8, 8, .rw, 8, 1, 0, 1, 0, [(2, 255)]⟩
/-- 15 Table 15.5, R428. -/
def DOM_TRIO_AUTO_DEALS : Fld := ⟨0x10004, 16, 16, .rw, 80, 1, 0, 1, 0, [(8, 65535)]⟩
/-- 15 Table 15.5, R428. -/
def DOM_COPY_DEALS : Fld := ⟨0x10008, 0, 16, .rw, 800, 1, 0, 1, 0, [(64, 65535)]⟩
/-- 15 Table 15.5, R428. -/
def DOM_COPY_FRAGS : Fld := ⟨0x10008, 16, 8, .rw, 16, 1, 0, 1, 0, [(1, 64)]⟩
/-- 15 Table 15.5, R428. -/
def DOM_STATE_ROLE : Fld := ⟨0x10010, 0, 3, .ro, 0, 1, 0, 1, 0, []⟩
/-- 15 Table 15.5, R428. -/
def DOM_STATE_MANAGING : Fld := ⟨0x10010, 3, 1, .ro, 0, 1, 0, 1, 0, []⟩
/-- 15 Table 15.5, R428. -/
def DOM_STATE_WAITING : Fld := ⟨0x10010, 4, 1, .ro, 0, 1, 0, 1, 0, []⟩
/-- 15 Table 15.5, R428. -/
def DOM_STATE_FROZEN : Fld := ⟨0x10010, 5, 1, .ro, 0, 1, 0, 1, 0, []⟩
/-- 15 Table 15.5, R428. -/
def DOM_STATE_AUTONOMOUS : Fld := ⟨0x10010, 6, 1, .ro, 0, 1, 0, 1, 0, []⟩
/-- 15 Table 15.5, R428. -/
def DOM_STATE_COPYING : Fld := ⟨0x10010, 7, 1, .ro, 0, 1, 0, 1, 0, []⟩
/-- 15 Table 15.5, R428. -/
def DOM_STATE_DIVERGED : Fld := ⟨0x10010, 8, 1, .ro, 0, 1, 0, 1, 0, []⟩
/-- 15 Table 15.5, R428. -/
def DOM_STATE_TRIO_IDX : Fld := ⟨0x10010, 9, 2, .ro, 3, 1, 0, 1, 0, []⟩
/-- 15 Table 15.5, R428. -/
def DOM_STATE_SEAT : Fld := ⟨0x10010, 16, 16, .ro, 65534, 1, 0, 1, 0, []⟩
/-- 15 Table 15.5, R428. -/
def DOM_TABLE_TABLE_ID : Fld := ⟨0x10014, 0, 16, .ro, 0, 1, 0, 1, 0, []⟩
/-- 15 Table 15.5, R428. -/
def DOM_TABLE_PRESENT : Fld := ⟨0x10014, 16, 11, .ro, 0, 1, 0, 1, 0, []⟩
/-- 15 Table 15.5, R428. -/
def DOM_ROSTER_VER_VERSION : Fld := ⟨0x10018, 0, 32, .ro, 0, 1, 0, 1, 0, []⟩
/-- 15 Table 15.5, R428. -/
def DOM_ROSTER_DIG_LO_DIGEST : Fld := ⟨0x1001C, 0, 32, .ro, 0, 1, 0, 1, 0, []⟩
/-- 15 Table 15.5, R428. -/
def DOM_ROSTER_DIG_HI_DIGEST : Fld := ⟨0x10020, 0, 32, .ro, 0, 1, 0, 1, 0, []⟩
/-- 15 Table 15.5, R428. -/
def DOM_TRIO_SEAT01_SEAT0 : Fld := ⟨0x10024, 0, 16, .ro, 65535, 1, 0, 1, 0, []⟩
/-- 15 Table 15.5, R428. -/
def DOM_TRIO_SEAT01_SEAT1 : Fld := ⟨0x10024, 16, 16, .ro, 65535, 1, 0, 1, 0, []⟩
/-- 15 Table 15.5, R428. -/
def DOM_TRIO_SEAT2_SEAT2 : Fld := ⟨0x10028, 0, 16, .ro, 65535, 1, 0, 1, 0, []⟩
/-- 15 Table 15.5, R428. -/
def DOM_TRIO_SEAT2_ACTIVE : Fld := ⟨0x10028, 16, 16, .ro, 65535, 1, 0, 1, 0, []⟩
/-- 15 Table 15.5, R428. -/
def DOM_REACH_DIRECT : Fld := ⟨0x1002C, 0, 3, .ro, 0, 1, 0, 1, 0, []⟩
/-- 15 Table 15.5, R428. -/
def DOM_REACH_RELAY : Fld := ⟨0x1002C, 3, 3, .ro, 0, 1, 0, 1, 0, []⟩
/-- 15 Table 15.5, R428. -/
def DOM_REACH_MAJORITY : Fld := ⟨0x1002C, 6, 1, .ro, 0, 1, 0, 1, 0, []⟩
/-- 15 Table 15.5, R428. -/
def DOM_FLAGS_DISSENT : Fld := ⟨0x10030, 0, 1, .w1c, 0, 1, 0, 1, 0, []⟩
/-- 15 Table 15.5, R428. -/
def DOM_FLAGS_FENCED : Fld := ⟨0x10030, 1, 1, .w1c, 0, 1, 0, 1, 0, []⟩
/-- 15 Table 15.5, R428. -/
def DOM_FLAGS_NO_MAJORITY : Fld := ⟨0x10030, 2, 1, .w1c, 0, 1, 0, 1, 0, []⟩
/-- 15 Table 15.5, R428. -/
def DOM_FLAGS_AUTONOMOUS : Fld := ⟨0x10030, 3, 1, .w1c, 0, 1, 0, 1, 0, []⟩
/-- 15 Table 15.5, R428. -/
def DOM_FLAGS_UNKNOWN_PEER : Fld := ⟨0x10030, 4, 1, .w1c, 0, 1, 0, 1, 0, []⟩
/-- 15 Table 15.5, R428. -/
def DOM_FLAGS_CMD_LATE : Fld := ⟨0x10030, 5, 1, .w1c, 0, 1, 0, 1, 0, []⟩
/-- 15 Table 15.5, R428. -/
def DOM_FLAGS_DIVERGED : Fld := ⟨0x10030, 6, 1, .w1c, 0, 1, 0, 1, 0, []⟩
/-- 15 Table 15.5, R428. -/
def DOM_DIG_OWN_LO_DIGEST : Fld := ⟨0x10034, 0, 32, .ro, 0, 1, 0, 1, 0, []⟩
/-- 15 Table 15.5, R428. -/
def DOM_DIG_OWN_HI_DIGEST : Fld := ⟨0x10038, 0, 32, .ro, 0, 1, 0, 1, 0, []⟩
/-- 15 Table 15.5, R428. -/
def DOM_DIG_AGREED_LO_DIGEST : Fld := ⟨0x1003C, 0, 32, .ro, 0, 1, 0, 1, 0, []⟩
/-- 15 Table 15.5, R428. -/
def DOM_DIG_AGREED_HI_DIGEST : Fld := ⟨0x10040, 0, 32, .ro, 0, 1, 0, 1, 0, []⟩
/-- 15 Table 15.5, R428. -/
def DOM_DIG_DEAL_LO_DEAL : Fld := ⟨0x10044, 0, 32, .ro, 0, 1, 0, 1, 0, []⟩
/-- 15 Table 15.5, R428. -/
def DOM_DIG_DEAL_HI_DEAL : Fld := ⟨0x10048, 0, 32, .ro, 0, 1, 0, 1, 0, []⟩
/-- 15 Table 15.5, R428. -/
def DOM_FENCE_CNT_COUNT : Fld := ⟨0x1004C, 0, 32, .ro, 0, 1, 0, 1, 0, []⟩
/-- 15 Table 15.5, R428. -/
def DOM_NOMAJ_CNT_COUNT : Fld := ⟨0x10050, 0, 32, .ro, 0, 1, 0, 1, 0, []⟩
/-- 15 Table 15.5, R428. -/
def DOM_COPY_CNT_COUNT : Fld := ⟨0x10054, 0, 32, .ro, 0, 1, 0, 1, 0, []⟩
/-- 15 Table 15.5, R428. -/
def DOM_LATE_CNT_COUNT : Fld := ⟨0x10058, 0, 32, .ro, 0, 1, 0, 1, 0, []⟩
/-- 15 Table 15.6, R429. -/
def DIAG_SVC_STAT_VOTING : Fld := ⟨0x11B10, 0, 3, .ro, 7, 1, 0, 1, 0, []⟩
/-- 15 Table 15.6, R429. -/
def DIAG_SVC_STAT_RESYNC : Fld := ⟨0x11B10, 3, 1, .ro, 0, 1, 0, 1, 0, []⟩
/-- 15 Table 15.6, R429. -/
def DIAG_SVC_DIS_COUNT : Fld := ⟨0x11B14, 0, 32, .ro, 0, 3, 4, 1, 0, []⟩
/-- 15 Table 15.6, R429. -/
def DIAG_SVC_RESTART_COUNT : Fld := ⟨0x11B20, 0, 32, .ro, 0, 1, 0, 1, 0, []⟩
/-- 16 Table 16.6, R455. -/
def SEC_STATE_LIFECYCLE : Fld := ⟨0x3000, 0, 2, .ro, 0, 1, 0, 1, 0, []⟩
/-- 16 Table 16.6, R455. -/
def SEC_STATE_DEBUG : Fld := ⟨0x3000, 2, 1, .ro, 0, 1, 0, 1, 0, []⟩
/-- 16 Table 16.6, R455. -/
def SEC_STATE_FALLBACK : Fld := ⟨0x3000, 3, 1, .ro, 0, 1, 0, 1, 0, []⟩
/-- 16 Table 16.6, R455. -/
def SEC_STATE_SLOT : Fld := ⟨0x3000, 4, 1, .ro, 0, 1, 0, 1, 0, []⟩
/-- 16 Table 16.6, R455. -/
def SEC_SVN_FUSED : Fld := ⟨0x3004, 0, 8, .ro, 0, 1, 0, 1, 0, []⟩
/-- 16 Table 16.6, R455. -/
def SEC_SVN_RUNNING : Fld := ⟨0x3004, 8, 8, .ro, 0, 1, 0, 1, 0, []⟩
/-- 16 Table 16.6, R455. -/
def SEC_SVN_STAGED : Fld := ⟨0x3004, 16, 8, .ro, 0, 1, 0, 1, 0, []⟩
/-- 16 Table 16.6, R455. -/
def SEC_CTRL_KEY_GRACE_S : Fld := ⟨0x3008, 0, 16, .rw, 60, 1, 0, 1, 0, [(10, 3600)]⟩
/-- 16 Table 16.6, R455. -/
def SEC_CTRL_ATTEST : Fld := ⟨0x3008, 16, 1, .w1s, 0, 1, 0, 1, 0, []⟩
/-- 16 Table 16.6, R455. -/
def SEC_FLAGS_AUTH_FAIL : Fld := ⟨0x300C, 0, 1, .w1c, 0, 1, 0, 1, 0, []⟩
/-- 16 Table 16.6, R455. -/
def SEC_FLAGS_KEY_CHANGED : Fld := ⟨0x300C, 1, 1, .w1c, 0, 1, 0, 1, 0, []⟩
/-- 16 Table 16.6, R455. -/
def SEC_FLAGS_STORE_AUTH : Fld := ⟨0x300C, 2, 1, .w1c, 0, 1, 0, 1, 0, []⟩
/-- 16 Table 16.6, R455. -/
def SEC_FLAGS_DEBUG_SEEN : Fld := ⟨0x300C, 3, 1, .w1c, 0, 1, 0, 1, 0, []⟩
/-- 16 Table 16.6, R455. -/
def SEC_AUTH_FAILS_COUNT : Fld := ⟨0x3010, 0, 32, .ro, 0, 1, 0, 1, 0, []⟩
/-- 16 Table 16.6, R455. -/
def SEC_RING_KEY_NUMBER : Fld := ⟨0x3014, 0, 32, .ro, 0, 1, 0, 1, 0, []⟩
/-- 16 Table 16.6, R455. -/
def SEC_KEYS_OPERATOR : Fld := ⟨0x3018, 0, 3, .ro, 0, 1, 0, 1, 0, []⟩
/-- 16 Table 16.6, R455. -/
def SEC_KEYS_DECK : Fld := ⟨0x3018, 4, 4, .ro, 0, 1, 0, 1, 0, []⟩
/-- 16 Table 16.6, R455. -/
def SEC_KEYS_PREV_RING : Fld := ⟨0x3018, 8, 1, .ro, 0, 1, 0, 1, 0, []⟩
/-- 16 Table 16.6, R455. -/
def SEC_KEYS_LCL0 : Fld := ⟨0x3018, 9, 1, .ro, 0, 1, 0, 1, 0, []⟩
/-- 16 Table 16.6, R455. -/
def SEC_KEYS_LCL1 : Fld := ⟨0x3018, 10, 1, .ro, 0, 1, 0, 1, 0, []⟩
/-- 16 Table 16.6, R455. -/
def SEC_IDEV_LO_ID : Fld := ⟨0x3020, 0, 32, .ro, 0, 1, 0, 1, 0, []⟩
/-- 16 Table 16.6, R455. -/
def SEC_IDEV_HI_ID : Fld := ⟨0x3024, 0, 32, .ro, 0, 1, 0, 1, 0, []⟩
/-- 16 Table 16.6, R455. -/
def SEC_LDEV_LO_ID : Fld := ⟨0x3028, 0, 32, .ro, 0, 1, 0, 1, 0, []⟩
/-- 16 Table 16.6, R455. -/
def SEC_LDEV_HI_ID : Fld := ⟨0x302C, 0, 32, .ro, 0, 1, 0, 1, 0, []⟩
/-- 16 Table 16.6, R455. -/
def SEC_MEAS_BYTES : Fld := ⟨0x3030, 0, 32, .ro, 0, 12, 4, 1, 0, []⟩
/-- 16 Table 16.6, R455. -/
def SEC_NONCE_BYTES : Fld := ⟨0x3060, 0, 32, .rw, 0, 8, 4, 1, 0, []⟩
/-- 16 Table 16.6, R455. -/
def SEC_ATTEST_BYTES : Fld := ⟨0x3800, 0, 32, .ro, 0, 512, 4, 1, 0, []⟩
/-- 17 Table 17.7, R475. -/
def SYS_RESET_FULL : Fld := ⟨0x4, 0, 1, .wo, 0, 1, 0, 1, 0, []⟩
/-- 17 Table 17.7, R475. -/
def SYS_RESET_NOW : Fld := ⟨0x4, 1, 1, .wo, 0, 1, 0, 1, 0, []⟩
/-- 17 Table 17.7, R475. -/
def SYS_RESET_CAUSE_CAUSE : Fld := ⟨0x8, 0, 4, .ro, 0, 1, 0, 1, 0, []⟩
/-- 17 Table 17.7, R475. -/
def SYS_RESET_CAUSE_COUNT : Fld := ⟨0x8, 16, 16, .ro, 0, 1, 0, 1, 0, []⟩
/-- 17 Table 17.7, R475. -/
def SYS_LOCK_LOCK : Fld := ⟨0xC, 0, 1, .w1s, 0, 1, 0, 1, 0, []⟩
/-- 17 Table 17.7, R475. -/
def SYS_STRAP_BOOT_SRC : Fld := ⟨0x10, 0, 2, .ro, 0, 1, 0, 1, 0, []⟩
/-- 17 Table 17.7, R475. -/
def SYS_BOOT_STAGE : Fld := ⟨0x14, 0, 4, .ro, 0, 1, 0, 1, 0, []⟩
/-- 17 Table 17.7, R475. -/
def SYS_BOOT_PCIE_IMAGE : Fld := ⟨0x14, 4, 1, .ro, 0, 1, 0, 1, 0, []⟩
/-- 17 Table 17.7, R475. -/
def SYS_BOOT_RESUME_VALID : Fld := ⟨0x14, 5, 1, .ro, 0, 1, 0, 1, 0, []⟩
/-- 17 Table 17.7, R475. -/
def SYS_BOOT_RESUMED : Fld := ⟨0x14, 6, 1, .ro, 0, 1, 0, 1, 0, []⟩
/-- 17 Table 17.7, R475. -/
def SYS_BOOT_MS_JOINED : Fld := ⟨0x18, 0, 16, .ro, 0, 1, 0, 1, 0, []⟩
/-- 17 Table 17.7, R475. -/
def SYS_BOOT_MS_AUDIO : Fld := ⟨0x18, 16, 16, .ro, 0, 1, 0, 1, 0, []⟩
/-- 17 Table 17.7, R475. -/
def SYS_RESUME_EN : Fld := ⟨0x1C, 0, 1, .rwl, 1, 1, 0, 1, 0, []⟩
/-- 17 Table 17.7, R475. -/
def SYS_PBOOT_LO_ADDR : Fld := ⟨0x20, 12, 20, .rw, 0, 1, 0, 1, 0, []⟩
/-- 17 Table 17.7, R475. -/
def SYS_PBOOT_HI_ADDR : Fld := ⟨0x24, 0, 32, .rw, 0, 1, 0, 1, 0, []⟩
/-- 17 Table 17.7, R475. -/
def SYS_PBOOT_LEN_BYTES : Fld := ⟨0x28, 0, 25, .rw, 0, 1, 0, 1, 0, [(0, 16777216)]⟩
/-- 17 Table 17.7, R475. -/
def SYS_PBOOT_CTRL_GO : Fld := ⟨0x2C, 0, 1, .w1s, 0, 1, 0, 1, 0, []⟩
/-- 17 Table 17.7, R475. -/
def SYS_PBOOT_CTRL_DONE : Fld := ⟨0x2C, 1, 1, .ro, 0, 1, 0, 1, 0, []⟩
/-- 17 Table 17.7, R475. -/
def SYS_PBOOT_CTRL_FAIL : Fld := ⟨0x2C, 2, 1, .ro, 0, 1, 0, 1, 0, []⟩
/-- 17 Table 17.8, R476. -/
def PWR_CTRL_MAX_DEPTH : Fld := ⟨0x2000, 0, 2, .rw, 3, 1, 0, 1, 0, []⟩
/-- 17 Table 17.8, R476. -/
def PWR_CTRL_DWELL : Fld := ⟨0x2000, 16, 16, .rw, 8000, 1, 0, 1, 0, [(1, 65535)]⟩
/-- 17 Table 17.8, R476. -/
def PWR_STATE_STATE : Fld := ⟨0x2004, 0, 2, .ro, 0, 1, 0, 1, 0, []⟩
/-- 17 Table 17.8, R476. -/
def PWR_STATE_TARGET : Fld := ⟨0x2004, 2, 2, .ro, 0, 1, 0, 1, 0, []⟩
/-- 17 Table 17.8, R476. -/
def PWR_STATE_MOVING : Fld := ⟨0x2004, 4, 1, .ro, 0, 1, 0, 1, 0, []⟩
/-- 17 Table 17.8, R476. -/
def PWR_STATE_HELD : Fld := ⟨0x2004, 5, 1, .ro, 0, 1, 0, 1, 0, []⟩
/-- 17 Table 17.8, R476. -/
def PWR_STATE_FORCED : Fld := ⟨0x2004, 8, 3, .ro, 0, 1, 0, 1, 0, []⟩
/-- 17 Table 17.8, R476. -/
def PWR_TOL_RENDER_US : Fld := ⟨0x2008, 0, 32, .ro, 0, 1, 0, 1, 0, []⟩
/-- 17 Table 17.8, R476. -/
def PWR_TOL_ICOM_US : Fld := ⟨0x200C, 0, 32, .ro, 0, 1, 0, 1, 0, []⟩
/-- 17 Table 17.8, R476. -/
def PWR_TOL_ANN_US : Fld := ⟨0x2010, 0, 32, .ro, 0, 1, 0, 1, 0, []⟩
/-- 17 Table 17.8, R476. -/
def PWR_TOL_STREAM_US : Fld := ⟨0x2014, 0, 32, .ro, 0, 1, 0, 1, 0, []⟩
/-- 17 Table 17.8, R476. -/
def PWR_WAKE_CNT_COUNT : Fld := ⟨0x2018, 0, 32, .ro, 0, 1, 0, 1, 0, []⟩
/-- 17 Table 17.8, R476. -/
def PWR_FLAGS_WAKE_LATE : Fld := ⟨0x201C, 0, 1, .w1c, 0, 1, 0, 1, 0, []⟩
/-- 17 Table 17.8, R476. -/
def PWR_FLAGS_STATE_CHANGED : Fld := ⟨0x201C, 1, 1, .w1c, 0, 1, 0, 1, 0, []⟩
/-- 17 Table 17.8, R476. -/
def PWR_SEC_DOZE_SEC : Fld := ⟨0x2020, 0, 32, .ro, 0, 1, 0, 1, 0, []⟩
/-- 17 Table 17.8, R476. -/
def PWR_SEC_PARK_SEC : Fld := ⟨0x2024, 0, 32, .ro, 0, 1, 0, 1, 0, []⟩
/-- 17 Table 17.8, R476. -/
def PWR_SEC_FOLD_SEC : Fld := ⟨0x2028, 0, 32, .ro, 0, 1, 0, 1, 0, []⟩
/-- 18 Table 18.18, R482. -/
def GPIO_DIR_OUT : Fld := ⟨0xE000, 0, 32, .rw, 0, 1, 0, 1, 0, []⟩
/-- 18 Table 18.18, R482. -/
def GPIO_OUT_LEVEL : Fld := ⟨0xE004, 0, 32, .rw, 0, 1, 0, 1, 0, []⟩
/-- 18 Table 18.18, R482. -/
def GPIO_OUT_SET_SET : Fld := ⟨0xE008, 0, 32, .wo, 0, 1, 0, 1, 0, []⟩
/-- 18 Table 18.18, R482. -/
def GPIO_OUT_CLR_CLR : Fld := ⟨0xE00C, 0, 32, .wo, 0, 1, 0, 1, 0, []⟩
/-- 18 Table 18.18, R482. -/
def GPIO_IN_LEVEL : Fld := ⟨0xE010, 0, 32, .ro, 0, 1, 0, 1, 0, []⟩
/-- 18 Table 18.18, R482. -/
def GPIO_PULL_DOWN : Fld := ⟨0xE014, 0, 32, .rw, 4294967295, 1, 0, 1, 0, []⟩
/-- 18 Table 18.18, R482. -/
def GPIO_RISE_FLAG : Fld := ⟨0xE018, 0, 32, .w1c, 0, 1, 0, 1, 0, []⟩
/-- 18 Table 18.18, R482. -/
def GPIO_FALL_FLAG : Fld := ⟨0xE01C, 0, 32, .w1c, 0, 1, 0, 1, 0, []⟩
/-- 18 Table 18.18, R482. -/
def GPIO_SCHED_PIN : Fld := ⟨0xE020, 0, 32, .ro, 0, 1, 0, 1, 0, []⟩
/-- 18 Table 18.15, R499. -/
def DIAG_TJ_TEMP : Fld := ⟨0x11C00, 0, 16, .ro, 0, 1, 0, 1, 0, []⟩
/-- 18 Table 18.15, R499. -/
def DIAG_TJ_MAX : Fld := ⟨0x11C00, 16, 16, .rc, 32768, 1, 0, 1, 0, []⟩
/-- 18 Table 18.15, R499. -/
def DIAG_TJ_WARN_WARN : Fld := ⟨0x11C04, 0, 16, .rw, 420, 1, 0, 1, 0, []⟩
/-- 18 Table 18.15, R499. -/
def DIAG_TJ_WARN_THERM : Fld := ⟨0x11C04, 16, 16, .rw, 460, 1, 0, 1, 0, []⟩
/-- 18 Table 18.15, R499. -/
def DIAG_SUPPLY_IN_RANGE : Fld := ⟨0x11C08, 0, 7, .ro, 127, 1, 0, 1, 0, []⟩
/-- 18 Table 18.15, R499. -/
def DIAG_ALERT_FLAGS_SUPPLY : Fld := ⟨0x11C0C, 0, 1, .w1c, 0, 1, 0, 1, 0, []⟩
/-- 18 Table 18.15, R499. -/
def DIAG_ALERT_FLAGS_TJ : Fld := ⟨0x11C0C, 1, 1, .w1c, 0, 1, 0, 1, 0, []⟩
/-- 18 Table 18.15, R499. -/
def DIAG_ALERT_FLAGS_ECC : Fld := ⟨0x11C0C, 2, 1, .w1c, 0, 1, 0, 1, 0, []⟩
/-- 18 Table 18.15, R499. -/
def DIAG_ALERT_FLAGS_CRIT : Fld := ⟨0x11C0C, 3, 1, .w1c, 0, 1, 0, 1, 0, []⟩
/-- 18 Table 18.15, R499. -/
def DIAG_ALERT_FLAGS_SVC : Fld := ⟨0x11C0C, 4, 1, .w1c, 0, 1, 0, 1, 0, []⟩
/-- 18 Table 18.15, R499. -/
def DIAG_ALERT_FLAGS_BYPASS : Fld := ⟨0x11C0C, 5, 1, .w1c, 0, 1, 0, 1, 0, []⟩
/-- 18 Table 18.15, R499. -/
def DIAG_ALERT_MASK_MASK : Fld := ⟨0x11C10, 0, 6, .rw, 0, 1, 0, 1, 0, []⟩
/-- 18 Table 18.15, R499. -/
def DIAG_TJ_SEC0_SEC : Fld := ⟨0x11C14, 0, 32, .ro, 0, 1, 0, 1, 0, []⟩
/-- 18 Table 18.15, R499. -/
def DIAG_TJ_SEC1_SEC : Fld := ⟨0x11C18, 0, 32, .ro, 0, 1, 0, 1, 0, []⟩
/-- 18 Table 18.15, R499. -/
def DIAG_TJ_SEC2_SEC : Fld := ⟨0x11C1C, 0, 32, .ro, 0, 1, 0, 1, 0, []⟩
/-- 18 Table 18.15, R499. -/
def DIAG_TJ_SEC3_SEC : Fld := ⟨0x11C20, 0, 32, .ro, 0, 1, 0, 1, 0, []⟩

end F

/-- Piece 0 of the field table. -/
def fldTable0 : List Fld :=
  [F.GRF_DOMAIN_RATE_A, F.GRF_LOAD_LAST_CYCLES, F.GRF_LOAD_MEAN_CYCLES, F.GRF_LOAD_MAX_CYCLES,
   F.GRF_OVERRUN_CNT_COUNT, F.GRF_OVERRUN_CTRL_REPEAT_DEALS, F.GRF_LOAD_WARN_THRESH, F.GRF_BRIDGE_LOCK_LOCKED,
   F.SYS_ID_PART, F.SYS_ID_STEPPING, F.SYS_ID_FAMILY, F.HIF_CTRL_ENABLE,
   F.HIF_CTRL_HOST_RESET, F.HIF_CTRL_POLL4, F.HIF_CTRL_FAULT_VEC, F.HIF_STATUS_RUNNING,
   F.HIF_STATUS_RESET_BUSY, F.HIF_STATUS_DMA_FAULT, F.HIF_STATUS_CFG_ERR, F.HIF_STATUS_CFG_ERR_CODE,
   F.HIF_STATUS_CFG_ERR_ITEM, F.HIF_DB_ADDR_LO_ADDR, F.HIF_DB_ADDR_HI_ADDR, F.HIF_CONS_ADDR_LO_ADDR,
   F.HIF_CONS_ADDR_HI_ADDR, F.HIF_STAT_ADDR_LO_ADDR, F.HIF_STAT_ADDR_HI_ADDR, F.HIF_EVT_ROUTE_RING0,
   F.HIF_EVT_ROUTE_RING1, F.HIF_EVT_ROUTE_RING2, F.HIF_EVT_ROUTE_RING3, F.HIF_EVT_ROUTE_RING4,
   F.HIF_EVT_ROUTE_RING5, F.HIF_EVT_ROUTE_RING6, F.HIF_EVT_ROUTE_RING7, F.HIF_LINGER_DEALS,
   F.HIF_TUNNEL_TMO_DEALS, F.HIF_EV_DISCARD_COUNT, F.HIF_WIN_BASE_LO_BASE, F.HIF_WIN_BASE_HI_BASE]

/-- Piece 1 of the field table. -/
def fldTable1 : List Fld :=
  [F.HIF_WIN_SIZE_PAGES, F.HIF_WIN_CTRL_READ, F.HIF_WIN_CTRL_WRITE, F.HIF_SQ_BASE_LO_BASE,
   F.HIF_SQ_BASE_HI_BASE, F.HIF_SQ_SIZE_LOG2, F.HIF_SQ_CTRL_CQ, F.HIF_SQ_CTRL_BURST,
   F.HIF_CQ_BASE_LO_BASE, F.HIF_CQ_BASE_HI_BASE, F.HIF_CQ_SIZE_LOG2, F.HIF_CQ_CTRL_VEC,
   F.HIF_CQ_CTRL_MSIX_EN, F.HIF_CQ_CTRL_COAL_CNT, F.HIF_CQ_CTRL_COAL_DEALS, F.HIF_EQ_BASE_LO_BASE,
   F.HIF_EQ_BASE_HI_BASE, F.HIF_EQ_SIZE_LOG2, F.HIF_EQ_CTRL_VEC, F.HIF_EQ_CTRL_MSIX_EN,
   F.HIF_EQ_CTRL_COAL_CNT, F.HIF_EQ_CTRL_COAL_DEALS, F.HIF_EQ_CTRL_WM, F.CLK_CTRL_SAVE_EN,
   F.CLK_CTRL_REVERT, F.CLK_SERVO_BW, F.CLK_SERVO_FSLEW, F.CLK_MON_AVG_S,
   F.CLK_MON_DWELL_S, F.CLK_MON_QUAL_S, F.CLK_MON_LOSS_PER, F.CLK_DISAGREE_PPB,
   F.CLK_XO_AGE_AGE, F.CLK_XO_EPOCH_SEC, F.CLK_HOLD_LIMIT_NS, F.CLK_HOLD_Y0_NORMAL,
   F.CLK_HOLD_Y0_SAVED, F.CLK_HOLD_DRIFT_AGE_UNC, F.CLK_HOLD_DRIFT_TEMPCO, F.CLK_LOCK_PPM]

/-- Piece 2 of the field table. -/
def fldTable2 : List Fld :=
  [F.CLK_STATE_MODE, F.CLK_STATE_SEL, F.CLK_STATE_HIST_VALID, F.CLK_STATE_SAVED_VALID,
   F.CLK_STATE_SOURCE, F.CLK_STATE_BRIDGING, F.CLK_FLAGS_REF_DISAGREE, F.CLK_FLAGS_HOLDOVER_OUT_OF_SPEC,
   F.CLK_AL_LOCK_LOCK, F.CLK_AL_LOSS_LOSS, F.CLK_AL_RUN_RUN, F.CLK_HOLD_EST_NS,
   F.CLK_HOLD_SEC_SEC, F.CLK_SAVED_AGE_SEC, F.CLK_REF_STAT_ENABLED, F.CLK_REF_STAT_PRESENT,
   F.CLK_REF_STAT_IN_TOL, F.CLK_REF_STAT_QUALIFIED, F.CLK_REF_STAT_SELECTED, F.CLK_REF_STAT_RANK,
   F.CLK_REF_STAT_TOL, F.CLK_REF_OFS_PPB, F.CLK_SYNC_STAT_ARMED, F.CLK_SYNC_STAT_POL,
   F.CLK_SYNC_MASK_MASK, F.CLK_RAMP_STAT_ACTIVE, F.CLK_RAMP_OFS_PPB, F.TIM_CTRL_MODE,
   F.TIM_CTRL_PPS_OUT_EN, F.TIM_CTRL_TOD_ARM, F.TIM_CTRL_PPS_REF, F.TIM_TOD_SEC_LO_SEC,
   F.TIM_TOD_SEC_HI_SEC, F.TIM_STEP_NS, F.TIM_SLEW_RATE, F.TIM_RING_FILT,
   F.TIM_RING_LOSS_DEALS, F.TIM_RING_DISAGREE_NS, F.TIM_LOCK_NS, F.TIM_LOCK_DEALS]

/-- Piece 3 of the field table. -/
def fldTable3 : List Fld :=
  [F.TIM_UTC_OFFSET, F.TIM_UTC_LI61, F.TIM_UTC_LI59, F.TIM_UTC_VALID,
   F.TIM_PPS_WIDTH_MS, F.TIM_LAUNCH_LATE_NS, F.TIM_LAUNCH_HORIZON, F.TIM_PORT_ASYM_PS,
   F.TIM_PORT_RX_EXT_PS, F.TIM_PORT_TX_EXT_PS, F.TIM_PTP_CTRL_ROLE, F.TIM_PTP_CTRL_PROFILE,
   F.TIM_PTP_CTRL_ONE_STEP, F.TIM_PTP_CTRL_L2, F.TIM_PTP_CTRL_DOMAIN, F.TIM_PTP_PRIO_PRIORITY1,
   F.TIM_PTP_PRIO_PRIORITY2, F.TIM_PTP_INTV_LOG_SYNC, F.TIM_PTP_INTV_LOG_ANNOUNCE, F.TIM_PTP_INTV_LOG_DELAY,
   F.TIM_PTP_INTV_ANN_TMO, F.TIM_PTP_STAT_STATE, F.TIM_PTP_STAT_AS_CAPABLE, F.TIM_PTP_STAT_GM_CLASS,
   F.TIM_PTP_STAT_STEPS, F.TIM_STATE_LOCKED, F.TIM_STATE_EVER_LOCKED, F.TIM_STATE_HOLD,
   F.TIM_STATE_SLEWING, F.TIM_STATE_OFFGRID, F.TIM_STATE_PATH_A, F.TIM_STATE_PATH_B,
   F.TIM_STATE_SOURCE, F.TIM_STATE_SOURCE_SEAT, F.TIM_OFFSET_PS, F.TIM_SLEW_REM_NS,
   F.TIM_FLAGS_STEP_REFUSED, F.TIM_FLAGS_PATH_DISAGREE, F.TIM_FLAGS_UNLOCKED, F.TIM_LINK_A_PS]

/-- Piece 4 of the field table. -/
def fldTable4 : List Fld :=
  [F.TIM_LINK_B_PS, F.TIM_GEN_GEN, F.TIC_CTRL_ENABLE, F.TIC_CTRL_TB_EXT,
   F.TIC_CTRL_ANCHOR, F.TIC_STATUS_TB_LOCKED, F.TIC_STATUS_EXT_PRESENT, F.TIC_STATUS_TB_HOLD,
   F.TIC_STATUS_EPOCH, F.TIC_FLAGS_TB_LOST, F.TIC_CH_EN, F.TIC_CH_FALL,
   F.TIC_CH_BOTH, F.TIC_CH_DIV, F.RING_CTRL_ENABLE, F.RING_CTRL_FORCE_BYPASS,
   F.RING_CTRL_SPEED_A, F.RING_CTRL_SPEED_B, F.RING_CTRL_FEC_A, F.RING_CTRL_FEC_B,
   F.RING_CTRL_EXT_PHY_A, F.RING_CTRL_EXT_PHY_B, F.RING_CTRL_LCL_BRIDGE, F.RING_TIMERS_RELAY_MS,
   F.RING_TIMERS_MARKER_US, F.RING_TIMERS_FLOOD_DEALS, F.RING_WTR_WTR_DEALS, F.RING_MKA_HELLO_MS,
   F.RING_MKA_KEY_TMO_S, F.RING_MKA_RETRY_S, F.RING_STATE_INS, F.RING_STATE_SEAM_HERE,
   F.RING_STATE_LINK_A, F.RING_STATE_LINK_B, F.RING_STATE_SECURE_A, F.RING_STATE_SECURE_B,
   F.RING_STATE_MARK_A, F.RING_STATE_MARK_B, F.RING_STATE_EPOCH, F.RING_SEAM_SEAT]

/-- Piece 5 of the field table. -/
def fldTable5 : List Fld :=
  [F.RING_SEAM_PORT, F.RING_SEAM_HOME, F.RING_SEAM_SPLIT, F.RING_NBR_NBR_A,
   F.RING_NBR_NBR_B, F.RING_FLAGS_BYPASSED, F.RING_FLAGS_SEAM_MOVED, F.RING_FLAGS_ICV_FAIL,
   F.RING_FLAGS_TOKEN_LOW, F.RING_FLAGS_NBR_CHANGED, F.RING_MAC_LO_MAC, F.RING_MAC_HI_MAC,
   F.RING_MDIO_CTRL_PRTAD, F.RING_MDIO_CTRL_DEVAD, F.RING_MDIO_CTRL_OP, F.RING_MDIO_CTRL_GO,
   F.RING_MDIO_CTRL_BUSY, F.RING_MDIO_CTRL_DIV, F.RING_MDIO_DATA_DATA, F.RING_PORT_CFG_EN,
   F.RING_PORT_CFG_LSPEED, F.RING_PORT_CFG_MACSEC, F.RING_PORT_CFG_XPN, F.RING_PORT_CFG_MAX_FRAME,
   F.RING_TC_MAP_TC0, F.RING_TC_MAP_TC1, F.RING_TC_MAP_TC2, F.RING_TC_MAP_TC3,
   F.RING_TC_MAP_TC4, F.RING_TC_MAP_TC5, F.RING_TC_MAP_TC6, F.RING_TC_MAP_TC7,
   F.RING_TOK_FREE_FREE, F.RING_PORT_STAT_LINK, F.RING_PORT_STAT_SECURE, F.RING_PORT_STAT_AN,
   F.RING_TAS_CTRL_ENABLE, F.RING_TAS_CTRL_PENDING, F.RING_TAS_CTRL_ERR, F.RING_TAS_CTRL_ADMIN_LEN]

/-- Piece 6 of the field table. -/
def fldTable6 : List Fld :=
  [F.RING_TAS_CYCLE_NS, F.RING_TAS_BASE_LO_DEAL, F.RING_TAS_BASE_HI_DEAL, F.RING_TAS_CHANGE_LO_DEAL,
   F.RING_TAS_CHANGE_HI_DEAL, F.RING_GCL_ADDR_ENTRY, F.RING_GCL_ADDR_OPER, F.RING_GCL_DATA_GATES,
   F.RING_GCL_DATA_INTERVAL_NS, F.RING_CBS_EN, F.RING_CBS_IDLE_KBPS, F.STR_CTRL_IGMP_EN,
   F.STR_CTRL_IGMP_V2, F.STR_CTRL_ARP_EN, F.STR_USE_CH_IN, F.STR_USE_CH_OUT,
   F.STR_CTX_LISTENERS, F.STR_CTX_TALKERS, F.STR_CHMAP_ACTIVE, F.STR_CHMAP_DORMANT,
   F.STR_JB_WARN_DEFICIT, F.STR_LOSS_DEALS, F.STR_CRF_WARN_PPB, F.STR_FLAGS_UNDERRUN,
   F.STR_FLAGS_MALFORMED, F.STR_FLAGS_DORMANT, F.STR_FLAGS_CRF_OFFSET, F.STR_FLAGS_LOST,
   F.STR_IP_ADDR_ADDR, F.STR_IP_CFG_TTL, F.GRF_DECK_STATE_STAGED, F.GRF_DECK_STATE_FADING,
   F.GRF_DECK_STATE_RETIRING, F.GRF_DECK_STATE_LIVE_SLOT, F.GRF_DECK_STATE_HELD, F.GRF_LIVE_DIG_LO_DIGEST,
   F.GRF_LIVE_DIG_HI_DIGEST, F.GRF_STAGED_DIG_LO_DIGEST, F.GRF_STAGED_DIG_HI_DIGEST, F.GRF_CUT_DEAL_LO_DEAL]

/-- Piece 7 of the field table. -/
def fldTable7 : List Fld :=
  [F.GRF_CUT_DEAL_HI_DEAL, F.GRF_XFADE_SAMPLES, F.GRF_FADE_REM_SAMPLES, F.GRF_CUT_GROUP_GROUP,
   F.GRF_LIVE_NODES_NODES, F.GRF_FLAGS_CUT_LATE, F.GRF_FLAGS_CUT_MISSED, F.GRF_FLAGS_STAGE_REFUSED,
   F.DIAG_LANE_OVF_COUNT, F.DIAG_LANE_SAT_COUNT, F.DIAG_OVF_FLAG_LANE, F.DIAG_SAT_FLAG_LANE,
   F.DIAG_CL_FAULT_CLUSTER, F.DIAG_CL_BUSY_CLUSTER, F.OBJ_SCENE_STAT_ENABLED, F.OBJ_SCENE_STAT_PLACED,
   F.OBJ_FLAGS_LATE, F.OBJ_FLAGS_STARVED, F.OBJ_FLAGS_CLAMP, F.OBJ_LATE_CNT_COUNT,
   F.OBJ_LATE_DISC_COUNT, F.OBJ_STARVE_CNT_COUNT, F.OBJ_PROBE_SEL_OBJECT, F.OBJ_PROBE_STAT_STATE,
   F.OBJ_PROBE_STAT_POINTS, F.OBJ_PROBE_STAT_KIND, F.OBJ_PROBE_STAT_ENABLE, F.OBJ_PROBE_X_MM,
   F.OBJ_PROBE_Y_MM, F.OBJ_PROBE_Z_MM, F.OBJ_PROBE_FRAC_X, F.OBJ_PROBE_FRAC_Y,
   F.OBJ_PROBE_FRAC_Z, F.OBJ_PROBE_DEAL_LO_DEAL, F.OBJ_PROBE_DEAL_HI_DEAL, F.OBJ_SPK_STAT_PRESENT,
   F.OBJ_SPK_STAT_TRIANGLES, F.OBJ_PAIR_LIMIT_SLOTS, F.OBJ_PAIR_USE_SLOTS, F.OBJ_PAIR_PEAK_SLOTS]

/-- Piece 8 of the field table. -/
def fldTable8 : List Fld :=
  [F.OBJ_NEAR_MM, F.OBJ_POOL_FREE, F.OBJ_POOL_ALLOCATED, F.OBJ_POOL_WARN_FREE_MIN,
   F.OBJ_RFLAGS_SLOPE, F.OBJ_RFLAGS_RANGE, F.OBJ_RFLAGS_NEAR, F.OBJ_RFLAGS_BUDGET,
   F.OBJ_RFLAGS_DISPLACED, F.OBJ_RFLAGS_POOL_SHORT, F.OBJ_RFLAGS_SAT, F.OBJ_SLOPE_CNT_COUNT,
   F.OBJ_RANGE_CNT_COUNT, F.OBJ_NEAR_CNT_COUNT, F.OBJ_DEFER_CNT_COUNT, F.OBJ_DISPLACE_CNT_COUNT,
   F.OBJ_SAT_CNT_COUNT, F.OBJ_PAIR_PROBE_SEL_SPEAKER, F.OBJ_PAIR_PROBE_GAIN_GAIN, F.OBJ_PAIR_PROBE_DELAY_DELAY,
   F.OBJ_PAIR_PROBE_DELAY_STATE, F.OBJ_PAIR_PROBE_DELAY_FINE, F.DIAG_CRIT_MAP_SLOT, F.DIAG_CRIT_MAP_VALID,
   F.DIAG_CRIT_MAP_CL_A, F.DIAG_CRIT_MAP_CL_B, F.DIAG_CRIT_MAP_CL_C, F.DIAG_CRIT_MAP_SPARE,
   F.DIAG_CRIT_DIS_A_COUNT, F.DIAG_CRIT_DIS_B_COUNT, F.DIAG_CRIT_DIS_C_COUNT, F.DIAG_CRIT_NOMAJ_COUNT,
   F.DIAG_CRIT_RESTORE_COUNT, F.DIAG_CRIT_FLAG_DISSENT, F.DIAG_CRIT_FLAG_NO_MAJORITY, F.DIAG_CRIT_STAT_FADED,
   F.COR_STAT_SETS, F.COR_STAT_LIVE_COPY, F.COR_STAT_STAGING, F.COR_FLAGS_SAT]

/-- Piece 9 of the field table. -/
def fldTable9 : List Fld :=
  [F.COR_FLAGS_ECC_MUTE, F.COR_FLAGS_MEAS_ABORT, F.COR_SAT_CNT_COUNT, F.COR_MUTED_SETS,
   F.COR_MEAS_LIMIT, F.COR_MEAS_ABORT_CLASS, F.COR_MEAS_STAT_STATE, F.COR_MEAS_STAT_OUTPUT,
   F.AEC_CTRL_CLUSTERS, F.AEC_DUCK_MIN_CLASS, F.AEC_DUCK_HOLD_MS, F.AEC_CONN_CHANNEL,
   F.AEC_DORMANT_CHANNEL, F.AEC_TALK_CHANNEL, F.AEC_FLAGS_DIVERGED, F.AEC_CH_STAT_CONVERGED,
   F.AEC_CH_STAT_DOUBLE_TALK, F.AEC_CH_STAT_NS_DB, F.AEC_CH_STAT_ERLE, F.AEC_CH_DIV_COUNT,
   F.SAP_RUN_DIR, F.SAP_FLAGS_SLIP, F.SAP_RATE_TOL_PPM, F.SAP_GRP_FRAME_BITS,
   F.SAP_x_CFG_FORMAT, F.SAP_x_CFG_MASTER, F.SAP_x_CFG_BCK_INV, F.SAP_x_CFG_FS_INV,
   F.SAP_x_CFG_TRI, F.SAP_x_CFG_WIDTH, F.SAP_x_CFG_WORD, F.SAP_x_CFG_SLOTS,
   F.SAP_x_CFG_AUTO_RESTART, F.SAP_x_CFG_GROUP, F.SAP_x_CFG_SILENT, F.SAP_x_CFG_HB_EN,
   F.SAP_x_CFG_HB_PACK, F.SAP_x_BASE_SLOT, F.SAP_x_MASK_SLOT, F.SAP_x_STAT_RUN]

/-- Piece 10 of the field table. -/
def fldTable10 : List Fld :=
  [F.SAP_x_STAT_SILENT, F.SAP_x_STAT_DOMAIN_A, F.SAP_x_STAT_SLIPPED, F.SAP_x_STAT_CLOCK,
   F.SAP_x_STAT_OFFSET, F.SAP_x_RATE_MHZ, F.SAP_x_RATE_NOMINAL, F.SAP_x_HB_LO_ADDR,
   F.SAP_x_HB_HI_ADDR, F.SAP_x_HB_FRAMES_FRAMES, F.SAP_x_HB_POS_FRAME, F.SAP_x_HB_POS_ACTIVE,
   F.AES_RX_CFG_VMUTE, F.AES_RX_CFG_SILENT, F.AES_RX_STAT_RUN, F.AES_RX_STAT_LOCK,
   F.AES_RX_STAT_PRO, F.AES_RX_STAT_V_A, F.AES_RX_STAT_V_B, F.AES_RX_STAT_CS_SEQ,
   F.AES_RX_RATE_MHZ, F.AES_RX_RATE_NOMINAL, F.AES_RX_FLAGS_BIPHASE, F.AES_RX_FLAGS_PARITY,
   F.AES_RX_FLAGS_CS_CRC, F.AES_RX_FLAGS_UNLOCK, F.AES_RX_CS_A_BYTES, F.AES_RX_CS_B_BYTES,
   F.AES_RX_U_A_BYTES, F.AES_RX_U_B_BYTES, F.AES_TX_CFG_GROUP, F.AES_TX_CFG_VAUTO,
   F.AES_TX_CFG_V_A, F.AES_TX_CFG_V_B, F.AES_TX_CFG_CRC_AUTO, F.AES_TX_CFG_CS_LOAD,
   F.AES_TX_CFG_U_LOAD, F.AES_TX_CFG_SILENT, F.AES_TX_BASE_SLOT, F.AES_TX_STAT_RUN]

/-- Piece 11 of the field table. -/
def fldTable11 : List Fld :=
  [F.AES_TX_STAT_DOMAIN_A, F.AES_TX_CS_A_BYTES, F.AES_TX_CS_B_BYTES, F.AES_TX_U_A_BYTES,
   F.AES_TX_U_B_BYTES, F.ANN_CTRL_XFADE, F.ANN_CTRL_LATCH_CLASS, F.ANN_STORE_CFG_CS,
   F.ANN_STORE_CFG_BASE, F.ANN_STORE_CFG_SIZE, F.ANN_STORE_USE_UNITS, F.ANN_STORE_WARN_UNITS,
   F.ANN_PLAYERS_BUSY, F.ANN_WAITING_COUNT, F.ANN_FLAGS_LATCHED, F.ANN_FLAGS_DROPPED,
   F.ANN_FLAGS_CLIP_ERR, F.ANN_PLAY_CNT_COUNT, F.ANN_PREEMPT_CNT_COUNT, F.ANN_LATCH_ZONE,
   F.DOM_CTRL_AUTO_RESYNC, F.DOM_TRIO_LEAD, F.DOM_TRIO_REACH_DEALS, F.DOM_TRIO_AUTO_DEALS,
   F.DOM_COPY_DEALS, F.DOM_COPY_FRAGS, F.DOM_STATE_ROLE, F.DOM_STATE_MANAGING,
   F.DOM_STATE_WAITING, F.DOM_STATE_FROZEN, F.DOM_STATE_AUTONOMOUS, F.DOM_STATE_COPYING,
   F.DOM_STATE_DIVERGED, F.DOM_STATE_TRIO_IDX, F.DOM_STATE_SEAT, F.DOM_TABLE_TABLE_ID,
   F.DOM_TABLE_PRESENT, F.DOM_ROSTER_VER_VERSION, F.DOM_ROSTER_DIG_LO_DIGEST, F.DOM_ROSTER_DIG_HI_DIGEST]

/-- Piece 12 of the field table. -/
def fldTable12 : List Fld :=
  [F.DOM_TRIO_SEAT01_SEAT0, F.DOM_TRIO_SEAT01_SEAT1, F.DOM_TRIO_SEAT2_SEAT2, F.DOM_TRIO_SEAT2_ACTIVE,
   F.DOM_REACH_DIRECT, F.DOM_REACH_RELAY, F.DOM_REACH_MAJORITY, F.DOM_FLAGS_DISSENT,
   F.DOM_FLAGS_FENCED, F.DOM_FLAGS_NO_MAJORITY, F.DOM_FLAGS_AUTONOMOUS, F.DOM_FLAGS_UNKNOWN_PEER,
   F.DOM_FLAGS_CMD_LATE, F.DOM_FLAGS_DIVERGED, F.DOM_DIG_OWN_LO_DIGEST, F.DOM_DIG_OWN_HI_DIGEST,
   F.DOM_DIG_AGREED_LO_DIGEST, F.DOM_DIG_AGREED_HI_DIGEST, F.DOM_DIG_DEAL_LO_DEAL, F.DOM_DIG_DEAL_HI_DEAL,
   F.DOM_FENCE_CNT_COUNT, F.DOM_NOMAJ_CNT_COUNT, F.DOM_COPY_CNT_COUNT, F.DOM_LATE_CNT_COUNT,
   F.DIAG_SVC_STAT_VOTING, F.DIAG_SVC_STAT_RESYNC, F.DIAG_SVC_DIS_COUNT, F.DIAG_SVC_RESTART_COUNT,
   F.SEC_STATE_LIFECYCLE, F.SEC_STATE_DEBUG, F.SEC_STATE_FALLBACK, F.SEC_STATE_SLOT,
   F.SEC_SVN_FUSED, F.SEC_SVN_RUNNING, F.SEC_SVN_STAGED, F.SEC_CTRL_KEY_GRACE_S,
   F.SEC_CTRL_ATTEST, F.SEC_FLAGS_AUTH_FAIL, F.SEC_FLAGS_KEY_CHANGED, F.SEC_FLAGS_STORE_AUTH]

/-- Piece 13 of the field table. -/
def fldTable13 : List Fld :=
  [F.SEC_FLAGS_DEBUG_SEEN, F.SEC_AUTH_FAILS_COUNT, F.SEC_RING_KEY_NUMBER, F.SEC_KEYS_OPERATOR,
   F.SEC_KEYS_DECK, F.SEC_KEYS_PREV_RING, F.SEC_KEYS_LCL0, F.SEC_KEYS_LCL1,
   F.SEC_IDEV_LO_ID, F.SEC_IDEV_HI_ID, F.SEC_LDEV_LO_ID, F.SEC_LDEV_HI_ID,
   F.SEC_MEAS_BYTES, F.SEC_NONCE_BYTES, F.SEC_ATTEST_BYTES, F.SYS_RESET_FULL,
   F.SYS_RESET_NOW, F.SYS_RESET_CAUSE_CAUSE, F.SYS_RESET_CAUSE_COUNT, F.SYS_LOCK_LOCK,
   F.SYS_STRAP_BOOT_SRC, F.SYS_BOOT_STAGE, F.SYS_BOOT_PCIE_IMAGE, F.SYS_BOOT_RESUME_VALID,
   F.SYS_BOOT_RESUMED, F.SYS_BOOT_MS_JOINED, F.SYS_BOOT_MS_AUDIO, F.SYS_RESUME_EN,
   F.SYS_PBOOT_LO_ADDR, F.SYS_PBOOT_HI_ADDR, F.SYS_PBOOT_LEN_BYTES, F.SYS_PBOOT_CTRL_GO,
   F.SYS_PBOOT_CTRL_DONE, F.SYS_PBOOT_CTRL_FAIL, F.PWR_CTRL_MAX_DEPTH, F.PWR_CTRL_DWELL,
   F.PWR_STATE_STATE, F.PWR_STATE_TARGET, F.PWR_STATE_MOVING, F.PWR_STATE_HELD]

/-- Piece 14 of the field table. -/
def fldTable14 : List Fld :=
  [F.PWR_STATE_FORCED, F.PWR_TOL_RENDER_US, F.PWR_TOL_ICOM_US, F.PWR_TOL_ANN_US,
   F.PWR_TOL_STREAM_US, F.PWR_WAKE_CNT_COUNT, F.PWR_FLAGS_WAKE_LATE, F.PWR_FLAGS_STATE_CHANGED,
   F.PWR_SEC_DOZE_SEC, F.PWR_SEC_PARK_SEC, F.PWR_SEC_FOLD_SEC, F.GPIO_DIR_OUT,
   F.GPIO_OUT_LEVEL, F.GPIO_OUT_SET_SET, F.GPIO_OUT_CLR_CLR, F.GPIO_IN_LEVEL,
   F.GPIO_PULL_DOWN, F.GPIO_RISE_FLAG, F.GPIO_FALL_FLAG, F.GPIO_SCHED_PIN,
   F.DIAG_TJ_TEMP, F.DIAG_TJ_MAX, F.DIAG_TJ_WARN_WARN, F.DIAG_TJ_WARN_THERM,
   F.DIAG_SUPPLY_IN_RANGE, F.DIAG_ALERT_FLAGS_SUPPLY, F.DIAG_ALERT_FLAGS_TJ, F.DIAG_ALERT_FLAGS_ECC,
   F.DIAG_ALERT_FLAGS_CRIT, F.DIAG_ALERT_FLAGS_SVC, F.DIAG_ALERT_FLAGS_BYPASS, F.DIAG_ALERT_MASK_MASK,
   F.DIAG_TJ_SEC0_SEC, F.DIAG_TJ_SEC1_SEC, F.DIAG_TJ_SEC2_SEC, F.DIAG_TJ_SEC3_SEC]

/-- Every field of every register. -/
def fldTable : List Fld :=
  fldTable0 ++ fldTable1 ++ fldTable2 ++ fldTable3 ++ fldTable4 ++ fldTable5 ++ fldTable6 ++ fldTable7 ++ fldTable8 ++ fldTable9 ++ fldTable10 ++ fldTable11 ++ fldTable12 ++ fldTable13 ++ fldTable14

end Sys2Proof
end

