-- ==== Sys2Proof/Machine/State.lean ====
section
/-! DEFINITION. The state of the block: every register, ring, FIFO, buffer, counter, mode and pin the spec gives it, as plain data,
and the queue of waiting commands. -/
namespace Sys2Proof.Machine

/-- The identity of a command whose final completion is still to be written: its source, tag and opcode, the deal it should
apply at, the host-interface epoch it was taken in, whether its interim completion has been written, and IRQ_NOW (03 R63). -/
structure Ticket where
  src : Src
  tag : Nat
  op : Nat
  eff : Nat
  epoch : Nat
  interim : Bool
  irq : Bool
deriving DecidableEq, Repr

/-- An accepted command that waits for its effective deal (03 R62). -/
structure Held where
  cmd : Cmd
  tk : Ticket
deriving DecidableEq, Repr

/-- A command sent to another seat whose final reply has not arrived (03 R70-R71). When sent is none it waits for an active
manager (15 R412). -/
structure Sent where
  tunId : Nat
  cmd : Cmd
  tk : Ticket
  since : Nat
  waiting : Bool
deriving DecidableEq, Repr

/-- A tunnel request in reassembly (06 R165). -/
structure Assembly where
  seat : Nat
  tunId : Nat
  first : Nat
  got : List Nat
deriving DecidableEq, Repr

/-- One entry of a capture FIFO: the deal it entered, and the event record it becomes (03 R79). -/
structure FifoEntry where
  deal : Nat
  code : Nat
  pay : Pay
deriving DecidableEq, Repr

/-- A capture FIFO of 64 entries with the counters of 05 Table 5.5 and 13 (03 R79). -/
structure Fifo where
  entries : List FifoEntry := []
  captured : Nat := 0
  discarded : Nat := 0
  lingerFlushes : Nat := 0
  run : Nat := 0
deriving DecidableEq, Repr

/-- An event record as written (03 Table 3.11). -/
structure EvRec where
  code : Nat
  src : Nat
  flags : Nat
  seat : Nat
  seq : Nat
  deal : Nat
  pay : Pay
deriving DecidableEq, Repr

/-- The host interface beside its registers (03). The ring numbers of tables keyed by ring are those of the chapter: submission
s, completion c and event e, each from 0; the indices of the device's own are full counts, of which a ring shows the low 32 bits. lat is
the register set as the enable latched it (R53). lvl holds the levels of Table 3.12 that lie above their watermarks, wmNew the crossings
since the last status page, wmAck the last WM_ACK_SEQ acted on and wmSeen the last one read (R80, R507). pollFrom is the deal of the first
poll and polls the polls of the deal pollDeal (R53, R55). cqCov and eqCov are the producer counts that the last status page showed (R66),
linger the capture FIFOs whose oldest entry has waited (R79), replies the tunnel replies in reassembly and toSend the SUBTYPE and length of
the tunnel frames that leave at the next boundary (06 R165), aer the error statuses reported by kind (R83) and bar0 the address that the
host gave BAR0. -/
structure Hif where
  lat : SMap Nat := []
  epoch : Nat := 0
  sqCons : SMap Nat := []
  sqProd : SMap Nat := []
  sqFault : Nat := 0
  cqProd : SMap Nat := []
  cqCons : SMap Nat := []
  cqRsv : SMap Nat := []
  cqPend : SMap Nat := []
  cqFirst : SMap Nat := []
  cqNow : Nat := 0
  eqProd : SMap Nat := []
  eqCons : SMap Nat := []
  eqLost : SMap Nat := []
  eqTrunc : SMap Nat := []
  eqPend : SMap Nat := []
  eqFirst : SMap Nat := []
  invalid : Nat := 0
  wmSticky : Nat := 0
  wmNew : Nat := 0
  wmAck : Nat := 0
  wmSeen : Nat := 0
  firstPoll : Bool := false
  pollFrom : Nat := 0
  pollDeal : Nat := 0
  polls : Nat := 0
  cqCov : SMap Nat := []
  eqCov : SMap Nat := []
  linger : List Nat := []
  aer : Nat := 0
  bar0 : Nat := 0
  lvl : Nat := 0
  unrouted : Nat := 0
  held : List Held := []
  stopped : List Held := []
  sent : List Sent := []
  tunNext : Nat := 0
  assemblies : List Assembly := []
  seen : List (Nat × Nat) := []
  replies : List Assembly := []
  toSend : List (Nat × Nat) := []
  resetReq : Option Nat := none
  resetEv : Option Nat := none
  bootEv : Bool := true
  fifos : SMap Fifo := []
  msix : SMap Nat := []
  pba : Nat := 0
  msixEn : Bool := false
  msixMask : Bool := false
deriving DecidableEq, Repr

/-- A completion as a tunnel reply carries it, with the result data of a query (06 R165). -/
structure Reply where
  tag : Nat
  op : Nat
  status : Nat
  deal : Nat
  result : Pay
deriving DecidableEq, Repr

/-- What applying a command gives: its final status, none where its work runs across deals and completes later, and the result
data of a query (03 R63). -/
structure Verdict where
  st : Option Nat := some 0
  res : Pay := []
deriving DecidableEq, Repr

/-- What a candidate reference holds beside its CLK_REF_STAT fields (04 R91-R93): its kind and nominal rate, the last bins, and
the runs of seconds out of and within tolerance. -/
structure Cand where
  pps : Bool := false
  hz : Nat := 0
  den : Nat := 0
  bins : List Int := []
  outRun : Nat := 0
  inRun : Nat := 0
deriving DecidableEq, Repr

/-- The states of an output (04 R113). -/
inductive AlSt where
  | stopped
  | search (deals : Nat)
  | waiting
  | on
deriving DecidableEq, Repr

/-- An output and its phase aligner (04 R107-R116): mode 0 GRID, 1 SECOND, 2 FREE, 3 SYNC. slew is the phase still to be removed
under R112, good the consecutive windows within the limits, bits the bits of a serial-port group's frame, ref the SYNC_IN edge in ns that is
the alignment instant of a SYNC output. -/
structure Aligner where
  st : AlSt := .stopped
  mode : Nat := 0
  hz : Nat := 0
  den : Nat := 0
  ofs : Int := 0
  band : Nat := 0
  slew : Int := 0
  good : Nat := 0
  bits : Nat := 0
  ref : Nat := 0
deriving DecidableEq, Repr

/-- A segment of a ramp profile (04 R121). -/
structure RampSeg where
  target : Int
  dur : Nat
  cosine : Bool
deriving DecidableEq, Repr

/-- A ramp engine (04 R117): the output it drives, the segments still to run, the deals run in the first of them and the offset
that it started from. -/
structure Ramp where
  output : Option Nat := none
  segs : List RampSeg := []
  pos : Nat := 0
  start : Int := 0
deriving DecidableEq, Repr

/-- The value that the device keeps in flash for saved holdover (04 R101). -/
structure SavedFreq where
  ctl : Int
  temp : Int
  sec : Nat
deriving DecidableEq, Repr

/-- The selector of 04 Table 4.2, kind 2. -/
inductive SelMode where
  | auto
  | holdover
  | freeRun
  | cand (c : Nat)
deriving DecidableEq, Repr

/-- A running holdover (04 R99-R104): its kind (0 normal, 1 saved, 2 free run), the frequency it entered with, the reference
temperature, the accounting so far, and whether the estimate stands at or above its limit (R105). -/
structure Holdover where
  kind : Nat
  base : Int
  tempRef : Int
  sumTemp : Nat := 0
  oos : Bool := false
deriving DecidableEq, Repr

/-- The media clock unit beside its registers (04). ctl is the timebase frequency in ppb; hist holds the control word and the
temperature of the last 4,200 bins, newest first: the 320 of R100 and the window of R101. due is set while a selection waits for the next
boundary (R94): how many bins back the reference in use began to fail. bin4 is the phase of domain time at the last bin, in ps (R93). -/
structure Clk where
  cands : SMap Cand := []
  mode : SelMode := .auto
  switchFrom : Nat := 7
  absorbed : Int := 0
  ctl : Int := 0
  hist : List (Int × Int) := []
  lockedSec : Nat := 0
  hold : Option Holdover := none
  saved : Option SavedFreq := none
  disagree : SMap Bool := []
  within : SMap Nat := []
  als : SMap Aligner := []
  syncArm : Nat := 0
  syncOfs : Int := 0
  syncEdge : Nat := 0
  syncWait : Nat := 0
  ramps : SMap Ramp := []
  due : Option Nat := none
  bin4 : Option Int := none
deriving DecidableEq, Repr

/-- One direction of two-way ring time (05 R128-R132): the generation and source followed on the port, the deal of the last
record, consecutive deals of records, the last theta, HOPS, and the record that waits to be forwarded, with its own source and generation. sent
holds the egress stamps of the last four markers, newest first, prevRx the ingress stamp of the last marker received. Times are in units of
1/65,536 ns. -/
structure TimeDir where
  valid : Bool := false
  followed : Option (Nat × Nat) := none
  recDeal : Nat := 0
  run : Nat := 0
  theta : Int := 0
  hops : Nat := 0
  origin : Nat := 0
  corr : Int := 0
  ingress : Nat := 0
  forward : Bool := false
  recSeat : Nat := 0
  recGen : Nat := 0
  prevRx : Nat := 0
  sent : List Nat := []
  delays : List Int := []
deriving DecidableEq, Repr

/-- A local port's PTP instance beside TIM_PTP_STAT (05 Table 5.5): the grandmaster it knows, its offset in ps, path delay and rate ratio,
the stamps of the last Sync and of the last peer-delay exchange, the tick of the last Announce and those of the last messages sent by kind. -/
structure Ptp where
  gmId : Nat := 0
  prio1 : Nat := 0
  prio2 : Nat := 0
  offset : Int := 0
  pathDelay : Int := 0
  rateRatio : Int := 0
  t1 : Nat := 0
  t2 : Nat := 0
  t3 : Nat := 0
  t4 : Nat := 0
  annTick : Nat := 0
  sent : SMap Nat := []
deriving DecidableEq, Repr

/-- A frame in a launch-time queue (05 R145): its launch time in ns of domain time, class and length, and the DUAL bit of the ring tag that a
stream's frame takes on the ring at its send (06 R161). -/
structure LaunchFrame where
  at_ns : Nat
  tc : Nat
  len : Nat
  ident : Nat
  dual : Option Bool := none
deriving DecidableEq, Repr

/-- The time unit beside its registers (05). ns and frac are local domain time at the last boundary or step, frac in units of 1/65,536 ns
(R125). avg holds the last FILT values of theta, newest first; judge that R136 judges the next full average; next the number of the next deal
where a step or a source start fixes it; slewAcc what a slew of less than 1 ps has left over, in 1/8 ps; queues the launch queues by
port * 2 + q. -/
structure Tim where
  ns : Nat := 0
  frac : Nat := 0
  dirs : SMap TimeDir := []
  dup : Bool := false
  disagree : Bool := false
  avg : List Int := []
  judge : Bool := false
  relock : Bool := false
  stepped : Bool := false
  stepNs : Int := 0
  lockRun : Nat := 0
  slewTotal : Int := 0
  slewRem : Int := 0
  slewDeals : Nat := 0
  slewRate : Nat := 0
  slewAcc : Nat := 0
  todWait : Bool := false
  starts : Option Nat := none
  next : Option Nat := none
  lastRec : Nat := 0
  ptp : SMap Ptp := []
  ppsOut : Bool := false
  ppsEnd : Nat := 0
  queues : SMap (List LaunchFrame) := []
deriving DecidableEq, Repr

/-- The interval counter beside its registers (05 R148-R151). Channel tables are keyed by channel 0-8; coarse is the last count known, whole
since reset, and lastWraps the whole wraps at a channel's last stamp. -/
structure Tic where
  tbExt : Bool := false
  coarse : Nat := 0
  edges : SMap Nat := []
  lastAt : SMap Nat := []
  lastWraps : SMap Nat := []
  seq : SMap Nat := []
  gap : SMap Bool := []
  holdSince : Nat := 0
deriving DecidableEq, Repr

/-- The ring tag of a frame that travels more than one hop (06 Table 6.2). -/
structure RingTag where
  dual : Bool
  epoch : Nat
  origin : Nat
  hops : Nat
deriving DecidableEq, Repr

/-- A frame that waits at, or leaves by, an egress port (06 R167-R168, R182), with its ring tag, whether it goes without MACsec (an MKPDU), and,
once it starts on a secure port, its packet number (R171). -/
structure QFrame where
  tc : Nat
  len : Nat
  tokens : Nat
  transit : Bool
  poisoned : Bool
  ident : Nat
  tag : Option RingTag := none
  clear : Bool := false
  pn : Nat := 0
deriving DecidableEq, Repr

/-- An egress port (06 R168, R182-R183): the frame on the wire, the waiting frames of all classes in the order of their first
byte's arrival, the credits of classes 4-7 in bits, and the time-aware shaper's operational list, its entry and the time it
ends; last is the time of the last credit update, in ns of domain time. -/
structure Egress where
  sending : Option QFrame := none
  waiting : List QFrame := []
  credit : SMap Int := []
  oper : List (Nat × Nat) := []
  entry : Nat := 0
  gateEnd : Nat := 0
  last : Nat := 0
  tokenLow : Bool := false
  dropRun : Nat := 0
deriving DecidableEq, Repr

/-- A port's peers, markers, packet numbers and stamps (06 R159, R160, R169-R171, R174, R176, R181; 05 R144): backRun counts the valid markers
that show the peer receiving this seat's, by its RX_PREV in peerRx; txPn is the next packet number and rxPn the next one expected; refused is the
peer, by seat and LDevID identifier, reported as holding no CAK, and barred the one that the roster or the active manager has turned away (15 R405); xpn the suite of the SA; rxStamp and txStamp the last ingress and egress stamps. -/
structure Port where
  pcs : Bool := false
  phy : Bool := true
  peer : Nat := 0xFFFF
  keyNo : Nat := 0
  lastMark : Nat := 0
  markRun : Nat := 0
  backRun : Nat := 0
  peerRx : Nat := 0
  markDeal : Nat := 0
  peerJoined : Bool := false
  icvRun : Nat := 0
  icvDeal : Nat := 0
  unknown : Bool := false
  refused : Option (Nat × Nat) := none
  barred : Option (Nat × Nat) := none
  txPn : Nat := 1
  rxPn : Nat := 1
  xpn : Bool := true
  hello : Nat := 0
  pollTick : Nat := 0
  rxStamp : Nat := 0
  txStamp : Nat := 0
deriving DecidableEq, Repr

/-- The ring switch and the ports beside their registers (06). faults is the fault set and prev the set of the configuration
before, with the parity it had; counters is keyed by port * 2^16 + identifier; gcl the administrative lists by port * 256 + entry. speed and fec
hold the set-up as latched at ENABLE or EN by port (R185), loopOk a loopback test that has passed, leftIns the insertion state that a leave left,
mdioOp the operation of the transaction in progress and polls the PHY polls that wait for it (R159). -/
structure RingSt where
  faults : List SeamPt := []
  prev : Option (List SeamPt × Nat) := none
  prevEnd : Nat := 0
  pendingSt : List RingStatus := []
  doneSt : List RingStatus := []
  since : Nat := 0
  closing : Nat := 0
  failAt : Option Nat := none
  loopFail : Bool := false
  leaveAt : Option Nat := none
  leaveCause : Nat := 0
  bypA : Bool := false
  bypB : Bool := false
  unitLost : Nat := 0
  ports : SMap Port := []
  egress : SMap Egress := []
  counters : SMap Nat := []
  gcl : SMap (Nat × Nat) := []
  changeAt : SMap Nat := []
  mdioBusy : Bool := false
  mdioOp : Nat := 0
  polls : List (Nat × Nat × Nat) := []
  speed : SMap Nat := []
  fec : SMap Nat := []
  loopOk : Bool := false
  leftIns : Nat := 0
deriving DecidableEq, Repr

/-- A stream context (07 R195-R207): its parameters as opened, its closing, its storage by presentation index, and its books. role
0 is a listener and 1 a talker; kind 0 AAF, 1 AES67, 2 CRF. ip is STR_IP_ADDR as read at the open (R213), seen the first SSRC that a listener
without one took (R195), tu the packets with tu set (Table 7.1); phaseRef is the stamp from which a CRF listener's phase has moved by drift (R193). -/
structure Stream where
  isOpen : Bool := false
  kind : Nat := 0
  port : Nat := 0
  ch : Nat := 0
  fmt : Nat := 0
  p : Nat := 1
  flags : Nat := 0
  pcp : Nat := 0
  vid : Nat := 0
  depth : Nat := 0
  ofs : Nat := 0
  id : Nat := 0
  dest : Nat := 0
  udp : Nat := 0
  pt : Nat := 0
  dscp : Nat := 0
  ssrc : Nat := 0
  rtpOfs : Nat := 0
  tsAdv : Nat := 0
  interval : Nat := 0
  per : Nat := 0
  ttl : Nat := 0
  closeAt : Option Nat := none
  susp : Bool := false
  first : Nat := 0
  seq : Nat := 0
  high : Option Nat := none
  recs : List Nat := []
  store : SMap (List Int) := []
  last : List Int := []
  gap : Bool := true
  started : Bool := false
  resumed : Bool := false
  lost : Bool := false
  run : Nat := 0
  runIns : Nat := 0
  lastAcc : Nat := 0
  lastStamp : Nat := 0
  malRun : Nat := 0
  fill : Nat := 0
  minFill : Option Nat := none
  shown : List (List Int) := []
  buf : List (List Int) := []
  times : List Nat := []
  phase : Int := 0
  phaseRef : Option Nat := none
  drift : Int := 0
  ip : Nat := 0
  seen : Nat := 0
  tu : Nat := 0
  ppb : Int := 0
  above : Bool := false
  cnt : SMap Nat := []
deriving DecidableEq, Repr

/-- A non-empty channel-map entry (07 Table 7.3). st is 0 newly written, 1 active, 2 dormant, 3 dormant with its listener's closing
fade still to be written in this deal. -/
structure ChEnt where
  kind : Nat
  ch : Nat
  ctx : Nat
  slot : Nat
  st : Nat := 0
deriving DecidableEq, Repr

/-- The stream engine: contexts by number, the channel map by entry, and whether the map must be evaluated at the next boundary. -/
structure Str where
  lis : SMap Stream := []
  tal : SMap Stream := []
  chmap : SMap ChEnt := []
  marked : Bool := false
deriving DecidableEq, Repr

/-- A deck in a slot (08 R237). -/
structure Deck where
  body : DeckBody := {}
  digest : Nat := 0
  load : Nat := 0
  group : Nat := 0
  fade : Nat := 0
  blocks : Nat := 0
  bridgeCh : Nat := 0
  cutDeal : Nat := 0
  origin : Nat := 0
deriving DecidableEq, Repr

/-- A staging in progress (08 R228-R230). reason is the case of R229 that it will fail with, 0 where the image passes. -/
structure Staging where
  h : Held
  deck : Deck
  reason : Nat
  base : Option Nat
  start : Nat
  signer : Nat
deriving DecidableEq, Repr

/-- The deck unit (08). cuts holds the cuts due at this boundary, waiting those that wait for their staging. stBase is the
BASE_DIGEST of a staged partial deck; renderDue is set while a render reset waits for step 3 of its boundary (R245); slotB says which slot holds the live deck (R237). -/
structure DeckUnit where
  live : Deck := {}
  staged : Option Deck := none
  stBase : Option Nat := none
  stReady : Nat := 0
  retiring : Option Deck := none
  sg : Option Staging := none
  held : List Held := []
  cuts : List Held := []
  waiting : List Held := []
  fadeN : Nat := 0
  fadeLeft : Nat := 0
  changed : Nat := 0
  retFrom : Nat := 0
  renderDue : Bool := false
  slotB : Bool := false
  cnt : SMap Nat := []
deriving DecidableEq, Repr

/-- The committed state of a node (02 R37): its state words, and whether it is silent until its deck is next cut (09 R264, Table
1.4). -/
structure NodeSt where
  w : List Int := []
  silent : Bool := false
  satRun : Bool := false
deriving DecidableEq, Repr

/-- The frame bus and the frame sequencer (02, 08 R216, R219, R235). cur and prev are the two images by slot; rcur and rprev those
of the retiring deck's nodes. nodes is keyed by node index, rnodes holds the retiring deck's copies. last is the last sample that
each consumer's path delivered, by slot, and faded the consumers faded in the deal before. hurt holds the nodes that failed in this deal, mute
those of them that are silent from the next deal on, late the kernels that this deal did not see halt, rhurt the retiring deck's nodes that failed in it, and zero the slots that read as zero in it (01 Table
1.4). rate and aec are the set-up in force (R26). brStat is the state of a
rate-bridge channel: 0 lost, 1 delivering, 2 lost in this deal, 3 locked in this deal. retry counts the cycles lost to arbitration by bank and requester, as
6 * (bank - 52) + requester (09 R266). -/
structure Frm where
  rate : Nat := 0
  cur : SMap (List Int) := []
  prev : SMap (List Int) := []
  rcur : SMap (List Int) := []
  rprev : SMap (List Int) := []
  nodes : SMap NodeSt := []
  rnodes : SMap NodeSt := []
  chg : List Nat := []
  xStart : Nat := 0
  last : SMap Int := []
  faded : List Nat := []
  hit : List Nat := []
  committed : Bool := true
  mean : Nat := 0
  run : Nat := 0
  hurt : List Nat := []
  mute : List Nat := []
  late : List Nat := []
  rhurt : List Nat := []
  zero : List Nat := []
  brStat : SMap Nat := []
  brCnt : SMap Nat := []
  retry : SMap Nat := []
  aec : Nat := 0
deriving DecidableEq, Repr

/-- A trajectory point (10 R279), in scene units and 1/256 mm; hold marks the point that TRAJ_CLEAR mode 0 inserted, late
one that was moved to the end of its deal (R281). -/
structure Point where
  t : Nat
  x : Int
  y : Int
  z : Int
  jump : Bool := false
  rest : Bool := false
  hold : Bool := false
  late : Bool := false
deriving DecidableEq, Repr

/-- An object (10 R276, R279): its parameters, its queue, its placement state (0 UNPLACED, 1 MOVING, 2 HOLDING) with the last
evaluated position and its kind. refresh is 1 where MODE or FINE has changed since the last evaluation, 2 in the deal of the evaluation
that found it so (11 R296). -/
structure Obj where
  mode : Nat := 0
  trump : Nat := 15
  enable : Bool := false
  fine : Bool := false
  gain : Int := 2 ^ 30
  spread : Nat := 0
  rolloff : Nat := 0x1000
  aperture : Nat := 0
  refDist : Nat := 0
  zone : Nat := 0xFFFF
  queue : List Point := []
  state : Nat := 0
  x : Int := 0
  y : Int := 0
  z : Int := 0
  kind : Nat := 0
  jumped : Bool := false
  refresh : Nat := 0
  clamped : Bool := false
deriving DecidableEq, Repr

/-- A pair (11 R296): 1 starting, 2 continuing, 3 fading, with its delays in 1/256 smp and its Q2.30 gains at both ends of the deal; was
is the delay at which the deal before ended, which a rebase of the line may cut in d0 (08 R238). -/
structure Pair where
  st : Nat
  d0 : Int
  d1 : Int
  g0 : Int
  g1 : Int
  fine : Bool
  was : Int := 0
deriving DecidableEq, Repr

/-- A delay line (11 R313-R317): the blocks wanted, those allocated (bank * 64 + block), its samples by domain-A index, the samples
it keeps, and whether it waits as a whole. -/
structure Line where
  want : Nat := 0
  blocks : List Nat := []
  data : SMap Int := []
  keep : Nat := 0
  wait : Bool := false
  last : Nat := 0
deriving DecidableEq, Repr

/-- A line's change over a deal (08 R238): the deal, the delay of a delay node and the length in samples before it. -/
structure Rebase where
  deal : Nat
  d : Nat
  size : Nat
deriving DecidableEq, Repr

/-- The render engine (11): pairs by object * 256 + loudspeaker, the lines by object number or 65,536 + node identifier, the lines
that wait for blocks, and the objects in a run of clamps by cause. asleep is set while the engines are stopped. -/
structure Rend where
  pairs : SMap Pair := []
  lines : SMap Line := []
  waiting : List Nat := []
  rebase : SMap Rebase := []
  allocs : Nat := 0
  frees : Nat := 0
  waits : Nat := 0
  slope : List Nat := []
  range : List Nat := []
  near : List Nat := []
  deferRun : Bool := false
  asleep : Bool := false
deriving DecidableEq, Repr

/-- The spare state of a critical output (11 R323): the deal it was taken and the state words of a copy's nodes in order. -/
structure Spare where
  deal : Nat
  words : List (List Int)
deriving DecidableEq, Repr

/-- The voter (11 R321-R323), by egress slot: spare states, slots faded for lack of a majority, dissenting runs as slot * 4 + copy. -/
structure Voter where
  spare : SMap Spare := []
  faded : List Nat := []
  runs : List Nat := []
deriving DecidableEq, Repr

/-- A measurement (12 R339-R342): its command, the list of entries and microphone slots, the blocks it holds, and its progress:
st 1 exciting, 2 deconvolving, 3 written; the list position, the sample within it, the outputs completed, how it ended, and the
peak and the clipping of each capture, by output * 8 + microphone. -/
structure Meas where
  h : Held
  ents : List Nat
  mics : List Nat
  blocks : List Nat
  st : Nat := 1
  pos : Nat := 0
  smp : Nat := 0
  done : Nat := 0
  result : Nat := 0
  peaks : SMap Int := []
  clips : List Nat := []
deriving DecidableEq, Repr

/-- The correction engine beside its registers (12): which copy is live, the muted sets with the deal of muting, the last output
sample of a set, and the measurement. -/
structure Cor where
  copyB : Bool := false
  muted : SMap Nat := []
  last : SMap Int := []
  meas : Option Meas := none
  asleep : Bool := false
deriving DecidableEq, Repr

/-- An intercom channel (12 R346-R348). talk is near-end speech, hold the deal at which its hold ends. -/
structure Icom where
  conn : Bool := false
  duck : Bool := false
  freeze : Bool := false
  ns : Nat := 0
  zone : Nat := 0
  depth : Nat := 0
  refDelay : Nat := 0
  mu : Nat := 0
  talk : Bool := false
  hold : Option Nat := none
  dormant : Bool := false
deriving DecidableEq, Repr

/-- A running port direction (13 R353-R369). begin is the sample index at which the data of a domain-A direction begins; data and
left are a B direction's, with the silent frames still to come. rots holds, newest first, the word of the
pins (sample index times slots, plus slot) from which a slip moved the channels and by how many slots in all. zlo and zhi bound the frames that carry zero after a slip or at a
wake, open where zhi is none. restart is the deal of a slip that a restart will follow, gwait a wait for its group. q holds the
image in the transmit FIFO by slot. mask and newly are the slot mask of the present deal and the slots it newly enables, pmask and
pnew those of the deal before. hb, hbPack, hbAddr and hbFrames are the mirror as set up at the start (R369, 01 R14); format, bckInv, fsInv and
sync the frame format and the pins (R354, R356). inRange counts the consecutive deals in which the clock has been in range (02 R30), frames
a B direction's frames in the deal. -/
structure Dir where
  slots : Nat := 2
  width : Nat := 32
  word : Nat := 24
  grp : Nat := 0
  silent : Nat := 16
  base : Nat := 0
  master : Bool := false
  tri : Bool := false
  domA : Bool := false
  begin_ : Nat := 0
  data : Bool := false
  left : Nat := 0
  zlo : Option Nat := none
  zhi : Option Nat := none
  restart : Option Nat := none
  gwait : Bool := false
  slipped : Bool := false
  rots : List (Nat × Nat) := []
  syncRun : Nat := 0
  stopAt : Option Nat := none
  susp : Bool := false
  clock : Bool := false
  rate : Nat := 0
  q : List (List Int) := []
  qfade : Bool := false
  last : List Int := []
  mask : Nat := 0
  newly : Nat := 0
  pmask : Nat := 0
  pnew : Nat := 0
  hb : Bool := false
  hbPack : Bool := false
  hbAddr : Nat := 0
  hbFrames : Nat := 0
  format : Nat := 0
  bckInv : Bool := false
  fsInv : Bool := false
  sync : Bool := false
  inRange : Nat := 0
  frames : Nat := 0
deriving DecidableEq, Repr

/-- A start whose data has not all begun (13 R361): its mask, the data deal and the directions still to begin. -/
structure PortStart where
  mask : Nat
  data : Nat
  left : Nat
deriving DecidableEq, Repr

/-- The errors of a run at a biphase receiver (13 R371, Table 13.5). -/
structure AesRun where
  biphase : Nat := 0
  parity : Nat := 0
  crc : Nat := 0
deriving DecidableEq, Repr

/-- The serial and biphase ports beside their registers (13). cnt is keyed by direction * 2^16 + identifier; active holds the active
channel-status and user words of the transmitters by the BAR0 offset of their shadow; loads the deal of a load request by
transmitter * 2, plus 1 for user bits. -/
structure SapSt where
  dirs : SMap Dir := []
  cnt : SMap Nat := []
  starts : List PortStart := []
  runs : SMap AesRun := []
  active : SMap Nat := []
  loads : SMap Nat := []
deriving DecidableEq, Repr

/-- A change of power state in progress (17 R457, R461): an entry or a wake, the depths it joins, the deal at which it began and the
cause of EV_POWER_STATE. -/
structure PwrMove where
  entry : Bool
  dst : Nat
  src : Nat
  at_ : Nat
  cause : Nat
deriving DecidableEq, Repr

/-- The power manager beside its registers (17). deeper is the deal since which the target has been deeper than the state; foldAt
the deal at which the last entry to fold began; reset a system reset that is due, with its cause (R474); req a write of
SYS_RESET that waits for the next deal, with its mode; rrAt the deal of a render reset that has not been committed; secs the deals
spent in a state. -/
structure Pwr where
  move : Option PwrMove := none
  deeper : Option Nat := none
  foldAt : Nat := 0
  reset : Option (Nat × Nat) := none
  req : Option (Nat × Nat) := none
  rrAt : Option Nat := none
  secs : SMap Nat := []
deriving DecidableEq, Repr

/-- A version of a clip in the store (14 R380, R381): its serial number, rate code, 24-bit format, and samples as bytes. -/
structure Clip where
  ser : Nat
  rate : Nat
  wide : Bool
  data : List Byte
deriving DecidableEq, Repr

/-- A CLIP_WRITE that is writing (14 R381). -/
structure ClipWrite where
  h : Held
  clip : Clip
  start : Nat
deriving DecidableEq, Repr

/-- A message (14 Table 14.2). -/
structure Msg where
  kind : Nat
  cls : Nat
  flags : Nat
  reps : Nat
  gain : Int
  limit : Nat
  slot : Nat
  wait : Nat
  zones : List Nat
  steps : List Nat
deriving DecidableEq, Repr

/-- A schedule entry (14 Table 14.3). -/
structure Sched where
  trig : Nat
  flags : Nat
  msg : Nat
  cls : Nat
  pin : Nat
  at_ : Nat
  period : Nat
  ofs : Int
deriving DecidableEq, Repr

/-- A step of a play: a clip, silence of samples, or a page's source slot. -/
inductive Seg where
  | clip (num : Nat) (c : Clip)
  | quiet (n : Nat)
  | page (slot : Nat)
deriving DecidableEq, Repr

/-- A request (14 R387): play ID, message, class, zones, the deal since which it waits, its source (0 command, 1 schedule, 2 GPIO, 3
a restored latch) and the entry it came from. -/
structure Req where
  id : Nat
  msg : Nat
  cls : Nat
  zones : List Nat
  since : Nat
  src : Nat
  entry : Nat
deriving DecidableEq, Repr

/-- A play (14 R385): its request, the definition it started with, its player and first deal, the zones it holds, its steps with
the position in them, the repeats done, whether it takes a bridge channel, whether the rest of the present clip is silent, whether
it plays its closing chime after a stop, whether its last sample has been played, and the samples in the bridge. -/
structure Play where
  rq : Req
  defn : Msg
  player : Nat
  start : Nat
  zones : List Nat
  segs : List Seg
  seg : Nat := 0
  pos : Nat := 0
  rep : Nat := 0
  bridged : Bool
  mute : Bool := false
  stopping : Bool := false
  done : Bool := false
  drain : Nat := 0
  fifo : List Int := []
  out : List Int := []
deriving DecidableEq, Repr

/-- A zone's change of holder (14 R390): the outgoing play, none where the zone was free, the deal of sample 0 and the length. -/
structure ZoneFade where
  old : Option Nat
  deal : Nat
  n : Nat
deriving DecidableEq, Repr

/-- A latch (14 R395): its class, and the play ID and message of the play that latched the zone. -/
structure Latch where
  cls : Nat
  id : Nat
  msg : Nat
deriving DecidableEq, Repr

/-- The announcement service beside its registers (14). plays is keyed by a serial number, players and holder give the serial number
of the play of a player and of a zone, fired the schedule entries whose pin is active, trig those whose
pin is to be judged at the coming boundary, lastFire the deal of an entry's last firing,
replay the latches to be replayed, and duck the depth in force in a zone. -/
structure Ann where
  clips : SMap Clip := []
  ser : Nat := 1
  writes : List ClipWrite := []
  msgs : SMap Msg := []
  sched : SMap Sched := []
  fired : List Nat := []
  trig : List Nat := []
  lastFire : SMap Nat := []
  plays : SMap Play := []
  players : SMap Nat := []
  holder : SMap Nat := []
  fades : SMap ZoneFade := []
  waiting : List Req := []
  new : List Req := []
  latch : SMap Latch := []
  replay : List Latch := []
  duck : SMap Nat := []
deriving DecidableEq, Repr

/-- An operator key (16 Table 16.1, R441): its roles and the last COUNTER accepted under it. -/
structure OpKey where
  roles : Nat
  counter : Nat := 0
deriving DecidableEq, Repr

/-- A flash image slot with its count of trial boots (16 R438). -/
structure BootSlot where
  img : BootImg
  trials : Nat := 0
deriving DecidableEq, Repr

/-- An FW_STAGE that is writing (16 R439). -/
structure FwStage where
  h : Held
  img : BootImg
  start : Nat
deriving DecidableEq, Repr

/-- Kolica beside its registers (16): the operator and deck keys, the LDevID, the number of key pairs generated as pending, the
previous ring key with the deal of its erasure, the local CAKs by port, the image slots, the image a PCIe boot waits to check, the
debug challenge as the free value of its nonce and its deal, the fuses blown, the running image's hashes, what the measurement digest was last computed over, and the last kind-1
rotation applied. -/
structure Sec where
  keys : SMap OpKey := []
  deckKeys : List Nat := []
  ldev : Nat := 0
  pend : Nat := 1
  prevKey : Option (Nat × Nat) := none
  caks : SMap Nat := []
  slots : SMap BootSlot := []
  fw : Option FwStage := none
  challenge : Option (Nat × Nat) := none
  hashes : List Nat := []
  meas : List Nat := []
  lastRing : Option Cmd := none
  build : Nat := 0
deriving DecidableEq, Repr

/-- A roster entry (15 Table 15.2). -/
structure RosterEnt where
  seat : Nat
  present : Bool
  ldev : Nat
deriving DecidableEq, Repr

/-- A roster (15 Table 15.1). -/
structure Roster where
  table : Nat
  version : Nat
  ents : List RosterEnt
  trio : List Nat
  spares : List Nat
deriving DecidableEq, Repr

/-- What a snapshot image holds (15 Table 15.4). -/
structure Snap where
  deal : Nat
  digest : Nat
  version : Nat
  objects : Nat
  last : List Nat
  objs : SMap Obj
deriving DecidableEq, Repr

/-- A stamped command that the log keeps (15 R421, R423). -/
structure Stamped where
  seq : Nat
  eff : Nat
  d : Desc
deriving DecidableEq, Repr

/-- What a member knows of another trio index (15 R414-R418): whether it reaches it directly, the deal of the last record and the
records of consecutive deals, the digests it has sent by deal, its flags and the reach it reports. -/
structure Peer where
  est : Bool := false
  last : Nat := 0
  run : Nat := 0
  digs : SMap Nat := []
  flags : Nat := 0
  reach : Nat := 0
deriving DecidableEq, Repr

/-- A copy being received (15 R423-R425): its source, the trio index it will join at, the fragments present, the commands
buffered, the checkpoint deal loaded and the consecutive deals in which the digest has equalled the source's. -/
structure Copy where
  src : Nat
  idx : Option Nat
  since : Nat
  lastFrag : Nat
  got : List Nat := []
  buffered : List Stamped := []
  loaded : Option Nat := none
  eqRun : Nat := 0
  restarts : Nat := 0
deriving DecidableEq, Repr

/-- A copy being served (15 R423). -/
structure Serve where
  seat : Nat
  next : Nat
  snap : Snap
deriving DecidableEq, Repr

/-- The domain manager beside its registers (15). peers is keyed by trio index, snaps holds the newest snapshots first, relayed the
digests relayed by a third member by deal * 4 + index, dissent the consecutive dissents of an index, noSpare the seats that are
not chosen again. wasActive is the active manager known before the present one, needCopy that this seat has joined and is still to ask for a copy (R407,
R427). lastRec is the deal of the last record of a managing member, divRun the consecutive differing deals. -/
structure Dom where
  roster : Option Roster := none
  peers : SMap Peer := []
  snaps : List Snap := []
  relayed : SMap Nat := []
  check : Option Snap := none
  log : List Stamped := []
  stamps : Nat := 0
  last : SMap Nat := []
  dissent : SMap Nat := []
  noSpare : List Nat := []
  joined : List Nat := []
  copy : Option Copy := none
  serve : Option Serve := none
  serveQ : List (Nat × Bool) := []
  lastRec : Nat := 0
  autoAt : Nat := 0
  divRun : Nat := 0
  frozenAt : Option Nat := none
  wasActive : Nat := 0xFFFF
  needCopy : Bool := false
deriving DecidableEq, Repr

/-- The GPIO pins beside their registers (18 R482): the levels driven, and for each pin the deals for which its sample has kept its
level, up to 8. -/
structure Gpio where
  drive : Nat := 0
  run : SMap Nat := []
  sampled : Bool := false
deriving DecidableEq, Repr

/-- A copy of the resume area (17 R473): what it holds, whether it authenticates, and its write generation. -/
structure ResumeCopy where
  deck : Deck
  gen : Nat
deriving DecidableEq, Repr

/-- The supervision and reset state that no register shows: the temperature samples counted towards a second in each band, THERM_N
and ALERT_N as pulled low, the ECC counters by bank * 2 plus 1 for uncorrectable errors, the reset in which the device is held (its
cause), whether EXTEST holds it, PCIE_PERST_N, the boot source awaited over PCIe, the deals since the reset ended, the resume
copies, whether one is staged, and the Subsystem IDs of the running boot image where it replaces the device's own. -/
structure Sys where
  tjMs : SMap Nat := []
  therm : Bool := false
  alert : Bool := false
  ecc : SMap Nat := []
  held : Option Nat := none
  extest : Bool := false
  perst : Bool := false
  pboot : Bool := false
  resume : SMap ResumeCopy := []
  resumeDig : Nat := 0
  audio : Bool := false
  subsys : Option (Nat × Nat) := none
deriving DecidableEq, Repr

/-- The waveform of a transmit direction: its format of 13 Table 13.1 with its inversions, whether it drives its clock pins, and the bits of
a word and of its slot, which carries zero after the word (13 R354-R356). -/
structure Wave where
  format : Nat
  bckInv : Bool
  fsInv : Bool
  master : Bool
  word : Nat
  width : Nat
deriving DecidableEq, Repr

/-- The header of a stream packet that a talker queues (07 R191, R192, R199): its kind (0 AAF, 1 AES67, 2 CRF), sequence number and stamp (the
avtp_timestamp or the RTP timestamp), tu, the stream ID, stream_data_length (AES67: the UDP payload), format, nsr, channels and bit depth, base frequency and
timestamp interval of a CRF PDU, marker, payload type and SSRC, the destination with UDP port, source address, DSCP and TTL, the VLAN tag of a local port
as PCP and VID, and DUAL on the ring. -/
structure TxHead where
  kind : Nat
  seq : Nat
  stamp : Nat
  tu : Nat
  id : Nat
  len : Nat
  fmt : Nat
  nsr : Nat
  ch : Nat
  depth : Nat
  base : Nat
  interval : Nat
  marker : Nat
  pt : Nat
  ssrc : Nat
  dest : Nat
  udp : Nat
  src : Nat
  dscp : Nat
  ttl : Nat
  vlan : Option (Nat × Nat)
  dual : Option Bool
deriving DecidableEq, Repr

/-- What the block gives to the world, in order of issue with the newest first: it is written and never read. -/
inductive Out where
  /-- A completion: ring, producer index, tag, opcode, status, deal (03 Table 3.15). -/
  | completion (ring idx tag op status deal : Nat)
  /-- Bytes 8-31 of an event record, its deal and payload, written first (03 R72). -/
  | recordBody (ring idx deal : Nat) (p : Pay)
  /-- Bytes 0-7 of an event record, whose write makes the record r at a producer index of a ring whole (03 R72, Table 3.11). -/
  | record (ring idx : Nat) (r : EvRec)
  /-- An error message of the function's AER, by the kind of failed completion (03 R83). -/
  | aer (kind : Nat)
  /-- The status page (03 Table 3.8). -/
  | status (p : Pay)
  /-- An MSI-X message of a vector. -/
  | msix (vec : Nat)
  /-- Result data written to a host buffer. -/
  | dma (addr : Nat) (p : Pay)
  /-- What a register read returned. -/
  | read (a : RegAddr) (v : Nat)
  /-- A tunnel reply to a requesting seat (06 R165). -/
  | reply (seat tunId : Nat) (r : Reply)
  /-- A command sent to another seat or to the active manager (03 R70). -/
  | request (seat tunId mgrSeq : Nat) (d : Desc)
  /-- A Heivo control frame handed to a ring port: its SUBTYPE, its ring tag but for a marker, the header of Table 6.3 and the fields after
  it, most significant octet first on the wire (06 R161, R162). -/
  | heivo (port sub : Nat) (tag : Option RingTag) (hdr p : Pay)
  /-- A fragment of a tunnel request (SUBTYPE 3) or reply (4) of so many data bytes: the fields of its tunnel header (06 R165). -/
  | fragment (sub req target tunId seq idx cnt len : Nat)
  /-- A frame starts on an egress port, with its egress stamp in units of 1/65,536 ns (06 R167; 05 R144). -/
  | egress (port : Nat) (f : QFrame) (stamp : Nat)
  /-- A frame delivered locally from a port (06 R166). -/
  | deliver (port ident : Nat)
  /-- An MKPDU sent on a port (06 R170). -/
  | mkpdu (port : Nat)
  /-- A PTP message sent on a local port: its kind (0 Sync, 1 Announce, 2 delay request or peer delay) and its fields in order: domainNumber,
  over IEEE 802.3, two-step, PTP timescale, UTC offset, leap flags, clock class, priority 1 and 2, grandmaster identity and stepsRemoved (05 R140-R143). -/
  | ptp (port kind : Nat) (p : Pay)
  /-- A stream packet queued on ports by a talker: its context, the ports, launch time in ns, header, and the wire words of its frames or the
  timestamps of a CRF PDU (07 R191, R192, R199). -/
  | talker (ctx : Nat) (ports : List Nat) (launch : Nat) (h : TxHead) (frames : List (List Int)) (times : List Nat)
  /-- An ARP answer for an address on a local port (07 R192). -/
  | arp (l addr : Nat)
  /-- IGMP membership reports for groups on a local port; v2 selects IGMPv2 (07 R192). -/
  | igmp (l : Nat) (v2 : Bool) (groups : List Nat)
  /-- The frames a transmit direction placed on its pins in a deal, in its own frame count: per sample one word for each slot, none
  for a slot left high-impedance, and whether the frame carried inserted zeros (13 R354-R356, R373). -/
  | pins (dir : Nat) (w : Wave) (frames : List (List (Option Int))) (zeros : List Bool)
  /-- The V bits of the frames of a biphase transmitter in a deal, subframes A and B, and the 192-bit channel status and user bits that its
  blocks carry (13 R373, R374). -/
  | biphase (t : Nat) (v : List (Bool × Bool)) (csA csB uA uB : Nat)
  /-- Every output pin of a stopped direction is driven low (13 R356, R363). -/
  | pinsLow (dir : Nat)
  /-- A trio record sent to a seat, 0xFFFF for every seat: its opcode and the fields after it (15 R409). -/
  | trio (seat op : Nat) (p : Pay)
  /-- A fragment of a copy, of a checkpoint (15 R423). -/
  | snapshot (seat idx cnt deal : Nat)
  /-- The stamper's acknowledgement to a requesting seat (03 R506). -/
  | stampAck (seat tunId deal : Nat)
  /-- The levels driven on the GPIO outputs: direction and level (18 R482). -/
  | gpio (dir level : Nat)
  /-- THERM_N or ALERT_N pulled low or released (18 R497, R498). -/
  | openDrain (therm low : Bool)
  /-- The debug challenge read through JTAG: the IDevID identifier, the number of the nonce's first free word, the deal (16 R452). -/
  | challenge (idev nonce deal : Nat)
  /-- The enrolment exchange at a ring port: a key package or the last ring-key buffer is delivered to a neighbour (16 R446, R450). -/
  | enrol (port kind : Nat)
  /-- A part of the enrolment exchange relayed to a seat: kind 0 a member's, to the active manager, with the neighbouring seats and the IDevID and
  LDevID identifiers (15 R406); kind 2 the last ring-key buffer, to a neighbour (16 R450). -/
  | relay (seat kind a b idev ldev : Nat)
deriving DecidableEq, Repr

/-- Everything of the block but its queue. regs holds every register field that differs from its reset value, setup the register fields as
they stood at the last deal boundary, where a set-up field that takes effect at the next boundary is in force (04 R122, 05 R153, 07 R213);
fresh counts the free values used and is the model's own. -/
structure Mach where
  deal : Nat := 0
  ticks : Nat := 0
  regs : SMap Nat := []
  setup : SMap Nat := []
  hif : Hif := {}
  fresh : Nat := 0
  out : List Out := []
  clk : Clk := {}
  tim : Tim := {}
  tic : Tic := {}
  ring : RingSt := {}
  str : Str := {}
  dk : DeckUnit := {}
  frm : Frm := {}
  objs : SMap Obj := []
  rend : Rend := {}
  vote : Voter := {}
  cor : Cor := {}
  icom : SMap Icom := []
  sap : SapSt := {}
  pwr : Pwr := {}
  ann : Ann := {}
  sec : Sec := {}
  dom : Dom := {}
  gpio : Gpio := {}
  sys : Sys := {}
deriving DecidableEq, Repr

/-- The machine and its queue of waiting commands, first in, first out. -/
structure State where
  m : Mach
  pending : List Instr
deriving DecidableEq, Repr

/-- Why a step stops with a fault. -/
inductive Fault where
  /-- REGISTER_WRITE or RC_READ at an offset that is not the address of an aligned 32-bit word (00 R3). Safe: the spec gives no
  other access. -/
  | barUnaligned
  /-- REGISTER_WRITE or RC_READ outside the 256 KiB of BAR0 (03 Table 3.1), where no register exists. Safe. -/
  | barOutside
deriving DecidableEq, Repr

/-- Why a command has no meaning. -/
inductive Refusal where
  /-- The dispatch of a command that is not modelled. Safe: nothing is claimed of it. -/
  | notModelled (mnemonic : String)
deriving DecidableEq, Repr

/-- The register store at reset. The manual's "Fused" value of SEC_STATE.LIFECYCLE is PROVISIONED on every shipped device (16 R434),
and CLK_REF_STAT.TOL of candidate 4 resets to 500 (04 Table 4.3); the keys are the fields' places, offset * 32 + lowest bit. -/
def resetRegs : SMap Nat := [(0x3000 * 32, 1), ((0x4060 + 4 * 8) * 32 + 16, 500)]

/-- The block right after a power-on reset, with an empty queue. -/
def State.reset : State := { m := { regs := resetRegs }, pending := [] }

end Sys2Proof.Machine
end

