-- ==== Sys2Proof/Machine/Ops.lean ====
section
/-! DEFINITION. The named operations every family uses: sparse tables, register fields, bits, event records, capture FIFOs,
MSI-X messages, DMA windows, completions. -/
namespace Sys2Proof.Machine

/-! Sparse tables in ascending key order without default entries. -/

/-- The value listed under a key. -/
def mfind {α : Type} : SMap α → Nat → Option α
  | [], _ => none
  | (k, v) :: t, n => if k = n then some v else mfind t n

/-- The value of a key, the default where it is not listed. -/
def mget {α : Type} (d : α) (t : SMap α) (n : Nat) : α := (mfind t n).getD d

/-- The table with a value listed under a key. -/
def mput {α : Type} (n : Nat) (v : α) : SMap α → SMap α
  | [] => [(n, v)]
  | (k, w) :: t =>
    if n < k then (n, v) :: (k, w) :: t
    else if n = k then (n, v) :: t
    else (k, w) :: mput n v t

/-- The table without a key. -/
def mdel {α : Type} (n : Nat) (t : SMap α) : SMap α := t.filter (fun p => p.1 != n)

/-- The table with a key at a value; the default is not listed. -/
def mset {α : Type} [DecidableEq α] (d : α) (n : Nat) (v : α) (t : SMap α) : SMap α :=
  if v = d then mdel n t else mput n v t

/-- The canonical form: keys strictly rising and no entry at the default. -/
def mwf {α : Type} [DecidableEq α] (d : α) (t : SMap α) : Bool :=
  (t.map Prod.fst).Pairwise (· < ·) && t.all (fun p => p.2 ≠ d)

/-- A sum modulo 2^32: the free-running ring indices (03, "Rings and pages"). -/
def add32 (a b : Nat) : Nat := (a + b) % 2 ^ 32

/-- A difference modulo 2^32 (03, "Rings and pages"). -/
def sub32 (a b : Nat) : Nat := (a + (2 ^ 32 - b % 2 ^ 32)) % 2 ^ 32

/-- A number with bit k set. -/
def setBit (n k : Nat) : Nat := if n.testBit k then n else n + 2 ^ k

/-- A number with bit k clear. -/
def clrBit (n k : Nat) : Nat := if n.testBit k then n - 2 ^ k else n

/-- A number with bit k at a value. -/
def putBit (n k : Nat) (b : Bool) : Nat := if b then setBit n k else clrBit n k

/-- The bits of a number below w that are set, in ascending order. -/
def bitsOf (w n : Nat) : List Nat := (List.range w).filter (fun k => n.testBit k)

/-- The bits of a that are clear in b. -/
def andNot (w a b : Nat) : Nat := a &&& ((2 ^ w - 1) ^^^ (b % 2 ^ w))

/-- 1 for true. -/
def b2n (b : Bool) : Nat := if b then 1 else 0

/-- A signed value as the little-endian number of w bits. -/
def s2n (w : Nat) (v : Int) : Nat := (v % (2 ^ w : Int)).toNat

/-- A number of w bits read as two's complement. -/
def n2s (w n : Nat) : Int := if n % 2 ^ w < 2 ^ (w - 1) then (n % 2 ^ w : Nat) else (n % 2 ^ w : Nat) - (2 ^ w : Int)

/-- The value with element i of a list replaced. -/
def lset {α : Type} (l : List α) (i : Nat) (f : α → α) : List α := l.mapIdx (fun k a => if k = i then f a else a)

/-! Register fields (00 R3-R7). The store lists a field only while it differs from its reset value. -/

/-- The store's key of a field: where its lowest bit stands in BAR0. -/
def fkey (f : Fld) (i j : Nat) : Nat := (f.addr + i * f.s1 + j * f.s2) * 32 + f.lsb

/-- The value of a field in a register store. -/
def rgetij (t : SMap Nat) (f : Fld) (i j : Nat) : Nat := mget f.reset t (fkey f i j)

/-- The register store with a field at a value, cut to the field's width. -/
def rsetij (f : Fld) (i j v : Nat) (t : SMap Nat) : SMap Nat := mset f.reset (fkey f i j) (v % 2 ^ f.width) t

/-- The value of a field. -/
def rd (m : Mach) (f : Fld) : Nat := rgetij m.regs f 0 0

/-- The value of repetition i of a field. -/
def rdi (m : Mach) (f : Fld) (i : Nat) : Nat := rgetij m.regs f i 0

/-- The value of repetition i, j of a field. -/
def rdij (m : Mach) (f : Fld) (i j : Nat) : Nat := rgetij m.regs f i j

/-- The machine with a field at a value. -/
def wr (f : Fld) (v : Nat) (m : Mach) : Mach := { m with regs := rsetij f 0 0 v m.regs }

/-- The machine with repetition i of a field at a value; a field has no repetition past its count. -/
def wri (f : Fld) (i v : Nat) (m : Mach) : Mach := { m with regs := if i < f.n1 then rsetij f i 0 v m.regs else m.regs }

/-- The machine with repetition i, j of a field at a value. -/
def wrij (f : Fld) (i j v : Nat) (m : Mach) : Mach := { m with regs := if i < f.n1 ∧ j < f.n2 then rsetij f i j v m.regs else m.regs }

/-- The value in force of a set-up field that takes effect at the next deal boundary. -/
def su (m : Mach) (f : Fld) : Nat := rgetij m.setup f 0 0

/-- The value in force of repetition i of such a field. -/
def sui (m : Mach) (f : Fld) (i : Nat) : Nat := rgetij m.setup f i 0

/-- A field as a flag. -/
def flag (m : Mach) (f : Fld) : Bool := rd m f == 1

/-- The register store with a counting field raised by n; it holds at its largest value. -/
def rbump (f : Fld) (i n : Nat) (t : SMap Nat) : SMap Nat :=
  rsetij f i 0 (min (2 ^ f.width - 1) (rgetij t f i 0 + n)) t

/-- A counting field raised by n; it holds at its largest value. -/
def bump (f : Fld) (n : Nat) (m : Mach) : Mach := { m with regs := rbump f 0 n m.regs }

/-- Repetition i of a counting field raised by n. -/
def bumpi (f : Fld) (i n : Nat) (m : Mach) : Mach := { m with regs := if i < f.n1 then rbump f i n m.regs else m.regs }

/-- Bits set in a field of status or sticky bits. -/
def orReg (f : Fld) (bits : Nat) (m : Mach) : Mach := wr f (rd m f ||| bits) m

/-- Every repetition of a field at its reset value. -/
def rclear (f : Fld) (t : SMap Nat) : SMap Nat :=
  (List.range f.n1).foldl (fun t i => (List.range f.n2).foldl (fun t j => mdel (fkey f i j) t) t) t

/-- A field of the register set that the host-interface enable latched (03 R53). -/
def lat (m : Mach) (f : Fld) (i : Nat) : Nat := rgetij m.hif.lat f i 0

/-- Whether polling is active (03 Table 3.3). -/
def running (m : Mach) : Bool := rd m F.HIF_STATUS_RUNNING == 1

/-- The seat the device reports: 0xFFFE before admission (03 Table 3.11, 15). -/
def ownSeat (m : Mach) : Nat := rd m F.DOM_STATE_SEAT

/-! Event records (03 R72-R76, R504). -/

/-- The routing field of a source block code (03 Table 3.3). -/
def routeFld (k : Nat) : Fld :=
  match k with
  | 0 => F.HIF_EVT_ROUTE_RING0
  | 1 => F.HIF_EVT_ROUTE_RING1
  | 2 => F.HIF_EVT_ROUTE_RING2
  | 3 => F.HIF_EVT_ROUTE_RING3
  | 4 => F.HIF_EVT_ROUTE_RING4
  | 5 => F.HIF_EVT_ROUTE_RING5
  | 6 => F.HIF_EVT_ROUTE_RING6
  | _ => F.HIF_EVT_ROUTE_RING7

/-- A field of the latched set-up. -/
def hlat (h : Hif) (f : Fld) (i : Nat) : Nat := rgetij h.lat f i 0

/-- The event ring that a source block's events go to (R73); field 0 of register 0 is reserved (Table 3.3). -/
def evRing (src : Nat) (h : Hif) : Nat := hlat h (routeFld (src % 8)) (if src % 8 = 0 then src / 8 - 1 else src / 8)

/-- A ring size from its LOG2 field: 0 where the ring is disabled. -/
def ringSize (log2 : Nat) : Nat := if log2 = 0 then 0 else 2 ^ log2

/-- The size of an event ring, 0 where it is disabled. -/
def eqSize (h : Hif) (e : Nat) : Nat := ringSize (hlat h F.HIF_EQ_SIZE_LOG2 e)

/-- The size of a completion ring, 0 where it is disabled. -/
def cqSize (h : Hif) (c : Nat) : Nat := ringSize (hlat h F.HIF_CQ_SIZE_LOG2 c)

/-- The size of a submission ring, 0 where it is disabled. -/
def sqSize (h : Hif) (q : Nat) : Nat := ringSize (hlat h F.HIF_SQ_SIZE_LOG2 q)

/-- The unread records that an event ring holds: pending in R76. -/
def eqFill (h : Hif) (e : Nat) : Nat := min (eqSize h e) (sub32 (mget 0 h.eqProd e) (mget 0 h.eqCons e))

/-- Whether an event ring stands at or above its fill watermark (R80). -/
def eqHigh (h : Hif) (e : Nat) : Bool :=
  hlat h F.HIF_EQ_CTRL_WM e != 0 && hlat h F.HIF_EQ_CTRL_WM e * eqSize h e ≤ 8 * eqFill h e

/-- The host interface after n records on ring e (R75, R81), or after n unrouted ones (R74). -/
def evHif (e n deal : Nat) (h : Hif) : Hif :=
  if eqSize h e = 0 then { h with unrouted := h.unrouted + n }
  else
    { h with
      eqProd := mset 0 e (mget 0 h.eqProd e + n) h.eqProd
      eqLost := mset 0 e (mget 0 h.eqLost e + (eqFill h e + n - eqSize h e)) h.eqLost
      eqPend := mset 0 e (mget 0 h.eqPend e + n) h.eqPend
      eqFirst := if mget 0 h.eqPend e = 0 then mset 0 e deal h.eqFirst else h.eqFirst }

/-- The writes of one record, newest first: bytes 8-31, then bytes 0-7 (R72). -/
def recordOut (e idx : Nat) (r : EvRec) : List Out := [.record e idx r, .recordBody e idx r.deal r.pay]

/-- The records of one packet as the device writes them, newest first: FIRST on the first, CONT on all but the last (R73). -/
def evOut (e src seat : Nat) (l : List FifoEntry) (h : Hif) : List Out :=
  if eqSize h e = 0 then []
  else ((l.mapIdx (fun k x =>
    recordOut e (add32 (mget 0 h.eqProd e) k)
      { code := x.code, src := src, flags := b2n (k + 1 < l.length) + 2 * b2n (k = 0), seat := seat,
        seq := add32 (mget 0 h.eqProd e) k % 2 ^ 16, deal := x.deal, pay := x.pay })).reverse).flatten

/-- A packet onto ring e, and EV_EQ_HIGH where a fill rises through its watermark; that event may raise another ring's fill, and
there are eight rings (R75, R80). -/
def evPost : Nat → Nat → Nat → List FifoEntry → Nat → Nat → Hif → Hif × List Out
  | 0, e, src, l, deal, seat, h => (evHif e l.length deal h, evOut e src seat l h)
  | fuel + 1, e, src, l, deal, seat, h =>
    let h1 := evHif e l.length deal h
    let o1 := evOut e src seat l h
    if eqHigh h1 e && !h1.lvl.testBit (1 + e) then
      let h2 := { h1 with lvl := setBit h1.lvl (1 + e), wmNew := setBit h1.wmNew (1 + e) }
      let r := evPost fuel (evRing 0x13 h2) 0x13
        [{ deal := deal, code := 0x1304,
           pay := [(1, e), (1, hlat h F.HIF_EQ_CTRL_WM e), (2, eqFill h1 e), (4, 0), (8, 0)] }] deal seat h2
      (r.1, r.2 ++ o1)
    else (h1, o1)

/-- The records of one packet to ring e; while the interface does not run they are discarded and counted (R504). -/
def writeTo (e src : Nat) (l : List FifoEntry) (m : Mach) : Mach :=
  { m with
    regs := if running m then m.regs else rbump F.HIF_EV_DISCARD_COUNT 0 l.length m.regs
    hif := if running m then (evPost 8 e src l m.deal (ownSeat m) m.hif).1 else m.hif
    out := if running m then (evPost 8 e src l m.deal (ownSeat m) m.hif).2 ++ m.out else m.out }

/-- The records of one packet, to the ring its source block is routed to. -/
def writeRecords (src : Nat) (l : List FifoEntry) (m : Mach) : Mach := writeTo (evRing src m.hif) src l m

/-- A single-record event that carries the deal d (R73). -/
def raiseAt (d src code : Nat) (pay : Pay) (m : Mach) : Mach := writeRecords src [{ deal := d, code := code, pay := pay }] m

/-- A single-record event of the present deal (R73). -/
def raise (src code : Nat) (pay : Pay) (m : Mach) : Mach := raiseAt m.deal src code pay m

/-- A change made only where a condition holds. -/
def onlyIf (b : Bool) (f : Mach → Mach) (m : Mach) : Mach := if b then f m else m

/-- A change made once for each element of a list, in order. -/
def forEach {α : Type} (l : List α) (f : α → Mach → Mach) (m : Mach) : Mach := l.foldl (fun m a => f a m) m

/-! Capture FIFOs (03 R79). A FIFO is named by its number; its source block is number / 256. -/

/-- A capture FIFO. -/
def fifo (m : Mach) (k : Nat) : Fifo := mget {} m.hif.fifos k

/-- The machine with a capture FIFO replaced. -/
def setFifo (k : Nat) (x : Fifo) (m : Mach) : Mach := { m with hif := { m.hif with fifos := mset {} k x m.hif.fifos } }

/-- An entry arrives at a capture FIFO; a full FIFO discards it, and the first discard of a run raises EV_CAPTURE_OVERFLOW. -/
def fifoPush (k code : Nat) (pay : Pay) (m : Mach) : Mach :=
  let x := fifo m k
  if x.entries.length < 64 then
    setFifo k { x with entries := x.entries ++ [{ deal := m.deal, code := code, pay := pay }], captured := x.captured + 1, run := 0 } m
  else
    onlyIf (x.run == 0) (raise 0x13 0x1305 [(1, k / 256), (1, k % 256), (2, 0), (4, 1), (8, 0)])
      (setFifo k { x with discarded := x.discarded + 1, run := x.run + 1 } m)

/-- The oldest n entries of a capture FIFO leave it as one packet. -/
def fifoEmit (k n : Nat) (m : Mach) : Mach :=
  let x := fifo m k
  setFifo k { x with entries := x.entries.drop n } (writeRecords (k / 256) (x.entries.take n) m)

/-- A capture FIFO gives packets of 8 records as long as it holds 8 entries (R79). -/
def fifoEights (k : Nat) (m : Mach) : Mach :=
  forEach (List.range 8) (fun _ m => onlyIf (8 ≤ (fifo m k).entries.length) (fifoEmit k 8) m) m

/-- What is left in a capture FIFO whose oldest entry has waited leaves as one packet (R79). -/
def fifoFlush (k : Nat) (m : Mach) : Mach :=
  let m1 := fifoEights k m
  if (fifo m1 k).entries = [] then m1
  else
    let m2 := fifoEmit k (fifo m1 k).entries.length m1
    setFifo k { fifo m2 k with lingerFlushes := (fifo m2 k).lingerFlushes + 1 } m2

/-- The end of a poll: every capture FIFO that holds 8 entries gives packets of 8 records, and one whose oldest entry has waited
HIF_LINGER deals is emptied (R73, R79). -/
def fifoDrain (m : Mach) : Mach :=
  let m1 := forEach (m.hif.fifos.map Prod.fst) fifoEights m
  let m2 := forEach m1.hif.linger fifoFlush m1
  { m2 with hif := { m2.hif with linger := [] } }

/-- The digests of the live and of the staged deck, 0 where none is staged (03 Table 3.8). -/
def liveDigest (m : Mach) : Nat := m.dk.live.digest
/-- The staged deck's digest. -/
def stagedDigest (m : Mach) : Nat := (m.dk.staged.map (fun d => d.digest)).getD 0

/-- The digest of the resume deck that this boot staged, 0 where there is none (17 Table 17.9). -/
def resumeDigest (m : Mach) : Nat := m.sys.resumeDig

/-! MSI-X (03 R49, R81, R83). The table's words stand in msix by word number: four words to a vector. -/

/-- Whether a vector is masked: by the function mask or by its own mask bit, which is set after a reset. -/
def vecMasked (m : Mach) (v : Nat) : Bool := m.hif.msixMask || (mget 1 m.hif.msix (4 * v + 3)).testBit 0

/-- The message of a vector; a masked one is held as pending. -/
def sendMsix (v : Nat) (m : Mach) : Mach :=
  { m with
    hif := { m.hif with pba := if m.hif.msixEn && vecMasked m v then setBit m.hif.pba v else m.hif.pba }
    out := if m.hif.msixEn && !vecMasked m v then .msix v :: m.out else m.out }

/-- The pending messages whose masks have cleared are sent (R81). -/
def msixFlush (m : Mach) : Mach :=
  forEach (bitsOf 64 m.hif.pba)
    (fun v m => onlyIf (m.hif.msixEn && !vecMasked m v)
      (fun m => { m with hif := { m.hif with pba := clrBit m.hif.pba v }, out := .msix v :: m.out }) m) m

/-! DMA windows (03 R54). -/

/-- Base address of a DMA window in a register store. -/
def winBase (t : SMap Nat) (w : Nat) : Nat :=
  rgetij t F.HIF_WIN_BASE_LO_BASE w 0 * 4096 + rgetij t F.HIF_WIN_BASE_HI_BASE w 0 * 2 ^ 32

/-- Size of a DMA window in bytes. -/
def winSize (t : SMap Nat) (w : Nat) : Nat := rgetij t F.HIF_WIN_SIZE_PAGES w 0 * 4096

/-- Whether a range lies wholly inside an enabled window that may be read, or written. -/
def inWindow (t : SMap Nat) (write : Bool) (addr len : Nat) : Bool :=
  (List.range 8).any (fun w =>
    winSize t w != 0 && winBase t w ≤ addr && addr + len ≤ winBase t w + winSize t w &&
      (if write then rgetij t F.HIF_WIN_CTRL_WRITE w 0 == 1 else rgetij t F.HIF_WIN_CTRL_READ w 0 == 1))

/-! Completions (03 R57, R63-R66, Table 3.7). -/

/-- DONE. -/
def stDone : Nat := 0
/-- PENDING. -/
def stPending : Nat := 1
/-- LATE. -/
def stLate : Nat := 2
/-- BAD_ARG. -/
def stBadArg : Nat := 0x10
/-- NO_ROOM. -/
def stNoRoom : Nat := 0x11
/-- REFUSED_AUTH. -/
def stRefusedAuth : Nat := 0x12
/-- NOT_MEMBER. -/
def stNotMember : Nat := 0x13
/-- BUSY_STOPPING. -/
def stBusyStopping : Nat := 0x14

/-- The completion ring of a submission ring. -/
def cqOf (m : Mach) (q : Nat) : Nat := lat m F.HIF_SQ_CTRL_CQ q

/-- Whether a command's completion can still be written: its rings are those of the present enable, and DMA runs (R83, R84). -/
def live (tk : Ticket) (m : Mach) : Bool := running m && tk.epoch == m.hif.epoch

/-- The host interface after a completion on ring c that gives back rsv reserved entries besides its own (R57, R81). -/
def cplHif (c rsv : Nat) (now : Bool) (m : Mach) : Hif :=
  { m.hif with
    cqProd := mset 0 c (mget 0 m.hif.cqProd c + 1) m.hif.cqProd
    cqRsv := mset 0 c (mget 0 m.hif.cqRsv c - rsv) m.hif.cqRsv
    cqPend := mset 0 c (mget 0 m.hif.cqPend c + 1) m.hif.cqPend
    cqFirst := if mget 0 m.hif.cqPend c = 0 then mset 0 c m.deal m.hif.cqFirst else m.hif.cqFirst
    cqNow := if now then setBit m.hif.cqNow c else m.hif.cqNow }

/-- The fragments of a tunnel request or reply of so many data bytes, at most 3,968 in each, leave on both ring ports (06 R165). Their records
and their lengths wait for the ring. -/
def tunnelFrames (sub req target tunId seq len : Nat) (m : Mach) : Mach :=
  let cnt := max 1 ((len + 3967) / 3968)
  let part (k : Nat) : Nat := min 3968 (len - 3968 * k)
  { m with
    hif := { m.hif with toSend := m.hif.toSend ++ (List.range cnt).map (fun k => (sub, part k)) }
    out := ((List.range cnt).map (fun k => Out.fragment sub req target tunId seq k cnt (part k))).reverse ++ m.out }

/-- A tunnel reply to a requesting seat (06 R165): a completion and the result data. -/
def sendReply (seat tunId : Nat) (r : Reply) (m : Mach) : Mach :=
  tunnelFrames 4 seat seat tunId 0 (16 + (r.result.map Prod.fst).sum) { m with out := .reply seat tunId r :: m.out }

/-- A completion is written: to the completion ring of a local command, as a tunnel reply for a command of another seat. -/
def completeWith (tk : Ticket) (st d rsv : Nat) (now : Bool) (res : Pay) (m : Mach) : Mach :=
  match tk.src with
  | .ring q =>
    { m with
      hif := if live tk m then cplHif (cqOf m q) rsv now m else m.hif
      out := if live tk m then
          .completion (cqOf m q) (mget 0 m.hif.cqProd (cqOf m q) % 2 ^ 32) tk.tag tk.op st d :: m.out
        else m.out }
  | .tunnel seat tunId _ =>
    sendReply seat tunId { tag := tk.tag, op := tk.op, status := st, deal := d, result := res } m
  | .own => m

/-- The interim completion PENDING or BUSY_STOPPING, and the ticket that remembers it (R63); a tunnelled command's interim
completion stays with its requester. -/
def interim (tk : Ticket) (st d : Nat) (m : Mach) : Mach :=
  match tk.src with
  | .ring _ => if tk.interim then m else completeWith tk st d 1 false [] m
  | _ => m

/-- The final completion (R63). -/
def final (tk : Ticket) (st : Nat) (m : Mach) : Mach :=
  completeWith tk st m.deal (if tk.interim then 1 else 2) tk.irq [] m

/-- DONE, or LATE where the command applied after its effective deal (R61). -/
def doneOrLate (tk : Ticket) (m : Mach) : Nat := if tk.eff < m.deal then stLate else stDone

/-- The result data of a query: into the host buffer by DMA, or with the tunnel reply (R54, R70). -/
def finalWith (tk : Ticket) (st addr : Nat) (res : Pay) (m : Mach) : Mach :=
  match tk.src with
  | .ring _ => final tk st (if live tk m && res != [] then { m with out := .dma addr res :: m.out } else m)
  | _ => completeWith tk st m.deal 0 false res m

/-- A fresh free value and the machine that has used it up. -/
def freeVal (m : Mach) : BitVec 32 := Config.freeWord m.fresh

/-- The machine after n free values were used. -/
def useFresh (n : Nat) (m : Mach) : Mach := { m with fresh := m.fresh + n }

/-- A state change of everything but the queue; a device that is held in reset does nothing (17 R467, 18 R485). -/
def onMach (f : Mach → Mach) (s : State) : Host.Outcome State Fault Refusal :=
  .next { s with m := if s.m.sys.held.isSome then s.m else f s.m }

/-- A state change that a reset does not hold off: a supply, a reset pin or the test port. -/
def onPins (f : Mach → Mach) (s : State) : Host.Outcome State Fault Refusal := .next { s with m := f s.m }

end Sys2Proof.Machine
end

