-- ==== Sys2Proof/Machine/Operands.lean ====
section
/-! DEFINITION. The operand forms: little-endian fields of a descriptor's payload and of buffers, and the bytes of a layout. -/
namespace Sys2Proof.Machine

/-- n bytes of a list from an offset, as a little-endian number; bytes past its end read 0. -/
def leAt (l : List Byte) (off n : Nat) : Nat :=
  ((l.drop off).take n).foldr (fun b acc => b.toNat + 256 * acc) 0

/-- The descriptor field of n bytes at a descriptor offset of 24 or more (03 Table 3.14). -/
def Cmd_at (c : Cmd) (off n : Nat) : Nat := leAt c.pay (off - 24) n

/-- A byte of the descriptor. -/
def u8 (c : Cmd) (off : Nat) : Nat := Cmd_at c off 1
/-- A 16-bit field of the descriptor. -/
def u16 (c : Cmd) (off : Nat) : Nat := Cmd_at c off 2
/-- A 32-bit field of the descriptor. -/
def u32 (c : Cmd) (off : Nat) : Nat := Cmd_at c off 4
/-- A 64-bit field of the descriptor. -/
def u64 (c : Cmd) (off : Nat) : Nat := Cmd_at c off 8
/-- A signed 32-bit field of the descriptor. -/
def s32 (c : Cmd) (off : Nat) : Int := n2s 32 (u32 c off)

/-- Whether the bytes of the descriptor from an offset, n of them, are zero (00 R9). -/
def zeroAt (c : Cmd) (off n : Nat) : Bool := Cmd_at c off n == 0

/-- TUNNEL (03 Table 3.6). -/
def Cmd_tunnel (c : Cmd) : Bool := c.flags.testBit 0
/-- INTERIM. -/
def Cmd_interim (c : Cmd) : Bool := c.flags.testBit 1
/-- SIGNED. -/
def Cmd_signed (c : Cmd) : Bool := c.flags.testBit 2
/-- IRQ_NOW. -/
def Cmd_irqNow (c : Cmd) : Bool := c.flags.testBit 3

/-- Host buffer address of a Buffer command (03 Table 3.14). -/
def bufAddr (c : Cmd) : Nat := u64 c 40
/-- Host buffer length of a Buffer command. -/
def bufLen (c : Cmd) : Nat := u32 c 48

/-- The bytes that the read of a command's buffer gives, for a buffer of plain bytes. -/
def bufBytes (c : Cmd) : List Byte :=
  match c.buf with
  | .bytes l => l
  | _ => []

/-- A number as n little-endian bytes. -/
def leBytes : Nat → Nat → List Byte
  | 0, _ => []
  | n + 1, v => BitVec.ofNat 8 v :: leBytes n (v / 256)

/-- The bytes of a layout (00 R9). -/
def payBytes (p : Pay) : List Byte := p.flatMap (fun f => leBytes f.1 f.2)

/-- The number of bytes of a layout. -/
def paySize (p : Pay) : Nat := (p.map Prod.fst).sum

/-- n bytes of a list from an offset, as a big-endian number. -/
def beAt (l : List Byte) (off n : Nat) : Nat := ((l.drop off).take n).foldl (fun acc b => 256 * acc + b.toNat) 0

/-- The 97-byte encoding of a public key of 96 bytes X and Y (16 R431). -/
def keyEncoding (xy : List Byte) : List Byte := 4 :: xy

/-- The identifier of a public key: bytes 0-7 of the SHA-384 hash of its encoding (16 R432). -/
def keyIdOf (xy : List Byte) : Nat := Config.sha384Low (keyEncoding xy) % 2 ^ 64

/-- The IDevID identifier of the part (16 R432). -/
def idevId : Nat := keyIdOf ((List.range 96).map Config.idevKey)

/-- The public key of the n-th LDevID key pair (16 R435). -/
def pairKey (n : Nat) : List Byte := (List.range 96).map (Config.pubKey n)

/-- Fixed-size records of a buffer. -/
def records (size : Nat) : Nat → List Byte → List (List Byte)
  | 0, _ => []
  | n + 1, l => l.take size :: records size n (l.drop size)

end Sys2Proof.Machine
end

