-- ==== Sys2Proof/Machine/Fixed.lean ====
section
/-! DEFINITION. Exact integer arithmetic behind tables and curves: rounding, and the elementary functions with 80 fractional bits. -/
namespace Sys2Proof.Machine

/-- A quotient rounded to the nearest integer, ties to even: convergent rounding. -/
def rndDiv (x d : Int) : Int :=
  let q := x / d
  let r := x % d
  if 2 * r < d then q else if d < 2 * r then q + 1 else if q % 2 = 0 then q else q + 1

/-- A quotient rounded to the nearest integer, ties up. -/
def nearDiv (x d : Int) : Int := (2 * x + d) / (2 * d)

/-- x cut to the signed range of w bits. -/
def satW (w : Nat) (x : Int) : Int := max (-(2 ^ (w - 1) : Int)) (min (2 ^ (w - 1) - 1 : Int) x)

/-- One, with 80 fractional bits. -/
def oneQ : Int := 2 ^ 80

/-- A product with 80 fractional bits. -/
def mulQ (a b : Int) : Int := a * b / 2 ^ 80

/-- A quotient with 80 fractional bits. -/
def divQ (a b : Int) : Int := if b = 0 then 0 else a * 2 ^ 80 / b

/-- Pi with 80 fractional bits. -/
def piQ : Int := 3797952473636338580787993

/-- The natural logarithm of 2 with 80 fractional bits. -/
def ln2Q : Int := 837963523372001241319907

/-- Terms of the sine or cosine series from term t on, which has index k: the next is -t x^2 / ((k + 1)(k + 2)). -/
def trigSeries : Nat → Int → Int → Nat → Int
  | 0, _, _, _ => 0
  | n + 1, x, t, k => t + trigSeries n x (-(mulQ (mulQ t x) x / (((k + 1) * (k + 2) : Nat) : Int))) (k + 2)

/-- Sine of an angle of at most a quarter turn. -/
def sinSmall (x : Int) : Int := trigSeries 16 x x 1

/-- Cosine of an angle of at most a quarter turn. -/
def cosSmall (x : Int) : Int := trigSeries 16 x oneQ 0

/-- Sine of num / den of a full turn. -/
def sinTurn (num den : Nat) : Int :=
  let k := 4 * (num % den) / den
  let r := 4 * (num % den) - k * den
  let x := piQ * (r : Int) / (2 * den : Nat)
  match k with
  | 0 => sinSmall x
  | 1 => cosSmall x
  | 2 => -sinSmall x
  | _ => -cosSmall x

/-- Cosine of num / den of a full turn. -/
def cosTurn (num den : Nat) : Int := sinTurn (4 * num + den) (4 * den)

/-- Terms of the series of artanh: y + y^3/3 + y^5/5 ... -/
def artanhSeries : Nat → Int → Int → Nat → Int
  | 0, _, _, _ => 0
  | n + 1, y2, p, k => p / (k : Int) + artanhSeries n y2 (mulQ p y2) (k + 2)

/-- Natural logarithm of num / den with num / den from 1/2 to 2. -/
def lnSmall (num den : Nat) : Int :=
  let y := ((num : Int) - den) * 2 ^ 80 / (num + den : Nat)
  2 * artanhSeries 28 (mulQ y y) y 1

/-- Base-2 logarithm of num / den for positive num and den. -/
def log2Q (num den : Nat) : Int :=
  let e : Int := (Nat.log2 num : Int) - Nat.log2 den
  let m := if 0 ≤ e then lnSmall num (den * 2 ^ e.toNat) else lnSmall (num * 2 ^ (-e).toNat) den
  e * 2 ^ 80 + m * 2 ^ 80 / ln2Q

/-- Terms of the exponential series. -/
def expSeries : Nat → Int → Int → Nat → Int
  | 0, _, _, _ => 0
  | n + 1, x, t, k => t + expSeries n x (mulQ t x / (k : Int)) (k + 1)

/-- 2 to the power of a fraction of 80 bits, from 0 to below 1. -/
def exp2Frac (x : Int) : Int := expSeries 30 (mulQ x ln2Q) oneQ 1

/-- 2 to the power x; below 2^-80 it is 0. -/
def exp2Q (x : Int) : Int :=
  let e := x / 2 ^ 80
  let f := exp2Frac (x % 2 ^ 80)
  if 0 ≤ e then f * 2 ^ e.toNat else f / 2 ^ (-e).toNat

/-- Square root of a number with 80 fractional bits. -/
def sqrtQ (x : Int) : Int := (Nat.sqrt (x.toNat * 2 ^ 80) : Nat)

/-- Arc tangent of a ratio of at most 1/8, by its series. -/
def atanSeries : Nat → Int → Int → Nat → Int
  | 0, _, _, _ => 0
  | n + 1, y2, p, k => p / (k : Int) + atanSeries n y2 (-(mulQ p y2)) (k + 2)

/-- Arc tangent of y >= 0, halving the angle four times first. -/
def atanPos (y : Int) : Int :=
  let half (t : Int) : Int := divQ t (oneQ + sqrtQ (oneQ + mulQ t t))
  let t := half (half (half (half y)))
  16 * atanSeries 24 (mulQ t t) t 1

end Sys2Proof.Machine
end

