-- ==== Sys2Proof/Machine/Flags.lean ====
section
/-! DEFINITION. The sticky flags: the watched levels of WM_STICKY (03 R80, Table 3.12) and the sticky status bits. -/
namespace Sys2Proof.Machine

/-- A watched level is judged: where it has risen to its watermark since it was last judged, its WM_STICKY bit is set and its
event queued; the bit stays when the level falls back (R80). The bit waits in wmNew for the next poll, whose acknowledgement it
outlives (R80 step 4). -/
def watch (bit : Nat) (above : Bool) (src code : Nat) (pay : Pay) (m : Mach) : Mach :=
  if above && !m.hif.lvl.testBit bit then
    raise src code pay
      { m with hif := { m.hif with lvl := setBit m.hif.lvl bit, wmNew := if running m then setBit m.hif.wmNew bit else m.hif.wmNew } }
  else { m with hif := { m.hif with lvl := putBit m.hif.lvl bit above } }

/-- WM_STICKY after an acknowledgement of the bits of a mask (R80). -/
def ackSticky (mask : Nat) (h : Hif) : Hif := { h with wmSticky := andNot 32 h.wmSticky mask }

/-- The crossings since the last status page enter WM_STICKY (R80). -/
def showCrossings (m : Mach) : Mach := { m with hif := { m.hif with wmSticky := m.hif.wmSticky ||| m.hif.wmNew, wmNew := 0 } }

end Sys2Proof.Machine
end

