-- ==== Sys2Proof/Machine/Bus.lean ====
section
/-! DEFINITION. The frame bus (08 R216), the rate in force (02 R26), the linear fades (02 R35, R36) and the reduction of samples to
words of a port or a stream (07 R194, 13 R355). -/
namespace Sys2Proof.Machine

/-- The machine with its frame sequencer replaced. -/
def setFrm (f : Frm) (m : Mach) : Mach := { m with frm := f }

/-- Samples per deal at the rate in force (02 Table 2.1). -/
def spd (m : Mach) : Nat := if m.frm.rate = 1 then 12 else 6

/-- The domain-A rate in force, in Hz. -/
def rateHz (m : Mach) : Nat := if m.frm.rate = 1 then 96000 else 48000

/-- The value listed under a number in a list of pairs. -/
def lookN {α : Type} (l : List (Nat × α)) (k : Nat) : Option α := (l.find? (fun p => p.1 == k)).map Prod.snd

/-- The role that the live deck gives a slot (08 Table 8.2). -/
def roleOf (m : Mach) (slot : Nat) : Nat := (lookN m.dk.live.body.roles slot).getD 0

/-- A deal of zeros. -/
def zeros (s : Nat) : List Int := List.replicate s 0

/-- A slot's image in a table of images: zero where no one wrote it. -/
def image (t : SMap (List Int)) (s slot : Nat) : List Int := (mfind t slot).getD (zeros s)

/-- A slot as a node reads it: the image of this deal where it has been written, else that of the deal before (08 R216). -/
def busRead (m : Mach) (slot : Nat) : List Int :=
  if m.frm.zero.contains slot then zeros (spd m) else (mfind m.frm.cur slot).getD (image m.frm.prev (spd m) slot)

/-- A slot as a reader of the deal's own image sees it: zero where no one wrote it. -/
def busNow (m : Mach) (slot : Nat) : List Int := if m.frm.zero.contains slot then zeros (spd m) else image m.frm.cur (spd m) slot

/-- A slot as a reader of the previous image sees it. -/
def busPrev (m : Mach) (slot : Nat) : List Int := if m.frm.zero.contains slot then zeros (spd m) else image m.frm.prev (spd m) slot

/-- A slot's image of this deal is written. -/
def busWrite (slot : Nat) (xs : List Int) (m : Mach) : Mach := setFrm { m.frm with cur := mput slot xs m.frm.cur } m

/-- A Q1.31 word times a Q2.30 word, rounded convergently to Q1.31. -/
def scale30 (x g : Int) : Int := satW 32 (rndDiv (x * g) (2 ^ 30))

/-- The fade of R35 from a last sample. -/
def fadeOut (last : Int) (s : Nat) : List Int :=
  (List.range s).map (fun k : Nat => scale30 last ((2 ^ 30 : Int) * ((s : Int) - 1 - (k : Int)) / (s : Int)))

/-- The scaling of R36. -/
def fadeIn (xs : List Int) : List Int :=
  xs.mapIdx (fun k x => scale30 x ((2 ^ 30 : Int) * ((k : Int) + 1) / (xs.length : Int)))

/-- A Q1.31 sample as a word of w bits: convergent rounding and saturation (R194, R355). -/
def narrow (w : Nat) (x : Int) : Int := satW w (rndDiv x (2 ^ (32 - w)))

/-- A word of w bits in the top bits of a Q1.31 sample (R194, R355). -/
def widen (w : Nat) (x : Int) : Int := x * 2 ^ (32 - w)

/-- The smallest value and the largest of a list, or a default. -/
def minOf (d : Nat) (l : List Nat) : Nat := l.foldl min d
def maxOf (d : Nat) (l : List Nat) : Nat := l.foldl max d

/-- A list of numbers without repeats, in order of first appearance. -/
def dedup (l : List Nat) : List Nat := l.foldl (fun a x => if a.contains x then a else a ++ [x]) []

/-- A list of numbers in ascending order, each once. -/
def insertNat (x : Nat) : List Nat → List Nat
  | [] => [x]
  | y :: t => if x < y then x :: y :: t else if x = y then y :: t else y :: insertNat x t
def sortNat (l : List Nat) : List Nat := l.foldl (fun a x => insertNat x a) []

/-- The index of the first element that meets a test. -/
def firstIdx {α : Type} (p : α → Bool) : List α → Nat → Option Nat
  | [], _ => none
  | a :: t, k => if p a then some k else firstIdx p t (k + 1)

end Sys2Proof.Machine
end

