-- ==== Sys2Proof/Machine/Hif.lean ====
section
/-! DEFINITION. The host interface (03): enable, the consumer words, the status page, interrupts, DMA faults and the counters of
group 0. -/
namespace Sys2Proof.Machine

/-! The enable (R53, Table 3.4), judged on the registers as written. -/

/-- A reserved size encoding of a ring. -/
def badLog2 (lo hi v : Nat) : Bool := v != 0 && !(lo ≤ v && v ≤ hi)

/-- A ring whose size encoding is legal and not 0. -/
def goodLog2 (lo hi v : Nat) : Bool := lo ≤ v && v ≤ hi

/-- Address from the LO and HI parts of a page or ring register. -/
def regAddr (lo hi unit : Nat) : Nat := lo * unit + hi * 2 ^ 32

/-- Items that break code 1 or 2: the pages (R53). -/
def pageFaults (t : SMap Nat) : List (Nat × Nat) :=
  (if inWindow t false (regAddr (rgetij t F.HIF_DB_ADDR_LO_ADDR 0 0) (rgetij t F.HIF_DB_ADDR_HI_ADDR 0 0) 64) 64 then [] else [(1, 48)]) ++
  (if inWindow t false (regAddr (rgetij t F.HIF_CONS_ADDR_LO_ADDR 0 0) (rgetij t F.HIF_CONS_ADDR_HI_ADDR 0 0) 128) 128 then [] else [(1, 49)]) ++
  (if inWindow t true (regAddr (rgetij t F.HIF_STAT_ADDR_LO_ADDR 0 0) (rgetij t F.HIF_STAT_ADDR_HI_ADDR 0 0) 256) 256 then [] else [(2, 50)])

/-- Whether a ring of entries of a size lies in a window. -/
def ringInWindow (t : SMap Nat) (write : Bool) (lo hi log2 : Fld) (i unit : Nat) : Bool :=
  inWindow t write (regAddr (rgetij t lo i 0) (rgetij t hi i 0) 4096) (2 ^ rgetij t log2 i 0 * unit)

/-- Items that break codes 3 to 5: the rings. -/
def ringFaults (t : SMap Nat) : List (Nat × Nat) :=
  ((List.range 16).filter (fun s => goodLog2 4 12 (rgetij t F.HIF_SQ_SIZE_LOG2 s 0) &&
      !ringInWindow t false F.HIF_SQ_BASE_LO_BASE F.HIF_SQ_BASE_HI_BASE F.HIF_SQ_SIZE_LOG2 s 64)).map (fun s => (3, s)) ++
  ((List.range 16).filter (fun c => goodLog2 4 13 (rgetij t F.HIF_CQ_SIZE_LOG2 c 0) &&
      !ringInWindow t true F.HIF_CQ_BASE_LO_BASE F.HIF_CQ_BASE_HI_BASE F.HIF_CQ_SIZE_LOG2 c 16)).map (fun c => (4, 16 + c)) ++
  ((List.range 8).filter (fun e => goodLog2 6 14 (rgetij t F.HIF_EQ_SIZE_LOG2 e 0) &&
      !ringInWindow t true F.HIF_EQ_BASE_LO_BASE F.HIF_EQ_BASE_HI_BASE F.HIF_EQ_SIZE_LOG2 e 32)).map (fun e => (4, 32 + e)) ++
  ((List.range 16).filter (fun s => goodLog2 4 12 (rgetij t F.HIF_SQ_SIZE_LOG2 s 0) &&
      rgetij t F.HIF_CQ_SIZE_LOG2 (rgetij t F.HIF_SQ_CTRL_CQ s 0) 0 == 0)).map (fun s => (5, s))

/-- Whether two enabled windows overlap. -/
def overlap (t : SMap Nat) (v w : Nat) : Bool :=
  winSize t v != 0 && winSize t w != 0 && winBase t v < winBase t w + winSize t w && winBase t w < winBase t v + winSize t v

/-- Items that break codes 6 to 8. -/
def sizeFaults (t : SMap Nat) : List (Nat × Nat) :=
  ((List.range 8).filter (fun v => (List.range 8).any (fun w => v < w && overlap t v w))).map (fun v => (6, 40 + v)) ++
  ((List.range 16).filter (fun s => badLog2 4 12 (rgetij t F.HIF_SQ_SIZE_LOG2 s 0) ||
      (rgetij t F.HIF_SQ_SIZE_LOG2 s 0 != 0 && rgetij t F.HIF_SQ_CTRL_BURST s 0 == 0))).map (fun s => (7, s)) ++
  ((List.range 16).filter (fun c => badLog2 4 13 (rgetij t F.HIF_CQ_SIZE_LOG2 c 0) ||
      (rgetij t F.HIF_CQ_SIZE_LOG2 c 0 != 0 && rgetij t F.HIF_CQ_CTRL_COAL_CNT c 0 == 0))).map (fun c => (7, 16 + c)) ++
  ((List.range 8).filter (fun e => badLog2 6 14 (rgetij t F.HIF_EQ_SIZE_LOG2 e 0) ||
      (rgetij t F.HIF_EQ_SIZE_LOG2 e 0 != 0 && rgetij t F.HIF_EQ_CTRL_COAL_CNT e 0 == 0))).map (fun e => (7, 32 + e)) ++
  (if (List.range 16).any (fun c => rgetij t F.HIF_CQ_SIZE_LOG2 c 0 != 0) then [] else [(8, 0)])

/-- The rule of Table 3.4 that the set-up breaks: the lowest code and in it the lowest item. -/
def setupFault (t : SMap Nat) : Option (Nat × Nat) := (pageFaults t ++ ringFaults t ++ sizeFaults t).head?

/-- EV_HIF_RESET_DONE, the first record on event ring 0 at the enable after a host-function reset (R84). -/
def raiseResetDone (m : Mach) : Mach :=
  match m.hif.resetEv with
  | none => m
  | some n =>
    writeTo 0 0x13 [{ deal := m.deal, code := 0x1302, pay := [(4, n), (4, 0), (8, liveDigest m)] }]
      { m with hif := { m.hif with resetEv := none } }

/-- EV_BOOT_DONE at the first enable after a power-on, pin or system reset (17 R474, Table 17.9). -/
def raiseBootDone (m : Mach) : Mach :=
  if m.hif.bootEv then
    raise 0x12 0x1202
      [(1, rd m F.SYS_RESET_CAUSE_CAUSE), (1, if flag m F.SYS_BOOT_PCIE_IMAGE then 2 else rd m F.SEC_STATE_SLOT),
       (1, rd m F.SYS_BOOT_RESUMED), (1, 0), (2, rd m F.SYS_BOOT_MS_JOINED), (2, rd m F.SYS_BOOT_MS_AUDIO), (8, resumeDigest m)]
      { m with hif := { m.hif with bootEv := false } }
  else m

/-- The interface starts: the set-up is latched, every ring begins empty, and the first poll is that of the next deal (R53, R507). -/
def startHif (m : Mach) : Mach :=
  { m with
    regs := rsetij F.HIF_STATUS_RUNNING 0 0 1 (rsetij F.HIF_CTRL_ENABLE 0 0 1 (rsetij F.HIF_STATUS_CFG_ERR 0 0 0
      (rsetij F.HIF_STATUS_CFG_ERR_CODE 0 0 0 (rsetij F.HIF_STATUS_CFG_ERR_ITEM 0 0 0 m.regs))))
    hif := { m.hif with
      lat := m.regs, sqCons := [], sqProd := [], sqFault := 0, cqProd := [], cqCons := [], cqRsv := [], cqPend := [],
      cqFirst := [], cqNow := 0, eqProd := [], eqCons := [], eqLost := [], eqTrunc := [], eqPend := [], eqFirst := [],
      invalid := 0, wmSticky := 0, wmNew := 0, wmAck := 0, wmSeen := 0, firstPoll := true, unrouted := 0, pollFrom := m.deal + 1,
      pollDeal := 0, polls := 0, cqCov := [], eqCov := [] } }

/-- Setting HIF_CTRL.ENABLE: the set-up is refused with its code and item, or polling starts (R53). An interface that runs
already, or one that a DMA fault stopped (R83, R84), ignores it. -/
def hifEnable (m : Mach) : Mach :=
  if flag m F.HIF_CTRL_ENABLE then m
  else match setupFault m.regs with
    | some (code, item) =>
      wr F.HIF_STATUS_CFG_ERR 1 (wr F.HIF_STATUS_CFG_ERR_CODE code (wr F.HIF_STATUS_CFG_ERR_ITEM item m))
    | none => raiseBootDone (raiseResetDone (startHif m))

/-- HIF_ENABLE. -/
def execHifEnable (s : State) : Host.Outcome State Fault Refusal := onMach hifEnable s

/-- The failed completion is reported through AER: its status bit is set and an error message sent (R83). -/
def aerReport (kind : Nat) (m : Mach) : Mach := { m with hif := { m.hif with aer := setBit m.hif.aer kind }, out := .aer kind :: m.out }

/-- Which of the failed completions of R83 came, as the bus saw it: 0 unsupported request, 1 completer abort, 2 poisoned completion,
3 completion timeout (a free value, log 36). -/
def aerKind (m : Mach) : Nat := (freeVal m).toNat % 4

/-- A failed DMA access is reported, stops all DMA, sets DMA_FAULT and sends the fault vector (R83, R504). -/
def dmaFault (m : Mach) : Mach :=
  if running m then
    sendMsix (lat m F.HIF_CTRL_FAULT_VEC 0) (wr F.HIF_STATUS_DMA_FAULT 1 (wr F.HIF_STATUS_RUNNING 0 (useFresh 1 (aerReport (aerKind m) m))))
  else m

/-! The consumer words (R75-R77, R505). Rings are numbered as in COUNTER_QUERY group 0: 16 + c and 32 + e. -/

/-- Whether a consumer word is valid: it lags the producer by at most the ring's size (R505). -/
def consValid (prod size word : Nat) : Bool := sub32 prod word ≤ size

/-- The view of one completion ring's consumer word. -/
def takeCqCons (c word : Nat) (m : Mach) : Mach :=
  if cqSize m.hif c = 0 then m
  else if consValid (mget 0 m.hif.cqProd c) (cqSize m.hif c) word then
    { m with hif := { m.hif with cqCons := mset 0 c word m.hif.cqCons, invalid := clrBit m.hif.invalid (16 + c) } }
  else if m.hif.invalid.testBit (16 + c) then m
  else
    raise 0x13 0x1301 [(1, 16 + c), (1, 3), (2, 0), (4, mget 0 m.hif.cqProd c % 2 ^ 32), (4, word), (4, 0)]
      { m with hif := { m.hif with invalid := setBit m.hif.invalid (16 + c) } }

/-- The view of one event ring's consumer word; the fill falls with it. -/
def takeEqCons (e word : Nat) (m : Mach) : Mach :=
  if eqSize m.hif e = 0 then m
  else if consValid (mget 0 m.hif.eqProd e) (eqSize m.hif e) word then
    let h := { m.hif with eqCons := mset 0 e word m.hif.eqCons, invalid := clrBit m.hif.invalid (32 + e) }
    { m with hif := { h with lvl := if eqHigh h e then h.lvl else clrBit h.lvl (1 + e) } }
  else if m.hif.invalid.testBit (32 + e) then m
  else
    raise 0x13 0x1301 [(1, 32 + e), (1, 3), (2, 0), (4, mget 0 m.hif.eqProd e % 2 ^ 32), (4, word), (4, 0)]
      { m with hif := { m.hif with invalid := setBit m.hif.invalid (32 + e) } }

/-- All consumer words of a poll. -/
def takeCons (p : PollIn) (m : Mach) : Mach :=
  forEach (List.range 8) (fun e => takeEqCons e (p.eqCons.getD e 0))
    (forEach (List.range 16) (fun c => takeCqCons c (p.cqCons.getD c 0)) m)

/-- The watermark acknowledgement of a poll; the first poll after an enable takes WM_ACK_SEQ as read without acting on it (R80, R507).
The crossings since the last poll enter WM_STICKY after the acknowledgement (R80 step 4). -/
def takeAck (p : PollIn) (m : Mach) : Mach :=
  { m with
    hif :=
      if m.hif.firstPoll then { m.hif with wmSeen := p.ackSeq, firstPoll := false }
      else if p.ackSeq = m.hif.wmSeen then m.hif
      else { ackSticky p.ackMask m.hif with wmAck := p.ackSeq, wmSeen := p.ackSeq } }

/-! The doorbell (R55, R57, R82). -/

/-- Free entries of a completion ring: its size less what is unread and what commands hold reserved (R57). -/
def cqFree (h : Hif) (c : Nat) : Nat :=
  cqSize h c - sub32 (mget 0 h.cqProd c) (mget 0 h.cqCons c) - mget 0 h.cqRsv c

/-- What is wrong with a producer word: 2 where it moved backwards, 1 where it is ahead by more than the size, 0 otherwise (R82).
DESIGN CHOICE (log 79): a word has moved backwards where it differs from the last one seen by 2^31 or more modulo 2^32, and that reason goes
first where both hold. -/
def prodFault (h : Hif) (q prod : Nat) : Nat :=
  if 2 ^ 31 ≤ sub32 prod (mget 0 h.sqProd q) then 2
  else if sqSize h q < sub32 prod (mget 0 h.sqCons q) then 1
  else 0

/-- A submission ring stops: taking ends until a host-function reset (R82). -/
def stopSq (q prod reason : Nat) (m : Mach) : Mach :=
  raise 0x13 0x1301 [(1, q), (1, reason), (2, 0), (4, prod), (4, mget 0 m.hif.sqCons q % 2 ^ 32), (4, 0)]
    { m with hif := { m.hif with sqFault := setBit m.hif.sqFault q } }

/-- A descriptor is taken: the consumer index moves and two completion entries are reserved (R57). -/
def takeSlot (q : Nat) (m : Mach) : Mach :=
  { m with
    hif := { m.hif with
      sqCons := mset 0 q (mget 0 m.hif.sqCons q + 1) m.hif.sqCons
      cqRsv := mset 0 (cqOf m q) (mget 0 m.hif.cqRsv (cqOf m q) + 2) m.hif.cqRsv } }

/-- Descriptors of one ring are taken in order while its completion ring has two free entries, at most n of them (R55, R57). -/
def serve (judge : Desc → Mach → Mach) (q : Nat) : Nat → List Desc → Mach → Mach
  | 0, _, m => m
  | _ + 1, [], m => m
  | n + 1, d :: ds, m =>
    if 2 ≤ cqFree m.hif (cqOf m q) then serve judge q n ds (judge d (takeSlot q m)) else m

/-- One submission ring of a poll. -/
def serveRing (judge : Nat → Desc → Mach → Mach) (p : PollIn) (q : Nat) (m : Mach) : Mach :=
  if sqSize m.hif q = 0 || m.hif.sqFault.testBit q then m
  else
    let prod := p.sqProd.getD q 0
    match prodFault m.hif q prod with
    | 0 =>
      serve (judge q) q (min (lat m F.HIF_SQ_CTRL_BURST q) (sub32 prod (mget 0 m.hif.sqCons q))) (p.descs.getD q [])
        { m with hif := { m.hif with sqProd := mset 0 q prod m.hif.sqProd } }
    | reason => stopSq q prod reason m

/-! The status page (R67, Table 3.8). -/

/-- Values of a table over ring numbers, as fields of a size. -/
def ringFields (n size : Nat) (t : Nat → Nat) : Pay := (List.range n).map (fun i => (size, t i))

/-- The status page's fields. -/
def statusPage (m : Mach) : Pay :=
  [(8, m.deal), (8, liveDigest m), (8, stagedDigest m),
   (4, b2n (running m) + 2 * rd m F.TIM_STATE_LOCKED + 4 * b2n (m.hif.sqFault != 0) + 8 * b2n (m.hif.invalid != 0)),
   (4, m.hif.wmSticky)] ++
  ringFields 16 4 (fun s => mget 0 m.hif.sqCons s % 2 ^ 32) ++ ringFields 16 4 (fun c => mget 0 m.hif.cqProd c % 2 ^ 32) ++
  ringFields 8 4 (fun e => mget 0 m.hif.eqProd e % 2 ^ 32) ++ ringFields 8 4 (fun e => mget 0 m.hif.eqLost e % 2 ^ 32) ++
  ringFields 8 2 (eqFill m.hif) ++ [(4, m.hif.wmAck), (4, m.hif.unrouted % 2 ^ 32), (8, 0)]

/-- The status page is written, with the crossings since the last one; it covers every entry written so far (R66, R67, R80). -/
def writeStatus (m : Mach) : Mach :=
  let m1 := showCrossings m
  { m1 with hif := { m1.hif with cqCov := m1.hif.cqProd, eqCov := m1.hif.eqProd }, out := .status (statusPage m1) :: m1.out }

/-! Interrupts (R81). -/

/-- A completion ring fires its vector, and its count clears. -/
def fireCq (c : Nat) (m : Mach) : Mach :=
  sendMsix (lat m F.HIF_CQ_CTRL_VEC c)
    { m with hif := { m.hif with cqPend := mdel c m.hif.cqPend, cqFirst := mdel c m.hif.cqFirst, cqNow := clrBit m.hif.cqNow c } }

/-- An event ring fires its vector, and its count clears. -/
def fireEq (e : Nat) (m : Mach) : Mach :=
  sendMsix (lat m F.HIF_EQ_CTRL_VEC e)
    { m with hif := { m.hif with eqPend := mdel e m.hif.eqPend, eqFirst := mdel e m.hif.eqFirst } }

/-- Whether a completion ring's COAL_DEALS have passed since its first unsignalled entry. -/
def cqTimer (m : Mach) (c : Nat) : Bool :=
  lat m F.HIF_CQ_CTRL_MSIX_EN c == 1 && lat m F.HIF_CQ_CTRL_COAL_DEALS c != 0 && mget 0 m.hif.cqPend c != 0 &&
    mget 0 m.hif.cqFirst c + lat m F.HIF_CQ_CTRL_COAL_DEALS c ≤ m.deal

/-- Whether an event ring's COAL_DEALS have passed since its first unsignalled entry. -/
def eqTimer (m : Mach) (e : Nat) : Bool :=
  lat m F.HIF_EQ_CTRL_MSIX_EN e == 1 && lat m F.HIF_EQ_CTRL_COAL_DEALS e != 0 && mget 0 m.hif.eqPend e != 0 &&
    mget 0 m.hif.eqFirst e + lat m F.HIF_EQ_CTRL_COAL_DEALS e ≤ m.deal

/-- Whether a completion ring's count has reached COAL_CNT, a command asked for its vector at once, or its timer has run. -/
def cqDue (m : Mach) (c : Nat) : Bool :=
  (lat m F.HIF_CQ_CTRL_MSIX_EN c == 1 &&
    (m.hif.cqNow.testBit c || (mget 0 m.hif.cqPend c != 0 && lat m F.HIF_CQ_CTRL_COAL_CNT c ≤ mget 0 m.hif.cqPend c))) || cqTimer m c

/-- Whether an event ring's count has reached COAL_CNT, or its timer has run. -/
def eqDue (m : Mach) (e : Nat) : Bool :=
  (lat m F.HIF_EQ_CTRL_MSIX_EN e == 1 && mget 0 m.hif.eqPend e != 0 && lat m F.HIF_EQ_CTRL_COAL_CNT e ≤ mget 0 m.hif.eqPend e) ||
    eqTimer m e

/-- Vectors that are due after a status-page write (R66, R81). -/
def fireDue (m : Mach) : Mach :=
  forEach (List.range 8) (fun e m => onlyIf (eqDue m e) (fireEq e) m)
    (forEach (List.range 16) (fun c m => onlyIf (cqDue m c) (fireCq c) m) m)

/-- COAL_DEALS have passed since a ring's first unsignalled entry: its vector fires where a status page has covered every entry counted
(R66, R81); entries written since the last page wait for the next one, after which the ring is due. The ring is numbered as in
COUNTER_QUERY group 0. -/
def coalesceTimeout (ring : Nat) (m : Mach) : Mach :=
  if !running m then m
  else if 16 ≤ ring && ring < 32 then
    let c := ring - 16
    onlyIf (cqTimer m c && mget 0 m.hif.cqCov c == mget 0 m.hif.cqProd c) (fireCq c) m
  else if 32 ≤ ring && ring < 40 then
    let e := ring - 32
    onlyIf (eqTimer m e && mget 0 m.hif.eqCov e == mget 0 m.hif.eqProd e) (fireEq e) m
  else m

/-- COALESCE_TIMEOUT. -/
def execCoalesceTimeout (ring : Nat) (s : State) : Host.Outcome State Fault Refusal := onMach (coalesceTimeout ring) s

/-- A HIF set-up field of one deal count in force: as the enable latched it, until a host-function reset is complete (R53); before the
first enable, the register (assumption log 33). -/
def hifDeals (m : Mach) (f : Fld) : Nat := if flag m F.HIF_CTRL_ENABLE then lat m f 0 else rd m f

/-- A capture FIFO whose oldest entry has waited HIF_LINGER deals is emptied as one packet, at the end of the next poll (R73, R79); while
the interface does not run, into the discard (R504). -/
def fifoLinger (k : Nat) (m : Mach) : Mach :=
  match (fifo m k).entries with
  | [] => m
  | x :: _ =>
    if x.deal + hifDeals m F.HIF_LINGER_DEALS ≤ m.deal then
      if running m then { m with hif := { m.hif with linger := insertNat k m.hif.linger } } else fifoFlush k m
    else m

/-- CAPTURE_FIFO_LINGER. -/
def execCaptureFifoLinger (k : Nat) (s : State) : Host.Outcome State Fault Refusal := onMach (fifoLinger k) s

/-! COUNTER_QUERY groups 0 and 10 (R69, R79). -/

/-- Group 0 (R69, R76, R77): the counts since the enable. Produced is what the device has consumed and what the last producer word shows
beyond it; read is what was written and is neither lost nor pending. -/
def hifCounters (m : Mach) (i : Nat) : Option (List (Nat × Nat)) :=
  let h := m.hif
  if i < 16 then
    let out := sub32 (mget 0 h.sqProd i) (mget 0 h.sqCons i)
    some [(1, mget 0 h.sqCons i + out), (2, mget 0 h.sqCons i), (3, out)]
  else if i < 32 then
    let c := i - 16
    some [(4, mget 0 h.cqProd c), (5, mget 0 h.cqProd c - sub32 (mget 0 h.cqProd c) (mget 0 h.cqCons c))]
  else if i < 40 then
    let e := i - 32
    some [(6, mget 0 h.eqProd e), (7, mget 0 h.eqProd e - mget 0 h.eqLost e - eqFill h e), (8, mget 0 h.eqLost e), (9, eqFill h e),
      (10, mget 0 h.eqTrunc e)]
  else if i = 40 then some [(11, h.unrouted)]
  else none

/-- The result of COUNTER_QUERY: the header and as many whole entries as the buffer holds (R69). -/
def counterResult (deal group index len : Nat) (l : List (Nat × Nat)) : Pay :=
  let fit := min l.length ((len - 16) / 16)
  [(8, deal), (2, group), (2, index), (2, l.length), (2, b2n (fit < l.length))] ++
    (l.take fit).flatMap (fun e => [(4, e.1), (4, 0), (8, e.2)])

end Sys2Proof.Machine
end

