-- ==== Sys2Proof/Machine/Auth.lean ====
section
/-! DEFINITION. Operator authority (16 R440-R443): the roles, the checks of an operator envelope at its take and at its effective
deal, and the report of a refusal. -/
namespace Sys2Proof.Machine

/-- The machine with Kolica's state replaced. -/
def setSec (x : Sec) (m : Mach) : Mach := { m with sec := x }

/-- Whether any zone is latched at this seat (14 R395). -/
def zoneLatched (m : Mach) : Bool := m.ann.latch != []

/-- Whether the device is an admitted member (03 R71). -/
def member (m : Mach) : Bool := ownSeat m != 0xFFFE

/-- The seat that a command comes from. -/
def fromSeat (m : Mach) : Src → Nat
  | .tunnel seat _ _ => seat
  | _ => ownSeat m

/-- A refused authority is counted and reported (R441, Table 16.7). -/
def authFailBy (cause op seat key : Nat) (m : Mach) : Mach :=
  raise 0x14 0x1401 [(2, op), (1, cause), (1, 0), (2, seat), (2, 0), (8, key)]
    (wr F.SEC_FLAGS_AUTH_FAIL 1 (bump F.SEC_AUTH_FAILS_COUNT 1 m))

/-- A refusal without a key at this seat. -/
def authFail (cause op : Nat) (m : Mach) : Mach := authFailBy cause op (ownSeat m) 0 m

/-- The commands marked Signed (03 Table 3.9). -/
def signedOp (op : Nat) : Bool := [0x0706, 0x0C01, 0x0C02, 0x0C03, 0x0D01, 0x0D02].contains op

/-- The commands marked While latched (03 Table 3.9, 14 R397). -/
def latchedOp (op : Nat) : Bool := [0x0502, 0x0E01, 0x0E02].contains op

/-- The commands marked All seats (03 Table 3.9). -/
def allSeatsOp (op : Nat) : Bool :=
  [0x0102, 0x0201, 0x0202, 0x0203, 0x0704, 0x0705, 0x0706, 0x0C01, 0x0C02, 0x0C03, 0x0D01].contains op

/-- The role bit an opcode needs (16 Table 16.4). -/
def roleBit (op : Nat) : Nat :=
  if op = 0x0D02 then 3 else if op = 0x0D01 then 2 else if op = 0x0706 || latchedOp op then 1 else 0

/-- Whether a command carries an envelope that is judged. -/
def carriesEnv (op : Nat) (c : Cmd) : Bool := Cmd_signed c && (signedOp op || latchedOp op)

/-- The package of a SEAT_ADMIT. -/
def pkgOf (c : Cmd) : Option KeyPkg := match c.buf with | .admission _ p => some p | _ => none

/-- The keys that a command's envelope is judged by: those held; for a device that holds none, the keys of a candidate's own package
(R446) or the inline record of a local command with target 0xFFFE (R443). -/
def judgingKeys (op : Nat) (c : Cmd) (e : Env) (m : Mach) : SMap OpKey :=
  if m.sec.keys != [] then m.sec.keys
  else match op == 0x0C02, pkgOf c with
    | true, some p => p.operators.foldl (fun t k => mput (keyIdOf k.key) { roles := k.roles } t) []
    | _, _ => match e.inline, c.src with
      | some k, .ring _ => if c.target = 0xFFFE then [(keyIdOf k.key, { roles := k.roles })] else []
      | _, _ => []

/-- Whether an envelope's TARGET admits this device. -/
def envTarget (e : Env) (m : Mach) : Bool :=
  e.target == 0xFFFF || (if member m then e.target == ownSeat m else e.target == 0xFFFE)

/-- Whether an envelope's TABLE_ID is the roster's; a device without a roster has none to compare (15 R404). -/
def envTable (e : Env) (m : Mach) : Bool := match m.dom.roster with | some r => e.tableId == r.table | none => true

/-- The cause for which the first five checks refuse a signed command, 0 where it passes (R441). -/
def stage1 (op : Nat) (c : Cmd) (m : Mach) : Nat :=
  match c.env with
  | none => 1
  | some e =>
    if e.magic != 0x4B4F514E || e.format != 1 then 1
    else match mfind (judgingKeys op c e m) e.keyId with
      | none => 2
      | some k =>
        if !k.roles.testBit (roleBit op) then 3
        else if !e.sigOk then 4
        else if e.opcode != op || !envTable e m || !envTarget e m then 5
        else 0

/-- The KEY_ID that a refusal names. -/
def envKey (c : Cmd) : Nat := (c.env.map (fun e => e.keyId)).getD 0

/-- EV_SEC_KEY_CHANGE with the flag that records it (16 Table 16.6, Table 16.7). -/
def keyEvent (kind phase num id : Nat) (m : Mach) : Mach :=
  raise 0x14 0x1402 [(1, kind), (1, phase), (2, 0), (4, num), (8, id)] (wr F.SEC_FLAGS_KEY_CHANGED 1 m)

/-- The inline key of a first signed command becomes the only operator key (R443). -/
def installInline (op : Nat) (c : Cmd) (m : Mach) : Mach :=
  match c.env with
  | some e =>
    if m.sec.keys == [] && op != 0x0C02 then
      let ks := judgingKeys op c e m
      onlyIf (ks != []) (keyEvent 2 0 ks.length e.keyId) (wr F.SEC_KEYS_OPERATOR ks.length (setSec { m.sec with keys := ks } m))
    else m
  | none => m

/-- The cause for which the last two checks refuse a signed command at its effective deal (R441). -/
def stage2 (op : Nat) (c : Cmd) (m : Mach) : Nat :=
  match c.env with
  | none => 1
  | some e =>
    match mfind (judgingKeys op c e m) e.keyId with
    | none => 2
    | some k => if e.counter ≤ k.counter then 6 else if e.notAfter < m.deal then 7 else 0

/-- The accepted COUNTER is recorded under its key (R441). -/
def recordCounter (c : Cmd) (m : Mach) : Mach :=
  match c.env with
  | some e => match mfind m.sec.keys e.keyId with
    | some k => setSec { m.sec with keys := mput e.keyId { k with counter := e.counter } m.sec.keys } m
    | none => m
  | none => m

end Sys2Proof.Machine
end

