-- ==== Sys2Proof/Machine/Admit.lean ====
section
/-! DEFINITION. Admission of a command (03 R57-R71, R506; 15 R410, R412; 16 R441): its checks at the take, its way to another seat,
its hold until its effective deal, and its application. -/
namespace Sys2Proof.Machine

/-- What applying a command does: the machine it leaves and the verdict. -/
abbrev Eff := Cmd → Ticket → Mach → Mach × Verdict

/-- BAD_ARG without effect. -/
def bad (m : Mach) : Mach × Verdict := (m, { st := some stBadArg })
/-- DONE. -/
def okM (m : Mach) : Mach × Verdict := (m, {})
/-- NO_ROOM without effect. -/
def noRoom (m : Mach) : Mach × Verdict := (m, { st := some stNoRoom })

/-- Whether a command's host buffer lies in the windows; a tunnelled command brings its contents (R54, R70). -/
def bufOk (c : Cmd) (write : Bool) (m : Mach) : Bool :=
  match c.src with
  | .ring _ => inWindow m.hif.lat write (bufAddr c) (bufLen c)
  | _ => true

/-! Reserved payload bytes (00 R9, 03 R58), as offset and length, by the payload tables of the owning chapters. -/

/-- The reserved bytes of REF_CONFIG by its kind (04 Table 4.2). -/
def refRsv (kind : Nat) : List (Nat × Nat) :=
  match kind with
  | 0 => [(36, 28)]
  | 1 => [(34, 2), (40, 24)]
  | 2 => [(27, 37)]
  | 3 => [(26, 2), (32, 4), (40, 24)]
  | _ => []

/-- The reserved bytes of STREAM_OPEN by its kind and role (07 Table 7.2). -/
def openRsv (kind role : Nat) : List (Nat × Nat) :=
  match kind with
  | 0 => [(54, 2), (60, 4)] ++ (if role = 1 then [] else [(56, 4)])
  | 1 => [(56, 8)] ++ (if role = 1 then [] else [(55, 1)])
  | 2 => [(31, 1), (38, 2), (54, 2), (63, 1)] ++ (if role = 1 then [] else [(36, 2)])
  | _ => []

/-- The reserved bytes of an opcode's payload. -/
def rsvBytes (op : Nat) (c : Cmd) : List (Nat × Nat) :=
  let env : List (Nat × Nat) := if Cmd_signed c then [] else [(40, 12)]
  match op with
  | 0x0102 => [(38, 26)]
  | 0x0401 => openRsv (u8 c 27) (u8 c 26)
  | 0x0601 => refRsv (u8 c 24)
  | 0x0101 | 0x0204 | 0x0301 => [(25, 15), (52, 12)]
  | 0x0103 => [(24, 16), (52, 12)]
  | 0x0201 => [(27, 1), (30, 2), (52, 12)]
  | 0x0202 => [(27, 37)]
  | 0x0203 => [(50, 14)]
  | 0x0302 => [(37, 1), (52, 12)]
  | 0x0402 => [(27, 37)]
  | 0x0403 | 0x0702 | 0x0703 => [(26, 14), (52, 12)]
  | 0x0501 => [(32, 32)]
  | 0x0502 => [(32, 8), (52, 12)] ++ env
  | 0x0602 => [(28, 12), (52, 12)]
  | 0x0701 => [(29, 11), (52, 12)]
  | 0x0705 => [(30, 34)]
  | 0x0706 => [(25, 15), (52, 12)]
  | 0x0801 => [(34, 30)]
  | 0x0901 => [(25, 3), (44, 20)]
  | 0x0A01 => [(34, 6), (52, 12)]
  | 0x0A02 => [(25, 1), (28, 12), (52, 12)]
  | 0x0A03 => [(26, 14), (52, 12)]
  | 0x0B01 => [(25, 39)]
  | 0x0C01 | 0x0C02 | 0x0C03 | 0x0D01 | 0x0D02 => [(24, 16), (52, 12)]
  | 0x0E01 => [(24, 16), (52, 12)] ++ env
  | 0x0E02 => [(25, 15), (52, 12)] ++ env
  | _ => []

/-- Whether an opcode's reserved payload bytes are zero. -/
def reservedOk (op : Nat) (c : Cmd) : Bool := (rsvBytes op c).all (fun q => zeroAt c q.1 q.2)

/-- The arguments of DECK_CUT, judged at the take (08 R233). -/
def cutArgsOk (c : Cmd) : Bool :=
  (u16 c 36 == 0 || (6 ≤ u16 c 36 && u16 c 36 ≤ 4096)) && (c.target != 0xFFFF || u64 c 24 == 0) && zeroAt c 38 26

/-- The commands that read a host buffer, and those that write one (03 Table 3.9). -/
def readsBuf (op : Nat) : Bool :=
  [0x0101, 0x0204, 0x0301, 0x0302, 0x0403, 0x0602, 0x0701, 0x0702, 0x0703, 0x0706, 0x0C01, 0x0C02, 0x0C03, 0x0D01, 0x0D02].contains op
/-- The commands that write a host buffer. -/
def writesBuf (op : Nat) : Bool := [0x0103, 0x0302, 0x0A01, 0x0A02, 0x0A03].contains op

/-! Application at a deal boundary. -/

/-- The effect of a command and its final completion: DONE turns into LATE after its effective deal (R61, R63). -/
def runEff (eff : Eff) (h : Held) (m : Mach) : Mach :=
  let r := eff h.cmd h.tk m
  match r.2.st with
  | none => r.1
  | some st => finalWith h.tk (if st = stDone then doneOrLate h.tk r.1 else st) (bufAddr h.cmd) r.2.res r.1

/-- A command is refused for its authority (R441). -/
def refuseAuth (h : Held) (cause key : Nat) (m : Mach) : Mach :=
  final h.tk stRefusedAuth (authFailBy cause h.tk.op (fromSeat m h.cmd.src) key m)

/-- A command applied at this boundary (R61, R441, 14 R397). -/
def applyHeld (eff : Eff) (h : Held) (m : Mach) : Mach :=
  if latchedOp h.tk.op && !Cmd_signed h.cmd && zoneLatched m then refuseAuth h 9 0 m
  else if carriesEnv h.tk.op h.cmd then
    match stage2 h.tk.op h.cmd m with
    | 0 => runEff eff h (recordCounter h.cmd m)
    | cause => refuseAuth h cause (envKey h.cmd) m
  else runEff eff h m

/-! The take. -/

/-- The ticket of a command whose first eligible deal is given. -/
def ticket (op first : Nat) (c : Cmd) (m : Mach) : Ticket :=
  { src := c.src, tag := c.tag, op := op, eff := if c.deal = 0 then first else c.deal, epoch := m.hif.epoch,
    interim := false, irq := Cmd_irqNow c }

/-- The machine with its store of held commands replaced. -/
def setHeld (l : List Held) (m : Mach) : Mach := { m with hif := { m.hif with held := l } }

/-- A command is accepted for a deal: held until it, or applied where the deal has begun; pend asks for the interim completion
PENDING (R62, R63). -/
def accept (eff : Eff) (h : Held) (at_ : Nat) (pend : Bool) (m : Mach) : Mach :=
  if at_ ≤ m.deal then applyHeld eff h m
  else if 4096 ≤ m.hif.held.length then final h.tk stNoRoom m
  else
    let m1 := if pend then interim h.tk stPending at_ m else m
    setHeld (m1.hif.held ++ [{ cmd := { h.cmd with deal := at_ }, tk := { h.tk with interim := h.tk.interim || pend } }]) m1

/-- A signed command's first five checks, and what follows them (R441). -/
def checked (h : Held) (k : Mach → Mach) (m : Mach) : Mach :=
  if !carriesEnv h.tk.op h.cmd then k m
  else if !bufOk h.cmd false m then final h.tk stBadArg m
  else match stage1 h.tk.op h.cmd m with
    | 0 => k (installInline h.tk.op h.cmd m)
    | cause => refuseAuth h cause (envKey h.cmd) m

/-- A command for this seat (R61, R62, R441). -/
def takeHere (eff : Eff) (first : Nat) (h : Held) (m : Mach) : Mach :=
  checked h (fun m => accept eff h (max first h.tk.eff) (Cmd_interim h.cmd && first < h.tk.eff) m) m

/-! A command for another seat, or for every seat (R70, R71, R410, R412, R506). -/

/-- Whether a seat's roster entry is present and bound. -/
def boundSeat (m : Mach) (t : Nat) : Bool :=
  m.dom.roster.any (fun r => r.ents.any (fun e => e.seat == t && e.present && e.ldev != 0))

/-- Whether a command is for this device (R60). -/
def forSelf (m : Mach) (c : Cmd) : Bool := c.target == 0xFFFE || (member m && c.target == ownSeat m)

/-- The active manager's seat as this device sees it, 0xFFFF where it knows none. -/
def mgrSeat (m : Mach) : Nat := rd m F.DOM_TRIO_SEAT2_ACTIVE

/-- Whether this device manages (15 R418). -/
def managing (m : Mach) : Bool := flag m F.DOM_STATE_MANAGING

/-- The machine with its domain state replaced. -/
def setDom (x : Dom) (m : Mach) : Mach := { m with dom := x }

/-- The seats at the three trio indices, 0xFFFF where vacant. -/
def trioSeats (m : Mach) : List Nat := [rd m F.DOM_TRIO_SEAT01_SEAT0, rd m F.DOM_TRIO_SEAT01_SEAT1, rd m F.DOM_TRIO_SEAT2_SEAT2]

/-- The next TUN_ID. -/
def useTun (m : Mach) : Mach := { m with hif := { m.hif with tunNext := add32 m.hif.tunNext 1 } }

/-- A sent command waits for its reply, or for a manager to be sent to. -/
def addSent (x : Sent) (m : Mach) : Mach := { m with hif := { m.hif with sent := m.hif.sent ++ [x] } }

/-- A command leaves as a tunnel request: its descriptor and the contents of the buffer that it reads (06 R165). -/
def sendReq (seat tunId seq op : Nat) (c : Cmd) (m : Mach) : Mach :=
  tunnelFrames 3 (ownSeat m) seat tunId seq (64 + if readsBuf op || carriesEnv op c then bufLen c else 0)
    { m with out := .request seat tunId seq { op := op, cmd := { c with src := .own } } :: m.out }

/-- The effective deal of a command stamped in this deal (R410). -/
def stampDeal (c : Cmd) (m : Mach) : Nat :=
  max (if c.deal = 0 then m.deal else c.deal) (m.deal + (if Cmd_signed c then 16 else rd m F.DOM_TRIO_LEAD))

/-- The next MGR_SEQ of this stamper (R410). -/
def nextSeq (m : Mach) : Nat := rd m F.DOM_STATE_TRIO_IDX * 2 ^ 30 + (m.dom.stamps + 1) % 2 ^ 30

/-- A stamped command is sent to its targets and to the other two members, and logged (R410). -/
def sendStamped (tunId seq op : Nat) (c : Cmd) (m : Mach) : Mach :=
  let others := (trioSeats m).filter (fun t => t != 0xFFFF && t != ownSeat m && t != c.target)
  let m1 := if forSelf m c then m else sendReq c.target tunId seq op c m
  let m2 := if c.target = 0xFFFF then m1 else forEach others (fun t m => sendReq t tunId seq op c m) m1
  setDom { m2.dom with stamps := m2.dom.stamps + 1, log := m2.dom.log ++ [{ seq := seq, eff := c.deal, d := { op := op, cmd := { c with src := .own } } }] } m2

/-- A table command of this member's own host, stamped here (R410, R412, R506). -/
def stampOwn (eff : Eff) (h : Held) (m : Mach) : Mach :=
  if flag m F.DOM_STATE_FROZEN && !Cmd_signed h.cmd then final h.tk stNotMember m
  else
    let d := stampDeal h.cmd m
    let seq := nextSeq m
    let tun := m.hif.tunNext
    let c := { h.cmd with deal := d }
    let here := c.target == 0xFFFF || forSelf m c
    let go := fun m : Mach =>
      let m1 := if Cmd_interim c then interim h.tk stPending d m else m
      let tk := { h.tk with eff := d, interim := h.tk.interim || Cmd_interim c }
      let m2 := sendStamped tun seq h.tk.op c (useTun m1)
      if here then accept eff { cmd := { c with src := .tunnel (ownSeat m) tun seq }, tk := tk } d false m2
      else addSent { tunId := tun, cmd := c, tk := tk, since := m.deal, waiting := false } m2
    if here then checked h go m else go m

/-- A command is sent away (R70, R71, R412, R506). -/
def sendAway (eff : Eff) (first : Nat) (h : Held) (m : Mach) : Mach :=
  let c := h.cmd
  let tun := m.hif.tunNext
  if !member m || (c.target != 0xFFFF && !boundSeat m c.target && !forSelf m c) then final h.tk stNotMember m
  else if ((readsBuf h.tk.op || carriesEnv h.tk.op c) && (4194304 < bufLen c || !bufOk c false m)) || (writesBuf h.tk.op && !bufOk c true m) then
    final h.tk stBadArg m
  else if Cmd_tunnel c || c.target = 0xFFFF then
    if managing m then stampOwn eff h m
    else
      addSent { tunId := tun, cmd := c, tk := h.tk, since := m.deal, waiting := mgrSeat m == 0xFFFF }
        (onlyIf (mgrSeat m != 0xFFFF) (sendReq (mgrSeat m) tun 0 h.tk.op c) (useTun m))
  else
    let pend := Cmd_interim c && first < c.deal
    let m1 := if pend then interim h.tk stPending c.deal m else m
    addSent { tunId := tun, cmd := c, tk := { h.tk with interim := pend }, since := m.deal, waiting := false }
      (sendReq c.target tun 0 h.tk.op c (useTun m1))

/-- Whether table deals hold here: the time unit has reported lock since the reset, and no slew has left the device off the grid
(01 R15; 05 R137). -/
def onGrid (m : Mach) : Bool := flag m F.TIM_STATE_EVER_LOCKED && !flag m F.TIM_STATE_OFFGRID

/-- The judgement of a descriptor at its take, with its first eligible deal (R59-R62, R68). Reserved bytes that are not zero refuse it
before anything else acts on it (00 R9). -/
def admitCmd (op : Nat) (eff : Eff) (first : Nat) (c : Cmd) (m : Mach) : Mach :=
  let h : Held := { cmd := c, tk := ticket op first c m }
  if 16 ≤ c.flags || c.rsvd != 0 || !(c.target ≤ 1023 || c.target == 0xFFFE || (c.target == 0xFFFF && allSeatsOp op)) then
    final h.tk stBadArg m
  else if !reservedOk op c then final h.tk stBadArg m
  else if op = 0x0102 && !cutArgsOk c then final h.tk stBadArg m
  else if signedOp op && !Cmd_signed c then refuseAuth h 10 0 m
  else if c.deal != 0 && !onGrid m then final h.tk stNotMember m
  else if !forSelf m c || Cmd_tunnel c then sendAway eff first h m
  else takeHere eff first h m

/-- The two completion entries that a local command holds (R57). -/
def reserve (c : Cmd) (m : Mach) : Mach :=
  match c.src with
  | .ring q => { m with hif := { m.hif with cqRsv := mset 0 (cqOf m q) (mget 0 m.hif.cqRsv (cqOf m q) + 2) m.hif.cqRsv } }
  | _ => m

/-- A row of a host command: the command is judged and, where its effective deal has come, applied at this boundary. A command that
a stamper sent is judged as one that arrived by tunnel. -/
def hostRow (op : Nat) (eff : Eff) (c : Cmd) (m : Mach) : Mach := admitCmd op eff m.deal c (reserve c m)

end Sys2Proof.Machine
end

