-- ==== Sys2Proof/Machine/Nodes.lean ====
section
/-! DEFINITION. The arithmetic of the render clusters (09 R246-R251) and of the library nodes (08 R220-R224, R241): each node maps
its committed state words and its input slots to its output slots and its new state words. -/
namespace Sys2Proof.Machine

/-! Accumulation and write-back (09 R248-R251). An accumulator is its value in units of 2^-61 and its sticky sign, 0 while it is not
sticky. -/

/-- A result that leaves the Q11.61 range makes the accumulator sticky in its sign (R249). -/
def accClip (v : Int) : Int × Int :=
  if v < -(2 ^ 71) then (v, -1) else if (2 ^ 71 : Int) ≤ v then (v, 1) else (v, 0)

/-- A term added to an accumulator; a sticky one ignores it. -/
def accAdd (a : Int × Int) (t : Int) : Int × Int := if a.2 = 0 then accClip (a.1 + t) else a

/-- The sum of coefficient-form products in order (R248). -/
def accSum (terms : List (Int × Int)) : Int × Int := terms.foldl (fun a t => accAdd a (t.1 * t.2)) (0, 0)

/-- A write-back that discards n bits (R250): its value and whether it saturated. -/
def writeBack (n : Nat) (round : Bool) (a : Int × Int) : Int × Bool :=
  if a.2 ≠ 0 then (if 0 < a.2 then 2 ^ 31 - 1 else -(2 ^ 31), true)
  else
    let q := if round then rndDiv a.1 (2 ^ n) else a.1 / 2 ^ n
    (satW 32 q, decide (satW 32 q ≠ q))

/-- rnd() of Table 8.3: one accumulation followed by RNDS. -/
def rnd (terms : List (Int × Int)) : Int × Bool := writeBack 30 true (accSum terms)

/-- The rounded product of two Q2.30 words (R251). -/
def mulq (a b : Int) : Int := (writeBack 31 true (accClip (2 * a * b))).1

/-- The truncated product of two Q2.30 words (R251). -/
def mulqT (a b : Int) : Int := (writeBack 31 false (accClip (2 * a * b))).1

/-- The gain at sample k of s on the way from g0 to g1 (08 R222, 11 R305). -/
def gainRamp (g0 g1 : Int) (k s : Nat) : Int := g0 + Int.tdiv ((g1 - g0) * ((k : Int) + 1)) s

/-! Tables (R221, R223). -/

/-- sin(pi/2 j/4096) in Q2.30, j to 4,097 (R223). -/
def sineTab (j : Nat) : Int := rndDiv (sinTurn (min j 4096) 16384) (2 ^ 50)

/-- The sine table at a position in Q16 from 0 to 2^28 (R223). -/
def tOf (a : Nat) : Int :=
  let j := a / 65536
  sineTab j + (sineTab (j + 1) - sineTab j) * ((a % 65536 : Nat) : Int) / 65536

/-- The sine of a 32-bit phase (R224). -/
def sinePhase (p : Nat) : Int :=
  let a := p % 2 ^ 30 / 4
  match p / 2 ^ 30 % 4 with
  | 0 => tOf a
  | 1 => tOf (2 ^ 28 - a)
  | 2 => -tOf a
  | _ => -tOf (2 ^ 28 - a)

/-- log2(1 + j/256) in Q8.24. -/
def logTab (j : Nat) : Int := rndDiv (log2Q (256 + j) 256) (2 ^ 56)

/-- 2^(-j/256) in Q2.30. -/
def expTab (j : Nat) : Int := rndDiv (exp2Q (-((j : Int) * 2 ^ 72))) (2 ^ 50)

/-- log2 of a Q1.31 level in Q8.24 (R221). -/
def log2q (v : Int) : Int :=
  if v ≤ 0 then -32 * 2 ^ 24
  else
    let c := 30 - Nat.log2 v.toNat
    let w : Nat := v.toNat * 2 ^ c
    let j : Nat := w / 2 ^ 22 % 256
    let f : Nat := w % 2 ^ 22
    logTab j + (logTab (j + 1) - logTab j) * (f : Int) / (2 ^ 22 : Int) - ((c : Int) + 1) * (2 ^ 24 : Int)

/-- 2 to the power of a Q8.24 word that is not positive, in Q2.30 (R221). -/
def exp2neg (x : Int) : Int :=
  let i := (-x).toNat / 2 ^ 24
  let r : Nat := (-x).toNat % 2 ^ 24
  let j : Nat := r / 2 ^ 16
  let e := expTab j + (expTab (j + 1) - expTab j) * ((r % 2 ^ 16 : Nat) : Int) / 2 ^ 16
  if i < 31 then e / 2 ^ i else 0

/-- 2 to the power of a Q8.24 word, in Q2.30 (R221). -/
def exp2q (x : Int) : Int :=
  if 0 < x then
    let k := ((x + (2 ^ 24 : Int) - 1) / (2 ^ 24 : Int)).toNat
    if 40 < k then (2 ^ 31 - 1 : Int) else min (exp2neg (x - (k : Int) * (2 ^ 24 : Int)) * (2 ^ k : Int)) (2 ^ 31 - 1)
  else exp2neg x

/-! Nodes. What a run of a node gives: one list of samples for each output slot, its new state words, and the saturating
write-backs. -/

/-- The result of running a node. -/
structure Run where
  outs : List (List Int)
  w : List Int
  sats : Nat := 0
deriving DecidableEq, Repr

/-- The number of flags set. -/
def flags (l : List (Int × Bool)) : Nat := (l.filter (fun p => p.2)).length

/-- One output of a mix: every input's gain ramps (R220, R222). -/
def mixRow (s : Nat) (cur tgt : List Int) (xs : List (List Int)) : List (Int × Bool) :=
  (List.range s).map (fun k => rnd (((cur.zip tgt).zip xs).map (fun q => (gainRamp q.1.1 q.1.2 k s, q.2.getD k 0))))

/-- Gain and mix. -/
def runMix (s : Nat) (g w : List Int) (xs : List (List Int)) : Run :=
  let y := mixRow s w g xs
  { outs := [y.map Prod.fst], w := g, sats := flags y }

/-- Matrix: each output as a mix of all inputs. -/
def runMatrix (s : Nat) (rows : List (List Int)) (w : List Int) (xs : List (List Int)) : Run :=
  let n := xs.length
  let ys := rows.mapIdx (fun o row => mixRow s ((w.drop (o * n)).take n) row xs)
  { outs := ys.map (fun y => y.map Prod.fst), w := rows.flatten, sats := (ys.map flags).sum }

/-- One sample through biquad sections in direct form I, with x1, x2, y1 and y2 of each section in its state. -/
def biqSample : List (List Int) → List Int → Int → Int × List Int × Nat
  | [], _, v => (v, [], 0)
  | c :: cs, w, v =>
    let y := rnd [(c.getD 0 0, v), (c.getD 1 0, w.getD 0 0), (c.getD 2 0, w.getD 1 0), (-(c.getD 3 0), w.getD 2 0),
      (-(c.getD 4 0), w.getD 3 0)]
    let r := biqSample cs (w.drop 4) y.1
    (r.1, v :: w.getD 0 0 :: y.1 :: w.getD 2 0 :: r.2.1, r.2.2 + b2n y.2)

/-- Biquad node. -/
def runBiquad (secs : List (List Int)) : List Int → List Int → Run
  | [], w => { outs := [[]], w := w }
  | x :: xs, w =>
    let a := biqSample secs w x
    let r := runBiquad secs xs a.2.1
    { outs := [a.1 :: r.outs.headD []], w := r.w, sats := r.sats + a.2.2 }

/-- FIR node; its state holds the last T - 1 input samples, newest first. -/
def runFir (h : List Int) : List Int → List Int → Run
  | [], w => { outs := [[]], w := w }
  | x :: xs, w =>
    let y := rnd (h.zip (x :: w))
    let r := runFir h xs ((x :: w).take (h.length - 1))
    { outs := [y.1 :: r.outs.headD []], w := r.w, sats := r.sats + b2n y.2 }

/-- Absolute value of a Q1.31 word, saturating. -/
def absQ (x : Int) : Int := min (2 ^ 31 - 1) x.natAbs

/-- The envelope over the samples of a deal (R221). -/
def envelope (att rel : Int) : List Int → Int → Int × Nat
  | [], env => (env, 0)
  | x :: xs, env =>
    let y := rnd [((if env < absQ x then att else rel), absQ x - env)]
    let r := envelope att rel xs (env + y.1)
    (r.1, r.2 + b2n y.2)

/-- The limiter's ceiling. -/
def ceilAt (lim : Bool) (ceil y : Int) : Int := if lim then max (-ceil) (min ceil y) else y

/-- The gain that the law of a dynamics node asks for at an envelope (R221). -/
def dynGain (typ : Nat) (thr depth slope makeup env : Int) : Int :=
  let l := log2q env
  let red := if typ = 0x09 then (if thr < l then depth else 0)
    else satW 32 (max 0 (l - thr) * (if typ = 0x08 then 2 ^ 30 else slope) / 2 ^ 30)
  mulqT (exp2q (-red)) makeup

/-- Compressor, limiter and ducker (R221): state env, the gain reached, the target of this deal and the limiter's delayed input. -/
def runDyn (typ s : Nat) (thr depth slope att rel makeup ceil : Int) (w : List Int) (xs : List (List Int)) : Run :=
  let x := xs.headD (zeros s)
  let lim := typ == 0x08
  let e := envelope att rel (if typ = 0x09 then xs.getD 1 (zeros s) else x) (w.getD 0 0)
  let main := if lim then w.drop 3 else x
  let y := (List.range s).map (fun k => rnd [(gainRamp (w.getD 1 0) (w.getD 2 0) k s, main.getD k 0)])
  let g1 := dynGain typ thr depth slope makeup e.1
  { outs := [y.map (fun p => ceilAt lim ceil p.1)], w := [e.1, w.getD 2 0, g1] ++ (if lim then x else []), sats := flags y + e.2 }

/-- Meter: the peak, the full-scale count and the sums of squares of the last 64 deals (R241). -/
def runMeter (nd : NodeD) (w x : List Int) : Run :=
  let peak := x.foldl (fun a v => max a (absQ v)) (w.getD 0 0)
  let full := w.getD 1 0 + ((x.filter (fun v => v == 2 ^ 31 - 1 || v == -(2 ^ 31))).length : Int)
  { outs := nd.outs.map (fun _ => x), w := peak :: full :: ((w.drop 3) ++ [(x.map (fun v => v * v)).sum]) }

/-- Pilot tone (R224). -/
def runPilot (inc : Nat) (amp : Int) : Nat → Nat → Run
  | 0, p => { outs := [[]], w := [(p : Int)] }
  | n + 1, p =>
    let y := writeBack 30 true (accClip (2 * sinePhase p * amp))
    let r := runPilot inc amp n ((p + inc) % 2 ^ 32)
    { outs := [y.1 :: r.outs.headD []], w := r.w, sats := r.sats + b2n y.2 }

/-- The state of a new node: every word zero and its gains at their targets (R234). -/
def freshState (s : Nat) (nd : NodeD) (p : Par) (kernels : List KernelD) : List Int :=
  match p with
  | .gain g => [g]
  | .mix g => g
  | .matrix rows => rows.flatten
  | .biquad secs => List.replicate (4 * secs.length) 0
  | .fir taps => List.replicate (taps.length - 1) 0
  | .dyn thr depth slope _ _ makeup _ =>
    let g := dynGain nd.typ thr depth slope makeup 0
    [0, g, g] ++ (if nd.typ = 0x08 then zeros s else [])
  | .plain => if nd.typ = 0x0A then List.replicate 66 0 else []
  | .pilot _ _ => [0]
  | .kernel d _ => List.replicate ((kernels[d]?).map (fun k => k.state) |>.getD 0) 0
  | _ => []

/-- A library node whose arithmetic is its own: 0x01-0x05, 0x07-0x0A and 0x0C. -/
def runLib (s : Nat) (nd : NodeD) (p : Par) (w : List Int) (xs : List (List Int)) : Run :=
  match p with
  | .gain g => runMix s [g] w xs
  | .mix g => runMix s g w xs
  | .matrix rows => runMatrix s rows w xs
  | .biquad secs => runBiquad secs (xs.headD (zeros s)) w
  | .fir taps => runFir taps (xs.headD (zeros s)) w
  | .dyn thr depth slope att rel makeup ceil => runDyn nd.typ s thr depth slope att rel makeup ceil w xs
  | .plain => if nd.typ = 0x0A then runMeter nd w (xs.headD (zeros s)) else { outs := [], w := w }
  | .pilot inc amp => runPilot inc amp s (w.getD 0 0).toNat
  | _ => { outs := [], w := w }

/-- The latency of a node in samples (Table 8.3), for those whose latency is their own. -/
def nodeLatency (s : Nat) (nd : NodeD) (p : Par) (kernels : List KernelD) : Nat :=
  match p with
  | .delay d => d
  | .kernel d _ => ((kernels[d]?).map (fun k => k.latency)).getD 0
  | .icom _ => 12 * s
  | .dyn .. => if nd.typ = 0x08 then s else 0
  | _ => 0

/-- The parameter set that suits a library type (Table 8.3). -/
def parSuits (nd : NodeD) (p : Par) : Bool :=
  match nd.typ, p with
  | 0x01, .gain _ => nd.ins.length == 1 && nd.outs.length == 1
  | 0x02, .mix g => 1 ≤ g.length && g.length ≤ 64 && nd.ins.length == g.length && nd.outs.length == 1
  | 0x03, .matrix rows => rows.length ≤ 64 && nd.ins.length ≤ 64 && nd.outs.length == rows.length && rows.all (fun r => r.length == nd.ins.length)
  | 0x04, .biquad secs => 1 ≤ secs.length && secs.length ≤ 16 && secs.all (fun c => c.length == 5) && nd.ins.length == 1 && nd.outs.length == 1
  | 0x05, .fir taps => 1 ≤ taps.length && taps.length ≤ 4096 && nd.ins.length == 1 && nd.outs.length == 1
  | 0x06, .delay _ => nd.ins.length == 1 && nd.outs.length == 1
  | 0x07, .dyn .. => nd.ins.length == 1 && nd.outs.length == 1
  | 0x08, .dyn .. => nd.ins.length == 1 && nd.outs.length == 1
  | 0x09, .dyn .. => nd.ins.length == 2 && nd.outs.length == 1
  | 0x0A, .plain => nd.ins.length == 1
  | 0x0B, .bridge ch dir _ => ch < 128 && dir < 48
  | 0x0C, .pilot _ _ => nd.outs.length == 1
  | 0x0D, .object _ => nd.ins.length == 1
  | 0x0E, .speaker _ => true
  | 0x0F, .set c => c < 256 && nd.ins.length == 1 && nd.outs.length == 1
  | 0x10, .icom c => c < 32 && nd.ins.length == 2 && nd.outs.length == 1
  | 0x11, .ann z => z < 256 && nd.outs.length == 1
  | 0x12, .kernel .. => true
  | _, _ => false

end Sys2Proof.Machine
end

