-- ==== Sys2Proof/Machine/Kernel.lean ====
section
/-! DEFINITION. User kernels (09 R247-R264): the instruction set of the render clusters, the checks at staging and the run of a
kernel over one deal. -/
namespace Sys2Proof.Machine

/-- An address register (R254). -/
structure PReg where
  p : Nat := 0
  base : Nat := 0
  len : Nat := 65536
  inc : Int := 8
  stride : Int := 1
  mode : Nat := 0
deriving DecidableEq, Repr

/-- The window of a kernel node (R261): where its areas begin, and its end. -/
structure Window where
  ins : Nat
  outs : Nat
  params : Nat
  state : Nat
  scratch : Nat
  stop : Nat
deriving DecidableEq, Repr

/-- A cluster while it runs a kernel (R247): data registers by register * 8 + lane, accumulators by register * 8 + lane as value and
sticky sign, scalars, address registers, the window's words, the instruction index and the open loops (first, last, rounds left).
sats counts saturating write-backs by lane, and ovfs lists the instructions at which sums became sticky, latest first, each as the mask of
its lanes and of those that are positive (R249). -/
structure Cluster where
  d : SMap Int := []
  a : SMap (Int × Int) := []
  s : SMap Int := []
  p : SMap PReg := []
  mem : SMap Int := []
  pc : Nat := 0
  loops : List (Nat × Nat × Nat) := []
  sats : SMap Nat := []
  ovfs : List (Nat × Nat) := []
deriving DecidableEq, Repr

/-- How a step of a kernel ends. -/
inductive KStep where
  | go (c : Cluster)
  | halt (c : Cluster)
  | fault (cause addr : Nat)
deriving DecidableEq, Repr

/-- Bits hi to lo of a word. -/
def fld (w hi lo : Nat) : Nat := w / 2 ^ lo % 2 ^ (hi - lo + 1)

/-! Checks at staging (R263). -/

/-- Whether the bits of an instruction that Table 9.2 marks 0 are zero and its COND is not reserved. -/
def instrOk (w : Nat) : Bool :=
  let op := fld w 31 26
  let oneOp := op == 0x0C || op == 0x1C || op == 0x1D || op == 0x25 || op == 0x26
  if op ≤ 0x01 then fld w 25 0 == 0
  else if op = 0x02 then true
  else if op = 0x03 then fld w 19 16 == 0 && fld w 25 23 ≤ 4
  else if op = 0x04 || op = 0x05 then fld w 22 22 == 0 && fld w 18 16 == 0
  else if op = 0x06 then fld w 17 16 == 0
  else if op ≤ 0x0A then fld w 17 0 == 0
  else if op = 0x0B then fld w 20 16 == 0
  else if op = 0x23 || op = 0x24 || op = 0x27 then fld w 7 0 == 0 && fld w 13 8 < 32
  else if 0x0D ≤ op && op ≤ 0x19 then fld w 11 0 == 0 && ((0x17 ≤ op && op ≤ 0x19) || fld w 25 22 == 0)
  else op ≤ 0x27 && fld w 13 0 == 0 && (!oneOp || fld w 17 14 == 0)

/-- The loop bodies of a code: first and last instruction of each. -/
def loopBodies (code : List Nat) : List (Nat × Nat) :=
  ((code.mapIdx (fun i w => (i, w))).filter (fun p => fld p.2 31 26 == 0x02)).map (fun p => (p.1 + 1, p.1 + 1 + fld p.2 21 14))

/-- Whether loop bodies and branch targets stay within the code, branches within their loop bodies and nesting within 4 (R258). -/
def flowOk (code : List Nat) : Bool :=
  let bs := loopBodies code
  bs.all (fun b => b.2 < code.length) &&
    (List.range code.length).all (fun i => (bs.filter (fun b => b.1 ≤ i && i ≤ b.2)).length ≤ 4) &&
    (code.mapIdx (fun i w => (i, w))).all (fun p =>
      fld p.2 31 26 != 0x03 ||
        (let t : Int := (p.1 : Int) + n2s 16 (fld p.2 15 0)
         decide (0 ≤ t) && decide (t < (code.length : Int)) &&
           (bs.all (fun b => !(b.1 ≤ p.1 && p.1 ≤ b.2) || (decide ((b.1 : Int) ≤ t) && decide (t ≤ (b.2 : Int)))))))

/-- Words rounded up to a line. -/
def upLine (n : Nat) : Nat := (n + 7) / 8 * 8

/-- The window of a kernel at a word index (R261). -/
def windowOf (s : Nat) (k : KernelD) (win : Nat) : Window :=
  let o := win + upLine (k.ins * s)
  let p := o + upLine (k.outs * s)
  let st := p + upLine k.params
  let sc := st + k.state
  { ins := win, outs := o, params := p, state := st, scratch := sc, stop := sc + k.scratch }

/-- Whether a kernel descriptor and its code pass R260 and R263. -/
def kernelOk (k : KernelD) : Bool :=
  1 ≤ k.code.length && k.code.length ≤ 1024 && k.ins ≤ 16 && k.outs ≤ 16 && k.params ≤ 16384 && k.state ≤ 16384 && k.state % 8 == 0 &&
    k.scratch ≤ 32768 && k.scratch % 8 == 0 && k.flags < 2 && k.code.all instrOk && flowOk k.code

/-- Whether a kernel node suits its descriptor and its window fits its cluster. -/
def kernelNodeOk (s : Nat) (kernels : List KernelD) (nd : NodeD) (p : Par) : Bool :=
  match p with
  | .kernel d _ => match kernels[d]? with
    | some k => nd.ins.length == k.ins && nd.outs.length == k.outs && nd.win % 8 == 0 && (windowOf s k nd.win).stop ≤ 65536
    | none => false
  | _ => false

/-! Registers. -/

/-- A data register in a lane. -/
def dget (c : Cluster) (r l : Nat) : Int := mget 0 c.d (8 * r + l)

/-- A data register written in every lane. -/
def dset (r : Nat) (f : Nat → Int) (c : Cluster) : Cluster :=
  { c with d := (List.range 8).foldl (fun t l => mset 0 (8 * r + l) (f l) t) c.d }

/-- A data register written by a saturating operation: each lane's exact value is clipped, and a clip counts. -/
def dsetSat (r : Nat) (f : Nat → Int × Bool) (c : Cluster) : Cluster :=
  let c1 := dset r (fun l => (f l).1) c
  { c1 with sats := (List.range 8).foldl (fun t l => if (f l).2 then mset 0 l (mget 0 t l + 1) t else t) c1.sats }

/-- A value clipped to 32 bits, and whether that changed it. -/
def clip32 (x : Int) : Int × Bool := (satW 32 x, decide (satW 32 x ≠ x))

/-- An accumulator in a lane. -/
def aget (c : Cluster) (r l : Nat) : Int × Int := mget (0, 0) c.a (8 * r + l)

/-- An accumulator written in every lane. -/
def aset (r : Nat) (f : Nat → Int × Int) (c : Cluster) : Cluster :=
  { c with a := (List.range 8).foldl (fun t l => mset (0, 0) (8 * r + l) (f l) t) c.a }

/-- The lanes for which a test holds, as a mask. -/
def laneMask (p : Nat → Bool) : Nat := ((List.range 8).filter p).foldl (fun a l => a + 2 ^ l) 0

/-- An accumulator updated in every lane: the lanes in which it becomes sticky are noted, once per sum (R249). -/
def aupd (r : Nat) (f : Nat → Int × Int) (c : Cluster) : Cluster :=
  let on (l : Nat) : Bool := (aget c r l).2 == 0 && (f l).2 != 0
  let c1 := aset r f c
  if laneMask on = 0 then c1 else { c1 with ovfs := (laneMask on, laneMask (fun l => on l && decide (0 < (f l).2))) :: c.ovfs }

/-- A scalar register. -/
def sget (c : Cluster) (r : Nat) : Int := mget 0 c.s r

/-- A scalar register written. -/
def sset (r : Nat) (v : Int) (c : Cluster) : Cluster := { c with s := mset 0 r v c.s }

/-- An address register. -/
def pget (c : Cluster) (r : Nat) : PReg := mget {} c.p r

/-- The k low bits of a number reversed. -/
def revBits : Nat → Nat → Nat
  | 0, _ => 0
  | k + 1, n => n % 2 * 2 ^ k + revBits k (n / 2)

/-- A value modulo 65,536 as a word index. -/
def wordIx (x : Int) : Nat := (x % 65536).toNat

/-- The address lane l uses (R254). -/
def laneAddr (q : PReg) (l : Nat) : Nat :=
  let step : Int := (l : Int) * q.stride
  if q.mode = 1 then wordIx ((q.base : Int) + ((q.p : Int) - q.base + step) % (q.len : Int))
  else if q.mode = 2 then
    let k := Nat.log2 q.len
    wordIx ((q.base : Int) + (revBits k (((((q.p : Int) - q.base) % (2 ^ k : Int) + step) % (2 ^ k : Int)).toNat) : Nat))
  else wordIx ((q.p : Int) + step)

/-- The post-modify by a step (R254). -/
def postMod (q : PReg) (inc : Int) : PReg :=
  if q.mode = 1 then { q with p := wordIx ((q.base : Int) + ((q.p : Int) - q.base + inc) % (q.len : Int)) }
  else if q.mode = 2 then
    let k := Nat.log2 q.len
    { q with p := wordIx ((q.base : Int) + ((((q.p : Int) - q.base) % (2 ^ k : Int)) + inc) % (2 ^ k : Int)) }
  else { q with p := wordIx ((q.p : Int) + inc) }

/-- An address register after an access with the POST bit. -/
def bumpP (r post : Nat) (c : Cluster) : Cluster :=
  if post = 1 then { c with p := mset {} r (postMod (pget c r) (pget c r).inc) c.p } else c

/-- Field SEL of an address register is written (R254). A STRIDE or MODE outside its range is not stated: a free value of the range is
written; a SEL above 5 names no field (assumption log 102). -/
def setP (fresh sel v : Nat) (q : PReg) : PReg :=
  match sel with
  | 0 => { q with p := v }
  | 1 => { q with base := v }
  | 2 => { q with len := v + 1 }
  | 3 => { q with inc := n2s 16 v }
  | 4 => { q with stride := if n2s 8 v = n2s 16 v then n2s 8 v else n2s 8 (Config.freeWord (fresh + 65536)).toNat }
  | 5 => { q with mode := if v ≤ 2 then v else (Config.freeWord (fresh + 65537)).toNat % 3 }
  | _ => q

/-- Redundant sign bits of a 32-bit word (R253). -/
def clsOf (x : Int) : Nat :=
  let u := if x < 0 then (-x - 1).toNat else x.toNat
  if u = 0 then 31 else 30 - Nat.log2 u

/-- A 32-bit word as a bit vector, for the bitwise operations. -/
def bits32 (x : Int) : BitVec 32 := BitVec.ofInt 32 x

/-! One instruction (R256, Table 9.1). -/

/-- A word of the window; scratch that nothing has written holds a free value (R261). -/
def memGet (win : Window) (fresh : Nat) (c : Cluster) (a : Nat) : Int :=
  match mfind c.mem a with
  | some v => v
  | none => if win.scratch ≤ a then (Config.freeWord (fresh + a)).toInt else 0

/-- The cause of the fault of an access, 0 where it is allowed (R264). -/
def accessFault (win : Window) (store : Bool) (a : Nat) : Nat :=
  if a < win.ins || win.stop ≤ a then 1
  else if store && win.params ≤ a && a < win.state then 2 else 0

/-- A load of a word in each lane that the addresses give. -/
def kLoad (win : Window) (fresh r pn post : Nat) (addr : Nat → Nat) (c : Cluster) : KStep :=
  match (List.range 8).find? (fun l => accessFault win false (addr l) != 0) with
  | some l => .fault (accessFault win false (addr l)) (addr l)
  | none => .go (bumpP pn post (dset r (fun l => memGet win fresh c (addr l)) c))

/-- A store of the lanes listed. -/
def kStore (win : Window) (r pn post : Nat) (lanes : List Nat) (addr : Nat → Nat) (c : Cluster) : KStep :=
  match lanes.find? (fun l => accessFault win true (addr l) != 0) with
  | some l => .fault (accessFault win true (addr l)) (addr l)
  | none => .go (bumpP pn post { c with mem := lanes.foldl (fun t l => mput (addr l) (dget c r l) t) c.mem })

/-- A product as it enters an accumulator: exact in coefficient form, shifted right by one in sample form (R248). -/
def product (sampleForm : Bool) (a b : Int) : Int := if sampleForm then a * b / 2 else a * b

/-- AADD (R249). -/
def accJoin (x y : Int × Int) : Int × Int := if x.2 ≠ 0 then x else if y.2 ≠ 0 then (x.1, y.2) else accClip (x.1 + y.1)

/-- ASH by a signed amount (R249). -/
def accShift (x : Int × Int) (n : Int) : Int × Int :=
  if x.2 ≠ 0 then x else if n < 0 then (x.1 / 2 ^ (-n).toNat, 0) else accClip (x.1 * 2 ^ n.toNat)

/-- Accumulator operations 0x0D to 0x16. -/
def kAcc (op w : Nat) (c : Cluster) : Cluster :=
  let n := fld w 13 12
  let a := fld w 21 18
  let b := fld w 17 14
  let pr (l : Nat) : Int := product (0x10 ≤ op && op ≤ 0x12) (dget c a l) (dget c b l)
  match op with
  | 0x0D | 0x10 => aset n (fun l => (pr l, 0)) c
  | 0x0E | 0x11 => aupd n (fun l => accAdd (aget c n l) (pr l)) c
  | 0x0F | 0x12 => aupd n (fun l => accAdd (aget c n l) (-(pr l))) c
  | 0x13 => aset n (fun _ => (0, 0)) c
  | 0x14 => aupd n (fun l => accJoin (aget c n l) (aget c (a % 4) l)) c
  | 0x15 => aset n (fun l => (dget c a l * 2 ^ 30, 0)) c
  | _ => aupd n (fun l => accShift (aget c n l) (n2s 4 b)) c

/-- Data operations 0x0C, 0x1A to 0x22, 0x25 and 0x26. -/
def kData (op w : Nat) (c : Cluster) : Cluster :=
  let d := fld w 25 22
  let x (l : Nat) : Int := dget c (fld w 21 18) l
  let y (l : Nat) : Int := dget c (fld w 17 14) l
  match op with
  | 0x0C => dset d x c
  | 0x1A => dsetSat d (fun l => clip32 (x l + y l)) c
  | 0x1B => dsetSat d (fun l => clip32 (x l - y l)) c
  | 0x1C => dsetSat d (fun l => clip32 (-(x l))) c
  | 0x1D => dsetSat d (fun l => clip32 (x l).natAbs) c
  | 0x1E => dset d (fun l => min (x l) (y l)) c
  | 0x1F => dset d (fun l => max (x l) (y l)) c
  | 0x20 => dset d (fun l => (bits32 (x l) &&& bits32 (y l)).toInt) c
  | 0x21 => dset d (fun l => (bits32 (x l) ||| bits32 (y l)).toInt) c
  | 0x22 => dset d (fun l => (bits32 (x l) ^^^ bits32 (y l)).toInt) c
  | 0x25 => dset d (fun l => (clsOf (x l) : Int)) c
  | _ => dset (Nat.xor d 1) (fun l => (clsOf (x l) : Int)) (dset d (fun l => x l * 2 ^ clsOf (x l)) c)

/-- Shifts and BEXP: 0x23, 0x24, 0x27. -/
def kShift (op w : Nat) (c : Cluster) : Cluster :=
  let d := fld w 25 22
  let x (l : Nat) : Int := dget c (fld w 21 18) l
  let n := if fld w 17 17 = 1 then s2n 5 (sget c (fld w 16 14)) else fld w 13 8
  match op with
  | 0x23 => dsetSat d (fun l => clip32 (x l * 2 ^ n)) c
  | 0x24 => dset d (fun l => x l / 2 ^ n) c
  | _ => sset (fld w 16 14) ((List.range 8).foldl (fun a l => min a (clsOf (x l) : Int)) (sget c (fld w 16 14))) c

/-- Whether a branch condition holds for a scalar. -/
def condHolds (cond : Nat) (v : Int) : Bool :=
  match cond with
  | 0 => true
  | 1 => v == 0
  | 2 => v != 0
  | 3 => decide (v < 0)
  | _ => decide (0 ≤ v)

/-- The next instruction after one at pc that does not branch, and the open loops: a loop whose last instruction it was goes round
again or ends. -/
def advLoops : List (Nat × Nat × Nat) → Nat → Nat × List (Nat × Nat × Nat)
  | [], pc => (pc + 1, [])
  | (first, last, left) :: rest, pc =>
    if pc = last then if 1 < left then (first, (first, last, left - 1) :: rest) else advLoops rest pc
    else (pc + 1, (first, last, left) :: rest)

/-- The cluster after the instruction at an index, which does not branch. -/
def advFrom (pc : Nat) (c : Cluster) : Cluster :=
  { c with pc := (advLoops c.loops pc).1, loops := (advLoops c.loops pc).2 }

/-- The cluster after an instruction that does not branch. -/
def advance (c : Cluster) : Cluster := advFrom c.pc c

/-- LOOP: a count of 0 skips the body. -/
def kLoop (w : Nat) (c : Cluster) : Cluster :=
  let n := if fld w 25 25 = 1 then (sget c (fld w 24 22)).toNat else fld w 13 0
  let body := fld w 21 14
  if n = 0 then advFrom (c.pc + body + 1) c
  else { c with pc := c.pc + 1, loops := (c.pc + 1, c.pc + 1 + body, n) :: c.loops }

/-- One step of a kernel. -/
def kStep (win : Window) (fresh : Nat) (code : List Nat) (c : Cluster) : KStep :=
  match code[c.pc]? with
  | none => .fault 3 0
  | some w =>
    let op := fld w 31 26
    let next (k : KStep) : KStep := match k with | .go x => .go (advance x) | r => r
    let pn := fld w 21 19
    let q := pget c pn
    match op with
    | 0x00 => .go (advance c)
    | 0x01 => .halt c
    | 0x02 => .go (kLoop w c)
    | 0x03 =>
      if condHolds (fld w 25 23) (sget c (fld w 22 20)) then .go { c with pc := ((c.pc : Int) + n2s 16 (fld w 15 0)).toNat }
      else .go (advance c)
    | 0x04 => .go (advance { c with p := mset {} (fld w 25 23) (setP fresh (fld w 21 19) (fld w 15 0) (pget c (fld w 25 23))) c.p })
    | 0x05 => .go (advance { c with p := mset {} (fld w 25 23) (postMod (pget c (fld w 25 23)) (n2s 16 (fld w 15 0))) c.p })
    | 0x06 => .go (advance (sset (fld w 25 23) (if fld w 22 22 = 1 then dget c (fld w 21 18) 0 else n2s 16 (fld w 15 0)) c))
    | 0x07 => next (kLoad win fresh (fld w 25 22) pn (fld w 18 18) (laneAddr q) c)
    | 0x08 => next (kStore win (fld w 25 22) pn (fld w 18 18) (List.range 8) (laneAddr q) c)
    | 0x09 => next (kLoad win fresh (fld w 25 22) pn (fld w 18 18) (fun _ => laneAddr q 0) c)
    | 0x0A => next (kStore win (fld w 25 22) pn (fld w 18 18) [0] (laneAddr q) c)
    | 0x0B =>
      let d := fld w 25 22
      .go (advance (dset d (fun l =>
        if fld w 21 21 = 1 then n2s 32 (fld w 15 0 * 65536 + s2n 16 (dget c d l)) else n2s 16 (fld w 15 0)) c))
    | 0x17 => .go (advance (dsetSat (fld w 25 22) (fun l => writeBack 30 true (aget c (fld w 13 12) l)) c))
    | 0x18 => .go (advance (dsetSat (fld w 25 22) (fun l => writeBack 31 true (aget c (fld w 13 12) l)) c))
    | 0x19 => .go (advance (dsetSat (fld w 25 22) (fun l => writeBack 31 false (aget c (fld w 13 12) l)) c))
    | 0x23 | 0x24 | 0x27 => .go (advance (kShift op w c))
    | _ =>
      if 0x0D ≤ op && op ≤ 0x16 then .go (advance (kAcc op w c)) else .go (advance (kData op w c))

/-- What the run of a kernel gives: the cluster where it halted, where it faulted with the fault, or where the deal ended. -/
inductive KEnd where
  | done (c : Cluster)
  | fault (cause instr addr : Nat) (c : Cluster)
  | late (c : Cluster)
deriving DecidableEq, Repr

/-- A kernel runs for at most a number of instructions. -/
def kRun (win : Window) (fresh : Nat) (code : List Nat) : Nat → Cluster → KEnd
  | 0, c => .late c
  | n + 1, c => match kStep win fresh code c with
    | .go c1 => kRun win fresh code n c1
    | .halt c1 => .done c1
    | .fault cause addr => .fault cause c.pc addr c

/-- The offset of sample k of slot i of n in an area (R261). -/
def smpOfs (k : KernelD) (s n i j : Nat) : Nat := if k.flags % 2 = 1 then j * n + i else i * s + j

/-- A list of words at consecutive addresses of a memory. -/
def putWords : Nat → List Int → SMap Int → SMap Int
  | _, [], t => t
  | a, v :: vs, t => putWords (a + 1) vs (mput a v t)

/-- The cluster at a kernel's entry (R261, R262). -/
def kEntry (s deal : Nat) (k : KernelD) (win : Window) (words : List Nat) (w : List Int) (xs : List (List Int)) : Cluster :=
  let m0 := putWords win.params ((words.take k.params).map (n2s 32)) (putWords win.state w [])
  let m1 := (List.range k.ins).foldl (fun t i => (List.range s).foldl
    (fun t j => mput (win.ins + smpOfs k s k.ins i j) ((xs.getD i []).getD j 0) t) t) m0
  let at_ (a : Nat) : PReg := { p := a, base := a }
  { s := mset 0 0 (s : Int) (mset 0 1 (n2s 32 deal) (mset 0 2 (k.ins : Int) (mset 0 3 (k.outs : Int) [])))
    p := mset {} 0 (at_ win.ins) (mset {} 1 (at_ win.outs) (mset {} 2 (at_ win.params) (mset {} 3 (at_ win.state)
      (mset {} 4 (at_ win.scratch) (mset {} 5 (at_ win.ins) (mset {} 6 (at_ win.ins) (mset {} 7 (at_ win.ins) [])))))))
    mem := m1 }

/-- The free values that a run of a kernel may take: one for each word of a local memory, and two for the fields of SETP. -/
def kFresh : Nat := 65538

/-- The instructions a deal can hold (09, "1.2 GHz"): one a cycle. -/
def dealCycles : Nat := 150000

/-- A kernel node over one deal. -/
def runKernel (s deal fresh : Nat) (k : KernelD) (nd : NodeD) (words : List Nat) (w : List Int) (xs : List (List Int)) : KEnd :=
  let win := windowOf s k nd.win
  kRun win fresh k.code dealCycles (kEntry s deal k win words w xs)

/-- The output slots of a finished kernel. -/
def kOuts (s : Nat) (k : KernelD) (nd : NodeD) (c : Cluster) : List (List Int) :=
  let win := windowOf s k nd.win
  (List.range k.outs).map (fun i => (List.range s).map (fun j => mget 0 c.mem (win.outs + smpOfs k s k.outs i j)))

/-- The state of a finished kernel. -/
def kState (s : Nat) (k : KernelD) (nd : NodeD) (c : Cluster) : List Int :=
  let win := windowOf s k nd.win
  (List.range k.state).map (fun j => mget 0 c.mem (win.state + j))

/-! Faults and overflow (R249, R264, R267). -/

/-- The node of the live deck with an index. -/
def nodeAt (m : Mach) (ix : Nat) : Option NodeD := m.dk.live.body.nodes.find? (fun d => d.ix == ix)

/-- The record of a kernel fault, with the cluster's bit (R264, R267). -/
def faultRecord (d : NodeD) (cause instr addr : Nat) (m : Mach) : Mach :=
  raise 0x0C 0x0C02 [(2, d.ix), (1, d.cluster), (1, cause), (4, d.id), (2, instr), (2, 0), (4, if cause = 3 then 0 else addr)]
    (orReg F.DIAG_CL_FAULT_CLUSTER (2 ^ d.cluster) m)

/-- A kernel fault: the node is unfinished in this deal and silent until it is next cut; the cluster's bit is set and the event
raised (R264). -/
def kernelFault (node cause instr addr : Nat) (m : Mach) : Mach :=
  match nodeAt m node with
  | none => m
  | some d =>
    let st := mget {} m.frm.nodes node
    if d.typ != 0x12 || st.silent || cause == 0 || 3 < cause then m
    else
      faultRecord d cause instr addr
        (setFrm { m.frm with nodes := mput node { st with silent := true } m.frm.nodes, hurt := insertNat node m.frm.hurt } m)

/-- KERNEL_FAULT. -/
def execKernelFault (node cause instr addr : Nat) (s : State) : Host.Outcome State Fault Refusal :=
  onMach (kernelFault node cause instr addr) s

/-- Whether a cluster has an overflow flag set. -/
def ovfAny (m : Mach) (c : Nat) : Bool := (rdi m F.DIAG_OVF_FLAG_LANE (c / 4)) / 2 ^ (8 * (c % 4)) % 256 != 0

/-- Sums of a cluster's lanes have become sticky: each lane counts, its flag is set, and the event is raised where no flag of the
cluster was set before (R249, R267). -/
def laneOverflow (c lanes signs node : Nat) (m : Mach) : Mach :=
  if 16 ≤ c || lanes % 256 = 0 then m
  else
    let first := !ovfAny m c
    let m1 := forEach (bitsOf 8 lanes) (fun l m => bumpi F.DIAG_LANE_OVF_COUNT (8 * c + l) 1 m) m
    let m2 := wri F.DIAG_OVF_FLAG_LANE (c / 4) (rdi m1 F.DIAG_OVF_FLAG_LANE (c / 4) ||| (lanes % 256 * 2 ^ (8 * (c % 4)))) m1
    onlyIf first
      (raise 0x0C 0x0C01 [(2, node), (1, c), (1, lanes % 256), (4, ((nodeAt m node).map (fun d => d.id)).getD 0),
        (1, signs % 256 &&& lanes % 256), (3, 0), (4, 0)]) m2

/-- LANE_OVERFLOW. -/
def execLaneOverflow (cluster lanes signs node : Nat) (s : State) : Host.Outcome State Fault Refusal :=
  onMach (laneOverflow cluster lanes signs node) s

/-- Saturating write-backs of a lane of a cluster (R250, R265). -/
def laneSat (c l n : Nat) (m : Mach) : Mach :=
  if n = 0 then m
  else
    let i := 8 * c + l
    wri F.DIAG_SAT_FLAG_LANE (i / 32) (setBit (rdi m F.DIAG_SAT_FLAG_LANE (i / 32)) (i % 32)) (bumpi F.DIAG_LANE_SAT_COUNT i n m)

/-- What a run of a kernel leaves in the counts of its cluster's lanes: its saturating write-backs, and its sums that became sticky, in the
order in which they did (R249, R250). -/
def kernelLanes (cluster node : Nat) (c : Cluster) (m : Mach) : Mach :=
  forEach c.ovfs.reverse (fun q m => laneOverflow cluster q.1 q.2 node m) (forEach c.sats (fun q m => laneSat cluster q.1 q.2 m) m)

end Sys2Proof.Machine
end

