-- ==== Sys2Proof/Machine/Pool.lean ====
section
/-! DEFINITION. The delay pool (11 R313-R318): blocks, lines, and the delay nodes (08 R238, R239). -/
namespace Sys2Proof.Machine

/-- The machine with its render engine replaced. -/
def setRend (r : Rend) (m : Mach) : Mach := { m with rend := r }

/-- A line. Object lines are known by the object number, those of delay nodes by 65,536 + the node identifier. -/
def lineOf (m : Mach) (k : Nat) : Line := mget {} m.rend.lines k

/-- The machine with a line replaced. -/
def setLine (k : Nat) (x : Line) (m : Mach) : Mach := setRend { m.rend with lines := mput k x m.rend.lines } m

/-- The number of a line of the deck. -/
def lineKey (l : LineD) : Nat := if l.node then 65536 + l.id else l.id

/-- The blocks in use: those of the lines and of a measurement. -/
def usedBlocks (m : Mach) : List Nat :=
  (m.rend.lines.map (fun p => p.2.blocks)).flatten ++ (match m.cor.meas with | some x => x.blocks | none => [])

/-- Free blocks of the pool's 2,048 (R316). -/
def freeBlocks (m : Mach) : Nat := 2048 - (usedBlocks m).length

/-- The free blocks of a bank, in ascending order. -/
def bankFree (used : List Nat) (b : Nat) : List Nat := (List.range 64).filter (fun i => !used.contains (64 * b + i))

/-- The block that R314 picks: in the bank with the most free blocks, the lowest bank and block first. -/
def pickBlock (used : List Nat) : Option Nat :=
  let best := (List.range 32).foldl (fun a b => if (bankFree used a).length < (bankFree used b).length then b else a) 0
  ((bankFree used best).head?).map (fun i => 64 * best + i)

/-- n blocks picked one after another. -/
def pickBlocks : Nat → List Nat → List Nat
  | 0, _ => []
  | n + 1, used => match pickBlock used with
    | some b => b :: pickBlocks n (b :: used)
    | none => []

/-- The length in samples at which a line works (R315). -/
def lineSize (x : Line) : Nat := min x.want x.blocks.length * 8192

/-- The samples of a line that serves an object, 0 where it waits or is absent. -/
def objLine (m : Mach) (o : Nat) : Nat := if (lineOf m o).wait then 0 else lineSize (lineOf m o)

/-- A line's missing blocks are allocated where enough are free. -/
def grantLine (k : Nat) (m : Mach) : Mach × Bool :=
  let x := lineOf m k
  let need := x.want - x.blocks.length
  if freeBlocks m < need then (m, false)
  else
    let new := pickBlocks need (usedBlocks m)
    let m1 := setLine k { x with blocks := x.blocks ++ new, wait := false, keep := max x.keep (x.want * 8192) } m
    (setRend { m1.rend with allocs := m1.rend.allocs + need, waiting := m1.rend.waiting.filter (fun j => j != k) } m1, true)

/-- A line or addition that finds too few blocks waits (R315). -/
def lineWaits (k : Nat) (m : Mach) : Mach :=
  let x := lineOf m k
  let m1 := setLine k { x with wait := x.blocks.isEmpty } m
  if m.rend.waiting.contains k then m1
  else
    raise 0x0E 0x0E02 [(4, if k < 65536 then k else k - 65536), (2, x.want - x.blocks.length), (2, freeBlocks m),
        (1, b2n (65536 ≤ k)), (7, 0)]
      (wr F.OBJ_RFLAGS_POOL_SHORT 1
        (setRend { m1.rend with waiting := insertNat k m1.rend.waiting, waits := m1.rend.waits + 1 } m1))

/-- The delay in samples of a deck's delay node. -/
def delayOf (b : DeckBody) (id : Nat) : Nat :=
  match b.nodes.find? (fun d => d.typ == 0x06 && d.id == id) with
  | some d => (match lookN b.psets d.pset with | some (.delay v) => v | _ => 0)
  | none => 0

/-- Waiting lines are served in order at a commit that frees blocks; a lengthened line is rebased at the next boundary. -/
def serveWaiting (m : Mach) : Mach :=
  forEach m.rend.waiting
    (fun k m =>
      let old := lineSize (lineOf m k)
      let r := grantLine k m
      onlyIf (r.2 && old != 0)
        (fun m => setRend { m.rend with rebase := mput k ⟨m.deal + 1, delayOf m.dk.live.body (k - 65536), old⟩ m.rend.rebase } m) r.1) m

/-- One line of the new deck at a cut (R315, R238). -/
def cutLine (old : DeckBody) (l : LineD) (m : Mach) : Mach :=
  let k := lineKey l
  match mfind m.rend.lines k with
  | none =>
    let r := grantLine k (setLine k { want := l.blocks } m)
    if r.2 then r.1 else lineWaits k r.1
  | some x =>
    let m1 := onlyIf (old.lines.any (fun o => lineKey o == k))
      (fun m => setRend { m.rend with rebase := mput k ⟨m.deal, delayOf old l.id, lineSize x⟩ m.rend.rebase } m) m
    let m2 := setLine k { x with want := l.blocks, keep := max x.keep (l.blocks * 8192) } m1
    if x.blocks.length < l.blocks || x.wait then
      (let r := grantLine k m2
       if r.2 then r.1 else lineWaits k r.1)
    else m2

/-- The lines of a deck in the order in which they are served: objects first, each in ascending number. -/
def linesInOrder (b : DeckBody) : List LineD :=
  (sortNat (b.lines.map lineKey)).filterMap (fun k => b.lines.find? (fun l => lineKey l == k))

/-- A line's blocks return to the pool and the line is forgotten. -/
def freeLine (k : Nat) (m : Mach) : Mach :=
  setRend { m.rend with lines := mdel k m.rend.lines, waiting := m.rend.waiting.filter (fun j => j != k),
                        frees := m.rend.frees + (lineOf m k).blocks.length } m

/-- The retiring deck frees its slot: the lines that only it had are freed (R315, R237). -/
def poolRetired (old : DeckBody) (m : Mach) : Mach :=
  let gone := (old.lines.map lineKey).filter (fun k => !(m.dk.live.body.lines.any (fun l => lineKey l == k)))
  if gone.isEmpty then m else serveWaiting (forEach gone freeLine m)

/-- A line at a commit: blocks beyond its length are freed and content beyond it discarded (R238, R315). -/
def trimLine (k : Nat) (m : Mach) : Mach :=
  let x := lineOf m k
  let extra := x.blocks.length - x.want
  let keep := min x.keep (x.want * 8192)
  let y := { x with blocks := x.blocks.take x.want, keep := keep,
                    data := if keep < x.keep then x.data.filter (fun p => x.last < p.1 + keep) else x.data }
  let m1 := setLine k y m
  setRend { m1.rend with frees := m1.rend.frees + extra } m1

/-- The level of WM_STICKY bit 10 (R318). -/
def watchPool (m : Mach) : Mach :=
  let fm := rd m F.OBJ_POOL_WARN_FREE_MIN
  let used := 2048 - freeBlocks m
  watch 10 (fm != 0 && 2048 - fm ≤ used) 0x0E 0x0E01 [(2, freeBlocks m), (2, fm), (4, used), (8, 0)] m

/-- The pool at a cut, with the new deck live (R315). -/
def poolCut (old new : DeckBody) (m : Mach) : Mach :=
  watchPool (forEach (linesInOrder new) (cutLine old)
    (setRend { m.rend with rebase := m.rend.rebase.filter (fun p => m.deal ≤ p.2.deal) } m))

/-- The pool at a commit, with the watermark of R318. -/
def poolCommit (m : Mach) : Mach :=
  let m1 := forEach (m.rend.lines.map Prod.fst) trimLine m
  watchPool (if m1.rend.frees != m.rend.frees then serveWaiting m1 else m1)

/-- A line takes the samples of a deal; one that waits discards them (R315). -/
def lineWrite (k : Nat) (xs : List Int) (m : Mach) : Mach :=
  match mfind m.rend.lines k with
  | none => m
  | some x =>
    if x.wait then m
    else
      let base := m.deal * spd m
      let last := base + xs.length - 1
      let add := (xs.mapIdx (fun j v => (base + j, v))).filter (fun p => p.2 != 0)
      setLine k { x with data := (x.data.filter (fun p => p.1 < base && last < p.1 + max x.keep 1)) ++ add, last := last } m

/-- A line's sample at a domain-A index: zero where it has not been written (R317). -/
def lineAt (x : Line) (i : Int) : Int := if i < 0 then 0 else mget 0 x.data i.toNat

/-- The weights of the old and of the new reading of a line at sample k of the deal of its rebase, in Q2.30 (R238). -/
def lineWeights (s k : Nat) : Int × Int :=
  ((2 ^ 30 : Int) * ((s : Int) - 1 - (k : Int)) / (s : Int), (2 ^ 30 : Int) * ((k : Int) + 1) / (s : Int))

/-- A delay node over a deal: its line is written and read, with the fade of R238 where its delay or length has changed. -/
def delayNode (id d : Nat) (xs : List Int) (m : Mach) : Mach × List Int :=
  let k := 65536 + id
  let m1 := lineWrite k xs m
  let x := lineOf m1 k
  let s := spd m
  if x.wait || x.blocks.isEmpty then (m1, zeros s)
  else
    let base : Int := ((m.deal * s : Nat) : Int)
    let read (d : Nat) : List Int := (List.range s).map (fun j : Nat => lineAt x (base + (j : Int) - (d : Int)))
    let y := read (min d (lineSize x - 1))
    match mfind m1.rend.rebase k with
    | none => (m1, y)
    | some r =>
      if r.deal = m.deal && (r.d != d || r.size != lineSize x) then
        let o := read (min r.d (r.size - 1))
        (m1, (List.range s).map (fun j => (rnd [((lineWeights s j).1, o.getD j 0), ((lineWeights s j).2, y.getD j 0)]).1))
      else (m1, y)

/-- Group 8 (R327). -/
def poolCounters (m : Mach) : List (Nat × Nat) :=
  [(0x0801, 2048 - freeBlocks m), (0x0802, freeBlocks m), (0x0803, m.rend.allocs), (0x0804, m.rend.frees), (0x0805, m.rend.waits)]

end Sys2Proof.Machine
end

