-- ==== Sys2Proof/Machine/Scene.lean ====
section
/-! DEFINITION. The scene (10): object parameters, trajectory queues and their evaluation. -/
namespace Sys2Proof.Machine

/-- Objects of the rate in force (R276). -/
def objCount (m : Mach) : Nat := if m.frm.rate = 1 then 256 else 512

/-- An object. -/
def objOf (m : Mach) (o : Nat) : Obj := mget {} m.objs o

/-- The machine with an object replaced. -/
def setObj (o : Nat) (x : Obj) (m : Mach) : Mach := { m with objs := mset {} o x m.objs }

/-! OBJ_SET (R276, R277). -/

/-- Whether every field that SET writes lies within Table 10.4. -/
def objSetOk (c : Cmd) : Bool :=
  let set := u16 c 26
  (!set.testBit 0 || u8 c 28 ≤ 3) && (!set.testBit 1 || u8 c 29 ≤ 15) && (!set.testBit 2 || u16 c 30 ≤ 3) &&
    (!set.testBit 3 || u32 c 32 < 2 ^ 31) &&
    (!set.testBit 4 || (u16 c 36 ≤ 32768 && 0x0400 ≤ u16 c 38 && u16 c 38 ≤ 0x8000)) &&
    (!set.testBit 6 || u16 c 48 ≤ 255 || u16 c 48 == 0xFFFF)

/-- The object after the fields whose SET bits are set. -/
def objWrite (c : Cmd) (x : Obj) : Obj :=
  let set := u16 c 26
  let x0 := if set.testBit 0 then { x with mode := u8 c 28 } else x
  let x1 := if set.testBit 1 then { x0 with trump := u8 c 29 } else x0
  let x2 := if set.testBit 2 then { x1 with enable := (u16 c 30).testBit 0, fine := (u16 c 30).testBit 1 } else x1
  let x3 := if set.testBit 3 then { x2 with gain := s32 c 32 } else x2
  let x4 := if set.testBit 4 then { x3 with spread := u16 c 36, rolloff := u16 c 38 } else x3
  let x5 := if set.testBit 5 then { x4 with aperture := u32 c 40, refDist := u32 c 44 } else x4
  if set.testBit 6 then { x5 with zone := u16 c 48 } else x5

/-- OBJ_SET: a change of MODE or FINE makes every pair of the object fade in this deal (11 R296). -/
def objSet : Eff := fun c _ m =>
  let o := u16 c 24
  let x := objOf m o
  let y := objWrite c x
  if objCount m ≤ o || u16 c 26 = 0 || 128 ≤ u16 c 26 || !zeroAt c 50 14 || !objSetOk c then bad m
  else okM (setObj o (if x.mode = y.mode && x.fine = y.fine then y else { y with refresh := 1 }) m)

/-- OBJ_SET. -/
def execObjSet (c : Cmd) (s : State) : Host.Outcome State Fault Refusal := onMach (hostRow 0x0203 objSet c) s

/-! Trajectories (R279-R283). -/

/-- TRAJ_PUSH in the five steps of R280, with the late points of R281. A late point replaces one that was moved to the end of this deal before
it, so the order of step 2 is judged on the points before that one (DEDUCED, assumption log 103). -/
def trajPush : Eff := fun c _ m =>
  let o := u16 c 24
  let fl := u8 c 26
  let t := u64 c 32 * 65536 + u16 c 28
  let x := objOf m o
  let q := if fl.testBit 0 then x.queue.filter (fun p => p.t < t) else x.queue
  let newest := q.getLast?
  let late := decide (t ≤ m.deal * 65536)
  let at_ := if late then (m.deal + 1) * 65536 else t
  let disc := late && newest.any (fun p => p.late && p.t == at_)
  let kept := if disc then q.dropLast else q
  if objCount m ≤ o || 8 ≤ fl || kept.getLast?.any (fun p => decide (t ≤ p.t)) then bad m
  else if 16 ≤ q.length then (m, { st := some stNoRoom })
  else
    let pt : Point := { t := at_, x := s32 c 40 * 256, y := s32 c 44 * 256, z := s32 c 48 * 256, jump := fl.testBit 1, rest := fl.testBit 2, late := late }
    let m1 := setObj o { x with queue := kept ++ [pt] } m
    okM (onlyIf late
      (fun m => raise 0x0D 0x0D01 [(2, o), (2, u16 c 28), (4, min (2 ^ 32 - 1) (m.deal - u64 c 32)), (8, u64 c 32)]
        (wr F.OBJ_FLAGS_LATE 1 (bump F.OBJ_LATE_DISC_COUNT (b2n disc) (bump F.OBJ_LATE_CNT_COUNT 1 m)))) m1)

/-- TRAJ_PUSH. -/
def execTrajPush (c : Cmd) (s : State) : Host.Outcome State Fault Refusal := onMach (hostRow 0x0201 trajPush c) s

/-- One object's queue is emptied: mode 0 keeps it at its last evaluated position, mode 1 leaves it UNPLACED (R283). -/
def clearOne (mode o : Nat) (m : Mach) : Mach :=
  let x := objOf m o
  let hold : List Point :=
    if mode = 0 && x.state != 0 then [{ t := m.deal * 65536, x := x.x, y := x.y, z := x.z, jump := true, hold := true }] else []
  setObj o { x with queue := hold, state := if mode = 0 then x.state else 0 } m

/-- TRAJ_CLEAR (R283). -/
def trajClear : Eff := fun c _ m =>
  let o := u16 c 24
  let mode := u8 c 26
  if 1 < mode || (objCount m ≤ o && o != 0xFFFF) then bad m
  else if o = 0xFFFF then okM (forEach (m.objs.map Prod.fst) (clearOne mode) m)
  else okM (clearOne mode o m)

/-- TRAJ_CLEAR. -/
def execTrajClear (c : Cmd) (s : State) : Host.Outcome State Fault Refusal := onMach (hostRow 0x0202 trajClear c) s

/-! Evaluation (R284-R287). -/

/-- The linear case of R285. -/
def linearAt (s c1 c2 : Int) : Int := (c1 * 2 ^ 32 + (c2 - c1) * s + 2 ^ 31) / 2 ^ 32

/-- The cubic Hermite case of R285 from the end points and tangents. -/
def cubicAt (s c1 c2 m1 m2 : Int) : Int :=
  let s2 := s * s / 2 ^ 32
  let s3 := s2 * s / 2 ^ 32
  ((2 * s3 - 3 * s2 + 2 ^ 32) * c1 + (3 * s2 - 2 * s3) * c2 + (s3 - 2 * s2 + s) * m1 + (s3 - s2) * m2 + 2 ^ 31) / 2 ^ 32

/-- The tangent at a point of rest, with a missing neighbour, or from the points around it (R285). -/
def tangent (rest : Bool) (other : Option (Int × Nat × Nat)) (chord d12 : Int) : Int :=
  if rest then 0
  else match other with
    | none => chord
    | some (dc, ta, tb) => Int.tdiv (dc * d12) ((tb : Int) - ta)

/-- One axis between P1 and P2. -/
def axisAt (get : Point → Int) (p0 : Option Point) (p1 p2 : Point) (p3 : Option Point) (tau : Nat) : Int :=
  let d12 : Int := (p2.t : Int) - p1.t
  let s := ((tau : Int) - p1.t) * 2 ^ 32 / d12
  let c1 := get p1
  let c2 := get p2
  if !p1.rest && !p2.rest && p0.isNone && p3.isNone then linearAt s c1 c2
  else
    cubicAt s c1 c2 (tangent p1.rest (p0.map (fun p => (c2 - get p, p.t, p2.t))) (c2 - c1) d12)
      (tangent p2.rest (p3.map (fun p => (get p - c1, p1.t, p.t))) (c2 - c1) d12)

/-- A coordinate at its limits (R286). -/
def coordSat (c : Int) : Int := max (-(2 ^ 39)) (min ((2 ^ 31 - 1) * 256) c)

/-- Placement, position and kind of an object at an instant, from its queue: state, kind, the unsaturated position and P1
(Table 10.7). -/
def evalQueue (tau : Nat) (q : List Point) : Option (Nat × Nat × Int × Int × Int × Point) :=
  let k := (q.filter (fun p => p.t ≤ tau)).length
  match q[k - 1]?, decide (k = 0) with
  | some p1, false =>
    let p0 := if k < 2 || p1.jump then none else q[k - 2]?
    match q[k]? with
    | none => some (2, 1, p1.x, p1.y, p1.z, p1)
    | some p2 =>
      if p2.jump then some (1, 1, p1.x, p1.y, p1.z, p1)
      else
        let p3 := match q[k + 1]? with | some p => if p.jump then none else some p | none => none
        let kind := if !p1.rest && !p2.rest && p0.isNone && p3.isNone then 2 else 3
        some (1, kind, axisAt Point.x p0 p1 p2 p3 tau, axisAt Point.y p0 p1 p2 p3 tau, axisAt Point.z p0 p1 p2 p3 tau, p1)
  | _, _ => none

/-- A queue without the points older than P0 (R284). -/
def trimQueue (tau : Nat) (q : List Point) : List Point := q.drop ((q.filter (fun p => p.t ≤ tau)).length - 2)

/-- The trajectory engine on one object at the boundary of the present deal (R284-R287). -/
def evalObj (o : Nat) (m : Mach) : Mach :=
  let x := objOf m o
  let tau := (m.deal + 1) * 65536
  let x1 := { x with queue := trimQueue tau x.queue, refresh := if x.refresh = 1 then 2 else 0 }
  match evalQueue tau x.queue with
  | none => setObj o { x1 with state := 0, kind := 0, x := 0, y := 0, z := 0, jumped := false, clamped := false } m
  | some (st, kind, px, py, pz, p1) =>
    let axes := b2n (coordSat px != px) + 2 * b2n (coordSat py != py) + 4 * b2n (coordSat pz != pz)
    let m1 := setObj o { x1 with state := st, kind := kind, x := coordSat px, y := coordSat py, z := coordSat pz,
                                 jumped := p1.jump && decide (m.deal * 65536 < p1.t), clamped := axes != 0 } m
    let m2 := onlyIf (axes != 0)
      (fun m => onlyIf (!x.clamped) (raise 0x0D 0x0D03 [(2, o), (1, axes), (1, 0), (4, 0), (8, 0)]) (wr F.OBJ_FLAGS_CLAMP 1 m)) m1
    onlyIf (st == 2 && x.state != 2 && !p1.rest && !p1.hold)
      (fun m => raise 0x0D 0x0D02
        [(2, o), (2, 0), (4, s2n 32 (coordSat px / 256)), (4, s2n 32 (coordSat py / 256)), (4, s2n 32 (coordSat pz / 256))]
        (wr F.OBJ_FLAGS_STARVED 1 (bump F.OBJ_STARVE_CNT_COUNT 1 m))) m2

/-- The object that the probe shows: beyond the objects of the rate it shows zeros (R292). -/
def probed (m : Mach) : Obj :=
  let o := rd m F.OBJ_PROBE_SEL_OBJECT
  if o < objCount m then objOf m o else {}

/-- The probe registers of Table 10.8. -/
def showProbe (m : Mach) : Mach :=
  let x := probed m
  wr F.OBJ_PROBE_STAT_STATE x.state (wr F.OBJ_PROBE_STAT_POINTS x.queue.length (wr F.OBJ_PROBE_STAT_KIND x.kind
    (wr F.OBJ_PROBE_STAT_ENABLE (b2n x.enable) (wr F.OBJ_PROBE_X_MM (s2n 32 (x.x / 256)) (wr F.OBJ_PROBE_Y_MM (s2n 32 (x.y / 256))
    (wr F.OBJ_PROBE_Z_MM (s2n 32 (x.z / 256)) (wr F.OBJ_PROBE_FRAC_X (s2n 8 x.x) (wr F.OBJ_PROBE_FRAC_Y (s2n 8 x.y)
    (wr F.OBJ_PROBE_FRAC_Z (s2n 8 x.z) (wr F.OBJ_PROBE_DEAL_LO_DEAL (m.deal % 2 ^ 32) (wr F.OBJ_PROBE_DEAL_HI_DEAL (m.deal / 2 ^ 32) m)))))))))))

/-- Every object is evaluated, and the scene registers are written (R284, R291, R292). -/
def evalScene (m : Mach) : Mach :=
  let m1 := forEach (m.objs.map Prod.fst) evalObj m
  showProbe (wr F.OBJ_SCENE_STAT_ENABLED (m1.objs.filter (fun p => p.2.enable)).length
    (wr F.OBJ_SCENE_STAT_PLACED (m1.objs.filter (fun p => p.2.state != 0)).length m1))

/-- A register store without the fields of an address range [lo, hi): they are at their reset values. -/
def clearRange (lo hi : Nat) (t : SMap Nat) : SMap Nat := t.filter (fun p => p.1 / 32 < lo || hi ≤ p.1 / 32)

/-- A power-on, pin, system or render reset of the scene (R291). -/
def sceneReset (m : Mach) : Mach := { m with objs := [], regs := clearRange 0xF000 0xF040 m.regs }

end Sys2Proof.Machine
end

