-- ==== Sys2Proof/Machine/Render.lean ====
section
/-! DEFINITION. The render engine (11): candidate pairs, gain and delay laws, selection against the budget, and the tap engine. -/
namespace Sys2Proof.Machine

/-! Pair laws (R299-R304). -/

/-- A vector of three numbers. -/
structure V3 where
  x : Int
  y : Int
  z : Int
deriving DecidableEq, Repr

/-- A scalar product of vectors with 80 fractional bits. -/
def vdot (a b : V3) : Int := mulQ a.x b.x + mulQ a.y b.y + mulQ a.z b.z

/-- A vector product. -/
def vcross (a b : V3) : V3 :=
  ⟨mulQ a.y b.z - mulQ a.z b.y, mulQ a.z b.x - mulQ a.x b.z, mulQ a.x b.y - mulQ a.y b.x⟩

/-- The length of a vector of whole numbers, with 80 fractional bits. -/
def vlen (a : V3) : Int := (Nat.sqrt ((a.x * a.x + a.y * a.y + a.z * a.z).toNat * 2 ^ 160) : Nat)

/-- The unit vector of a vector of whole numbers. -/
def vunit (a : V3) : V3 :=
  let n := vlen a
  if n = 0 then ⟨0, 0, 0⟩ else ⟨a.x * 2 ^ 160 / n, a.y * 2 ^ 160 / n, a.z * 2 ^ 160 / n⟩

/-- A vector times a number. -/
def vscale (k : Int) (a : V3) : V3 := ⟨mulQ k a.x, mulQ k a.y, mulQ k a.z⟩

/-- A sum of vectors. -/
def vadd (a b : V3) : V3 := ⟨a.x + b.x, a.y + b.y, a.z + b.z⟩

/-- Sine of an angle of R269 in Q2.30 (R300). -/
def angSin (u : Int) : Int := sinePhase (s2n 32 (u * 65536))

/-- Cosine of an angle of R269 in Q2.30. -/
def angCos (u : Int) : Int := sinePhase (s2n 32 (u * 65536 + 2 ^ 30))

/-- Whether an object lies on or behind a loudspeaker's front plane (R300). -/
def behind (e : SpkEnt) (dx dy dz : Int) : Bool :=
  decide (0 ≤ angCos e.el * angCos e.az * dx + angCos e.el * angSin e.az * dy + angSin e.el * 2 ^ 30 * dz)

/-- Whether an object's ZONE admits a loudspeaker (R294). -/
def zoneOk (zone : Nat) (e : SpkEnt) : Bool := zone == 0xFFFF || (zone < 256 && e.zones.testBit zone)

/-- A triangle ready for R301: its three entries and their unit vectors. -/
structure Tri where
  a : Nat
  b : Nat
  c : Nat
  la : V3
  lb : V3
  lc : V3
deriving DecidableEq, Repr

/-- The determinant of a triangle. -/
def triDet (t : Tri) : Int := vdot t.la (vcross t.lb t.lc)

/-- Whether a triangle is degenerate (R301). -/
def triFlat (t : Tri) : Bool := decide ((triDet t).natAbs < 2 ^ 60)

/-- The triangles that meet the ZONE rule. -/
def panTris (zone : Nat) (sp : SpkTable) : List Tri :=
  let dir (i : Nat) : V3 := match sp.ents[i]? with
    | some e => vunit ⟨e.x - sp.cx, e.y - sp.cy, e.z - sp.cz⟩
    | none => ⟨0, 0, 0⟩
  let ok (i : Nat) : Bool := match sp.ents[i]? with | some e => zoneOk zone e | none => false
  ((sp.tris.filter (fun t => ok t.1 && ok t.2.1 && ok t.2.2)).map
    (fun t => ⟨t.1, t.2.1, t.2.2, dir t.1, dir t.2.1, dir t.2.2⟩)).filter (fun t => !triFlat t)

/-- The three gains of a triangle for a direction. -/
def triGains (u : V3) (t : Tri) : Int × Int × Int :=
  let d := triDet t
  (divQ (vdot u (vcross t.lb t.lc)) d, divQ (vdot t.la (vcross u t.lc)) d, divQ (vdot t.la (vcross t.lb u)) d)

/-- The smallest of three gains. -/
def min3 (g : Int × Int × Int) : Int := min g.1 (min g.2.1 g.2.2)

/-- Gains scaled to unit power, without those that are not positive. -/
def unitPower (l : List (Nat × Int)) : List (Nat × Int) :=
  let p := l.filter (fun q => 0 < q.2)
  let n := sqrtQ ((p.map (fun q => mulQ q.2 q.2)).sum)
  p.map (fun q => (q.1, divQ q.2 n))

/-- The gains of one direction of a length (R301): the first triangle that qualifies, else the one whose smallest gain is largest. -/
def panOne (ts : List Tri) (u : V3) (mag : Int) : List (Nat × Int) :=
  let pick : Option Tri := match ts.find? (fun t => decide (-(mag / 2 ^ 20) ≤ min3 (triGains u t))) with
    | some t => some t
    | none => ts.foldl (fun a t => match a with
        | none => some t
        | some b => if min3 (triGains u b) < min3 (triGains u t) then some t else a) none
  match pick with
  | none => []
  | some t =>
    let g := triGains u t
    unitPower [(t.a, g.1), (t.b, g.2.1), (t.c, g.2.2)]

/-- The eight directions of the spread cone around a direction (R301). -/
def coneDirs (u : V3) (whole : V3) (mag : Int) (spread : Nat) : List V3 :=
  let w : V3 := ⟨divQ u.x mag, divQ u.y mag, divQ u.z mag⟩
  let r : V3 := if whole.x = 0 && whole.y = 0 then ⟨oneQ, 0, 0⟩ else ⟨0, 0, oneQ⟩
  let e := vadd r (vscale (-(vdot r w)) w)
  let n := sqrtQ (vdot e e)
  let e1 : V3 := ⟨divQ e.x n, divQ e.y n, divQ e.z n⟩
  let e2 := vcross w e1
  (List.range 8).map (fun k =>
    let side := vadd (vscale (cosTurn k 8) e1) (vscale (sinTurn k 8) e2)
    vscale mag (vadd (vscale (cosTurn spread 131072) w) (vscale (sinTurn spread 131072) side)))

/-- Gains added into a list by loudspeaker. -/
def addGains (acc l : List (Nat × Int)) : List (Nat × Int) :=
  l.foldl (fun a q => if a.any (fun p => p.1 == q.1) then a.map (fun p => if p.1 = q.1 then (p.1, p.2 + q.2) else p) else a ++ [q]) acc

/-- The pan law: gains with 80 fractional bits by loudspeaker (R301). -/
def panGains (sp : SpkTable) (x : Obj) : List (Nat × Int) :=
  let ts := panTris x.zone sp
  let whole : V3 := ⟨x.x - 256 * sp.cx, x.y - 256 * sp.cy, x.z - 256 * sp.cz⟩
  let mag := vlen whole
  if mag < 256 * 2 ^ 80 then
    match ts with
    | [] => []
    | t :: _ => let g := sqrtQ (oneQ / 3); [(t.a, g), (t.b, g), (t.c, g)]
  else
    let u : V3 := ⟨whole.x * 2 ^ 80, whole.y * 2 ^ 80, whole.z * 2 ^ 80⟩
    let first := panOne ts u mag
    if x.spread = 0 then first
    else unitPower ((coneDirs u whole mag x.spread).foldl (fun a d => addGains a (panOne ts d mag)) (unitPower first))

/-- A gain with 80 fractional bits as the device computes it: within four LSB of the exactly rounded Q2.30 word (R304). -/
def lawWord (inputs : List Int) (g : Int) : Int := rndDiv g (2 ^ 50) + max (-4) (min 4 (Config.gainLsb inputs))

/-- A candidate pair's targets: loudspeaker, delay, gain, whether the causality clamp acted and the target without it, and the
target that the range clamp cut (R299-R304, R309). -/
structure Tgt where
  spk : Nat
  d : Int
  g : Int
  near : Bool := false
  free : Int := 0
  cutAt : Option Int := none
deriving DecidableEq, Repr

/-- The distance of an object to a loudspeaker in 1/256 mm (R299). -/
def pairDist (x : Obj) (e : SpkEnt) : Nat :=
  let dx := 256 * e.x - x.x
  let dy := 256 * e.y - x.y
  let dz := 256 * e.z - x.z
  Nat.sqrt (dx * dx + dy * dy + dz * dz).toNat

/-- The loudspeakers that may form a pair with an object outside pan mode, with their distances (R294). -/
def reach (sp : SpkTable) (x : Obj) : List (Nat × SpkEnt × Nat) :=
  ((sp.ents.mapIdx (fun i e => (i, e, pairDist x e))).filter (fun q =>
    q.2.1.present && q.2.1.modes.testBit x.mode && zoneOk x.zone q.2.1 && (x.aperture == 0 || q.2.2 ≤ 256 * x.aperture) &&
      (x.mode != 0 || behind q.2.1 (256 * q.2.1.x - x.x) (256 * q.2.1.y - x.y) (256 * q.2.1.z - x.z))))

/-- The inputs that a gain law depends on, beside the loudspeaker. -/
def lawInputs (m : Mach) (x : Obj) : List Int :=
  [(x.mode : Int), x.x, x.y, x.z, (x.spread : Int), (x.rolloff : Int), (x.aperture : Int), (x.refDist : Int), (x.zone : Int),
   (rd m F.OBJ_NEAR_MM : Int), (m.dk.live.digest : Int)]

/-- The geometric part of a pair: loudspeaker, glaw, geometric delay, causality clamp and the delay without it. -/
def pairLaws (m : Mach) (sp : SpkTable) (x : Obj) : List (Nat × Int × Int × Bool × Int) :=
  let dnear := 256 * max x.refDist (rd m F.OBJ_NEAR_MM)
  let rate := rateHz m
  match x.mode with
  | 0 => (reach sp x).map (fun q =>
      let dist := q.2.2
      let rdist := dist - 256 * x.refDist
      let d := (rdist * rate + sp.speed / 2) / sp.speed
      let free := (((dist : Int) - 256 * (x.refDist : Int)) * (rate : Int) + (sp.speed / 2 : Nat)) / (sp.speed : Int)
      let g : Nat := if dist ≤ dnear then 2 ^ 30 else 2 ^ 30 * dnear / dist
      (q.1, (g : Int), (d : Int), decide (dist < 256 * x.refDist), free))
  | 1 => ((panGains sp x).filter (fun q => 0 < rndDiv q.2 (2 ^ 50) &&
        (match sp.ents[q.1]? with | some e => e.present && e.modes.testBit 1 | none => false))).map
      (fun q => (q.1, lawWord (lawInputs m x ++ [(q.1 : Int)]) q.2, 0, false, 0))
  | _ =>
    let l := reach sp x
    let e : Int := if x.mode = 3 then (x.rolloff * (32768 - x.spread) : Nat) else (x.rolloff * 32768 : Nat)
    let ws := l.map (fun q => (q.1, exp2Q (-(log2Q (max q.2.2 dnear) dnear * e / (4096 * 32768)))))
    let n := sqrtQ ((ws.map (fun q => mulQ q.2 q.2)).sum)
    ws.map (fun q => (q.1, lawWord (lawInputs m x ++ [(q.1 : Int)]) (divQ q.2 n), 0, false, 0))

/-- The candidate pairs of an object with their targets. -/
def targets (m : Mach) (sp : SpkTable) (o : Nat) : List Tgt :=
  let x := objOf m o
  let n := objLine m o
  let dmax : Int := 256 * ((n : Int) - 2 * (spd m : Int) - 8) - 1
  (pairLaws m sp x).filterMap (fun q => match sp.ents[q.1]? with
    | none => none
    | some e =>
      let d := q.2.2.1 + (e.delayTrim : Int)
      let cut := n != 0 && decide (dmax < d)
      some { spk := q.1, d := if cut then dmax else d, g := max 0 (min (2 ^ 31 - 1) (mulq (mulq x.gain q.2.1) e.gainTrim)),
             near := q.2.2.2.1, free := q.2.2.2.2 + (e.delayTrim : Int), cutAt := if cut then some d else none })

/-! Selection (R294-R298, R306, R307). -/

/-- The objects that a renderer-input node of the live deck names. -/
def namedObjs (b : DeckBody) : List Nat :=
  b.nodes.filterMap (fun d => if d.typ = 0x0D then (match lookN b.psets d.pset with | some (.object o) => some o | _ => none) else none)

/-- The candidates of this deal by object. -/
def candidates (m : Mach) : List (Nat × List Tgt) :=
  match m.dk.live.body.speakers with
  | none => []
  | some sp =>
    let named := namedObjs m.dk.live.body
    ((m.objs.filter (fun p => p.2.enable && p.2.state != 0 && named.contains p.1 && p.1 < objCount m)).map
      (fun p => (p.1, targets m sp p.1))).filter (fun p => !p.2.isEmpty)

/-- A candidate's target. -/
def tgtOf (cs : List (Nat × List Tgt)) (o i : Nat) : Option Tgt :=
  match lookN cs o with
  | some l => l.find? (fun t => t.spk == i)
  | none => none

/-- Whether an object's pairs fade whole in this deal: MODE or FINE changed, or it arrived at a JUMP point (R296, R307). -/
def fresh (m : Mach) (o : Nat) : Bool := (objOf m o).refresh == 2 || (objOf m o).jumped

/-- The rebase of a line that acts in the deal: its length has changed (08 R238). -/
def rebaseNow (m : Mach) (k : Nat) : Option Rebase :=
  match mfind m.rend.rebase k with
  | some r => if r.deal = m.deal && r.size != lineSize (lineOf m k) then some r else none
  | none => none

/-- A pair's delay at the end of the deal before, cut to the line where the line has been resized at this boundary (08 R238). -/
def rebased (m : Mach) (o : Nat) (d : Int) : Int := if (rebaseNow m o).isSome then min d (256 * ((objLine m o : Int) - 1)) else d

/-- The pairs that go on from the deal before (R296). -/
def carried (m : Mach) (cs : List (Nat × List Tgt)) : SMap Pair :=
  m.rend.pairs.map (fun q =>
    let p := { q.2 with d1 := rebased m (q.1 / 256) q.2.d1, was := q.2.d1 }
    match tgtOf cs (q.1 / 256) (q.1 % 256), fresh m (q.1 / 256) with
    | some t, false => (q.1, { p with st := 2, d0 := p.d1, d1 := t.d, g0 := p.g1, g1 := t.g })
    | _, _ => (q.1, { p with st := 3, d0 := p.d1, g0 := p.g1, g1 := 0 }))

/-- Slots of a pair (R295). -/
def slotsOf (p : Pair) : Nat := if p.fine then 4 else 1

/-- The selection in progress (R297). -/
structure Sel where
  pairs : SMap Pair
  used : Nat
  displaced : List Nat := []
  deferred : List Nat := []
  wanted : Nat := 0
deriving DecidableEq, Repr

/-- Slots of an object's continuing pairs. -/
def goingSlots (t : SMap Pair) (o : Nat) : Nat := ((t.filter (fun q => q.1 / 256 == o && q.2.st == 2)).map (fun q => slotsOf q.2)).sum

/-- The objects to displace, from the highest class and number down, until they free enough slots: none where they cannot. -/
def victims (t : SMap Pair) : Nat → List Nat → Option (List Nat)
  | 0, _ => some []
  | _ + 1, [] => none
  | short, o :: os => (victims t (short - goingSlots t o) os).map (fun l => o :: l)

/-- The selection key of an object: class, then number. -/
def selKey (m : Mach) (o : Nat) : Nat := (objOf m o).trump * 1024 + o

/-- One object's turn in the selection. -/
def selectObj (m : Mach) (cs : List (Nat × List Tgt)) (limit : Nat) (o : Nat) (s : Sel) : Sel :=
  let x := objOf m o
  let new := ((lookN cs o).getD []).filter (fun t => (mfind s.pairs (o * 256 + t.spk)).isNone)
  let need := new.length * (if x.fine then 4 else 1)
  if s.displaced.contains o || fresh m o || new.isEmpty then s
  else if s.used + need ≤ limit then
    { s with
      pairs := new.foldl (fun t g => mput (o * 256 + g.spk) { st := 1, d0 := g.d, d1 := g.d, g0 := 0, g1 := g.g, fine := x.fine } t) s.pairs
      used := s.used + need }
  else
    let going := dedup ((s.pairs.filter (fun q => q.2.st == 2 && x.trump < (objOf m (q.1 / 256)).trump)).map (fun q => q.1 / 256))
    let order := (sortNat (going.map (selKey m))).reverse.map (fun k => k % 1024)
    let s1 := { s with deferred := s.deferred ++ [o], wanted := s.wanted + need }
    match victims s.pairs (s.used + need - limit) order with
    | none => s1
    | some vs =>
      { s1 with
        pairs := s.pairs.map (fun q => if vs.contains (q.1 / 256) && q.2.st = 2 then
          (q.1, { q.2 with st := 3, d1 := q.2.d0, g1 := 0 }) else q)
        displaced := s.displaced ++ vs }

/-- The slot limit of the deal (R295). -/
def slotLimit (m : Mach) : Nat := min (rd m F.OBJ_PAIR_LIMIT_SLOTS) (if m.frm.rate = 1 then 65536 else 131072)

/-- The reports of R298. -/
def budget (s : Sel) (limit : Nat) (m : Mach) : Mach :=
  let m1 := bump F.OBJ_DEFER_CNT_COUNT s.deferred.length (bump F.OBJ_DISPLACE_CNT_COUNT s.displaced.length m)
  let m2 := onlyIf (!s.displaced.isEmpty) (wr F.OBJ_RFLAGS_DISPLACED 1) m1
  let m3 := onlyIf (!s.deferred.isEmpty && !m.rend.deferRun)
    (fun m => raise 0x0D 0x0D04
      [(2, s.deferred.headD 0), (2, s.deferred.length), (4, s.used + s.wanted), (4, limit), (2, s.displaced.length), (2, 0)]
      (wr F.OBJ_RFLAGS_BUDGET 1 m)) m2
  setRend { m3.rend with deferRun := !s.deferred.isEmpty } m3

/-- The clamps of a pair: cause, unclamped value and clamped value (R299, R306, R309). -/
def pairClamps (s : Nat) (t : Tgt) (p : Pair) : Pair × List (Nat × Int × Int) :=
  let lim : Int := 64 * (s : Int)
  let near := if t.near then [(3, t.free, p.d1)] else []
  let cutTap := match t.cutAt with | some r => [(2, r, p.d1)] | none => []
  if p.st = 2 && decide (lim < (p.d1 - p.d0).natAbs) then
    let d := if p.d0 < p.d1 then p.d0 + lim else p.d0 - lim
    ({ p with d1 := d }, near ++ cutTap ++ [(1, p.d1 - p.d0, d)])
  else (p, near ++ cutTap)

/-- Every active pair is clamped: the pairs, and the clamps as cause, object, loudspeaker, unclamped and clamped value. -/
def clampAll (m : Mach) (cs : List (Nat × List Tgt)) (t : SMap Pair) : SMap Pair × List (Nat × Nat × Nat × Int × Int) :=
  let l := t.map (fun q =>
    if q.2.st = 3 then (q, [])
    else match tgtOf cs (q.1 / 256) (q.1 % 256) with
      | none => (q, [])
      | some g =>
        let r := pairClamps (spd m) g q.2
        ((q.1, r.1), r.2.map (fun c => (c.1, q.1 / 256, q.1 % 256, c.2.1, c.2.2))))
  (l.map Prod.fst, (l.map Prod.snd).flatten)

/-- The counter, flag and event of one cause of clamp; runs holds the objects in a run of it. -/
def clampReport (cause : Nat) (cnt flg : Fld) (runs : List Nat) (hits : List (Nat × Nat × Nat × Int × Int)) (m : Mach) : Mach :=
  let h := hits.filter (fun c => c.1 == cause)
  let os := dedup (h.map (fun c => c.2.1))
  if h.isEmpty then m
  else
    forEach (os.filter (fun o => !runs.contains o))
      (fun o m => match h.find? (fun c => c.2.1 == o) with
        | some c => raise 0x0D 0x0D05 [(2, o), (1, cause), (1, c.2.2.1), (4, s2n 32 c.2.2.2.1), (4, s2n 32 c.2.2.2.2), (4, 0)] m
        | none => m)
      (wr flg 1 (bump cnt h.length m))

/-- The objects with a clamp of a cause. -/
def clampObjs (cause : Nat) (hits : List (Nat × Nat × Nat × Int × Int)) : List Nat :=
  dedup ((hits.filter (fun c => c.1 == cause)).map (fun c => c.2.1))

/-- The pair probe and the use registers (R325). -/
def showPairs (used : Nat) (m : Mach) : Mach :=
  let k := rd m F.OBJ_PROBE_SEL_OBJECT * 256 + rd m F.OBJ_PAIR_PROBE_SEL_SPEAKER
  let p := (mfind m.rend.pairs k).getD { st := 0, d0 := 0, d1 := 0, g0 := 0, g1 := 0, fine := false }
  wr F.OBJ_PAIR_USE_SLOTS used (wr F.OBJ_PAIR_PEAK_SLOTS (max used (rd m F.OBJ_PAIR_PEAK_SLOTS))
    (wr F.OBJ_PAIR_PROBE_GAIN_GAIN (s2n 32 p.g1) (wr F.OBJ_PAIR_PROBE_DELAY_DELAY (s2n 24 p.d1)
      (wr F.OBJ_PAIR_PROBE_DELAY_STATE p.st (wr F.OBJ_PAIR_PROBE_DELAY_FINE (b2n p.fine) m)))))

/-- The slots of the live deck's delay nodes (R295). -/
def delaySlots (m : Mach) : Nat := (m.dk.live.body.nodes.filter (fun d => d.typ == 0x06)).length

/-- The trajectory engine's pairs of a deal (R294-R298); while it is stopped, and before the first lock, no pair is active (R324; 01 R15). -/
def selectPairs (m : Mach) : Mach :=
  if m.rend.asleep || !flag m F.TIM_STATE_EVER_LOCKED then showPairs (if m.rend.asleep then 0 else delaySlots m) (setRend { m.rend with pairs := [], slope := [], range := [], near := [], deferRun := false } m)
  else
    let cs := candidates m
    let t0 := carried m cs
    let limit := slotLimit m
    let order := (sortNat (cs.map (fun p => selKey m p.1))).map (fun k => k % 1024)
    let s := order.foldl (fun s o => selectObj m cs limit o s)
      { pairs := t0, used := delaySlots m + (t0.map (fun q => slotsOf q.2)).sum }
    let r := clampAll m cs s.pairs
    let m1 := budget s limit m
    let m2 := clampReport 3 F.OBJ_NEAR_CNT_COUNT F.OBJ_RFLAGS_NEAR m.rend.near r.2
      (clampReport 2 F.OBJ_RANGE_CNT_COUNT F.OBJ_RFLAGS_RANGE m.rend.range r.2
        (clampReport 1 F.OBJ_SLOPE_CNT_COUNT F.OBJ_RFLAGS_SLOPE m.rend.slope r.2 m1))
    showPairs s.used (setRend { m2.rend with pairs := r.1, slope := clampObjs 1 r.2, range := clampObjs 2 r.2, near := clampObjs 3 r.2 } m2)

/-- Fading pairs release their slots at commit (R296). -/
def pairsCommit (m : Mach) : Mach := setRend { m.rend with pairs := m.rend.pairs.filter (fun q => q.2.st != 3) } m

/-! The tap engine (R305, R308-R311). -/

/-- The 4-tap coefficients of a phase (R310). -/
def lagrange (phi : Nat) : List Int :=
  let u : Int := phi
  let den : Int := 6 * 256 ^ 3
  [-u * (u - 256) * (u - 512), 3 * (u + 256) * (u - 256) * (u - 512), -3 * (u + 256) * u * (u - 512), (u + 256) * u * (u - 256)].map
    (fun v => rndDiv (v * 2 ^ 30) den)

/-- Terms of the modified Bessel function of order 0 in q = x^2/4. -/
def besselSeries : Nat → Int → Int → Nat → Int
  | 0, _, _, _ => 0
  | n + 1, q, t, k => t + besselSeries n q (mulQ t q / ((k * k : Nat) : Int)) (k + 1)

/-- I0 of 7 times the root of 1 - (n/2048)^2, n up to 2,048. -/
def kaiserTop (n : Nat) : Int := besselSeries 48 (49 * ((2048 * 2048 - n * n : Nat) : Int) * 2 ^ 80 / (4 * 2048 * 2048)) oneQ 1

/-- The fine coefficient at a distance of n/256 samples, before rounding (R310). -/
def fineTap (n : Nat) : Int :=
  let sinc := if n = 0 then oneQ else divQ (sinTurn n 512) (piQ * (n : Int) / 256)
  divQ (mulQ sinc (kaiserTop n)) (kaiserTop 0)

/-- A list with the element that is largest, lowest index first, raised by a number. -/
def raiseLargest (l : List Int) (by_ : Int) : List Int :=
  let big := l.foldl max (l.headD 0)
  match firstIdx (fun v => v == big) l 0 with
  | some i => lset l i (fun v => v + by_)
  | none => l

/-- The fine coefficients of a phase, from -7 to 8 (R310). -/
def fineTaps (phi : Nat) : List Int :=
  let l := (List.range 16).map (fun i : Nat => rndDiv (fineTap ((256 * ((i : Int) - 7) - (phi : Int)).natAbs)) (2 ^ 50))
  raiseLargest l (2 ^ 30 - l.sum)

/-- A pair's delay and gain at sample k (R305). -/
def pairAt (s k : Nat) (p : Pair) : Int × Int :=
  if p.st = 1 then (p.d1, gainRamp 0 p.g1 k s)
  else if p.st = 2 then (gainRamp p.d0 p.d1 k s, gainRamp p.g0 p.g1 k s)
  else (p.d0, gainRamp p.g0 0 k s)

/-- The products of one pair for output sample k at a delay and gain: coefficient and line sample (R308, R311). -/
def tapTerms (m : Mach) (k o : Nat) (fine : Bool) (d0 g : Int) : List (Int × Int) :=
  let s := spd m
  let d := if fine && m.frm.rate != 1 then max d0 512 else d0
  let at_ : Int := ((m.deal * s + k : Nat) : Int) - (s : Int) + (-d) / 256
  let phi := ((-d) % 256).toNat
  let hs := if fine then fineTaps phi else lagrange phi
  let lo := if fine then at_ - 7 else at_ - 1
  hs.mapIdx (fun j h => (mulq g h, lineAt (lineOf m o) (lo + (j : Int))))

/-- The products of one pair for output sample k. In the deal in which its line has been resized, the pair's sample goes from the one at the
delay before to the one at the rebased delay with the weights of 08 R238, and enters the sum whole (assumption log 104). -/
def pairTerms (m : Mach) (k o : Nat) (p : Pair) : List (Int × Int) :=
  let dg := pairAt (spd m) k p
  let now := tapTerms m k o p.fine dg.1 dg.2
  if (lineOf m o).wait then []
  else if (rebaseNow m o).isSome && p.st != 1 then
    let w := lineWeights (spd m) k
    [(2 ^ 30, (rnd [(w.1, (rnd (tapTerms m k o p.fine p.was dg.2)).1), (w.2, (rnd now).1)]).1)]
  else now

/-- The output samples of a loudspeaker, each with whether its write-back saturated; a loudspeaker without a pair writes zero. -/
def spkSamples (m : Mach) (i : Nat) : List (Int × Bool) :=
  let ps := m.rend.pairs.filter (fun q => q.1 % 256 == i)
  (List.range (spd m)).map (fun k => rnd ((ps.map (fun q => pairTerms m k (q.1 / 256) q.2)).flatten))

/-- The tap engine over the deal: every present loudspeaker's output slot is written (R311); unfinished, its slots carry the fade of
R35 (02 R34). -/
def tapEngine (finished : Bool) (m : Mach) : Mach :=
  match m.dk.live.body.speakers with
  | none => m
  | some sp =>
    let es := (sp.ents.mapIdx (fun i e => (i, e))).filter (fun q => q.2.present)
    if !finished then
      forEach es (fun q m => busWrite q.2.slot (fadeOut ((busPrev m q.2.slot).getLast?.getD 0) (spd m)) m) m
    else
      let outs := es.map (fun q => (q.2.slot, if m.rend.asleep then (zeros (spd m)).map (fun v => (v, false)) else spkSamples m q.1))
      let sats := (outs.map (fun q => flags q.2)).sum
      let m1 := forEach outs (fun q m => busWrite q.1 (q.2.map Prod.fst) m) m
      onlyIf (sats != 0) (fun m => wr F.OBJ_RFLAGS_SAT 1 (bump F.OBJ_SAT_CNT_COUNT sats m)) m1

/-! Power and resets (R317, R324). -/

/-- The render engine stops; fold loses the contents of the lines. -/
def renderSleep (fold : Bool) (m : Mach) : Mach :=
  setRend { m.rend with pairs := [], asleep := true, slope := [], range := [], near := [], deferRun := false,
                        lines := if fold then m.rend.lines.map (fun p => (p.1, { p.2 with data := [] })) else m.rend.lines } m

/-- The render engine wakes: every line sample reads zero until written. -/
def renderWake (m : Mach) : Mach :=
  setRend { m.rend with asleep := false, lines := m.rend.lines.map (fun p => (p.1, { p.2 with data := [] })) } m

/-- A render, power-on, pin or system reset of the render engine. The blocks that a measurement holds until its end stay in the books
(R316; 12 R343). -/
def renderReset (m : Mach) : Mach :=
  { m with rend := { asleep := m.rend.asleep, allocs := ((m.cor.meas.map (fun x => x.blocks)).getD []).length }, regs := clearRange 0xF040 0xF100 m.regs }

end Sys2Proof.Machine
end

