-- ==== Sys2Proof/Machine/Graph.lean ====
section
/-! DEFINITION. The graph of a deck (02 R34, R39, 08 R216, R219, R235): what feeds a slot, the consumers, and the paths that
unfinished work touches. -/
namespace Sys2Proof.Machine

/-- A step of a path: the nodes and engine tasks it passes, the slots it comes from and the slot it leads to. -/
structure Edge where
  ids : List Nat
  ins : List Nat
  out : Nat
deriving DecidableEq, Repr

/-- The tap engine's task among node indices. -/
def tapTask : Nat := 8192
/-- The trajectory engine's task among node indices. -/
def trajTask : Nat := 8193

/-- The slots of a role. -/
def roleSlots (b : DeckBody) (r : Nat) : List Nat := (b.roles.filter (fun p => p.2 == r)).map Prod.fst

/-- The steps of a deck: its nodes, and the renderer from each of its inputs to every render output (10, 11 R308, R311). -/
def edges (b : DeckBody) : List Edge :=
  b.nodes.flatMap (fun d => d.outs.map (fun o => ⟨[d.ix], d.ins, o⟩)) ++
  (b.nodes.filter (fun d => d.typ == 0x0D)).flatMap
    (fun d => (roleSlots b 4).map (fun o => ⟨[d.ix, tapTask, trajTask], d.ins, o⟩))

/-- The steps of the voter: a critical slot from its copies' private slots (11 R320). -/
def voterEdges (b : DeckBody) : List Edge := b.crit.flatMap (fun c => c.copies.map (fun p => ⟨[], [p.out], c.slot⟩))

/-- The slots upstream of a list of slots, themselves included; n bounds the number of steps. -/
def upSlots (es : List Edge) : Nat → List Nat → List Nat
  | 0, l => l
  | n + 1, l =>
    let more := dedup (l ++ (es.filter (fun e => l.contains e.out)).flatMap (fun e => e.ins))
    if more.length = l.length then l else upSlots es n more

/-- The slots upstream of a slot. -/
def upOf (es : List Edge) (c : Nat) : List Nat := upSlots es (es.length + 1) [c]

/-- The nodes and tasks upstream of a slot. -/
def upIds (es : List Edge) (c : Nat) : List Nat :=
  let u := upOf es c
  dedup ((es.filter (fun e => u.contains e.out)).flatMap (fun e => e.ids))

/-- Whether a node writes a delay line from its input. -/
def feedsLine (d : NodeD) : Bool := d.typ == 0x06 || d.typ == 0x0D

/-- The nodes that write a delay line from a slot. -/
def lineNodes (b : DeckBody) (c : Nat) : List Nat := (b.nodes.filter (fun d => feedsLine d && d.ins.contains c)).map (fun d => d.ix)

/-- The slots that active talker entries read (07 R211). -/
def talkSlots (m : Mach) : List Nat := (m.str.chmap.filter (fun p => p.2.kind == 2 && p.2.st == 1)).map (fun p => p.2.slot)

/-- The consumers of a deck: egress slots, slots that talker entries read, and inputs of delay lines (02 R34, 08 R235). -/
def consumers (b : DeckBody) (talk : List Nat) : List Nat :=
  sortNat (roleSlots b 5 ++ talk ++ (b.nodes.filter feedsLine).flatMap (fun d => d.ins))

/-- Whether unfinished work lies on a path to a consumer: upstream of it, or in the node that writes its line. DESIGN CHOICE (assumption log
80): although the input of a delay line is itself a consumer at which a path ends (R34), a path also runs on through the delay node to the
consumers after it, so an unfinished node before a line reaches those too in the same deal. -/
def isHit (b : DeckBody) (bad : List Nat) (c : Nat) : Bool :=
  (upIds (edges b) c ++ lineNodes b c).any (fun i => bad.contains i)

/-- The sources of the paths to a list of slots: slots that no step writes, and slots written by a node without inputs. -/
def sourcesOf (es : List Edge) (l : List Nat) : List Nat :=
  l.filter (fun x => !(es.any (fun e => e.out == x && !e.ins.isEmpty)))

/-- The unfinished paths to a consumer, one for each source slot (R39). -/
def badPaths (b : DeckBody) (bad : List Nat) (c : Nat) : Nat :=
  let es := edges b
  let u := upOf es c
  if (lineNodes b c).any (fun i => bad.contains i) then (sourcesOf es u).length
  else
    (dedup ((es.filter (fun e => u.contains e.out && e.ids.any (fun i => bad.contains i))).flatMap
      (fun e => sourcesOf es (if e.ins.isEmpty then [e.out] else upSlots es (es.length + 1) e.ins)))).length

/-- The route hash of a slot. -/
def hashOf (b : DeckBody) (c : Nat) : Option Nat := lookN b.hashes c

/-- The changed consumers of a cut (R235). -/
def changedCons (old new : DeckBody) (talk : List Nat) : List Nat :=
  (sortNat (consumers new talk ++ consumers old talk)).filter (fun c => hashOf old c != hashOf new c)

/-- The types whose nodes run from the retiring deck on a copy of their state (R236). Renderer inputs, correction, intercom and
bridge nodes and delay nodes whose line stays are shared with the live deck. -/
def runsRetiring (new : DeckBody) (d : NodeD) : Bool :=
  (1 ≤ d.typ && d.typ ≤ 0x0A || d.typ == 0x0C || d.typ == 0x11 || d.typ == 0x12) &&
    !(d.typ == 0x06 && new.lines.any (fun l => l.node && l.id == d.id))

/-- The retiring deck's nodes that run during the fade, in ascending index. -/
def retireRun (old new : DeckBody) (chg : List Nat) : List NodeD :=
  let es := edges old ++ voterEdges old
  let ids := chg.flatMap (upIds es)
  (sortNat (old.nodes.map (fun d => d.ix))).filterMap
    (fun i => old.nodes.find? (fun d => d.ix == i && ids.contains i && runsRetiring new d))

/-- The nodes of a deck in ascending index (R219). -/
def inOrder (b : DeckBody) : List NodeD := (sortNat (b.nodes.map (fun d => d.ix))).filterMap (fun i => b.nodes.find? (fun d => d.ix == i))

end Sys2Proof.Machine
end

