-- ==== Sys2Proof/Machine/Bridge.lean ====
section
/-! DEFINITION. The rate bridges (02 R29, R30): the channels that a deck allocates, and the loss and the lock of the channels of a B
domain, which is the port direction that they serve (R27). -/
namespace Sys2Proof.Machine

/-- The parameter set of a node. -/
def parOf (b : DeckBody) (d : NodeD) : Par := (lookN b.psets d.pset).getD .plain

/-- The A-B bridge channels of a deck, each with the direction that it serves (13 R358). -/
def bridgeDirs (b : DeckBody) : List (Nat × Nat) :=
  b.nodes.filterMap (fun d => match parOf b d with | .bridge ch dir _ => some (ch, dir) | _ => none)

/-- The rate-bridge channels that a deck allocates, each with whether it is an A-C channel (R29). -/
def bridgesOf (b : DeckBody) : List (Nat × Bool) :=
  (bridgeDirs b).map (fun p => (p.1, false)) ++ b.players.map (fun p => (p.2, true))

/-- The direction that a channel of the live deck serves. -/
def bridgeDir (m : Mach) (ch : Nat) : Option Nat := lookN (bridgeDirs m.dk.live.body) ch

/-- GRF_BRIDGE_LOCK. -/
def showBridges (m : Mach) : Mach :=
  forEach (List.range 4) (fun j m => wri F.GRF_BRIDGE_LOCK_LOCKED j
    ((m.frm.brStat.filter (fun p => p.1 / 32 == j && (p.2 == 1 || p.2 == 3))).map (fun p => 2 ^ (p.1 % 32))).sum m) m

/-- A bridge event (02 Table 2.6). -/
def bridgeEvent (code ch dir rate : Nat) (m : Mach) : Mach := raise 0x0A code [(1, ch), (1, 0), (2, dir), (4, rate), (8, 0)] m

/-- A channel's state. -/
def setBridge (ch st : Nat) (m : Mach) : Mach := showBridges (setFrm { m.frm with brStat := mset 0 ch st m.frm.brStat } m)

/-- A delivering channel fades out over the deal, and one that was to fade in stays at zero (R30). -/
def channelLost (dir rate ch : Nat) (m : Mach) : Mach :=
  let st := mget 0 m.frm.brStat ch
  if st = 1 || st = 3 then bridgeEvent 0x0A01 ch dir rate (setBridge ch (if st = 1 then 2 else 0) m) else m

/-- A lost channel restarts and fades in (R30). -/
def channelLocked (dir rate ch : Nat) (m : Mach) : Mach :=
  let st := mget 0 m.frm.brStat ch
  if st = 0 || st = 2 then bridgeEvent 0x0A02 ch dir rate (setBridge ch 3 m) else m

/-- The channels of the live deck that serve a direction. -/
def domainChs (m : Mach) (dir : Nat) : List Nat := ((bridgeDirs m.dk.live.body).filter (fun p => p.2 == dir)).map Prod.fst

/-- The machine with the deals that a direction's clock has been in range. -/
def setInRange (dir n : Nat) (m : Mach) : Mach :=
  match mfind m.sap.dirs dir with
  | some x => { m with sap := { m.sap with dirs := mput dir { x with inRange := n } m.sap.dirs } }
  | none => m

/-- The clock of a B domain stops or leaves its rate: every channel of the domain is lost, and its deals in range are counted anew (R30). -/
def domainLost (dir rate : Nat) (m : Mach) : Mach := setInRange dir 0 (forEach (domainChs m dir) (channelLost dir rate) m)

/-- BRIDGE_LOST: what a channel reports holds for its whole domain. -/
def bridgeLost (ch rate : Nat) (m : Mach) : Mach :=
  match bridgeDir m ch with
  | some dir => domainLost dir rate m
  | none => m

/-- Whether the clock of a direction has been in range for 64 consecutive deals (R30). -/
def inRange64 (m : Mach) (dir : Nat) : Bool := match mfind m.sap.dirs dir with | some x => decide (64 ≤ x.inRange) | none => false

/-- BRIDGE_LOCKED: the channels of a domain whose clock has been in range for 64 deals restart. -/
def bridgeLocked (ch rate : Nat) (m : Mach) : Mach :=
  match bridgeDir m ch with
  | some dir => onlyIf (inRange64 m dir) (forEach (domainChs m dir) (channelLocked dir rate)) m
  | none => m

end Sys2Proof.Machine
end

