-- ==== Sys2Proof/Machine/Ports.lean ====
section
/-! DEFINITION. The serial and biphase ports (13 R353-R379). Directions 0-15 receive and 16-31 transmit on SAP0-SAP15, 32-39 are the
biphase receivers and 40-47 the biphase transmitters (R353). -/
namespace Sys2Proof.Machine

/-- The machine with its ports replaced. -/
def setSap (x : SapSt) (m : Mach) : Mach := { m with sap := x }

/-- A running direction. -/
def dirOf (m : Mach) (d : Nat) : Option Dir := mfind m.sap.dirs d

/-- The machine with a running direction at a value. -/
def setDir_ (d : Nat) (x : Dir) (m : Mach) : Mach := setSap { m.sap with dirs := mput d x m.sap.dirs } m

/-- A port counter raised by n (R378). -/
def dirCount (d id n : Nat) (m : Mach) : Mach :=
  let k := d * 2 ^ 16 + id
  setSap { m.sap with cnt := mset 0 k (mget 0 m.sap.cnt k + n) m.sap.cnt } m

/-- Whether a direction transmits. -/
def isTx (d : Nat) : Bool := (16 ≤ d && d < 32) || 40 ≤ d

/-- The second index of a serial direction's registers: 0 transmit, 1 receive (Table 13.2). -/
def sapSide (d : Nat) : Nat := if d < 16 then 1 else 0

/-- A serial direction's register field. -/
def sapRd (m : Mach) (f : Fld) (d : Nat) : Nat := rdij m f (d % 16) (sapSide d)

/-- A serial direction's register field written. -/
def sapWr (f : Fld) (d v : Nat) (m : Mach) : Mach := wrij f (d % 16) (sapSide d) v m

/-- The status registers of a direction. -/
def showPort (d : Nat) (m : Mach) : Mach :=
  let x := dirOf m d
  let on := x.isSome
  let y := x.getD {}
  let now := m.deal * spd m
  let silent := on && (if y.domA then decide (now < y.begin_) || y.zlo.isSome else !y.data)
  if d < 32 then
    sapWr F.SAP_x_STAT_RUN d (b2n on) (sapWr F.SAP_x_STAT_SILENT d (b2n silent) (sapWr F.SAP_x_STAT_DOMAIN_A d (b2n (on && y.domA))
      (sapWr F.SAP_x_STAT_SLIPPED d (b2n (on && y.slipped)) (sapWr F.SAP_x_STAT_CLOCK d (b2n (on && y.clock))
        (wr F.SAP_RUN_DIR (putBit (rd m F.SAP_RUN_DIR) d on) m)))))
  else if d < 40 then wri F.AES_RX_STAT_RUN (d - 32) (b2n on) m
  else wri F.AES_TX_STAT_RUN (d - 40) (b2n on) (wri F.AES_TX_STAT_DOMAIN_A (d - 40) (b2n (on && y.domA)) m)

/-! Rate measurement (R364). -/

/-- The code of the standard rate within 1,000 ppm of a rate in mHz, 0 where there is none. -/
def nominalOf (mhz : Nat) : Nat :=
  let rates := [32000, 44100, 48000, 88200, 96000, 176400, 192000]
  match firstIdx (fun r => r * 999000 ≤ mhz * 1000 && mhz * 1000 ≤ r * 1001000) rates 1 with
  | some k => k
  | none => 0

/-- A rate-change record of a direction enters the capture FIFO of its block: 1 clock appeared, 2 stopped, 3 rate moved. -/
def rateRecord (d cause mhz : Nat) (m : Mach) : Mach :=
  let x := (dirOf m d).getD {}
  let k := if d < 32 then 0x0800 else 0x0900
  fifoPush k (k + 1) [(1, d), (1, cause), (1, nominalOf mhz), (1, 0), (4, x.rate), (4, mhz), (4, 0)]
    (setDir_ d { x with rate := mhz, clock := cause != 2 } m)

/-- RATE and NOMINAL of a direction. -/
def showRate (d mhz : Nat) (m : Mach) : Mach :=
  if d < 32 then sapWr F.SAP_x_RATE_MHZ d mhz (sapWr F.SAP_x_RATE_NOMINAL d (nominalOf mhz) m)
  else if d < 40 then wri F.AES_RX_RATE_MHZ (d - 32) mhz (wri F.AES_RX_RATE_NOMINAL (d - 32) (nominalOf mhz) m)
  else m

/-- The measured rate that a direction shows. -/
def rateShown (m : Mach) (d : Nat) : Nat := if d < 32 then sapRd m F.SAP_x_RATE_MHZ d else rdi m F.AES_RX_RATE_MHZ (d - 32)

/-- Whether a rate lies more than 1,000 ppm from another (02 R30). -/
def offRate (old new : Nat) : Bool := decide (old * 1000 < (if old < new then new - old else old - new) * 1000000)

/-- The rate of a running direction is written every 64 deals; one that has left the rate measured before by more than 1,000 ppm is lost to
its bridges (02 R30). -/
def rateUpdate (d mhz : Nat) (m : Mach) : Mach :=
  match dirOf m d with
  | none => m
  | some x =>
    let old := rateShown m d
    let m1 := onlyIf (!x.domA && old != 0 && decide (d < 40) && offRate old mhz) (domainLost d mhz) (showRate d mhz m)
    let diff := if x.rate < mhz then mhz - x.rate else x.rate - mhz
    onlyIf (decide (rd m F.SAP_RATE_TOL_PPM * x.rate < diff * 1000000)) (rateRecord d 3 mhz) m1

/-- SAP_RATE_UPDATE. -/
def execSapRateUpdate (d mhz : Nat) (s : State) : Host.Outcome State Fault Refusal := onMach (rateUpdate d mhz) s

/-- A direction whose clock comes from a pin has seen no frame start for 1 ms. -/
def clockLoss (d : Nat) (m : Mach) : Mach :=
  match dirOf m d with
  | some x => onlyIf (x.clock && !x.master && decide (d < 32)) (fun m => domainLost d 0 (showPort d (rateRecord d 2 0 m))) m
  | none => m

/-- SAP_CLOCK_LOSS. -/
def execSapClockLoss (d : Nat) (s : State) : Host.Outcome State Fault Refusal := onMach (clockLoss d) s

/-! Starting (R356-R358, R361, R362). -/

/-- Slot width in bits of a WIDTH code. -/
def widthOf (c : Nat) : Nat := if c = 0 then 16 else if c = 1 then 24 else 32
/-- Word length in bits of a WORD code. -/
def wordOf (c : Nat) : Nat := if c = 0 then 16 else if c = 1 then 20 else if c = 2 then 24 else 32

/-- The output of a master clock group (R357). -/
def groupOut (m : Mach) (g : Nat) : Aligner := mget {} m.clk.als (8 + g)

/-- Whether a group drives frames of a length: it runs, its BITS are that length and its rates are in range (R362). -/
def groupFits (m : Mach) (g bits : Nat) : Bool :=
  let o := groupOut m g
  o.st != .stopped && o.bits == bits && o.hz ≤ 49152000 * o.den && 32000 * o.den * bits ≤ o.hz && o.hz ≤ 192000 * o.den * bits

/-- Whether a group's frames fall on the deal grid of domain A (R358). -/
def groupDomA (m : Mach) (g bits : Nat) : Bool :=
  let o := groupOut m g
  o.st != .stopped && o.mode == 0 && o.hz == rateHz m * o.den * bits

/-- SILENT of a direction. -/
def silentOf (m : Mach) (d : Nat) : Nat :=
  if d < 32 then sapRd m F.SAP_x_CFG_SILENT d
  else if d < 40 then rdi m F.AES_RX_CFG_SILENT (d - 32) else rdi m F.AES_TX_CFG_SILENT (d - 40)

/-- A direction as its registers set it up. -/
def setupDir (m : Mach) (d : Nat) : Dir :=
  let x : Dir :=
    if d < 32 then
      { slots := sapRd m F.SAP_x_CFG_SLOTS d + 1, width := widthOf (sapRd m F.SAP_x_CFG_WIDTH d), word := wordOf (sapRd m F.SAP_x_CFG_WORD d),
        grp := sapRd m F.SAP_x_CFG_GROUP d, base := sapRd m F.SAP_x_BASE_SLOT d, master := sapRd m F.SAP_x_CFG_MASTER d == 1,
        tri := isTx d && sapRd m F.SAP_x_CFG_TRI d == 1, mask := sapRd m F.SAP_x_MASK_SLOT d, pmask := sapRd m F.SAP_x_MASK_SLOT d,
        hb := sapRd m F.SAP_x_CFG_HB_EN d == 1, hbPack := sapRd m F.SAP_x_CFG_HB_PACK d == 1, hbFrames := sapRd m F.SAP_x_HB_FRAMES_FRAMES d,
        hbAddr := sapRd m F.SAP_x_HB_LO_ADDR d * 64 + sapRd m F.SAP_x_HB_HI_ADDR d * 2 ^ 32, format := sapRd m F.SAP_x_CFG_FORMAT d,
        bckInv := sapRd m F.SAP_x_CFG_BCK_INV d == 1, fsInv := sapRd m F.SAP_x_CFG_FS_INV d == 1,
        sync := !isTx d && sapRd m F.SAP_x_CFG_TRI d == 1 }
    else if d < 40 then { mask := 3, pmask := 3 }
    else { grp := rdi m F.AES_TX_CFG_GROUP (d - 40), base := rdi m F.AES_TX_BASE_SLOT (d - 40), master := true, mask := 3, pmask := 3 }
  { x with silent := silentOf m d, domA := x.master && groupDomA m x.grp (if d < 32 then x.slots * x.width else 64) }

/-- Bytes of a mirror frame (R369). -/
def hbBytes (x : Dir) : Nat := x.slots * (if x.hbPack then 3 else 4)

/-- Whether the mirror buffer of a direction lies wholly inside a WRITE window (R54, R369). -/
def hbOk (m : Mach) (x : Dir) : Bool := x.hbFrames != 0 && running m && inWindow m.hif.lat true x.hbAddr (x.hbFrames * hbBytes x)

/-- Whether a direction may start (R362). -/
def dirOk (m : Mach) (d : Nat) : Bool :=
  let x := setupDir m d
  (dirOf m d).isNone && x.silent != 0 &&
    (if d < 32 then
      sapRd m F.SAP_x_CFG_WIDTH d != 3 && (2 ≤ sapRd m F.SAP_x_CFG_FORMAT d || x.slots == 2) && x.word ≤ x.width &&
        (!x.master || groupFits m x.grp (x.slots * x.width)) && (!x.domA || x.base + x.slots ≤ 4096) &&
        (!x.hb || hbOk m x)
    else if d < 40 then true
    else groupFits m x.grp 64 && (!x.domA || x.base + 2 ≤ 4096))

/-- A fold state or move suspends port data (17 R458, R465): the deal at which an entry to fold in progress began. -/
def foldEntry (m : Mach) : Option Nat := (m.pwr.move.filter (fun v => v.entry && v.dst == 3)).map (fun v => v.at_)

/-- The deals that a number of silent frames takes, S samples in a deal. -/
def silentDeals (m : Mach) (f : Nat) : Nat := (f + spd m - 1) / spd m

/-- A direction starts (R361). -/
def startDir (data d : Nat) (m : Mach) : Mach :=
  let x := setupDir m d
  let m1 := setDir_ d { x with begin_ := data * spd m, left := x.silent, susp := rd m F.PWR_STATE_STATE == 3 } m
  showPort d (onlyIf x.hb (fun m => sapWr F.SAP_x_HB_POS_FRAME d 0 (sapWr F.SAP_x_HB_POS_ACTIVE d 1 m)) m1)

/-- PORT_START_GROUP (R361, R362). -/
def portStartGroup : Eff := fun c tk m =>
  let mask := u64 c 24
  let ds := bitsOf 48 mask
  let stops := ds.filterMap (fun d => (dirOf m d).bind (fun x => x.stopAt))
  if mask = 0 || 2 ^ 48 ≤ mask then bad m
  else if !stops.isEmpty || (foldEntry m).isSome then
    let m1 := interim tk stBusyStopping (if stops.isEmpty then (foldEntry m).getD 0 else minOf m.deal stops) m
    ({ m1 with hif := { m1.hif with stopped := m1.hif.stopped ++ [⟨c, { tk with interim := true }⟩] } }, { st := none })
  else if !ds.all (dirOk m) then bad m
  else
    let data := m.deal + silentDeals m (maxOf 0 (ds.map (silentOf m)))
    let m1 := forEach ds (startDir data) m
    okM (setSap { m1.sap with starts := m1.sap.starts ++ [⟨mask, data, mask⟩] } m1)

/-- PORT_START_GROUP. -/
def execPortStartGroup (c : Cmd) (s : State) : Host.Outcome State Fault Refusal := onMach (hostRow 0x0501 portStartGroup c) s

/-- PORT_STOP (R363): the stop of each running direction completes at the commit of this deal. -/
def portStop : Eff := fun c _ m =>
  let mask := u64 c 24
  if mask = 0 || 2 ^ 48 ≤ mask then bad m
  else
    okM (setSap { m.sap with
      dirs := m.sap.dirs.map (fun p => if mask.testBit p.1 && p.2.stopAt.isNone then (p.1, { p.2 with stopAt := some m.deal }) else p)
      starts := m.sap.starts.filter (fun x => x.left &&& mask == 0) } m)

/-- PORT_STOP. -/
def execPortStop (c : Cmd) (s : State) : Host.Outcome State Fault Refusal := onMach (hostRow 0x0502 portStop c) s

/-- The data of directions begin: a start whose directions have all begun is reported (R361). -/
def dataBegins (bits : Nat) (m : Mach) : Mach :=
  let l := m.sap.starts.map (fun x => { x with left := andNot 48 x.left bits })
  forEach (l.filter (fun x => x.left == 0)) (fun x m => raise 0x08 0x0803 [(8, x.mask), (8, x.data)] m)
    (setSap { m.sap with starts := l.filter (fun x => x.left != 0) } m)

/-! Slips (R365-R367). -/

/-- The domain time of this boundary in ns. -/
def dealNs (m : Mach) : Nat := m.deal * 125000

/-- Whether a serial direction restarts by itself after a slip. -/
def autoRestart (m : Mach) (d : Nat) : Bool := sapRd m F.SAP_x_CFG_AUTO_RESTART d == 1

/-- The slots by which the channels of a direction stand early at a word of its pins (R366). -/
def rotAt (x : Dir) (pos : Nat) : Nat := ((x.rots.find? (fun p => p.1 ≤ pos)).map Prod.snd).getD 0

/-- The channel that a slot of the pins carries at a sample index. -/
def chanAt (x : Dir) (i j : Nat) : Nat := (j + rotAt x (i * x.slots + j)) % max 1 x.slots

/-- A lost word moves the channels after it one slot on: from the slot that lost it, or from the frame that the check found it in. -/
def rotate (f : FrameIn) (i : Nat) (x : Dir) : Dir :=
  let pos := match f.lost with
    | some j => (i - 1) * x.slots + j
    | none => i * x.slots
  { x with rots := (pos, ((x.rots.head?).map Prod.snd).getD 0 + f.offset / max 1 x.width) :: x.rots }

/-- A slip is declared (R366, R367): from sample index lo on the direction carries zero, or it runs on rotated. -/
def slip (d cause offset lo ns : Nat) (m : Mach) : Mach :=
  match dirOf m d with
  | none => m
  | some x =>
    let auto := autoRestart m d
    let y : Dir :=
      if cause = 3 then { x with zlo := some lo, zhi := none, gwait := auto, data := x.data && x.domA }
      else if auto then { x with zlo := some lo, zhi := none, restart := some m.deal, data := x.data && x.domA }
      else { x with slipped := true }
    raiseAt m.deal 0x08 0x0802 [(1, d), (1, cause), (1, b2n auto), (1, 0), (2, offset), (2, 0), (8, ns)]
      (showPort d (dirCount d 0x0806 1 (sapWr F.SAP_x_STAT_OFFSET d offset (orReg F.SAP_FLAGS_SLIP (2 ^ d) (setDir_ d { y with syncRun := 0 } m)))))

/-- The master directions of a group that stopped or left its grid slip with cause 3 (R367); the manual gives no misalignment for
it, so OFFSET takes a free value. -/
def groupLost (g : Nat) (m : Mach) : Mach :=
  forEach ((m.sap.dirs.filter (fun p => p.1 < 32 && p.2.master && p.2.grp == g && p.2.stopAt.isNone)).map Prod.fst)
    (fun d m => slip d 3 ((freeVal m).toNat % 1024) (m.deal * spd m) (dealNs m) (useFresh 1 m)) m

/-- A frame start of a B direction: silent frames pass, its data begin, its frames are counted (R361, R368). -/
def frameB (d : Nat) (m : Mach) : Mach :=
  match dirOf m d with
  | none => m
  | some x =>
    if x.domA || x.susp || x.zlo.isSome then m
    else if x.data then
      dirCount d (if isTx d then 0x0802 else 0x0805) 1 (setDir_ d { x with frames := x.frames + 1 } m)
    else if x.left = 0 && decide (x.begin_ ≤ m.deal * spd m) then
      dataBegins (2 ^ d) (showPort d (dirCount d (if isTx d then 0x0802 else 0x0805) 1 (setDir_ d { x with data := true, frames := x.frames + 1 } m)))
    else setDir_ d { x with left := x.left - 1 } m

/-- A frame start (R364-R366): the clock appears, the alignment is checked, and a B direction's frame is counted. -/
def frameStart (f : FrameIn) (m : Mach) : Mach :=
  match dirOf m f.dir with
  | none => m
  | some x =>
    let m1 := if !x.clock && f.dir < 32 then showPort f.dir (rateRecord f.dir 1 f.mhz m) else m
    let y := (dirOf m1 f.dir).getD x
    let m2 := if f.away && f.dir < 32 && !x.master then
        dirCount f.dir 0x0808 1 (setDir_ f.dir { y with syncRun := y.syncRun + 1 } m1)
      else setDir_ f.dir { y with syncRun := 0 } m1
    let next := m.deal * spd m + f.k
    let armed := f.dir < 32 && x.zlo.isNone && x.stopAt.isNone
    let m3 := if armed && f.fifo then slip f.dir 2 f.offset next f.ns (setDir_ f.dir (rotate f next ((dirOf m2 f.dir).getD x)) m2)
      else if armed && f.away && !x.master && 1 ≤ x.syncRun then slip f.dir 1 f.offset next f.ns m2
      else m2
    frameB f.dir m3

/-- SAP_FRAME_START. -/
def execSapFrameStart (f : FrameIn) (s : State) : Host.Outcome State Fault Refusal := onMach (frameStart f) s

/-- A direction restarts at this boundary as R366 lays down: zero until its data resume, at sample 0 of a deal. -/
def restartDir (d : Nat) (x : Dir) (m : Mach) : Mach :=
  let back := (m.deal + silentDeals m x.silent) * spd m
  let lo := x.zlo.orElse (fun _ => some (m.deal * spd m))
  let y := { x with zlo := lo, zhi := some back, restart := none, gwait := false, susp := false, data := false, left := x.silent,
                    rots := if x.restart.isSome || x.gwait then [] else x.rots }
  showPort d (dirCount d 0x0807 1 (setDir_ d { y with begin_ := if x.domA then x.begin_ else back } m))

/-- A slipped direction restarts at the boundary after its slip, or once its group has locked again, with its domain taken afresh
(R366, R367). -/
def sapRestart (d : Nat) (m : Mach) : Mach :=
  match dirOf m d with
  | none => m
  | some x =>
    if x.gwait && (rd m F.CLK_AL_LOCK_LOCK).testBit (8 + x.grp) then
      restartDir d { x with domA := groupDomA m x.grp (x.slots * x.width) } m
    else match x.restart with
      | some r => onlyIf (decide (r < m.deal)) (restartDir d x) m
      | none => m

/-- SAP_RESTART. -/
def execSapRestart (d : Nat) (s : State) : Host.Outcome State Fault Refusal := onMach (sapRestart d) s

/-- A mask write: the register shows it, the direction takes it at the next deal boundary (R360). -/
def sapMaskWrite (d : Nat) (v : Word) (m : Mach) : Mach := onlyIf (decide (d < 32)) (sapWr F.SAP_x_MASK_SLOT d v.toNat) m

/-- SAP_MASK_WRITE. -/
def execSapMaskWrite (d : Nat) (v : Word) (s : State) : Host.Outcome State Fault Refusal := onMach (sapMaskWrite d v) s

/-! The host mirror (R369). -/

/-- The frames of a deal go to the mirror buffer that the direction's start set up, words of Q1.31 per slot; like every write of the device
it lies inside a WRITE window in force (03 R54). -/
def mirror (d : Nat) (x : Dir) (frames : List (List Int)) (m : Mach) : Mach :=
  if d < 32 && sapRd m F.SAP_x_HB_POS_ACTIVE d == 1 && hbOk m x then
    forEach frames (fun f m =>
      let pos := sapRd m F.SAP_x_HB_POS_FRAME d
      let words := f.map (fun v => if x.hbPack then (3, s2n 32 v / 256) else (4, s2n 32 v))
      sapWr F.SAP_x_HB_POS_FRAME d ((pos + 1) % max 1 x.hbFrames) { m with out := .dma (x.hbAddr + pos * hbBytes x) words :: m.out }) m
  else m

/-- The mirrors stop at a host-function reset or a DMA fault. -/
def mirrorStop (m : Mach) : Mach := forEach (List.range 32) (fun d m => sapWr F.SAP_x_HB_POS_ACTIVE d 0 m) m

/-- DMA_FAULT (03 R83). -/
def execDmaFault (s : State) : Host.Outcome State Fault Refusal :=
  onMach (fun m => if running m then mirrorStop (dmaFault m) else m) s

/-! The deal (R355, R359, R360, R363, R368). -/

/-- Whether a sample index carries zero. -/
def zeroed (x : Dir) (i : Nat) : Bool :=
  match x.zlo with
  | none => false
  | some lo => lo ≤ i && (match x.zhi with | some hi => i < hi | none => true)

/-- A zero window that has passed is closed. -/
def closeZero (i : Nat) (x : Dir) : Dir :=
  match x.zhi with
  | some hi => if hi ≤ i then { x with zlo := none, zhi := none } else x
  | none => x

/-- The masks of a direction move on by a deal. -/
def maskTick (m : Mach) (d : Nat) (x : Dir) : Dir :=
  if d < 32 then
    let v := sapRd m F.SAP_x_MASK_SLOT d
    { x with pmask := x.mask, pnew := x.newly, newly := andNot 32 v x.mask, mask := v }
  else x

/-- A receive direction writes the frames of the deal before (R359): frames of slot words as they stood on the pins. -/
def receive (d : Nat) (x : Dir) (frames : List (List Int)) (m : Mach) : Mach :=
  let s := spd m
  let i0 := (m.deal - 1) * s
  let word (k j : Nat) : Int :=
    if zeroed x (i0 + k) || !x.pmask.testBit j || (k = 0 && x.pnew.testBit j) then 0 else widen x.word ((frames.getD k []).getD (chanAt x (i0 + k) j) 0)
  let cols := (List.range x.slots).map (fun j => (List.range s).map (fun k => word k j))
  let zs := ((List.range s).filter (fun k => zeroed x (i0 + k))).length
  let m1 := mirror d x ((List.range s).map (fun k => cols.map (fun c => c.getD k 0))) m
  if i0 < x.begin_ then m1
  else
    forEach (cols.mapIdx (fun j c => (x.base + j, c))) (fun q m => onlyIf (roleOf m q.1 == 3) (busWrite q.1 q.2) m)
      (dirCount d 0x0801 1 (dirCount d 0x0804 zs (dirCount d 0x0805 (s - zs) m1)))

/-- The receive direction of one number at a tick. -/
def receiveTick (pins : List PinIn) (d : Nat) (m : Mach) : Mach :=
  match dirOf m d with
  | none => m
  | some x =>
    let frames := ((pins.find? (fun p => p.dir == d)).map (fun p => p.frames)).getD []
    if d < 16 && x.domA && !x.susp then receive d x frames m
    else if d < 16 && x.data && !x.susp then
      mirror d x (frames.mapIdx (fun k f => (List.range x.slots).map (fun j =>
        if x.pmask.testBit j && !(k = 0 && x.pnew.testBit j) then widen x.word (f.getD j 0) else 0))) m
    else m

/-- Port-input slots that nothing feeds in this deal read zero in it (R363). -/
def zeroInputs (role : Nat) (m : Mach) : Mach :=
  forEach ((m.dk.live.body.roles.filter (fun p => p.2 == role)).map Prod.fst)
    (fun c m => if (mfind m.frm.cur c).isSome then m else busWrite c (zeros (spd m)) m) m

/-- The ports at a tick. -/
def portTick (pins : List PinIn) (m : Mach) : Mach :=
  let now := m.deal * spd m
  let m1 := setSap { m.sap with dirs := m.sap.dirs.map (fun p =>
    (p.1, maskTick m p.1 { p.2 with frames := 0, inRange := if p.2.clock then p.2.inRange + 1 else 0 })) } m
  let m2 := zeroInputs 3 (forEach (m1.sap.dirs.map Prod.fst) (receiveTick pins) m1)
  let m3 := setSap { m2.sap with dirs := m2.sap.dirs.map (fun p => (p.1, if p.1 < 16 then closeZero (now - spd m) p.2 else p.2)) } m2
  let begun := ((m3.sap.dirs.filter (fun p => p.2.domA && p.2.begin_ ≤ now)).map (fun p => 2 ^ p.1)).sum
  forEach (m3.sap.dirs.map Prod.fst) showPort (dataBegins begun m3)

/-- The frames that a domain-A transmit direction places on its pins in a deal: the image of the deal before, its stop's fade, or
zero (R355, R359, R360, R363). -/
def pinFrames (m : Mach) (x : Dir) : List (List Int) :=
  let s := spd m
  let fade := x.stopAt.isSome
  (List.range s).map (fun k => (List.range x.slots).map (fun j =>
    let i := m.deal * s + k
    if i < x.begin_ || zeroed x i || !x.mask.testBit j || (k = 0 && x.newly.testBit j) then 0
    else if fade then (fadeOut (x.last.getD j 0) s).getD k 0
    else (x.q.getD (chanAt x i j) []).getD k 0))

/-- The waveform of a direction. -/
def waveOf (x : Dir) : Wave := ⟨x.format, x.bckInv, x.fsInv, x.master, x.word, x.width⟩

/-- The words of a direction's slots on its pins: a slot that the mask disables is low, or high-impedance with TRI (R355, R356). -/
def pinWords (x : Dir) (f : List Int) : List (Option Int) :=
  f.mapIdx (fun j v => if x.mask.testBit j then some (narrow x.word v) else if x.tri then none else some 0)

/-- An active channel-status or user word list of a transmitter (R374). -/
def activeBlock (f : Fld) (t : Nat) (m : Mach) : Nat :=
  ((List.range 6).map (fun w => mget 0 m.sap.active (fkey f t w / 32) * 2 ^ (32 * w))).sum

/-- A channel-status block as it is sent: with CRC_AUTO byte 23 of a professional block is the CRCC of AES3-2009 (R373). -/
def csSent (auto : Bool) (v : Nat) : Nat :=
  if auto && v % 2 == 1 then v % 2 ^ 184 + (Config.aesCrcc (v % 2 ^ 184)).toNat * 2 ^ 184 else v

/-- What a biphase transmitter sends beside its audio: V is V_A and V_B, and with VAUTO also 1 in every frame of inserted zeros (R373). -/
def biphaseOut (d : Nat) (zs : List Bool) (m : Mach) : Mach :=
  if d < 40 then m
  else
    let t := d - 40
    let auto := rdi m F.AES_TX_CFG_VAUTO t == 1
    let crc := rdi m F.AES_TX_CFG_CRC_AUTO t == 1
    let v (f : Fld) (z : Bool) : Bool := rdi m f t == 1 || (auto && z)
    let o : Out := .biphase t (zs.map (fun z => (v F.AES_TX_CFG_V_A z, v F.AES_TX_CFG_V_B z))) (csSent crc (activeBlock F.AES_TX_CS_A_BYTES t m))
      (csSent crc (activeBlock F.AES_TX_CS_B_BYTES t m)) (activeBlock F.AES_TX_U_A_BYTES t m) (activeBlock F.AES_TX_U_B_BYTES t m)
    { m with out := o :: m.out }

/-- A deal's frames on the pins of a transmit direction. -/
def putPins (d : Nat) (x : Dir) (fs : List (List Int)) (zs : List Bool) (m : Mach) : Mach :=
  biphaseOut d zs { m with out := .pins d (waveOf x) (fs.map (pinWords x)) zs :: m.out }

/-- A transmit direction's output over a deal, with its books (R368). -/
def transmit (d : Nat) (x : Dir) (m : Mach) : Mach :=
  let s := spd m
  let fs := pinFrames m x
  let i0 := m.deal * s
  let zs := (List.range s).map (fun k => decide (i0 + k < x.begin_) || zeroed x (i0 + k))
  let m1 := mirror d x (fs.map (fun f => f.map (fun v => widen x.word (narrow x.word v)))) (putPins d x fs zs m)
  let m2 := setDir_ d (closeZero (i0 + s) { x with last := (fs.getLast?).getD [] }) m1
  if i0 < x.begin_ then m2
  else
    dirCount d 0x0801 1 (dirCount d 0x0802 s (dirCount d 0x0804 (zs.filter id).length
      (dirCount d 0x0803 (if x.stopAt.isSome || x.qfade then s else 0) m2)))

/-- The image that a transmit direction loads at commit (R359); fades are the consumers that carried a fade (R368). -/
def loadFifo (fades : List Nat) (m : Mach) (x : Dir) : Dir :=
  let sl := (List.range x.slots).map (fun j => x.base + j)
  { x with q := sl.map (fun c => if roleOf m c = 0 || roleOf m c = 4 then zeros (spd m) else busNow m c)
           qfade := sl.any (fun c => fades.contains c) }

/-- The port slots of a direction that bridge nodes of the live deck name (R358). -/
def bridgedSlots (m : Mach) (d : Nat) : List Nat :=
  m.dk.live.body.nodes.filterMap (fun e => match parOf m.dk.live.body e with | .bridge _ dir j => if dir = d then some j else none | _ => none)

/-- The frames of a B transmit direction in a deal: the samples that its bridges converted, which are free values, and zero in a slot that
no bridge node names, before its data begin and after a slip (R358, R361, R366). -/
def transmitB (d : Nat) (x : Dir) (m : Mach) : Mach :=
  let named := bridgedSlots m d
  let on := x.data && x.zlo.isNone
  let fs := (List.range x.frames).map (fun k => (List.range x.slots).map (fun j =>
    if on && named.contains j && x.mask.testBit j && !(k = 0 && x.newly.testBit j) then n2s 32 (Config.freeWord (m.fresh + k * x.slots + j)).toNat
    else 0))
  let m1 := putPins d x fs (List.replicate x.frames (!on)) (useFresh (x.frames * x.slots) m)
  if x.data then mirror d x (fs.map (fun f => f.map (fun v => widen x.word (narrow x.word v)))) m1 else m1

/-- A suspended transmit direction sends zero (R375). -/
def transmitZero (d : Nat) (x : Dir) (m : Mach) : Mach :=
  let n := if x.domA then spd m else x.frames
  putPins d x (List.replicate n (List.replicate x.slots 0)) (List.replicate n true) m

/-- One direction at a commit. -/
def dirCommit (fades : List Nat) (d : Nat) (m : Mach) : Mach :=
  match dirOf m d with
  | none => m
  | some x =>
    let m1 := if !isTx d then m else if x.susp then transmitZero d x m else if x.domA then transmit d x m else transmitB d x m
    let y := (dirOf m1 d).getD x
    if x.stopAt.isSome then
      showPort d (setSap { m1.sap with dirs := mdel d m1.sap.dirs }
        (onlyIf (decide (d < 32)) (sapWr F.SAP_x_HB_POS_ACTIVE d 0) (domainLost d 0 { m1 with out := .pinsLow d :: m1.out })))
    else if isTx d && x.domA && !x.susp then setDir_ d (loadFifo fades m1 y) m1
    else m1

/-- The ports at a commit. -/
def portCommit (fades : List Nat) (m : Mach) : Mach := forEach (m.sap.dirs.map Prod.fst) (dirCommit fades) m

/-! Biphase receivers and transmitters (R370-R374). -/

/-- A biphase receiver locks (R371). -/
def aesLock (r mhz : Nat) (m : Mach) : Mach :=
  let d := 32 + r
  onlyIf (decide (r < 8) && (dirOf m d).isSome && rdi m F.AES_RX_STAT_LOCK r == 0)
    (fun m => rateRecord d 1 mhz (showRate d mhz (wri F.AES_RX_STAT_LOCK r 1 m))) m

/-- AES_LOCK. -/
def execAesLock (r mhz : Nat) (s : State) : Host.Outcome State Fault Refusal := onMach (aesLock r mhz) s

/-- A biphase receiver loses lock (R371). -/
def aesUnlock (r : Nat) (m : Mach) : Mach :=
  let d := 32 + r
  onlyIf (decide (r < 8) && (dirOf m d).isSome && rdi m F.AES_RX_STAT_LOCK r == 1)
    (fun m => domainLost d 0 <| rateRecord d 2 0 (dirCount d 0x0815 1 (wri F.AES_RX_FLAGS_UNLOCK r 1 (wri F.AES_RX_STAT_LOCK r 0 m)))) m

/-- AES_UNLOCK. -/
def execAesUnlock (r : Nat) (s : State) : Host.Outcome State Fault Refusal := onMach (aesUnlock r) s

/-- Errors of a receiver: a run ends after 64 error-free frames, its first error is reported (R371). -/
def aesErrors (r quiet b p c : Nat) (m : Mach) : Mach :=
  let old := mget {} m.sap.runs r
  let fresh := old = {} || 64 ≤ quiet
  let run : AesRun := if fresh then ⟨b, p, c⟩ else ⟨old.biphase + b, old.parity + p, old.crc + c⟩
  let d := 32 + r
  let m1 := dirCount d 0x0811 b (dirCount d 0x0812 p (dirCount d 0x0813 c (setSap { m.sap with runs := mset {} r run m.sap.runs } m)))
  let m2 := onlyIf (b != 0) (wri F.AES_RX_FLAGS_BIPHASE r 1) (onlyIf (p != 0) (wri F.AES_RX_FLAGS_PARITY r 1)
    (onlyIf (c != 0) (wri F.AES_RX_FLAGS_CS_CRC r 1) m1))
  onlyIf fresh (raise 0x09 0x0903 [(1, r), (1, b2n (b != 0) + 2 * b2n (p != 0) + 4 * b2n (c != 0)), (2, 0), (4, run.biphase), (4, run.parity), (4, run.crc)]) m2

/-- A subframe with a violation or a parity error is replaced by the previous sample and counted. -/
def aesSubframeError (e : AesErr) (m : Mach) : Mach :=
  onlyIf (decide (e.r < 8) && (dirOf m (32 + e.r)).isSome && (e.biphase || e.parity)) (aesErrors e.r e.quiet (b2n e.biphase) (b2n e.parity) 0) m

/-- AES_SUBFRAME_ERROR. -/
def execAesSubframeError (e : AesErr) (s : State) : Host.Outcome State Fault Refusal := onMach (aesSubframeError e) s

/-- The 192 bits of a block in its six registers. -/
def blockWords (f : Fld) (r v : Nat) (m : Mach) : Mach := forEach (List.range 6) (fun w m => wrij f r w (v / 2 ^ (32 * w)) m) m

/-- The 192 bits that the registers of a block hold. -/
def blockRead (f : Fld) (r : Nat) (m : Mach) : Nat := ((List.range 6).map (fun w => rdij m f r w * 2 ^ (32 * w))).sum

/-- The latch of a block (R372). -/
def latchBlock (b : AesBlk) (m : Mach) : Mach :=
  let chg := b2n (blockRead F.AES_RX_CS_A_BYTES b.r m != b.csA) + 2 * b2n (blockRead F.AES_RX_CS_B_BYTES b.r m != b.csB)
  let seq := (rdi m F.AES_RX_STAT_CS_SEQ b.r + 1) % 256
  let m1 := blockWords F.AES_RX_CS_A_BYTES b.r b.csA (blockWords F.AES_RX_CS_B_BYTES b.r b.csB (blockWords F.AES_RX_U_A_BYTES b.r b.uA
    (blockWords F.AES_RX_U_B_BYTES b.r b.uB (wri F.AES_RX_STAT_CS_SEQ b.r seq (wri F.AES_RX_STAT_PRO b.r (b.csA % 2) m)))))
  onlyIf (chg != 0) (raise 0x09 0x0902 [(1, b.r), (1, chg), (1, seq), (1, 0), (6, b.csA % 2 ^ 48), (6, b.csB % 2 ^ 48)]) m1

/-- A block ends at a receiver (R371, R372): V bits, and the latch unless a professional block fails its CRCC. -/
def aesBlockEnd (b : AesBlk) (m : Mach) : Mach :=
  if decide (b.r < 8) && (dirOf m (32 + b.r)).isSome && rdi m F.AES_RX_STAT_LOCK b.r == 1 then
    let m1 := wri F.AES_RX_STAT_V_A b.r (b2n b.vA) (wri F.AES_RX_STAT_V_B b.r (b2n b.vB)
      (onlyIf (rdi m F.AES_RX_CFG_VMUTE b.r == 1) (dirCount (32 + b.r) 0x0814 b.vCount) m))
    if (b.csA % 2 == 1 || b.csB % 2 == 1) && !b.crcOk then aesErrors b.r b.quiet 0 0 1 m1 else latchBlock b m1
  else m

/-- AES_BLOCK_END. -/
def execAesBlockEnd (b : AesBlk) (s : State) : Host.Outcome State Fault Refusal := onMach (aesBlockEnd b) s

/-- A load of the active copy is requested: kind 0 channel status, 1 user bits; a 1 written where one is pending changes nothing (00 R4,
R374). -/
def loadRequest (kind t : Nat) (m : Mach) : Mach :=
  if t < 8 && (mfind m.sap.loads (2 * t + kind)).isNone then
    setSap { m.sap with loads := mput (2 * t + kind) m.deal m.sap.loads }
      (wri (if kind = 0 then F.AES_TX_CFG_CS_LOAD else F.AES_TX_CFG_U_LOAD) t 1 m)
  else m

/-- CS_LOAD. -/
def execCsLoad (t : Nat) (s : State) : Host.Outcome State Fault Refusal := onMach (loadRequest 0 t) s
/-- U_LOAD. -/
def execULoad (t : Nat) (s : State) : Host.Outcome State Fault Refusal := onMach (loadRequest 1 t) s

/-- The shadow words of one kind become active. -/
def copyShadow (kind t : Nat) (a b : Fld) (m : Mach) : Mach :=
  match mfind m.sap.loads (2 * t + kind) with
  | some n =>
    if n < m.deal then
      wri (if kind = 0 then F.AES_TX_CFG_CS_LOAD else F.AES_TX_CFG_U_LOAD) t 0
        (setSap { m.sap with
          loads := mdel (2 * t + kind) m.sap.loads
          active := (List.range 6).foldl (fun u w => mset 0 (fkey a t w / 32) (rdij m a t w) (mset 0 (fkey b t w / 32) (rdij m b t w) u)) m.sap.active } m)
    else m
  | none => m

/-- The first block start of a transmitter after the boundary that follows a load request (R374). -/
def shadowCopy (t : Nat) (m : Mach) : Mach :=
  copyShadow 0 t F.AES_TX_CS_A_BYTES F.AES_TX_CS_B_BYTES (copyShadow 1 t F.AES_TX_U_A_BYTES F.AES_TX_U_B_BYTES m)

/-- AES_TX_SHADOW_COPY. -/
def execAesTxShadowCopy (t : Nat) (s : State) : Host.Outcome State Fault Refusal := onMach (shadowCopy t) s

/-! Power, resets and counters (R375, R378). -/

/-- In fold every running direction is suspended. -/
def portsSleep (m : Mach) : Mach :=
  setSap { m.sap with dirs := m.sap.dirs.map (fun p => (p.1, { p.2 with susp := true, q := [] })) } m

/-- After fold each direction restarts, its counters kept. -/
def portsWake (m : Mach) : Mach :=
  forEach (m.sap.dirs.filter (fun p => p.2.susp)) (fun p m => restartDir p.1 { p.2 with zlo := none } m) m

/-- The counters of a direction. -/
def dirIds (d : Nat) : List Nat :=
  if d < 16 then [0x0801, 0x0804, 0x0805, 0x0806, 0x0807, 0x0808]
  else if d < 32 then [0x0801, 0x0802, 0x0803, 0x0804, 0x0806, 0x0807, 0x0808]
  else if d < 40 then [0x0801, 0x0804, 0x0805, 0x0811, 0x0812, 0x0813, 0x0814, 0x0815]
  else [0x0801, 0x0802, 0x0803, 0x0804]

/-- Group 4. -/
def portDirCounters (m : Mach) (d : Nat) : Option (List (Nat × Nat)) :=
  if d < 48 then some ((dirIds d).map (fun id => (id, mget 0 m.sap.cnt (d * 2 ^ 16 + id)))) else none

end Sys2Proof.Machine
end

