-- ==== Sys2Proof/Machine/Clk.lean ====
section
/-! DEFINITION. The media clocks (04): candidate references, the selection, holdover, outputs and their aligners, SYNC_IN and the
ramp engines. Frequencies are in ppb, phases in ps. -/
namespace Sys2Proof.Machine

/-- Seconds of domain time at the present deal (R10). -/
def domSec (m : Mach) : Nat := m.tim.ns / 10 ^ 9

/-- A candidate's own record. -/
def cand (m : Mach) (i : Nat) : Cand := mget {} m.clk.cands i

/-- An output and its aligner. -/
def aligner (m : Mach) (a : Nat) : Aligner := mget {} m.clk.als a

/-- A ramp engine. -/
def ramp (m : Mach) (k : Nat) : Ramp := mget {} m.clk.ramps k

/-- The machine with its media clock unit replaced. -/
def setClk (x : Clk) (m : Mach) : Mach := { m with clk := x }

/-- The machine with a candidate's record replaced. -/
def setCand (i : Nat) (x : Cand) (m : Mach) : Mach := setClk { m.clk with cands := mset {} i x m.clk.cands } m

/-- The machine with an output replaced. -/
def setAl (a : Nat) (x : Aligner) (m : Mach) : Mach := setClk { m.clk with als := mset {} a x m.clk.als } m

/-- The machine with a ramp engine replaced. -/
def setRamp (k : Nat) (x : Ramp) (m : Mach) : Mach := setClk { m.clk with ramps := mset {} k x m.clk.ramps } m

/-! The XO and its ageing (R102). -/

/-- The time that ageing counts to: domain time once locked, before that the saved value's time plus the time since reset, or the
epoch where nothing is saved. -/
def ageTime (m : Mach) : Int :=
  if flag m F.TIM_STATE_EVER_LOCKED then domSec m
  else match m.clk.saved with
    | some v => v.sec + (m.ticks / 8000 : Nat)
    | none => rd m F.CLK_XO_EPOCH_SEC

/-- The ageing correction from one second to another, in ppb: AGE is in 1/64 ppb per year. -/
def ageFrom (m : Mach) (t0 t : Int) : Int := n2s 20 (rd m F.CLK_XO_AGE_AGE) * (t - t0) / (64 * 31557600)

/-- The ageing correction since the epoch. -/
def xoCorr (m : Mach) : Int := ageFrom m (rd m F.CLK_XO_EPOCH_SEC) (ageTime m)

/-- The timebase range of R86. -/
def clampPpb (x : Int) : Int := max (-200000) (min 200000 x)

/-- A step of the timebase towards a frequency, at most FSLEW per second (R96, R103). -/
def slewTo (m : Mach) (x : Int) : Int :=
  let lim : Int := su m F.CLK_SERVO_FSLEW * 100
  clampPpb (max (m.clk.ctl - lim) (min (m.clk.ctl + lim) x))

/-! Candidates (R87-R93). -/

/-- Whether domain time is a candidate: the seat takes its time from a peer (R87). -/
def exists4 (m : Mach) : Bool := !flag m F.CLK_STATE_SOURCE && rd m F.TIM_CTRL_MODE != 1

/-- Whether a candidate is qualified and may be chosen. -/
def qualified (m : Mach) (i : Nat) : Bool := rdi m F.CLK_REF_STAT_QUALIFIED i == 1 && (i != 4 || exists4 m)

/-- Whether a candidate is watched: a configured REFIN, or domain time where it exists. -/
def watched (m : Mach) (i : Nat) : Bool := if i = 4 then exists4 m else rdi m F.CLK_REF_STAT_ENABLED i == 1

/-- The mean offset that CLK_REF_OFS reports. -/
def meanOfs (m : Mach) (i : Nat) : Int := n2s 32 (rdi m F.CLK_REF_OFS_PPB i)

/-- The mean of a list of integers, rounded down. -/
def meanOf (l : List Int) : Int := if l = [] then 0 else l.sum / (l.length : Int)

/-- The mean of a list of integers as a value rounds it: the one of the two integers next to the exact mean that is nearer to the value. -/
def roundedMean (l : List Int) (x : Int) : Int := max (meanOf l) (min (meanOf l + b2n (l.sum % (l.length : Int) != 0)) x)

/-! The selection (R94, R96-R99, R106). -/

/-- The candidate to select, 7 for none (R94, R120). -/
def chooseRef (m : Mach) : Nat :=
  match m.clk.mode with
  | .holdover => 7
  | .freeRun => 7
  | .cand c => if qualified m c then c else 7
  | .auto =>
    if !flag m F.CLK_STATE_SOURCE && qualified m 4 then 4
    else
      let q := (List.range 4).filter (qualified m)
      let cur := rd m F.CLK_STATE_SEL
      let best := q.foldl (fun b i => min b (rdi m F.CLK_REF_STAT_RANK i)) 8
      let t := q.filter (fun i => rdi m F.CLK_REF_STAT_RANK i = best)
      if t = [] then 7
      else if t.contains cur then cur
      else if su m F.CLK_CTRL_REVERT = 0 && q.contains cur then cur
      else t.headD 7

/-- The registers that show a selection. -/
def showSel (sel mode bridging : Nat) (m : Mach) : Mach :=
  forEach (List.range 5) (fun i => wri F.CLK_REF_STAT_SELECTED i (b2n (i = sel)))
    (wr F.CLK_STATE_SEL sel (wr F.CLK_STATE_MODE mode (wr F.CLK_STATE_BRIDGING bridging m)))

/-- The kind of holdover to enter: 0 normal, 1 saved, 2 free run (R99). -/
def holdKind (m : Mach) : Nat :=
  if m.clk.mode = .freeRun then 2
  else if flag m F.CLK_STATE_HIST_VALID then 0
  else if flag m F.CLK_STATE_SAVED_VALID && m.clk.saved.isSome then 1
  else 2

/-- The 60 bins that end 1 s before the loss instant, which lies k bins back (R100). -/
def histWindow (k : Nat) (m : Mach) : List (Int × Int) := (m.clk.hist.drop (k + 1)).take 60

/-- The holdover that the machine enters when the last reference was lost k bins ago (R99-R102). -/
def holdEntry (k : Nat) (m : Mach) : Holdover :=
  match holdKind m with
  | 0 => { kind := 0, base := meanOf ((histWindow k m).map Prod.fst), tempRef := meanOf ((histWindow k m).map Prod.snd) }
  | 1 =>
    match m.clk.saved with
    | some v => { kind := 1, base := v.ctl + ageFrom m v.sec (ageTime m), tempRef := v.temp }
    | none => { kind := 2, base := xoCorr m, tempRef := 0 }
  | _ => { kind := 2, base := xoCorr m, tempRef := 0 }

/-- The ageing in ppb over the present holdover: before the first lock with nothing saved the time of R102 stands at the epoch. -/
def holdAgeing (m : Mach) : Int :=
  if !flag m F.TIM_STATE_EVER_LOCKED && m.clk.saved.isNone then 0 else ageFrom m 0 (rd m F.CLK_HOLD_SEC_SEC)

/-- The level of WM_STICKY bit 11 (R105). -/
def watchHold (m : Mach) : Mach :=
  let e := rd m F.CLK_HOLD_EST_NS
  let lim := su m F.CLK_HOLD_LIMIT_NS
  watch 11 (m.clk.hold.any (fun h => h.oos)) 0x06 0x0607 [(4, e), (4, lim), (4, rd m F.CLK_HOLD_SEC_SEC), (4, 0)] m

/-- Holdover or free run begins (R99). It raises no EV_REF_SWITCH, and a switch that waited for its first edge is given up without one
(DESIGN CHOICE, log 85). -/
def enterHoldover (k : Nat) (m : Mach) : Mach :=
  let h := holdEntry k m
  raise 0x06 0x0605
    [(1, h.kind), (1, rd m F.CLK_STATE_SEL), (2, 0), (4, s2n 32 h.base),
     (4, if h.kind = 0 then 60 else rd m F.CLK_SAVED_AGE_SEC), (4, 0)]
    (wr F.CLK_HOLD_EST_NS (if h.kind = 2 then 0xFFFFFFFF else 0) (wr F.CLK_HOLD_SEC_SEC 0 (wr F.CLK_STATE_HIST_VALID 0
      (showSel 7 (if h.kind = 0 then 3 else if h.kind = 1 then 4 else 0) 0
        (watchHold (setClk { m.clk with hold := some h, lockedSec := 0, bin4 := none } m))))))

/-- Holdover ends as a candidate is taken (R106). -/
def exitHoldover (sel : Nat) (m : Mach) : Mach :=
  match m.clk.hold with
  | none => m
  | some _ =>
    watchHold (wr F.CLK_HOLD_EST_NS 0 (wr F.CLK_HOLD_SEC_SEC 0
      (raise 0x06 0x0606 [(1, sel), (3, 0), (4, rd m F.CLK_HOLD_SEC_SEC), (4, rd m F.CLK_HOLD_EST_NS), (4, 0)]
        (setClk { m.clk with hold := none } m))))

/-- A reference is taken: the servo holds its frequency until the reference's first edge (R96, R97). A switch that replaces one
still waiting for its edge keeps the first reference it came from. -/
def switchRef (sel : Nat) (m : Mach) : Mach :=
  let src := if flag m F.CLK_STATE_BRIDGING then m.clk.switchFrom else rd m F.CLK_STATE_SEL
  showSel sel 1 1 (exitHoldover sel (setClk { m.clk with switchFrom := src, lockedSec := 0, bin4 := none } m))

/-- The choice of R94; k is how many bins back the last reference began to fail. -/
def reselect (k : Nat) (m : Mach) : Mach :=
  let sel := chooseRef m
  if sel = rd m F.CLK_STATE_SEL then m
  else if sel = 7 then enterHoldover k m
  else switchRef sel m

/-- A qualification has changed: the choice is made at the next deal boundary (R91, R94). k is how many bins back candidate i began to
fail, which counts where it is the reference in use. -/
def wantSelect (i k : Nat) (m : Mach) : Mach :=
  setClk { m.clk with due := some (if rd m F.CLK_STATE_SEL = i then k else m.clk.due.getD 0) } m

/-- The choice of R94 at a boundary at which a qualification has changed or a REF_CONFIG has taken effect. -/
def selectRef (m : Mach) : Mach :=
  match m.clk.due with
  | some k => reselect k (setClk { m.clk with due := none } m)
  | none => m

/-! Detectors (R91, R92). -/

/-- A candidate stops qualifying, with its event (Table 4.4), and the selection follows at the next boundary. A present candidate that was
not qualified raises no event (DESIGN CHOICE, log 82). -/
def disqualify (i cause k : Nat) (m : Mach) : Mach :=
  let was := rdi m F.CLK_REF_STAT_QUALIFIED i == 1
  let m1 := wri F.CLK_REF_STAT_QUALIFIED i 0 (setCand i { cand m i with inRun := 0, outRun := 0, bins := if cause = 3 then (cand m i).bins else [] } m)
  wantSelect i k (onlyIf was (raise 0x06 0x0601
    [(1, i), (1, cause), (2, 0), (4, rdi m F.CLK_REF_OFS_PPB i), (4, (cand m i).outRun), (4, 0)]) m1)

/-- A candidate is lost: no edges, a gross interval, or domain time unlocked (R91, causes 1, 2 and 5). -/
def candLost (i cause : Nat) (m : Mach) : Mach :=
  if i ≤ 4 && rdi m F.CLK_REF_STAT_PRESENT i == 1 then
    disqualify i cause 0 (wri F.CLK_REF_STAT_PRESENT i 0 (wri F.CLK_REF_STAT_IN_TOL i 0 m))
  else m

/-- Whether the loss detector acts, by the nominal period of hz / den or of one second: no edge within LOSS_PER periods (cause 1), or an
interval more than 1 % from nominal (cause 2) (R91). 0 for no loss. -/
def lossCause (m : Mach) (c : Cand) (x : RefEdge) : Nat :=
  let hz := if c.pps then 1 else c.hz
  let den := if c.pps then 1 else c.den
  match x with
  | .silent ps => if 10 ^ 12 * den * su m F.CLK_MON_LOSS_PER ≤ ps * hz then 1 else 0
  | .interval ps => if 10 ^ 12 * den < 100 * ((ps : Int) * hz - 10 ^ 12 * den).natAbs then 2 else 0

/-- What the loss detector meets at a REFIN input (R91). -/
def refLoss (i : Nat) (x : RefEdge) (m : Mach) : Mach :=
  let cause := lossCause m (cand m i) x
  if 4 ≤ i || cause = 0 then m else candLost i cause m

/-- REF_LOSS. -/
def execRefLoss (i : Nat) (x : RefEdge) (s : State) : Host.Outcome State Fault Refusal := onMach (refLoss i x) s

/-- The tolerance of a candidate in ppb: TOL is in 0.1 ppm, and reads 500 for index 4 until set (R93). -/
def tolPpb (m : Mach) (i : Nat) : Int := rdi m F.CLK_REF_STAT_TOL i * 100

/-- The phase of domain time that the media clock unit is given: the averaged theta less the slew still to run, in ps; none until theta
has been averaged (05 R131, R136). -/
def phase4 (m : Mach) : Option Int := if m.tim.avg = [] then none else some (meanOf m.tim.avg - m.tim.slewRem)

/-- The offset of domain time against the XO in the bin that ends, in ppb: the control word less the advance of theta, in ns, over the
second (R93). -/
def offset4 (m : Mach) : Option Int :=
  match m.clk.bin4, phase4 m with
  | some a, some b => some (m.clk.ctl - nearDiv (b - a) 1000)
  | _, _ => none

/-- The offset of a candidate in the bin that ends, after ageing correction (R92, R93). -/
def binOffset (m : Mach) (b : RefBin) (i : Nat) : Option Int :=
  if i = 4 then offset4 m else (b.offs.getD i none).map (fun x => x + xoCorr m)

/-- One candidate's bin (R92): a bin without a complete interval counts as out of tolerance. -/
def binCand (i : Nat) (o : Option Int) (m : Mach) : Mach :=
  let c := cand m i
  if !watched m i then m
  else match o with
    | some x =>
      let bins := (x :: c.bins).take (su m F.CLK_MON_AVG_S)
      let mean := meanOf bins
      let inTol := decide (mean.natAbs ≤ (tolPpb m i).toNat)
      wri F.CLK_REF_OFS_PPB i (s2n 32 mean) (wri F.CLK_REF_STAT_IN_TOL i (b2n inTol) (wri F.CLK_REF_STAT_PRESENT i 1
        (setCand i { c with bins := bins, outRun := if inTol then 0 else c.outRun + 1, inRun := if inTol then c.inRun + 1 else 0 } m)))
    | none =>
      if rdi m F.CLK_REF_STAT_PRESENT i = 1 then
        wri F.CLK_REF_STAT_IN_TOL i 0 (setCand i { c with outRun := c.outRun + 1, inRun := 0 } m)
      else m

/-- Two qualified inputs of equal rank whose offsets differ by more than the threshold (R95). -/
def disagreePair (a b : Nat) (m : Mach) : Mach :=
  let key := 8 * a + b
  if qualified m a && qualified m b && rdi m F.CLK_REF_STAT_RANK a == rdi m F.CLK_REF_STAT_RANK b then
    if su m F.CLK_DISAGREE_PPB < (meanOfs m a - meanOfs m b).natAbs then
      onlyIf (!mget false m.clk.disagree key)
        (raise 0x06 0x0604 [(1, a), (1, b), (2, 0), (4, rdi m F.CLK_REF_OFS_PPB a), (4, rdi m F.CLK_REF_OFS_PPB b),
          (4, su m F.CLK_DISAGREE_PPB)])
        (wr F.CLK_FLAGS_REF_DISAGREE 1
          (setClk { m.clk with disagree := mset false key true m.clk.disagree, within := mdel key m.clk.within } m))
    else
      let w := mget 0 m.clk.within key + 1
      setClk { m.clk with within := mset 0 key w m.clk.within,
                          disagree := if su m F.CLK_MON_QUAL_S ≤ w then mdel key m.clk.disagree else m.clk.disagree } m
  else m

/-- The pairs of REFIN inputs. -/
def refPairs : List (Nat × Nat) := [(0, 1), (0, 2), (0, 3), (1, 2), (1, 3), (2, 3)]

/-- The control word after a bin in which the servo acts on the selected reference, whose frequency was x (R96). How far a second of
the loop goes is open (log 88): for a REFIN input it lies between no change and the whole frequency difference; for domain time, whose phase is
given as well, it is free. FSLEW and the range hold either way. -/
def servoWord (x : Int) (m : Mach) : Int :=
  let err := x - m.clk.ctl
  let bw := su m F.CLK_SERVO_BW
  if rd m F.CLK_STATE_SEL = 4 then slewTo m (m.clk.ctl + Config.servoStep bw err ((phase4 m).getD 0))
  else slewTo m (m.clk.ctl + max (min 0 err) (min (max 0 err) (Config.servoStep bw err 0)))

/-- The servo's part of a bin: the control word, the history, and the run of locked seconds; while a switch waits for its first edge and
in holdover the servo does not act, and in a bin without a measurement it holds (R96, R97, R100). -/
def binServo (b : RefBin) (m : Mach) : Mach :=
  let acts := rd m F.CLK_STATE_SEL != 7 && !flag m F.CLK_STATE_BRIDGING
  let ctl := match binOffset m b (rd m F.CLK_STATE_SEL) with
    | some x => if acts then servoWord x m else m.clk.ctl
    | none => m.clk.ctl
  onlyIf acts (wr F.CLK_STATE_MODE (if b.locked then 2 else 1))
    (setClk { m.clk with ctl := ctl, hist := ((ctl, b.temp) :: m.clk.hist).take 4200, bin4 := phase4 m, due := m.clk.due.map (fun k => k + 1),
                         lockedSec := if acts && b.locked then m.clk.lockedSec + 1 else 0 } m)

/-- A 1 s measurement bin closes (R92, R95): the candidates are measured against the XO, then the servo acts. CLK_SAVED_AGE counts on with
it. -/
def refBin (b : RefBin) (m : Mach) : Mach :=
  let m1 := forEach (List.range 5) (fun i => binCand i (binOffset m b i)) (binServo b m)
  let m2 := forEach refPairs (fun p => disagreePair p.1 p.2) m1
  onlyIf (rd m F.CLK_SAVED_AGE_SEC != 0xFFFFFFFF) (bump F.CLK_SAVED_AGE_SEC 1) m2

/-- REF_BIN. -/
def execRefBin (b : RefBin) (s : State) : Host.Outcome State Fault Refusal := onMach (refBin b) s

/-- A candidate out of tolerance for DWELL_S seconds is disqualified (R92). -/
def refDisqualified (i : Nat) (m : Mach) : Mach :=
  if i ≤ 4 && qualified m i && su m F.CLK_MON_DWELL_S ≤ (cand m i).outRun then disqualify i 3 (cand m i).outRun m else m

/-- REF_DISQUALIFIED. -/
def execRefDisqualified (i : Nat) (s : State) : Host.Outcome State Fault Refusal := onMach (refDisqualified i) s

/-- A candidate within tolerance for QUAL_S seconds qualifies (R92, R106). -/
def refQualified (i : Nat) (m : Mach) : Mach :=
  if i ≤ 4 && watched m i && rdi m F.CLK_REF_STAT_PRESENT i == 1 && rdi m F.CLK_REF_STAT_QUALIFIED i == 0 &&
      su m F.CLK_MON_QUAL_S ≤ (cand m i).inRun then
    wantSelect i 0 (raise 0x06 0x0602 [(1, i), (1, rdi m F.CLK_REF_STAT_RANK i), (2, 0), (4, rdi m F.CLK_REF_OFS_PPB i), (8, 0)]
      (wri F.CLK_REF_STAT_QUALIFIED i 1 m))
  else m

/-- REF_QUALIFIED. -/
def execRefQualified (i : Nat) (s : State) : Host.Outcome State Fault Refusal := onMach (refQualified i) s

/-- The new reference's first edge: its phase is absorbed and the switch reported (R96, R97). -/
def refFirstEdge (phase : Int) (m : Mach) : Mach :=
  if flag m F.CLK_STATE_BRIDGING then
    raise 0x06 0x0603
      [(1, m.clk.switchFrom), (1, rd m F.CLK_STATE_SEL), (2, 0), (4, s2n 32 (meanOfs m (rd m F.CLK_STATE_SEL) - m.clk.ctl)),
       (8, s2n 64 phase)]
      (wr F.CLK_STATE_BRIDGING 0 (setClk { m.clk with absorbed := phase } m))
  else m

/-- REF_FIRST_EDGE. -/
def execRefFirstEdge (phase : Int) (s : State) : Host.Outcome State Fault Refusal := onMach (refFirstEdge phase) s

/-- HIST_VALID after 61 s of unbroken lock (R99). -/
def histValidSet (m : Mach) : Mach := onlyIf (decide (61 ≤ m.clk.lockedSec)) (wr F.CLK_STATE_HIST_VALID 1) m

/-- HIST_VALID_SET. -/
def execHistValidSet (s : State) : Host.Outcome State Fault Refusal := onMach histValidSet s

/-! Holdover accounting (R104, R105). -/

/-- The estimate E at t seconds, in ns rounded down: the register terms are in 1/16 ppb, the temperatures in 1/4 degree. -/
def holdEstimate (m : Mach) (h : Holdover) (t : Nat) : Nat :=
  let y0 := if h.kind = 0 then su m F.CLK_HOLD_Y0_NORMAL else su m F.CLK_HOLD_Y0_SAVED
  (y0 * t * 172800 * 4 + su m F.CLK_HOLD_DRIFT_AGE_UNC * t * t * 4 + su m F.CLK_HOLD_DRIFT_TEMPCO * h.sumTemp * 172800) /
    (16 * 172800 * 4)

/-- A second of holdover: the timebase moves to its holdover frequency, and outside free run the estimate is updated and judged
against its limit (R102-R105). temp is the die temperature in units of 0.25 degrees C. -/
def holdoverEstimate (temp : Int) (m : Mach) : Mach :=
  match m.clk.hold with
  | none => m
  | some h =>
    let m1 := bump F.CLK_HOLD_SEC_SEC 1 m
    let h1 := { h with sumTemp := h.sumTemp + (temp - h.tempRef).natAbs }
    let e := min (holdEstimate m1 h1 (rd m1 F.CLK_HOLD_SEC_SEC)) 0xFFFFFFFF
    let oos := decide (su m F.CLK_HOLD_LIMIT_NS ≤ e)
    let ctl := slewTo m1 (h.base + holdAgeing m1)
    if h.kind = 2 then setClk { m1.clk with hold := some h1, ctl := ctl } m1
    else
      watchHold (onlyIf (oos && !h.oos) (wr F.CLK_FLAGS_HOLDOVER_OUT_OF_SPEC 1) (wr F.CLK_HOLD_EST_NS e
        (setClk { m1.clk with hold := some { h1 with oos := oos }, ctl := ctl } m1)))

/-- HOLDOVER_ESTIMATE. -/
def execHoldoverEstimate (temp : Int) (s : State) : Host.Outcome State Fault Refusal := onMach (holdoverEstimate temp) s

/-- The bins of the window from 70 to 10 minutes before the present second (R101). -/
def savedWindow (m : Mach) : List (Int × Int) := (m.clk.hist.drop 600).take 3600

/-- A full hour of lock: the mean control word and temperature of the window from 70 to 10 minutes before are stored, with the domain time
at the window's end (R101); how the means round is the device's (DESIGN CHOICE, log 91). -/
def savedValueStore (ctl temp : Int) (m : Mach) : Mach :=
  if flag m F.CLK_CTRL_SAVE_EN && rd m F.CLK_STATE_MODE == 2 && m.clk.lockedSec != 0 && m.clk.lockedSec % 3600 == 0 then
    let v := { ctl := roundedMean ((savedWindow m).map Prod.fst) ctl, temp := roundedMean ((savedWindow m).map Prod.snd) temp, sec := domSec m - 600 }
    wr F.CLK_SAVED_AGE_SEC 600 (setClk { m.clk with saved := some v } m)
  else m

/-- SAVED_VALUE_STORE. -/
def execSavedValueStore (ctl temp : Int) (s : State) : Host.Outcome State Fault Refusal := onMach (savedValueStore ctl temp) s

/-! Outputs and aligners (R107-R116). -/

/-- The bit of an output in a register of aligner bits. -/
def alBit (f : Fld) (a : Nat) (b : Bool) (m : Mach) : Mach := wr f (putBit (rd m f) a b) m

/-- Whether an engine drives an output. -/
def drives (m : Mach) (k a : Nat) : Bool := (ramp m k).output == some a

/-- Whether an output has a ramp profile running (R116). -/
def rampOn (m : Mach) (a : Nat) : Bool := (List.range 8).any (fun k => drives m k a && (ramp m k).segs != [])

/-- An engine returns to idle with its output stopped (R118). -/
def rampStop (k a : Nat) (m : Mach) : Mach :=
  if drives m k a then
    let m1 := wr F.CLK_RAMP_STAT_ACTIVE (clrBit (rd m F.CLK_RAMP_STAT_ACTIVE) k) (wri F.CLK_RAMP_OFS_PPB k 0 (setRamp k {} m))
    onlyIf ((ramp m k).segs != []) (raise 0x06 0x0608 [(1, k), (1, a), (1, 2), (1, 0), (4, rdi m F.CLK_RAMP_OFS_PPB k), (8, 0)]) m1
  else m

/-- An output stops and is held low (R114); a serial-port group that it clocked is lost. -/
def alStop (a : Nat) (m : Mach) : Mach :=
  if (aligner m a).st = .stopped then m
  else
    let m1 := alBit F.CLK_AL_RUN_RUN a false (alBit F.CLK_AL_LOCK_LOCK a false (alBit F.CLK_SYNC_MASK_MASK a false
      (setAl a { aligner m a with st := .stopped, slew := 0, good := 0 } m)))
    onlyIf (decide (8 ≤ a)) (groupLost (a - 8)) (forEach (List.range 8) (fun k => rampStop k a) m1)

/-- An output starts: held low, band search of 8 deals (R113). The band kept is the fine delay's own outcome: a free value. -/
def alStart (a hz den mode : Nat) (ofs : Int) (m : Mach) : Mach :=
  useFresh 1 (setAl a { st := .search 0, mode := mode, hz := hz, den := den, ofs := ofs, band := (freeVal m).toNat % 8,
                        bits := if 8 ≤ a then rdi m F.SAP_GRP_FRAME_BITS (a - 8) else 0 } m)

/-- The denominator of the rate at which an output's aligned edge comes: of the output itself, or of the frame sync of a serial-port
group, which its bits divide (R109). -/
def alDen (a : Nat) (o : Aligner) : Nat := if 8 ≤ a then o.den * max 1 o.bits else o.den

/-- The shorter way round the period for a phase in ps, delaying on a tie; the period is 10^12 * den / hz ps (R112). -/
def shorterWay (x : Int) (hz den : Nat) : Int :=
  if hz = 0 then 0
  else
    let p : Int := 10 ^ 12 * den
    let r := (x * hz) % p
    (if p < 2 * r then r - p else r) / hz

/-- A running output's phase moves by x ps, slewed under R112. -/
def alSlew (a : Nat) (x : Int) (m : Mach) : Mach :=
  let o := aligner m a
  setAl a { o with slew := shorterWay (o.slew + x) o.hz (alDen a o) } m

/-- Domain time has moved by x ps against the timebase: the alignment instants of the running GRID and SECOND outputs move with it (R98,
R112). -/
def instantMoved (x : Int) (m : Mach) : Mach :=
  forEach (List.range 24) (fun a m => onlyIf ((aligner m a).st == .on && (aligner m a).mode < 2) (alSlew a x) m) m

/-- The next deal of an output: the band search, the first edge at its alignment instant, and at most 300 ppm of a deal, 37,500
ps, of phase (R111-R113). -/
def alTick (a : Nat) (m : Mach) : Mach :=
  let o := aligner m a
  let begin_ (m : Mach) : Mach := alBit F.CLK_AL_RUN_RUN a true (setAl a { o with st := .on } m)
  match o.st with
  | .stopped => m
  | .search n =>
    if n < 7 then setAl a { o with st := .search (n + 1) } m
    else if o.mode = 1 && m.deal % 8000 != 0 then setAl a { o with st := .waiting } m
    else begin_ m
  | .waiting => if m.deal % 8000 = 0 then begin_ m else m
  | .on => if o.slew = 0 then m else setAl a { o with slew := o.slew - max (-37500) (min 37500 o.slew) } m

/-- A measurement window of an aligner ends (R113 step 4, R115): the lock bit, the sticky loss bit, and EV_SYNC_ALIGNED once every
output of a SYNC_IN mask has locked (R116). A FREE output has no phase to judge. -/
def alignerWindowEnd (a : Nat) (freqPpb phasePs : Int) (m : Mach) : Mach :=
  let o := aligner m a
  if a < 24 && o.st == .on then
    let lim := su m F.CLK_LOCK_PPM * 1000
    let ph := if o.mode = 2 then 0 else phasePs.natAbs
    let good := if freqPpb.natAbs ≤ lim && ph ≤ 1000 then o.good + 1 else 0
    let locked := (rd m F.CLK_AL_LOCK_LOCK).testBit a
    let lost := locked && (2 * lim < freqPpb.natAbs || 10000 < ph)
    let locks := !locked && 4 ≤ good
    let m1 := setAl a { o with good := good } m
    let m2 := onlyIf lost (fun m => orReg F.CLK_AL_LOSS_LOSS (2 ^ a) (alBit F.CLK_AL_LOCK_LOCK a false m)) m1
    let m3 := onlyIf locks (alBit F.CLK_AL_LOCK_LOCK a true) m2
    if locks && m3.clk.syncWait.testBit a && (bitsOf 24 m3.clk.syncWait).all (fun b => (rd m3 F.CLK_AL_LOCK_LOCK).testBit b) then
      raise 0x06 0x0609 [(4, m3.clk.syncWait), (4, 0), (8, m3.clk.syncEdge)] (setClk { m3.clk with syncWait := 0 } m3)
    else m3
  else m

/-- ALIGNER_WINDOW_END. -/
def execAlignerWindowEnd (a : Nat) (freqPpb phasePs : Int) (s : State) : Host.Outcome State Fault Refusal :=
  onMach (alignerWindowEnd a freqPpb phasePs) s

/-- The phase that an output must move by to follow a SYNC_IN edge; a FREE output's own phase is a free value. -/
def syncShift (edgeNs : Nat) (o : Aligner) (m : Mach) : Int :=
  if o.mode = 2 then (freeVal m).toNat
  else ((edgeNs : Int) - (if o.mode = 3 then o.ref else 0 : Nat)) * 1000 + m.clk.syncOfs - o.ofs

/-- One output of the armed mask at the active edge (R116). A serial-port group that leaves the grid slips (13 R367). A stopped output that
was never configured has no frequency and is left out, and the lock bit of a running one clears without the loss bit (DESIGN CHOICE, log 84). -/
def syncOut (edgeNs a : Nat) (m : Mach) : Mach :=
  let o := aligner m a
  if o.st = .stopped then
    if o.hz = 0 then m
    else
      let m1 := alStart a o.hz o.den 3 m.clk.syncOfs m
      setAl a { aligner m1 a with ref := edgeNs } m1
  else
    let y := { o with mode := 3, ofs := m.clk.syncOfs, good := 0, ref := edgeNs, st := if o.st = .waiting then .search 7 else o.st,
                      slew := if o.st = .on then shorterWay (o.slew + syncShift edgeNs o m) o.hz (alDen a o) else 0 }
    onlyIf (8 ≤ a && o.mode == 0) (groupLost (a - 8)) (useFresh 1 (alBit F.CLK_AL_LOCK_LOCK a false (setAl a y m)))

/-- An output in SYNC mode takes an active edge as its alignment instant (R108, R116). -/
def syncFollow (edgeNs a : Nat) (m : Mach) : Mach :=
  let o := aligner m a
  if o.mode = 3 && o.st != .stopped then
    setAl a { o with ref := edgeNs, slew := if o.st = .on then shorterWay (o.slew + syncShift edgeNs { o with ofs := m.clk.syncOfs } m) o.hz (alDen a o) else o.slew } m
  else m

/-- An active SYNC_IN edge at a domain time in ns: the outputs in SYNC mode follow it, and an armed mask takes effect (R116). -/
def syncInEdge (edgeNs : Nat) (m : Mach) : Mach :=
  let m0 := forEach (List.range 24) (syncFollow edgeNs) m
  if flag m F.CLK_SYNC_STAT_ARMED then
    wr F.CLK_SYNC_STAT_ARMED 0
      (forEach (bitsOf 24 m.clk.syncArm) (syncOut edgeNs)
        (setClk { m0.clk with syncEdge := edgeNs, syncWait := m.clk.syncArm, syncArm := 0 } m0))
  else m0

/-- SYNC_IN_EDGE. -/
def execSyncInEdge (edgeNs : Nat) (s : State) : Host.Outcome State Fault Refusal := onMach (syncInEdge edgeNs) s

/-! The ramp generator (R117, R118, R121). -/

/-- The offset of a segment after p of its deals (R117). -/
def segOffset (start : Int) (g : RampSeg) (p : Nat) : Int :=
  let p := min p g.dur
  if g.cosine then start + nearDiv ((g.target - start) * (oneQ - cosTurn p (2 * g.dur))) (2 * oneQ)
  else start + nearDiv ((g.target - start) * p) g.dur

/-- One deal of an engine. -/
def rampTick (k : Nat) (m : Mach) : Mach :=
  let r := ramp m k
  match r.segs with
  | [] => m
  | g :: _ => wri F.CLK_RAMP_OFS_PPB k (s2n 32 (segOffset r.start g (r.pos + 1))) (setRamp k { r with pos := r.pos + 1 } m)

/-- A segment ends: the next begins, or the last offset holds and the profile is reported (R117). -/
def rampSegmentEnd (k : Nat) (m : Mach) : Mach :=
  let r := ramp m k
  match r.segs with
  | [] => m
  | g :: rest =>
    if 1 ≤ k && k ≤ 7 && g.dur ≤ r.pos then
      let m1 := wri F.CLK_RAMP_OFS_PPB k (s2n 32 g.target) (setRamp k { r with segs := rest, pos := 0, start := g.target } m)
      if rest = [] then
        raise 0x06 0x0608 [(1, k), (1, r.output.getD 0), (1, 0), (1, 0), (4, s2n 32 g.target), (8, 0)]
          (wr F.CLK_RAMP_STAT_ACTIVE (clrBit (rd m F.CLK_RAMP_STAT_ACTIVE) k) m1)
      else m1
    else m

/-- RAMP_SEGMENT_END. -/
def execRampSegmentEnd (k : Nat) (s : State) : Host.Outcome State Fault Refusal := onMach (rampSegmentEnd k) s

/-- The media clock unit's part of a deal boundary. -/
def clkTick (m : Mach) : Mach :=
  forEach ((List.range 8).drop 1) rampTick (forEach (List.range 24) alTick m)

/-- A segment of RAMP_LOAD's buffer (R121). -/
def segOf (l : List Byte) : RampSeg := { target := n2s 32 (leAt l 0 4), dur := leAt l 4 4, cosine := leAt l 8 1 == 1 }

/-- Whether a segment's bytes are legal (R117, R121). -/
def segOk (l : List Byte) : Bool :=
  (n2s 32 (leAt l 0 4)).natAbs ≤ 300000 && leAt l 4 4 != 0 && leAt l 8 1 ≤ 1 && leAt l 9 7 == 0

/-- RAMP_LOAD's effect (R117, R118, R121). An output in its band search, or waiting for its first edge, counts as stopped (DESIGN CHOICE,
log 86). -/
def rampLoad : Eff := fun c _ m =>
  let k := u8 c 24
  let a := u8 c 25
  let n := u16 c 26
  let recs := records 16 n (bufBytes c)
  if !(1 ≤ k && k ≤ 7 && a < 24 && 1 ≤ n && n ≤ 16 && bufLen c == 16 * n && bufOk c false m && recs.all segOk) then bad m
  else if (aligner m a).st != .on || (aligner m a).mode != 2 || (List.range 8).any (fun j => j != k && drives m j a) then bad m
  else
    let r := ramp m k
    let ofs := n2s 32 (rdi m F.CLK_RAMP_OFS_PPB k)
    let m1 := onlyIf (r.segs != [])
      (raise 0x06 0x0608 [(1, k), (1, r.output.getD 0), (1, 1), (1, 0), (4, rdi m F.CLK_RAMP_OFS_PPB k), (8, 0)]) m
    okM (orReg F.CLK_RAMP_STAT_ACTIVE (2 ^ k)
      (setRamp k { output := some a, segs := recs.map segOf, pos := 0, start := ofs } m1))

/-- RAMP_LOAD. -/
def execRampLoad (c : Cmd) (s : State) : Host.Outcome State Fault Refusal := onMach (hostRow 0x0602 rampLoad c) s

/-! REF_CONFIG (R119, R120). -/

/-- Kind 0: a reference candidate. A disable judges no other field but the reserved bytes, and a change of the nominal rate or type of an
enabled candidate disqualifies it with cause 4 until it has qualified anew (DESIGN CHOICE, log 81). -/
def refCandidate : Eff := fun c _ m =>
  let i := u8 c 25
  let rank := u8 c 26
  let pps := u8 c 27
  let hz := u32 c 28
  let den := u16 c 32
  let tol := u16 c 34
  if 4 < i || !zeroAt c 36 28 then bad m
  else if rank = 0xFF then
    if i = 4 then bad m
    else
      let m1 := wri F.CLK_REF_STAT_ENABLED i 0 (wri F.CLK_REF_STAT_PRESENT i 0 (wri F.CLK_REF_STAT_IN_TOL i 0 m))
      okM (disqualify i 4 0 m1)
  else if tol = 0 || 2000 < tol || 7 < rank || 1 < pps then bad m
  else if i = 4 then
    if !exists4 m || rank != 0 || pps != 0 || hz != 0 || den != 0 then bad m else okM (wantSelect 7 0 (wri F.CLK_REF_STAT_TOL 4 tol m))
  else if (if pps = 1 then hz != 0 || den != 0 else den == 0 || hz < 8000 * den || 50000000 * den < hz) then bad m
  else
    let x := cand m i
    let same := rdi m F.CLK_REF_STAT_ENABLED i == 1 && x.pps == (pps == 1) && x.hz == hz && x.den == den
    let m1 := wri F.CLK_REF_STAT_ENABLED i 1 (wri F.CLK_REF_STAT_RANK i rank (wri F.CLK_REF_STAT_TOL i tol m))
    if same then okM (wantSelect 7 0 m1)
    else okM (disqualify i 4 0 (wri F.CLK_REF_STAT_PRESENT i 0 (setCand i { pps := pps == 1, hz := hz, den := den } m1)))

/-- Whether a frequency, mode and offset are allowed for an output (R107, R108, Table 4.2). -/
def outputOk (a hz den mode : Nat) (ofs : Int) : Bool :=
  mode ≤ 2 && den != 0 && 1000 * den ≤ hz && hz ≤ (if 8 ≤ a then 49152000 else 100000000) * den &&
    (mode != 0 || hz % (8000 * den) == 0) && (mode != 1 || hz % den == 0) && ofs.natAbs * hz ≤ 10 ^ 12 * den

/-- Kind 1: an output starts, stops or changes; a change is a stop and a start, but for an offset of a GRID or SECOND output,
which is slewed (R114). A stop judges the output alone; a command that repeats the frequency and mode of a running FREE output stops and starts
it (DESIGN CHOICE, log 87). -/
def refOutput : Eff := fun c _ m =>
  let a := u8 c 25
  let hz := u32 c 28
  let den := u16 c 32
  let mode := u8 c 27
  let ofs := s32 c 36
  let o := aligner m a
  if 23 < a || 1 < u8 c 26 || !zeroAt c 34 2 || !zeroAt c 40 24 then bad m
  else if u8 c 26 = 0 then okM (alStop a m)
  else if !outputOk a hz den mode ofs then bad m
  else if o.st != .stopped && mode < 2 && o.mode == mode && o.hz * den == hz * o.den then
    okM (alSlew a (ofs - o.ofs) (setAl a { o with ofs := ofs } m))
  else okM (alStart a hz den mode ofs (alStop a m))

/-- Kind 2: the selector. A forced holdover or free run enters anew where the machine is already in holdover, and its loss instant is the
present second (DESIGN CHOICE, log 83). -/
def refSelector : Eff := fun c _ m =>
  let sel := u8 c 25
  if 3 < sel || !zeroAt c 27 37 || (sel == 3 && (4 < u8 c 26 || !qualified m (u8 c 26))) then bad m
  else
    let mode : SelMode := if sel = 0 then .auto else if sel = 1 then .holdover else if sel = 2 then .freeRun else .cand (u8 c 26)
    let m1 := setClk { m.clk with mode := mode } m
    if (sel = 1 || sel = 2) && (m.clk.mode != mode) then okM (enterHoldover 0 m1) else okM (wantSelect 7 0 m1)

/-- Kind 3: SYNC_IN is armed with a mask, or disarmed by a zero mask (R116). -/
def refSync : Eff := fun c _ m =>
  let mask := u32 c 28
  if 1 < u8 c 25 || 2 ^ 24 ≤ mask || !zeroAt c 26 2 || !zeroAt c 32 4 || !zeroAt c 40 24 then bad m
  else if (bitsOf 24 mask).any (rampOn m) then bad m
  else
    okM (wr F.CLK_SYNC_STAT_ARMED (b2n (mask != 0)) (wr F.CLK_SYNC_STAT_POL (u8 c 25)
      (wr F.CLK_SYNC_MASK_MASK
        (mask ||| ((bitsOf 24 (rd m F.CLK_SYNC_MASK_MASK)).filter (fun a => (aligner m a).mode = 3)).foldl (fun n a => n ||| 2 ^ a) 0)
        (setClk { m.clk with syncOfs := s32 c 36, syncArm := mask } m))))

/-- REF_CONFIG's effect by its kind. -/
def refConfig : Eff := fun c tk m =>
  match u8 c 24 with
  | 0 => refCandidate c tk m
  | 1 => refOutput c tk m
  | 2 => refSelector c tk m
  | 3 => refSync c tk m
  | _ => bad m

/-- REF_CONFIG: applied at this boundary, the choice of R94 is made on its result. -/
def execRefConfig (c : Cmd) (s : State) : Host.Outcome State Fault Refusal := onMach (fun m => selectRef (hostRow 0x0601 refConfig c m)) s

end Sys2Proof.Machine
end

