-- ==== Sys2Proof/Machine/Ring.lean ====
section
/-! DEFINITION. The Heivo ring (06): links, MKA, the forwarder, the seam, bypass and insertion, egress queues with gates and
shapers, launch-time queues, MDIO. Ports are numbered 0 A, 1 B, 2 L0, 3 L1. -/
namespace Sys2Proof.Machine

/-- A port's peers and markers. -/
def port (m : Mach) (p : Nat) : Port := mget {} m.ring.ports p

/-- An egress port. -/
def egress (m : Mach) (p : Nat) : Egress := mget {} m.ring.egress p

/-- The machine with its ring state replaced. -/
def setRing (x : RingSt) (m : Mach) : Mach := { m with ring := x }

/-- The machine with a port replaced. -/
def setPort (p : Nat) (x : Port) (m : Mach) : Mach := setRing { m.ring with ports := mset {} p x m.ring.ports } m

/-- The machine with an egress port replaced. -/
def setEgress (p : Nat) (x : Egress) (m : Mach) : Mach := setRing { m.ring with egress := mset {} p x m.ring.egress } m

/-- A counter of Table 6.9, group 6 (R186). -/
def ringCnt (m : Mach) (p id : Nat) : Nat := mget 0 m.ring.counters (p * 2 ^ 16 + id)

/-- A counter of Table 6.9 raised. -/
def count (p id n : Nat) (m : Mach) : Mach :=
  setRing { m.ring with counters := mset 0 (p * 2 ^ 16 + id) (ringCnt m p id + n) m.ring.counters } m

/-- Tokens that a port's frames hold (R168). -/
def tokHeld (m : Mach) (p : Nat) : Nat :=
  (((egress m p).sending.toList ++ (egress m p).waiting).map QFrame.tokens).sum

/-- The counters of a port start again at its enable (R186), TOKENS_ISSUED with the tokens held, so that the books of R168 stay in balance;
index 16 + 8p + t holds the class counters of group 7. -/
def clearCounters (p : Nat) (m : Mach) : Mach :=
  let keep (e : Nat × Nat) : Bool := e.1 / 2 ^ 16 != p && !(16 + 8 * p ≤ e.1 / 2 ^ 16 && e.1 / 2 ^ 16 < 24 + 8 * p)
  count p 0x010E (tokHeld m p) (setRing { m.ring with counters := m.ring.counters.filter keep } m)

/-- An output record. -/
def emit (o : Out) (m : Mach) : Mach := { m with out := o :: m.out }

/-- The active manager's seat, 0xFFFF where none is known. -/
def activeMgr (m : Mach) : Nat := rd m F.DOM_TRIO_SEAT2_ACTIVE

/-- Whether the device is in the JOINED state (Table 6.7). -/
def joined (m : Mach) : Bool := rd m F.RING_STATE_INS == 5

/-- The insertion state that fixes transit and markers: in LEAVING that of the state left (Table 6.7). -/
def carries (m : Mach) : Nat := if rd m F.RING_STATE_INS = 6 then m.ring.leftIns else rd m F.RING_STATE_INS

/-- Whether a ring or local port is secure. -/
def secure (m : Mach) (p : Nat) : Bool := rdi m F.RING_PORT_STAT_SECURE p == 1

/-- Whether a port's link is up. -/
def linkUp (m : Mach) (p : Nat) : Bool := rdi m F.RING_PORT_STAT_LINK p == 1

/-! Egress: tokens, classes, gates, shapers (R167, R168, R182, R183). -/

/-- Whether a port is on: ENABLE for A and B, EN for L0 and L1 (Table 6.8). -/
def portOn (m : Mach) (p : Nat) : Bool := if p < 2 then flag m F.RING_CTRL_ENABLE else rdi m F.RING_PORT_CFG_EN p == 1

/-- Speed code of a port as its enable latched it: the SPEED field of a ring port, LSPEED of a local port (R157, R185). -/
def speedCode (m : Mach) (p : Nat) : Nat := mget 0 m.ring.speed p

/-- The traffic class of a PCP at a port. -/
def tcOf (m : Mach) (p pcp : Nat) : Nat :=
  rdi m (match pcp with
    | 0 => F.RING_TC_MAP_TC0 | 1 => F.RING_TC_MAP_TC1 | 2 => F.RING_TC_MAP_TC2 | 3 => F.RING_TC_MAP_TC3
    | 4 => F.RING_TC_MAP_TC4 | 5 => F.RING_TC_MAP_TC5 | 6 => F.RING_TC_MAP_TC6 | _ => F.RING_TC_MAP_TC7) p

/-- The rate of a speed code of a port in Mbit/s (Table 6.1). -/
def codeMbps (p code : Nat) : Nat :=
  if p < 2 then (match code with | 0 => 25000 | 1 => 10000 | _ => 1000) else (match code with | 2 => 2500 | _ => 1000)

/-- A port's rate in Mbit/s as its enable latched it. -/
def portMbps (m : Mach) (p : Nat) : Nat := codeMbps p (speedCode m p)

/-- Whether a port runs MACsec. -/
def macsecOn (m : Mach) (p : Nat) : Bool := p < 2 || rdi m F.RING_PORT_CFG_MACSEC p == 1

/-- Transmission time of a frame in ns, MACsec expansion (SecTAG 8, ICV 16 bytes) included (R183). -/
def txNs (m : Mach) (p len : Nat) : Nat := ((len + if macsecOn m p then 24 else 0) * 8000 + portMbps m p - 1) / portMbps m p

/-- Largest frame of a port (R158). -/
def maxFrame (m : Mach) (p : Nat) : Nat := if p < 2 then 4096 else rdi m F.RING_PORT_CFG_MAX_FRAME p

/-- Whether the credit-based shaper of a class is on. -/
def shaped (m : Mach) (p tc : Nat) : Bool := 4 ≤ tc && rdij m F.RING_CBS_EN p (tc - 4) == 1

/-- idleSlope of a class in kbit/s. -/
def idleKbps (m : Mach) (p tc : Nat) : Nat := rdij m F.RING_CBS_IDLE_KBPS p (tc - 4)

/-- Credits at a later time (IEEE 802.1Q-2022 8.6.8.2): a sending class loses sendSlope, a waiting or indebted one gains
idleSlope, an idle one holds no positive credit. Slopes in kbit/s over ns give bits after a division by 10^6. -/
def advanceCredit (p now : Nat) (m : Mach) : Mach :=
  let e := egress m p
  let dt : Int := now - e.last
  let one (c : SMap Int) (tc : Nat) : SMap Int :=
    if shaped m p tc then
      let idle : Int := idleKbps m p tc
      let rate : Int := portMbps m p * 1000
      let v := mget 0 c tc
      let sends := decide ((e.sending.map QFrame.tc) = some tc)
      let waits := e.waiting.any (fun f => f.tc = tc)
      let hi : Int := maxFrame m p * 8 * idle / rate
      let lo : Int := -((maxFrame m p : Int) * 8 * (rate - idle) / rate)
      let v1 := if sends then max lo (v + (idle - rate) * dt / 1000000)
        else if waits then min hi (v + idle * dt / 1000000)
        else if v < 0 then min 0 (v + idle * dt / 1000000) else 0
      mset 0 tc v1 c
    else mdel tc c
  setEgress p { e with credit := [4, 5, 6, 7].foldl one e.credit, last := max e.last now } m

/-- Whether the gate of a class is open in an entry of the list; class 7 counts as always open (R183). -/
def gateIn (e : Egress) (tc k : Nat) : Bool := tc == 7 || ((e.oper.getD k (0xFF, 0)).1).testBit tc

/-- Time from now for which a class's gate stays open, over at most one round of the list. -/
def openFor (e : Egress) (tc now : Nat) : Nat :=
  let rec go : Nat → Nat → Nat → Nat
    | 0, _, acc => acc
    | n + 1, k, acc => if gateIn e tc k then go n ((k + 1) % e.oper.length) (acc + (e.oper.getD k (0, 0)).2) else acc
  if gateIn e tc e.entry then (e.gateEnd - now) + go e.oper.length ((e.entry + 1) % e.oper.length) 0 else 0

/-- A gate list over one cycle: it is cut where it runs beyond the cycle, and its last state lasts to the cycle's end (R183; DESIGN
CHOICE, log 95). -/
def tasFit : Nat → List (Nat × Nat) → List (Nat × Nat)
  | _, [] => []
  | r, [x] => [(x.1, r)]
  | r, x :: y :: t => if r ≤ x.2 then [(x.1, r)] else x :: tasFit (r - x.2) (y :: t)

/-- Launch times queued at a port. -/
def launchTimes (m : Mach) (p : Nat) : List Nat :=
  ((mget [] m.tim.queues (2 * p)) ++ (mget [] m.tim.queues (2 * p + 1))).map LaunchFrame.at_ns

/-- Whether the gate of a frame's class stays open to its end; without an operational list all gates are open (R183). -/
def gateOpen (p now : Nat) (f : QFrame) (m : Mach) : Bool :=
  let e := egress m p
  rdi m F.RING_TAS_CTRL_ENABLE p == 0 || f.tc == 7 || e.oper == [] || txNs m p f.len ≤ openFor e f.tc now

/-- Whether a frame may start now: its gate stays open to its end, its class has credit, and a frame that is not in transit does
not overlap a queued launch time (R146, R182, R183). -/
def canStart (p now : Nat) (f : QFrame) (m : Mach) : Bool :=
  gateOpen p now f m && (!shaped m p f.tc || 0 ≤ mget 0 (egress m p).credit f.tc) &&
    (f.transit || !(launchTimes m p).any (fun l => now ≤ l && l < now + txNs m p f.len))

/-- Units of 1/65,536 ns as ps, rounded down. -/
def toPs (u : Int) : Int := u * 1000 / 65536

/-- Ps as units of 1/65,536 ns, rounded down. -/
def ofPs (p : Int) : Int := p * 65536 / 1000

/-- An instant at the 50 ps resolution of a stamp (05 R144). -/
def stamp50 (u : Nat) : Nat := (ofPs (toPs u / 50 * 50)).toNat

/-- The ingress stamp of a frame that a port takes at an instant: an external PHY has delayed it (05 R130, R144). -/
def stampIn (m : Mach) (p u : Nat) : Nat := stamp50 (u - (ofPs (sui m F.TIM_PORT_RX_EXT_PS p)).toNat)

/-- The egress stamp of a frame that leaves a port at an instant: an external PHY delays it (05 R130, R144). -/
def stampOut (m : Mach) (p u : Nat) : Nat := stamp50 (u + (ofPs (sui m F.TIM_PORT_TX_EXT_PS p)).toNat)

/-- A frame starts at an egress port, with its stamp and, where the port has an SA, the next packet number (R171; 05 R144, R145). -/
def startFrame (p now : Nat) (f : QFrame) (m : Mach) : Mach :=
  let x := port m p
  let st := stampOut m p (now * 65536)
  let own := secure m p && !f.clear
  let g := if own then { f with pn := x.txPn } else f
  emit (.egress p g st) (count p 0x0102 1 (count (16 + 8 * p + f.tc) 0x0120 1
    (setEgress p { egress m p with sending := some g } (setPort p { x with txPn := if own then x.txPn + 1 else x.txPn, txStamp := st } m))))

/-- The next frame of an idle port: strict priority, and within a class the order of arrival (R182). -/
def pickFrame (p now : Nat) (m : Mach) : Mach :=
  let e := egress m p
  if e.sending.isSome then m
  else
    let heads := ([7, 6, 5, 4, 3, 2, 1, 0].filterMap (fun tc => e.waiting.find? (fun f => f.tc = tc))).filter (fun f => canStart p now f m)
    match heads with
    | [] => m
    | f :: _ => startFrame p now f (setEgress p { e with waiting := e.waiting.erase f } m)

/-- Free tokens of a port. -/
def tokFree (m : Mach) (p : Nat) : Nat := rdi m F.RING_TOK_FREE_FREE p

/-- Tokens leave or return to a port's pool. -/
def setTok (p v : Nat) (m : Mach) : Mach := wri F.RING_TOK_FREE_FREE p v m

/-- A frame that must wait takes its tokens, or is discarded where too few are free; EV_RING_TOKEN_LOW once per run below 512
(R168). -/
def enqueue (p : Nat) (f : QFrame) (m : Mach) : Mach :=
  let n := (f.len + 255) / 256
  let e := egress m p
  if tokFree m p < n then
    count p 0x0111 1 (setEgress p { e with dropRun := e.dropRun + 1 } m)
  else
    let free := tokFree m p - n
    let low := free < 512 && !e.tokenLow
    let e1 := { e with waiting := e.waiting ++ [{ f with tokens := n }], tokenLow := e.tokenLow || decide (free < 512) }
    let m1 := count p 0x010E n (setTok p free (setEgress p e1 m))
    let m2 := onlyIf f.transit (count p 0x0104 1) m1
    onlyIf low (fun m => raise 0x01 0x0104 [(1, p), (3, 0), (4, free), (4, e.dropRun), (4, 0)] (wr F.RING_FLAGS_TOKEN_LOW 1 m)) m2

/-- Whether a frame may start at once: the port is idle, its gate open with credit, and no frame of its class waits before it (R167,
R182). -/
def startsNow (p now : Nat) (f : QFrame) (m : Mach) : Bool :=
  (egress m p).sending.isNone && canStart p now f m && !(egress m p).waiting.any (fun g => g.tc == f.tc)

/-- Whether a port may send frames other than MKPDUs: a MACsec port has its SA, with packet numbers left (R169, R170). -/
def maySend (m : Mach) (p : Nat) : Bool :=
  !macsecOn m p || (secure m p && ((port m p).xpn || (port m p).txPn < 2 ^ 32))

/-- A frame for an egress port: it starts where the port is idle and its gate open, else it waits (R167, R168). -/
def toEgress (p now : Nat) (cut : Bool) (f : QFrame) (m : Mach) : Mach :=
  let m1 := pickFrame p now (advanceCredit p now m)
  if startsNow p now f m1 then onlyIf (cut && f.transit) (count p 0x0103 1) (startFrame p now f m1)
  else onlyIf (!gateOpen p now f m1) (count (16 + 8 * p + f.tc) 0x0121 1) (enqueue p f m1)

/-- A frame of this device's own for a port: a MACsec port without an SA discards it (R170). len counts the whole frame. -/
def ownFrame (p tc len : Nat) (tag : Option RingTag) (m : Mach) : Mach :=
  if !maySend m p then count p 0x0305 1 m
  else toEgress p m.tim.ns false { tc := tc, len := max 64 len, tokens := 0, transit := false, poisoned := false, ident := 0, tag := tag } m

/-- An MKPDU leaves a port, with or without an SA (R170, R183). -/
def sendMkpdu (p : Nat) (m : Mach) : Mach :=
  let m1 := setPort p { port m p with hello := m.ticks } (emit (.mkpdu p) m)
  toEgress p m.tim.ns false { tc := 7, len := 64, tokens := 0, transit := false, poisoned := false, ident := 0, clear := true } m1

/-- The seats of the roster less one, at which a talker's HOPS_LEFT starts; without a roster the largest table's (R166; DESIGN
CHOICE, log 107). -/
def hopsOut (m : Mach) : Nat := match m.dom.roster with | some r => r.ents.length - 1 | none => 1023

/-- The ring tag of a frame that this device sends (R161, R166, R173). -/
def ownTag (dual : Bool) (m : Mach) : RingTag :=
  { dual := dual, epoch := rd m F.RING_STATE_EPOCH % 2, origin := ownSeat m, hops := hopsOut m }

/-- The header of a Heivo control frame (Table 6.3). -/
def heivoHdr (sub : Nat) (p : Pay) (m : Mach) : Pay :=
  [(2, 0x88B5), (1, sub), (1, 1), (2, ownSeat m), (2, rd m F.DOM_TABLE_TABLE_ID), (2, (p.map Prod.fst).sum), (2, 0)]

/-- Bytes of a control frame: addresses, the ring tag, the header, its content and the FCS (DEDUCED, log 109). -/
def heivoLen (tag : Option RingTag) (p : Pay) : Nat := 28 + (if tag.isSome then 8 else 0) + (p.map Prod.fst).sum

/-- A Heivo control frame out of a ring port, with class 7 (R162, R183). -/
def sendHeivo (port sub : Nat) (tag : Option RingTag) (p : Pay) (m : Mach) : Mach :=
  ownFrame port 7 (heivoLen tag p) tag (onlyIf (maySend m port) (emit (.heivo port sub tag (heivoHdr sub p m) p)) m)

/-- A Heivo control frame with DUAL set, out of both ring ports (R162, R166). -/
def sendBoth (sub : Nat) (p : Pay) (m : Mach) : Mach :=
  sendHeivo 1 sub (some (ownTag true m)) p (sendHeivo 0 sub (some (ownTag true m)) p m)

/-- A trio record leaves as a tunnel request frame with MGR_SEQ 0 (15 R409); the TUN_ID is the next of this seat (06 R165). -/
def sendTrio (seat op : Nat) (p : Pay) (m : Mach) : Mach :=
  let m1 := tunnelFrames 3 (ownSeat m) seat m.hif.tunNext 0 (2 + (p.map Prod.fst).sum) (emit (.trio seat op p) m)
  { m1 with hif := { m1.hif with tunNext := add32 m1.hif.tunNext 1 } }

/-- The present seats in ring order (15 R402). -/
def ringSeats (r : Roster) : List Nat := (r.ents.filter (fun e => e.present)).map (fun e => e.seat)

/-- The roster seats that lie between two seats, from the first one's port B on (15 R402). -/
def seatsBetween (m : Mach) (a b : Nat) : List Nat :=
  match m.dom.roster with
  | none => []
  | some r =>
    let l := ringSeats r
    if a < b then l.filter (fun t => a < t && t < b) else l.filter (fun t => a < t) ++ l.filter (fun t => t < b)

/-- Whether a seat lies between two fault points that face each other, where it takes no part in the ring. -/
def cutOff (m : Mach) (t : Nat) : Bool :=
  m.ring.faults.any (fun x => x.port == 1 && m.ring.faults.any (fun y => y.port == 0 && (seatsBetween m x.seat y.seat).contains t))

/-- The active manager's verdict on a seat and its peer on a port: both are bound, and no roster seat between them is JOINED (15 R405; a seat that
faults cut off or a heal passed by is not JOINED, DEDUCED, log 101). -/
def verdictOn (m : Mach) (seat p peer : Nat) : Bool :=
  let known (t : Nat) : Bool := m.dom.roster.any (fun r => r.ents.any (fun e => e.seat == t && e.present && e.ldev != 0))
  known seat && known peer &&
    (if p = 1 then seatsBetween m seat peer else seatsBetween m peer seat).all (fun t => !m.dom.joined.contains t || cutOff m t)

/-- A join report at the active manager: the seat's JOINED state is recorded, and both neighbours of each link that the report names are told the
verdict on it (15 R405, R406, R409). -/
def joinReport (seat a b : Nat) (m : Mach) : Mach :=
  let m1 := { m with dom := { m.dom with joined := if m.dom.joined.contains seat then m.dom.joined else m.dom.joined ++ [seat] } }
  forEach ([(0, a), (1, b)].filter (fun q => q.2 != 0xFFFF))
    (fun q m => sendTrio q.2 0xF005 [(2, seat), (1, b2n (verdictOn m seat q.1 q.2))] (sendTrio seat 0xF005 [(2, q.2), (1, b2n (verdictOn m seat q.1 q.2))] m)) m1

/-! The seam (R173-R177). -/

/-- The seam points of a configuration: its fault points, or the home seam where there are none (R173). -/
def seamPoints (mgr : Nat) (faults : List SeamPt) : List SeamPt :=
  if faults = [] then (if mgr = 0xFFFF then [] else [{ seat := mgr, port := 1 }]) else faults

/-- How far a seam point lies from another, along the ring from port A to port B of each seat. -/
def seamDist (x y : SeamPt) : Nat := (2 * y.seat + y.port + 2048 - (2 * x.seat + x.port)) % 2048

/-- Whether a fault point on a port B and one on a port A are the two ends of one link: no seat that is known to be in the ring lies between
them, neither this one nor one with a fault point. -/
def sameLink (m : Mach) (x y : SeamPt) : Bool :=
  x.port == 1 && y.port == 0 && x.seat != y.seat &&
    (({ seat := ownSeat m, port := 0 } : SeamPt) :: m.ring.faults).all (fun z =>
      (z.seat == ownSeat m && carries m != 5) || seamDist x z == 0 || seamDist x y ≤ seamDist x z)

/-- Faulted links: the fault points, less one for each link of which both ends are fault points (R177; DEDUCED, log 106). -/
def faultedLinks (m : Mach) : Nat :=
  m.ring.faults.length - (m.ring.faults.filter (fun x => m.ring.faults.any (sameLink m x))).length

/-- The registers that show the seam (Table 6.8). -/
def showSeam (m : Mach) : Mach :=
  let pts := seamPoints (activeMgr m) m.ring.faults
  let low := pts.foldl (fun b x => if x.seat < b.seat then x else b) { seat := 0xFFFF, port := 0 }
  wr F.RING_SEAM_SEAT low.seat (wr F.RING_SEAM_PORT low.port (wr F.RING_SEAM_HOME (b2n (m.ring.faults = []))
    (wr F.RING_SEAM_SPLIT (b2n (decide (2 ≤ faultedLinks m)))
      (wr F.RING_STATE_SEAM_HERE (b2n (pts.any (fun x => x.seat == ownSeat m))) m))))

/-- The payload of a ring-status frame (R164). -/
def statusPay (x : RingStatus) : Pay :=
  [(1, x.kind), (1, x.cause), (2, 0), (2, x.a.seat), (1, x.a.port), (1, 0),
    (2, (x.b.map SeamPt.seat).getD 0xFFFF), (1, (x.b.map SeamPt.port).getD 0), (1, 0), (8, x.eff), (4, 0)]

/-- A ring status leaves on both ports and is held here too (R174). -/
def floodStatus (x : RingStatus) (m : Mach) : Mach :=
  setRing { m.ring with pendingSt := m.ring.pendingSt ++ [x] } (sendBoth 2 (statusPay x) m)

/-- The effective deal of a ring status that leaves now. -/
def floodDeal (m : Mach) : Nat := m.deal + rd m F.RING_TIMERS_FLOOD_DEALS

/-- This seat detects a fault on a ring port and floods it (R174); a port that is a fault point already, or is announced, is not
announced again, unless a heal on its way will take it out of the fault set. -/
def detectFault (p cause : Nat) (m : Mach) : Mach :=
  let pt : SeamPt := { seat := ownSeat m, port := p }
  let heals := m.ring.pendingSt.any (fun x => x.kind = 2 && (x.a = pt || x.b = some pt))
  if p < 2 && carries m == 5 && (!m.ring.faults.contains pt || heals) && !m.ring.pendingSt.any (fun x => x.kind = 1 && x.a = pt) then
    floodStatus { kind := 1, cause := cause, a := pt, b := none, eff := floodDeal m } m
  else m

/-- A ring-status frame arrives: it is held for its effective deal, or for the next boundary where that has passed (R174, R175);
the second copy of a frame is the same frame. -/
def ringStatusReceive (p : Nat) (x : RingStatus) (m : Mach) : Mach :=
  if m.ring.pendingSt.contains x || m.ring.doneSt.contains x then m
  else if m.deal < x.eff then setRing { m.ring with pendingSt := m.ring.pendingSt ++ [x] } m
  else
    count p 0x0113 1 (setRing { m.ring with pendingSt := m.ring.pendingSt ++ [{ x with eff := m.deal + 1 }], doneSt := x :: m.ring.doneSt } m)

/-- RING_STATUS_RECEIVE. -/
def execRingStatusReceive (p : Nat) (x : RingStatus) (s : State) : Host.Outcome State Fault Refusal :=
  onMach (ringStatusReceive p x) s

/-- The fault set after a status: a fault or a leave adds its points, a heal removes them (R173, R176, R180). -/
def applyFaults (l : List SeamPt) (x : RingStatus) : List SeamPt :=
  let pts := x.a :: x.b.toList
  if x.kind = 2 then l.filter (fun q => !pts.contains q) else l ++ pts.filter (fun q => !l.contains q)

/-- The seats known to be JOINED after a status: a heal shows that those between its points have been passed by (15 R405; log 101). -/
def passedBy (m : Mach) (l : List Nat) (x : RingStatus) : List Nat :=
  match x.b with
  | some b =>
    let gone := if x.a.port = 1 then seatsBetween m x.a.seat b.seat else seatsBetween m b.seat x.a.seat
    if x.kind = 2 then l.filter (fun t => !gone.contains t) else l
  | none => l

/-- The statuses due at this boundary take effect together: one new configuration, one EPOCH (R173). -/
def ringStatusApply (m : Mach) : Mach :=
  let due := m.ring.pendingSt.filter (fun x => x.eff ≤ m.deal)
  if due = [] then m
  else
    let ep := rd m F.RING_STATE_EPOCH
    let m1 := setRing { m.ring with
        pendingSt := m.ring.pendingSt.filter (fun x => m.deal < x.eff)
        doneSt := (due ++ m.ring.doneSt).filter (fun x => m.deal ≤ x.eff + 16)
        faults := due.foldl applyFaults m.ring.faults
        prev := some (m.ring.faults, ep % 2), prevEnd := m.deal + 1 } { m with dom := { m.dom with joined := due.foldl (passedBy m) m.dom.joined } }
    let m2 := showSeam (wr F.RING_FLAGS_SEAM_MOVED 1 (wr F.RING_STATE_EPOCH (ep + 1) m1))
    forEach due (fun x => raise 0x01 0x0101
      [(1, x.kind), (1, x.cause), (2, (ep + 1) % 2 ^ 16), (2, x.a.seat), (1, x.a.port), (1, 0), (8, x.eff)]) m2

/-- RING_STATUS_APPLY. -/
def execRingStatusApply (s : State) : Host.Outcome State Fault Refusal := onMach ringStatusApply s

/-- One deal after a seam change the previous configuration is dropped (R173). -/
def epochGraceEnd (m : Mach) : Mach :=
  if m.ring.prevEnd ≤ m.deal then setRing { m.ring with prev := none } m else m

/-- EPOCH_GRACE_END. -/
def execEpochGraceEnd (s : State) : Host.Outcome State Fault Refusal := onMach epochGraceEnd s

/-- WTR_DEALS of valid markers both ways: the lower seat floods the heal, naming both ends (R176). -/
def linkHeal (p : Nat) (m : Mach) : Mach :=
  let x := port m p
  let own : SeamPt := { seat := ownSeat m, port := p }
  let other : SeamPt := { seat := x.peer, port := 1 - p }
  if p < 2 && linkUp m p && secure m p && joined m && x.peerJoined && rd m F.RING_WTR_WTR_DEALS ≤ min x.markRun x.backRun &&
      ownSeat m < x.peer && (m.ring.faults.contains own || m.ring.faults.contains other) &&
      !m.ring.pendingSt.any (fun y => y.kind = 2 && y.a = own) then
    floodStatus { kind := 2, cause := 5, a := own, b := some other, eff := floodDeal m } m
  else m

/-- LINK_HEAL. -/
def execLinkHeal (p : Nat) (s : State) : Host.Outcome State Fault Refusal := onMach (linkHeal p) s

/-! Links and MKA (R160, R170, R181). -/

/-- The link event of a port: EV_RING_LINK, or EV_LCL_LINK for L0 and L1. -/
def linkEvent (p state cause : Nat) (m : Mach) : Mach :=
  raise (if p < 2 then 1 else 2) (if p < 2 then 0x0105 else 0x0201)
    [(1, p), (1, state), (1, speedCode m p), (1, cause), (12, 0)] m

/-- The status bits of a port: RING_STATE shows A and B as well. -/
def showLink (p link sec : Nat) (m : Mach) : Mach :=
  let m1 := wri F.RING_PORT_STAT_LINK p link (wri F.RING_PORT_STAT_SECURE p sec m)
  if p = 0 then wr F.RING_STATE_LINK_A link (wr F.RING_STATE_SECURE_A sec m1)
  else if p = 1 then wr F.RING_STATE_LINK_B link (wr F.RING_STATE_SECURE_B sec m1)
  else m1

/-- The secure peer that RING_NBR shows. -/
def showNbr (p peer : Nat) (m : Mach) : Mach :=
  if p = 0 then wr F.RING_NBR_NBR_A peer m else if p = 1 then wr F.RING_NBR_NBR_B peer m else m

/-- The marker bit of a ring port. -/
def showMark (p b : Nat) (m : Mach) : Mach :=
  if p = 0 then wr F.RING_STATE_MARK_A b m else if p = 1 then wr F.RING_STATE_MARK_B b m else m

/-- A port's SA is withdrawn. -/
def dropSa (p : Nat) (m : Mach) : Mach :=
  showNbr p 0xFFFF (wri F.RING_PORT_STAT_AN p 0 (showLink p (rdi m F.RING_PORT_STAT_LINK p) 0
    (setPort p { port m p with peer := 0xFFFF, keyNo := 0, peerJoined := false, markRun := 0, backRun := 0 } m)))

/-- A port declares its link down: cause 1 PCS, 2 PHY poll, 3 SA, 4 command; a ring port becomes a fault point (R160, R174). A lost PCS lock
counts as one PCS error (DESIGN CHOICE, log 96). -/
def linkDown (p cause : Nat) (m : Mach) : Mach :=
  if p < 4 && linkUp m p then
    detectFault p (if cause = 3 then 3 else 1)
      (showMark p 0 (showLink p 0 0 (dropSa p (count p 0x010D 1 (linkEvent p 0 cause
        (onlyIf (cause == 1) (count p 0x010A 1) (setPort p { port m p with pcs := if cause = 1 then false else (port m p).pcs } m)))))))
  else m

/-- LINK_DOWN: the PCS lost lock for 10 us. -/
def execLinkDown (p : Nat) (s : State) : Host.Outcome State Fault Refusal := onMach (linkDown p 1) s

/-- Whether a ring port uses an external PHY (R159). -/
def extPhy (m : Mach) (p : Nat) : Bool := if p = 0 then flag m F.RING_CTRL_EXT_PHY_A else p == 1 && flag m F.RING_CTRL_EXT_PHY_B

/-- PCS lock has held for 1 ms and any external PHY reports link: the link is up and an MKPDU leaves at once (R160, R170). -/
def linkUpDeclare (p : Nat) (m : Mach) : Mach :=
  if p < 4 && portOn m p && !linkUp m p && (!extPhy m p || (port m p).phy) then
    onlyIf (macsecOn m p) (sendMkpdu p) (linkEvent p 1 1 (showLink p 1 0 (setPort p { port m p with pcs := true } m)))
  else m

/-- LINK_UP. -/
def execLinkUp (p : Nat) (s : State) : Host.Outcome State Fault Refusal := onMach (linkUpDeclare p) s

/-- The periodic MKPDU of a MACsec port whose link is up, HELLO_MS after the last (R170). -/
def mkaHello (p : Nat) (m : Mach) : Mach :=
  onlyIf (p < 4 && linkUp m p && macsecOn m p && decide ((port m p).hello + 8 * rd m F.RING_MKA_HELLO_MS ≤ m.ticks)) (sendMkpdu p) m

/-- MKA_HELLO. -/
def execMkaHello (p : Nat) (s : State) : Host.Outcome State Fault Refusal := onMach (mkaHello p) s

/-- A port's MKA peer stops being live: its secure channel is unsecured and the link is declared down for it (R160). -/
def mkaPeerLost (p : Nat) (m : Mach) : Mach :=
  if p < 4 && secure m p then
    let m1 := raise 0x03 0x0302 [(1, p), (1, 1), (2, (port m p).peer), (12, 0)] m
    if p < 2 then linkDown p 3 m1 else dropSa p m1
  else m

/-- MKA_PEER_LOST. -/
def execMkaPeerLost (p : Nat) (s : State) : Host.Outcome State Fault Refusal := onMach (mkaPeerLost p) s

/-! Bypass and insertion (R178-R180). -/

/-- A new insertion state with EV_RING_INSERT; ms in the old state are counted in ticks since it was entered. -/
def setIns (new cause : Nat) (m : Mach) : Mach :=
  raise 0x01 0x0102 [(1, new), (1, rd m F.RING_STATE_INS), (1, cause), (1, 0), (4, (m.ticks - m.ring.since) / 8), (8, 0)]
    (wr F.RING_STATE_INS new (setRing { m.ring with
      since := m.ticks, loopOk := false, leftIns := if new = 6 then rd m F.RING_STATE_INS else m.ring.leftIns } m))

/-- The drives go low, and RING_FLAGS.BYPASSED records it. -/
def drivesLow (m : Mach) : Mach :=
  onlyIf (m.ring.bypA || m.ring.bypB) (wr F.RING_FLAGS_BYPASSED 1) (setRing { m.ring with bypA := false, bypB := false } m)

/-- DIAG_ALERT_FLAGS as a word (18 Table 18.15). -/
def alertFlags (m : Mach) : Nat :=
  rd m F.DIAG_ALERT_FLAGS_SUPPLY + 2 * rd m F.DIAG_ALERT_FLAGS_TJ + 4 * rd m F.DIAG_ALERT_FLAGS_ECC + 8 * rd m F.DIAG_ALERT_FLAGS_CRIT +
    16 * rd m F.DIAG_ALERT_FLAGS_SVC + 32 * rd m F.DIAG_ALERT_FLAGS_BYPASS

/-- ALERT_N is pulled low while DIAG_ALERT_FLAGS AND DIAG_ALERT_MASK is not zero (18 R498). -/
def alertPin (m : Mach) : Mach :=
  let low := alertFlags m &&& rd m F.DIAG_ALERT_MASK_MASK != 0
  if low = m.sys.alert then m else emit (.openDrain false low) { m with sys := { m.sys with alert := low } }

/-- A flag of DIAG_ALERT_FLAGS is set (18 R498). -/
def alert (f : Fld) (m : Mach) : Mach := alertPin (wr f 1 m)

/-- A unit of the pass-through set stopped: the drives drop and the device is bypassed (01 R22). unit numbers the units of Table
1.8: 0 supplies, 1 XO, 2 media clock core, 3 ring ports, 4 service cluster, 5 Kolica. -/
def unitLost (unit : Nat) (m : Mach) : Mach :=
  let m1 := setRing { m.ring with unitLost := setBit m.ring.unitLost unit } m
  if rd m F.RING_STATE_INS = 0 then m1
  else
    alert F.DIAG_ALERT_FLAGS_BYPASS
      (setRing { (setIns 0 3 (drivesLow m1)).ring with failAt := some m.ticks, leaveAt := none } (setIns 0 3 (drivesLow m1)))

/-- A unit of the pass-through set works again. -/
def unitBack (unit : Nat) (m : Mach) : Mach := setRing { m.ring with unitLost := clrBit m.ring.unitLost unit } m

/-- PASS_THROUGH_UNIT_LOST. -/
def execPassThroughUnitLost (unit : Nat) (s : State) : Host.Outcome State Fault Refusal := onMach (unitLost unit) s

/-- XO_LOSS: the loss of the XO is handled under R22 (04 R123). -/
def xoLoss (m : Mach) : Mach := unitLost 1 m

/-- XO_LOSS. -/
def execXoLoss (s : State) : Host.Outcome State Fault Refusal := onMach xoLoss s

/-- Whether insertion may start: ENABLE set, FORCE_BYPASS clear, every unit of the pass-through set working, and RETRY_S passed since
the last failure (R179, Table 6.7). -/
def mayInsert (m : Mach) : Bool :=
  rd m F.RING_STATE_INS == 0 && flag m F.RING_CTRL_ENABLE && !flag m F.RING_CTRL_FORCE_BYPASS && m.ring.unitLost == 0 &&
    (match m.ring.failAt with
     | none => true
     | some t => t + rd m F.RING_MKA_RETRY_S * 8000 ≤ m.ticks)

/-- Insertion starts with PREPARE, stage 4 of the boot (17 Table 17.6). -/
def startInsert (m : Mach) : Mach :=
  if mayInsert m then setIns 1 0 (onlyIf (rd m F.SYS_BOOT_STAGE == 3) (wr F.SYS_BOOT_STAGE 4) m) else m

/-- INSERT_RETRY: RETRY_S after a failure insertion starts again. -/
def insertRetry (m : Mach) : Mach := startInsert m

/-- INSERT_RETRY. -/
def execInsertRetry (s : State) : Host.Outcome State Fault Refusal := onMach insertRetry s

/-- A failure of the insertion returns to BYPASSED, and the retry time counts from here. -/
def insertFail (cause : Nat) (m : Mach) : Mach :=
  let m1 := setIns 0 cause (drivesLow m)
  setRing { m1.ring with failAt := some m.ticks, leaveAt := none } m1

/-- The loopback test of PREPARE ends: it fails at once, and passes where it has run for 20 ms (Table 6.7). -/
def loopbackDone (pass : Bool) (m : Mach) : Mach :=
  if rd m F.RING_STATE_INS = 1 then
    if !pass then insertFail 1 m
    else if m.ring.since + 160 ≤ m.ticks then setRing { m.ring with loopOk := true } m
    else m
  else m

/-- CLOSING begins with both drives high at the first deal boundary after the test has passed (Table 6.7). -/
def closingTick (m : Mach) : Mach :=
  if rd m F.RING_STATE_INS = 1 && m.ring.loopOk then
    let m1 := setIns 2 0 m
    setRing { m1.ring with bypA := true, bypB := true, closing := m.ticks } m1
  else m

/-- LOOPBACK_TEST_DONE. -/
def execLoopbackTestDone (pass : Bool) (s : State) : Host.Outcome State Fault Refusal := onMach (loopbackDone pass) s

/-- The join report to the active manager, with the seats that this one meets on its ports (the record's layout is the model's: DESIGN CHOICE, log
101); the active manager treats its own at once (15 R406). As a worker the seat is to ask for a copy (15 R407, R427). -/
def joinReportSend (m0 : Mach) : Mach :=
  let m := { m0 with dom := { m0.dom with needCopy := true } }
  if activeMgr m = 0xFFFF then m
  else if activeMgr m = ownSeat m then joinReport (ownSeat m) (port m 0).peer (port m 1).peer m
  else sendTrio (activeMgr m) 0xF002 [(2, ownSeat m), (2, (port m 0).peer), (2, (port m 1).peer)] m

/-- JOINED: entered from TIMING once time is locked or this seat is the source (Table 6.7; 17 Table 17.6 stage 5). -/
def tryJoin (m : Mach) : Mach :=
  if rd m F.RING_STATE_INS = 4 && (flag m F.TIM_STATE_LOCKED || flag m F.TIM_STATE_SOURCE) then
    joinReportSend (onlyIf (rd m F.SYS_BOOT_STAGE == 4)
      (fun m => wr F.SYS_BOOT_STAGE 5 (wr F.SYS_BOOT_MS_JOINED (min 0xFFFF (m.ticks / 8)) m)) (setIns 5 0 m))
  else m

/-- TIMING: entered from KEYING once a port is secure. -/
def tryTiming (m : Mach) : Mach :=
  if rd m F.RING_STATE_INS = 3 && (secure m 0 || secure m 1) then tryJoin (setIns 4 0 m) else m

/-- RELAY_MS after CLOSING with a link up: KEYING (Table 6.7). -/
def relaySettled (m : Mach) : Mach :=
  if rd m F.RING_STATE_INS = 2 && m.ring.closing + rd m F.RING_TIMERS_RELAY_MS * 8 ≤ m.ticks && (linkUp m 0 || linkUp m 1) then
    tryTiming (setIns 3 0 m)
  else m

/-- RELAY_SETTLED. -/
def execRelaySettled (s : State) : Host.Outcome State Fault Refusal := onMach relaySettled s

/-- KEY_TMO_S after the entry to CLOSING: LEAVING without a ring status, drives low at the next boundary; the ring ports whose links are up
without an SA are reported (R180, Table 6.10). -/
def keyingTimeout (m : Mach) : Mach :=
  let i := rd m F.RING_STATE_INS
  if 2 ≤ i && i ≤ 4 && m.ring.closing + rd m F.RING_MKA_KEY_TMO_S * 8000 ≤ m.ticks then
    let m0 := forEach [0, 1] (fun p m => onlyIf (linkUp m p && !secure m p) (raise 0x03 0x0302 [(1, p), (1, 3), (2, (port m p).peer), (12, 0)]) m) m
    let m1 := setIns 6 2 m0
    setRing { m1.ring with leaveAt := some (m.deal + 1), leaveCause := 2 } m1
  else m

/-- KEYING_TIMEOUT. -/
def execKeyingTimeout (s : State) : Host.Outcome State Fault Refusal := onMach keyingTimeout s

/-- A planned leave (R180): KIND 3 naming the neighbours' facing ports, drives low FLOOD_DEALS later. A device that has not joined
has no ring status to send and leaves at the same deal. -/
def plannedLeave (cause : Nat) (m : Mach) : Mach :=
  let i := rd m F.RING_STATE_INS
  if i = 0 || i = 6 then m
  else if i = 1 then insertFail cause m
  else
    let m1 := onlyIf (i == 5) (floodStatus { kind := 3, cause := 4, a := { seat := (port m 0).peer, port := 1 },
                                             b := some { seat := (port m 1).peer, port := 0 }, eff := floodDeal m }) m
    let m2 := setIns 6 cause m1
    setRing { m2.ring with leaveAt := some (floodDeal m), leaveCause := cause } m2

/-- A device bypassed with ENABLE clear has its ring ports and forwarder stopped (R180). -/
def stopRing (m : Mach) : Mach :=
  onlyIf (rd m F.RING_STATE_INS == 0 && !flag m F.RING_CTRL_ENABLE) (fun m => linkDown 1 4 (linkDown 0 4 m)) m

/-- The effective deal of a leave: both drives drop and the device is bypassed (R180). -/
def leaveDrop (m : Mach) : Mach :=
  match m.ring.leaveAt with
  | none => m
  | some d =>
    if rd m F.RING_STATE_INS = 6 && d ≤ m.deal then
      let m1 := setIns 0 m.ring.leaveCause (drivesLow m)
      stopRing (setRing { m1.ring with leaveAt := none, failAt := if m.ring.leaveCause = 2 then some m.ticks else m1.ring.failAt } m1)
    else m

/-! RING_CTRL (R157, R179, R180; 14 R397). -/

/-- Fields of RING_CTRL that a write sets whatever else it does. -/
def ringCtrlPlain (v : Nat) (m : Mach) : Mach :=
  let sp (f : Fld) (x : Nat) (m : Mach) : Mach := if x ≤ 2 then wr f x m else m
  sp F.RING_CTRL_SPEED_A (v / 16 % 4) (sp F.RING_CTRL_SPEED_B (v / 64 % 4)
    (wr F.RING_CTRL_FEC_A (v / 256 % 2) (wr F.RING_CTRL_FEC_B (v / 512 % 2) (wr F.RING_CTRL_EXT_PHY_A (v / 1024 % 2)
      (wr F.RING_CTRL_EXT_PHY_B (v / 2048 % 2) (wr F.RING_CTRL_LCL_BRIDGE (v / 4096 % 2) m))))))

/-- A port's enable: its counters start again, its link delay is forgotten, and its speed and FEC are latched (R185, R186; 05 Table 5.5). -/
def enablePort (p code fec : Nat) (m : Mach) : Mach :=
  let x := mget {} m.tim.dirs p
  let m1 := clearCounters p (setRing { m.ring with speed := mset 0 p code m.ring.speed, fec := mset 0 p fec m.ring.fec } m)
  let m2 := { m1 with tim := { m1.tim with dirs := mset {} p { x with delays := [], prevRx := 0, sent := [] } m1.tim.dirs } }
  if p = 0 then wr F.TIM_LINK_A_PS 0 m2 else if p = 1 then wr F.TIM_LINK_B_PS 0 m2 else m2

/-- A write of ENABLE: refused while the speeds differ; a clear while inserted leaves and then stops the ring ports; while a zone is
latched the clear is ignored and reported. -/
def writeEnable (latched : Bool) (b : Nat) (m : Mach) : Mach :=
  if b = 1 then
    if flag m F.RING_CTRL_ENABLE then m
    else if rd m F.RING_CTRL_SPEED_A != rd m F.RING_CTRL_SPEED_B then m
    else startInsert (enablePort 0 (rd m F.RING_CTRL_SPEED_A) (rd m F.RING_CTRL_FEC_A)
      (enablePort 1 (rd m F.RING_CTRL_SPEED_B) (rd m F.RING_CTRL_FEC_B) (wr F.RING_CTRL_ENABLE 1 m)))
  else if !flag m F.RING_CTRL_ENABLE then m
  else if latched then authFail 9 0 m
  else stopRing (plannedLeave 0 (wr F.RING_CTRL_ENABLE 0 m))

/-- A write of FORCE_BYPASS: setting it leaves under R180; while a zone is latched setting it is ignored and reported. -/
def writeForce (latched : Bool) (b : Nat) (m : Mach) : Mach :=
  if b = 1 then
    if flag m F.RING_CTRL_FORCE_BYPASS then m
    else if latched then authFail 9 0 m
    else plannedLeave 4 (wr F.RING_CTRL_FORCE_BYPASS 1 m)
  else startInsert (wr F.RING_CTRL_FORCE_BYPASS 0 m)

/-- A word written to RING_CTRL. -/
def ringCtrlWrite (latched : Bool) (v : Nat) (m : Mach) : Mach :=
  writeForce latched (v / 2 % 2) (writeEnable latched (v % 2) (ringCtrlPlain v m))

/-- RING_ENABLE_SET: a word that sets ENABLE. -/
def ringEnableSet (v : Word) (m : Mach) : Mach := ringCtrlWrite (zoneLatched m) (v ||| 1).toNat m

/-- RING_ENABLE_SET. -/
def execRingEnableSet (v : Word) (s : State) : Host.Outcome State Fault Refusal := onMach (ringEnableSet v) s

/-- RING_ENABLE_CLEAR: a word that clears ENABLE. -/
def ringEnableClear (v : Word) (m : Mach) : Mach := ringCtrlWrite (zoneLatched m) (v &&& 0xFFFFFFFE).toNat m

/-- RING_ENABLE_CLEAR. -/
def execRingEnableClear (v : Word) (s : State) : Host.Outcome State Fault Refusal := onMach (ringEnableClear v) s

/-- FORCE_BYPASS: a word that sets FORCE_BYPASS. -/
def forceBypass (v : Word) (m : Mach) : Mach := ringCtrlWrite (zoneLatched m) (v ||| 2).toNat m

/-- FORCE_BYPASS. -/
def execForceBypass (v : Word) (s : State) : Host.Outcome State Fault Refusal := onMach (forceBypass v) s

/-- The last byte of a frame leaves: its tokens return and the next frame starts (R168). -/
def egressFrameEnd (p now : Nat) (m : Mach) : Mach :=
  if p < 4 then
    let m1 := advanceCredit p now m
    match (egress m1 p).sending with
    | none => m1
    | some f =>
      let free := tokFree m1 p + f.tokens
      let e := egress m1 p
      pickFrame p now (count p 0x0110 f.tokens (setTok p free
        (setEgress p { e with sending := none, tokenLow := e.tokenLow && decide (free < 512),
                              dropRun := if 512 ≤ free then 0 else e.dropRun } m1)))
  else m

/-- EGRESS_FRAME_END. -/
def execEgressFrameEnd (p now : Nat) (s : State) : Host.Outcome State Fault Refusal := onMach (egressFrameEnd p now) s

/-- A gate interval ends: the next entry takes force and held frames start (R183). -/
def gateIntervalEnd (p now : Nat) (m : Mach) : Mach :=
  let e := egress m p
  if p < 4 && rdi m F.RING_TAS_CTRL_ENABLE p == 1 && e.oper != [] then
    let k := (e.entry + 1) % e.oper.length
    let m1 := advanceCredit p now m
    pickFrame p now (setEgress p { egress m1 p with entry := k, gateEnd := now + (e.oper.getD k (0, 0)).2 } m1)
  else m

/-- GATE_INTERVAL_END. -/
def execGateIntervalEnd (p now : Nat) (s : State) : Host.Outcome State Fault Refusal := onMach (gateIntervalEnd p now) s

/-- An entry of the administrative gate list; an entry never written holds the reset value of RING_GCL_DATA. -/
def gclEntry (m : Mach) (p k : Nat) : Nat × Nat := mget (0xFF, 125000) m.ring.gcl (p * 256 + k)

/-- Writing RING_TAS_CHANGE_HI arms a change, or sets ERR where the deal has passed (R183). -/
def tasChangeArm (p : Nat) (hi : Word) (m : Mach) : Mach :=
  if p < 4 then
    let m1 := wri F.RING_TAS_CHANGE_HI_DEAL p hi.toNat m
    let d := rdi m F.RING_TAS_CHANGE_LO_DEAL p + hi.toNat * 2 ^ 32
    if d < m.deal then wri F.RING_TAS_CTRL_ERR p 1 m1
    else wri F.RING_TAS_CTRL_PENDING p 1 (setRing { m1.ring with changeAt := mset 0 p d m1.ring.changeAt } m1)
  else m

/-- TAS_CHANGE_ARM. -/
def execTasChangeArm (p : Nat) (hi : Word) (s : State) : Host.Outcome State Fault Refusal := onMach (tasChangeArm p hi) s

/-- The first cycle start at or after a change deal, in ns: the base is a deal boundary (R183). -/
def cycleStart (base deal cycle : Nat) : Nat :=
  if deal ≤ base then base * 125000 else base * 125000 + ((deal - base) * 125000 + cycle - 1) / cycle * cycle

/-- The administrative list comes into force at the first cycle start at or after the change deal, which lies within this deal (R183). -/
def tasChangeApply (p : Nat) (m : Mach) : Mach :=
  let cycle := rdi m F.RING_TAS_CYCLE_NS p
  let start := cycleStart (rdi m F.RING_TAS_BASE_LO_DEAL p + rdi m F.RING_TAS_BASE_HI_DEAL p * 2 ^ 32) (mget 0 m.ring.changeAt p) cycle
  if p < 4 && rdi m F.RING_TAS_CTRL_PENDING p == 1 && start < m.tim.ns + 125000 then
    let l := tasFit cycle ((List.range (rdi m F.RING_TAS_CTRL_ADMIN_LEN p)).map (gclEntry m p))
    wri F.RING_TAS_CTRL_PENDING p 0
      (setEgress p { egress m p with oper := l, entry := 0, gateEnd := start + (l.getD 0 (0, 0)).2 } m)
  else m

/-- TAS_CHANGE_APPLY. -/
def execTasChangeApply (p : Nat) (s : State) : Host.Outcome State Fault Refusal := onMach (tasChangeApply p) s

/-! Launch-time queues (05 R145, R146). -/

/-- A frame enters a launch-time queue in launch order; one whose launch lies beyond the horizon, or that finds the queue full, is
discarded and counted. -/
def queueLaunch (p q : Nat) (f : LaunchFrame) (m : Mach) : Mach :=
  let l := mget [] m.tim.queues (2 * p + q)
  if m.tim.ns + su m F.TIM_LAUNCH_HORIZON * 125000 < f.at_ns || 64 ≤ l.length then count p 0x0404 1 m
  else
    let l1 := l.filter (fun g => g.at_ns ≤ f.at_ns) ++ [f] ++ l.filter (fun g => f.at_ns < g.at_ns)
    { m with tim := { m.tim with queues := mset [] (2 * p + q) l1 m.tim.queues } }

/-- The head of a launch-time queue: it starts once its time has come, its gate is open and the port idle, or is discarded where
it is later than LATE_NS; its egress stamp is that of the actual start (R145). A MACsec port without an SA sends no frame (06 R170). -/
def launchReached (p q now : Nat) (m : Mach) : Mach :=
  match mget [] m.tim.queues (2 * p + q) with
  | [] => m
  | f :: rest =>
    let pop (m : Mach) : Mach := { m with tim := { m.tim with queues := mset [] (2 * p + q) rest m.tim.queues } }
    let m1 := advanceCredit p now m
    let x : QFrame := { tc := f.tc, len := f.len, tokens := 0, transit := false, poisoned := false, ident := f.ident,
                        tag := f.dual.map (fun d => ownTag d m) }
    if now < f.at_ns then m
    else if f.at_ns + su m F.TIM_LAUNCH_LATE_NS < now then count p 0x0403 1 (pop m)
    else if !maySend m p then count p 0x0305 1 (pop m)
    else if (egress m1 p).sending.isNone && gateOpen p now x m1 then
      startFrame p now x (count p (if f.at_ns < now then 0x0402 else 0x0401) 1 (pop m1))
    else m1

/-- LAUNCH_TIME_REACHED. -/
def execLaunchTimeReached (p q now : Nat) (s : State) : Host.Outcome State Fault Refusal := onMach (launchReached p q now) s

/-! The forwarder (R163, R166, R171, R172). -/

/-- An ICV or FCS failure: counted, flagged, and reported for the first of a run and every 8,000 deals of it (R171). -/
def icvFail (p : Nat) (fcs : Bool) (m : Mach) : Mach :=
  let x := port m p
  let n := x.icvRun + 1
  let due := x.icvRun == 0 || x.icvDeal + 8000 ≤ m.deal
  let m1 := count p (if fcs then 0x0109 else 0x0301) 1
    (setPort p { x with icvRun := n, icvDeal := if due then m.deal else x.icvDeal } (wr F.RING_FLAGS_ICV_FAIL 1 m))
  onlyIf due (raise 0x03 0x0303 [(1, p), (3, 0), (4, n), (8, 0)]) m1

/-- Whether a Heivo frame is one the device accepts (R163). -/
def heivoOk (m : Mach) (h : Nat × Nat × Nat) : Bool :=
  1 ≤ h.1 && h.1 ≤ 4 && h.2.1 == 1 && (rd m F.DOM_STATE_ROLE == 0 || h.2.2 == rd m F.DOM_TABLE_TABLE_ID)

/-- The fault set that a frame's EPOCH parity names, none where it is older than the previous configuration's deal (R173). -/
def configFor (m : Mach) (parity : Nat) : Option (List SeamPt) :=
  if parity = rd m F.RING_STATE_EPOCH % 2 then some m.ring.faults
  else match m.ring.prev with
    | some (l, par) => if par = parity then some l else none
    | none => none

/-- Whether a port of this seat is a seam point in a configuration. -/
def isSeam (m : Mach) (faults : List SeamPt) (p : Nat) : Bool :=
  (seamPoints (activeMgr m) faults).contains { seat := ownSeat m, port := p }

/-- Local delivery of a whole and verified frame (R166 step 6). -/
def deliverLocal (p : Nat) (f : RingFrame) (m : Mach) : Mach :=
  onlyIf (f.toMe && f.fcsOk && f.icvOk && !f.poisoned) (fun m => emit (.deliver p f.ident) (count p 0x0105 1 m)) m

/-- The copy of a frame for the opposite ring port, with HOPS_LEFT one less (R166 step 5, R171, R172): a bad frame that is forwarded
cut-through ends poisoned, and one that has to wait takes its tokens and is discarded as it ends. -/
def forwardFrame (p : Nat) (f : RingFrame) (m : Mach) : Mach :=
  let o := 1 - p
  let bad := f.poisoned || !f.fcsOk || !f.icvOk
  if secure m o && carries m == 5 then
    let q : QFrame := { tc := tcOf m o f.pcp, len := f.len, tokens := 0, transit := true, poisoned := bad, ident := f.ident,
                        tag := some { dual := f.dual, epoch := f.epoch, origin := f.origin, hops := f.hopsLeft - 1 } }
    let m1 := pickFrame o f.now (advanceCredit o f.now m)
    let n := (f.len + 255) / 256
    if bad && !startsNow o f.now q m1 then
      if tokFree m1 o < n then count o 0x0111 1 m1 else count o 0x010E n (count o 0x0110 n m1)
    else toEgress o f.now true q (onlyIf f.poisoned (count o 0x0302 1) m)
  else m

/-- A frame that arrives on a ring port (R166): the replay window of 0 passes packet numbers not below the next one expected (R169). A
frame of an EPOCH parity whose configuration is past is discarded, DUAL or not (R173; DEDUCED, log 94). -/
def ringFrame (p : Nat) (f : RingFrame) (m0 : Mach) : Mach :=
  let m := setPort p { port m0 p with rxStamp := stampIn m0 p f.ingress } m0
  if 2 ≤ p then m0
  else if !secure m p then count p 0x0305 1 m
  else if f.pn < (port m p).rxPn then count p 0x0304 1 m
  else if 4096 < f.len then count p 0x0109 1 m
  else
    let m1 := count p 0x0101 1 m
    let m2 := if f.poisoned then count p 0x0303 1 m1
      else if !f.fcsOk then icvFail p true m1
      else if !f.icvOk then icvFail p false m1
      else setPort p { port m1 p with icvRun := 0, rxPn := f.pn + 1 } m1
    if (match f.heivo with | some h => !heivoOk m h | none => false) then count p 0x0114 1 m2
    else if f.origin = ownSeat m then count p 0x0106 1 m2
    else match configFor m f.epoch with
      | none => count p 0x0112 1 m2
      | some l =>
        if f.hopsLeft ≤ 1 then deliverLocal p f (count p 0x0107 1 m2)
        else if !f.dual && (isSeam m l p || isSeam m l (1 - p)) then deliverLocal p f (count p 0x0108 1 m2)
        else deliverLocal p f (forwardFrame p f m2)

/-- RING_FRAME_RECEIVE. -/
def execRingFrameReceive (p : Nat) (f : RingFrame) (s : State) : Host.Outcome State Fault Refusal := onMach (ringFrame p f) s

/-- A frame that arrives on a local port: delivered, or bridged to the other local port (R184); a MACsec port without an SA passes none, and its
replay window is 64 frames (R169, R170). -/
def localFrame (p : Nat) (f : LocalFrame) (m0 : Mach) : Mach :=
  if p = 2 || p = 3 then
    let m := setPort p { port m0 p with rxStamp := stampIn m0 p f.ingress } m0
    if !portOn m p then m0
    else if f.poisoned then count p 0x0303 1 m
    else if maxFrame m p < f.len || !f.fcsOk then count p 0x0109 1 m
    else if macsecOn m p && !secure m p then count p 0x0305 1 m
    else if macsecOn m p && f.pn + 64 < (port m p).rxPn then count p 0x0304 1 m
    else
      let m1 := count p 0x0101 1 m
      if !f.macsecOk then count p 0x0301 1 m1
      else
        let m2 := onlyIf (macsecOn m p) (setPort p { port m1 p with rxPn := max (port m1 p).rxPn (f.pn + 1) }) m1
        if f.toMe then emit (.deliver p f.ident) (count p 0x0105 1 m2)
        else if f.reservedGroup || !flag m F.RING_CTRL_LCL_BRIDGE || !portOn m (5 - p) then m2
        else if !maySend m2 (5 - p) then count (5 - p) 0x0305 1 m2
        else toEgress (5 - p) f.now false
          { tc := tcOf m (5 - p) f.pcp, len := f.len, tokens := 0, transit := false, poisoned := false, ident := f.ident } m2
  else m0

/-- LOCAL_FRAME_RECEIVE. -/
def execLocalFrameReceive (p : Nat) (f : LocalFrame) (s : State) : Host.Outcome State Fault Refusal := onMach (localFrame p f) s

/-! Deal markers (R164, R174). -/

/-- A marker's part for the ring: whether it is valid, and what it says of the neighbour (R163, R174); an RX_PREV that moves on shows that the
neighbour receives this seat's own (R176). -/
def ringMarker (p : Nat) (k : MarkerIn) (m : Mach) : Mach :=
  let x := port m p
  let ok := !flag m F.TIM_STATE_EVER_LOCKED || decide (m.deal ≤ k.deal)
  let run := if x.lastMark + 1 = m.deal then x.markRun + 1 else 1
  let back := if k.rxPrev = x.peerRx then 0 else if x.lastMark + 1 = m.deal then x.backRun + 1 else 1
  count p 0x0101 1 (count p 0x010B 1 (onlyIf ok (fun m => showMark p 1
    (setPort p { x with lastMark := m.deal, markRun := run, backRun := back, peerRx := k.rxPrev, peerJoined := k.flags.testBit 0 } m)) m))

/-- A deal ends: a secure ring port that had no valid marker in it counts a missed one, and its run of valid markers ends (R174, R176). -/
def markTick (m : Mach) : Mach :=
  forEach [0, 1] (fun p m => onlyIf (secure m p && decide ((port m p).lastMark < m.deal))
    (fun m => count p 0x010C 1 (setPort p { port m p with markRun := 0, backRun := 0 } m)) m) m

/-- Two deals without a valid marker: the port becomes a fault point (R174). -/
def markerMissed (p : Nat) (m : Mach) : Mach :=
  if p < 2 && secure m p && (port m p).lastMark + 2 ≤ m.deal then
    detectFault p 2 (showMark p 0 (setPort p { port m p with markRun := 0, backRun := 0 } m))
  else m

/-- MARKER_MISSED. -/
def execMarkerMissed (p : Nat) (s : State) : Host.Outcome State Fault Refusal := onMach (markerMissed p) s

/-! The boundary (R165, R182). -/

/-- The tunnel frames that wait leave by both ring ports with DUAL set; their traffic class is that of priority 0 (PRESUMED, log 97). -/
def tunnelsOut (m : Mach) : Mach :=
  forEach m.hif.toSend (fun q m => forEach [0, 1] (fun p m => ownFrame p (tcOf m p 0) (28 + 8 + 16 + q.2) (some (ownTag true m)) m) m)
    { m with hif := { m.hif with toSend := [] } }

/-- The ring's part of a deal boundary: CLOSING may begin, frames that waited for credit start, and waiting tunnel frames leave. -/
def ringTick (m : Mach) : Mach :=
  tunnelsOut (forEach (List.range 4) (fun p m => pickFrame p m.tim.ns (advanceCredit p m.tim.ns m)) (closingTick m))

/-! MDIO (R159). -/

/-- A word written to RING_MDIO_CTRL with GO set: its fields take their values and a transaction starts; while one is in progress GO is set
already, and the one in progress goes on with the operation it started with (R159). -/
def mdioGo (v : Word) (m : Mach) : Mach :=
  let n := v.toNat
  let m1 := wr F.RING_MDIO_CTRL_PRTAD (n % 32) (wr F.RING_MDIO_CTRL_DEVAD (n / 32 % 32) (wr F.RING_MDIO_CTRL_OP (n / 1024 % 4)
    (if 7 ≤ n / 65536 % 64 then wr F.RING_MDIO_CTRL_DIV (n / 65536 % 64) m else m)))
  setRing { m1.ring with mdioBusy := true, mdioOp := if m.ring.mdioBusy then m.ring.mdioOp else n / 1024 % 4 }
    (wr F.RING_MDIO_CTRL_GO 1 (wr F.RING_MDIO_CTRL_BUSY 1 m1))

/-- MDIO_GO. -/
def execMdioGo (v : Word) (s : State) : Host.Outcome State Fault Refusal := onMach (mdioGo v) s

/-- What a poll of an external PHY's status registers 1.1 and 3.1 finds; receive link status is bit 2 of each (R159, R160). -/
def phyResult (q : Nat × Nat × Nat) (m : Mach) : Mach :=
  let ok := q.2.1.testBit 2 && q.2.2.testBit 2
  let m1 := setPort q.1 { port m q.1 with phy := ok } m
  if ok then m1 else linkDown q.1 2 m1

/-- A host transaction ends with what was read; GO and BUSY clear, and the PHY polls that waited are carried out (R159). -/
def mdioDone (data : Nat) (m : Mach) : Mach :=
  if m.ring.mdioBusy then
    let m1 := onlyIf (decide (2 ≤ m.ring.mdioOp)) (wr F.RING_MDIO_DATA_DATA data) m
    let m2 := setRing { m1.ring with mdioBusy := false, polls := [] } (wr F.RING_MDIO_CTRL_GO 0 (wr F.RING_MDIO_CTRL_BUSY 0 m1))
    forEach m.ring.polls phyResult m2
  else m

/-- MDIO_DONE. -/
def execMdioDone (data : Nat) (s : State) : Host.Outcome State Fault Refusal := onMach (mdioDone data) s

/-- A poll of an external PHY, 8 deals after the last of its port; while a host transaction is in progress it waits for its end (R159). -/
def phyPoll (p pma pcs : Nat) (m : Mach) : Mach :=
  if p < 2 && extPhy m p && ((port m p).pollTick = 0 || (port m p).pollTick + 8 ≤ m.ticks) then
    let m1 := setPort p { port m p with pollTick := m.ticks } m
    if m.ring.mdioBusy then setRing { m1.ring with polls := m1.ring.polls ++ [(p, pma, pcs)] } m1 else phyResult (p, pma, pcs) m1
  else m

/-- PHY_STATUS_POLL. -/
def execPhyStatusPoll (p pma pcs : Nat) (s : State) : Host.Outcome State Fault Refusal := onMach (phyPoll p pma pcs) s

/-! COUNTER_QUERY groups 6 and 7 (R186; 05 R146). -/

/-- Group 6. -/
def portCounters (m : Mach) (p : Nat) : Option (List (Nat × Nat)) :=
  if p < 4 then
    some ((List.range 20).map (fun k => (0x0101 + k, if k = 14 then ringCnt m p 0x010E - ringCnt m p 0x0110 else ringCnt m p (0x0101 + k))) ++
      (List.range 6).map (fun k => (0x0301 + k, ringCnt m p (0x0301 + k))) ++
      (List.range 6).map (fun k => (0x0401 + k, ringCnt m p (0x0401 + k))))
  else none

/-- Group 7. -/
def classCounters (m : Mach) (i : Nat) : Option (List (Nat × Nat)) :=
  if i < 32 then
    some [(0x0120, ringCnt m (16 + i) 0x0120), (0x0121, ringCnt m (16 + i) 0x0121),
      (0x0122, s2n 64 (mget 0 (egress m (i / 8)).credit (i % 8)))]
  else none

end Sys2Proof.Machine
end

