-- ==== Sys2Proof/Machine/Critical.lean ====
section
/-! DEFINITION. The route cross-fade (08 R235, R236) and the voter of critical outputs (11 R320-R323, R326). -/
namespace Sys2Proof.Machine

/-- The value that at least two of a list give (R322). -/
def two {α : Type} [DecidableEq α] (l : List (Option α)) : Option α :=
  (l.filterMap id).find? (fun x => 2 ≤ (l.filter (fun y => y == some x)).length)

/-- The retiring deck's samples of a consumer; those of a critical slot are voted among its finished copies. late holds the
retiring nodes that have not finished. -/
def oldSamples (late : List Nat) (c : Nat) (m : Mach) : List Int :=
  let b := (m.dk.retiring.map (fun d => d.body)).getD {}
  match b.crit.find? (fun x => x.slot == c) with
  | some x =>
    let ws := (x.copies.filter (fun p => !(p.nodes.any (fun i => late.contains i)))).map (fun p => image m.frm.rcur (spd m) p.out)
    (List.range (spd m)).map (fun k => (two (ws.map (fun w => w[k]?))).getD 0)
  | none => image m.frm.rcur (spd m) c

/-- The gains of the cross-fade at sample i of n, of the new path and of the old (R235). -/
def fadeGains (i n : Nat) : Int × Int := (tOf ((i + 1) * 4096 * 65536 / n), tOf ((n - 1 - i) * 4096 * 65536 / n))

/-- A changed consumer's samples, cross-faded with those of the retiring deck (R235). -/
def crossfade (late : List Nat) (c : Nat) (xs : List Int) (m : Mach) : List Int :=
  if m.dk.retiring.isNone || !m.frm.chg.contains c then xs
  else
    let i0 := (m.deal - m.frm.xStart) * spd m
    let old := oldSamples late c m
    xs.mapIdx (fun k x =>
      if i0 + k < m.dk.fadeN then
        let g := fadeGains (i0 + k) m.dk.fadeN
        (rnd [(g.2, old.getD k 0), (g.1, x)]).1
      else x)

/-! The voter. -/

/-- One bit of CRC-64 with the ECMA-182 polynomial (R321). -/
def crcBit (c : Nat) : Nat := if 2 ^ 63 ≤ c then (2 * c % 2 ^ 64) ^^^ 0x42F0E1EBA9EA3693 else 2 * c

/-- One byte of the digest. -/
def crcByte (c : Nat) (b : Byte) : Nat := (List.range 8).foldl (fun c _ => crcBit c) (c ^^^ (b.toNat * 2 ^ 56))

/-- A state word in little-endian order; a word wider than 32 bits, such as a meter's sum, takes 12 bytes. -/
def stateBytes (v : Int) : List Byte :=
  if -(2 ^ 31) ≤ v ∧ v < (2 ^ 31 : Int) then leBytes 4 (s2n 32 v) else leBytes 12 (s2n 96 v)

/-- The digest of a list of words (R321). -/
def crc64 (ws : List Int) : Nat := ((ws.flatMap stateBytes).foldl crcByte (2 ^ 64 - 1)) ^^^ (2 ^ 64 - 1)

/-- The critical outputs of a deck in slot order (R320). -/
def critOuts (b : DeckBody) : List Crit := (sortNat (b.crit.map (fun c => c.slot))).filterMap (fun s => b.crit.find? (fun c => c.slot == s))

/-- The group that holds the spare state: the one without a copy. -/
def spareGroup (x : Crit) : Nat := ((List.range 4).find? (fun g => !(x.copies.any (fun p => p.cluster / 4 == g)))).getD 0

/-- The map registers of output c. -/
def critMap (c : Nat) (x : Option Crit) (m : Mach) : Mach :=
  let cl (j : Nat) : Nat := match x with | some y => ((y.copies[j]?).map (fun p => p.cluster)).getD 0 | none => 0
  wri F.DIAG_CRIT_MAP_SLOT c ((x.map (fun y => y.slot)).getD 0) (wri F.DIAG_CRIT_MAP_VALID c (b2n x.isSome)
    (wri F.DIAG_CRIT_MAP_CL_A c (cl 0) (wri F.DIAG_CRIT_MAP_CL_B c (cl 1) (wri F.DIAG_CRIT_MAP_CL_C c (cl 2)
      (wri F.DIAG_CRIT_MAP_SPARE c ((x.map spareGroup).getD 0) m)))))

/-- The machine with its voter replaced. -/
def setVote (v : Voter) (m : Mach) : Mach := { m with vote := v }

/-- The faded outputs of DIAG_CRIT_STAT. -/
def showFaded (m : Mach) : Mach :=
  wr F.DIAG_CRIT_STAT_FADED
    (((critOuts m.dk.live.body).mapIdx (fun c x => if m.vote.faded.contains x.slot then 2 ^ c else 0)).sum) m

/-- The voter at a cut, with the new deck live. -/
def voterCut (m : Mach) : Mach :=
  let outs := critOuts m.dk.live.body
  let has (s : Nat) : Bool := outs.any (fun x => x.slot == s)
  showFaded (forEach (List.range 16) (fun c m => critMap c outs[c]? m)
    (setVote { spare := m.vote.spare.filter (fun p => has p.1), faded := m.vote.faded.filter has,
               runs := m.vote.runs.filter (fun k => has (k / 4)) } m))

/-- The committed state words of a copy's nodes. -/
def copyState (m : Mach) (p : CritCopy) : List (List Int) := p.nodes.map (fun i => (mget {} m.frm.nodes i).w)

/-- A copy receives a state (R322, R323). -/
def restoreCopy (c : Nat) (p : CritCopy) (ws : List (List Int)) (m : Mach) : Mach :=
  bumpi F.DIAG_CRIT_RESTORE_COUNT c 1
    (setFrm { m.frm with nodes := (p.nodes.zip ws).foldl (fun t q => mput q.1 { mget {} t q.1 with w := q.2 } t) m.frm.nodes } m)

/-- The vote of an output: per copy whether it finished, its words, its state and the two digests. -/
structure Ballot where
  fin : Bool
  words : List Int
  st : List (List Int)
  od : Option Nat
  sd : Option Nat
deriving DecidableEq, Repr

/-- The ballot of a copy; only finished copies vote. -/
def ballot (done : Nat → Bool) (m : Mach) (p : CritCopy) : Ballot :=
  let fin := p.nodes.all done
  let ws := busNow m p.out
  let st := copyState m p
  { fin := fin, words := ws, st := st, od := if fin then some (crc64 ws) else none, sd := if fin then some (crc64 st.flatten) else none }

/-- How copy j dissents: bit 0 output, bit 1 state, bit 2 unfinished; 0 where it does not (R322). -/
def dissent (bs : List Ballot) (j : Nat) : Nat :=
  match bs[j]?, bs[(j + 1) % 3]?, bs[(j + 2) % 3]? with
  | some b, some x, some y =>
    if !b.fin then 4
    else b2n (x.od.isSome && x.od == y.od && b.od != x.od) + 2 * b2n (x.sd.isSome && x.sd == y.sd && b.sd != x.sd)
  | _, _, _ => 0

/-- The dissent of copy j of output c is counted, and reported once per run. -/
def reportDissent (c j cause : Nat) (x : Crit) (m : Mach) : Mach :=
  let k := x.slot * 4 + j
  if cause = 0 then setVote { m.vote with runs := m.vote.runs.filter (fun r => r != k) } m
  else
    let m1 := bumpi (if j = 0 then F.DIAG_CRIT_DIS_A_COUNT else if j = 1 then F.DIAG_CRIT_DIS_B_COUNT else F.DIAG_CRIT_DIS_C_COUNT) c 1
      (orReg F.DIAG_CRIT_FLAG_DISSENT (2 ^ c) m)
    if m.vote.runs.contains k then m1
    else
      raise 0x0C 0x0C03 [(1, c), (1, j), (1, ((x.copies[j]?).map (fun p => p.cluster)).getD 0), (1, cause), (2, x.slot), (2, 0),
        (4, 1), (4, 0)] (setVote { m1.vote with runs := k :: m1.vote.runs } m1)

/-- A deal without an output or state majority: the report, and the spare state into every copy (Table 11.4). -/
def noMajority (c : Nat) (x : Crit) (cause : Nat) (bs : List Ballot) (m : Mach) : Mach :=
  let sp := mfind m.vote.spare x.slot
  let m1 := raise 0x0C 0x0C04 [(1, c), (1, cause), (2, x.slot), (1, (bs.mapIdx (fun j b => if b.fin then 2 ^ j else 0)).sum), (3, 0),
      (8, (sp.map (fun s => s.deal)).getD 0)]
    (alert F.DIAG_ALERT_FLAGS_CRIT (orReg F.DIAG_CRIT_FLAG_NO_MAJORITY (2 ^ c) (bumpi F.DIAG_CRIT_NOMAJ_COUNT c 1 m)))
  match sp with
  | some s => forEach x.copies (fun p m => restoreCopy c p s.words m) m1
  | none => m1

/-- The egress slot of a critical output in this deal. -/
def critWrite (late : List Nat) (slot : Nat) (v : Option (List Int)) (m : Mach) : Mach :=
  let ys := match v with
    | some w =>
      let z := crossfade late slot w m
      if m.vote.faded.contains slot then fadeIn z else z
    | none => fadeOut (mget 0 m.frm.last slot) (spd m)
  let m1 := busWrite slot ys m
  setVote { m1.vote with faded := if v.isSome then m1.vote.faded.filter (fun s => s != slot) else insertNat slot m1.vote.faded }
    (setFrm { m1.frm with last := mset 0 slot (ys.getLast?.getD 0) m1.frm.last } m1)

/-- The vote of output c at commit (R322, Table 11.4). done tells a node that has finished. -/
def voteOne (done : Nat → Bool) (late : List Nat) (c : Nat) (x : Crit) (m : Mach) : Mach :=
  let bs := x.copies.map (ballot done m)
  let smp := (List.range (spd m)).map (fun k => two (bs.map (fun b => if b.fin then b.words[k]? else none)))
  let out := if smp.all Option.isSome then some (smp.map (fun v => v.getD 0)) else none
  let ms := two (bs.map (fun b => b.sd))
  let maj := (bs.find? (fun b => b.sd == ms)).map (fun b => b.st)
  let m1 := forEach [0, 1, 2] (fun j m => reportDissent c j (dissent bs j) x m) (critWrite late x.slot out m)
  let m2 := if ms.isSome then setVote { m1.vote with spare := mput x.slot ⟨m.deal, maj.getD []⟩ m1.vote.spare } m1 else m1
  if out.isSome && ms.isSome then
    forEach ((x.copies.mapIdx (fun j p => (j, p))).filter (fun q => dissent bs q.1 != 0)) (fun q m => restoreCopy c q.2 (maj.getD []) m) m2
  else noMajority c x (if out.isNone then 1 else 2) bs m2

/-- The voter at commit. -/
def vote (done : Nat → Bool) (late : List Nat) (m : Mach) : Mach :=
  showFaded (forEach ((critOuts m.dk.live.body).mapIdx (fun c x => (c, x))) (fun q m => voteOne done late q.1 q.2 m) m)

/-- The voter's registers at a render, power-on, pin or system reset (R324). -/
def voterReset (m : Mach) : Mach := { m with vote := {}, regs := clearRange 0x11900 0x11B08 m.regs }

end Sys2Proof.Machine
end

