-- ==== Sys2Proof/Machine/Corr.lean ====
section
/-! DEFINITION. The correction engine and the measurement (12 R329-R343, R349). -/
namespace Sys2Proof.Machine

/-- The machine with its correction engine replaced. -/
def setCor (x : Cor) (m : Mach) : Mach := { m with cor := x }

/-- Whether a correction set can stand in a deck of a rate (R333, R335). -/
def corrOk (rate : Nat) (p : Nat × CorrSet) : Bool :=
  let t := p.2.mants.length
  p.1 < 256 && p.2.secs.length ≤ 16 && p.2.secs.all (fun c => c.length == 5) && t ≤ (if rate = 1 then 1024 else 2048) &&
    t % 16 == 0 && p.2.exps.length == t / 16 && p.2.exps.all (fun e => e < 16)

/-- The FIR coefficients of a set in Q2.30 (R331). -/
def corrCoefs (c : CorrSet) : List Int := c.mants.mapIdx (fun j v => v * 2 ^ (16 - c.exps.getD (j / 16) 0))

/-- The top 24 bits of a sample, convergently rounded and saturated (R332). -/
def sat24 (x : Int) : Int := widen 24 (narrow 24 x)

/-- The samples of a history. -/
def histLen (m : Mach) : Nat := if m.frm.rate = 1 then 1024 else 2048

/-- A correction set over samples (R332): biquad state and history, newest first, and what saturated. -/
def corrRun (hlen : Nat) (secs : List (List Int)) (coefs : List Int) (g : Int) :
    List Int → List Int → List Int → List Int × List Int × List Int × Nat
  | [], q, h => ([], q, h, 0)
  | x :: xs, q, h =>
    let b := biqSample secs q x
    let h1 := if coefs.isEmpty then h else (sat24 b.1 :: h).take hlen
    let f := if coefs.isEmpty then (b.1, false) else rnd (coefs.zip (h1 ++ List.replicate (coefs.length - h1.length) 0))
    let y := rnd [(g, f.1)]
    let r := corrRun hlen secs coefs g xs b.2.1 h1
    (y.1 :: r.1, r.2.1, r.2.2.1, r.2.2.2 + b2n (b.2.2 != 0 || f.2 || y.2))

/-- The biquad state of a correction node: the 64 words of 16 sections. -/
def corrBq (w : List Int) : List Int := (List.range 64).map (fun k => w.getD k 0)

/-! Excitation (R341). -/

/-- The samples that one output's excitation and recording take. -/
def measLen (c : Cmd) : Nat :=
  if u8 c 24 = 0 then u8 c 29 * (2 ^ u8 c 28 + 2 ^ u8 c 36) else (1 + u8 c 29) * (2 ^ u8 c 28 - 1)

/-- The peak of an excitation as a Q1.31 word. -/
def measLevel (m : Mach) (c : Cmd) : Int := ((min (u16 c 30) (rd m F.COR_MEAS_LIMIT) * 2 ^ 16 : Nat) : Int)

/-- Sample n of the exponential sweep, exactly rounded, with the deviation that the manual leaves open. Where F1 and F2 are equal the formula
divides by zero and gives no value: the sample is a free value. -/
def sweepAt (m : Mach) (c : Cmd) (n : Nat) : Int :=
  let l : Nat := 2 ^ u8 c 28
  let ratio := log2Q (u16 c 34) (u16 c 32)
  let grown := exp2Q (ratio * (n : Int) / (l : Int)) - oneQ
  let turns := divQ (((u16 c 32 * l : Nat) : Int) * grown) ((rateHz m : Int) * mulQ ratio ln2Q)
  let y := rndDiv (measLevel m c * sinTurn (turns % oneQ).toNat (2 ^ 80)) (2 ^ 80)
  if u16 c 34 = u16 c 32 then satW 32 (Config.sweepLsb (measLevel m c) n)
  else satW 32 (y + max (-1) (min 1 (Config.sweepLsb y n)))

/-- The excitation at sample i of an output's run; the sign of each MLS sample is the device's own. -/
def exciteAt (m : Mach) (c : Cmd) (i : Nat) : Int :=
  if u8 c 24 = 0 then
    let n := i % (2 ^ u8 c 28 + 2 ^ u8 c 36)
    if n < 2 ^ u8 c 28 then sweepAt m c n else 0
  else if Config.mlsBit (u8 c 28) (i % (2 ^ u8 c 28 - 1)) then measLevel m c else -measLevel m c

/-- The measurement that excites now: its command and state. -/
def exciting (m : Mach) : Option Meas := m.cor.meas.filter (fun x => x.st == 1)

/-- The output slot of a loudspeaker entry of the live deck. -/
def spkSlot (m : Mach) (e : Nat) : Option Nat :=
  (m.dk.live.body.speakers.bind (fun t => t.ents[e]?)).bind (fun x => if x.present then some x.slot else none)

/-- Whether a slot is the feed of one of the measured entries. -/
def measured (m : Mach) (x : Meas) (slot : Nat) : Bool := x.ents.any (fun e => spkSlot m e == some slot)

/-- What a correction node takes for its input slot: its image of the deal before, or what a measurement puts in its place. -/
def corrInput (m : Mach) (slot : Nat) : List Int :=
  match exciting m with
  | none => busPrev m slot
  | some x =>
    let c := x.h.cmd
    if spkSlot m (x.ents.getD x.pos 0) = some slot then
      (List.range (spd m)).map (fun k => if x.smp + k < measLen c then exciteAt m c (x.smp + k) else 0)
    else if (u8 c 27).testBit 1 then zeros (spd m) else busPrev m slot

/-- Whether a node's set acts as identity: BYPASS for a measured output. -/
def bypassed (m : Mach) (slot : Nat) : Bool :=
  match exciting m with
  | some x => (u8 x.h.cmd 27).testBit 0 && measured m x slot
  | none => false

/-! Nodes. -/

/-- The output of a set as it leaves the engine: a muted set carries the fade of R35 in the deal of its mute and reads zero after. -/
def mutedOut (m : Mach) (c : Nat) (ys : List Int) : List Int :=
  match mfind m.cor.muted c with
  | some d => if d = m.deal then fadeOut (mget 0 m.cor.last c) (spd m) else zeros (spd m)
  | none => ys

/-- A saturating deal of a set is counted; its first in a run raises EV_COR_SAT (R338). -/
def corrSat (ix c sats : Nat) (m : Mach) : Mach :=
  let st := mget {} m.frm.nodes ix
  let m1 := setFrm { m.frm with nodes := mput ix { st with satRun := sats != 0 } m.frm.nodes } m
  if sats = 0 then m1
  else
    onlyIf (!st.satRun) (raise 0x0F 0x0F02 [(2, c), (2, 0), (4, sats), (8, 0)])
      (wr F.COR_FLAGS_SAT 1 (bump F.COR_SAT_CNT_COUNT sats m1))

/-- A correction node over a deal; asleep, the engine delivers zero (R349). A bypassed set acts as the identity set, which uses neither biquad
state nor history (R332, R339). -/
def corrNode (d : NodeD) (c : Nat) (m : Mach) : Mach × List Int :=
  match lookN m.dk.live.body.corr c with
  | none => (m, zeros (spd m))
  | some k =>
    if m.cor.asleep then (m, zeros (spd m))
    else
      let slot := d.ins.headD 0
      let st := mget {} m.frm.nodes d.ix
      let xs := corrInput m slot
      let k := if bypassed m slot then { secs := [], exps := [], mants := [], g := 2 ^ 30 } else k
      let r := corrRun (histLen m) k.secs (corrCoefs k) k.g xs (corrBq st.w) (st.w.drop 64)
      let ys := mutedOut m c r.1
      let q := r.2.1 ++ (corrBq st.w).drop r.2.1.length
      let m1 := setFrm { m.frm with nodes := mput d.ix { st with w := q ++ r.2.2.1 } m.frm.nodes } m
      (setCor { m1.cor with last := mset 0 c (ys.getLast?.getD 0) m1.cor.last } (corrSat d.ix c r.2.2.2 m1), ys)

/-- The live sets that correction nodes name. -/
def corrSets (b : DeckBody) : List Nat := (b.nodes.filter (fun d => d.typ == 0x0F)).filterMap
  (fun d => match parOf b d with | .set c => some c | _ => none)

/-- The coefficients of a set failed: it is silenced (R338). -/
def corrMute (c bank word : Nat) (m : Mach) : Mach :=
  if (mfind m.cor.muted c).isSome || !(corrSets m.dk.live.body).contains c then m
  else
    raise 0x0F 0x0F01 [(2, c), (1, bank), (1, 0), (4, word), (8, m.dk.live.digest)]
      (wr F.COR_FLAGS_ECC_MUTE 1 (setCor { m.cor with muted := mput c m.deal m.cor.muted } m))

/-! The measurement (R339-R343). -/

/-- The blocks that a measurement needs (R340). -/
def measBlocks (c : Cmd) : Nat := (u8 c 26 + 2) * ((2 ^ u8 c 28 + 2 ^ u8 c 36 + 8191) / 8192)

/-- The values of Table 12.4 that are legal. -/
def measArgsOk (c : Cmd) (m : Mach) : Bool :=
  u8 c 24 ≤ 1 && 1 ≤ u8 c 25 && u8 c 25 ≤ 16 && 1 ≤ u8 c 26 && u8 c 26 ≤ 8 && u8 c 27 ≤ 3 && 13 ≤ u8 c 28 && u8 c 28 ≤ 18 &&
    1 ≤ u8 c 29 && u8 c 29 ≤ 16 && 10 ≤ u8 c 36 && u8 c 36 ≤ 16 && u8 c 36 ≤ u8 c 28 &&
    (u8 c 24 == 1 || (10 ≤ u16 c 32 && u16 c 32 ≤ 1000 && 1000 ≤ u16 c 34 && 100 * u16 c 34 ≤ 45 * rateHz m))

/-- The entries and microphones of the buffer. -/
def measEnts (c : Cmd) : List Nat := (List.range (u8 c 25)).map (fun i => leAt (bufBytes c) (2 * i) 2)
/-- The microphone slots of the buffer. -/
def measMics (c : Cmd) : List Nat := (List.range (u8 c 26)).map (fun i => leAt (bufBytes c) (32 + 2 * i) 2)

/-- The correction node fed by a slot. -/
def corrOf (b : DeckBody) (slot : Nat) : Option NodeD := b.nodes.find? (fun d => d.typ == 0x0F && d.ins.head? == some slot)

/-- Whether the lists suit the live deck (R340). -/
def measListsOk (c : Cmd) (m : Mach) : Bool :=
  (measEnts c).all (fun e => match spkSlot m e with | some s => (corrOf m.dk.live.body s).isSome | none => false) &&
    (measMics c).all (fun s => s < 4096 && (roleOf m s == 2 || roleOf m s == 3))

/-- The length that the buffer must have (R339). -/
def measBufLen (c : Cmd) : Nat := 64 + u8 c 25 * u8 c 26 * (16 + 4 * 2 ^ u8 c 36)

/-- COR_MEAS_STAT. -/
def showMeas (m : Mach) : Mach :=
  match m.cor.meas with
  | some x => wr F.COR_MEAS_STAT_STATE x.st (wr F.COR_MEAS_STAT_OUTPUT (if x.st = 1 then x.pos else 0) m)
  | none => wr F.COR_MEAS_STAT_STATE 0 (wr F.COR_MEAS_STAT_OUTPUT 0 m)

/-- The boundary at which a shutdown in progress of the render engines began: an entry to a power state, or a render reset that has
not been committed (17 R465). -/
def renderStopping (m : Mach) : Option Nat :=
  match m.pwr.move with
  | some v => if v.entry then some v.at_ else m.pwr.rrAt
  | none => m.pwr.rrAt

/-- A command is held behind a shutdown that began at a boundary (17 R465). -/
def holdStopping (c : Cmd) (tk : Ticket) (began : Nat) (m : Mach) : Mach × Verdict :=
  let m1 := interim tk stBusyStopping began m
  ({ m1 with hif := { m1.hif with stopped := m1.hif.stopped ++ [⟨c, { tk with interim := true }⟩] } }, { st := none })

/-- MEASURE_RUN (R340; 17 R465). -/
def measureRun : Eff := fun c tk m =>
  if (renderStopping m).isSome then holdStopping c tk ((renderStopping m).getD 0) m else
  if !measArgsOk c m || bufLen c < measBufLen c || !bufOk c false m || !bufOk c true m || !measListsOk c m then bad m
  else if m.cor.meas.isSome || freeBlocks m < measBlocks c then (m, { st := some stNoRoom })
  else
    let blocks := pickBlocks (measBlocks c) (usedBlocks m)
    let m1 := interim tk stPending m.deal m
    (showMeas (setCor { m1.cor with meas := some { h := ⟨c, { tk with interim := true }⟩, ents := measEnts c, mics := measMics c, blocks := blocks } }
      (setRend { m1.rend with allocs := m1.rend.allocs + blocks.length } m1)), { st := none })

/-- MEASURE_RUN. -/
def execMeasureRun (c : Cmd) (s : State) : Host.Outcome State Fault Refusal := onMach (hostRow 0x0302 measureRun c) s

/-- A running excitation ends before its end (R342): trump 1, a deck change 2, a reset 3. -/
def measAbort (result : Nat) (m : Mach) : Mach :=
  match exciting m with
  | some x => showMeas (wr F.COR_FLAGS_MEAS_ABORT 1 (setCor { m.cor with meas := some { x with st := 2, result := result } } m))
  | none => m

/-- An object or an announcement of a trump class becomes active at this seat (R342). -/
def measTrump (cls : Nat) (m : Mach) : Mach := onlyIf (decide (cls ≤ rd m F.COR_MEAS_ABORT_CLASS)) (measAbort 1) m

/-- Whether sample i of an output's run is recorded: an MLS's first period is not. -/
def recorded (c : Cmd) (i : Nat) : Bool := i < measLen c && (u8 c 24 == 0 || 2 ^ u8 c 28 - 1 ≤ i)

/-- The microphones' samples of a deal enter the capture of the output in progress. -/
def measCapture (m : Mach) (x : Meas) : Meas :=
  let ks := (List.range (spd m)).filter (fun k => recorded x.h.cmd (x.smp + k))
  (x.mics.mapIdx (fun j s => (x.pos * 8 + j, s))).foldl (fun x q =>
    let v := ks.map (fun k => (busNow m q.2).getD k 0)
    { x with
      peaks := mset 0 q.1 (v.foldl (fun a y => if a.natAbs < y.natAbs then y else a) (mget 0 x.peaks q.1)) x.peaks
      clips := if v.any (fun y => y == 2 ^ 31 - 1 || y == -(2 ^ 31)) then insertNat q.1 x.clips else x.clips }) x

/-- The measurement at a commit: the recording, and the next deal of its schedule; blocks of a finished one return (R341, R342). -/
def measCommit (m : Mach) : Mach :=
  match m.cor.meas with
  | none => m
  | some x =>
    if x.st = 3 then
      serveWaiting (showMeas (setCor { m.cor with meas := none } (setRend { m.rend with frees := m.rend.frees + x.blocks.length } m)))
    else if x.st = 1 then
      let c := x.h.cmd
      let s := spd m
      let y := measCapture m x
      let excited := (measLen c + s - 1) / s * s
      let gap := if x.pos + 1 = x.ents.length then 0 else u16 c 38 * s
      let smp := x.smp + s
      let done := if smp = excited then x.done + 1 else x.done
      let next := if excited + gap ≤ smp then { y with pos := x.pos + 1, smp := 0, done := done } else { y with smp := smp, done := done }
      showMeas (setCor { m.cor with meas := some (if next.pos = x.ents.length then { next with st := 2 } else next) } m)
    else m

/-- The responses that a run gives: header and samples for every completed output and microphone. Their samples are not bit-exact
(R342): each is a free value. -/
def measResponses (m : Mach) (x : Meas) : Pay :=
  let n := 2 ^ u8 x.h.cmd 36
  (List.range x.done).flatMap (fun o => (List.range x.mics.length).flatMap (fun j =>
    [(2, x.ents.getD o 0), (2, x.mics.getD j 0), (4, n), (4, s2n 32 (mget 0 x.peaks (o * 8 + j))), (4, b2n (x.clips.contains (o * 8 + j)))] ++
      (List.range n).map (fun i => (4, (Config.freeWord (m.fresh + (o * x.mics.length + j) * n + i)).toNat))))

/-- The free values that the responses take. -/
def measFresh (x : Meas) : Nat := x.done * x.mics.length * 2 ^ u8 x.h.cmd 36

/-- The results of a measurement are written: the responses, RESULT and the final completion (R342). -/
def measureDone (m : Mach) : Mach :=
  match m.cor.meas with
  | none => m
  | some x =>
    if x.st ≠ 2 then m
    else
      let cnt := x.done * x.mics.length
      let tk := x.h.tk
      let m1 := finalWith tk stDone (bufAddr x.h.cmd + 48) ([(4, x.result), (4, cnt), (8, 0)] ++ measResponses m x)
        (useFresh (measFresh x) (showMeas (setCor { m.cor with meas := some { x with st := 3 } } m)))
      raise 0x0F 0x0F03 [(4, x.result), (4, cnt), (4, tk.tag), (2, x.blocks.length), (2, 0)] m1

/-- MEASURE_DONE. -/
def execMeasureDone (s : State) : Host.Outcome State Fault Refusal := onMach measureDone s

/-- Whether a cut disturbs the measurement (R342): an entry or its correction node, a microphone's role or, without BYPASS, a set. -/
def measDisturbed (old new : DeckBody) (x : Meas) : Bool :=
  let ent (b : DeckBody) (e : Nat) : Option SpkEnt := (b.speakers.bind (fun t => t.ents[e]?)).filter (fun s => s.present)
  let node (b : DeckBody) (e : Nat) : Option NodeD := (ent b e).bind (fun s => corrOf b s.slot)
  let set (b : DeckBody) (e : Nat) : Option CorrSet := (node b e).bind (fun d => match parOf b d with | .set c => lookN b.corr c | _ => none)
  let name (b : DeckBody) (e : Nat) : Option Par := (node b e).map (parOf b)
  x.ents.any (fun e => (ent new e).isNone || (node new e).map (fun d => (d.id, d.ins, d.outs)) != (node old e).map (fun d => (d.id, d.ins, d.outs)) ||
      name new e != name old e || (!(u8 x.h.cmd 27).testBit 0 && set new e != set old e)) ||
    x.mics.any (fun s => lookN new.roles s != lookN old.roles s)

/-- The engine at a cut: the copies exchange roles, mutes end, and a disturbed measurement with them (R330, R338, R342). -/
def corrCut (old new : DeckBody) (m : Mach) : Mach :=
  let m1 := match exciting m with
    | some x => onlyIf (measDisturbed old new x) (measAbort 2) m
    | none => m
  setCor { m1.cor with copyB := !m1.cor.copyB, muted := [] } m1

/-- The engine sleeps: it delivers zero (R349). -/
def corrSleep (m : Mach) : Mach := setCor { m.cor with asleep := true } m

/-- The engine wakes: every correction node's history and biquad state are zero (R349). -/
def corrWake (m : Mach) : Mach :=
  let ix := (m.dk.live.body.nodes.filter (fun d => d.typ == 0x0F)).map (fun d => d.ix)
  setCor { m.cor with asleep := false }
    (setFrm { m.frm with nodes := m.frm.nodes.map (fun p => if ix.contains p.1 then (p.1, { p.2 with w := [] }) else p) } m)

/-- A render reset: the measurement ends with RESULT 3 and the copies are those of deck slot 0 (R343, R349). -/
def corrRenderReset (m : Mach) : Mach := (fun m => setCor { m.cor with copyB := false, muted := [], last := [] } m) (measAbort 3 m)

end Sys2Proof.Machine
end

