-- ==== Sys2Proof/Machine/Icom.lean ====
section
/-! DEFINITION. The intercom channels (12 R344-R349). -/
namespace Sys2Proof.Machine

/-- An intercom channel. -/
def icomOf (m : Mach) (c : Nat) : Icom := mget {} m.icom c

/-- The machine with an intercom channel replaced. -/
def setIcom (c : Nat) (x : Icom) (m : Mach) : Mach := { m with icom := mset {} c x m.icom }

/-- The channels that the reserved clusters serve (R344). -/
def icomServed (m : Mach) : Nat := if m.frm.aec = 1 then 16 else if m.frm.aec = 2 then 32 else 0

/-- Whether the live deck holds a channel's node. -/
def icomNode (m : Mach) (c : Nat) : Bool := m.dk.live.body.nodes.any (fun d => d.typ == 0x10 && parOf m.dk.live.body d == .icom c)

/-- The bits of the channels that are so. -/
def icomBits (p : Icom → Bool) (m : Mach) : Nat := ((m.icom.filter (fun q => p q.2)).map (fun q => 2 ^ q.1)).sum

/-- The bits of AEC_CONN, AEC_DORMANT and AEC_TALK. -/
def showIcom (m : Mach) : Mach :=
  wr F.AEC_CONN_CHANNEL (icomBits (fun x => x.conn) m) (wr F.AEC_DORMANT_CHANNEL (icomBits (fun x => x.dormant) m)
    (wr F.AEC_TALK_CHANNEL (icomBits (fun x => x.talk) m) m))

/-- EV_ICOM_STATE. -/
def icomEvent (c state erle : Nat) (m : Mach) : Mach := raise 0x10 0x1001 [(1, c), (1, state), (2, 0), (4, erle), (8, 0)] m

/-- The status of a channel whose filter is zeroed. -/
def icomClear (c : Nat) (m : Mach) : Mach := wri F.AEC_CH_STAT_CONVERGED c 0 (wri F.AEC_CH_STAT_ERLE c 0 m)

/-- The legal values of Table 12.5. -/
def icomArgsOk (c : Cmd) : Bool :=
  u8 c 25 ≤ 2 && u8 c 26 ≤ 3 && u8 c 27 ≤ 3 && u8 c 29 ≤ 60 && u16 c 30 ≤ 1024

/-- The parameters of Table 12.5 in a channel. -/
def icomSet (c : Cmd) (x : Icom) : Icom :=
  { x with duck := (u8 c 26).testBit 0, freeze := (u8 c 26).testBit 1, ns := u8 c 27, zone := u8 c 28, depth := u8 c 29,
           refDelay := u16 c 30, mu := if u16 c 32 = 0 then 0x800 else u16 c 32 }

/-- Connect (R346). -/
def icomOpen (k : Nat) (c : Cmd) (m : Mach) : Mach :=
  let d := !icomNode m k
  icomEvent k (if d then 2 else 1) 0 (showIcom (icomClear k (setIcom k { icomSet c {} with conn := true, dormant := d } m)))

/-- ICOM_CONNECT (R346). -/
def icomConnect : Eff := fun c _ m =>
  let k := u8 c 24
  let x := icomOf m k
  if !icomArgsOk c || icomServed m ≤ k || (u8 c 25 == 2 && !x.conn) then bad m
  else if u8 c 25 = 1 then okM (icomOpen k c m)
  else if u8 c 25 = 2 then okM (setIcom k (icomSet c x) m)
  else if x.conn then okM (icomEvent k 0 0 (showIcom (icomClear k (setIcom k {} m))))
  else okM m

/-- ICOM_CONNECT. -/
def execIcomConnect (c : Cmd) (s : State) : Host.Outcome State Fault Refusal := onMach (hostRow 0x0801 icomConnect c) s

/-- Whether a channel adapts: connected, with a node, and not in a state that stops the intercom (R346, R349). -/
def icomRuns (m : Mach) (c : Nat) : Bool := (icomOf m c).conn && !(icomOf m c).dormant && rd m F.PWR_STATE_STATE < 2

/-- A channel converges (R347). -/
def icomConverged (c erle : Nat) (m : Mach) : Mach :=
  onlyIf (icomRuns m c && 200 ≤ erle && erle < 2 ^ 16)
    (fun m => icomEvent c 3 erle (wri F.AEC_CH_STAT_CONVERGED c 1 (wri F.AEC_CH_STAT_ERLE c erle m))) m

/-- ICOM_CONVERGED. -/
def execIcomConverged (c erle : Nat) (s : State) : Host.Outcome State Fault Refusal := onMach (icomConverged c erle) s

/-- A channel diverges: its filter is zeroed and it adapts again (R347). -/
def icomDiverged (c : Nat) (m : Mach) : Mach :=
  if !icomRuns m c then m
  else
    let m1 := bumpi F.AEC_CH_DIV_COUNT c 1 (wr F.AEC_FLAGS_DIVERGED 1 (icomClear c m))
    raise 0x10 0x1002 [(1, c), (3, 0), (4, rdi m1 F.AEC_CH_DIV_COUNT c), (8, 0)] m1

/-- ICOM_DIVERGED. -/
def execIcomDiverged (c : Nat) (s : State) : Host.Outcome State Fault Refusal := onMach (icomDiverged c) s

/-- EV_ICOM_TALK. -/
def talkEvent (c phase : Nat) (m : Mach) : Mach :=
  raise 0x10 0x1003 [(1, c), (1, phase), (1, (icomOf m c).zone), (1, (icomOf m c).depth), (12, 0)] m

/-- Near-end speech starts on a channel (R348). -/
def icomTalk (c : Nat) (m : Mach) : Mach :=
  onlyIf (icomRuns m c && !(icomOf m c).talk) (fun m => talkEvent c 0 (showIcom (setIcom c { icomOf m c with talk := true } m))) m

/-- ICOM_TALK. -/
def execIcomTalk (c : Nat) (s : State) : Host.Outcome State Fault Refusal := onMach (icomTalk c) s

/-- The hold after near-end speech ends (R348). -/
def duckHoldExpiry (c : Nat) (m : Mach) : Mach :=
  onlyIf (icomOf m c).talk (fun m => talkEvent c 1 (showIcom (setIcom c { icomOf m c with talk := false } m))) m

/-- DUCK_HOLD_EXPIRY. -/
def execDuckHoldExpiry (c : Nat) (s : State) : Host.Outcome State Fault Refusal := onMach (duckHoldExpiry c) s

/-- The duck depth in dB that the channels request for a zone: the greatest (R348). -/
def duckDepth (m : Mach) (zone : Nat) : Nat :=
  maxOf 0 ((m.icom.filter (fun q => q.2.talk && q.2.duck && q.2.zone == zone)).map (fun q => q.2.depth))

/-- The connected channels at a cut: those without a node become dormant, those whose node is back resume (R346). -/
def icomCut (m : Mach) : Mach :=
  showIcom (forEach (m.icom.map Prod.fst)
    (fun c m =>
      let x := icomOf m c
      if !x.conn || x.dormant == !icomNode m c then m
      else icomEvent c (if x.dormant then 1 else 2) 0 (setIcom c { x with dormant := !x.dormant, talk := x.talk && x.dormant } m)) m)

/-- The intercom stops in PARK and fold; its channels resume at the wake with zeroed filters (R349). -/
def icomStop (m : Mach) : Mach :=
  showIcom (forEach (m.icom.map Prod.fst) (fun c m => icomClear c (setIcom c { icomOf m c with talk := false } m)) m)

/-- The send slot of an intercom node: the canceller's output is the device's own arithmetic, so each sample is a free value;
a disconnected channel's slot is zero (R345, R346). -/
def icomSend (c : Nat) (m : Mach) : Mach × List Int :=
  if icomRuns m c then
    (useFresh (spd m) m, (List.range (spd m)).map (fun k => n2s 32 (Config.freeWord (m.fresh + k)).toNat))
  else (m, zeros (spd m))

end Sys2Proof.Machine
end

