-- ==== Sys2Proof/Machine/Ann.lean ====
section
/-! DEFINITION. Announcements, paging and voice alarm (14): the clip store, messages, the schedule, requests and the trump rule,
players, the audio of a zone, and the latch. -/
namespace Sys2Proof.Machine

/-- The machine with the announcement service replaced. -/
def setAnn (a : Ann) (m : Mach) : Mach := { m with ann := a }

/-- The first deal whose audio is still to be made: a change of holder begins at its sample 0 (R390). -/
def annDeal (m : Mach) : Nat := if m.frm.committed then m.deal + 1 else m.deal

/-- The zones of a mask of 32 bytes (10 Table 10.2). -/
def zonesOf (l : List Byte) : List Nat := (List.range 256).filter (fun z => (leAt l (z / 8) 1).testBit (z % 8))

/-! The clip store (R380-R382). -/

/-- The rate of a clip in Hz (Table 14.1). -/
def clipHz (code : Nat) : Nat := [16000, 22050, 24000, 32000, 44100, 48000].getD code 48000

/-- Bytes to a sample. -/
def clipBytes (c : Clip) : Nat := if c.wide then 3 else 2

/-- The samples that a clip holds. -/
def clipLen (c : Clip) : Nat := c.data.length / clipBytes c

/-- A sample of a clip as a Q1.31 word. -/
def clipSample (c : Clip) (i : Nat) : Int :=
  let w := 8 * clipBytes c
  widen w (n2s w (leAt (c.data.drop (i * clipBytes c)) 0 (clipBytes c)))

/-- The 64 KiB units of a clip. -/
def clipUnits (c : Clip) : Nat := (c.data.length + 65535) / 65536

/-- The clips of a play's steps. -/
def segClips (l : List Seg) : List Clip := l.filterMap (fun s => match s with | .clip _ c => some c | _ => none)

/-- Every version of a clip that takes units: in the directory, being written, or still played from (R381). -/
def storedClips (m : Mach) : List Clip :=
  (m.ann.clips.map Prod.snd ++ m.ann.writes.map (fun w => w.clip) ++ m.ann.plays.flatMap (fun p => segClips p.2.segs)).foldl
    (fun a c => if a.any (fun x => x.ser == c.ser) then a else a ++ [c]) []

/-- The used units of the store. -/
def usedUnits (m : Mach) : Nat := ((storedClips m).map clipUnits).sum

/-- The level of WM_STICKY bit 12 (R382). -/
def watchStore (m : Mach) : Mach :=
  watch 12 (decide (rd m F.ANN_STORE_WARN_UNITS ≤ usedUnits m)) 0x11 0x1106
    [(2, min 0xFFFF (usedUnits m)), (2, rd m F.ANN_STORE_WARN_UNITS), (12, 0)] m

/-- The latest deal at which a write of a length completes (R381). -/
def writeBound (len start : Nat) : Nat := start + 16 + 4000 * ((len + 1048575) / 1048576)

/-- CLIP_WRITE (R381). -/
def clipWrite : Eff := fun c tk m =>
  let n := u16 c 24
  let len := bufLen c
  if 4095 < n || 1 < u8 c 26 || 5 < u8 c 27 || 1 < u8 c 28 then bad m
  else if u8 c 26 = 1 then
    if len != 0 || (mfind m.ann.clips n).isNone then bad m
    else okM (watchStore (setAnn { m.ann with clips := mdel n m.ann.clips } m))
  else
    let k : Clip := { ser := m.ann.ser, rate := u8 c 27, wide := u8 c 28 == 1, data := (bufBytes c).take len }
    if len < 2 || 16777216 < len || len % clipBytes k != 0 || !bufOk c false m then bad m
    else if rd m F.ANN_STORE_CFG_SIZE < usedUnits m + (len + 65535) / 65536 then noRoom m
    else
      let m1 := interim tk stPending (writeBound len m.deal) m
      let w : ClipWrite := { h := { cmd := c, tk := { tk with interim := true } }, clip := k, start := m.deal }
      (watchStore (setAnn { m1.ann with ser := m1.ann.ser + 1, writes := m1.ann.writes ++ [w] } m1), { st := none })

/-- CLIP_WRITE. -/
def execClipWrite (c : Cmd) (s : State) : Host.Outcome State Fault Refusal := onMach (hostRow 0x0701 clipWrite c) s

/-- A written and verified clip is switched into the directory (R381). -/
def clipWriteDone (n : Nat) (m : Mach) : Mach :=
  match m.ann.writes.find? (fun w => u16 w.h.cmd 24 == n) with
  | none => m
  | some w =>
    final w.h.tk (if w.h.tk.eff < w.start then stLate else stDone)
      (watchStore (setAnn { m.ann with clips := mput n w.clip m.ann.clips, writes := m.ann.writes.erase w } m))

/-- CLIP_WRITE_DONE. -/
def execClipWriteDone (clip : Nat) (s : State) : Host.Outcome State Fault Refusal := onMach (clipWriteDone clip) s

/-! Messages and the schedule (R383, R384, R392). -/

/-- Whether a step of a message is one of the encodings of Table 14.2. -/
def stepOk (v : Nat) : Bool := v < 4096 || (0x8000 < v && v ≤ 0xFFFF)

/-- The steps of a sequence, up to the end. -/
def liveSteps (d : Msg) : List Nat := if d.kind = 2 then d.steps.take 2 else d.steps.takeWhile (fun v => v != 0xFFFF)

/-- A message entry of Table 14.2: its number and definition. -/
def msgEntry (l : List Byte) : Nat × Msg :=
  (leAt l 0 2, { kind := leAt l 2 1, cls := leAt l 3 1, flags := leAt l 4 2, reps := leAt l 6 2, gain := n2s 32 (leAt l 8 4),
                 limit := leAt l 12 4, slot := leAt l 16 2, wait := leAt l 18 2, zones := zonesOf (l.drop 20),
                 steps := (List.range 16).map (fun i => leAt l (52 + 2 * i) 2) })

/-- Whether a message entry breaks none of the rules of R384. -/
def msgOk (m : Mach) (l : List Byte) : Bool :=
  let (i, d) := msgEntry l
  i < 1024 && d.kind ≤ 2 && leAt l 84 12 == 0 &&
    (d.kind == 0 || (d.cls < 16 && d.flags < 8 && (d.flags.testBit 2 || 1 ≤ d.reps) && d.slot < 4096 && d.steps.all stepOk &&
      (if d.kind = 2 then 1 ≤ d.limit
       else d.limit == 0 && (liveSteps d).all (fun v => 4095 < v || (mfind m.ann.clips v).isSome))))

/-- MSG_DEFINE (R383, R384). -/
def msgDefine : Eff := fun c _ m =>
  let n := u16 c 24
  let es := records 96 n (bufBytes c)
  if n = 0 || 1024 < n || bufLen c != 96 * n || !bufOk c false m || !es.all (msgOk m) then bad m
  else okM (setAnn { m.ann with msgs := es.foldl (fun t l =>
    if (msgEntry l).2.kind = 0 then mdel (msgEntry l).1 t else mput (msgEntry l).1 (msgEntry l).2 t) m.ann.msgs } m)

/-- MSG_DEFINE. -/
def execMsgDefine (c : Cmd) (s : State) : Host.Outcome State Fault Refusal := onMach (hostRow 0x0702 msgDefine c) s

/-- A schedule entry of Table 14.3: its number and definition. -/
def schedEntry (l : List Byte) : Nat × Sched :=
  (leAt l 0 2, { trig := leAt l 2 1, flags := leAt l 3 1, msg := leAt l 4 2, cls := leAt l 6 1, pin := leAt l 7 1,
                 at_ := leAt l 8 8, period := leAt l 16 4, ofs := n2s 32 (leAt l 20 4) })

/-- Whether a schedule entry breaks none of the rules of R384. -/
def schedOk (m : Mach) (l : List Byte) : Bool :=
  let (i, e) := schedEntry l
  i < 4096 && e.trig ≤ 4 && e.flags < 8 && (e.cls < 16 || e.cls == 0xFF) && e.pin < 32 && e.msg < 1024 && leAt l 24 8 == 0 &&
    (e.trig != 2 || 1 ≤ e.period) && (e.trig != 3 || e.at_ < 86400) && (e.trig == 0 || (mfind m.ann.msgs e.msg).isSome)

/-- SCHED_WRITE (R384, R392). -/
def schedWrite : Eff := fun c _ m =>
  let n := u16 c 24
  let es := records 32 n (bufBytes c)
  if n = 0 || 4096 < n || bufLen c != 32 * n || !bufOk c false m || !es.all (schedOk m) then bad m
  else okM (setAnn { m.ann with
    sched := es.foldl (fun t l => mput (schedEntry l).1 (schedEntry l).2 t) m.ann.sched,
    fired := m.ann.fired.filter (fun e => !(es.any (fun l => (schedEntry l).1 == e))) } m)

/-- SCHED_WRITE. -/
def execSchedWrite (c : Cmd) (s : State) : Host.Outcome State Fault Refusal := onMach (hostRow 0x0703 schedWrite c) s

/-! Plays (R385-R390). -/

/-- A play by its serial number. -/
def playOf (m : Mach) (k : Nat) : Option Play := mfind m.ann.plays k

/-- The machine with a play replaced. -/
def setPlay (k : Nat) (p : Play) (m : Mach) : Mach := setAnn { m.ann with plays := mput k p m.ann.plays } m

/-- EV_ANN_END. -/
def annEnd (id msg reason zones : Nat) (m : Mach) : Mach :=
  raise 0x11 0x1102 [(4, id), (2, msg), (1, reason), (1, min 255 zones), (8, 0)] m

/-- A request ends before it has started. -/
def dropReq (r : Req) (reason : Nat) (m : Mach) : Mach :=
  annEnd r.id r.msg reason 0 (onlyIf (reason == 4) (wr F.ANN_FLAGS_DROPPED 1)
    (setAnn { m.ann with waiting := m.ann.waiting.erase r, new := m.ann.new.erase r } m))

/-- A request enters the waiting list, which holds 64 (R388). -/
def waitReq (r : Req) (m : Mach) : Mach :=
  if 64 ≤ m.ann.waiting.length then dropReq r 4 m
  else setAnn { m.ann with waiting := m.ann.waiting ++ [{ r with since := m.deal }] } m

/-- A zone changes holder: the outgoing play fades out and the incoming one in from sample 0 of the deal; several changes in one
boundary fade from the holder at its start (R390). -/
def changeZone (z : Nat) (new : Option Nat) (m : Mach) : Mach :=
  let d := annDeal m
  let old := match mfind m.ann.fades z with
    | some f => if f.deal = d then f.old else mfind m.ann.holder z
    | none => mfind m.ann.holder z
  setAnn { m.ann with
    holder := (match new with | some k => mput z k m.ann.holder | none => mdel z m.ann.holder)
    fades := mput z { old := old, deal := d, n := rd m F.ANN_CTRL_XFADE } m.ann.fades } m

/-- A play ends and fades out of the zones it holds (R388, R390). -/
def endPlay (k reason : Nat) (m : Mach) : Mach :=
  match playOf m k with
  | none => m
  | some p =>
    let m1 := forEach p.zones (fun z m => changeZone z none m) m
    let m2 := setPlay k { p with zones := [] } (setAnn { m1.ann with players := mdel p.player m1.ann.players } m1)
    onlyIf (reason == 3 && p.defn.flags.testBit 1) (waitReq p.rq) (annEnd p.rq.id p.rq.msg reason p.zones.length m2)

/-- Whether a play holds a latched zone. -/
def playLatched (m : Mach) (p : Play) : Bool :=
  p.zones.any (fun z => mfind m.ann.latch z == some { cls := p.rq.cls, id := p.rq.id, msg := p.rq.msg })

/-- EV_ANN_PREEMPT of a zone. -/
def preempt (old : Play) (z : Nat) (r : Req) (m : Mach) : Mach :=
  raise 0x11 0x1103 [(4, old.rq.id), (4, r.id), (1, z), (1, old.rq.cls), (1, r.cls), (5, 0)] (bump F.ANN_PREEMPT_CNT_COUNT 1 m)

/-- Whether a zone is available to a request; a restored latch is available to its own replay (R388, R395). -/
def zoneFree (m : Mach) (r : Req) (z : Nat) : Bool :=
  (match mfind m.ann.latch z with
   | some l => r.cls < l.cls || (r.src == 3 && l == { cls := r.cls, id := r.id, msg := r.msg })
   | none => true) &&
  (match (mfind m.ann.holder z).bind (playOf m) with | some h => r.cls < h.rq.cls | none => true)

/-- Whether a message needs a bridge channel: a clip of it is not at the domain-A rate (R385). -/
def needsBridge (m : Mach) (d : Msg) : Bool :=
  (liveSteps d).any (fun v => match mfind m.ann.clips v with | some c => clipHz c.rate != rateHz m | none => false)

/-- The A-C group delay in samples (02 Table 2.2). -/
def acDelay (m : Mach) : Nat := 4 * spd m

/-- A step as a play takes it: a step whose clip is absent plays nothing. -/
def annSeg (m : Mach) (v : Nat) : Seg :=
  if 0x8000 < v && v < 0xFFFF then .quiet ((v - 0x8000) * spd m)
  else match mfind m.ann.clips v with
    | some c => .clip v c
    | none => .quiet 0

/-- The steps of a play (R383). -/
def annSegs (m : Mach) (d : Msg) : List Seg :=
  if d.kind = 2 then [annSeg m (d.steps.getD 0 0xFFFF), .page d.slot, annSeg m (d.steps.getD 1 0xFFFF)]
  else (liveSteps d).map (annSeg m)

/-- The player that a request takes: the lowest free one, else the one of the greatest class, the latest start and the lowest
number (R389). -/
def choosePlayer (m : Mach) (serv : List Nat) (cls : Nat) : Option Nat :=
  let at_ (p : Nat) : Option Play := (mfind m.ann.players p).bind (playOf m)
  match serv.find? (fun p => (at_ p).isNone) with
  | some p => some p
  | none => serv.foldl (fun b p => match at_ p with
      | some x =>
        if x.rq.cls ≤ cls then b
        else match b.bind at_ with
          | some y => if y.rq.cls < x.rq.cls || (y.rq.cls == x.rq.cls && y.start < x.start) then some p else b
          | none => some p
      | none => b) none

/-- A play is cut off in every zone it holds (R388). -/
def cutPlay (k : Nat) (r : Req) (m : Mach) : Mach :=
  match playOf m k with
  | none => m
  | some p =>
    let m1 := forEach p.zones (fun z m => changeZone z none (preempt p z r m)) m
    endPlay k 3 (setPlay k { p with zones := [] } m1)

/-- A zone goes to play k of a request; its holder loses it, and ends when it has lost its last one (R388, R395). -/
def takeZone (k : Nat) (r : Req) (z : Nat) (m : Mach) : Mach :=
  if !zoneFree m r z then m
  else
    let m1 := match mfind m.ann.holder z with
      | some h => (match playOf m h with
        | some p =>
          let m2 := setPlay h { p with zones := p.zones.erase z } (preempt p z r m)
          (changeZone z none m2)
        | none => m)
      | none => m
    let m3 := changeZone z (some k) m1
    let m4 := match playOf m3 k with | some p => setPlay k { p with zones := p.zones ++ [z] } m3 | none => m3
    let m5 := match mfind m.ann.holder z with
      | some h => (match playOf m4 h with | some p => if p.zones.isEmpty then endPlay h 3 m4 else m4 | none => m4)
      | none => m4
    if r.cls ≤ rd m F.ANN_CTRL_LATCH_CLASS then
      setAnn { m5.ann with latch := mput z { cls := r.cls, id := r.id, msg := r.msg } m5.ann.latch } m5
    else m5

/-- A request starts on a player (R388-R390, R395); an announcement of a strong class ends a measurement (12 R342). -/
def startPlay (r : Req) (d : Msg) (pl : Nat) (bridged : Bool) (m : Mach) : Mach :=
  let m0 := match mfind m.ann.players pl with | some k => cutPlay k r m | none => m
  let k := m0.ann.ser
  let p : Play := { rq := r, defn := d, player := pl, start := annDeal m, zones := [], segs := annSegs m d, bridged := bridged,
                    fifo := zeros (if bridged then acDelay m else 0) }
  let m1 := setAnn { m0.ann with ser := k + 1, plays := mput k p m0.ann.plays, players := mput pl k m0.ann.players,
                                 waiting := m0.ann.waiting.erase r, new := m0.ann.new.erase r } m0
  let m2 := forEach r.zones (takeZone k r) m1
  let got := match playOf m2 k with | some x => x.zones.length | none => 0
  let m3 := raise 0x11 0x1101 [(4, r.id), (2, r.msg), (1, r.cls), (1, pl), (8, 0)] (bump F.ANN_PLAY_CNT_COUNT 1 m2)
  let m4 := onlyIf (r.cls ≤ rd m F.ANN_CTRL_LATCH_CLASS && got != 0)
    (fun m => raise 0x11 0x1104 [(4, r.id), (2, r.msg), (1, r.cls), (1, min 255 got), (8, 0)] (wr F.ANN_FLAGS_LATCHED 1 m)) m3
  measTrump r.cls m4

/-- The players that can serve a play: for one that needs a bridge, those that the live deck binds (R385, R389). -/
def servers (m : Mach) (bridged : Bool) : List Nat :=
  (List.range 16).filter (fun p => !bridged || (lookN m.dk.live.body.players p).isSome)

/-- One request of the boundary (R388, R389). -/
def treat (waited : Bool) (r : Req) (m : Mach) : Mach :=
  match mfind m.ann.msgs r.msg with
  | none => dropReq r 4 m
  | some d =>
    let b := needsBridge m d
    let av := r.zones.filter (zoneFree m r)
    if servers m b == [] then dropReq r 5 m
    else match choosePlayer m (servers m b) r.cls with
      | some pl =>
        if av != [] && (!d.flags.testBit 0 || av == r.zones) then startPlay r d pl b m
        else if waited then m else waitReq r m
      | none => if waited then m else waitReq r m

/-- The place of a request in the order of R387. -/
def reqKey (waited : Bool) (i : Nat) (r : Req) : Nat :=
  r.cls * 2 ^ 40 + (if waited then i else 2 ^ 39 + r.src * 2 ^ 32 + (if r.src = 0 then i else r.entry))

/-- A request inserted in the order of R387. -/
def insertReq (q : Nat × Bool × Req) : List (Nat × Bool × Req) → List (Nat × Bool × Req)
  | [] => [q]
  | x :: t => if q.1 < x.1 then q :: x :: t else x :: insertReq q t

/-- The requests of a boundary in the order of R387. -/
def reqOrder (m : Mach) : List (Nat × Bool × Req) :=
  (m.ann.waiting.mapIdx (fun i r => (reqKey true i r, true, r)) ++ m.ann.new.mapIdx (fun i r => (reqKey false i r, false, r))).foldl
    (fun l q => insertReq q l) []

/-- The restored latches whose zones have a source node in the live deck ask for their messages again (R395, R398). -/
def replayLatches (m : Mach) : Mach :=
  let live := m.dk.live.body.nodes.filterMap (fun d => match parOf m.dk.live.body d with | .ann z => some z | _ => none)
  let zs (l : Latch) : List Nat := (m.ann.latch.filter (fun q => q.2 == l)).map Prod.fst
  let go := m.ann.replay.filter (fun l => (zs l).any (fun z => live.contains z))
  setAnn { m.ann with
    replay := m.ann.replay.filter (fun l => !((zs l).any (fun z => live.contains z)))
    new := m.ann.new ++ go.mapIdx (fun i l => { id := l.id, msg := l.msg, cls := l.cls, zones := zs l, since := m.deal, src := 3, entry := i }) } m

/-- The arbitration of a deal boundary (R387). -/
def arbitrate (m : Mach) : Mach :=
  let m1 := replayLatches m
  forEach (reqOrder m1) (fun q m => treat q.2.1 q.2.2 m) (setAnn { m1.ann with new := [] } m1)

/-- A waiting request has waited for its message's limit (R388). -/
def waitLimit (k : Nat) (m : Mach) : Mach :=
  match m.ann.waiting[k]? with
  | none => m
  | some r => onlyIf (decide (r.since + ((mfind m.ann.msgs r.msg).map (fun d => d.wait)).getD 0 ≤ m.deal)) (dropReq r 4) m

/-- ANN_WAIT_LIMIT: the request at a place of the waiting list. -/
def execAnnWaitLimit (k : Nat) (s : State) : Host.Outcome State Fault Refusal := onMach (waitLimit k) s

/-! Requests by command and by the schedule (R391, R393). -/

/-- ANN_PLAY (R391). -/
def annPlay : Eff := fun c _ m =>
  match mfind m.ann.msgs (u16 c 24) with
  | none => bad m
  | some d =>
    if (15 < u8 c 26 && u8 c 26 != 0xFF) || 1 < u8 c 27 then bad m
    else
      let r : Req := { id := u32 c 28, msg := u16 c 24, cls := if u8 c 26 = 0xFF then d.cls else u8 c 26,
                       zones := if u8 c 27 = 1 then zonesOf (c.pay.drop 8) else d.zones, since := m.deal, src := 0, entry := 0 }
      okM (setAnn { m.ann with new := m.ann.new ++ [r] } m)

/-- ANN_PLAY. -/
def execAnnPlay (c : Cmd) (s : State) : Host.Outcome State Fault Refusal := onMach (hostRow 0x0704 annPlay c) s

/-- The serial numbers of the plays that players hold. -/
def playing (m : Mach) : List Nat := m.ann.players.map Prod.snd

/-- ANN_STOP (R391). -/
def annStop : Eff := fun c _ m =>
  let hit (r : Req) : Bool := if u16 c 28 = 0xFFFF then r.id == u32 c 24 else r.msg == u16 c 28
  let ps := (playing m).filterMap (fun k => (playOf m k).map (fun p => (k, p)))
  let mine := ps.filter (fun q => hit q.2.rq)
  let free := mine.filter (fun q => !playLatched m q.2)
  let rs := (m.ann.waiting ++ m.ann.new).filter hit
  if u16 c 28 != 0xFFFF && (mfind m.ann.msgs (u16 c 28)).isNone then bad m
  else if mine != [] && free == [] && rs == [] then (m, { st := some stRefusedAuth })
  else okM (forEach rs (fun r m => dropReq r 2 m) (forEach free (fun q m => endPlay q.1 2 m) m))

/-- ANN_STOP. -/
def execAnnStop (c : Cmd) (s : State) : Host.Outcome State Fault Refusal := onMach (hostRow 0x0705 annStop c) s

/-- The play ID of a schedule entry (Table 14.5). -/
def entryId (e : Nat) : Nat := 0x80000000 + e

/-- An entry fires: its request, or the end of one that comes while the last still waits (R393). -/
def fire (e : Nat) (x : Sched) (src : Nat) (m : Mach) : Mach :=
  match mfind m.ann.msgs x.msg with
  | none => dropReq { id := entryId e, msg := x.msg, cls := 15, zones := [], since := m.deal, src := src, entry := e } 4 m
  | some d =>
    let r : Req := { id := entryId e, msg := x.msg, cls := if x.cls = 0xFF then d.cls else x.cls, zones := d.zones, since := m.deal,
                     src := src, entry := if src = 2 then x.pin * 4096 + e else e }
    if (m.ann.waiting ++ m.ann.new).any (fun w => w.src == src && w.entry == r.entry) then
      annEnd r.id r.msg 4 0 (wr F.ANN_FLAGS_DROPPED 1 m)
    else setAnn { m.ann with new := m.ann.new ++ [r] } m

/-- Whether the instant of a daily entry lies in the deal that ends at boundary d (R393). -/
def dailyDue (m : Mach) (x : Sched) (d : Nat) : Bool :=
  let sh : Int := (x.ofs - n2s 16 (rd m F.TIM_UTC_OFFSET) - x.at_) * 1000000000
  let day : Int := 86400000000000
  (((d : Int) - 1) * 125000 + sh) / day < ((d : Int) * 125000 + sh) / day

/-- Whether an entry of trigger 1 to 3 fires at boundary d (R392, R393). Before the first lock there are no table deals and no time, and none
fires (01 R15; 05 R126). -/
def entryDue (m : Mach) (x : Sched) (d : Nat) : Bool :=
  flag m F.TIM_STATE_EVER_LOCKED && match x.trig with
  | 1 => d == x.at_
  | 2 => x.at_ ≤ d && (d - x.at_) % max 1 x.period == 0
  | 3 => dailyDue m x d
  | _ => false

/-- An entry that is due at the coming boundary fires for it, once. -/
def scheduleFire (e : Nat) (m : Mach) : Mach :=
  match mfind m.ann.sched e with
  | none => m
  | some x =>
    onlyIf (x.flags.testBit 0 && entryDue m x (m.deal + 1) && mfind m.ann.lastFire e != some (m.deal + 1))
      (fun m => fire e x 1 (setAnn { m.ann with lastFire := mput e (m.deal + 1) m.ann.lastFire } m)) m

/-- SCHEDULE_FIRE: it comes before the tick of the boundary at which its request is treated. -/
def execScheduleFire (e : Nat) (s : State) : Host.Outcome State Fault Refusal := onMach (scheduleFire e) s

/-- Whether a pin has shown a level, active or not, in eight samples, seven of them equal to the one before (R393). -/
def pinHeld (m : Mach) (x : Sched) (active : Bool) : Bool :=
  7 ≤ mget 0 m.gpio.run x.pin && ((rd m F.GPIO_IN_LEVEL).testBit x.pin == (active != x.flags.testBit 2))

/-- An entry whose pin is to complete its 8 deals at the coming boundary is judged there, with that boundary's sample (R387, R393). -/
def gpioTrigger (e : Nat) (m : Mach) : Mach :=
  match mfind m.ann.sched e with
  | none => m
  | some x =>
    onlyIf (x.trig == 4 && x.flags.testBit 0 && !m.ann.fired.contains e) (setAnn { m.ann with trig := insertNat e m.ann.trig }) m

/-- A GPIO entry fires when its pin has held its active level for 8 consecutive deals (R393). -/
def firePin (e : Nat) (m : Mach) : Mach :=
  match mfind m.ann.sched e with
  | none => m
  | some x =>
    onlyIf (x.trig == 4 && x.flags.testBit 0 && pinHeld m x true && !m.ann.fired.contains e)
      (fun m => fire e x 2 (setAnn { m.ann with fired := insertNat e m.ann.fired } m)) m

/-- The pins of the schedule at a boundary, their levels sampled. -/
def firePins (m : Mach) : Mach := forEach m.ann.trig firePin (setAnn { m.ann with trig := [] } m)

/-- GPIO_TRIGGER: it comes before the tick that samples the eighth active level. -/
def execGpioTrigger (e : Nat) (s : State) : Host.Outcome State Fault Refusal := onMach (gpioTrigger e) s

/-- A play is stopped by its pin: a page first plays its closing chime, if it has one (R391, R393). -/
def releasePlay (k : Nat) (m : Mach) : Mach :=
  match playOf m k with
  | none => m
  | some p =>
    if playLatched m p then m
    else if p.defn.kind = 2 && p.segs[2]? != some (.quiet 0) then
      onlyIf (!p.stopping) (setPlay k { p with stopping := true, seg := max 2 p.seg, pos := if p.seg < 2 then 0 else p.pos, mute := p.mute && 2 ≤ p.seg }) m
    else endPlay k 2 m

/-- The return of a pin to its inactive level for 8 deals (R393). -/
def gpioRelease (e : Nat) (m : Mach) : Mach :=
  match mfind m.ann.sched e with
  | none => m
  | some x =>
    if x.trig == 4 && m.ann.fired.contains e && pinHeld m x false then
      let m1 := setAnn { m.ann with fired := m.ann.fired.filter (fun k => k != e) } m
      if x.flags.testBit 1 then
        let m2 := forEach (m1.ann.waiting.filter (fun r => r.id == entryId e)) (fun r m => dropReq r 2 m) m1
        forEach ((playing m2).filter (fun k => (playOf m2 k).any (fun p => p.rq.id == entryId e))) releasePlay m2
      else m1
    else m

/-- GPIO_RELEASE: it comes after the tick that sampled the eighth inactive level. -/
def execGpioRelease (e : Nat) (s : State) : Host.Outcome State Fault Refusal := onMach (gpioRelease e) s

/-! Audio (R385, R386, R390; 12 R348). -/

/-- The length of a step in samples of domain A. -/
def segLen (m : Mach) (d : Msg) : Seg → Nat
  | .clip _ c => (clipLen c * rateHz m + clipHz c.rate - 1) / clipHz c.rate
  | .quiet n => n
  | .page _ => d.limit * spd m

/-- The next sample to play: the step after one that has been played, the next repeat, or the end. A page at its limit waits for
ANN_PAGE_LIMIT. -/
def settle (m : Mach) : Nat → Play → Play
  | 0, p => p
  | n + 1, p =>
    if p.done then p
    else match p.segs[p.seg]? with
      | none =>
        if p.segs.all (fun s => segLen m p.defn s == 0) || (!(p.defn.kind == 1 && p.defn.flags.testBit 2) &&
            (if p.defn.kind = 1 then p.defn.reps else 1) ≤ p.rep + 1) then { p with done := true }
        else settle m n { p with seg := 0, pos := 0, rep := p.rep + 1, mute := false }
      | some (.page _) => p
      | some s => if segLen m p.defn s ≤ p.pos then settle m n { p with seg := p.seg + 1, pos := 0, mute := false } else p

/-- The sample of a play at its position, as sample k of the deal: a clip of another rate gives what the bridge makes of it, which
the manual does not fix to the bit (02 R29). -/
def playSample (m : Mach) (p : Play) (k free : Nat) : Int :=
  match p.segs[p.seg]? with
  | some (.clip _ c) =>
    if p.mute then 0
    else if clipHz c.rate = rateHz m then clipSample c p.pos
    else n2s 32 (Config.freeWord free).toNat
  | some (.page s) => if p.pos < p.defn.limit * spd m then (busRead m s).getD k 0 else 0
  | _ => 0

/-- One sample of a play. -/
def playOne (m : Mach) (k : Nat) (p : Play) : Play :=
  let q := settle m (p.segs.length + 2) p
  if q.done then { q with fifo := q.fifo ++ [0], drain := q.drain + 1 }
  else { q with fifo := q.fifo ++ [playSample m q k (m.fresh + k)], pos := q.pos + 1 }

/-- The deal of a play: its samples of this deal, after the delay of its bridge (R385). -/
def playDeal (m : Mach) (p : Play) : Play :=
  let q := (List.range (spd m)).foldl (fun p k => playOne m k p) p
  settle m (q.segs.length + 2) { q with out := q.fifo.take (spd m), fifo := q.fifo.drop (spd m) }

/-- The plays of a deal; playback runs in ACTIVE alone (17 R459, R398). -/
def annRun (m : Mach) : Mach :=
  forEach (m.ann.plays.map Prod.fst) (fun k m => match playOf m k with
    | none => m
    | some p =>
      if rd m F.PWR_STATE_STATE = 0 then useFresh (if p.bridged then spd m else 0) (setPlay k (playDeal m p) m)
      else setPlay k { p with out := zeros (spd m) } m) m

/-- The largest number below 2^30 whose 20th power times 10^d stays within 2^600: the gain of d dB of attenuation. -/
def duckRoot (d : Nat) : Nat → Nat → Nat
  | 0, g => g
  | n + 1, g => if (g + 2 ^ n) ^ 20 * 10 ^ d ≤ 2 ^ 600 then duckRoot d n (g + 2 ^ n) else duckRoot d n g

/-- The gain of a duck depth, Q2.30 (12 R348). -/
def duckGain (d : Nat) : Int := if d = 0 then 2 ^ 30 else (duckRoot d 30 0 : Nat) + Config.duckLsb d

/-- The audio of a play in a zone: times its message gain, and times the duck where its class is ducked. -/
def playIn (m : Mach) (zone k : Nat) : List Int :=
  match playOf m k with
  | none => zeros (spd m)
  | some p =>
    let xs := p.out.map (fun x => scale30 x p.defn.gain)
    let g0 := duckGain (mget 0 m.ann.duck zone)
    let g1 := duckGain (duckDepth m zone)
    if p.rq.cls < rd m F.AEC_DUCK_MIN_CLASS || (mget 0 m.ann.duck zone == 0 && duckDepth m zone == 0) then xs
    else xs.mapIdx (fun i x => scale30 x (gainRamp g0 g1 i (spd m)))

/-- The audio of a zone (R386, R390). -/
def zoneAudio (m : Mach) (zone : Nat) : List Int :=
  let pick (k : Option Nat) : List Int := match k with | some k => playIn m zone k | none => zeros (spd m)
  let new := pick (mfind m.ann.holder zone)
  match mfind m.ann.fades zone with
  | none => new
  | some f =>
    let old := pick f.old
    let i0 := (m.deal - f.deal) * spd m
    new.mapIdx (fun k y =>
      if i0 + k < f.n then
        let g := fadeGains (i0 + k) f.n
        (rnd [(g.2, old.getD k 0), (g.1, y)]).1
      else y)

/-- The service at a commit: fades that have run their length go, with the plays that nothing refers to. -/
def annCommit (m : Mach) : Mach :=
  let fades := m.ann.fades.filter (fun q => (m.deal + 1 - q.2.deal) * spd m < q.2.n)
  let zones := dedup (m.ann.duck.map Prod.fst ++ (m.icom.map (fun q => q.2.zone)))
  setAnn { m.ann with
    fades := fades
    plays := m.ann.plays.filter (fun q => (m.ann.players.any (fun p => p.2 == q.1)) || fades.any (fun f => f.2.old == some q.1))
    duck := zones.foldl (fun t z => mset 0 z (duckDepth m z) t) m.ann.duck } m

/-- A play has reached its end and fades out of its zones (R390). -/
def playEnd (p : Nat) (m : Mach) : Mach :=
  match mfind m.ann.players p with
  | none => m
  | some k => match playOf m k with
    | none => m
    | some x => onlyIf (x.done && (!x.bridged || acDelay m ≤ x.drain)) (endPlay k (if x.stopping then 2 else 1)) m

/-- ANN_PLAY_END: the play of a player. -/
def execAnnPlayEnd (p : Nat) (s : State) : Host.Outcome State Fault Refusal := onMach (playEnd p) s

/-- A page that has reached its limit goes on to its closing chime (R383). -/
def pageLimit (p : Nat) (m : Mach) : Mach :=
  match mfind m.ann.players p with
  | none => m
  | some k => match playOf m k with
    | none => m
    | some x =>
      onlyIf (x.defn.kind == 2 && x.seg == 1 && x.defn.limit * spd m ≤ x.pos) (setPlay k (settle m (x.segs.length + 2) { x with seg := 2, pos := 0, mute := false })) m

/-- ANN_PAGE_LIMIT. -/
def execAnnPageLimit (p : Nat) (s : State) : Host.Outcome State Fault Refusal := onMach (pageLimit p) s

/-- A unit of the clip that a player reads fails authentication: the rest of that clip plays as silence (R382). -/
def clipError (p unit : Nat) (m : Mach) : Mach :=
  match mfind m.ann.players p with
  | none => m
  | some k => match playOf m k with
    | none => m
    | some x => match x.segs[x.seg]? with
      | some (.clip n _) =>
        onlyIf (!x.mute) (fun m => raise 0x11 0x1107 [(2, n), (2, 0), (4, unit), (4, x.rq.id), (4, 0)]
          (wr F.ANN_FLAGS_CLIP_ERR 1 (setPlay k { x with mute := true } m))) m
      | _ => m

/-- CLIP_ERROR. -/
def execClipError (p unit : Nat) (s : State) : Host.Outcome State Fault Refusal := onMach (clipError p unit) s

/-! The latch (R395-R398). -/

/-- A latch is removed, and a latched play that holds the zone fades out of it (R396). -/
def unlatch (z : Nat) (m : Mach) : Mach :=
  match mfind m.ann.latch z with
  | none => m
  | some l =>
    let m1 := setAnn { m.ann with latch := mdel z m.ann.latch, replay := m.ann.replay } m
    match mfind m.ann.holder z with
    | none => m1
    | some k => match playOf m1 k with
      | none => m1
      | some p =>
        if p.rq.id = l.id && p.rq.msg = l.msg && p.rq.cls = l.cls then
          let m2 := setPlay k { p with zones := p.zones.erase z } (changeZone z none m1)
          if (p.zones.erase z).isEmpty then endPlay k 2 m2 else m2
        else m1

/-- TRUMP_CLEAR (R396). -/
def trumpClear : Eff := fun c _ m =>
  if 1 < u8 c 24 || bufLen c != 304 || !bufOk c false m then bad m
  else
    let zs := if u8 c 24 = 1 then List.range 256 else zonesOf (bufBytes c)
    let gone := zs.filter (fun z => (mfind m.ann.latch z).isSome)
    let m1 := forEach gone unlatch m
    let left := m1.ann.latch.map Prod.snd
    okM (raise 0x11 0x1105 [(1, min 255 gone.length), (7, 0), (8, envKey c)]
      (setAnn { m1.ann with replay := m1.ann.replay.filter (fun l => left.contains l) } m1))

/-- TRUMP_CLEAR. -/
def execTrumpClear (c : Cmd) (s : State) : Host.Outcome State Fault Refusal := onMach (hostRow 0x0706 trumpClear c) s

/-- The latches that are to be replayed, each once. -/
def latchList (a : Ann) : List Latch := (a.latch.map Prod.snd).foldl (fun l x => if l.contains x then l else l ++ [x]) []

/-- A render reset ends every play without a fade; requests, latches and tables stay (R398). -/
def annRenderReset (m : Mach) : Mach :=
  let ps := (playing m).filterMap (playOf m)
  let m1 := forEach ps (fun p m => annEnd p.rq.id p.rq.msg 6 p.zones.length m) m
  setAnn { m1.ann with plays := [], players := [], holder := [], fades := [], replay := latchList m1.ann } m1

/-- What a power-on, pin or system reset reloads from the store: the clips, the tables and the latches (R394, R395). -/
def annKept (a : Ann) : Ann :=
  { clips := a.clips, ser := a.ser, msgs := a.msgs, sched := a.sched, latch := a.latch, replay := latchList a }

/-- The bits of ANN_PLAYERS, ANN_LATCH and GPIO_SCHED (Table 14.4, 18 Table 18.18). -/
def playersBusy (m : Mach) : Nat := (m.ann.players.map (fun q => 2 ^ q.1)).sum
/-- The zones 32j to 32j + 31 that are latched. -/
def latchWord (m : Mach) (j : Nat) : Nat := ((m.ann.latch.filter (fun q => q.1 / 32 == j)).map (fun q => 2 ^ (q.1 % 32))).sum
/-- The pins that enabled entries use as triggers. -/
def schedPins (m : Mach) : Nat :=
  (sortNat ((m.ann.sched.filter (fun q => q.2.trig == 4 && q.2.flags.testBit 0)).map (fun q => q.2.pin))).foldl (fun a p => a + 2 ^ p) 0

end Sys2Proof.Machine
end

