-- ==== Sys2Proof/Machine/Time.lean ====
section
/-! DEFINITION. Domain time (05): the ring's two-way time, lock, steps and slew, local PTP ports, PPS_OUT, TIME_QUERY. Domain times
and delays of markers are in units of 1/65,536 ns, theta in ps, slews in ps. -/
namespace Sys2Proof.Machine

/-- The machine with its time unit replaced. -/
def setTim (x : Tim) (m : Mach) : Mach := { m with tim := x }

/-- A direction of ring time: 0 A, 1 B; 2 is the slave port of MODE 2. -/
def timeDir (m : Mach) (p : Nat) : TimeDir := mget {} m.tim.dirs p

/-- The machine with a direction replaced. -/
def setDir (p : Nat) (x : TimeDir) (m : Mach) : Mach := setTim { m.tim with dirs := mset {} p x m.tim.dirs } m

/-- A domain time of 96 bits as a marker carries it: seconds, nanoseconds and the fraction (R125; 06 Table 6.4). -/
def time96 (u : Nat) : Pay := [(6, u / 65536 / 10 ^ 9), (4, u / 65536 % 10 ^ 9), (2, u % 65536)]

/-- A value cut to the signed range of 32 bits, as its word. -/
def clamp32 (x : Int) : Nat := s2n 32 (satW 32 x)

/-- Valid directions: bit 0 A, bit 1 B. -/
def validDirs (m : Mach) : Nat := rd m F.TIM_STATE_PATH_A + 2 * rd m F.TIM_STATE_PATH_B

/-- The validity bit of a direction. -/
def showDir (p b : Nat) (m : Mach) : Mach :=
  if p = 0 then wr F.TIM_STATE_PATH_A b m else if p = 1 then wr F.TIM_STATE_PATH_B b m else m

/-! The link delay (R128). -/

/-- The mean delay of a port's link over its last measurements, in 1/65,536 ns. -/
def linkMean (m : Mach) (p : Nat) : Int := meanOf (timeDir m p).delays

/-- The delay used for the incoming direction: the mean plus TIM_PORT_ASYM (R128). -/
def linkIn (m : Mach) (p : Nat) : Int := linkMean m p + ofPs (n2s 32 (sui m F.TIM_PORT_ASYM_PS p))

/-- The link delay that the four stamps of a marker exchange give with a stamp t3 of a marker of this port (R128); t2 is the ingress stamp of the
neighbour's marker before this one, which its TX_PREV belongs to. -/
def linkDelay (k : MarkerIn) (t2 t3 : Nat) : Int :=
  let nbr : Int := (k.rxPrev : Int) - k.txPrev
  (nbr + nbr * k.ratePpb / 1000000000 - ((t3 : Int) - t2)) / 2

/-- The delay by the marker that the neighbour has received: of the markers last sent, the one that gives the smallest delay that is not negative,
since one that left after the neighbour's stamps would give a negative one (DESIGN CHOICE, log 90). -/
def bestDelay (k : MarkerIn) (t2 : Nat) (sent : List Nat) : Option Int :=
  ((sent.map (linkDelay k t2)).filter (fun d => 0 ≤ d)).foldl (fun b d => match b with | some x => some (min x d) | none => some d) none

/-- A measurement of the link delay (R128); no earlier marker, no measurement. ingress is this marker's stamp. -/
def measureLink (p : Nat) (k : MarkerIn) (ingress : Nat) (m : Mach) : Mach :=
  let x := timeDir m p
  let d := if x.prevRx = 0 || k.txPrev = 0 || k.rxPrev = 0 then none else bestDelay k x.prevRx x.sent
  let delays := match d with | some v => (v :: x.delays).take 64 | none => x.delays
  let m1 := setDir p { x with delays := delays, prevRx := ingress } m
  let mean := toPs (meanOf delays)
  if p = 0 then wr F.TIM_LINK_A_PS (s2n 32 mean) m1 else wr F.TIM_LINK_B_PS (s2n 32 mean) m1

/-! Records (R131-R133). -/

/-- Whether generation a is newer than b, modulo 2^16 over half the range (R133). -/
def newerGen (a b : Nat) : Bool := decide (0 < (a + 2 ^ 16 - b % 2 ^ 16) % 2 ^ 16 ∧ (a + 2 ^ 16 - b % 2 ^ 16) % 2 ^ 16 < 2 ^ 15)

/-- The source seat that is followed. -/
def srcSeat (m : Mach) : Nat := rd m F.TIM_STATE_SOURCE_SEAT

/-- A new generation or source is followed: reported, and judged under R136 once FILT deals are averaged (R132). -/
def followSource (gen seat : Nat) (theta : Int) (m : Mach) : Mach :=
  raise 0x04 0x0405 [(2, srcSeat m), (2, seat), (2, rd m F.TIM_GEN_GEN), (2, gen), (4, clamp32 theta), (4, 0)]
    (wr F.TIM_GEN_GEN gen (wr F.TIM_STATE_SOURCE_SEAT seat
      (setTim { m.tim with avg := [], judge := flag m F.TIM_STATE_EVER_LOCKED, lockRun := 0 } m)))

/-- A direction takes a record: valid at once for a generation or source it was not following, else after LOSS_DEALS consecutive
deals (R132); records that return end HOLD and are judged under R136 (R138). -/
def takeRecord (p gen seat : Nat) (x : TimeDir) (m : Mach) : Mach :=
  let run := if x.recDeal + 1 = m.deal || x.recDeal = m.deal then x.run + 1 else 1
  let fresh := x.followed != some (gen, seat)
  let valid := x.valid || fresh || decide (su m F.TIM_RING_LOSS_DEALS ≤ run)
  let m1 := setDir p { x with followed := some (gen, seat), run := run, valid := valid, recDeal := m.deal } m
  let m2 := showDir p (b2n valid) (setTim { m1.tim with lastRec := m.deal } m1)
  if valid && flag m F.TIM_STATE_HOLD then
    wr F.TIM_STATE_HOLD 0 (setTim { m2.tim with judge := true, avg := [], lockRun := 0 } m2)
  else m2

/-- A record that reached the device with its theta (R131, R133): older generations are ignored and counted; of two seats of one
generation the lower is followed. -/
def timeRecord (p gen seat : Nat) (x : TimeDir) (m : Mach) : Mach :=
  let known := srcSeat m != 0xFFFF
  if known && newerGen (rd m F.TIM_GEN_GEN) gen then count p 0x0406 1 m
  else
    let two := known && gen == rd m F.TIM_GEN_GEN && seat != srcSeat m
    let theta (q : Nat) : Nat := clamp32 (if q = p then x.theta else (timeDir m q).theta)
    let m1 := onlyIf (two && !m.tim.dup)
      (raise 0x04 0x0406 [(1, 2), (1, 0), (2, max seat (srcSeat m)), (4, theta 0), (4, theta 1), (4, su m F.TIM_RING_DISAGREE_NS * 1000)])
      (setTim { m.tim with dup := two || (m.tim.dup && (gen == rd m F.TIM_GEN_GEN)) } m)
    if two && srcSeat m < seat then m1
    else
      let m2 := onlyIf (!known || gen != rd m F.TIM_GEN_GEN || seat != srcSeat m) (followSource gen seat x.theta) m1
      takeRecord p gen seat x m2

/-- A deal marker arrives: the ring's part, the link delay, and its time record where it carries one and this seat follows the
ring (R127-R133). -/
def markerReceive (p : Nat) (k : MarkerIn) (m0 : Mach) : Mach :=
  let at_ := stampIn m0 p k.ingress
  let m := setPort p { port m0 p with rxStamp := at_ } m0
  if 2 ≤ p then m0
  else if k.version != 1 || (rd m F.DOM_STATE_ROLE != 0 && k.tableId != rd m F.DOM_TABLE_TABLE_ID) then count p 0x0114 1 m
  else
    let m1 := measureLink p k at_ (ringMarker p k m)
    if k.flags.testBit 3 || flag m F.TIM_STATE_SOURCE || rd m F.TIM_CTRL_MODE != 0 then m1
    else
      let est := (k.origin : Int) + k.corr + linkIn m1 p
      let x := { timeDir m1 p with theta := toPs ((at_ : Int) - est), hops := k.hops, origin := k.origin, corr := k.corr,
                                   ingress := at_, forward := true, recSeat := k.srcSeat, recGen := k.gen }
      timeRecord p k.gen k.srcSeat x (count p 0x0405 1 m1)

/-- MARKER_RECEIVE. -/
def execMarkerReceive (p : Nat) (k : MarkerIn) (s : State) : Host.Outcome State Fault Refusal := onMach (markerReceive p k) s

/-- The rate of the source against the local timebase, less 1, in ppb: the mean offset of domain time less the control word (R129). -/
def srcRate (m : Mach) : Int := if flag m F.TIM_STATE_LOCKED && (cand m 4).bins != [] then meanOfs m 4 - m.clk.ctl else 0

/-- The time fields of a marker that leaves by port p with an egress stamp: the source's own record, or the record that arrived
on the opposite port, under its own source and generation, with the incoming link delay and the residence time at the source's rate added (R129);
none at a seam point (R177). -/
def markerRecord (m : Mach) (p egressAt : Nat) : Option (Nat × Nat × Nat × Nat × Int) :=
  let x := timeDir m (1 - p)
  if flag m F.TIM_STATE_SOURCE then
    if m.tim.todWait then none else some (ownSeat m, rd m F.TIM_GEN_GEN, 1, egressAt, 0)
  else if !x.forward || isSeam m m.ring.faults p || isSeam m m.ring.faults (1 - p) then none
  else
    let res : Int := (egressAt : Int) - x.ingress
    some (x.recSeat, x.recGen, x.hops + 1, x.origin, x.corr + linkIn m (1 - p) + (res + res * srcRate m / 1000000000))

/-- The deal marker of a ring port (R164, Table 6.4). -/
def markerPay (m : Mach) (p egressAt : Nat) : Pay :=
  let r := markerRecord m p egressAt
  let v := r.getD (0, 0, 0, 0, 0)
  [(8, m.deal), (2, rd m F.RING_STATE_EPOCH),
   (1, b2n (joined m) + 2 * b2n (isSeam m m.ring.faults p) + 4 * rd m F.TIM_STATE_LOCKED + 8 * b2n r.isNone),
   (1, rd m F.RING_STATE_INS), (2, activeMgr m), (2, 0), (2, v.1), (2, v.2.1), (2, v.2.2.1), (2, 0)] ++ time96 v.2.2.2.1 ++
   [(4, 0), (8, s2n 64 v.2.2.2.2)] ++ time96 ((timeDir m p).sent.headD 0) ++ time96 (timeDir m p).prevRx ++ [(8, 0)]

/-- The launch time of a port's marker in a deal, in ns of domain time: MARKER_US after the boundary (06 R164). -/
def markerAt (m : Mach) : Nat := m.deal * 125000 + rd m F.RING_TIMERS_MARKER_US * 1000

/-- The deal marker of a secure ring port is launched once in a deal, MARKER_US after the boundary; a launch later than LATE_NS after it is
discarded and counted, as of any launch-time queue (R145; 06 R164). -/
def markerLaunch (p at_ : Nat) (m : Mach) : Mach :=
  if p < 2 && maySend m p && 4 ≤ carries m && (port m p).markDeal < m.deal && markerAt m * 65536 ≤ at_ then
    let m0 := setPort p { port m p with markDeal := m.deal } m
    if (markerAt m + su m F.TIM_LAUNCH_LATE_NS) * 65536 < at_ then count p 0x0403 1 m0
    else
      let st := stampOut m p at_
      let pay := markerPay m p st
      let y := { timeDir m (1 - p) with forward := false }
      let m1 := setDir (1 - p) y (emit (.heivo p 1 none (heivoHdr 1 pay m) pay) m0)
      let m2 := setDir p { timeDir m1 p with sent := (st :: (timeDir m1 p).sent).take 4 } m1
      toEgress p (at_ / 65536) false { tc := 7, len := heivoLen none pay, tokens := 0, transit := true, poisoned := false, ident := 0 }
        (count p (if markerAt m * 65536 < at_ then 0x0402 else 0x0401) 1 m2)
  else m

/-- MARKER_LAUNCH. -/
def execMarkerLaunch (p at_ : Nat) (s : State) : Host.Outcome State Fault Refusal := onMach (markerLaunch p at_) s

/-! Lock, loss, steps and slew (R135-R138). -/

/-- The averaged theta. -/
def thetaAvg (m : Mach) : Int := meanOf m.tim.avg

/-- Whether theta has been averaged over FILT deals. -/
def avgFull (m : Mach) : Bool := decide (su m F.TIM_RING_FILT ≤ m.tim.avg.length)

/-- LOCKED clears, with its flag and event (R137, R138). -/
def unlock (cause : Nat) (m : Mach) : Mach :=
  raise 0x04 0x0402 [(1, cause), (3, 0), (4, m.deal - m.tim.lastRec), (8, 0)]
    (wr F.TIM_STATE_LOCKED 0 (wr F.TIM_FLAGS_UNLOCKED 1 (setTim { m.tim with lockRun := 0 } m)))

/-- No direction and no slave port is left: HOLD, and candidate 4 is lost with cause 5 (R138). -/
def timeLost (cause : Nat) (m : Mach) : Mach :=
  if flag m F.TIM_STATE_EVER_LOCKED && !flag m F.TIM_STATE_HOLD && !flag m F.TIM_STATE_SOURCE then
    candLost 4 5 (wr F.TIM_STATE_HOLD 1 (unlock cause m))
  else m

/-- A direction that delivered no record in a deal leaves the average (R132). -/
def timeDirectionLost (p : Nat) (m : Mach) : Mach :=
  let x := timeDir m p
  if p < 2 && x.valid && x.recDeal < m.deal then
    let m1 := showDir p 0 (setDir p { x with valid := false, run := 0 } m)
    if (timeDir m1 (1 - p)).valid then m1 else timeLost 1 m1
  else m

/-- TIME_DIRECTION_LOST. -/
def execTimeDirectionLost (p : Nat) (s : State) : Host.Outcome State Fault Refusal := onMach (timeDirectionLost p) s

/-- The one step: local domain time is set to the estimate, and the next deal is the first whole multiple of 125 us that the new
time reaches (R126, R135). Running GRID and SECOND outputs follow their moved instants (R112). -/
def timeFirstStep (m : Mach) : Mach :=
  if !m.tim.stepped && !flag m F.TIM_STATE_EVER_LOCKED && !flag m F.TIM_STATE_SOURCE && avgFull m && m.tim.avg != [] then
    let th := thetaAvg m
    let u := ((m.tim.ns * 65536 + m.tim.frac : Nat) - ofPs th : Int).toNat
    instantMoved th (setTim { m.tim with stepped := true, stepNs := -nearDiv th 1000, ns := u / 65536, frac := u % 65536,
                                         next := some ((u + 125000 * 65536 - 1) / (125000 * 65536)), avg := [], lockRun := 0 }
      (setClk { m.clk with bin4 := none } m))
  else m

/-- TIME_FIRST_STEP. -/
def execTimeFirstStep (s : State) : Host.Outcome State Fault Refusal := onMach timeFirstStep s

/-- The talkers that are open at the first lock start in the first deal that is still to commit (01 R15; 07 R199). -/
def talkersStart (m : Mach) : Mach :=
  { m with str := { m.str with
      tal := m.str.tal.map (fun p => (p.1, { p.2 with first := if p.2.first = m.deal + 1 then p.2.first else m.deal })) } }

/-- Lock is declared: LOCKED and EVER_LOCKED with EV_TIME_LOCKED; recovered domain time is present as candidate 4, and a device in
TIMING joins (R135; 04 R87; 06 Table 6.7). -/
def declareLock (kind : Nat) (step : Int) (m : Mach) : Mach :=
  let m0 := onlyIf (!flag m F.TIM_STATE_EVER_LOCKED) talkersStart m
  let m1 := raise 0x04 0x0401 [(2, srcSeat m), (2, rd m F.TIM_GEN_GEN), (1, validDirs m), (1, kind), (2, 0), (8, s2n 64 step)]
    (wr F.TIM_STATE_LOCKED 1 (wr F.TIM_STATE_EVER_LOCKED 1 (wr F.TIM_STATE_HOLD 0 (setTim { m0.tim with relock := false } m0))))
  tryJoin (onlyIf (exists4 m) (fun m => wri F.CLK_REF_STAT_ENABLED 4 1 (wri F.CLK_REF_STAT_PRESENT 4 1 m)) m1)

/-- Theta has stayed within TIM_LOCK.NS for TIM_LOCK.DEALS deals (R135). -/
def timeLock (m : Mach) : Mach :=
  if m.tim.stepped && (!flag m F.TIM_STATE_LOCKED || m.tim.relock) && !flag m F.TIM_STATE_SLEWING && !m.tim.judge &&
      !flag m F.TIM_STATE_HOLD && su m F.TIM_LOCK_DEALS ≤ m.tim.lockRun then
    declareLock (rd m F.TIM_STATE_EVER_LOCKED) (if flag m F.TIM_STATE_EVER_LOCKED then 0 else m.tim.stepNs) m
  else m

/-- TIME_LOCK. -/
def execTimeLock (s : State) : Host.Outcome State Fault Refusal := onMach timeLock s

/-- The slew rate in force, in ppb: the lower of TIM_SLEW.RATE and what keeps timebase offset and slew within 200 ppm (R136). -/
def slewRate (m : Mach) (rem : Int) : Nat :=
  min (su m F.TIM_SLEW_RATE * 100) (if 0 < rem then 200000 + m.clk.ctl else 200000 - m.clk.ctl).toNat

/-- The registers of a slew: what is still to run, OFFGRID beyond half a deal, which clears LOCKED (R137). -/
def showSlew (m : Mach) : Mach :=
  let off := decide (62500000 < m.tim.slewRem.natAbs)
  let m1 := wr F.TIM_SLEW_REM_NS (s2n 32 (m.tim.slewRem / 1000)) (wr F.TIM_STATE_OFFGRID (b2n off) m)
  onlyIf (off && flag m F.TIM_STATE_LOCKED) (unlock 3) m1

/-- The offset that engine 0 is to remove, from this deal on; the slew starts anew (R136). -/
def loadSlew (th : Int) (m : Mach) : Mach :=
  let rate := slewRate m th
  showSlew (wri F.CLK_RAMP_OFS_PPB 0 (s2n 32 (if 0 < th then -(rate : Int) else rate)) (orReg F.CLK_RAMP_STAT_ACTIVE 1
    (wr F.TIM_STATE_SLEWING 1 (setTim { m.tim with slewTotal := th, slewRem := th, slewDeals := 0, slewRate := rate, relock := false } m))))

/-- A change of source, or the end of holdover, found theta beyond TIM_STEP.NS: the step is refused and engine 0 slews it (R136). -/
def stepRefused (m : Mach) : Mach :=
  let th := thetaAvg m
  if m.tim.judge && flag m F.TIM_STATE_EVER_LOCKED && avgFull m && su m F.TIM_STEP_NS * 1000 < th.natAbs then
    loadSlew th (raise 0x04 0x0403 [(8, s2n 64 (th / 1000)), (4, slewRate m th), (2, rd m F.TIM_GEN_GEN), (2, srcSeat m)]
      (wr F.TIM_FLAGS_STEP_REFUSED 1 (setTim { m.tim with judge := false, slewAcc := 0 } m)))
  else m

/-- An average within TIM_STEP.NS is left to the servo alone; during a slew it replaces the remainder (R136). -/
def judgeSmall (m : Mach) : Mach :=
  let th := thetaAvg m
  if m.tim.judge && flag m F.TIM_STATE_EVER_LOCKED && avgFull m && th.natAbs ≤ su m F.TIM_STEP_NS * 1000 then
    onlyIf (flag m F.TIM_STATE_SLEWING) (loadSlew th) (setTim { m.tim with judge := false } m)
  else m

/-- STEP_REFUSED. -/
def execStepRefused (s : State) : Host.Outcome State Fault Refusal := onMach stepRefused s

/-- The slew remainder is zero: SLEWING clears and lock is to be declared again under R135 (R136). -/
def slewDone (m : Mach) : Mach :=
  if flag m F.TIM_STATE_SLEWING && m.tim.slewRem == 0 then
    raise 0x04 0x0404 [(8, s2n 64 (m.tim.slewTotal / 1000)), (4, m.tim.slewDeals), (4, 0)]
      (wri F.CLK_RAMP_OFS_PPB 0 0 (wr F.CLK_RAMP_STAT_ACTIVE (clrBit (rd m F.CLK_RAMP_STAT_ACTIVE) 0)
        (wr F.TIM_STATE_SLEWING 0 (setTim { m.tim with relock := true, lockRun := 0 } m))))
  else m

/-- SLEW_DONE. -/
def execSlewDone (s : State) : Host.Outcome State Fault Refusal := onMach slewDone s

/-- One deal of a slew: rate ppb of 125 us is rate / 8 ps, of which whole ps are taken and the rest is kept (R136). The alignment instants move
with domain time (04 R98, R112). -/
def slewTick (m : Mach) : Mach :=
  if flag m F.TIM_STATE_SLEWING && m.tim.slewRem != 0 then
    let rate := slewRate m m.tim.slewRem
    let by_ : Int := min m.tim.slewRem.natAbs ((rate + m.tim.slewAcc) / 8)
    let d : Int := if 0 < m.tim.slewRem then by_ else -by_
    instantMoved d (showSlew (wri F.CLK_RAMP_OFS_PPB 0 (s2n 32 (if 0 < m.tim.slewRem then -(rate : Int) else rate))
      (setTim { m.tim with slewRem := m.tim.slewRem - d, slewDeals := m.tim.slewDeals + 1, slewRate := rate,
                           slewAcc := (rate + m.tim.slewAcc) % 8 } m)))
  else m

/-- The directions disagree beyond TIM_RING.DISAGREE_NS: flagged, and reported once per onset (R132). -/
def dirDisagree (a b : Int) (m : Mach) : Mach :=
  if su m F.TIM_RING_DISAGREE_NS * 1000 < (a - b).natAbs then
    onlyIf (!m.tim.disagree)
      (raise 0x04 0x0406 [(1, 1), (1, 0), (2, 0xFFFF), (4, clamp32 a), (4, clamp32 b), (4, su m F.TIM_RING_DISAGREE_NS * 1000)])
      (wr F.TIM_FLAGS_PATH_DISAGREE 1 (setTim { m.tim with disagree := true } m))
  else setTim { m.tim with disagree := false } m

/-- One value of theta enters the average, and the lock window is judged on the average less the slew still to run (R131, R135). -/
def pushTheta (t : Int) (m : Mach) : Mach :=
  let m1 := setTim { m.tim with avg := (t :: m.tim.avg).take (su m F.TIM_RING_FILT) } m
  let a := thetaAvg m1
  let within := (a - m1.tim.slewRem).natAbs ≤ su m F.TIM_LOCK_NS * 1000
  wr F.TIM_OFFSET_PS (clamp32 a) (setTim { m1.tim with lockRun := if within then m1.tim.lockRun + 1 else 0 } m1)

/-- The estimate of the deal that has ended, from the directions that delivered in it a record of the generation and source followed (R131,
R132). -/
def thetaTick (ended : Nat) (m : Mach) : Mach :=
  let use (p : Nat) : Bool := (timeDir m p).valid && (timeDir m p).recDeal == ended &&
    (p == 2 || (timeDir m p).followed == some (rd m F.TIM_GEN_GEN, srcSeat m))
  if flag m F.TIM_STATE_SOURCE then m
  else if rd m F.TIM_CTRL_MODE = 2 then (if use 2 then pushTheta (timeDir m 2).theta m else m)
  else if use 0 && use 1 then
    pushTheta (((timeDir m 0).theta + (timeDir m 1).theta) / 2) (dirDisagree (timeDir m 0).theta (timeDir m 1).theta m)
  else if use 0 then pushTheta (timeDir m 0).theta m
  else if use 1 then pushTheta (timeDir m 1).theta m
  else m

/-! The time source (R127, R135, R139). -/

/-- The source's domain time starts: TIM_TOD_SEC with nanoseconds zero begins the next deal. -/
def sourceStart (m : Mach) : Mach :=
  setTim { m.tim with starts := some ((rd m F.TIM_TOD_SEC_HI_SEC * 2 ^ 32 + rd m F.TIM_TOD_SEC_LO_SEC) * 8000), todWait := false } m

/-- The source role begins: at once, or at the first 1 PPS edge with TOD_ARM (R127). -/
def sourceBegin (m : Mach) : Mach :=
  let m1 := wr F.TIM_STATE_SOURCE 1 (wr F.CLK_STATE_SOURCE 1 m)
  if flag m F.TIM_CTRL_TOD_ARM then setTim { m1.tim with todWait := true } m1 else sourceStart m1

/-- Domain time stops being a candidate: it is lost, takes no part, and the choice is made anew (04 R87, R94). -/
def dropCand4 (m : Mach) : Mach := wantSelect 4 0 (wri F.CLK_REF_STAT_ENABLED 4 0 (setClk { m.clk with bin4 := none } (candLost 4 5 m)))

/-- A slew stops where it stands: domain time is kept as it is (R139). -/
def stopSlew (m : Mach) : Mach :=
  wri F.CLK_RAMP_OFS_PPB 0 0 (wr F.CLK_RAMP_STAT_ACTIVE (clrBit (rd m F.CLK_RAMP_STAT_ACTIVE) 0) (wr F.TIM_SLEW_REM_NS 0
    (wr F.TIM_STATE_OFFGRID 0 (wr F.TIM_STATE_SLEWING 0
      (setTim { m.tim with slewRem := 0, slewTotal := 0, slewDeals := 0, slewRate := 0, slewAcc := 0, judge := false, avg := [] } m)))))

/-- The seat becomes the time source of its table in MODE 0: a seat that holds domain time keeps it and sends the next generation (R127, R133,
R139). -/
def becomeSource (m : Mach) : Mach :=
  if flag m F.TIM_STATE_SOURCE || rd m F.TIM_CTRL_MODE != 0 then m
  else
    let m2 := wr F.TIM_STATE_SOURCE_SEAT (ownSeat m) (wr F.TIM_GEN_GEN ((rd m F.TIM_GEN_GEN + 1) % 2 ^ 16) (stopSlew (dropCand4 m)))
    if flag m F.TIM_STATE_EVER_LOCKED then
      wr F.TIM_STATE_LOCKED 1 (wr F.TIM_STATE_HOLD 0 (wr F.TIM_STATE_SOURCE 1 (wr F.CLK_STATE_SOURCE 1 m2)))
    else sourceBegin m2

/-- The seat stops being the source and follows from the first record it receives; until one comes no direction is valid (R138, R139). -/
def endSource (m : Mach) : Mach :=
  if flag m F.TIM_STATE_SOURCE && rd m F.TIM_CTRL_MODE = 0 then
    let m1 := wr F.TIM_STATE_SOURCE 0 (wr F.CLK_STATE_SOURCE 0 (setTim { m.tim with todWait := false, starts := none, stepped := true } m))
    if (timeDir m1 0).valid || (timeDir m1 1).valid then m1 else timeLost 1 m1
  else m

/-- The first rising edge on the REFIN pin that PPS_REF names, after the source role began (R127). -/
def todPpsEdge (m : Mach) : Mach := if m.tim.todWait then sourceStart m else m

/-- TOD_PPS_EDGE. -/
def execTodPpsEdge (s : State) : Host.Outcome State Fault Refusal := onMach todPpsEdge s

/-- A change of port state raises EV_PTP_PORT_STATE (R142). -/
def ptpState (l new cls gm steps : Nat) (m : Mach) : Mach :=
  let old := rdi m F.TIM_PTP_STAT_STATE l
  onlyIf (old != new) (raise 0x04 0x0407 [(1, l), (1, old), (1, new), (1, cls), (8, gm), (2, steps), (2, 0)])
    (wri F.TIM_PTP_STAT_STATE l new m)

/-- A local port's PTP instance. -/
def ptpPort (m : Mach) (l : Nat) : Ptp := mget {} m.tim.ptp l

/-- A local port takes a state with the grandmaster it knows; a slave port that leaves its state in MODE 2 unlocks time (R138, R142). -/
def ptpGo (l new : Nat) (m : Mach) : Mach :=
  let was := rdi m F.TIM_PTP_STAT_STATE l
  let m1 := ptpState l new (rdi m F.TIM_PTP_STAT_GM_CLASS l) (ptpPort m l).gmId (rdi m F.TIM_PTP_STAT_STEPS l) m
  if was = 9 && new != 9 && rd m F.TIM_CTRL_MODE = 2 then timeLost 2 (setDir 2 { timeDir m1 2 with valid := false, run := 0 } m1) else m1

/-- The time unit restarts as after a reset (R15, R153): nothing followed, nothing locked, deals counted against the XO, the set-up read
afresh, and the local ports listening anew. The active manager of a table in MODE 0 is its source again (R127). -/
def timRestart (m : Mach) : Mach :=
  let clr := [F.TIM_STATE_LOCKED, F.TIM_STATE_EVER_LOCKED, F.TIM_STATE_HOLD, F.TIM_STATE_SLEWING, F.TIM_STATE_OFFGRID, F.TIM_STATE_PATH_A,
    F.TIM_STATE_PATH_B, F.TIM_STATE_SOURCE, F.TIM_STATE_SOURCE_SEAT, F.TIM_OFFSET_PS, F.TIM_SLEW_REM_NS, F.TIM_GEN_GEN, F.CLK_STATE_SOURCE]
  let m0 := dropCand4 m
  let m1 := wri F.CLK_RAMP_OFS_PPB 0 0 (wr F.CLK_RAMP_STAT_ACTIVE (clrBit (rd m F.CLK_RAMP_STAT_ACTIVE) 0)
    { m0 with regs := clr.foldl (fun t f => rclear f t) m0.regs
              tim := { ns := m0.tim.ns, queues := m0.tim.queues, ptp := m0.tim.ptp } })
  let m2 := forEach [0, 1] (fun l m => onlyIf (rdi m F.TIM_PTP_STAT_STATE l != 0) (ptpGo l 4) m) m1
  if rd m2 F.TIM_CTRL_MODE = 1 then sourceBegin (wr F.TIM_STATE_SOURCE_SEAT (ownSeat m2) m2)
  else if rd m2 F.TIM_CTRL_MODE = 0 && member m2 && activeMgr m2 == ownSeat m2 then becomeSource m2
  else m2

/-- A word written to TIM_CTRL: MODE is read-only once SYS_LOCK is set, keeps its value on the reserved code, and restarts the time
unit where it changes (R153; 00 R6, R8). -/
def timCtrlWrite (v : Nat) (m : Mach) : Mach :=
  let m1 := wr F.TIM_CTRL_PPS_OUT_EN (v / 4 % 2) (wr F.TIM_CTRL_TOD_ARM (v / 8 % 2) (wr F.TIM_CTRL_PPS_REF (v / 16 % 4) m))
  let mode := v % 4
  if flag m F.SYS_LOCK_LOCK || mode = 3 || mode = rd m F.TIM_CTRL_MODE then m1
  else timRestart (wr F.TIM_CTRL_MODE mode m1)

/-- TIM_MODE_WRITE. -/
def timModeWrite (v : Word) (m : Mach) : Mach := timCtrlWrite v.toNat m

/-- TIM_MODE_WRITE. -/
def execTimModeWrite (v : Word) (s : State) : Host.Outcome State Fault Refusal := onMach (timModeWrite v) s

/-- The number of the deal that a tick carries: the one a step or a source start fixed, else the next (R126). -/
def nextDeal (m : Mach) : Nat :=
  match m.tim.starts with
  | some d => d
  | none => m.tim.next.getD (m.deal + 1)

/-! Local ports (R140-R143). -/

/-- The role in force: in MODE 0 and 1 a 1588 port with ROLE 3 or 5 runs as master-only (R142). -/
def ptpRole (m : Mach) (l : Nat) : Nat :=
  let r := sui m F.TIM_PTP_CTRL_ROLE l
  if rd m F.TIM_CTRL_MODE != 2 && (r = 3 || r = 5) then 4 else r

/-- Whether a port is in the gPTP domain (R140). -/
def ptpGptp (m : Mach) (l : Nat) : Bool := ptpRole m l == 1 || ptpRole m l == 2

/-- Whether a port can be nothing but master: master-only, and a gPTP port in MODE 0 and 1, by external port configuration (R140, R142). -/
def ptpForced (m : Mach) (l : Nat) : Bool := ptpRole m l == 4 || (ptpGptp m l && rd m F.TIM_CTRL_MODE != 2)

/-- Whether a port runs over IEEE 802.3: gPTP does, and the 1588 default profile with L2 set (R140, R141). -/
def ptpL2 (m : Mach) (l : Nat) : Bool := ptpGptp m l || (sui m F.TIM_PTP_CTRL_PROFILE l == 0 && sui m F.TIM_PTP_CTRL_L2 l == 1)

/-- The domain number of a port: 0 for gPTP (R140, R141). -/
def ptpDomain (m : Mach) (l : Nat) : Nat := if ptpGptp m l then 0 else sui m F.TIM_PTP_CTRL_DOMAIN l

/-- Whether a port's instance runs: it has a role, and the AES67 profile takes domain numbers 0-127 only (R141). -/
def ptpRuns (m : Mach) (l : Nat) : Bool :=
  ptpRole m l != 0 && (ptpGptp m l || sui m F.TIM_PTP_CTRL_PROFILE l == 0 || ptpDomain m l < 128)

/-- Whether a message is one for a port's instance (R140, R141). -/
def ptpMine (m : Mach) (l : Nat) (k : PtpIn) : Bool :=
  ptpRuns m l && k.gptp == ptpGptp m l && k.l2 == ptpL2 m l && k.domain == ptpDomain m l

/-- The announced clock class (Table 5.4). What the source's CLK_STATE.MODE is, no record tells another seat: there it is a free value
(log 108). -/
def clockClass (m : Mach) : Nat :=
  let own := flag m F.TIM_STATE_SOURCE
  let mode := if own then rd m F.CLK_STATE_MODE else (freeVal m).toNat % 5
  let oos := flag m F.CLK_FLAGS_HOLDOVER_OUT_OF_SPEC
  if flag m F.TIM_STATE_HOLD && oos then 187
  else if flag m F.TIM_STATE_HOLD then 7
  else if !flag m F.TIM_STATE_LOCKED then 248
  else if mode = 2 then 6
  else if (mode = 3 || mode = 4) && !(own && oos) then 7
  else 248

/-- 2 to a signed 8-bit exponent of seconds, in deals. -/
def logDeals (v : Nat) : Nat :=
  let e := n2s 8 v
  if 0 ≤ e then 8000 * 2 ^ e.toNat else 8000 / 2 ^ (-e).toNat

/-- The deals between messages of a kind: 0 Sync, 1 Announce, 2 delay request or peer delay (Table 5.6). -/
def ptpEvery (m : Mach) (l kind : Nat) : Nat :=
  logDeals (if kind = 0 then sui m F.TIM_PTP_INTV_LOG_SYNC l else if kind = 1 then sui m F.TIM_PTP_INTV_LOG_ANNOUNCE l else sui m F.TIM_PTP_INTV_LOG_DELAY l)

/-- The best master comparison of IEEE 1588-2019: priority 1, class, priority 2, identity, the lower first (PRESUMED, log 92). -/
def ptpBetter (a b : Nat × Nat × Nat × Nat) : Bool :=
  a.1 < b.1 || (a.1 == b.1 && (a.2.1 < b.2.1 || (a.2.1 == b.2.1 && (a.2.2.1 < b.2.2.1 || (a.2.2.1 == b.2.2.1 && a.2.2.2 < b.2.2.2)))))

/-- What of a data set the comparison orders. -/
def gmOrder (g : GmSet) : Nat × Nat × Nat × Nat := (g.prio1, g.cls, g.prio2, g.gmId)

/-- The device's own data set at a port. -/
def ptpOwn (m : Mach) (l : Nat) : Nat × Nat × Nat × Nat := (sui m F.TIM_PTP_PRIO_PRIORITY1 l, clockClass m, sui m F.TIM_PTP_PRIO_PRIORITY2 l, Config.clockId)

/-- The state that an Announce leads a port to: forced ports stay master, a slave-only port follows, and a port under the BMCA follows a better
grandmaster; one port at a time is slave, the other is passive (R140-R142). -/
def ptpDecide (m : Mach) (l : Nat) (d : Nat × Nat × Nat × Nat) : Nat :=
  if ptpForced m l then 6
  else if ptpRole m l != 5 && !ptpBetter d (ptpOwn m l) then 6
  else if rdi m F.TIM_PTP_STAT_STATE (1 - l) = 9 then 7
  else 9

/-- The deals after an Announce at which announceReceiptTimeout expires. -/
def ptpTimeoutAt (m : Mach) (l : Nat) : Nat := (ptpPort m l).annTick + sui m F.TIM_PTP_INTV_ANN_TMO l * ptpEvery m l 1

/-- Whether the port follows a master, as slave or passive, that is another and a better one, and that has not timed out (PRESUMED, log 92). -/
def ptpOutranked (m : Mach) (l : Nat) (g : GmSet) : Bool :=
  let x := ptpPort m l
  let st := rdi m F.TIM_PTP_STAT_STATE l
  (st == 9 || st == 7) && x.gmId != g.gmId && decide (m.ticks < ptpTimeoutAt m l) &&
    ptpBetter (x.prio1, rdi m F.TIM_PTP_STAT_GM_CLASS l, x.prio2, x.gmId) (gmOrder g)

/-- The machine with a local port's instance replaced. -/
def setPtp (l : Nat) (x : Ptp) (m : Mach) : Mach := setTim { m.tim with ptp := mset {} l x m.tim.ptp } m

/-- A grandmaster is noted and the port's state decided. -/
def ptpTake (l : Nat) (g : GmSet) (m : Mach) : Mach :=
  let st := ptpDecide m l (gmOrder g)
  let m1 := setPtp l { ptpPort m l with gmId := g.gmId, prio1 := g.prio1, prio2 := g.prio2, annTick := m.ticks } m
  useFresh 1 (ptpGo l st (wri F.TIM_PTP_STAT_GM_CLASS l g.cls (wri F.TIM_PTP_STAT_STEPS l g.steps m1)))

/-- An Announce: one of a master that is not better than the port's own does not move it. -/
def ptpAnnounce (l : Nat) (g : GmSet) (m : Mach) : Mach := if ptpOutranked m l g then m else ptpTake l g m

/-- A Sync of a slave port: the offset from the master, in ps, is theta in MODE 2 (R142). -/
def ptpSync (l t1 t2 : Nat) (m : Mach) : Mach :=
  if rdi m F.TIM_PTP_STAT_STATE l != 9 then m
  else
    let x := ptpPort m l
    let o := toPs ((t2 : Int) - t1) - x.pathDelay
    let m1 := setPtp l { x with t1 := t1, t2 := t2, offset := o } m
    if rd m F.TIM_CTRL_MODE = 2 then takeRecord 2 0 l { timeDir m1 2 with theta := o } m1 else m1

/-- A delay measurement ends: peer delay with the neighbour's rate for gPTP, request-response for 1588 (R140, R141). The formulas are those of the
two standards (PRESUMED, log 92). -/
def ptpDelay (l t1 t2 t3 t4 : Nat) (m : Mach) : Mach :=
  let x := ptpPort m l
  if ptpGptp m l then
    let dn : Int := (t3 : Int) - x.t3
    let dl : Int := (t4 : Int) - x.t4
    let ratio : Int := if x.t4 = 0 || dl = 0 then x.rateRatio else (dn - dl) * 2 ^ 41 / dl
    let turn : Int := (t3 : Int) - t2
    setPtp l { x with t3 := t3, t4 := t4, rateRatio := ratio, pathDelay := toPs (((t4 : Int) - t1 - (turn - turn * ratio / 2 ^ 41)) / 2) } m
  else setPtp l { x with pathDelay := toPs (((x.t2 : Int) - x.t1 + ((t4 : Int) - t3)) / 2) } m

/-- A gPTP or IEEE 1588 message on a local port; one of another domain, profile or transport is not the port's (R140-R142). The stamps of its own
port are corrected for an external PHY (R144). -/
def ptpReceive (l : Nat) (k : PtpIn) (m : Mach) : Mach :=
  if 2 ≤ l || !ptpMine m l k then m
  else
    let m1 := wri F.TIM_PTP_STAT_AS_CAPABLE l (b2n (k.asCapable && k.gptp)) m
    match k.body with
    | .announce g => ptpAnnounce l g m1
    | .sync t1 t2 => ptpSync l t1 (stampIn m (2 + l) t2) m1
    | .delay t1 t2 t3 t4 =>
      if k.gptp then ptpDelay l (stampOut m (2 + l) t1) t2 t3 (stampIn m (2 + l) t4) m1
      else ptpDelay l t1 t2 (stampOut m (2 + l) t3) t4 m1

/-- PTP_MESSAGE_RECEIVE. -/
def execPtpMessageReceive (l : Nat) (k : PtpIn) (s : State) : Host.Outcome State Fault Refusal := onMach (ptpReceive l k) s

/-- Whether a port sends messages of a kind: a master Sync and Announce, a gPTP port and a slave port the delay messages. -/
def ptpSends (m : Mach) (l kind : Nat) : Bool :=
  if kind = 2 then ptpGptp m l || rdi m F.TIM_PTP_STAT_STATE l == 9 else rdi m F.TIM_PTP_STAT_STATE l == 6

/-- The grandmaster that a port announces: that of the relay's slave port, one step further, or the device itself (R140, R143). -/
def ptpGm (m : Mach) (l : Nat) : Pay :=
  let o := 1 - l
  if ptpRole m l = 2 && rdi m F.TIM_PTP_STAT_STATE o = 9 then
    [(1, rdi m F.TIM_PTP_STAT_GM_CLASS o), (1, (ptpPort m o).prio1), (1, (ptpPort m o).prio2), (8, (ptpPort m o).gmId), (2, rdi m F.TIM_PTP_STAT_STEPS o + 1)]
  else [(1, clockClass m), (1, sui m F.TIM_PTP_PRIO_PRIORITY1 l), (1, sui m F.TIM_PTP_PRIO_PRIORITY2 l), (8, Config.clockId), (2, 0)]

/-- What a message of a local port says: its domain, its transport, whether it takes two steps, the timescale, the UTC offset and leap flags, and
the grandmaster (R140, R141, R143). -/
def ptpPay (m : Mach) (l : Nat) : Pay :=
  [(1, ptpDomain m l), (1, b2n (ptpL2 m l)), (1, 1 - sui m F.TIM_PTP_CTRL_ONE_STEP l), (1, 1), (2, su m F.TIM_UTC_OFFSET),
    (1, su m F.TIM_UTC_LI61 + 2 * su m F.TIM_UTC_LI59 + 4 * su m F.TIM_UTC_VALID)] ++ ptpGm m l

/-- A periodic message of a local port leaves, its interval after the last of its kind (R140, R143, Table 5.6). -/
def ptpInterval (l kind : Nat) (m : Mach) : Mach :=
  let x := ptpPort m l
  if 2 ≤ l || 2 < kind || !ptpRuns m l || !ptpSends m l kind then m
  else if (mfind x.sent kind).any (fun t => m.ticks < t + ptpEvery m l kind) then m
  else
    useFresh 1 (ownFrame (2 + l) (tcOf m (2 + l) 0) 64 none
      (emit (.ptp (2 + l) kind (ptpPay m l)) (setPtp l { x with sent := mput kind m.ticks x.sent } m)))

/-- PTP_MESSAGE_INTERVAL. -/
def execPtpMessageInterval (l kind : Nat) (s : State) : Host.Outcome State Fault Refusal := onMach (ptpInterval l kind) s

/-- announceReceiptTimeout expires, ANN_TMO announce intervals after the last Announce of the port's master: the port turns to the best other
master that it hears; without one a slave-only port listens and any other becomes master (R138, R142). -/
def ptpTimeout (l : Nat) (new : Option GmSet) (m : Mach) : Mach :=
  if 2 ≤ l || !ptpRuns m l || ptpForced m l || m.ticks < ptpTimeoutAt m l then m
  else match new with
    | some g => ptpTake l g m
    | none => ptpGo l (if ptpRole m l = 5 then 4 else 6) m

/-- PTP_ANNOUNCE_TIMEOUT. -/
def execPtpAnnounceTimeout (l : Nat) (new : Option GmSet) (s : State) : Host.Outcome State Fault Refusal := onMach (ptpTimeout l new) s

/-- The state that a port's role in force demands at a boundary: none without a role, MASTER where the port is forced, and LISTENING (4) for a
port that is turned on, or that may no longer be master (R140, R142). -/
def ptpDemand (m : Mach) (l : Nat) : Nat :=
  let s := rdi m F.TIM_PTP_STAT_STATE l
  if !ptpRuns m l then 0 else if ptpForced m l then 6 else if s = 0 || (s = 6 && ptpRole m l = 5) then 4 else s

/-- The time unit's part of a deal boundary: the set-up takes force (R153; 04 R122; 07 R213), the tick's number and time, lock of a source at its
start, the slew, theta of the deal that ended, and the end of a PPS_OUT pulse (R10, R126, R131, R135, R147). -/
def timeTick (m : Mach) : Mach :=
  let n := nextDeal m
  let ended := m.deal
  let m1 := { m with setup := m.regs, deal := n, ticks := m.ticks + 1,
                     tim := { m.tim with ns := n * 125000, frac := 0, next := none, starts := none } }
  let moved : Int := ((ended + 1 : Nat) - (n : Int)) * 125000000
  let m2 := onlyIf m.tim.starts.isSome (fun m => declareLock 0 0 (instantMoved moved m)) m1
  let m3 := judgeSmall (thetaTick ended (slewTick m2))
  let m4 := forEach [0, 1] (fun l m => onlyIf (ptpDemand m l != rdi m F.TIM_PTP_STAT_STATE l) (ptpGo l (ptpDemand m l)) m) m3
  onlyIf (decide (m4.tim.ppsEnd ≤ n)) (fun m => setTim { m.tim with ppsOut := false } m) m4

/-- A whole second of local domain time: PPS_OUT rises for WIDTH_MS; it stays low while EVER_LOCKED is clear (R147). -/
def ppsOutSecond (m : Mach) : Mach :=
  if su m F.TIM_CTRL_PPS_OUT_EN = 1 && flag m F.TIM_STATE_EVER_LOCKED then
    setTim { m.tim with ppsOut := true, ppsEnd := m.deal + 8 * su m F.TIM_PPS_WIDTH_MS } m
  else m

/-- PPS_OUT_SECOND. -/
def execPpsOutSecond (s : State) : Host.Outcome State Fault Refusal := onMach ppsOutSecond s

/-! TIME_QUERY (R152, Table 5.5). -/

/-- The TIM_STATE byte. -/
def timStateByte (m : Mach) : Nat :=
  rd m F.TIM_STATE_LOCKED + 2 * rd m F.TIM_STATE_EVER_LOCKED + 4 * rd m F.TIM_STATE_HOLD + 8 * rd m F.TIM_STATE_SLEWING +
    16 * rd m F.TIM_STATE_OFFGRID + 32 * rd m F.TIM_STATE_PATH_A + 64 * rd m F.TIM_STATE_PATH_B + 128 * rd m F.TIM_STATE_SOURCE

/-- Theta of a direction as reported. -/
def thetaField (m : Mach) (p : Nat) : Nat := if (timeDir m p).valid then clamp32 (timeDir m p).theta else 0x80000000

/-- HOPS of a direction as reported. -/
def hopsField (m : Mach) (p : Nat) : Nat :=
  if (timeDir m p).valid && !flag m F.TIM_STATE_SOURCE && rd m F.TIM_CTRL_MODE = 0 then (timeDir m p).hops else 0

/-- The slew rate reported: that in force at this deal. -/
def slewField (m : Mach) : Nat :=
  if flag m F.TIM_STATE_SLEWING then
    let r : Int := slewRate m m.tim.slewRem
    s2n 32 (if 0 < m.tim.slewRem then -r else r)
  else 0

/-- The 64-byte result. -/
def timeResult (kind l : Nat) (m : Mach) : Pay :=
  if kind = 0 then
    [(8, m.deal), (4, timStateByte m), (2, srcSeat m), (2, rd m F.TIM_GEN_GEN), (2, hopsField m 0), (2, hopsField m 1), (4, 0),
     (4, thetaField m 0), (4, thetaField m 1), (4, rd m F.TIM_OFFSET_PS), (4, rd m F.TIM_SLEW_REM_NS), (4, slewField m),
     (2, su m F.TIM_UTC_OFFSET), (2, su m F.TIM_UTC_LI61 + 2 * su m F.TIM_UTC_LI59 + 4 * su m F.TIM_UTC_VALID),
     (4, rd m F.TIM_LINK_A_PS), (4, rd m F.TIM_LINK_B_PS), (8, 0)]
  else
    [(8, m.deal), (1, ptpRole m l), (1, rdi m F.TIM_PTP_STAT_STATE l), (1, rdi m F.TIM_PTP_STAT_AS_CAPABLE l),
     (1, rdi m F.TIM_PTP_STAT_GM_CLASS l), (2, rdi m F.TIM_PTP_STAT_STEPS l), (2, 0), (4, 0), (4, 0), (4, 0), (4, 0),
     (4, clamp32 (ptpPort m l).offset), (4, clamp32 (ptpPort m l).pathDelay), (4, clamp32 (ptpPort m l).rateRatio), (4, 0),
     (8, (ptpPort m l).gmId), (8, 0)]

/-- TIME_QUERY's effect. -/
def timeQuery : Eff := fun c _ m =>
  if 1 < u8 c 24 || 1 < u8 c 25 || bufLen c < 64 || !bufOk c true m then bad m
  else (m, { res := timeResult (u8 c 24) (u8 c 25) m })

/-- TIME_QUERY. -/
def execTimeQuery (c : Cmd) (s : State) : Host.Outcome State Fault Refusal := onMach (hostRow 0x0A03 timeQuery c) s

end Sys2Proof.Machine
end

