-- ==== Sys2Proof/Machine/Streams.lean ====
section
/-! DEFINITION. Streams, the channel map and the jitter buffers (07). -/
namespace Sys2Proof.Machine

/-- The machine with its stream engine replaced. -/
def setStr (x : Str) (m : Mach) : Mach := { m with str := x }

/-- The contexts of a role: 0 listeners, 1 talkers. -/
def ctxs (m : Mach) (role : Nat) : SMap Stream := if role = 0 then m.str.lis else m.str.tal

/-- A context. -/
def ctxOf (m : Mach) (role k : Nat) : Stream := mget {} (ctxs m role) k

/-- The machine with a context replaced. -/
def setCtx (role k : Nat) (x : Stream) (m : Mach) : Mach :=
  setStr (if role = 0 then { m.str with lis := mset {} k x m.str.lis } else { m.str with tal := mset {} k x m.str.tal }) m

/-- A counter of a context raised (R214). -/
def cbump (id n : Nat) (x : Stream) : Stream := { x with cnt := mset 0 id (mget 0 x.cnt id + n) x.cnt }

/-- Bits of a sample on the wire: INT_32BIT, INT_24BIT (L24) and INT_16BIT (L16) (R190, R192). -/
def wireBits (fmt : Nat) : Nat := if fmt = 2 then 32 else if fmt = 3 then 24 else 16

/-- The deals of a packet-time code. -/
def packDeals (code : Nat) : Nat := if code = 0 then 1 else if code = 1 then 2 else 8

/-! Opening and closing (R195-R198). -/

/-- The context that a STREAM_OPEN asks for. -/
def asked (c : Cmd) (m : Mach) : Stream :=
  let kind := u8 c 27
  let tal := u8 c 26 == 1
  { isOpen := true, kind := kind, port := u8 c 28, ch := u8 c 29, fmt := u8 c 30, p := packDeals (u8 c 31), flags := u8 c 32,
    pcp := u8 c 33, vid := u16 c 34, depth := u16 c 36, ofs := u16 c 38,
    id := if kind = 1 then 0 else u64 c 40,
    dest := if kind = 1 then u32 c 48 else Cmd_at c 48 6, udp := if kind = 1 then u16 c 52 else 0,
    pt := if kind = 1 then u8 c 54 else 0, dscp := if kind = 1 then u8 c 55 else 0,
    ssrc := if kind = 1 then u32 c 44 else 0, rtpOfs := if kind = 1 then u32 c 40 else 0,
    tsAdv := if kind = 0 then u32 c 56 else 0, interval := if kind = 2 then u16 c 60 else 0, per := if kind = 2 then u8 c 62 else 0,
    ttl := rdi m F.STR_IP_CFG_TTL (u8 c 28 - 2), ip := rdi m F.STR_IP_ADDR_ADDR (u8 c 28 - 2), first := m.deal, lastAcc := m.deal,
    last := List.replicate (u8 c 29) 0,
    seq := if kind = 1 && tal then (freeVal m).toNat % 2 ^ 16 else 0 }

/-- Whether a context is open beyond this boundary: a listener whose close has taken effect, or a talker that has reached the packet boundary of
its close, is not (R198). -/
def stays (m : Mach) (x : Stream) : Bool :=
  x.isOpen && (match x.closeAt with | none => true | some d => decide (m.deal < d))

/-- Whether another open context of the role clashes with a new one: the same port and stream ID, or for AES67 the same port, destination and UDP
port (R196). -/
def clash (m : Mach) (x y : Stream) : Bool :=
  stays m y && y.port == x.port &&
    (if x.kind = 1 then y.kind == 1 && y.dest == x.dest && y.udp == x.udp else y.kind != 1 && y.id == x.id)

/-- Bytes of a packet's samples, or of a CRF PDU's timestamps (R191). -/
def dataLen (x : Stream) (m : Mach) : Nat := if x.kind = 2 then 8 * x.per else spd m * x.p * x.ch * (wireBits x.fmt / 8)

/-- The length of a context's frames from destination address to FCS, without MACsec: addresses, EtherType and FCS with the ring tag or the VLAN tag,
and the AVTP, CRF or IPv4, UDP and RTP headers. -/
def plainLen (x : Stream) (m : Mach) : Nat :=
  18 + (if x.port = 0 then 8 else if x.flags.testBit 1 then 4 else 0) +
    (if x.kind = 2 then 20 else if x.kind = 1 then 40 else 24) + dataLen x m

/-- The length of a context's frames from destination address to FCS, MACsec included (R196, R158). -/
def frameLen (x : Stream) (m : Mach) : Nat := plainLen x m + if macsecOn m x.port then 24 else 0

/-- The largest frame of a stream port (R158): 4,096 bytes on the ring. -/
def frameMax (x : Stream) (m : Mach) : Nat := if x.port = 0 then 4096 else rdi m F.RING_PORT_CFG_MAX_FRAME x.port

/-- The fields that Table 7.2 gives every kind. -/
def openCommonOk (c : Cmd) : Bool :=
  u16 c 24 < 1024 && u8 c 26 < 2 && u8 c 27 < 3 && u8 c 32 < 4 && u8 c 33 < 8 && u16 c 34 ≤ 4094 &&
    (u8 c 28 == 0 && u8 c 27 != 1 || u8 c 28 == 2 || u8 c 28 == 3) &&
    !((u8 c 32).testBit 0 && (u8 c 28 != 0 || u8 c 27 != 0)) && !((u8 c 32).testBit 1 && u8 c 28 == 0)

/-- The launch offset and presentation fields by role. -/
def openTimeOk (c : Cmd) (m : Mach) : Bool :=
  if u8 c 26 = 1 then 1 ≤ u16 c 36 && u16 c 36 ≤ 100 && u16 c 38 == 0
  else packDeals (u8 c 31) + 1 ≤ u16 c 36 && u16 c 36 + (u16 c 38 + spd m - 1) / spd m ≤ 64

/-- The fields that Table 7.2 gives one kind. -/
def openKindOk (c : Cmd) (m : Mach) : Bool :=
  match u8 c 27 with
  | 0 =>
    1 ≤ u8 c 29 && u8 c 29 ≤ 64 && (u8 c 30 == 2 || u8 c 30 == 3 || u8 c 30 == 4) && u8 c 31 < 3 && openTimeOk c m && zeroAt c 54 2 &&
      zeroAt c 60 4 && (if u8 c 26 = 1 then u32 c 56 ≤ 10000000 else zeroAt c 56 4)
  | 1 =>
    1 ≤ u8 c 29 && u8 c 29 ≤ 64 && (u8 c 30 == 3 || u8 c 30 == 4) && u8 c 31 < 3 && openTimeOk c m && 96 ≤ u8 c 54 && u8 c 54 ≤ 127 &&
      zeroAt c 56 8 && rdi m F.STR_IP_ADDR_ADDR (u8 c 28 - 2) != 0 &&
      (if u8 c 26 = 1 then u8 c 55 < 64 && u32 c 48 / 2 ^ 28 == 0xE && u32 c 48 / 2 ^ 8 != 0xE00000 else zeroAt c 55 1)
  | _ =>
    u8 c 29 == 0 && u8 c 30 == 1 && zeroAt c 31 1 && zeroAt c 38 2 && zeroAt c 54 2 && u32 c 56 == rateHz m && 1 ≤ u16 c 60 &&
      1 ≤ u8 c 62 && u8 c 62 ≤ 8 && zeroAt c 63 1 &&
      (if u8 c 26 = 1 then 1 ≤ u16 c 36 && u16 c 36 ≤ 100 else zeroAt c 36 2)

/-- The channels of the open contexts of a role (R189). -/
def chUsed (m : Mach) (role : Nat) : Nat := ((ctxs m role).map (fun p => if stays m p.2 then p.2.ch else 0)).sum

/-- A context as STREAM_OPEN finds it: one whose STREAM_CLOSE has been applied opens anew (R196; for a talker whose last packet is not full yet
DESIGN CHOICE, log 99). -/
def unlessClosing (x : Stream) : Stream := if x.closeAt.isSome then {} else x

/-- The channel map is to be evaluated at the next boundary (R210). -/
def markMap (m : Mach) : Mach := setStr { m.str with marked := true } m

/-- Frames of the device's own on a local port, of priority 0 (PRESUMED, log 97) and so many bytes. -/
def hostFrames (l : Nat) (lens : List Nat) (m : Mach) : Mach := forEach lens (fun n m => ownFrame l (tcOf m l 0) n none m) m

/-- IGMP membership reports for the groups of the open AES67 listeners of a local port (R192). -/
def igmpReport (l : Nat) (m : Mach) : Mach :=
  let groups := dedup ((m.str.lis.filter (fun p => p.2.isOpen && p.2.kind == 1 && p.2.port == l && p.2.dest / 2 ^ 28 == 0xE)).map
    (fun p => p.2.dest))
  let v2 := su m F.STR_CTRL_IGMP_V2 == 1
  onlyIf (su m F.STR_CTRL_IGMP_EN == 1 && !groups.isEmpty)
    (fun m => hostFrames l (if v2 then groups.map (fun _ => 46) else [54 + 8 * groups.length]) { m with out := .igmp l v2 groups :: m.out }) m

/-- STREAM_OPEN (R195-R197). -/
def streamOpen : Eff := fun c _ m =>
  let role := u8 c 26
  let k := u16 c 24
  let x := asked c m
  let m0 := setCtx role k (unlessClosing (ctxOf m role k)) m
  if !(openCommonOk c && openKindOk c m) || (ctxOf m0 role k).isOpen || frameMax x m < frameLen x m ||
      (ctxs m0 role).any (fun p => clash m0 x p.2) then bad m
  else if (if m.frm.rate = 1 then 1024 else 2048) < chUsed m0 role + x.ch then (m, { st := some stNoRoom })
  else
    let m1 := useFresh (if x.kind = 1 && role = 1 then 1 else 0) (markMap (setCtx role k x m))
    okM (if role = 0 && x.kind = 1 then igmpReport x.port m1 else m1)

/-- STREAM_OPEN. -/
def execStreamOpen (c : Cmd) (s : State) : Host.Outcome State Fault Refusal := onMach (hostRow 0x0401 streamOpen c) s

/-- STREAM_CLOSE (R198): a listener's close takes effect at this boundary, a talker's at its first packet boundary from here. -/
def streamClose : Eff := fun c _ m =>
  let role := u8 c 26
  let k := u16 c 24
  let x := ctxOf m role k
  if 1024 ≤ k || 2 ≤ role || !x.isOpen then bad m
  else if x.closeAt.isSome then okM m
  else
    let at_ := if role = 0 || x.susp then m.deal else m.deal + (x.p - (m.deal - x.first) % x.p) % x.p
    okM (markMap (setCtx role k { x with closeAt := some at_ } m))

/-- STREAM_CLOSE. -/
def execStreamClose (c : Cmd) (s : State) : Host.Outcome State Fault Refusal := onMach (hostRow 0x0402 streamClose c) s

/-! The channel map (R208-R210). -/

/-- One entry of a CHMAP_WRITE buffer. -/
def mapEntry (l : List Byte) : Nat × ChEnt :=
  (leAt l 0 2, { kind := leAt l 2 1, ch := leAt l 3 1, ctx := leAt l 4 2, slot := leAt l 6 2 })

/-- Whether an entry holds no reserved value and stays within the map, the contexts and the slots. -/
def mapEntryOk (e : Nat × ChEnt) : Bool :=
  e.1 < 16384 && e.2.kind < 3 && e.2.ch < 64 && e.2.ctx < 1024 && e.2.slot < 4096

/-- An entry is written into the map; one left as it was keeps its status. -/
def mapPut (t : SMap ChEnt) (e : Nat × ChEnt) : SMap ChEnt :=
  if e.2.kind = 0 then mdel e.1 t
  else match mfind t e.1 with
    | some o => if { o with st := 0 } = e.2 then t else mput e.1 e.2 t
    | none => mput e.1 e.2 t

/-- Whether the keys that a list gives are all different. -/
def allDiff : List Nat → Bool
  | [] => true
  | a :: t => !t.contains a && allDiff t

/-- The uniqueness rules of R208, over every entry that is not empty. -/
def mapUnique (t : SMap ChEnt) : Bool :=
  allDiff ((t.filter (fun p => p.2.kind == 1)).map (fun p => p.2.slot)) &&
    allDiff ((t.filter (fun p => p.2.kind == 2)).map (fun p => p.2.ctx * 64 + p.2.ch))

/-- CHMAP_WRITE (R209). -/
def chmapWrite : Eff := fun c _ m =>
  let cnt := u16 c 24
  let es := (records 8 cnt (bufBytes c)).map mapEntry
  let t := es.foldl mapPut m.str.chmap
  if cnt = 0 || 16384 < cnt || bufLen c != 8 * cnt || !bufOk c false m || !es.all mapEntryOk || !mapUnique t then bad m
  else okM (markMap (setStr { m.str with chmap := t } m))

/-- CHMAP_WRITE. -/
def execChmapWrite (c : Cmd) (s : State) : Host.Outcome State Fault Refusal := onMach (hostRow 0x0403 chmapWrite c) s

/-- Why an entry is dormant: 1 context not open, 2 channel beyond the count, 3 slot not a network input, 0 where it is active
(R210). A context that closes at this boundary is no longer open. -/
def dormantCause (m : Mach) (e : ChEnt) : Nat :=
  let x := ctxOf m (if e.kind = 1 then 0 else 1) e.ctx
  if !stays m x then 1
  else if x.ch ≤ e.ch then 2
  else if e.kind = 1 && roleOf m e.slot != 2 then 3
  else 0

/-- The status of an entry after an evaluation. -/
def entryNext (m : Mach) (e : ChEnt) : Nat :=
  if dormantCause m e = 0 then 1
  else if e.kind = 1 && e.st = 1 && (ctxOf m 0 e.ctx).isOpen && (ctxOf m 0 e.ctx).closeAt.isSome then 3 else 2

/-- The talkers whose close has come to its packet boundary close, and their entries are evaluated (R198, R210). -/
def closeTalkers (m : Mach) : Mach :=
  if m.str.tal.any (fun p => p.2.isOpen && !stays m p.2) then
    let shut (x : Stream) : Stream := if x.isOpen && !stays m x then { x with isOpen := false, closeAt := none, buf := [], times := [] } else x
    markMap (setStr { m.str with tal := m.str.tal.map (fun p => (p.1, shut p.2)) } m)
  else m

/-- Every entry's status is evaluated where a change asked for it; EV_CHMAP_DORMANT is raised once for each cause (R210). -/
def evalMap (m : Mach) : Mach :=
  if !m.str.marked then m
  else
    let fresh (k : Nat) : List Nat :=
      (m.str.chmap.filter (fun p => dormantCause m p.2 == k && (p.2.st == 0 || p.2.st == 1))).map Prod.fst
    let t := m.str.chmap.map (fun p => (p.1, { p.2 with st := entryNext m p.2 }))
    let act := (t.filter (fun p => p.2.st == 1)).length
    forEach [1, 2, 3]
      (fun k m =>
        onlyIf (!(fresh k).isEmpty)
          (fun m => raise 0x05 0x0506 [(2, (fresh k).headD 0), (2, min 0xFFFF (fresh k).length), (1, k), (3, 0), (8, 0)]
            (wr F.STR_FLAGS_DORMANT 1 m)) m)
      (wr F.STR_CHMAP_ACTIVE act (wr F.STR_CHMAP_DORMANT (t.length - act) (setStr { m.str with chmap := t, marked := false } m)))

/-! Reception (R200-R204). -/

/-- The value nearest to a reference among those equal to v modulo 2^32, from -2^31 to 2^31 - 1 of it (R200). -/
def extend32 (v : Nat) (ref : Int) : Int := ref + n2s 32 (s2n 32 ((v : Int) - ref))

/-- Why a packet is malformed: 1 header, 2 length, 3 SSRC, 4 frame count, 0 where it is not (R204, R190). -/
def malReason (x : Stream) (p : StreamPkt) (m : Mach) : Nat :=
  let bytes := wireBits x.fmt / 8
  if x.kind = 0 then
    if p.ver != 0 || p.sub != 2 || p.fmt != x.fmt || p.nsr != (if m.frm.rate = 1 then 7 else 5) || p.chans != x.ch ||
        p.depth != wireBits x.fmt || p.sv != 1 || p.tv != 1 || p.sp != 0 then 1
    else if p.len != p.frames.length * x.ch * bytes || p.frames.any (fun f => f.length != x.ch) then 2
    else if p.frames.length != x.p * spd m then 4 else 0
  else if x.kind = 1 then
    if p.ver != 2 || p.fmt != x.pt then 1
    else if p.len != 12 + x.p * spd m * x.ch * bytes || p.frames.any (fun f => f.length != x.ch) then 2
    else if max x.ssrc x.seen != 0 && p.ssrc != max x.ssrc x.seen then 3
    else if p.frames.length != x.p * spd m then 4 else 0
  else
    if p.ver != 0 || p.sub != 4 || p.fmt != 1 || p.pull != 0 || p.base != rateHz m || p.sv != 1 || p.interval != x.interval then 1
    else if p.len != 8 * p.ts.length || p.ts.length != x.per then 2 else 0

/-- A malformed packet: counted, and reported at the onset of a run (R204). -/
def takeMalformed (k why : Nat) (m : Mach) : Mach :=
  let x := ctxOf m 0 k
  let m1 := setCtx 0 k (cbump 0x0508 1 { x with malRun := x.malRun + 1 }) m
  onlyIf (x.malRun == 0)
    (fun m => raise 0x05 0x0505 [(2, k), (1, why), (1, 0), (4, 1), (8, 0)] (wr F.STR_FLAGS_MALFORMED 1 m)) m1

/-- What the sequence number of a packet makes of it: 0 accept, 1 duplicate, 2 too old (R203). -/
def seqJudge (x : Stream) (seq : Nat) : Nat :=
  let md := if x.kind = 1 then 65536 else 256
  match x.high with
  | none => 0
  | some h =>
    let up := (seq + md - h % md) % md
    let down := (h + md - seq % md) % md
    if 0 < up && up < md / 2 then 0
    else if x.recs.contains (seq % md) then 1
    else if 128 < down then 2
    else 0

/-- The sequence window after a packet is accepted. -/
def seqTake (seq : Nat) (x : Stream) : Stream :=
  let md := if x.kind = 1 then 65536 else 256
  let s := seq % md
  match x.high with
  | none => { x with high := some s, recs := [s] }
  | some h =>
    let up := (s + md - h % md) % md
    if 0 < up && up < md / 2 then
      { x with high := some s, recs := s :: x.recs.filter (fun r => (s + md - r) % md ≤ 128) }
    else { x with recs := s :: x.recs }

/-- The domain-A index nearest a stamp of whole ns, ties to the lower index, and whether the stamp lies more than a quarter sample
from it (R200). -/
def nearIndex (rate : Nat) (stamp : Int) : Int × Bool :=
  let q := stamp * (rate : Int) / 1000000000
  let r := stamp * (rate : Int) % 1000000000
  if 2 * r > 1000000000 then (q + 1, decide (4 * (1000000000 - r) > 1000000000)) else (q, decide (4 * r > 1000000000))

/-- One frame of an accepted packet: late, surplus, or stored at its presentation index (R201). -/
def placeFrame (deal s : Nat) (bits : Nat) (p : Int) (x : Stream) (j : Nat) (f : List Int) : Stream :=
  let k := p + (j : Int)
  let d := k / (s : Int)
  if d ≤ (deal : Int) || (deal : Int) + 63 < d || (mfind x.store k.toNat).isSome then cbump 0x0504 1 x
  else { x with store := mput k.toNat (f.map (widen bits)) x.store }

/-- Every frame of a packet, from presentation index p on. -/
def placeAll (deal s bits : Nat) (p : Int) : Nat → List (List Int) → Stream → Stream
  | _, [], x => x
  | j, f :: fs, x => placeAll deal s bits p (j + 1) fs (placeFrame deal s bits p x j f)

/-- The phase error of a CRF timestamp in ps against the domain time of the sample it names, the nearest whose index is a multiple
of the interval (R193). -/
def crfPhase (rate interval : Nat) (ts : Nat) : Int :=
  let t : Int := (ts : Int) * 1000
  let step := (rate : Int)
  let k := nearDiv (t * step) (1000000000000 * (interval : Int))
  t - k * (interval : Int) * 1000000000000 / step

/-- A timestamp of a CRF stream is measured: the phase moves by the shorter way from the last one's (R193). -/
def takeStamp (rate : Nat) (x : Stream) (t : Nat) : Stream :=
  let step : Int := (x.interval : Int) * 1000000000000 / (rate : Int)
  let ph := crfPhase rate x.interval t
  let d := ph - x.phase
  { x with phase := ph, lastStamp := t, phaseRef := some (x.phaseRef.getD t),
           drift := if x.phaseRef.isSome then x.drift + (d - step * nearDiv d step) else 0 }

/-- An accepted packet's content (R193, R200, R201). -/
def takeContent (p : StreamPkt) (m : Mach) (x : Stream) : Stream :=
  let s := spd m
  if x.kind = 2 then p.ts.foldl (takeStamp (rateHz m)) x
  else
    let local_ : Int := ((m.deal * 125000 + p.ns : Nat) : Int)
    let si : Int × Bool :=
      if x.kind = 0 then nearIndex (rateHz m) (extend32 p.stamp local_)
      else (extend32 ((p.stamp + (2 ^ 32 - x.rtpOfs)) % 2 ^ 32) ((m.deal * s : Nat) : Int), false)
    let x1 := if si.2 then cbump 0x0509 1 x else x
    let x2 := { x1 with lastStamp := ((si.1 + (p.frames.length : Int) - 1) * 1000000000 / (rateHz m : Int)).toNat }
    placeAll m.deal s (wireBits x.fmt) (si.1 + ((x.depth * s + x.ofs : Nat) : Int)) 0 p.frames x2

/-- A packet that no check of R204 stops; tu is counted (Table 7.1). -/
def takePacket (k : Nat) (p : StreamPkt) (m : Mach) : Mach :=
  let n := p.frames.length
  let x0 := ctxOf m 0 k
  let x := cbump 0x0502 n { x0 with tu := x0.tu + min 1 p.tu }
  match seqJudge x p.seq with
  | 1 => setCtx 0 k (cbump 0x0503 n x) m
  | 2 => setCtx 0 k (cbump 0x0504 n x) m
  | _ =>
    let x1 := cbump 0x0507 1 { seqTake p.seq x with malRun := 0, lastAcc := m.deal + 1, seen := if x.ssrc = 0 then p.ssrc else 0 }
    let x2 := if p.port = 0 then cbump 0x050C 1 x1 else if p.port = 1 then cbump 0x050D 1 x1 else x1
    setCtx 0 k (takeContent p m x2) m

/-- Whether a packet is addressed to an open listener (R192, R197); before the first lock no listener has started (01 R15). -/
def heard (m : Mach) (p : StreamPkt) (x : Stream) : Bool :=
  flag m F.TIM_STATE_EVER_LOCKED && x.isOpen && x.closeAt.isNone && !x.susp && x.port == (if p.port < 2 then 0 else p.port) && (x.kind == 1) == p.rtp &&
    (if p.rtp then p.udp == x.udp && (p.dest == x.dest || p.dest == x.ip)
     else p.id == x.id && p.dest == x.dest)

/-- A delivered packet reaches every listener it is addressed to (R201). -/
def packetReceive (p : StreamPkt) (m : Mach) : Mach :=
  forEach ((m.str.lis.filter (fun q => heard m p q.2)).map Prod.fst)
    (fun k m => match malReason (ctxOf m 0 k) p m with
      | 0 => takePacket k p m
      | why => takeMalformed k why m) m

/-- STREAM_PACKET_RECEIVE. -/
def execStreamPacketReceive (p : StreamPkt) (s : State) : Host.Outcome State Fault Refusal := onMach (packetReceive p) s

/-! Presentation (R197, R198, R202, R206, R207). -/

/-- The consecutive complete deals stored from deal d on, at most 64: the fill of R206. -/
def fillFrom (store : SMap (List Int)) (s : Nat) : Nat → Nat → Nat
  | 0, _ => 0
  | n + 1, d => if (List.range s).all (fun k => (mfind store (d * s + k)).isSome) then fillFrom store s n (d + 1) + 1 else 0

/-- A per-channel transform of a deal's frames. -/
def perChannel (ch : Nat) (g : List Int → List Int) (frames : List (List Int)) : List (List Int) :=
  let cols := (List.range ch).map (fun c => g (frames.map (fun f => f.getD c 0)))
  (List.range frames.length).map (fun k => cols.map (fun l => l.getD k 0))

/-- The fade of R35 on every channel of a listener, from the last frame it presented. -/
def streamFade (s : Nat) (x : Stream) : List (List Int) :=
  let cols := (List.range x.ch).map (fun c => fadeOut (x.last.getD c 0) s)
  (List.range s).map (fun k => cols.map (fun l => l.getD k 0))

/-- The frames of deal n leave the storage. -/
def takeDeal (n s : Nat) (store : SMap (List Int)) : SMap (List Int) := store.filter (fun p => p.1 / s != n)

/-- A complete deal is presented, scaled as R36 where it follows a gap. -/
def presentFull (k : Nat) (x : Stream) (m : Mach) : Mach :=
  let s := spd m
  let raw := (List.range s).map (fun j => (mfind x.store (m.deal * s + j)).getD [])
  let xs := if x.gap then perChannel x.ch fadeIn raw else raw
  let m1 := onlyIf (!x.started || x.lost)
    (raise 0x05 0x0501 [(2, k), (1, 0), (1, b2n (x.resumed || x.started)), (4, 0), (8, m.deal * s)]) m
  let m2 := onlyIf (x.run != 0) (raise 0x05 0x0502 [(2, k), (1, 1), (1, 0), (4, x.run), (8, x.runIns)]) m1
  setCtx 0 k (cbump 0x0501 1 { x with store := takeDeal m.deal s x.store, started := true, lost := false, run := 0, runIns := 0,
                                      gap := false, last := xs.getLast?.getD [], shown := xs }) m2

/-- A deal with a frame missing is presented as the fade of R35 (R202); after the first presented frame it is an underrun (R207). -/
def presentGap (k : Nat) (x : Stream) (m : Mach) : Mach :=
  let s := spd m
  let xs := streamFade s x
  let here := (x.store.filter (fun p => p.1 / s == m.deal)).length
  let x1 := cbump 0x0501 1 (cbump 0x0505 s (cbump 0x0504 here { x with store := takeDeal m.deal s x.store, gap := true,
                                                                       last := xs.getLast?.getD [], shown := xs }))
  if !x.started then setCtx 0 k x1 m
  else
    let x2 := { (if x.run = 0 then cbump 0x050A 1 x1 else x1) with run := x.run + 1, runIns := x.runIns + s }
    onlyIf (x.run == 0)
      (fun m => raise 0x05 0x0502 [(2, k), (1, 0), (1, 0), (4, 0), (8, s)] (wr F.STR_FLAGS_UNDERRUN 1 m)) (setCtx 0 k x2 m)

/-- A listener at the tick of the present deal; before the first lock none has started (01 R15). -/
def presentOne (k : Nat) (m : Mach) : Mach :=
  let x := ctxOf m 0 k
  if !x.isOpen || x.kind = 2 && x.closeAt.isNone then m
  else match x.closeAt with
    | some _ =>
      setCtx 0 k { x with isOpen := false, closeAt := none, shown := if x.susp || x.kind = 2 then [] else streamFade (spd m) x } m
    | none =>
      if x.susp || !flag m F.TIM_STATE_EVER_LOCKED then m
      else
        let f := fillFrom x.store (spd m) 64 m.deal
        let x1 := { x with fill := f, minFill := some (match x.minFill with | none => f | some v => min v f) }
        if f = 0 then presentGap k x1 m else presentFull k x1 m

/-- A listener's deficit (R206). -/
def deficit (x : Stream) : Nat := x.depth - x.p - x.fill

/-- The running listener with the largest deficit, the lowest number first. -/
def worstDeficit (l : SMap Stream) : Nat × Stream :=
  (l.filter (fun p => p.2.isOpen && !p.2.susp && p.2.kind != 2)).foldl
    (fun a p => if deficit a.2 < deficit p.2 || !a.2.isOpen then p else a) (0, {})

/-- The level of WM_STICKY bit 9 (R206). -/
def watchJitter (m : Mach) : Mach :=
  let w := worstDeficit m.str.lis
  let lim := su m F.STR_JB_WARN_DEFICIT
  watch 9 (flag m F.TIM_STATE_EVER_LOCKED && lim != 0 && lim ≤ deficit w.2) 0x05 0x0504 [(2, w.1), (1, deficit w.2), (1, lim), (4, w.2.fill), (8, 0)] m

/-- Every listener presents, the watched level of WM_STICKY bit 9 is judged, and the map writes the slots (R201, R206, R208). -/
def presentAll (m : Mach) : Mach :=
  let m2 := watchJitter (forEach (m.str.lis.map Prod.fst) presentOne m)
  let m3 := forEach (m2.str.chmap.filter (fun p => p.2.kind == 1 && (p.2.st == 1 || p.2.st == 3)))
    (fun p m =>
      let x := ctxOf m 0 p.2.ctx
      onlyIf (!x.susp && !x.shown.isEmpty) (busWrite p.2.slot (x.shown.map (fun f => f.getD p.2.ch 0))) m) m2
  let m4 := setStr { m3.str with
    lis := m3.str.lis.map (fun p => (p.1, if p.2.isOpen then p.2 else { p.2 with shown := [] }))
    chmap := m3.str.chmap.map (fun p => (p.1, if p.2.st = 3 then { p.2 with st := 2 } else p.2)) } m3
  forEach (m4.dk.live.body.roles.filter (fun p => p.2 == 2 && (mfind m4.frm.cur p.1).isNone))
    (fun p m => busWrite p.1 (zeros (spd m)) m) m4

/-- A context that accepted no packet for STR_LOSS deals (R207). -/
def streamLost (k : Nat) (m : Mach) : Mach :=
  let x := ctxOf m 0 k
  if x.isOpen && !x.susp && !x.lost && su m F.STR_LOSS_DEALS + x.lastAcc ≤ m.deal then
    raise 0x05 0x0503 [(2, k), (2, 0), (4, m.deal - x.lastAcc), (8, x.lastStamp)]
      (wr F.STR_FLAGS_LOST 1 (setCtx 0 k { x with lost := true } m))
  else m

/-- STREAM_LOST. -/
def execStreamLost (ctx : Nat) (s : State) : Host.Outcome State Fault Refusal := onMach (streamLost ctx) s

/-- A CRF listener's report at the end of a second: the mean frequency offset is the fall of the phase error over the time between the timestamps, in
ppb; without a later timestamp there is nothing to report (R193). -/
def crfReport (k : Nat) (m : Mach) : Mach :=
  let x := ctxOf m 0 k
  if !x.isOpen || x.kind != 2 then m
  else match x.phaseRef with
    | none => m
    | some r =>
      if x.lastStamp ≤ r then m
      else
        let ppb := -(nearDiv (x.drift * 1000000) ((x.lastStamp - r : Nat) : Int))
        let hi := decide (su m F.STR_CRF_WARN_PPB ≤ ppb.natAbs)
        onlyIf (hi && !x.above)
          (fun m => raise 0x05 0x0507 [(2, k), (2, 0), (4, s2n 32 ppb), (8, s2n 64 x.phase)] (wr F.STR_FLAGS_CRF_OFFSET 1 m))
          (setCtx 0 k { x with ppb := ppb, above := hi, phaseRef := some x.lastStamp, drift := 0 } m)

/-- CRF_REPORT. -/
def execCrfReport (ctx : Nat) (s : State) : Host.Outcome State Fault Refusal := onMach (crfReport ctx) s

/-- An ARP request for an address on a local port (R192). -/
def arpRequest (l addr : Nat) (m : Mach) : Mach :=
  if su m F.STR_CTRL_ARP_EN == 1 && (l == 2 || l == 3) && addr != 0 && rdi m F.STR_IP_ADDR_ADDR (l - 2) == addr then
    hostFrames l [64] { m with out := .arp l addr :: m.out }
  else m

/-- ARP_REQUEST. -/
def execArpRequest (l addr : Nat) (s : State) : Host.Outcome State Fault Refusal := onMach (arpRequest l addr) s

/-- IGMP_QUERY. -/
def execIgmpQuery (l : Nat) (s : State) : Host.Outcome State Fault Refusal := onMach (igmpReport l) s

/-! Talkers (R191, R192, R199). -/

/-- The header of a talker's packet whose first frame is of deal m0 (R190-R192, R199). -/
def txHead (x : Stream) (m0 : Nat) (m : Mach) : TxHead :=
  { kind := x.kind, seq := x.seq,
    stamp := if x.kind = 1 then (m0 * spd m + x.rtpOfs) % 2 ^ 32 else (m0 * 125000 + x.tsAdv) % 2 ^ 32,
    tu := 1 - rd m F.TIM_STATE_LOCKED, id := x.id, len := dataLen x m + (if x.kind = 1 then 12 else 0), fmt := x.fmt,
    nsr := if m.frm.rate = 1 then 7 else 5, ch := x.ch, depth := wireBits x.fmt, base := rateHz m, interval := x.interval, marker := 0,
    pt := x.pt, ssrc := x.ssrc, dest := x.dest, udp := x.udp, src := x.ip, dscp := x.dscp, ttl := x.ttl,
    vlan := if x.flags.testBit 1 then some (x.pcp, x.vid) else none, dual := if x.port = 0 then some (x.flags.testBit 0) else none }

/-- A packet of a talker is queued on its ports for its launch. -/
def sendPacket (k : Nat) (x : Stream) (frames : List (List Int)) (times : List Nat) (m : Mach) : Mach :=
  let m0 := m.deal + 1 - x.p
  let ports := if x.port = 0 then [0, 1] else [x.port]
  let launch := (m.deal + 1) * 125000 + x.depth * 1000
  let md := if x.kind = 1 then 65536 else 256
  let wire := frames.map (fun f => f.map (narrow (wireBits x.fmt)))
  let h := txHead x m0 m
  let m1 := { m with out := .talker k ports launch h wire times :: m.out }
  let m2 := forEach ports (fun p m =>
    queueLaunch p 0 { at_ns := launch, tc := tcOf m p x.pcp, len := max 64 (plainLen x m), ident := k * 65536 + x.seq, dual := h.dual } m) m1
  let m3 := onlyIf (!x.started) (raise 0x05 0x0501 [(2, k), (1, 1), (1, b2n x.resumed), (4, 0), (8, m0 * spd m)]) m2
  setCtx 1 k (cbump 0x0524 1 { x with seq := (x.seq + 1) % md, started := true, buf := [], times := [] }) m3

/-- A CRF talker notes the timestamps of the deal's samples and sends a PDU for every full set (R191). -/
def crfCommit (k : Nat) (x : Stream) (m : Mach) : Mach :=
  let s := spd m
  let new := ((List.range s).filter (fun j => (m.deal * s + j) % x.interval == 0)).map
    (fun j => (m.deal * s + j) * 1000000000 / rateHz m)
  forEach new (fun t m =>
    let y := ctxOf m 1 k
    let y1 := { y with times := y.times ++ [t] }
    if y1.times.length < x.per then setCtx 1 k y1 m else sendPacket k y1 [] y1.times m) m

/-- The sample frames that an audio talker takes from the frame bus: a channel without an active entry carries zero (R208). -/
def talkFrames (k : Nat) (x : Stream) (m : Mach) : List (List Int) :=
  let es := (m.str.chmap.filter (fun p => p.2.kind == 2 && p.2.st == 1 && p.2.ctx == k)).map Prod.snd
  let cols := (List.range x.ch).map (fun c => match es.find? (fun e => e.ch == c) with
    | some e => busNow m e.slot
    | none => zeros (spd m))
  (List.range (spd m)).map (fun j => cols.map (fun l => l.getD j 0))

/-- Whether a slot that feeds a talker carried an overrun fade in this deal. -/
def talkFaded (k : Nat) (fades : List Nat) (m : Mach) : Bool :=
  m.str.chmap.any (fun p => p.2.kind == 2 && p.2.st == 1 && p.2.ctx == k && fades.contains p.2.slot)

/-- A talker at the commit of the present deal; before the first lock none has started (01 R15). A CRF context carries no frames, so its DEALS
stays 0 and the books of R199 and R205 balance for it too (DESIGN CHOICE, log 98). -/
def talkOne (fades : List Nat) (k : Nat) (m : Mach) : Mach :=
  let x := ctxOf m 1 k
  if !x.isOpen || m.deal < x.first then m
  else if x.susp then m
  else if !flag m F.TIM_STATE_EVER_LOCKED then setCtx 1 k { x with first := nextDeal m } m
  else if x.kind = 2 then crfCommit k x m
  else
    let x1 := cbump 0x0521 1 (cbump 0x0522 (spd m) (if talkFaded k fades m then cbump 0x0523 (spd m) x else x))
    let x2 := { x1 with buf := x.buf ++ talkFrames k x m }
    if (m.deal - x.first + 1) % x.p = 0 then sendPacket k x2 x2.buf [] (setCtx 1 k x2 m) else setCtx 1 k x2 m

/-- Every talker at a commit. -/
def talkerCommit (fades : List Nat) (m : Mach) : Mach := forEach (m.str.tal.map Prod.fst) (talkOne fades) m

/-! Power, resets and counters (R212, R214). -/

/-- Entry to fold: every open context is suspended and keeps no storage; what a listener held is counted as dropped (R212). -/
def streamsSleep (m : Mach) : Mach :=
  let susp (x : Stream) : Stream :=
    if x.isOpen then { cbump 0x0504 x.store.length x with susp := true, store := [], shown := [], buf := [], times := [] } else x
  let suspT (x : Stream) : Stream := if x.isOpen then { x with susp := true, buf := [], times := [] } else x
  setStr { m.str with lis := m.str.lis.map (fun p => (p.1, susp p.2)), tal := m.str.tal.map (fun p => (p.1, suspT p.2)) } m

/-- The first deal after the wake: every suspended context resumes as after an open, keeping counters and sequence numbers. -/
def streamsWake (m : Mach) : Mach :=
  let up (x : Stream) : Stream :=
    if x.isOpen && x.susp then
      { x with susp := false, resumed := true, first := m.deal, store := [], last := List.replicate x.ch 0, gap := true,
               started := false, run := 0, runIns := 0, lastAcc := m.deal, lost := false, malRun := 0, fill := 0, buf := [],
               times := [], phaseRef := none, drift := 0, seen := 0 }
    else x
  setStr { m.str with lis := m.str.lis.map (fun p => (p.1, up p.2)), tal := m.str.tal.map (fun p => (p.1, up p.2)) } m

/-- A power-on, pin or system reset closes every context and empties the map (R212). -/
def streamsReset (m : Mach) : Mach := setStr {} m

/-- Groups 1 and 2 (Table 7.5), with the context after MIN_FILL was read. -/
def streamCounters (role k : Nat) (m : Mach) : Option (List (Nat × Nat)) × Mach :=
  if 1024 ≤ k then (none, m)
  else
    let x := ctxOf m role k
    if role = 1 then (some ((List.range 4).map (fun i => (0x0521 + i, mget 0 x.cnt (0x0521 + i)))), m)
    else
      let val (id : Nat) : Nat :=
        if id = 0x0506 then x.store.length
        else if id = 0x050B then x.minFill.getD x.fill
        else mget 0 x.cnt id
      (some ((List.range 13).map (fun i => (0x0501 + i, val (0x0501 + i))) ++
        (if x.kind = 2 then [(0x0510, s2n 64 x.ppb), (0x0511, s2n 64 x.phase)] else [])),
       setCtx 0 k { x with minFill := none } m)

end Sys2Proof.Machine
end

