-- ==== Sys2Proof/Machine/Deck.lean ====
section
/-! DEFINITION. Decks (08 R225-R245): checks of an image, staging, the cut, the retiring deck, DECK_DIGEST and the counters. -/
namespace Sys2Proof.Machine

/-- The machine with its deck unit replaced. -/
def setDk (d : DeckUnit) (m : Mach) : Mach := { m with dk := d }

/-- A deck-slot counter (R243). -/
def dkBump (id : Nat) (m : Mach) : Mach := setDk { m.dk with cnt := mset 0 id (mget 0 m.dk.cnt id + 1) m.dk.cnt } m

/-! Well-formed decks (R229 case 9). -/

/-- Whether all numbers of a list are below a bound. -/
def below (n : Nat) (l : List Nat) : Bool := l.all (fun x => x < n)

/-- The blocks of a delay node's line. -/
def lineBlocks (b : DeckBody) (node : Bool) (id : Nat) : Nat :=
  ((b.lines.find? (fun l => l.node == node && l.id == id)).map (fun l => l.blocks)).getD 0

/-- What a node's type asks of the rest of its deck (R238, R313, R329, R344). -/
def nodeFits (m : Mach) (b : DeckBody) (d : NodeD) : Bool :=
  match parOf b d with
  | .delay v => lineBlocks b true d.id != 0 && v < 8192 * lineBlocks b true d.id
  | .object o => o < objCount m && lineBlocks b false o != 0
  | .set c => (lookN b.corr c).isSome && lookN b.roles (d.ins.headD 0) == some 4 &&
      (lookN b.roles (d.outs.headD 0) == some 1 || lookN b.roles (d.outs.headD 0) == some 5)
  | .icom c => c < icomServed m
  | .kernel .. => kernelNodeOk (spd m) b.kernels d (parOf b d)
  | _ => true

/-- Whether a cluster is reserved for the intercom (12 R344). -/
def reservedCl (m : Mach) (k : Nat) : Bool := (m.frm.aec == 1 && k == 15) || (m.frm.aec == 2 && 14 ≤ k)

/-- A node of a deck. -/
def nodeOk (m : Mach) (b : DeckBody) (d : NodeD) : Bool :=
  d.ix < 8192 && d.cluster < 16 && (!reservedCl m d.cluster || d.typ == 0x10) && below 4096 (d.ins ++ d.outs) &&
    (lookN b.psets d.pset).isSome && parSuits d (parOf b d) && nodeFits m b d

/-- The loudspeaker section (10 R271, R272). -/
def spkOk (b : DeckBody) (t : SpkTable) : Bool :=
  let present := t.ents.filter (fun e => e.present)
  1 ≤ t.ents.length && t.ents.length ≤ 256 && t.tris.length ≤ 2048 && 300000 ≤ t.speed && t.speed ≤ 380000 &&
    allDiff (present.map (fun e => e.slot)) &&
    present.all (fun e => lookN b.roles e.slot == some 4 && 1 ≤ e.modes && e.modes ≤ 15 && e.delayTrim < 2 ^ 19 &&
      0 ≤ e.gainTrim && e.gainTrim < 2 ^ 31 && -16384 ≤ e.el && e.el ≤ 16384 && e.az < 65536 && e.zones < 2 ^ 256) &&
    t.tris.all (fun q => q.1 != q.2.1 && q.1 != q.2.2 && q.2.1 != q.2.2 &&
      [q.1, q.2.1, q.2.2].all (fun v => match t.ents[v]? with | some e => e.present && e.modes.testBit 1 | none => false))

/-- The critical outputs (11 R320). -/
def critOk (b : DeckBody) (x : Crit) : Bool :=
  lookN b.roles x.slot == some 5 && x.copies.length == 3 && allDiff (x.copies.map (fun p => p.cluster / 4)) &&
    x.copies.all (fun p => p.out < 4096 && p.nodes.all (fun i => match b.nodes.find? (fun d => d.ix == i) with
      | some d => d.cluster == p.cluster && !([0x06, 0x0D, 0x0E, 0x0F, 0x10].contains d.typ)
      | none => false))

/-- Whether every section and node of a deck is well formed. -/
def bodyOk (m : Mach) (b : DeckBody) : Bool :=
  let cors := b.nodes.filter (fun d => d.typ == 0x0F)
  b.nodes.length ≤ 8192 && allDiff (b.nodes.map (fun d => d.ix)) && b.nodes.all (nodeOk m b) &&
    allDiff (cors.map (fun d => d.ins.headD 0)) && allDiff (corrSets b) &&
    below 4096 (b.roles.map Prod.fst) && allDiff (b.roles.map Prod.fst) && allDiff (b.psets.map Prod.fst) &&
    b.lines.all (fun l => 1 ≤ l.blocks && l.blocks ≤ (if l.node then 16 else if m.frm.rate = 1 then 8 else 4)) && allDiff (b.lines.map lineKey) &&
    b.kernels.length ≤ 256 && b.kernels.all kernelOk && b.crit.length ≤ 16 && allDiff (b.crit.map (fun c => c.slot)) && b.crit.all (critOk b) &&
    b.players.all (fun p => p.1 < 16 && p.2 < 128) && b.corr.length ≤ 256 && allDiff (b.corr.map Prod.fst) && b.corr.all (corrOk m.frm.rate) &&
    (match b.speakers with | some t => spkOk b t | none => true)

/-! Images (R225-R229). -/

/-- The largest image of its kind. -/
def imageMax (op : Nat) : Nat := if op = 0x0204 then 24800 else if op = 0x0301 then 1155248 else 3932160

/-- MAGIC of an image's kind. -/
def imageMagic (op : Nat) : Nat := if op = 0x0204 then 0x4B53514E else if op = 0x0301 then 0x4B43514E else 0x4B44514E

/-- Whether a partial deck's parameter set can replace one of the live deck. -/
def mayReplace (live : DeckBody) (p : Nat × Par) : Bool :=
  match lookN live.psets p.1 with
  | none => false
  | some old => (match old, p.2 with
    | .kernel d _, .kernel e _ => d == e
    | .kernel .., _ => false
    | _, _ => true)

/-- The body that results from an image on a live deck, none where a section has no place in it (R225, R274, R336). -/
def buildBody (op : Nat) (i : DeckImg) (live : DeckBody) : Option DeckBody :=
  if op = 0x0204 then (if i.sections = [4] && i.body.speakers.isSome then some { live with speakers := i.body.speakers } else none)
  else if op = 0x0301 then
    (if i.sections = [5] && !i.body.corr.isEmpty then
      some { live with corr := live.corr.filter (fun p => (lookN i.body.corr p.1).isNone) ++ i.body.corr } else none)
  else if i.kind = 0 then some i.body
  else if i.kind = 1 && i.sections.all (fun t => t == 2) && i.body.psets.all (mayReplace live) then
    some { live with psets := live.psets.map (fun p => (p.1, (lookN i.body.psets p.1).getD p.2)) }
  else none

/-- Whether an image is a partial one: it amends the live deck. -/
def isPartial (op : Nat) (i : DeckImg) : Bool := op != 0x0101 || i.kind == 1

/-- The header fields that a malformed header breaks. -/
def headerOk (op : Nat) (i : DeckImg) (b : DeckBody) : Bool :=
  !i.malformed && i.kind ≤ 1 && 1 ≤ i.group && 1 ≤ i.sections.length && i.sections.length ≤ 16 &&
    i.sections.all (fun t => 1 ≤ t && t ≤ 7) && allDiff i.sections && (!i.sections.contains 6 || !i.body.kernels.isEmpty) &&
    (op != 0x0101 || i.kind == 1 || (i.nodeCnt == b.nodes.length && (i.fade == 0 || (6 ≤ i.fade && i.fade ≤ 4096)) && i.base == 0))

/-- The first case of R229 that an image meets, from case 3 on; 0 where it passes. -/
def imageReason (op len : Nat) (i : DeckImg) (m : Mach) : Nat :=
  let live := m.dk.live
  if i.magic ≠ imageMagic op || i.format ≠ 1 then 3
  else if i.length ≠ len then 4
  else if !i.sigOk || !m.sec.deckKeys.contains i.signer then 0x80
  else if i.rate ≠ m.frm.rate then 5
  else if op = 0x0101 && 120000 < i.load then 6
  else if op = 0x0101 && 128 < i.bridgeCh then 7
  else if op = 0x0101 && 2048 < i.blocks then 8
  else match buildBody op i live.body with
    | none => 9
    | some b =>
      if !headerOk op i b || !bodyOk m b then 9
      else if b.roles.any (fun p => 5 < p.2) then 10
      else if isPartial op i && i.base ≠ live.digest then 11
      else if !i.hashOk then 12
      else 0

/-- Whether a command's source is this seat's host. -/
def isLocal (s : Src) : Bool := match s with | .ring _ => true | _ => false

/-- The deck that results from an image. -/
def buildDeck (op : Nat) (src : Src) (i : DeckImg) (m : Mach) : Deck :=
  let live := m.dk.live
  let part := isPartial op i
  { body := (buildBody op i live.body).getD {}, digest := i.digest, load := if op = 0x0101 then i.load else live.load, group := i.group,
    fade := if part then live.fade else i.fade, blocks := if part then live.blocks else i.blocks,
    bridgeCh := if part then live.bridgeCh else i.bridgeCh, cutDeal := 0, origin := if isLocal src then 1 else 2 }

/-- The image that a staging command's buffer gives; anything else has no MAGIC. -/
def imageIn (c : Cmd) : DeckImg :=
  match c.buf with
  | .deck i => i
  | _ => { magic := 0, rate := 0, kind := 0, digest := 0, base := 0, length := 0, group := 0, signer := 0, sections := [],
           sigOk := false, hashOk := false, body := {} }

/-! Staging (R228-R230). -/

/-- Whether stagings wait for a wake from fold (R245, R466). -/
def folded (m : Mach) : Bool := rd m F.PWR_STATE_STATE == 3 || m.pwr.move.any (fun v => v.dst == 3 || v.src == 3)

/-- EV_DECK_STAGED of a refused staging. -/
def stageEvent (digest load result reason : Nat) (src : Src) (m : Mach) : Mach :=
  raise 0x0B 0x0B11 [(8, digest), (4, load), (1, result), (1, reason), (2, if isLocal src then 1 else 2)] m

/-- A staging is refused (R229): counted, flagged, reported, and its command completed. -/
def stageRefuse (h : Held) (reason digest load signer : Nat) (m : Mach) : Mach :=
  let m1 := stageEvent digest load 1 reason h.tk.src (wr F.GRF_FLAGS_STAGE_REFUSED 1 (dkBump 0x0902 m))
  if reason = 0x80 then final h.tk stRefusedAuth (authFailBy 8 h.tk.op (fromSeat m h.cmd.src) signer m1) else final h.tk stBadArg m1

/-- A staging command starts at this deal: cases 1 and 2 are judged at once; PENDING carries the deal of the start (R229, R230). -/
def stageStart (h : Held) (m : Mach) : Mach :=
  let c := h.cmd
  let late := if h.tk.eff < m.deal then stLate else stDone
  let m0 := setDk { m.dk with staged := none, stBase := none } m
  if bufLen c = 0 then final h.tk late m0
  else if u8 c 24 = 1 && m.dk.staged.isSome then final h.tk stNoRoom m
  else if !bufOk c false m then stageRefuse h 1 0 0 0 m0
  else if imageMax h.tk.op < bufLen c then stageRefuse h 2 0 0 0 m0
  else
    let i := imageIn c
    let m1 := interim h.tk stPending m.deal m0
    let g : Staging := { h := { h with tk := { h.tk with interim := true } }, deck := buildDeck h.tk.op h.tk.src i m,
                         reason := imageReason h.tk.op (bufLen c) i m, base := if isPartial h.tk.op i then some i.base else none,
                         start := m.deal, signer := i.signer }
    setDk { m1.dk with sg := some g } m1

/-- Whether a staging can start: none runs, the free slot is free, and no fold stops it. -/
def stageFree (m : Mach) : Bool := m.dk.sg.isNone && m.dk.retiring.isNone && !folded m

/-- Held stagings start while the slot is free (R230). -/
def startHeld : Nat → Mach → Mach
  | 0, m => m
  | n + 1, m => match m.dk.held with
    | h :: t => if stageFree m then startHeld n (stageStart h (setDk { m.dk with held := t } m)) else m
    | [] => m

/-- A held staging starts (R230). -/
def stageHeldStart (m : Mach) : Mach := startHeld m.dk.held.length m

/-- STAGE_HELD_START. -/
def execStageHeldStart (s : State) : Host.Outcome State Fault Refusal := onMach stageHeldStart s

/-- DECK_STAGE, SPK_LOAD and CORR_LOAD: started, or held under R230 and R466. -/
def stageCmd : Eff := fun c tk m =>
  let h : Held := ⟨c, tk⟩
  if 1 < u8 c 24 then bad m
  else if stageFree m && m.dk.held.isEmpty then (stageStart h m, { st := none })
  else
    let m1 := if folded m then interim tk stBusyStopping m.pwr.foldAt m else m
    (setDk { m1.dk with held := m1.dk.held ++ [{ h with tk := { tk with interim := tk.interim || folded m } }] } m1, { st := none })

/-- DECK_STAGE. -/
def execDeckStage (c : Cmd) (s : State) : Host.Outcome State Fault Refusal := onMach (hostRow 0x0101 stageCmd c) s
/-- SPK_LOAD (10 R274). -/
def execSpkLoad (c : Cmd) (s : State) : Host.Outcome State Fault Refusal := onMach (hostRow 0x0204 stageCmd c) s
/-- CORR_LOAD (12 R336). -/
def execCorrLoad (c : Cmd) (s : State) : Host.Outcome State Fault Refusal := onMach (hostRow 0x0301 stageCmd c) s

/-- A missed cut (R232). -/
def cutMiss (cause : Nat) (h : Held) (m : Mach) : Mach :=
  final h.tk stBadArg
    (raise 0x0B 0x0B13 [(8, stagedDigest m), (4, u32 h.cmd 32), (1, cause), (3, 0)]
      (wr F.GRF_FLAGS_CUT_MISSED 1 (dkBump 0x0905 m)))

/-- The cuts that wait for a staging have missed (Table 8.7). -/
def waitersMiss (m : Mach) : Mach := forEach m.dk.waiting (cutMiss 4) (setDk { m.dk with waiting := [] } m)

/-- A staging is ready (R228). -/
def stageReady (m : Mach) : Mach :=
  match m.dk.sg with
  | none => m
  | some g =>
    if g.reason ≠ 0 || folded m then m
    else
      final g.h.tk (if g.h.tk.eff < g.start then stLate else stDone)
        (stageEvent g.deck.digest g.deck.load 0 0 g.h.tk.src
          (dkBump 0x0901 (setDk { m.dk with sg := none, staged := some g.deck, stBase := g.base, stReady := m.deal } m)))

/-- DECK_STAGE_READY. -/
def execDeckStageReady (s : State) : Host.Outcome State Fault Refusal := onMach stageReady s

/-- A staging fails a check (R229). -/
def stageFails (m : Mach) : Mach :=
  match m.dk.sg with
  | none => m
  | some g =>
    if g.reason = 0 || folded m then m
    else waitersMiss (stageRefuse g.h g.reason g.deck.digest g.deck.load g.signer (setDk { m.dk with sg := none } m))

/-- DECK_STAGE_REFUSED. -/
def execDeckStageRefused (s : State) : Host.Outcome State Fault Refusal := onMach stageFails s

/-! The cut (R231-R237). -/

/-- Whether a node inherits the state of one with its identifier and type: the shape must be the same (R234). -/
def sameShape (d o : NodeD) (fresh w : List Int) : Bool :=
  d.typ == 0x0F || (fresh.length == w.length && (d.typ != 0x02 || d.ins.length == o.ins.length) &&
    (d.typ != 0x03 || (d.ins.length == o.ins.length && d.outs.length == o.outs.length)))

/-- Whether a correction set was in a run of saturating deals, which a cut does not end (12 R338). -/
def satOf (old new : DeckBody) (t : SMap NodeSt) (d : NodeD) : Bool :=
  match parOf new d with
  | .set c => d.typ == 0x0F && old.nodes.any (fun o => o.typ == 0x0F && (match parOf old o with | .set b => b == c | _ => false) &&
      (mget {} t o.ix).satRun)
  | _ => false

/-- The states of a new deck's nodes (R234). -/
def inherit (s : Nat) (old new : DeckBody) (t : SMap NodeSt) : SMap NodeSt :=
  new.nodes.foldl (fun r d =>
    let f := freshState s d (parOf new d) new.kernels
    let w := match old.nodes.find? (fun o => o.id == d.id && o.typ == d.typ) with
      | some o => let w := (mget {} t o.ix).w; if sameShape d o f w then w else f
      | none => f
    mset {} d.ix { w := w, satRun := satOf old new t d } r) []

/-- The bridge channels at a cut: those allocated before keep state and counters; a new A-C channel delivers at once, having no
clock to wait for, a new A-B channel once its clock is found in range (R29, R30, R48). -/
def bridgeCut (m : Mach) : Mach :=
  let l := bridgesOf m.dk.live.body
  showBridges (setFrm { m.frm with
    brStat := l.foldl (fun t p => mset 0 p.1 (if p.2 then 1 else mget 0 m.frm.brStat p.1) t) []
    brCnt := m.frm.brCnt.filter (fun q => l.any (fun p => p.1 == q.1 / 4)) } m)

/-- The staged deck becomes live (R231, R234-R237). -/
def doCut (h : Held) (m : Mach) : Mach :=
  match m.dk.staged with
  | none => m
  | some st =>
    let old := m.dk.live
    let new := { st with cutDeal := m.deal }
    let chg := changedCons old.body new.body (talkSlots m)
    let asked := u16 h.cmd 36
    let n := if asked ≠ 0 then asked else if new.fade ≠ 0 then new.fade else rd m F.GRF_XFADE_SAMPLES
    let fadeN := if chg.isEmpty then 0 else n
    let late := h.tk.eff < m.deal
    let m1 := setDk { m.dk with live := new, staged := none, stBase := none, retiring := some old, slotB := !m.dk.slotB, fadeN := fadeN, fadeLeft := fadeN,
                                changed := chg.length, retFrom := m.deal } m
    let m2 := setFrm { m1.frm with nodes := inherit (spd m) old.body new.body m.frm.nodes, rnodes := m.frm.nodes, rcur := [], rprev := m.frm.prev,
                                   chg := chg, xStart := m.deal, mute := [] } m1
    let m3 := markMap (bridgeCut (icomCut (corrCut old.body new.body (voterCut (poolCut old.body new.body m2)))))
    let m4 := onlyIf late (fun m => wr F.GRF_FLAGS_CUT_LATE 1 (dkBump 0x0904 m)) (dkBump 0x0903 m3)
    final h.tk (if late then stLate else stDone)
      (raise 0x0B 0x0B12 [(8, new.digest), (4, new.group), (2, fadeN), (1, b2n late), (1, min 255 (m.deal - h.tk.eff))] m4)

/-- A cut at its deal: it is made, waits for its staging, or is missed (R231, R232). -/
def tryCut (h : Held) (m : Mach) : Mach :=
  let expect := u64 h.cmd 24
  let group := u32 h.cmd 32
  let bad (digest g : Nat) : Bool := (expect != 0 && expect != digest) || (group != 0 && group != g)
  match m.dk.staged, m.dk.sg with
  | some d, _ =>
    if bad d.digest d.group then cutMiss 2 h m
    else if m.dk.stBase.isSome && m.dk.stBase ≠ some m.dk.live.digest then
      cutMiss 3 h (setDk { m.dk with staged := none, stBase := none } m)
    else doCut h m
  | none, some g => if bad g.deck.digest g.deck.group then cutMiss 2 h m else setDk { m.dk with waiting := m.dk.waiting ++ [h] } m
  | none, none => cutMiss 1 h m

/-- Step 3 of a boundary without a render reset: cuts whose staging is ready, then the cuts due now. -/
def doCuts (m : Mach) : Mach :=
  let ready := m.dk.staged.isSome && m.dk.stReady < m.deal
  let w := if ready then m.dk.waiting else []
  let cs := m.dk.cuts
  forEach (w ++ cs) tryCut (setDk { m.dk with waiting := if ready then [] else m.dk.waiting, cuts := [] } m)

/-- DECK_CUT: its arguments were judged when it was taken; step 3 carries it out (R231, R233). -/
def deckCut : Eff := fun c tk m => (setDk { m.dk with cuts := m.dk.cuts ++ [⟨c, tk⟩] } m, { st := none })

/-- The deck unit at a commit: the fade runs on, and the retired deck's slot is freed after its last sample (R237). -/
def deckCommit (m : Mach) : Mach :=
  match m.dk.retiring with
  | none => m
  | some old =>
    let left := m.dk.fadeLeft - spd m
    if left ≠ 0 then setDk { m.dk with fadeLeft := left } m
    else
      let m1 := poolRetired old.body (setFrm { m.frm with rnodes := [], rcur := [], rprev := [], chg := [] }
        (setDk { m.dk with fadeLeft := 0, retiring := none } m))
      raise 0x0B 0x0B14 [(8, old.digest), (2, m.dk.changed), (2, 0), (4, if m.dk.fadeN = 0 then 0 else m.deal - m.dk.retFrom + 1)] m1

/-! DECK_DIGEST and counters. -/

/-- The result of Table 8.8. -/
def digestResult (m : Mach) : Pay :=
  let d := m.dk
  [(8, m.deal), (8, d.live.digest), (8, d.live.cutDeal), (8, stagedDigest m), (4, if d.staged.isSome then 2 else if d.sg.isSome then 1 else 0),
   (4, (d.staged.map (fun x => x.group)).getD 0), (8, (d.retiring.map (fun x => x.digest)).getD 0), (4, d.live.load), (2, d.fadeLeft),
   (2, (d.staged.map (fun x => x.origin)).getD 0), (8, 0)]

/-- DECK_DIGEST (R240). -/
def deckDigest : Eff := fun c _ m =>
  if bufLen c < 64 || !bufOk c true m then bad m else (m, { res := digestResult m })

/-- DECK_DIGEST. -/
def execDeckDigest (c : Cmd) (s : State) : Host.Outcome State Fault Refusal := onMach (hostRow 0x0103 deckDigest c) s

/-- Group 9, index 0 (R243). -/
def deckCounters (m : Mach) : List (Nat × Nat) :=
  (List.range 5).map (fun k => (0x0901 + k, mget 0 m.dk.cnt (0x0901 + k))) ++
    [(0x0906, 1), (0x0907, b2n m.dk.staged.isSome), (0x0908, b2n m.dk.retiring.isSome)]

/-- Group 9, meter n (R241): its counters, and the machine with PEAK cleared. -/
def meterCounters (n : Nat) (m : Mach) : Option (List (Nat × Nat)) × Mach :=
  match ((inOrder m.dk.live.body).filter (fun d => d.typ == 0x0A))[n]? with
  | none => (none, m)
  | some d =>
    let st := mget {} m.frm.nodes d.ix
    let mean := ((st.w.drop 2).sum / (64 * (spd m : Int))).toNat
    (some [(0x0911, (st.w.getD 0 0).toNat), (0x0912, mean), (0x0913, (st.w.getD 1 0).toNat)],
      setFrm { m.frm with nodes := mput d.ix { st with w := 0 :: st.w.drop 1 } m.frm.nodes } m)

/-! Resets (R245). -/

/-- The deck unit at a render reset: the empty deck is live, nothing is staged or retiring; a command held under R230 stays. -/
def deckRenderReset (m : Mach) : Mach :=
  let m1 := match m.dk.sg with
    | some g => final g.h.tk stBadArg (stageEvent g.deck.digest g.deck.load 1 0x81 g.h.tk.src (setDk { m.dk with sg := none } m))
    | none => m
  let m2 := forEach m1.dk.cuts (cutMiss 5) (waitersMiss m1)
  markMap (setDk { m2.dk with live := { cutDeal := m.deal }, staged := none, stBase := none, retiring := none, sg := none, cuts := [], fadeN := 0,
                              fadeLeft := 0, changed := 0, slotB := false, renderDue := false, cnt := [] } m2)

/-- The deck unit at a host-function reset: what the local host staged is discarded; tunnelled work stays (R84, R245). -/
def deckHostReset (m : Mach) : Mach :=
  let mine (h : Held) : Bool := !isLocal h.cmd.src
  let gone := m.dk.sg.any (fun g => isLocal g.h.tk.src)
  let loc := m.dk.staged.any (fun d => d.origin == 1)
  let m1 := setDk { m.dk with held := m.dk.held.filter mine, cuts := m.dk.cuts.filter mine, waiting := m.dk.waiting.filter mine,
                              sg := if gone then none else m.dk.sg, staged := if loc then none else m.dk.staged,
                              stBase := if loc then none else m.dk.stBase } m
  if gone then waitersMiss m1 else m1

end Sys2Proof.Machine
end

