-- ==== Sys2Proof/Machine/Power.lean ====
section
/-! DEFINITION. The power manager (17 R457-R466, R476, R477): tolerances, the target state, entries and wakes. -/
namespace Sys2Proof.Machine

/-- The machine with its power manager replaced. -/
def setPwr (x : Pwr) (m : Mach) : Mach := { m with pwr := x }

/-- Entry bound of a state in deals (R457). -/
def entryBound (d : Nat) : Nat := [0, 1, 8, 80].getD d 80
/-- Wake bound of a state in deals (R457). -/
def wakeBound (d : Nat) : Nat := [0, 2, 16, 240].getD d 240
/-- Wake bound of a state in microseconds (R457). -/
def wakeUs (d : Nat) : Nat := [0, 250, 2000, 30000].getD d 30000

/-- The deepest state in which each service runs: render, intercom, announcements, streaming (R459). -/
def runsTo : List Nat := [0, 1, 0, 2]

/-- The tolerances as the host set them, in the order of Table 17.3. -/
def tolerances (m : Mach) : List Nat := [rd m F.PWR_TOL_RENDER_US, rd m F.PWR_TOL_ICOM_US, rd m F.PWR_TOL_ANN_US, rd m F.PWR_TOL_STREAM_US]

/-- The cases of R460: bit 0 a measurement, bit 1 a play, bit 2 a latch. -/
def forcedBits (m : Mach) : Nat := b2n m.cor.meas.isSome + 2 * b2n (playing m != []) + 4 * b2n (zoneLatched m)

/-- Whether a state is permitted under tolerances (R459). -/
def permitted (tol : List Nat) (d : Nat) : Bool := (List.range 4).all (fun i => d ≤ runsTo.getD i 0 || wakeUs d ≤ tol.getD i 0)

/-- The deepest permitted state up to a depth (R459). -/
def deepest (tol : List Nat) (max_ : Nat) : Nat := ([3, 2, 1].find? (fun d => d ≤ max_ && permitted tol d)).getD 0

/-- The tolerances with those of render and announcements zero where R460 forces it. -/
def forcedTol (forced : Nat) (tol : List Nat) : List Nat := if forced = 0 then tol else [0, tol.getD 1 0, 0, tol.getD 3 0]

/-- The target under given tolerances (R459, R460). -/
def targetOf (m : Mach) (tol : List Nat) : Nat := deepest (forcedTol (forcedBits m) tol) (rd m F.PWR_CTRL_MAX_DEPTH)

/-- The cause that EV_POWER_STATE gives a change (Table 17.9): the first case of R460 where it alone moves the target, MAX_DEPTH
where that does, else the tolerances. -/
def moveCause (m : Mach) : Nat :=
  let tol := tolerances m
  let t := targetOf m tol
  let f := forcedBits m
  if t < deepest tol (rd m F.PWR_CTRL_MAX_DEPTH) then (if f.testBit 0 then 1 else if f.testBit 1 then 2 else 3)
  else if t < deepest (forcedTol f tol) 3 then 4 else 0

/-- A change of state begins at this boundary. -/
def beginMove (entry : Bool) (dst : Nat) (m : Mach) : Mach :=
  let v : PwrMove := { entry := entry, dst := dst, src := rd m F.PWR_STATE_STATE, at_ := m.deal, cause := moveCause m }
  wr F.PWR_STATE_MOVING 1 (setPwr { m.pwr with move := some v, foldAt := if entry && dst = 3 then m.deal else m.pwr.foldAt } m)

/-- The target shown inside a deal: a target that is not deeper ends a dwell; changes of state wait for the boundary (R457, R461). -/
def showTarget (m : Mach) : Mach :=
  let t := targetOf m (tolerances m)
  wr F.PWR_STATE_TARGET t (wr F.PWR_STATE_FORCED (forcedBits m)
    (setPwr { m.pwr with deeper := if rd m F.PWR_STATE_STATE < t then m.pwr.deeper else none } m))

/-- The target is computed anew: a sleeping state that is not the target is left by a wake to ACTIVE, and a deeper target starts its
dwell (R461). -/
def judgePower (m : Mach) : Mach :=
  let st := rd m F.PWR_STATE_STATE
  let t := targetOf m (tolerances m)
  let m1 := wr F.PWR_STATE_TARGET t (wr F.PWR_STATE_FORCED (forcedBits m)
    (setPwr { m.pwr with deeper := if st < t then some (m.pwr.deeper.getD m.deal) else none } m))
  if m1.pwr.move.isNone && st != 0 && t != st then beginMove false 0 m1 else m1

/-- The power manager at a boundary, after the commands: the seconds spent asleep, and the target. -/
def powerTick (m : Mach) : Mach :=
  let st := rd m F.PWR_STATE_STATE
  let n := mget 0 m.pwr.secs st + 1
  let m1 := if st = 0 then m
    else wr (if st = 1 then F.PWR_SEC_DOZE_SEC else if st = 2 then F.PWR_SEC_PARK_SEC else F.PWR_SEC_FOLD_SEC) (n / 8000)
      (setPwr { m.pwr with secs := mput st n m.pwr.secs } m)
  judgePower m1

/-- POWER_TOLERANCE (R463, R465). -/
def powerTolerance : Eff := fun c tk m =>
  let mask := u8 c 24
  let pick (i off : Nat) (old : Nat) : Nat := if mask.testBit i then u32 c off else old
  let tol := tolerances m
  let new := [pick 0 28 (tol.getD 0 0), pick 1 32 (tol.getD 1 0), pick 2 36 (tol.getD 2 0), pick 3 40 (tol.getD 3 0)]
  if mask = 0 || 16 ≤ mask then bad m
  else match m.pwr.move with
    | some v =>
      if v.entry && targetOf m new < v.dst then holdStopping c tk v.at_ m
      else okM (judgePower (wr F.PWR_TOL_RENDER_US (new.getD 0 0) (wr F.PWR_TOL_ICOM_US (new.getD 1 0)
        (wr F.PWR_TOL_ANN_US (new.getD 2 0) (wr F.PWR_TOL_STREAM_US (new.getD 3 0) m)))))
    | none => okM (judgePower (wr F.PWR_TOL_RENDER_US (new.getD 0 0) (wr F.PWR_TOL_ICOM_US (new.getD 1 0)
        (wr F.PWR_TOL_ANN_US (new.getD 2 0) (wr F.PWR_TOL_STREAM_US (new.getD 3 0) m)))))

/-- POWER_TOLERANCE. -/
def execPowerTolerance (c : Cmd) (s : State) : Host.Outcome State Fault Refusal := onMach (hostRow 0x0901 powerTolerance c) s

/-- After DWELL deals of a deeper target the entry to it starts (R461). -/
def powerEntryStart (m : Mach) : Mach :=
  let t := targetOf m (tolerances m)
  match m.pwr.deeper with
  | none => m
  | some d =>
    if m.pwr.move.isNone && rd m F.PWR_STATE_STATE = 0 && t != 0 && d + rd m F.PWR_CTRL_DWELL ≤ m.deal then beginMove true t m else m

/-- POWER_ENTRY_START. -/
def execPowerEntryStart (s : State) : Host.Outcome State Fault Refusal := onMach powerEntryStart s

/-- EV_POWER_STATE and the new state. -/
def endMove (v : PwrMove) (late : Bool) (m : Mach) : Mach :=
  raise 0x16 0x1601 [(1, v.dst), (1, v.src), (1, v.cause), (1, b2n late), (4, (m.deal - v.at_) * 125), (8, v.at_)]
    (wr F.PWR_STATE_STATE v.dst (wr F.PWR_STATE_MOVING 0 (wr F.PWR_FLAGS_STATE_CHANGED 1
      (setPwr { m.pwr with move := none, deeper := if v.dst < targetOf m (tolerances m) then m.pwr.deeper else none } m))))

/-- What an entry to a state stops (Table 17.2). -/
def sleepUnits (d : Nat) (m : Mach) : Mach :=
  let m1 := corrSleep (renderSleep (d == 3) m)
  let m2 := if 2 ≤ d then setFrm { m1.frm with nodes := m1.frm.nodes.map (fun p => (p.1, { p.2 with w := [] })), rnodes := [], cur := [], prev := [], rcur := [], rprev := [] } (icomStop m1) else m1
  if d = 3 then portsSleep (streamsSleep m2) else m2

/-- The entry is complete (R457). -/
def powerEntryDone (m : Mach) : Mach :=
  match m.pwr.move with
  | some v => if v.entry then endMove v false (sleepUnits v.dst m) else m
  | none => m

/-- POWER_ENTRY_DONE. -/
def execPowerEntryDone (s : State) : Host.Outcome State Fault Refusal := onMach powerEntryDone s

/-- The node states with which the clusters start after PARK or fold: every node's state as after a cut that inherits nothing. -/
def freshNodes (m : Mach) : SMap NodeSt :=
  let b := m.dk.live.body
  b.nodes.foldl (fun t d => mset {} d.ix { w := freshState (spd m) d (parOf b d) b.kernels, silent := (mget {} m.frm.nodes d.ix).silent } t) []

/-- What a wake from a state restores (R462). -/
def wakeUnits (d : Nat) (m : Mach) : Mach :=
  let m1 := if 2 ≤ d then setFrm { m.frm with nodes := freshNodes m } m else m
  let m2 := corrWake (renderWake m1)
  if d = 3 then portsWake (streamsWake m2) else m2

/-- The wake is complete at this boundary (R462). -/
def wakeDone (m : Mach) : Mach :=
  match m.pwr.move with
  | some v =>
    if v.entry then m
    else
      let late := decide (v.at_ + wakeBound v.src < m.deal)
      onlyIf late (wr F.PWR_FLAGS_WAKE_LATE 1) (endMove v late (bump F.PWR_WAKE_CNT_COUNT 1 (wakeUnits v.src m)))
  | none => m

/-- WAKE_DONE. -/
def execWakeDone (s : State) : Host.Outcome State Fault Refusal := onMach wakeDone s

end Sys2Proof.Machine
end

