-- ==== Sys2Proof/Machine/Frame.lean ====
section
/-! DEFINITION. The frame program of a deal and its commit (02 R24, R25, R29-R40, R47, 08 R216, R219, R235, R236). -/
namespace Sys2Proof.Machine

/-! Keys of the samples that a consumer's path delivered last: a slot by its number, the input of a line by its node, a bridge
channel by its number. -/

/-- The key of the line input of a node. -/
def lineInKey (ix : Nat) : Nat := 4096 + ix
/-- The key of a bridge channel. -/
def bridgeKey (ch : Nat) : Nat := 16384 + ch

/-- What the frame program works with: the nodes and tasks of the live deck that do not finish, those of the retiring deck, and the nodes
of each that start but fail in the deal. -/
structure Pass where
  bad : List Nat
  rbad : List Nat
  fail : List Nat := []
  rfail : List Nat := []
deriving DecidableEq, Repr

/-- Everything that has not finished, with the nodes that failed in this deal. -/
def badNow (p : Pass) (m : Mach) : List Nat := p.bad ++ p.fail ++ m.frm.hurt

/-- Everything of the retiring deck that has not finished. -/
def rbadNow (p : Pass) (m : Mach) : List Nat := p.rbad ++ p.rfail ++ m.frm.rhurt

/-- The nodes that cannot start in the deal because they read, from this deal's image, a slot of a node that does not finish (R34, R37);
n bounds the number of steps. -/
def unstarted (b : DeckBody) : Nat → List Nat → List Nat
  | 0, l => l
  | n + 1, l =>
    let stuck (d : NodeD) : Bool := b.nodes.any (fun w => l.contains w.ix && w.ix < d.ix && w.outs.any (fun x => d.ins.contains x))
    let more := dedup (l ++ (b.nodes.filter stuck).map (fun d => d.ix))
    if more.length = l.length then l else unstarted b n more

/-- Whether a consumer's path has unfinished work, in the live deck or, while it is cross-faded, in the retiring one (R34, R35). -/
def consHit (p : Pass) (m : Mach) (c : Nat) : Bool :=
  (badNow p m != [] && isHit m.dk.live.body (badNow p m) c) ||
    (rbadNow p m != [] && m.frm.chg.contains c && m.dk.retiring.any (fun o => isHit o.body (rbadNow p m) c))

/-- The samples that a consumer receives: the fade of R35 while its path is unfinished, else the cross-fade of R235 and, in the deal
after a fade, the scaling of R36. -/
def deliver (p : Pass) (key slot : Nat) (hit : Bool) (xs : List Int) (m : Mach) : Mach × List Int :=
  let ys := if hit then fadeOut (mget 0 m.frm.last key) (spd m)
    else
      let z := crossfade (rbadNow p m) slot xs m
      if m.frm.faded.contains key then fadeIn z else z
  (setFrm { m.frm with last := mset 0 key (ys.getLast?.getD 0) m.frm.last,
                       hit := if hit then insertNat key m.frm.hit else m.frm.hit } m, ys)

/-- n samples that the manual leaves open. -/
def freeSamples (n : Nat) (m : Mach) : Mach × List Int :=
  (useFresh n m, (List.range n).map (fun k => n2s 32 (Config.freeWord (m.fresh + k)).toNat))

/-- The domain-A samples of an A-B bridge channel (R29, R30): what the conversion gives is not fixed to the bit. -/
def bridgeOut (ch : Nat) (m : Mach) : Mach × List Int :=
  let st := mget 0 m.frm.brStat ch
  let (m1, ys) :=
    if st = 1 then freeSamples (spd m) m
    else if st = 2 then (m, fadeOut (mget 0 m.frm.last (bridgeKey ch)) (spd m))
    else if st = 3 then ((freeSamples (spd m) m).1, fadeIn (freeSamples (spd m) m).2)
    else (m, zeros (spd m))
  (setFrm { m1.frm with last := mset 0 (bridgeKey ch) (ys.getLast?.getD 0) m1.frm.last } m1, ys)

/-- The committed state words of a node. -/
def nodeW (m : Mach) (ix : Nat) : List Int := (mget {} m.frm.nodes ix).w

/-- A node's new state words (R37). -/
def setNodeW (ix : Nat) (w : List Int) (m : Mach) : Mach :=
  setFrm { m.frm with nodes := mset {} ix { mget {} m.frm.nodes ix with w := w } m.frm.nodes } m

/-- A node's outputs on the bus. -/
def writeOuts (outs : List Nat) (ys : List (List Int)) (m : Mach) : Mach := forEach (outs.zip ys) (fun q m => busWrite q.1 q.2 m) m

/-- The saturating write-backs of a node: which lane a library node's channel runs in is the device's own. -/
def nodeSats (cluster n : Nat) (m : Mach) : Mach :=
  if n = 0 then m else laneSat cluster ((freeVal m).toNat % 8) n (useFresh 1 m)

/-- A user kernel over the deal (09 R262, R264); one that has not halted within the deal is unfinished. -/
def kernelNode (d : NodeD) (k : KernelD) (words : List Nat) (xs : List (List Int)) (m : Mach) : Mach :=
  match runKernel (spd m) m.deal m.fresh k d words (nodeW m d.ix) xs with
  | .done c =>
    kernelLanes d.cluster d.ix c (useFresh kFresh (setNodeW d.ix (kState (spd m) k d c) (writeOuts d.outs (kOuts (spd m) k d c) m)))
  | .fault cause instr addr c => kernelFault d.ix cause instr addr (kernelLanes d.cluster d.ix c (useFresh kFresh m))
  | .late c =>
    let m1 := kernelLanes d.cluster d.ix c (useFresh kFresh m)
    setFrm { m1.frm with hurt := insertNat d.ix m.frm.hurt, late := insertNat d.ix m.frm.late } m1

/-- A node of the live deck. An unfinished node writes nothing but the faded samples of the line that it feeds (R38). -/
def runNode (p : Pass) (d : NodeD) (m : Mach) : Mach :=
  let b := m.dk.live.body
  let bad := p.bad.contains d.ix || m.frm.hurt.contains d.ix
  let line (m : Mach) : Mach × List Int := deliver p (lineInKey d.ix) (d.ins.headD 0) (consHit p m (d.ins.headD 0)) (busRead m (d.ins.headD 0)) m
  let one (r : Mach × List Int) : Mach := writeOuts d.outs [r.2] r.1
  if (mget {} m.frm.nodes d.ix).silent then m
  else match parOf b d with
    | .delay n =>
      let r := line m
      if bad then lineWrite (65536 + d.id) r.2 r.1 else one (delayNode d.id n r.2 r.1)
    | .object o =>
      let r := line m
      lineWrite o r.2 r.1
    | par =>
      if bad then m
      else match par with
        | .bridge ch _ _ => if d.outs.isEmpty then m else one (bridgeOut ch m)
        | .set c => one (corrNode d c m)
        | .icom c => one (icomSend c m)
        | .ann z => one (m, zoneAudio m z)
        | .kernel i words => (match b.kernels[i]? with
          | some k => kernelNode d k words (d.ins.map (busRead m)) m
          | none => m)
        | par =>
          let r := runLib (spd m) d par (nodeW m d.ix) (d.ins.map (busRead m))
          nodeSats d.cluster r.sats (setNodeW d.ix r.w (writeOuts d.outs r.outs m))

/-- The frame program of the live deck. -/
def livePass (p : Pass) (m : Mach) : Mach := forEach (inOrder m.dk.live.body) (runNode p) m

/-! The retiring deck during a cross-fade (08 R236). -/

/-- A slot as a node of the retiring deck reads it: from the nodes that run on from that deck, from the live deck's node that a
shared one has become, or from what feeds the slot in both. -/
def retireRead (run : List NodeD) (old : DeckBody) (ix slot : Nat) (m : Mach) : List Int :=
  let s := spd m
  match old.nodes.find? (fun d => d.outs.contains slot) with
  | some w =>
    if run.any (fun d => d.ix == w.ix) then (mfind m.frm.rcur slot).getD (image m.frm.rprev s slot)
    else
      let at_ := match m.dk.live.body.nodes.find? (fun d => d.id == w.id && d.typ == w.typ) with
        | some d => (firstIdx (fun o => o == slot) w.outs 0).bind (fun i => d.outs[i]?)
        | none => none
      (match at_ with
       | some o => if w.ix < ix then busRead m o else image m.frm.prev s o
       | none => zeros s)
  | none => if m.dk.live.body.nodes.any (fun d => d.outs.contains slot) then zeros s else busRead m slot

/-- A node of the retiring deck on its own copy of its state. -/
def runOld (run : List NodeD) (old : DeckBody) (p : Pass) (d : NodeD) (m : Mach) : Mach :=
  let st := mget {} m.frm.rnodes d.ix
  let put (w : List Int) (ys : List (List Int)) (m : Mach) : Mach :=
    setFrm { m.frm with rnodes := mset {} d.ix { st with w := w } m.frm.rnodes,
                        rcur := (d.outs.zip ys).foldl (fun t q => mput q.1 q.2 t) m.frm.rcur } m
  if st.silent || p.rbad.contains d.ix then m
  else
    let xs := d.ins.map (fun c => retireRead run old d.ix c m)
    match parOf old d with
    | .delay n =>
      let r := delayNode d.id n (xs.headD (zeros (spd m))) m
      put [] [r.2] r.1
    | .ann z => put [] [zoneAudio m z] m
    | .kernel i words => (match old.kernels[i]? with
      | some k => (match runKernel (spd m) m.deal m.fresh k d words st.w xs with
        | .done c => kernelLanes d.cluster d.ix c (useFresh kFresh (put (kState (spd m) k d c) (kOuts (spd m) k d c) m))
        | .fault cause instr addr c =>
          let m1 := faultRecord d cause instr addr (kernelLanes d.cluster d.ix c (useFresh kFresh m))
          setFrm { m1.frm with rnodes := mput d.ix { st with silent := true } m1.frm.rnodes, rhurt := insertNat d.ix m1.frm.rhurt } m1
        | .late c =>
          let m1 := kernelLanes d.cluster d.ix c (useFresh kFresh m)
          setFrm { m1.frm with rhurt := insertNat d.ix m1.frm.rhurt, late := insertNat d.ix m1.frm.late } m1)
      | none => m)
    | par =>
      let r := runLib (spd m) d par st.w xs
      nodeSats d.cluster r.sats (put r.w r.outs m)

/-- The retiring deck's nodes that run in the deal. -/
def retirePass (p : Pass) (m : Mach) : Mach :=
  match m.dk.retiring with
  | none => m
  | some o =>
    let run := retireRun o.body m.dk.live.body m.frm.chg
    forEach run (runOld run o.body p) (setFrm { m.frm with rcur := [] } m)

/-- The nodes of both decks. A node of the retiring deck may read what a shared line gives, and the line may take what the retiring
deck delivers: the two programs are evaluated in turn from the same committed state, once more than there are delay nodes. -/
def bothPasses (p : Pass) (m : Mach) : Nat → SMap (List Int) → Mach
  | 0, r => retirePass p (livePass p (setFrm { m.frm with rcur := r } m))
  | n + 1, r => bothPasses p m n (retirePass p (livePass p (setFrm { m.frm with rcur := r } m))).frm.rcur

/-- The frame program. -/
def runFrame (p : Pass) (m : Mach) : Mach :=
  if m.dk.retiring.isNone || m.frm.chg.isEmpty then livePass p m
  else bothPasses p m ((m.dk.live.body.nodes.filter (fun d => d.typ == 0x06)).length + 1) []

/-! The consumers on the bus (R34-R36, 08 R235). -/

/-- The egress and talker slots of the live deck that no voter drives. -/
def slotCons (m : Mach) : List Nat :=
  (sortNat (roleSlots m.dk.live.body 5 ++ talkSlots m)).filter (fun c => !(m.dk.live.body.crit.any (fun x => x.slot == c)))

/-- A slot as its consumer receives it. -/
def consumeSlot (p : Pass) (c : Nat) (m : Mach) : Mach :=
  let r := deliver p c c (consHit p m c) (busNow m c) m
  busWrite c r.2 r.1

/-! The load (R31-R33, R39). -/

/-- The level of WM_STICKY bit 0: the mean load. -/
def watchLoad (m : Mach) : Mach :=
  let mean := rd m F.GRF_LOAD_MEAN_CYCLES
  let lim := rd m F.GRF_LOAD_WARN_THRESH
  watch 0 (decide (lim ≤ mean)) 0x0B 0x0B02 [(4, mean), (4, lim), (4, rd m F.GRF_LOAD_MAX_CYCLES), (4, 0)] m

/-- The load of a deal enters its registers; the mean keeps 13 fractional bits. -/
def recordLoad (load : Nat) (m : Mach) : Mach :=
  let mean := ((m.frm.mean : Int) + ((load * 8192 : Nat) - (m.frm.mean : Int)) / 8192).toNat
  watchLoad (wr F.GRF_LOAD_LAST_CYCLES load (wr F.GRF_LOAD_MEAN_CYCLES (mean / 8192)
    (wr F.GRF_LOAD_MAX_CYCLES (max load (rd m F.GRF_LOAD_MAX_CYCLES)) (setFrm { m.frm with mean := mean } m))))

/-- The nodes that bind slots to an engine. -/
def engineNodes (m : Mach) (typ : Nat) : List Nat := (m.dk.live.body.nodes.filter (fun d => d.typ == typ)).map (fun d => d.ix)

/-- The unfinished nodes with what runs them: those listed, and for an engine task the nodes that hand it their slots (Table 2.4). -/
def unfinished (w : Work) (m : Mach) : List (Nat × Nat) :=
  let cl (i : Nat) : Nat := ((nodeAt m i).map (fun d => d.cluster)).getD 0
  let eng (on : Bool) (typ code : Nat) : List (Nat × Nat) :=
    if on then (if engineNodes m typ = [] then [(0, code)] else (engineNodes m typ).map (fun i => (i, code))) else []
  w.nodes.map (fun i => (i, cl i)) ++ eng w.traj 0x0E 0xF1 ++ eng w.tap 0x0E 0xF0 ++ eng w.cor 0x0F 0xF2

/-- An overrunning deal is counted, and reported in the first deal of a run and every REPEAT_DEALS deals (R39). -/
def reportOverrun (w : Work) (p : Pass) (m : Mach) : Mach :=
  let run := m.frm.run + 1
  let rep := rd m F.GRF_OVERRUN_CTRL_REPEAT_DEALS
  let us := unfinished w m
  let first := us.foldl (fun a q => if q.1 < a.1 then q else a) (us.headD (0, 0))
  let b := m.dk.live.body
  let paths := ((consumers b (talkSlots m)).map (fun c => if consHit p m c then badPaths b (badNow p m) c else 0)).sum
  let done := (b.nodes.filter (fun d => !(us.any (fun q => q.1 == d.ix)))).length
  onlyIf (run == 1 || (rep != 0 && (run - 1) % rep == 0))
    (raise 0x0B 0x0B01 [(2, first.1), (1, first.2), (1, 0), (2, min 0xFFFF paths), (2, 0), (4, run), (4, done)])
    (bump F.GRF_OVERRUN_CNT_COUNT 1 (setFrm { m.frm with run := run } m))

/-! The commit (R25). -/

/-- A bridge channel's books (R47, R48): DEALS and DELIVERED, and the frames that the conversion discarded and filled on the B side in the
deal, which every deal adds to the counts; how many they are is the conversion's own (free values, assumption log 11). -/
def bridgeBooks (m : Mach) : Mach :=
  forEach (bridgesOf m.dk.live.body) (fun q m =>
    let add (k n : Nat) (t : SMap Nat) : SMap Nat := mset 0 k (mget 0 t k + n) t
    let free (k : Nat) : Nat := (Config.freeWord (m.fresh + k)).toNat
    useFresh 2 (setFrm { m.frm with
      brCnt := add (4 * q.1 + 3) (spd m) (add (4 * q.1 + 2) (free 1) (add (4 * q.1 + 1) (free 0) (add (4 * q.1) 1 m.frm.brCnt))) } m)) m

/-- The cycles that requesters 0 to 5 lost to arbitration on banks 52 to 55 in the deal (09 R266): how many follows from the placement of
data, which is the device's own (free values, assumption log 11). -/
def bankRetries (m : Mach) : Mach :=
  useFresh 24 (setFrm { m.frm with
    retry := (List.range 24).foldl (fun t k => mset 0 k (mget 0 t k + (Config.freeWord (m.fresh + k)).toNat) t) m.frm.retry } m)

/-- The clusters that ran a node. -/
def showBusy (p : Pass) (m : Mach) : Mach :=
  wr F.DIAG_CL_BUSY_CLUSTER ((m.dk.live.body.nodes.foldl (fun a d =>
    if (badNow p m).contains d.ix || (mget {} m.frm.nodes d.ix).silent then a else setBit a (d.cluster % 16)) 0)) m

/-- The images turn over, a channel that faded out or in is lost or delivering, and the nodes that fall silent do so. -/
def turnOver (cur : SMap (List Int)) (m : Mach) : Mach :=
  showBridges (setFrm { m.frm with
    nodes := m.frm.mute.foldl (fun t i => mput i { mget {} t i with silent := true } t) m.frm.nodes, mute := [], late := [], rhurt := [],
    prev := cur, cur := [], rprev := m.frm.rcur, rcur := [], hurt := [], zero := [], faded := m.frm.hit, hit := [], committed := true,
    brStat := m.frm.brStat.foldl (fun t q => mset 0 q.1 (if q.2 = 2 then 0 else if q.2 = 3 then 1 else q.2) t) [] } m)

/-- Whether the frame program runs: PARK and fold stop it (17 Table 17.2). -/
def parked (m : Mach) : Bool := 2 ≤ rd m F.PWR_STATE_STATE

/-- The nodes and the tap engine. -/
def frameWork (w : Work) (p : Pass) (m : Mach) : Mach := tapEngine (!w.tap && !w.traj) (runFrame p (annRun m))

/-- The consumers of the deal and the voter. -/
def frameCons (p : Pass) (m : Mach) : Mach :=
  let m1 := showBusy p (forEach (slotCons m) (consumeSlot p) m)
  vote (fun i => !(badNow p m1).contains i && !(mget {} m1.frm.nodes i).silent) (rbadNow p m1) m1

/-- A deal in which the frame program does not run: no cluster works, and no consumer carries anything over. -/
def frameIdle (m : Mach) : Mach :=
  let m1 := annRun m
  wr F.DIAG_CL_BUSY_CLUSTER 0 (setFrm { m1.frm with last := [], hit := [] } m1)

/-- The first deal in which a transmit direction carries audio gives SYS_BOOT_MS.AUDIO (17 R472). -/
def firstAudio (m : Mach) : Mach :=
  if !m.sys.audio && m.sap.dirs.any (fun q => isTx q.1 && q.2.domA && !q.2.susp && q.2.begin_ ≤ m.deal * spd m) then
    onlyIf (rd m F.SYS_BOOT_STAGE == 5) (wr F.SYS_BOOT_STAGE 6)
      (wr F.SYS_BOOT_MS_AUDIO (min 65535 (m.ticks / 8)) { m with sys := { m.sys with audio := true } })
  else m

/-- The pass that a commit's operand describes. -/
def passOf (w : Work) (m : Mach) : Pass :=
  { bad := w.nodes ++ (if w.tap then [tapTask] else []) ++ (if w.traj then [trajTask] else []) ++
      (if w.cor then engineNodes m 0x0F else []), rbad := w.retiring }

/-- The frame program as it is found when it is tried: its hurt, rhurt and late are the nodes that fail in the deal. -/
def trial (w : Work) (m : Mach) : Frm := (frameWork w (passOf w m) m).frm

/-- The pass and the operand with what follows from the nodes that fail in the deal: the nodes after them do not start (R34, R37; 09 R262,
R264). -/
def withFails (w : Work) (m : Mach) : Work × Pass :=
  let p := passOf w m
  let fail := (trial w m).hurt
  let rfail := (trial w m).rhurt
  if fail = [] && rfail = [] then (w, p)
  else
    let all := unstarted m.dk.live.body m.dk.live.body.nodes.length (dedup (fail ++ w.nodes))
    let rall := match m.dk.retiring with
      | some o => unstarted o.body o.body.nodes.length (dedup (rfail ++ w.retiring))
      | none => w.retiring
    ({ w with nodes := all, retiring := rall },
      { bad := dedup (p.bad ++ all.filter (fun i => !fail.contains i)), rbad := rall.filter (fun i => !rfail.contains i), fail := fail, rfail := rfail })

/-- The deal is committed: late says that the tick came first (R25, R34, R37, R38). A deal in which a node failed counts as an overrun, as
its node is unfinished (09 R262, R264; 01 Table 1.4). -/
def commitDeal (late : Bool) (w0 : Work) (m : Mach) : Mach :=
  let run := !parked m
  let (w, p) := if run then withFails w0 m else (w0, passOf w0 m)
  let overran := run && (late || p.fail != [] || p.rfail != [])
  let m0 := if run then frameWork w p m else frameIdle m
  let m1 := if run then frameCons p m0 else m0
  let m2 := recordLoad (if overran then 150000 else min 150000 w.load) m1
  let m3 := if overran then reportOverrun w p m2 else setFrm { m2.frm with run := 0 } m2
  let fades := m3.frm.hit.filter (fun k => k < 4096) ++ m3.vote.faded
  let m4 := firstAudio (onlyIf run bankRetries (bridgeBooks (portCommit fades (talkerCommit fades m3))))
  let m5 := annCommit (deckCommit (measCommit (poolCommit (pairsCommit m4))))
  turnOver m0.frm.cur { m5 with pwr := { m5.pwr with rrAt := none } }

/-- Whether the frame program can have finished: nothing is listed as unfinished, and every user kernel halts within the deal (R25; 09
R262). -/
def canCommit (w : Work) (m : Mach) : Bool :=
  w.nodes == [] && w.retiring == [] && !w.traj && !w.tap && !w.cor && (parked m || (trial w m).late == [])

/-- DEAL_COMMIT: the last node of the frame program has finished. -/
def dealCommit (w : Work) (m : Mach) : Mach := if m.frm.committed || !canCommit w m then m else commitDeal false w m

/-- DEAL_COMMIT. -/
def execDealCommit (w : Work) (s : State) : Host.Outcome State Fault Refusal := onMach (dealCommit w) s

/-! Rate bridges (R29, R30): Ports holds the loss and the lock of a domain's channels, which the rows of a channel call. -/

/-- BRIDGE_LOST: the clock of the channel's B domain stops or leaves its rate, and every bridge channel of that domain is lost. -/
def execBridgeLost (ch rate : Nat) (s : State) : Host.Outcome State Fault Refusal := onMach (bridgeLost ch rate) s

/-- BRIDGE_LOCKED: the clock of the channel's B domain has been in range for 64 deals. -/
def execBridgeLocked (ch rate : Nat) (s : State) : Host.Outcome State Fault Refusal := onMach (bridgeLocked ch rate) s

end Sys2Proof.Machine
end

