-- ==== Sys2Proof/Machine/HostReset.lean ====
section
/-! DEFINITION. The host-function reset (03 R84, R504, R507; 17 R464; 18 R481): its start, by FLR, HIF_CTRL.HOST_RESET or
PCIE_PERST_N, and its completion. -/
namespace Sys2Proof.Machine

/-- Whether a held command is the local host's own: one that a stamper sent is the table's (R84). -/
def ownHost (h : Held) : Bool := isLocal h.cmd.src

/-- The local host commands that the device holds and has not applied (R84). -/
def heldOwn (m : Mach) : Nat :=
  ((m.hif.held ++ m.hif.stopped ++ m.dk.held ++ m.dk.cuts ++ m.dk.waiting).filter ownHost).length

/-- The tolerances at zero, and the target they give (17 R464). -/
def clearTolerances (m : Mach) : Mach :=
  showTarget (wr F.PWR_TOL_RENDER_US 0 (wr F.PWR_TOL_ICOM_US 0 (wr F.PWR_TOL_ANN_US 0 (wr F.PWR_TOL_STREAM_US 0 m))))

/-- Steps 1 to 3 of a host-function reset (R84): polling stops, local commands and what the local host staged are discarded. -/
def hostReset (m : Mach) : Mach :=
  let h := { m.hif with
    held := m.hif.held.filter (fun x => !ownHost x), stopped := m.hif.stopped.filter (fun x => !ownHost x)
    sent := m.hif.sent.filter (fun x => !isLocal x.tk.src), resetReq := some (m.hif.resetReq.getD m.deal)
    resetEv := some (m.hif.resetEv.getD 0 + heldOwn m) }
  clearTolerances (mirrorStop (deckHostReset
    (wr F.HIF_STATUS_RUNNING 0 (wr F.HIF_STATUS_RESET_BUSY 1 { m with hif := h }))))

/-- The HIF registers but HIF_EV_DISCARD at their reset values. -/
def clearHifRegs (t : SMap Nat) : SMap Nat := t.filter (fun p => p.1 / 32 < 0x1000 || 0x2000 ≤ p.1 / 32 || p.1 / 32 = 0x1034)

/-- Steps 4 of a host-function reset, within two deals of its request (R84, R507): the HIF registers and the rings' books start anew;
tunnelled commands, assemblies, the capture FIFOs and MSI-X stay. -/
def hostResetComplete (m : Mach) : Mach :=
  if m.hif.resetReq.isNone then m
  else
    { m with
      regs := clearHifRegs m.regs
      hif := { epoch := m.hif.epoch + 1, held := m.hif.held, stopped := m.hif.stopped, sent := m.hif.sent, tunNext := m.hif.tunNext,
               toSend := m.hif.toSend, replies := m.hif.replies,
               assemblies := m.hif.assemblies, seen := m.hif.seen, resetEv := m.hif.resetEv, bootEv := m.hif.bootEv,
               fifos := m.hif.fifos, linger := m.hif.linger, msix := m.hif.msix, pba := m.hif.pba, msixEn := m.hif.msixEn,
               msixMask := m.hif.msixMask, aer := m.hif.aer, bar0 := m.hif.bar0 } }

/-- HOST_RESET_COMPLETE. -/
def execHostResetComplete (s : State) : Host.Outcome State Fault Refusal := onMach hostResetComplete s

/-- A function-level reset is a host-function reset that returns the MSI-X structures and BAR0 of the function as well (03 R49); the error
statuses of AER stay (PRESUMED, the PCI Express family; log 36). -/
def functionReset (m : Mach) : Mach :=
  let m1 := hostReset m
  { m1 with hif := { m1.hif with msix := [], pba := 0, msixEn := false, msixMask := false, bar0 := 0 } }

/-- FLR. -/
def execFlr (s : State) : Host.Outcome State Fault Refusal := onMach functionReset s

/-- PCIE_PERST_N is asserted: the link is held in reset, and the device acts as on a host-function reset (18 R481). -/
def perstAssert (m : Mach) : Mach :=
  let m1 := functionReset m
  { m1 with sys := { m1.sys with perst := true } }

/-- PCIE_PERST. -/
def execPciePerst (s : State) : Host.Outcome State Fault Refusal := onMach perstAssert s

/-- PCIE_PERST_N is released: link training starts (18 R481). -/
def perstRelease (m : Mach) : Mach := { m with sys := { m.sys with perst := false } }

/-- PCIE_PERST_RELEASE. -/
def execPciePerstRelease (s : State) : Host.Outcome State Fault Refusal := onMach perstRelease s

end Sys2Proof.Machine
end

