-- ==== Sys2Proof/Machine/Sec.lean ====
section
/-! DEFINITION. Kolica (16): the key store, KEY_ROTATE, FW_STAGE and its commitment, the attestation report, and the debug unlock. -/
namespace Sys2Proof.Machine

/-- SEC_KEYS. -/
def showKeys (m : Mach) : Mach :=
  wr F.SEC_KEYS_OPERATOR m.sec.keys.length (wr F.SEC_KEYS_DECK m.sec.deckKeys.length
    (wr F.SEC_KEYS_PREV_RING (b2n m.sec.prevKey.isSome) (wr F.SEC_KEYS_LCL0 (b2n (m.sec.caks.any (fun q => q.1 == 2)))
      (wr F.SEC_KEYS_LCL1 (b2n (m.sec.caks.any (fun q => q.1 == 3))) m))))

/-- SEC_LDEV. -/
def showLdev (m : Mach) : Mach :=
  wr F.SEC_LDEV_LO_ID (m.sec.ldev % 2 ^ 32) (wr F.SEC_LDEV_HI_ID (m.sec.ldev / 2 ^ 32) m)

/-- The measurement digest is computed anew, at boot and at a debug unlock (R444). -/
def measureImage (m : Mach) : Mach :=
  setSec { m.sec with meas := m.sec.hashes ++
    [rd m F.SEC_SVN_RUNNING, rd m F.SEC_SVN_FUSED, rd m F.SEC_STATE_LIFECYCLE, rd m F.SEC_STATE_DEBUG] } m

/-! Keys (R433, R435, R443-R450). -/

/-- The operator keys of a set of key records, by the identifiers of their keys (R432; the KEY_ID that a record states beside its key is not used,
DESIGN CHOICE, log 100); a key that was held keeps its last accepted COUNTER. -/
def opSet (l : List KeyRec) (old : SMap OpKey) : SMap OpKey :=
  l.foldl (fun t k => mput (keyIdOf k.key) { roles := k.roles, counter := ((mfind old (keyIdOf k.key)).map OpKey.counter).getD 0 } t) []

/-- A ring key becomes the current one; the old one is kept as the previous key for KEY_GRACE_S seconds (R449). -/
def installRing (num : Nat) (m : Mach) : Mach :=
  let old := rd m F.SEC_RING_KEY_NUMBER
  showKeys (wr F.SEC_RING_KEY_NUMBER num
    (setSec { m.sec with prevKey := if old = 0 then none else some (old, m.deal + rd m F.SEC_CTRL_KEY_GRACE_S * 8000) } m))

/-- Whether a key package is one that this device accepts (R445, R446, Table 16.1). -/
def pkgOk (p : KeyPkg) (m : Mach) : Bool :=
  p.magic == 0x4B50514E && p.format == 1 && !p.malformed && p.certKey == pairKey m.sec.pend && p.wrapOk && 1 ≤ p.operators.length &&
    p.operators.length ≤ 4 && p.decks.length ≤ 8

/-- A key package is installed: the LDevID, which is the pending key, the operator and deck keys and the ring key, all together (R435, R446). -/
def installPkg (p : KeyPkg) (c : Cmd) (m : Mach) : Mach :=
  let ldev := keyIdOf p.certKey
  let m1 := setSec { m.sec with ldev := ldev, keys := opSet p.operators m.sec.keys, deckKeys := p.decks.map keyIdOf } m
  let m2 := recordCounter c (installRing p.ringKey (showLdev (wr F.SEC_STATE_LIFECYCLE 2 m1)))
  keyEvent 1 0 p.ringKey ldev (keyEvent 3 0 p.decks.length (envKey c) (keyEvent 2 0 p.operators.length (envKey c) (keyEvent 5 0 0 ldev m2)))

/-- The LDevID, the ring key and the local CAKs are erased, and a new key pair is pending (R435). -/
def eraseKeys (m : Mach) : Mach :=
  if m.sec.ldev = 0 then m
  else
    keyEvent 6 0 0 m.sec.ldev (showKeys (showLdev (wr F.SEC_RING_KEY_NUMBER 0 (wr F.SEC_STATE_LIFECYCLE 1
      (setSec { m.sec with ldev := 0, pend := m.sec.pend + 1, prevKey := none, caks := [], lastRing := none } m)))))

/-- The bytes of a KEY_ROTATE buffer before its envelope, and whether this seat's wrap decrypts. -/
def rotBytes (c : Cmd) : List Byte := match c.buf with | .rotate l _ => l | _ => []
/-- Whether this seat's wrap decrypts. -/
def rotWrap (c : Cmd) : Bool := match c.buf with | .rotate _ w => w | _ => false

/-- The entries of a KEY_ROTATE buffer (R448). -/
def rotEntries (c : Cmd) : List (List Byte) :=
  let l := rotBytes c
  records (if leAt l 0 1 = 1 || leAt l 0 1 = 4 then 176 else 112) (leAt l 1 1) (l.drop 32)

/-- Whether a wrap entry's reserved bytes are zero and its seat one. -/
def wrapEntryOk (e : List Byte) : Bool := leAt e 0 2 ≤ 1023 && leAt e 2 2 == 0 && leAt e 113 15 == 0

/-- Whether a key record is one of a class (Table 16.5). -/
def recordOk (cls : Nat) (e : List Byte) : Bool :=
  leAt e 8 1 == cls && (if cls = 0 then leAt e 9 1 < 32 else leAt e 9 1 == 0) && leAt e 10 6 == 0

/-- The refusals of R448. -/
def rotateOk (c : Cmd) (m : Mach) : Bool :=
  let l := rotBytes c
  let kind := leAt l 0 1
  let es := rotEntries c
  bufOk c false m && bufLen c == 32 + leAt l 1 1 * (if kind = 1 || kind = 4 then 176 else 112) + 272 &&
    leAt l 3 1 == 0 && leAt l 24 8 == 0 &&
    (match kind with
     | 1 => rd m F.SEC_RING_KEY_NUMBER < leAt l 4 4 && es.all wrapEntryOk
     | 2 => es.all (recordOk 0) && 1 ≤ es.length && es.length ≤ 4 && es.any (fun e => (leAt e 9 1).testBit 2)
     | 3 => es.all (recordOk 1) && es.length ≤ 8
     | 4 => (leAt l 2 1 == 2 || leAt l 2 1 == 3) && forSelf m c && es.all wrapEntryOk
     | _ => false)

/-- The entry of this seat. -/
def ownEntry (c : Cmd) (m : Mach) : Bool := (rotEntries c).any (fun e => leAt e 0 2 == ownSeat m) && rotWrap c

/-- A kind-1 rotation is applied: this seat's entry is unwrapped and each ring port adds the second CA and sends an MKPDU (R449); a
seat without an entry of its own keeps its key. -/
def rotateRing (c : Cmd) (m : Mach) : Mach :=
  let num := leAt (rotBytes c) 4 4
  if ownEntry c m && !flag m F.SEC_STATE_DEBUG then
    keyEvent 1 0 num m.sec.ldev (forEach [0, 1] (fun p m => onlyIf (linkUp m p) (sendMkpdu p) m) (installRing num m))
  else raise 0x14 0x1408 [(4, num), (12, 0)] m

/-- KEY_ROTATE (R448, R449). -/
def keyRotate : Eff := fun c _ m =>
  let l := rotBytes c
  let es := rotEntries c
  if !rotateOk c m then bad m
  else match leAt l 0 1 with
    | 1 => okM (rotateRing c (setSec { m.sec with lastRing := some c } m))
    | 2 =>
      let ks := opSet (es.map (fun e => { key := (e.drop 16).take 96, roles := leAt e 9 1 })) m.sec.keys
      okM (keyEvent 2 0 es.length (envKey c) (showKeys (setSec { m.sec with keys := ks } m)))
    | 3 => okM (keyEvent 3 0 es.length (envKey c) (showKeys (setSec { m.sec with deckKeys := es.map (fun e => keyIdOf ((e.drop 16).take 96)) } m)))
    | _ =>
      if ownEntry c m then
        okM (keyEvent 4 0 1 m.sec.ldev (showKeys (setSec { m.sec with caks := mput (leAt l 2 1) (beAt l 8 16) m.sec.caks } m)))
      else okM (raise 0x14 0x1408 [(4, 0), (12, 0)] m)

/-- KEY_ROTATE. -/
def execKeyRotate (c : Cmd) (s : State) : Host.Outcome State Fault Refusal := onMach (hostRow 0x0D01 keyRotate c) s

/-- KEY_GRACE_S after a rotation the previous ring key is erased (R449). -/
def keyGraceExpiry (m : Mach) : Mach :=
  match m.sec.prevKey with
  | none => m
  | some (num, d) =>
    if d ≤ m.deal then keyEvent 1 1 num m.sec.ldev (showKeys (setSec { m.sec with prevKey := none } m)) else m

/-- KEY_GRACE_EXPIRY. -/
def execKeyGraceExpiry (s : State) : Host.Outcome State Fault Refusal := onMach keyGraceExpiry s

/-! Boot images (R437-R439). -/

/-- Whether an image is laid out as Table 16.2 states. -/
def imageWell (i : BootImg) : Bool :=
  i.magic == 0x4B46514E && i.format == 1 && 1 ≤ i.svn && i.svn ≤ 64 && 1 ≤ i.sections && i.sections ≤ 16 &&
    i.length ≤ 16777216 && !i.malformed

/-- Whether an image passes the checks of R437. -/
def imageRuns (i : BootImg) (m : Mach) : Bool := imageWell i && i.endorseOk && i.sigOk && rd m F.SEC_SVN_FUSED ≤ i.svn

/-- The slot that is not running. -/
def otherSlot (m : Mach) : Nat := 1 - rd m F.SEC_STATE_SLOT

/-- FW_STAGE (R439). -/
def fwStage : Eff := fun c tk m =>
  match c.buf with
  | .boot i =>
    if m.sec.fw.isSome then noRoom m
    else if 16777488 < bufLen c || !bufOk c false m || !imageWell i || i.length + 272 != bufLen c || i.svn < rd m F.SEC_SVN_FUSED then bad m
    else if !i.endorseOk || !i.sigOk then
      (authFailBy 8 tk.op (fromSeat m c.src) (envKey c) m, { st := some stRefusedAuth })
    else
      let m1 := interim tk stPending (writeBound (bufLen c) m.deal) m
      let g : FwStage := { h := { cmd := c, tk := { tk with interim := true } }, img := i, start := m.deal }
      (wr F.SEC_SVN_STAGED 0 (setSec { m1.sec with fw := some g, slots := mdel (otherSlot m) m1.sec.slots } m1), { st := none })
  | _ => if m.sec.fw.isSome then noRoom m else bad m

/-- FW_STAGE. -/
def execFwStage (c : Cmd) (s : State) : Host.Outcome State Fault Refusal := onMach (hostRow 0x0D02 fwStage c) s

/-- The staged image has been read back and verified (R439). -/
def fwStageDone (m : Mach) : Mach :=
  match m.sec.fw with
  | none => m
  | some g =>
    let k := otherSlot m
    let m1 := wr F.SEC_SVN_STAGED g.img.svn (setSec { m.sec with fw := none, slots := mput k { img := g.img } m.sec.slots } m)
    final g.h.tk (if g.h.tk.eff < g.start then stLate else stDone)
      (raise 0x14 0x1403 [(1, k), (1, g.img.svn), (2, 0), (4, g.img.build), (8, 0)] m1)

/-- FW_STAGE_DONE. -/
def execFwStageDone (s : State) : Host.Outcome State Fault Refusal := onMach fwStageDone s

/-- 600 s of running without a reset commit the image on trial: fuses are blown and its trial count clears (R438). -/
def fwCommit (m : Mach) : Mach :=
  let fused := rd m F.SEC_SVN_FUSED
  let run := rd m F.SEC_SVN_RUNNING
  if 4800000 ≤ m.ticks && fused < run then
    let k := rd m F.SEC_STATE_SLOT
    let slots := if flag m F.SYS_BOOT_PCIE_IMAGE then m.sec.slots
      else match mfind m.sec.slots k with | some b => mput k { b with trials := 0 } m.sec.slots | none => m.sec.slots
    raise 0x14 0x1404 [(1, fused), (1, run), (2, 0), (4, m.sec.build), (8, 0)]
      (wr F.SEC_SVN_FUSED run (setSec { m.sec with slots := slots } m))
  else m

/-- FW_COMMIT. -/
def execFwCommit (s : State) : Host.Outcome State Fault Refusal := onMach fwCommit s

/-! Attestation (R444). -/

/-- The first 112 bytes of the report, as words. -/
def reportWords (m : Mach) : List Nat :=
  let head := payBytes [(4, 0x4B41514E), (2, 1), (1, rd m F.SEC_STATE_LIFECYCLE), (1, rd m F.SEC_STATE_DEBUG), (8, idevId),
    (1, rd m F.SEC_SVN_RUNNING), (1, rd m F.SEC_SVN_FUSED), (2, Config.idevCertLen), (4, 0), (8, m.deal)]
  (List.range 8).map (fun k => leAt head (4 * k) 4) ++ (List.range 8).map (rdi m F.SEC_NONCE_BYTES) ++
    (List.range 12).map (fun k => ((Config.measurement m.sec.meas).getD k 0).toNat)

/-- Word k of the report: the encoding of the public key stands at bytes 112-208, the signature at 224-319, the certificate from 320. -/
def reportWord (m : Mach) (k : Nat) : Nat :=
  if k < 28 then (reportWords m).getD k 0
  else if k < 56 then leAt (keyEncoding (pairKey m.sec.pend)) (4 * (k - 28)) 4
  else if k < 80 then (Config.freeWord (m.fresh + (k - 56))).toNat
  else if 320 + Config.idevCertLen ≤ 4 * k then 0
  else (Config.idevCert (k - 80)).toNat

/-- The report is placed in SEC_ATTEST, and ATTEST reads 0 (R444). -/
def attestReady (m : Mach) : Mach :=
  if flag m F.SEC_CTRL_ATTEST then
    useFresh 24 (wr F.SEC_CTRL_ATTEST 0 (forEach (List.range 512) (fun k x => wri F.SEC_ATTEST_BYTES k (reportWord m k) x) m))
  else m

/-- ATTEST_READY. -/
def execAttestReady (s : State) : Host.Outcome State Fault Refusal := onMach attestReady s

/-! Debug (R452). -/

/-- JTAG reads a fresh challenge: the IDevID identifier, 32 bytes of nonce and the deal. -/
def debugChallengeRead (m : Mach) : Mach :=
  emit (.challenge idevId m.fresh m.deal) (useFresh 8 (setSec { m.sec with challenge := some (m.fresh, m.deal) } m))

/-- DEBUG_CHALLENGE_READ. -/
def execDebugChallengeRead (s : State) : Host.Outcome State Fault Refusal := onMach debugChallengeRead s

/-- A response: where a held key with the DEBUG role signed the last challenge, debug unlocks after a planned leave. -/
def debugResponse (key : Nat) (ok : Bool) (m : Mach) : Mach :=
  match m.sec.challenge, mfind m.sec.keys key with
  | some (_, d), some k =>
    if ok && k.roles.testBit 4 then
      raise 0x14 0x1406 [(8, key), (8, d)] (measureImage (wr F.SEC_FLAGS_DEBUG_SEEN 1 (wr F.SEC_STATE_DEBUG 1
        (setSec { (plannedLeave 0 m).sec with challenge := none } (plannedLeave 0 m)))))
    else m
  | _, _ => m

/-- DEBUG_RESPONSE. -/
def execDebugResponse (key : Nat) (ok : Bool) (s : State) : Host.Outcome State Fault Refusal := onMach (debugResponse key ok) s

end Sys2Proof.Machine
end

