-- ==== Sys2Proof/Machine/Table.lean ====
section
/-! DEFINITION. The domain manager (15): the roster and admission, the trio's records, votes, reach and copies. -/
namespace Sys2Proof.Machine

/-! The roster (R401-R405). -/

/-- The canonical roster image without its envelope (Tables 15.1, 15.2). -/
def rosterBytes (r : Roster) : List Byte :=
  payBytes ([(4, 0x4B52514E), (2, 1), (2, r.table), (4, r.version), (2, r.ents.length), (1, r.spares.length), (1, 0)] ++
    r.trio.map (fun t => (2, t)) ++ (List.range 8).map (fun k => (2, r.spares.getD k 0xFFFF)) ++ [(26, 0)] ++
    r.ents.flatMap (fun e => [(2, e.seat), (1, b2n e.present), (5, 0), (8, e.ldev)]))

/-- The roster digest, 0 without a roster (R401). -/
def rosterDigest (m : Mach) : Nat := match m.dom.roster with | some r => Config.sha384Low (rosterBytes r) % 2 ^ 64 | none => 0

/-- The roster's entry of a seat. -/
def entryOf (r : Roster) (t : Nat) : Option RosterEnt := r.ents.find? (fun e => e.seat == t)

/-- Whether a seat is present and bound in a roster. -/
def bound (r : Roster) (t : Nat) : Bool := r.ents.any (fun e => e.seat == t && e.present && e.ldev != 0)

/-- The role that DOM_STATE shows (Table 15.5). -/
def showRole (m : Mach) : Mach :=
  let seat := ownSeat m
  let role := match m.dom.roster with
    | none => 0
    | some r =>
      if seat = 0xFFFE then 1
      else if rd m F.DOM_STATE_TRIO_IDX != 3 then (if activeMgr m = seat then 5 else 4)
      else if r.spares.contains seat then 3 else 2
  wr F.DOM_STATE_ROLE role m

/-- The seat whose entry binds this device's LDevID (R404). -/
def placeSelf (m : Mach) : Mach :=
  let seat := match m.dom.roster with
    | some r => ((r.ents.find? (fun e => e.present && e.ldev != 0 && e.ldev == m.sec.ldev)).map RosterEnt.seat).getD 0xFFFE
    | none => 0xFFFE
  wr F.DOM_STATE_SEAT seat m

/-- The roster's registers. -/
def showRoster (m : Mach) : Mach :=
  match m.dom.roster with
  | none => wr F.DOM_TABLE_TABLE_ID 0 (wr F.DOM_TABLE_PRESENT 0 (wr F.DOM_ROSTER_VER_VERSION 0 m))
  | some r => wr F.DOM_TABLE_TABLE_ID r.table (wr F.DOM_TABLE_PRESENT (ringSeats r).length (wr F.DOM_ROSTER_VER_VERSION r.version m))

/-- The seat that the device sees at a trio index changes. -/
def setTrio (j seat : Nat) (m : Mach) : Mach :=
  if j = 0 then wr F.DOM_TRIO_SEAT01_SEAT0 seat m else if j = 1 then wr F.DOM_TRIO_SEAT01_SEAT1 seat m else wr F.DOM_TRIO_SEAT2_SEAT2 seat m

/-- The seat at a trio index. -/
def trioAt (m : Mach) (j : Nat) : Nat := (trioSeats m).getD j 0xFFFF

/-- This device's trio index, 3 where it has none. -/
def ownIdx (m : Mach) : Nat := rd m F.DOM_STATE_TRIO_IDX

/-- Another trio index as this device knows it. -/
def peer (m : Mach) (j : Nat) : Peer := mget {} m.dom.peers j

/-- The view of the active manager changes, and with it the home seam (R419). -/
def setActive (seat : Nat) (m : Mach) : Mach :=
  let was := if activeMgr m = 0xFFFF then m.dom.wasActive else activeMgr m
  showRole (showSeam (wr F.DOM_TRIO_SEAT2_ACTIVE seat (setDom { m.dom with wasActive := was } m)))

/-- The LDevID, the link keys and the roster are erased (16 R435). -/
def eraseIdentity (m : Mach) : Mach :=
  showRole (showSeam (showRoster (forEach [0, 1, 2] (fun j m => setTrio j 0xFFFF m)
    (wr F.DOM_STATE_SEAT 0xFFFE (wr F.DOM_STATE_TRIO_IDX 3 (wr F.DOM_STATE_MANAGING 0 (wr F.DOM_STATE_WAITING 0 (wr F.DOM_STATE_FROZEN 0
      (wr F.DOM_TRIO_SEAT2_ACTIVE 0xFFFF (setDom {} (endSource (eraseKeys m))))))))))))

/-- A peer of an LDevID is an unknown member: its port's SA is withdrawn and the port counts as a fault point (R405). -/
def unknownMember (ldev p : Nat) (m : Mach) : Mach :=
  if p < 2 then
    let seat := (port m p).peer
    let m1 := detectFault p 3 (dropSa p m)
    raise 0x01 0x0103 [(1, p), (1, 2), (2, seat), (2, 0), (10, 0)]
      (wr F.DOM_FLAGS_UNKNOWN_PEER 1 (wr F.RING_FLAGS_NBR_CHANGED 1 (setPort p { port m1 p with unknown := true, barred := some (seat, ldev) } m1)))
  else m

/-- A roster change lets the ports judge their peers anew (06 R181). -/
def unbar (m : Mach) : Mach := forEach [0, 1] (fun p m => setPort p { port m p with barred := none } m) m

/-- The peers whose entries a roster change has taken away or bound anew are unknown members (R403, R405, R408). -/
def judgePeers (old : Option Roster) (m : Mach) : Mach :=
  forEach [0, 1] (fun p m =>
    let seat := (port m p).peer
    let was := (old.bind (fun o => entryOf o seat)).map RosterEnt.ldev
    onlyIf (secure m p && seat != 0xFFFF && (match m.dom.roster with
      | some r => !bound r seat || was != (entryOf r seat).map RosterEnt.ldev
      | none => true)) (unknownMember (was.getD 0) p) m) (unbar m)

/-! Leaving and entering the trio (R415, R422). -/

/-- Whether a spare is known to be JOINED: this device of itself, the active manager by join reports, and every other seat takes it so. -/
def spareJoined (m : Mach) (t : Nat) : Bool :=
  if t = ownSeat m then joined m else if activeMgr m = ownSeat m then m.dom.joined.contains t else true

/-- The first spare that qualifies (R422). -/
def nextSpare (m : Mach) : Option Nat :=
  match m.dom.roster with
  | none => none
  | some r => r.spares.find? (fun t => bound r t && spareJoined m t && !(trioSeats m).contains t && !m.dom.noSpare.contains t)

/-- The managing member with the lowest trio index, as the records show it. -/
def copySource (m : Mach) : Nat :=
  let man := [0, 1, 2].filter (fun j => trioAt m j != 0xFFFF && trioAt m j != ownSeat m && (peer m j).flags.testBit 0)
  match man with
  | j :: _ => trioAt m j
  | [] => (((trioSeats m).filter (fun t => t != 0xFFFF && t != ownSeat m)).head?).getD (activeMgr m)

/-- DOM_STATE.COPYING. -/
def showCopying (m : Mach) : Mach := wr F.DOM_STATE_COPYING (b2n (m.dom.copy.isSome || m.dom.serve.isSome)) m

/-- A copy is requested from a source (R423). -/
def startCopy (idx : Option Nat) (src restarts : Nat) (m : Mach) : Mach :=
  if src = 0xFFFF || src = ownSeat m then m
  else
    sendTrio src 0xF003 [(1, b2n idx.isSome)]
      (showCopying (setDom { m.dom with copy := some { src := src, idx := idx, since := m.deal, lastFrag := m.deal, restarts := restarts } } m))

/-- This device leaves the trio and works on as a worker that asks for a copy (R415). -/
def leaveTrio (m : Mach) : Mach :=
  let m1 := wr F.DOM_STATE_TRIO_IDX 3 (wr F.DOM_STATE_MANAGING 0 (wr F.DOM_STATE_WAITING 0 (wr F.DOM_STATE_FROZEN 0 (endSource m))))
  startCopy none (copySource m1) 0 (showRole (setDom { m1.dom with serve := none, serveQ := [], check := none, frozenAt := none } m1))

/-- A trio index becomes vacant for a cause of Table 15.7. -/
def fence (j cause : Nat) (m : Mach) : Mach :=
  let seat := trioAt m j
  if seat = 0xFFFF then m
  else
    let m1 := setTrio j 0xFFFF (wr F.DOM_FLAGS_FENCED 1 (bump F.DOM_FENCE_CNT_COUNT 1
      (setDom { m.dom with peers := mdel j m.dom.peers, dissent := mdel j m.dom.dissent, noSpare := m.dom.noSpare ++ [seat] } m)))
    let m2 := onlyIf (activeMgr m1 == seat) (setActive 0xFFFF) m1
    let m3 := raise 0x17 0x1702 [(2, seat), (1, j), (1, cause), (2, (nextSpare m2).getD 0xFFFF), (10, 0)] m2
    if seat = ownSeat m then leaveTrio m3
    else if nextSpare m3 = some (ownSeat m3) && m3.dom.copy.isNone then startCopy (some j) (copySource m3) 0 m3
    else m3

/-- The trio after a roster is replaced: a seat that keeps its trio index keeps it, every other index is vacant until its seat has
joined; with the first roster the seats named hold their indices (R403). -/
def rosterTrio (old : Option Roster) (m : Mach) : Mach :=
  match m.dom.roster with
  | none => m
  | some r =>
    let keeps (j : Nat) : Bool := match old with | some o => o.trio[j]? == r.trio[j]? | none => true
    let m1 := forEach [0, 1, 2] (fun j m => setTrio j (if keeps j then r.trio.getD j 0xFFFF else 0xFFFF) m) m
    let own := ((List.range 3).find? (fun j => trioAt m1 j == ownSeat m1)).getD 3
    let m2 := wr F.DOM_STATE_TRIO_IDX own m1
    let m3 := if ownIdx m != 3 && own = 3 then leaveTrio m2 else m2
    let m4 := onlyIf ((old.map Roster.trio) != some r.trio) (fun m => wr F.DOM_STATE_FROZEN 0 (setDom { m.dom with frozenAt := none } m)) m3
    let m5 := setDom { m4.dom with noSpare := [], peers := m4.dom.peers.filter (fun q => keeps q.1), dissent := [] } m4
    let mine := (List.range 3).find? (fun j => !keeps j && r.trio.getD j 0xFFFF == ownSeat m5)
    match mine with
    | some j => if m5.dom.copy.isNone then startCopy (some j) (copySource m5) 0 m5 else m5
    | none => m5

/-- A roster takes the place of the present one (R403). -/
def replaceRoster (r : Roster) (m : Mach) : Mach :=
  let old := m.dom.roster
  let m1 := setDom { m.dom with roster := some r } m
  if member m && !(r.ents.any (fun e => e.seat == ownSeat m && e.present && e.ldev == m.sec.ldev)) then eraseIdentity (judgePeers old m1)
  else
    let m2 := rosterTrio old (showRoster (placeSelf m1))
    let m3 := onlyIf (activeMgr m2 != 0xFFFF && !(trioSeats m2).contains (activeMgr m2)) (setActive 0xFFFF) m2
    judgePeers old (showRole m3)

/-- A roster image (R401, R402), none where it is malformed or breaks a rule. -/
def parseRoster (l : List Byte) : Option Roster :=
  let n := leAt l 12 2
  let sp := leAt l 14 1
  let es := (records 16 n (l.drop 64))
  let r : Roster := { table := leAt l 6 2, version := leAt l 8 4,
                      ents := es.map (fun e => { seat := leAt e 0 2, present := leAt e 2 1 == 1, ldev := leAt e 8 8 }),
                      trio := [leAt l 16 2, leAt l 18 2, leAt l 20 2],
                      spares := (List.range (min sp 8)).map (fun k => leAt l (22 + 2 * k) 2) }
  let seats := r.ents.map RosterEnt.seat
  if leAt l 0 4 == 0x4B52514E && leAt l 4 2 == 1 && 1 ≤ r.table && r.table ≤ 0xFFFE && 1 ≤ r.version && 1 ≤ n && n ≤ 1024 && sp ≤ 8 &&
      leAt l 15 1 == 0 && leAt l 38 26 == 0 && l.length == 64 + 16 * n &&
      (List.range 8).all (fun k => k < sp || leAt l (22 + 2 * k) 2 == 0xFFFF) &&
      es.all (fun e => leAt e 0 2 ≤ 1023 && leAt e 2 1 ≤ 1 && leAt e 3 5 == 0) && decide (seats.Pairwise (· < ·)) &&
      decide r.trio.Nodup && r.trio.all (bound r) && decide r.spares.Nodup && r.spares.all (fun t => bound r t && !r.trio.contains t)
  then some r else none

/-- Whether a device without a roster takes a command from its source (R404). -/
def firstHost (c : Cmd) : Bool := c.target == 0xFFFE && (match c.src with | .ring _ => true | _ => false)

/-- ROSTER_LOAD (R403, R404). -/
def rosterLoad : Eff := fun c _ m =>
  if 32768 < bufLen c || !bufOk c false m then bad m
  else match parseRoster (bufBytes c) with
    | none => bad m
    | some r =>
      if bufLen c != 64 + 16 * r.ents.length + 272 then bad m
      else match m.dom.roster with
        | none => if firstHost c then okM (replaceRoster r m) else (m, { st := some stNotMember })
        | some o => if r.table != o.table || r.version ≤ o.version then bad m else okM (replaceRoster r m)

/-- ROSTER_LOAD. -/
def execRosterLoad (c : Cmd) (s : State) : Host.Outcome State Fault Refusal := onMach (hostRow 0x0C01 rosterLoad c) s

/-- The admission record of a SEAT_ADMIT. -/
def admitRec (c : Cmd) : List Byte := match c.buf with | .admission l _ => l | _ => []

/-- An entry at its place in the ascending order of seats. -/
def putEntry (e : RosterEnt) : List RosterEnt → List RosterEnt
  | [] => [e]
  | x :: t => if e.seat < x.seat then e :: x :: t else if e.seat = x.seat then e :: t else x :: putEntry e t

/-- SEAT_ADMIT at a seat that holds a roster, after its checks (R407). -/
def admitSeat (seat role ldev : Nat) (r : Roster) (m : Mach) : Mach :=
  let r1 : Roster := { r with version := r.version + 1, ents := putEntry { seat := seat, present := true, ldev := ldev } r.ents,
                              spares := if role = 1 && !r.spares.contains seat then r.spares ++ [seat] else r.spares }
  let m1 := unbar (showRole (showRoster (placeSelf (setDom { m.dom with roster := some r1 } m))))
  let m2 := forEach [0, 1] (fun p m => onlyIf (port m p).unknown (emit (.enrol p 1)) m) m1
  raise 0x17 0x1708 [(2, seat), (1, 0), (1, role), (4, r1.version), (8, ldev)] m2

/-- What a SEAT_ADMIT's record and package do at a seat (R404, R407; 16 R445, R446): at the candidate its key package is installed
as well. own says that the command came from the local host with target 0xFFFE, or by the enrolment exchange. -/
def admitCore (own : Bool) (c : Cmd) (m : Mach) : Mach × Verdict :=
  let l := admitRec c
  let seat := leAt l 0 2
  let role := leAt l 2 1
  let ldev := leAt l 16 8
  let cand := leAt l 8 8 == idevId
  if l.length != 32 || 1023 < seat || 1 < role || leAt l 3 1 != 0 || leAt l 24 8 != 0 || ldev = 0 then bad m
  else match pkgOf c with
    | none => bad m
    | some p => match m.dom.roster with
      | none =>
        if !own then (m, { st := some stNotMember })
        else if cand && !pkgOk p m then bad m
        else okM (if cand then installPkg p c m else m)
      | some r =>
        let taken := match entryOf r seat with | some e => e.present && e.ldev != 0 && !(cand && e.ldev == ldev) | none => false
        if leAt l 4 4 != r.version + 1 || taken || (cand && !pkgOk p m) then bad m
        else if role = 1 && 8 ≤ r.spares.length && !r.spares.contains seat then noRoom m
        else okM (admitSeat seat role ldev r (if cand then installPkg p c m else m))

/-- SEAT_ADMIT (R407). -/
def seatAdmit : Eff := fun c _ m => if !bufOk c false m || bufLen c < 304 then bad m else admitCore (firstHost c) c m

/-- SEAT_ADMIT. -/
def execSeatAdmit (c : Cmd) (s : State) : Host.Outcome State Fault Refusal := onMach (hostRow 0x0C02 seatAdmit c) s

/-- SEAT_EVICT (R408). -/
def seatEvict : Eff := fun c _ m =>
  let l := bufBytes c
  let seat := leAt l 0 2
  match m.dom.roster with
  | none => bad m
  | some r =>
    if !bufOk c false m || bufLen c != 280 || leAt l 2 2 != 0 || leAt l 4 4 != r.version + 1 ||
        !(r.ents.any (fun e => e.seat == seat && e.present)) then bad m
    else
      let ldev := ((entryOf r seat).map RosterEnt.ldev).getD 0
      let r1 : Roster := { r with version := r.version + 1, spares := r.spares.erase seat,
                                  ents := r.ents.map (fun e => if e.seat = seat then { e with present := false } else e) }
      let role := if r.spares.contains seat then 1 else 0
      let m1 := raise 0x17 0x1708 [(2, seat), (1, 1), (1, role), (4, r1.version), (8, ldev)]
        (showRole (showRoster (setDom { m.dom with roster := some r1 } m)))
      let m2 := match (List.range 3).find? (fun j => trioAt m1 j == seat) with
        | some j => fence j 4 m1
        | none => m1
      if seat = ownSeat m then okM (eraseIdentity m2) else okM (judgePeers (some r) m2)

/-- SEAT_EVICT. -/
def execSeatEvict (c : Cmd) (s : State) : Host.Outcome State Fault Refusal := onMach (hostRow 0x0C03 seatEvict c) s

/-- A key package or the last ring-key buffer reaches this device through the enrolment exchange (16 R446, R450). -/
def keyPackageReceive (c : Cmd) (m : Mach) : Mach :=
  match c.buf with
  | .admission _ _ =>
    match stage1 0x0C02 c m with
    | 0 =>
      if leAt (admitRec c) 8 8 == idevId then
        match stage2 0x0C02 c m with
        | 0 => (admitCore true c (recordCounter c m)).1
        | k => authFailBy k 0x0C02 (ownSeat m) (envKey c) m
      else m
    | k => authFailBy k 0x0C02 (ownSeat m) (envKey c) m
  | .rotate _ _ =>
    match stage1 0x0D01 c m with
    | 0 =>
      let fresh := match c.env with | some e => ((mfind m.sec.keys e.keyId).map OpKey.counter).getD 0 < e.counter | none => false
      if !fresh then authFailBy 6 0x0D01 (ownSeat m) (envKey c) m
      else if leAt (rotBytes c) 0 1 = 1 && rd m F.SEC_RING_KEY_NUMBER < leAt (rotBytes c) 4 4 && member m then rotateRing c (recordCounter c m)
      else m
    | k => authFailBy k 0x0D01 (ownSeat m) (envKey c) m
  | _ => m

/-- KEY_PACKAGE_RECEIVE. -/
def execKeyPackageReceive (c : Cmd) (s : State) : Host.Outcome State Fault Refusal := onMach (keyPackageReceive c) s

/-! Peers on the ring (R405, R406; 06 R170, R181). -/

/-- The number of roster seats that lie between this seat and a peer on a port: port B faces the next seat in ring order (R402). -/
def skippedSeats (m : Mach) (p peerSeat : Nat) : Nat :=
  (if p = 1 then seatsBetween m (ownSeat m) peerSeat else seatsBetween m peerSeat (ownSeat m)).length

/-- The CKN of the ring link between seats a < b under a ring key number: TABLE_ID, a, b and the number, big-endian, and 6 zero bytes (16 R447). -/
def ringCkn (table a b k : Nat) : Nat := (((table * 2 ^ 16 + a) * 2 ^ 16 + b) * 2 ^ 32 + k) * 2 ^ 48

/-- The ring key numbers of a ring port's CAs: the current one, and the previous one until the port is secure under the current (16 R449). -/
def linkKeys (m : Mach) (p : Nat) : List Nat :=
  let cur := rd m F.SEC_RING_KEY_NUMBER
  (if cur = 0 then [] else [cur]) ++
    (match m.sec.prevKey with | some (n, _) => if secure m p && (port m p).keyNo == cur then [] else [n] | none => [])

/-- The key number of the CA that a port shares with a peer by its MKPDU, 0 for a local port's; none where they share no CAK (16 R447). -/
def commonKey (m : Mach) (p : Nat) (k : MkIn) : Option Nat :=
  if p < 2 then
    let a := min (ownSeat m) k.peer
    let b := max (ownSeat m) k.peer
    (linkKeys m p).find? (fun n => k.ckn == ringCkn (rd m F.DOM_TABLE_TABLE_ID) a b n && k.cak == Config.ringCak n a b)
  else if mfind m.sec.caks p = some k.ckn && k.cak = Config.localCak k.ckn then some 0 else none

/-- Whether the roster binds a peer's LDevID to the seat it claims (R405). -/
def peerKnown (m : Mach) (k : MkIn) : Bool :=
  m.dom.roster.any (fun r => r.ents.any (fun e => e.seat == k.peer && e.present && e.ldev != 0 && e.ldev == k.ldev))

/-- A SAK is installed on a port: packet numbers start at 1, with the suite of the port (06 R169), and a ring peer is judged by the roster (R405). -/
def installSak (p an keyNo : Nat) (k : MkIn) (m : Mach) : Mach :=
  let first := !secure m p || (port m p).peer != k.peer
  let m1 := setPort p { port m p with peer := k.peer, keyNo := keyNo, unknown := false, refused := none, barred := none, txPn := 1, rxPn := 1,
                                      xpn := p < 2 || rdi m F.RING_PORT_CFG_XPN p == 1 } (count p 0x0306 1 m)
  let m2 := raise 0x03 0x0301 [(1, p), (1, an), (2, k.peer), (4, keyNo), (8, 0)]
    (showNbr p k.peer (wri F.RING_PORT_STAT_AN p an (showLink p 1 1 m1)))
  if 2 ≤ p then m2
  else
    if !peerKnown m2 k then unknownMember k.ldev p m2
    else
      let skip := skippedSeats m2 p k.peer
      tryTiming (onlyIf first (fun m => raise 0x01 0x0103 [(1, p), (1, b2n (skip != 0)), (2, k.peer), (2, skip), (10, 0)]
        (wr F.RING_FLAGS_NBR_CHANGED 1 m)) m2)

/-- A peer that holds no CAK of the table is reported once (06 R181); its exchange goes to the active manager, who answers a bound seat with the last
ring-key buffer (R406; 16 R450). -/
def refusePeer (p : Nat) (k : MkIn) (m : Mach) : Mach :=
  let m1 := raise 0x03 0x0302 [(1, p), (1, 2), (2, k.peer), (12, 0)]
    (setPort p { port m p with refused := some (k.peer, k.ldev), unknown := true } m)
  if 2 ≤ p then m1
  else
    let m2 := raise 0x01 0x0103 [(1, p), (1, 2), (2, k.peer), (2, 0), (10, 0)]
      (wr F.DOM_FLAGS_UNKNOWN_PEER 1 (wr F.RING_FLAGS_NBR_CHANGED 1 m1))
    if !m2.dom.roster.any (fun r => r.ents.any (fun e => e.present && e.ldev != 0 && e.ldev == k.ldev)) then m2
    else if activeMgr m2 = ownSeat m2 then onlyIf m2.sec.lastRing.isSome (emit (.enrol p 2)) m2
    else onlyIf (activeMgr m2 != 0xFFFF) (emit (.relay (activeMgr m2) 0 (ownSeat m2) k.peer 0 k.ldev)) m2

/-- An MKPDU arrives on a port that runs MKA: a new peer is answered at once, a peer without a common CAK is refused, and a SAK of the exchange is
installed, on a ring port one that the lower seat has distributed (06 R170, R181); a device whose debug is unlocked uses no ring key and no CAK (R452). -/
def mkpduReceive (p : Nat) (k : MkIn) (m : Mach) : Mach :=
  if 4 ≤ p || !linkUp m p || !macsecOn m p then m
  else
    let m1 := onlyIf k.new (sendMkpdu p) (count p 0x0101 1 m)
    if flag m F.SEC_STATE_DEBUG then m1
    else match commonKey m1 p k with
      | none => if (port m1 p).refused = some (k.peer, k.ldev) then m1 else refusePeer p k m1
      | some n => match k.sak with
        | none => m1
        | some (an, keyNo) =>
          if (p < 2 && k.served != decide (k.peer < ownSeat m1)) || (port m1 p).barred = some (k.peer, k.ldev) then m1
          else installSak p an (if p < 2 then n else keyNo) k m1

/-- MKPDU_RECEIVE. -/
def execMkpduReceive (p : Nat) (k : MkIn) (s : State) : Host.Outcome State Fault Refusal := onMach (mkpduReceive p k) s

/-- The active manager's verdict on the peer of a port (R405): a misplaced peer is an unknown member. -/
def verdictReceive (p : Nat) (accept : Bool) (m : Mach) : Mach :=
  if p < 2 && !accept && secure m p then
    let seat := (port m p).peer
    let ldev := ((m.dom.roster.bind (fun r => entryOf r seat)).map RosterEnt.ldev).getD 0
    let role := b2n (m.dom.roster.any (fun r => r.spares.contains seat))
    raise 0x17 0x1708 [(2, seat), (1, 2), (1, role), (4, rd m F.DOM_ROSTER_VER_VERSION), (8, ldev)] (unknownMember ldev p m)
  else m

/-- VERDICT_RECEIVE. -/
def execVerdictReceive (p : Nat) (accept : Bool) (s : State) : Host.Outcome State Fault Refusal := onMach (verdictReceive p accept) s

/-- A join report reaches the active manager (R406). -/
def joinReportReceive (r : JoinRep) (m : Mach) : Mach := onlyIf (activeMgr m == ownSeat m && member m) (joinReport r.seat r.a r.b) m

/-- JOIN_REPORT_RECEIVE. -/
def execJoinReportReceive (r : JoinRep) (s : State) : Host.Outcome State Fault Refusal := onMach (joinReportReceive r) s

/-- An enrolment exchange: a seat with an unknown member relays it to the active manager, who reports the candidate, or sends a seat that the roster
binds the last ring-key buffer (R406; 16 R450). -/
def enrolmentReceive (a b : Nat) (ids : CandIds) (m : Mach) : Mach :=
  let idev := ids.idev
  let ldev := ids.ldev
  if !member m then m
  else if activeMgr m = ownSeat m then
    if ldev != 0 && m.sec.lastRing.isSome && m.dom.roster.any (fun r => r.ents.any (fun e => e.present && e.ldev == ldev)) then
      emit (.relay a 2 a b idev ldev) m
    else raise 0x17 0x1707 [(2, a), (2, b), (4, 0), (8, idev)] m
  else onlyIf (activeMgr m != 0xFFFF && ((port m 0).unknown || (port m 1).unknown)) (emit (.relay (activeMgr m) 0 a b idev ldev)) m

/-- ENROLMENT_RECEIVE. -/
def execEnrolmentReceive (a b : Nat) (ids : CandIds) (s : State) : Host.Outcome State Fault Refusal := onMach (enrolmentReceive a b ids) s

/-! Digests (R413, R414). -/

/-- An object record of the snapshot image (Table 15.4). -/
def objRecord (o : Nat) (x : Obj) : List Byte :=
  let point (p : Point) : Pay := [(8, p.t), (8, s2n 64 p.x), (8, s2n 64 p.y), (8, s2n 64 p.z), (1, b2n p.jump + 2 * b2n p.rest), (7, 0)]
  payBytes ([(2, o), (1, x.state), (1, x.queue.length), (1, x.mode), (1, x.trump), (2, b2n x.enable + 2 * b2n x.fine), (4, s2n 32 x.gain),
    (2, x.spread), (2, x.rolloff), (4, x.aperture), (4, x.refDist), (2, x.zone), (6, 0), (8, s2n 64 x.x), (8, s2n 64 x.y), (8, s2n 64 x.z)] ++
    (List.range 16).flatMap (fun k => match x.queue[k]? with | some p => point p | none => [(40, 0)]))

/-- The scene digest: the CRC-64 over the snapshot image (R413). -/
def sceneDigest (s : Snap) : Nat :=
  let head := payBytes ([(8, s.deal), (8, s.digest), (4, s.version), (2, s.objects), (2, 0)] ++ s.last.map (fun v => (4, v)) ++ [(28, 0)])
  let body := (List.range s.objects).flatMap (fun o => objRecord o (mget {} s.objs o))
  ((head ++ body).foldl crcByte (2 ^ 64 - 1)) ^^^ (2 ^ 64 - 1)

/-- The snapshot of this deal (Table 15.4). -/
def takeSnap (m : Mach) : Snap :=
  { deal := m.deal, digest := rosterDigest m, version := rd m F.DOM_ROSTER_VER_VERSION, objects := objCount m,
    last := [mget 0 m.dom.last 0, mget 0 m.dom.last 1, mget 0 m.dom.last 2], objs := m.objs }

/-- The snapshot of a deal that the device still holds. -/
def snapAt (m : Mach) (d : Nat) : Option Snap := m.dom.snaps.find? (fun s => s.deal == d)

/-- The digest of a trio index for a deal that this device holds, its own, direct or relayed. -/
def digestOf (m : Mach) (j d : Nat) : Option Nat :=
  if trioAt m j = 0xFFFF then none
  else if j = ownIdx m then (snapAt m d).map sceneDigest
  else match mfind (peer m j).digs d with
    | some v => some v
    | none => mfind m.dom.relayed (d * 4 + j)

/-- The value that two of a deal's digests share. -/
def agreedOf (m : Mach) (d : Nat) : Option Nat :=
  match digestOf m 0 d, digestOf m 1 d, digestOf m 2 d with
  | some a, some b, some c => if a = b || a = c then some a else if b = c then some b else none
  | some a, some b, none => if a = b then some a else none
  | some a, none, some b => if a = b then some a else none
  | none, some a, some b => if a = b then some a else none
  | _, _, _ => none

/-- A dissent of a member in a deal that has an agreed digest (R415). -/
def judgeDissent (d agreed j : Nat) (m : Mach) : Mach :=
  match digestOf m j d with
  | none => m
  | some v =>
    if v = agreed then setDom { m.dom with dissent := mdel j m.dom.dissent } m
    else
      let n := mget 0 m.dom.dissent j + 1
      let m1 := setDom { m.dom with dissent := mput j n m.dom.dissent } m
      let m2 := onlyIf (n == 1 && ownIdx m != 3) (fun m => raise 0x17 0x1701 [(2, trioAt m j), (1, j), (1, 0), (4, 0), (8, v)]
        (wr F.DOM_FLAGS_DISSENT 1 m)) m1
      if 2 ≤ n then fence j 1 m2 else m2

/-- The commands that a freeze discards: stamped and not yet applied (R421). -/
def isStamped (h : Held) : Bool := match h.cmd.src with | .tunnel _ _ q => q != 0 | _ => false

/-- The checkpoint is restored and evaluated deal by deal up to the present deal; stamped commands that have not been applied are
discarded (R421). A log entry applied at or before the checkpoint's deal is in the checkpoint already. -/
def freeze (d : Nat) (m : Mach) : Mach :=
  let two := [0, 1, 2].filter (fun j => (digestOf m j d).isSome)
  let m1 := bump F.DOM_NOMAJ_CNT_COUNT 1 m
  if flag m F.DOM_STATE_FROZEN then m1
  else
    let gone := m1.hif.held.filter isStamped
    let m2 := setHeld (m1.hif.held.filter (fun h => !isStamped h)) m1
    let m3 := forEach gone (fun h m => final h.tk stNotMember m) m2
    let m4 := match m3.dom.check with
      | some c =>
        let now := m3.deal
        let m' := { m3 with objs := c.objs, dom := { m3.dom with last := [(0, c.last.getD 0 0), (1, c.last.getD 1 0), (2, c.last.getD 2 0)] } }
        let m'' := forEach (List.range (now - c.deal)) (fun k m => evalScene { m with deal := c.deal + 1 + k }) m'
        { m'' with deal := now }
      | none => m3
    raise 0x17 0x1704 [(2, trioAt m (two.getD 0 0)), (2, trioAt m (two.getD 1 0)), (4, 0), (8, (m.dom.check.map Snap.deal).getD 0)]
      (wr F.DOM_STATE_FROZEN 1 (wr F.DOM_FLAGS_NO_MAJORITY 1 (setDom { m4.dom with frozenAt := some d } m4)))

/-- Deal d is decided from the digests held for it (R414); a managing member decides, and every other seat follows the fencings. -/
def decideDeal (d : Nat) (m : Mach) : Mach :=
  let held := [0, 1, 2].filter (fun j => (digestOf m j d).isSome)
  if m.dom.roster.isNone || (ownIdx m != 3 && !managing m) || held.length < 2 then m
  else match agreedOf m d with
    | some v =>
      let m1 := wr F.DOM_DIG_AGREED_LO_DIGEST (v % 2 ^ 32) (wr F.DOM_DIG_AGREED_HI_DIGEST (v / 2 ^ 32)
        (wr F.DOM_DIG_DEAL_LO_DEAL (d % 2 ^ 32) (wr F.DOM_DIG_DEAL_HI_DEAL (d / 2 ^ 32) m)))
      let own := if digestOf m (ownIdx m) d = some v then snapAt m d else none
      let m2 := setDom { m1.dom with check := if ownIdx m != 3 && own.isSome then own else m1.dom.check } m1
      let three := held.length == 3 && held.all (fun j => digestOf m j d == some v)
      let m3 := onlyIf three (wr F.DOM_STATE_FROZEN 0) m2
      forEach held (judgeDissent d v) m3
    | none => if ownIdx m != 3 then freeze d m else m

/-! Reach (R417-R420). -/

/-- Whether an index is reached directly. -/
def directly (m : Mach) (j : Nat) : Bool := trioAt m j != 0xFFFF && (j == ownIdx m || (peer m j).est)

/-- Whether an index is reached by relay: some third member that is reached directly reports it. -/
def byRelay (m : Mach) (j : Nat) : Bool :=
  trioAt m j != 0xFFFF && [0, 1, 2].any (fun k => k != j && k != ownIdx m && (peer m k).est && (peer m k).reach.testBit j)

/-- The trio indices in a test, as bits. -/
def idxBits (f : Nat → Bool) : Nat := b2n (f 0) + 2 * b2n (f 1) + 4 * b2n (f 2)

/-- Reach is judged anew (R417, R418): a direction is lost after REACH_DEALS deals without a record; managing and waiting follow. -/
def judgeReach (m : Mach) : Mach :=
  let n := rd m F.DOM_TRIO_REACH_DEALS
  let peers := m.dom.peers.map (fun q => (q.1, if q.2.last + n < m.deal then { q.2 with est := false, run := 0 } else q.2))
  let m1 := setDom { m.dom with peers := peers } m
  let got := [0, 1, 2].filter (fun j => j == ownIdx m1 || directly m1 j || byRelay m1 j)
  let mem := ownIdx m1 != 3
  let major := mem && 2 ≤ got.length
  let vac := (trioSeats m1).contains 0xFFFF
  let m2 := wr F.DOM_REACH_DIRECT (idxBits (directly m1)) (wr F.DOM_REACH_RELAY (idxBits (byRelay m1)) (wr F.DOM_REACH_MAJORITY (b2n major)
    (wr F.DOM_STATE_MANAGING (b2n major) (wr F.DOM_STATE_WAITING (b2n (mem && !major && vac)) m1))))
  let act := activeMgr m2
  if act = 0xFFFF then m2
  else if act = ownSeat m2 then (if major then m2 else endSource (setActive 0xFFFF m2))
  else match [0, 1, 2].find? (fun j => trioAt m2 j == act) with
    | some j => if (peer m2 j).last + n < m2.deal || !(peer m2 j).flags.testBit 1 then setActive 0xFFFF m2 else m2
    | none => setActive 0xFFFF m2

/-- No one has reached a member for REACH_DEALS deals: managing members fence it, and a member of a full trio that reaches no one
fences itself (R415, R418). -/
def reachTimeout (j : Nat) (m : Mach) : Mach :=
  if 3 ≤ j || trioAt m j = 0xFFFF then m
  else if j = ownIdx m then
    let full := !(trioSeats m).contains 0xFFFF
    onlyIf (full && [0, 1, 2].all (fun k => k == j || (!directly m k && !byRelay m k))) (fence j 3) m
  else if ownIdx m != 3 then onlyIf (managing m && !directly m j && !byRelay m j) (fence j 2) m
  else
    let others := [0, 1, 2].filter (fun k => k != j)
    onlyIf (!directly m j && others.all (fun k => directly m k && (peer m k).flags.testBit 0 && !(peer m k).reach.testBit j)) (fence j 2) m

/-- REACH_TIMEOUT. -/
def execReachTimeout (j : Nat) (s : State) : Host.Outcome State Fault Refusal := onMach (reachTimeout j) s

/-- With no active manager managing, the lowest managing index becomes active and the time source (R419); the event's old seat is the active manager
known before (DEDUCED, log 101). -/
def activeChange (m : Mach) : Mach :=
  let act := activeMgr m
  let j := ownIdx m
  let lower := (List.range j).any (fun k => directly m k && k != j && (peer m k).flags.testBit 0)
  if j = 3 || !managing m || lower || act != 0xFFFF then m
  else
    raise 0x17 0x1706 [(2, m.dom.wasActive), (2, ownSeat m), (1, j), (3, 0), (8, 0)] (becomeSource (setActive (ownSeat m) m))

/-- ACTIVE_CHANGE. -/
def execActiveChange (s : State) : Host.Outcome State Fault Refusal := onMach activeChange s

/-- AUTO_DEALS without a managing member's record: the worker is autonomous (R420). -/
def autonomousEnter (m : Mach) : Mach :=
  if member m && ownIdx m = 3 && !flag m F.DOM_STATE_AUTONOMOUS && m.dom.lastRec + rd m F.DOM_TRIO_AUTO_DEALS ≤ m.deal then
    raise 0x17 0x1705 [(1, 0), (3, 0), (4, 0), (8, 0)]
      (wr F.DOM_STATE_AUTONOMOUS 1 (wr F.DOM_FLAGS_AUTONOMOUS 1 (setActive 0xFFFF (setDom { m.dom with autoAt := m.deal } m))))
  else m

/-- AUTONOMOUS_ENTER. -/
def execAutonomousEnter (s : State) : Host.Outcome State Fault Refusal := onMach autonomousEnter s

/-! Records and copies (R409, R416, R423-R425). -/

/-- A worker's digest against the agreed digest of the active manager's record (R416, R424). -/
def judgeScene (r : DigRec) (m : Mach) : Mach :=
  if r.agreed = 0 || r.deal < 2 then m
  else match snapAt m (r.deal - 2) with
    | none => m
    | some s =>
      let own := sceneDigest s
      if own = r.agreed then
        let ends := m.dom.copy.any (fun c => c.idx.isNone && c.loaded.isSome)
        showCopying (wr F.DOM_STATE_DIVERGED 0 (setDom { m.dom with divRun := 0, copy := if ends then none else m.dom.copy } m))
      else
        let n := m.dom.divRun + 1
        let m1 := setDom { m.dom with divRun := n } m
        if n = 2 then
          let m2 := raise 0x17 0x1709 [(4, 0), (4, n), (8, own)] (wr F.DOM_STATE_DIVERGED 1 (wr F.DOM_FLAGS_DIVERGED 1 m1))
          onlyIf (flag m F.DOM_CTRL_AUTO_RESYNC && m.dom.copy.isNone) (startCopy none r.sender 0) m2
        else m1

/-- A spare's digest against its source's of the same deal (R424). -/
def judgeCopy (r : DigRec) (m : Mach) : Mach :=
  match m.dom.copy with
  | none => m
  | some c =>
    if c.idx.isSome && c.loaded.isSome && c.src == r.sender then
      let same := (snapAt m r.deal).map sceneDigest == some r.d
      setDom { m.dom with copy := some { c with eqRun := if same then c.eqRun + 1 else 0 } } m
    else m

/-- A DIGEST record arrives (R409, R414, R416, R417, R420). -/
def digestReceive (r : DigRec) (m : Mach) : Mach :=
  if m.dom.roster.isNone || 2 < r.idx || r.idx = ownIdx m || m.dom.noSpare.contains r.sender ||
      (trioAt m r.idx != 0xFFFF && trioAt m r.idx != r.sender) || !boundSeat m r.sender then m
  else
    let m0 := if trioAt m r.idx = 0xFFFF then setTrio r.idx r.sender m else m
    let p := peer m0 r.idx
    let run := if p.last + 1 = r.deal then p.run + 1 else if p.last = r.deal then p.run else 1
    let p1 : Peer := { p with est := p.est || decide (rd m F.DOM_TRIO_REACH_DEALS ≤ run), last := max p.last r.deal, run := run,
                              digs := (mput r.deal r.d p.digs).filter (fun q => r.deal ≤ q.1 + 8), flags := r.flags, reach := r.reach }
    let rel (t : SMap Nat) (k v : Nat) : SMap Nat := if v = 0 then t else mput ((r.deal - 1) * 4 + k) v t
    let relayed := (rel (rel m0.dom.relayed ((r.idx + 1) % 3) r.d1) ((r.idx + 2) % 3) r.d2).filter (fun q => r.deal ≤ q.1 / 4 + 8)
    let m1 := setDom { m0.dom with peers := mput r.idx p1 m0.dom.peers, relayed := relayed,
                                   lastRec := if r.flags.testBit 0 then m0.deal else m0.dom.lastRec } m0
    let act := r.flags.testBit 0 && r.flags.testBit 1
    let m2 := if act && activeMgr m1 != r.sender then setActive r.sender (if activeMgr m1 == ownSeat m1 then endSource m1 else m1) else m1
    let m3 := if act && flag m2 F.DOM_STATE_AUTONOMOUS then
        raise 0x17 0x1705 [(1, 1), (3, 0), (4, m2.deal - m2.dom.autoAt), (8, 0)] (wr F.DOM_STATE_AUTONOMOUS 0 m2) else m2
    judgeCopy r (if act && ownIdx m3 = 3 then judgeScene r m3 else m3)

/-- DIGEST_RECORD_RECEIVE. -/
def execDigestRecordReceive (r : DigRec) (s : State) : Host.Outcome State Fault Refusal := onMach (digestReceive r) s

/-- A copy request reaches a source; copies for spares come before copies for workers (R423). -/
def copyRequest (seat : Nat) (spare : Bool) (m : Mach) : Mach :=
  if ownIdx m = 3 then m
  else
    let q := m.dom.serveQ.filter (fun x => x.1 != seat)
    let sv := match m.dom.serve with | some v => if v.seat = seat then none else some v | none => none
    setDom { m.dom with serve := sv, serveQ := if spare then q.filter (fun x => x.2) ++ [(seat, true)] ++ q.filter (fun x => !x.2) else q ++ [(seat, false)] } m

/-- COPY_REQ_RECEIVE. -/
def execCopyReqReceive (seat : Nat) (spare : Bool) (s : State) : Host.Outcome State Fault Refusal := onMach (copyRequest seat spare) s

/-- The fragments of a snapshot with its header (R423). -/
def fragCount (s : Snap) : Nat := (16 + 64 + s.objects * 696 + 3967) / 3968

/-- A deal of serving: up to FRAGS fragments, and after the last one the stamped commands that the source holds for later deals. -/
def serveCopy (m : Mach) : Mach :=
  let start := match m.dom.serve, m.dom.serveQ, m.dom.check with
    | none, (seat, _) :: t, some c => setDom { m.dom with serve := some { seat := seat, next := 0, snap := c }, serveQ := t } m
    | _, _, _ => m
  match start.dom.serve with
  | none => start
  | some v =>
    let cnt := fragCount v.snap
    let last := min cnt (v.next + rd m F.DOM_COPY_FRAGS)
    let m1 := forEach (List.range (last - v.next)) (fun k m => emit (.snapshot v.seat (v.next + k) cnt v.snap.deal) m) start
    if last < cnt then setDom { m1.dom with serve := some { v with next := last } } m1
    else
      let m2 := forEach (m1.dom.log.filter (fun x => v.snap.deal < x.eff)) (fun x m =>
        sendReq v.seat 0 x.seq x.d.op { x.d.cmd with deal := x.eff } m) m1
      setDom { m2.dom with serve := none } m2

/-- The DIGEST record of a deal (Table 15.3). -/
def sendDigest (m : Mach) : Mach :=
  let i := ownIdx m
  if i = 3 then m
  else
    let direct (j : Nat) : Nat := (mfind (peer m j).digs (m.deal - 1)).getD 0
    let aDeal := rd m F.DOM_DIG_DEAL_LO_DEAL + rd m F.DOM_DIG_DEAL_HI_DEAL * 2 ^ 32
    let agreed := if aDeal + 2 = m.deal then rd m F.DOM_DIG_AGREED_LO_DIGEST + rd m F.DOM_DIG_AGREED_HI_DIGEST * 2 ^ 32 else 0
    let fl := b2n (managing m) + 2 * b2n (activeMgr m == ownSeat m) + 4 * rd m F.DOM_STATE_FROZEN + 8 * b2n m.dom.serve.isSome
    sendTrio 0xFFFF 0xF001 [(1, i), (1, fl), (2, ownSeat m), (2, activeMgr m), (8, m.deal), (8, sceneDigest (takeSnap m)),
      (8, direct ((i + 1) % 3)), (8, direct ((i + 2) % 3)), (8, agreed), (4, rd m F.DOM_ROSTER_VER_VERSION), (1, idxBits (directly m)), (11, 0)] m

/-- A worker that has joined asks for a copy as soon as it knows an active manager (R407, R427). -/
def joinCopy (m : Mach) : Mach :=
  if m.dom.needCopy && ownIdx m != 3 then setDom { m.dom with needCopy := false } m
  else if m.dom.needCopy && joined m && m.dom.copy.isNone && activeMgr m != 0xFFFF then
    startCopy none (activeMgr m) 0 (setDom { m.dom with needCopy := false } m)
  else m

/-- The domain manager at a boundary, after the evaluation of the scene: deal n - 2 is decided, reach judged, the snapshot of the
deal taken, the DIGEST record sent and a copy served (R409, R413, R414, R417, R423). -/
def trioTick (m : Mach) : Mach :=
  if m.dom.roster.isNone then m
  else
    let m1 := judgeReach (decideDeal (m.deal - 2) m)
    let m2 := setDom { m1.dom with
        snaps := (takeSnap m1 :: m1.dom.snaps).take 6
        lastRec := if managing m1 then m1.deal else m1.dom.lastRec
        log := m1.dom.log.filter (fun x => m1.deal ≤ x.eff + 64 || (m1.dom.check.map Snap.deal).getD 0 < x.eff) } m1
    showCopying (serveCopy (sendDigest (joinCopy m2)))

/-- A copy is restarted with the other member: no fragment for 16 deals, DEALS deals without a join, or a source that is no longer
reached or was fenced (R425). -/
def copyTimeout (m : Mach) : Mach :=
  match m.dom.copy with
  | none => m
  | some c =>
    let gone := !(trioSeats m).contains c.src || [0, 1, 2].any (fun j => trioAt m j == c.src && (peer m j).last + rd m F.DOM_TRIO_REACH_DEALS < m.deal)
    if gone || (c.loaded.isNone && c.lastFrag + 16 ≤ m.deal) || c.since + rd m F.DOM_COPY_DEALS ≤ m.deal then
      let other := ((trioSeats m).filter (fun t => t != 0xFFFF && t != c.src && t != ownSeat m)).head?
      startCopy c.idx (other.getD c.src) (c.restarts + 1) (bump F.DOM_COPY_CNT_COUNT 1 m)
    else m

/-- COPY_TIMEOUT. -/
def execCopyTimeout (s : State) : Host.Outcome State Fault Refusal := onMach copyTimeout s

/-- A spare whose digest has equalled its source's in two deals joins the trio (R424). -/
def spareJoin (m : Mach) : Mach :=
  match m.dom.copy with
  | some c => match c.idx, c.loaded with
    | some j, some d =>
      if 2 ≤ c.eqRun && trioAt m j = 0xFFFF then
        let m1 := showCopying (showRole (setTrio j (ownSeat m) (wr F.DOM_STATE_TRIO_IDX j (setDom { m.dom with copy := none } m))))
        raise 0x17 0x1703 [(2, ownSeat m), (1, j), (1, 0), (2, c.src), (2, min 0xFFFF c.restarts), (8, d)] m1
      else m
    | _, _ => m
  | none => m

/-- SPARE_JOIN. -/
def execSpareJoin (s : State) : Host.Outcome State Fault Refusal := onMach spareJoin s

/-- The roster as a power-on, pin or system reset reloads it: this device inserts again as a worker (R427). -/
def bootDom (m : Mach) : Mach :=
  match m.dom.roster with
  | none => m
  | some r =>
    let m1 := showRoster (placeSelf m)
    showRole (showSeam (forEach [0, 1, 2] (fun j m => setTrio j (if r.trio.getD j 0xFFFF = ownSeat m then 0xFFFF else r.trio.getD j 0xFFFF) m) m1))

end Sys2Proof.Machine
end

