-- ==== Sys2Proof/Machine/Tic.lean ====
section
/-! DEFINITION. The interval counter (05 R148-R151). A count is given whole, since reset: its low 40 bits are the coarse count and the
rest the wraps. -/
namespace Sys2Proof.Machine

/-- The machine with its interval counter replaced. -/
def setTic (x : Tic) (m : Mach) : Mach := { m with tic := x }

/-- The stamp of a count: bits [45:6] coarse, [5:0] fine (R148). -/
def ticStamp (coarse fine : Nat) : Nat := (coarse % 2 ^ 40) * 64 + fine % 64

/-- A stamp of a channel enters its capture FIFO as EV_TIC_STAMP (R151, Table 5.8). -/
def ticCapture (ch coarse fine : Nat) (falling : Bool) (m : Mach) : Mach :=
  let wraps := coarse / 2 ^ 40
  let epoch := wraps % 256
  let seq := mget 0 m.tic.seq ch
  let wrap := (mfind m.tic.lastWraps ch).any (fun w => w < wraps)
  let flags := b2n falling + 2 * b2n wrap + 4 * rd m F.TIC_STATUS_TB_HOLD + 8 * b2n m.tic.tbExt + 16 * b2n (mget false m.tic.gap ch)
  let full := decide (64 ≤ (fifo m (0x0700 + ch)).entries.length)
  let m1 := setTic { m.tic with coarse := coarse, seq := mset 0 ch ((seq + 1) % 2 ^ 32) m.tic.seq,
                                lastWraps := mput ch wraps m.tic.lastWraps, gap := mset false ch full m.tic.gap } m
  fifoPush (0x0700 + ch) 0x0701 [(1, ch), (1, flags), (1, epoch), (1, 0), (8, ticStamp coarse fine), (4, seq)]
    (wr F.TIC_STATUS_EPOCH epoch m1)

/-- The counter runs on over a deal, 100,000 counts of 1.25 ns by its nominal rate; its true rate shows in the next stamp (R148; DESIGN CHOICE,
log 93). -/
def ticTick (m : Mach) : Mach :=
  if flag m F.TIC_CTRL_ENABLE then
    wr F.TIC_STATUS_EPOCH ((m.tic.coarse + 100000) / 2 ^ 40 % 256) (setTic { m.tic with coarse := m.tic.coarse + 100000 } m)
  else m

/-- Whether a channel captures an edge of a polarity (R150). -/
def ticTakes (m : Mach) (ch : Nat) (falling : Bool) : Bool :=
  flag m F.TIC_CTRL_ENABLE && decide (ch < 8) && rdi m F.TIC_CH_EN ch == 1 &&
    (rdi m F.TIC_CH_BOTH ch == 1 || (rdi m F.TIC_CH_FALL ch == 1) == falling)

/-- An edge on an input: ignored less than 10 ns, 8 counts, after a captured edge, else counted; every DIV + 1 edges are stamped
(R150). -/
def ticEdge (ch coarse fine : Nat) (falling : Bool) (m : Mach) : Mach :=
  if !ticTakes m ch falling then m
  else if (mfind m.tic.lastAt ch).any (fun t => coarse * 64 + fine < t + 512) then m
  else
    let n := mget 0 m.tic.edges ch
    let m1 := setTic { m.tic with lastAt := mput ch (coarse * 64 + fine) m.tic.lastAt,
                                  edges := mset 0 ch (if rdi m F.TIC_CH_DIV ch ≤ n then 0 else n + 1) m.tic.edges } m
    if rdi m F.TIC_CH_DIV ch ≤ n then ticCapture ch coarse fine falling m1 else m1

/-- TIC_EDGE_CAPTURE. -/
def execTicEdgeCapture (ch coarse fine : Nat) (falling : Bool) (s : State) : Host.Outcome State Fault Refusal :=
  onMach (ticEdge ch coarse fine falling) s

/-- A whole second of domain time is stamped as channel 8 (R150). -/
def ticAnchor (coarse fine : Nat) (m : Mach) : Mach :=
  if flag m F.TIC_CTRL_ENABLE && flag m F.TIC_CTRL_ANCHOR then ticCapture 8 coarse fine false m else m

/-- TIC_ANCHOR. -/
def execTicAnchor (coarse fine : Nat) (s : State) : Host.Outcome State Fault Refusal := onMach (ticAnchor coarse fine) s

/-- The timebase event (Table 5.8). -/
def ticEvent (cause coarse : Nat) (m : Mach) : Mach :=
  raise 0x07 0x0702 [(1, cause), (3, 0), (4, if flag m F.TIC_STATUS_TB_HOLD then (m.ticks - m.tic.holdSince) / 8000 else 0),
    (8, coarse % 2 ^ 40)] m

/-- REFIN3 shows no edge for 4 periods: the counter clock holds (R149). -/
def ticLost (coarse : Nat) (m : Mach) : Mach :=
  if flag m F.TIC_CTRL_ENABLE && m.tic.tbExt && !flag m F.TIC_STATUS_TB_HOLD then
    ticEvent 1 coarse (wr F.TIC_STATUS_EXT_PRESENT 0 (wr F.TIC_STATUS_TB_LOCKED 0 (wr F.TIC_STATUS_TB_HOLD 1 (wr F.TIC_FLAGS_TB_LOST 1
      (setTic { m.tic with holdSince := m.ticks, coarse := coarse } m)))))
  else m

/-- TIC_TIMEBASE_LOST. -/
def execTicTimebaseLost (coarse : Nat) (s : State) : Host.Outcome State Fault Refusal := onMach (ticLost coarse) s

/-- Edges return and the counter clock relocks without disturbing the count: TB_HOLD clears (R149). -/
def ticRelock (coarse : Nat) (m : Mach) : Mach :=
  if flag m F.TIC_CTRL_ENABLE && m.tic.tbExt && !(flag m F.TIC_STATUS_TB_LOCKED && flag m F.TIC_STATUS_EXT_PRESENT) then
    wr F.TIC_STATUS_TB_HOLD 0 (ticEvent 3 coarse (wr F.TIC_STATUS_TB_LOCKED 1 (ticEvent 2 coarse (wr F.TIC_STATUS_EXT_PRESENT 1
      (setTic { m.tic with coarse := coarse } m)))))
  else m

/-- TIC_TIMEBASE_RELOCK. -/
def execTicTimebaseRelock (coarse : Nat) (s : State) : Host.Outcome State Fault Refusal := onMach (ticRelock coarse) s

/-- ENABLE is set or cleared by a register write: TB_EXT is read as it is set, and the XO locks the counter clock at once (R149). -/
def ticEnable (was : Bool) (m : Mach) : Mach :=
  if flag m F.TIC_CTRL_ENABLE && !was then
    let ext := flag m F.TIC_CTRL_TB_EXT
    setTic { m.tic with tbExt := ext } (wr F.TIC_STATUS_TB_LOCKED (b2n (!ext)) m)
  else if !flag m F.TIC_CTRL_ENABLE && was then wr F.TIC_STATUS_TB_LOCKED 0 (wr F.TIC_STATUS_TB_HOLD 0 m)
  else m

/-- COUNTER_QUERY group 10 (R79, R151; 13 R364): a FIFO's counters by its index. -/
def fifoCounters (m : Mach) (i : Nat) : Option (List (Nat × Nat)) :=
  if (0x0700 ≤ i && i ≤ 0x0708) || i = 0x0800 || i = 0x0900 then
    some [(1, (fifo m i).captured), (2, (fifo m i).discarded), (3, (fifo m i).lingerFlushes)]
  else none

end Sys2Proof.Machine
end

