-- ==== Sys2Proof/Machine/RegAccess.lean ====
section
/-! DEFINITION. Accesses to BAR0 and to the MSI-X capability (00 R3-R8; 03 R49, R53): a write acts as its field types state, and
where a register's chapter gives the write an action of its own, with that action. -/
namespace Sys2Proof.Machine

/-- The repetition of a field that stands in the word at an offset. -/
def placeOf (f : Fld) (off : Nat) : Option (Nat × Nat) :=
  if off < f.addr then none
  else
    let d := off - f.addr
    (List.range f.n2).findSome? (fun j =>
      if j * f.s2 ≤ d then
        let r := d - j * f.s2
        if r = 0 then some (0, j)
        else if f.s1 != 0 && r % f.s1 == 0 && r / f.s1 < f.n1 then some (r / f.s1, j) else none
      else none)

/-- The fields of the word at an offset, each with its repetition. -/
def fieldsAt (off : Nat) : List (Fld × Nat × Nat) := fldTable.filterMap (fun f => (placeOf f off).map (fun p => (f, p.1, p.2)))

/-- The rate of a port in kbit/s, by the speed that its registers hold (06 Table 6.8). -/
def setRate (m : Mach) (p : Nat) : Nat :=
  let code := if p = 0 then rd m F.RING_CTRL_SPEED_A else if p = 1 then rd m F.RING_CTRL_SPEED_B else rdi m F.RING_PORT_CFG_LSPEED p
  codeMbps p code * 1000

/-- Whether a value is legal in repetition i of a field (R6); an idleSlope goes up to its port's rate (06 Table 6.8). -/
def legal (m : Mach) (f : Fld) (i x : Nat) : Bool :=
  if f.addr = F.RING_CBS_IDLE_KBPS.addr && f.lsb = F.RING_CBS_IDLE_KBPS.lsb then x ≤ setRate m i
  else f.ok == [] || f.ok.any (fun r => r.1 ≤ x && x ≤ r.2)

/-- A write reaches one field (R4, R6, R8). -/
def writeFld (v : Nat) (f : Fld) (i j : Nat) (m : Mach) : Mach :=
  let x := v / 2 ^ f.lsb % 2 ^ f.width
  match f.typ with
  | .rw => if legal m f i x then wrij f i j x m else m
  | .rwl => if !flag m F.SYS_LOCK_LOCK && legal m f i x then wrij f i j x m else m
  | .w1c => wrij f i j (andNot f.width (rdij m f i j) x) m
  | .w1s => wrij f i j (rdij m f i j ||| x) m
  | _ => m

/-- A word written to a register, field by field. -/
def writeFlds (off v : Nat) (m : Mach) : Mach := forEach (fieldsAt off) (fun q m => writeFld v q.1 q.2.1 q.2.2 m) m

/-! Registers whose write does more. -/

/-- HIF_CTRL: its plain fields, then the enable, then a host-function reset (03 R53, R84). -/
def hifCtrlWrite (v : Nat) (m : Mach) : Mach :=
  onlyIf (v.testBit 1) hostReset (onlyIf (v.testBit 0) hifEnable
    (wr F.HIF_CTRL_POLL4 (v / 4 % 2) (wr F.HIF_CTRL_FAULT_VEC (v / 8 % 64) m)))

/-- SYS_RESET: FULL and NOW take the next deal as e; while a zone is latched the write is ignored and reported (17 R469; 14 R397). -/
def sysResetWrite (v : Nat) (m : Mach) : Mach :=
  if v % 4 = 0 then m
  else if zoneLatched m then authFail 9 0 m
  else setPwr { m.pwr with req := some (m.deal + 1, v / 2 % 2) } m

/-- SYS_PBOOT_CTRL.GO is set by a 1 (00 R4); while a boot image is awaited over PCIe an earlier FAIL gives way to a new check (17 R471). -/
def pbootGo (m : Mach) : Mach := onlyIf m.sys.pboot (wr F.SYS_PBOOT_CTRL_FAIL 0) (wr F.SYS_PBOOT_CTRL_GO 1 m)

/-- RING_PORT_CFG of a local port: its counters start at its enable, and its link goes down with it (06 R160, R186); ports A and B
hold no value of their own. -/
def portCfgWrite (off v p : Nat) (m : Mach) : Mach :=
  if p < 2 then m
  else
    let was := portOn m p
    let m1 := writeFlds off v m
    if portOn m1 p && !was then enablePort p (rdi m1 F.RING_PORT_CFG_LSPEED p) 0 m1
    else if was && !portOn m1 p then linkDown p 4 m1
    else m1

/-- OBJ_PROBE_SEL: an object beyond those of the rate in force leaves the field as it was; the probe follows the field at the next deal
boundary (10 R292; R6). -/
def probeSelWrite (v : Nat) (m : Mach) : Mach := if v % 512 < objCount m then writeFlds 0xF014 v m else m

/-- RING_GCL_DATA: the entry of the administrative list that RING_GCL_ADDR names (06 R183); an interval of 0 keeps the old one (R6). -/
def gclWrite (v p : Nat) (m : Mach) : Mach :=
  let k := p * 256 + rdi m F.RING_GCL_ADDR_ENTRY p
  let old := mget (0xFF, 125000) m.ring.gcl k
  let iv := v / 256 % 2 ^ 24
  setRing { m.ring with gcl := mset (0xFF, 125000) k (v % 256, if iv = 0 then old.2 else iv) m.ring.gcl } m

/-- A word of the MSI-X table: the messages that a cleared mask lets go are sent (03 R49, R81). -/
def msixWrite (k v : Nat) (m : Mach) : Mach :=
  let d := if k % 4 = 3 then 1 else 0
  let x := if k % 4 = 0 then v - v % 4 else if k % 4 = 3 then v % 2 else v
  msixFlush { m with hif := { m.hif with msix := if x = d then mdel k m.hif.msix else mput k x m.hif.msix } }

/-- What follows a write that has reached its fields. -/
def afterWrite (off v : Nat) (before m : Mach) : Mach :=
  match off with
  | 0x2000 => showTarget m
  | 0x6000 => ticEnable (flag before F.TIC_CTRL_ENABLE) m
  | 0xE000 => { m with out := .gpio (rd m F.GPIO_DIR_OUT) (m.gpio.drive &&& rd m F.GPIO_DIR_OUT) :: m.out }
  | 0xE008 => wr F.GPIO_OUT_LEVEL (rd m F.GPIO_OUT_LEVEL ||| v) m
  | 0xE00C => wr F.GPIO_OUT_LEVEL (andNot 32 (rd m F.GPIO_OUT_LEVEL) v) m
  | 0x1200C => watchStore m
  | 0x11C0C => alertPin m
  | 0x11C10 => alertPin m
  | _ =>
    if 0x8100 ≤ off && off < 0x8180 && off % 32 = 0x14 then tasChangeArm ((off - 0x8100) / 32) (BitVec.ofNat 32 v) m
    else if 0xD400 ≤ off && off < 0xD800 && off % 128 = 0 then
      onlyIf (v.testBit 8) (loadRequest 0 ((off - 0xD400) / 128)) (onlyIf (v.testBit 9) (loadRequest 1 ((off - 0xD400) / 128)) m)
    else m

/-- A word written to BAR0. -/
def regWrite (off v : Nat) (m : Mach) : Mach :=
  if 0x30000 ≤ off && off < 0x30400 then msixWrite ((off - 0x30000) / 4) v m
  else match off with
    | 0x4 => sysResetWrite v m
    | 0x2C => onlyIf (v.testBit 0) pbootGo m
    | 0x1000 => hifCtrlWrite v m
    | 0x5000 => timCtrlWrite v m
    | 0x8000 => ringCtrlWrite (zoneLatched m) v m
    | 0x8028 => if v.testBit 12 then mdioGo (BitVec.ofNat 32 v) m else writeFlds off v m
    | 0x8040 => portCfgWrite off v 0 m
    | 0x8050 => portCfgWrite off v 1 m
    | 0x8060 => portCfgWrite off v 2 m
    | 0x8070 => portCfgWrite off v 3 m
    | 0xF014 => probeSelWrite v m
    | _ =>
      if 0x8100 ≤ off && off < 0x8180 && off % 32 = 0x1C then gclWrite v ((off - 0x8100) / 32) m
      else afterWrite off v m (writeFlds off v m)

/-- The control word of the MSI-X capability: bit 15 enables MSI-X, bit 14 masks the function (03 R49). -/
def msixCtrlWrite (v : Nat) (m : Mach) : Mach :=
  msixFlush { m with hif := { m.hif with msixEn := v.testBit 15, msixMask := v.testBit 14 } }

/-! Reads. -/

/-- Low and high word of a 64-bit value. -/
def half (hi : Bool) (v : Nat) : Nat := if hi then v / 2 ^ 32 % 2 ^ 32 else v % 2 ^ 32

/-- GRF_DECK_STATE (08 Table 8.9). -/
def deckStateWord (m : Mach) : Nat :=
  (if m.dk.staged.isSome then 2 else if m.dk.sg.isSome then 1 else 0) + 4 * b2n (m.dk.fadeLeft != 0) + 8 * b2n m.dk.retiring.isSome +
    16 * b2n m.dk.slotB + 32 * b2n (m.dk.held != [])

/-- The open contexts of a role. -/
def openCtxs (m : Mach) (role : Nat) : Nat := ((ctxs m role).filter (fun p => stays m p.2)).length

/-- Whether a command waits under R465 or R466 (17 Table 17.8). -/
def waitsHeld (m : Mach) : Bool := m.hif.stopped != [] || (m.dk.held != [] && folded m)

/-- The word of a register whose value is that of a state held elsewhere; none for a register that the store holds. -/
def shownWord (off : Nat) (m : Mach) : Option Nat :=
  match off with
  | 0x8020 => some (half false Config.macBase)
  | 0x8024 => some (Config.macBase / 2 ^ 32 % 2 ^ 16)
  | 0x3020 => some (half false idevId)
  | 0x3024 => some (half true idevId)
  | 0xB030 => some (deckStateWord m)
  | 0xB034 => some (half false (liveDigest m))
  | 0xB038 => some (half true (liveDigest m))
  | 0xB03C => some (half false (stagedDigest m))
  | 0xB040 => some (half true (stagedDigest m))
  | 0xB044 => some (half false m.dk.live.cutDeal)
  | 0xB048 => some (half true m.dk.live.cutDeal)
  | 0xB050 => some m.dk.fadeLeft
  | 0xB054 => some ((m.dk.staged.map (fun d => d.group)).getD 0)
  | 0xB058 => some m.dk.live.body.nodes.length
  | 0xF034 => some (match m.dk.live.body.speakers with
    | some t => (t.ents.filter (fun e => e.present)).length + 2 ^ 16 * t.tris.length
    | none => 0)
  | 0xF050 => some (freeBlocks m + 2 ^ 16 * (2048 - freeBlocks m))
  | 0xF100 => some ((m.dk.live.body.nodes.filter (fun d => d.typ == 0x0F)).length + 2 ^ 9 * b2n m.cor.copyB + 2 ^ 10 * b2n m.dk.sg.isSome)
  | 0xF10C => some m.cor.muted.length
  | 0xA004 => some (chUsed m 0 + 2 ^ 16 * chUsed m 1)
  | 0xA008 => some (openCtxs m 0 + 2 ^ 16 * openCtxs m 1)
  | 0xA00C => some ((m.str.chmap.filter (fun p => p.2.st == 1)).length + 2 ^ 16 * (m.str.chmap.filter (fun p => 2 ≤ p.2.st)).length)
  | 0x12008 => some (min 0xFFFF (usedUnits m))
  | 0x12010 => some (playersBusy m)
  | 0x12014 => some m.ann.waiting.length
  | 0xE020 => some (schedPins m)
  | 0x1001C => some (half false (rosterDigest m))
  | 0x10020 => some (half true (rosterDigest m))
  | 0x10034 => some (half false ((m.dom.snaps.head?.map sceneDigest).getD 0))
  | 0x10038 => some (half true ((m.dom.snaps.head?.map sceneDigest).getD 0))
  | 0x38000 => some (half false m.hif.pba)
  | 0x38004 => some (half true m.hif.pba)
  | _ =>
    if 0x12040 ≤ off && off < 0x12060 then some (latchWord m ((off - 0x12040) / 4))
    else if 0x3030 ≤ off && off < 0x3060 then
      some (if m.sec.meas = [] then 0 else ((Config.measurement m.sec.meas).getD ((off - 0x3030) / 4) 0).toNat)
    else if 0x30000 ≤ off && off < 0x30400 then
      some (mget (if off % 16 = 12 then 1 else 0) m.hif.msix ((off - 0x30000) / 4))
    else if 0x8100 ≤ off && off < 0x8180 && off % 32 = 0x1C then
      let p := (off - 0x8100) / 32
      let e := if rdi m F.RING_GCL_ADDR_OPER p = 1 then (egress m p).oper.getD (rdi m F.RING_GCL_ADDR_ENTRY p) (0, 0)
        else gclEntry m p (rdi m F.RING_GCL_ADDR_ENTRY p)
      some (e.1 + 256 * e.2)
    else if off = 0x8040 || off = 0x8050 then some (rd m F.RING_CTRL_ENABLE + 8 + 16 + 2 ^ 16 * 4096)
    else none

/-- The value of a field as it reads: a WO field reads 0 (R4). -/
def fldWord (m : Mach) (q : Fld × Nat × Nat) : Nat := if q.1.typ = .wo then 0 else rdij m q.1 q.2.1 q.2.2 * 2 ^ q.1.lsb

/-- The fields of AEC_CH_STAT that show the canceller's own arithmetic, of a channel that runs: DOUBLE_TALK, NS_DB and ERLE, which is measured
anew each second (12 R347), are open. -/
def icomOpenBits (off : Nat) (m : Mach) : Bool :=
  (placeOf F.AEC_CH_STAT_DOUBLE_TALK off).any (fun p => icomRuns m p.1)

/-- The word that a read returns (R4, R5). -/
def regWord (off : Nat) (m : Mach) : Nat :=
  match shownWord off m with
  | some v => v
  | none =>
    let v := ((fieldsAt off).map (fldWord m)).sum
    if off = 0x2004 then v + 32 * b2n (waitsHeld m)
    else if icomOpenBits off m then (v &&& 1) ||| ((freeVal m).toNat &&& 0xFFFFFF02)
    else v

/-- The RC fields of a word return to their reset values (R4). -/
def readClear (off : Nat) (m : Mach) : Mach :=
  forEach ((fieldsAt off).filter (fun q => q.1.typ == .rc)) (fun q m => wrij q.1 q.2.1 q.2.2 q.1.reset m) m

/-- A read of BAR0. -/
def regRead (a : RegAddr) (off : Nat) (m : Mach) : Mach :=
  emit (.read a (regWord off m)) (useFresh (b2n (icomOpenBits off m)) (readClear off m))

/-- A word of configuration space as it reads (03 Table 3.1; 00 R2): the Revision ID is the stepping code, the Subsystem IDs are those of
the boot image where it replaces them, BAR0 is a 64-bit memory window of 256 KiB. The places of the fields in their words are those of
PCI Express (PRESUMED, log 36). -/
def cfgWord (w : CfgWord) (m : Mach) : Nat :=
  match w with
  | .id => 0x1FA9 + 2 ^ 16 * 0x7140
  | .classRev => F.SYS_ID_STEPPING.reset + 2 ^ 8 * 0x040100
  | .subsys => (m.sys.subsys.getD (0x1FA9, 0x7140)).1 % 2 ^ 16 + 2 ^ 16 * ((m.sys.subsys.getD (0x1FA9, 0x7140)).2 % 2 ^ 16)
  | .barLo => m.hif.bar0 % 2 ^ 32 / 2 ^ 18 * 2 ^ 18 + 4
  | .barHi => m.hif.bar0 / 2 ^ 32 % 2 ^ 32
  | .aer => m.hif.aer

/-- A write to a word of configuration space: the address of BAR0 is set, an error status of AER is cleared by a 1, and the others
are read-only. -/
def cfgWrite (w : CfgWord) (v : Nat) (m : Mach) : Mach :=
  match w with
  | .barLo => { m with hif := { m.hif with bar0 := m.hif.bar0 / 2 ^ 32 * 2 ^ 32 + v / 2 ^ 18 * 2 ^ 18 } }
  | .barHi => { m with hif := { m.hif with bar0 := m.hif.bar0 % 2 ^ 32 + v * 2 ^ 32 } }
  | .aer => { m with hif := { m.hif with aer := andNot 4 m.hif.aer v } }
  | _ => m

/-- The control word of the MSI-X capability: 64 vectors, its function mask and its enable. -/
def msixCtrlWord (m : Mach) : Nat := 63 + 2 ^ 14 * b2n m.hif.msixMask + 2 ^ 15 * b2n m.hif.msixEn

/-! The rows. -/

/-- A register access: a device held in reset takes none, but for a boot over PCIe, whose registers it takes (17 R471). -/
def onBus (boot : Bool) (f : Mach → Mach) (s : State) : Host.Outcome State Fault Refusal :=
  .next { s with m := if s.m.sys.held.isNone || (s.m.sys.pboot && boot) then f s.m else s.m }

/-- Whether an offset is one of SYS_PBOOT's registers. -/
def pbootReg (off : Nat) : Bool := 0x20 ≤ off && off ≤ 0x2C

/-- REGISTER_WRITE. -/
def execRegisterWrite (a : RegAddr) (v : Word) (s : State) : Host.Outcome State Fault Refusal :=
  match a with
  | .msixCtrl => onBus true (msixCtrlWrite v.toNat) s
  | .cfg w => onBus true (cfgWrite w v.toNat) s
  | .bar off =>
    if off % 4 != 0 then .fault .barUnaligned
    else if 0x40000 ≤ off then .fault .barOutside
    else onBus (pbootReg off) (regWrite off v.toNat) s

/-- RC_READ. -/
def execRcRead (a : RegAddr) (s : State) : Host.Outcome State Fault Refusal :=
  match a with
  | .msixCtrl => onBus true (fun m => emit (.read a (msixCtrlWord m)) m) s
  | .cfg w => onBus true (fun m => emit (.read a (cfgWord w m)) m) s
  | .bar off =>
    if off % 4 != 0 then .fault .barUnaligned
    else if 0x40000 ≤ off then .fault .barOutside
    else onBus true (regRead a off) s

/-- HOST_RESET: a word with HOST_RESET set, written to HIF_CTRL. -/
def execHostReset (v : Word) (s : State) : Host.Outcome State Fault Refusal := onMach (hifCtrlWrite (v ||| 2).toNat) s

/-- SYS_LOCK: a word with LOCK set (00 R8). -/
def execSysLock (v : Word) (s : State) : Host.Outcome State Fault Refusal := onMach (regWrite 0xC (v ||| 1).toNat) s

/-- SYS_RESET_FULL: a word with FULL set, and NOW as the word gives it. -/
def execSysResetFull (v : Word) (s : State) : Host.Outcome State Fault Refusal := onMach (sysResetWrite (v ||| 1).toNat) s

/-- SYS_RESET_NOW: a word with NOW set. -/
def execSysResetNow (v : Word) (s : State) : Host.Outcome State Fault Refusal := onMach (sysResetWrite (v ||| 2).toNat) s

/-- SYS_PBOOT_GO: a word with GO set (17 R471). -/
def execSysPbootGo (v : Word) (s : State) : Host.Outcome State Fault Refusal := onBus true (regWrite 0x2C (v ||| 1).toNat) s

/-- SEC_ATTEST: a word with ATTEST set, written to SEC_CTRL (16 R444). -/
def execSecAttest (v : Word) (s : State) : Host.Outcome State Fault Refusal := onMach (regWrite 0x3008 (v ||| 0x10000).toNat) s

/-- GPIO_OUT_SET (18 R482). -/
def execGpioOutSet (v : Word) (s : State) : Host.Outcome State Fault Refusal := onMach (regWrite 0xE008 v.toNat) s

/-- GPIO_OUT_CLR (18 R482). -/
def execGpioOutClr (v : Word) (s : State) : Host.Outcome State Fault Refusal := onMach (regWrite 0xE00C v.toNat) s

end Sys2Proof.Machine
end

