-- ==== Sys2Proof/Machine/Reset.lean ====
section
/-! DEFINITION. The wider resets and the boot (17 R467-R474; 16 R436-R438, R451, R452; 18 R485): power-on, pin and system resets,
the render reset, the choice of the image, and the resume deck. -/
namespace Sys2Proof.Machine

/-! Power-on, pin and system resets (R467). -/

/-- The machine in a power-on, pin or system reset: registers, decks, scene, streams, ports, timing and host interface begin anew and
the drives are low; what flash and fuses keep survives (R451, R454, R467; 14 R394; 15 R427; 04 R101). cause and count are those of
SYS_RESET_CAUSE. The device stays in reset until RESET_RELEASE. -/
def resetAll (cause count : Nat) (m : Mach) : Mach :=
  let keep := [(F.SYS_RESET_CAUSE_CAUSE, cause), (F.SYS_RESET_CAUSE_COUNT, min 0xFFFF count),
               (F.SYS_STRAP_BOOT_SRC, rd m F.SYS_STRAP_BOOT_SRC), (F.SEC_STATE_LIFECYCLE, rd m F.SEC_STATE_LIFECYCLE),
               (F.SEC_SVN_FUSED, rd m F.SEC_SVN_FUSED), (F.SEC_RING_KEY_NUMBER, rd m F.SEC_RING_KEY_NUMBER),
               (F.CLK_SAVED_AGE_SEC, rd m F.CLK_SAVED_AGE_SEC)]
  let x := m.sec
  let sap := (m.sap.dirs.filter (fun q => isTx q.1)).map (fun q => Out.pinsLow q.1)
  let pins := sap ++ (if m.sys.therm then [Out.openDrain true false] else []) ++ (if m.sys.alert then [Out.openDrain false false] else []) ++
    (if rd m F.GPIO_DIR_OUT = 0 then [] else [Out.gpio 0 0])
  { regs := keep.foldl (fun t q => rsetij q.1 0 0 q.2 t) resetRegs
    fresh := m.fresh
    out := pins ++ m.out
    hif := { epoch := m.hif.epoch + 1 }
    clk := { saved := m.clk.saved }
    ann := annKept m.ann
    sec := { keys := x.keys, deckKeys := x.deckKeys, ldev := x.ldev, pend := x.pend, caks := x.caks, slots := x.slots, lastRing := x.lastRing,
             prevKey := x.prevKey.map (fun q => (q.1, q.2 - m.deal)) }
    dom := { roster := m.dom.roster }
    sys := { resume := m.sys.resume, perst := m.sys.perst, extest := m.sys.extest, held := some cause } }

/-- A reset with its cause: COUNT counts the system resets since power-on, causes 2 to 6 (R474). -/
def sysReset (cause : Nat) (m : Mach) : Mach :=
  resetAll cause (if cause = 0 then 0 else rd m F.SYS_RESET_CAUSE_COUNT + b2n (2 ≤ cause && cause ≤ 6)) m

/-- POWER_ON: the supplies rise with PWRGOOD; the time since the saved value's window is not known. -/
def powerOn (m : Mach) : Mach :=
  let m1 := sysReset 0 m
  let m2 := { m1 with sys := { m1.sys with extest := false, perst := false } }
  if m.clk.saved.isSome then useFresh 1 (wr F.CLK_SAVED_AGE_SEC (freeVal m).toNat m2) else m2

/-- POWER_ON. -/
def execPowerOn (s : State) : Host.Outcome State Fault Refusal := onPins powerOn s

/-- RESET_N_ASSERT: RESET_N is low. -/
def execResetNAssert (s : State) : Host.Outcome State Fault Refusal := onPins (sysReset 1) s

/-- PWRGOOD_FALL: the drives drop at once, and the device holds itself in reset (18 R485). -/
def execPwrgoodFall (s : State) : Host.Outcome State Fault Refusal := onPins (sysReset 7) s

/-- KOLICA_FAULT: the device is bypassed under R22 and a system reset follows (16 R436; R474). -/
def execKolicaFault (s : State) : Host.Outcome State Fault Refusal := onMach (fun m => sysReset 5 (unitLost 5 m)) s

/-- EXTEST holds the device in system reset (16 R452); the manual names no cause for this reset. -/
def extestSelect (m : Mach) : Mach :=
  let m1 := useFresh 1 (resetAll ((freeVal m).toNat % 8) (rd m F.SYS_RESET_CAUSE_COUNT + 1) m)
  { m1 with sys := { m1.sys with extest := true, held := some 2 } }

/-- EXTEST_SELECT. -/
def execExtestSelect (s : State) : Host.Outcome State Fault Refusal := onPins extestSelect s

/-- EXTEST is left: the reset ends, and RESET_RELEASE boots the device (16 R452). -/
def execExtestRelease (s : State) : Host.Outcome State Fault Refusal :=
  onPins (fun m => { m with sys := { m.sys with extest := false } }) s

/-! SYSTEM_RESET, SYS_RESET and the planned leave (R469; 06 R180). -/

/-- A planned reset: the leave begins, and the reset follows as the drives drop. -/
def plannedReset (cause : Nat) (m : Mach) : Mach :=
  let m1 := plannedLeave 5 m
  setPwr { m1.pwr with reset := some (m1.pwr.reset.getD (floodDeal m, cause)) } m1

/-- SYSTEM_RESET (R469). -/
def systemReset : Eff := fun c tk m =>
  match u8 c 24 with
  | 0 => okM (plannedReset 2 m)
  | 1 => (sysReset 2 (final tk (doneOrLate tk m) m), { st := none })
  | _ => bad m

/-- SYSTEM_RESET. -/
def execSystemReset (c : Cmd) (s : State) : Host.Outcome State Fault Refusal := onMach (hostRow 0x0E02 systemReset c) s

/-- A reset whose deal has come: a planned one as the drives drop, one asked for through SYS_RESET at its deal e (R469). -/
def resetDue (m : Mach) : Mach :=
  match m.pwr.reset with
  | some (d, cause) => if d ≤ m.deal then sysReset cause (leaveDrop m) else m
  | none => match m.pwr.req with
    | some (d, mode) =>
      if m.deal < d then m
      else if mode = 1 then sysReset 3 m
      else plannedReset 3 (setPwr { m.pwr with req := none } m)
    | none => m

/-- LEAVE_DRIVES_DROP. -/
def execLeaveDrivesDrop (s : State) : Host.Outcome State Fault Refusal := onMach (fun m => resetDue (leaveDrop m)) s

/-! The render reset (R468; 08 R245, 10 R291, 11 R324, 12 R343, 14 R398; 02 R26). -/

/-- RENDER_RESET: step 3 of the boundary carries it out. -/
def renderResetEff : Eff := fun _ _ m =>
  okM (setDk { m.dk with renderDue := true } { m with pwr := { m.pwr with rrAt := some m.deal } })

/-- The frame sequencer starts anew with the rate and the intercom clusters set up. -/
def seqStart (m : Mach) : Mach :=
  let x : Frm := { rate := rd m F.GRF_DOMAIN_RATE_A, aec := rd m F.AEC_CTRL_CLUSTERS, mean := m.frm.mean, run := m.frm.run, committed := m.frm.committed }
  showBridges (setFrm x m)

/-- The render reset at step 3, in place of any cut due then. -/
def renderResetNow (m : Mach) : Mach :=
  icomCut (seqStart (annRenderReset (corrRenderReset (sceneReset (renderReset (voterReset (deckRenderReset m)))))))

/-- Step 3 of a boundary (R24): a render reset in place of any cut, or the cuts. -/
def stepThree (m : Mach) : Mach := if m.dk.renderDue then renderResetNow m else doCuts m

/-- RENDER_RESET: applied at this boundary, it takes effect at step 3 of it (R468). -/
def execRenderReset (c : Cmd) (s : State) : Host.Outcome State Fault Refusal :=
  onMach (fun m => stepThree (hostRow 0x0E01 renderResetEff c m)) s

/-- DECK_CUT: applied at this boundary, it is carried out at step 3 of it (R231). -/
def execDeckCut (c : Cmd) (s : State) : Host.Outcome State Fault Refusal :=
  onMach (fun m => stepThree (hostRow 0x0102 deckCut c m)) s

/-! The boot (R470-R472; 16 R437, R438, R451). -/

/-- Neither copy of the saved state authenticates: the device is PROVISIONED, without keys, roster, saved clock value and
announcement tables (16 R451). -/
def storeLost (m : Mach) : Mach :=
  wr F.SEC_STATE_LIFECYCLE 1 (wr F.SEC_RING_KEY_NUMBER 0 (wr F.CLK_SAVED_AGE_SEC 0xFFFFFFFF
    { m with
      sec := { pend := m.sec.pend + 1, slots := m.sec.slots.map (fun q => (q.1, { q.2 with trials := 0 })) }
      dom := {}
      clk := {}
      ann := { clips := m.ann.clips, ser := m.ann.ser } }))

/-- The saved state as the boot finds it: 0 the newer copy, 1 the older one, 2 none (16 R451). -/
def storeCheck (store : Nat) (m : Mach) : Mach :=
  if store = 0 then m
  else
    raise 0x14 0x1407 [(1, 1), (1, store - 1), (14, 0)] (wr F.SEC_FLAGS_STORE_AUTH 1 (if store = 1 then m else storeLost m))

/-- Whether slot a goes before slot b: the higher SVN, then the higher BUILD (16 R438). -/
def slotBefore (a b : BootImg) : Bool := b.svn < a.svn || (a.svn == b.svn && b.build ≤ a.build)

/-- The slot to boot, with the one passed over for its trial boots (16 R438). -/
def pickSlot (m : Mach) : Option (Nat × Option Nat) :=
  let run (k : Nat) : Option BootSlot := (mfind m.sec.slots k).filter (fun b => imageRuns b.img m)
  let first (k j : Nat) (b : BootSlot) : Nat × Option Nat := if 2 ≤ b.trials then (j, some k) else (k, none)
  match run 0, run 1 with
  | some a, some b => some (if slotBefore a.img b.img then first 0 1 a else first 1 0 b)
  | some _, none => some (0, none)
  | none, some _ => some (1, none)
  | none, none => none

/-- The set-up blocks that the board-settings section presets: RING, TIM, CLK, SAP, AES, AEC and ANN (R472). -/
def boardBlock (off : Nat) : Bool :=
  off % 4 == 0 && [0x4, 0x5, 0x8, 0x9, 0xC, 0xD, 0x12, 0x13].contains (off / 0x1000)

/-- The firmware runs: the image's numbers, the measurement, the reloaded state, the board settings, and the insertion (R472). -/
def firmwareRuns (i : BootImg) (m : Mach) : Mach :=
  let m1 := measureImage (setSec { m.sec with hashes := i.hashes, build := i.build } (wr F.SEC_SVN_RUNNING i.svn m))
  let m2 := bootDom (showLdev (showKeys (wr F.SYS_BOOT_STAGE 3 m1)))
  let m3 := enterHoldover 0 (onlyIf m2.clk.saved.isSome (wr F.CLK_STATE_SAVED_VALID 1) m2)
  let m4 := forEach ((Config.boardSettings i.build).filter (fun q => boardBlock q.1)) (fun q m => regWrite q.1 (q.2 % 2 ^ 32) m) m3
  startInsert (seqStart { m4 with sys := { m4.sys with subsys := i.subsys } })

/-- A flash slot boots; a slot on trial counts its boot, and the other slot's SVN shows as staged (16 R438). -/
def bootSlot (k : Nat) (passed : Option Nat) (m : Mach) : Mach :=
  match mfind m.sec.slots k with
  | none => m
  | some b =>
    let trial := decide (rd m F.SEC_SVN_FUSED < b.img.svn)
    let m1 := onlyIf trial (setSec { m.sec with slots := mput k { b with trials := b.trials + 1 } m.sec.slots }) m
    let staged := match mfind m.sec.slots (1 - k) with | some o => o.img.svn | none => 0
    let m2 := wr F.SEC_STATE_SLOT k (wr F.SEC_SVN_STAGED staged m1)
    let m3 := match passed.bind (fun p => (mfind m.sec.slots p).map (fun o => (p, o))) with
      | some (p, o) => raise 0x14 0x1405 [(1, k), (1, p), (1, o.img.svn), (1, o.trials), (12, 0)] (wr F.SEC_STATE_FALLBACK 1 m2)
      | none => m2
    firmwareRuns b.img m3

/-- The device waits for an image over PCIe, with Kolica's self-test passed (Table 17.6). -/
def awaitPcie (m : Mach) : Mach := wr F.SYS_BOOT_STAGE 1 { m with sys := { m.sys with pboot := true, held := some 8 } }

/-- The device waits for a power-on or pin reset. -/
def awaitReset (m : Mach) : Mach := { m with sys := { m.sys with held := some 9 } }

/-- The boot source of Table 17.5. -/
def bootFrom (m : Mach) : Mach :=
  match rd m F.SYS_STRAP_BOOT_SRC with
  | 0 => (match pickSlot m with | some p => bootSlot p.1 p.2 m | none => awaitReset m)
  | 1 => awaitPcie m
  | 2 => (match pickSlot m with | some p => bootSlot p.1 p.2 m | none => awaitPcie m)
  | _ => awaitReset m

/-- Whether a reset can end: EXTEST is not selected, and the device is in a reset or has not booted. -/
def canBoot (m : Mach) : Bool :=
  !m.sys.extest && (match m.sys.held with | some c => c ≤ 7 | none => rd m F.SYS_BOOT_STAGE == 0)

/-- The machine as it chooses its boot source: the strap sampled after a power-on or a pin reset, the flash slots and the saved state as the boot
finds them (R470; 18 R482, R485). -/
def bootState (b : BootIn) (m : Mach) : Mach :=
  let cause := rd m F.SYS_RESET_CAUSE_CAUSE
  let m1 := { m with sys := { m.sys with held := none } }
  let m2 := onlyIf (cause < 2 || cause == 7) (wr F.SYS_STRAP_BOOT_SRC (b.strap % 4)) m1
  let slots := b.slots.foldl (fun t q => if q.1 < 2 && (mfind t q.1).isNone then mput q.1 { img := q.2 } t else t) m2.sec.slots
  storeCheck b.store (setSec { m2.sec with slots := slots } m2)

/-- The end of a reset: the device boots. -/
def resetRelease (b : BootIn) (m : Mach) : Mach := if !canBoot m then m else bootFrom (bootState b m)

/-- RESET_RELEASE. -/
def execResetRelease (b : BootIn) (s : State) : Host.Outcome State Fault Refusal := onPins (resetRelease b) s

/-- The image that a PCIe boot read has been checked: it runs, or FAIL admits a new GO (R471). -/
def pbootImageChecked (i : BootImg) (m : Mach) : Mach :=
  if m.sys.pboot && flag m F.SYS_PBOOT_CTRL_GO then
    let m1 := wr F.SYS_PBOOT_CTRL_GO 0 m
    if imageRuns i m then
      firmwareRuns i (wr F.SYS_PBOOT_CTRL_DONE 1 (wr F.SYS_BOOT_PCIE_IMAGE 1 { m1 with sys := { m1.sys with pboot := false, held := none } }))
    else wr F.SYS_PBOOT_CTRL_FAIL 1 m1
  else m

/-- PBOOT_IMAGE_CHECKED. -/
def execPbootImageChecked (i : BootImg) (s : State) : Host.Outcome State Fault Refusal := onPins (pbootImageChecked i) s

/-! The resume deck (R473). -/

/-- The copy of the resume area with the larger write generation among those of a mask. -/
def newestResume (m : Mach) (mask : Nat) : Option ResumeCopy :=
  ((m.sys.resume.filter (fun q => mask.testBit q.1)).map Prod.snd).foldl
    (fun a c => match a with | some x => if x.gen < c.gen then some c else some x | none => some c) none

/-- A deck live for 60 s without a further cut is written over the older copy. -/
def resumeDeckSave (m : Mach) : Mach :=
  let d := m.dk.live
  let newest := newestResume m 3
  if flag m F.SYS_RESUME_EN && d.digest != 0 && d.cutDeal + 480000 ≤ m.deal && newest.map (fun c => c.deck) != some d then
    let gen := (newest.map (fun c => c.gen)).getD 0 + 1
    { m with sys := { m.sys with resume := mput (gen % 2) { deck := d, gen := gen } m.sys.resume } }
  else m

/-- RESUME_DECK_SAVE. -/
def execResumeDeckSave (s : State) : Host.Outcome State Fault Refusal := onMach resumeDeckSave s

/-- Once the time is locked, the newer copy that authenticates is staged, in the first slot that is free; the cut follows at a later
boundary (resumeCut). authentic has bit k set where copy k authenticates. -/
def resumeDeckRestore (authentic : Nat) (m : Mach) : Mach :=
  match newestResume m authentic with
  | none => m
  | some c =>
    if flag m F.TIM_STATE_LOCKED && !flag m F.SYS_BOOT_RESUME_VALID && rd m F.SYS_BOOT_STAGE != 0 && m.dk.live.digest == 0 &&
        m.dk.staged.isNone && m.dk.sg.isNone && m.dk.retiring.isNone then
      wr F.SYS_BOOT_RESUME_VALID 1
        (setDk { m.dk with staged := some { c.deck with origin := 0, cutDeal := 0 }, stBase := none, stReady := m.deal }
          { m with sys := { m.sys with resumeDig := c.deck.digest } })
    else m

/-- RESUME_DECK_RESTORE. -/
def execResumeDeckRestore (authentic : Nat) (s : State) : Host.Outcome State Fault Refusal := onMach (resumeDeckRestore authentic) s

/-- The cut of the resume deck: at the first boundary after it is ready and every output that has been started has locked. -/
def resumeCut (m : Mach) : Mach :=
  if flag m F.SYS_BOOT_RESUME_VALID && !flag m F.SYS_BOOT_RESUMED &&
      m.dk.staged.any (fun d => d.origin == 0 && d.digest == m.sys.resumeDig) && m.dk.stReady < m.deal &&
      m.clk.als.all (fun q => q.2.st == .stopped || q.2.st == .on) then
    let tk : Ticket := { src := .own, tag := 0, op := 0x0102, eff := m.deal, epoch := m.hif.epoch, interim := true, irq := false }
    wr F.SYS_BOOT_RESUMED 1 (doCut ⟨{ pay := [] }, tk⟩ m)
  else m

end Sys2Proof.Machine
end

