-- ==== Sys2Proof/Machine/Diag.lean ====
section
/-! DEFINITION. Supervision: supplies, junction temperature and ALERT_N (18 R486, R497-R500), ECC errors (01 R19, R502), the service
cores (15 R426, R429), and the GPIO samples (18 R482). -/
namespace Sys2Proof.Machine

/-! Supplies (R486, Tables 18.5, 18.16). -/

/-- The operating range of a rail in mV. -/
def railRange (r : Nat) : Nat × Nat :=
  [(728, 772), (776, 824), (825, 875), (1140, 1260), (1710, 1890), (3135, 3465), (1746, 1854)].getD r (0, 0)

/-- EV_SUPPLY. -/
def supplyEvent (rail phase mv : Nat) (m : Mach) : Mach :=
  raise 0x17 0x1710 [(1, rail), (1, phase), (2, mv), (2, (railRange rail).1), (2, (railRange rail).2), (8, 0)] m

/-- The bit of a rail in DIAG_SUPPLY. -/
def railBit (rail : Nat) (ok : Bool) (m : Mach) : Mach :=
  wr F.DIAG_SUPPLY_IN_RANGE (putBit (rd m F.DIAG_SUPPLY_IN_RANGE) rail ok) m

/-- A rail has left its limits: the ring pass-through set stops (R486, R22). -/
def supplyOut (rail mv : Nat) (m : Mach) : Mach :=
  if rail < 7 && (rd m F.DIAG_SUPPLY_IN_RANGE).testBit rail then
    supplyEvent rail 0 mv (alert F.DIAG_ALERT_FLAGS_SUPPLY (unitLost 0 (railBit rail false m)))
  else m

/-- SUPPLY_OUT_OF_LIMITS. -/
def execSupplyOutOfLimits (rail mv : Nat) (s : State) : Host.Outcome State Fault Refusal := onMach (supplyOut rail mv) s

/-- A rail has been back in range for 1 ms; the drives stay low until the insertion sequence (R486). -/
def supplyBack (rail mv : Nat) (m : Mach) : Mach :=
  if rail < 7 && !(rd m F.DIAG_SUPPLY_IN_RANGE).testBit rail then
    let m1 := railBit rail true m
    supplyEvent rail 1 mv (onlyIf (rd m1 F.DIAG_SUPPLY_IN_RANGE == 127) (unitBack 0) m1)
  else m

/-- SUPPLY_BACK. -/
def execSupplyBack (rail mv : Nat) (s : State) : Host.Outcome State Fault Refusal := onMach (supplyBack rail mv) s

/-! Junction temperature (R497, R499). -/

/-- A signed 16-bit field. -/
def rdS16 (m : Mach) (f : Fld) : Int := n2s 16 (rd m f)

/-- The level of WM_STICKY bit 13, with ALERT flag 1 as it rises (R497). -/
def watchTj (m : Mach) : Mach :=
  let hot := decide (rdS16 m F.DIAG_TJ_WARN_WARN ≤ rdS16 m F.DIAG_TJ_TEMP)
  watch 13 hot 0x17 0x1711 [(2, rd m F.DIAG_TJ_TEMP), (2, rd m F.DIAG_TJ_WARN_WARN), (2, rd m F.DIAG_TJ_MAX), (10, 0)]
    (onlyIf (hot && !m.hif.lvl.testBit 13) (alert F.DIAG_ALERT_FLAGS_TJ) m)

/-- THERM_N: low from THERM on, released below THERM - 8. -/
def thermPin (m : Mach) : Mach :=
  let t := rdS16 m F.DIAG_TJ_TEMP
  let th := rdS16 m F.DIAG_TJ_WARN_THERM
  let low := decide (th ≤ t) || (m.sys.therm && !decide (t < th - 8))
  if low = m.sys.therm then m else emit (.openDrain true low) { m with sys := { m.sys with therm := low } }

/-- The register that counts the seconds of a temperature band (Table 18.15). -/
def bandFld (b : Nat) : Fld :=
  if b = 0 then F.DIAG_TJ_SEC0_SEC else if b = 1 then F.DIAG_TJ_SEC1_SEC else if b = 2 then F.DIAG_TJ_SEC2_SEC else F.DIAG_TJ_SEC3_SEC

/-- A sample of 1 ms counts towards its band's seconds; 400, 460 and 500 are 100, 115 and 125 degrees C. -/
def countBand (t : Int) (m : Mach) : Mach :=
  let b := if t < 400 then 0 else if t < 460 then 1 else if t < 500 then 2 else 3
  let n := mget 0 m.sys.tjMs b + 1
  onlyIf (n == 1000) (bump (bandFld b) 1) { m with sys := { m.sys with tjMs := mset 0 b (n % 1000) m.sys.tjMs } }

/-- A measurement of the junction temperature, in units of 0.25 degrees C. -/
def tjSample (t : Int) (m : Mach) : Mach :=
  let v := n2s 16 (s2n 16 t)
  let m1 := wr F.DIAG_TJ_TEMP (s2n 16 v) (countBand v m)
  let m2 := onlyIf (decide (rdS16 m1 F.DIAG_TJ_MAX < v)) (wr F.DIAG_TJ_MAX (s2n 16 v)) m1
  watchTj (thermPin m2)

/-- TJ_SAMPLE. -/
def execTjSample (t : Int) (s : State) : Host.Outcome State Fault Refusal := onMach (tjSample t) s

/-! ECC (01 R19, R502, Tables 1.4, 1.5). -/

/-- A counter of a bank: kind 0 single-bit corrections, 1 uncorrectable errors. -/
def eccCnt (m : Mach) (bank kind : Nat) : Nat := mget 0 m.sys.ecc (2 * bank + kind)

/-- A bank's counter goes up. -/
def eccBump (bank kind : Nat) (m : Mach) : Mach :=
  { m with sys := { m.sys with ecc := mset 0 (2 * bank + kind) (eccCnt m bank kind + 1) m.sys.ecc } }

/-- A single-bit error is corrected, written back and counted (R19). -/
def eccCorrected (bank : Nat) (m : Mach) : Mach := onlyIf (bank < 64) (eccBump bank 0) m

/-- ECC_CORRECTED. -/
def execEccCorrected (bank : Nat) (s : State) : Host.Outcome State Fault Refusal := onMach (eccCorrected bank) s

/-- The row of Table 1.4. -/
def eccRow : EccHit → Nat
  | .pool .. => 1
  | .coef .. => 2
  | .corState .. => 3
  | .program .. => 4
  | .slot .. => 5
  | .stream .. => 6
  | .localMem .. => 7
  | .code => 8
  | .data => 9
  | .packet .. => 10

/-- A node that does not finish in this deal; for good says that it is silent from the next deal on, until its deck is next cut. -/
def hurtNode (for_good : Bool) (ix : Nat) (m : Mach) : Mach :=
  match nodeAt m ix with
  | none => m
  | some _ =>
    setFrm { m.frm with hurt := insertNat ix m.frm.hurt, mute := if for_good then insertNat ix m.frm.mute else m.frm.mute } m

/-- A state word of a correction set reads zero. -/
def corrStateHit (set word : Nat) (m : Mach) : Mach :=
  match m.dk.live.body.nodes.find? (fun d => d.typ == 0x0F && (match parOf m.dk.live.body d with | .set c => c == set | _ => false)) with
  | none => m
  | some d =>
    let st := mget {} m.frm.nodes d.ix
    setFrm { m.frm with nodes := mput d.ix { st with w := lset st.w word (fun _ => 0) } m.frm.nodes } m

/-- The frame that holds a failing word is discarded at every egress port where it waits, its tokens return, and it leaves the launch-time
queues. -/
def dropQueued (ident : Nat) (m0 : Mach) : Mach :=
  let m := { m0 with tim := { m0.tim with queues := (m0.tim.queues.map (fun q => (q.1, q.2.filter (fun f => f.ident != ident)))).filter (fun q => !q.2.isEmpty) } }
  forEach (List.range 4) (fun p m =>
    let gone := (egress m p).waiting.filter (fun f => f.ident == ident)
    let n := (gone.map (fun f => f.tokens)).sum
    onlyIf (!gone.isEmpty) (fun m => count p 0x0110 n (setTok p (tokFree m p + n)
      (setEgress p { egress m p with waiting := (egress m p).waiting.filter (fun f => f.ident != ident) } m))) m) m

/-- The samples of a context that a failing word holds read zero: a listener's by presentation index, a talker's by the place in its
frame buffer (row 6). -/
def streamHit (role ctx idx : Nat) (chans : List Nat) (m : Mach) : Mach :=
  let x := ctxOf m role ctx
  let cut (f : List Int) : List Int := f.mapIdx (fun c v => if chans.contains c then 0 else v)
  if role = 0 then
    (match mfind x.store idx with
     | some f => setCtx 0 ctx { x with store := mput idx (cut f) x.store } m
     | none => m)
  else onlyIf (idx < x.buf.length) (setCtx 1 ctx { x with buf := lset x.buf idx cut }) m

/-- The banks of Table 1.3 and R18 in which a failing word of a kind can stand: the delay pool in 0-31, correction coefficients and state in
32-35, bus, graph and decks in 36-43, stream buffers in 44-51, the local memory of a cluster of group g in 52 + g, the service cluster in
56-59, the packet buffer in 60-63. -/
def eccBankOk (bank : Nat) (t : EccHit) (m : Mach) : Bool :=
  match t with
  | .pool .. => bank < 32
  | .coef .. | .corState .. => 32 ≤ bank && bank < 36
  | .program .. | .slot .. => 36 ≤ bank && bank < 44
  | .stream .. => 44 ≤ bank && bank < 52
  | .localMem node => (match nodeAt m node with | some d => bank == 52 + d.cluster % 16 / 4 | none => 52 ≤ bank && bank < 56)
  | .code | .data => 56 ≤ bank && bank < 60
  | .packet .. => 60 ≤ bank && bank < 64

/-- The action of Table 1.4. A firmware page is reloaded from its verified image, and a copy that resynchronises the cores is under way; an
error in service data drops the drives and resets the device (17 R474). -/
def eccAct (bank word : Nat) (t : EccHit) (m : Mach) : Mach :=
  match t with
  | .pool line idx => (match mfind m.rend.lines line with
    | some x => setLine line { x with data := mdel idx (mdel (idx + 1) x.data) } m
    | none => m)
  | .coef set => corrMute set bank word m
  | .corState set w => corrStateHit set w m
  | .program nodes => forEach nodes (hurtNode true) m
  | .slot s => onlyIf (s < 4096) (fun m => setFrm { m.frm with zero := insertNat s m.frm.zero } m) m
  | .stream l => forEach l (fun q => streamHit q.1 q.2.1 q.2.2.1 q.2.2.2) m
  | .localMem node => hurtNode false node m
  | .code => wr F.DIAG_SVC_STAT_RESYNC 1 m
  | .data => sysReset 6 (unitLost 4 m)
  | .packet none => m
  | .packet (some q) => dropQueued q.2 (onlyIf (q.1 < 4) (count q.1 0x0109 1) m)

/-- A double-bit error is counted, raises EV_ECC_UNCORRECTED and is handled by its region (R19, R502). No word of a region stands in
another region's banks (R17). -/
def eccUncorrected (bank word : Nat) (t : EccHit) (m : Mach) : Mach :=
  if !eccBankOk bank t m then m
  else
    let m1 := eccBump bank 1 m
    eccAct bank word t (alert F.DIAG_ALERT_FLAGS_ECC
      (raise 0x15 0x1501 [(1, bank), (1, eccRow t), (2, 0), (4, word), (4, eccCnt m1 bank 0 % 2 ^ 32), (4, eccCnt m1 bank 1 % 2 ^ 32)] m1))

/-- ECC_UNCORRECTED. -/
def execEccUncorrected (bank word : Nat) (t : EccHit) (s : State) : Host.Outcome State Fault Refusal := onMach (eccUncorrected bank word t) s

/-! The service cores (15 R426, R429, Table 15.7). -/

/-- EV_SVC_DISSENT. -/
def svcEvent (core phase : Nat) (m : Mach) : Mach :=
  raise 0x12 0x1201 [(1, core), (1, phase), (2, 0), (4, rd m F.DIAG_SVC_RESTART_COUNT), (8, 0)] m

/-- A core dissents: it leaves the vote and a copy into it is under way; a further dissent restarts a copy, and two cores that
disagree leave the cluster without a majority. -/
def svcDissent (k : Nat) (m : Mach) : Mach :=
  if 3 ≤ k then m
  else
    let v := rd m F.DIAG_SVC_STAT_VOTING
    let m1 := bumpi F.DIAG_SVC_DIS_COUNT k 1 m
    let m2 := onlyIf (flag m F.DIAG_SVC_STAT_RESYNC) (bump F.DIAG_SVC_RESTART_COUNT 1) m1
    let m3 := svcEvent k 0 (alert F.DIAG_ALERT_FLAGS_SVC m2)
    if !v.testBit k then m3
    else if v = 7 then wr F.DIAG_SVC_STAT_RESYNC 1 (wr F.DIAG_SVC_STAT_VOTING (clrBit v k) m3)
    else sysReset 4 (unitLost 4 (svcEvent k 2 m3))

/-- SVC_CORE_DISSENT. -/
def execSvcCoreDissent (k : Nat) (s : State) : Host.Outcome State Fault Refusal := onMach (svcDissent k) s

/-- The copy into a core is complete, and it votes again; where all vote, the copy after the reload of a firmware page is (01 Table 1.4). -/
def svcResync (k : Nat) (m : Mach) : Mach :=
  let v := rd m F.DIAG_SVC_STAT_VOTING
  if v = 7 then wr F.DIAG_SVC_STAT_RESYNC 0 m
  else if k < 3 && flag m F.DIAG_SVC_STAT_RESYNC && !v.testBit k then
    svcEvent k 1 (wr F.DIAG_SVC_STAT_RESYNC 0 (wr F.DIAG_SVC_STAT_VOTING (setBit v k) m))
  else m

/-- SVC_RESYNC_DONE. -/
def execSvcResyncDone (k : Nat) (s : State) : Host.Outcome State Fault Refusal := onMach (svcResync k) s

/-! GPIO (18 R482). -/

/-- The samples of a boundary: the driven level at an output, the pin's at an input; a run counts the deals that a sample has kept
its level. Then the driven levels follow GPIO_OUT. -/
def gpioTick (pins : Nat) (m : Mach) : Mach :=
  let dir := rd m F.GPIO_DIR_OUT
  let old := rd m F.GPIO_IN_LEVEL
  let new := (dir &&& m.gpio.drive) ||| andNot 32 (pins % 2 ^ 32) dir
  let first := !m.gpio.sampled
  let run := (List.range 32).foldl (fun t n =>
    mset 0 n (if first || old.testBit n != new.testBit n then 0 else min 8 (mget 0 t n + 1)) t) m.gpio.run
  let m1 := onlyIf (!first) (fun m => orReg F.GPIO_RISE_FLAG (andNot 32 new old) (orReg F.GPIO_FALL_FLAG (andNot 32 old new) m)) m
  let out := rd m F.GPIO_OUT_LEVEL
  onlyIf (out != m.gpio.drive) (emit (.gpio dir (out &&& dir)))
    (wr F.GPIO_IN_LEVEL new { m1 with gpio := { drive := out, run := run, sampled := true } })

end Sys2Proof.Machine
end

