-- ==== Sys2Proof/Machine/Commands.lean ====
section
/-! DEFINITION. The command interpreter (03 R55-R71, R78, R506; 02 R41-R44; 15 R410-R412, R417, R423): queries, the poll, commands held
behind a shutdown, and commands that come and go over Heivo. -/
namespace Sys2Proof.Machine

/-! LATENCY_QUERY (02 R41-R44). -/

/-- What a path has gathered: stage, node and bridge latency in samples, whether it passed the renderer or a rate bridge, and the
geometric delays in 1/256 sample of the active pairs that it passed. -/
structure Leg where
  stage : Nat := 0
  node : Nat := 0
  bridge : Nat := 0
  rend : Bool := false
  brid : Bool := false
  geo : List Int := []
deriving DecidableEq, Repr

/-- Two legs in a row. -/
def Leg_add (a b : Leg) : Leg :=
  { stage := a.stage + b.stage, node := a.node + b.node, bridge := a.bridge + b.bridge, rend := a.rend || b.rend, brid := a.brid || b.brid,
    geo := a.geo ++ b.geo }

/-- The sum of a leg's latencies. -/
def Leg_total (a : Leg) : Nat := a.stage + a.node + a.bridge

/-- The geometric delays of an object's active pairs with the loudspeaker of a render slot (11 R299). -/
def pairDelays (m : Mach) (obj slot : Nat) : List Int :=
  (m.rend.pairs.filter (fun q => q.1 / 256 == obj && q.2.st != 0 &&
    (m.dk.live.body.speakers.bind (fun sp => sp.ents[q.1 % 256]?)).any (fun e => e.slot == slot))).map (fun q => q.2.d1)

/-- The group delay of an A-B bridge in samples of domain A (02 Table 2.2). -/
def abDelay (m : Mach) : Nat := if m.frm.rate = 1 then 80 else 40

/-- What the read of a slot by a node adds: a deal where a node of no lower index writes it (08 R219), or the tap engine does and the
reader is no correction node (08 R216). -/
def readCost (m : Mach) (d : NodeD) (x : Nat) : Nat :=
  if m.dk.live.body.nodes.any (fun w => w.outs.contains x && d.ix ≤ w.ix) || (roleOf m x == 4 && d.typ != 0x0F) then spd m else 0

/-- The legs from a slot to the slots that its readers write. -/
def hops (m : Mach) (x : Nat) : List (Nat × Leg) :=
  let b := m.dk.live.body
  (b.nodes.filter (fun d => d.ins.contains x)).flatMap (fun d =>
    let r := readCost m d x
    if d.typ = 0x0D then
      let obj := match parOf b d with | .object o => o | _ => 0xFFFF
      (roleSlots b 4).map (fun o => (o, { stage := spd m, node := r, rend := true, geo := pairDelays m obj o }))
    else if d.typ = 0x0F then d.outs.map (fun o => (o, { stage := spd m }))
    else d.outs.map (fun o => (o, { node := r + nodeLatency (spd m) d (parOf b d) b.kernels }))) ++
  (voterEdges b).flatMap (fun e => if e.ins.contains x then [(e.out, ({} : Leg))] else [])

/-- The legs of the paths from a slot, each slot passed once; goal gives the ends of paths at a slot. -/
def legsFrom (m : Mach) (goal : Nat → List Leg) : Nat → List Nat → Nat → List Leg
  | 0, _, _ => []
  | n + 1, seen, x =>
    goal x ++ (hops m x).flatMap (fun h =>
      if seen.contains h.1 then [] else (legsFrom m goal n (h.1 :: seen) h.1).map (Leg_add h.2))

/-- The bridge nodes of a port slot: receiving ones write a slot, transmitting ones read one (13 R358). -/
def bridgeNodes (m : Mach) (dir slot : Nat) (rx : Bool) : List NodeD :=
  m.dk.live.body.nodes.filter (fun d => rx != d.outs.isEmpty && (match parOf m.dk.live.body d with
    | .bridge _ q s => q == dir && s == slot
    | _ => false))

/-- The slots at which the paths of a port receiver begin; a domain-A receiver adds a deal among the node latency (13 R359). -/
def rxStarts (m : Mach) (dir slot : Nat) : List (Nat × Leg) :=
  match mfind m.sap.dirs dir with
  | none => []
  | some x =>
    if x.domA then (if slot < x.slots && roleOf m (x.base + slot) = 3 then [(x.base + slot, { node := spd m })] else [])
    else (bridgeNodes m dir slot true).flatMap (fun d => d.outs.map (fun o => (o, { bridge := abDelay m, brid := true })))

/-- The slots at which the paths of a source begin (Table 2.7), none where its indices are out of range. -/
def pathStarts (m : Mach) (kind idx ch : Nat) : Option (List (Nat × Leg)) :=
  let b := m.dk.live.body
  match kind with
  | 0 =>
    if idx < 1024 && ch < 64 then
      some ((m.str.chmap.filter (fun p => p.2.kind == 1 && p.2.st == 1 && p.2.ctx == idx && p.2.ch == ch)).map (fun p => (p.2.slot, {})))
    else none
  | 1 => if idx < 16 && ch < 32 then some (rxStarts m idx ch) else none
  | 2 => if idx < 8 && ch < 2 then some (rxStarts m (32 + idx) ch) else none
  | 3 =>
    if 1024 ≤ idx || ch != 0 then none
    else match mfind m.ann.msgs idx with
      | none => some []
      | some d =>
        let br := needsBridge m d
        let l : Leg := { node := if br then acDelay m else 0, brid := br }
        some ((b.nodes.filter (fun n => match parOf b n with | .ann z => d.zones.contains z | _ => false)).flatMap
          (fun n => n.outs.map (fun o => (o, l))))
  | 4 =>
    if idx < objCount m then
      some (if b.nodes.any (fun n => match parOf b n with | .object o => o == idx | _ => false)
        then (roleSlots b 4).map (fun o => (o, { stage := spd m, rend := true, geo := pairDelays m idx o })) else [])
    else none
  | 5 => if idx < 4096 then some [(idx, {})] else none
  | _ => none

/-- The ends of paths at a transmitter. -/
def txEnds (m : Mach) (dir slot x : Nat) : List Leg :=
  match mfind m.sap.dirs dir with
  | none => []
  | some t =>
    if t.domA then
      (if slot < t.slots && x = t.base + slot && roleOf m x != 0 && roleOf m x != 4 then [{ stage := spd m }] else [])
    else ((bridgeNodes m dir slot false).filter (fun d => d.ins.contains x)).map
      (fun d => { stage := spd m, node := readCost m d x, bridge := abDelay m, brid := true })

/-- The ends of paths at a consumer, none where its indices are out of range. A talker takes the image of its own deal (07 R199). -/
def pathEnds (m : Mach) (kind idx ch : Nat) : Option (Nat → List Leg) :=
  match kind with
  | 0 => if idx < 16 && ch < 32 then some (txEnds m (16 + idx) ch) else none
  | 1 => if idx < 8 && ch < 2 then some (txEnds m (40 + idx) ch) else none
  | 2 =>
    if idx < 1024 && ch < 64 then
      some (fun x => if m.str.chmap.any (fun p => p.2.kind == 2 && p.2.st == 1 && p.2.ctx == idx && p.2.ch == ch && p.2.slot == x)
        then [{}] else [])
    else none
  | 3 => if idx < 4096 then some (fun x => if x = idx then [{}] else []) else none
  | _ => none

/-- The result of Table 2.8 over the legs of all paths; the geometric delays are the range over the active pairs of the paths (R42;
11 R299), and free values where a rendered path has no active pair, for which the manual states no range. -/
def latencyResult (ls : List Leg) (jit ofs : Nat) (m : Mach) : Mach × Pay :=
  let long := ls.foldl (fun a l => if Leg_total a < Leg_total l then l else a) {}
  let short := minOf (Leg_total long) (ls.map Leg_total)
  let rend := ls.any (fun l => l.rend)
  let none_ := ls.isEmpty
  let j := if none_ then 0 else jit
  let o := if none_ then 0 else ofs
  let flags := b2n none_ + 2 * b2n (1 < ls.length) + 4 * b2n rend + 8 * b2n (ls.any (fun l => l.brid)) +
    16 * b2n (m.dk.fadeLeft != 0 || m.frm.faded != [] || m.vote.faded != [])
  let geo := (ls.flatMap (fun l => l.geo)).map (fun d => s2n 32 d)
  let open_ := rend && geo.isEmpty
  let free (k : Nat) : Nat := if open_ then (Config.freeWord (m.fresh + k)).toNat else 0
  (useFresh (if open_ then 2 else 0) m,
    [(4, flags), (4, if none_ then 0 else j + o + short), (4, if none_ then 0 else j + o + Leg_total long), (4, j), (4, o),
     (4, long.stage), (4, long.node), (4, long.bridge), (4, if geo.isEmpty then free 0 else geo.foldl min (geo.headD 0)),
     (4, if geo.isEmpty then free 1 else geo.foldl max 0), (8, m.deal), (8, liveDigest m), (8, 0)])

/-- LATENCY_QUERY (R43, R44). -/
def latencyQuery : Eff := fun c _ m =>
  if bufLen c < 64 || !bufOk c true m then bad m
  else match pathStarts m (u8 c 24) (u16 c 26) (u16 c 28), pathEnds m (u8 c 25) (u16 c 30) (u16 c 32) with
    | some st, some goal =>
      let ls := st.flatMap (fun q => (legsFrom m goal 4097 [q.1] q.1).map (Leg_add q.2))
      let x := ctxOf m 0 (u16 c 26)
      let net := u8 c 24 == 0
      let r := latencyResult ls (if net then x.depth * spd m else 0) (if net then x.ofs else 0) m
      (r.1, { res := r.2 })
    | _, _ => bad m

/-- LATENCY_QUERY. -/
def execLatencyQuery (c : Cmd) (s : State) : Host.Outcome State Fault Refusal := onMach (hostRow 0x0A01 latencyQuery c) s

/-! COUNTER_QUERY (03 R69; 01 R19, R23; 02 R48; 09 R266). -/

/-- Group 3: a bridge channel's books since its allocation by the live deck (02 R48). -/
def bridgeCounters (i : Nat) (m : Mach) : Option (List (Nat × Nat)) :=
  if 128 ≤ i then none
  else some ((List.range 4).map (fun k => (0x0A01 + k, mget 0 m.frm.brCnt (4 * i + k))))

/-- Group 5: a bank's ECC counts, and for the cluster banks the cycles lost to arbitration (09 R266). -/
def bankCounters (i : Nat) (m : Mach) : Option (List (Nat × Nat)) :=
  if 64 ≤ i then none
  else some ([(0x1511, eccCnt m i 0), (0x1512, eccCnt m i 1)] ++
    (if 52 ≤ i && i ≤ 55 then (List.range 6).map (fun k => (0x0C01 + k, mget 0 m.frm.retry (6 * (i - 52) + k))) else []))

/-- The counters of a group's instance, and the machine after the read. -/
def countersOf (group i : Nat) (m : Mach) : Option (List (Nat × Nat)) × Mach :=
  match group with
  | 0 => (hifCounters m i, m)
  | 1 => streamCounters 0 i m
  | 2 => streamCounters 1 i m
  | 3 => (bridgeCounters i m, m)
  | 4 => (portDirCounters m i, m)
  | 5 => (bankCounters i m, m)
  | 6 => (portCounters m i, m)
  | 7 => (classCounters m i, m)
  | 8 => (if i = 0 then some (poolCounters m) else none, m)
  | 9 => if i = 0 then (some (deckCounters m), m) else if 0x0100 ≤ i then meterCounters (i - 0x0100) m else (none, m)
  | 10 => (fifoCounters m i, m)
  | _ => (none, m)

/-- COUNTER_QUERY. -/
def counterQuery : Eff := fun c _ m =>
  if bufLen c < 16 || !bufOk c true m then bad m
  else
    let r := countersOf (u8 c 24) (u16 c 26) m
    match r.1 with
    | none => bad m
    | some l => (r.2, { res := counterResult m.deal (u8 c 24) (u16 c 26) (bufLen c) l })

/-- COUNTER_QUERY. -/
def execCounterQuery (c : Cmd) (s : State) : Host.Outcome State Fault Refusal := onMach (hostRow 0x0A02 counterQuery c) s

/-- EVENT_DROP_PACKET: no packet is in progress at a boundary (R78). -/
def eventDropPacket : Eff := fun c _ m => if 7 < u8 c 24 || eqSize m.hif (u8 c 24) = 0 then bad m else okM m

/-- EVENT_DROP_PACKET. -/
def execEventDropPacket (c : Cmd) (s : State) : Host.Outcome State Fault Refusal := onMach (hostRow 0x0B01 eventDropPacket c) s

/-! The catalogue (03 Table 3.9). -/

/-- The effect of an opcode, none for one that the catalogue does not list (R68). -/
def effOf (op : Nat) : Option Eff :=
  match op with
  | 0x0101 | 0x0204 | 0x0301 => some stageCmd
  | 0x0102 => some deckCut
  | 0x0103 => some deckDigest
  | 0x0201 => some trajPush
  | 0x0202 => some trajClear
  | 0x0203 => some objSet
  | 0x0302 => some measureRun
  | 0x0401 => some streamOpen
  | 0x0402 => some streamClose
  | 0x0403 => some chmapWrite
  | 0x0501 => some portStartGroup
  | 0x0502 => some portStop
  | 0x0601 => some refConfig
  | 0x0602 => some rampLoad
  | 0x0701 => some clipWrite
  | 0x0702 => some msgDefine
  | 0x0703 => some schedWrite
  | 0x0704 => some annPlay
  | 0x0705 => some annStop
  | 0x0706 => some trumpClear
  | 0x0801 => some icomConnect
  | 0x0901 => some powerTolerance
  | 0x0A01 => some latencyQuery
  | 0x0A02 => some counterQuery
  | 0x0A03 => some timeQuery
  | 0x0B01 => some eventDropPacket
  | 0x0C01 => some rosterLoad
  | 0x0C02 => some seatAdmit
  | 0x0C03 => some seatEvict
  | 0x0D01 => some keyRotate
  | 0x0D02 => some fwStage
  | 0x0E01 => some renderResetEff
  | 0x0E02 => some systemReset
  | _ => none

/-- The first deal at which a command taken in this deal is eligible (R61). -/
def firstDeal (c : Cmd) (m : Mach) : Nat := m.deal + (if Cmd_signed c then 16 else 1)

/-- A descriptor is judged at its take (R58-R62, R68). -/
def judgeDesc (q : Nat) (d : Desc) (m : Mach) : Mach :=
  let c : Cmd := { d.cmd with src := .ring q }
  match effOf d.op with
  | some eff => admitCmd d.op eff (firstDeal c m) c m
  | none => final (ticket d.op (firstDeal c m) c m) stBadArg m

/-! The poll (R55, R66, R67, R80, R507). -/

/-- The fill of an event ring is judged as a watched level (R80, R507). -/
def watchEq (e : Nat) (m : Mach) : Mach :=
  watch (1 + e) (eqHigh m.hif e) 0x13 0x1304 [(1, e), (1, hlat m.hif F.HIF_EQ_CTRL_WM e), (2, eqFill m.hif e), (4, 0), (8, 0)] m

/-- Every watched level is judged as if it lay below its watermark before (R507). -/
def rejudgeLevels (m : Mach) : Mach :=
  forEach (List.range 8) watchEq
    (watchTj (watchStore (watchHold (watchPool (watchJitter (watchLoad { m with hif := { m.hif with lvl := 0 } }))))))

/-- The polls that have been made in the present deal. -/
def pollsDone (m : Mach) : Nat := if m.hif.pollDeal = m.deal then m.hif.polls else 0

/-- Whether a poll may be made: the interface runs, its first poll's deal has come, and the deal has one poll, or four with POLL4
(R53, R55). -/
def pollDue (m : Mach) : Bool :=
  running m && m.hif.pollFrom ≤ m.deal && pollsDone m < (if lat m F.HIF_CTRL_POLL4 0 = 1 then 4 else 1)

/-- A poll: the pages are read, descriptors taken, waiting records written, then the status page, then the vectors. -/
def poll (p : PollIn) (m : Mach) : Mach :=
  if !pollDue m then m
  else
    let first := m.hif.firstPoll
    let m0 := { m with hif := { m.hif with pollDeal := m.deal, polls := pollsDone m + 1 } }
    let m1 := takeCons p (onlyIf first rejudgeLevels (showCrossings (takeAck p m0)))
    fireDue (writeStatus (fifoDrain (forEach (List.range 16) (serveRing judgeDesc p) m1)))

/-- DOORBELL_POLL. -/
def execDoorbellPoll (p : PollIn) (s : State) : Host.Outcome State Fault Refusal := onMach (poll p) s

/-- The commands held behind a shutdown that has completed are applied, in the order they came; one that another shutdown meets is
held on (17 R465). -/
def heldRelease (m : Mach) : Mach :=
  forEach m.hif.stopped (fun h m => match effOf h.tk.op with
    | some eff => runEff eff h m
    | none => m) { m with hif := { m.hif with stopped := [] } }

/-- HELD_COMMAND_RELEASE. -/
def execHeldCommandRelease (s : State) : Host.Outcome State Fault Refusal := onMach heldRelease s

/-! Requests over Heivo (03 R70, R71, R506; 06 R165; 15 R410-R412, R417). -/

/-- A reply to a requesting seat. -/
def replyTo (seat tunId st : Nat) (d : Desc) (m : Mach) : Mach :=
  sendReply seat tunId { tag := d.cmd.tag, op := d.op, status := st, deal := m.deal, result := [] } m

/-- A managing member stamps a command of another seat (R410, R412, R506). -/
def stampFor (seat tunId : Nat) (eff : Eff) (d : Desc) (m : Mach) : Mach :=
  if flag m F.DOM_STATE_FROZEN && !Cmd_signed d.cmd then replyTo seat tunId stNotMember d m
  else
    let at_ := stampDeal d.cmd m
    let seq := nextSeq m
    let c : Cmd := { d.cmd with deal := at_ }
    let here := c.target == 0xFFFF || forSelf m c
    let go (m : Mach) : Mach :=
      let m1 := sendStamped tunId seq d.op c { m with out := .stampAck seat tunId at_ :: m.out }
      if here then
        let tk : Ticket := { src := .tunnel seat tunId seq, tag := c.tag, op := d.op, eff := at_, epoch := m.hif.epoch, interim := false, irq := false }
        accept eff { cmd := { c with src := .tunnel seat tunId seq }, tk := tk } at_ false m1
      else m1
    let tk0 : Ticket := { src := .tunnel seat tunId 0, tag := c.tag, op := d.op, eff := at_, epoch := m.hif.epoch, interim := false, irq := false }
    if here then checked { cmd := { c with src := .tunnel seat tunId 0 }, tk := tk0 } go m else go m

/-- A request that no manager has stamped: for this seat it is taken here, for the active manager it is stamped. -/
def plainRequest (seat tunId : Nat) (d : Desc) (m : Mach) : Mach :=
  let c : Cmd := { d.cmd with src := .tunnel seat tunId 0 }
  match effOf d.op with
  | none => replyTo seat tunId stBadArg d m
  | some eff =>
    if !reservedOk d.op c then replyTo seat tunId stBadArg d m
    else if Cmd_tunnel c || c.target = 0xFFFF then
      (if managing m then stampFor seat tunId eff d m
       else if ownIdx m != 3 && flag m F.DOM_STATE_FROZEN && !Cmd_signed c then replyTo seat tunId stNotMember d m
       else m)
    else if forSelf m c then admitCmd d.op eff (firstDeal c m) c m
    else m

/-- A member forwards a stamped command to a member that hears its stamper only by relay (R417). -/
def relayStamped (tunId seq : Nat) (d : Desc) (m : Mach) : Mach :=
  let x := seq / 2 ^ 30
  if ownIdx m = 3 || !directly m x then m
  else
    forEach ([0, 1, 2].filter (fun y => y != x && y != ownIdx m && directly m y && !(peer m y).reach.testBit x))
      (fun y m => sendReq (trioAt m y) tunId seq d.op d.cmd m) m

/-- A stamped command that arrives after the boundary of its deal (R411). -/
def lateStamped (op seq eff : Nat) (m : Mach) : Mach :=
  raise 0x17 0x170A [(2, op), (2, min 0xFFFF (m.deal + 1 - eff)), (4, seq), (8, eff)]
    (wr F.DOM_FLAGS_CMD_LATE 1 (bump F.DOM_LATE_CNT_COUNT 1 m))

/-- The fields of the domain's buffer of a copy in progress (R423). -/
def bufferStamped (seq : Nat) (d : Desc) (m : Mach) : Mach :=
  match m.dom.copy with
  | some c =>
    if c.buffered.any (fun x => x.seq == seq) then m
    else setDom { m.dom with copy := some { c with buffered := c.buffered ++ [{ seq := seq, eff := d.cmd.deal, d := d }] } } m
  | none => m

/-- A stamped command that this seat has not had before (R410, R411): a member logs it, and a target applies it. While a copy is being
received, one whose deal has passed is left to the replay. -/
def newStamped (seat tunId seq : Nat) (d : Desc) (m : Mach) : Mach :=
  let m1 := relayStamped tunId seq d (onlyIf (ownIdx m != 3)
    (fun m => setDom { m.dom with log := m.dom.log ++ [{ seq := seq, eff := d.cmd.deal, d := d }] } m) m)
  let c : Cmd := { d.cmd with src := .tunnel seat tunId seq }
  let late := decide (d.cmd.deal ≤ m.deal)
  match effOf d.op with
  | none => m1
  | some eff =>
    if !(c.target == 0xFFFF || forSelf m c) || (late && m.dom.copy.isSome) then m1
    else
      let src : Src := if c.target = 0xFFFF then .own else c.src
      let tk : Ticket := { src := src, tag := c.tag, op := d.op, eff := c.deal, epoch := m.hif.epoch, interim := false, irq := false }
      let m2 := onlyIf (late && onGrid m1) (lateStamped d.op seq c.deal) m1
      if c.deal != 0 && !onGrid m1 then final tk stNotMember m2
      else if !reservedOk d.op c || (d.op = 0x0102 && !cutArgsOk c) then final tk stBadArg m2
      else checked ⟨c, tk⟩ (accept eff ⟨c, tk⟩ (max (m.deal + 1) c.deal) false) m2

/-- The key under which a request counts as had already: the requester's serial number, or the stamp (06 R165, 15 R417). -/
def tunKey (r : TunnelReq) : Nat × Nat := if r.mgrSeq = 0 then (r.seat, r.tunId) else (65536, r.mgrSeq)

/-- A whole request. -/
def wholeRequest (r : TunnelReq) (m : Mach) : Mach :=
  let had := m.hif.seen.contains (tunKey r)
  let m1 := if had then m else { m with hif := { m.hif with seen := m.hif.seen ++ [tunKey r] } }
  if r.mgrSeq = 0 then (if had then m1 else plainRequest r.seat r.tunId r.whole m1)
  else
    let m2 := bufferStamped r.mgrSeq r.whole m1
    if had then m2 else newStamped r.seat r.tunId r.mgrSeq r.whole m2

/-- A fragment of a request: the first copy of each is kept (06 R165). A seat that is no member takes none. -/
def tunnelRequest (r : TunnelReq) (m : Mach) : Mach :=
  if !member m || r.cnt ≤ r.idx then m
  else
    let mine (a : Assembly) : Bool := a.seat == r.seat && a.tunId == r.tunId
    let old := (m.hif.assemblies.find? mine).getD { seat := r.seat, tunId := r.tunId, first := m.deal, got := [] }
    let a : Assembly := { old with got := insertNat r.idx old.got }
    let rest := m.hif.assemblies.filter (fun x => !mine x)
    if a.got.length < r.cnt then { m with hif := { m.hif with assemblies := rest ++ [a] } }
    else wholeRequest r { m with hif := { m.hif with assemblies := rest } }

/-- TUNNEL_REQUEST_RECEIVE. -/
def execTunnelRequestReceive (r : TunnelReq) (s : State) : Host.Outcome State Fault Refusal := onMach (tunnelRequest r) s

/-- A request still incomplete 64 deals after its first fragment is discarded (06 R165). -/
def reassemblyDiscard (seat tunId : Nat) (m : Mach) : Mach :=
  { m with hif := { m.hif with assemblies := m.hif.assemblies.filter (fun a => !(a.seat == seat && a.tunId == tunId && a.first + 64 ≤ m.deal)) } }

/-- TUNNEL_REASSEMBLY_DISCARD. -/
def execTunnelReassemblyDiscard (seat tunId : Nat) (s : State) : Host.Outcome State Fault Refusal := onMach (reassemblyDiscard seat tunId) s

/-- The sent commands without one. -/
def dropSent (tunId : Nat) (m : Mach) : Mach := { m with hif := { m.hif with sent := m.hif.sent.filter (fun x => x.tunId != tunId) } }

/-- A sent command that is out and waits for its reply. -/
def sentOf (m : Mach) (tunId : Nat) : Option Sent := m.hif.sent.find? (fun x => x.tunId == tunId && !x.waiting)

/-- The fragments of a reply that have come, the first copy of each counting (06 R165). -/
def replyGot (r : TunnelRep) (m : Mach) : Assembly :=
  let old := (m.hif.replies.find? (fun a => a.tunId == r.tunId)).getD { seat := ownSeat m, tunId := r.tunId, first := m.deal, got := [] }
  { old with got := insertNat r.idx old.got }

/-- The machine with what has come of a reply, none once it is whole or its command has completed. -/
def setReplies (tunId : Nat) (a : Option Assembly) (m : Mach) : Mach :=
  { m with hif := { m.hif with replies := m.hif.replies.filter (fun x => x.tunId != tunId) ++ a.toList } }

/-- A fragment of a tunnel reply. Once the reply is whole its result data go to the local buffer, and the final completion is written with its
status and deal; a reply to a command that has completed is discarded (R70, R71). -/
def tunnelReply (r : TunnelRep) (m0 : Mach) : Mach :=
  match sentOf m0 r.tunId with
  | none => m0
  | some x =>
    if r.cnt ≤ r.idx then m0
    else if (replyGot r m0).got.length < r.cnt then setReplies r.tunId (some (replyGot r m0)) m0
    else
    let m := setReplies r.tunId none m0
    let m1 := dropSent r.tunId m
    let m2 := if live x.tk m1 && r.result != [] then { m1 with out := .dma (bufAddr x.cmd) r.result :: m1.out } else m1
    completeWith x.tk r.status r.deal (if x.tk.interim then 1 else 2) x.tk.irq [] m2

/-- TUNNEL_REPLY_RECEIVE. -/
def execTunnelReplyReceive (r : TunnelRep) (s : State) : Host.Outcome State Fault Refusal := onMach (tunnelReply r) s

/-- The stamper's acknowledgement: PENDING with the stamped deal where INTERIM is set (R506). -/
def stamperAck (tunId stamped : Nat) (m : Mach) : Mach :=
  match sentOf m tunId with
  | none => m
  | some x =>
    if Cmd_interim x.cmd then
      let m1 := interim x.tk stPending stamped m
      { m1 with hif := { m1.hif with
          sent := m1.hif.sent.map (fun y => if y.tunId = tunId then { y with tk := { y.tk with interim := true } } else y) } }
    else m

/-- STAMPER_ACK_RECEIVE. -/
def execStamperAckReceive (tunId stamped : Nat) (s : State) : Host.Outcome State Fault Refusal := onMach (stamperAck tunId stamped) s

/-- No reply within HIF_TUNNEL_TMO deals (R71, R412); the timeout in force is that of the enable. -/
def tunnelTimeout (tunId : Nat) (m : Mach) : Mach :=
  let tmo := hifDeals m F.HIF_TUNNEL_TMO_DEALS
  match m.hif.sent.find? (fun x => x.tunId == tunId) with
  | none => m
  | some x => if x.since + tmo ≤ m.deal then final x.tk stNotMember (dropSent tunId m) else m

/-- TUNNEL_TIMEOUT. -/
def execTunnelTimeout (tunId : Nat) (s : State) : Host.Outcome State Fault Refusal := onMach (tunnelTimeout tunId) s

/-- A command that waits for a manager: this member stamps it, or it leaves for the active manager (R412). -/
def sendWaiting (x : Sent) (m : Mach) : Mach :=
  match effOf x.tk.op with
  | none => m
  | some eff =>
    if managing m then stampOwn eff ⟨x.cmd, x.tk⟩ (dropSent x.tunId m)
    else if mgrSeat m = 0xFFFF then m
    else
      sendReq (mgrSeat m) x.tunId 0 x.tk.op x.cmd
        { m with hif := { m.hif with
            sent := m.hif.sent.map (fun y => if y.tunId = x.tunId then { y with waiting := false, since := m.deal } else y) } }

/-- Every command that waits for a manager. -/
def sendAllWaiting (m : Mach) : Mach := forEach (m.hif.sent.filter (fun x => x.waiting)) sendWaiting m

/-! Application of the commands due at a boundary (02 R46, 15 R413). -/

/-- The last MGR_SEQ applied from a trio index. -/
def notePast (src : Src) (m : Mach) : Mach :=
  match src with
  | .tunnel _ _ seq => if seq = 0 then m else setDom { m.dom with last := mset 0 (seq / 2 ^ 30) seq m.dom.last } m
  | _ => m

/-- The order of R46: tunnelled commands by their stamps, then the local host's by ring, each in the order they came. -/
def applyKey (h : Held) : Nat :=
  match h.cmd.src with
  | .tunnel _ _ seq => seq
  | .ring q => 2 ^ 32 + q
  | .own => 2 ^ 33

/-- Held commands in order of application; the sort is stable. -/
def insertHeld (h : Held) : List Held → List Held
  | [] => [h]
  | x :: t => if applyKey h < applyKey x then h :: x :: t else x :: insertHeld h t

/-- A held command is applied. -/
def applyOne (h : Held) (m : Mach) : Mach :=
  match effOf h.tk.op with
  | some eff => notePast h.cmd.src (applyHeld eff h m)
  | none => m

/-- The commands that act on the live deck: DECK_DIGEST, MEASURE_RUN, ICOM_CONNECT and LATENCY_QUERY. Applied at a boundary they act on the
deck that runs in the deal, which a cut of the same boundary makes live (R24, R43). -/
def onLiveDeck (op : Nat) : Bool := [0x0103, 0x0302, 0x0801, 0x0A01].contains op

/-- The held commands of a kind whose deal has come are applied, until a reset ends it (R46). -/
def applyDueIf (p : Nat → Bool) (m : Mach) : Mach :=
  let now (h : Held) : Bool := decide (h.cmd.deal ≤ m.deal) && p h.tk.op
  forEach ((m.hif.held.filter now).foldl (fun l h => insertHeld h l) []) (fun h x => if x.hif.epoch = m.hif.epoch then applyOne h x else x)
    (setHeld (m.hif.held.filter (fun h => !now h)) m)

/-- Step 2 of a boundary, but for the commands that act on the deck of step 3. -/
def applyDue : Mach → Mach := applyDueIf (fun op => !onLiveDeck op)

/-- The commands of step 2 that act on the deck of step 3. -/
def applyOnDeck : Mach → Mach := applyDueIf onLiveDeck

/-! Receiving a copy (15 R423). -/

/-- An object of a snapshot image. -/
def objOfSnap (x : SnapObj) : Obj :=
  { mode := x.mode, trump := x.trump, enable := x.enable, fine := x.fine, gain := x.gain, spread := x.spread, rolloff := x.rolloff,
    aperture := x.aperture, refDist := x.refDist, zone := x.zone, state := x.state, x := x.x, y := x.y, z := x.z,
    queue := x.pts.map (fun p => { t := p.1, x := p.2.1.1, y := p.2.1.2.1, z := p.2.1.2.2, jump := p.2.2.1, rest := p.2.2.2 }) }

/-- A buffered command of the scene is replayed. -/
def replayOne (x : Stamped) (m : Mach) : Mach :=
  let tk : Ticket := { src := .own, tag := 0, op := x.d.op, eff := x.eff, epoch := m.hif.epoch, interim := true, irq := false }
  match effOf x.d.op with
  | some eff => notePast (.tunnel 0 0 x.seq)
      (onlyIf ([0x0201, 0x0202, 0x0203].contains x.d.op) (runEff eff ⟨{ x.d.cmd with src := .own }, tk⟩) m)
  | none => m

/-- Stamped commands in ascending order of their stamps. -/
def insertStamped (x : Stamped) : List Stamped → List Stamped
  | [] => [x]
  | y :: t => if x.seq < y.seq then x :: y :: t else y :: insertStamped x t

/-- A complete image is loaded, and the scene replayed up to the present deal. -/
def loadSnap (f : SnapIn) (c : Copy) (m : Mach) : Mach :=
  let now := m.deal
  let objs := f.objs.foldl (fun t x => mset {} x.o (objOfSnap x) t) []
  let m1 := setDom { m.dom with last := (f.last.mapIdx (fun i v => (i, v))).foldl (fun t q => mset 0 q.1 q.2 t) [],
                                copy := some { c with loaded := some f.deal, eqRun := 0 } } { m with objs := objs }
  let step (k : Nat) (m : Mach) : Mach :=
    let d := f.deal + 1 + k
    let cmds := (c.buffered.filter (fun x => x.eff == d)).foldl (fun l x => insertStamped x l) []
    evalScene (forEach cmds replayOne { m with deal := d })
  { forEach (List.range (now - f.deal)) step m1 with deal := now }

/-- A fragment of a copy from the source that this device asked. -/
def snapshotReceive (f : SnapIn) (m : Mach) : Mach :=
  match m.dom.copy with
  | none => m
  | some c =>
    if c.src != f.seat || c.loaded.isSome || f.cnt ≤ f.idx then m
    else
      let c1 : Copy := { c with got := insertNat f.idx c.got, lastFrag := m.deal }
      if c1.got.length < f.cnt then setDom { m.dom with copy := some c1 } m else loadSnap f c1 m

/-- SNAPSHOT_RECEIVE. -/
def execSnapshotReceive (f : SnapIn) (s : State) : Host.Outcome State Fault Refusal := onMach (snapshotReceive f) s

end Sys2Proof.Machine
end

