-- ==== Sys2Proof/Machine/Deal.lean ====
section
/-! DEFINITION. The deal boundary (02 R24). -/
namespace Sys2Proof.Machine

/-- The load of a deal whose commit did not come, where nothing else is known of it. -/
def overrunLoad : Work := { load := 150000 }

/-- Step 1: the deal before ends, committed or not, its missed markers are counted, and the time unit issues the tick; the pins are
sampled, and a reset whose deal has come takes place (R24, R34; 18 R482; 17 R469). -/
def tickBegins (x : TickIn) (m : Mach) : Mach :=
  let m1 := if m.frm.committed then m else commitDeal true (x.late.getD overrunLoad) m
  let m2 := ticTick (timeTick (markTick m1))
  resetDue (clkTick (gpioTick x.gpio (setFrm { m2.frm with committed := false } m2)))

/-- Step 3: the render reset or the cuts of this deal (R24; 08 R231, R245; 17 R473). -/
def tickCuts (m : Mach) : Mach := stepThree (onlyIf (!m.dk.renderDue) resumeCut m)

/-- Step 4, and what the services do at a boundary: closing talkers stop, requests are arbitrated, the scene evaluated, the trio's records sent, the power
target judged, pairs selected, samples presented and taken from the pins (R24; 14 R389; 07 R201, R210; 10 R284; 11 R294; 15 R413;
17 R461; 13 R359). While the interface does not run, full capture FIFOs are emptied here (03 R504). The ring's frames that waited
for the boundary leave last (06). -/
def tickEnds (x : TickIn) (m : Mach) : Mach :=
  let m1 := portTick x.pins (presentAll (selectPairs (powerTick (trioTick (evalScene (evalMap (closeTalkers m)))))))
  ringTick (onlyIf (!running m1) fifoDrain m1)

/-- A deal boundary; a reset that it meets ends it. -/
def dealTick (x : TickIn) (m : Mach) : Mach :=
  let same (m1 : Mach) : Bool := m1.hif.epoch == m.hif.epoch && m1.sys.held.isNone
  let m1 := tickBegins x m
  if !same m1 then m1
  else
    let m2 := selectRef (applyDue (sendAllWaiting m1))
    if !same m2 then m2 else tickEnds x (applyOnDeck (tickCuts (arbitrate (firePins m2))))

/-- DEAL_TICK. -/
def execDealTick (x : TickIn) (s : State) : Host.Outcome State Fault Refusal := onMach (dealTick x) s

end Sys2Proof.Machine
end

