-- ==== Sys2Proof/Machine/Dispatch.lean ====
section
/-! DEFINITION. The dispatch of a command to its meaning, one arm per row of the opcode table. -/
namespace Sys2Proof.Machine

def exec (i : Instr) (s : State) : Host.Outcome State Fault Refusal :=
  match i with
  | .deckStage c => Sys2Proof.Machine.execDeckStage c s
  | .deckCut c => Sys2Proof.Machine.execDeckCut c s
  | .deckDigest c => Sys2Proof.Machine.execDeckDigest c s
  | .trajPush c => Sys2Proof.Machine.execTrajPush c s
  | .trajClear c => Sys2Proof.Machine.execTrajClear c s
  | .objSet c => Sys2Proof.Machine.execObjSet c s
  | .spkLoad c => Sys2Proof.Machine.execSpkLoad c s
  | .corrLoad c => Sys2Proof.Machine.execCorrLoad c s
  | .measureRun c => Sys2Proof.Machine.execMeasureRun c s
  | .streamOpen c => Sys2Proof.Machine.execStreamOpen c s
  | .streamClose c => Sys2Proof.Machine.execStreamClose c s
  | .chmapWrite c => Sys2Proof.Machine.execChmapWrite c s
  | .portStartGroup c => Sys2Proof.Machine.execPortStartGroup c s
  | .portStop c => Sys2Proof.Machine.execPortStop c s
  | .refConfig c => Sys2Proof.Machine.execRefConfig c s
  | .rampLoad c => Sys2Proof.Machine.execRampLoad c s
  | .clipWrite c => Sys2Proof.Machine.execClipWrite c s
  | .msgDefine c => Sys2Proof.Machine.execMsgDefine c s
  | .schedWrite c => Sys2Proof.Machine.execSchedWrite c s
  | .annPlay c => Sys2Proof.Machine.execAnnPlay c s
  | .annStop c => Sys2Proof.Machine.execAnnStop c s
  | .trumpClear c => Sys2Proof.Machine.execTrumpClear c s
  | .icomConnect c => Sys2Proof.Machine.execIcomConnect c s
  | .powerTolerance c => Sys2Proof.Machine.execPowerTolerance c s
  | .latencyQuery c => Sys2Proof.Machine.execLatencyQuery c s
  | .counterQuery c => Sys2Proof.Machine.execCounterQuery c s
  | .timeQuery c => Sys2Proof.Machine.execTimeQuery c s
  | .eventDropPacket c => Sys2Proof.Machine.execEventDropPacket c s
  | .rosterLoad c => Sys2Proof.Machine.execRosterLoad c s
  | .seatAdmit c => Sys2Proof.Machine.execSeatAdmit c s
  | .seatEvict c => Sys2Proof.Machine.execSeatEvict c s
  | .keyRotate c => Sys2Proof.Machine.execKeyRotate c s
  | .fwStage c => Sys2Proof.Machine.execFwStage c s
  | .renderReset c => Sys2Proof.Machine.execRenderReset c s
  | .systemReset c => Sys2Proof.Machine.execSystemReset c s
  | .doorbellPoll p => Sys2Proof.Machine.execDoorbellPoll p s
  | .heldCommandRelease => Sys2Proof.Machine.execHeldCommandRelease s
  | .stageHeldStart => Sys2Proof.Machine.execStageHeldStart s
  | .tunnelRequestReceive r => Sys2Proof.Machine.execTunnelRequestReceive r s
  | .tunnelReplyReceive r => Sys2Proof.Machine.execTunnelReplyReceive r s
  | .stamperAckReceive tunId stamped => Sys2Proof.Machine.execStamperAckReceive tunId stamped s
  | .tunnelTimeout tunId => Sys2Proof.Machine.execTunnelTimeout tunId s
  | .tunnelReassemblyDiscard seat tunId => Sys2Proof.Machine.execTunnelReassemblyDiscard seat tunId s
  | .hifEnable => Sys2Proof.Machine.execHifEnable s
  | .hostReset v => Sys2Proof.Machine.execHostReset v s
  | .flr => Sys2Proof.Machine.execFlr s
  | .pciePerst => Sys2Proof.Machine.execPciePerst s
  | .hostResetComplete => Sys2Proof.Machine.execHostResetComplete s
  | .dmaFault => Sys2Proof.Machine.execDmaFault s
  | .coalesceTimeout ring => Sys2Proof.Machine.execCoalesceTimeout ring s
  | .captureFifoLinger k => Sys2Proof.Machine.execCaptureFifoLinger k s
  | .sysLock v => Sys2Proof.Machine.execSysLock v s
  | .sysResetFull v => Sys2Proof.Machine.execSysResetFull v s
  | .sysResetNow v => Sys2Proof.Machine.execSysResetNow v s
  | .sysPbootGo v => Sys2Proof.Machine.execSysPbootGo v s
  | .pbootImageChecked img => Sys2Proof.Machine.execPbootImageChecked img s
  | .secAttest v => Sys2Proof.Machine.execSecAttest v s
  | .attestReady => Sys2Proof.Machine.execAttestReady s
  | .mdioGo v => Sys2Proof.Machine.execMdioGo v s
  | .mdioDone data => Sys2Proof.Machine.execMdioDone data s
  | .phyStatusPoll p pma pcs => Sys2Proof.Machine.execPhyStatusPoll p pma pcs s
  | .tasChangeArm p hi => Sys2Proof.Machine.execTasChangeArm p hi s
  | .tasChangeApply p => Sys2Proof.Machine.execTasChangeApply p s
  | .timModeWrite v => Sys2Proof.Machine.execTimModeWrite v s
  | .ringEnableSet v => Sys2Proof.Machine.execRingEnableSet v s
  | .ringEnableClear v => Sys2Proof.Machine.execRingEnableClear v s
  | .forceBypass v => Sys2Proof.Machine.execForceBypass v s
  | .gpioOutSet v => Sys2Proof.Machine.execGpioOutSet v s
  | .gpioOutClr v => Sys2Proof.Machine.execGpioOutClr v s
  | .csLoad t => Sys2Proof.Machine.execCsLoad t s
  | .uLoad t => Sys2Proof.Machine.execULoad t s
  | .aesTxShadowCopy t => Sys2Proof.Machine.execAesTxShadowCopy t s
  | .sapMaskWrite d v => Sys2Proof.Machine.execSapMaskWrite d v s
  | .registerWrite a v => Sys2Proof.Machine.execRegisterWrite a v s
  | .rcRead a => Sys2Proof.Machine.execRcRead a s
  | .dealTick x => Sys2Proof.Machine.execDealTick x s
  | .dealCommit w => Sys2Proof.Machine.execDealCommit w s
  | .kernelFault node cause instr addr => Sys2Proof.Machine.execKernelFault node cause instr addr s
  | .laneOverflow cluster lanes signs node => Sys2Proof.Machine.execLaneOverflow cluster lanes signs node s
  | .deckStageReady => Sys2Proof.Machine.execDeckStageReady s
  | .deckStageRefused => Sys2Proof.Machine.execDeckStageRefused s
  | .bridgeLost ch rate => Sys2Proof.Machine.execBridgeLost ch rate s
  | .bridgeLocked ch rate => Sys2Proof.Machine.execBridgeLocked ch rate s
  | .refLoss k x => Sys2Proof.Machine.execRefLoss k x s
  | .refBin b => Sys2Proof.Machine.execRefBin b s
  | .refDisqualified k => Sys2Proof.Machine.execRefDisqualified k s
  | .refQualified k => Sys2Proof.Machine.execRefQualified k s
  | .refFirstEdge phase => Sys2Proof.Machine.execRefFirstEdge phase s
  | .histValidSet => Sys2Proof.Machine.execHistValidSet s
  | .holdoverEstimate temp => Sys2Proof.Machine.execHoldoverEstimate temp s
  | .savedValueStore ctl temp => Sys2Proof.Machine.execSavedValueStore ctl temp s
  | .alignerWindowEnd a freqPpb phasePs => Sys2Proof.Machine.execAlignerWindowEnd a freqPpb phasePs s
  | .syncInEdge edgeNs => Sys2Proof.Machine.execSyncInEdge edgeNs s
  | .rampSegmentEnd k => Sys2Proof.Machine.execRampSegmentEnd k s
  | .xoLoss => Sys2Proof.Machine.execXoLoss s
  | .passThroughUnitLost unit => Sys2Proof.Machine.execPassThroughUnitLost unit s
  | .markerReceive p k => Sys2Proof.Machine.execMarkerReceive p k s
  | .timeFirstStep => Sys2Proof.Machine.execTimeFirstStep s
  | .timeLock => Sys2Proof.Machine.execTimeLock s
  | .stepRefused => Sys2Proof.Machine.execStepRefused s
  | .slewDone => Sys2Proof.Machine.execSlewDone s
  | .timeDirectionLost p => Sys2Proof.Machine.execTimeDirectionLost p s
  | .todPpsEdge => Sys2Proof.Machine.execTodPpsEdge s
  | .ptpMessageReceive l k => Sys2Proof.Machine.execPtpMessageReceive l k s
  | .ptpMessageInterval l kind => Sys2Proof.Machine.execPtpMessageInterval l kind s
  | .ptpAnnounceTimeout l new => Sys2Proof.Machine.execPtpAnnounceTimeout l new s
  | .ppsOutSecond => Sys2Proof.Machine.execPpsOutSecond s
  | .launchTimeReached p q now => Sys2Proof.Machine.execLaunchTimeReached p q now s
  | .ticEdgeCapture ch coarse fine falling => Sys2Proof.Machine.execTicEdgeCapture ch coarse fine falling s
  | .ticAnchor coarse fine => Sys2Proof.Machine.execTicAnchor coarse fine s
  | .ticTimebaseLost coarse => Sys2Proof.Machine.execTicTimebaseLost coarse s
  | .ticTimebaseRelock coarse => Sys2Proof.Machine.execTicTimebaseRelock coarse s
  | .ringFrameReceive p f => Sys2Proof.Machine.execRingFrameReceive p f s
  | .localFrameReceive p f => Sys2Proof.Machine.execLocalFrameReceive p f s
  | .linkDown p => Sys2Proof.Machine.execLinkDown p s
  | .linkUp p => Sys2Proof.Machine.execLinkUp p s
  | .mkpduReceive p k => Sys2Proof.Machine.execMkpduReceive p k s
  | .mkaHello p => Sys2Proof.Machine.execMkaHello p s
  | .markerLaunch p egressAt => Sys2Proof.Machine.execMarkerLaunch p egressAt s
  | .markerMissed p => Sys2Proof.Machine.execMarkerMissed p s
  | .ringStatusReceive p x => Sys2Proof.Machine.execRingStatusReceive p x s
  | .ringStatusApply => Sys2Proof.Machine.execRingStatusApply s
  | .epochGraceEnd => Sys2Proof.Machine.execEpochGraceEnd s
  | .linkHeal p => Sys2Proof.Machine.execLinkHeal p s
  | .loopbackTestDone pass => Sys2Proof.Machine.execLoopbackTestDone pass s
  | .relaySettled => Sys2Proof.Machine.execRelaySettled s
  | .keyingTimeout => Sys2Proof.Machine.execKeyingTimeout s
  | .insertRetry => Sys2Proof.Machine.execInsertRetry s
  | .leaveDrivesDrop => Sys2Proof.Machine.execLeaveDrivesDrop s
  | .verdictReceive p accept => Sys2Proof.Machine.execVerdictReceive p accept s
  | .streamPacketReceive p => Sys2Proof.Machine.execStreamPacketReceive p s
  | .streamLost ctx => Sys2Proof.Machine.execStreamLost ctx s
  | .crfReport ctx => Sys2Proof.Machine.execCrfReport ctx s
  | .arpRequest l addr => Sys2Proof.Machine.execArpRequest l addr s
  | .igmpQuery l => Sys2Proof.Machine.execIgmpQuery l s
  | .sapFrameStart f => Sys2Proof.Machine.execSapFrameStart f s
  | .sapRestart d => Sys2Proof.Machine.execSapRestart d s
  | .sapClockLoss d => Sys2Proof.Machine.execSapClockLoss d s
  | .sapRateUpdate d mhz => Sys2Proof.Machine.execSapRateUpdate d mhz s
  | .aesLock r mhz => Sys2Proof.Machine.execAesLock r mhz s
  | .aesUnlock r => Sys2Proof.Machine.execAesUnlock r s
  | .aesSubframeError e => Sys2Proof.Machine.execAesSubframeError e s
  | .aesBlockEnd b => Sys2Proof.Machine.execAesBlockEnd b s
  | .scheduleFire e => Sys2Proof.Machine.execScheduleFire e s
  | .gpioTrigger e => Sys2Proof.Machine.execGpioTrigger e s
  | .gpioRelease e => Sys2Proof.Machine.execGpioRelease e s
  | .annWaitLimit k => Sys2Proof.Machine.execAnnWaitLimit k s
  | .annPlayEnd p => Sys2Proof.Machine.execAnnPlayEnd p s
  | .annPageLimit p => Sys2Proof.Machine.execAnnPageLimit p s
  | .clipError p unit => Sys2Proof.Machine.execClipError p unit s
  | .clipWriteDone clip => Sys2Proof.Machine.execClipWriteDone clip s
  | .fwStageDone => Sys2Proof.Machine.execFwStageDone s
  | .measureDone => Sys2Proof.Machine.execMeasureDone s
  | .icomConverged c erle => Sys2Proof.Machine.execIcomConverged c erle s
  | .icomDiverged c => Sys2Proof.Machine.execIcomDiverged c s
  | .icomTalk c => Sys2Proof.Machine.execIcomTalk c s
  | .duckHoldExpiry c => Sys2Proof.Machine.execDuckHoldExpiry c s
  | .digestRecordReceive r => Sys2Proof.Machine.execDigestRecordReceive r s
  | .reachTimeout j => Sys2Proof.Machine.execReachTimeout j s
  | .activeChange => Sys2Proof.Machine.execActiveChange s
  | .autonomousEnter => Sys2Proof.Machine.execAutonomousEnter s
  | .joinReportReceive r => Sys2Proof.Machine.execJoinReportReceive r s
  | .enrolmentReceive a b ids => Sys2Proof.Machine.execEnrolmentReceive a b ids s
  | .copyReqReceive seat spare => Sys2Proof.Machine.execCopyReqReceive seat spare s
  | .snapshotReceive f => Sys2Proof.Machine.execSnapshotReceive f s
  | .copyTimeout => Sys2Proof.Machine.execCopyTimeout s
  | .spareJoin => Sys2Proof.Machine.execSpareJoin s
  | .svcCoreDissent k => Sys2Proof.Machine.execSvcCoreDissent k s
  | .svcResyncDone k => Sys2Proof.Machine.execSvcResyncDone k s
  | .kolicaFault => Sys2Proof.Machine.execKolicaFault s
  | .keyGraceExpiry => Sys2Proof.Machine.execKeyGraceExpiry s
  | .fwCommit => Sys2Proof.Machine.execFwCommit s
  | .debugChallengeRead => Sys2Proof.Machine.execDebugChallengeRead s
  | .debugResponse key ok => Sys2Proof.Machine.execDebugResponse key ok s
  | .extestSelect => Sys2Proof.Machine.execExtestSelect s
  | .powerEntryStart => Sys2Proof.Machine.execPowerEntryStart s
  | .powerEntryDone => Sys2Proof.Machine.execPowerEntryDone s
  | .wakeDone => Sys2Proof.Machine.execWakeDone s
  | .powerOn => Sys2Proof.Machine.execPowerOn s
  | .resetNAssert => Sys2Proof.Machine.execResetNAssert s
  | .resetRelease b => Sys2Proof.Machine.execResetRelease b s
  | .pwrgoodFall => Sys2Proof.Machine.execPwrgoodFall s
  | .resumeDeckSave => Sys2Proof.Machine.execResumeDeckSave s
  | .resumeDeckRestore authentic => Sys2Proof.Machine.execResumeDeckRestore authentic s
  | .supplyOutOfLimits rail mv => Sys2Proof.Machine.execSupplyOutOfLimits rail mv s
  | .supplyBack rail mv => Sys2Proof.Machine.execSupplyBack rail mv s
  | .tjSample t => Sys2Proof.Machine.execTjSample t s
  | .eccCorrected bank => Sys2Proof.Machine.execEccCorrected bank s
  | .eccUncorrected bank word t => Sys2Proof.Machine.execEccUncorrected bank word t s
  | .mkaPeerLost p => Sys2Proof.Machine.execMkaPeerLost p s
  | .keyPackageReceive c => Sys2Proof.Machine.execKeyPackageReceive c s
  | .pciePerstRelease => Sys2Proof.Machine.execPciePerstRelease s
  | .extestRelease => Sys2Proof.Machine.execExtestRelease s
  | .egressFrameEnd p now => Sys2Proof.Machine.execEgressFrameEnd p now s
  | .gateIntervalEnd p now => Sys2Proof.Machine.execGateIntervalEnd p now s

end Sys2Proof.Machine
end

