-- ==== Sys2Proof/Safety.lean ====
section
/-! DEFINITION. What a safe run is, and the words in which the statements speak: a command that completes, a device that is not held in
reset, a host command that is admitted and applied, an event record, a completion. -/
namespace Sys2Proof
open Machine

/-- A step that stops with neither a fault nor a refusal. -/
def Completes (s : State) : Prop := ∃ t, step s = .next t

/-- The safe states: every waiting command is well formed. -/
def Sound (s : State) : Prop := ∀ c ∈ s.pending, Instr.wf c = true

/-- n steps, as long as none stops. -/
def runSteps : Nat → State → Host.Outcome State Fault Refusal
  | 0, s => .next s
  | n + 1, s => match step s with
    | .next t => runSteps n t
    | o => o

/-- Commands applied one after another to a machine, as long as none stops. -/
def applyAll : List Instr → State → Host.Outcome State Fault Refusal
  | [], s => .next s
  | c :: l, s => match exec c s with
    | .next t => applyAll l t
    | o => o

/-- A command answers a next state that keeps the queue and whose machine is as P says. -/
def Answers (c : Instr) (s : State) (P : Mach → Prop) : Prop := ∃ t, exec c s = .next t ∧ t.pending = s.pending ∧ P t.m

/-- The device is not held in a reset (17 R467). -/
def Awake (s : State) : Prop := s.m.sys.held = none

/-- The commands that reach a device which is held in a reset: supplies, reset pins, the test port, the end of a reset, and the
registers of a boot over PCIe (17 R467, R470, R471; 16 R452; 18 R485). -/
def reachesHeld (c : Instr) : Bool :=
  match c with
  | .powerOn | .resetNAssert | .pwrgoodFall | .extestSelect | .extestRelease | .resetRelease _ | .pbootImageChecked _ | .sysPbootGo _
  | .registerWrite .. | .rcRead _ => true
  | _ => false

/-- The output since a machine, newest first. -/
def NewOut (m n : Mach) (o : Out) : Prop := ∃ l, n.out = l ++ m.out ∧ o ∈ l

/-- An event of a source block and a code has been written for the host since m, where the interface runs and the block's events are
routed to an event ring that is enabled (03 R73, R74). -/
def Reported (src code : Nat) (m n : Mach) : Prop :=
  running m = true → eqSize m.hif (evRing src m.hif) ≠ 0 →
    ∃ ring idx r, NewOut m n (.record ring idx r) ∧ r.code = code ∧ r.src = src

/-- The final completion of a local command of ring q has been written since m, where the interface runs (03 R57, R63). -/
def Completed (op st : Nat) (c : Cmd) (m n : Mach) : Prop :=
  running m = true → ∀ q, c.src = .ring q → ∃ ring idx, NewOut m n (.completion ring idx c.tag op st m.deal)

/-- A local command without a signature, for this seat, that names no deal, with zero reserved fields, and no zone latched where
that matters: it is admitted and applied at this boundary (03 R58-R61; 16 R441; 14 R397). -/
def Plain (op : Nat) (c : Cmd) (m : Mach) : Prop :=
  (∃ q, c.src = .ring q) ∧ c.flags < 16 ∧ Cmd_signed c = false ∧ Cmd_tunnel c = false ∧ c.rsvd = 0 ∧ c.deal = 0 ∧
    (c.target = 0xFFFE ∨ (c.target ≤ 1023 ∧ member m = true ∧ c.target = ownSeat m)) ∧ signedOp op = false ∧ reservedOk op c = true ∧
    (latchedOp op = true → m.ann.latch = [])

/-- A local command with a signature that passes every check of R441, for this seat, that names no deal, with zero reserved
fields: it is admitted and applied at this boundary. -/
def Signed (op : Nat) (c : Cmd) (m : Mach) : Prop :=
  (∃ q, c.src = .ring q) ∧ c.flags < 16 ∧ Cmd_signed c = true ∧ Cmd_tunnel c = false ∧ c.rsvd = 0 ∧ c.deal = 0 ∧
    (c.target = 0xFFFE ∨ (c.target ≤ 1023 ∧ member m = true ∧ c.target = ownSeat m)) ∧ (signedOp op = true ∨ latchedOp op = true) ∧
    reservedOk op c = true ∧ bufOk c false m = true ∧ stage1 op c m = 0 ∧ stage2 op c (installInline op c m) = 0

/-! Frames: the pieces of the machine, and those that each command may change. -/

/-- A piece of the machine: a component, or the registers of one 4 KiB block of BAR0 (00 R3). -/
inductive Piece where
  | deal
  | ticks
  | out
  | fresh
  | hif
  | clk
  | tim
  | tic
  | ring
  | str
  | dk
  | frm
  | objs
  | rend
  | vote
  | cor
  | icom
  | sap
  | pwr
  | ann
  | sec
  | dom
  | gpio
  | sys
  | setup
  | block (b : Nat)
deriving DecidableEq, Repr

/-- A piece is the same in two machines. The device has 64 blocks. -/
def SamePiece (p : Piece) (m n : Mach) : Prop :=
  match p with
  | .deal => n.deal = m.deal
  | .ticks => n.ticks = m.ticks
  | .out => n.out = m.out
  | .fresh => n.fresh = m.fresh
  | .hif => n.hif = m.hif
  | .clk => n.clk = m.clk
  | .tim => n.tim = m.tim
  | .tic => n.tic = m.tic
  | .ring => n.ring = m.ring
  | .str => n.str = m.str
  | .dk => n.dk = m.dk
  | .frm => n.frm = m.frm
  | .objs => n.objs = m.objs
  | .rend => n.rend = m.rend
  | .vote => n.vote = m.vote
  | .cor => n.cor = m.cor
  | .icom => n.icom = m.icom
  | .sap => n.sap = m.sap
  | .pwr => n.pwr = m.pwr
  | .ann => n.ann = m.ann
  | .sec => n.sec = m.sec
  | .dom => n.dom = m.dom
  | .gpio => n.gpio = m.gpio
  | .sys => n.sys = m.sys
  | .setup => n.setup = m.setup
  | .block b => b < 64 → ∀ k, k / 32 / 4096 = b → mfind n.regs k = mfind m.regs k

/-- Every block. -/
def allBlocks : List Piece := (List.range 64).map .block

/-- Every piece. -/
def everything : List Piece :=
  [.deal, .ticks, .out, .fresh, .hif, .clk, .tim, .tic, .ring, .str,
    .dk, .frm, .objs, .rend, .vote, .cor, .icom, .sap, .pwr, .ann, .sec, .dom, .gpio, .sys, .setup] ++ allBlocks

/-- The pieces that a command may change: its own, the host interface and its output where it reports or completes, the discard count of
block 1 where the interface does not run, and what its consequences reach. Every other piece stays. -/
def touches (c : Instr) : List Piece :=
  match c with
  | .gpioTrigger _ | .annPageLimit _ =>
    [.ann]
  | .copyReqReceive _ _ =>
    [.dom]
  | .tunnelReassemblyDiscard _ _ =>
    [.hif]
  | .resumeDeckSave | .eccCorrected _ | .pciePerstRelease | .extestRelease =>
    [.sys]
  | .todPpsEdge | .ppsOutSecond =>
    [.tim]
  | .ringStatusReceive _ _ | .epochGraceEnd =>
    [.ring]
  | .histValidSet =>
    [.block 0x4]
  | .sapMaskWrite _ _ =>
    [.block 0xC]
  | .timeFirstStep =>
    [.clk, .tim]
  | .tunnelReplyReceive _ | .stamperAckReceive _ _ | .tunnelTimeout _ | .coalesceTimeout _ =>
    [.out, .hif]
  | .gateIntervalEnd _ _ =>
    [.out, .ring]
  | .savedValueStore _ _ =>
    [.clk, .block 0x4]
  | .hostResetComplete =>
    [.hif, .block 0x1]
  | .joinReportReceive _ =>
    [.out, .hif, .dom]
  | .powerEntryStart =>
    [.pwr, .block 0x2]
  | .csLoad _ | .uLoad _ | .aesTxShadowCopy _ =>
    [.sap, .block 0xD]
  | .launchTimeReached _ _ _ =>
    [.out, .tim, .ring]
  | .mdioGo _ | .tasChangeArm _ _ | .tasChangeApply _ =>
    [.ring, .block 0x8]
  | .attestReady =>
    [.fresh, .block 0x3]
  | .debugChallengeRead =>
    [.out, .fresh, .sec]
  | .resumeDeckRestore _ =>
    [.dk, .sys, .block 0x0]
  | .hifEnable | .captureFifoLinger _ | .enrolmentReceive _ _ _ =>
    [.out, .hif, .block 0x1]
  | .egressFrameEnd _ _ =>
    [.out, .ring, .block 0x8]
  | .rcRead _ =>
    [.out, .fresh] ++ allBlocks
  | .deckStageReady =>
    [.out, .hif, .dk, .block 0x1]
  | .clipWriteDone _ =>
    [.out, .hif, .ann, .block 0x1]
  | .sapRestart _ =>
    [.sap, .block 0xC, .block 0xD]
  | .copyTimeout =>
    [.out, .hif, .dom, .block 0x10]
  | .dmaFault =>
    [.out, .fresh, .hif, .block 0x1, .block 0xC]
  | .laneOverflow _ _ _ _ | .svcResyncDone _ =>
    [.out, .hif, .block 0x1, .block 0x11]
  | .icomConverged _ _ | .icomDiverged _ =>
    [.out, .hif, .block 0x1, .block 0x13]
  | .refLoss _ _ | .refBin _ | .refDisqualified _ | .refQualified _ | .refFirstEdge _ | .holdoverEstimate _
  | .alignerWindowEnd _ _ _ | .rampSegmentEnd _ =>
    [.out, .hif, .clk, .block 0x1, .block 0x4]
  | .bridgeLocked _ _ =>
    [.out, .hif, .frm, .block 0x1, .block 0xB]
  | .sysResetFull _ | .sysResetNow _ =>
    [.out, .hif, .pwr, .block 0x1, .block 0x3]
  | .aesSubframeError _ | .aesBlockEnd _ =>
    [.out, .hif, .sap, .block 0x1, .block 0xD]
  | .fwStageDone | .keyGraceExpiry | .fwCommit =>
    [.out, .hif, .sec, .block 0x1, .block 0x3]
  | .streamPacketReceive _ | .streamLost _ | .crfReport _ =>
    [.out, .hif, .str, .block 0x1, .block 0xA]
  | .ticEdgeCapture _ _ _ _ | .ticAnchor _ _ | .ticTimebaseLost _ | .ticTimebaseRelock _ =>
    [.out, .hif, .tic, .block 0x1, .block 0x6]
  | .scheduleFire _ | .gpioRelease _ | .annWaitLimit _ | .annPlayEnd _ | .clipError _ _ =>
    [.out, .hif, .ann, .block 0x1, .block 0x12]
  | .spareJoin =>
    [.out, .hif, .dom, .block 0x1, .block 0x10]
  | .kernelFault _ _ _ _ =>
    [.out, .hif, .frm, .block 0x1, .block 0x11]
  | .mdioDone _ | .phyStatusPoll _ _ _ | .ringFrameReceive _ _ | .localFrameReceive _ _ | .linkDown _ | .linkUp _ | .mkaHello _
  | .markerMissed _ | .linkHeal _ | .loopbackTestDone _ | .keyingTimeout | .arpRequest _ _ | .igmpQuery _ | .mkaPeerLost _ =>
    [.out, .hif, .ring, .block 0x1, .block 0x8]
  | .tjSample _ =>
    [.out, .hif, .sys, .block 0x1, .block 0x11]
  | .icomTalk _ | .duckHoldExpiry _ =>
    [.out, .hif, .icom, .block 0x1, .block 0x13]
  | .supplyBack _ _ =>
    [.out, .hif, .ring, .block 0x1, .block 0x11]
  | .bridgeLost _ _ =>
    [.out, .hif, .frm, .sap, .block 0x1, .block 0xB]
  | .deckDigest _ | .timeQuery _ | .eventDropPacket _ | .fwStage _ =>
    [.out, .hif, .sec, .dom, .block 0x1, .block 0x3]
  | .ringStatusApply =>
    [.out, .hif, .ring, .dom, .block 0x1, .block 0x8]
  | .markerLaunch _ _ =>
    [.out, .hif, .tim, .ring, .block 0x1, .block 0x8]
  | .measureDone =>
    [.out, .fresh, .hif, .cor, .block 0x1, .block 0xF]
  | .stageHeldStart | .deckStageRefused =>
    [.out, .hif, .dk, .block 0x1, .block 0x3, .block 0xB]
  | .clipWrite _ | .msgDefine _ | .schedWrite _ | .annPlay _ =>
    [.out, .hif, .ann, .sec, .dom, .block 0x1, .block 0x3]
  | .sapFrameStart _ | .aesLock _ _ =>
    [.out, .hif, .sap, .block 0x1, .block 0xC, .block 0xD]
  | .portStop _ =>
    [.out, .hif, .sap, .sec, .dom, .block 0x1, .block 0x3]
  | .streamClose _ | .chmapWrite _ =>
    [.out, .hif, .str, .sec, .dom, .block 0x1, .block 0x3]
  | .stepRefused | .slewDone =>
    [.out, .hif, .tim, .block 0x1, .block 0x4, .block 0x5]
  | .autonomousEnter =>
    [.out, .hif, .dom, .block 0x1, .block 0x8, .block 0x10]
  | .trajClear _ | .objSet _ =>
    [.out, .hif, .objs, .sec, .dom, .block 0x1, .block 0x3]
  | .insertRetry =>
    [.out, .hif, .ring, .block 0x0, .block 0x1, .block 0x8]
  | .latencyQuery _ =>
    [.out, .fresh, .hif, .sec, .dom, .block 0x1, .block 0x3]
  | .ptpMessageInterval _ _ =>
    [.out, .fresh, .hif, .tim, .ring, .block 0x1, .block 0x8]
  | .ptpAnnounceTimeout _ _ =>
    [.out, .fresh, .hif, .clk, .tim, .block 0x1, .block 0x4, .block 0x5]
  | .timModeWrite _ | .timeDirectionLost _ =>
    [.out, .hif, .clk, .tim, .block 0x1, .block 0x4, .block 0x5]
  | .aesUnlock _ =>
    [.out, .hif, .frm, .sap, .block 0x1, .block 0xB, .block 0xD]
  | .counterQuery _ =>
    [.out, .hif, .str, .frm, .sec, .dom, .block 0x1, .block 0x3]
  | .relaySettled =>
    [.out, .hif, .ring, .dom, .block 0x0, .block 0x1, .block 0x8]
  | .debugResponse _ _ =>
    [.out, .hif, .ring, .sec, .block 0x1, .block 0x3, .block 0x8]
  | .markerReceive _ _ =>
    [.out, .hif, .tim, .ring, .block 0x1, .block 0x5, .block 0x8]
  | .xoLoss | .passThroughUnitLost _ | .supplyOutOfLimits _ _ =>
    [.out, .hif, .ring, .sys, .block 0x1, .block 0x8, .block 0x11]
  | .deckStage _ | .spkLoad _ | .corrLoad _ =>
    [.out, .hif, .dk, .sec, .dom, .block 0x1, .block 0x3, .block 0xB]
  | .rampLoad _ =>
    [.out, .hif, .clk, .sec, .dom, .block 0x1, .block 0x3, .block 0x4]
  | .powerTolerance _ =>
    [.out, .hif, .pwr, .sec, .dom, .block 0x1, .block 0x2, .block 0x3]
  | .annStop _ | .trumpClear _ =>
    [.out, .hif, .ann, .sec, .dom, .block 0x1, .block 0x3, .block 0x12]
  | .trajPush _ =>
    [.out, .hif, .objs, .sec, .dom, .block 0x1, .block 0x3, .block 0xF]
  | .keyRotate _ =>
    [.out, .hif, .ring, .sec, .dom, .block 0x1, .block 0x3, .block 0x8]
  | .ptpMessageReceive _ _ =>
    [.out, .fresh, .hif, .clk, .tim, .block 0x1, .block 0x4, .block 0x5]
  | .icomConnect _ =>
    [.out, .hif, .icom, .sec, .dom, .block 0x1, .block 0x3, .block 0x13]
  | .seatAdmit _ =>
    [.out, .hif, .ring, .sec, .dom, .block 0x1, .block 0x3, .block 0x10]
  | .hostReset _ | .flr =>
    [.out, .hif, .dk, .pwr, .block 0x1, .block 0x2, .block 0xB, .block 0xC]
  | .sapClockLoss _ | .sapRateUpdate _ _ =>
    [.out, .hif, .frm, .sap, .block 0x1, .block 0xB, .block 0xC, .block 0xD]
  | .sysLock _ | .sysPbootGo _ | .secAttest _ | .gpioOutSet _ | .gpioOutClr _ | .registerWrite _ _ =>
    [.out, .hif, .clk, .tim, .tic, .ring, .dk, .sap, .pwr, .sys] ++ allBlocks
  | .measureRun _ =>
    [.out, .hif, .rend, .cor, .sec, .dom, .block 0x1, .block 0x3, .block 0xF]
  | .mkpduReceive _ _ =>
    [.out, .hif, .ring, .dom, .block 0x0, .block 0x1, .block 0x8, .block 0x10]
  | .verdictReceive _ _ =>
    [.out, .hif, .ring, .sec, .block 0x1, .block 0x3, .block 0x8, .block 0x10]
  | .pciePerst =>
    [.out, .hif, .dk, .pwr, .sys, .block 0x1, .block 0x2, .block 0xB, .block 0xC]
  | .portStartGroup _ =>
    [.out, .hif, .sap, .sec, .dom, .block 0x1, .block 0x3, .block 0xC, .block 0xD]
  | .syncInEdge _ =>
    [.out, .fresh, .hif, .clk, .sap, .block 0x1, .block 0x4, .block 0xC, .block 0xD]
  | .streamOpen _ =>
    [.out, .fresh, .hif, .ring, .str, .sec, .dom, .block 0x1, .block 0x3, .block 0x8]
  | .pbootImageChecked _ =>
    [.out, .hif, .clk, .tim, .tic, .ring, .dk, .frm, .sap, .pwr, .sec, .sys] ++ allBlocks
  | .ringEnableSet _ | .ringEnableClear _ | .forceBypass _ =>
    [.out, .hif, .tim, .ring, .block 0x0, .block 0x1, .block 0x3, .block 0x5, .block 0x8]
  | .keyPackageReceive _ =>
    [.out, .fresh, .hif, .ring, .sec, .dom, .block 0x1, .block 0x3, .block 0x8, .block 0x10]
  | .digestRecordReceive _ | .reachTimeout _ | .activeChange =>
    [.out, .hif, .clk, .tim, .dom, .block 0x1, .block 0x4, .block 0x5, .block 0x8, .block 0x10]
  | .powerEntryDone =>
    [.out, .hif, .str, .frm, .rend, .cor, .icom, .sap, .pwr, .block 0x1, .block 0x2, .block 0x13]
  | .wakeDone =>
    [.out, .hif, .str, .frm, .rend, .cor, .sap, .pwr, .block 0x1, .block 0x2, .block 0xC, .block 0xD]
  | .timeLock =>
    [.out, .hif, .tim, .ring, .str, .dom, .block 0x0, .block 0x1, .block 0x4, .block 0x5, .block 0x8]
  | .refConfig _ =>
    [.out, .fresh, .hif, .clk, .sap, .sec, .dom, .block 0x1, .block 0x3, .block 0x4, .block 0xC, .block 0xD]
  | .rosterLoad _ | .seatEvict _ =>
    [.out, .hif, .clk, .tim, .ring, .sec, .dom, .block 0x1, .block 0x3, .block 0x4, .block 0x5, .block 0x8, .block 0x10]
  | .resetRelease _ =>
    [.out, .fresh, .hif, .clk, .tim, .tic, .ring, .dk, .frm, .rend, .cor, .sap, .pwr, .ann, .sec, .dom, .sys] ++ allBlocks
  | .deckCut _ =>
    [.out, .hif, .str, .dk, .frm, .objs, .rend, .vote, .cor, .icom, .ann, .sec, .dom, .block 0x1, .block 0x3, .block 0xB,
      .block 0xF, .block 0x11, .block 0x13]
  | .renderReset _ =>
    [.out, .hif, .str, .dk, .frm, .objs, .rend, .vote, .cor, .icom, .pwr, .ann, .sec, .dom, .block 0x1, .block 0x3, .block 0xB,
      .block 0xF, .block 0x11, .block 0x13]
  | .dealCommit _ =>
    [.out, .fresh, .hif, .tim, .ring, .str, .dk, .frm, .rend, .vote, .cor, .sap, .pwr, .ann, .sys, .block 0x0, .block 0x1,
      .block 0xB, .block 0xC, .block 0xD, .block 0xF, .block 0x11]
  | .systemReset _ | .doorbellPoll _ | .heldCommandRelease | .tunnelRequestReceive _ | .dealTick _ | .leaveDrivesDrop
  | .snapshotReceive _ | .svcCoreDissent _ | .kolicaFault | .extestSelect | .powerOn | .resetNAssert | .pwrgoodFall
  | .eccUncorrected _ _ _ =>
    everything

/-- The rows that the host submits as descriptors (03 Table 3.9). -/
def hostCommand (c : Instr) : Bool :=
  match c with
  | .deckStage _ | .deckCut _ | .deckDigest _ | .trajPush _ | .trajClear _ | .objSet _ | .spkLoad _ | .corrLoad _
  | .measureRun _ | .streamOpen _ | .streamClose _ | .chmapWrite _ | .portStartGroup _ | .portStop _ | .refConfig _
  | .rampLoad _ | .clipWrite _ | .msgDefine _ | .schedWrite _ | .annPlay _ | .annStop _ | .trumpClear _ | .icomConnect _
  | .powerTolerance _ | .latencyQuery _ | .counterQuery _ | .timeQuery _ | .eventDropPacket _ | .rosterLoad _
  | .seatAdmit _ | .seatEvict _ | .keyRotate _ | .fwStage _ | .renderReset _ | .systemReset _ => true
  | _ => false

end Sys2Proof
end

