-- ==== Sys2Proof/Certificates/Slice0/Obligations.lean ====
section
/-! DEFINITION. The statements about the block, for the provers. -/
open Sys2Proof Sys2Proof.Machine

/-! The queue and the step. -/

/-- Every step runs the command at the front of the queue on the machine with the queue's rest (the block's step; the model's form). -/
def Obligations.StepRunsFront : Prop :=
  ∀ (c : Instr) (m : Mach) (rest : List Instr), step ⟨m, c :: rest⟩ = exec c ⟨m, rest⟩

/-- On an empty queue the block idles (assumption log 1, DESIGN CHOICE). -/
def Obligations.EmptyQueueIdles : Prop := ∀ m : Mach, step ⟨m, []⟩ = .next ⟨m, []⟩

/-- A step keeps every waiting command well formed, and a state whose waiting commands are well formed always has a next state: no
command of the table is refused, and none faults on operands that the spec admits. -/
def Obligations.SoundKept : Prop := ∀ s : State, Sound s → ∃ t, step s = .next t ∧ Sound t

/-- The queue is first in, first out: as many steps as there are commands in front apply these commands in their order, and leave
the rest waiting. -/
def Obligations.QueueRunsInOrder : Prop :=
  ∀ (l rest : List Instr) (m : Mach), (∀ c ∈ l, Instr.wf c = true) →
    ∃ n, applyAll l ⟨m, rest⟩ = .next ⟨n, rest⟩ ∧ runSteps l.length ⟨m, l ++ rest⟩ = .next ⟨n, rest⟩

/-- No command is refused; the only stop is a fault of a register access, at an offset that is no aligned word, or outside BAR0. -/
def Obligations.OnlyBadAccessesStop : Prop :=
  ∀ (c : Instr) (s : State),
    (∃ t, exec c s = .next t ∧ t.pending = s.pending) ∨
    (∃ off, ((∃ v, c = .registerWrite (.bar off) v) ∨ c = .rcRead (.bar off)) ∧
      ((off % 4 ≠ 0 ∧ exec c s = .fault .barUnaligned) ∨ (off % 4 = 0 ∧ 0x40000 ≤ off ∧ exec c s = .fault .barOutside)))

/-- A device that is held in a reset does nothing: every command but those of the supplies, the reset pins, the test port, the end of a
reset and the registers of a boot over PCIe leaves the whole machine as it is. -/
def Obligations.HeldDeviceDoesNothing : Prop :=
  ∀ (c : Instr) (s : State) (cause : Nat), s.m.sys.held = some cause → reachesHeld c = false → exec c s = .next s

/-! Reset. -/

/-- After a power-on reset: deal 0 and domain time 0, seat 0xFFFE, no command waiting or held, no completion or event written, the
empty deck live, every object at the parameters of Table 10.4, no stream open, no time lock, both bypass drives low, SYS_LOCK clear and domain time
unlocked. -/
def Obligations.ResetState : Prop :=
  let s := State.reset
  Sound s ∧ s.pending = [] ∧ s.m.deal = 0 ∧ s.m.tim.ns = 0 ∧ s.m.out = [] ∧ ownSeat s.m = 0xFFFE ∧ running s.m = false ∧ s.m.hif.held = [] ∧
    s.m.dk.live.digest = 0 ∧ s.m.dk.staged = none ∧ (∀ o, objOf s.m o = {}) ∧ s.m.str.lis = [] ∧ s.m.str.tal = [] ∧
    rd s.m F.TIM_STATE_LOCKED = 0 ∧ s.m.ring.bypA = false ∧ s.m.ring.bypB = false ∧ rd s.m F.SYS_LOCK_LOCK = 0

/-! The scene (10). -/

/-- OBJ_SET writes the parameters whose SET bits are set and leaves the others, the object's trajectory and every other object. -/
def Obligations.ObjSetWrites : Prop :=
  ∀ (c : Cmd) (s : State), Awake s → Plain 0x0203 c s.m → u16 c 24 < objCount s.m → 0 < u16 c 26 → u16 c 26 < 128 → objSetOk c = true →
    Answers (.objSet c) s (fun n =>
      let x := objOf s.m (u16 c 24)
      let y := objOf n (u16 c 24)
      let b := (u16 c 26).testBit
      y.mode = (if b 0 then u8 c 28 else x.mode) ∧ y.trump = (if b 1 then u8 c 29 else x.trump) ∧
      y.enable = (if b 2 then (u16 c 30).testBit 0 else x.enable) ∧ y.fine = (if b 2 then (u16 c 30).testBit 1 else x.fine) ∧
      y.gain = (if b 3 then s32 c 32 else x.gain) ∧
      y.spread = (if b 4 then u16 c 36 else x.spread) ∧ y.rolloff = (if b 4 then u16 c 38 else x.rolloff) ∧
      y.aperture = (if b 5 then u32 c 40 else x.aperture) ∧ y.refDist = (if b 5 then u32 c 44 else x.refDist) ∧
      y.zone = (if b 6 then u16 c 48 else x.zone) ∧ y.queue = x.queue ∧ y.state = x.state ∧ y.x = x.x ∧ y.y = x.y ∧ y.z = x.z ∧
      (∀ o, o ≠ u16 c 24 → objOf n o = objOf s.m o) ∧ n.regs = s.m.regs ∧ n.dk = s.m.dk ∧ Completed 0x0203 stDone c s.m n)

/-- TRAJ_PUSH puts one point at the end of its object's queue: a point in time at its own time; a late one, whose time is not after the
present boundary, at the next boundary, where it replaces a late point that was moved there before it (assumption log 103), and it is
flagged, counted and reported. With BREAK the points from its time on are gone first. Other objects keep theirs, and DONE is completed. -/
def Obligations.TrajPushAddsPoint : Prop :=
  ∀ (c : Cmd) (s : State), Awake s → Plain 0x0201 c s.m → u16 c 24 < objCount s.m → u8 c 26 < 8 →
    let t := u64 c 32 * 65536 + u16 c 28
    let x := objOf s.m (u16 c 24)
    let q := if (u8 c 26).testBit 0 then x.queue.filter (fun p => p.t < t) else x.queue
    let late := decide (t ≤ s.m.deal * 65536)
    let at_ := if late then (s.m.deal + 1) * 65536 else t
    let disc := late && q.getLast?.any (fun p => p.late && p.t == at_)
    let kept := if disc then q.dropLast else q
    (∀ p, kept.getLast? = some p → p.t < t) → q.length < 16 →
    Answers (.trajPush c) s (fun n =>
      objOf n (u16 c 24) = { x with queue := kept ++
        [{ t := at_, x := s32 c 40 * 256, y := s32 c 44 * 256, z := s32 c 48 * 256, jump := (u8 c 26).testBit 1,
           rest := (u8 c 26).testBit 2, late := late }] } ∧
      (∀ o, o ≠ u16 c 24 → objOf n o = objOf s.m o) ∧
      (late = false → rd n F.OBJ_FLAGS_LATE = rd s.m F.OBJ_FLAGS_LATE ∧ rd n F.OBJ_LATE_CNT_COUNT = rd s.m F.OBJ_LATE_CNT_COUNT ∧
        rd n F.OBJ_LATE_DISC_COUNT = rd s.m F.OBJ_LATE_DISC_COUNT) ∧
      (late = true → rd n F.OBJ_FLAGS_LATE = 1 ∧
        rd n F.OBJ_LATE_CNT_COUNT = min (2 ^ F.OBJ_LATE_CNT_COUNT.width - 1) (rd s.m F.OBJ_LATE_CNT_COUNT + 1) ∧
        rd n F.OBJ_LATE_DISC_COUNT = min (2 ^ F.OBJ_LATE_DISC_COUNT.width - 1) (rd s.m F.OBJ_LATE_DISC_COUNT + b2n disc) ∧
        Reported 0x0D 0x0D01 s.m n) ∧
      Completed 0x0201 stDone c s.m n)

/-- TRAJ_CLEAR, of one object or of all, empties the queue: with mode 1 to nothing, and the object is UNPLACED; with mode 0 to a point that
holds a placed object at its last position. Other objects keep theirs. -/
def Obligations.TrajClearEmpties : Prop :=
  ∀ (c : Cmd) (s : State), Awake s → Plain 0x0202 c s.m → u8 c 26 ≤ 1 → (u16 c 24 < objCount s.m ∨ u16 c 24 = 0xFFFF) →
    Answers (.trajClear c) s (fun n =>
      (∀ o, o = u16 c 24 ∨ u16 c 24 = 0xFFFF →
        let x := objOf s.m o
        (u8 c 26 = 1 → objOf n o = { x with queue := [], state := 0 }) ∧
        (u8 c 26 = 0 → x.state = 0 → objOf n o = { x with queue := [] }) ∧
        (u8 c 26 = 0 → x.state ≠ 0 → objOf n o =
          { x with queue := [{ t := s.m.deal * 65536, x := x.x, y := x.y, z := x.z, jump := true, hold := true }] })) ∧
      (u16 c 24 ≠ 0xFFFF → ∀ o, o ≠ u16 c 24 → objOf n o = objOf s.m o) ∧ n.regs = s.m.regs ∧ Completed 0x0202 stDone c s.m n)

/-! Decks (08). -/

/-- DECK_STAGE, SPK_LOAD and CORR_LOAD start a staging of their image where the free slot is free: a deck staged before is gone, the live
deck stays, and PENDING is completed. -/
def Obligations.StagingStarts : Prop :=
  ∀ (i : Instr) (op : Nat) (c : Cmd) (s : State),
    (i = .deckStage c ∧ op = 0x0101) ∨ (i = .spkLoad c ∧ op = 0x0204) ∨ (i = .corrLoad c ∧ op = 0x0301) →
    Awake s → Plain op c s.m → u8 c 24 ≤ 1 → stageFree s.m = true → s.m.dk.held = [] → bufLen c ≠ 0 → (u8 c 24 = 1 → s.m.dk.staged = none) →
    bufOk c false s.m = true → bufLen c ≤ imageMax op →
    Answers i s (fun n =>
      (∃ g, n.dk.sg = some g ∧ g.start = s.m.deal ∧ g.h.cmd = c ∧ g.deck.digest = (imageIn c).digest ∧
        g.reason = imageReason op (bufLen c) (imageIn c) s.m) ∧
      n.dk.staged = none ∧ n.dk.live = s.m.dk.live ∧ n.frm = s.m.frm ∧ n.regs = s.m.regs ∧ Completed op stPending c s.m n)

/-- A staging that has passed every check is ready: the deck is staged, reported, and its command completes DONE, or LATE where it started after
its deal. One that fails is refused: flagged, reported, the slot free again, and its command completes BAD_ARG, or REFUSED_AUTH for its
signature. The oldest held staging starts where the slot is free. The live deck stays. -/
def Obligations.StagingEnds : Prop :=
  (∀ (s : State) (g : Staging), Awake s → s.m.dk.sg = some g → g.reason = 0 → folded s.m = false →
    Answers .deckStageReady s (fun n => n.dk.staged = some g.deck ∧ n.dk.sg = none ∧ n.dk.live = s.m.dk.live ∧ n.dk.stReady = s.m.deal ∧
      Reported 0x0B 0x0B11 s.m n ∧
      (∀ q, g.h.tk.src = .ring q → live g.h.tk s.m = true → ∃ ring idx, NewOut s.m n
        (.completion ring idx g.h.tk.tag g.h.tk.op (if g.h.tk.eff < g.start then stLate else stDone) s.m.deal)))) ∧
  (∀ (s : State) (g : Staging), Awake s → s.m.dk.sg = some g → g.reason ≠ 0 → folded s.m = false → s.m.dk.waiting = [] →
    Answers .deckStageRefused s (fun n => n.dk.sg = none ∧ n.dk.staged = s.m.dk.staged ∧ n.dk.live = s.m.dk.live ∧
      rd n F.GRF_FLAGS_STAGE_REFUSED = 1 ∧ Reported 0x0B 0x0B11 s.m n ∧
      (∀ q, g.h.tk.src = .ring q → live g.h.tk s.m = true → ∃ ring idx, NewOut s.m n
        (.completion ring idx g.h.tk.tag g.h.tk.op (if g.reason = 0x80 then stRefusedAuth else stBadArg) s.m.deal)))) ∧
  (∀ (s : State) (h : Held) (l : List Held), Awake s → s.m.dk.held = h :: l → stageFree s.m = true → bufLen h.cmd ≠ 0 →
    (u8 h.cmd 24 = 1 → s.m.dk.staged = none) → bufOk h.cmd false s.m = true → bufLen h.cmd ≤ imageMax h.tk.op →
    Answers .stageHeldStart s (fun n => n.dk.held = l ∧ (∃ g, n.dk.sg = some g ∧ g.h.cmd = h.cmd ∧ g.start = s.m.deal) ∧
      n.dk.staged = none ∧ n.dk.live = s.m.dk.live))

/-- DECK_CUT at its deal makes the staged deck live where EXPECT and GROUP match and the deck's BASE, if it has one, is the live deck: the deck
that was live retires, the slots change places, the scene stays, and the cut is reported and completes DONE. RENDER_RESET makes the empty
deck live, clears the scene, discards what is staged, and completes DONE; clocks, time and the power state stay. -/
def Obligations.StepThreeActs : Prop :=
  (∀ (c : Cmd) (s : State) (d : Deck), Awake s → Plain 0x0102 c s.m → cutArgsOk c = true → s.m.dk.staged = some d →
    (s.m.dk.stBase = none ∨ s.m.dk.stBase = some s.m.dk.live.digest) → s.m.dk.cuts = [] → s.m.dk.waiting = [] → s.m.dk.renderDue = false →
    (u64 c 24 = 0 ∨ u64 c 24 = d.digest) → (u32 c 32 = 0 ∨ u32 c 32 = d.group) →
    Answers (.deckCut c) s (fun n => n.dk.live = { d with cutDeal := s.m.deal } ∧ n.dk.staged = none ∧ n.dk.retiring = some s.m.dk.live ∧
      n.dk.slotB = !s.m.dk.slotB ∧ n.objs = s.m.objs ∧ Reported 0x0B 0x0B12 s.m n ∧ Completed 0x0102 stDone c s.m n)) ∧
  (∀ (c : Cmd) (s : State), Awake s → Plain 0x0E01 c s.m ∨ Signed 0x0E01 c s.m →
    Answers (.renderReset c) s (fun n => n.dk.live = { cutDeal := s.m.deal } ∧ n.dk.staged = none ∧ n.dk.retiring = none ∧ n.dk.sg = none ∧
      n.objs = [] ∧ n.clk = s.m.clk ∧ n.tim = s.m.tim ∧ rd n F.PWR_STATE_STATE = rd s.m F.PWR_STATE_STATE ∧
      Completed 0x0E01 stDone c s.m n))

/-- DECK_DIGEST, LATENCY_QUERY, COUNTER_QUERY and TIME_QUERY write their result into the host buffer by DMA: the decks in force, the figures
over the legs of every path from the source to the consumer, the counters of the instance, the state of the time unit or of a local port.
EVENT_DROP_PACKET has nothing to drop at a boundary. All five complete DONE and leave decks, scene and registers. -/
def Obligations.QueriesAnswer : Prop :=
  ∀ (c : Cmd) (s : State), Awake s →
    let left := fun (op : Nat) (n : Mach) => n.dk = s.m.dk ∧ n.objs = s.m.objs ∧ n.regs = s.m.regs ∧ Completed op stDone c s.m n
    let wrote := fun (n : Mach) (p : Pay) => running s.m = true → NewOut s.m n (.dma (bufAddr c) p)
    (bufOk c true s.m = true → Plain 0x0103 c s.m → 64 ≤ bufLen c →
      Answers (.deckDigest c) s (fun n => left 0x0103 n ∧ wrote n (digestResult s.m))) ∧
    (bufOk c true s.m = true → Plain 0x0A01 c s.m → 64 ≤ bufLen c → ∀ st goal,
      let m := reserve c s.m
      pathStarts m (u8 c 24) (u16 c 26) (u16 c 28) = some st → pathEnds m (u8 c 25) (u16 c 30) (u16 c 32) = some goal →
      Answers (.latencyQuery c) s (fun n => left 0x0A01 n ∧
        wrote n (latencyResult (st.flatMap (fun q => (legsFrom m goal 4097 [q.1] q.1).map (Leg_add q.2)))
          (if u8 c 24 = 0 then (ctxOf m 0 (u16 c 26)).depth * spd m else 0) (if u8 c 24 = 0 then (ctxOf m 0 (u16 c 26)).ofs else 0) m).2)) ∧
    (bufOk c true s.m = true → Plain 0x0A02 c s.m → 16 ≤ bufLen c → ∀ l, (countersOf (u8 c 24) (u16 c 26) (reserve c s.m)).1 = some l →
      Answers (.counterQuery c) s (fun n => left 0x0A02 n ∧ wrote n (counterResult s.m.deal (u8 c 24) (u16 c 26) (bufLen c) l))) ∧
    (bufOk c true s.m = true → Plain 0x0A03 c s.m → u8 c 24 ≤ 1 → u8 c 25 ≤ 1 → 64 ≤ bufLen c →
      Answers (.timeQuery c) s (fun n => left 0x0A03 n ∧ n.tim = s.m.tim ∧ wrote n (timeResult (u8 c 24) (u8 c 25) s.m))) ∧
    (Plain 0x0B01 c s.m → u8 c 24 ≤ 7 → eqSize s.m.hif (u8 c 24) ≠ 0 →
      Answers (.eventDropPacket c) s (fun n => left 0x0B01 n ∧ n.hif.eqProd = s.m.hif.eqProd))

/-! The ring (06). -/

/-- Links: a link comes up where the port is on and any external PHY reports it, it is reported, and an MKPDU leaves a MACsec port at once; a
link that goes down loses its secure channel, is counted and reported; a poll of an external PHY shows what it finds, and one that finds no
link takes the link down, but waits while an MDIO transaction runs; an MKPDU leaves a MACsec port whose link is up every HELLO_MS; a lost MKA
peer leaves the port unsecured, is reported, and takes a ring port's link down. -/
def Obligations.LinksComeAndGo : Prop :=
  ∀ (p : Nat) (s : State), Awake s → p < 4 →
    (portOn s.m p = true → linkUp s.m p = false → (extPhy s.m p = true → (port s.m p).phy = true) →
      Answers (.linkUp p) s (fun n => linkUp n p = true ∧ (macsecOn s.m p = true → NewOut s.m n (.mkpdu p)) ∧
        Reported (if p < 2 then 1 else 2) (if p < 2 then 0x0105 else 0x0201) s.m n ∧ n.dk = s.m.dk ∧ n.ring.faults = s.m.ring.faults)) ∧
    (linkUp s.m p = true →
      Answers (.linkDown p) s (fun n => linkUp n p = false ∧ secure n p = false ∧ ringCnt n p 0x010D = ringCnt s.m p 0x010D + 1 ∧
        Reported (if p < 2 then 1 else 2) (if p < 2 then 0x0105 else 0x0201) s.m n)) ∧
    (∀ pma pcs, p < 2 → extPhy s.m p = true → ((port s.m p).pollTick = 0 ∨ (port s.m p).pollTick + 8 ≤ s.m.ticks) →
      Answers (.phyStatusPoll p pma pcs) s (fun n => (port n p).pollTick = s.m.ticks ∧
        (s.m.ring.mdioBusy = true → n.ring.polls = s.m.ring.polls ++ [(p, pma, pcs)] ∧ n.regs = s.m.regs ∧ n.out = s.m.out) ∧
        (s.m.ring.mdioBusy = false → (port n p).phy = (pma.testBit 2 && pcs.testBit 2) ∧
          ((port n p).phy = false → linkUp n p = false ∧ (linkUp s.m p = true → Reported 1 0x0105 s.m n)) ∧
          ((port n p).phy = true → n.regs = s.m.regs)))) ∧
    (linkUp s.m p = true → macsecOn s.m p = true → (port s.m p).hello + 8 * rd s.m F.RING_MKA_HELLO_MS ≤ s.m.ticks →
      Answers (.mkaHello p) s (fun n => NewOut s.m n (.mkpdu p) ∧ (port n p).hello = s.m.ticks ∧ n.ring.faults = s.m.ring.faults)) ∧
    (secure s.m p = true → (p < 2 → linkUp s.m p = true) →
      Answers (.mkaPeerLost p) s (fun n => secure n p = false ∧ (p < 2 → linkUp n p = false) ∧ Reported 0x03 0x0302 s.m n))

/-- The seam: a ring status is held for its effective deal, or for the next boundary where that has passed; the statuses due at a boundary
take effect together with one EPOCH; a deal later the configuration before is dropped. -/
def Obligations.SeamMoves : Prop :=
  ∀ (s : State), Awake s →
    (∀ p x, p < 2 → s.m.ring.pendingSt.contains x = false → s.m.ring.doneSt.contains x = false →
      Answers (.ringStatusReceive p x) s (fun n =>
        n.ring.pendingSt = s.m.ring.pendingSt ++ [if s.m.deal < x.eff then x else { x with eff := s.m.deal + 1 }] ∧
        n.ring.faults = s.m.ring.faults ∧ n.regs = s.m.regs)) ∧
    (s.m.ring.pendingSt.filter (fun x => x.eff ≤ s.m.deal) ≠ [] →
      Answers .ringStatusApply s (fun n =>
        n.ring.faults = (s.m.ring.pendingSt.filter (fun x => x.eff ≤ s.m.deal)).foldl applyFaults s.m.ring.faults ∧
        n.ring.pendingSt = s.m.ring.pendingSt.filter (fun x => s.m.deal < x.eff) ∧
        n.ring.prev = some (s.m.ring.faults, rd s.m F.RING_STATE_EPOCH % 2) ∧
        rd n F.RING_STATE_EPOCH = (rd s.m F.RING_STATE_EPOCH + 1) % 2 ^ F.RING_STATE_EPOCH.width ∧ rd n F.RING_FLAGS_SEAM_MOVED = 1 ∧
        Reported 0x01 0x0101 s.m n)) ∧
    (s.m.ring.prevEnd ≤ s.m.deal →
      Answers .epochGraceEnd s (fun n => n.ring.prev = none ∧ n.ring.faults = s.m.ring.faults ∧ n.regs = s.m.regs ∧ n.out = s.m.out))

/-- Faults and heals are flooded: a secure port of a joined device without a valid marker for two deals becomes a fault point, and the lower
seat of a link that is a fault point floods its heal after WTR_DEALS of valid markers both ways: the status is held here, and its frame leaves
every ring port that may send. A deal that ends without a valid marker at a secure port is counted. -/
def Obligations.FaultsAreFlooded : Prop :=
  ∀ (p : Nat) (s : State), Awake s → p < 2 → secure s.m p = true →
    let own : SeamPt := { seat := ownSeat s.m, port := p }
    let other : SeamPt := { seat := (port s.m p).peer, port := 1 - p }
    let floods := fun (x : RingStatus) (n : Mach) => n.ring.pendingSt = s.m.ring.pendingSt ++ [x] ∧
      ∀ o, o < 2 → maySend s.m o = true → ∃ tag hdr, NewOut s.m n (.heivo o 2 tag hdr (statusPay x))
    (carries s.m = 5 → (port s.m p).lastMark + 2 ≤ s.m.deal →
      (s.m.ring.faults.contains own = false ∨ s.m.ring.pendingSt.any (fun x => x.kind = 2 && (x.a = own || x.b = some own)) = true) →
      s.m.ring.pendingSt.any (fun x => x.kind = 1 && x.a = own) = false →
      Answers (.markerMissed p) s (fun n => floods { kind := 1, cause := 2, a := own, b := none, eff := floodDeal s.m } n ∧
        (port n p).markRun = 0)) ∧
    ((port s.m p).lastMark < s.m.deal → ringCnt (markTick s.m) p 0x010C = ringCnt s.m p 0x010C + 1) ∧
    (joined s.m = true → linkUp s.m p = true → (port s.m p).peerJoined = true →
      rd s.m F.RING_WTR_WTR_DEALS ≤ (port s.m p).markRun → rd s.m F.RING_WTR_WTR_DEALS ≤ (port s.m p).backRun →
      ownSeat s.m < (port s.m p).peer → (s.m.ring.faults.contains own = true ∨ s.m.ring.faults.contains other = true) →
      s.m.ring.pendingSt.any (fun y => y.kind = 2 && y.a = own) = false →
      Answers (.linkHeal p) s (fun n => floods { kind := 2, cause := 5, a := own, b := some other, eff := floodDeal s.m } n))

/-- Insertion: setting ENABLE with equal speeds starts it; a loopback test that has run for 20 ms passes, and CLOSING begins with both drives
high at the next boundary; one that fails leads back to BYPASSED; RELAY_MS later with a link up it moves on to KEYING, or with a secure port
to TIMING; a failed device starts again after RETRY_S. Each state entered is reported. -/
def Obligations.InsertionRuns : Prop :=
  ∀ (s : State), Awake s →
    (∀ v : Word, flag s.m F.RING_CTRL_ENABLE = false → v.getLsbD 1 = false → v.toNat / 16 % 4 = v.toNat / 64 % 4 → v.toNat / 16 % 4 ≤ 2 →
      rd s.m F.RING_STATE_INS = 0 → s.m.ring.unitLost = 0 →
      (∀ t, s.m.ring.failAt = some t → t + rd s.m F.RING_MKA_RETRY_S * 8000 ≤ s.m.ticks) →
      Answers (.ringEnableSet v) s (fun n => rd n F.RING_CTRL_ENABLE = 1 ∧ rd n F.RING_STATE_INS = 1 ∧ Reported 0x01 0x0102 s.m n)) ∧
    (mayInsert s.m = true → Answers .insertRetry s (fun n => rd n F.RING_STATE_INS = 1 ∧ Reported 0x01 0x0102 s.m n)) ∧
    (rd s.m F.RING_STATE_INS = 1 →
      (s.m.ring.since + 160 ≤ s.m.ticks →
        Answers (.loopbackTestDone true) s (fun n => n.ring = { s.m.ring with loopOk := true } ∧ n.regs = s.m.regs ∧ n.out = s.m.out)) ∧
      (s.m.ring.loopOk = true → let n := closingTick s.m
        rd n F.RING_STATE_INS = 2 ∧ n.ring.bypA = true ∧ n.ring.bypB = true ∧ n.ring.closing = s.m.ticks ∧ Reported 0x01 0x0102 s.m n) ∧
      Answers (.loopbackTestDone false) s (fun n => rd n F.RING_STATE_INS = 0 ∧ n.ring.bypA = false ∧ n.ring.bypB = false ∧
        n.ring.failAt = some s.m.ticks ∧ Reported 0x01 0x0102 s.m n)) ∧
    (rd s.m F.RING_STATE_INS = 2 → s.m.ring.closing + rd s.m F.RING_TIMERS_RELAY_MS * 8 ≤ s.m.ticks →
      (linkUp s.m 0 = true ∨ linkUp s.m 1 = true) →
      (secure s.m 0 = false → secure s.m 1 = false →
        Answers .relaySettled s (fun n => rd n F.RING_STATE_INS = 3 ∧ n.ring.bypA = s.m.ring.bypA ∧ n.ring.bypB = s.m.ring.bypB ∧
          Reported 0x01 0x0102 s.m n)) ∧
      (secure s.m 0 = true ∨ secure s.m 1 = true → flag s.m F.TIM_STATE_LOCKED = false → flag s.m F.TIM_STATE_SOURCE = false →
        Answers .relaySettled s (fun n => rd n F.RING_STATE_INS = 4 ∧ n.ring.bypA = s.m.ring.bypA ∧ n.ring.bypB = s.m.ring.bypB ∧
          Reported 0x01 0x0102 s.m n)))

/-- Leaving: clearing ENABLE or setting FORCE_BYPASS while joined, and no zone latched, floods a leave that names the neighbours' facing ports and
ends FLOOD_DEALS later; KEY_TMO_S after CLOSING a device that has not joined leaves at the next boundary without a ring status, and a ring port
whose link is up without an SA is reported; at its deal both drives drop, and with ENABLE clear the links of the ring ports go down. A unit of the
pass-through set that stops, the XO among them, drops both drives of an inserted device at once and bypasses it. -/
def Obligations.LeavesRing : Prop :=
  (∀ (s : State), Awake s →
    let leaves := fun (n : Mach) => rd n F.RING_STATE_INS = 6 ∧ n.ring.leaveAt = some (floodDeal s.m) ∧
      n.ring.pendingSt = s.m.ring.pendingSt ++ [{ kind := 3, cause := 4, a := { seat := (port s.m 0).peer, port := 1 },
                                                  b := some { seat := (port s.m 1).peer, port := 0 }, eff := floodDeal s.m }]
    (∀ v : Word, flag s.m F.RING_CTRL_ENABLE = true → s.m.ann.latch = [] → rd s.m F.RING_STATE_INS = 5 →
      Answers (.ringEnableClear v) s (fun n => rd n F.RING_CTRL_ENABLE = 0 ∧ leaves n)) ∧
    (∀ v : Word, flag s.m F.RING_CTRL_FORCE_BYPASS = false → s.m.ann.latch = [] → rd s.m F.RING_STATE_INS = 5 →
      Answers (.forceBypass v) s (fun n => rd n F.RING_CTRL_FORCE_BYPASS = 1 ∧ leaves n)) ∧
    (2 ≤ rd s.m F.RING_STATE_INS → rd s.m F.RING_STATE_INS ≤ 4 →
      s.m.ring.closing + rd s.m F.RING_MKA_KEY_TMO_S * 8000 ≤ s.m.ticks →
      Answers .keyingTimeout s (fun n => rd n F.RING_STATE_INS = 6 ∧ n.ring.leaveAt = some (s.m.deal + 1) ∧
        n.ring.pendingSt = s.m.ring.pendingSt ∧
        (∀ p, p < 2 → linkUp s.m p = true → secure s.m p = false → Reported 0x03 0x0302 s.m n))) ∧
    (∀ d, rd s.m F.RING_STATE_INS = 6 → s.m.ring.leaveAt = some d → d ≤ s.m.deal → s.m.pwr.reset = none → s.m.pwr.req = none →
      Answers .leaveDrivesDrop s (fun n => rd n F.RING_STATE_INS = 0 ∧ n.ring.bypA = false ∧ n.ring.bypB = false ∧
        n.ring.leaveAt = none ∧ (flag s.m F.RING_CTRL_ENABLE = false → linkUp n 0 = false ∧ linkUp n 1 = false)))) ∧
  (∀ (s : State), Awake s → rd s.m F.RING_STATE_INS ≠ 0 →
    (∀ unit, Answers (.passThroughUnitLost unit) s (fun n => n.ring.bypA = false ∧ n.ring.bypB = false ∧ rd n F.RING_STATE_INS = 0 ∧
      n.ring.unitLost.testBit unit = true ∧ rd n F.DIAG_ALERT_FLAGS_BYPASS = 1)) ∧
    Answers .xoLoss s (fun n => n.ring.bypA = false ∧ n.ring.bypB = false ∧ rd n F.RING_STATE_INS = 0 ∧ n.ring.unitLost.testBit 1 = true ∧
      rd n F.DIAG_ALERT_FLAGS_BYPASS = 1))

/-- Frames that arrive: one on a ring port that is not secure is dropped and counted. On a secure one, a good frame with a packet number that is
not past is stripped where it is this seat's own; on its last hop, of an EPOCH parity in force, it goes no further, and one for this device is
delivered here. A good frame for this device on a local port, secure where it runs MACsec, is delivered. -/
def Obligations.FramesArrive : Prop :=
  ∀ (s : State), Awake s →
    (∀ p f, p < 2 → secure s.m p = false →
      Answers (.ringFrameReceive p f) s (fun n => n.out = s.m.out ∧ ringCnt n p 0x0305 = ringCnt s.m p 0x0305 + 1 ∧ n.regs = s.m.regs)) ∧
    (∀ p f, p < 2 → secure s.m p = true → (port s.m p).rxPn ≤ f.pn → f.len ≤ 4096 → f.poisoned = false → f.fcsOk = true → f.icvOk = true →
      (∀ h, f.heivo = some h → heivoOk s.m h = true) →
      Answers (.ringFrameReceive p f) s (fun n => (port n p).rxPn = f.pn + 1 ∧ ringCnt n p 0x0101 = ringCnt s.m p 0x0101 + 1 ∧
        (f.origin = ownSeat s.m → n.out = s.m.out ∧ ringCnt n p 0x0106 = ringCnt s.m p 0x0106 + 1) ∧
        (f.origin ≠ ownSeat s.m → (configFor s.m f.epoch).isSome = true → f.hopsLeft ≤ 1 → ringCnt n p 0x0107 = ringCnt s.m p 0x0107 + 1 ∧
          (f.toMe = true → n.out = .deliver p f.ident :: s.m.out ∧ ringCnt n p 0x0105 = ringCnt s.m p 0x0105 + 1) ∧
          (f.toMe = false → n.out = s.m.out)))) ∧
    (∀ p f, p = 2 ∨ p = 3 → portOn s.m p = true → f.poisoned = false → f.len ≤ maxFrame s.m p → f.fcsOk = true →
      (macsecOn s.m p = true → secure s.m p = true ∧ (port s.m p).rxPn ≤ f.pn + 64) → f.macsecOk = true → f.toMe = true →
      Answers (.localFrameReceive p f) s (fun n => n.out = .deliver p f.ident :: s.m.out ∧ n.regs = s.m.regs ∧
        ringCnt n p 0x0105 = ringCnt s.m p 0x0105 + 1))

/-- Egress: the end of a frame returns its tokens, and where no frame waits the port falls idle; the end of a gate interval puts the next entry in
force; a frame of a launch-time queue starts at its time, with its egress stamp, on an idle port that may send and whose gate is open, and is
counted as launched, or as launched late; one later than LATE_NS is discarded and counted. -/
def Obligations.EgressRuns : Prop :=
  ∀ (p now : Nat) (s : State), Awake s → p < 4 →
    (∀ f, (egress s.m p).sending = some f →
      Answers (.egressFrameEnd p now) s (fun n => tokFree n p = (tokFree s.m p + f.tokens) % 2 ^ F.RING_TOK_FREE_FREE.width ∧
        ((egress s.m p).waiting = [] → (egress n p).sending = none ∧ n.out = s.m.out))) ∧
    (rdi s.m F.RING_TAS_CTRL_ENABLE p = 1 → (egress s.m p).oper ≠ [] →
      Answers (.gateIntervalEnd p now) s (fun n =>
        (egress n p).entry = ((egress s.m p).entry + 1) % (egress s.m p).oper.length ∧
        (egress n p).gateEnd = now + ((egress s.m p).oper.getD (((egress s.m p).entry + 1) % (egress s.m p).oper.length) (0, 0)).2)) ∧
    (∀ q f rest, q < 2 → mget [] s.m.tim.queues (2 * p + q) = f :: rest → f.at_ns ≤ now →
      Answers (.launchTimeReached p q now) s (fun n =>
        (f.at_ns + su s.m F.TIM_LAUNCH_LATE_NS < now →
          mget [] n.tim.queues (2 * p + q) = rest ∧ ringCnt n p 0x0403 = ringCnt s.m p 0x0403 + 1 ∧ n.out = s.m.out) ∧
        (now ≤ f.at_ns + su s.m F.TIM_LAUNCH_LATE_NS → maySend s.m p = true → (egress s.m p).sending = none →
          gateOpen p now { tc := f.tc, len := f.len, tokens := 0, transit := false, poisoned := false, ident := f.ident } s.m = true →
          mget [] n.tim.queues (2 * p + q) = rest ∧
          (∃ g, n.out = .egress p g (stampOut s.m p (now * 65536)) :: s.m.out ∧ g.ident = f.ident ∧ g.tc = f.tc ∧ g.len = f.len) ∧
          (f.at_ns = now → ringCnt n p 0x0401 = ringCnt s.m p 0x0401 + 1) ∧
          (f.at_ns < now → ringCnt n p 0x0402 = ringCnt s.m p 0x0402 + 1))))

/-- A write of a gate change's high word arms it, or sets ERR where its deal has passed; in the deal of the first cycle start at or after it the
administrative list, fitted to the cycle, comes into force. GO starts an MDIO transaction with its operands and shows BUSY; its end clears both,
a read leaves what was read in RING_MDIO_DATA, and a PHY poll that waited shows what it found. -/
def Obligations.GateListsAndMdio : Prop :=
  (∀ (p : Nat) (s : State), Awake s → p < 4 →
    (∀ hi : Word,
      let d := rdi s.m F.RING_TAS_CHANGE_LO_DEAL p + hi.toNat * 2 ^ 32
      Answers (.tasChangeArm p hi) s (fun n =>
        (d < s.m.deal → rdi n F.RING_TAS_CTRL_ERR p = 1 ∧ n.ring = s.m.ring) ∧
        (s.m.deal ≤ d → rdi n F.RING_TAS_CTRL_PENDING p = 1 ∧ mget 0 n.ring.changeAt p = d))) ∧
    (let cycle := rdi s.m F.RING_TAS_CYCLE_NS p
     let start := cycleStart (rdi s.m F.RING_TAS_BASE_LO_DEAL p + rdi s.m F.RING_TAS_BASE_HI_DEAL p * 2 ^ 32) (mget 0 s.m.ring.changeAt p) cycle
     let l := tasFit cycle ((List.range (rdi s.m F.RING_TAS_CTRL_ADMIN_LEN p)).map (gclEntry s.m p))
     rdi s.m F.RING_TAS_CTRL_PENDING p = 1 → start < s.m.tim.ns + 125000 →
      Answers (.tasChangeApply p) s (fun n => (egress n p).oper = l ∧ (egress n p).entry = 0 ∧
        (egress n p).gateEnd = start + (l.getD 0 (0, 0)).2 ∧ rdi n F.RING_TAS_CTRL_PENDING p = 0 ∧ n.out = s.m.out))) ∧
  (∀ (s : State), Awake s →
    (∀ v : Word, Answers (.mdioGo v) s (fun n => rd n F.RING_MDIO_CTRL_GO = 1 ∧ rd n F.RING_MDIO_CTRL_BUSY = 1 ∧ n.ring.mdioBusy = true ∧
      rd n F.RING_MDIO_CTRL_PRTAD = v.toNat % 32 ∧ rd n F.RING_MDIO_CTRL_DEVAD = v.toNat / 32 % 32 ∧
      rd n F.RING_MDIO_CTRL_OP = v.toNat / 1024 % 4 ∧ (s.m.ring.mdioBusy = false → n.ring.mdioOp = v.toNat / 1024 % 4))) ∧
    (∀ data, s.m.ring.mdioBusy = true →
      Answers (.mdioDone data) s (fun n => rd n F.RING_MDIO_CTRL_GO = 0 ∧ rd n F.RING_MDIO_CTRL_BUSY = 0 ∧ n.ring.mdioBusy = false ∧
        n.ring.polls = [] ∧ (2 ≤ s.m.ring.mdioOp → rd n F.RING_MDIO_DATA_DATA = data % 2 ^ F.RING_MDIO_DATA_DATA.width) ∧
        (s.m.ring.polls = [] → n.out = s.m.out) ∧
        (∀ p pma pcs, s.m.ring.polls = [(p, pma, pcs)] → (port n p).phy = (pma.testBit 2 && pcs.testBit 2)))))

/-! The media clocks (04). -/

/-- Candidates: one whose edges fail by the loss detector's tests is no longer present; one that qualified and fails so, or that stays out of
tolerance for DWELL_S seconds, stops qualifying and is reported; one that stays within tolerance for QUAL_S seconds qualifies and is reported.
The choice of the reference is then made at the next boundary. -/
def Obligations.CandidatesQualify : Prop :=
  ∀ (i : Nat) (s : State), Awake s → i ≤ 4 →
    (∀ x : RefEdge, i < 4 → lossCause s.m (cand s.m i) x ≠ 0 → rdi s.m F.CLK_REF_STAT_PRESENT i = 1 →
      Answers (.refLoss i x) s (fun n => rdi n F.CLK_REF_STAT_PRESENT i = 0 ∧ rdi n F.CLK_REF_STAT_QUALIFIED i = 0 ∧
        rdi n F.CLK_REF_STAT_IN_TOL i = 0 ∧ n.clk.due.isSome = true ∧
        (rdi s.m F.CLK_REF_STAT_QUALIFIED i = 1 → Reported 0x06 0x0601 s.m n))) ∧
    (qualified s.m i = true → su s.m F.CLK_MON_DWELL_S ≤ (cand s.m i).outRun →
      Answers (.refDisqualified i) s (fun n => rdi n F.CLK_REF_STAT_QUALIFIED i = 0 ∧
        rdi n F.CLK_REF_STAT_PRESENT i = rdi s.m F.CLK_REF_STAT_PRESENT i ∧ n.clk.due.isSome = true ∧ Reported 0x06 0x0601 s.m n)) ∧
    (watched s.m i = true → rdi s.m F.CLK_REF_STAT_PRESENT i = 1 → rdi s.m F.CLK_REF_STAT_QUALIFIED i = 0 →
      su s.m F.CLK_MON_QUAL_S ≤ (cand s.m i).inRun →
      Answers (.refQualified i) s (fun n => rdi n F.CLK_REF_STAT_QUALIFIED i = 1 ∧ n.clk.due.isSome = true ∧ Reported 0x06 0x0602 s.m n))

/-- The 1 s bins enter a measured candidate's mean offset and the history; the control word stays as it is without a reference, and within 200 ppm
where the servo moves it (how far a second moves it is free, assumption log 88). 61 s of lock make the history valid; the first edge of a new
reference ends the bridging and is reported; after each full hour of lock the mean of the window that ended ten minutes before is saved, rounded as
the device does (assumption log 91). In
holdover each second counts, and outside free run the error estimate follows its formula, and its rise to the limit sets the flag. -/
def Obligations.ServoRuns : Prop :=
  (∀ (s : State), Awake s →
    (∀ (b : RefBin) (i : Nat) (x : Int), i < 5 → watched s.m i = true → binOffset s.m b i = some x →
      Answers (.refBin b) s (fun n =>
        let bins := (x :: (cand s.m i).bins).take (su s.m F.CLK_MON_AVG_S)
        rdi n F.CLK_REF_STAT_PRESENT i = 1 ∧ (cand n i).bins = bins ∧ rdi n F.CLK_REF_OFS_PPB i = s2n 32 (meanOf bins) ∧
        n.clk.hist = ((n.clk.ctl, b.temp) :: s.m.clk.hist).take 4200 ∧ (n.clk.ctl = s.m.clk.ctl ∨ n.clk.ctl.natAbs ≤ 200000) ∧
        (rd s.m F.CLK_STATE_SEL = 7 → n.clk.ctl = s.m.clk.ctl))) ∧
    (61 ≤ s.m.clk.lockedSec → Answers .histValidSet s (fun n => rd n F.CLK_STATE_HIST_VALID = 1 ∧ n.clk = s.m.clk ∧ n.out = s.m.out)) ∧
    (∀ phase : Int, flag s.m F.CLK_STATE_BRIDGING = true →
      Answers (.refFirstEdge phase) s (fun n => rd n F.CLK_STATE_BRIDGING = 0 ∧ n.clk.absorbed = phase ∧ Reported 0x06 0x0603 s.m n)) ∧
    (flag s.m F.CLK_CTRL_SAVE_EN = true → rd s.m F.CLK_STATE_MODE = 2 → s.m.clk.lockedSec ≠ 0 → s.m.clk.lockedSec % 3600 = 0 →
      ∀ ctl temp, Answers (.savedValueStore ctl temp) s (fun n =>
        n.clk.saved = some { ctl := roundedMean ((savedWindow s.m).map Prod.fst) ctl, temp := roundedMean ((savedWindow s.m).map Prod.snd) temp,
                             sec := domSec s.m - 600 } ∧
        rd n F.CLK_SAVED_AGE_SEC = 600 ∧ n.out = s.m.out))) ∧
  (∀ (temp : Int) (s : State) (h : Holdover), Awake s → s.m.clk.hold = some h →
    Answers (.holdoverEstimate temp) s (fun n =>
      let h1 := { h with sumTemp := h.sumTemp + (temp - h.tempRef).natAbs }
      let e := min (holdEstimate s.m h1 (rd n F.CLK_HOLD_SEC_SEC)) 0xFFFFFFFF
      let oos := decide (su s.m F.CLK_HOLD_LIMIT_NS ≤ e)
      rd n F.CLK_HOLD_SEC_SEC = min (2 ^ 32 - 1) (rd s.m F.CLK_HOLD_SEC_SEC + 1) ∧
      (h.kind ≠ 2 → n.clk.hold = some { h1 with oos := oos } ∧ rd n F.CLK_HOLD_EST_NS = e ∧
        (oos = true → h.oos = false → rd n F.CLK_FLAGS_HOLDOVER_OUT_OF_SPEC = 1)) ∧
      (h.kind = 2 → n.clk.hold = some h1 ∧ rd n F.CLK_HOLD_EST_NS = rd s.m F.CLK_HOLD_EST_NS)))

/-- Outputs: the fourth good window of a running output sets its lock bit; an active SYNC_IN edge disarms and puts the outputs of the armed mask
under alignment to it, starting those that are stopped, and an output in SYNC mode takes every further edge as its instant; the end of a ramp
segment starts the next one, or holds the final offset and is reported. -/
def Obligations.OutputsAlign : Prop :=
  ∀ (s : State), Awake s →
    (∀ (a : Nat) (f ph : Int), a < 24 → (aligner s.m a).st = .on → (aligner s.m a).good = 3 →
      (rd s.m F.CLK_AL_LOCK_LOCK).testBit a = false → f.natAbs ≤ su s.m F.CLK_LOCK_PPM * 1000 →
      (ph.natAbs ≤ 1000 ∨ (aligner s.m a).mode = 2) →
      Answers (.alignerWindowEnd a f ph) s (fun n => (rd n F.CLK_AL_LOCK_LOCK).testBit a = true ∧ (aligner n a).good = 4)) ∧
    (∀ ns, (flag s.m F.CLK_SYNC_STAT_ARMED = true →
        Answers (.syncInEdge ns) s (fun n => rd n F.CLK_SYNC_STAT_ARMED = 0 ∧ n.clk.syncArm = 0 ∧ n.clk.syncEdge = ns ∧
          n.clk.syncWait = s.m.clk.syncArm ∧
          (∀ a, a < 24 → s.m.clk.syncArm.testBit a = true →
            ((aligner s.m a).st = .on → (aligner n a).st = .on ∧ (aligner n a).mode = 3 ∧ (aligner n a).ref = ns ∧
              (aligner n a).ofs = s.m.clk.syncOfs) ∧
            ((aligner s.m a).st = .stopped → (aligner s.m a).hz ≠ 0 → (aligner n a).st = .search 0 ∧ (aligner n a).mode = 3 ∧
              (aligner n a).ref = ns ∧ (aligner n a).ofs = s.m.clk.syncOfs)))) ∧
      (flag s.m F.CLK_SYNC_STAT_ARMED = false →
        Answers (.syncInEdge ns) s (fun n => n.regs = s.m.regs ∧
          ∀ a, a < 24 → (aligner s.m a).mode = 3 → (aligner s.m a).st ≠ .stopped → (aligner n a).ref = ns))) ∧
    (∀ k g rest, 1 ≤ k → k ≤ 7 → (ramp s.m k).segs = g :: rest → g.dur ≤ (ramp s.m k).pos →
      Answers (.rampSegmentEnd k) s (fun n => (ramp n k).segs = rest ∧ (ramp n k).pos = 0 ∧ (ramp n k).start = g.target ∧
        rdi n F.CLK_RAMP_OFS_PPB k = s2n 32 g.target ∧ (rest = [] → Reported 0x06 0x0608 s.m n)))

/-- REF_CONFIG configures a candidate or disables it, sets the tolerance of domain time, starts a stopped output or stops one, sets the selector,
and arms SYNC_IN; RAMP_LOAD gives an engine its profile for a running FREE output, from the offset it stands at. All complete DONE. -/
def Obligations.ClockCommands : Prop :=
  ∀ (c : Cmd) (s : State), Awake s →
    (Plain 0x0601 c s.m → u8 c 24 = 0 → u8 c 25 < 4 → u8 c 26 ≤ 7 → u8 c 27 ≤ 1 → (u8 c 27 = 1 → u32 c 28 = 0 ∧ u16 c 32 = 0) →
      (u8 c 27 = 0 → u16 c 32 ≠ 0 ∧ 8000 * u16 c 32 ≤ u32 c 28 ∧ u32 c 28 ≤ 50000000 * u16 c 32) → 1 ≤ u16 c 34 → u16 c 34 ≤ 2000 →
      Answers (.refConfig c) s (fun n => rdi n F.CLK_REF_STAT_ENABLED (u8 c 25) = 1 ∧ rdi n F.CLK_REF_STAT_RANK (u8 c 25) = u8 c 26 ∧
        rdi n F.CLK_REF_STAT_TOL (u8 c 25) = u16 c 34 ∧ (cand n (u8 c 25)).pps = (u8 c 27 == 1) ∧ (cand n (u8 c 25)).hz = u32 c 28 ∧
        (cand n (u8 c 25)).den = u16 c 32 ∧ Completed 0x0601 stDone c s.m n)) ∧
    (Plain 0x0601 c s.m → u8 c 24 = 0 → u8 c 25 < 4 → u8 c 26 = 0xFF →
      Answers (.refConfig c) s (fun n => rdi n F.CLK_REF_STAT_ENABLED (u8 c 25) = 0 ∧ rdi n F.CLK_REF_STAT_QUALIFIED (u8 c 25) = 0 ∧
        rdi n F.CLK_REF_STAT_PRESENT (u8 c 25) = 0 ∧ Completed 0x0601 stDone c s.m n)) ∧
    (Plain 0x0601 c s.m → u8 c 24 = 0 → u8 c 25 = 4 → exists4 s.m = true → u8 c 26 = 0 → u8 c 27 = 0 → u32 c 28 = 0 → u16 c 32 = 0 →
      1 ≤ u16 c 34 → u16 c 34 ≤ 2000 →
      Answers (.refConfig c) s (fun n => rdi n F.CLK_REF_STAT_TOL 4 = u16 c 34 ∧ Completed 0x0601 stDone c s.m n)) ∧
    (Plain 0x0601 c s.m → u8 c 24 = 1 → u8 c 25 < 24 → u8 c 26 = 1 →
      outputOk (u8 c 25) (u32 c 28) (u16 c 32) (u8 c 27) (s32 c 36) = true → (aligner s.m (u8 c 25)).st = .stopped →
      Answers (.refConfig c) s (fun n => (aligner n (u8 c 25)).st = .search 0 ∧ (aligner n (u8 c 25)).hz = u32 c 28 ∧
        (aligner n (u8 c 25)).den = u16 c 32 ∧ (aligner n (u8 c 25)).mode = u8 c 27 ∧ (aligner n (u8 c 25)).ofs = s32 c 36 ∧
        Completed 0x0601 stDone c s.m n)) ∧
    (Plain 0x0601 c s.m → u8 c 24 = 1 → u8 c 25 < 24 → u8 c 26 = 0 →
      Answers (.refConfig c) s (fun n => (aligner n (u8 c 25)).st = .stopped ∧ Completed 0x0601 stDone c s.m n)) ∧
    (Plain 0x0601 c s.m → u8 c 24 = 2 → u8 c 25 ≤ 3 → (u8 c 25 = 3 → u8 c 26 ≤ 4 ∧ qualified s.m (u8 c 26) = true) →
      Answers (.refConfig c) s (fun n =>
        n.clk.mode = (if u8 c 25 = 0 then .auto else if u8 c 25 = 1 then .holdover else if u8 c 25 = 2 then .freeRun else .cand (u8 c 26)) ∧
        (u8 c 25 = 1 ∨ u8 c 25 = 2 → rd n F.CLK_STATE_SEL = 7) ∧ (u8 c 25 = 3 → rd n F.CLK_STATE_SEL = u8 c 26) ∧
        Completed 0x0601 stDone c s.m n)) ∧
    (Plain 0x0601 c s.m → u8 c 24 = 3 → u8 c 25 ≤ 1 → u32 c 28 < 2 ^ 24 → (bitsOf 24 (u32 c 28)).any (rampOn s.m) = false →
      Answers (.refConfig c) s (fun n => n.clk.syncArm = u32 c 28 ∧ n.clk.syncOfs = s32 c 36 ∧
        rd n F.CLK_SYNC_STAT_ARMED = b2n (u32 c 28 != 0) ∧ rd n F.CLK_SYNC_STAT_POL = u8 c 25 ∧ Completed 0x0601 stDone c s.m n)) ∧
    (Plain 0x0602 c s.m → 1 ≤ u8 c 24 → u8 c 24 ≤ 7 → u8 c 25 < 24 → 1 ≤ u16 c 26 → u16 c 26 ≤ 16 → bufLen c = 16 * u16 c 26 →
      bufOk c false s.m = true → (records 16 (u16 c 26) (bufBytes c)).all segOk = true → (aligner s.m (u8 c 25)).st = .on →
      (aligner s.m (u8 c 25)).mode = 2 → (∀ j, j < 8 → j ≠ u8 c 24 → (ramp s.m j).output ≠ some (u8 c 25)) →
      Answers (.rampLoad c) s (fun n => (ramp n (u8 c 24)).output = some (u8 c 25) ∧ (ramp n (u8 c 24)).pos = 0 ∧
        (ramp n (u8 c 24)).segs = (records 16 (u16 c 26) (bufBytes c)).map segOf ∧
        (ramp n (u8 c 24)).start = n2s 32 (rdi s.m F.CLK_RAMP_OFS_PPB (u8 c 24)) ∧ Completed 0x0602 stDone c s.m n))

/-! Domain time (05). -/

/-- Markers: one of a generation or source not followed yet, from a peer, gives theta by its own fields and the link delay, makes its direction
valid at once, is followed and reported; once in a deal, MARKER_US after the boundary, a marker leaves a ring port that may send, with this
seat's fields, and one past LATE_NS is discarded and counted; a direction without a record in a deal leaves the average, and the last one to go
unlocks time. -/
def Obligations.MarkersCarryTime : Prop :=
  ∀ (p : Nat) (s : State), Awake s → p < 2 →
    (∀ k : MarkerIn, k.version = 1 → (rd s.m F.DOM_STATE_ROLE = 0 ∨ k.tableId = rd s.m F.DOM_TABLE_TABLE_ID) → k.flags.testBit 3 = false →
      flag s.m F.TIM_STATE_SOURCE = false → rd s.m F.TIM_CTRL_MODE = 0 →
      (srcSeat s.m = 0xFFFF ∨ (newerGen (rd s.m F.TIM_GEN_GEN) k.gen = false ∧ k.gen ≠ rd s.m F.TIM_GEN_GEN)) → k.srcSeat < 0xFFFF →
      k.gen < 2 ^ 16 → (timeDir s.m p).followed ≠ some (k.gen, k.srcSeat) →
      Answers (.markerReceive p k) s (fun n => srcSeat n = k.srcSeat ∧ rd n F.TIM_GEN_GEN = k.gen ∧ (timeDir n p).valid = true ∧
        (timeDir n p).theta = toPs ((stampIn s.m p k.ingress : Int) - ((k.origin : Int) + k.corr + linkIn n p)) ∧
        (timeDir n p).recDeal = s.m.deal ∧ (timeDir n p).hops = k.hops ∧ n.tim.lastRec = s.m.deal ∧ Reported 0x04 0x0405 s.m n)) ∧
    (∀ at_, maySend s.m p = true → 4 ≤ carries s.m → (port s.m p).markDeal < s.m.deal → markerAt s.m * 65536 ≤ at_ →
      Answers (.markerLaunch p at_) s (fun n =>
        let st := stampOut s.m p at_
        let pay := markerPay s.m p st
        (port n p).markDeal = s.m.deal ∧
        (at_ ≤ (markerAt s.m + su s.m F.TIM_LAUNCH_LATE_NS) * 65536 → NewOut s.m n (.heivo p 1 none (heivoHdr 1 pay s.m) pay) ∧
          (timeDir n p).sent = (st :: (timeDir s.m p).sent).take 4 ∧ (timeDir n (1 - p)).forward = false) ∧
        ((markerAt s.m + su s.m F.TIM_LAUNCH_LATE_NS) * 65536 < at_ → n.out = s.m.out ∧
          ringCnt n p 0x0403 = ringCnt s.m p 0x0403 + 1))) ∧
    ((timeDir s.m p).valid = true → (timeDir s.m p).recDeal < s.m.deal →
      Answers (.timeDirectionLost p) s (fun n => (timeDir n p).valid = false ∧
        rd n (if p = 0 then F.TIM_STATE_PATH_A else F.TIM_STATE_PATH_B) = 0 ∧
        ((timeDir s.m (1 - p)).valid = false → flag s.m F.TIM_STATE_EVER_LOCKED = true → flag s.m F.TIM_STATE_HOLD = false →
          flag s.m F.TIM_STATE_SOURCE = false → rd n F.TIM_STATE_HOLD = 1 ∧ rd n F.TIM_STATE_LOCKED = 0 ∧ Reported 0x04 0x0402 s.m n)))

/-- The one step sets domain time to the estimate and fixes the next deal; after TIM_LOCK.DEALS deals within TIM_LOCK.NS lock is declared and
reported, and domain time is present as a candidate where it is one. A change of source beyond TIM_STEP.NS is slewed instead, flagged and
reported, and domain time does not move; at the end SLEWING clears, the end is reported, and lock is to be declared anew. -/
def Obligations.TimeLocks : Prop :=
  (∀ (s : State), Awake s →
    (s.m.tim.stepped = false → flag s.m F.TIM_STATE_EVER_LOCKED = false → flag s.m F.TIM_STATE_SOURCE = false → avgFull s.m = true →
      s.m.tim.avg ≠ [] →
      Answers .timeFirstStep s (fun n =>
        let u := ((s.m.tim.ns * 65536 + s.m.tim.frac : Nat) - ofPs (thetaAvg s.m) : Int).toNat
        n.tim.stepped = true ∧ n.tim.ns = u / 65536 ∧ n.tim.frac = u % 65536 ∧
        n.tim.next = some ((u + 125000 * 65536 - 1) / (125000 * 65536)) ∧ n.deal = s.m.deal ∧ n.regs = s.m.regs)) ∧
    (s.m.tim.stepped = true → (flag s.m F.TIM_STATE_LOCKED = false ∨ s.m.tim.relock = true) → flag s.m F.TIM_STATE_SLEWING = false →
      s.m.tim.judge = false → flag s.m F.TIM_STATE_HOLD = false → su s.m F.TIM_LOCK_DEALS ≤ s.m.tim.lockRun →
      Answers .timeLock s (fun n => rd n F.TIM_STATE_LOCKED = 1 ∧ rd n F.TIM_STATE_EVER_LOCKED = 1 ∧ rd n F.TIM_STATE_HOLD = 0 ∧
        (exists4 s.m = true → rdi n F.CLK_REF_STAT_PRESENT 4 = 1) ∧ Reported 0x04 0x0401 s.m n))) ∧
  (∀ (s : State), Awake s →
    (s.m.tim.judge = true → flag s.m F.TIM_STATE_EVER_LOCKED = true → avgFull s.m = true →
      su s.m F.TIM_STEP_NS * 1000 < (thetaAvg s.m).natAbs →
      Answers .stepRefused s (fun n => rd n F.TIM_STATE_SLEWING = 1 ∧ rd n F.TIM_FLAGS_STEP_REFUSED = 1 ∧ n.tim.slewRem = thetaAvg s.m ∧
        n.tim.ns = s.m.tim.ns ∧ n.tim.frac = s.m.tim.frac ∧ Reported 0x04 0x0403 s.m n)) ∧
    (flag s.m F.TIM_STATE_SLEWING = true → s.m.tim.slewRem = 0 →
      Answers .slewDone s (fun n => rd n F.TIM_STATE_SLEWING = 0 ∧ rdi n F.CLK_RAMP_OFS_PPB 0 = 0 ∧ n.tim.relock = true ∧
        n.tim.ns = s.m.tim.ns ∧ Reported 0x04 0x0404 s.m n)))

/-- The time unit is set: at the 1 PPS edge that the source waited for, its time starts at TIM_TOD_SEC with the next deal; a write of TIM_CTRL that
changes MODE restarts the unit without lock, and in MODE 1 the device is a source; PPS_OUT rises for WIDTH_MS at a whole second where it is
enabled and time has been locked, and else stays. -/
def Obligations.TimeUnitIsSet : Prop :=
  ∀ (s : State), Awake s →
    (s.m.tim.todWait = true →
      Answers .todPpsEdge s (fun n => n.tim.todWait = false ∧
        n.tim.starts = some ((rd s.m F.TIM_TOD_SEC_HI_SEC * 2 ^ 32 + rd s.m F.TIM_TOD_SEC_LO_SEC) * 8000) ∧ n.regs = s.m.regs)) ∧
    (∀ v : Word, flag s.m F.SYS_LOCK_LOCK = false → v.toNat % 4 ≠ 3 → v.toNat % 4 ≠ rd s.m F.TIM_CTRL_MODE →
      Answers (.timModeWrite v) s (fun n => rd n F.TIM_CTRL_MODE = v.toNat % 4 ∧ rd n F.TIM_STATE_LOCKED = 0 ∧
        rd n F.TIM_STATE_EVER_LOCKED = 0 ∧ n.tim.stepped = false ∧ n.tim.avg = [] ∧
        (v.toNat % 4 = 1 → rd n F.TIM_STATE_SOURCE = 1))) ∧
    (su s.m F.TIM_CTRL_PPS_OUT_EN = 1 → flag s.m F.TIM_STATE_EVER_LOCKED = true →
      Answers .ppsOutSecond s (fun n => n.tim.ppsOut = true ∧ n.tim.ppsEnd = s.m.deal + 8 * su s.m F.TIM_PPS_WIDTH_MS ∧ n.regs = s.m.regs)) ∧
    (flag s.m F.TIM_STATE_EVER_LOCKED = false → Answers .ppsOutSecond s (fun n => n = s.m))

/-- Local PTP ports: an Announce of the port's own instance leads it to the state that its role and the better grandmaster give, and a change is
reported; a Sync of a slave port gives its offset, in MODE 2 as theta; a delay measurement gives the path delay, by the two standards' formulas
(assumption log 92); one of a master that the port's own outranks moves nothing; a message that is due leaves; a timeout leads to the best
other master that is heard, else to master, or, of a slave-only port, to listening. -/
def Obligations.PtpPortsRun : Prop :=
  ∀ (l : Nat) (s : State), Awake s → l < 2 →
    let follows := fun (g : GmSet) (n : Mach) =>
      rdi n F.TIM_PTP_STAT_STATE l = ptpDecide s.m l (gmOrder g) ∧ (ptpPort n l).gmId = g.gmId ∧
      rdi n F.TIM_PTP_STAT_GM_CLASS l = g.cls % 2 ^ F.TIM_PTP_STAT_GM_CLASS.width ∧
      rdi n F.TIM_PTP_STAT_STEPS l = g.steps % 2 ^ F.TIM_PTP_STAT_STEPS.width ∧
      (rdi s.m F.TIM_PTP_STAT_STATE l ≠ ptpDecide s.m l (gmOrder g) → Reported 0x04 0x0407 s.m n)
    (∀ k : PtpIn, ptpMine s.m l k = true →
      (∀ g, k.body = .announce g →
        Answers (.ptpMessageReceive l k) s (fun n => rdi n F.TIM_PTP_STAT_AS_CAPABLE l = b2n (k.asCapable && k.gptp) ∧
          (ptpOutranked s.m l g = true → n.tim = s.m.tim ∧ n.out = s.m.out ∧ rdi n F.TIM_PTP_STAT_STATE l = rdi s.m F.TIM_PTP_STAT_STATE l) ∧
          (ptpOutranked s.m l g = false → follows g n))) ∧
      (∀ t1 t2, k.body = .sync t1 t2 → rdi s.m F.TIM_PTP_STAT_STATE l = 9 →
        Answers (.ptpMessageReceive l k) s (fun n =>
          (ptpPort n l).offset = toPs ((stampIn s.m (2 + l) t2 : Int) - t1) - (ptpPort s.m l).pathDelay ∧
          (rd s.m F.TIM_CTRL_MODE = 2 → (timeDir n 2).theta = (ptpPort n l).offset ∧ (timeDir n 2).recDeal = s.m.deal))) ∧
      (∀ t1 t2 t3 t4, k.body = .delay t1 t2 t3 t4 →
        Answers (.ptpMessageReceive l k) s (fun n =>
          (k.gptp = false → (ptpPort n l).pathDelay =
            toPs ((((ptpPort s.m l).t2 : Int) - (ptpPort s.m l).t1 + ((t4 : Int) - stampOut s.m (2 + l) t3)) / 2)) ∧
          (k.gptp = true → (ptpPort n l).pathDelay =
            toPs (((stampIn s.m (2 + l) t4 : Int) - stampOut s.m (2 + l) t1 -
              (((t3 : Int) - t2) - ((t3 : Int) - t2) * (ptpPort n l).rateRatio / 2 ^ 41)) / 2))))) ∧
    (∀ kind, kind ≤ 2 → ptpRuns s.m l = true → ptpSends s.m l kind = true →
      (∀ t, mfind (ptpPort s.m l).sent kind = some t → t + ptpEvery s.m l kind ≤ s.m.ticks) →
      Answers (.ptpMessageInterval l kind) s (fun n => NewOut s.m n (.ptp (2 + l) kind (ptpPay s.m l)) ∧
        mfind (ptpPort n l).sent kind = some s.m.ticks)) ∧
    (ptpRuns s.m l = true → ptpForced s.m l = false → ptpTimeoutAt s.m l ≤ s.m.ticks →
      Answers (.ptpAnnounceTimeout l none) s (fun n => rdi n F.TIM_PTP_STAT_STATE l = (if ptpRole s.m l = 5 then 4 else 6)) ∧
      ∀ g, Answers (.ptpAnnounceTimeout l (some g)) s (follows g))

/-- The interval counter: an edge past the filter is counted, and the one that completes DIV + 1 enters its channel's capture FIFO with its stamp
and sequence number; so does each whole second with ANCHOR set, as channel 8; a lost timebase holds the counter clock, and its return clears
TB_HOLD; both are reported. -/
def Obligations.IntervalCounterStamps : Prop :=
  ∀ (coarse fine : Nat) (s : State), Awake s → flag s.m F.TIC_CTRL_ENABLE = true →
    let enters := fun (ch : Nat) (n : Mach) =>
      (fifo n (0x0700 + ch)).captured = (fifo s.m (0x0700 + ch)).captured + 1 ∧
      (∃ flags epoch, (fifo n (0x0700 + ch)).entries = (fifo s.m (0x0700 + ch)).entries ++
        [{ deal := s.m.deal, code := 0x0701,
           pay := [(1, ch), (1, flags), (1, epoch), (1, 0), (8, ticStamp coarse fine), (4, mget 0 s.m.tic.seq ch)] }]) ∧
      mget 0 n.tic.seq ch = (mget 0 s.m.tic.seq ch + 1) % 2 ^ 32
    (∀ ch falling, ch < 8 → ticTakes s.m ch falling = true → (∀ t, mfind s.m.tic.lastAt ch = some t → t + 512 ≤ coarse * 64 + fine) →
      (mget 0 s.m.tic.edges ch < rdi s.m F.TIC_CH_DIV ch →
        Answers (.ticEdgeCapture ch coarse fine falling) s (fun n => mget 0 n.tic.edges ch = mget 0 s.m.tic.edges ch + 1 ∧ n.hif = s.m.hif)) ∧
      (rdi s.m F.TIC_CH_DIV ch ≤ mget 0 s.m.tic.edges ch → (fifo s.m (0x0700 + ch)).entries.length < 64 →
        Answers (.ticEdgeCapture ch coarse fine falling) s (fun n => enters ch n ∧ mget 0 n.tic.edges ch = 0))) ∧
    (flag s.m F.TIC_CTRL_ANCHOR = true → (fifo s.m 0x0708).entries.length < 64 →
      Answers (.ticAnchor coarse fine) s (fun n => enters 8 n)) ∧
    (s.m.tic.tbExt = true → flag s.m F.TIC_STATUS_TB_HOLD = false →
      Answers (.ticTimebaseLost coarse) s (fun n => rd n F.TIC_STATUS_TB_HOLD = 1 ∧ rd n F.TIC_STATUS_TB_LOCKED = 0 ∧
        rd n F.TIC_FLAGS_TB_LOST = 1 ∧ Reported 0x07 0x0702 s.m n)) ∧
    (s.m.tic.tbExt = true → (flag s.m F.TIC_STATUS_TB_LOCKED = false ∨ flag s.m F.TIC_STATUS_EXT_PRESENT = false) →
      Answers (.ticTimebaseRelock coarse) s (fun n => rd n F.TIC_STATUS_TB_HOLD = 0 ∧ rd n F.TIC_STATUS_TB_LOCKED = 1 ∧
        rd n F.TIC_STATUS_EXT_PRESENT = 1 ∧ Reported 0x07 0x0702 s.m n))

/-! Serial and biphase ports (13). -/

/-- PORT_START_GROUP starts every direction of its mask with one data deal and lists the start; PORT_STOP stops the running directions
of its mask at this deal, leaves every other, and ends the starts that name one of them. -/
def Obligations.PortsStartAndStop : Prop :=
  ∀ (c : Cmd) (s : State), Awake s → u64 c 24 ≠ 0 → u64 c 24 < 2 ^ 48 →
    (Plain 0x0501 c s.m → (bitsOf 48 (u64 c 24)).all (dirOk s.m) = true → foldEntry s.m = none →
      Answers (.portStartGroup c) s (fun n =>
        let data := s.m.deal + silentDeals s.m (maxOf 0 ((bitsOf 48 (u64 c 24)).map (silentOf s.m)))
        n.sap.starts = s.m.sap.starts ++ [⟨u64 c 24, data, u64 c 24⟩] ∧
        (∀ d ∈ bitsOf 48 (u64 c 24), ∃ x, dirOf n d = some x ∧ x.begin_ = data * spd s.m ∧ x.left = silentOf s.m d ∧ x.stopAt = none) ∧
        (∀ d, (u64 c 24).testBit d = false → dirOf n d = dirOf s.m d) ∧ Completed 0x0501 stDone c s.m n)) ∧
    (Plain 0x0502 c s.m ∨ Signed 0x0502 c s.m →
      Answers (.portStop c) s (fun n =>
        (∀ d x, (u64 c 24).testBit d = true → dirOf s.m d = some x → x.stopAt = none → dirOf n d = some { x with stopAt := some s.m.deal }) ∧
        (∀ d, (u64 c 24).testBit d = false → dirOf n d = dirOf s.m d) ∧
        n.sap.starts = s.m.sap.starts.filter (fun x => x.left &&& u64 c 24 == 0) ∧ n.str = s.m.str ∧
        Completed 0x0502 stDone c s.m n))

/-- A running serial direction: an aligned frame start of the B domain is counted; a slipped direction restarts after its slip, or once its
group has locked again, zero until its data resume; a clock that stops and a rate that has moved past TOL are recorded, and a rate and a mask
are shown. A word that its FIFO lost, and a second frame start away from its place, is a slip: counted, reported, and the direction sends zero
from the next frame until it restarts, or runs on. -/
def Obligations.SerialDirectionsRun : Prop :=
  ∀ (d : Nat) (x : Dir) (s : State), Awake s → d < 32 → dirOf s.m d = some x →
    let recorded := fun (cause mhz : Nat) (n : Mach) => (fifo s.m 0x0800).entries.length < 64 →
      (fifo n 0x0800).entries = (fifo s.m 0x0800).entries ++ [⟨s.m.deal, 0x0801, [(1, d), (1, cause), (1, nominalOf mhz), (1, 0), (4, x.rate), (4, mhz), (4, 0)]⟩]
    let restarts := fun (domA : Bool) (n : Mach) => (∃ y, dirOf n d = some y ∧ y.restart = none ∧ y.gwait = false ∧ y.data = false ∧
        y.left = x.silent ∧ y.zlo.isSome = true ∧ y.zhi = some ((s.m.deal + silentDeals s.m x.silent) * spd s.m) ∧ y.domA = domA) ∧
      mget 0 n.sap.cnt (d * 2 ^ 16 + 0x0807) = mget 0 s.m.sap.cnt (d * 2 ^ 16 + 0x0807) + 1
    (∀ f : FrameIn, f.dir = d → f.away = false → f.fifo = false → x.domA = false → x.susp = false → x.zlo = none → x.data = true →
      x.clock = true →
      Answers (.sapFrameStart f) s (fun n => dirOf n d = some { x with frames := x.frames + 1, syncRun := 0 } ∧
        mget 0 n.sap.cnt (d * 2 ^ 16 + (if 16 ≤ d then 0x0802 else 0x0805)) =
          mget 0 s.m.sap.cnt (d * 2 ^ 16 + (if 16 ≤ d then 0x0802 else 0x0805)) + 1 ∧ n.regs = s.m.regs)) ∧
    (∀ r, x.gwait = false → x.restart = some r → r < s.m.deal → Answers (.sapRestart d) s (restarts x.domA)) ∧
    (x.gwait = true → (rd s.m F.CLK_AL_LOCK_LOCK).testBit (8 + x.grp) = true →
      Answers (.sapRestart d) s (restarts (groupDomA s.m x.grp (x.slots * x.width)))) ∧
    (x.clock = true → x.master = false →
      Answers (.sapClockLoss d) s (fun n => dirOf n d = some { x with rate := 0, clock := false, inRange := 0 } ∧
        sapRd n F.SAP_x_STAT_CLOCK d = 0 ∧ recorded 2 0 n)) ∧
    (∀ mhz, mhz < 2 ^ F.SAP_x_RATE_MHZ.width →
      Answers (.sapRateUpdate d mhz) s (fun n => sapRd n F.SAP_x_RATE_MHZ d = mhz ∧ sapRd n F.SAP_x_RATE_NOMINAL d = nominalOf mhz ∧
        (rd s.m F.SAP_RATE_TOL_PPM * x.rate < ((x.rate : Int) - mhz).natAbs * 1000000 →
          (∃ y, dirOf n d = some y ∧ y.rate = mhz ∧ y.clock = true) ∧ recorded 3 mhz n) ∧
        (((x.rate : Int) - mhz).natAbs * 1000000 ≤ rd s.m F.SAP_RATE_TOL_PPM * x.rate →
          (∃ y, dirOf n d = some y ∧ y.rate = x.rate ∧ y.clock = x.clock) ∧ fifo n 0x0800 = fifo s.m 0x0800))) ∧
    (∀ v : Word, Answers (.sapMaskWrite d v) s (fun n => sapRd n F.SAP_x_MASK_SLOT d = v.toNat ∧ n.sap = s.m.sap ∧ n.out = s.m.out)) ∧
    (∀ f : FrameIn, f.dir = d → f.offset < 2 ^ F.SAP_x_STAT_OFFSET.width →
      (f.fifo = true ∨ (f.away = true ∧ x.master = false ∧ 1 ≤ x.syncRun)) → x.zlo = none → x.stopAt = none →
      Answers (.sapFrameStart f) s (fun n => sapRd n F.SAP_x_STAT_OFFSET d = f.offset ∧
        mget 0 n.sap.cnt (d * 2 ^ 16 + 0x0806) = mget 0 s.m.sap.cnt (d * 2 ^ 16 + 0x0806) + 1 ∧ Reported 0x08 0x0802 s.m n ∧
        (autoRestart s.m d = true → ∃ y, dirOf n d = some y ∧ y.zlo = some (s.m.deal * spd s.m + f.k) ∧ y.restart = some s.m.deal) ∧
        (autoRestart s.m d = false → ∃ y, dirOf n d = some y ∧ y.slipped = true ∧ y.zlo = none)))

/-- A biphase receiver locks and loses lock, each recorded; it counts its errors of either kind and reports the first of a run; at the end of
a block it shows the V bits and latches the block, but one of professional use whose CRCC fails is counted and not latched. A transmitter
keeps a load request with its deal, a further one while it waits changes nothing, and the first block start after that deal makes the shadow words
active. -/
def Obligations.BiphasePortsRun : Prop :=
  (∀ (r : Nat) (x : Dir) (s : State), Awake s → r < 8 → dirOf s.m (32 + r) = some x →
    let cnt := fun (id : Nat) (m : Mach) => mget 0 m.sap.cnt ((32 + r) * 2 ^ 16 + id)
    let recorded := fun (cause mhz : Nat) (n : Mach) => (fifo s.m 0x0900).entries.length < 64 →
      (fifo n 0x0900).entries = (fifo s.m 0x0900).entries ++ [⟨s.m.deal, 0x0901, [(1, 32 + r), (1, cause), (1, nominalOf mhz), (1, 0), (4, x.rate), (4, mhz), (4, 0)]⟩]
    (∀ mhz, rdi s.m F.AES_RX_STAT_LOCK r = 0 →
      Answers (.aesLock r mhz) s (fun n => rdi n F.AES_RX_STAT_LOCK r = 1 ∧ rdi n F.AES_RX_RATE_NOMINAL r = nominalOf mhz ∧
        dirOf n (32 + r) = some { x with rate := mhz, clock := true } ∧ recorded 1 mhz n)) ∧
    (rdi s.m F.AES_RX_STAT_LOCK r = 1 →
      Answers (.aesUnlock r) s (fun n => rdi n F.AES_RX_STAT_LOCK r = 0 ∧ rdi n F.AES_RX_FLAGS_UNLOCK r = 1 ∧
        dirOf n (32 + r) = some { x with rate := 0, clock := false, inRange := 0 } ∧ cnt 0x0815 n = cnt 0x0815 s.m + 1 ∧ recorded 2 0 n)) ∧
    (∀ e : AesErr, e.r = r → e.biphase = true ∨ e.parity = true →
      Answers (.aesSubframeError e) s (fun n =>
        (e.biphase = true → rdi n F.AES_RX_FLAGS_BIPHASE r = 1 ∧ cnt 0x0811 n = cnt 0x0811 s.m + 1) ∧
        (e.parity = true → rdi n F.AES_RX_FLAGS_PARITY r = 1 ∧ cnt 0x0812 n = cnt 0x0812 s.m + 1) ∧
        (64 ≤ e.quiet → Reported 0x09 0x0903 s.m n))) ∧
    (∀ b : AesBlk, b.r = r → rdi s.m F.AES_RX_STAT_LOCK r = 1 →
      let bad := (b.csA % 2 = 1 ∨ b.csB % 2 = 1) ∧ b.crcOk = false
      Answers (.aesBlockEnd b) s (fun n => rdi n F.AES_RX_STAT_V_A r = b2n b.vA ∧ rdi n F.AES_RX_STAT_V_B r = b2n b.vB ∧
        n.sap.dirs = s.m.sap.dirs ∧
        (bad → rdi n F.AES_RX_STAT_CS_SEQ r = rdi s.m F.AES_RX_STAT_CS_SEQ r ∧ cnt 0x0813 n = cnt 0x0813 s.m + 1 ∧
          rdi n F.AES_RX_FLAGS_CS_CRC r = 1 ∧ blockRead F.AES_RX_CS_A_BYTES r n = blockRead F.AES_RX_CS_A_BYTES r s.m ∧
          blockRead F.AES_RX_CS_B_BYTES r n = blockRead F.AES_RX_CS_B_BYTES r s.m) ∧
        (¬ bad → rdi n F.AES_RX_STAT_CS_SEQ r = (rdi s.m F.AES_RX_STAT_CS_SEQ r + 1) % 256 ∧
          blockRead F.AES_RX_CS_A_BYTES r n = b.csA % 2 ^ 192 ∧ blockRead F.AES_RX_CS_B_BYTES r n = b.csB % 2 ^ 192 ∧
          blockRead F.AES_RX_U_A_BYTES r n = b.uA % 2 ^ 192 ∧ blockRead F.AES_RX_U_B_BYTES r n = b.uB % 2 ^ 192)))) ∧
  (∀ (t : Nat) (s : State), Awake s → t < 8 →
    (mfind s.m.sap.loads (2 * t) = none → Answers (.csLoad t) s (fun n => rdi n F.AES_TX_CFG_CS_LOAD t = 1 ∧
      mfind n.sap.loads (2 * t) = some s.m.deal ∧ n.sap.active = s.m.sap.active)) ∧
    (mfind s.m.sap.loads (2 * t + 1) = none → Answers (.uLoad t) s (fun n => rdi n F.AES_TX_CFG_U_LOAD t = 1 ∧
      mfind n.sap.loads (2 * t + 1) = some s.m.deal ∧ n.sap.active = s.m.sap.active)) ∧
    (mfind s.m.sap.loads (2 * t) ≠ none → Answers (.csLoad t) s (fun n => n = s.m)) ∧
    (mfind s.m.sap.loads (2 * t + 1) ≠ none → Answers (.uLoad t) s (fun n => n = s.m)) ∧
    (∀ k, mfind s.m.sap.loads (2 * t) = some k → k < s.m.deal →
      Answers (.aesTxShadowCopy t) s (fun n => rdi n F.AES_TX_CFG_CS_LOAD t = 0 ∧ mfind n.sap.loads (2 * t) = none ∧ n.out = s.m.out ∧
        ∀ w, w < 6 → mget 0 n.sap.active (fkey F.AES_TX_CS_A_BYTES t w / 32) = rdij s.m F.AES_TX_CS_A_BYTES t w ∧
          mget 0 n.sap.active (fkey F.AES_TX_CS_B_BYTES t w / 32) = rdij s.m F.AES_TX_CS_B_BYTES t w)) ∧
    (∀ k, mfind s.m.sap.loads (2 * t + 1) = some k → k < s.m.deal →
      Answers (.aesTxShadowCopy t) s (fun n => rdi n F.AES_TX_CFG_U_LOAD t = 0 ∧ mfind n.sap.loads (2 * t + 1) = none ∧ n.out = s.m.out ∧
        ∀ w, w < 6 → mget 0 n.sap.active (fkey F.AES_TX_U_A_BYTES t w / 32) = rdij s.m F.AES_TX_U_A_BYTES t w ∧
          mget 0 n.sap.active (fkey F.AES_TX_U_B_BYTES t w / 32) = rdij s.m F.AES_TX_U_B_BYTES t w)))

/-! Streams (07). -/

/-- STREAM_OPEN opens a context that is not open, or whose close has been asked for (assumption log 99), where its fields are legal, its frames
fit the port, no other open context clashes and the channels suffice; STREAM_CLOSE gives an open context its end, this boundary for a listener
and for a suspended talker, the next packet boundary for a talker, and one asked for again changes nothing; CHMAP_WRITE writes its entries. A
change has the channel map evaluated at the next boundary. All complete DONE. -/
def Obligations.StreamsOpenAndClose : Prop :=
  ∀ (c : Cmd) (s : State), Awake s →
    let role := u8 c 26
    let k := u16 c 24
    let x := ctxOf s.m role k
    let m0 := setCtx role k (unlessClosing x) s.m
    (Plain 0x0401 c s.m → openCommonOk c = true → openKindOk c s.m = true → (x.isOpen = false ∨ x.closeAt.isSome = true) →
      frameLen (asked c s.m) s.m ≤ frameMax (asked c s.m) s.m →
      (ctxs m0 role).any (fun p => clash m0 (asked c s.m) p.2) = false →
      chUsed m0 role + (asked c s.m).ch ≤ (if s.m.frm.rate = 1 then 1024 else 2048) →
      Answers (.streamOpen c) s (fun n => ctxOf n role k = asked c s.m ∧ n.str.marked = true ∧
        (∀ j, j ≠ k → ctxOf n role j = ctxOf s.m role j) ∧ n.str.chmap = s.m.str.chmap ∧ n.dk = s.m.dk ∧ Completed 0x0401 stDone c s.m n)) ∧
    (Plain 0x0402 c s.m → k < 1024 → role < 2 → x.isOpen = true →
      (x.closeAt = none → Answers (.streamClose c) s (fun n =>
        ctxOf n role k = { x with closeAt := some (if role = 0 ∨ x.susp = true then s.m.deal
          else s.m.deal + (x.p - (s.m.deal - x.first) % x.p) % x.p) } ∧
        n.str.marked = true ∧ n.regs = s.m.regs ∧ Completed 0x0402 stDone c s.m n)) ∧
      (x.closeAt.isSome = true → Answers (.streamClose c) s (fun n => n.str = s.m.str ∧ n.regs = s.m.regs ∧ Completed 0x0402 stDone c s.m n))) ∧
    (Plain 0x0403 c s.m → 1 ≤ u16 c 24 → u16 c 24 ≤ 16384 → bufLen c = 8 * u16 c 24 → bufOk c false s.m = true →
      ((records 8 (u16 c 24) (bufBytes c)).map mapEntry).all mapEntryOk = true →
      mapUnique (((records 8 (u16 c 24) (bufBytes c)).map mapEntry).foldl mapPut s.m.str.chmap) = true →
      Answers (.chmapWrite c) s (fun n =>
        n.str.chmap = ((records 8 (u16 c 24) (bufBytes c)).map mapEntry).foldl mapPut s.m.str.chmap ∧ n.str.marked = true ∧
        n.str.lis = s.m.str.lis ∧ n.str.tal = s.m.str.tal ∧ n.regs = s.m.regs ∧ Completed 0x0403 stDone c s.m n))

/-- Reception: a packet that only one listener hears and no check stops is counted and accepted; a malformed one is counted, and at the onset
of its run flagged and reported; a listener without packets for STR_LOSS deals is lost, flagged and reported; a CRF listener measures its offset
over the time between its timestamps, and one that passes the warning is flagged and reported; an ARP request for an address and an IGMP query
for the groups of this port are answered. -/
def Obligations.StreamsReceive : Prop :=
  ∀ (s : State), Awake s →
    (∀ (p : StreamPkt) (k : Nat), (s.m.str.lis.filter (fun q => heard s.m p q.2)).map Prod.fst = [k] →
      (malReason (ctxOf s.m 0 k) p s.m = 0 → seqJudge (ctxOf s.m 0 k) p.seq = 0 →
        Answers (.streamPacketReceive p) s (fun n => (ctxOf n 0 k).lastAcc = s.m.deal + 1 ∧ (ctxOf n 0 k).malRun = 0 ∧
          mget 0 (ctxOf n 0 k).cnt 0x0507 = mget 0 (ctxOf s.m 0 k).cnt 0x0507 + 1 ∧
          mget 0 (ctxOf n 0 k).cnt 0x0502 = mget 0 (ctxOf s.m 0 k).cnt 0x0502 + p.frames.length ∧ n.regs = s.m.regs ∧ n.out = s.m.out)) ∧
      (malReason (ctxOf s.m 0 k) p s.m ≠ 0 →
        Answers (.streamPacketReceive p) s (fun n => (ctxOf n 0 k).malRun = (ctxOf s.m 0 k).malRun + 1 ∧
          mget 0 (ctxOf n 0 k).cnt 0x0508 = mget 0 (ctxOf s.m 0 k).cnt 0x0508 + 1 ∧
          ((ctxOf s.m 0 k).malRun = 0 → rd n F.STR_FLAGS_MALFORMED = 1 ∧ Reported 0x05 0x0505 s.m n)))) ∧
    (∀ k, (ctxOf s.m 0 k).isOpen = true → (ctxOf s.m 0 k).susp = false → (ctxOf s.m 0 k).lost = false →
      su s.m F.STR_LOSS_DEALS + (ctxOf s.m 0 k).lastAcc ≤ s.m.deal →
      Answers (.streamLost k) s (fun n => ctxOf n 0 k = { ctxOf s.m 0 k with lost := true } ∧ rd n F.STR_FLAGS_LOST = 1 ∧
        Reported 0x05 0x0503 s.m n)) ∧
    (∀ k r, (ctxOf s.m 0 k).isOpen = true → (ctxOf s.m 0 k).kind = 2 → (ctxOf s.m 0 k).phaseRef = some r → r < (ctxOf s.m 0 k).lastStamp →
      Answers (.crfReport k) s (fun n =>
        let x := ctxOf s.m 0 k
        let ppb := -(nearDiv (x.drift * 1000000) ((x.lastStamp : Int) - r))
        ctxOf n 0 k = { x with ppb := ppb, above := decide (su s.m F.STR_CRF_WARN_PPB ≤ ppb.natAbs), phaseRef := some x.lastStamp, drift := 0 } ∧
        (su s.m F.STR_CRF_WARN_PPB ≤ ppb.natAbs → x.above = false → rd n F.STR_FLAGS_CRF_OFFSET = 1 ∧ Reported 0x05 0x0507 s.m n))) ∧
    (∀ l addr, su s.m F.STR_CTRL_ARP_EN = 1 → l = 2 ∨ l = 3 → addr ≠ 0 → rdi s.m F.STR_IP_ADDR_ADDR (l - 2) = addr →
      Answers (.arpRequest l addr) s (fun n => NewOut s.m n (.arp l addr) ∧ n.str = s.m.str)) ∧
    (∀ l q, su s.m F.STR_CTRL_IGMP_EN = 1 → q ∈ s.m.str.lis → q.2.isOpen = true → q.2.kind = 1 → q.2.port = l → q.2.dest / 2 ^ 28 = 0xE →
      Answers (.igmpQuery l) s (fun n => n.str = s.m.str ∧
        ∃ g, NewOut s.m n (.igmp l (decide (su s.m F.STR_CTRL_IGMP_V2 = 1)) g) ∧ q.2.dest ∈ g ∧
          (∀ d ∈ g, ∃ x ∈ s.m.str.lis, x.2.isOpen = true ∧ x.2.kind = 1 ∧ x.2.port = l ∧ x.2.dest = d)))

/-! Corrections, intercom and the frame program (12, 08, 09, 02). -/

/-- MEASURE_RUN takes its blocks, starts its excitation and completes PENDING; when the excitation has ended, the count and the responses of the
completed outputs are written to the host buffer, DONE is completed and the end reported. ICOM_CONNECT connects a channel, dormant where the
live deck has no node for it, changes its parameters, or disconnects it; a connect and a disconnect are reported. A channel that runs
converges, diverges and starts to talk, and a talking one ends its hold, each shown in its register and reported. -/
def Obligations.MeasurementAndIntercom : Prop :=
  (∀ (s : State), Awake s →
    (∀ c : Cmd, Plain 0x0302 c s.m → renderStopping s.m = none → measArgsOk c s.m = true → measBufLen c ≤ bufLen c →
      bufOk c false s.m = true → bufOk c true s.m = true → measListsOk c s.m = true → s.m.cor.meas = none →
      measBlocks c ≤ freeBlocks s.m →
      Answers (.measureRun c) s (fun n => (∃ x, n.cor.meas = some x ∧ x.h.cmd = c ∧ x.ents = measEnts c ∧ x.mics = measMics c ∧ x.st = 1 ∧
          x.pos = 0 ∧ x.smp = 0 ∧ x.blocks = pickBlocks (measBlocks c) (usedBlocks s.m) ∧
          n.rend.allocs = s.m.rend.allocs + x.blocks.length) ∧
        rd n F.COR_MEAS_STAT_STATE = 1 ∧ n.dk = s.m.dk ∧ Completed 0x0302 stPending c s.m n)) ∧
    (∀ x, s.m.cor.meas = some x → x.st = 2 →
      Answers .measureDone s (fun n => n.cor.meas = some { x with st := 3 } ∧ rd n F.COR_MEAS_STAT_STATE = 3 ∧ Reported 0x0F 0x0F03 s.m n ∧
        (∀ q, x.h.tk.src = .ring q → live x.h.tk s.m = true →
          NewOut s.m n (.dma (bufAddr x.h.cmd + 48) ([(4, x.result), (4, x.done * x.mics.length), (8, 0)] ++ measResponses s.m x)) ∧
          ∃ ring idx, NewOut s.m n (.completion ring idx x.h.tk.tag x.h.tk.op stDone s.m.deal))))) ∧
  (∀ (k : Nat) (s : State), Awake s → k < 32 →
    (∀ c : Cmd, Plain 0x0801 c s.m → u8 c 24 = k → icomArgsOk c = true → k < icomServed s.m →
      let y := { icomOf s.m k with duck := (u8 c 26).testBit 0, freeze := (u8 c 26).testBit 1, ns := u8 c 27, zone := u8 c 28,
                                   depth := u8 c 29, refDelay := u16 c 30, mu := if u16 c 32 = 0 then 0x800 else u16 c 32 }
      (u8 c 25 = 1 → Answers (.icomConnect c) s (fun n =>
        icomOf n k = { y with conn := true, dormant := !icomNode s.m k, talk := false, hold := none } ∧
        rdi n F.AEC_CH_STAT_CONVERGED k = 0 ∧ rdi n F.AEC_CH_STAT_ERLE k = 0 ∧ Reported 0x10 0x1001 s.m n ∧ Completed 0x0801 stDone c s.m n)) ∧
      (u8 c 25 = 2 → (icomOf s.m k).conn = true → Answers (.icomConnect c) s (fun n => icomOf n k = y ∧ n.regs = s.m.regs ∧
        Completed 0x0801 stDone c s.m n)) ∧
      (u8 c 25 = 0 → (icomOf s.m k).conn = true → Answers (.icomConnect c) s (fun n => icomOf n k = {} ∧
        rdi n F.AEC_CH_STAT_CONVERGED k = 0 ∧ rdi n F.AEC_CH_STAT_ERLE k = 0 ∧ Reported 0x10 0x1001 s.m n ∧ Completed 0x0801 stDone c s.m n)) ∧
      (u8 c 25 = 0 → (icomOf s.m k).conn = false → Answers (.icomConnect c) s (fun n => n.icom = s.m.icom ∧ n.regs = s.m.regs ∧
        Completed 0x0801 stDone c s.m n))) ∧
    (icomRuns s.m k = true →
      (∀ erle, 200 ≤ erle → erle < 2 ^ F.AEC_CH_STAT_ERLE.width →
        Answers (.icomConverged k erle) s (fun n => rdi n F.AEC_CH_STAT_CONVERGED k = 1 ∧ rdi n F.AEC_CH_STAT_ERLE k = erle ∧
          n.icom = s.m.icom ∧ Reported 0x10 0x1001 s.m n)) ∧
      Answers (.icomDiverged k) s (fun n => rdi n F.AEC_CH_STAT_CONVERGED k = 0 ∧ rdi n F.AEC_CH_STAT_ERLE k = 0 ∧
        rd n F.AEC_FLAGS_DIVERGED = 1 ∧
        rdi n F.AEC_CH_DIV_COUNT k = min (2 ^ F.AEC_CH_DIV_COUNT.width - 1) (rdi s.m F.AEC_CH_DIV_COUNT k + 1) ∧
        n.icom = s.m.icom ∧ Reported 0x10 0x1002 s.m n) ∧
      ((icomOf s.m k).talk = false →
        Answers (.icomTalk k) s (fun n => icomOf n k = { icomOf s.m k with talk := true } ∧
          rd n F.AEC_TALK_CHANNEL = icomBits (fun x => x.talk) n % 2 ^ 32 ∧ Reported 0x10 0x1003 s.m n))) ∧
    ((icomOf s.m k).talk = true →
      Answers (.duckHoldExpiry k) s (fun n => icomOf n k = { icomOf s.m k with talk := false } ∧
        rd n F.AEC_TALK_CHANNEL = icomBits (fun x => x.talk) n % 2 ^ 32 ∧ Reported 0x10 0x1003 s.m n)))

/-- The frame program: a boundary that meets no reset and no held command opens the next deal; a commit closes it and empties the image that it
wrote, and a run of overruns ends unless a node failed in the deal. A kernel fault silences its node, a lane overflow sets the flags and
counts of its lanes, and the bridge channels of a domain are lost and, after 64 deals in range, lock again, each reported. -/
def Obligations.FrameProgramRuns : Prop :=
  ∀ (s : State), Awake s →
    (∀ x : TickIn, s.m.pwr.reset = none → s.m.pwr.req = none → s.m.hif.held = [] → s.m.hif.sent.any (fun q => q.waiting) = false →
      Answers (.dealTick x) s (fun n => n.deal = nextDeal s.m ∧ n.ticks = s.m.ticks + 1 ∧ n.frm.committed = false ∧ n.hif.held = [])) ∧
    (∀ load, s.m.frm.committed = false → (parked s.m = true ∨ (trial { load := load } s.m).late = []) →
      Answers (.dealCommit { load := load }) s (fun n => n.frm.committed = true ∧ n.frm.cur = [] ∧ n.deal = s.m.deal ∧
        n.frm.run = if parked s.m = true ∨ ((trial { load := load } s.m).hurt = [] ∧ (trial { load := load } s.m).rhurt = []) then 0
          else s.m.frm.run + 1)) ∧
    (∀ node cause instr addr d, nodeAt s.m node = some d → d.typ = 0x12 → d.cluster < 16 → (mget {} s.m.frm.nodes node).silent = false →
      1 ≤ cause → cause ≤ 3 →
      Answers (.kernelFault node cause instr addr) s (fun n => (mget {} n.frm.nodes node).silent = true ∧ node ∈ n.frm.hurt ∧
        (rd n F.DIAG_CL_FAULT_CLUSTER).testBit d.cluster = true ∧ Reported 0x0C 0x0C02 s.m n)) ∧
    (∀ c lanes signs node, c < 16 → 0 < lanes → lanes < 256 →
      Answers (.laneOverflow c lanes signs node) s (fun n =>
        rdi n F.DIAG_OVF_FLAG_LANE (c / 4) = (rdi s.m F.DIAG_OVF_FLAG_LANE (c / 4) ||| (lanes * 2 ^ (8 * (c % 4)))) % 2 ^ 32 ∧
        (∀ l, l < 8 → rdi n F.DIAG_LANE_OVF_COUNT (8 * c + l) =
          if lanes.testBit l then min (2 ^ F.DIAG_LANE_OVF_COUNT.width - 1) (rdi s.m F.DIAG_LANE_OVF_COUNT (8 * c + l) + 1)
          else rdi s.m F.DIAG_LANE_OVF_COUNT (8 * c + l)) ∧
        (ovfAny s.m c = false → Reported 0x0C 0x0C01 s.m n))) ∧
    (∀ ch rate dir, bridgeDir s.m ch = some dir →
      Answers (.bridgeLost ch rate) s (fun n => ∀ k, k = ch ∨ k ∈ domainChs s.m dir →
        (mget 0 s.m.frm.brStat k = 1 → mget 0 n.frm.brStat k = 2 ∧ Reported 0x0A 0x0A01 s.m n) ∧
        (mget 0 s.m.frm.brStat k = 3 → mget 0 n.frm.brStat k = 0 ∧ Reported 0x0A 0x0A01 s.m n)) ∧
      (inRange64 s.m dir = true → Answers (.bridgeLocked ch rate) s (fun n => ∀ k, k = ch ∨ k ∈ domainChs s.m dir →
        (mget 0 s.m.frm.brStat k = 0 ∨ mget 0 s.m.frm.brStat k = 2 → mget 0 n.frm.brStat k = 3 ∧ Reported 0x0A 0x0A02 s.m n))))

/-! Announcements (14). -/

/-- The clip store and the tables: a clip that fits the store is taken into it with PENDING, which gives the bound of its write, and enters the
directory when its write is done, with DONE or LATE; a deleted one leaves it; MSG_DEFINE and SCHED_WRITE write their entries; a unit that fails
authentication silences the rest of its clip, flagged and reported. -/
def Obligations.ClipsAndTables : Prop :=
  ∀ (s : State), Awake s →
    (∀ c : Cmd, Plain 0x0701 c s.m → u16 c 24 ≤ 4095 → u8 c 27 ≤ 5 → u8 c 28 ≤ 1 →
      (u8 c 26 = 0 → 2 ≤ bufLen c → bufLen c ≤ 16777216 → bufLen c % (if u8 c 28 = 1 then 3 else 2) = 0 → bufOk c false s.m = true →
        usedUnits s.m + (bufLen c + 65535) / 65536 ≤ rd s.m F.ANN_STORE_CFG_SIZE →
        Answers (.clipWrite c) s (fun n => (∃ w, n.ann.writes = s.m.ann.writes ++ [w] ∧ w.h.cmd = c ∧ w.clip.rate = u8 c 27 ∧
          w.clip.wide = (u8 c 28 == 1) ∧ w.clip.data = (bufBytes c).take (bufLen c) ∧ w.start = s.m.deal) ∧ n.ann.clips = s.m.ann.clips ∧
          (running s.m = true → ∀ q, c.src = .ring q → ∃ ring idx,
            NewOut s.m n (.completion ring idx c.tag 0x0701 stPending (writeBound (bufLen c) s.m.deal))))) ∧
      (u8 c 26 = 1 → bufLen c = 0 → (mfind s.m.ann.clips (u16 c 24)).isSome = true →
        Answers (.clipWrite c) s (fun n => n.ann.clips = mdel (u16 c 24) s.m.ann.clips ∧ n.ann.writes = s.m.ann.writes ∧
          Completed 0x0701 stDone c s.m n))) ∧
    (∀ k w, s.m.ann.writes.find? (fun w => u16 w.h.cmd 24 == k) = some w →
      Answers (.clipWriteDone k) s (fun n => mfind n.ann.clips k = some w.clip ∧ n.ann.writes = s.m.ann.writes.erase w ∧
        (∀ q, w.h.tk.src = .ring q → live w.h.tk s.m = true → ∃ ring idx, NewOut s.m n
          (.completion ring idx w.h.tk.tag w.h.tk.op (if w.h.tk.eff < w.start then stLate else stDone) s.m.deal)))) ∧
    (∀ c : Cmd, Plain 0x0702 c s.m → 1 ≤ u16 c 24 → u16 c 24 ≤ 1024 → bufLen c = 96 * u16 c 24 → bufOk c false s.m = true →
      (records 96 (u16 c 24) (bufBytes c)).all (msgOk s.m) = true →
      Answers (.msgDefine c) s (fun n => n.ann = { s.m.ann with msgs := (records 96 (u16 c 24) (bufBytes c)).foldl (fun t l =>
          if (msgEntry l).2.kind = 0 then mdel (msgEntry l).1 t else mput (msgEntry l).1 (msgEntry l).2 t) s.m.ann.msgs } ∧
        n.regs = s.m.regs ∧ Completed 0x0702 stDone c s.m n)) ∧
    (∀ c : Cmd, Plain 0x0703 c s.m → 1 ≤ u16 c 24 → u16 c 24 ≤ 4096 → bufLen c = 32 * u16 c 24 → bufOk c false s.m = true →
      (records 32 (u16 c 24) (bufBytes c)).all (schedOk s.m) = true →
      Answers (.schedWrite c) s (fun n => n.ann.sched = (records 32 (u16 c 24) (bufBytes c)).foldl (fun t l =>
          mput (schedEntry l).1 (schedEntry l).2 t) s.m.ann.sched ∧ n.ann.msgs = s.m.ann.msgs ∧ n.ann.new = s.m.ann.new ∧
        n.ann.plays = s.m.ann.plays ∧ n.regs = s.m.regs ∧ Completed 0x0703 stDone c s.m n)) ∧
    (∀ p unit k x i cl, mfind s.m.ann.players p = some k → playOf s.m k = some x → x.segs[x.seg]? = some (.clip i cl) → x.mute = false →
      Answers (.clipError p unit) s (fun n => playOf n k = some { x with mute := true } ∧ rd n F.ANN_FLAGS_CLIP_ERR = 1 ∧
        Reported 0x11 0x1107 s.m n))

/-- Requests: ANN_PLAY, an enabled entry that is due and an entry whose pin has been active ask for a play at the next boundary, but an entry
that is due while its last request waits is dropped, flagged and reported. A pin that returns makes its entry ready again and, where the entry
asks for it, drops the entry's waiting requests and stops its play, a page after its closing chime. A request that has waited its limit is
dropped, flagged and reported. -/
def Obligations.RequestsArise : Prop :=
  ∀ (s : State), Awake s →
    (∀ (c : Cmd) (d : Msg), Plain 0x0704 c s.m → mfind s.m.ann.msgs (u16 c 24) = some d → u8 c 26 ≤ 15 ∨ u8 c 26 = 0xFF → u8 c 27 ≤ 1 →
      Answers (.annPlay c) s (fun n =>
        let cls := if u8 c 26 = 0xFF then d.cls else u8 c 26
        let zs := if u8 c 27 = 1 then zonesOf (c.pay.drop 8) else d.zones
        n.ann.new = s.m.ann.new ++ [⟨u32 c 28, u16 c 24, cls, zs, s.m.deal, 0, 0⟩] ∧
        n.ann.waiting = s.m.ann.waiting ∧ n.ann.plays = s.m.ann.plays ∧ n.regs = s.m.regs ∧ Completed 0x0704 stDone c s.m n)) ∧
    (∀ (e : Nat) (x : Sched) (d : Msg), mfind s.m.ann.sched e = some x → x.flags.testBit 0 = true → mfind s.m.ann.msgs x.msg = some d →
      (entryDue s.m x (s.m.deal + 1) = true → mfind s.m.ann.lastFire e ≠ some (s.m.deal + 1) →
        Answers (.scheduleFire e) s (fun n => mfind n.ann.lastFire e = some (s.m.deal + 1) ∧ n.ann.waiting = s.m.ann.waiting ∧
          ((s.m.ann.waiting ++ s.m.ann.new).any (fun w => w.src == 1 && w.entry == e) = false →
            n.ann.new = s.m.ann.new ++ [⟨0x80000000 + e, x.msg, if x.cls = 0xFF then d.cls else x.cls, d.zones, s.m.deal, 1, e⟩]) ∧
          ((s.m.ann.waiting ++ s.m.ann.new).any (fun w => w.src == 1 && w.entry == e) = true →
            n.ann.new = s.m.ann.new ∧ rd n F.ANN_FLAGS_DROPPED = 1 ∧ Reported 0x11 0x1102 s.m n))) ∧
      (x.trig = 4 → s.m.ann.fired.contains e = false →
        Answers (.gpioTrigger e) s (fun n => e ∈ n.ann.trig ∧ n.ann.new = s.m.ann.new ∧ n.ann.fired = s.m.ann.fired ∧ n.regs = s.m.regs) ∧
        (s.m.ann.trig = [e] → pinHeld s.m x true = true →
          (s.m.ann.waiting ++ s.m.ann.new).any (fun w => w.src == 2 && w.entry == x.pin * 4096 + e) = false →
          (firePins s.m).ann.new = s.m.ann.new ++
            [⟨0x80000000 + e, x.msg, if x.cls = 0xFF then d.cls else x.cls, d.zones, s.m.deal, 2, x.pin * 4096 + e⟩] ∧
          e ∈ (firePins s.m).ann.fired ∧ (firePins s.m).ann.trig = []))) ∧
    (∀ (e : Nat) (x : Sched), mfind s.m.ann.sched e = some x → x.trig = 4 → s.m.ann.fired.contains e = true → pinHeld s.m x false = true →
      Answers (.gpioRelease e) s (fun n => n.ann.fired = s.m.ann.fired.filter (fun k => k != e) ∧
        (x.flags.testBit 1 = false → n.ann.waiting = s.m.ann.waiting ∧ n.ann.plays = s.m.ann.plays ∧ n.ann.players = s.m.ann.players) ∧
        (x.flags.testBit 1 = true → (∀ r ∈ n.ann.waiting, r.id ≠ 0x80000000 + e) ∧
          (∀ k y, (playing s.m).filter (fun j => (playOf s.m j).any (fun z => z.rq.id == 0x80000000 + e)) = [k] → playOf s.m k = some y →
            playLatched s.m y = false →
            (y.defn.kind = 2 → y.segs[2]? ≠ some (.quiet 0) → ∃ z, playOf n k = some z ∧ z.stopping = true) ∧
            (y.defn.kind ≠ 2 ∨ y.segs[2]? = some (.quiet 0) → mfind n.ann.players y.player = none ∧ Reported 0x11 0x1102 s.m n))))) ∧
    (∀ (k : Nat) (r : Req), s.m.ann.waiting[k]? = some r →
      r.since + ((mfind s.m.ann.msgs r.msg).map (fun d => d.wait)).getD 0 ≤ s.m.deal →
      Answers (.annWaitLimit k) s (fun n => n.ann.waiting = s.m.ann.waiting.erase r ∧ rd n F.ANN_FLAGS_DROPPED = 1 ∧
        Reported 0x11 0x1102 s.m n))

/-- Plays end: a play that has reached its end, and one that ANN_STOP names, leaves its player and its zones and is reported, and the requests
that ANN_STOP names are gone; a play that holds a latched zone goes on, and ANN_STOP of it alone completes REFUSED_AUTH; a page at its limit goes
on to its closing chime; TRUMP_CLEAR, signed, removes the latches of its zones and no other, and is reported. -/
def Obligations.PlaysEnd : Prop :=
  ∀ (s : State), Awake s →
    (∀ (p k : Nat) (x : Play), mfind s.m.ann.players p = some k → playOf s.m k = some x →
      (x.done = true → (x.bridged = true → acDelay s.m ≤ x.drain) →
        Answers (.annPlayEnd p) s (fun n => mfind n.ann.players x.player = none ∧ (∀ z ∈ x.zones, mfind n.ann.holder z = none) ∧
          playOf n k = some { x with zones := [] } ∧ n.ann.latch = s.m.ann.latch ∧ Reported 0x11 0x1102 s.m n)) ∧
      (x.defn.kind = 2 → x.seg = 1 → x.defn.limit * spd s.m ≤ x.pos →
        Answers (.annPageLimit p) s (fun n => (∃ q, playOf n k = some q ∧ 2 ≤ q.seg) ∧ n.ann.players = s.m.ann.players ∧
          n.ann.holder = s.m.ann.holder ∧ n.out = s.m.out))) ∧
    (∀ (c : Cmd) (k : Nat) (x : Play), Plain 0x0705 c s.m → (u16 c 28 ≠ 0xFFFF → (mfind s.m.ann.msgs (u16 c 28)).isSome = true) →
      let hit := fun (r : Req) => if u16 c 28 = 0xFFFF then r.id == u32 c 24 else r.msg == u16 c 28
      (playing s.m).filter (fun j => (playOf s.m j).any (fun y => hit y.rq)) = [k] → playOf s.m k = some x →
      (playLatched s.m x = false →
        Answers (.annStop c) s (fun n => mfind n.ann.players x.player = none ∧ (∀ z ∈ x.zones, mfind n.ann.holder z = none) ∧
          (∀ r ∈ n.ann.waiting ++ n.ann.new, hit r = false) ∧ n.ann.latch = s.m.ann.latch ∧
          Reported 0x11 0x1102 (reserve c s.m) n ∧ Completed 0x0705 stDone c s.m n)) ∧
      (playLatched s.m x = true → (s.m.ann.waiting ++ s.m.ann.new).any hit = false →
        Answers (.annStop c) s (fun n => n.ann = s.m.ann ∧ n.regs = s.m.regs ∧ Completed 0x0705 stRefusedAuth c s.m n))) ∧
    (∀ c : Cmd, Signed 0x0706 c s.m → u8 c 24 ≤ 1 → bufLen c = 304 →
      Answers (.trumpClear c) s (fun n =>
        let named := fun z => z < 256 ∧ (u8 c 24 = 1 ∨ z ∈ zonesOf (bufBytes c))
        (∀ z, named z → mfind n.ann.latch z = none) ∧ (∀ z, ¬ named z → mfind n.ann.latch z = mfind s.m.ann.latch z) ∧
        n.ann.msgs = s.m.ann.msgs ∧ n.ann.sched = s.m.ann.sched ∧ Reported 0x11 0x1105 (reserve c s.m) n ∧ Completed 0x0706 stDone c s.m n))

/-! The domain manager (15). -/

/-- The roster: ROSTER_LOAD, SEAT_ADMIT and SEAT_EVICT, signed, replace the roster and show its version, and complete DONE; a roster without
this device's own entry, and the eviction of its own seat, erase its identity. An admission and an eviction are reported; a SEAT_ADMIT at the
candidate installs its key package, with a roster or, from its own host, without one. -/
def Obligations.RosterChanges : Prop :=
  ∀ (c : Cmd) (s : State), Awake s →
    let erased := fun (n : Mach) => n.dom.roster = none ∧ n.sec.ldev = 0 ∧ rd n F.DOM_STATE_SEAT = 0xFFFE ∧ rd n F.DOM_STATE_ROLE = 0
    (∀ r : Roster, Signed 0x0C01 c s.m → bufLen c ≤ 32768 → parseRoster (bufBytes c) = some r → bufLen c = 64 + 16 * r.ents.length + 272 →
      ((s.m.dom.roster = none ∧ firstHost c = true) ∨ ∃ o, s.m.dom.roster = some o ∧ r.table = o.table ∧ o.version < r.version) →
      let mine := member s.m = false ∨ r.ents.any (fun e => e.seat == ownSeat s.m && e.present && e.ldev == s.m.sec.ldev) = true
      Answers (.rosterLoad c) s (fun n => n.dk = s.m.dk ∧ n.objs = s.m.objs ∧ Completed 0x0C01 stDone c s.m n ∧
        (mine → n.dom.roster = some r ∧ rd n F.DOM_TABLE_TABLE_ID = r.table ∧ rd n F.DOM_ROSTER_VER_VERSION = r.version) ∧
        (¬ mine → erased n))) ∧
    (∀ p : KeyPkg, Signed 0x0C02 c s.m → 304 ≤ bufLen c → pkgOf c = some p →
      let l := admitRec c
      let cand := leAt l 8 8 = idevId
      l.length = 32 → leAt l 0 2 ≤ 1023 → leAt l 2 1 ≤ 1 → leAt l 3 1 = 0 → leAt l 16 8 ≠ 0 → leAt l 24 8 = 0 → (cand → pkgOk p s.m = true) →
      (∀ r : Roster, s.m.dom.roster = some r → leAt l 4 4 = r.version + 1 →
        (∀ e, entryOf r (leAt l 0 2) = some e → e.present = false ∨ e.ldev = 0 ∨ (cand ∧ e.ldev = leAt l 16 8)) →
        (leAt l 2 1 = 1 → r.spares.length < 8 ∨ r.spares.contains (leAt l 0 2) = true) →
        Answers (.seatAdmit c) s (fun n =>
          n.dom.roster = some { r with version := r.version + 1, ents := putEntry ⟨leAt l 0 2, true, leAt l 16 8⟩ r.ents,
                                       spares := if leAt l 2 1 = 1 && !r.spares.contains (leAt l 0 2) then r.spares ++ [leAt l 0 2] else r.spares } ∧
          rd n F.DOM_ROSTER_VER_VERSION = r.version + 1 ∧ (cand → n.sec.ldev = keyIdOf p.certKey) ∧
          Reported 0x17 0x1708 (reserve c s.m) n ∧ Completed 0x0C02 stDone c s.m n)) ∧
      (s.m.dom.roster = none → firstHost c = true → cand →
        Answers (.seatAdmit c) s (fun n => n.sec.ldev = keyIdOf p.certKey ∧ n.sec.deckKeys = p.decks.map keyIdOf ∧ n.dom.roster = none ∧
          rd n F.SEC_RING_KEY_NUMBER = p.ringKey % 2 ^ F.SEC_RING_KEY_NUMBER.width ∧ Completed 0x0C02 stDone c s.m n))) ∧
    (∀ r : Roster, Signed 0x0C03 c s.m → s.m.dom.roster = some r → bufLen c = 280 → leAt (bufBytes c) 2 2 = 0 →
      leAt (bufBytes c) 4 4 = r.version + 1 → r.ents.any (fun e => e.seat == leAt (bufBytes c) 0 2 && e.present) = true →
      Answers (.seatEvict c) s (fun n =>
        let seat := leAt (bufBytes c) 0 2
        Reported 0x17 0x1708 (reserve c s.m) n ∧ Completed 0x0C03 stDone c s.m n ∧ (seat = ownSeat s.m → erased n) ∧
        (seat ≠ ownSeat s.m → rd n F.DOM_ROSTER_VER_VERSION = r.version + 1 ∧
          n.dom.roster = some { r with version := r.version + 1, spares := r.spares.erase seat,
                                       ents := r.ents.map (fun e => if e.seat = seat then { e with present := false } else e) })))

/-- The trio: a member's record moves its reach; a member that no one reaches is fenced; the lowest managing index becomes active, and in MODE 0
the time source; a worker without records becomes autonomous; a spare whose copy has proved equal joins. A fencing, a new active manager, an
autonomous worker and a join are reported. -/
def Obligations.TrioRuns : Prop :=
  ∀ (s : State), Awake s →
    (∀ r : DigRec, s.m.dom.roster.isSome = true → r.idx ≤ 2 → r.idx ≠ ownIdx s.m → s.m.dom.noSpare.contains r.sender = false →
      trioAt s.m r.idx = r.sender → r.sender < 0xFFFF → boundSeat s.m r.sender = true →
      Answers (.digestRecordReceive r) s (fun n => (peer n r.idx).last = max (peer s.m r.idx).last r.deal ∧ (peer n r.idx).reach = r.reach ∧
        (peer n r.idx).flags = r.flags ∧ (r.flags.testBit 0 = true → n.dom.lastRec = s.m.deal) ∧ n.dom.roster = s.m.dom.roster)) ∧
    (∀ j, j < 3 → trioAt s.m j ≠ 0xFFFF → j ≠ ownIdx s.m → ownIdx s.m ≠ 3 → managing s.m = true → directly s.m j = false →
      byRelay s.m j = false →
      Answers (.reachTimeout j) s (fun n => trioAt n j = 0xFFFF ∧ rd n F.DOM_FLAGS_FENCED = 1 ∧
        rd n F.DOM_FENCE_CNT_COUNT = min (2 ^ F.DOM_FENCE_CNT_COUNT.width - 1) (rd s.m F.DOM_FENCE_CNT_COUNT + 1) ∧
        Reported 0x17 0x1702 s.m n)) ∧
    (ownIdx s.m ≠ 3 → managing s.m = true → activeMgr s.m = 0xFFFF → ownSeat s.m < 0xFFFF →
      (List.range (ownIdx s.m)).any (fun k => directly s.m k && k != ownIdx s.m && (peer s.m k).flags.testBit 0) = false →
      Answers .activeChange s (fun n => activeMgr n = ownSeat s.m ∧ (rd s.m F.TIM_CTRL_MODE = 0 → rd n F.TIM_STATE_SOURCE = 1) ∧
        Reported 0x17 0x1706 s.m n)) ∧
    (member s.m = true → ownIdx s.m = 3 → flag s.m F.DOM_STATE_AUTONOMOUS = false → s.m.dom.lastRec + rd s.m F.DOM_TRIO_AUTO_DEALS ≤ s.m.deal →
      Answers .autonomousEnter s (fun n => rd n F.DOM_STATE_AUTONOMOUS = 1 ∧ rd n F.DOM_FLAGS_AUTONOMOUS = 1 ∧ activeMgr n = 0xFFFF ∧
        n.dom.autoAt = s.m.deal ∧ Reported 0x17 0x1705 s.m n)) ∧
    (∀ (x : Copy) (j d : Nat), s.m.dom.copy = some x → x.idx = some j → j < 3 → x.loaded = some d → 2 ≤ x.eqRun → trioAt s.m j = 0xFFFF →
      ownSeat s.m < 0xFFFF →
      Answers .spareJoin s (fun n => trioAt n j = ownSeat s.m ∧ ownIdx n = j ∧ n.dom.copy = none ∧ Reported 0x17 0x1703 s.m n))

/-- Copies and peers: the active manager records a join report and tells both neighbours of each link that it names the verdict, and reports a
candidate, or sends a seat that the roster binds the last ring-key buffer; a member that has an unknown neighbour relays the exchange to it. A
trio seat queues a copy request; a fragment is kept and the last one loads the scene; a copy that stands still is asked for anew. An MKPDU of a new
peer is answered, the SAK of a peer that shares a CAK secures the port, and one without a CAK is refused and reported; a peer that the verdict
refuses is an unknown member. -/
def Obligations.CopiesAndPeers : Prop :=
  ∀ (s : State), Awake s →
    (activeMgr s.m = ownSeat s.m → member s.m = true →
      (∀ seat a b, Answers (.joinReportReceive ⟨seat, a, b⟩) s (fun n => seat ∈ n.dom.joined ∧ n.regs = s.m.regs ∧
        ∀ p t, (p = 0 ∧ t = a) ∨ (p = 1 ∧ t = b) → t ≠ 0xFFFF →
          NewOut s.m n (.trio seat 0xF005 [(2, t), (1, b2n (verdictOn n seat p t))]) ∧
          NewOut s.m n (.trio t 0xF005 [(2, seat), (1, b2n (verdictOn n seat p t))]))) ∧
      (∀ a b idev ldev,
        let due := ldev ≠ 0 ∧ s.m.sec.lastRing.isSome = true ∧
          s.m.dom.roster.any (fun r => r.ents.any (fun e => e.present && e.ldev == ldev)) = true
        Answers (.enrolmentReceive a b ⟨idev, ldev⟩) s (fun n => n.dom = s.m.dom ∧
          (due → n.out = .relay a 2 a b idev ldev :: s.m.out) ∧ (¬ due → Reported 0x17 0x1707 s.m n)))) ∧
    (∀ a b idev ldev, member s.m = true → activeMgr s.m ≠ ownSeat s.m → activeMgr s.m ≠ 0xFFFF →
      (port s.m 0).unknown = true ∨ (port s.m 1).unknown = true →
      Answers (.enrolmentReceive a b ⟨idev, ldev⟩) s (fun n => n.dom = s.m.dom ∧ n.out = .relay (activeMgr s.m) 0 a b idev ldev :: s.m.out)) ∧
    (∀ seat spare, ownIdx s.m ≠ 3 →
      Answers (.copyReqReceive seat spare) s (fun n => (seat, spare) ∈ n.dom.serveQ ∧ n.regs = s.m.regs ∧ n.out = s.m.out)) ∧
    (∀ (f : SnapIn) (x : Copy), s.m.dom.copy = some x → x.src = f.seat → x.loaded = none → f.idx < f.cnt →
      ((insertNat f.idx x.got).length < f.cnt →
        Answers (.snapshotReceive f) s (fun n =>
          n.dom.copy = some { x with got := insertNat f.idx x.got, lastFrag := s.m.deal } ∧ n.objs = s.m.objs)) ∧
      (f.cnt ≤ (insertNat f.idx x.got).length →
        Answers (.snapshotReceive f) s (fun n => (∃ y, n.dom.copy = some y ∧ y.loaded = some f.deal) ∧ n.deal = s.m.deal ∧
          (s.m.deal ≤ f.deal → n.objs = f.objs.foldl (fun t x => mset {} x.o (objOfSnap x) t) [])))) ∧
    (∀ x : Copy, s.m.dom.copy = some x → x.since + rd s.m F.DOM_COPY_DEALS ≤ s.m.deal →
      Answers .copyTimeout s (fun n =>
        rd n F.DOM_COPY_CNT_COUNT = min (2 ^ F.DOM_COPY_CNT_COUNT.width - 1) (rd s.m F.DOM_COPY_CNT_COUNT + 1) ∧
        (∀ t, ((trioSeats s.m).filter (fun t => t != 0xFFFF && t != x.src && t != ownSeat s.m)).head? = some t →
          ∃ y, n.dom.copy = some y ∧ y.src = t ∧ y.restarts = x.restarts + 1 ∧ y.idx = x.idx ∧ y.loaded = none))) ∧
    (∀ (p : Nat) (k : MkIn), p < 4 → linkUp s.m p = true → macsecOn s.m p = true → flag s.m F.SEC_STATE_DEBUG = false →
      Answers (.mkpduReceive p k) s (fun n => (k.new = true → NewOut s.m n (.mkpdu p)) ∧
        (∀ kn an keyNo, commonKey s.m p k = some kn → k.sak = some (an, keyNo) → (port s.m p).barred ≠ some (k.peer, k.ldev) →
          (p < 2 → k.served = decide (k.peer < ownSeat s.m) ∧ peerKnown s.m k = true) →
          secure n p = true ∧ (port n p).peer = k.peer ∧ Reported 0x03 0x0301 s.m n) ∧
        (commonKey s.m p k = none → (port s.m p).refused ≠ some (k.peer, k.ldev) →
          (port n p).refused = some (k.peer, k.ldev) ∧ secure n p = secure s.m p ∧ Reported 0x03 0x0302 s.m n))) ∧
    (∀ p, p < 2 → secure s.m p = true →
      Answers (.verdictReceive p false) s (fun n => secure n p = false ∧ (port n p).unknown = true ∧ rd n F.DOM_FLAGS_UNKNOWN_PEER = 1 ∧
        Reported 0x17 0x1708 s.m n))

/-! Kolica (16). -/

/-- Keys and images: KEY_ROTATE, signed, replaces the ring key, the operator keys, the deck keys or a local port's CAK, each reported; a seat
without an entry keeps its ring key and reports that. A ring key and a key package that come by the enrolment exchange are installed; the previous key
is erased after its grace. A boot image whose signatures hold is staged with PENDING, and one whose do not is refused; a staged one that is done is
shown and reported, and after 600 s the running image is committed. -/
def Obligations.KeysAndImages : Prop :=
  ∀ (s : State), Awake s →
    let rotated := fun (num : Nat) (n : Mach) => rd n F.SEC_RING_KEY_NUMBER = num ∧
      n.sec.prevKey = (if rd s.m F.SEC_RING_KEY_NUMBER = 0 then none
        else some (rd s.m F.SEC_RING_KEY_NUMBER, s.m.deal + rd s.m F.SEC_CTRL_KEY_GRACE_S * 8000))
    (∀ c : Cmd, Signed 0x0D01 c s.m → rotateOk c s.m = true →
      let kind := leAt (rotBytes c) 0 1
      let told := fun (code : Nat) (n : Mach) => Reported 0x14 code (reserve c s.m) n ∧ Completed 0x0D01 stDone c s.m n
      let recKey := fun (e : List Byte) => keyIdOf ((e.drop 16).take 96)
      (kind = 1 → ownEntry c s.m = true → flag s.m F.SEC_STATE_DEBUG = false →
        Answers (.keyRotate c) s (fun n => rotated (leAt (rotBytes c) 4 4) n ∧ told 0x1402 n)) ∧
      (kind = 1 → ownEntry c s.m = false ∨ flag s.m F.SEC_STATE_DEBUG = true →
        Answers (.keyRotate c) s (fun n => rd n F.SEC_RING_KEY_NUMBER = rd s.m F.SEC_RING_KEY_NUMBER ∧ told 0x1408 n)) ∧
      (kind = 2 → Answers (.keyRotate c) s (fun n => (∀ k, (mfind n.sec.keys k).isSome = true ↔ ∃ e ∈ rotEntries c, recKey e = k) ∧
        n.sec.deckKeys = s.m.sec.deckKeys ∧ told 0x1402 n)) ∧
      (kind = 3 → Answers (.keyRotate c) s (fun n => n.sec.deckKeys = (rotEntries c).map recKey ∧ told 0x1402 n)) ∧
      (kind = 4 → ownEntry c s.m = true → Answers (.keyRotate c) s (fun n =>
        n.sec.caks = mput (leAt (rotBytes c) 2 1) (beAt (rotBytes c) 8 16) s.m.sec.caks ∧ told 0x1402 n))) ∧
    (∀ (c : Cmd) (l : List Byte) (w : Bool) (e : Env), c.buf = .rotate l w → c.env = some e → stage1 0x0D01 c s.m = 0 →
      ((mfind s.m.sec.keys e.keyId).map OpKey.counter).getD 0 < e.counter → leAt l 0 1 = 1 →
      rd s.m F.SEC_RING_KEY_NUMBER < leAt l 4 4 → member s.m = true → ownEntry c s.m = true → flag s.m F.SEC_STATE_DEBUG = false →
      Answers (.keyPackageReceive c) s (fun n => rotated (leAt l 4 4) n ∧ Reported 0x14 0x1402 s.m n)) ∧
    (∀ (c : Cmd) (l : List Byte) (p : KeyPkg), c.buf = .admission l p → stage1 0x0C02 c s.m = 0 → stage2 0x0C02 c s.m = 0 →
      s.m.dom.roster = none → l.length = 32 → leAt l 0 2 ≤ 1023 → leAt l 2 1 ≤ 1 → leAt l 3 1 = 0 → leAt l 8 8 = idevId → leAt l 16 8 ≠ 0 →
      leAt l 24 8 = 0 → pkgOk p s.m = true →
      Answers (.keyPackageReceive c) s (fun n => n.sec.ldev = keyIdOf p.certKey ∧ n.sec.deckKeys = p.decks.map keyIdOf ∧
        rd n F.SEC_RING_KEY_NUMBER = p.ringKey % 2 ^ F.SEC_RING_KEY_NUMBER.width ∧ Reported 0x14 0x1402 s.m n)) ∧
    (∀ num d, s.m.sec.prevKey = some (num, d) → d ≤ s.m.deal →
      Answers .keyGraceExpiry s (fun n => n.sec.prevKey = none ∧ n.sec.keys = s.m.sec.keys ∧ rd n F.SEC_KEYS_PREV_RING = 0 ∧
        Reported 0x14 0x1402 s.m n)) ∧
    (∀ (c : Cmd) (i : BootImg), Signed 0x0D02 c s.m → c.buf = .boot i → s.m.sec.fw = none → bufLen c ≤ 16777488 → imageWell i = true →
      i.length + 272 = bufLen c → rd s.m F.SEC_SVN_FUSED ≤ i.svn →
      (i.endorseOk = true → i.sigOk = true →
        Answers (.fwStage c) s (fun n => (∃ g, n.sec.fw = some g ∧ g.img = i ∧ g.start = s.m.deal) ∧ rd n F.SEC_SVN_STAGED = 0 ∧
          mfind n.sec.slots (otherSlot s.m) = none ∧ n.dk = s.m.dk ∧
          (running s.m = true → ∀ q, c.src = .ring q → ∃ ring idx,
            NewOut s.m n (.completion ring idx c.tag 0x0D02 stPending (writeBound (bufLen c) s.m.deal))))) ∧
      (i.endorseOk = false ∨ i.sigOk = false →
        Answers (.fwStage c) s (fun n => n.sec.fw = none ∧ n.sec.slots = s.m.sec.slots ∧ Reported 0x14 0x1401 (reserve c s.m) n ∧
          Completed 0x0D02 stRefusedAuth c s.m n))) ∧
    (∀ g, s.m.sec.fw = some g → g.img.svn ≤ 64 →
      Answers .fwStageDone s (fun n => n.sec.fw = none ∧ mfind n.sec.slots (otherSlot s.m) = some { img := g.img } ∧
        rd n F.SEC_SVN_STAGED = g.img.svn ∧ Reported 0x14 0x1403 s.m n)) ∧
    (4800000 ≤ s.m.ticks → rd s.m F.SEC_SVN_FUSED < rd s.m F.SEC_SVN_RUNNING → rd s.m F.SEC_SVN_RUNNING ≤ 64 →
      Answers .fwCommit s (fun n => rd n F.SEC_SVN_FUSED = rd s.m F.SEC_SVN_RUNNING ∧ n.sec.keys = s.m.sec.keys ∧
        Reported 0x14 0x1404 s.m n))

/-- Attestation and debug: ATTEST sets its bit, and the report that becomes ready clears it; a challenge is read out and kept; a response
under a held DEBUG key unlocks debug and is reported, and any other changes nothing; a Kolica fault bypasses the device and resets it, and what
flash keeps stays. -/
def Obligations.AttestationAndDebug : Prop :=
  ∀ (s : State), Awake s →
    (∀ v : Word, Answers (.secAttest v) s (fun n => rd n F.SEC_CTRL_ATTEST = 1 ∧ n.out = s.m.out ∧ n.sec = s.m.sec)) ∧
    (flag s.m F.SEC_CTRL_ATTEST = true →
      Answers .attestReady s (fun n => rd n F.SEC_CTRL_ATTEST = 0 ∧ n.fresh = s.m.fresh + 24 ∧ n.sec = s.m.sec ∧
        (∀ k, k < 512 → rdi n F.SEC_ATTEST_BYTES k = reportWord s.m k % 2 ^ 32))) ∧
    Answers .debugChallengeRead s (fun n => n.sec.challenge = some (s.m.fresh, s.m.deal) ∧ n.regs = s.m.regs ∧
      n.out = .challenge idevId s.m.fresh s.m.deal :: s.m.out) ∧
    (∀ (key nonce d : Nat) (k : OpKey), s.m.sec.challenge = some (nonce, d) → mfind s.m.sec.keys key = some k → k.roles.testBit 4 = true →
      Answers (.debugResponse key true) s (fun n => rd n F.SEC_STATE_DEBUG = 1 ∧ rd n F.SEC_FLAGS_DEBUG_SEEN = 1 ∧ n.sec.challenge = none ∧
        Reported 0x14 0x1406 s.m n)) ∧
    (∀ (key : Nat) (ok : Bool), ok = false ∨ s.m.sec.challenge = none ∨ (∀ k, mfind s.m.sec.keys key = some k → k.roles.testBit 4 = false) →
      Answers (.debugResponse key ok) s (fun n => n = s.m)) ∧
    Answers .kolicaFault s (fun n => n.sys.held = some 5 ∧ n.ring.bypA = false ∧ n.ring.bypB = false ∧ n.dk.live.digest = 0 ∧
      n.sec.keys = s.m.sec.keys ∧ n.dom.roster = s.m.dom.roster ∧ rd n F.SYS_RESET_CAUSE_CAUSE = 5)

/-- A signed command that a first check refuses, and an unsigned PORT_STOP or SYSTEM_RESET while a zone is latched, does nothing but its report:
the refusal is counted, flagged, reported and completes REFUSED_AUTH (R441, R397). -/
def Obligations.AuthorityIsRefused : Prop :=
  ∀ (i : Instr) (op : Nat) (c : Cmd) (s : State), Awake s →
    ((((i = .rosterLoad c ∧ op = 0x0C01) ∨ (i = .seatAdmit c ∧ op = 0x0C02) ∨ (i = .seatEvict c ∧ op = 0x0C03) ∨
        (i = .trumpClear c ∧ op = 0x0706) ∨ (i = .keyRotate c ∧ op = 0x0D01) ∨ (i = .fwStage c ∧ op = 0x0D02)) ∧
      Cmd_signed c = true ∧ bufOk c false s.m = true ∧ stage1 op c s.m ≠ 0) ∨
     (((i = .portStop c ∧ op = 0x0502) ∨ (i = .systemReset c ∧ op = 0x0E02)) ∧ Cmd_signed c = false ∧ s.m.ann.latch ≠ [])) →
    (∃ q, c.src = .ring q) → c.flags < 16 → c.rsvd = 0 → c.deal = 0 → Cmd_tunnel c = false →
    c.target = 0xFFFE ∨ (c.target ≤ 1023 ∧ member s.m = true ∧ c.target = ownSeat s.m) → reservedOk op c = true →
    Answers i s (fun n => rd n F.SEC_AUTH_FAILS_COUNT = min (2 ^ F.SEC_AUTH_FAILS_COUNT.width - 1) (rd s.m F.SEC_AUTH_FAILS_COUNT + 1) ∧
      rd n F.SEC_FLAGS_AUTH_FAIL = 1 ∧ Reported 0x14 0x1401 (reserve c s.m) n ∧ Completed op stRefusedAuth c s.m n ∧
      n.dom = s.m.dom ∧ n.ann = s.m.ann ∧ n.sec = s.m.sec ∧ n.dk = s.m.dk ∧ n.sap = s.m.sap ∧ n.pwr = s.m.pwr ∧ n.hif.held = s.m.hif.held)

/-! The host interface (03). -/

/-- The interface starts and runs: a legal set-up is latched, and the first poll is that of the next deal; an illegal one is refused with its code
and item. A poll that is due writes the status page and empties the capture FIFOs that have lingered; one that is not due does nothing. A ring
whose coalescing time has passed fires its vector where a status page has covered its entries, and waits where none has. A capture FIFO that has
lingered waits for the next poll, or is emptied where the interface does not run. A command held behind a shutdown is applied once it is released. -/
def Obligations.HostInterfaceRuns : Prop :=
  ∀ (s : State), Awake s →
    (flag s.m F.HIF_CTRL_ENABLE = false → setupFault s.m.regs = none →
      Answers .hifEnable s (fun n => running n = true ∧ rd n F.HIF_CTRL_ENABLE = 1 ∧ n.hif.lat = s.m.regs ∧ n.hif.resetEv = none ∧
        n.hif.bootEv = false ∧ n.hif.held = s.m.hif.held ∧ n.hif.pollFrom = s.m.deal + 1)) ∧
    (∀ code item, flag s.m F.HIF_CTRL_ENABLE = false → setupFault s.m.regs = some (code, item) →
      Answers .hifEnable s (fun n => rd n F.HIF_STATUS_CFG_ERR = 1 ∧ rd n F.HIF_STATUS_CFG_ERR_CODE = code % 2 ^ F.HIF_STATUS_CFG_ERR_CODE.width ∧
        rd n F.HIF_STATUS_CFG_ERR_ITEM = item % 2 ^ F.HIF_STATUS_CFG_ERR_ITEM.width ∧ running n = running s.m ∧ n.hif = s.m.hif)) ∧
    (∀ p : PollIn, (pollDue s.m = true → Answers (.doorbellPoll p) s (fun n => (∃ pay, NewOut s.m n (.status pay)) ∧
        n.hif.pollDeal = s.m.deal ∧ n.hif.polls = pollsDone s.m + 1 ∧ (∀ k ∈ s.m.hif.linger, (fifo n k).entries = []))) ∧
      (pollDue s.m = false → Answers (.doorbellPoll p) s (fun n => n = s.m))) ∧
    (∀ c, c < 16 → running s.m = true → cqTimer s.m c = true →
      (mget 0 s.m.hif.cqCov c = mget 0 s.m.hif.cqProd c → Answers (.coalesceTimeout (16 + c)) s (fun n => mget 0 n.hif.cqPend c = 0 ∧ n.regs = s.m.regs ∧
        (s.m.hif.msixEn = true → vecMasked s.m (lat s.m F.HIF_CQ_CTRL_VEC c) = false →
          n.out = .msix (lat s.m F.HIF_CQ_CTRL_VEC c) :: s.m.out))) ∧
      (mget 0 s.m.hif.cqCov c ≠ mget 0 s.m.hif.cqProd c → Answers (.coalesceTimeout (16 + c)) s (fun n => n = s.m))) ∧
    (∀ e, e < 8 → running s.m = true → eqTimer s.m e = true →
      (mget 0 s.m.hif.eqCov e = mget 0 s.m.hif.eqProd e → Answers (.coalesceTimeout (32 + e)) s (fun n => mget 0 n.hif.eqPend e = 0 ∧ n.regs = s.m.regs ∧
        (s.m.hif.msixEn = true → vecMasked s.m (lat s.m F.HIF_EQ_CTRL_VEC e) = false →
          n.out = .msix (lat s.m F.HIF_EQ_CTRL_VEC e) :: s.m.out))) ∧
      (mget 0 s.m.hif.eqCov e ≠ mget 0 s.m.hif.eqProd e → Answers (.coalesceTimeout (32 + e)) s (fun n => n = s.m))) ∧
    (∀ k x xs, (fifo s.m k).entries = x :: xs → x.deal + hifDeals s.m F.HIF_LINGER_DEALS ≤ s.m.deal →
      (running s.m = true → Answers (.captureFifoLinger k) s (fun n => k ∈ n.hif.linger ∧ n.hif.fifos = s.m.hif.fifos ∧ n.regs = s.m.regs ∧
        n.out = s.m.out)) ∧
      (running s.m = false → Answers (.captureFifoLinger k) s (fun n => (fifo n k).entries = [] ∧ (fifo n k).captured = (fifo s.m k).captured))) ∧
    (∀ h : Held, s.m.hif.stopped = [h] →
      (∀ eff, effOf h.tk.op = some eff → Answers .heldCommandRelease s (fun n =>
        n = runEff eff h { s.m with hif := { s.m.hif with stopped := [] } })) ∧
      (h.tk.op = 0x0901 → 1 ≤ u8 h.cmd 24 → u8 h.cmd 24 ≤ 15 → s.m.pwr.move = none →
        Answers .heldCommandRelease s (fun n => n.hif.stopped = [] ∧
          rd n F.PWR_TOL_RENDER_US = (if (u8 h.cmd 24).testBit 0 then u32 h.cmd 28 else rd s.m F.PWR_TOL_RENDER_US % 2 ^ 32) ∧
          (∀ q, h.tk.src = .ring q → live h.tk s.m = true → ∃ ring idx, NewOut s.m n
            (.completion ring idx h.tk.tag h.tk.op (if h.tk.eff < s.m.deal then stLate else stDone) s.m.deal)))))

/-- The interface stops: a DMA fault stops polling and the mirrors, and is flagged and reported through AER; a host-function reset, by HOST_RESET,
FLR or PCIE_PERST_N, stops it and discards the local host's held commands; its completion starts a new epoch with empty rings and keeps the
table's commands. -/
def Obligations.HostInterfaceStops : Prop :=
  ∀ (s : State), Awake s →
    (running s.m = true → Answers .dmaFault s (fun n => running n = false ∧ rd n F.HIF_STATUS_DMA_FAULT = 1 ∧
      NewOut s.m n (.aer (aerKind s.m)) ∧ n.hif.aer.testBit (aerKind s.m) = true ∧ (∀ d, d < 32 → sapRd n F.SAP_x_HB_POS_ACTIVE d = 0) ∧
      n.hif.held = s.m.hif.held ∧ n.dk = s.m.dk ∧ n.objs = s.m.objs)) ∧
    (∀ c v, (c = .hostReset v ∨ c = .flr ∨ c = .pciePerst) →
      Answers c s (fun n => running n = false ∧ rd n F.HIF_STATUS_RESET_BUSY = 1 ∧ n.hif.resetReq = some (s.m.hif.resetReq.getD s.m.deal) ∧
        n.hif.held = s.m.hif.held.filter (fun x => !ownHost x) ∧ n.dk.live = s.m.dk.live ∧ n.objs = s.m.objs ∧
        (c = .flr ∨ c = .pciePerst → n.hif.msix = [] ∧ n.hif.msixEn = false) ∧ (c = .pciePerst → n.sys.perst = true))) ∧
    Answers .pciePerstRelease s (fun n => n.sys.perst = false ∧ n.regs = s.m.regs ∧ n.hif = s.m.hif ∧ n.out = s.m.out) ∧
    (s.m.hif.resetReq.isSome = true →
      Answers .hostResetComplete s (fun n => n.hif.epoch = s.m.hif.epoch + 1 ∧ n.hif.resetReq = none ∧ running n = false ∧
        rd n F.HIF_CTRL_ENABLE = 0 ∧ n.hif.held = s.m.hif.held ∧ n.hif.sqCons = [] ∧ n.hif.cqProd = [] ∧ n.hif.eqProd = [] ∧
        n.hif.fifos = s.m.hif.fifos ∧ n.dk = s.m.dk ∧ n.out = s.m.out))

/-- After a power-on, pin or system reset every tolerance is 0. A host-function reset also returns every tolerance to 0 (R464). -/
def Obligations.TolerancesReturnToZero : Prop :=
  let zero := fun n : Mach => tolerances n = [0, 0, 0, 0]
  (∀ s : State, Answers .powerOn s zero ∧ Answers .resetNAssert s zero ∧ Answers .pwrgoodFall s zero ∧ Answers .extestSelect s zero) ∧
  (∀ (cause : Nat) (m : Mach), zero (sysReset cause m)) ∧
  (∀ (s : State) (v : Word), Awake s → Answers (.hostReset v) s zero ∧ Answers .flr s zero ∧ Answers .pciePerst s zero)

/-- Commands over Heivo: a fragment of an incomplete request or reply is kept; a whole request for this seat is held for the next deal; a whole
reply and a timeout complete what this device sent, an acknowledgement completes its interim; an assembly whose first fragment came 64 deals
before is discarded. -/
def Obligations.TunnelCarriesCommands : Prop :=
  ∀ (s : State), Awake s →
    let cq := fun (q : Nat) => mget 0 s.m.hif.cqProd (cqOf s.m q) % 2 ^ 32
    (∀ r : TunnelReq, member s.m = true → s.m.hif.assemblies.any (fun a => a.seat == r.seat && a.tunId == r.tunId) = false →
      (r.idx < r.cnt → 2 ≤ r.cnt →
        Answers (.tunnelRequestReceive r) s (fun n => n.hif.assemblies = s.m.hif.assemblies ++ [⟨r.seat, r.tunId, s.m.deal, [r.idx]⟩] ∧
          n.hif.held = s.m.hif.held ∧ n.regs = s.m.regs)) ∧
      (r.idx = 0 → r.cnt = 1 → r.mgrSeq = 0 → s.m.hif.seen.contains (r.seat, r.tunId) = false → (effOf r.whole.op).isSome = true →
        r.whole.op ≠ 0x0102 → signedOp r.whole.op = false → r.whole.cmd.flags < 16 → Cmd_signed r.whole.cmd = false →
        Cmd_tunnel r.whole.cmd = false → r.whole.cmd.rsvd = 0 → reservedOk r.whole.op r.whole.cmd = true → r.whole.cmd.deal = 0 →
        r.whole.cmd.target = ownSeat s.m → ownSeat s.m ≤ 1023 → s.m.hif.held.length < 4096 →
        Answers (.tunnelRequestReceive r) s (fun n => ∃ h, n.hif.held = s.m.hif.held ++ [h] ∧ h.tk.op = r.whole.op ∧
          h.tk.src = .tunnel r.seat r.tunId 0 ∧ h.cmd.deal = s.m.deal + 1 ∧ h.cmd.pay = r.whole.cmd.pay ∧ n.out = s.m.out))) ∧
    (∀ (r : TunnelRep) (x : Sent) (q : Nat), sentOf s.m r.tunId = some x → r.idx < r.cnt →
      ((replyGot r s.m).got.length < r.cnt → Answers (.tunnelReplyReceive r) s (fun n => replyGot r s.m ∈ n.hif.replies ∧
        n.hif.sent = s.m.hif.sent ∧ n.out = s.m.out)) ∧
      (r.cnt ≤ (replyGot r s.m).got.length → x.tk.src = .ring q → live x.tk s.m = true →
        Answers (.tunnelReplyReceive r) s (fun n => n.hif.sent = s.m.hif.sent.filter (fun y => y.tunId != r.tunId) ∧
          (r.result ≠ [] → NewOut s.m n (.dma (bufAddr x.cmd) r.result)) ∧
          NewOut s.m n (.completion (cqOf s.m q) (cq q) x.tk.tag x.tk.op r.status r.deal) ∧ n.regs = s.m.regs))) ∧
    (∀ (tun d : Nat) (x : Sent) (q : Nat), sentOf s.m tun = some x → Cmd_interim x.cmd = true → x.tk.src = .ring q → x.tk.interim = false →
      live x.tk s.m = true →
      Answers (.stamperAckReceive tun d) s (fun n => NewOut s.m n (.completion (cqOf s.m q) (cq q) x.tk.tag x.tk.op stPending d) ∧
        n.hif.sent.length = s.m.hif.sent.length ∧ n.regs = s.m.regs)) ∧
    (∀ (tun : Nat) (x : Sent) (q : Nat), s.m.hif.sent.find? (fun x => x.tunId == tun) = some x → x.tk.src = .ring q → live x.tk s.m = true →
      x.since + hifDeals s.m F.HIF_TUNNEL_TMO_DEALS ≤ s.m.deal →
      Answers (.tunnelTimeout tun) s (fun n => n.hif.sent = s.m.hif.sent.filter (fun y => y.tunId != tun) ∧
        NewOut s.m n (.completion (cqOf s.m q) (cq q) x.tk.tag x.tk.op stNotMember s.m.deal))) ∧
    (∀ seat tun, Answers (.tunnelReassemblyDiscard seat tun) s (fun n =>
      n.hif.assemblies = s.m.hif.assemblies.filter (fun a => !(a.seat == seat && a.tunId == tun && a.first + 64 ≤ s.m.deal)) ∧
      n.hif.held = s.m.hif.held ∧ n.regs = s.m.regs ∧ n.out = s.m.out))

/-- A write reaches a field as its type states (R4, R6, R8): read and write where the value is legal, a lockable field while SYS_LOCK is clear,
bits cleared and bits set by ones; every other type keeps its value. -/
def Obligations.FieldTypesAct : Prop :=
  ∀ (v : Nat) (f : Fld) (i j : Nat) (m : Mach), i < f.n1 → j < f.n2 →
    let x := v / 2 ^ f.lsb % 2 ^ f.width
    let n := writeFld v f i j m
    (f.typ = .rw → (legal m f i x = true → rdij n f i j = x) ∧ (legal m f i x = false → n = m)) ∧
    (f.typ = .rwl → (flag m F.SYS_LOCK_LOCK = true → n = m) ∧
      (flag m F.SYS_LOCK_LOCK = false → (legal m f i x = true → rdij n f i j = x) ∧ (legal m f i x = false → n = m))) ∧
    (f.typ = .w1c → rdij n f i j = andNot f.width (rdij m f i j) x % 2 ^ f.width) ∧
    (f.typ = .w1s → rdij n f i j = (rdij m f i j ||| x) % 2 ^ f.width) ∧
    (f.typ ≠ .rw → f.typ ≠ .rwl → f.typ ≠ .w1c → f.typ ≠ .w1s → n = m)

/-- Register accesses: a read gives its word and clears only RC fields; a write of a set-up register of the host interface writes its fields and
no more; the words of configuration space give what they hold, and a write moves BAR0 or clears an AER status; the MSI-X control word, and the
registers whose write has an effect of its own: GPIO_OUT_SET and GPIO_OUT_CLR, SYS_LOCK, SYS_RESET, which a latched zone holds off. -/
def Obligations.RegistersAnswer : Prop :=
  ∀ (s : State), Awake s →
    (∀ off, off % 4 = 0 → off < 0x40000 →
      Answers (.rcRead (.bar off)) s (fun n => n.out = .read (.bar off) (regWord off s.m) :: s.m.out ∧ n.regs = (readClear off s.m).regs ∧
        n.hif = s.m.hif ∧ n.dk = s.m.dk ∧ n.objs = s.m.objs)) ∧
    Answers (.rcRead .msixCtrl) s (fun n => n.out = .read .msixCtrl (msixCtrlWord s.m) :: s.m.out ∧ n.regs = s.m.regs ∧ n.hif = s.m.hif) ∧
    (∀ w, Answers (.rcRead (.cfg w)) s (fun n => n.out = .read (.cfg w) (cfgWord w s.m) :: s.m.out ∧ n.regs = s.m.regs ∧ n.hif = s.m.hif)) ∧
    (∀ (off : Nat) (v : Word), off % 4 = 0 → 0x1004 ≤ off → off < 0x2000 →
      Answers (.registerWrite (.bar off) v) s (fun n => n = writeFlds off v.toNat s.m)) ∧
    (∀ v : Word, Answers (.registerWrite .msixCtrl v) s (fun n => n.hif.msixEn = v.getLsbD 15 ∧ n.hif.msixMask = v.getLsbD 14 ∧ n.regs = s.m.regs)) ∧
    (∀ v : Word,
      (∀ w, w = .id ∨ w = .classRev ∨ w = .subsys → Answers (.registerWrite (.cfg w) v) s (fun n => n = s.m)) ∧
      Answers (.registerWrite (.cfg .barLo) v) s (fun n => n.hif.bar0 % 2 ^ 32 = v.toNat / 2 ^ 18 * 2 ^ 18 ∧
        n.hif.bar0 / 2 ^ 32 = s.m.hif.bar0 / 2 ^ 32 ∧ n.regs = s.m.regs ∧ n.out = s.m.out) ∧
      Answers (.registerWrite (.cfg .barHi) v) s (fun n => n.hif.bar0 / 2 ^ 32 = v.toNat ∧ n.hif.bar0 % 2 ^ 32 = s.m.hif.bar0 % 2 ^ 32 ∧
        n.regs = s.m.regs ∧ n.out = s.m.out) ∧
      Answers (.registerWrite (.cfg .aer) v) s (fun n => n.hif.aer = andNot 4 s.m.hif.aer v.toNat ∧ n.regs = s.m.regs ∧ n.out = s.m.out)) ∧
    (∀ v : Word, Answers (.gpioOutSet v) s (fun n => rd n F.GPIO_OUT_LEVEL = (rd s.m F.GPIO_OUT_LEVEL ||| v.toNat) % 2 ^ 32 ∧ n.gpio = s.m.gpio)) ∧
    (∀ v : Word, Answers (.gpioOutClr v) s (fun n => rd n F.GPIO_OUT_LEVEL = andNot 32 (rd s.m F.GPIO_OUT_LEVEL) v.toNat % 2 ^ 32 ∧
      n.gpio = s.m.gpio)) ∧
    (∀ v : Word, Answers (.sysLock v) s (fun n => rd n F.SYS_LOCK_LOCK = 1 ∧ n.out = s.m.out)) ∧
    (∀ v : Word, s.m.ann.latch = [] →
      Answers (.sysResetFull v) s (fun n => n.pwr.req = some (s.m.deal + 1, b2n (v.getLsbD 1)) ∧ n.regs = s.m.regs) ∧
      Answers (.sysResetNow v) s (fun n => n.pwr.req = some (s.m.deal + 1, 1) ∧ n.regs = s.m.regs)) ∧
    (∀ (v : Word) (i : Instr), s.m.ann.latch ≠ [] → i = .sysResetFull v ∨ i = .sysResetNow v →
      Answers i s (fun n => n.pwr = s.m.pwr ∧ rd n F.SEC_FLAGS_AUTH_FAIL = 1 ∧ Reported 0x14 0x1401 s.m n))

/-! Power, resets and supervision (17, 18, 01). -/

/-- POWER_TOLERANCE replaces the tolerances of its mask and completes DONE, but waits with BUSY_STOPPING where an entry is under way that its
tolerances no longer permit; after its dwell an entry starts; an entry and a wake that are done show the new state and are reported. A deck live
for 60 s is written over the older resume copy; the newer copy that authenticates is staged once time is locked. -/
def Obligations.PowerMoves : Prop :=
  (∀ (s : State), Awake s →
    (∀ c : Cmd, Plain 0x0901 c s.m → 1 ≤ u8 c 24 → u8 c 24 ≤ 15 →
      let pick := fun (i off : Nat) (f : Fld) => if (u8 c 24).testBit i then u32 c off else rd s.m f % 2 ^ 32
      let new := [pick 0 28 F.PWR_TOL_RENDER_US, pick 1 32 F.PWR_TOL_ICOM_US, pick 2 36 F.PWR_TOL_ANN_US, pick 3 40 F.PWR_TOL_STREAM_US]
      ((∀ v, s.m.pwr.move = some v → v.entry = false) →
        Answers (.powerTolerance c) s (fun n => tolerances n = new ∧ n.dk = s.m.dk ∧ Completed 0x0901 stDone c s.m n)) ∧
      (∀ v, s.m.pwr.move = some v → v.entry = true → (∀ f, f = F.PWR_TOL_RENDER_US ∨ f = F.PWR_TOL_ICOM_US ∨ f = F.PWR_TOL_ANN_US ∨
          f = F.PWR_TOL_STREAM_US → rd s.m f < 2 ^ 32) →
        (v.dst ≤ targetOf s.m new → Answers (.powerTolerance c) s (fun n => tolerances n = new ∧ n.dk = s.m.dk ∧ Completed 0x0901 stDone c s.m n)) ∧
        (targetOf s.m new < v.dst → Answers (.powerTolerance c) s (fun n => tolerances n = tolerances s.m ∧
          (∃ h, n.hif.stopped = s.m.hif.stopped ++ [h] ∧ h.cmd = c ∧ h.tk.op = 0x0901) ∧
          (running s.m = true → ∀ q, c.src = .ring q → ∃ ring idx,
            NewOut s.m n (.completion ring idx c.tag 0x0901 stBusyStopping v.at_)))))) ∧
    (∀ d, s.m.pwr.deeper = some d → s.m.pwr.move = none → rd s.m F.PWR_STATE_STATE = 0 → targetOf s.m (tolerances s.m) ≠ 0 →
      d + rd s.m F.PWR_CTRL_DWELL ≤ s.m.deal →
      Answers .powerEntryStart s (fun n => rd n F.PWR_STATE_MOVING = 1 ∧ rd n F.PWR_STATE_STATE = 0 ∧
        ∃ v, n.pwr.move = some v ∧ v.entry = true ∧ v.dst = targetOf s.m (tolerances s.m) ∧ v.at_ = s.m.deal)) ∧
    (∀ v : PwrMove, s.m.pwr.move = some v → v.dst < 4 →
      (v.entry = true → Answers .powerEntryDone s (fun n => rd n F.PWR_STATE_STATE = v.dst ∧ rd n F.PWR_STATE_MOVING = 0 ∧ n.pwr.move = none ∧
        rd n F.PWR_FLAGS_STATE_CHANGED = 1 ∧ Reported 0x16 0x1601 s.m n)) ∧
      (v.entry = false → Answers .wakeDone s (fun n => rd n F.PWR_STATE_STATE = v.dst ∧ rd n F.PWR_STATE_MOVING = 0 ∧ n.pwr.move = none ∧
        rd n F.PWR_WAKE_CNT_COUNT = min (2 ^ F.PWR_WAKE_CNT_COUNT.width - 1) (rd s.m F.PWR_WAKE_CNT_COUNT + 1) ∧
        Reported 0x16 0x1601 s.m n)))) ∧
  (∀ (s : State), Awake s →
    (flag s.m F.SYS_RESUME_EN = true → s.m.dk.live.digest ≠ 0 → s.m.dk.live.cutDeal + 480000 ≤ s.m.deal →
      (newestResume s.m 3).map (fun c => c.deck) ≠ some s.m.dk.live →
      Answers .resumeDeckSave s (fun n =>
        let g := ((newestResume s.m 3).map (fun c => c.gen)).getD 0 + 1
        mfind n.sys.resume (g % 2) = some ⟨s.m.dk.live, g⟩ ∧ n.dk = s.m.dk ∧ n.regs = s.m.regs ∧ n.out = s.m.out)) ∧
    (∀ a c, newestResume s.m a = some c → flag s.m F.TIM_STATE_LOCKED = true → flag s.m F.SYS_BOOT_RESUME_VALID = false →
      rd s.m F.SYS_BOOT_STAGE ≠ 0 → s.m.dk.live.digest = 0 → s.m.dk.staged = none → s.m.dk.sg = none → s.m.dk.retiring = none →
      Answers (.resumeDeckRestore a) s (fun n => n.dk.staged = some { c.deck with origin := 0, cutDeal := 0 } ∧ n.dk.live = s.m.dk.live ∧
        rd n F.SYS_BOOT_RESUME_VALID = 1 ∧ n.sys.resumeDig = c.deck.digest ∧ n.sys.resume = s.m.sys.resume)))

/-- Resets: supplies and the reset pins put the device in reset from any state, EXTEST as well; an immediate SYSTEM_RESET completes and
resets, a planned one waits for its leave. What flash keeps stays. -/
def Obligations.ResetsTakeHold : Prop :=
  (∀ (s : State) (c : Instr) (cause : Nat), (c = .powerOn ∧ cause = 0) ∨ (c = .resetNAssert ∧ cause = 1) ∨ (c = .pwrgoodFall ∧ cause = 7) →
    Answers c s (fun n => n.sys.held = some cause ∧ rd n F.SYS_RESET_CAUSE_CAUSE = cause ∧ n.deal = 0 ∧ n.dk.live.digest = 0 ∧ n.objs = [] ∧
      n.str.lis = [] ∧ n.sap.dirs = [] ∧ n.ring.bypA = false ∧ n.ring.bypB = false ∧ running n = false ∧ n.sec.keys = s.m.sec.keys ∧
      n.dom.roster = s.m.dom.roster ∧ n.ann.msgs = s.m.ann.msgs ∧ n.ann.latch = s.m.ann.latch)) ∧
  (∀ s : State, Answers .extestSelect s (fun n => n.sys.extest = true ∧ n.sys.held.isSome = true ∧ n.ring.bypA = false ∧ n.ring.bypB = false) ∧
    Answers .extestRelease s (fun n => n.sys.extest = false ∧ n.sys.held = s.m.sys.held ∧ n.regs = s.m.regs)) ∧
  (∀ (s : State) (c : Cmd), Awake s → Plain 0x0E02 c s.m ∨ Signed 0x0E02 c s.m →
    (u8 c 24 = 1 → Answers (.systemReset c) s (fun n => n.sys.held = some 2 ∧ n.dk.live.digest = 0 ∧ n.dom.roster = s.m.dom.roster ∧
      Completed 0x0E02 stDone c s.m n)) ∧
    (u8 c 24 = 0 → Answers (.systemReset c) s (fun n => n.sys.held = none ∧ n.pwr.reset = some (s.m.pwr.reset.getD (floodDeal s.m, 2)) ∧
      Completed 0x0E02 stDone c s.m n)))

/-- The boot: a reset that ends samples the strap after a power-on, a pin reset or a power failure, and by its boot source boots a flash slot that
runs, waits for an image over PCIe, or waits for a reset; one that cannot end changes nothing. GO asks for the PCIe image, which runs or fails its
check; on a device that is not in this boot GO reads as it was written. -/
def Obligations.BootRuns : Prop :=
  (∀ (s : State) (b : BootIn),
    (canBoot s.m = false → Answers (.resetRelease b) s (fun n => n = s.m)) ∧
    (canBoot s.m = true →
      let m := bootState b s.m
      let cause := rd s.m F.SYS_RESET_CAUSE_CAUSE
      let src := if cause < 2 ∨ cause = 7 then b.strap % 4 else rd s.m F.SYS_STRAP_BOOT_SRC
      let waits := fun (held : Nat) (n : Mach) => n.sys.held = some held ∧ n.sys.pboot = (decide (held = 8) || s.m.sys.pboot) ∧
        rd n F.SYS_STRAP_BOOT_SRC = src
      (src = 0 ∨ src = 2 → (pickSlot m).isSome = true → Answers (.resetRelease b) s (fun n => n.sys.held = none)) ∧
      (src = 0 → pickSlot m = none → Answers (.resetRelease b) s (waits 9)) ∧
      (src = 2 → pickSlot m = none → Answers (.resetRelease b) s (waits 8)) ∧
      (src = 1 → Answers (.resetRelease b) s (waits 8)) ∧
      (src = 3 → Answers (.resetRelease b) s (waits 9)))) ∧
  (∀ s : State, s.m.sys.pboot = true →
    (∀ v : Word, Answers (.sysPbootGo v) s (fun n => rd n F.SYS_PBOOT_CTRL_GO = 1 ∧ rd n F.SYS_PBOOT_CTRL_FAIL = 0 ∧ n.sys = s.m.sys)) ∧
    (∀ i : BootImg, flag s.m F.SYS_PBOOT_CTRL_GO = true →
      (imageRuns i s.m = true → Answers (.pbootImageChecked i) s (fun n => n.sys.held = none ∧ n.sys.pboot = false ∧
        rd n F.SYS_PBOOT_CTRL_DONE = 1)) ∧
      (imageRuns i s.m = false → Answers (.pbootImageChecked i) s (fun n => rd n F.SYS_PBOOT_CTRL_FAIL = 1 ∧ rd n F.SYS_PBOOT_CTRL_GO = 0 ∧
        n.sys = s.m.sys)))) ∧
  (∀ (s : State) (v : Word), Awake s → s.m.sys.pboot = false →
    Answers (.sysPbootGo v) s (fun n => rd n F.SYS_PBOOT_CTRL_GO = 1 ∧ n.sys = s.m.sys ∧ n.out = s.m.out))

/-- Supervision: a rail that leaves its limits bypasses an inserted device and is reported, and its return; a temperature sample shows itself
and the maximum; ECC errors are counted, an uncorrectable one in a bank of its region is flagged and reported, one in a slot zeroes it, and one
in firmware data resets. A service core that dissents from two others leaves the vote and is reported, a finished copy brings it back, and two
cores that disagree reset the device. -/
def Obligations.SupervisionActs : Prop :=
  ∀ (s : State), Awake s →
    (∀ rail mv, rail < 7 →
      ((rd s.m F.DIAG_SUPPLY_IN_RANGE).testBit rail = true →
        Answers (.supplyOutOfLimits rail mv) s (fun n => (rd n F.DIAG_SUPPLY_IN_RANGE).testBit rail = false ∧
          rd n F.DIAG_ALERT_FLAGS_SUPPLY = 1 ∧ n.ring.unitLost.testBit 0 = true ∧ Reported 0x17 0x1710 s.m n ∧
          (rd s.m F.RING_STATE_INS ≠ 0 → n.ring.bypA = false ∧ n.ring.bypB = false ∧ rd n F.RING_STATE_INS = 0))) ∧
      ((rd s.m F.DIAG_SUPPLY_IN_RANGE).testBit rail = false →
        Answers (.supplyBack rail mv) s (fun n => (rd n F.DIAG_SUPPLY_IN_RANGE).testBit rail = true ∧ Reported 0x17 0x1710 s.m n ∧
          n.ring.bypA = s.m.ring.bypA ∧ n.ring.bypB = s.m.ring.bypB))) ∧
    (∀ t : Int, -(2 ^ 15) ≤ t → t < 2 ^ 15 →
      Answers (.tjSample t) s (fun n => rdS16 n F.DIAG_TJ_TEMP = t ∧ rdS16 n F.DIAG_TJ_MAX = max (rdS16 s.m F.DIAG_TJ_MAX) t)) ∧
    (∀ bank, bank < 64 →
      Answers (.eccCorrected bank) s (fun n => eccCnt n bank 0 = eccCnt s.m bank 0 + 1 ∧ n.regs = s.m.regs ∧ n.out = s.m.out)) ∧
    (∀ bank word t, eccBankOk bank t s.m = true →
      (t ≠ .data → Answers (.eccUncorrected bank word t) s (fun n => eccCnt n bank 1 = eccCnt s.m bank 1 + 1 ∧
        rd n F.DIAG_ALERT_FLAGS_ECC = 1 ∧ Reported 0x15 0x1501 s.m n ∧ (∀ slot, slot < 4096 → t = .slot slot → slot ∈ n.frm.zero))) ∧
      (t = .data → Answers (.eccUncorrected bank word t) s (fun n => n.sys.held = some 6 ∧ n.ring.bypA = false ∧ n.ring.bypB = false ∧
        Reported 0x15 0x1501 s.m n))) ∧
    (∀ k, k < 3 →
      (rd s.m F.DIAG_SVC_STAT_VOTING = 7 →
        Answers (.svcCoreDissent k) s (fun n => rd n F.DIAG_SVC_STAT_VOTING = 7 - 2 ^ k ∧ rd n F.DIAG_SVC_STAT_RESYNC = 1 ∧
          rd n F.DIAG_ALERT_FLAGS_SVC = 1 ∧ Reported 0x12 0x1201 s.m n)) ∧
      (rd s.m F.DIAG_SVC_STAT_VOTING ≠ 7 → (rd s.m F.DIAG_SVC_STAT_VOTING).testBit k = true →
        Answers (.svcCoreDissent k) s (fun n => n.sys.held = some 4 ∧ n.ring.bypA = false ∧ n.ring.bypB = false ∧ Reported 0x12 0x1201 s.m n)) ∧
      (flag s.m F.DIAG_SVC_STAT_RESYNC = true → rd s.m F.DIAG_SVC_STAT_VOTING ≠ 7 → (rd s.m F.DIAG_SVC_STAT_VOTING).testBit k = false →
        Answers (.svcResyncDone k) s (fun n => (rd n F.DIAG_SVC_STAT_VOTING).testBit k = true ∧ rd n F.DIAG_SVC_STAT_RESYNC = 0 ∧
          Reported 0x12 0x1201 s.m n)))

/-- SYS_LOCK: a write of a register, of an RWL field as well, completes; once LOCK is set, no command clears it or changes an RWL field, but for
those that leave the device in a reset. -/
def Obligations.SysLockHolds : Prop :=
  (∀ (off : Nat) (v : Word) (s : State), off % 4 = 0 → off < 0x40000 → ∃ t, exec (.registerWrite (.bar off) v) s = .next t) ∧
  (∀ (c : Instr) (s t : State), exec c s = .next t → flag s.m F.SYS_LOCK_LOCK = true → t.m.sys.held = none →
    flag t.m F.SYS_LOCK_LOCK = true ∧ ∀ f ∈ fldTable, f.typ = .rwl → ∀ i j, i < f.n1 → j < f.n2 → rdij t.m f i j = rdij s.m f i j)

/-! Frames. -/

/-- A descriptor changes no piece of the machine but those that it touches: its own subsystem's and, by its admission, its refusal or its
completion, the host interface, the output, the key store and the domain's books. -/
def Obligations.CommandsKeepTheRest : Prop :=
  ∀ (c : Instr) (s t : State) (p : Piece), hostCommand c = true → exec c s = .next t → p ∉ touches c → SamePiece p s.m t.m

/-- Every other row, an event or a register access, changes no piece of the machine but those that it touches. -/
def Obligations.EventsKeepTheRest : Prop :=
  ∀ (c : Instr) (s t : State) (p : Piece), hostCommand c = false → exec c s = .next t → p ∉ touches c → SamePiece p s.m t.m
end

