-- ==== Sys2Proof/Laws/State.lean ====
section
/-! SUPPORT. One lemma for each field of the machine after each update. -/
namespace Sys2Proof.Machine

@[simp] theorem wr_deal (f : Fld) (v : Nat) (m : Mach) : (wr f v m).deal = m.deal := rfl
@[simp] theorem wr_ticks (f : Fld) (v : Nat) (m : Mach) : (wr f v m).ticks = m.ticks := rfl
@[simp] theorem wr_regs (f : Fld) (v : Nat) (m : Mach) : (wr f v m).regs = rsetij f 0 0 v m.regs := rfl
@[simp] theorem wr_hif (f : Fld) (v : Nat) (m : Mach) : (wr f v m).hif = m.hif := rfl
@[simp] theorem wr_fresh (f : Fld) (v : Nat) (m : Mach) : (wr f v m).fresh = m.fresh := rfl
@[simp] theorem wr_out (f : Fld) (v : Nat) (m : Mach) : (wr f v m).out = m.out := rfl
@[simp] theorem wr_clk (f : Fld) (v : Nat) (m : Mach) : (wr f v m).clk = m.clk := rfl
@[simp] theorem wr_tim (f : Fld) (v : Nat) (m : Mach) : (wr f v m).tim = m.tim := rfl
@[simp] theorem wr_tic (f : Fld) (v : Nat) (m : Mach) : (wr f v m).tic = m.tic := rfl
@[simp] theorem wr_ring (f : Fld) (v : Nat) (m : Mach) : (wr f v m).ring = m.ring := rfl
@[simp] theorem wr_str (f : Fld) (v : Nat) (m : Mach) : (wr f v m).str = m.str := rfl
@[simp] theorem wr_dk (f : Fld) (v : Nat) (m : Mach) : (wr f v m).dk = m.dk := rfl
@[simp] theorem wr_frm (f : Fld) (v : Nat) (m : Mach) : (wr f v m).frm = m.frm := rfl
@[simp] theorem wr_objs (f : Fld) (v : Nat) (m : Mach) : (wr f v m).objs = m.objs := rfl
@[simp] theorem wr_rend (f : Fld) (v : Nat) (m : Mach) : (wr f v m).rend = m.rend := rfl
@[simp] theorem wr_vote (f : Fld) (v : Nat) (m : Mach) : (wr f v m).vote = m.vote := rfl
@[simp] theorem wr_cor (f : Fld) (v : Nat) (m : Mach) : (wr f v m).cor = m.cor := rfl
@[simp] theorem wr_icom (f : Fld) (v : Nat) (m : Mach) : (wr f v m).icom = m.icom := rfl
@[simp] theorem wr_sap (f : Fld) (v : Nat) (m : Mach) : (wr f v m).sap = m.sap := rfl
@[simp] theorem wr_pwr (f : Fld) (v : Nat) (m : Mach) : (wr f v m).pwr = m.pwr := rfl
@[simp] theorem wr_ann (f : Fld) (v : Nat) (m : Mach) : (wr f v m).ann = m.ann := rfl
@[simp] theorem wr_sec (f : Fld) (v : Nat) (m : Mach) : (wr f v m).sec = m.sec := rfl
@[simp] theorem wr_dom (f : Fld) (v : Nat) (m : Mach) : (wr f v m).dom = m.dom := rfl
@[simp] theorem wr_gpio (f : Fld) (v : Nat) (m : Mach) : (wr f v m).gpio = m.gpio := rfl
@[simp] theorem wr_sys (f : Fld) (v : Nat) (m : Mach) : (wr f v m).sys = m.sys := rfl
@[simp] theorem wr_setup (f : Fld) (v : Nat) (m : Mach) : (wr f v m).setup = m.setup := rfl

@[simp] theorem wri_deal (f : Fld) (i v : Nat) (m : Mach) : (wri f i v m).deal = m.deal := rfl
@[simp] theorem wri_ticks (f : Fld) (i v : Nat) (m : Mach) : (wri f i v m).ticks = m.ticks := rfl
@[simp] theorem wri_regs (f : Fld) (i v : Nat) (m : Mach) : (wri f i v m).regs = (if i < f.n1 then rsetij f i 0 v m.regs else m.regs) := rfl
@[simp] theorem wri_hif (f : Fld) (i v : Nat) (m : Mach) : (wri f i v m).hif = m.hif := rfl
@[simp] theorem wri_fresh (f : Fld) (i v : Nat) (m : Mach) : (wri f i v m).fresh = m.fresh := rfl
@[simp] theorem wri_out (f : Fld) (i v : Nat) (m : Mach) : (wri f i v m).out = m.out := rfl
@[simp] theorem wri_clk (f : Fld) (i v : Nat) (m : Mach) : (wri f i v m).clk = m.clk := rfl
@[simp] theorem wri_tim (f : Fld) (i v : Nat) (m : Mach) : (wri f i v m).tim = m.tim := rfl
@[simp] theorem wri_tic (f : Fld) (i v : Nat) (m : Mach) : (wri f i v m).tic = m.tic := rfl
@[simp] theorem wri_ring (f : Fld) (i v : Nat) (m : Mach) : (wri f i v m).ring = m.ring := rfl
@[simp] theorem wri_str (f : Fld) (i v : Nat) (m : Mach) : (wri f i v m).str = m.str := rfl
@[simp] theorem wri_dk (f : Fld) (i v : Nat) (m : Mach) : (wri f i v m).dk = m.dk := rfl
@[simp] theorem wri_frm (f : Fld) (i v : Nat) (m : Mach) : (wri f i v m).frm = m.frm := rfl
@[simp] theorem wri_objs (f : Fld) (i v : Nat) (m : Mach) : (wri f i v m).objs = m.objs := rfl
@[simp] theorem wri_rend (f : Fld) (i v : Nat) (m : Mach) : (wri f i v m).rend = m.rend := rfl
@[simp] theorem wri_vote (f : Fld) (i v : Nat) (m : Mach) : (wri f i v m).vote = m.vote := rfl
@[simp] theorem wri_cor (f : Fld) (i v : Nat) (m : Mach) : (wri f i v m).cor = m.cor := rfl
@[simp] theorem wri_icom (f : Fld) (i v : Nat) (m : Mach) : (wri f i v m).icom = m.icom := rfl
@[simp] theorem wri_sap (f : Fld) (i v : Nat) (m : Mach) : (wri f i v m).sap = m.sap := rfl
@[simp] theorem wri_pwr (f : Fld) (i v : Nat) (m : Mach) : (wri f i v m).pwr = m.pwr := rfl
@[simp] theorem wri_ann (f : Fld) (i v : Nat) (m : Mach) : (wri f i v m).ann = m.ann := rfl
@[simp] theorem wri_sec (f : Fld) (i v : Nat) (m : Mach) : (wri f i v m).sec = m.sec := rfl
@[simp] theorem wri_dom (f : Fld) (i v : Nat) (m : Mach) : (wri f i v m).dom = m.dom := rfl
@[simp] theorem wri_gpio (f : Fld) (i v : Nat) (m : Mach) : (wri f i v m).gpio = m.gpio := rfl
@[simp] theorem wri_sys (f : Fld) (i v : Nat) (m : Mach) : (wri f i v m).sys = m.sys := rfl
@[simp] theorem wri_setup (f : Fld) (i v : Nat) (m : Mach) : (wri f i v m).setup = m.setup := rfl

@[simp] theorem wrij_deal (f : Fld) (i j v : Nat) (m : Mach) : (wrij f i j v m).deal = m.deal := rfl
@[simp] theorem wrij_ticks (f : Fld) (i j v : Nat) (m : Mach) : (wrij f i j v m).ticks = m.ticks := rfl
@[simp] theorem wrij_regs (f : Fld) (i j v : Nat) (m : Mach) : (wrij f i j v m).regs = (if i < f.n1 ∧ j < f.n2 then rsetij f i j v m.regs else m.regs) := rfl
@[simp] theorem wrij_hif (f : Fld) (i j v : Nat) (m : Mach) : (wrij f i j v m).hif = m.hif := rfl
@[simp] theorem wrij_fresh (f : Fld) (i j v : Nat) (m : Mach) : (wrij f i j v m).fresh = m.fresh := rfl
@[simp] theorem wrij_out (f : Fld) (i j v : Nat) (m : Mach) : (wrij f i j v m).out = m.out := rfl
@[simp] theorem wrij_clk (f : Fld) (i j v : Nat) (m : Mach) : (wrij f i j v m).clk = m.clk := rfl
@[simp] theorem wrij_tim (f : Fld) (i j v : Nat) (m : Mach) : (wrij f i j v m).tim = m.tim := rfl
@[simp] theorem wrij_tic (f : Fld) (i j v : Nat) (m : Mach) : (wrij f i j v m).tic = m.tic := rfl
@[simp] theorem wrij_ring (f : Fld) (i j v : Nat) (m : Mach) : (wrij f i j v m).ring = m.ring := rfl
@[simp] theorem wrij_str (f : Fld) (i j v : Nat) (m : Mach) : (wrij f i j v m).str = m.str := rfl
@[simp] theorem wrij_dk (f : Fld) (i j v : Nat) (m : Mach) : (wrij f i j v m).dk = m.dk := rfl
@[simp] theorem wrij_frm (f : Fld) (i j v : Nat) (m : Mach) : (wrij f i j v m).frm = m.frm := rfl
@[simp] theorem wrij_objs (f : Fld) (i j v : Nat) (m : Mach) : (wrij f i j v m).objs = m.objs := rfl
@[simp] theorem wrij_rend (f : Fld) (i j v : Nat) (m : Mach) : (wrij f i j v m).rend = m.rend := rfl
@[simp] theorem wrij_vote (f : Fld) (i j v : Nat) (m : Mach) : (wrij f i j v m).vote = m.vote := rfl
@[simp] theorem wrij_cor (f : Fld) (i j v : Nat) (m : Mach) : (wrij f i j v m).cor = m.cor := rfl
@[simp] theorem wrij_icom (f : Fld) (i j v : Nat) (m : Mach) : (wrij f i j v m).icom = m.icom := rfl
@[simp] theorem wrij_sap (f : Fld) (i j v : Nat) (m : Mach) : (wrij f i j v m).sap = m.sap := rfl
@[simp] theorem wrij_pwr (f : Fld) (i j v : Nat) (m : Mach) : (wrij f i j v m).pwr = m.pwr := rfl
@[simp] theorem wrij_ann (f : Fld) (i j v : Nat) (m : Mach) : (wrij f i j v m).ann = m.ann := rfl
@[simp] theorem wrij_sec (f : Fld) (i j v : Nat) (m : Mach) : (wrij f i j v m).sec = m.sec := rfl
@[simp] theorem wrij_dom (f : Fld) (i j v : Nat) (m : Mach) : (wrij f i j v m).dom = m.dom := rfl
@[simp] theorem wrij_gpio (f : Fld) (i j v : Nat) (m : Mach) : (wrij f i j v m).gpio = m.gpio := rfl
@[simp] theorem wrij_sys (f : Fld) (i j v : Nat) (m : Mach) : (wrij f i j v m).sys = m.sys := rfl
@[simp] theorem wrij_setup (f : Fld) (i j v : Nat) (m : Mach) : (wrij f i j v m).setup = m.setup := rfl

@[simp] theorem bump_deal (f : Fld) (n : Nat) (m : Mach) : (bump f n m).deal = m.deal := rfl
@[simp] theorem bump_ticks (f : Fld) (n : Nat) (m : Mach) : (bump f n m).ticks = m.ticks := rfl
@[simp] theorem bump_regs (f : Fld) (n : Nat) (m : Mach) : (bump f n m).regs = rbump f 0 n m.regs := rfl
@[simp] theorem bump_hif (f : Fld) (n : Nat) (m : Mach) : (bump f n m).hif = m.hif := rfl
@[simp] theorem bump_fresh (f : Fld) (n : Nat) (m : Mach) : (bump f n m).fresh = m.fresh := rfl
@[simp] theorem bump_out (f : Fld) (n : Nat) (m : Mach) : (bump f n m).out = m.out := rfl
@[simp] theorem bump_clk (f : Fld) (n : Nat) (m : Mach) : (bump f n m).clk = m.clk := rfl
@[simp] theorem bump_tim (f : Fld) (n : Nat) (m : Mach) : (bump f n m).tim = m.tim := rfl
@[simp] theorem bump_tic (f : Fld) (n : Nat) (m : Mach) : (bump f n m).tic = m.tic := rfl
@[simp] theorem bump_ring (f : Fld) (n : Nat) (m : Mach) : (bump f n m).ring = m.ring := rfl
@[simp] theorem bump_str (f : Fld) (n : Nat) (m : Mach) : (bump f n m).str = m.str := rfl
@[simp] theorem bump_dk (f : Fld) (n : Nat) (m : Mach) : (bump f n m).dk = m.dk := rfl
@[simp] theorem bump_frm (f : Fld) (n : Nat) (m : Mach) : (bump f n m).frm = m.frm := rfl
@[simp] theorem bump_objs (f : Fld) (n : Nat) (m : Mach) : (bump f n m).objs = m.objs := rfl
@[simp] theorem bump_rend (f : Fld) (n : Nat) (m : Mach) : (bump f n m).rend = m.rend := rfl
@[simp] theorem bump_vote (f : Fld) (n : Nat) (m : Mach) : (bump f n m).vote = m.vote := rfl
@[simp] theorem bump_cor (f : Fld) (n : Nat) (m : Mach) : (bump f n m).cor = m.cor := rfl
@[simp] theorem bump_icom (f : Fld) (n : Nat) (m : Mach) : (bump f n m).icom = m.icom := rfl
@[simp] theorem bump_sap (f : Fld) (n : Nat) (m : Mach) : (bump f n m).sap = m.sap := rfl
@[simp] theorem bump_pwr (f : Fld) (n : Nat) (m : Mach) : (bump f n m).pwr = m.pwr := rfl
@[simp] theorem bump_ann (f : Fld) (n : Nat) (m : Mach) : (bump f n m).ann = m.ann := rfl
@[simp] theorem bump_sec (f : Fld) (n : Nat) (m : Mach) : (bump f n m).sec = m.sec := rfl
@[simp] theorem bump_dom (f : Fld) (n : Nat) (m : Mach) : (bump f n m).dom = m.dom := rfl
@[simp] theorem bump_gpio (f : Fld) (n : Nat) (m : Mach) : (bump f n m).gpio = m.gpio := rfl
@[simp] theorem bump_sys (f : Fld) (n : Nat) (m : Mach) : (bump f n m).sys = m.sys := rfl
@[simp] theorem bump_setup (f : Fld) (n : Nat) (m : Mach) : (bump f n m).setup = m.setup := rfl

@[simp] theorem bumpi_deal (f : Fld) (i n : Nat) (m : Mach) : (bumpi f i n m).deal = m.deal := rfl
@[simp] theorem bumpi_ticks (f : Fld) (i n : Nat) (m : Mach) : (bumpi f i n m).ticks = m.ticks := rfl
@[simp] theorem bumpi_regs (f : Fld) (i n : Nat) (m : Mach) : (bumpi f i n m).regs = (if i < f.n1 then rbump f i n m.regs else m.regs) := rfl
@[simp] theorem bumpi_hif (f : Fld) (i n : Nat) (m : Mach) : (bumpi f i n m).hif = m.hif := rfl
@[simp] theorem bumpi_fresh (f : Fld) (i n : Nat) (m : Mach) : (bumpi f i n m).fresh = m.fresh := rfl
@[simp] theorem bumpi_out (f : Fld) (i n : Nat) (m : Mach) : (bumpi f i n m).out = m.out := rfl
@[simp] theorem bumpi_clk (f : Fld) (i n : Nat) (m : Mach) : (bumpi f i n m).clk = m.clk := rfl
@[simp] theorem bumpi_tim (f : Fld) (i n : Nat) (m : Mach) : (bumpi f i n m).tim = m.tim := rfl
@[simp] theorem bumpi_tic (f : Fld) (i n : Nat) (m : Mach) : (bumpi f i n m).tic = m.tic := rfl
@[simp] theorem bumpi_ring (f : Fld) (i n : Nat) (m : Mach) : (bumpi f i n m).ring = m.ring := rfl
@[simp] theorem bumpi_str (f : Fld) (i n : Nat) (m : Mach) : (bumpi f i n m).str = m.str := rfl
@[simp] theorem bumpi_dk (f : Fld) (i n : Nat) (m : Mach) : (bumpi f i n m).dk = m.dk := rfl
@[simp] theorem bumpi_frm (f : Fld) (i n : Nat) (m : Mach) : (bumpi f i n m).frm = m.frm := rfl
@[simp] theorem bumpi_objs (f : Fld) (i n : Nat) (m : Mach) : (bumpi f i n m).objs = m.objs := rfl
@[simp] theorem bumpi_rend (f : Fld) (i n : Nat) (m : Mach) : (bumpi f i n m).rend = m.rend := rfl
@[simp] theorem bumpi_vote (f : Fld) (i n : Nat) (m : Mach) : (bumpi f i n m).vote = m.vote := rfl
@[simp] theorem bumpi_cor (f : Fld) (i n : Nat) (m : Mach) : (bumpi f i n m).cor = m.cor := rfl
@[simp] theorem bumpi_icom (f : Fld) (i n : Nat) (m : Mach) : (bumpi f i n m).icom = m.icom := rfl
@[simp] theorem bumpi_sap (f : Fld) (i n : Nat) (m : Mach) : (bumpi f i n m).sap = m.sap := rfl
@[simp] theorem bumpi_pwr (f : Fld) (i n : Nat) (m : Mach) : (bumpi f i n m).pwr = m.pwr := rfl
@[simp] theorem bumpi_ann (f : Fld) (i n : Nat) (m : Mach) : (bumpi f i n m).ann = m.ann := rfl
@[simp] theorem bumpi_sec (f : Fld) (i n : Nat) (m : Mach) : (bumpi f i n m).sec = m.sec := rfl
@[simp] theorem bumpi_dom (f : Fld) (i n : Nat) (m : Mach) : (bumpi f i n m).dom = m.dom := rfl
@[simp] theorem bumpi_gpio (f : Fld) (i n : Nat) (m : Mach) : (bumpi f i n m).gpio = m.gpio := rfl
@[simp] theorem bumpi_sys (f : Fld) (i n : Nat) (m : Mach) : (bumpi f i n m).sys = m.sys := rfl
@[simp] theorem bumpi_setup (f : Fld) (i n : Nat) (m : Mach) : (bumpi f i n m).setup = m.setup := rfl

@[simp] theorem orReg_deal (f : Fld) (b : Nat) (m : Mach) : (orReg f b m).deal = m.deal := rfl
@[simp] theorem orReg_ticks (f : Fld) (b : Nat) (m : Mach) : (orReg f b m).ticks = m.ticks := rfl
@[simp] theorem orReg_regs (f : Fld) (b : Nat) (m : Mach) : (orReg f b m).regs = rsetij f 0 0 (rd m f ||| b) m.regs := rfl
@[simp] theorem orReg_hif (f : Fld) (b : Nat) (m : Mach) : (orReg f b m).hif = m.hif := rfl
@[simp] theorem orReg_fresh (f : Fld) (b : Nat) (m : Mach) : (orReg f b m).fresh = m.fresh := rfl
@[simp] theorem orReg_out (f : Fld) (b : Nat) (m : Mach) : (orReg f b m).out = m.out := rfl
@[simp] theorem orReg_clk (f : Fld) (b : Nat) (m : Mach) : (orReg f b m).clk = m.clk := rfl
@[simp] theorem orReg_tim (f : Fld) (b : Nat) (m : Mach) : (orReg f b m).tim = m.tim := rfl
@[simp] theorem orReg_tic (f : Fld) (b : Nat) (m : Mach) : (orReg f b m).tic = m.tic := rfl
@[simp] theorem orReg_ring (f : Fld) (b : Nat) (m : Mach) : (orReg f b m).ring = m.ring := rfl
@[simp] theorem orReg_str (f : Fld) (b : Nat) (m : Mach) : (orReg f b m).str = m.str := rfl
@[simp] theorem orReg_dk (f : Fld) (b : Nat) (m : Mach) : (orReg f b m).dk = m.dk := rfl
@[simp] theorem orReg_frm (f : Fld) (b : Nat) (m : Mach) : (orReg f b m).frm = m.frm := rfl
@[simp] theorem orReg_objs (f : Fld) (b : Nat) (m : Mach) : (orReg f b m).objs = m.objs := rfl
@[simp] theorem orReg_rend (f : Fld) (b : Nat) (m : Mach) : (orReg f b m).rend = m.rend := rfl
@[simp] theorem orReg_vote (f : Fld) (b : Nat) (m : Mach) : (orReg f b m).vote = m.vote := rfl
@[simp] theorem orReg_cor (f : Fld) (b : Nat) (m : Mach) : (orReg f b m).cor = m.cor := rfl
@[simp] theorem orReg_icom (f : Fld) (b : Nat) (m : Mach) : (orReg f b m).icom = m.icom := rfl
@[simp] theorem orReg_sap (f : Fld) (b : Nat) (m : Mach) : (orReg f b m).sap = m.sap := rfl
@[simp] theorem orReg_pwr (f : Fld) (b : Nat) (m : Mach) : (orReg f b m).pwr = m.pwr := rfl
@[simp] theorem orReg_ann (f : Fld) (b : Nat) (m : Mach) : (orReg f b m).ann = m.ann := rfl
@[simp] theorem orReg_sec (f : Fld) (b : Nat) (m : Mach) : (orReg f b m).sec = m.sec := rfl
@[simp] theorem orReg_dom (f : Fld) (b : Nat) (m : Mach) : (orReg f b m).dom = m.dom := rfl
@[simp] theorem orReg_gpio (f : Fld) (b : Nat) (m : Mach) : (orReg f b m).gpio = m.gpio := rfl
@[simp] theorem orReg_sys (f : Fld) (b : Nat) (m : Mach) : (orReg f b m).sys = m.sys := rfl
@[simp] theorem orReg_setup (f : Fld) (b : Nat) (m : Mach) : (orReg f b m).setup = m.setup := rfl

@[simp] theorem useFresh_deal (n : Nat) (m : Mach) : (useFresh n m).deal = m.deal := rfl
@[simp] theorem useFresh_ticks (n : Nat) (m : Mach) : (useFresh n m).ticks = m.ticks := rfl
@[simp] theorem useFresh_regs (n : Nat) (m : Mach) : (useFresh n m).regs = m.regs := rfl
@[simp] theorem useFresh_hif (n : Nat) (m : Mach) : (useFresh n m).hif = m.hif := rfl
@[simp] theorem useFresh_fresh (n : Nat) (m : Mach) : (useFresh n m).fresh = m.fresh + n := rfl
@[simp] theorem useFresh_out (n : Nat) (m : Mach) : (useFresh n m).out = m.out := rfl
@[simp] theorem useFresh_clk (n : Nat) (m : Mach) : (useFresh n m).clk = m.clk := rfl
@[simp] theorem useFresh_tim (n : Nat) (m : Mach) : (useFresh n m).tim = m.tim := rfl
@[simp] theorem useFresh_tic (n : Nat) (m : Mach) : (useFresh n m).tic = m.tic := rfl
@[simp] theorem useFresh_ring (n : Nat) (m : Mach) : (useFresh n m).ring = m.ring := rfl
@[simp] theorem useFresh_str (n : Nat) (m : Mach) : (useFresh n m).str = m.str := rfl
@[simp] theorem useFresh_dk (n : Nat) (m : Mach) : (useFresh n m).dk = m.dk := rfl
@[simp] theorem useFresh_frm (n : Nat) (m : Mach) : (useFresh n m).frm = m.frm := rfl
@[simp] theorem useFresh_objs (n : Nat) (m : Mach) : (useFresh n m).objs = m.objs := rfl
@[simp] theorem useFresh_rend (n : Nat) (m : Mach) : (useFresh n m).rend = m.rend := rfl
@[simp] theorem useFresh_vote (n : Nat) (m : Mach) : (useFresh n m).vote = m.vote := rfl
@[simp] theorem useFresh_cor (n : Nat) (m : Mach) : (useFresh n m).cor = m.cor := rfl
@[simp] theorem useFresh_icom (n : Nat) (m : Mach) : (useFresh n m).icom = m.icom := rfl
@[simp] theorem useFresh_sap (n : Nat) (m : Mach) : (useFresh n m).sap = m.sap := rfl
@[simp] theorem useFresh_pwr (n : Nat) (m : Mach) : (useFresh n m).pwr = m.pwr := rfl
@[simp] theorem useFresh_ann (n : Nat) (m : Mach) : (useFresh n m).ann = m.ann := rfl
@[simp] theorem useFresh_sec (n : Nat) (m : Mach) : (useFresh n m).sec = m.sec := rfl
@[simp] theorem useFresh_dom (n : Nat) (m : Mach) : (useFresh n m).dom = m.dom := rfl
@[simp] theorem useFresh_gpio (n : Nat) (m : Mach) : (useFresh n m).gpio = m.gpio := rfl
@[simp] theorem useFresh_sys (n : Nat) (m : Mach) : (useFresh n m).sys = m.sys := rfl
@[simp] theorem useFresh_setup (n : Nat) (m : Mach) : (useFresh n m).setup = m.setup := rfl

@[simp] theorem emit_deal (o : Out) (m : Mach) : (emit o m).deal = m.deal := rfl
@[simp] theorem emit_ticks (o : Out) (m : Mach) : (emit o m).ticks = m.ticks := rfl
@[simp] theorem emit_regs (o : Out) (m : Mach) : (emit o m).regs = m.regs := rfl
@[simp] theorem emit_hif (o : Out) (m : Mach) : (emit o m).hif = m.hif := rfl
@[simp] theorem emit_fresh (o : Out) (m : Mach) : (emit o m).fresh = m.fresh := rfl
@[simp] theorem emit_out (o : Out) (m : Mach) : (emit o m).out = o :: m.out := rfl
@[simp] theorem emit_clk (o : Out) (m : Mach) : (emit o m).clk = m.clk := rfl
@[simp] theorem emit_tim (o : Out) (m : Mach) : (emit o m).tim = m.tim := rfl
@[simp] theorem emit_tic (o : Out) (m : Mach) : (emit o m).tic = m.tic := rfl
@[simp] theorem emit_ring (o : Out) (m : Mach) : (emit o m).ring = m.ring := rfl
@[simp] theorem emit_str (o : Out) (m : Mach) : (emit o m).str = m.str := rfl
@[simp] theorem emit_dk (o : Out) (m : Mach) : (emit o m).dk = m.dk := rfl
@[simp] theorem emit_frm (o : Out) (m : Mach) : (emit o m).frm = m.frm := rfl
@[simp] theorem emit_objs (o : Out) (m : Mach) : (emit o m).objs = m.objs := rfl
@[simp] theorem emit_rend (o : Out) (m : Mach) : (emit o m).rend = m.rend := rfl
@[simp] theorem emit_vote (o : Out) (m : Mach) : (emit o m).vote = m.vote := rfl
@[simp] theorem emit_cor (o : Out) (m : Mach) : (emit o m).cor = m.cor := rfl
@[simp] theorem emit_icom (o : Out) (m : Mach) : (emit o m).icom = m.icom := rfl
@[simp] theorem emit_sap (o : Out) (m : Mach) : (emit o m).sap = m.sap := rfl
@[simp] theorem emit_pwr (o : Out) (m : Mach) : (emit o m).pwr = m.pwr := rfl
@[simp] theorem emit_ann (o : Out) (m : Mach) : (emit o m).ann = m.ann := rfl
@[simp] theorem emit_sec (o : Out) (m : Mach) : (emit o m).sec = m.sec := rfl
@[simp] theorem emit_dom (o : Out) (m : Mach) : (emit o m).dom = m.dom := rfl
@[simp] theorem emit_gpio (o : Out) (m : Mach) : (emit o m).gpio = m.gpio := rfl
@[simp] theorem emit_sys (o : Out) (m : Mach) : (emit o m).sys = m.sys := rfl
@[simp] theorem emit_setup (o : Out) (m : Mach) : (emit o m).setup = m.setup := rfl

@[simp] theorem setDom_deal (x : Dom) (m : Mach) : (setDom x m).deal = m.deal := rfl
@[simp] theorem setDom_ticks (x : Dom) (m : Mach) : (setDom x m).ticks = m.ticks := rfl
@[simp] theorem setDom_regs (x : Dom) (m : Mach) : (setDom x m).regs = m.regs := rfl
@[simp] theorem setDom_hif (x : Dom) (m : Mach) : (setDom x m).hif = m.hif := rfl
@[simp] theorem setDom_fresh (x : Dom) (m : Mach) : (setDom x m).fresh = m.fresh := rfl
@[simp] theorem setDom_out (x : Dom) (m : Mach) : (setDom x m).out = m.out := rfl
@[simp] theorem setDom_clk (x : Dom) (m : Mach) : (setDom x m).clk = m.clk := rfl
@[simp] theorem setDom_tim (x : Dom) (m : Mach) : (setDom x m).tim = m.tim := rfl
@[simp] theorem setDom_tic (x : Dom) (m : Mach) : (setDom x m).tic = m.tic := rfl
@[simp] theorem setDom_ring (x : Dom) (m : Mach) : (setDom x m).ring = m.ring := rfl
@[simp] theorem setDom_str (x : Dom) (m : Mach) : (setDom x m).str = m.str := rfl
@[simp] theorem setDom_dk (x : Dom) (m : Mach) : (setDom x m).dk = m.dk := rfl
@[simp] theorem setDom_frm (x : Dom) (m : Mach) : (setDom x m).frm = m.frm := rfl
@[simp] theorem setDom_objs (x : Dom) (m : Mach) : (setDom x m).objs = m.objs := rfl
@[simp] theorem setDom_rend (x : Dom) (m : Mach) : (setDom x m).rend = m.rend := rfl
@[simp] theorem setDom_vote (x : Dom) (m : Mach) : (setDom x m).vote = m.vote := rfl
@[simp] theorem setDom_cor (x : Dom) (m : Mach) : (setDom x m).cor = m.cor := rfl
@[simp] theorem setDom_icom (x : Dom) (m : Mach) : (setDom x m).icom = m.icom := rfl
@[simp] theorem setDom_sap (x : Dom) (m : Mach) : (setDom x m).sap = m.sap := rfl
@[simp] theorem setDom_pwr (x : Dom) (m : Mach) : (setDom x m).pwr = m.pwr := rfl
@[simp] theorem setDom_ann (x : Dom) (m : Mach) : (setDom x m).ann = m.ann := rfl
@[simp] theorem setDom_sec (x : Dom) (m : Mach) : (setDom x m).sec = m.sec := rfl
@[simp] theorem setDom_dom (x : Dom) (m : Mach) : (setDom x m).dom = x := rfl
@[simp] theorem setDom_gpio (x : Dom) (m : Mach) : (setDom x m).gpio = m.gpio := rfl
@[simp] theorem setDom_sys (x : Dom) (m : Mach) : (setDom x m).sys = m.sys := rfl
@[simp] theorem setDom_setup (x : Dom) (m : Mach) : (setDom x m).setup = m.setup := rfl

@[simp] theorem setAnn_deal (x : Ann) (m : Mach) : (setAnn x m).deal = m.deal := rfl
@[simp] theorem setAnn_ticks (x : Ann) (m : Mach) : (setAnn x m).ticks = m.ticks := rfl
@[simp] theorem setAnn_regs (x : Ann) (m : Mach) : (setAnn x m).regs = m.regs := rfl
@[simp] theorem setAnn_hif (x : Ann) (m : Mach) : (setAnn x m).hif = m.hif := rfl
@[simp] theorem setAnn_fresh (x : Ann) (m : Mach) : (setAnn x m).fresh = m.fresh := rfl
@[simp] theorem setAnn_out (x : Ann) (m : Mach) : (setAnn x m).out = m.out := rfl
@[simp] theorem setAnn_clk (x : Ann) (m : Mach) : (setAnn x m).clk = m.clk := rfl
@[simp] theorem setAnn_tim (x : Ann) (m : Mach) : (setAnn x m).tim = m.tim := rfl
@[simp] theorem setAnn_tic (x : Ann) (m : Mach) : (setAnn x m).tic = m.tic := rfl
@[simp] theorem setAnn_ring (x : Ann) (m : Mach) : (setAnn x m).ring = m.ring := rfl
@[simp] theorem setAnn_str (x : Ann) (m : Mach) : (setAnn x m).str = m.str := rfl
@[simp] theorem setAnn_dk (x : Ann) (m : Mach) : (setAnn x m).dk = m.dk := rfl
@[simp] theorem setAnn_frm (x : Ann) (m : Mach) : (setAnn x m).frm = m.frm := rfl
@[simp] theorem setAnn_objs (x : Ann) (m : Mach) : (setAnn x m).objs = m.objs := rfl
@[simp] theorem setAnn_rend (x : Ann) (m : Mach) : (setAnn x m).rend = m.rend := rfl
@[simp] theorem setAnn_vote (x : Ann) (m : Mach) : (setAnn x m).vote = m.vote := rfl
@[simp] theorem setAnn_cor (x : Ann) (m : Mach) : (setAnn x m).cor = m.cor := rfl
@[simp] theorem setAnn_icom (x : Ann) (m : Mach) : (setAnn x m).icom = m.icom := rfl
@[simp] theorem setAnn_sap (x : Ann) (m : Mach) : (setAnn x m).sap = m.sap := rfl
@[simp] theorem setAnn_pwr (x : Ann) (m : Mach) : (setAnn x m).pwr = m.pwr := rfl
@[simp] theorem setAnn_ann (x : Ann) (m : Mach) : (setAnn x m).ann = x := rfl
@[simp] theorem setAnn_sec (x : Ann) (m : Mach) : (setAnn x m).sec = m.sec := rfl
@[simp] theorem setAnn_dom (x : Ann) (m : Mach) : (setAnn x m).dom = m.dom := rfl
@[simp] theorem setAnn_gpio (x : Ann) (m : Mach) : (setAnn x m).gpio = m.gpio := rfl
@[simp] theorem setAnn_sys (x : Ann) (m : Mach) : (setAnn x m).sys = m.sys := rfl
@[simp] theorem setAnn_setup (x : Ann) (m : Mach) : (setAnn x m).setup = m.setup := rfl

@[simp] theorem setSec_deal (x : Sec) (m : Mach) : (setSec x m).deal = m.deal := rfl
@[simp] theorem setSec_ticks (x : Sec) (m : Mach) : (setSec x m).ticks = m.ticks := rfl
@[simp] theorem setSec_regs (x : Sec) (m : Mach) : (setSec x m).regs = m.regs := rfl
@[simp] theorem setSec_hif (x : Sec) (m : Mach) : (setSec x m).hif = m.hif := rfl
@[simp] theorem setSec_fresh (x : Sec) (m : Mach) : (setSec x m).fresh = m.fresh := rfl
@[simp] theorem setSec_out (x : Sec) (m : Mach) : (setSec x m).out = m.out := rfl
@[simp] theorem setSec_clk (x : Sec) (m : Mach) : (setSec x m).clk = m.clk := rfl
@[simp] theorem setSec_tim (x : Sec) (m : Mach) : (setSec x m).tim = m.tim := rfl
@[simp] theorem setSec_tic (x : Sec) (m : Mach) : (setSec x m).tic = m.tic := rfl
@[simp] theorem setSec_ring (x : Sec) (m : Mach) : (setSec x m).ring = m.ring := rfl
@[simp] theorem setSec_str (x : Sec) (m : Mach) : (setSec x m).str = m.str := rfl
@[simp] theorem setSec_dk (x : Sec) (m : Mach) : (setSec x m).dk = m.dk := rfl
@[simp] theorem setSec_frm (x : Sec) (m : Mach) : (setSec x m).frm = m.frm := rfl
@[simp] theorem setSec_objs (x : Sec) (m : Mach) : (setSec x m).objs = m.objs := rfl
@[simp] theorem setSec_rend (x : Sec) (m : Mach) : (setSec x m).rend = m.rend := rfl
@[simp] theorem setSec_vote (x : Sec) (m : Mach) : (setSec x m).vote = m.vote := rfl
@[simp] theorem setSec_cor (x : Sec) (m : Mach) : (setSec x m).cor = m.cor := rfl
@[simp] theorem setSec_icom (x : Sec) (m : Mach) : (setSec x m).icom = m.icom := rfl
@[simp] theorem setSec_sap (x : Sec) (m : Mach) : (setSec x m).sap = m.sap := rfl
@[simp] theorem setSec_pwr (x : Sec) (m : Mach) : (setSec x m).pwr = m.pwr := rfl
@[simp] theorem setSec_ann (x : Sec) (m : Mach) : (setSec x m).ann = m.ann := rfl
@[simp] theorem setSec_sec (x : Sec) (m : Mach) : (setSec x m).sec = x := rfl
@[simp] theorem setSec_dom (x : Sec) (m : Mach) : (setSec x m).dom = m.dom := rfl
@[simp] theorem setSec_gpio (x : Sec) (m : Mach) : (setSec x m).gpio = m.gpio := rfl
@[simp] theorem setSec_sys (x : Sec) (m : Mach) : (setSec x m).sys = m.sys := rfl
@[simp] theorem setSec_setup (x : Sec) (m : Mach) : (setSec x m).setup = m.setup := rfl

@[simp] theorem setFrm_deal (x : Frm) (m : Mach) : (setFrm x m).deal = m.deal := rfl
@[simp] theorem setFrm_ticks (x : Frm) (m : Mach) : (setFrm x m).ticks = m.ticks := rfl
@[simp] theorem setFrm_regs (x : Frm) (m : Mach) : (setFrm x m).regs = m.regs := rfl
@[simp] theorem setFrm_hif (x : Frm) (m : Mach) : (setFrm x m).hif = m.hif := rfl
@[simp] theorem setFrm_fresh (x : Frm) (m : Mach) : (setFrm x m).fresh = m.fresh := rfl
@[simp] theorem setFrm_out (x : Frm) (m : Mach) : (setFrm x m).out = m.out := rfl
@[simp] theorem setFrm_clk (x : Frm) (m : Mach) : (setFrm x m).clk = m.clk := rfl
@[simp] theorem setFrm_tim (x : Frm) (m : Mach) : (setFrm x m).tim = m.tim := rfl
@[simp] theorem setFrm_tic (x : Frm) (m : Mach) : (setFrm x m).tic = m.tic := rfl
@[simp] theorem setFrm_ring (x : Frm) (m : Mach) : (setFrm x m).ring = m.ring := rfl
@[simp] theorem setFrm_str (x : Frm) (m : Mach) : (setFrm x m).str = m.str := rfl
@[simp] theorem setFrm_dk (x : Frm) (m : Mach) : (setFrm x m).dk = m.dk := rfl
@[simp] theorem setFrm_frm (x : Frm) (m : Mach) : (setFrm x m).frm = x := rfl
@[simp] theorem setFrm_objs (x : Frm) (m : Mach) : (setFrm x m).objs = m.objs := rfl
@[simp] theorem setFrm_rend (x : Frm) (m : Mach) : (setFrm x m).rend = m.rend := rfl
@[simp] theorem setFrm_vote (x : Frm) (m : Mach) : (setFrm x m).vote = m.vote := rfl
@[simp] theorem setFrm_cor (x : Frm) (m : Mach) : (setFrm x m).cor = m.cor := rfl
@[simp] theorem setFrm_icom (x : Frm) (m : Mach) : (setFrm x m).icom = m.icom := rfl
@[simp] theorem setFrm_sap (x : Frm) (m : Mach) : (setFrm x m).sap = m.sap := rfl
@[simp] theorem setFrm_pwr (x : Frm) (m : Mach) : (setFrm x m).pwr = m.pwr := rfl
@[simp] theorem setFrm_ann (x : Frm) (m : Mach) : (setFrm x m).ann = m.ann := rfl
@[simp] theorem setFrm_sec (x : Frm) (m : Mach) : (setFrm x m).sec = m.sec := rfl
@[simp] theorem setFrm_dom (x : Frm) (m : Mach) : (setFrm x m).dom = m.dom := rfl
@[simp] theorem setFrm_gpio (x : Frm) (m : Mach) : (setFrm x m).gpio = m.gpio := rfl
@[simp] theorem setFrm_sys (x : Frm) (m : Mach) : (setFrm x m).sys = m.sys := rfl
@[simp] theorem setFrm_setup (x : Frm) (m : Mach) : (setFrm x m).setup = m.setup := rfl

@[simp] theorem setClk_deal (x : Clk) (m : Mach) : (setClk x m).deal = m.deal := rfl
@[simp] theorem setClk_ticks (x : Clk) (m : Mach) : (setClk x m).ticks = m.ticks := rfl
@[simp] theorem setClk_regs (x : Clk) (m : Mach) : (setClk x m).regs = m.regs := rfl
@[simp] theorem setClk_hif (x : Clk) (m : Mach) : (setClk x m).hif = m.hif := rfl
@[simp] theorem setClk_fresh (x : Clk) (m : Mach) : (setClk x m).fresh = m.fresh := rfl
@[simp] theorem setClk_out (x : Clk) (m : Mach) : (setClk x m).out = m.out := rfl
@[simp] theorem setClk_clk (x : Clk) (m : Mach) : (setClk x m).clk = x := rfl
@[simp] theorem setClk_tim (x : Clk) (m : Mach) : (setClk x m).tim = m.tim := rfl
@[simp] theorem setClk_tic (x : Clk) (m : Mach) : (setClk x m).tic = m.tic := rfl
@[simp] theorem setClk_ring (x : Clk) (m : Mach) : (setClk x m).ring = m.ring := rfl
@[simp] theorem setClk_str (x : Clk) (m : Mach) : (setClk x m).str = m.str := rfl
@[simp] theorem setClk_dk (x : Clk) (m : Mach) : (setClk x m).dk = m.dk := rfl
@[simp] theorem setClk_frm (x : Clk) (m : Mach) : (setClk x m).frm = m.frm := rfl
@[simp] theorem setClk_objs (x : Clk) (m : Mach) : (setClk x m).objs = m.objs := rfl
@[simp] theorem setClk_rend (x : Clk) (m : Mach) : (setClk x m).rend = m.rend := rfl
@[simp] theorem setClk_vote (x : Clk) (m : Mach) : (setClk x m).vote = m.vote := rfl
@[simp] theorem setClk_cor (x : Clk) (m : Mach) : (setClk x m).cor = m.cor := rfl
@[simp] theorem setClk_icom (x : Clk) (m : Mach) : (setClk x m).icom = m.icom := rfl
@[simp] theorem setClk_sap (x : Clk) (m : Mach) : (setClk x m).sap = m.sap := rfl
@[simp] theorem setClk_pwr (x : Clk) (m : Mach) : (setClk x m).pwr = m.pwr := rfl
@[simp] theorem setClk_ann (x : Clk) (m : Mach) : (setClk x m).ann = m.ann := rfl
@[simp] theorem setClk_sec (x : Clk) (m : Mach) : (setClk x m).sec = m.sec := rfl
@[simp] theorem setClk_dom (x : Clk) (m : Mach) : (setClk x m).dom = m.dom := rfl
@[simp] theorem setClk_gpio (x : Clk) (m : Mach) : (setClk x m).gpio = m.gpio := rfl
@[simp] theorem setClk_sys (x : Clk) (m : Mach) : (setClk x m).sys = m.sys := rfl
@[simp] theorem setClk_setup (x : Clk) (m : Mach) : (setClk x m).setup = m.setup := rfl

@[simp] theorem setCor_deal (x : Cor) (m : Mach) : (setCor x m).deal = m.deal := rfl
@[simp] theorem setCor_ticks (x : Cor) (m : Mach) : (setCor x m).ticks = m.ticks := rfl
@[simp] theorem setCor_regs (x : Cor) (m : Mach) : (setCor x m).regs = m.regs := rfl
@[simp] theorem setCor_hif (x : Cor) (m : Mach) : (setCor x m).hif = m.hif := rfl
@[simp] theorem setCor_fresh (x : Cor) (m : Mach) : (setCor x m).fresh = m.fresh := rfl
@[simp] theorem setCor_out (x : Cor) (m : Mach) : (setCor x m).out = m.out := rfl
@[simp] theorem setCor_clk (x : Cor) (m : Mach) : (setCor x m).clk = m.clk := rfl
@[simp] theorem setCor_tim (x : Cor) (m : Mach) : (setCor x m).tim = m.tim := rfl
@[simp] theorem setCor_tic (x : Cor) (m : Mach) : (setCor x m).tic = m.tic := rfl
@[simp] theorem setCor_ring (x : Cor) (m : Mach) : (setCor x m).ring = m.ring := rfl
@[simp] theorem setCor_str (x : Cor) (m : Mach) : (setCor x m).str = m.str := rfl
@[simp] theorem setCor_dk (x : Cor) (m : Mach) : (setCor x m).dk = m.dk := rfl
@[simp] theorem setCor_frm (x : Cor) (m : Mach) : (setCor x m).frm = m.frm := rfl
@[simp] theorem setCor_objs (x : Cor) (m : Mach) : (setCor x m).objs = m.objs := rfl
@[simp] theorem setCor_rend (x : Cor) (m : Mach) : (setCor x m).rend = m.rend := rfl
@[simp] theorem setCor_vote (x : Cor) (m : Mach) : (setCor x m).vote = m.vote := rfl
@[simp] theorem setCor_cor (x : Cor) (m : Mach) : (setCor x m).cor = x := rfl
@[simp] theorem setCor_icom (x : Cor) (m : Mach) : (setCor x m).icom = m.icom := rfl
@[simp] theorem setCor_sap (x : Cor) (m : Mach) : (setCor x m).sap = m.sap := rfl
@[simp] theorem setCor_pwr (x : Cor) (m : Mach) : (setCor x m).pwr = m.pwr := rfl
@[simp] theorem setCor_ann (x : Cor) (m : Mach) : (setCor x m).ann = m.ann := rfl
@[simp] theorem setCor_sec (x : Cor) (m : Mach) : (setCor x m).sec = m.sec := rfl
@[simp] theorem setCor_dom (x : Cor) (m : Mach) : (setCor x m).dom = m.dom := rfl
@[simp] theorem setCor_gpio (x : Cor) (m : Mach) : (setCor x m).gpio = m.gpio := rfl
@[simp] theorem setCor_sys (x : Cor) (m : Mach) : (setCor x m).sys = m.sys := rfl
@[simp] theorem setCor_setup (x : Cor) (m : Mach) : (setCor x m).setup = m.setup := rfl

@[simp] theorem setVote_deal (x : Voter) (m : Mach) : (setVote x m).deal = m.deal := rfl
@[simp] theorem setVote_ticks (x : Voter) (m : Mach) : (setVote x m).ticks = m.ticks := rfl
@[simp] theorem setVote_regs (x : Voter) (m : Mach) : (setVote x m).regs = m.regs := rfl
@[simp] theorem setVote_hif (x : Voter) (m : Mach) : (setVote x m).hif = m.hif := rfl
@[simp] theorem setVote_fresh (x : Voter) (m : Mach) : (setVote x m).fresh = m.fresh := rfl
@[simp] theorem setVote_out (x : Voter) (m : Mach) : (setVote x m).out = m.out := rfl
@[simp] theorem setVote_clk (x : Voter) (m : Mach) : (setVote x m).clk = m.clk := rfl
@[simp] theorem setVote_tim (x : Voter) (m : Mach) : (setVote x m).tim = m.tim := rfl
@[simp] theorem setVote_tic (x : Voter) (m : Mach) : (setVote x m).tic = m.tic := rfl
@[simp] theorem setVote_ring (x : Voter) (m : Mach) : (setVote x m).ring = m.ring := rfl
@[simp] theorem setVote_str (x : Voter) (m : Mach) : (setVote x m).str = m.str := rfl
@[simp] theorem setVote_dk (x : Voter) (m : Mach) : (setVote x m).dk = m.dk := rfl
@[simp] theorem setVote_frm (x : Voter) (m : Mach) : (setVote x m).frm = m.frm := rfl
@[simp] theorem setVote_objs (x : Voter) (m : Mach) : (setVote x m).objs = m.objs := rfl
@[simp] theorem setVote_rend (x : Voter) (m : Mach) : (setVote x m).rend = m.rend := rfl
@[simp] theorem setVote_vote (x : Voter) (m : Mach) : (setVote x m).vote = x := rfl
@[simp] theorem setVote_cor (x : Voter) (m : Mach) : (setVote x m).cor = m.cor := rfl
@[simp] theorem setVote_icom (x : Voter) (m : Mach) : (setVote x m).icom = m.icom := rfl
@[simp] theorem setVote_sap (x : Voter) (m : Mach) : (setVote x m).sap = m.sap := rfl
@[simp] theorem setVote_pwr (x : Voter) (m : Mach) : (setVote x m).pwr = m.pwr := rfl
@[simp] theorem setVote_ann (x : Voter) (m : Mach) : (setVote x m).ann = m.ann := rfl
@[simp] theorem setVote_sec (x : Voter) (m : Mach) : (setVote x m).sec = m.sec := rfl
@[simp] theorem setVote_dom (x : Voter) (m : Mach) : (setVote x m).dom = m.dom := rfl
@[simp] theorem setVote_gpio (x : Voter) (m : Mach) : (setVote x m).gpio = m.gpio := rfl
@[simp] theorem setVote_sys (x : Voter) (m : Mach) : (setVote x m).sys = m.sys := rfl
@[simp] theorem setVote_setup (x : Voter) (m : Mach) : (setVote x m).setup = m.setup := rfl

@[simp] theorem setDk_deal (x : DeckUnit) (m : Mach) : (setDk x m).deal = m.deal := rfl
@[simp] theorem setDk_ticks (x : DeckUnit) (m : Mach) : (setDk x m).ticks = m.ticks := rfl
@[simp] theorem setDk_regs (x : DeckUnit) (m : Mach) : (setDk x m).regs = m.regs := rfl
@[simp] theorem setDk_hif (x : DeckUnit) (m : Mach) : (setDk x m).hif = m.hif := rfl
@[simp] theorem setDk_fresh (x : DeckUnit) (m : Mach) : (setDk x m).fresh = m.fresh := rfl
@[simp] theorem setDk_out (x : DeckUnit) (m : Mach) : (setDk x m).out = m.out := rfl
@[simp] theorem setDk_clk (x : DeckUnit) (m : Mach) : (setDk x m).clk = m.clk := rfl
@[simp] theorem setDk_tim (x : DeckUnit) (m : Mach) : (setDk x m).tim = m.tim := rfl
@[simp] theorem setDk_tic (x : DeckUnit) (m : Mach) : (setDk x m).tic = m.tic := rfl
@[simp] theorem setDk_ring (x : DeckUnit) (m : Mach) : (setDk x m).ring = m.ring := rfl
@[simp] theorem setDk_str (x : DeckUnit) (m : Mach) : (setDk x m).str = m.str := rfl
@[simp] theorem setDk_dk (x : DeckUnit) (m : Mach) : (setDk x m).dk = x := rfl
@[simp] theorem setDk_frm (x : DeckUnit) (m : Mach) : (setDk x m).frm = m.frm := rfl
@[simp] theorem setDk_objs (x : DeckUnit) (m : Mach) : (setDk x m).objs = m.objs := rfl
@[simp] theorem setDk_rend (x : DeckUnit) (m : Mach) : (setDk x m).rend = m.rend := rfl
@[simp] theorem setDk_vote (x : DeckUnit) (m : Mach) : (setDk x m).vote = m.vote := rfl
@[simp] theorem setDk_cor (x : DeckUnit) (m : Mach) : (setDk x m).cor = m.cor := rfl
@[simp] theorem setDk_icom (x : DeckUnit) (m : Mach) : (setDk x m).icom = m.icom := rfl
@[simp] theorem setDk_sap (x : DeckUnit) (m : Mach) : (setDk x m).sap = m.sap := rfl
@[simp] theorem setDk_pwr (x : DeckUnit) (m : Mach) : (setDk x m).pwr = m.pwr := rfl
@[simp] theorem setDk_ann (x : DeckUnit) (m : Mach) : (setDk x m).ann = m.ann := rfl
@[simp] theorem setDk_sec (x : DeckUnit) (m : Mach) : (setDk x m).sec = m.sec := rfl
@[simp] theorem setDk_dom (x : DeckUnit) (m : Mach) : (setDk x m).dom = m.dom := rfl
@[simp] theorem setDk_gpio (x : DeckUnit) (m : Mach) : (setDk x m).gpio = m.gpio := rfl
@[simp] theorem setDk_sys (x : DeckUnit) (m : Mach) : (setDk x m).sys = m.sys := rfl
@[simp] theorem setDk_setup (x : DeckUnit) (m : Mach) : (setDk x m).setup = m.setup := rfl

@[simp] theorem setRend_deal (x : Rend) (m : Mach) : (setRend x m).deal = m.deal := rfl
@[simp] theorem setRend_ticks (x : Rend) (m : Mach) : (setRend x m).ticks = m.ticks := rfl
@[simp] theorem setRend_regs (x : Rend) (m : Mach) : (setRend x m).regs = m.regs := rfl
@[simp] theorem setRend_hif (x : Rend) (m : Mach) : (setRend x m).hif = m.hif := rfl
@[simp] theorem setRend_fresh (x : Rend) (m : Mach) : (setRend x m).fresh = m.fresh := rfl
@[simp] theorem setRend_out (x : Rend) (m : Mach) : (setRend x m).out = m.out := rfl
@[simp] theorem setRend_clk (x : Rend) (m : Mach) : (setRend x m).clk = m.clk := rfl
@[simp] theorem setRend_tim (x : Rend) (m : Mach) : (setRend x m).tim = m.tim := rfl
@[simp] theorem setRend_tic (x : Rend) (m : Mach) : (setRend x m).tic = m.tic := rfl
@[simp] theorem setRend_ring (x : Rend) (m : Mach) : (setRend x m).ring = m.ring := rfl
@[simp] theorem setRend_str (x : Rend) (m : Mach) : (setRend x m).str = m.str := rfl
@[simp] theorem setRend_dk (x : Rend) (m : Mach) : (setRend x m).dk = m.dk := rfl
@[simp] theorem setRend_frm (x : Rend) (m : Mach) : (setRend x m).frm = m.frm := rfl
@[simp] theorem setRend_objs (x : Rend) (m : Mach) : (setRend x m).objs = m.objs := rfl
@[simp] theorem setRend_rend (x : Rend) (m : Mach) : (setRend x m).rend = x := rfl
@[simp] theorem setRend_vote (x : Rend) (m : Mach) : (setRend x m).vote = m.vote := rfl
@[simp] theorem setRend_cor (x : Rend) (m : Mach) : (setRend x m).cor = m.cor := rfl
@[simp] theorem setRend_icom (x : Rend) (m : Mach) : (setRend x m).icom = m.icom := rfl
@[simp] theorem setRend_sap (x : Rend) (m : Mach) : (setRend x m).sap = m.sap := rfl
@[simp] theorem setRend_pwr (x : Rend) (m : Mach) : (setRend x m).pwr = m.pwr := rfl
@[simp] theorem setRend_ann (x : Rend) (m : Mach) : (setRend x m).ann = m.ann := rfl
@[simp] theorem setRend_sec (x : Rend) (m : Mach) : (setRend x m).sec = m.sec := rfl
@[simp] theorem setRend_dom (x : Rend) (m : Mach) : (setRend x m).dom = m.dom := rfl
@[simp] theorem setRend_gpio (x : Rend) (m : Mach) : (setRend x m).gpio = m.gpio := rfl
@[simp] theorem setRend_sys (x : Rend) (m : Mach) : (setRend x m).sys = m.sys := rfl
@[simp] theorem setRend_setup (x : Rend) (m : Mach) : (setRend x m).setup = m.setup := rfl

@[simp] theorem setSap_deal (x : SapSt) (m : Mach) : (setSap x m).deal = m.deal := rfl
@[simp] theorem setSap_ticks (x : SapSt) (m : Mach) : (setSap x m).ticks = m.ticks := rfl
@[simp] theorem setSap_regs (x : SapSt) (m : Mach) : (setSap x m).regs = m.regs := rfl
@[simp] theorem setSap_hif (x : SapSt) (m : Mach) : (setSap x m).hif = m.hif := rfl
@[simp] theorem setSap_fresh (x : SapSt) (m : Mach) : (setSap x m).fresh = m.fresh := rfl
@[simp] theorem setSap_out (x : SapSt) (m : Mach) : (setSap x m).out = m.out := rfl
@[simp] theorem setSap_clk (x : SapSt) (m : Mach) : (setSap x m).clk = m.clk := rfl
@[simp] theorem setSap_tim (x : SapSt) (m : Mach) : (setSap x m).tim = m.tim := rfl
@[simp] theorem setSap_tic (x : SapSt) (m : Mach) : (setSap x m).tic = m.tic := rfl
@[simp] theorem setSap_ring (x : SapSt) (m : Mach) : (setSap x m).ring = m.ring := rfl
@[simp] theorem setSap_str (x : SapSt) (m : Mach) : (setSap x m).str = m.str := rfl
@[simp] theorem setSap_dk (x : SapSt) (m : Mach) : (setSap x m).dk = m.dk := rfl
@[simp] theorem setSap_frm (x : SapSt) (m : Mach) : (setSap x m).frm = m.frm := rfl
@[simp] theorem setSap_objs (x : SapSt) (m : Mach) : (setSap x m).objs = m.objs := rfl
@[simp] theorem setSap_rend (x : SapSt) (m : Mach) : (setSap x m).rend = m.rend := rfl
@[simp] theorem setSap_vote (x : SapSt) (m : Mach) : (setSap x m).vote = m.vote := rfl
@[simp] theorem setSap_cor (x : SapSt) (m : Mach) : (setSap x m).cor = m.cor := rfl
@[simp] theorem setSap_icom (x : SapSt) (m : Mach) : (setSap x m).icom = m.icom := rfl
@[simp] theorem setSap_sap (x : SapSt) (m : Mach) : (setSap x m).sap = x := rfl
@[simp] theorem setSap_pwr (x : SapSt) (m : Mach) : (setSap x m).pwr = m.pwr := rfl
@[simp] theorem setSap_ann (x : SapSt) (m : Mach) : (setSap x m).ann = m.ann := rfl
@[simp] theorem setSap_sec (x : SapSt) (m : Mach) : (setSap x m).sec = m.sec := rfl
@[simp] theorem setSap_dom (x : SapSt) (m : Mach) : (setSap x m).dom = m.dom := rfl
@[simp] theorem setSap_gpio (x : SapSt) (m : Mach) : (setSap x m).gpio = m.gpio := rfl
@[simp] theorem setSap_sys (x : SapSt) (m : Mach) : (setSap x m).sys = m.sys := rfl
@[simp] theorem setSap_setup (x : SapSt) (m : Mach) : (setSap x m).setup = m.setup := rfl

@[simp] theorem setPwr_deal (x : Pwr) (m : Mach) : (setPwr x m).deal = m.deal := rfl
@[simp] theorem setPwr_ticks (x : Pwr) (m : Mach) : (setPwr x m).ticks = m.ticks := rfl
@[simp] theorem setPwr_regs (x : Pwr) (m : Mach) : (setPwr x m).regs = m.regs := rfl
@[simp] theorem setPwr_hif (x : Pwr) (m : Mach) : (setPwr x m).hif = m.hif := rfl
@[simp] theorem setPwr_fresh (x : Pwr) (m : Mach) : (setPwr x m).fresh = m.fresh := rfl
@[simp] theorem setPwr_out (x : Pwr) (m : Mach) : (setPwr x m).out = m.out := rfl
@[simp] theorem setPwr_clk (x : Pwr) (m : Mach) : (setPwr x m).clk = m.clk := rfl
@[simp] theorem setPwr_tim (x : Pwr) (m : Mach) : (setPwr x m).tim = m.tim := rfl
@[simp] theorem setPwr_tic (x : Pwr) (m : Mach) : (setPwr x m).tic = m.tic := rfl
@[simp] theorem setPwr_ring (x : Pwr) (m : Mach) : (setPwr x m).ring = m.ring := rfl
@[simp] theorem setPwr_str (x : Pwr) (m : Mach) : (setPwr x m).str = m.str := rfl
@[simp] theorem setPwr_dk (x : Pwr) (m : Mach) : (setPwr x m).dk = m.dk := rfl
@[simp] theorem setPwr_frm (x : Pwr) (m : Mach) : (setPwr x m).frm = m.frm := rfl
@[simp] theorem setPwr_objs (x : Pwr) (m : Mach) : (setPwr x m).objs = m.objs := rfl
@[simp] theorem setPwr_rend (x : Pwr) (m : Mach) : (setPwr x m).rend = m.rend := rfl
@[simp] theorem setPwr_vote (x : Pwr) (m : Mach) : (setPwr x m).vote = m.vote := rfl
@[simp] theorem setPwr_cor (x : Pwr) (m : Mach) : (setPwr x m).cor = m.cor := rfl
@[simp] theorem setPwr_icom (x : Pwr) (m : Mach) : (setPwr x m).icom = m.icom := rfl
@[simp] theorem setPwr_sap (x : Pwr) (m : Mach) : (setPwr x m).sap = m.sap := rfl
@[simp] theorem setPwr_pwr (x : Pwr) (m : Mach) : (setPwr x m).pwr = x := rfl
@[simp] theorem setPwr_ann (x : Pwr) (m : Mach) : (setPwr x m).ann = m.ann := rfl
@[simp] theorem setPwr_sec (x : Pwr) (m : Mach) : (setPwr x m).sec = m.sec := rfl
@[simp] theorem setPwr_dom (x : Pwr) (m : Mach) : (setPwr x m).dom = m.dom := rfl
@[simp] theorem setPwr_gpio (x : Pwr) (m : Mach) : (setPwr x m).gpio = m.gpio := rfl
@[simp] theorem setPwr_sys (x : Pwr) (m : Mach) : (setPwr x m).sys = m.sys := rfl
@[simp] theorem setPwr_setup (x : Pwr) (m : Mach) : (setPwr x m).setup = m.setup := rfl

@[simp] theorem setRing_deal (x : RingSt) (m : Mach) : (setRing x m).deal = m.deal := rfl
@[simp] theorem setRing_ticks (x : RingSt) (m : Mach) : (setRing x m).ticks = m.ticks := rfl
@[simp] theorem setRing_regs (x : RingSt) (m : Mach) : (setRing x m).regs = m.regs := rfl
@[simp] theorem setRing_hif (x : RingSt) (m : Mach) : (setRing x m).hif = m.hif := rfl
@[simp] theorem setRing_fresh (x : RingSt) (m : Mach) : (setRing x m).fresh = m.fresh := rfl
@[simp] theorem setRing_out (x : RingSt) (m : Mach) : (setRing x m).out = m.out := rfl
@[simp] theorem setRing_clk (x : RingSt) (m : Mach) : (setRing x m).clk = m.clk := rfl
@[simp] theorem setRing_tim (x : RingSt) (m : Mach) : (setRing x m).tim = m.tim := rfl
@[simp] theorem setRing_tic (x : RingSt) (m : Mach) : (setRing x m).tic = m.tic := rfl
@[simp] theorem setRing_ring (x : RingSt) (m : Mach) : (setRing x m).ring = x := rfl
@[simp] theorem setRing_str (x : RingSt) (m : Mach) : (setRing x m).str = m.str := rfl
@[simp] theorem setRing_dk (x : RingSt) (m : Mach) : (setRing x m).dk = m.dk := rfl
@[simp] theorem setRing_frm (x : RingSt) (m : Mach) : (setRing x m).frm = m.frm := rfl
@[simp] theorem setRing_objs (x : RingSt) (m : Mach) : (setRing x m).objs = m.objs := rfl
@[simp] theorem setRing_rend (x : RingSt) (m : Mach) : (setRing x m).rend = m.rend := rfl
@[simp] theorem setRing_vote (x : RingSt) (m : Mach) : (setRing x m).vote = m.vote := rfl
@[simp] theorem setRing_cor (x : RingSt) (m : Mach) : (setRing x m).cor = m.cor := rfl
@[simp] theorem setRing_icom (x : RingSt) (m : Mach) : (setRing x m).icom = m.icom := rfl
@[simp] theorem setRing_sap (x : RingSt) (m : Mach) : (setRing x m).sap = m.sap := rfl
@[simp] theorem setRing_pwr (x : RingSt) (m : Mach) : (setRing x m).pwr = m.pwr := rfl
@[simp] theorem setRing_ann (x : RingSt) (m : Mach) : (setRing x m).ann = m.ann := rfl
@[simp] theorem setRing_sec (x : RingSt) (m : Mach) : (setRing x m).sec = m.sec := rfl
@[simp] theorem setRing_dom (x : RingSt) (m : Mach) : (setRing x m).dom = m.dom := rfl
@[simp] theorem setRing_gpio (x : RingSt) (m : Mach) : (setRing x m).gpio = m.gpio := rfl
@[simp] theorem setRing_sys (x : RingSt) (m : Mach) : (setRing x m).sys = m.sys := rfl
@[simp] theorem setRing_setup (x : RingSt) (m : Mach) : (setRing x m).setup = m.setup := rfl

@[simp] theorem setStr_deal (x : Str) (m : Mach) : (setStr x m).deal = m.deal := rfl
@[simp] theorem setStr_ticks (x : Str) (m : Mach) : (setStr x m).ticks = m.ticks := rfl
@[simp] theorem setStr_regs (x : Str) (m : Mach) : (setStr x m).regs = m.regs := rfl
@[simp] theorem setStr_hif (x : Str) (m : Mach) : (setStr x m).hif = m.hif := rfl
@[simp] theorem setStr_fresh (x : Str) (m : Mach) : (setStr x m).fresh = m.fresh := rfl
@[simp] theorem setStr_out (x : Str) (m : Mach) : (setStr x m).out = m.out := rfl
@[simp] theorem setStr_clk (x : Str) (m : Mach) : (setStr x m).clk = m.clk := rfl
@[simp] theorem setStr_tim (x : Str) (m : Mach) : (setStr x m).tim = m.tim := rfl
@[simp] theorem setStr_tic (x : Str) (m : Mach) : (setStr x m).tic = m.tic := rfl
@[simp] theorem setStr_ring (x : Str) (m : Mach) : (setStr x m).ring = m.ring := rfl
@[simp] theorem setStr_str (x : Str) (m : Mach) : (setStr x m).str = x := rfl
@[simp] theorem setStr_dk (x : Str) (m : Mach) : (setStr x m).dk = m.dk := rfl
@[simp] theorem setStr_frm (x : Str) (m : Mach) : (setStr x m).frm = m.frm := rfl
@[simp] theorem setStr_objs (x : Str) (m : Mach) : (setStr x m).objs = m.objs := rfl
@[simp] theorem setStr_rend (x : Str) (m : Mach) : (setStr x m).rend = m.rend := rfl
@[simp] theorem setStr_vote (x : Str) (m : Mach) : (setStr x m).vote = m.vote := rfl
@[simp] theorem setStr_cor (x : Str) (m : Mach) : (setStr x m).cor = m.cor := rfl
@[simp] theorem setStr_icom (x : Str) (m : Mach) : (setStr x m).icom = m.icom := rfl
@[simp] theorem setStr_sap (x : Str) (m : Mach) : (setStr x m).sap = m.sap := rfl
@[simp] theorem setStr_pwr (x : Str) (m : Mach) : (setStr x m).pwr = m.pwr := rfl
@[simp] theorem setStr_ann (x : Str) (m : Mach) : (setStr x m).ann = m.ann := rfl
@[simp] theorem setStr_sec (x : Str) (m : Mach) : (setStr x m).sec = m.sec := rfl
@[simp] theorem setStr_dom (x : Str) (m : Mach) : (setStr x m).dom = m.dom := rfl
@[simp] theorem setStr_gpio (x : Str) (m : Mach) : (setStr x m).gpio = m.gpio := rfl
@[simp] theorem setStr_sys (x : Str) (m : Mach) : (setStr x m).sys = m.sys := rfl
@[simp] theorem setStr_setup (x : Str) (m : Mach) : (setStr x m).setup = m.setup := rfl

@[simp] theorem setTic_deal (x : Tic) (m : Mach) : (setTic x m).deal = m.deal := rfl
@[simp] theorem setTic_ticks (x : Tic) (m : Mach) : (setTic x m).ticks = m.ticks := rfl
@[simp] theorem setTic_regs (x : Tic) (m : Mach) : (setTic x m).regs = m.regs := rfl
@[simp] theorem setTic_hif (x : Tic) (m : Mach) : (setTic x m).hif = m.hif := rfl
@[simp] theorem setTic_fresh (x : Tic) (m : Mach) : (setTic x m).fresh = m.fresh := rfl
@[simp] theorem setTic_out (x : Tic) (m : Mach) : (setTic x m).out = m.out := rfl
@[simp] theorem setTic_clk (x : Tic) (m : Mach) : (setTic x m).clk = m.clk := rfl
@[simp] theorem setTic_tim (x : Tic) (m : Mach) : (setTic x m).tim = m.tim := rfl
@[simp] theorem setTic_tic (x : Tic) (m : Mach) : (setTic x m).tic = x := rfl
@[simp] theorem setTic_ring (x : Tic) (m : Mach) : (setTic x m).ring = m.ring := rfl
@[simp] theorem setTic_str (x : Tic) (m : Mach) : (setTic x m).str = m.str := rfl
@[simp] theorem setTic_dk (x : Tic) (m : Mach) : (setTic x m).dk = m.dk := rfl
@[simp] theorem setTic_frm (x : Tic) (m : Mach) : (setTic x m).frm = m.frm := rfl
@[simp] theorem setTic_objs (x : Tic) (m : Mach) : (setTic x m).objs = m.objs := rfl
@[simp] theorem setTic_rend (x : Tic) (m : Mach) : (setTic x m).rend = m.rend := rfl
@[simp] theorem setTic_vote (x : Tic) (m : Mach) : (setTic x m).vote = m.vote := rfl
@[simp] theorem setTic_cor (x : Tic) (m : Mach) : (setTic x m).cor = m.cor := rfl
@[simp] theorem setTic_icom (x : Tic) (m : Mach) : (setTic x m).icom = m.icom := rfl
@[simp] theorem setTic_sap (x : Tic) (m : Mach) : (setTic x m).sap = m.sap := rfl
@[simp] theorem setTic_pwr (x : Tic) (m : Mach) : (setTic x m).pwr = m.pwr := rfl
@[simp] theorem setTic_ann (x : Tic) (m : Mach) : (setTic x m).ann = m.ann := rfl
@[simp] theorem setTic_sec (x : Tic) (m : Mach) : (setTic x m).sec = m.sec := rfl
@[simp] theorem setTic_dom (x : Tic) (m : Mach) : (setTic x m).dom = m.dom := rfl
@[simp] theorem setTic_gpio (x : Tic) (m : Mach) : (setTic x m).gpio = m.gpio := rfl
@[simp] theorem setTic_sys (x : Tic) (m : Mach) : (setTic x m).sys = m.sys := rfl
@[simp] theorem setTic_setup (x : Tic) (m : Mach) : (setTic x m).setup = m.setup := rfl

@[simp] theorem setTim_deal (x : Tim) (m : Mach) : (setTim x m).deal = m.deal := rfl
@[simp] theorem setTim_ticks (x : Tim) (m : Mach) : (setTim x m).ticks = m.ticks := rfl
@[simp] theorem setTim_regs (x : Tim) (m : Mach) : (setTim x m).regs = m.regs := rfl
@[simp] theorem setTim_hif (x : Tim) (m : Mach) : (setTim x m).hif = m.hif := rfl
@[simp] theorem setTim_fresh (x : Tim) (m : Mach) : (setTim x m).fresh = m.fresh := rfl
@[simp] theorem setTim_out (x : Tim) (m : Mach) : (setTim x m).out = m.out := rfl
@[simp] theorem setTim_clk (x : Tim) (m : Mach) : (setTim x m).clk = m.clk := rfl
@[simp] theorem setTim_tim (x : Tim) (m : Mach) : (setTim x m).tim = x := rfl
@[simp] theorem setTim_tic (x : Tim) (m : Mach) : (setTim x m).tic = m.tic := rfl
@[simp] theorem setTim_ring (x : Tim) (m : Mach) : (setTim x m).ring = m.ring := rfl
@[simp] theorem setTim_str (x : Tim) (m : Mach) : (setTim x m).str = m.str := rfl
@[simp] theorem setTim_dk (x : Tim) (m : Mach) : (setTim x m).dk = m.dk := rfl
@[simp] theorem setTim_frm (x : Tim) (m : Mach) : (setTim x m).frm = m.frm := rfl
@[simp] theorem setTim_objs (x : Tim) (m : Mach) : (setTim x m).objs = m.objs := rfl
@[simp] theorem setTim_rend (x : Tim) (m : Mach) : (setTim x m).rend = m.rend := rfl
@[simp] theorem setTim_vote (x : Tim) (m : Mach) : (setTim x m).vote = m.vote := rfl
@[simp] theorem setTim_cor (x : Tim) (m : Mach) : (setTim x m).cor = m.cor := rfl
@[simp] theorem setTim_icom (x : Tim) (m : Mach) : (setTim x m).icom = m.icom := rfl
@[simp] theorem setTim_sap (x : Tim) (m : Mach) : (setTim x m).sap = m.sap := rfl
@[simp] theorem setTim_pwr (x : Tim) (m : Mach) : (setTim x m).pwr = m.pwr := rfl
@[simp] theorem setTim_ann (x : Tim) (m : Mach) : (setTim x m).ann = m.ann := rfl
@[simp] theorem setTim_sec (x : Tim) (m : Mach) : (setTim x m).sec = m.sec := rfl
@[simp] theorem setTim_dom (x : Tim) (m : Mach) : (setTim x m).dom = m.dom := rfl
@[simp] theorem setTim_gpio (x : Tim) (m : Mach) : (setTim x m).gpio = m.gpio := rfl
@[simp] theorem setTim_sys (x : Tim) (m : Mach) : (setTim x m).sys = m.sys := rfl
@[simp] theorem setTim_setup (x : Tim) (m : Mach) : (setTim x m).setup = m.setup := rfl

end Sys2Proof.Machine
end

