-- ==== Sys2Proof/Laws/Tables.lean ====
section
/-! SUPPORT. What the sparse tables do: a value read back after a write, other keys left alone, and the canonical form kept. -/
namespace Sys2Proof.Machine

variable {α : Type}

@[simp] theorem mfind_nil (k : Nat) : mfind ([] : SMap α) k = none := rfl

theorem mfind_cons (k : Nat) (v : α) (t : SMap α) (n : Nat) : mfind ((k, v) :: t) n = if k = n then some v else mfind t n := rfl

/-- A value put under a key is found under it. -/
@[simp] theorem mfind_mput_self (n : Nat) (v : α) (t : SMap α) : mfind (mput n v t) n = some v := by
  induction t with
  | nil => simp [mput, mfind]
  | cons p t ih =>
    obtain ⟨k, w⟩ := p
    simp only [mput]
    split
    · simp [mfind]
    · split
      · simp [mfind]
      · have : k ≠ n := fun h => by omega
        simp [mfind, this, ih]

/-- A put under one key leaves every other key. -/
theorem mfind_mput_ne (n k : Nat) (v : α) (t : SMap α) (h : k ≠ n) : mfind (mput n v t) k = mfind t k := by
  induction t with
  | nil => simp [mput, mfind, Ne.symm h]
  | cons p t ih =>
    obtain ⟨j, w⟩ := p
    simp only [mput]
    split
    · simp [mfind, Ne.symm h]
    · split
      · next _ e => subst e; simp [mfind, Ne.symm h]
      · simp only [mfind_cons, ih]

/-- A deleted key is not found. -/
@[simp] theorem mfind_mdel_self (n : Nat) (t : SMap α) : mfind (mdel n t) n = none := by
  induction t with
  | nil => rfl
  | cons p t ih =>
    obtain ⟨j, w⟩ := p
    by_cases e : j = n
    · simp [mdel, e] at ih ⊢; exact ih
    · simp [mdel, e, mfind] at ih ⊢; exact ih

/-- A deletion leaves every other key. -/
theorem mfind_mdel_ne (n k : Nat) (t : SMap α) (h : k ≠ n) : mfind (mdel n t) k = mfind t k := by
  induction t with
  | nil => rfl
  | cons p t ih =>
    obtain ⟨j, w⟩ := p
    by_cases e : j = n
    · have : j ≠ k := fun c => h (by omega)
      simp [mdel, e, mfind] at ih ⊢
      rw [ih]; simp [Ne.symm h]
    · simp [mdel, e, mfind] at ih ⊢
      rw [ih]

/-- A read after a write under the same key. -/
@[simp] theorem mget_mset_self [DecidableEq α] (d : α) (n : Nat) (v : α) (t : SMap α) : mget d (mset d n v t) n = v := by
  unfold mset mget
  split
  · next e => simp [e]
  · simp

/-- A write under one key leaves every other key. -/
theorem mget_mset_ne [DecidableEq α] (d : α) (n k : Nat) (v : α) (t : SMap α) (h : k ≠ n) : mget d (mset d n v t) k = mget d t k := by
  unfold mset mget
  split
  · rw [mfind_mdel_ne _ _ _ h]
  · rw [mfind_mput_ne _ _ _ _ h]

/-- The same for a table read with another default, as a register store is. -/
theorem mget_mset_other [DecidableEq α] (d e : α) (n k : Nat) (v : α) (t : SMap α) (h : k ≠ n) : mget e (mset d n v t) k = mget e t k := by
  unfold mset mget
  split
  · rw [mfind_mdel_ne _ _ _ h]
  · rw [mfind_mput_ne _ _ _ _ h]

@[simp] theorem mget_mput_self (d : α) (n : Nat) (v : α) (t : SMap α) : mget d (mput n v t) n = v := by simp [mget]

theorem mget_mput_ne (d : α) (n k : Nat) (v : α) (t : SMap α) (h : k ≠ n) : mget d (mput n v t) k = mget d t k := by
  simp [mget, mfind_mput_ne _ _ _ _ h]

/-! The canonical form. -/

theorem mem_mput (n : Nat) (v : α) (t : SMap α) (p : Nat × α) (h : p ∈ mput n v t) : p = (n, v) ∨ p ∈ t := by
  induction t with
  | nil => simpa [mput] using h
  | cons q t ih =>
    obtain ⟨j, w⟩ := q
    simp only [mput] at h
    split at h
    · simpa using h
    · split at h
      · rcases List.mem_cons.mp h with h | h
        · exact .inl h
        · exact .inr (List.mem_cons_of_mem _ h)
      · rcases List.mem_cons.mp h with h | h
        · exact .inr (h ▸ List.mem_cons_self)
        · rcases ih h with h | h
          · exact .inl h
          · exact .inr (List.mem_cons_of_mem _ h)

theorem mem_keys_mput (n : Nat) (v : α) (t : SMap α) (k : Nat) (h : k ∈ (mput n v t).map Prod.fst) : k = n ∨ k ∈ t.map Prod.fst := by
  obtain ⟨p, hp, rfl⟩ := List.mem_map.mp h
  rcases mem_mput n v t p hp with rfl | hp
  · exact .inl rfl
  · exact .inr (List.mem_map.mpr ⟨p, hp, rfl⟩)

/-- Rising keys stay rising under a put. -/
theorem mput_sorted (n : Nat) (v : α) (t : SMap α) (h : (t.map Prod.fst).Pairwise (· < ·)) :
    ((mput n v t).map Prod.fst).Pairwise (· < ·) := by
  induction t with
  | nil => simp [mput]
  | cons p t ih =>
    obtain ⟨j, w⟩ := p
    simp only [List.map_cons, List.pairwise_cons] at h
    simp only [mput]
    split
    · next lt =>
      simp only [List.map_cons, List.pairwise_cons]
      refine ⟨?_, h⟩
      intro a ha
      simp at ha
      rcases ha with rfl | ha
      · exact lt
      · exact Nat.lt_trans lt (h.1 a (by simpa using ha))
    · split
      · next _ e => subst e; simpa only [List.map_cons, List.pairwise_cons] using h
      · next nlt ne =>
        simp only [List.map_cons, List.pairwise_cons]
        refine ⟨?_, ih h.2⟩
        intro a ha
        rcases mem_keys_mput n v t a ha with rfl | ha
        · omega
        · exact h.1 a ha

/-- Rising keys stay rising under a deletion. -/
theorem mdel_sorted (n : Nat) (t : SMap α) (h : (t.map Prod.fst).Pairwise (· < ·)) : ((mdel n t).map Prod.fst).Pairwise (· < ·) := by
  unfold mdel
  exact h.sublist (List.filter_sublist.map _)

/-- Rising keys stay rising under a write. -/
theorem mset_sorted [DecidableEq α] (d : α) (n : Nat) (v : α) (t : SMap α) (h : (t.map Prod.fst).Pairwise (· < ·)) :
    ((mset d n v t).map Prod.fst).Pairwise (· < ·) := by
  unfold mset
  split
  · exact mdel_sorted n t h
  · exact mput_sorted n v t h

/-- A write keeps the canonical form: rising keys, no entry at the default. -/
theorem mset_wf [DecidableEq α] (d : α) (n : Nat) (v : α) (t : SMap α) (h : mwf d t = true) : mwf d (mset d n v t) = true := by
  simp only [mwf, Bool.and_eq_true, decide_eq_true_eq, List.all_eq_true] at h ⊢
  refine ⟨mset_sorted d n v t h.1, ?_⟩
  intro p hp
  unfold mset at hp
  split at hp
  · exact h.2 p (List.mem_filter.mp hp).1
  · next ne =>
    rcases mem_mput n v t p hp with rfl | hp
    · simpa using ne
    · exact h.2 p hp

end Sys2Proof.Machine
end

