-- ==== Sys2Proof/Laws/Ops.lean ====
section
/-! SUPPORT. What the shared operations leave: register fields after a write, events, completions, the loops over machines. -/
namespace Sys2Proof.Machine

/-! Register fields. -/

/-- A field read back after a write of it, cut to its width. -/
@[simp] theorem rgetij_rsetij_self (t : SMap Nat) (f : Fld) (i j v : Nat) : rgetij (rsetij f i j v t) f i j = v % 2 ^ f.width := by
  simp [rgetij, rsetij]

/-- A write leaves every field that lies elsewhere. -/
theorem rgetij_rsetij_ne (t : SMap Nat) (f g : Fld) (i j k l v : Nat) (h : fkey g k l ≠ fkey f i j) :
    rgetij (rsetij f i j v t) g k l = rgetij t g k l := by
  simp [rgetij, rsetij, mget_mset_other _ _ _ _ _ _ h]

@[simp] theorem rd_wr_self (m : Mach) (f : Fld) (v : Nat) : rd (wr f v m) f = v % 2 ^ f.width := by simp [rd]

theorem rd_wr_ne (m : Mach) (f g : Fld) (v : Nat) (h : fkey g 0 0 ≠ fkey f 0 0) : rd (wr f v m) g = rd m g := by
  simp [rd, rgetij_rsetij_ne _ _ _ _ _ _ _ _ h]

theorem rdi_wri_self (m : Mach) (f : Fld) (i v : Nat) (h : i < f.n1) : rdi (wri f i v m) f i = v % 2 ^ f.width := by simp [rdi, h]

theorem rdi_wri_ne (m : Mach) (f g : Fld) (i k v : Nat) (h : fkey g k 0 ≠ fkey f i 0) : rdi (wri f i v m) g k = rdi m g k := by
  simp only [rdi, wri_regs]
  split
  · exact rgetij_rsetij_ne _ _ _ _ _ _ _ _ h
  · rfl

theorem rd_wri_ne (m : Mach) (f g : Fld) (i v : Nat) (h : fkey g 0 0 ≠ fkey f i 0) : rd (wri f i v m) g = rd m g := by
  simp only [rd, wri_regs]
  split
  · exact rgetij_rsetij_ne _ _ _ _ _ _ _ _ h
  · rfl

theorem rdi_wr_ne (m : Mach) (f g : Fld) (k v : Nat) (h : fkey g k 0 ≠ fkey f 0 0) : rdi (wr f v m) g k = rdi m g k := by
  simp [rdi, rgetij_rsetij_ne _ _ _ _ _ _ _ _ h]

@[simp] theorem rd_bump_self (m : Mach) (f : Fld) (n : Nat) :
    rd (bump f n m) f = min (2 ^ f.width - 1) (rd m f + n) % 2 ^ f.width := by simp [rd, rbump]

theorem rd_bump_ne (m : Mach) (f g : Fld) (n : Nat) (h : fkey g 0 0 ≠ fkey f 0 0) : rd (bump f n m) g = rd m g := by
  simp [rd, rbump, rgetij_rsetij_ne _ _ _ _ _ _ _ _ h]

theorem rd_orReg_ne (m : Mach) (f g : Fld) (n : Nat) (h : fkey g 0 0 ≠ fkey f 0 0) : rd (orReg f n m) g = rd m g := by
  simp [orReg, rd_wr_ne _ _ _ _ h]

/-- A change of anything but the registers leaves every field. -/
theorem rd_congr (m n : Mach) (f : Fld) (h : n.regs = m.regs) : rd n f = rd m f := by simp [rd, h]

theorem rdi_congr (m n : Mach) (f : Fld) (i : Nat) (h : n.regs = m.regs) : rdi n f i = rdi m f i := by simp [rdi, h]

/-! Loops and conditions. -/

@[simp] theorem onlyIf_true (f : Mach → Mach) (m : Mach) : onlyIf true f m = f m := rfl
@[simp] theorem onlyIf_false (f : Mach → Mach) (m : Mach) : onlyIf false f m = m := rfl

/-- What a change keeps, a conditional change keeps. -/
theorem onlyIf_keep {β : Type} (g : Mach → β) (b : Bool) (f : Mach → Mach) (m : Mach) (h : g (f m) = g m) : g (onlyIf b f m) = g m := by
  cases b <;> simp [h]

@[simp] theorem forEach_nil {α : Type} (f : α → Mach → Mach) (m : Mach) : forEach [] f m = m := rfl
@[simp] theorem forEach_cons {α : Type} (a : α) (l : List α) (f : α → Mach → Mach) (m : Mach) :
    forEach (a :: l) f m = forEach l f (f a m) := rfl

/-- What each round keeps, a loop keeps. -/
theorem forEach_keep {α β : Type} (g : Mach → β) (l : List α) (f : α → Mach → Mach) (h : ∀ a m, g (f a m) = g m) (m : Mach) :
    g (forEach l f m) = g m := by
  induction l generalizing m with
  | nil => rfl
  | cons a l ih => rw [forEach_cons, ih, h]

/-! Events write the host interface, the output and HIF_EV_DISCARD alone. -/

@[simp] theorem writeTo_deal (e src : Nat) (l : List FifoEntry) (m : Mach) : (writeTo e src l m).deal = m.deal := rfl
@[simp] theorem writeTo_ticks (e src : Nat) (l : List FifoEntry) (m : Mach) : (writeTo e src l m).ticks = m.ticks := rfl
@[simp] theorem writeTo_fresh (e src : Nat) (l : List FifoEntry) (m : Mach) : (writeTo e src l m).fresh = m.fresh := rfl
@[simp] theorem writeTo_clk (e src : Nat) (l : List FifoEntry) (m : Mach) : (writeTo e src l m).clk = m.clk := rfl
@[simp] theorem writeTo_tim (e src : Nat) (l : List FifoEntry) (m : Mach) : (writeTo e src l m).tim = m.tim := rfl
@[simp] theorem writeTo_tic (e src : Nat) (l : List FifoEntry) (m : Mach) : (writeTo e src l m).tic = m.tic := rfl
@[simp] theorem writeTo_ring (e src : Nat) (l : List FifoEntry) (m : Mach) : (writeTo e src l m).ring = m.ring := rfl
@[simp] theorem writeTo_str (e src : Nat) (l : List FifoEntry) (m : Mach) : (writeTo e src l m).str = m.str := rfl
@[simp] theorem writeTo_dk (e src : Nat) (l : List FifoEntry) (m : Mach) : (writeTo e src l m).dk = m.dk := rfl
@[simp] theorem writeTo_frm (e src : Nat) (l : List FifoEntry) (m : Mach) : (writeTo e src l m).frm = m.frm := rfl
@[simp] theorem writeTo_objs (e src : Nat) (l : List FifoEntry) (m : Mach) : (writeTo e src l m).objs = m.objs := rfl
@[simp] theorem writeTo_rend (e src : Nat) (l : List FifoEntry) (m : Mach) : (writeTo e src l m).rend = m.rend := rfl
@[simp] theorem writeTo_vote (e src : Nat) (l : List FifoEntry) (m : Mach) : (writeTo e src l m).vote = m.vote := rfl
@[simp] theorem writeTo_cor (e src : Nat) (l : List FifoEntry) (m : Mach) : (writeTo e src l m).cor = m.cor := rfl
@[simp] theorem writeTo_icom (e src : Nat) (l : List FifoEntry) (m : Mach) : (writeTo e src l m).icom = m.icom := rfl
@[simp] theorem writeTo_sap (e src : Nat) (l : List FifoEntry) (m : Mach) : (writeTo e src l m).sap = m.sap := rfl
@[simp] theorem writeTo_pwr (e src : Nat) (l : List FifoEntry) (m : Mach) : (writeTo e src l m).pwr = m.pwr := rfl
@[simp] theorem writeTo_ann (e src : Nat) (l : List FifoEntry) (m : Mach) : (writeTo e src l m).ann = m.ann := rfl
@[simp] theorem writeTo_sec (e src : Nat) (l : List FifoEntry) (m : Mach) : (writeTo e src l m).sec = m.sec := rfl
@[simp] theorem writeTo_dom (e src : Nat) (l : List FifoEntry) (m : Mach) : (writeTo e src l m).dom = m.dom := rfl
@[simp] theorem writeTo_gpio (e src : Nat) (l : List FifoEntry) (m : Mach) : (writeTo e src l m).gpio = m.gpio := rfl
@[simp] theorem writeTo_sys (e src : Nat) (l : List FifoEntry) (m : Mach) : (writeTo e src l m).sys = m.sys := rfl
@[simp] theorem writeTo_setup (e src : Nat) (l : List FifoEntry) (m : Mach) : (writeTo e src l m).setup = m.setup := rfl

@[simp] theorem writeRecords_deal (src : Nat) (l : List FifoEntry) (m : Mach) : (writeRecords src l m).deal = m.deal := rfl
@[simp] theorem writeRecords_ticks (src : Nat) (l : List FifoEntry) (m : Mach) : (writeRecords src l m).ticks = m.ticks := rfl
@[simp] theorem writeRecords_fresh (src : Nat) (l : List FifoEntry) (m : Mach) : (writeRecords src l m).fresh = m.fresh := rfl
@[simp] theorem writeRecords_clk (src : Nat) (l : List FifoEntry) (m : Mach) : (writeRecords src l m).clk = m.clk := rfl
@[simp] theorem writeRecords_tim (src : Nat) (l : List FifoEntry) (m : Mach) : (writeRecords src l m).tim = m.tim := rfl
@[simp] theorem writeRecords_tic (src : Nat) (l : List FifoEntry) (m : Mach) : (writeRecords src l m).tic = m.tic := rfl
@[simp] theorem writeRecords_ring (src : Nat) (l : List FifoEntry) (m : Mach) : (writeRecords src l m).ring = m.ring := rfl
@[simp] theorem writeRecords_str (src : Nat) (l : List FifoEntry) (m : Mach) : (writeRecords src l m).str = m.str := rfl
@[simp] theorem writeRecords_dk (src : Nat) (l : List FifoEntry) (m : Mach) : (writeRecords src l m).dk = m.dk := rfl
@[simp] theorem writeRecords_frm (src : Nat) (l : List FifoEntry) (m : Mach) : (writeRecords src l m).frm = m.frm := rfl
@[simp] theorem writeRecords_objs (src : Nat) (l : List FifoEntry) (m : Mach) : (writeRecords src l m).objs = m.objs := rfl
@[simp] theorem writeRecords_rend (src : Nat) (l : List FifoEntry) (m : Mach) : (writeRecords src l m).rend = m.rend := rfl
@[simp] theorem writeRecords_vote (src : Nat) (l : List FifoEntry) (m : Mach) : (writeRecords src l m).vote = m.vote := rfl
@[simp] theorem writeRecords_cor (src : Nat) (l : List FifoEntry) (m : Mach) : (writeRecords src l m).cor = m.cor := rfl
@[simp] theorem writeRecords_icom (src : Nat) (l : List FifoEntry) (m : Mach) : (writeRecords src l m).icom = m.icom := rfl
@[simp] theorem writeRecords_sap (src : Nat) (l : List FifoEntry) (m : Mach) : (writeRecords src l m).sap = m.sap := rfl
@[simp] theorem writeRecords_pwr (src : Nat) (l : List FifoEntry) (m : Mach) : (writeRecords src l m).pwr = m.pwr := rfl
@[simp] theorem writeRecords_ann (src : Nat) (l : List FifoEntry) (m : Mach) : (writeRecords src l m).ann = m.ann := rfl
@[simp] theorem writeRecords_sec (src : Nat) (l : List FifoEntry) (m : Mach) : (writeRecords src l m).sec = m.sec := rfl
@[simp] theorem writeRecords_dom (src : Nat) (l : List FifoEntry) (m : Mach) : (writeRecords src l m).dom = m.dom := rfl
@[simp] theorem writeRecords_gpio (src : Nat) (l : List FifoEntry) (m : Mach) : (writeRecords src l m).gpio = m.gpio := rfl
@[simp] theorem writeRecords_sys (src : Nat) (l : List FifoEntry) (m : Mach) : (writeRecords src l m).sys = m.sys := rfl
@[simp] theorem writeRecords_setup (src : Nat) (l : List FifoEntry) (m : Mach) : (writeRecords src l m).setup = m.setup := rfl

@[simp] theorem raiseAt_deal (d src code : Nat) (pay : Pay) (m : Mach) : (raiseAt d src code pay m).deal = m.deal := rfl
@[simp] theorem raiseAt_ticks (d src code : Nat) (pay : Pay) (m : Mach) : (raiseAt d src code pay m).ticks = m.ticks := rfl
@[simp] theorem raiseAt_fresh (d src code : Nat) (pay : Pay) (m : Mach) : (raiseAt d src code pay m).fresh = m.fresh := rfl
@[simp] theorem raiseAt_clk (d src code : Nat) (pay : Pay) (m : Mach) : (raiseAt d src code pay m).clk = m.clk := rfl
@[simp] theorem raiseAt_tim (d src code : Nat) (pay : Pay) (m : Mach) : (raiseAt d src code pay m).tim = m.tim := rfl
@[simp] theorem raiseAt_tic (d src code : Nat) (pay : Pay) (m : Mach) : (raiseAt d src code pay m).tic = m.tic := rfl
@[simp] theorem raiseAt_ring (d src code : Nat) (pay : Pay) (m : Mach) : (raiseAt d src code pay m).ring = m.ring := rfl
@[simp] theorem raiseAt_str (d src code : Nat) (pay : Pay) (m : Mach) : (raiseAt d src code pay m).str = m.str := rfl
@[simp] theorem raiseAt_dk (d src code : Nat) (pay : Pay) (m : Mach) : (raiseAt d src code pay m).dk = m.dk := rfl
@[simp] theorem raiseAt_frm (d src code : Nat) (pay : Pay) (m : Mach) : (raiseAt d src code pay m).frm = m.frm := rfl
@[simp] theorem raiseAt_objs (d src code : Nat) (pay : Pay) (m : Mach) : (raiseAt d src code pay m).objs = m.objs := rfl
@[simp] theorem raiseAt_rend (d src code : Nat) (pay : Pay) (m : Mach) : (raiseAt d src code pay m).rend = m.rend := rfl
@[simp] theorem raiseAt_vote (d src code : Nat) (pay : Pay) (m : Mach) : (raiseAt d src code pay m).vote = m.vote := rfl
@[simp] theorem raiseAt_cor (d src code : Nat) (pay : Pay) (m : Mach) : (raiseAt d src code pay m).cor = m.cor := rfl
@[simp] theorem raiseAt_icom (d src code : Nat) (pay : Pay) (m : Mach) : (raiseAt d src code pay m).icom = m.icom := rfl
@[simp] theorem raiseAt_sap (d src code : Nat) (pay : Pay) (m : Mach) : (raiseAt d src code pay m).sap = m.sap := rfl
@[simp] theorem raiseAt_pwr (d src code : Nat) (pay : Pay) (m : Mach) : (raiseAt d src code pay m).pwr = m.pwr := rfl
@[simp] theorem raiseAt_ann (d src code : Nat) (pay : Pay) (m : Mach) : (raiseAt d src code pay m).ann = m.ann := rfl
@[simp] theorem raiseAt_sec (d src code : Nat) (pay : Pay) (m : Mach) : (raiseAt d src code pay m).sec = m.sec := rfl
@[simp] theorem raiseAt_dom (d src code : Nat) (pay : Pay) (m : Mach) : (raiseAt d src code pay m).dom = m.dom := rfl
@[simp] theorem raiseAt_gpio (d src code : Nat) (pay : Pay) (m : Mach) : (raiseAt d src code pay m).gpio = m.gpio := rfl
@[simp] theorem raiseAt_sys (d src code : Nat) (pay : Pay) (m : Mach) : (raiseAt d src code pay m).sys = m.sys := rfl
@[simp] theorem raiseAt_setup (d src code : Nat) (pay : Pay) (m : Mach) : (raiseAt d src code pay m).setup = m.setup := rfl

@[simp] theorem raise_deal (src code : Nat) (pay : Pay) (m : Mach) : (raise src code pay m).deal = m.deal := rfl
@[simp] theorem raise_ticks (src code : Nat) (pay : Pay) (m : Mach) : (raise src code pay m).ticks = m.ticks := rfl
@[simp] theorem raise_fresh (src code : Nat) (pay : Pay) (m : Mach) : (raise src code pay m).fresh = m.fresh := rfl
@[simp] theorem raise_clk (src code : Nat) (pay : Pay) (m : Mach) : (raise src code pay m).clk = m.clk := rfl
@[simp] theorem raise_tim (src code : Nat) (pay : Pay) (m : Mach) : (raise src code pay m).tim = m.tim := rfl
@[simp] theorem raise_tic (src code : Nat) (pay : Pay) (m : Mach) : (raise src code pay m).tic = m.tic := rfl
@[simp] theorem raise_ring (src code : Nat) (pay : Pay) (m : Mach) : (raise src code pay m).ring = m.ring := rfl
@[simp] theorem raise_str (src code : Nat) (pay : Pay) (m : Mach) : (raise src code pay m).str = m.str := rfl
@[simp] theorem raise_dk (src code : Nat) (pay : Pay) (m : Mach) : (raise src code pay m).dk = m.dk := rfl
@[simp] theorem raise_frm (src code : Nat) (pay : Pay) (m : Mach) : (raise src code pay m).frm = m.frm := rfl
@[simp] theorem raise_objs (src code : Nat) (pay : Pay) (m : Mach) : (raise src code pay m).objs = m.objs := rfl
@[simp] theorem raise_rend (src code : Nat) (pay : Pay) (m : Mach) : (raise src code pay m).rend = m.rend := rfl
@[simp] theorem raise_vote (src code : Nat) (pay : Pay) (m : Mach) : (raise src code pay m).vote = m.vote := rfl
@[simp] theorem raise_cor (src code : Nat) (pay : Pay) (m : Mach) : (raise src code pay m).cor = m.cor := rfl
@[simp] theorem raise_icom (src code : Nat) (pay : Pay) (m : Mach) : (raise src code pay m).icom = m.icom := rfl
@[simp] theorem raise_sap (src code : Nat) (pay : Pay) (m : Mach) : (raise src code pay m).sap = m.sap := rfl
@[simp] theorem raise_pwr (src code : Nat) (pay : Pay) (m : Mach) : (raise src code pay m).pwr = m.pwr := rfl
@[simp] theorem raise_ann (src code : Nat) (pay : Pay) (m : Mach) : (raise src code pay m).ann = m.ann := rfl
@[simp] theorem raise_sec (src code : Nat) (pay : Pay) (m : Mach) : (raise src code pay m).sec = m.sec := rfl
@[simp] theorem raise_dom (src code : Nat) (pay : Pay) (m : Mach) : (raise src code pay m).dom = m.dom := rfl
@[simp] theorem raise_gpio (src code : Nat) (pay : Pay) (m : Mach) : (raise src code pay m).gpio = m.gpio := rfl
@[simp] theorem raise_sys (src code : Nat) (pay : Pay) (m : Mach) : (raise src code pay m).sys = m.sys := rfl
@[simp] theorem raise_setup (src code : Nat) (pay : Pay) (m : Mach) : (raise src code pay m).setup = m.setup := rfl

/-- No field but HIF_EV_DISCARD changes by an event. -/
theorem rgetij_raise (src code : Nat) (pay : Pay) (m : Mach) (f : Fld) (i j : Nat) (h : fkey f i j ≠ fkey F.HIF_EV_DISCARD_COUNT 0 0) :
    rgetij (raise src code pay m).regs f i j = rgetij m.regs f i j := by
  unfold raise raiseAt writeRecords writeTo
  simp only []
  split
  · rfl
  · exact rgetij_rsetij_ne _ _ _ _ _ _ _ _ h

theorem rd_raise (src code : Nat) (pay : Pay) (m : Mach) (f : Fld) (h : fkey f 0 0 ≠ fkey F.HIF_EV_DISCARD_COUNT 0 0) :
    rd (raise src code pay m) f = rd m f := rgetij_raise src code pay m f 0 0 h

theorem rdi_raise (src code : Nat) (pay : Pay) (m : Mach) (f : Fld) (i : Nat) (h : fkey f i 0 ≠ fkey F.HIF_EV_DISCARD_COUNT 0 0) :
    rdi (raise src code pay m) f i = rdi m f i := rgetij_raise src code pay m f i 0 h

/-- While the interface runs an event changes no register. -/
theorem raise_regs_running (src code : Nat) (pay : Pay) (m : Mach) (h : running m = true) : (raise src code pay m).regs = m.regs := by
  simp [raise, raiseAt, writeRecords, writeTo, h]

/-- Whether polling is active is no business of an event. -/
@[simp] theorem running_raise (src code : Nat) (pay : Pay) (m : Mach) : running (raise src code pay m) = running m := by
  unfold running
  rw [rd_raise _ _ _ _ _ (by decide)]

/-- What an event leaves of the host interface: whatever every change of the rings' counts, levels and crossings leaves. -/
theorem evPost_keep {β : Type} (g : Hif → β) (h1 : ∀ e n d h, g (evHif e n d h) = g h)
    (h2 : ∀ (h : Hif) l w, g { h with lvl := l, wmNew := w } = g h) (fuel e src : Nat) (l : List FifoEntry) (deal seat : Nat) (h : Hif) :
    g (evPost fuel e src l deal seat h).1 = g h := by
  induction fuel generalizing e src l h with
  | zero => exact h1 _ _ _ _
  | succ n ih =>
    simp only [evPost]
    split
    · rw [ih, h2, h1]
    · exact h1 _ _ _ _

theorem raise_hif_keep {β : Type} (g : Hif → β) (h1 : ∀ e n d h, g (evHif e n d h) = g h)
    (h2 : ∀ (h : Hif) l w, g { h with lvl := l, wmNew := w } = g h) (src code : Nat) (pay : Pay) (m : Mach) :
    g (raise src code pay m).hif = g m.hif := by
  unfold raise raiseAt writeRecords writeTo
  simp only []
  split
  · exact evPost_keep g h1 h2 _ _ _ _ _ _ _
  · rfl

@[simp] theorem raise_epoch (src code : Nat) (pay : Pay) (m : Mach) : (raise src code pay m).hif.epoch = m.hif.epoch :=
  raise_hif_keep (fun h => h.epoch) (fun _ _ _ _ => by unfold evHif; split <;> rfl) (fun _ _ _ => rfl) _ _ _ _
@[simp] theorem raise_lat (src code : Nat) (pay : Pay) (m : Mach) : (raise src code pay m).hif.lat = m.hif.lat :=
  raise_hif_keep (fun h => h.lat) (fun _ _ _ _ => by unfold evHif; split <;> rfl) (fun _ _ _ => rfl) _ _ _ _
@[simp] theorem raise_heldq (src code : Nat) (pay : Pay) (m : Mach) : (raise src code pay m).hif.held = m.hif.held :=
  raise_hif_keep (fun h => h.held) (fun _ _ _ _ => by unfold evHif; split <;> rfl) (fun _ _ _ => rfl) _ _ _ _

/-! Completions write the host interface and the output alone. -/

@[simp] theorem completeWith_deal (tk : Ticket) (st d rsv : Nat) (now : Bool) (res : Pay) (m : Mach) : (completeWith tk st d rsv now res m).deal = m.deal := by
  unfold completeWith; split <;> rfl
@[simp] theorem completeWith_ticks (tk : Ticket) (st d rsv : Nat) (now : Bool) (res : Pay) (m : Mach) : (completeWith tk st d rsv now res m).ticks = m.ticks := by
  unfold completeWith; split <;> rfl
@[simp] theorem completeWith_regs (tk : Ticket) (st d rsv : Nat) (now : Bool) (res : Pay) (m : Mach) : (completeWith tk st d rsv now res m).regs = m.regs := by
  unfold completeWith; split <;> rfl
@[simp] theorem completeWith_fresh (tk : Ticket) (st d rsv : Nat) (now : Bool) (res : Pay) (m : Mach) : (completeWith tk st d rsv now res m).fresh = m.fresh := by
  unfold completeWith; split <;> rfl
@[simp] theorem completeWith_clk (tk : Ticket) (st d rsv : Nat) (now : Bool) (res : Pay) (m : Mach) : (completeWith tk st d rsv now res m).clk = m.clk := by
  unfold completeWith; split <;> rfl
@[simp] theorem completeWith_tim (tk : Ticket) (st d rsv : Nat) (now : Bool) (res : Pay) (m : Mach) : (completeWith tk st d rsv now res m).tim = m.tim := by
  unfold completeWith; split <;> rfl
@[simp] theorem completeWith_tic (tk : Ticket) (st d rsv : Nat) (now : Bool) (res : Pay) (m : Mach) : (completeWith tk st d rsv now res m).tic = m.tic := by
  unfold completeWith; split <;> rfl
@[simp] theorem completeWith_ring (tk : Ticket) (st d rsv : Nat) (now : Bool) (res : Pay) (m : Mach) : (completeWith tk st d rsv now res m).ring = m.ring := by
  unfold completeWith; split <;> rfl
@[simp] theorem completeWith_str (tk : Ticket) (st d rsv : Nat) (now : Bool) (res : Pay) (m : Mach) : (completeWith tk st d rsv now res m).str = m.str := by
  unfold completeWith; split <;> rfl
@[simp] theorem completeWith_dk (tk : Ticket) (st d rsv : Nat) (now : Bool) (res : Pay) (m : Mach) : (completeWith tk st d rsv now res m).dk = m.dk := by
  unfold completeWith; split <;> rfl
@[simp] theorem completeWith_frm (tk : Ticket) (st d rsv : Nat) (now : Bool) (res : Pay) (m : Mach) : (completeWith tk st d rsv now res m).frm = m.frm := by
  unfold completeWith; split <;> rfl
@[simp] theorem completeWith_objs (tk : Ticket) (st d rsv : Nat) (now : Bool) (res : Pay) (m : Mach) : (completeWith tk st d rsv now res m).objs = m.objs := by
  unfold completeWith; split <;> rfl
@[simp] theorem completeWith_rend (tk : Ticket) (st d rsv : Nat) (now : Bool) (res : Pay) (m : Mach) : (completeWith tk st d rsv now res m).rend = m.rend := by
  unfold completeWith; split <;> rfl
@[simp] theorem completeWith_vote (tk : Ticket) (st d rsv : Nat) (now : Bool) (res : Pay) (m : Mach) : (completeWith tk st d rsv now res m).vote = m.vote := by
  unfold completeWith; split <;> rfl
@[simp] theorem completeWith_cor (tk : Ticket) (st d rsv : Nat) (now : Bool) (res : Pay) (m : Mach) : (completeWith tk st d rsv now res m).cor = m.cor := by
  unfold completeWith; split <;> rfl
@[simp] theorem completeWith_icom (tk : Ticket) (st d rsv : Nat) (now : Bool) (res : Pay) (m : Mach) : (completeWith tk st d rsv now res m).icom = m.icom := by
  unfold completeWith; split <;> rfl
@[simp] theorem completeWith_sap (tk : Ticket) (st d rsv : Nat) (now : Bool) (res : Pay) (m : Mach) : (completeWith tk st d rsv now res m).sap = m.sap := by
  unfold completeWith; split <;> rfl
@[simp] theorem completeWith_pwr (tk : Ticket) (st d rsv : Nat) (now : Bool) (res : Pay) (m : Mach) : (completeWith tk st d rsv now res m).pwr = m.pwr := by
  unfold completeWith; split <;> rfl
@[simp] theorem completeWith_ann (tk : Ticket) (st d rsv : Nat) (now : Bool) (res : Pay) (m : Mach) : (completeWith tk st d rsv now res m).ann = m.ann := by
  unfold completeWith; split <;> rfl
@[simp] theorem completeWith_sec (tk : Ticket) (st d rsv : Nat) (now : Bool) (res : Pay) (m : Mach) : (completeWith tk st d rsv now res m).sec = m.sec := by
  unfold completeWith; split <;> rfl
@[simp] theorem completeWith_dom (tk : Ticket) (st d rsv : Nat) (now : Bool) (res : Pay) (m : Mach) : (completeWith tk st d rsv now res m).dom = m.dom := by
  unfold completeWith; split <;> rfl
@[simp] theorem completeWith_gpio (tk : Ticket) (st d rsv : Nat) (now : Bool) (res : Pay) (m : Mach) : (completeWith tk st d rsv now res m).gpio = m.gpio := by
  unfold completeWith; split <;> rfl
@[simp] theorem completeWith_sys (tk : Ticket) (st d rsv : Nat) (now : Bool) (res : Pay) (m : Mach) : (completeWith tk st d rsv now res m).sys = m.sys := by
  unfold completeWith; split <;> rfl
@[simp] theorem completeWith_setup (tk : Ticket) (st d rsv : Nat) (now : Bool) (res : Pay) (m : Mach) : (completeWith tk st d rsv now res m).setup = m.setup := by
  unfold completeWith; split <;> rfl

@[simp] theorem final_deal (tk : Ticket) (st : Nat) (m : Mach) : (final tk st m).deal = m.deal := by
  unfold final completeWith; split <;> rfl
@[simp] theorem final_ticks (tk : Ticket) (st : Nat) (m : Mach) : (final tk st m).ticks = m.ticks := by
  unfold final completeWith; split <;> rfl
@[simp] theorem final_regs (tk : Ticket) (st : Nat) (m : Mach) : (final tk st m).regs = m.regs := by
  unfold final completeWith; split <;> rfl
@[simp] theorem final_fresh (tk : Ticket) (st : Nat) (m : Mach) : (final tk st m).fresh = m.fresh := by
  unfold final completeWith; split <;> rfl
@[simp] theorem final_clk (tk : Ticket) (st : Nat) (m : Mach) : (final tk st m).clk = m.clk := by
  unfold final completeWith; split <;> rfl
@[simp] theorem final_tim (tk : Ticket) (st : Nat) (m : Mach) : (final tk st m).tim = m.tim := by
  unfold final completeWith; split <;> rfl
@[simp] theorem final_tic (tk : Ticket) (st : Nat) (m : Mach) : (final tk st m).tic = m.tic := by
  unfold final completeWith; split <;> rfl
@[simp] theorem final_ring (tk : Ticket) (st : Nat) (m : Mach) : (final tk st m).ring = m.ring := by
  unfold final completeWith; split <;> rfl
@[simp] theorem final_str (tk : Ticket) (st : Nat) (m : Mach) : (final tk st m).str = m.str := by
  unfold final completeWith; split <;> rfl
@[simp] theorem final_dk (tk : Ticket) (st : Nat) (m : Mach) : (final tk st m).dk = m.dk := by
  unfold final completeWith; split <;> rfl
@[simp] theorem final_frm (tk : Ticket) (st : Nat) (m : Mach) : (final tk st m).frm = m.frm := by
  unfold final completeWith; split <;> rfl
@[simp] theorem final_objs (tk : Ticket) (st : Nat) (m : Mach) : (final tk st m).objs = m.objs := by
  unfold final completeWith; split <;> rfl
@[simp] theorem final_rend (tk : Ticket) (st : Nat) (m : Mach) : (final tk st m).rend = m.rend := by
  unfold final completeWith; split <;> rfl
@[simp] theorem final_vote (tk : Ticket) (st : Nat) (m : Mach) : (final tk st m).vote = m.vote := by
  unfold final completeWith; split <;> rfl
@[simp] theorem final_cor (tk : Ticket) (st : Nat) (m : Mach) : (final tk st m).cor = m.cor := by
  unfold final completeWith; split <;> rfl
@[simp] theorem final_icom (tk : Ticket) (st : Nat) (m : Mach) : (final tk st m).icom = m.icom := by
  unfold final completeWith; split <;> rfl
@[simp] theorem final_sap (tk : Ticket) (st : Nat) (m : Mach) : (final tk st m).sap = m.sap := by
  unfold final completeWith; split <;> rfl
@[simp] theorem final_pwr (tk : Ticket) (st : Nat) (m : Mach) : (final tk st m).pwr = m.pwr := by
  unfold final completeWith; split <;> rfl
@[simp] theorem final_ann (tk : Ticket) (st : Nat) (m : Mach) : (final tk st m).ann = m.ann := by
  unfold final completeWith; split <;> rfl
@[simp] theorem final_sec (tk : Ticket) (st : Nat) (m : Mach) : (final tk st m).sec = m.sec := by
  unfold final completeWith; split <;> rfl
@[simp] theorem final_dom (tk : Ticket) (st : Nat) (m : Mach) : (final tk st m).dom = m.dom := by
  unfold final completeWith; split <;> rfl
@[simp] theorem final_gpio (tk : Ticket) (st : Nat) (m : Mach) : (final tk st m).gpio = m.gpio := by
  unfold final completeWith; split <;> rfl
@[simp] theorem final_sys (tk : Ticket) (st : Nat) (m : Mach) : (final tk st m).sys = m.sys := by
  unfold final completeWith; split <;> rfl
@[simp] theorem final_setup (tk : Ticket) (st : Nat) (m : Mach) : (final tk st m).setup = m.setup := by
  unfold final completeWith; split <;> rfl

@[simp] theorem finalWith_deal (tk : Ticket) (st addr : Nat) (res : Pay) (m : Mach) : (finalWith tk st addr res m).deal = m.deal := by
  unfold finalWith; (split <;> simp); split <;> rfl
@[simp] theorem finalWith_ticks (tk : Ticket) (st addr : Nat) (res : Pay) (m : Mach) : (finalWith tk st addr res m).ticks = m.ticks := by
  unfold finalWith; (split <;> simp); split <;> rfl
@[simp] theorem finalWith_regs (tk : Ticket) (st addr : Nat) (res : Pay) (m : Mach) : (finalWith tk st addr res m).regs = m.regs := by
  unfold finalWith; (split <;> simp); split <;> rfl
@[simp] theorem finalWith_fresh (tk : Ticket) (st addr : Nat) (res : Pay) (m : Mach) : (finalWith tk st addr res m).fresh = m.fresh := by
  unfold finalWith; (split <;> simp); split <;> rfl
@[simp] theorem finalWith_clk (tk : Ticket) (st addr : Nat) (res : Pay) (m : Mach) : (finalWith tk st addr res m).clk = m.clk := by
  unfold finalWith; (split <;> simp); split <;> rfl
@[simp] theorem finalWith_tim (tk : Ticket) (st addr : Nat) (res : Pay) (m : Mach) : (finalWith tk st addr res m).tim = m.tim := by
  unfold finalWith; (split <;> simp); split <;> rfl
@[simp] theorem finalWith_tic (tk : Ticket) (st addr : Nat) (res : Pay) (m : Mach) : (finalWith tk st addr res m).tic = m.tic := by
  unfold finalWith; (split <;> simp); split <;> rfl
@[simp] theorem finalWith_ring (tk : Ticket) (st addr : Nat) (res : Pay) (m : Mach) : (finalWith tk st addr res m).ring = m.ring := by
  unfold finalWith; (split <;> simp); split <;> rfl
@[simp] theorem finalWith_str (tk : Ticket) (st addr : Nat) (res : Pay) (m : Mach) : (finalWith tk st addr res m).str = m.str := by
  unfold finalWith; (split <;> simp); split <;> rfl
@[simp] theorem finalWith_dk (tk : Ticket) (st addr : Nat) (res : Pay) (m : Mach) : (finalWith tk st addr res m).dk = m.dk := by
  unfold finalWith; (split <;> simp); split <;> rfl
@[simp] theorem finalWith_frm (tk : Ticket) (st addr : Nat) (res : Pay) (m : Mach) : (finalWith tk st addr res m).frm = m.frm := by
  unfold finalWith; (split <;> simp); split <;> rfl
@[simp] theorem finalWith_objs (tk : Ticket) (st addr : Nat) (res : Pay) (m : Mach) : (finalWith tk st addr res m).objs = m.objs := by
  unfold finalWith; (split <;> simp); split <;> rfl
@[simp] theorem finalWith_rend (tk : Ticket) (st addr : Nat) (res : Pay) (m : Mach) : (finalWith tk st addr res m).rend = m.rend := by
  unfold finalWith; (split <;> simp); split <;> rfl
@[simp] theorem finalWith_vote (tk : Ticket) (st addr : Nat) (res : Pay) (m : Mach) : (finalWith tk st addr res m).vote = m.vote := by
  unfold finalWith; (split <;> simp); split <;> rfl
@[simp] theorem finalWith_cor (tk : Ticket) (st addr : Nat) (res : Pay) (m : Mach) : (finalWith tk st addr res m).cor = m.cor := by
  unfold finalWith; (split <;> simp); split <;> rfl
@[simp] theorem finalWith_icom (tk : Ticket) (st addr : Nat) (res : Pay) (m : Mach) : (finalWith tk st addr res m).icom = m.icom := by
  unfold finalWith; (split <;> simp); split <;> rfl
@[simp] theorem finalWith_sap (tk : Ticket) (st addr : Nat) (res : Pay) (m : Mach) : (finalWith tk st addr res m).sap = m.sap := by
  unfold finalWith; (split <;> simp); split <;> rfl
@[simp] theorem finalWith_pwr (tk : Ticket) (st addr : Nat) (res : Pay) (m : Mach) : (finalWith tk st addr res m).pwr = m.pwr := by
  unfold finalWith; (split <;> simp); split <;> rfl
@[simp] theorem finalWith_ann (tk : Ticket) (st addr : Nat) (res : Pay) (m : Mach) : (finalWith tk st addr res m).ann = m.ann := by
  unfold finalWith; (split <;> simp); split <;> rfl
@[simp] theorem finalWith_sec (tk : Ticket) (st addr : Nat) (res : Pay) (m : Mach) : (finalWith tk st addr res m).sec = m.sec := by
  unfold finalWith; (split <;> simp); split <;> rfl
@[simp] theorem finalWith_dom (tk : Ticket) (st addr : Nat) (res : Pay) (m : Mach) : (finalWith tk st addr res m).dom = m.dom := by
  unfold finalWith; (split <;> simp); split <;> rfl
@[simp] theorem finalWith_gpio (tk : Ticket) (st addr : Nat) (res : Pay) (m : Mach) : (finalWith tk st addr res m).gpio = m.gpio := by
  unfold finalWith; (split <;> simp); split <;> rfl
@[simp] theorem finalWith_sys (tk : Ticket) (st addr : Nat) (res : Pay) (m : Mach) : (finalWith tk st addr res m).sys = m.sys := by
  unfold finalWith; (split <;> simp); split <;> rfl
@[simp] theorem finalWith_setup (tk : Ticket) (st addr : Nat) (res : Pay) (m : Mach) : (finalWith tk st addr res m).setup = m.setup := by
  unfold finalWith; (split <;> simp); split <;> rfl
@[simp] theorem interim_deal (tk : Ticket) (st d : Nat) (m : Mach) : (interim tk st d m).deal = m.deal := by
  unfold interim; split <;> (try split) <;> simp
@[simp] theorem interim_ticks (tk : Ticket) (st d : Nat) (m : Mach) : (interim tk st d m).ticks = m.ticks := by
  unfold interim; split <;> (try split) <;> simp
@[simp] theorem interim_regs (tk : Ticket) (st d : Nat) (m : Mach) : (interim tk st d m).regs = m.regs := by
  unfold interim; split <;> (try split) <;> simp
@[simp] theorem interim_fresh (tk : Ticket) (st d : Nat) (m : Mach) : (interim tk st d m).fresh = m.fresh := by
  unfold interim; split <;> (try split) <;> simp
@[simp] theorem interim_clk (tk : Ticket) (st d : Nat) (m : Mach) : (interim tk st d m).clk = m.clk := by
  unfold interim; split <;> (try split) <;> simp
@[simp] theorem interim_tim (tk : Ticket) (st d : Nat) (m : Mach) : (interim tk st d m).tim = m.tim := by
  unfold interim; split <;> (try split) <;> simp
@[simp] theorem interim_tic (tk : Ticket) (st d : Nat) (m : Mach) : (interim tk st d m).tic = m.tic := by
  unfold interim; split <;> (try split) <;> simp
@[simp] theorem interim_ring (tk : Ticket) (st d : Nat) (m : Mach) : (interim tk st d m).ring = m.ring := by
  unfold interim; split <;> (try split) <;> simp
@[simp] theorem interim_str (tk : Ticket) (st d : Nat) (m : Mach) : (interim tk st d m).str = m.str := by
  unfold interim; split <;> (try split) <;> simp
@[simp] theorem interim_dk (tk : Ticket) (st d : Nat) (m : Mach) : (interim tk st d m).dk = m.dk := by
  unfold interim; split <;> (try split) <;> simp
@[simp] theorem interim_frm (tk : Ticket) (st d : Nat) (m : Mach) : (interim tk st d m).frm = m.frm := by
  unfold interim; split <;> (try split) <;> simp
@[simp] theorem interim_objs (tk : Ticket) (st d : Nat) (m : Mach) : (interim tk st d m).objs = m.objs := by
  unfold interim; split <;> (try split) <;> simp
@[simp] theorem interim_rend (tk : Ticket) (st d : Nat) (m : Mach) : (interim tk st d m).rend = m.rend := by
  unfold interim; split <;> (try split) <;> simp
@[simp] theorem interim_vote (tk : Ticket) (st d : Nat) (m : Mach) : (interim tk st d m).vote = m.vote := by
  unfold interim; split <;> (try split) <;> simp
@[simp] theorem interim_cor (tk : Ticket) (st d : Nat) (m : Mach) : (interim tk st d m).cor = m.cor := by
  unfold interim; split <;> (try split) <;> simp
@[simp] theorem interim_icom (tk : Ticket) (st d : Nat) (m : Mach) : (interim tk st d m).icom = m.icom := by
  unfold interim; split <;> (try split) <;> simp
@[simp] theorem interim_sap (tk : Ticket) (st d : Nat) (m : Mach) : (interim tk st d m).sap = m.sap := by
  unfold interim; split <;> (try split) <;> simp
@[simp] theorem interim_pwr (tk : Ticket) (st d : Nat) (m : Mach) : (interim tk st d m).pwr = m.pwr := by
  unfold interim; split <;> (try split) <;> simp
@[simp] theorem interim_ann (tk : Ticket) (st d : Nat) (m : Mach) : (interim tk st d m).ann = m.ann := by
  unfold interim; split <;> (try split) <;> simp
@[simp] theorem interim_sec (tk : Ticket) (st d : Nat) (m : Mach) : (interim tk st d m).sec = m.sec := by
  unfold interim; split <;> (try split) <;> simp
@[simp] theorem interim_dom (tk : Ticket) (st d : Nat) (m : Mach) : (interim tk st d m).dom = m.dom := by
  unfold interim; split <;> (try split) <;> simp
@[simp] theorem interim_gpio (tk : Ticket) (st d : Nat) (m : Mach) : (interim tk st d m).gpio = m.gpio := by
  unfold interim; split <;> (try split) <;> simp
@[simp] theorem interim_sys (tk : Ticket) (st d : Nat) (m : Mach) : (interim tk st d m).sys = m.sys := by
  unfold interim; split <;> (try split) <;> simp
@[simp] theorem interim_setup (tk : Ticket) (st d : Nat) (m : Mach) : (interim tk st d m).setup = m.setup := by
  unfold interim; split <;> (try split) <;> simp

theorem rd_final (tk : Ticket) (st : Nat) (m : Mach) (f : Fld) : rd (final tk st m) f = rd m f := rd_congr _ _ _ (by simp)
theorem rd_finalWith (tk : Ticket) (st addr : Nat) (res : Pay) (m : Mach) (f : Fld) : rd (finalWith tk st addr res m) f = rd m f :=
  rd_congr _ _ _ (by simp)

/-! Sparse tables of ports, objects, contexts. -/

/-- A device that is not held in reset does what its command says. -/
theorem onMach_awake (f : Mach → Mach) (s : State) (h : s.m.sys.held = none) : onMach f s = .next { s with m := f s.m } := by
  simp [onMach, h]

/-- A device that is held in reset does nothing. -/
theorem onMach_held (f : Mach → Mach) (s : State) (c : Nat) (h : s.m.sys.held = some c) : onMach f s = .next s := by
  simp [onMach, h]

/-- Every meaning over the machine answers a next state and leaves the queue. -/
theorem onMach_next (f : Mach → Mach) (s : State) : ∃ t, onMach f s = .next t ∧ t.pending = s.pending := ⟨_, rfl, rfl⟩

theorem onPins_next (f : Mach → Mach) (s : State) : ∃ t, onPins f s = .next t ∧ t.pending = s.pending := ⟨_, rfl, rfl⟩

end Sys2Proof.Machine
end

