-- ==== Sys2Proof/Laws/Admit.lean ====
section
/-! SUPPORT. What admission does with a command that nothing refuses, and where events and completions appear. -/
namespace Sys2Proof.Machine

@[simp] theorem reserve_regs (c : Cmd) (m : Mach) : (reserve c m).regs = m.regs := by unfold reserve; split <;> rfl
@[simp] theorem reserve_deal (c : Cmd) (m : Mach) : (reserve c m).deal = m.deal := by unfold reserve; split <;> rfl
@[simp] theorem reserve_ticks (c : Cmd) (m : Mach) : (reserve c m).ticks = m.ticks := by unfold reserve; split <;> rfl
@[simp] theorem reserve_out (c : Cmd) (m : Mach) : (reserve c m).out = m.out := by unfold reserve; split <;> rfl
@[simp] theorem reserve_fresh (c : Cmd) (m : Mach) : (reserve c m).fresh = m.fresh := by unfold reserve; split <;> rfl
@[simp] theorem reserve_clk (c : Cmd) (m : Mach) : (reserve c m).clk = m.clk := by unfold reserve; split <;> rfl
@[simp] theorem reserve_tim (c : Cmd) (m : Mach) : (reserve c m).tim = m.tim := by unfold reserve; split <;> rfl
@[simp] theorem reserve_tic (c : Cmd) (m : Mach) : (reserve c m).tic = m.tic := by unfold reserve; split <;> rfl
@[simp] theorem reserve_ring (c : Cmd) (m : Mach) : (reserve c m).ring = m.ring := by unfold reserve; split <;> rfl
@[simp] theorem reserve_str (c : Cmd) (m : Mach) : (reserve c m).str = m.str := by unfold reserve; split <;> rfl
@[simp] theorem reserve_dk (c : Cmd) (m : Mach) : (reserve c m).dk = m.dk := by unfold reserve; split <;> rfl
@[simp] theorem reserve_frm (c : Cmd) (m : Mach) : (reserve c m).frm = m.frm := by unfold reserve; split <;> rfl
@[simp] theorem reserve_objs (c : Cmd) (m : Mach) : (reserve c m).objs = m.objs := by unfold reserve; split <;> rfl
@[simp] theorem reserve_rend (c : Cmd) (m : Mach) : (reserve c m).rend = m.rend := by unfold reserve; split <;> rfl
@[simp] theorem reserve_vote (c : Cmd) (m : Mach) : (reserve c m).vote = m.vote := by unfold reserve; split <;> rfl
@[simp] theorem reserve_cor (c : Cmd) (m : Mach) : (reserve c m).cor = m.cor := by unfold reserve; split <;> rfl
@[simp] theorem reserve_icom (c : Cmd) (m : Mach) : (reserve c m).icom = m.icom := by unfold reserve; split <;> rfl
@[simp] theorem reserve_sap (c : Cmd) (m : Mach) : (reserve c m).sap = m.sap := by unfold reserve; split <;> rfl
@[simp] theorem reserve_pwr (c : Cmd) (m : Mach) : (reserve c m).pwr = m.pwr := by unfold reserve; split <;> rfl
@[simp] theorem reserve_ann (c : Cmd) (m : Mach) : (reserve c m).ann = m.ann := by unfold reserve; split <;> rfl
@[simp] theorem reserve_sec (c : Cmd) (m : Mach) : (reserve c m).sec = m.sec := by unfold reserve; split <;> rfl
@[simp] theorem reserve_dom (c : Cmd) (m : Mach) : (reserve c m).dom = m.dom := by unfold reserve; split <;> rfl
@[simp] theorem reserve_gpio (c : Cmd) (m : Mach) : (reserve c m).gpio = m.gpio := by unfold reserve; split <;> rfl
@[simp] theorem reserve_sys (c : Cmd) (m : Mach) : (reserve c m).sys = m.sys := by unfold reserve; split <;> rfl
@[simp] theorem reserve_setup (c : Cmd) (m : Mach) : (reserve c m).setup = m.setup := by unfold reserve; split <;> rfl
@[simp] theorem reserve_epoch (c : Cmd) (m : Mach) : (reserve c m).hif.epoch = m.hif.epoch := by unfold reserve; split <;> rfl
@[simp] theorem reserve_lat (c : Cmd) (m : Mach) : (reserve c m).hif.lat = m.hif.lat := by unfold reserve; split <;> rfl
@[simp] theorem reserve_heldq (c : Cmd) (m : Mach) : (reserve c m).hif.held = m.hif.held := by unfold reserve; split <;> rfl

/-- The ticket of a command that is applied at this boundary. -/
def nowTicket (op : Nat) (c : Cmd) (m : Mach) : Ticket :=
  { src := c.src, tag := c.tag, op := op, eff := m.deal, epoch := m.hif.epoch, interim := false, irq := Cmd_irqNow c }

theorem forSelf_of (c : Cmd) (m : Mach) (h : c.target = 0xFFFE ∨ (c.target ≤ 1023 ∧ member m = true ∧ c.target = ownSeat m)) :
    forSelf m c = true := by
  rcases h with h | ⟨-, h1, h2⟩ <;> simp [forSelf, *]

theorem target_ok (op : Nat) (c : Cmd) (m : Mach) (h : c.target = 0xFFFE ∨ (c.target ≤ 1023 ∧ member m = true ∧ c.target = ownSeat m)) :
    (decide (c.target ≤ 1023) || c.target == 0xFFFE || (c.target == 0xFFFF && allSeatsOp op)) = true := by
  rcases h with h | ⟨h, -, -⟩ <;> simp [h]

@[simp] theorem member_reserve (c : Cmd) (m : Mach) : member (reserve c m) = member m := by simp [member, ownSeat, rd]
@[simp] theorem ownSeat_reserve (c : Cmd) (m : Mach) : ownSeat (reserve c m) = ownSeat m := by simp [ownSeat, rd]

/-- The header of a command that nothing refuses. -/
theorem header_ok (op : Nat) (c : Cmd) (m : Mach) (hf : c.flags < 16) (hr : c.rsvd = 0)
    (h : c.target = 0xFFFE ∨ (c.target ≤ 1023 ∧ member m = true ∧ c.target = ownSeat m)) :
    (decide (16 ≤ c.flags) || c.rsvd != 0 || !(decide (c.target ≤ 1023) || c.target == 0xFFFE || (c.target == 0xFFFF && allSeatsOp op))) = false := by
  have := target_ok op c m h
  simp only [this, hr]
  simp; omega

/-- A plain command is applied at this boundary. -/
theorem hostRow_plain (op : Nat) (eff : Eff) (c : Cmd) (m : Mach) (h : Plain op c m) (hcut : op = 0x0102 → cutArgsOk c = true) :
    hostRow op eff c m = runEff eff ⟨c, nowTicket op c m⟩ (reserve c m) := by
  obtain ⟨-, hf, hs, ht, hr, hd, hself, hsg, hrs, hl⟩ := h
  have hm : forSelf (reserve c m) c = true := forSelf_of c _ (by simpa using hself)
  have hc : ¬ (op = 0x0102 ∧ (!cutArgsOk c) = true) := by rintro ⟨h1, h2⟩; simp [hcut h1] at h2
  simp only [hostRow, admitCmd, header_ok op c m hf hr hself]
  rw [if_neg (by simp), if_neg (by simp [hrs]), if_neg (by simpa using hc)]
  simp only [hsg, hd, hm, ht, takeHere, checked, carriesEnv, hs, accept, ticket, applyHeld, zoneLatched,
    nowTicket, reserve_deal, reserve_epoch, reserve_ann, Bool.false_and, Bool.not_true, Bool.false_or, bne_self_eq_false, if_true,
    Nat.max_self, Nat.le_refl, Bool.false_eq_true]
  by_cases hlo : latchedOp op = true
  · simp [hlo, hl hlo]
  · simp [hlo]

@[simp] theorem stage1_reserve (op : Nat) (c : Cmd) (m : Mach) : stage1 op c (reserve c m) = stage1 op c m := by
  simp [stage1, judgingKeys, envTable, envTarget]
@[simp] theorem installInline_deal (op : Nat) (c : Cmd) (m : Mach) : (installInline op c m).deal = m.deal := by
  unfold installInline; split <;> (try split) <;> (try rfl); exact onlyIf_keep (fun m => m.deal) _ _ _ rfl
@[simp] theorem installInline_ann (op : Nat) (c : Cmd) (m : Mach) : (installInline op c m).ann = m.ann := by
  unfold installInline; split <;> (try split) <;> (try rfl); exact onlyIf_keep (fun m => m.ann) _ _ _ rfl
@[simp] theorem installInline_epoch (op : Nat) (c : Cmd) (m : Mach) : (installInline op c m).hif.epoch = m.hif.epoch := by
  unfold installInline; split <;> (try split) <;> (try rfl)
  exact onlyIf_keep (fun m => m.hif.epoch) _ _ _ (by simp [keyEvent])
/-- The keys after an inline key has been taken. -/
theorem installInline_sec (op : Nat) (c : Cmd) (m : Mach) : (installInline op c m).sec = match c.env with
    | some e => if (m.sec.keys == [] && op != 0x0C02) = true then { m.sec with keys := judgingKeys op c e m } else m.sec
    | none => m.sec := by
  cases he : c.env with
  | none => simp [installInline, he]
  | some e =>
    simp only [installInline, he]
    split
    · exact onlyIf_keep (fun m => m.sec) _ (keyEvent 2 0 _ _) _ rfl
    · rfl
/-- The last checks read the deal and the keys alone. -/
theorem stage2_congr (op : Nat) (c : Cmd) (m n : Mach) (hs : n.sec = m.sec) (hd : n.deal = m.deal) : stage2 op c n = stage2 op c m := by
  simp [stage2, judgingKeys, hs, hd]
theorem stage2_installInline_reserve (op : Nat) (c : Cmd) (m : Mach) :
    stage2 op c (installInline op c (reserve c m)) = stage2 op c (installInline op c m) :=
  stage2_congr _ _ _ _ (by simp [installInline_sec, judgingKeys]) (by simp)

/-- A signed command that passes every check is applied at this boundary, its COUNTER recorded. -/
theorem hostRow_signed (op : Nat) (eff : Eff) (c : Cmd) (m : Mach) (h : Signed op c m) :
    hostRow op eff c m = runEff eff ⟨c, nowTicket op c m⟩ (recordCounter c (installInline op c (reserve c m))) := by
  obtain ⟨-, hf, hs, ht, hr, hd, hself, hsg, hrs, hb, h1, h2⟩ := h
  have hm : forSelf (reserve c m) c = true := forSelf_of c _ (by simpa using hself)
  have hc : ¬ (op = 0x0102 ∧ (!cutArgsOk c) = true) := by
    rintro ⟨h3, -⟩; subst h3; rcases hsg with h | h <;> revert h <;> decide
  have hbr : bufOk c false (reserve c m) = true := by
    unfold bufOk at *; simpa using hb
  have hce : carriesEnv op c = true := by
    unfold carriesEnv; rw [hs]; rcases hsg with h | h <;> simp [h]
  simp only [hostRow, admitCmd, header_ok op c m hf hr hself]
  rw [if_neg (by simp), if_neg (by simp [hrs]), if_neg (by simpa using hc), if_neg (by simp [hs]), if_neg (by simp [hd]), if_neg (by simp [hm, ht])]
  simp [takeHere, checked, hce, hbr, h1, accept, ticket, hd, applyHeld, hs, h2, nowTicket, stage2_installInline_reserve]

/-- A command that is applied: its effect, then its completion where the verdict names one. -/
theorem runEff_ok (eff : Eff) (h : Held) (m : Mach) :
    runEff eff h m = match (eff h.cmd h.tk m).2.st with
      | none => (eff h.cmd h.tk m).1
      | some st => finalWith h.tk (if st = stDone then doneOrLate h.tk (eff h.cmd h.tk m).1 else st) (bufAddr h.cmd) (eff h.cmd h.tk m).2.res
          (eff h.cmd h.tk m).1 := rfl

/-! Events and completions in the output. -/

theorem newOut_mono (m n p : Mach) (o : Out) (h : NewOut m n o) (hs : ∃ l, p.out = l ++ n.out) : NewOut m p o := by
  obtain ⟨l, hl, hm⟩ := h
  obtain ⟨k, hk⟩ := hs
  exact ⟨k ++ l, by simp [hk, hl], by simp [hm]⟩

theorem newOut_congr (m m' n : Mach) (o : Out) (h : NewOut m n o) (hs : m.out = m'.out) : NewOut m' n o := by
  obtain ⟨l, hl, hm⟩ := h
  exact ⟨l, by rw [hl, hs], hm⟩

theorem newOut_here (m n : Mach) (l : List Out) (o : Out) (h : n.out = l ++ m.out) (ho : o ∈ l) : NewOut m n o := ⟨l, h, ho⟩

/-- The records of a packet are among what a post writes. -/
theorem mem_evPost (fuel e src : Nat) (l : List FifoEntry) (deal seat : Nat) (h : Hif) (o : Out) (ho : o ∈ evOut e src seat l h) :
    o ∈ (evPost fuel e src l deal seat h).2 := by
  cases fuel with
  | zero => exact ho
  | succ n =>
    simp only [evPost]
    split
    · exact List.mem_append_right _ ho
    · exact ho

/-- One record of an event goes to its ring. -/
theorem mem_evOut (e src seat : Nat) (x : FifoEntry) (h : Hif) (hs : eqSize h e ≠ 0) :
    ∃ idx r, Out.record e idx r ∈ evOut e src seat [x] h ∧ r.code = x.code ∧ r.src = src := by
  refine ⟨add32 (mget 0 h.eqProd e) 0,
    { code := x.code, src := src, flags := b2n (decide (0 + 1 < [x].length)) + 2 * b2n (decide (0 = 0)), seat := seat,
      seq := add32 (mget 0 h.eqProd e) 0 % 2 ^ 16, deal := x.deal, pay := x.pay }, ?_, rfl, rfl⟩
  simp [evOut, recordOut, hs]

/-- An event that is raised is reported. -/
theorem raise_reported (src code : Nat) (pay : Pay) (m : Mach) : Reported src code m (raise src code pay m) := by
  intro hr he
  obtain ⟨idx, r, hm, hc, hs⟩ := mem_evOut (evRing src m.hif) src (ownSeat m) { deal := m.deal, code := code, pay := pay } m.hif he
  refine ⟨evRing src m.hif, idx, r, ⟨(evPost 8 (evRing src m.hif) src [{ deal := m.deal, code := code, pay := pay }] m.deal (ownSeat m) m.hif).2, ?_, ?_⟩, hc, hs⟩
  · simp [raise, raiseAt, writeRecords, writeTo, hr]
  · exact mem_evPost _ _ _ _ _ _ _ _ hm

/-- An event raised on a machine that differs only elsewhere. -/
theorem reported_from (src code : Nat) (pay : Pay) (m n : Mach) (hh : n.hif = m.hif) (hr : running n = running m) (ho : n.out = m.out) :
    Reported src code m (raise src code pay n) := by
  intro h1 h2
  obtain ⟨ring, idx, r, hn, hc⟩ := raise_reported src code pay n (by rw [hr]; exact h1) (by rw [hh]; exact h2)
  exact ⟨ring, idx, r, newOut_congr _ _ _ _ hn ho, hc⟩

/-- What comes after an event leaves it reported. -/
theorem reported_then (src code : Nat) (m n p : Mach) (h : Reported src code m n) (hs : ∃ l, p.out = l ++ n.out) : Reported src code m p := by
  intro h1 h2
  obtain ⟨ring, idx, r, hn, hc⟩ := h h1 h2
  exact ⟨ring, idx, r, newOut_mono _ _ _ _ hn hs, hc⟩

/-- A raised event only adds to the output. -/
theorem raise_out (src code : Nat) (pay : Pay) (m : Mach) : ∃ l, (raise src code pay m).out = l ++ m.out := by
  unfold raise raiseAt writeRecords writeTo
  by_cases h : running m = true
  · exact ⟨_, by simp [h]; rfl⟩
  · exact ⟨[], by simp [h]⟩

/-- The final completion of a local command. -/
theorem final_completed (op st : Nat) (c : Cmd) (m n : Mach) (tk : Ticket) (hsrc : tk.src = c.src) (hop : tk.op = op) (htag : tk.tag = c.tag)
    (hep : tk.epoch = n.hif.epoch) (hr : running n = running m) (ho : n.out = m.out) (hd : n.deal = m.deal) :
    Completed op st c m (final tk st n) := by
  intro h1 q hq
  refine ⟨cqOf n q, mget 0 n.hif.cqProd (cqOf n q) % 2 ^ 32, [_], ?_, List.mem_singleton.mpr rfl⟩
  rw [hq] at hsrc
  have hl : live tk n = true := by simp [live, hr, h1, hep]
  simp [final, completeWith, hsrc, hl, ho, htag, hop, hd]

/-- A machine meaning on a device that is not held. -/
theorem answers_mach (i : Instr) (s : State) (f : Mach → Mach) (P : Mach → Prop) (h : exec i s = onMach f s) (ha : Awake s) (hp : P (f s.m)) :
    Answers i s P := ⟨{ s with m := f s.m }, by rw [h, onMach_awake f s ha], rfl, hp⟩

/-- The completion of a local command without result data. -/
theorem finalWith_ring_nil (tk : Ticket) (st addr : Nat) (m : Mach) (q : Nat) (h : tk.src = .ring q) : finalWith tk st addr [] m = final tk st m := by
  simp [finalWith, h]

/-- A plain command whose effect gives a status and no result data: the machine after the effect, and the final completion. -/
theorem plain_status (op st : Nat) (eff : Eff) (c : Cmd) (m n : Mach) (hp : Plain op c m) (hc : op = 0x0102 → cutArgsOk c = true)
    (hn : eff c (nowTicket op c m) (reserve c m) = (n, { st := some st })) (hd : n.deal = m.deal) :
    hostRow op eff c m = final (nowTicket op c m) st n := by
  obtain ⟨q, hq⟩ := hp.1
  rw [hostRow_plain _ _ _ _ hp hc, runEff_ok]
  simp only [hn]
  rw [finalWith_ring_nil _ _ _ _ q hq]
  simp [doneOrLate, nowTicket, hd, stDone]
  by_cases h0 : st = 0 <;> simp [h0]

/-- A plain command that completes later, or has completed itself. -/
theorem plain_silent (op : Nat) (eff : Eff) (c : Cmd) (m n : Mach) (hp : Plain op c m) (hc : op = 0x0102 → cutArgsOk c = true)
    (hn : eff c (nowTicket op c m) (reserve c m) = (n, { st := none })) : hostRow op eff c m = n := by
  rw [hostRow_plain _ _ _ _ hp hc, runEff_ok]
  simp only [hn]

/-- A plain query: its result data and its completion. -/
theorem plain_result (op : Nat) (eff : Eff) (c : Cmd) (m n : Mach) (res : Pay) (hp : Plain op c m) (hc : op = 0x0102 → cutArgsOk c = true)
    (hn : eff c (nowTicket op c m) (reserve c m) = (n, { res := res })) (hd : n.deal = m.deal) :
    hostRow op eff c m = finalWith (nowTicket op c m) stDone (bufAddr c) res n := by
  rw [hostRow_plain _ _ _ _ hp hc, runEff_ok]
  simp only [hn]
  simp [doneOrLate, nowTicket, hd, stDone]

/-- The result data of a local query leave by DMA. -/
theorem finalWith_dma (op st addr : Nat) (c : Cmd) (m n : Mach) (res : Pay) (q : Nat) (hq : c.src = .ring q) (hres : res ≠ [])
    (hr : running n = true) (he : n.hif.epoch = m.hif.epoch) (ho : n.out = m.out) :
    NewOut m (finalWith (nowTicket op c m) st addr res n) (.dma addr res) := by
  have hl : live (nowTicket op c m) n = true := by simp [live, nowTicket, hr, he]
  have hl2 : ∀ o, live (nowTicket op c m) { n with out := o } = true := by
    intro o; simpa [live, running, rd] using hl
  refine ⟨[.completion (cqOf n q) (mget 0 n.hif.cqProd (cqOf n q) % 2 ^ 32) c.tag op st n.deal, .dma addr res], ?_, by simp⟩
  simp [finalWith, nowTicket, hq, final, completeWith]
  simp [nowTicket, hq] at hl hl2
  simp [hl, hl2, hres, ho, cqOf, lat]

theorem running_congr (m n : Mach) (h : n.regs = m.regs) : running n = running m := by simp [running, rd, h]

end Sys2Proof.Machine
end

