-- ==== Sys2Proof/Tests/Slice0.lean ====
section
/-! SUPPORT. The package's own tests: ill-formed commands that the check refuses, single steps on small machines, and for every statement
with hypotheses a state and operands that meet them. -/
namespace Sys2Proof.Tests
open Machine
set_option Elab.async false

/-! Small machines. -/

/-- The register store after reset with some fields at other values, each given with its repetition. -/
def regsWith (l : List (Fld × Nat × Nat)) : SMap Nat := l.foldl (fun t q => rsetij q.1 q.2.1 0 q.2.2 t) resetRegs

/-- The set-up of a host with submission ring 0, completion ring 0 and event ring 0 at address 0, and window 0 of 2 MiB. -/
def setUp : SMap Nat :=
  [(F.HIF_SQ_SIZE_LOG2, 4), (F.HIF_CQ_SIZE_LOG2, 4), (F.HIF_EQ_SIZE_LOG2, 6), (F.HIF_WIN_SIZE_PAGES, 512), (F.HIF_WIN_CTRL_READ, 1), (F.HIF_WIN_CTRL_WRITE, 1)].foldl
    (fun t q => rsetij q.1 0 0 q.2 t) []

/-- The interface of that host, running. -/
def hifUp : Hif := { lat := setUp }

/-- The registers of a device whose interface runs, with some fields at other values. -/
def regsUp (l : List (Fld × Nat × Nat)) : SMap Nat := regsWith ((F.HIF_STATUS_RUNNING, 0, 1) :: (F.HIF_CTRL_ENABLE, 0, 1) :: l)

/-- A machine at deal 1000 with a running interface, whose registers were the same at the last boundary. -/
def up (l : List (Fld × Nat × Nat)) : Mach := { deal := 1000, ticks := 1000, regs := regsUp l, setup := regsUp l, hif := hifUp }

/-- That machine with an empty queue. -/
def st (m : Mach) : State := ⟨m, []⟩

/-- The number that fields given as offset and value make of a descriptor's payload. -/
def payNum (l : List (Nat × Nat)) : Nat := (l.map (fun q => q.2 * 256 ^ (q.1 - 24))).sum

/-- A command with payload fields given as offset and value. -/
def cmd (l : List (Nat × Nat)) : Cmd := { tag := 7, pay := leBytes 40 (payNum l) }

/-- A command with a host buffer at address 0x1000 of n bytes. -/
def cmdBuf (n : Nat) (b : Buf) (l : List (Nat × Nat)) : Cmd := { cmd ((40, 0x1000) :: (48, n) :: l) with buf := b }

/-! The hypotheses of an admitted command, as a check. -/

/-- A command from a submission ring. -/
def fromRing (c : Cmd) : Bool := match c.src with | .ring _ => true | _ => false

theorem fromRing_src {c : Cmd} (h : fromRing c = true) : ∃ q, c.src = .ring q := by
  unfold fromRing at h; split at h
  · exact ⟨_, ‹_›⟩
  · cases h

theorem plain_of {op : Nat} {c : Cmd} {m : Mach} (h : fromRing c = true ∧ c.flags < 16 ∧ Cmd_signed c = false ∧ Cmd_tunnel c = false ∧
    c.rsvd = 0 ∧ c.deal = 0 ∧ (c.target = 0xFFFE ∨ (c.target ≤ 1023 ∧ member m = true ∧ c.target = ownSeat m)) ∧ signedOp op = false ∧
    reservedOk op c = true ∧ (latchedOp op = true → m.ann.latch = [])) : Plain op c m := ⟨fromRing_src h.1, h.2⟩

theorem signed_of {op : Nat} {c : Cmd} {m : Mach} (h : fromRing c = true ∧ c.flags < 16 ∧ Cmd_signed c = true ∧ Cmd_tunnel c = false ∧
    c.rsvd = 0 ∧ c.deal = 0 ∧ (c.target = 0xFFFE ∨ (c.target ≤ 1023 ∧ member m = true ∧ c.target = ownSeat m)) ∧
    (signedOp op = true ∨ latchedOp op = true) ∧ reservedOk op c = true ∧ bufOk c false m = true ∧ stage1 op c m = 0 ∧
    stage2 op c (installInline op c m) = 0) : Signed op c m := ⟨fromRing_src h.1, h.2⟩

/-! Pieces of the witnesses. -/

def img (op len : Nat) : DeckImg := { magic := imageMagic op, rate := 0, kind := if op = 0x0101 then 0 else 1, digest := 77, base := 0, length := len, group := 1, signer := 5, sections := [1], sigOk := true, hashOk := true, body := {} }
def keyed (l : List (Fld × Nat × Nat)) : Mach := { up l with sec := { deckKeys := [5] } }
def ticket (op : Nat) : Ticket := { src := .ring 0, tag := 7, op := op, eff := 999, epoch := 0, interim := true, irq := false }
def staging (r : Nat) : Staging := { h := ⟨cmdBuf 512 (.deck (img 0x0101 512)) [], ticket 0x0101⟩, deck := { digest := 77 }, reason := r, base := none, start := 990, signer := 5 }
def stOn (l : List (Fld × Nat × Nat)) (r : RingSt) : State := st { up l with ring := r }
def rst (k e : Nat) : RingStatus := { kind := k, cause := 2, a := ⟨3, 0⟩, b := none, eff := e }
def fastRun (c : RingSt) : State := stOn [(F.RING_CTRL_ENABLE, 0, 1), (F.RING_STATE_INS, 0, 2), (F.RING_PORT_STAT_LINK, 1, 1)] c
def fr (o h : Nat) : RingFrame := { origin := o, hopsLeft := h, dual := true, epoch := 0, toMe := true, pcp := 5, len := 200, ident := 9, now := 125000500, pn := 9 }
def lf0 : LocalFrame := { toMe := true, reservedGroup := true, pcp := 7, len := 0, ident := 0, now := 0 }
def qf : QFrame := { tc := 7, len := 300, tokens := 2, transit := true, poisoned := false, ident := 4 }
def stClk (l : List (Fld × Nat × Nat)) (k : Clk) : State := st { up l with clk := k }
def ramp1 : Cmd := cmdBuf 16 (.bytes (leBytes 4 300000 ++ leBytes 4 8 ++ leBytes 8 1)) [(24, 7), (25, 23), (26, 1)]
/-- A port whose launch queue holds two frames, and one whose gate list is to change. -/
def launching : State := st { up [(F.RING_PORT_CFG_EN, 3, 1), (F.TIM_LAUNCH_LATE_NS, 0, 1000)] with tim := { ns := 125000000, queues := [(7, [⟨125000000, 6, 200, 8, none⟩, ⟨126000000, 6, 200, 9, none⟩])] } }
def gating : State := st { up [(F.RING_TAS_CTRL_PENDING, 2, 1), (F.RING_TAS_CTRL_ADMIN_LEN, 2, 2), (F.RING_TAS_CYCLE_NS, 2, 5000)] with ring := { changeAt := [(2, 1000)], gcl := [(512, (255, 1000)), (513, (1, 4000))] }, tim := { ns := 125000000 } }
def stTim (l : List (Fld × Nat × Nat)) (t : Tim) : State := st { up l with tim := t }
def mk0 : MarkerIn := { sender := 5, tableId := 0, deal := 1000, epoch := 0, flags := 0, ins := 5, mgr := 9, srcSeat := 7, gen := 3, hops := 2, origin := 65536, corr := 0, txPrev := 5, rxPrev := 6, ingress := 70000 }
def stTic (l : List (Fld × Nat × Nat)) (t : Tic) : State := st { up ((F.TIC_CTRL_ENABLE, 0, 1) :: l) with tic := t }
def stSap (l : List (Fld × Nat × Nat)) (x : SapSt) : State := st { up l with sap := x }
def stStr (l : List (Fld × Nat × Nat)) (x : Str) : State := st { up ((F.TIM_STATE_EVER_LOCKED, 0, 1) :: l) with str := x }
def openAaf : Cmd := cmd [(24, 1023), (26, 0), (27, 0), (28, 0), (29, 8), (30, 2), (31, 0), (36, 2), (40, 0x1122334455667788), (48, 0x91E0F0000001)]
def lis0 : Stream := { isOpen := true, kind := 0, port := 0, ch := 1, fmt := 2, p := 1, depth := 2, id := 5, dest := 9, last := [0] }
def pkt0 : StreamPkt := { port := 1, rtp := false, id := 5, dest := 9, ver := 0, fmt := 2, chans := 1, depth := 32, len := 24, seq := 4, stamp := 1000, frames := [[1], [2], [3], [4], [5], [6]], ns := 125000000 }
def spk1 : SpkEnt := { x := 0, y := 256, z := 0, az := 0, el := 0, slot := 9, modes := 3, present := true, delayTrim := 0, gainTrim := 2 ^ 30, zones := 0 }
def measDeck : Deck := { digest := 3, body := { nodes := [{ ix := 1, typ := 0x0F, id := 1, cluster := 0, ins := [9], outs := [10], pset := 1 }], roles := [(20, 2)], speakers := some { cx := 0, cy := 0, cz := 0, speed := 343, ents := [spk1], tris := [] } } }
def measCmd : Cmd := cmdBuf 8192 (.bytes (leBytes 32 0 ++ leBytes 16 20 ++ leBytes 16 0)) [(24, 1), (25, 1), (26, 1), (28, 13), (29, 1), (36, 10)]
def meas0 : Meas := { h := ⟨measCmd, { src := .ring 0, tag := 7, op := 0x0302, eff := 900, epoch := 0, interim := true, irq := false }⟩, ents := [0], mics := [20], blocks := [0, 1, 2], st := 2 }
def kern : Deck := { digest := 3, body := { nodes := [{ ix := 6, typ := 0x12, id := 1, cluster := 15, ins := [], outs := [10], pset := 1 }] } }
def brDeck : Deck := { digest := 3, body := { nodes := [{ ix := 6, typ := 0x11, id := 1, cluster := 15, ins := [], outs := [10], pset := 1 }], psets := [(1, .bridge 127 1 0)] } }
def msg0 : Msg := { kind := 1, cls := 4, flags := 0, reps := 1, gain := 2 ^ 30, limit := 0, slot := 0, wait := 0, zones := [2], steps := [5] }
def clip0 : Clip := { ser := 1, rate := 5, wide := false, data := leBytes 2 0 }
def stAnn (l : List (Fld × Nat × Nat)) (x : Ann) : State := st { up l with ann := x }
def wr0 : ClipWrite := { h := ⟨cmdBuf 2 (.bytes (leBytes 2 9)) [(24, 4095), (27, 5)], { src := .ring 0, tag := 7, op := 0x0701, eff := 900, epoch := 0, interim := true, irq := false }⟩, clip := clip0, start := 900 }
def msgRec : List Byte := leBytes 20 (1023 + 1 * 2 ^ 16 + 4 * 2 ^ 24 + 1 * 2 ^ 48) ++ leBytes 32 4 ++ leBytes 2 4 ++ List.replicate 30 0xFF#8 ++ leBytes 12 0
def schRec : List Byte := leBytes 8 (4095 + 1 * 2 ^ 16 + 1 * 2 ^ 24 + 3 * 2 ^ 32 + 0xFF * 2 ^ 48) ++ leBytes 24 1001
def play0 : Play := { rq := ⟨55, 3, 4, [2], 990, 0, 0⟩, defn := msg0, player := 15, start := 990, zones := [2], segs := [.clip 4 clip0], bridged := false, done := true }
def sch (t : Nat) : Sched := { trig := t, flags := 1, msg := 3, cls := 15, pin := 31, at_ := 1001, period := 5, ofs := 0 }
def rq1 : Req := ⟨0x80000FFF, 3, 4, [2], 990, 2, 131071⟩
def stPin (fl : Nat) : State := st { up [] with gpio := { run := [(31, 8)] }, ann := { msgs := [(3, msg0)], sched := [(4095, { sch 4 with flags := fl })], fired := [4095], waiting := [rq1] } }
def pinUp (t : List Nat) : State :=
  st { up [(F.GPIO_IN_LEVEL, 0, 2 ^ 31)] with gpio := { run := [(31, 7)] }, ann := { msgs := [(3, msg0)], sched := [(4095, sch 4)], trig := t } }
def page0 : Play := { rq := ⟨55, 3, 4, [2], 990, 0, 0⟩, defn := { msg0 with kind := 2, limit := 10, steps := [0xFFFF, 0xFFFF] }, player := 0, start := 990, zones := [2], segs := [.quiet 0, .page 3, .quiet 5], seg := 1, pos := 60, bridged := false }
def pinPlay (p : Play) : State :=
  st { up [] with gpio := { run := [(31, 8)] }, ann := { (stPin 3).m.ann with plays := [(9, { p with rq := rq1 })], players := [(p.player, 9)], holder := [(2, 9)] } }
def latCmd : Cmd := cmdBuf 64 .none [(24, 3), (25, 3), (26, 5), (30, 5)]
def env0 (op : Nat) : Env := { opcode := op, keyId := 5, counter := 2, notAfter := 5000, tableId := 9, target := 0xFFFF, sigOk := true }
def sgn (op n : Nat) (b : Buf) (l : List (Nat × Nat)) : Cmd := { cmdBuf n b l with flags := 4, env := some (env0 op) }
def keys0 : Sec := { keys := [(5, { roles := 31, counter := 1 })], ldev := 44 }
def ent (s : Nat) : RosterEnt := ⟨s, true, 40 + s⟩
def ros (v : Nat) : Roster := { table := 9, version := v, ents := [ent 4, ent 5, ent 6], trio := [4, 5, 0xFFFF], spares := [6] }
def rosBytes : List Byte := leBytes 16 (0x4B52514E + 1 * 2 ^ 32 + 9 * 2 ^ 48 + 2 * 2 ^ 64 + 3 * 2 ^ 96) ++ leBytes 6 (4 + 5 * 2 ^ 16 + 6 * 2 ^ 32) ++ List.replicate 16 0xFF#8 ++ leBytes 26 0 ++ [4, 5, 6].flatMap (fun s => leBytes 16 (s + 1 * 2 ^ 16 + (40 + s) * 2 ^ 64))
def ros2 : Roster := { table := 9, version := 2, ents := [ent 4, ent 5, ent 6], trio := [4, 5, 6], spares := [] }
def stDom (l : List (Fld × Nat × Nat)) (d : Dom) : State := st { up l with sec := keys0, dom := d }
def pkg0 : KeyPkg := { operators := [⟨List.replicate 96 1, 31⟩], decks := [List.replicate 96 2], ringKey := 3, certKey := pairKey 1, wrapOk := true }

/-- That package is well formed for a device that waits for the first key pair. -/
theorem pkg0_ok (m : Mach) (h : m.sec.pend = 1) : pkgOk pkg0 m = true := by simp [pkgOk, pkg0, h]

/-- The bytes of a number read back as that number. -/
theorem foldr_leBytes (n v : Nat) : (leBytes n v).foldr (fun b acc => b.toNat + 256 * acc) 0 = v % 256 ^ n := by
  induction n generalizing v with
  | zero => simp [leBytes, Nat.mod_one]
  | succ n ih => simp [leBytes, ih, Nat.pow_succ, Nat.mul_comm (256 ^ n), Nat.mod_mul]

/-- An admission record: a seat with its role at a roster version, for a candidate of an IDevID, or of none. -/
def admission (seat role ver idev : Nat) : List Byte := leBytes 8 (seat + role * 2 ^ 16 + ver * 2 ^ 32) ++ leBytes 8 idev ++ leBytes 16 47

/-- An admission record of this part names its IDevID. -/
theorem admission_idev (seat role ver : Nat) : leAt (admission seat role ver idevId) 8 8 = idevId := by
  have h : ((admission seat role ver idevId).drop 8).take 8 = leBytes 8 idevId := rfl
  rw [leAt, h, foldr_leBytes]
  exact Nat.mod_eq_of_lt (Nat.mod_lt _ (by decide))

/-- A local port with a CAK and an MKPDU under it, and a ring port that shares ring key 3 with a member. -/
def localMka : State := st { up [(F.RING_PORT_STAT_LINK, 3, 1), (F.RING_PORT_CFG_MACSEC, 3, 1)] with sec := { caks := [(3, 7)] } }
def localIn : MkIn := ⟨8, 48, true, 7, Config.localCak 7, some (3, 9), false⟩
def ringMka : State := st { up [(F.RING_PORT_STAT_LINK, 0, 1), (F.DOM_STATE_SEAT, 0, 4), (F.DOM_TABLE_TABLE_ID, 0, 9), (F.SEC_RING_KEY_NUMBER, 0, 3)] with sec := keys0, dom := { roster := some (ros 1) } }
def ringIn : MkIn := ⟨5, 45, false, ringCkn 9 4 5 3, Config.ringCak 3 4 5, some (1, 3), false⟩

/-- They share their CAKs. -/
theorem localKey : commonKey ringMka.m 0 ringIn = some 3 ∧ commonKey localMka.m 3 localIn = some 0 := by
  have h1 : linkKeys ringMka.m 0 = [3] := by decide +kernel
  have h2 : ownSeat ringMka.m = 4 := by decide +kernel
  have h3 : rd ringMka.m F.DOM_TABLE_TABLE_ID = 9 := by decide +kernel
  have h4 : mfind localMka.m.sec.caks 3 = some 7 := by decide +kernel
  simp [commonKey, h1, h2, h3, h4, ringIn, localIn]

def trioRegs (l : List (Fld × Nat × Nat)) : List (Fld × Nat × Nat) := [(F.DOM_STATE_SEAT, 0, 4), (F.DOM_STATE_TRIO_IDX, 0, 0), (F.DOM_TRIO_SEAT01_SEAT0, 0, 4), (F.DOM_TRIO_SEAT01_SEAT1, 0, 5), (F.DOM_TRIO_SEAT2_SEAT2, 0, 0xFFFF), (F.DOM_STATE_MANAGING, 0, 1), (F.DOM_TRIO_SEAT2_ACTIVE, 0, 4)] ++ l
def copy0 : Copy := { src := 4, idx := some 2, since := 900, lastFrag := 910 }
def stCopy (c : Copy) : State := stDom [(F.DOM_STATE_SEAT, 0, 6), (F.DOM_STATE_TRIO_IDX, 0, 3), (F.DOM_TRIO_SEAT01_SEAT0, 0, 4), (F.DOM_TRIO_SEAT01_SEAT1, 0, 5), (F.DOM_TRIO_SEAT2_SEAT2, 0, 0xFFFF), (F.DOM_COPY_DEALS, 0, 100)] { roster := some (ros 1), copy := some c }
def rot (l : List Byte) : Cmd := sgn 0x0D01 (272 + l.length) (.rotate l true) []
def rot1 : Cmd := rot (leBytes 32 (1 + 1 * 2 ^ 8 + 9 * 2 ^ 32) ++ leBytes 176 4)
def rot2 : Cmd := rot (leBytes 32 (2 + 1 * 2 ^ 8) ++ leBytes 112 (77 + 31 * 2 ^ 72))
def rot3 : Cmd := rot (leBytes 32 (3 + 1 * 2 ^ 8) ++ leBytes 112 (78 + 1 * 2 ^ 64))
def rot4 : Cmd := rot (leBytes 32 (4 + 1 * 2 ^ 8 + 2 * 2 ^ 16 + 9 * 2 ^ 64) ++ leBytes 176 4)
def bimg (s : Nat) : BootImg := { svn := s, sections := 16, length := 512, build := 4, endorseOk := true, sigOk := true }
def fw0 : FwStage := { h := ⟨sgn 0x0D02 784 (.boot (bimg 64)) [], { src := .ring 0, tag := 7, op := 0x0D02, eff := 900, epoch := 0, interim := true, irq := false }⟩, img := bimg 64, start := 900 }
def okRegs : SMap Nat := [(F.HIF_SQ_SIZE_LOG2, 4), (F.HIF_CQ_SIZE_LOG2, 4), (F.HIF_EQ_SIZE_LOG2, 6), (F.HIF_SQ_CTRL_BURST, 1), (F.HIF_CQ_CTRL_COAL_CNT, 1), (F.HIF_EQ_CTRL_COAL_CNT, 1), (F.HIF_WIN_SIZE_PAGES, 512), (F.HIF_WIN_CTRL_READ, 1), (F.HIF_WIN_CTRL_WRITE, 1)].foldl (fun t q => rsetij q.1 0 0 q.2 t) resetRegs
def pollIn : PollIn := { sqProd := List.replicate 16 0, cqCons := List.replicate 16 0, eqCons := List.replicate 8 0, ackSeq := 0, ackMask := 0, descs := List.replicate 16 [] }
def coal (c e : Nat) : Hif := { lat := [(F.HIF_CQ_CTRL_MSIX_EN, c, 1), (F.HIF_CQ_CTRL_COAL_DEALS, c, 8), (F.HIF_CQ_CTRL_VEC, c, 5), (F.HIF_EQ_CTRL_MSIX_EN, e, 1), (F.HIF_EQ_CTRL_COAL_DEALS, e, 8), (F.HIF_EQ_CTRL_VEC, e, 5)].foldl (fun t q => rsetij q.1 q.2.1 0 q.2.2 t) [], cqPend := [(c, 1)], cqFirst := [(c, 992)], eqPend := [(e, 1)], eqFirst := [(e, 992)], msixEn := true, msix := [(23, 0)] }
def entry0 : FifoEntry := { deal := 990, code := 0x0801, pay := [] }
def hold0 : Held := ⟨cmd [(24, 15), (28, 5000), (32, 6000), (36, 7000), (40, 8000)], { src := .ring 0, tag := 7, op := 0x0901, eff := 900, epoch := 0, interim := true, irq := false }⟩
def hheld : Hif := { hifUp with held := [hold0, { hold0 with cmd := { hold0.cmd with src := .tunnel 3 4 5 } }], msixEn := true }
def treq : TunnelReq := { seat := 7, target := 4, tunId := 9, mgrSeq := 0, idx := 0, cnt := 1, whole := ⟨0x0201, { cmd [(24, 3), (32, 1005)] with target := 4, src := .ring 0 }⟩ }
def stSeat (h : Hif) : State := st { up [(F.DOM_STATE_SEAT, 0, 4)] with hif := h }
def sent0 : Sent := { tunId := 9, cmd := { cmd [] with flags := 2, target := 7 }, tk := { src := .ring 0, tag := 7, op := 0x0201, eff := 900, epoch := 0, interim := false, irq := false }, since := 900, waiting := false }
def tolUp (l : List (Fld × Nat × Nat)) : List (Fld × Nat × Nat) := [(F.PWR_TOL_RENDER_US, 0, 5000), (F.PWR_TOL_ICOM_US, 0, 10000), (F.PWR_TOL_ANN_US, 0, 0xFFFFFFFF), (F.PWR_TOL_STREAM_US, 0, 50000), (F.PWR_CTRL_DWELL, 0, 8)] ++ l
def dk3 : Deck := { digest := 3, cutDeal := 100 }
def heldUp (k : Sec) : State := st { up [(F.SYS_RESET_CAUSE_CAUSE, 0, 1)] with sec := k, sys := { held := some 1 } }

/-- A property of the value an option holds, where its check of the option is true. -/
theorem of_all {α : Type} {o : Option α} {P : α → Prop} [DecidablePred P] (h : o.all (fun p => decide (P p)) = true) : ∀ p, o = some p → P p := by
  rintro p rfl; simpa using h

/-! For each statement with hypotheses, states and operands that meet them. -/

/-- States and operands that meet the hypotheses of HeldDeviceDoesNothing. -/
theorem test_meets_held_device_does_nothing :
    (∃ (c : Instr) (s : State) (cause : Nat),
      s.m.sys.held = some cause ∧ reachesHeld c = false) ∧
    (∃ (c : Instr) (s : State) (cause : Nat),
      s.m.sys.held = some cause ∧ reachesHeld c = false) :=
  ⟨⟨.timeLock, st { up [] with sys := { held := some 1 } }, 1,
      (by decide +kernel), (by decide +kernel)⟩,
    ⟨.dealTick {}, heldUp {}, 1,
      (by decide +kernel), (by decide +kernel)⟩⟩

/-- States and operands that meet the hypotheses of ObjSetWrites. -/
theorem test_meets_obj_set_writes :
    (∃ (c : Cmd) (s : State),
      Awake s ∧ Plain 0x0203 c s.m ∧ u16 c 24 < objCount s.m ∧ 0 < u16 c 26 ∧ u16 c 26 < 128 ∧ objSetOk c = true) ∧
    (∃ (c : Cmd) (s : State),
      Awake s ∧ Plain 0x0203 c s.m ∧ u16 c 24 < objCount s.m ∧ 0 < u16 c 26 ∧ u16 c 26 < 128 ∧ objSetOk c = true) :=
  ⟨⟨cmd [(24, 511), (26, 127), (28, 1), (29, 9), (30, 3), (32, 0x7FFFFFFF), (36, 32768), (38, 0x8000), (40, 7), (44, 8), (48, 0xFFFF)], st (up []),
      rfl, plain_of (by decide +kernel), (by decide +kernel), (by decide +kernel), (by decide +kernel), (by decide +kernel)⟩,
    ⟨cmd [(24, 0), (26, 1), (28, 2)], st { up [] with objs := [(0, { queue := [{ t := 70000000, x := 1, y := 1, z := 1 }], state := 1 })] },
      rfl, plain_of (by decide +kernel), (by decide +kernel), (by decide +kernel), (by decide +kernel), (by decide +kernel)⟩⟩

/-- States and operands that meet the hypotheses of TrajPushAddsPoint. -/
theorem test_meets_traj_push_adds_point :
    (∃ (c : Cmd) (s : State),
      let t := u64 c 32 * 65536 + u16 c 28; let x := objOf s.m (u16 c 24); let q := if (u8 c 26).testBit 0 then x.queue.filter (fun p => p.t < t) else x.queue; let late := decide (t ≤ s.m.deal * 65536); let at_ := if late then (s.m.deal + 1) * 65536 else t; let disc := late && q.getLast?.any (fun p => p.late && p.t == at_); let kept := if disc then q.dropLast else q; Awake s ∧ Plain 0x0201 c s.m ∧ u16 c 24 < objCount s.m ∧ u8 c 26 < 8 ∧ (∀ p, kept.getLast? = some p → p.t < t) ∧ q.length < 16) ∧
    (∃ (c : Cmd) (s : State),
      let t := u64 c 32 * 65536 + u16 c 28; let x := objOf s.m (u16 c 24); let q := if (u8 c 26).testBit 0 then x.queue.filter (fun p => p.t < t) else x.queue; let late := decide (t ≤ s.m.deal * 65536); let at_ := if late then (s.m.deal + 1) * 65536 else t; let disc := late && q.getLast?.any (fun p => p.late && p.t == at_); let kept := if disc then q.dropLast else q; Awake s ∧ Plain 0x0201 c s.m ∧ u16 c 24 < objCount s.m ∧ u8 c 26 < 8 ∧ (∀ p, kept.getLast? = some p → p.t < t) ∧ q.length < 16) ∧
    (∃ (c : Cmd) (s : State),
      let t := u64 c 32 * 65536 + u16 c 28; let x := objOf s.m (u16 c 24); let q := if (u8 c 26).testBit 0 then x.queue.filter (fun p => p.t < t) else x.queue; let late := decide (t ≤ s.m.deal * 65536); let at_ := if late then (s.m.deal + 1) * 65536 else t; let disc := late && q.getLast?.any (fun p => p.late && p.t == at_); let kept := if disc then q.dropLast else q; Awake s ∧ Plain 0x0201 c s.m ∧ u16 c 24 < objCount s.m ∧ u8 c 26 < 8 ∧ (∀ p, kept.getLast? = some p → p.t < t) ∧ q.length < 16) :=
  ⟨⟨cmd [(24, 3), (26, 2), (28, 5), (32, 1001), (40, 7), (44, 0xFFFFFFFF)], st (up []),
      rfl, plain_of (by decide +kernel), (by decide +kernel), (by decide +kernel), (of_all (by decide +kernel)), (by decide +kernel)⟩,
    ⟨cmd [(24, 511), (26, 7), (32, 1000)], st { up [] with objs := [(511, { queue := [{ t := 65535000, x := 1, y := 1, z := 1 }], state := 2 })] },
      rfl, plain_of (by decide +kernel), (by decide +kernel), (by decide +kernel), (of_all (by decide +kernel)), (by decide +kernel)⟩,
    ⟨cmd [(24, 3), (28, 0), (32, 1000), (40, 7)], st { up [] with objs := [(3, { queue := [{ t := 65601536, x := 1, y := 1, z := 1, late := true }], state := 1 })] },
      rfl, plain_of (by decide +kernel), (by decide +kernel), (by decide +kernel), (of_all (by decide +kernel)), (by decide +kernel)⟩⟩

/-- States and operands that meet the hypotheses of TrajClearEmpties. -/
theorem test_meets_traj_clear_empties :
    (∃ (c : Cmd) (s : State),
      Awake s ∧ Plain 0x0202 c s.m ∧ u8 c 26 ≤ 1 ∧ ((u16 c 24 < objCount s.m ∨ u16 c 24 = 0xFFFF))) ∧
    (∃ (c : Cmd) (s : State),
      Awake s ∧ Plain 0x0202 c s.m ∧ u8 c 26 ≤ 1 ∧ ((u16 c 24 < objCount s.m ∨ u16 c 24 = 0xFFFF))) ∧
    (∃ (c : Cmd) (s : State),
      Awake s ∧ Plain 0x0202 c s.m ∧ u8 c 26 ≤ 1 ∧ ((u16 c 24 < objCount s.m ∨ u16 c 24 = 0xFFFF))) ∧
    (∃ (c : Cmd) (s : State),
      Awake s ∧ Plain 0x0202 c s.m ∧ u8 c 26 ≤ 1 ∧ ((u16 c 24 < objCount s.m ∨ u16 c 24 = 0xFFFF))) :=
  ⟨⟨cmd [(24, 3), (26, 1)], st { up [] with objs := [(3, { queue := [{ t := 70000000, x := 1, y := 1, z := 1 }], state := 1 })] },
      rfl, plain_of (by decide +kernel), (by decide +kernel), (by decide +kernel)⟩,
    ⟨cmd [(24, 511), (26, 0)], st { up [] with objs := [(511, { queue := [{ t := 70000000, x := 1, y := 1, z := 1 }], state := 1, x := 5 })] },
      rfl, plain_of (by decide +kernel), (by decide +kernel), (by decide +kernel)⟩,
    ⟨cmd [(24, 3), (26, 0)], st { up [] with objs := [(3, { queue := [{ t := 70000000, x := 1, y := 1, z := 1 }] })] },
      rfl, plain_of (by decide +kernel), (by decide +kernel), (by decide +kernel)⟩,
    ⟨cmd [(24, 0xFFFF), (26, 0)], st { up [] with objs := [(3, { queue := [{ t := 70000000, x := 1, y := 1, z := 1 }], state := 2, x := 9 })] },
      rfl, plain_of (by decide +kernel), (by decide +kernel), (by decide +kernel)⟩⟩

/-- States and operands that meet the hypotheses of StagingStarts. -/
theorem test_meets_staging_starts :
    (∃ (i : Instr) (op : Nat) (c : Cmd) (s : State),
      ((i = .deckStage c ∧ op = 0x0101) ∨ (i = .spkLoad c ∧ op = 0x0204) ∨ (i = .corrLoad c ∧ op = 0x0301)) ∧ Awake s ∧ Plain op c s.m ∧ u8 c 24 ≤ 1 ∧ stageFree s.m = true ∧ s.m.dk.held = [] ∧ bufLen c ≠ 0 ∧ (u8 c 24 = 1 → s.m.dk.staged = none) ∧ bufOk c false s.m = true ∧ bufLen c ≤ imageMax op) ∧
    (∃ (i : Instr) (op : Nat) (c : Cmd) (s : State),
      ((i = .deckStage c ∧ op = 0x0101) ∨ (i = .spkLoad c ∧ op = 0x0204) ∨ (i = .corrLoad c ∧ op = 0x0301)) ∧ Awake s ∧ Plain op c s.m ∧ u8 c 24 ≤ 1 ∧ stageFree s.m = true ∧ s.m.dk.held = [] ∧ bufLen c ≠ 0 ∧ (u8 c 24 = 1 → s.m.dk.staged = none) ∧ bufOk c false s.m = true ∧ bufLen c ≤ imageMax op) ∧
    (∃ (i : Instr) (op : Nat) (c : Cmd) (s : State),
      ((i = .deckStage c ∧ op = 0x0101) ∨ (i = .spkLoad c ∧ op = 0x0204) ∨ (i = .corrLoad c ∧ op = 0x0301)) ∧ Awake s ∧ Plain op c s.m ∧ u8 c 24 ≤ 1 ∧ stageFree s.m = true ∧ s.m.dk.held = [] ∧ bufLen c ≠ 0 ∧ (u8 c 24 = 1 → s.m.dk.staged = none) ∧ bufOk c false s.m = true ∧ bufLen c ≤ imageMax op) :=
  ⟨⟨.deckStage (cmdBuf 512 (.deck (img 0x0101 512)) []), 0x0101, cmdBuf 512 (.deck (img 0x0101 512)) [], st (keyed []),
      (by decide +kernel), rfl, plain_of (by decide +kernel), (by decide +kernel), (by decide +kernel), (by decide +kernel), (by decide +kernel), (by decide +kernel), (by decide +kernel), (by decide +kernel)⟩,
    ⟨.spkLoad (cmdBuf 512 (.deck (img 0x0204 512)) [(24, 1)]), 0x0204, cmdBuf 512 (.deck (img 0x0204 512)) [(24, 1)], st (keyed []),
      (by decide +kernel), rfl, plain_of (by decide +kernel), (by decide +kernel), (by decide +kernel), (by decide +kernel), (by decide +kernel), (by decide +kernel), (by decide +kernel), (by decide +kernel)⟩,
    ⟨.corrLoad (cmdBuf 512 (.deck (img 0x0301 512)) []), 0x0301, cmdBuf 512 (.deck (img 0x0301 512)) [], st { keyed [] with dk := { staged := some { digest := 3 } } },
      (by decide +kernel), rfl, plain_of (by decide +kernel), (by decide +kernel), (by decide +kernel), (by decide +kernel), (by decide +kernel), (by decide +kernel), (by decide +kernel), (by decide +kernel)⟩⟩

/-- States and operands that meet the hypotheses of StagingEnds. -/
theorem test_meets_staging_ends :
    (∃ (s : State) (g : Staging),
      Awake s ∧ s.m.dk.sg = some g ∧ g.reason = 0 ∧ folded s.m = false) ∧
    (∃ (s : State) (g : Staging),
      Awake s ∧ s.m.dk.sg = some g ∧ g.reason ≠ 0 ∧ folded s.m = false ∧ s.m.dk.waiting = []) ∧
    (∃ (s : State) (g : Staging),
      Awake s ∧ s.m.dk.sg = some g ∧ g.reason ≠ 0 ∧ folded s.m = false ∧ s.m.dk.waiting = []) ∧
    (∃ (s : State) (h : Held) (l : List Held),
      Awake s ∧ s.m.dk.held = h :: l ∧ stageFree s.m = true ∧ bufLen h.cmd ≠ 0 ∧ (u8 h.cmd 24 = 1 → s.m.dk.staged = none) ∧ bufOk h.cmd false s.m = true ∧ bufLen h.cmd ≤ imageMax h.tk.op) :=
  ⟨⟨st { up [] with dk := { sg := some (staging 0) } }, staging 0,
      rfl, (by decide +kernel), (by decide +kernel), (by decide +kernel)⟩,
    ⟨st { up [] with dk := { sg := some (staging 3) } }, staging 3,
      rfl, (by decide +kernel), (by decide +kernel), (by decide +kernel), (by decide +kernel)⟩,
    ⟨st { up [] with dk := { sg := some (staging 0x80) } }, staging 0x80,
      rfl, (by decide +kernel), (by decide +kernel), (by decide +kernel), (by decide +kernel)⟩,
    ⟨st { keyed [] with dk := { held := [(staging 0).h, (staging 3).h] } }, (staging 0).h, [(staging 3).h],
      rfl, (by decide +kernel), (by decide +kernel), (by decide +kernel), (by decide +kernel), (by decide +kernel), (by decide +kernel)⟩⟩

/-- States and operands that meet the hypotheses of StepThreeActs. -/
theorem test_meets_step_three_acts :
    (∃ (c : Cmd) (s : State) (d : Deck),
      Awake s ∧ Plain 0x0102 c s.m ∧ cutArgsOk c = true ∧ s.m.dk.staged = some d ∧ ((s.m.dk.stBase = none ∨ s.m.dk.stBase = some s.m.dk.live.digest)) ∧ s.m.dk.cuts = [] ∧ s.m.dk.waiting = [] ∧ s.m.dk.renderDue = false ∧ ((u64 c 24 = 0 ∨ u64 c 24 = d.digest)) ∧ ((u32 c 32 = 0 ∨ u32 c 32 = d.group))) ∧
    (∃ (c : Cmd) (s : State) (d : Deck),
      Awake s ∧ Plain 0x0102 c s.m ∧ cutArgsOk c = true ∧ s.m.dk.staged = some d ∧ ((s.m.dk.stBase = none ∨ s.m.dk.stBase = some s.m.dk.live.digest)) ∧ s.m.dk.cuts = [] ∧ s.m.dk.waiting = [] ∧ s.m.dk.renderDue = false ∧ ((u64 c 24 = 0 ∨ u64 c 24 = d.digest)) ∧ ((u32 c 32 = 0 ∨ u32 c 32 = d.group))) ∧
    (∃ (c : Cmd) (s : State),
      Awake s ∧ ((Plain 0x0E01 c s.m ∨ Signed 0x0E01 c s.m))) ∧
    (∃ (c : Cmd) (s : State),
      Awake s ∧ ((Plain 0x0E01 c s.m ∨ Signed 0x0E01 c s.m))) :=
  ⟨⟨cmd [(24, 77)], st { up [] with dk := { staged := some { digest := 77, fade := 96 } } }, { digest := 77, fade := 96 },
      rfl, plain_of (by decide +kernel), (by decide +kernel), (by decide +kernel), (by decide +kernel), (by decide +kernel), (by decide +kernel), (by decide +kernel), (by decide +kernel), (by decide +kernel)⟩,
    ⟨cmd [(32, 5)], st { up [] with dk := { staged := some { digest := 77, group := 5 }, stBase := some 3, live := { digest := 3 } } }, { digest := 77, group := 5 },
      rfl, plain_of (by decide +kernel), (by decide +kernel), (by decide +kernel), (by decide +kernel), (by decide +kernel), (by decide +kernel), (by decide +kernel), (by decide +kernel), (by decide +kernel)⟩,
    ⟨cmd [], st { up [] with dk := { staged := some { digest := 77 }, live := { digest := 3 } }, objs := [(1, { x := 5 })] },
      rfl, (.inl (plain_of (by decide +kernel)))⟩,
    ⟨sgn 0x0E01 272 .none [], st { up [] with dk := { live := { digest := 3 } }, sec := keys0, ann := { latch := [(2, ⟨4, 55, 3⟩)] } },
      rfl, (.inr (signed_of (by decide +kernel)))⟩⟩

/-- States and operands that meet the hypotheses of QueriesAnswer. -/
theorem test_meets_queries_answer :
    (∃ (c : Cmd) (s : State),
      Awake s ∧ bufOk c true s.m = true ∧ Plain 0x0103 c s.m ∧ 64 ≤ bufLen c) ∧
    (∃ (c : Cmd) (s : State),
      let m := reserve c s.m; Awake s ∧ bufOk c true s.m = true ∧ Plain 0x0A01 c s.m ∧ 64 ≤ bufLen c ∧ (pathStarts m (u8 c 24) (u16 c 26) (u16 c 28)).isSome = true ∧ (pathEnds m (u8 c 25) (u16 c 30) (u16 c 32)).isSome = true) ∧
    (∃ (c : Cmd) (s : State) (l : List (Nat × Nat)),
      Awake s ∧ bufOk c true s.m = true ∧ Plain 0x0A02 c s.m ∧ 16 ≤ bufLen c ∧ (countersOf (u8 c 24) (u16 c 26) (reserve c s.m)).1 = some l) ∧
    (∃ (c : Cmd) (s : State),
      Awake s ∧ bufOk c true s.m = true ∧ Plain 0x0A03 c s.m ∧ u8 c 24 ≤ 1 ∧ u8 c 25 ≤ 1 ∧ 64 ≤ bufLen c) ∧
    (∃ (c : Cmd) (s : State),
      Awake s ∧ Plain 0x0B01 c s.m ∧ u8 c 24 ≤ 7 ∧ eqSize s.m.hif (u8 c 24) ≠ 0) :=
  ⟨⟨cmdBuf 64 .none [], st (up []),
      rfl, (by decide +kernel), plain_of (by decide +kernel), (by decide +kernel)⟩,
    ⟨latCmd, st (up []),
      rfl, (by decide +kernel), plain_of (by decide +kernel), (by decide +kernel), (by decide +kernel), (by decide +kernel)⟩,
    ⟨cmdBuf 64 .none [(24, 6)], st (up []), (countersOf 6 0 (up [])).1.getD [],
      rfl, (by decide +kernel), plain_of (by decide +kernel), (by decide +kernel), (by decide +kernel)⟩,
    ⟨cmdBuf 64 .none [(24, 1), (25, 1)], st (up []),
      rfl, (by decide +kernel), plain_of (by decide +kernel), (by decide +kernel), (by decide +kernel), (by decide +kernel)⟩,
    ⟨cmd [(24, 0)], st (up []),
      rfl, plain_of (by decide +kernel), (by decide +kernel), (by decide +kernel)⟩⟩

/-- States and operands that meet the hypotheses of LinksComeAndGo. -/
theorem test_meets_links_come_and_go :
    (∃ (p : Nat) (s : State),
      Awake s ∧ p < 4 ∧ portOn s.m p = true ∧ linkUp s.m p = false ∧ (extPhy s.m p = true → (port s.m p).phy = true)) ∧
    (∃ (p : Nat) (s : State),
      Awake s ∧ p < 4 ∧ portOn s.m p = true ∧ linkUp s.m p = false ∧ (extPhy s.m p = true → (port s.m p).phy = true)) ∧
    (∃ (p : Nat) (s : State),
      Awake s ∧ p < 4 ∧ linkUp s.m p = true) ∧
    (∃ (p : Nat) (s : State),
      Awake s ∧ p < 4 ∧ linkUp s.m p = true) ∧
    (∃ (p : Nat) (s : State) (pma : Nat) (pcs : Nat),
      Awake s ∧ p < 4 ∧ p < 2 ∧ extPhy s.m p = true ∧ (((port s.m p).pollTick = 0 ∨ (port s.m p).pollTick + 8 ≤ s.m.ticks))) ∧
    (∃ (p : Nat) (s : State) (pma : Nat) (pcs : Nat),
      Awake s ∧ p < 4 ∧ p < 2 ∧ extPhy s.m p = true ∧ (((port s.m p).pollTick = 0 ∨ (port s.m p).pollTick + 8 ≤ s.m.ticks))) ∧
    (∃ (p : Nat) (s : State) (pma : Nat) (pcs : Nat),
      Awake s ∧ p < 4 ∧ p < 2 ∧ extPhy s.m p = true ∧ (((port s.m p).pollTick = 0 ∨ (port s.m p).pollTick + 8 ≤ s.m.ticks))) ∧
    (∃ (p : Nat) (s : State),
      Awake s ∧ p < 4 ∧ linkUp s.m p = true ∧ macsecOn s.m p = true ∧ (port s.m p).hello + 8 * rd s.m F.RING_MKA_HELLO_MS ≤ s.m.ticks) ∧
    (∃ (p : Nat) (s : State),
      Awake s ∧ p < 4 ∧ linkUp s.m p = true ∧ macsecOn s.m p = true ∧ (port s.m p).hello + 8 * rd s.m F.RING_MKA_HELLO_MS ≤ s.m.ticks) ∧
    (∃ (p : Nat) (s : State),
      Awake s ∧ p < 4 ∧ secure s.m p = true ∧ (p < 2 → linkUp s.m p = true)) ∧
    (∃ (p : Nat) (s : State),
      Awake s ∧ p < 4 ∧ secure s.m p = true ∧ (p < 2 → linkUp s.m p = true)) :=
  ⟨⟨0, stOn [(F.RING_CTRL_ENABLE, 0, 1), (F.RING_CTRL_EXT_PHY_A, 0, 1)] {},
      rfl, (by decide +kernel), (by decide +kernel), (by decide +kernel), (by decide +kernel)⟩,
    ⟨3, stOn [(F.RING_PORT_CFG_EN, 3, 1)] { ports := [(3, { phy := false })] },
      rfl, (by decide +kernel), (by decide +kernel), (by decide +kernel), (by decide +kernel)⟩,
    ⟨1, stOn [(F.RING_PORT_STAT_LINK, 1, 1), (F.RING_PORT_STAT_SECURE, 1, 1), (F.RING_STATE_INS, 0, 5)] {},
      rfl, (by decide +kernel), (by decide +kernel)⟩,
    ⟨3, stOn [(F.RING_PORT_STAT_LINK, 3, 1), (F.RING_PORT_STAT_SECURE, 3, 1), (F.RING_STATE_INS, 0, 5)] {},
      rfl, (by decide +kernel), (by decide +kernel)⟩,
    ⟨1, stOn [(F.RING_PORT_STAT_LINK, 1, 1), (F.RING_CTRL_EXT_PHY_B, 0, 1)] {}, 4, 0,
      rfl, (by decide +kernel), (by decide +kernel), (by decide +kernel), (by decide +kernel)⟩,
    ⟨0, stOn [(F.RING_PORT_STAT_LINK, 0, 1), (F.RING_CTRL_EXT_PHY_A, 0, 1)] { ports := [(0, { pollTick := 992 })] }, 4, 4,
      rfl, (by decide +kernel), (by decide +kernel), (by decide +kernel), (by decide +kernel)⟩,
    ⟨0, stOn [(F.RING_PORT_STAT_LINK, 0, 1), (F.RING_CTRL_EXT_PHY_A, 0, 1)] { mdioBusy := true, polls := [(1, 0, 0)] }, 0, 4,
      rfl, (by decide +kernel), (by decide +kernel), (by decide +kernel), (by decide +kernel)⟩,
    ⟨2, stOn [(F.RING_PORT_STAT_LINK, 2, 1), (F.RING_PORT_CFG_MACSEC, 2, 1), (F.RING_MKA_HELLO_MS, 0, 100)] { ports := [(2, { hello := 200 })] },
      rfl, (by decide +kernel), (by decide +kernel), (by decide +kernel), (by decide +kernel)⟩,
    ⟨0, stOn [(F.RING_PORT_STAT_LINK, 0, 1), (F.RING_MKA_HELLO_MS, 0, 100)] { ports := [(0, { hello := 200 })] },
      rfl, (by decide +kernel), (by decide +kernel), (by decide +kernel), (by decide +kernel)⟩,
    ⟨0, stOn [(F.RING_PORT_STAT_LINK, 0, 1), (F.RING_PORT_STAT_SECURE, 0, 1), (F.RING_STATE_INS, 0, 5)] {},
      rfl, (by decide +kernel), (by decide +kernel), (by decide +kernel)⟩,
    ⟨3, stOn [(F.RING_PORT_STAT_SECURE, 3, 1)] {},
      rfl, (by decide +kernel), (by decide +kernel), (by decide +kernel)⟩⟩

/-- States and operands that meet the hypotheses of SeamMoves. -/
theorem test_meets_seam_moves :
    (∃ (s : State) (p : Nat) (x : RingStatus),
      Awake s ∧ p < 2 ∧ s.m.ring.pendingSt.contains x = false ∧ s.m.ring.doneSt.contains x = false) ∧
    (∃ (s : State) (p : Nat) (x : RingStatus),
      Awake s ∧ p < 2 ∧ s.m.ring.pendingSt.contains x = false ∧ s.m.ring.doneSt.contains x = false) ∧
    (∃ (s : State),
      Awake s ∧ s.m.ring.pendingSt.filter (fun x => x.eff ≤ s.m.deal) ≠ []) ∧
    (∃ (s : State),
      Awake s ∧ s.m.ring.pendingSt.filter (fun x => x.eff ≤ s.m.deal) ≠ []) ∧
    (∃ (s : State),
      Awake s ∧ s.m.ring.prevEnd ≤ s.m.deal) :=
  ⟨⟨stOn [] {}, 1, rst 1 1001,
      rfl, (by decide +kernel), (by decide +kernel), (by decide +kernel)⟩,
    ⟨stOn [] {}, 0, rst 1 1000,
      rfl, (by decide +kernel), (by decide +kernel), (by decide +kernel)⟩,
    ⟨stOn [] { pendingSt := [rst 1 1000, rst 1 1001] },
      rfl, (by decide +kernel)⟩,
    ⟨stOn [(F.RING_STATE_EPOCH, 0, 2 ^ F.RING_STATE_EPOCH.width - 1)] { faults := [⟨3, 0⟩], pendingSt := [rst 2 1000] },
      rfl, (by decide +kernel)⟩,
    ⟨stOn [] { prev := some ([], 0), prevEnd := 1000 },
      rfl, (by decide +kernel)⟩⟩

/-- States and operands that meet the hypotheses of FaultsAreFlooded. -/
theorem test_meets_faults_are_flooded :
    (∃ (p : Nat) (s : State),
      let own : SeamPt := { seat := ownSeat s.m, port := p }; Awake s ∧ p < 2 ∧ secure s.m p = true ∧ carries s.m = 5 ∧ (port s.m p).lastMark + 2 ≤ s.m.deal ∧ ((s.m.ring.faults.contains own = false ∨ s.m.ring.pendingSt.any (fun x => x.kind = 2 && (x.a = own || x.b = some own)) = true)) ∧ s.m.ring.pendingSt.any (fun x => x.kind = 1 && x.a = own) = false) ∧
    (∃ (p : Nat) (s : State),
      let own : SeamPt := { seat := ownSeat s.m, port := p }; Awake s ∧ p < 2 ∧ secure s.m p = true ∧ carries s.m = 5 ∧ (port s.m p).lastMark + 2 ≤ s.m.deal ∧ ((s.m.ring.faults.contains own = false ∨ s.m.ring.pendingSt.any (fun x => x.kind = 2 && (x.a = own || x.b = some own)) = true)) ∧ s.m.ring.pendingSt.any (fun x => x.kind = 1 && x.a = own) = false) ∧
    (∃ (p : Nat) (s : State),
      Awake s ∧ p < 2 ∧ secure s.m p = true ∧ (port s.m p).lastMark < s.m.deal) ∧
    (∃ (p : Nat) (s : State),
      let own : SeamPt := { seat := ownSeat s.m, port := p }; let other : SeamPt := { seat := (port s.m p).peer, port := 1 - p }; Awake s ∧ p < 2 ∧ secure s.m p = true ∧ joined s.m = true ∧ linkUp s.m p = true ∧ (port s.m p).peerJoined = true ∧ rd s.m F.RING_WTR_WTR_DEALS ≤ (port s.m p).markRun ∧ rd s.m F.RING_WTR_WTR_DEALS ≤ (port s.m p).backRun ∧ ownSeat s.m < (port s.m p).peer ∧ ((s.m.ring.faults.contains own = true ∨ s.m.ring.faults.contains other = true)) ∧ s.m.ring.pendingSt.any (fun y => y.kind = 2 && y.a = own) = false) ∧
    (∃ (p : Nat) (s : State),
      let own : SeamPt := { seat := ownSeat s.m, port := p }; let other : SeamPt := { seat := (port s.m p).peer, port := 1 - p }; Awake s ∧ p < 2 ∧ secure s.m p = true ∧ joined s.m = true ∧ linkUp s.m p = true ∧ (port s.m p).peerJoined = true ∧ rd s.m F.RING_WTR_WTR_DEALS ≤ (port s.m p).markRun ∧ rd s.m F.RING_WTR_WTR_DEALS ≤ (port s.m p).backRun ∧ ownSeat s.m < (port s.m p).peer ∧ ((s.m.ring.faults.contains own = true ∨ s.m.ring.faults.contains other = true)) ∧ s.m.ring.pendingSt.any (fun y => y.kind = 2 && y.a = own) = false) :=
  ⟨⟨1, stOn [(F.RING_STATE_INS, 0, 5), (F.RING_PORT_STAT_SECURE, 1, 1), (F.DOM_STATE_SEAT, 0, 4)] { ports := [(1, { lastMark := 998 })] },
      rfl, (by decide +kernel), (by decide +kernel), (by decide +kernel), (by decide +kernel), (by decide +kernel), (by decide +kernel)⟩,
    ⟨0, stOn [(F.RING_STATE_INS, 0, 6), (F.RING_PORT_STAT_SECURE, 0, 1), (F.DOM_STATE_SEAT, 0, 4)] { leftIns := 5, faults := [⟨4, 0⟩], pendingSt := [{ kind := 2, cause := 5, a := ⟨3, 1⟩, b := some ⟨4, 0⟩, eff := 1004 }] },
      rfl, (by decide +kernel), (by decide +kernel), (by decide +kernel), (by decide +kernel), (by decide +kernel), (by decide +kernel)⟩,
    ⟨1, stOn [(F.RING_STATE_INS, 0, 5), (F.RING_PORT_STAT_SECURE, 1, 1), (F.DOM_STATE_SEAT, 0, 4)] { ports := [(1, { lastMark := 999 })] },
      rfl, (by decide +kernel), (by decide +kernel), (by decide +kernel)⟩,
    ⟨0, stOn [(F.RING_STATE_INS, 0, 5), (F.RING_PORT_STAT_SECURE, 0, 1), (F.RING_PORT_STAT_LINK, 0, 1), (F.DOM_STATE_SEAT, 0, 4)] { faults := [⟨4, 0⟩], ports := [(0, { peerJoined := true, peer := 5, markRun := 80000, backRun := 80000 })] },
      rfl, (by decide +kernel), (by decide +kernel), (by decide +kernel), (by decide +kernel), (by decide +kernel), (by decide +kernel), (by decide +kernel), (by decide +kernel), (by decide +kernel), (by decide +kernel)⟩,
    ⟨1, stOn [(F.RING_STATE_INS, 0, 5), (F.RING_PORT_STAT_SECURE, 1, 1), (F.RING_PORT_STAT_LINK, 1, 1), (F.DOM_STATE_SEAT, 0, 4)] { faults := [⟨9, 0⟩], ports := [(1, { peerJoined := true, peer := 9, markRun := 80000, backRun := 80000 })] },
      rfl, (by decide +kernel), (by decide +kernel), (by decide +kernel), (by decide +kernel), (by decide +kernel), (by decide +kernel), (by decide +kernel), (by decide +kernel), (by decide +kernel), (by decide +kernel)⟩⟩

/-- States and operands that meet the hypotheses of InsertionRuns. -/
theorem test_meets_insertion_runs :
    (∃ (s : State) (v : Word),
      Awake s ∧ flag s.m F.RING_CTRL_ENABLE = false ∧ v.getLsbD 1 = false ∧ v.toNat / 16 % 4 = v.toNat / 64 % 4 ∧ v.toNat / 16 % 4 ≤ 2 ∧ rd s.m F.RING_STATE_INS = 0 ∧ s.m.ring.unitLost = 0 ∧ (∀ t, s.m.ring.failAt = some t → t + rd s.m F.RING_MKA_RETRY_S * 8000 ≤ s.m.ticks)) ∧
    (∃ (s : State) (v : Word),
      Awake s ∧ flag s.m F.RING_CTRL_ENABLE = false ∧ v.getLsbD 1 = false ∧ v.toNat / 16 % 4 = v.toNat / 64 % 4 ∧ v.toNat / 16 % 4 ≤ 2 ∧ rd s.m F.RING_STATE_INS = 0 ∧ s.m.ring.unitLost = 0 ∧ (∀ t, s.m.ring.failAt = some t → t + rd s.m F.RING_MKA_RETRY_S * 8000 ≤ s.m.ticks)) ∧
    (∃ (s : State) (v : Word),
      Awake s ∧ flag s.m F.RING_CTRL_ENABLE = false ∧ v.getLsbD 1 = false ∧ v.toNat / 16 % 4 = v.toNat / 64 % 4 ∧ v.toNat / 16 % 4 ≤ 2 ∧ rd s.m F.RING_STATE_INS = 0 ∧ s.m.ring.unitLost = 0 ∧ (∀ t, s.m.ring.failAt = some t → t + rd s.m F.RING_MKA_RETRY_S * 8000 ≤ s.m.ticks)) ∧
    (∃ (s : State),
      Awake s ∧ mayInsert s.m = true) ∧
    (∃ (s : State),
      Awake s ∧ mayInsert s.m = true) ∧
    (∃ (s : State),
      Awake s ∧ rd s.m F.RING_STATE_INS = 1 ∧ s.m.ring.since + 160 ≤ s.m.ticks) ∧
    (∃ (s : State),
      Awake s ∧ rd s.m F.RING_STATE_INS = 1 ∧ s.m.ring.loopOk = true) ∧
    (∃ (s : State),
      Awake s ∧ rd s.m F.RING_STATE_INS = 2 ∧ s.m.ring.closing + rd s.m F.RING_TIMERS_RELAY_MS * 8 ≤ s.m.ticks ∧ ((linkUp s.m 0 = true ∨ linkUp s.m 1 = true)) ∧ secure s.m 0 = false ∧ secure s.m 1 = false) ∧
    (∃ (s : State),
      Awake s ∧ rd s.m F.RING_STATE_INS = 2 ∧ s.m.ring.closing + rd s.m F.RING_TIMERS_RELAY_MS * 8 ≤ s.m.ticks ∧ ((linkUp s.m 0 = true ∨ linkUp s.m 1 = true)) ∧ ((secure s.m 0 = true ∨ secure s.m 1 = true)) ∧ flag s.m F.TIM_STATE_LOCKED = false ∧ flag s.m F.TIM_STATE_SOURCE = false) :=
  ⟨⟨stOn [] {}, 0x51#32,
      rfl, (by decide +kernel), (by decide +kernel), (by decide +kernel), (by decide +kernel), (by decide +kernel), (by decide +kernel), (by intro t h; cases h)⟩,
    ⟨stOn [] {}, 0xA0#32,
      rfl, (by decide +kernel), (by decide +kernel), (by decide +kernel), (by decide +kernel), (by decide +kernel), (by decide +kernel), (by intro t h; cases h)⟩,
    ⟨st { (stOn [] { failAt := some 1000 }).m with ticks := 600000 }, 1#32,
      rfl, (by decide +kernel), (by decide +kernel), (by decide +kernel), (by decide +kernel), (by decide +kernel), (by decide +kernel), (by intro t h; cases h; decide +kernel)⟩,
    ⟨stOn [(F.RING_CTRL_ENABLE, 0, 1)] {},
      rfl, (by decide +kernel)⟩,
    ⟨st { (stOn [(F.RING_CTRL_ENABLE, 0, 1)] { failAt := some 1000 }).m with ticks := 600000 },
      rfl, (by decide +kernel)⟩,
    ⟨stOn [(F.RING_CTRL_ENABLE, 0, 1), (F.RING_STATE_INS, 0, 1)] { since := 840 },
      rfl, (by decide +kernel), (by decide +kernel)⟩,
    ⟨stOn [(F.RING_CTRL_ENABLE, 0, 1), (F.RING_STATE_INS, 0, 1)] { since := 840, loopOk := true },
      rfl, (by decide +kernel), (by decide +kernel)⟩,
    ⟨fastRun { closing := 800, bypA := true, bypB := true },
      rfl, (by decide +kernel), (by decide +kernel), (by decide +kernel), (by decide +kernel), (by decide +kernel)⟩,
    ⟨stOn [(F.RING_CTRL_ENABLE, 0, 1), (F.RING_STATE_INS, 0, 2), (F.RING_PORT_STAT_LINK, 0, 1), (F.RING_PORT_STAT_SECURE, 0, 1)] { closing := 800, bypA := true, bypB := true },
      rfl, (by decide +kernel), (by decide +kernel), (by decide +kernel), (by decide +kernel), (by decide +kernel), (by decide +kernel)⟩⟩

/-- States and operands that meet the hypotheses of LeavesRing. -/
theorem test_meets_leaves_ring :
    (∃ (s : State) (v : Word),
      Awake s ∧ flag s.m F.RING_CTRL_ENABLE = true ∧ s.m.ann.latch = [] ∧ rd s.m F.RING_STATE_INS = 5) ∧
    (∃ (s : State) (v : Word),
      Awake s ∧ flag s.m F.RING_CTRL_FORCE_BYPASS = false ∧ s.m.ann.latch = [] ∧ rd s.m F.RING_STATE_INS = 5) ∧
    (∃ (s : State),
      Awake s ∧ 2 ≤ rd s.m F.RING_STATE_INS ∧ rd s.m F.RING_STATE_INS ≤ 4 ∧ s.m.ring.closing + rd s.m F.RING_MKA_KEY_TMO_S * 8000 ≤ s.m.ticks) ∧
    (∃ (s : State) (d : Nat),
      Awake s ∧ rd s.m F.RING_STATE_INS = 6 ∧ s.m.ring.leaveAt = some d ∧ d ≤ s.m.deal ∧ s.m.pwr.reset = none ∧ s.m.pwr.req = none) ∧
    (∃ (s : State) (d : Nat),
      Awake s ∧ rd s.m F.RING_STATE_INS = 6 ∧ s.m.ring.leaveAt = some d ∧ d ≤ s.m.deal ∧ s.m.pwr.reset = none ∧ s.m.pwr.req = none) ∧
    (∃ (s : State) (unit : Nat),
      Awake s ∧ rd s.m F.RING_STATE_INS ≠ 0) ∧
    (∃ (s : State) (unit : Nat),
      Awake s ∧ rd s.m F.RING_STATE_INS ≠ 0) :=
  ⟨⟨stOn [(F.RING_CTRL_ENABLE, 0, 1), (F.RING_STATE_INS, 0, 5)] { bypA := true, bypB := true }, 0#32,
      rfl, (by decide +kernel), (by decide +kernel), (by decide +kernel)⟩,
    ⟨stOn [(F.RING_CTRL_ENABLE, 0, 1), (F.RING_STATE_INS, 0, 5)] { bypA := true, bypB := true }, 3#32,
      rfl, (by decide +kernel), (by decide +kernel), (by decide +kernel)⟩,
    ⟨st { (stOn [(F.RING_CTRL_ENABLE, 0, 1), (F.RING_STATE_INS, 0, 3), (F.RING_PORT_STAT_LINK, 1, 1)] { closing := 0, bypA := true, bypB := true }).m with ticks := 600000 },
      rfl, (by decide +kernel), (by decide +kernel), (by decide +kernel)⟩,
    ⟨stOn [(F.RING_STATE_INS, 0, 6)] { leaveAt := some 1000, bypA := true, bypB := true }, 1000,
      rfl, (by decide +kernel), (by decide +kernel), (by decide +kernel), (by decide +kernel), (by decide +kernel)⟩,
    ⟨stOn [(F.RING_STATE_INS, 0, 6), (F.RING_CTRL_ENABLE, 0, 1), (F.RING_CTRL_FORCE_BYPASS, 0, 1)] { leaveAt := some 990, bypA := true, bypB := true }, 990,
      rfl, (by decide +kernel), (by decide +kernel), (by decide +kernel), (by decide +kernel), (by decide +kernel)⟩,
    ⟨stOn [(F.RING_STATE_INS, 0, 5), (F.RING_CTRL_ENABLE, 0, 1)] { bypA := true, bypB := true }, 7,
      rfl, (by decide +kernel)⟩,
    ⟨stOn [(F.RING_STATE_INS, 0, 1), (F.RING_CTRL_ENABLE, 0, 1)] { bypA := true, bypB := true }, 0,
      rfl, (by decide +kernel)⟩⟩

/-- States and operands that meet the hypotheses of FramesArrive. -/
theorem test_meets_frames_arrive :
    (∃ (s : State) (p : Nat) (f : RingFrame),
      Awake s ∧ p < 2 ∧ secure s.m p = false) ∧
    (∃ (s : State) (p : Nat) (f : RingFrame),
      Awake s ∧ p < 2 ∧ secure s.m p = true ∧ (port s.m p).rxPn ≤ f.pn ∧ f.len ≤ 4096 ∧ f.poisoned = false ∧ f.fcsOk = true ∧ f.icvOk = true ∧ (∀ h, f.heivo = some h → heivoOk s.m h = true)) ∧
    (∃ (s : State) (p : Nat) (f : RingFrame),
      Awake s ∧ p < 2 ∧ secure s.m p = true ∧ (port s.m p).rxPn ≤ f.pn ∧ f.len ≤ 4096 ∧ f.poisoned = false ∧ f.fcsOk = true ∧ f.icvOk = true ∧ (∀ h, f.heivo = some h → heivoOk s.m h = true)) ∧
    (∃ (s : State) (p : Nat) (f : RingFrame),
      Awake s ∧ p < 2 ∧ secure s.m p = true ∧ (port s.m p).rxPn ≤ f.pn ∧ f.len ≤ 4096 ∧ f.poisoned = false ∧ f.fcsOk = true ∧ f.icvOk = true ∧ (∀ h, f.heivo = some h → heivoOk s.m h = true)) ∧
    (∃ (s : State) (p : Nat) (f : LocalFrame),
      Awake s ∧ ((p = 2 ∨ p = 3)) ∧ portOn s.m p = true ∧ f.poisoned = false ∧ f.len ≤ maxFrame s.m p ∧ f.fcsOk = true ∧ (macsecOn s.m p = true → secure s.m p = true ∧ (port s.m p).rxPn ≤ f.pn + 64) ∧ f.macsecOk = true ∧ f.toMe = true) ∧
    (∃ (s : State) (p : Nat) (f : LocalFrame),
      Awake s ∧ ((p = 2 ∨ p = 3)) ∧ portOn s.m p = true ∧ f.poisoned = false ∧ f.len ≤ maxFrame s.m p ∧ f.fcsOk = true ∧ (macsecOn s.m p = true → secure s.m p = true ∧ (port s.m p).rxPn ≤ f.pn + 64) ∧ f.macsecOk = true ∧ f.toMe = true) :=
  ⟨⟨stOn [(F.DOM_STATE_SEAT, 0, 4)] {}, 1, fr 4 3,
      rfl, (by decide +kernel), (by decide +kernel)⟩,
    ⟨stOn [(F.DOM_STATE_SEAT, 0, 4), (F.RING_PORT_STAT_SECURE, 1, 1)] {}, 1, fr 4 3,
      rfl, (by decide +kernel), (by decide +kernel), (by decide +kernel), (by decide +kernel), (by decide +kernel), (by decide +kernel), (by decide +kernel), (by intro h e; cases e)⟩,
    ⟨stOn [(F.DOM_STATE_SEAT, 0, 4), (F.RING_PORT_STAT_SECURE, 0, 1)] { ports := [(0, { rxPn := 9 })] }, 0, fr 5 1,
      rfl, (by decide +kernel), (by decide +kernel), (by decide +kernel), (by decide +kernel), (by decide +kernel), (by decide +kernel), (by decide +kernel), (by intro h e; cases e)⟩,
    ⟨stOn [(F.DOM_STATE_SEAT, 0, 4), (F.RING_PORT_STAT_SECURE, 0, 1)] {}, 0, { fr 5 0 with toMe := false },
      rfl, (by decide +kernel), (by decide +kernel), (by decide +kernel), (by decide +kernel), (by decide +kernel), (by decide +kernel), (by decide +kernel), (by intro h e; cases e)⟩,
    ⟨stOn [(F.RING_PORT_CFG_EN, 3, 1), (F.RING_PORT_CFG_MAX_FRAME, 3, 1522)] {}, 3, { toMe := true, reservedGroup := false, pcp := 7, len := 1522, ident := 2, now := 1 },
      rfl, (by decide +kernel), (by decide +kernel), (by decide +kernel), (by decide +kernel), (by decide +kernel), (by decide +kernel), (by decide +kernel), (by decide +kernel)⟩,
    ⟨stOn [(F.RING_PORT_CFG_EN, 2, 1), (F.RING_PORT_CFG_MAX_FRAME, 2, 1522), (F.RING_PORT_CFG_MACSEC, 2, 1), (F.RING_PORT_STAT_SECURE, 2, 1)] { ports := [(2, { rxPn := 70 })] }, 2, { toMe := true, reservedGroup := false, pcp := 0, len := 64, ident := 2, now := 1, pn := 6 },
      rfl, (by decide +kernel), (by decide +kernel), (by decide +kernel), (by decide +kernel), (by decide +kernel), (by decide +kernel), (by decide +kernel), (by decide +kernel)⟩⟩

/-- States and operands that meet the hypotheses of EgressRuns. -/
theorem test_meets_egress_runs :
    (∃ (p : Nat) (now : Nat) (s : State) (f : QFrame),
      Awake s ∧ p < 4 ∧ (egress s.m p).sending = some f) ∧
    (∃ (p : Nat) (now : Nat) (s : State) (f : QFrame),
      Awake s ∧ p < 4 ∧ (egress s.m p).sending = some f) ∧
    (∃ (p : Nat) (now : Nat) (s : State),
      Awake s ∧ p < 4 ∧ rdi s.m F.RING_TAS_CTRL_ENABLE p = 1 ∧ (egress s.m p).oper ≠ []) ∧
    (∃ (p : Nat) (now : Nat) (s : State) (q : Nat) (f : LaunchFrame) (rest : List LaunchFrame),
      Awake s ∧ p < 4 ∧ q < 2 ∧ mget [] s.m.tim.queues (2 * p + q) = f :: rest ∧ f.at_ns ≤ now) ∧
    (∃ (p : Nat) (now : Nat) (s : State) (q : Nat) (f : LaunchFrame) (rest : List LaunchFrame),
      Awake s ∧ p < 4 ∧ q < 2 ∧ mget [] s.m.tim.queues (2 * p + q) = f :: rest ∧ f.at_ns ≤ now) ∧
    (∃ (p : Nat) (now : Nat) (s : State) (q : Nat) (f : LaunchFrame) (rest : List LaunchFrame),
      Awake s ∧ p < 4 ∧ q < 2 ∧ mget [] s.m.tim.queues (2 * p + q) = f :: rest ∧ f.at_ns ≤ now) :=
  ⟨⟨3, 5, stOn [(F.RING_TOK_FREE_FREE, 3, 100)] { egress := [(3, { sending := some qf })] }, qf,
      rfl, (by decide +kernel), (by decide +kernel)⟩,
    ⟨0, 5, stOn [(F.RING_TOK_FREE_FREE, 0, 100)] { egress := [(0, { sending := some qf, waiting := [qf] })] }, qf,
      rfl, (by decide +kernel), (by decide +kernel)⟩,
    ⟨0, 7, stOn [(F.RING_TAS_CTRL_ENABLE, 0, 1)] { egress := [(0, { oper := [(255, 5), (1, 7)], entry := 1 })] },
      rfl, (by decide +kernel), (by decide +kernel), (by decide +kernel)⟩,
    ⟨3, 125000000, launching, 1, ⟨125000000, 6, 200, 8, none⟩, [⟨126000000, 6, 200, 9, none⟩],
      rfl, (by decide +kernel), (by decide +kernel), (by decide +kernel), (by decide +kernel)⟩,
    ⟨3, 125000001, launching, 1, ⟨125000000, 6, 200, 8, none⟩, [⟨126000000, 6, 200, 9, none⟩],
      rfl, (by decide +kernel), (by decide +kernel), (by decide +kernel), (by decide +kernel)⟩,
    ⟨3, 135000000, launching, 1, ⟨125000000, 6, 200, 8, none⟩, [⟨126000000, 6, 200, 9, none⟩],
      rfl, (by decide +kernel), (by decide +kernel), (by decide +kernel), (by decide +kernel)⟩⟩

/-- States and operands that meet the hypotheses of GateListsAndMdio. -/
theorem test_meets_gate_lists_and_mdio :
    (∃ (p : Nat) (s : State) (hi : Word),
      Awake s ∧ p < 4) ∧
    (∃ (p : Nat) (s : State) (hi : Word),
      Awake s ∧ p < 4) ∧
    (∃ (p : Nat) (s : State) (hi : Word),
      Awake s ∧ p < 4) ∧
    (∃ (p : Nat) (s : State),
      let cycle := rdi s.m F.RING_TAS_CYCLE_NS p; let start := cycleStart (rdi s.m F.RING_TAS_BASE_LO_DEAL p + rdi s.m F.RING_TAS_BASE_HI_DEAL p * 2 ^ 32) (mget 0 s.m.ring.changeAt p) cycle; Awake s ∧ p < 4 ∧ rdi s.m F.RING_TAS_CTRL_PENDING p = 1 ∧ start < s.m.tim.ns + 125000) ∧
    (∃ (s : State) (v : Word),
      Awake s) ∧
    (∃ (s : State) (v : Word),
      Awake s) ∧
    (∃ (s : State) (data : Nat),
      Awake s ∧ s.m.ring.mdioBusy = true) ∧
    (∃ (s : State) (data : Nat),
      Awake s ∧ s.m.ring.mdioBusy = true) :=
  ⟨⟨3, stOn [(F.RING_TAS_CHANGE_LO_DEAL, 3, 1000)] {}, 0#32,
      rfl, (by decide +kernel)⟩,
    ⟨3, stOn [(F.RING_TAS_CHANGE_LO_DEAL, 3, 999)] {}, 0#32,
      rfl, (by decide +kernel)⟩,
    ⟨0, stOn [(F.RING_TAS_CHANGE_LO_DEAL, 0, 5)] {}, 1#32,
      rfl, (by decide +kernel)⟩,
    ⟨2, gating,
      rfl, (by decide +kernel), (by decide +kernel), (by decide +kernel)⟩,
    ⟨stOn [] {}, 0xFFFFFFFF#32,
      rfl⟩,
    ⟨stOn [] { mdioBusy := true, mdioOp := 1 }, 0x443#32,
      rfl⟩,
    ⟨stOn [(F.RING_MDIO_CTRL_OP, 0, 3), (F.RING_MDIO_CTRL_GO, 0, 1), (F.RING_MDIO_CTRL_BUSY, 0, 1)] { mdioBusy := true, mdioOp := 3 }, 0xABCD,
      rfl, (by decide +kernel)⟩,
    ⟨stOn [(F.RING_CTRL_EXT_PHY_B, 0, 1), (F.RING_PORT_STAT_LINK, 1, 1), (F.RING_MDIO_CTRL_GO, 0, 1), (F.RING_MDIO_CTRL_BUSY, 0, 1)] { mdioBusy := true, mdioOp := 1, polls := [(1, 4, 0)] }, 5,
      rfl, (by decide +kernel)⟩⟩

/-- States and operands that meet the hypotheses of CandidatesQualify. -/
theorem test_meets_candidates_qualify :
    (∃ (i : Nat) (s : State) (x : RefEdge),
      Awake s ∧ i ≤ 4 ∧ i < 4 ∧ lossCause s.m (cand s.m i) x ≠ 0 ∧ rdi s.m F.CLK_REF_STAT_PRESENT i = 1) ∧
    (∃ (i : Nat) (s : State) (x : RefEdge),
      Awake s ∧ i ≤ 4 ∧ i < 4 ∧ lossCause s.m (cand s.m i) x ≠ 0 ∧ rdi s.m F.CLK_REF_STAT_PRESENT i = 1) ∧
    (∃ (i : Nat) (s : State) (x : RefEdge),
      Awake s ∧ i ≤ 4 ∧ i < 4 ∧ lossCause s.m (cand s.m i) x ≠ 0 ∧ rdi s.m F.CLK_REF_STAT_PRESENT i = 1) ∧
    (∃ (i : Nat) (s : State),
      Awake s ∧ i ≤ 4 ∧ qualified s.m i = true ∧ su s.m F.CLK_MON_DWELL_S ≤ (cand s.m i).outRun) ∧
    (∃ (i : Nat) (s : State),
      Awake s ∧ i ≤ 4 ∧ watched s.m i = true ∧ rdi s.m F.CLK_REF_STAT_PRESENT i = 1 ∧ rdi s.m F.CLK_REF_STAT_QUALIFIED i = 0 ∧ su s.m F.CLK_MON_QUAL_S ≤ (cand s.m i).inRun) :=
  ⟨⟨3, stClk [(F.CLK_REF_STAT_PRESENT, 3, 1), (F.CLK_REF_STAT_QUALIFIED, 3, 1), (F.CLK_REF_STAT_ENABLED, 3, 1)] { cands := [(3, { pps := true })] }, .interval 990000000000000,
      rfl, (by decide +kernel), (by decide +kernel), (by decide +kernel), (by decide +kernel)⟩,
    ⟨0, stClk [(F.CLK_REF_STAT_PRESENT, 0, 1), (F.CLK_REF_STAT_QUALIFIED, 0, 1), (F.CLK_STATE_SEL, 0, 0), (F.CLK_REF_STAT_ENABLED, 0, 1), (F.CLK_STATE_MODE, 0, 2), (F.CLK_MON_LOSS_PER, 0, 4)] { cands := [(0, { hz := 10000000, den := 1 })] }, .silent 400000,
      rfl, (by decide +kernel), (by decide +kernel), (by decide +kernel), (by decide +kernel)⟩,
    ⟨1, stClk [(F.CLK_REF_STAT_PRESENT, 1, 1), (F.CLK_REF_STAT_ENABLED, 1, 1), (F.CLK_MON_LOSS_PER, 0, 4)] { cands := [(1, { hz := 10000000, den := 1 })] }, .silent 400000,
      rfl, (by decide +kernel), (by decide +kernel), (by decide +kernel), (by decide +kernel)⟩,
    ⟨2, stClk [(F.CLK_REF_STAT_PRESENT, 2, 1), (F.CLK_REF_STAT_QUALIFIED, 2, 1), (F.CLK_REF_STAT_ENABLED, 2, 1)] { cands := [(2, { outRun := 200 })] },
      rfl, (by decide +kernel), (by decide +kernel), (by decide +kernel)⟩,
    ⟨4, stClk [(F.CLK_REF_STAT_PRESENT, 4, 1)] { cands := [(4, { inRun := 200 })] },
      rfl, (by decide +kernel), (by decide +kernel), (by decide +kernel), (by decide +kernel), (by decide +kernel)⟩⟩

/-- States and operands that meet the hypotheses of ServoRuns. -/
theorem test_meets_servo_runs :
    (∃ (s : State) (b : RefBin) (i : Nat) (x : Int),
      Awake s ∧ i < 5 ∧ watched s.m i = true ∧ binOffset s.m b i = some x) ∧
    (∃ (s : State) (b : RefBin) (i : Nat) (x : Int),
      Awake s ∧ i < 5 ∧ watched s.m i = true ∧ binOffset s.m b i = some x) ∧
    (∃ (s : State),
      Awake s ∧ 61 ≤ s.m.clk.lockedSec) ∧
    (∃ (s : State) (phase : Int),
      Awake s ∧ flag s.m F.CLK_STATE_BRIDGING = true) ∧
    (∃ (s : State) (ctl : Int) (temp : Int),
      Awake s ∧ flag s.m F.CLK_CTRL_SAVE_EN = true ∧ rd s.m F.CLK_STATE_MODE = 2 ∧ s.m.clk.lockedSec ≠ 0 ∧ s.m.clk.lockedSec % 3600 = 0) ∧
    (∃ (s : State) (ctl : Int) (temp : Int),
      Awake s ∧ flag s.m F.CLK_CTRL_SAVE_EN = true ∧ rd s.m F.CLK_STATE_MODE = 2 ∧ s.m.clk.lockedSec ≠ 0 ∧ s.m.clk.lockedSec % 3600 = 0) ∧
    (∃ (temp : Int) (s : State) (h : Holdover),
      Awake s ∧ s.m.clk.hold = some h) ∧
    (∃ (temp : Int) (s : State) (h : Holdover),
      Awake s ∧ s.m.clk.hold = some h) :=
  ⟨⟨stClk [(F.CLK_REF_STAT_ENABLED, 3, 1), (F.CLK_STATE_SEL, 0, 7), (F.CLK_MON_AVG_S, 0, 2)] { cands := [(3, { bins := [7, 8] })] }, { offs := [none, none, none, some 20, none], locked := true, temp := 90 }, 3, 20,
      rfl, (by decide +kernel), (by decide +kernel), (by decide +kernel)⟩,
    ⟨stClk [(F.CLK_REF_STAT_ENABLED, 0, 1), (F.CLK_STATE_SEL, 0, 0), (F.CLK_STATE_MODE, 0, 2)] { ctl := 5 }, { offs := [some (-20), none, none, none, none], locked := true, temp := 90 }, 0, -20,
      rfl, (by decide +kernel), (by decide +kernel), (by decide +kernel)⟩,
    ⟨stClk [] { lockedSec := 61 },
      rfl, (by decide +kernel)⟩,
    ⟨stClk [(F.CLK_STATE_BRIDGING, 0, 1)] {}, -7,
      rfl, (by decide +kernel)⟩,
    ⟨stClk [(F.CLK_CTRL_SAVE_EN, 0, 1), (F.CLK_STATE_MODE, 0, 2)] { lockedSec := 3600, hist := [(5, 90), (7, 91)] }, 0, 0,
      rfl, (by decide +kernel), (by decide +kernel), (by decide +kernel), (by decide +kernel)⟩,
    ⟨stClk [(F.CLK_CTRL_SAVE_EN, 0, 1), (F.CLK_STATE_MODE, 0, 2)] { lockedSec := 7200, hist := List.replicate 600 (1, 2) ++ [(5, 90), (8, 90)] }, 9, 91,
      rfl, (by decide +kernel), (by decide +kernel), (by decide +kernel), (by decide +kernel)⟩,
    ⟨92, stClk [(F.CLK_HOLD_SEC_SEC, 0, 9)] { hold := some { kind := 1, base := 5, tempRef := 80 } }, { kind := 1, base := 5, tempRef := 80 },
      rfl, (by decide +kernel)⟩,
    ⟨70, stClk [(F.CLK_HOLD_SEC_SEC, 0, 0xFFFFFFFF)] { hold := some { kind := 2, base := 5, tempRef := 80 } }, { kind := 2, base := 5, tempRef := 80 },
      rfl, (by decide +kernel)⟩⟩

/-- States and operands that meet the hypotheses of OutputsAlign. -/
theorem test_meets_outputs_align :
    (∃ (s : State) (a : Nat) (f : Int) (ph : Int),
      Awake s ∧ a < 24 ∧ (aligner s.m a).st = .on ∧ (aligner s.m a).good = 3 ∧ (rd s.m F.CLK_AL_LOCK_LOCK).testBit a = false ∧ f.natAbs ≤ su s.m F.CLK_LOCK_PPM * 1000 ∧ ((ph.natAbs ≤ 1000 ∨ (aligner s.m a).mode = 2))) ∧
    (∃ (s : State) (a : Nat) (f : Int) (ph : Int),
      Awake s ∧ a < 24 ∧ (aligner s.m a).st = .on ∧ (aligner s.m a).good = 3 ∧ (rd s.m F.CLK_AL_LOCK_LOCK).testBit a = false ∧ f.natAbs ≤ su s.m F.CLK_LOCK_PPM * 1000 ∧ ((ph.natAbs ≤ 1000 ∨ (aligner s.m a).mode = 2))) ∧
    (∃ (s : State) (ns : Nat),
      Awake s ∧ flag s.m F.CLK_SYNC_STAT_ARMED = true) ∧
    (∃ (s : State) (ns : Nat),
      Awake s ∧ flag s.m F.CLK_SYNC_STAT_ARMED = false) ∧
    (∃ (s : State) (k : Nat) (g : RampSeg) (rest : List RampSeg),
      Awake s ∧ 1 ≤ k ∧ k ≤ 7 ∧ (ramp s.m k).segs = g :: rest ∧ g.dur ≤ (ramp s.m k).pos) ∧
    (∃ (s : State) (k : Nat) (g : RampSeg) (rest : List RampSeg),
      Awake s ∧ 1 ≤ k ∧ k ≤ 7 ∧ (ramp s.m k).segs = g :: rest ∧ g.dur ≤ (ramp s.m k).pos) :=
  ⟨⟨stClk [] { als := [(23, { st := .on, good := 3 })] }, 23, 0, 1000,
      rfl, (by decide +kernel), (by decide +kernel), (by decide +kernel), (by decide +kernel), (by decide +kernel), (by decide +kernel)⟩,
    ⟨stClk [] { als := [(0, { st := .on, good := 3, mode := 2 })] }, 0, 0, -1001,
      rfl, (by decide +kernel), (by decide +kernel), (by decide +kernel), (by decide +kernel), (by decide +kernel), (by decide +kernel)⟩,
    ⟨stClk [(F.CLK_SYNC_STAT_ARMED, 0, 1)] { syncArm := 5, syncOfs := -9, als := [(0, { st := .on, hz := 48000, den := 1 }), (2, { hz := 48000, den := 1 })] }, 125000007,
      rfl, (by decide +kernel)⟩,
    ⟨stClk [] { als := [(3, { st := .on, mode := 3, hz := 48000, den := 1 })] }, 125000007,
      rfl, (by decide +kernel)⟩,
    ⟨stClk [] { ramps := [(7, { output := some 2, segs := [⟨5, 8, false⟩], pos := 8 })] }, 7, ⟨5, 8, false⟩, [],
      rfl, (by decide +kernel), (by decide +kernel), (by decide +kernel), (by decide +kernel)⟩,
    ⟨stClk [] { ramps := [(1, { output := some 2, segs := [⟨-5, 8, true⟩, ⟨9, 1, false⟩], pos := 8 })] }, 1, ⟨-5, 8, true⟩, [⟨9, 1, false⟩],
      rfl, (by decide +kernel), (by decide +kernel), (by decide +kernel), (by decide +kernel)⟩⟩

/-- States and operands that meet the hypotheses of ClockCommands. -/
theorem test_meets_clock_commands :
    (∃ (c : Cmd) (s : State),
      Awake s ∧ Plain 0x0601 c s.m ∧ u8 c 24 = 0 ∧ u8 c 25 < 4 ∧ u8 c 26 ≤ 7 ∧ u8 c 27 ≤ 1 ∧ (u8 c 27 = 1 → u32 c 28 = 0 ∧ u16 c 32 = 0) ∧ (u8 c 27 = 0 → u16 c 32 ≠ 0 ∧ 8000 * u16 c 32 ≤ u32 c 28 ∧ u32 c 28 ≤ 50000000 * u16 c 32) ∧ 1 ≤ u16 c 34 ∧ u16 c 34 ≤ 2000) ∧
    (∃ (c : Cmd) (s : State),
      Awake s ∧ Plain 0x0601 c s.m ∧ u8 c 24 = 0 ∧ u8 c 25 < 4 ∧ u8 c 26 ≤ 7 ∧ u8 c 27 ≤ 1 ∧ (u8 c 27 = 1 → u32 c 28 = 0 ∧ u16 c 32 = 0) ∧ (u8 c 27 = 0 → u16 c 32 ≠ 0 ∧ 8000 * u16 c 32 ≤ u32 c 28 ∧ u32 c 28 ≤ 50000000 * u16 c 32) ∧ 1 ≤ u16 c 34 ∧ u16 c 34 ≤ 2000) ∧
    (∃ (c : Cmd) (s : State),
      Awake s ∧ Plain 0x0601 c s.m ∧ u8 c 24 = 0 ∧ u8 c 25 < 4 ∧ u8 c 26 = 0xFF) ∧
    (∃ (c : Cmd) (s : State),
      Awake s ∧ Plain 0x0601 c s.m ∧ u8 c 24 = 0 ∧ u8 c 25 = 4 ∧ exists4 s.m = true ∧ u8 c 26 = 0 ∧ u8 c 27 = 0 ∧ u32 c 28 = 0 ∧ u16 c 32 = 0 ∧ 1 ≤ u16 c 34 ∧ u16 c 34 ≤ 2000) ∧
    (∃ (c : Cmd) (s : State),
      Awake s ∧ Plain 0x0601 c s.m ∧ u8 c 24 = 1 ∧ u8 c 25 < 24 ∧ u8 c 26 = 1 ∧ outputOk (u8 c 25) (u32 c 28) (u16 c 32) (u8 c 27) (s32 c 36) = true ∧ (aligner s.m (u8 c 25)).st = .stopped) ∧
    (∃ (c : Cmd) (s : State),
      Awake s ∧ Plain 0x0601 c s.m ∧ u8 c 24 = 1 ∧ u8 c 25 < 24 ∧ u8 c 26 = 0) ∧
    (∃ (c : Cmd) (s : State),
      Awake s ∧ Plain 0x0601 c s.m ∧ u8 c 24 = 2 ∧ u8 c 25 ≤ 3 ∧ (u8 c 25 = 3 → u8 c 26 ≤ 4 ∧ qualified s.m (u8 c 26) = true)) ∧
    (∃ (c : Cmd) (s : State),
      Awake s ∧ Plain 0x0601 c s.m ∧ u8 c 24 = 2 ∧ u8 c 25 ≤ 3 ∧ (u8 c 25 = 3 → u8 c 26 ≤ 4 ∧ qualified s.m (u8 c 26) = true)) ∧
    (∃ (c : Cmd) (s : State),
      Awake s ∧ Plain 0x0601 c s.m ∧ u8 c 24 = 2 ∧ u8 c 25 ≤ 3 ∧ (u8 c 25 = 3 → u8 c 26 ≤ 4 ∧ qualified s.m (u8 c 26) = true)) ∧
    (∃ (c : Cmd) (s : State),
      Awake s ∧ Plain 0x0601 c s.m ∧ u8 c 24 = 2 ∧ u8 c 25 ≤ 3 ∧ (u8 c 25 = 3 → u8 c 26 ≤ 4 ∧ qualified s.m (u8 c 26) = true)) ∧
    (∃ (c : Cmd) (s : State),
      Awake s ∧ Plain 0x0601 c s.m ∧ u8 c 24 = 3 ∧ u8 c 25 ≤ 1 ∧ u32 c 28 < 2 ^ 24 ∧ (bitsOf 24 (u32 c 28)).any (rampOn s.m) = false) ∧
    (∃ (c : Cmd) (s : State),
      Awake s ∧ Plain 0x0601 c s.m ∧ u8 c 24 = 3 ∧ u8 c 25 ≤ 1 ∧ u32 c 28 < 2 ^ 24 ∧ (bitsOf 24 (u32 c 28)).any (rampOn s.m) = false) ∧
    (∃ (c : Cmd) (s : State),
      Awake s ∧ Plain 0x0602 c s.m ∧ 1 ≤ u8 c 24 ∧ u8 c 24 ≤ 7 ∧ u8 c 25 < 24 ∧ 1 ≤ u16 c 26 ∧ u16 c 26 ≤ 16 ∧ bufLen c = 16 * u16 c 26 ∧ bufOk c false s.m = true ∧ (records 16 (u16 c 26) (bufBytes c)).all segOk = true ∧ (aligner s.m (u8 c 25)).st = .on ∧ (aligner s.m (u8 c 25)).mode = 2 ∧ (∀ j, j < 8 → j ≠ u8 c 24 → (ramp s.m j).output ≠ some (u8 c 25))) :=
  ⟨⟨cmd [(24, 0), (25, 3), (26, 7), (27, 1), (34, 2000)], stClk [] {},
      rfl, plain_of (by decide +kernel), (by decide +kernel), (by decide +kernel), (by decide +kernel), (by decide +kernel), (by decide +kernel), (by decide +kernel), (by decide +kernel), (by decide +kernel)⟩,
    ⟨cmd [(24, 0), (25, 0), (26, 0), (27, 0), (28, 10000000), (32, 1), (34, 1)], stClk [(F.CLK_REF_STAT_ENABLED, 0, 1), (F.CLK_REF_STAT_PRESENT, 0, 1), (F.CLK_REF_STAT_QUALIFIED, 0, 1)] { cands := [(0, { pps := true })] },
      rfl, plain_of (by decide +kernel), (by decide +kernel), (by decide +kernel), (by decide +kernel), (by decide +kernel), (by decide +kernel), (by decide +kernel), (by decide +kernel), (by decide +kernel)⟩,
    ⟨cmd [(24, 0), (25, 2), (26, 0xFF), (27, 9)], stClk [(F.CLK_REF_STAT_ENABLED, 2, 1), (F.CLK_REF_STAT_PRESENT, 2, 1), (F.CLK_REF_STAT_QUALIFIED, 2, 1)] {},
      rfl, plain_of (by decide +kernel), (by decide +kernel), (by decide +kernel), (by decide +kernel)⟩,
    ⟨cmd [(24, 0), (25, 4), (34, 1)], stClk [] {},
      rfl, plain_of (by decide +kernel), (by decide +kernel), (by decide +kernel), (by decide +kernel), (by decide +kernel), (by decide +kernel), (by decide +kernel), (by decide +kernel), (by decide +kernel), (by decide +kernel)⟩,
    ⟨cmd [(24, 1), (25, 23), (26, 1), (27, 1), (28, 48000), (32, 1), (36, 5)], stClk [] {},
      rfl, plain_of (by decide +kernel), (by decide +kernel), (by decide +kernel), (by decide +kernel), (by decide +kernel), (by decide +kernel)⟩,
    ⟨cmd [(24, 1), (25, 23), (26, 0)], stClk [(F.CLK_AL_LOCK_LOCK, 0, 2 ^ 23)] { als := [(23, { st := .on, mode := 1, hz := 48000, den := 1 })] },
      rfl, plain_of (by decide +kernel), (by decide +kernel), (by decide +kernel), (by decide +kernel)⟩,
    ⟨cmd [(24, 2)], stClk [] {},
      rfl, plain_of (by decide +kernel), (by decide +kernel), (by decide +kernel), (by decide +kernel)⟩,
    ⟨cmd [(24, 2), (25, 1)], stClk [] {},
      rfl, plain_of (by decide +kernel), (by decide +kernel), (by decide +kernel), (by decide +kernel)⟩,
    ⟨cmd [(24, 2), (25, 2)], stClk [] { hold := some { kind := 0, base := 5, tempRef := 80 } },
      rfl, plain_of (by decide +kernel), (by decide +kernel), (by decide +kernel), (by decide +kernel)⟩,
    ⟨cmd [(24, 2), (25, 3), (26, 1)], stClk [(F.CLK_REF_STAT_ENABLED, 1, 1), (F.CLK_REF_STAT_PRESENT, 1, 1), (F.CLK_REF_STAT_QUALIFIED, 1, 1)] {},
      rfl, plain_of (by decide +kernel), (by decide +kernel), (by decide +kernel), (by decide +kernel)⟩,
    ⟨cmd [(24, 3), (25, 1), (28, 0xFFFFFF), (36, 0xFFFFFFFF)], stClk [] {},
      rfl, plain_of (by decide +kernel), (by decide +kernel), (by decide +kernel), (by decide +kernel), (by decide +kernel)⟩,
    ⟨cmd [(24, 3)], stClk [(F.CLK_SYNC_STAT_ARMED, 0, 1)] { syncArm := 5 },
      rfl, plain_of (by decide +kernel), (by decide +kernel), (by decide +kernel), (by decide +kernel), (by decide +kernel)⟩,
    ⟨ramp1, stClk [] { als := [(23, { st := .on, mode := 2 })] },
      rfl, plain_of (by decide +kernel), (by decide +kernel), (by decide +kernel), (by decide +kernel), (by decide +kernel), (by decide +kernel), (by decide +kernel), (by decide +kernel), (by decide +kernel), (by decide +kernel), (by decide +kernel), (by decide +kernel)⟩⟩

/-- States and operands that meet the hypotheses of MarkersCarryTime. -/
theorem test_meets_markers_carry_time :
    (∃ (p : Nat) (s : State) (k : MarkerIn),
      Awake s ∧ p < 2 ∧ k.version = 1 ∧ ((rd s.m F.DOM_STATE_ROLE = 0 ∨ k.tableId = rd s.m F.DOM_TABLE_TABLE_ID)) ∧ k.flags.testBit 3 = false ∧ flag s.m F.TIM_STATE_SOURCE = false ∧ rd s.m F.TIM_CTRL_MODE = 0 ∧ ((srcSeat s.m = 0xFFFF ∨ (newerGen (rd s.m F.TIM_GEN_GEN) k.gen = false ∧ k.gen ≠ rd s.m F.TIM_GEN_GEN))) ∧ k.srcSeat < 0xFFFF ∧ k.gen < 2 ^ 16 ∧ (timeDir s.m p).followed ≠ some (k.gen, k.srcSeat)) ∧
    (∃ (p : Nat) (s : State) (k : MarkerIn),
      Awake s ∧ p < 2 ∧ k.version = 1 ∧ ((rd s.m F.DOM_STATE_ROLE = 0 ∨ k.tableId = rd s.m F.DOM_TABLE_TABLE_ID)) ∧ k.flags.testBit 3 = false ∧ flag s.m F.TIM_STATE_SOURCE = false ∧ rd s.m F.TIM_CTRL_MODE = 0 ∧ ((srcSeat s.m = 0xFFFF ∨ (newerGen (rd s.m F.TIM_GEN_GEN) k.gen = false ∧ k.gen ≠ rd s.m F.TIM_GEN_GEN))) ∧ k.srcSeat < 0xFFFF ∧ k.gen < 2 ^ 16 ∧ (timeDir s.m p).followed ≠ some (k.gen, k.srcSeat)) ∧
    (∃ (p : Nat) (s : State) (at_ : Nat),
      Awake s ∧ p < 2 ∧ maySend s.m p = true ∧ 4 ≤ carries s.m ∧ (port s.m p).markDeal < s.m.deal ∧ markerAt s.m * 65536 ≤ at_) ∧
    (∃ (p : Nat) (s : State) (at_ : Nat),
      Awake s ∧ p < 2 ∧ maySend s.m p = true ∧ 4 ≤ carries s.m ∧ (port s.m p).markDeal < s.m.deal ∧ markerAt s.m * 65536 ≤ at_) ∧
    (∃ (p : Nat) (s : State),
      Awake s ∧ p < 2 ∧ (timeDir s.m p).valid = true ∧ (timeDir s.m p).recDeal < s.m.deal) ∧
    (∃ (p : Nat) (s : State),
      Awake s ∧ p < 2 ∧ (timeDir s.m p).valid = true ∧ (timeDir s.m p).recDeal < s.m.deal) :=
  ⟨⟨1, stTim [(F.TIM_STATE_SOURCE_SEAT, 0, 0xFFFF), (F.DOM_STATE_SEAT, 0, 4), (F.RING_STATE_INS, 0, 5)] {}, mk0,
      rfl, (by decide +kernel), (by decide +kernel), (by decide +kernel), (by decide +kernel), (by decide +kernel), (by decide +kernel), (by decide +kernel), (by decide +kernel), (by decide +kernel), (by decide +kernel)⟩,
    ⟨0, stTim [(F.TIM_STATE_SOURCE_SEAT, 0, 9), (F.TIM_GEN_GEN, 0, 2), (F.DOM_STATE_ROLE, 0, 1), (F.DOM_TABLE_TABLE_ID, 0, 9), (F.DOM_STATE_SEAT, 0, 4), (F.RING_STATE_INS, 0, 5)] { dirs := [(0, { valid := true, followed := some (2, 9) })] }, { mk0 with tableId := 9 },
      rfl, (by decide +kernel), (by decide +kernel), (by decide +kernel), (by decide +kernel), (by decide +kernel), (by decide +kernel), (by decide +kernel), (by decide +kernel), (by decide +kernel), (by decide +kernel)⟩,
    ⟨1, stTim [(F.RING_PORT_STAT_SECURE, 1, 1), (F.RING_STATE_INS, 0, 4)] { dirs := [(0, { valid := true, forward := true })] }, 125020000 * 65536,
      rfl, (by decide +kernel), (by decide +kernel), (by decide +kernel), (by decide +kernel), (by decide +kernel)⟩,
    ⟨0, stTim [(F.RING_PORT_STAT_SECURE, 0, 1), (F.RING_STATE_INS, 0, 5)] {}, 125120000 * 65536,
      rfl, (by decide +kernel), (by decide +kernel), (by decide +kernel), (by decide +kernel), (by decide +kernel)⟩,
    ⟨0, stTim [(F.TIM_STATE_PATH_A, 0, 1), (F.TIM_STATE_EVER_LOCKED, 0, 1), (F.TIM_STATE_LOCKED, 0, 1)] { dirs := [(0, { valid := true, recDeal := 999 })] },
      rfl, (by decide +kernel), (by decide +kernel), (by decide +kernel)⟩,
    ⟨1, stTim [(F.TIM_STATE_PATH_B, 0, 1), (F.TIM_STATE_PATH_A, 0, 1)] { dirs := [(0, { valid := true, recDeal := 1000 }), (1, { valid := true, recDeal := 999 })] },
      rfl, (by decide +kernel), (by decide +kernel), (by decide +kernel)⟩⟩

/-- States and operands that meet the hypotheses of TimeLocks. -/
theorem test_meets_time_locks :
    (∃ (s : State),
      Awake s ∧ s.m.tim.stepped = false ∧ flag s.m F.TIM_STATE_EVER_LOCKED = false ∧ flag s.m F.TIM_STATE_SOURCE = false ∧ avgFull s.m = true ∧ s.m.tim.avg ≠ []) ∧
    (∃ (s : State),
      Awake s ∧ s.m.tim.stepped = false ∧ flag s.m F.TIM_STATE_EVER_LOCKED = false ∧ flag s.m F.TIM_STATE_SOURCE = false ∧ avgFull s.m = true ∧ s.m.tim.avg ≠ []) ∧
    (∃ (s : State),
      Awake s ∧ s.m.tim.stepped = true ∧ ((flag s.m F.TIM_STATE_LOCKED = false ∨ s.m.tim.relock = true)) ∧ flag s.m F.TIM_STATE_SLEWING = false ∧ s.m.tim.judge = false ∧ flag s.m F.TIM_STATE_HOLD = false ∧ su s.m F.TIM_LOCK_DEALS ≤ s.m.tim.lockRun) ∧
    (∃ (s : State),
      Awake s ∧ s.m.tim.stepped = true ∧ ((flag s.m F.TIM_STATE_LOCKED = false ∨ s.m.tim.relock = true)) ∧ flag s.m F.TIM_STATE_SLEWING = false ∧ s.m.tim.judge = false ∧ flag s.m F.TIM_STATE_HOLD = false ∧ su s.m F.TIM_LOCK_DEALS ≤ s.m.tim.lockRun) ∧
    (∃ (s : State),
      Awake s ∧ s.m.tim.judge = true ∧ flag s.m F.TIM_STATE_EVER_LOCKED = true ∧ avgFull s.m = true ∧ su s.m F.TIM_STEP_NS * 1000 < (thetaAvg s.m).natAbs) ∧
    (∃ (s : State),
      Awake s ∧ flag s.m F.TIM_STATE_SLEWING = true ∧ s.m.tim.slewRem = 0) :=
  ⟨⟨stTim [(F.TIM_RING_FILT, 0, 4)] { ns := 125000000, avg := [5000000, 5000000, 5000000, 5000001] },
      rfl, (by decide +kernel), (by decide +kernel), (by decide +kernel), (by decide +kernel), (by decide +kernel)⟩,
    ⟨stTim [(F.TIM_RING_FILT, 0, 1)] { ns := 1000, avg := [5000000000] },
      rfl, (by decide +kernel), (by decide +kernel), (by decide +kernel), (by decide +kernel), (by decide +kernel)⟩,
    ⟨stTim [(F.TIM_LOCK_DEALS, 0, 8)] { stepped := true, lockRun := 8 },
      rfl, (by decide +kernel), (by decide +kernel), (by decide +kernel), (by decide +kernel), (by decide +kernel), (by decide +kernel)⟩,
    ⟨stTim [(F.TIM_LOCK_DEALS, 0, 8), (F.TIM_STATE_LOCKED, 0, 1), (F.TIM_STATE_EVER_LOCKED, 0, 1)] { stepped := true, lockRun := 8, relock := true },
      rfl, (by decide +kernel), (by decide +kernel), (by decide +kernel), (by decide +kernel), (by decide +kernel), (by decide +kernel)⟩,
    ⟨stTim [(F.TIM_STATE_EVER_LOCKED, 0, 1), (F.TIM_RING_FILT, 0, 1), (F.TIM_STEP_NS, 0, 1000)] { judge := true, avg := [-1000001], ns := 5, frac := 7 },
      rfl, (by decide +kernel), (by decide +kernel), (by decide +kernel), (by decide +kernel)⟩,
    ⟨stTim [(F.TIM_STATE_SLEWING, 0, 1)] { ns := 5 },
      rfl, (by decide +kernel), (by decide +kernel)⟩⟩

/-- States and operands that meet the hypotheses of TimeUnitIsSet. -/
theorem test_meets_time_unit_is_set :
    (∃ (s : State),
      Awake s ∧ s.m.tim.todWait = true) ∧
    (∃ (s : State) (v : Word),
      Awake s ∧ flag s.m F.SYS_LOCK_LOCK = false ∧ v.toNat % 4 ≠ 3 ∧ v.toNat % 4 ≠ rd s.m F.TIM_CTRL_MODE) ∧
    (∃ (s : State) (v : Word),
      Awake s ∧ flag s.m F.SYS_LOCK_LOCK = false ∧ v.toNat % 4 ≠ 3 ∧ v.toNat % 4 ≠ rd s.m F.TIM_CTRL_MODE) ∧
    (∃ (s : State),
      Awake s ∧ su s.m F.TIM_CTRL_PPS_OUT_EN = 1 ∧ flag s.m F.TIM_STATE_EVER_LOCKED = true) ∧
    (∃ (s : State),
      Awake s ∧ flag s.m F.TIM_STATE_EVER_LOCKED = false) :=
  ⟨⟨stTim [(F.TIM_TOD_SEC_HI_SEC, 0, 1), (F.TIM_TOD_SEC_LO_SEC, 0, 9)] { todWait := true },
      rfl, (by decide +kernel)⟩,
    ⟨stTim [(F.TIM_STATE_LOCKED, 0, 1), (F.TIM_STATE_EVER_LOCKED, 0, 1)] { stepped := true, avg := [4] }, 6#32,
      rfl, (by decide +kernel), (by decide +kernel), (by decide +kernel)⟩,
    ⟨stTim [(F.TIM_STATE_LOCKED, 0, 1), (F.TIM_STATE_EVER_LOCKED, 0, 1)] { stepped := true, avg := [4] }, 1#32,
      rfl, (by decide +kernel), (by decide +kernel), (by decide +kernel)⟩,
    ⟨stTim [(F.TIM_CTRL_PPS_OUT_EN, 0, 1), (F.TIM_STATE_EVER_LOCKED, 0, 1), (F.TIM_PPS_WIDTH_MS, 0, 100)] {},
      rfl, (by decide +kernel), (by decide +kernel)⟩,
    ⟨stTim [(F.TIM_CTRL_PPS_OUT_EN, 0, 1)] {},
      rfl, (by decide +kernel)⟩⟩

/-- States and operands that meet the hypotheses of PtpPortsRun. -/
theorem test_meets_ptp_ports_run :
    (∃ (l : Nat) (s : State) (k : PtpIn) (g : GmSet),
      Awake s ∧ l < 2 ∧ ptpMine s.m l k = true ∧ k.body = .announce g) ∧
    (∃ (l : Nat) (s : State) (k : PtpIn) (g : GmSet),
      Awake s ∧ l < 2 ∧ ptpMine s.m l k = true ∧ k.body = .announce g) ∧
    (∃ (l : Nat) (s : State) (k : PtpIn) (g : GmSet),
      Awake s ∧ l < 2 ∧ ptpMine s.m l k = true ∧ k.body = .announce g) ∧
    (∃ (l : Nat) (s : State) (k : PtpIn) (t1 : Nat) (t2 : Nat),
      Awake s ∧ l < 2 ∧ ptpMine s.m l k = true ∧ k.body = .sync t1 t2 ∧ rdi s.m F.TIM_PTP_STAT_STATE l = 9) ∧
    (∃ (l : Nat) (s : State) (k : PtpIn) (t1 : Nat) (t2 : Nat),
      Awake s ∧ l < 2 ∧ ptpMine s.m l k = true ∧ k.body = .sync t1 t2 ∧ rdi s.m F.TIM_PTP_STAT_STATE l = 9) ∧
    (∃ (l : Nat) (s : State) (k : PtpIn) (t1 : Nat) (t2 : Nat) (t3 : Nat) (t4 : Nat),
      Awake s ∧ l < 2 ∧ ptpMine s.m l k = true ∧ k.body = .delay t1 t2 t3 t4) ∧
    (∃ (l : Nat) (s : State) (k : PtpIn) (t1 : Nat) (t2 : Nat) (t3 : Nat) (t4 : Nat),
      Awake s ∧ l < 2 ∧ ptpMine s.m l k = true ∧ k.body = .delay t1 t2 t3 t4) ∧
    (∃ (l : Nat) (s : State) (kind : Nat),
      Awake s ∧ l < 2 ∧ kind ≤ 2 ∧ ptpRuns s.m l = true ∧ ptpSends s.m l kind = true ∧ (∀ t, mfind (ptpPort s.m l).sent kind = some t → t + ptpEvery s.m l kind ≤ s.m.ticks)) ∧
    (∃ (l : Nat) (s : State) (kind : Nat),
      Awake s ∧ l < 2 ∧ kind ≤ 2 ∧ ptpRuns s.m l = true ∧ ptpSends s.m l kind = true ∧ (∀ t, mfind (ptpPort s.m l).sent kind = some t → t + ptpEvery s.m l kind ≤ s.m.ticks)) ∧
    (∃ (l : Nat) (s : State) (kind : Nat),
      Awake s ∧ l < 2 ∧ kind ≤ 2 ∧ ptpRuns s.m l = true ∧ ptpSends s.m l kind = true ∧ (∀ t, mfind (ptpPort s.m l).sent kind = some t → t + ptpEvery s.m l kind ≤ s.m.ticks)) ∧
    (∃ (l : Nat) (s : State) (g : GmSet),
      Awake s ∧ l < 2 ∧ ptpRuns s.m l = true ∧ ptpForced s.m l = false ∧ ptpTimeoutAt s.m l ≤ s.m.ticks) ∧
    (∃ (l : Nat) (s : State) (g : GmSet),
      Awake s ∧ l < 2 ∧ ptpRuns s.m l = true ∧ ptpForced s.m l = false ∧ ptpTimeoutAt s.m l ≤ s.m.ticks) :=
  ⟨⟨1, stTim [(F.TIM_PTP_CTRL_ROLE, 1, 1), (F.TIM_PTP_PRIO_PRIORITY1, 1, 246), (F.TIM_CTRL_MODE, 0, 2)] {}, ⟨true, 0, true, true, .announce ⟨5, 6, 7, 77, 1⟩⟩, ⟨5, 6, 7, 77, 1⟩,
      rfl, (by decide +kernel), (by decide +kernel), (by decide +kernel)⟩,
    ⟨1, st { (stTim [(F.TIM_PTP_CTRL_ROLE, 1, 1), (F.TIM_CTRL_MODE, 0, 2), (F.TIM_PTP_STAT_STATE, 1, 9)] { ptp := [(1, { gmId := 3, annTick := 5 })] }).m with ticks := 6 }, ⟨true, 0, true, true, .announce ⟨5, 6, 7, 77, 1⟩⟩, ⟨5, 6, 7, 77, 1⟩,
      rfl, (by decide +kernel), (by decide +kernel), (by decide +kernel)⟩,
    ⟨0, stTim [(F.TIM_PTP_CTRL_ROLE, 0, 3), (F.TIM_PTP_STAT_STATE, 0, 6), (F.TIM_PTP_CTRL_DOMAIN, 0, 9)] {}, ⟨false, 9, false, false, .announce ⟨5, 300, 7, 77, 70000⟩⟩, ⟨5, 300, 7, 77, 70000⟩,
      rfl, (by decide +kernel), (by decide +kernel), (by decide +kernel)⟩,
    ⟨1, stTim [(F.TIM_PTP_CTRL_ROLE, 1, 1), (F.TIM_PTP_STAT_STATE, 1, 9), (F.TIM_CTRL_MODE, 0, 2)] { ptp := [(1, { pathDelay := 40 })] }, ⟨true, 0, true, true, .sync 65536000 65537000⟩, 65536000, 65537000,
      rfl, (by decide +kernel), (by decide +kernel), (by decide +kernel), (by decide +kernel)⟩,
    ⟨0, stTim [(F.TIM_PTP_CTRL_ROLE, 0, 1), (F.TIM_PTP_STAT_STATE, 0, 9)] {}, ⟨true, 0, true, true, .sync 65537000 65536000⟩, 65537000, 65536000,
      rfl, (by decide +kernel), (by decide +kernel), (by decide +kernel), (by decide +kernel)⟩,
    ⟨1, stTim [(F.TIM_PTP_CTRL_ROLE, 1, 1)] {}, ⟨true, 0, true, true, .delay 65536 131072 196608 400000⟩, 65536, 131072, 196608, 400000,
      rfl, (by decide +kernel), (by decide +kernel), (by decide +kernel)⟩,
    ⟨0, stTim [(F.TIM_PTP_CTRL_ROLE, 0, 3), (F.TIM_CTRL_MODE, 0, 2)] { ptp := [(0, { t1 := 65536, t2 := 131072 })] }, ⟨false, 0, false, false, .delay 0 0 196608 400000⟩, 0, 0, 196608, 400000,
      rfl, (by decide +kernel), (by decide +kernel), (by decide +kernel)⟩,
    ⟨1, stTim [(F.TIM_PTP_CTRL_ROLE, 1, 1)] {}, 2,
      rfl, (by decide +kernel), (by decide +kernel), (by decide +kernel), (by decide +kernel), (by intro t h; cases h)⟩,
    ⟨0, stTim [(F.TIM_PTP_CTRL_ROLE, 0, 4), (F.TIM_PTP_STAT_STATE, 0, 6)] {}, 0,
      rfl, (by decide +kernel), (by decide +kernel), (by decide +kernel), (by decide +kernel), (by intro t h; cases h)⟩,
    ⟨0, st { (stTim [(F.TIM_PTP_CTRL_ROLE, 0, 4), (F.TIM_PTP_STAT_STATE, 0, 6)] { ptp := [(0, { sent := [(1, 5)] })] }).m with ticks := 900000 }, 1,
      rfl, (by decide +kernel), (by decide +kernel), (by decide +kernel), (by decide +kernel), (by intro t h; cases h; decide +kernel)⟩,
    ⟨1, st { (stTim [(F.TIM_PTP_CTRL_ROLE, 1, 1), (F.TIM_PTP_STAT_STATE, 1, 9), (F.TIM_CTRL_MODE, 0, 2)] {}).m with ticks := 900000 }, ⟨5, 300, 7, 77, 70000⟩,
      rfl, (by decide +kernel), (by decide +kernel), (by decide +kernel), (by decide +kernel)⟩,
    ⟨1, st { (stTim [(F.TIM_PTP_CTRL_ROLE, 1, 5), (F.TIM_PTP_STAT_STATE, 1, 9), (F.TIM_CTRL_MODE, 0, 2)] {}).m with ticks := 900000 }, ⟨5, 300, 7, 77, 70000⟩,
      rfl, (by decide +kernel), (by decide +kernel), (by decide +kernel), (by decide +kernel)⟩⟩

/-- States and operands that meet the hypotheses of IntervalCounterStamps. -/
theorem test_meets_interval_counter_stamps :
    (∃ (coarse : Nat) (fine : Nat) (s : State) (ch : Nat) (falling : Bool),
      Awake s ∧ flag s.m F.TIC_CTRL_ENABLE = true ∧ ch < 8 ∧ ticTakes s.m ch falling = true ∧ (∀ t, mfind s.m.tic.lastAt ch = some t → t + 512 ≤ coarse * 64 + fine) ∧ mget 0 s.m.tic.edges ch < rdi s.m F.TIC_CH_DIV ch) ∧
    (∃ (coarse : Nat) (fine : Nat) (s : State) (ch : Nat) (falling : Bool),
      Awake s ∧ flag s.m F.TIC_CTRL_ENABLE = true ∧ ch < 8 ∧ ticTakes s.m ch falling = true ∧ (∀ t, mfind s.m.tic.lastAt ch = some t → t + 512 ≤ coarse * 64 + fine) ∧ rdi s.m F.TIC_CH_DIV ch ≤ mget 0 s.m.tic.edges ch ∧ (fifo s.m (0x0700 + ch)).entries.length < 64) ∧
    (∃ (coarse : Nat) (fine : Nat) (s : State) (ch : Nat) (falling : Bool),
      Awake s ∧ flag s.m F.TIC_CTRL_ENABLE = true ∧ ch < 8 ∧ ticTakes s.m ch falling = true ∧ (∀ t, mfind s.m.tic.lastAt ch = some t → t + 512 ≤ coarse * 64 + fine) ∧ rdi s.m F.TIC_CH_DIV ch ≤ mget 0 s.m.tic.edges ch ∧ (fifo s.m (0x0700 + ch)).entries.length < 64) ∧
    (∃ (coarse : Nat) (fine : Nat) (s : State),
      Awake s ∧ flag s.m F.TIC_CTRL_ENABLE = true ∧ flag s.m F.TIC_CTRL_ANCHOR = true ∧ (fifo s.m 0x0708).entries.length < 64) ∧
    (∃ (coarse : Nat) (fine : Nat) (s : State),
      Awake s ∧ flag s.m F.TIC_CTRL_ENABLE = true ∧ s.m.tic.tbExt = true ∧ flag s.m F.TIC_STATUS_TB_HOLD = false) ∧
    (∃ (coarse : Nat) (fine : Nat) (s : State),
      Awake s ∧ flag s.m F.TIC_CTRL_ENABLE = true ∧ s.m.tic.tbExt = true ∧ ((flag s.m F.TIC_STATUS_TB_LOCKED = false ∨ flag s.m F.TIC_STATUS_EXT_PRESENT = false))) ∧
    (∃ (coarse : Nat) (fine : Nat) (s : State),
      Awake s ∧ flag s.m F.TIC_CTRL_ENABLE = true ∧ s.m.tic.tbExt = true ∧ ((flag s.m F.TIC_STATUS_TB_LOCKED = false ∨ flag s.m F.TIC_STATUS_EXT_PRESENT = false))) :=
  ⟨⟨100, 5, stTic [(F.TIC_CH_EN, 7, 1), (F.TIC_CH_DIV, 7, 2)] { edges := [(7, 1)], lastAt := [(7, 5893)] }, 7, false,
      rfl, (by decide +kernel), (by decide +kernel), (by decide +kernel), (by intro t h; cases h; decide +kernel), (by decide +kernel)⟩,
    ⟨100, 5, stTic [(F.TIC_CH_EN, 7, 1), (F.TIC_CH_DIV, 7, 2)] { edges := [(7, 2)], lastAt := [(7, 5893)], seq := [(7, 0xFFFFFFFF)] }, 7, false,
      rfl, (by decide +kernel), (by decide +kernel), (by decide +kernel), (by intro t h; first | (cases h; done) | (cases h; decide +kernel)), (by decide +kernel), (by decide +kernel)⟩,
    ⟨100, 5, stTic [(F.TIC_CH_EN, 0, 1), (F.TIC_CH_FALL, 0, 1)] {}, 0, true,
      rfl, (by decide +kernel), (by decide +kernel), (by decide +kernel), (by intro t h; first | (cases h; done) | (cases h; decide +kernel)), (by decide +kernel), (by decide +kernel)⟩,
    ⟨9, 63, stTic [(F.TIC_CTRL_ANCHOR, 0, 1)] {},
      rfl, (by decide +kernel), (by decide +kernel), (by decide +kernel)⟩,
    ⟨9, 0, stTic [(F.TIC_STATUS_TB_LOCKED, 0, 1)] { tbExt := true },
      rfl, (by decide +kernel), (by decide +kernel), (by decide +kernel)⟩,
    ⟨9, 0, stTic [(F.TIC_STATUS_TB_HOLD, 0, 1)] { tbExt := true },
      rfl, (by decide +kernel), (by decide +kernel), (by decide +kernel)⟩,
    ⟨9, 0, stTic [(F.TIC_STATUS_TB_LOCKED, 0, 1)] { tbExt := true },
      rfl, (by decide +kernel), (by decide +kernel), (by decide +kernel)⟩⟩

/-- States and operands that meet the hypotheses of PortsStartAndStop. -/
theorem test_meets_ports_start_and_stop :
    (∃ (c : Cmd) (s : State),
      Awake s ∧ u64 c 24 ≠ 0 ∧ u64 c 24 < 2 ^ 48 ∧ Plain 0x0501 c s.m ∧ (bitsOf 48 (u64 c 24)).all (dirOk s.m) = true ∧ foldEntry s.m = none) ∧
    (∃ (c : Cmd) (s : State),
      Awake s ∧ u64 c 24 ≠ 0 ∧ u64 c 24 < 2 ^ 48 ∧ ((Plain 0x0502 c s.m ∨ Signed 0x0502 c s.m))) ∧
    (∃ (c : Cmd) (s : State),
      Awake s ∧ u64 c 24 ≠ 0 ∧ u64 c 24 < 2 ^ 48 ∧ ((Plain 0x0502 c s.m ∨ Signed 0x0502 c s.m))) :=
  ⟨⟨cmd [(24, 2^32 + 2^39)], stSap [] {},
      rfl, (by decide +kernel), (by decide +kernel), plain_of (by decide +kernel), (by decide +kernel), (by decide +kernel)⟩,
    ⟨cmd [(24, 5)], stSap [] { dirs := [(0, {}), (1, {}), (2, { stopAt := some 7 })], starts := [⟨2, 5, 2⟩, ⟨4, 5, 4⟩] },
      rfl, (by decide +kernel), (by decide +kernel), (.inl (plain_of (by decide +kernel)))⟩,
    ⟨sgn 0x0502 272 .none [(24, 5)], st { (stSap [] { dirs := [(0, {}), (1, {})] }).m with sec := keys0, ann := { latch := [(2, ⟨4, 55, 3⟩)] } },
      rfl, (by decide +kernel), (by decide +kernel), (.inr (signed_of (by decide +kernel)))⟩⟩

/-- States and operands that meet the hypotheses of SerialDirectionsRun. -/
theorem test_meets_serial_directions_run :
    (∃ (d : Nat) (x : Dir) (s : State) (f : FrameIn),
      Awake s ∧ d < 32 ∧ dirOf s.m d = some x ∧ f.dir = d ∧ f.away = false ∧ f.fifo = false ∧ x.domA = false ∧ x.susp = false ∧ x.zlo = none ∧ x.data = true ∧ x.clock = true) ∧
    (∃ (d : Nat) (x : Dir) (s : State) (f : FrameIn),
      Awake s ∧ d < 32 ∧ dirOf s.m d = some x ∧ f.dir = d ∧ f.away = false ∧ f.fifo = false ∧ x.domA = false ∧ x.susp = false ∧ x.zlo = none ∧ x.data = true ∧ x.clock = true) ∧
    (∃ (d : Nat) (x : Dir) (s : State) (r : Nat),
      Awake s ∧ d < 32 ∧ dirOf s.m d = some x ∧ x.gwait = false ∧ x.restart = some r ∧ r < s.m.deal) ∧
    (∃ (d : Nat) (x : Dir) (s : State),
      Awake s ∧ d < 32 ∧ dirOf s.m d = some x ∧ x.gwait = true ∧ (rd s.m F.CLK_AL_LOCK_LOCK).testBit (8 + x.grp) = true) ∧
    (∃ (d : Nat) (x : Dir) (s : State),
      Awake s ∧ d < 32 ∧ dirOf s.m d = some x ∧ x.clock = true ∧ x.master = false) ∧
    (∃ (d : Nat) (x : Dir) (s : State) (mhz : Nat),
      Awake s ∧ d < 32 ∧ dirOf s.m d = some x ∧ mhz < 2 ^ F.SAP_x_RATE_MHZ.width) ∧
    (∃ (d : Nat) (x : Dir) (s : State) (mhz : Nat),
      Awake s ∧ d < 32 ∧ dirOf s.m d = some x ∧ mhz < 2 ^ F.SAP_x_RATE_MHZ.width) ∧
    (∃ (d : Nat) (x : Dir) (s : State) (v : Word),
      Awake s ∧ d < 32 ∧ dirOf s.m d = some x) ∧
    (∃ (d : Nat) (x : Dir) (s : State) (f : FrameIn),
      Awake s ∧ d < 32 ∧ dirOf s.m d = some x ∧ f.dir = d ∧ f.offset < 2 ^ F.SAP_x_STAT_OFFSET.width ∧ ((f.fifo = true ∨ (f.away = true ∧ x.master = false ∧ 1 ≤ x.syncRun))) ∧ x.zlo = none ∧ x.stopAt = none) ∧
    (∃ (d : Nat) (x : Dir) (s : State) (f : FrameIn),
      Awake s ∧ d < 32 ∧ dirOf s.m d = some x ∧ f.dir = d ∧ f.offset < 2 ^ F.SAP_x_STAT_OFFSET.width ∧ ((f.fifo = true ∨ (f.away = true ∧ x.master = false ∧ 1 ≤ x.syncRun))) ∧ x.zlo = none ∧ x.stopAt = none) ∧
    (∃ (d : Nat) (x : Dir) (s : State) (f : FrameIn),
      Awake s ∧ d < 32 ∧ dirOf s.m d = some x ∧ f.dir = d ∧ f.offset < 2 ^ F.SAP_x_STAT_OFFSET.width ∧ ((f.fifo = true ∨ (f.away = true ∧ x.master = false ∧ 1 ≤ x.syncRun))) ∧ x.zlo = none ∧ x.stopAt = none) :=
  ⟨⟨0, { data := true, clock := true, frames := 3 }, stSap [] { dirs := [(0, { data := true, clock := true, frames := 3 })], cnt := [(0x0805, 3)] }, { dir := 0, k := 5, ns := 5, mhz := 48000000 },
      rfl, (by decide +kernel), (by decide +kernel), (by decide +kernel), (by decide +kernel), (by decide +kernel), (by decide +kernel), (by decide +kernel), (by decide +kernel), (by decide +kernel), (by decide +kernel)⟩,
    ⟨31, { data := true, clock := true, syncRun := 1 }, stSap [] { dirs := [(31, { data := true, clock := true, syncRun := 1 })] }, { dir := 31, k := 5, ns := 5, mhz := 48000000 },
      rfl, (by decide +kernel), (by decide +kernel), (by decide +kernel), (by decide +kernel), (by decide +kernel), (by decide +kernel), (by decide +kernel), (by decide +kernel), (by decide +kernel), (by decide +kernel)⟩,
    ⟨17, { restart := some 999, zlo := some 5994 }, stSap [] { dirs := [(17, { restart := some 999, zlo := some 5994 })] }, 999,
      rfl, (by decide +kernel), (by decide +kernel), (by decide +kernel), (by decide +kernel), (by decide +kernel)⟩,
    ⟨17, { gwait := true, grp := 3, zlo := some 5994, domA := true }, stSap [(F.CLK_AL_LOCK_LOCK, 0, 2 ^ 11)] { dirs := [(17, { gwait := true, grp := 3, zlo := some 5994, domA := true })] },
      rfl, (by decide +kernel), (by decide +kernel), (by decide +kernel), (by decide +kernel)⟩,
    ⟨17, { clock := true }, stSap [(F.SAP_x_STAT_CLOCK, 1, 1)] { dirs := [(17, { clock := true })] },
      rfl, (by decide +kernel), (by decide +kernel), (by decide +kernel), (by decide +kernel)⟩,
    ⟨17, { clock := true, rate := 48000000 }, stSap [(F.SAP_RATE_TOL_PPM, 0, 100)] { dirs := [(17, { clock := true, rate := 48000000 })] }, 44100000,
      rfl, (by decide +kernel), (by decide +kernel), (by decide +kernel)⟩,
    ⟨17, { clock := true, rate := 48000000 }, stSap [(F.SAP_RATE_TOL_PPM, 0, 100)] { dirs := [(17, { clock := true, rate := 48000000 })] }, 48000001,
      rfl, (by decide +kernel), (by decide +kernel), (by decide +kernel)⟩,
    ⟨31, { clock := true }, stSap [] { dirs := [(31, { clock := true })] }, 0x80000001#32,
      rfl, (by decide +kernel), (by decide +kernel)⟩,
    ⟨21, { domA := true, clock := true, width := 32 }, stSap [(F.SAP_x_CFG_AUTO_RESTART, 5, 1)] { dirs := [(21, { domA := true, clock := true, width := 32 })] }, { dir := 21, k := 5, fifo := true, offset := 32, ns := 5, mhz := 48000000 },
      rfl, (by decide +kernel), (by decide +kernel), (by decide +kernel), (by decide +kernel), (by decide +kernel), (by decide +kernel), (by decide +kernel)⟩,
    ⟨31, { domA := true, clock := true, rots := [(5990, 1)] }, stSap [] { dirs := [(31, { domA := true, clock := true, rots := [(5990, 1)] })] }, { dir := 31, k := 0, fifo := true, offset := 1023, ns := 5, mhz := 48000000 },
      rfl, (by decide +kernel), (by decide +kernel), (by decide +kernel), (by decide +kernel), (by decide +kernel), (by decide +kernel), (by decide +kernel)⟩,
    ⟨3, { clock := true, syncRun := 1 }, stSap [] { dirs := [(3, { clock := true, syncRun := 1 })] }, { dir := 3, k := 0, away := true, offset := 3, ns := 5, mhz := 48000000 },
      rfl, (by decide +kernel), (by decide +kernel), (by decide +kernel), (by decide +kernel), (by decide +kernel), (by decide +kernel), (by decide +kernel)⟩⟩

/-- States and operands that meet the hypotheses of BiphasePortsRun. -/
theorem test_meets_biphase_ports_run :
    (∃ (r : Nat) (x : Dir) (s : State) (mhz : Nat),
      Awake s ∧ r < 8 ∧ dirOf s.m (32 + r) = some x ∧ rdi s.m F.AES_RX_STAT_LOCK r = 0) ∧
    (∃ (r : Nat) (x : Dir) (s : State),
      Awake s ∧ r < 8 ∧ dirOf s.m (32 + r) = some x ∧ rdi s.m F.AES_RX_STAT_LOCK r = 1) ∧
    (∃ (r : Nat) (x : Dir) (s : State) (e : AesErr),
      Awake s ∧ r < 8 ∧ dirOf s.m (32 + r) = some x ∧ e.r = r ∧ ((e.biphase = true ∨ e.parity = true))) ∧
    (∃ (r : Nat) (x : Dir) (s : State) (e : AesErr),
      Awake s ∧ r < 8 ∧ dirOf s.m (32 + r) = some x ∧ e.r = r ∧ ((e.biphase = true ∨ e.parity = true))) ∧
    (∃ (r : Nat) (x : Dir) (s : State) (b : AesBlk),
      Awake s ∧ r < 8 ∧ dirOf s.m (32 + r) = some x ∧ b.r = r ∧ rdi s.m F.AES_RX_STAT_LOCK r = 1) ∧
    (∃ (r : Nat) (x : Dir) (s : State) (b : AesBlk),
      Awake s ∧ r < 8 ∧ dirOf s.m (32 + r) = some x ∧ b.r = r ∧ rdi s.m F.AES_RX_STAT_LOCK r = 1) ∧
    (∃ (t : Nat) (s : State),
      Awake s ∧ t < 8 ∧ mfind s.m.sap.loads (2 * t) = none) ∧
    (∃ (t : Nat) (s : State),
      Awake s ∧ t < 8 ∧ mfind s.m.sap.loads (2 * t + 1) = none) ∧
    (∃ (t : Nat) (s : State),
      Awake s ∧ t < 8 ∧ mfind s.m.sap.loads (2 * t) ≠ none) ∧
    (∃ (t : Nat) (s : State),
      Awake s ∧ t < 8 ∧ mfind s.m.sap.loads (2 * t + 1) ≠ none) ∧
    (∃ (t : Nat) (s : State) (k : Nat),
      Awake s ∧ t < 8 ∧ mfind s.m.sap.loads (2 * t) = some k ∧ k < s.m.deal) ∧
    (∃ (t : Nat) (s : State) (k : Nat),
      Awake s ∧ t < 8 ∧ mfind s.m.sap.loads (2 * t + 1) = some k ∧ k < s.m.deal) :=
  ⟨⟨7, {}, stSap [] { dirs := [(39, {})] }, 48000000,
      rfl, (by decide +kernel), (by decide +kernel), (by decide +kernel)⟩,
    ⟨7, { rate := 48000000, clock := true }, stSap [(F.AES_RX_STAT_LOCK, 7, 1)] { dirs := [(39, { rate := 48000000, clock := true })] },
      rfl, (by decide +kernel), (by decide +kernel), (by decide +kernel)⟩,
    ⟨0, {}, stSap [(F.AES_RX_STAT_LOCK, 0, 1)] { dirs := [(32, {})] }, ⟨0, true, false, 64⟩,
      rfl, (by decide +kernel), (by decide +kernel), (by decide +kernel), (by decide +kernel)⟩,
    ⟨7, {}, stSap [(F.AES_RX_STAT_LOCK, 7, 1)] { dirs := [(39, {})], runs := [(7, { parity := 1 })] }, ⟨7, false, true, 63⟩,
      rfl, (by decide +kernel), (by decide +kernel), (by decide +kernel), (by decide +kernel)⟩,
    ⟨0, {}, stSap [(F.AES_RX_STAT_LOCK, 0, 1), (F.AES_RX_STAT_CS_SEQ, 0, 255)] { dirs := [(32, {})] }, { r := 0, csA := 2^191 + 5, csB := 3, uA := 2^191 + 7, uB := 1, crcOk := true, vA := true },
      rfl, (by decide +kernel), (by decide +kernel), (by decide +kernel), (by decide +kernel)⟩,
    ⟨7, {}, stSap [(F.AES_RX_STAT_LOCK, 7, 1), (F.AES_RX_STAT_CS_SEQ, 7, 9)] { dirs := [(39, {})] }, { r := 7, csA := 5, csB := 2, uA := 7, uB := 1, crcOk := false, vB := true },
      rfl, (by decide +kernel), (by decide +kernel), (by decide +kernel), (by decide +kernel)⟩,
    ⟨7, stSap [] {},
      rfl, (by decide +kernel), (by decide +kernel)⟩,
    ⟨7, stSap [] {},
      rfl, (by decide +kernel), (by decide +kernel)⟩,
    ⟨0, stSap [(F.AES_TX_CFG_CS_LOAD, 0, 1)] { loads := [(0, 7)] },
      rfl, (by decide +kernel), (by decide +kernel)⟩,
    ⟨0, stSap [(F.AES_TX_CFG_U_LOAD, 0, 1)] { loads := [(1, 7)] },
      rfl, (by decide +kernel), (by decide +kernel)⟩,
    ⟨7, stSap [(F.AES_TX_CFG_CS_LOAD, 7, 1)] { loads := [(14, 999)] }, 999,
      rfl, (by decide +kernel), (by decide +kernel), (by decide +kernel)⟩,
    ⟨7, stSap [(F.AES_TX_CFG_U_LOAD, 7, 1)] { loads := [(15, 999)] }, 999,
      rfl, (by decide +kernel), (by decide +kernel), (by decide +kernel)⟩⟩

/-- States and operands that meet the hypotheses of StreamsOpenAndClose. -/
theorem test_meets_streams_open_and_close :
    (∃ (c : Cmd) (s : State),
      let role := u8 c 26; let k := u16 c 24; let x := ctxOf s.m role k; let m0 := setCtx role k (unlessClosing x) s.m; Awake s ∧ Plain 0x0401 c s.m ∧ openCommonOk c = true ∧ openKindOk c s.m = true ∧ ((x.isOpen = false ∨ x.closeAt.isSome = true)) ∧ frameLen (asked c s.m) s.m ≤ frameMax (asked c s.m) s.m ∧ (ctxs m0 role).any (fun p => clash m0 (asked c s.m) p.2) = false ∧ chUsed m0 role + (asked c s.m).ch ≤ (if s.m.frm.rate = 1 then 1024 else 2048)) ∧
    (∃ (c : Cmd) (s : State),
      let role := u8 c 26; let k := u16 c 24; let x := ctxOf s.m role k; let m0 := setCtx role k (unlessClosing x) s.m; Awake s ∧ Plain 0x0401 c s.m ∧ openCommonOk c = true ∧ openKindOk c s.m = true ∧ ((x.isOpen = false ∨ x.closeAt.isSome = true)) ∧ frameLen (asked c s.m) s.m ≤ frameMax (asked c s.m) s.m ∧ (ctxs m0 role).any (fun p => clash m0 (asked c s.m) p.2) = false ∧ chUsed m0 role + (asked c s.m).ch ≤ (if s.m.frm.rate = 1 then 1024 else 2048)) ∧
    (∃ (c : Cmd) (s : State),
      let role := u8 c 26; let k := u16 c 24; let x := ctxOf s.m role k; Awake s ∧ Plain 0x0402 c s.m ∧ k < 1024 ∧ role < 2 ∧ x.isOpen = true ∧ x.closeAt = none) ∧
    (∃ (c : Cmd) (s : State),
      let role := u8 c 26; let k := u16 c 24; let x := ctxOf s.m role k; Awake s ∧ Plain 0x0402 c s.m ∧ k < 1024 ∧ role < 2 ∧ x.isOpen = true ∧ x.closeAt = none) ∧
    (∃ (c : Cmd) (s : State),
      let role := u8 c 26; let k := u16 c 24; let x := ctxOf s.m role k; Awake s ∧ Plain 0x0402 c s.m ∧ k < 1024 ∧ role < 2 ∧ x.isOpen = true ∧ x.closeAt.isSome = true) ∧
    (∃ (c : Cmd) (s : State),
      Awake s ∧ Plain 0x0403 c s.m ∧ 1 ≤ u16 c 24 ∧ u16 c 24 ≤ 16384 ∧ bufLen c = 8 * u16 c 24 ∧ bufOk c false s.m = true ∧ ((records 8 (u16 c 24) (bufBytes c)).map mapEntry).all mapEntryOk = true ∧ mapUnique (((records 8 (u16 c 24) (bufBytes c)).map mapEntry).foldl mapPut s.m.str.chmap) = true) :=
  ⟨⟨openAaf, stStr [] { lis := [(3, { isOpen := true, id := 5, ch := 2 })] },
      rfl, plain_of (by decide +kernel), (by decide +kernel), (by decide +kernel), (by decide +kernel), (by decide +kernel), (by decide +kernel), (by decide +kernel)⟩,
    ⟨openAaf, stStr [] { lis := [(1023, { isOpen := true, id := 5, ch := 2, closeAt := some 999 })] },
      rfl, plain_of (by decide +kernel), (by decide +kernel), (by decide +kernel), (by decide +kernel), (by decide +kernel), (by decide +kernel), (by decide +kernel)⟩,
    ⟨cmd [(24, 3), (26, 0)], stStr [] { lis := [(3, { isOpen := true, id := 5, ch := 2 })] },
      rfl, plain_of (by decide +kernel), (by decide +kernel), (by decide +kernel), (by decide +kernel), (by decide +kernel)⟩,
    ⟨cmd [(24, 3), (26, 1)], stStr [] { tal := [(3, { isOpen := true, id := 5, ch := 2, p := 4, first := 997 })] },
      rfl, plain_of (by decide +kernel), (by decide +kernel), (by decide +kernel), (by decide +kernel), (by decide +kernel)⟩,
    ⟨cmd [(24, 1023), (26, 1)], stStr [] { tal := [(1023, { isOpen := true, id := 5, ch := 2, p := 4, first := 997, closeAt := some 1001 })] },
      rfl, plain_of (by decide +kernel), (by decide +kernel), (by decide +kernel), (by decide +kernel), (by decide +kernel)⟩,
    ⟨cmdBuf 8 (.bytes (leBytes 8 (5 + 1 * 2^16 + 3 * 2^24 + 7 * 2^32 + 9 * 2^48))) [(24, 1)], stStr [] { chmap := [(2, { kind := 2, ch := 0, ctx := 1, slot := 3 })] },
      rfl, plain_of (by decide +kernel), (by decide +kernel), (by decide +kernel), (by decide +kernel), (by decide +kernel), (by decide +kernel), (by decide +kernel)⟩⟩

/-- States and operands that meet the hypotheses of StreamsReceive. -/
theorem test_meets_streams_receive :
    (∃ (s : State) (p : StreamPkt) (k : Nat),
      Awake s ∧ (s.m.str.lis.filter (fun q => heard s.m p q.2)).map Prod.fst = [k] ∧ malReason (ctxOf s.m 0 k) p s.m = 0 ∧ seqJudge (ctxOf s.m 0 k) p.seq = 0) ∧
    (∃ (s : State) (p : StreamPkt) (k : Nat),
      Awake s ∧ (s.m.str.lis.filter (fun q => heard s.m p q.2)).map Prod.fst = [k] ∧ malReason (ctxOf s.m 0 k) p s.m = 0 ∧ seqJudge (ctxOf s.m 0 k) p.seq = 0) ∧
    (∃ (s : State) (p : StreamPkt) (k : Nat),
      Awake s ∧ (s.m.str.lis.filter (fun q => heard s.m p q.2)).map Prod.fst = [k] ∧ malReason (ctxOf s.m 0 k) p s.m ≠ 0) ∧
    (∃ (s : State) (p : StreamPkt) (k : Nat),
      Awake s ∧ (s.m.str.lis.filter (fun q => heard s.m p q.2)).map Prod.fst = [k] ∧ malReason (ctxOf s.m 0 k) p s.m ≠ 0) ∧
    (∃ (s : State) (k : Nat),
      Awake s ∧ (ctxOf s.m 0 k).isOpen = true ∧ (ctxOf s.m 0 k).susp = false ∧ (ctxOf s.m 0 k).lost = false ∧ su s.m F.STR_LOSS_DEALS + (ctxOf s.m 0 k).lastAcc ≤ s.m.deal) ∧
    (∃ (s : State) (k : Nat) (r : Nat),
      Awake s ∧ (ctxOf s.m 0 k).isOpen = true ∧ (ctxOf s.m 0 k).kind = 2 ∧ (ctxOf s.m 0 k).phaseRef = some r ∧ r < (ctxOf s.m 0 k).lastStamp) ∧
    (∃ (s : State) (k : Nat) (r : Nat),
      Awake s ∧ (ctxOf s.m 0 k).isOpen = true ∧ (ctxOf s.m 0 k).kind = 2 ∧ (ctxOf s.m 0 k).phaseRef = some r ∧ r < (ctxOf s.m 0 k).lastStamp) ∧
    (∃ (s : State) (l : Nat) (addr : Nat),
      Awake s ∧ su s.m F.STR_CTRL_ARP_EN = 1 ∧ ((l = 2 ∨ l = 3)) ∧ addr ≠ 0 ∧ rdi s.m F.STR_IP_ADDR_ADDR (l - 2) = addr) ∧
    (∃ (s : State) (l : Nat) (addr : Nat),
      Awake s ∧ su s.m F.STR_CTRL_ARP_EN = 1 ∧ ((l = 2 ∨ l = 3)) ∧ addr ≠ 0 ∧ rdi s.m F.STR_IP_ADDR_ADDR (l - 2) = addr) ∧
    (∃ (s : State) (l : Nat) (q : Nat × Machine.Stream),
      Awake s ∧ su s.m F.STR_CTRL_IGMP_EN = 1 ∧ q ∈ s.m.str.lis ∧ q.2.isOpen = true ∧ q.2.kind = 1 ∧ q.2.port = l ∧ q.2.dest / 2 ^ 28 = 0xE) :=
  ⟨⟨stStr [] { lis := [(7, lis0), (8, { lis0 with id := 6 })] }, pkt0, 7,
      rfl, (by decide +kernel), (by decide +kernel), (by decide +kernel)⟩,
    ⟨stStr [] { lis := [(7, { lis0 with high := some 3, recs := [3] })] }, pkt0, 7,
      rfl, (by decide +kernel), (by decide +kernel), (by decide +kernel)⟩,
    ⟨stStr [] { lis := [(7, lis0)] }, { pkt0 with chans := 2 }, 7,
      rfl, (by decide +kernel), (by decide +kernel)⟩,
    ⟨stStr [] { lis := [(7, { lis0 with malRun := 3 })] }, { pkt0 with len := 25 }, 7,
      rfl, (by decide +kernel), (by decide +kernel)⟩,
    ⟨stStr [(F.STR_LOSS_DEALS, 0, 8)] { lis := [(7, { lis0 with lastAcc := 992 })] }, 7,
      rfl, (by decide +kernel), (by decide +kernel), (by decide +kernel), (by decide +kernel)⟩,
    ⟨stStr [(F.STR_CRF_WARN_PPB, 0, 5)] { lis := [(7, { lis0 with kind := 2, phaseRef := some 0, drift := 1000, lastStamp := 1000000000 })] }, 7, 0,
      rfl, (by decide +kernel), (by decide +kernel), (by decide +kernel), (by decide +kernel)⟩,
    ⟨stStr [(F.STR_CRF_WARN_PPB, 0, 5000000)] { lis := [(7, { lis0 with kind := 2, phaseRef := some 999999999, drift := -1, lastStamp := 1000000000 })] }, 7, 999999999,
      rfl, (by decide +kernel), (by decide +kernel), (by decide +kernel), (by decide +kernel)⟩,
    ⟨stStr [(F.STR_CTRL_ARP_EN, 0, 1), (F.STR_IP_ADDR_ADDR, 1, 0x0A000001)] {}, 3, 0x0A000001,
      rfl, (by decide +kernel), (by decide +kernel), (by decide +kernel), (by decide +kernel)⟩,
    ⟨stStr [(F.STR_CTRL_ARP_EN, 0, 1), (F.STR_IP_ADDR_ADDR, 0, 0x0A000002)] {}, 2, 0x0A000002,
      rfl, (by decide +kernel), (by decide +kernel), (by decide +kernel), (by decide +kernel)⟩,
    ⟨stStr [(F.STR_CTRL_IGMP_EN, 0, 1)] { lis := [(7, { lis0 with kind := 1, port := 2, dest := 0xEF000001 })] }, 2, (7, { lis0 with kind := 1, port := 2, dest := 0xEF000001 }),
      rfl, (by decide +kernel), (by decide +kernel), (by decide +kernel), (by decide +kernel), (by decide +kernel), (by decide +kernel)⟩⟩

/-- States and operands that meet the hypotheses of MeasurementAndIntercom. -/
theorem test_meets_measurement_and_intercom :
    (∃ (s : State) (c : Cmd),
      Awake s ∧ Plain 0x0302 c s.m ∧ renderStopping s.m = none ∧ measArgsOk c s.m = true ∧ measBufLen c ≤ bufLen c ∧ bufOk c false s.m = true ∧ bufOk c true s.m = true ∧ measListsOk c s.m = true ∧ s.m.cor.meas = none ∧ measBlocks c ≤ freeBlocks s.m) ∧
    (∃ (s : State) (x : Meas),
      Awake s ∧ s.m.cor.meas = some x ∧ x.st = 2) ∧
    (∃ (k : Nat) (s : State) (c : Cmd),
      Awake s ∧ k < 32 ∧ Plain 0x0801 c s.m ∧ u8 c 24 = k ∧ icomArgsOk c = true ∧ k < icomServed s.m ∧ u8 c 25 = 1) ∧
    (∃ (k : Nat) (s : State) (c : Cmd),
      Awake s ∧ k < 32 ∧ Plain 0x0801 c s.m ∧ u8 c 24 = k ∧ icomArgsOk c = true ∧ k < icomServed s.m ∧ u8 c 25 = 2 ∧ (icomOf s.m k).conn = true) ∧
    (∃ (k : Nat) (s : State) (c : Cmd),
      Awake s ∧ k < 32 ∧ Plain 0x0801 c s.m ∧ u8 c 24 = k ∧ icomArgsOk c = true ∧ k < icomServed s.m ∧ u8 c 25 = 0 ∧ (icomOf s.m k).conn = true) ∧
    (∃ (k : Nat) (s : State) (c : Cmd),
      Awake s ∧ k < 32 ∧ Plain 0x0801 c s.m ∧ u8 c 24 = k ∧ icomArgsOk c = true ∧ k < icomServed s.m ∧ u8 c 25 = 0 ∧ (icomOf s.m k).conn = false) ∧
    (∃ (k : Nat) (s : State) (erle : Nat),
      Awake s ∧ k < 32 ∧ icomRuns s.m k = true ∧ 200 ≤ erle ∧ erle < 2 ^ F.AEC_CH_STAT_ERLE.width) ∧
    (∃ (k : Nat) (s : State),
      Awake s ∧ k < 32 ∧ icomRuns s.m k = true) ∧
    (∃ (k : Nat) (s : State),
      Awake s ∧ k < 32 ∧ icomRuns s.m k = true ∧ (icomOf s.m k).talk = false) ∧
    (∃ (k : Nat) (s : State),
      Awake s ∧ k < 32 ∧ (icomOf s.m k).talk = true) :=
  ⟨⟨st { up [] with dk := { live := measDeck } }, measCmd,
      rfl, plain_of (by decide +kernel), (by decide +kernel), (by decide +kernel), (by decide +kernel), (by decide +kernel), (by decide +kernel), (by decide +kernel), (by decide +kernel), (by decide +kernel)⟩,
    ⟨st { up [(F.COR_MEAS_STAT_STATE, 0, 2)] with cor := { meas := some meas0 } }, meas0,
      rfl, (by decide +kernel), (by decide +kernel)⟩,
    ⟨31, st { up [] with frm := { aec := 2 } }, cmd [(24, 31), (25, 1), (26, 3), (27, 3), (28, 255), (29, 60), (30, 1024)],
      rfl, (by decide +kernel), plain_of (by decide +kernel), (by decide +kernel), (by decide +kernel), (by decide +kernel), (by decide +kernel)⟩,
    ⟨0, st { up [] with frm := { aec := 1 }, icom := [(0, { conn := true, ns := 1, zone := 4, talk := true })] }, cmd [(24, 0), (25, 2), (26, 1), (27, 2), (28, 5), (29, 6), (30, 7), (32, 0x900)],
      rfl, (by decide +kernel), plain_of (by decide +kernel), (by decide +kernel), (by decide +kernel), (by decide +kernel), (by decide +kernel), (by decide +kernel)⟩,
    ⟨31, st { up [] with frm := { aec := 2 }, icom := [(31, { conn := true, ns := 1 })] }, cmd [(24, 31), (25, 0)],
      rfl, (by decide +kernel), plain_of (by decide +kernel), (by decide +kernel), (by decide +kernel), (by decide +kernel), (by decide +kernel), (by decide +kernel)⟩,
    ⟨31, st { up [] with frm := { aec := 2 } }, cmd [(24, 31), (25, 0)],
      rfl, (by decide +kernel), plain_of (by decide +kernel), (by decide +kernel), (by decide +kernel), (by decide +kernel), (by decide +kernel), (by decide +kernel)⟩,
    ⟨31, st { up [] with icom := [(31, { conn := true, ns := 1 })] }, 65535,
      rfl, (by decide +kernel), (by decide +kernel), (by decide +kernel), (by decide +kernel)⟩,
    ⟨31, st { up [] with icom := [(31, { conn := true, ns := 1 })] },
      rfl, (by decide +kernel), (by decide +kernel)⟩,
    ⟨0, st { up [] with icom := [(0, { conn := true, ns := 1 })] },
      rfl, (by decide +kernel), (by decide +kernel), (by decide +kernel)⟩,
    ⟨31, st { up [] with icom := [(31, { conn := true, talk := true, hold := some 5 })] },
      rfl, (by decide +kernel), (by decide +kernel)⟩⟩

/-- States and operands that meet the hypotheses of FrameProgramRuns. -/
theorem test_meets_frame_program_runs :
    (∃ (s : State) (x : TickIn),
      Awake s ∧ s.m.pwr.reset = none ∧ s.m.pwr.req = none ∧ s.m.hif.held = [] ∧ s.m.hif.sent.any (fun q => q.waiting) = false) ∧
    (∃ (s : State) (x : TickIn),
      Awake s ∧ s.m.pwr.reset = none ∧ s.m.pwr.req = none ∧ s.m.hif.held = [] ∧ s.m.hif.sent.any (fun q => q.waiting) = false) ∧
    (∃ (s : State) (load : Nat),
      Awake s ∧ s.m.frm.committed = false ∧ ((parked s.m = true ∨ (trial { load := load } s.m).late = []))) ∧
    (∃ (s : State) (load : Nat),
      Awake s ∧ s.m.frm.committed = false ∧ ((parked s.m = true ∨ (trial { load := load } s.m).late = []))) ∧
    (∃ (s : State) (load : Nat),
      Awake s ∧ s.m.frm.committed = false ∧ ((parked s.m = true ∨ (trial { load := load } s.m).late = []))) ∧
    (∃ (s : State) (node : Nat) (cause : Nat) (instr : Nat) (addr : Nat) (d : NodeD),
      Awake s ∧ nodeAt s.m node = some d ∧ d.typ = 0x12 ∧ d.cluster < 16 ∧ (mget {} s.m.frm.nodes node).silent = false ∧ 1 ≤ cause ∧ cause ≤ 3) ∧
    (∃ (s : State) (c : Nat) (lanes : Nat) (signs : Nat) (node : Nat),
      Awake s ∧ c < 16 ∧ 0 < lanes ∧ lanes < 256) ∧
    (∃ (s : State) (c : Nat) (lanes : Nat) (signs : Nat) (node : Nat),
      Awake s ∧ c < 16 ∧ 0 < lanes ∧ lanes < 256) ∧
    (∃ (s : State) (ch : Nat) (rate : Nat) (dir : Nat),
      Awake s ∧ bridgeDir s.m ch = some dir) ∧
    (∃ (s : State) (ch : Nat) (rate : Nat) (dir : Nat),
      Awake s ∧ bridgeDir s.m ch = some dir) ∧
    (∃ (s : State) (ch : Nat) (rate : Nat) (dir : Nat),
      Awake s ∧ bridgeDir s.m ch = some dir ∧ inRange64 s.m dir = true) ∧
    (∃ (s : State) (ch : Nat) (rate : Nat) (dir : Nat),
      Awake s ∧ bridgeDir s.m ch = some dir ∧ inRange64 s.m dir = true) :=
  ⟨⟨st (up []), {},
      rfl, (by decide +kernel), (by decide +kernel), (by decide +kernel), (by decide +kernel)⟩,
    ⟨st { up [] with frm := { committed := false } }, { late := some { load := 9 }, gpio := 5 },
      rfl, (by decide +kernel), (by decide +kernel), (by decide +kernel), (by decide +kernel)⟩,
    ⟨st { up [] with frm := { committed := false } }, 7,
      rfl, (by decide +kernel), (by decide +kernel)⟩,
    ⟨st { up [] with frm := { committed := false, cur := [(3, [1,2,3,4,5,6])], run := 4 }, dk := { live := brDeck } }, 150000,
      rfl, (by decide +kernel), (by decide +kernel)⟩,
    ⟨st { up [(F.PWR_STATE_STATE, 0, 3)] with frm := { committed := false, run := 4 } }, 0,
      rfl, (by decide +kernel), (by decide +kernel)⟩,
    ⟨st { up [] with dk := { live := kern } }, 6, 3, 9, 5, { ix := 6, typ := 0x12, id := 1, cluster := 15, ins := [], outs := [10], pset := 1 },
      rfl, (by decide +kernel), (by decide +kernel), (by decide +kernel), (by decide +kernel), (by decide +kernel), (by decide +kernel)⟩,
    ⟨st (up []), 15, 255, 1, 6,
      rfl, (by decide +kernel), (by decide +kernel), (by decide +kernel)⟩,
    ⟨st (up [(F.DIAG_OVF_FLAG_LANE, 0, 1)]), 0, 2, 0, 6,
      rfl, (by decide +kernel), (by decide +kernel), (by decide +kernel)⟩,
    ⟨st { up [] with dk := { live := brDeck }, frm := { brStat := [(127, 1)] } }, 127, 0, 1,
      rfl, (by decide +kernel)⟩,
    ⟨st { up [] with dk := { live := brDeck }, frm := { brStat := [(127, 3)] } }, 127, 0, 1,
      rfl, (by decide +kernel)⟩,
    ⟨st { up [] with dk := { live := brDeck }, sap := { dirs := [(1, { inRange := 64 })] } }, 127, 48000000, 1,
      rfl, (by decide +kernel), (by decide +kernel)⟩,
    ⟨st { up [] with dk := { live := brDeck }, frm := { brStat := [(127, 2)] }, sap := { dirs := [(1, { inRange := 64 })] } }, 127, 48000000, 1,
      rfl, (by decide +kernel), (by decide +kernel)⟩⟩

/-- States and operands that meet the hypotheses of ClipsAndTables. -/
theorem test_meets_clips_and_tables :
    (∃ (s : State) (c : Cmd),
      Awake s ∧ Plain 0x0701 c s.m ∧ u16 c 24 ≤ 4095 ∧ u8 c 27 ≤ 5 ∧ u8 c 28 ≤ 1 ∧ u8 c 26 = 0 ∧ 2 ≤ bufLen c ∧ bufLen c ≤ 16777216 ∧ bufLen c % (if u8 c 28 = 1 then 3 else 2) = 0 ∧ bufOk c false s.m = true ∧ usedUnits s.m + (bufLen c + 65535) / 65536 ≤ rd s.m F.ANN_STORE_CFG_SIZE) ∧
    (∃ (s : State) (c : Cmd),
      Awake s ∧ Plain 0x0701 c s.m ∧ u16 c 24 ≤ 4095 ∧ u8 c 27 ≤ 5 ∧ u8 c 28 ≤ 1 ∧ u8 c 26 = 0 ∧ 2 ≤ bufLen c ∧ bufLen c ≤ 16777216 ∧ bufLen c % (if u8 c 28 = 1 then 3 else 2) = 0 ∧ bufOk c false s.m = true ∧ usedUnits s.m + (bufLen c + 65535) / 65536 ≤ rd s.m F.ANN_STORE_CFG_SIZE) ∧
    (∃ (s : State) (c : Cmd),
      Awake s ∧ Plain 0x0701 c s.m ∧ u16 c 24 ≤ 4095 ∧ u8 c 27 ≤ 5 ∧ u8 c 28 ≤ 1 ∧ u8 c 26 = 1 ∧ bufLen c = 0 ∧ (mfind s.m.ann.clips (u16 c 24)).isSome = true) ∧
    (∃ (s : State) (k : Nat) (w : ClipWrite),
      Awake s ∧ s.m.ann.writes.find? (fun w => u16 w.h.cmd 24 == k) = some w) ∧
    (∃ (s : State) (c : Cmd),
      Awake s ∧ Plain 0x0702 c s.m ∧ 1 ≤ u16 c 24 ∧ u16 c 24 ≤ 1024 ∧ bufLen c = 96 * u16 c 24 ∧ bufOk c false s.m = true ∧ (records 96 (u16 c 24) (bufBytes c)).all (msgOk s.m) = true) ∧
    (∃ (s : State) (c : Cmd),
      Awake s ∧ Plain 0x0703 c s.m ∧ 1 ≤ u16 c 24 ∧ u16 c 24 ≤ 4096 ∧ bufLen c = 32 * u16 c 24 ∧ bufOk c false s.m = true ∧ (records 32 (u16 c 24) (bufBytes c)).all (schedOk s.m) = true) ∧
    (∃ (s : State) (p : Nat) (unit : Nat) (k : Nat) (x : Play) (i : Nat) (cl : Clip),
      Awake s ∧ mfind s.m.ann.players p = some k ∧ playOf s.m k = some x ∧ x.segs[x.seg]? = some (.clip i cl) ∧ x.mute = false) :=
  ⟨⟨stAnn [(F.ANN_STORE_CFG_SIZE, 0, 1)] {}, cmdBuf 2 (.bytes (leBytes 2 9)) [(24, 4095), (27, 5)],
      rfl, plain_of (by decide +kernel), (by decide +kernel), (by decide +kernel), (by decide +kernel), (by decide +kernel), (by decide +kernel), (by decide +kernel), (by decide +kernel), (by decide +kernel), (by decide +kernel)⟩,
    ⟨stAnn [(F.ANN_STORE_CFG_SIZE, 0, 2)] { clips := [(4, clip0)] }, cmdBuf 3 (.bytes (leBytes 3 9)) [(24, 4), (28, 1)],
      rfl, plain_of (by decide +kernel), (by decide +kernel), (by decide +kernel), (by decide +kernel), (by decide +kernel), (by decide +kernel), (by decide +kernel), (by decide +kernel), (by decide +kernel), (by decide +kernel)⟩,
    ⟨stAnn [] { clips := [(4, clip0)] }, cmd [(24, 4), (26, 1)],
      rfl, plain_of (by decide +kernel), (by decide +kernel), (by decide +kernel), (by decide +kernel), (by decide +kernel), (by decide +kernel), (by decide +kernel)⟩,
    ⟨stAnn [] { writes := [wr0] }, 4095, wr0,
      rfl, (by decide +kernel)⟩,
    ⟨stAnn [] { clips := [(4, clip0)] }, cmdBuf 96 (.bytes msgRec) [(24, 1)],
      rfl, plain_of (by decide +kernel), (by decide +kernel), (by decide +kernel), (by decide +kernel), (by decide +kernel), (by decide +kernel)⟩,
    ⟨stAnn [] { msgs := [(3, msg0)] }, cmdBuf 32 (.bytes schRec) [(24, 1)],
      rfl, plain_of (by decide +kernel), (by decide +kernel), (by decide +kernel), (by decide +kernel), (by decide +kernel), (by decide +kernel)⟩,
    ⟨stAnn [] { plays := [(9, play0)], players := [(15, 9)], holder := [(2, 9)] }, 15, 3, 9, play0, 4, clip0,
      rfl, (by decide +kernel), (by decide +kernel), (by decide +kernel), (by decide +kernel)⟩⟩

/-- States and operands that meet the hypotheses of RequestsArise. -/
theorem test_meets_requests_arise :
    (∃ (s : State) (c : Cmd) (d : Msg),
      Awake s ∧ Plain 0x0704 c s.m ∧ mfind s.m.ann.msgs (u16 c 24) = some d ∧ ((u8 c 26 ≤ 15 ∨ u8 c 26 = 0xFF)) ∧ u8 c 27 ≤ 1) ∧
    (∃ (s : State) (c : Cmd) (d : Msg),
      Awake s ∧ Plain 0x0704 c s.m ∧ mfind s.m.ann.msgs (u16 c 24) = some d ∧ ((u8 c 26 ≤ 15 ∨ u8 c 26 = 0xFF)) ∧ u8 c 27 ≤ 1) ∧
    (∃ (s : State) (e : Nat) (x : Sched) (d : Msg),
      Awake s ∧ mfind s.m.ann.sched e = some x ∧ x.flags.testBit 0 = true ∧ mfind s.m.ann.msgs x.msg = some d ∧ entryDue s.m x (s.m.deal + 1) = true ∧ mfind s.m.ann.lastFire e ≠ some (s.m.deal + 1)) ∧
    (∃ (s : State) (e : Nat) (x : Sched) (d : Msg),
      Awake s ∧ mfind s.m.ann.sched e = some x ∧ x.flags.testBit 0 = true ∧ mfind s.m.ann.msgs x.msg = some d ∧ entryDue s.m x (s.m.deal + 1) = true ∧ mfind s.m.ann.lastFire e ≠ some (s.m.deal + 1)) ∧
    (∃ (s : State) (e : Nat) (x : Sched) (d : Msg),
      Awake s ∧ mfind s.m.ann.sched e = some x ∧ x.flags.testBit 0 = true ∧ mfind s.m.ann.msgs x.msg = some d ∧ x.trig = 4 ∧ s.m.ann.fired.contains e = false) ∧
    (∃ (s : State) (e : Nat) (x : Sched) (d : Msg),
      Awake s ∧ mfind s.m.ann.sched e = some x ∧ x.flags.testBit 0 = true ∧ mfind s.m.ann.msgs x.msg = some d ∧ x.trig = 4 ∧ s.m.ann.fired.contains e = false ∧ s.m.ann.trig = [e] ∧ pinHeld s.m x true = true ∧ (s.m.ann.waiting ++ s.m.ann.new).any (fun w => w.src == 2 && w.entry == x.pin * 4096 + e) = false) ∧
    (∃ (s : State) (e : Nat) (x : Sched),
      Awake s ∧ mfind s.m.ann.sched e = some x ∧ x.trig = 4 ∧ s.m.ann.fired.contains e = true ∧ pinHeld s.m x false = true) ∧
    (∃ (s : State) (e : Nat) (x : Sched),
      Awake s ∧ mfind s.m.ann.sched e = some x ∧ x.trig = 4 ∧ s.m.ann.fired.contains e = true ∧ pinHeld s.m x false = true) ∧
    (∃ (s : State) (e : Nat) (x : Sched),
      Awake s ∧ mfind s.m.ann.sched e = some x ∧ x.trig = 4 ∧ s.m.ann.fired.contains e = true ∧ pinHeld s.m x false = true) ∧
    (∃ (s : State) (e : Nat) (x : Sched),
      Awake s ∧ mfind s.m.ann.sched e = some x ∧ x.trig = 4 ∧ s.m.ann.fired.contains e = true ∧ pinHeld s.m x false = true) ∧
    (∃ (s : State) (k : Nat) (r : Req),
      Awake s ∧ s.m.ann.waiting[k]? = some r ∧ r.since + ((mfind s.m.ann.msgs r.msg).map (fun d => d.wait)).getD 0 ≤ s.m.deal) :=
  ⟨⟨stAnn [] { msgs := [(3, msg0)] }, cmd [(24, 3), (26, 0xFF), (27, 1), (28, 77), (32, 2 ^ 255)], msg0,
      rfl, plain_of (by decide +kernel), (by decide +kernel), (by decide +kernel), (by decide +kernel)⟩,
    ⟨stAnn [] { msgs := [(3, msg0)] }, cmd [(24, 3), (26, 15), (28, 77)], msg0,
      rfl, plain_of (by decide +kernel), (by decide +kernel), (by decide +kernel), (by decide +kernel)⟩,
    ⟨stAnn [(F.TIM_STATE_EVER_LOCKED, 0, 1)] { msgs := [(3, msg0)], sched := [(4095, sch 1)] }, 4095, sch 1, msg0,
      rfl, (by decide +kernel), (by decide +kernel), (by decide +kernel), (by decide +kernel), (by decide +kernel)⟩,
    ⟨stAnn [(F.TIM_STATE_EVER_LOCKED, 0, 1)] { msgs := [(3, msg0)], sched := [(4095, sch 1)], waiting := [{ rq1 with src := 1, entry := 4095 }] }, 4095, sch 1, msg0,
      rfl, (by decide +kernel), (by decide +kernel), (by decide +kernel), (by decide +kernel), (by decide +kernel)⟩,
    ⟨pinUp [], 4095, sch 4, msg0,
      rfl, (by decide +kernel), (by decide +kernel), (by decide +kernel), (by decide +kernel), (by decide +kernel)⟩,
    ⟨pinUp [4095], 4095, sch 4, msg0,
      rfl, (by decide +kernel), (by decide +kernel), (by decide +kernel), (by decide +kernel), (by decide +kernel), (by decide +kernel), (by decide +kernel), (by decide +kernel)⟩,
    ⟨stPin 3, 4095, { sch 4 with flags := 3 },
      rfl, (by decide +kernel), (by decide +kernel), (by decide +kernel), (by decide +kernel)⟩,
    ⟨stPin 1, 4095, { sch 4 with flags := 1 },
      rfl, (by decide +kernel), (by decide +kernel), (by decide +kernel), (by decide +kernel)⟩,
    ⟨pinPlay play0, 4095, { sch 4 with flags := 3 },
      rfl, (by decide +kernel), (by decide +kernel), (by decide +kernel), (by decide +kernel)⟩,
    ⟨pinPlay page0, 4095, { sch 4 with flags := 3 },
      rfl, (by decide +kernel), (by decide +kernel), (by decide +kernel), (by decide +kernel)⟩,
    ⟨stAnn [] { msgs := [(3, { msg0 with wait := 10 })], waiting := [rq1] }, 0, rq1,
      rfl, (by decide +kernel), (by decide +kernel)⟩⟩

/-- States and operands that meet the hypotheses of PlaysEnd. -/
theorem test_meets_plays_end :
    (∃ (s : State) (p : Nat) (k : Nat) (x : Play),
      Awake s ∧ mfind s.m.ann.players p = some k ∧ playOf s.m k = some x ∧ x.done = true ∧ (x.bridged = true → acDelay s.m ≤ x.drain)) ∧
    (∃ (s : State) (p : Nat) (k : Nat) (x : Play),
      Awake s ∧ mfind s.m.ann.players p = some k ∧ playOf s.m k = some x ∧ x.defn.kind = 2 ∧ x.seg = 1 ∧ x.defn.limit * spd s.m ≤ x.pos) ∧
    (∃ (s : State) (c : Cmd) (k : Nat) (x : Play),
      let hit := fun (r : Req) => if u16 c 28 = 0xFFFF then r.id == u32 c 24 else r.msg == u16 c 28; Awake s ∧ Plain 0x0705 c s.m ∧ (u16 c 28 ≠ 0xFFFF → (mfind s.m.ann.msgs (u16 c 28)).isSome = true) ∧ (playing s.m).filter (fun j => (playOf s.m j).any (fun y => hit y.rq)) = [k] ∧ playOf s.m k = some x ∧ playLatched s.m x = false) ∧
    (∃ (s : State) (c : Cmd) (k : Nat) (x : Play),
      let hit := fun (r : Req) => if u16 c 28 = 0xFFFF then r.id == u32 c 24 else r.msg == u16 c 28; Awake s ∧ Plain 0x0705 c s.m ∧ (u16 c 28 ≠ 0xFFFF → (mfind s.m.ann.msgs (u16 c 28)).isSome = true) ∧ (playing s.m).filter (fun j => (playOf s.m j).any (fun y => hit y.rq)) = [k] ∧ playOf s.m k = some x ∧ playLatched s.m x = false) ∧
    (∃ (s : State) (c : Cmd) (k : Nat) (x : Play),
      let hit := fun (r : Req) => if u16 c 28 = 0xFFFF then r.id == u32 c 24 else r.msg == u16 c 28; Awake s ∧ Plain 0x0705 c s.m ∧ (u16 c 28 ≠ 0xFFFF → (mfind s.m.ann.msgs (u16 c 28)).isSome = true) ∧ (playing s.m).filter (fun j => (playOf s.m j).any (fun y => hit y.rq)) = [k] ∧ playOf s.m k = some x ∧ playLatched s.m x = true ∧ (s.m.ann.waiting ++ s.m.ann.new).any hit = false) ∧
    (∃ (s : State) (c : Cmd),
      Awake s ∧ Signed 0x0706 c s.m ∧ u8 c 24 ≤ 1 ∧ bufLen c = 304) ∧
    (∃ (s : State) (c : Cmd),
      Awake s ∧ Signed 0x0706 c s.m ∧ u8 c 24 ≤ 1 ∧ bufLen c = 304) :=
  ⟨⟨stAnn [] { plays := [(9, play0)], players := [(15, 9)], holder := [(2, 9)] }, 15, 9, play0,
      rfl, (by decide +kernel), (by decide +kernel), (by decide +kernel), (by decide +kernel)⟩,
    ⟨stAnn [] { plays := [(9, page0)], players := [(0, 9)], holder := [(2, 9)] }, 0, 9, page0,
      rfl, (by decide +kernel), (by decide +kernel), (by decide +kernel), (by decide +kernel), (by decide +kernel)⟩,
    ⟨stAnn [] { plays := [(9, play0)], players := [(15, 9)], holder := [(2, 9)] }, cmd [(24, 55), (28, 0xFFFF)], 9, play0,
      rfl, plain_of (by decide +kernel), (by decide +kernel), (by decide +kernel), (by decide +kernel), (by decide +kernel)⟩,
    ⟨stAnn [] { msgs := [(3, msg0)], plays := [(9, play0)], players := [(15, 9)], holder := [(2, 9)], waiting := [rq1] }, cmd [(28, 3)], 9, play0,
      rfl, plain_of (by decide +kernel), (by decide +kernel), (by decide +kernel), (by decide +kernel), (by decide +kernel)⟩,
    ⟨stAnn [] { plays := [(9, play0)], players := [(15, 9)], holder := [(2, 9)], latch := [(2, ⟨4, 55, 3⟩)] }, cmd [(24, 55), (28, 0xFFFF)], 9, play0,
      rfl, plain_of (by decide +kernel), (by decide +kernel), (by decide +kernel), (by decide +kernel), (by decide +kernel), (by decide +kernel)⟩,
    ⟨st { up [] with sec := keys0, ann := { latch := [(2, ⟨4, 55, 3⟩), (3, ⟨4, 55, 3⟩)] } }, sgn 0x0706 304 (.bytes (leBytes 32 4)) [],
      rfl, signed_of (by decide +kernel), (by decide +kernel), (by decide +kernel)⟩,
    ⟨st { up [] with sec := keys0, ann := { latch := [(2, ⟨4, 55, 3⟩), (3, ⟨4, 55, 3⟩)] } }, sgn 0x0706 304 (.bytes (leBytes 32 0)) [(24, 1)],
      rfl, signed_of (by decide +kernel), (by decide +kernel), (by decide +kernel)⟩⟩

/-- States and operands that meet the hypotheses of RosterChanges. -/
theorem test_meets_roster_changes :
    (∃ (c : Cmd) (s : State) (r : Roster),
      Awake s ∧ Signed 0x0C01 c s.m ∧ bufLen c ≤ 32768 ∧ parseRoster (bufBytes c) = some r ∧ bufLen c = 64 + 16 * r.ents.length + 272 ∧ (((s.m.dom.roster = none ∧ firstHost c = true) ∨ ∃ o, s.m.dom.roster = some o ∧ r.table = o.table ∧ o.version < r.version))) ∧
    (∃ (c : Cmd) (s : State) (r : Roster),
      Awake s ∧ Signed 0x0C01 c s.m ∧ bufLen c ≤ 32768 ∧ parseRoster (bufBytes c) = some r ∧ bufLen c = 64 + 16 * r.ents.length + 272 ∧ (((s.m.dom.roster = none ∧ firstHost c = true) ∨ ∃ o, s.m.dom.roster = some o ∧ r.table = o.table ∧ o.version < r.version))) ∧
    (∃ (c : Cmd) (s : State) (r : Roster),
      Awake s ∧ Signed 0x0C01 c s.m ∧ bufLen c ≤ 32768 ∧ parseRoster (bufBytes c) = some r ∧ bufLen c = 64 + 16 * r.ents.length + 272 ∧ (((s.m.dom.roster = none ∧ firstHost c = true) ∨ ∃ o, s.m.dom.roster = some o ∧ r.table = o.table ∧ o.version < r.version))) ∧
    (∃ (c : Cmd) (s : State) (r : Roster) (p : KeyPkg),
      let l := admitRec c; let cand := leAt l 8 8 = idevId; Awake s ∧ Signed 0x0C02 c s.m ∧ 304 ≤ bufLen c ∧ pkgOf c = some p ∧ l.length = 32 ∧ leAt l 0 2 ≤ 1023 ∧ leAt l 2 1 ≤ 1 ∧ leAt l 3 1 = 0 ∧ leAt l 16 8 ≠ 0 ∧ leAt l 24 8 = 0 ∧ (cand → pkgOk p s.m = true) ∧ s.m.dom.roster = some r ∧ leAt l 4 4 = r.version + 1 ∧ (∀ e, entryOf r (leAt l 0 2) = some e → e.present = false ∨ e.ldev = 0 ∨ (cand ∧ e.ldev = leAt l 16 8)) ∧ (leAt l 2 1 = 1 → r.spares.length < 8 ∨ r.spares.contains (leAt l 0 2) = true)) ∧
    (∃ (c : Cmd) (s : State) (r : Roster) (p : KeyPkg),
      let l := admitRec c; let cand := leAt l 8 8 = idevId; Awake s ∧ Signed 0x0C02 c s.m ∧ 304 ≤ bufLen c ∧ pkgOf c = some p ∧ l.length = 32 ∧ leAt l 0 2 ≤ 1023 ∧ leAt l 2 1 ≤ 1 ∧ leAt l 3 1 = 0 ∧ leAt l 16 8 ≠ 0 ∧ leAt l 24 8 = 0 ∧ (cand → pkgOk p s.m = true) ∧ s.m.dom.roster = some r ∧ leAt l 4 4 = r.version + 1 ∧ (∀ e, entryOf r (leAt l 0 2) = some e → e.present = false ∨ e.ldev = 0 ∨ (cand ∧ e.ldev = leAt l 16 8)) ∧ (leAt l 2 1 = 1 → r.spares.length < 8 ∨ r.spares.contains (leAt l 0 2) = true)) ∧
    (∃ (c : Cmd) (s : State) (r : Roster) (p : KeyPkg),
      let l := admitRec c; let cand := leAt l 8 8 = idevId; Awake s ∧ Signed 0x0C02 c s.m ∧ 304 ≤ bufLen c ∧ pkgOf c = some p ∧ l.length = 32 ∧ leAt l 0 2 ≤ 1023 ∧ leAt l 2 1 ≤ 1 ∧ leAt l 3 1 = 0 ∧ leAt l 16 8 ≠ 0 ∧ leAt l 24 8 = 0 ∧ (cand → pkgOk p s.m = true) ∧ s.m.dom.roster = some r ∧ leAt l 4 4 = r.version + 1 ∧ (∀ e, entryOf r (leAt l 0 2) = some e → e.present = false ∨ e.ldev = 0 ∨ (cand ∧ e.ldev = leAt l 16 8)) ∧ (leAt l 2 1 = 1 → r.spares.length < 8 ∨ r.spares.contains (leAt l 0 2) = true) ∧ cand) ∧
    (∃ (c : Cmd) (s : State) (p : KeyPkg),
      let l := admitRec c; let cand := leAt l 8 8 = idevId; Awake s ∧ Signed 0x0C02 c s.m ∧ 304 ≤ bufLen c ∧ pkgOf c = some p ∧ l.length = 32 ∧ leAt l 0 2 ≤ 1023 ∧ leAt l 2 1 ≤ 1 ∧ leAt l 3 1 = 0 ∧ leAt l 16 8 ≠ 0 ∧ leAt l 24 8 = 0 ∧ (cand → pkgOk p s.m = true) ∧ s.m.dom.roster = none ∧ firstHost c = true ∧ cand) ∧
    (∃ (c : Cmd) (s : State) (r : Roster),
      Awake s ∧ Signed 0x0C03 c s.m ∧ s.m.dom.roster = some r ∧ bufLen c = 280 ∧ leAt (bufBytes c) 2 2 = 0 ∧ leAt (bufBytes c) 4 4 = r.version + 1 ∧ r.ents.any (fun e => e.seat == leAt (bufBytes c) 0 2 && e.present) = true) ∧
    (∃ (c : Cmd) (s : State) (r : Roster),
      Awake s ∧ Signed 0x0C03 c s.m ∧ s.m.dom.roster = some r ∧ bufLen c = 280 ∧ leAt (bufBytes c) 2 2 = 0 ∧ leAt (bufBytes c) 4 4 = r.version + 1 ∧ r.ents.any (fun e => e.seat == leAt (bufBytes c) 0 2 && e.present) = true) :=
  ⟨⟨sgn 0x0C01 384 (.bytes rosBytes) [], stDom [] {}, ros2,
      rfl, signed_of (by decide +kernel), (by decide +kernel), (by decide +kernel), (by decide +kernel), (.inl (by decide +kernel))⟩,
    ⟨sgn 0x0C01 384 (.bytes rosBytes) [], stDom [(F.DOM_STATE_SEAT, 0, 4)] { roster := some (ros 1) }, ros2,
      rfl, signed_of (by decide +kernel), (by decide +kernel), (by decide +kernel), (by decide +kernel), (.inr ⟨ros 1, by decide +kernel⟩)⟩,
    ⟨sgn 0x0C01 384 (.bytes rosBytes) [], stDom [(F.DOM_STATE_SEAT, 0, 7), (F.DOM_STATE_ROLE, 0, 1)] { roster := some (ros 1) }, ros2,
      rfl, signed_of (by decide +kernel), (by decide +kernel), (by decide +kernel), (by decide +kernel), (.inr ⟨ros 1, by decide +kernel⟩)⟩,
    ⟨sgn 0x0C02 304 (.admission (admission 7 0 2 0) pkg0) [], stDom [(F.DOM_STATE_SEAT, 0, 4)] { roster := some (ros 1) }, ros 1, pkg0,
      rfl, signed_of (by decide +kernel), (by decide +kernel), (rfl), (by decide +kernel), (by decide +kernel), (by decide +kernel), (by decide +kernel), (by decide +kernel), (by decide +kernel), (fun _ => pkg0_ok _ rfl), (by decide +kernel), (by decide +kernel), (by intro e h; cases h), (by decide +kernel)⟩,
    ⟨sgn 0x0C02 304 (.admission (admission 1023 1 2 0) pkg0) [], stDom [(F.DOM_STATE_SEAT, 0, 4)] { roster := some (ros 1) }, ros 1, pkg0,
      rfl, signed_of (by decide +kernel), (by decide +kernel), (rfl), (by decide +kernel), (by decide +kernel), (by decide +kernel), (by decide +kernel), (by decide +kernel), (by decide +kernel), (fun _ => pkg0_ok _ rfl), (by decide +kernel), (by decide +kernel), (by intro e h; cases h), (by decide +kernel)⟩,
    ⟨sgn 0x0C02 304 (.admission (admission 7 0 2 idevId) pkg0) [], stDom [(F.DOM_STATE_SEAT, 0, 4)] { roster := some (ros 1) }, ros 1, pkg0,
      rfl, signed_of (by decide +kernel), (by decide +kernel), (rfl), (by decide +kernel), (by decide +kernel), (by decide +kernel), (by decide +kernel), (by decide +kernel), (by decide +kernel), (fun _ => pkg0_ok _ rfl), (by decide +kernel), (by decide +kernel), (by intro e h; cases h), (by decide +kernel), (admission_idev ..)⟩,
    ⟨sgn 0x0C02 304 (.admission (admission 7 0 0 idevId) pkg0) [], stDom [] {}, pkg0,
      rfl, signed_of (by decide +kernel), (by decide +kernel), (rfl), (by decide +kernel), (by decide +kernel), (by decide +kernel), (by decide +kernel), (by decide +kernel), (by decide +kernel), (fun _ => pkg0_ok _ rfl), (by decide +kernel), (by decide +kernel), (admission_idev ..)⟩,
    ⟨sgn 0x0C03 280 (.bytes (leBytes 8 (5 + 2 * 2 ^ 32))) [], stDom [(F.DOM_STATE_SEAT, 0, 4)] { roster := some (ros 1) }, ros 1,
      rfl, signed_of (by decide +kernel), (by decide +kernel), (by decide +kernel), (by decide +kernel), (by decide +kernel), (by decide +kernel)⟩,
    ⟨sgn 0x0C03 280 (.bytes (leBytes 8 (4 + 2 * 2 ^ 32))) [], stDom [(F.DOM_STATE_SEAT, 0, 4), (F.DOM_STATE_ROLE, 0, 1)] { roster := some (ros 1) }, ros 1,
      rfl, signed_of (by decide +kernel), (by decide +kernel), (by decide +kernel), (by decide +kernel), (by decide +kernel), (by decide +kernel)⟩⟩

/-- States and operands that meet the hypotheses of TrioRuns. -/
theorem test_meets_trio_runs :
    (∃ (s : State) (r : DigRec),
      Awake s ∧ s.m.dom.roster.isSome = true ∧ r.idx ≤ 2 ∧ r.idx ≠ ownIdx s.m ∧ s.m.dom.noSpare.contains r.sender = false ∧ trioAt s.m r.idx = r.sender ∧ r.sender < 0xFFFF ∧ boundSeat s.m r.sender = true) ∧
    (∃ (s : State) (j : Nat),
      Awake s ∧ j < 3 ∧ trioAt s.m j ≠ 0xFFFF ∧ j ≠ ownIdx s.m ∧ ownIdx s.m ≠ 3 ∧ managing s.m = true ∧ directly s.m j = false ∧ byRelay s.m j = false) ∧
    (∃ (s : State),
      Awake s ∧ ownIdx s.m ≠ 3 ∧ managing s.m = true ∧ activeMgr s.m = 0xFFFF ∧ ownSeat s.m < 0xFFFF ∧ (List.range (ownIdx s.m)).any (fun k => directly s.m k && k != ownIdx s.m && (peer s.m k).flags.testBit 0) = false) ∧
    (∃ (s : State),
      Awake s ∧ member s.m = true ∧ ownIdx s.m = 3 ∧ flag s.m F.DOM_STATE_AUTONOMOUS = false ∧ s.m.dom.lastRec + rd s.m F.DOM_TRIO_AUTO_DEALS ≤ s.m.deal) ∧
    (∃ (s : State) (x : Copy) (j : Nat) (d : Nat),
      Awake s ∧ s.m.dom.copy = some x ∧ x.idx = some j ∧ j < 3 ∧ x.loaded = some d ∧ 2 ≤ x.eqRun ∧ trioAt s.m j = 0xFFFF ∧ ownSeat s.m < 0xFFFF) :=
  ⟨⟨stDom (trioRegs []) { roster := some (ros 1) }, ⟨1, 1, 5, 4, 999, 0, 0, 0, 0, 1, 7⟩,
      rfl, (by decide +kernel), (by decide +kernel), (by decide +kernel), (by decide +kernel), (by decide +kernel), (by decide +kernel), (by decide +kernel)⟩,
    ⟨stDom (trioRegs []) { roster := some (ros 1) }, 1,
      rfl, (by decide +kernel), (by decide +kernel), (by decide +kernel), (by decide +kernel), (by decide +kernel), (by decide +kernel), (by decide +kernel)⟩,
    ⟨stDom (trioRegs [(F.DOM_TRIO_SEAT2_ACTIVE, 0, 0xFFFF)]) { roster := some (ros 1) },
      rfl, (by decide +kernel), (by decide +kernel), (by decide +kernel), (by decide +kernel), (by decide +kernel)⟩,
    ⟨stDom [(F.DOM_STATE_SEAT, 0, 6), (F.DOM_STATE_TRIO_IDX, 0, 3), (F.DOM_TRIO_AUTO_DEALS, 0, 8)] { roster := some (ros 1), lastRec := 992 },
      rfl, (by decide +kernel), (by decide +kernel), (by decide +kernel), (by decide +kernel)⟩,
    ⟨stDom [(F.DOM_STATE_SEAT, 0, 6), (F.DOM_STATE_TRIO_IDX, 0, 3), (F.DOM_TRIO_SEAT01_SEAT0, 0, 4), (F.DOM_TRIO_SEAT01_SEAT1, 0, 5), (F.DOM_TRIO_SEAT2_SEAT2, 0, 0xFFFF)] { roster := some (ros 1), copy := some { src := 4, idx := some 2, since := 900, lastFrag := 910, loaded := some 905, eqRun := 2 } }, { src := 4, idx := some 2, since := 900, lastFrag := 910, loaded := some 905, eqRun := 2 }, 2, 905,
      rfl, (by decide +kernel), (by decide +kernel), (by decide +kernel), (by decide +kernel), (by decide +kernel), (by decide +kernel), (by decide +kernel)⟩⟩

/-- States and operands that meet the hypotheses of CopiesAndPeers. -/
theorem test_meets_copies_and_peers :
    (∃ (s : State) (seat : Nat) (a : Nat) (b : Nat),
      Awake s ∧ activeMgr s.m = ownSeat s.m ∧ member s.m = true) ∧
    (∃ (s : State) (a : Nat) (b : Nat) (idev : Nat) (ldev : Nat),
      Awake s ∧ activeMgr s.m = ownSeat s.m ∧ member s.m = true) ∧
    (∃ (s : State) (a : Nat) (b : Nat) (idev : Nat) (ldev : Nat),
      Awake s ∧ activeMgr s.m = ownSeat s.m ∧ member s.m = true) ∧
    (∃ (s : State) (a : Nat) (b : Nat) (idev : Nat) (ldev : Nat),
      Awake s ∧ member s.m = true ∧ activeMgr s.m ≠ ownSeat s.m ∧ activeMgr s.m ≠ 0xFFFF ∧ (((port s.m 0).unknown = true ∨ (port s.m 1).unknown = true))) ∧
    (∃ (s : State) (seat : Nat) (spare : Bool),
      Awake s ∧ ownIdx s.m ≠ 3) ∧
    (∃ (s : State) (f : SnapIn) (x : Copy),
      Awake s ∧ s.m.dom.copy = some x ∧ x.src = f.seat ∧ x.loaded = none ∧ f.idx < f.cnt ∧ (insertNat f.idx x.got).length < f.cnt) ∧
    (∃ (s : State) (f : SnapIn) (x : Copy),
      Awake s ∧ s.m.dom.copy = some x ∧ x.src = f.seat ∧ x.loaded = none ∧ f.idx < f.cnt ∧ f.cnt ≤ (insertNat f.idx x.got).length) ∧
    (∃ (s : State) (f : SnapIn) (x : Copy),
      Awake s ∧ s.m.dom.copy = some x ∧ x.src = f.seat ∧ x.loaded = none ∧ f.idx < f.cnt ∧ f.cnt ≤ (insertNat f.idx x.got).length) ∧
    (∃ (s : State) (x : Copy),
      Awake s ∧ s.m.dom.copy = some x ∧ x.since + rd s.m F.DOM_COPY_DEALS ≤ s.m.deal) ∧
    (∃ (s : State) (p : Nat) (k : MkIn),
      Awake s ∧ p < 4 ∧ linkUp s.m p = true ∧ macsecOn s.m p = true ∧ flag s.m F.SEC_STATE_DEBUG = false) ∧
    (∃ (s : State) (p : Nat) (k : MkIn) (kn : Nat) (an : Nat) (keyNo : Nat),
      Awake s ∧ p < 4 ∧ linkUp s.m p = true ∧ macsecOn s.m p = true ∧ flag s.m F.SEC_STATE_DEBUG = false ∧ commonKey s.m p k = some kn ∧ k.sak = some (an, keyNo) ∧ (port s.m p).barred ≠ some (k.peer, k.ldev) ∧ (p < 2 → k.served = decide (k.peer < ownSeat s.m) ∧ peerKnown s.m k = true)) ∧
    (∃ (s : State) (p : Nat) (k : MkIn) (kn : Nat) (an : Nat) (keyNo : Nat),
      Awake s ∧ p < 4 ∧ linkUp s.m p = true ∧ macsecOn s.m p = true ∧ flag s.m F.SEC_STATE_DEBUG = false ∧ commonKey s.m p k = some kn ∧ k.sak = some (an, keyNo) ∧ (port s.m p).barred ≠ some (k.peer, k.ldev) ∧ (p < 2 → k.served = decide (k.peer < ownSeat s.m) ∧ peerKnown s.m k = true)) ∧
    (∃ (s : State) (p : Nat) (k : MkIn),
      Awake s ∧ p < 4 ∧ linkUp s.m p = true ∧ macsecOn s.m p = true ∧ flag s.m F.SEC_STATE_DEBUG = false ∧ commonKey s.m p k = none ∧ (port s.m p).refused ≠ some (k.peer, k.ldev)) ∧
    (∃ (s : State) (p : Nat) (k : MkIn),
      Awake s ∧ p < 4 ∧ linkUp s.m p = true ∧ macsecOn s.m p = true ∧ flag s.m F.SEC_STATE_DEBUG = false ∧ commonKey s.m p k = none ∧ (port s.m p).refused ≠ some (k.peer, k.ldev)) ∧
    (∃ (s : State) (p : Nat),
      Awake s ∧ p < 2 ∧ secure s.m p = true) :=
  ⟨⟨stDom (trioRegs []) { roster := some (ros 1) }, 6, 5, 0xFFFF,
      rfl, (by decide +kernel), (by decide +kernel)⟩,
    ⟨stDom (trioRegs []) { roster := some (ros 1) }, 6, 5, 8, 0,
      rfl, (by decide +kernel), (by decide +kernel)⟩,
    ⟨st { (stDom (trioRegs []) { roster := some (ros 1) }).m with sec := { keys0 with lastRing := some rot1 } }, 6, 5, 8, 45,
      rfl, (by decide +kernel), (by decide +kernel)⟩,
    ⟨st { (stDom [(F.DOM_STATE_SEAT, 0, 6), (F.DOM_TRIO_SEAT2_ACTIVE, 0, 4)] { roster := some (ros 1) }).m with ring := { ports := [(1, { unknown := true })] } }, 6, 5, 8, 0,
      rfl, (by decide +kernel), (by decide +kernel), (by decide +kernel), (by decide +kernel)⟩,
    ⟨stDom (trioRegs []) { roster := some (ros 1) }, 6, true,
      rfl, (by decide +kernel)⟩,
    ⟨stCopy copy0, ⟨4, 1, 3, 990, [0, 0, 0], []⟩, copy0,
      rfl, (by decide +kernel), (by decide +kernel), (by decide +kernel), (by decide +kernel), (by decide +kernel)⟩,
    ⟨stCopy { copy0 with got := [0] }, ⟨4, 1, 2, 990, [0, 0, 0], []⟩, { copy0 with got := [0] },
      rfl, (by decide +kernel), (by decide +kernel), (by decide +kernel), (by decide +kernel), (by decide +kernel)⟩,
    ⟨stCopy copy0, ⟨4, 0, 1, 1000, [0, 0, 0], [⟨3, 1, 0, 15, true, false, 5, 0, 0, 0, 0, 0, 7, 8, 9, []⟩]⟩, copy0,
      rfl, (by decide +kernel), (by decide +kernel), (by decide +kernel), (by decide +kernel), (by decide +kernel)⟩,
    ⟨stCopy copy0, copy0,
      rfl, (by decide +kernel), (by decide +kernel)⟩,
    ⟨st (up [(F.RING_PORT_STAT_LINK, 3, 1), (F.RING_PORT_CFG_MACSEC, 3, 1)]), 3, ⟨8, 48, true, 7, 9, none, false⟩,
      rfl, (by decide +kernel), (by decide +kernel), (by decide +kernel), (by decide +kernel)⟩,
    ⟨localMka, 3, localIn, 0, 3, 9,
      rfl, (by decide +kernel), (by decide +kernel), (by decide +kernel), (by decide +kernel), (localKey.2), (rfl), (by decide +kernel), (by decide +kernel)⟩,
    ⟨ringMka, 0, ringIn, 3, 1, 3,
      rfl, (by decide +kernel), (by decide +kernel), (by decide +kernel), (by decide +kernel), (localKey.1), (rfl), (by decide +kernel), (by decide +kernel)⟩,
    ⟨st (up [(F.RING_PORT_STAT_LINK, 3, 1), (F.RING_PORT_CFG_MACSEC, 3, 1)]), 3, ⟨8, 48, false, 7, 9, none, false⟩,
      rfl, (by decide +kernel), (by decide +kernel), (by decide +kernel), (by decide +kernel), (by decide +kernel), (by decide +kernel)⟩,
    ⟨st { up [(F.RING_PORT_STAT_LINK, 1, 1)] with ring := { ports := [(1, { refused := some (7, 48) })] } }, 1, ⟨8, 48, true, 7, 9, some (1, 2), true⟩,
      rfl, (by decide +kernel), (by decide +kernel), (by decide +kernel), (by decide +kernel), (by decide +kernel), (by decide +kernel)⟩,
    ⟨st (up [(F.RING_PORT_STAT_LINK, 1, 1), (F.RING_PORT_STAT_SECURE, 1, 1), (F.RING_STATE_INS, 0, 5)]), 1,
      rfl, (by decide +kernel), (by decide +kernel)⟩⟩

/-- States and operands that meet the hypotheses of KeysAndImages. -/
theorem test_meets_keys_and_images :
    (∃ (s : State) (c : Cmd),
      Awake s ∧ Signed 0x0D01 c s.m ∧ rotateOk c s.m = true ∧ leAt (rotBytes c) 0 1 = 1 ∧ ownEntry c s.m = true ∧ flag s.m F.SEC_STATE_DEBUG = false) ∧
    (∃ (s : State) (c : Cmd),
      Awake s ∧ Signed 0x0D01 c s.m ∧ rotateOk c s.m = true ∧ leAt (rotBytes c) 0 1 = 1 ∧ ((ownEntry c s.m = false ∨ flag s.m F.SEC_STATE_DEBUG = true))) ∧
    (∃ (s : State) (c : Cmd),
      Awake s ∧ Signed 0x0D01 c s.m ∧ rotateOk c s.m = true ∧ leAt (rotBytes c) 0 1 = 1 ∧ ((ownEntry c s.m = false ∨ flag s.m F.SEC_STATE_DEBUG = true))) ∧
    (∃ (s : State) (c : Cmd),
      Awake s ∧ Signed 0x0D01 c s.m ∧ rotateOk c s.m = true ∧ leAt (rotBytes c) 0 1 = 2) ∧
    (∃ (s : State) (c : Cmd),
      Awake s ∧ Signed 0x0D01 c s.m ∧ rotateOk c s.m = true ∧ leAt (rotBytes c) 0 1 = 3) ∧
    (∃ (s : State) (c : Cmd),
      Awake s ∧ Signed 0x0D01 c s.m ∧ rotateOk c s.m = true ∧ leAt (rotBytes c) 0 1 = 4 ∧ ownEntry c s.m = true) ∧
    (∃ (s : State) (c : Cmd) (l : List Byte) (w : Bool) (e : Env),
      Awake s ∧ c.buf = .rotate l w ∧ c.env = some e ∧ stage1 0x0D01 c s.m = 0 ∧ ((mfind s.m.sec.keys e.keyId).map OpKey.counter).getD 0 < e.counter ∧ leAt l 0 1 = 1 ∧ rd s.m F.SEC_RING_KEY_NUMBER < leAt l 4 4 ∧ member s.m = true ∧ ownEntry c s.m = true ∧ flag s.m F.SEC_STATE_DEBUG = false) ∧
    (∃ (s : State) (c : Cmd) (l : List Byte) (p : KeyPkg),
      Awake s ∧ c.buf = .admission l p ∧ stage1 0x0C02 c s.m = 0 ∧ stage2 0x0C02 c s.m = 0 ∧ s.m.dom.roster = none ∧ l.length = 32 ∧ leAt l 0 2 ≤ 1023 ∧ leAt l 2 1 ≤ 1 ∧ leAt l 3 1 = 0 ∧ leAt l 8 8 = idevId ∧ leAt l 16 8 ≠ 0 ∧ leAt l 24 8 = 0 ∧ pkgOk p s.m = true) ∧
    (∃ (s : State) (num : Nat) (d : Nat),
      Awake s ∧ s.m.sec.prevKey = some (num, d) ∧ d ≤ s.m.deal) ∧
    (∃ (s : State) (c : Cmd) (i : BootImg),
      Awake s ∧ Signed 0x0D02 c s.m ∧ c.buf = .boot i ∧ s.m.sec.fw = none ∧ bufLen c ≤ 16777488 ∧ imageWell i = true ∧ i.length + 272 = bufLen c ∧ rd s.m F.SEC_SVN_FUSED ≤ i.svn ∧ i.endorseOk = true ∧ i.sigOk = true) ∧
    (∃ (s : State) (c : Cmd) (i : BootImg),
      Awake s ∧ Signed 0x0D02 c s.m ∧ c.buf = .boot i ∧ s.m.sec.fw = none ∧ bufLen c ≤ 16777488 ∧ imageWell i = true ∧ i.length + 272 = bufLen c ∧ rd s.m F.SEC_SVN_FUSED ≤ i.svn ∧ ((i.endorseOk = false ∨ i.sigOk = false))) ∧
    (∃ (s : State) (g : FwStage),
      Awake s ∧ s.m.sec.fw = some g ∧ g.img.svn ≤ 64) ∧
    (∃ (s : State),
      Awake s ∧ 4800000 ≤ s.m.ticks ∧ rd s.m F.SEC_SVN_FUSED < rd s.m F.SEC_SVN_RUNNING ∧ rd s.m F.SEC_SVN_RUNNING ≤ 64) :=
  ⟨⟨stDom (trioRegs [(F.SEC_RING_KEY_NUMBER, 0, 8), (F.SEC_CTRL_KEY_GRACE_S, 0, 10)]) { roster := some (ros 1) }, rot1,
      rfl, signed_of (by decide +kernel), (by decide +kernel), (by decide +kernel), (by decide +kernel), (by decide +kernel)⟩,
    ⟨stDom (trioRegs [(F.SEC_RING_KEY_NUMBER, 0, 8), (F.SEC_STATE_DEBUG, 0, 1)]) { roster := some (ros 1) }, rot1,
      rfl, signed_of (by decide +kernel), (by decide +kernel), (by decide +kernel), (by decide +kernel)⟩,
    ⟨stDom (trioRegs [(F.SEC_RING_KEY_NUMBER, 0, 8), (F.DOM_STATE_SEAT, 0, 5)]) { roster := some (ros 1) }, rot1,
      rfl, signed_of (by decide +kernel), (by decide +kernel), (by decide +kernel), (by decide +kernel)⟩,
    ⟨stDom (trioRegs []) { roster := some (ros 1) }, rot2,
      rfl, signed_of (by decide +kernel), (by decide +kernel), (by decide +kernel)⟩,
    ⟨stDom (trioRegs []) { roster := some (ros 1) }, rot3,
      rfl, signed_of (by decide +kernel), (by decide +kernel), (by decide +kernel)⟩,
    ⟨stDom (trioRegs []) { roster := some (ros 1) }, rot4,
      rfl, signed_of (by decide +kernel), (by decide +kernel), (by decide +kernel), (by decide +kernel)⟩,
    ⟨stDom (trioRegs [(F.SEC_RING_KEY_NUMBER, 0, 8)]) { roster := some (ros 1) }, rot1, (leBytes 32 (1 + 1 * 2 ^ 8 + 9 * 2 ^ 32) ++ leBytes 176 4), true, env0 0x0D01,
      rfl, (by decide +kernel), (by decide +kernel), (by decide +kernel), (by decide +kernel), (by decide +kernel), (by decide +kernel), (by decide +kernel), (by decide +kernel), (by decide +kernel)⟩,
    ⟨stDom [] {}, sgn 0x0C02 304 (.admission (admission 7 0 0 idevId) pkg0) [], admission 7 0 0 idevId, pkg0,
      rfl, (rfl), (by decide +kernel), (by decide +kernel), (by decide +kernel), (by decide +kernel), (by decide +kernel), (by decide +kernel), (by decide +kernel), (admission_idev ..), (by decide +kernel), (by decide +kernel), (pkg0_ok _ rfl)⟩,
    ⟨st { up [(F.SEC_KEYS_PREV_RING, 0, 1)] with sec := { keys0 with prevKey := some (7, 1000) } }, 7, 1000,
      rfl, (by decide +kernel), (by decide +kernel)⟩,
    ⟨st { up [] with sec := { keys0 with slots := [(1, ⟨bimg 2, 0⟩)] } }, sgn 0x0D02 784 (.boot (bimg 64)) [], bimg 64,
      rfl, signed_of (by decide +kernel), (by decide +kernel), (by decide +kernel), (by decide +kernel), (by decide +kernel), (by decide +kernel), (by decide +kernel), (by decide +kernel), (by decide +kernel)⟩,
    ⟨st { up [] with sec := { keys0 with slots := [(1, ⟨bimg 2, 0⟩)] } }, sgn 0x0D02 784 (.boot { bimg 64 with sigOk := false }) [], { bimg 64 with sigOk := false },
      rfl, signed_of (by decide +kernel), (by decide +kernel), (by decide +kernel), (by decide +kernel), (by decide +kernel), (by decide +kernel), (by decide +kernel), (by decide +kernel)⟩,
    ⟨st { up [] with sec := { keys0 with fw := some fw0 } }, fw0,
      rfl, (by decide +kernel), (by decide +kernel)⟩,
    ⟨st { up [(F.SEC_SVN_RUNNING, 0, 64), (F.SEC_SVN_FUSED, 0, 63)] with ticks := 4800000 },
      rfl, (by decide +kernel), (by decide +kernel), (by decide +kernel)⟩⟩

/-- States and operands that meet the hypotheses of AttestationAndDebug. -/
theorem test_meets_attestation_and_debug :
    (∃ (s : State) (v : Word),
      Awake s) ∧
    (∃ (s : State),
      Awake s ∧ flag s.m F.SEC_CTRL_ATTEST = true) ∧
    (∃ (s : State) (key : Nat) (nonce : Nat) (d : Nat) (k : OpKey),
      Awake s ∧ s.m.sec.challenge = some (nonce, d) ∧ mfind s.m.sec.keys key = some k ∧ k.roles.testBit 4 = true) ∧
    (∃ (s : State) (key : Nat) (ok : Bool),
      Awake s ∧ ((ok = false ∨ s.m.sec.challenge = none ∨ (∀ k, mfind s.m.sec.keys key = some k → k.roles.testBit 4 = false)))) ∧
    (∃ (s : State) (key : Nat) (ok : Bool),
      Awake s ∧ ((ok = false ∨ s.m.sec.challenge = none ∨ (∀ k, mfind s.m.sec.keys key = some k → k.roles.testBit 4 = false)))) :=
  ⟨⟨st (up []), 1#32,
      rfl⟩,
    ⟨st (up [(F.SEC_CTRL_ATTEST, 0, 1)]),
      rfl, (by decide +kernel)⟩,
    ⟨st { up [] with sec := { keys0 with challenge := some (3, 990) } }, 5, 3, 990, { roles := 31, counter := 1 },
      rfl, (by decide +kernel), (by decide +kernel), (by decide +kernel)⟩,
    ⟨st { up [] with sec := { keys0 with challenge := some (3, 990) } }, 6, true,
      rfl, (.inr (.inr (by intro k h; cases h)))⟩,
    ⟨st { up [] with sec := { keys0 with challenge := some (3, 990) } }, 5, false,
      rfl, (.inl rfl)⟩⟩

/-- States and operands that meet the hypotheses of AuthorityIsRefused. -/
theorem test_meets_authority_is_refused :
    (∃ (i : Instr) (op : Nat) (c : Cmd) (s : State),
      Awake s ∧ (((((i = .rosterLoad c ∧ op = 0x0C01) ∨ (i = .seatAdmit c ∧ op = 0x0C02) ∨ (i = .seatEvict c ∧ op = 0x0C03) ∨ (i = .trumpClear c ∧ op = 0x0706) ∨ (i = .keyRotate c ∧ op = 0x0D01) ∨ (i = .fwStage c ∧ op = 0x0D02)) ∧ Cmd_signed c = true ∧ bufOk c false s.m = true ∧ stage1 op c s.m ≠ 0) ∨ (((i = .portStop c ∧ op = 0x0502) ∨ (i = .systemReset c ∧ op = 0x0E02)) ∧ Cmd_signed c = false ∧ s.m.ann.latch ≠ []))) ∧ (∃ q, c.src = .ring q) ∧ c.flags < 16 ∧ c.rsvd = 0 ∧ c.deal = 0 ∧ Cmd_tunnel c = false ∧ ((c.target = 0xFFFE ∨ (c.target ≤ 1023 ∧ member s.m = true ∧ c.target = ownSeat s.m))) ∧ reservedOk op c = true) ∧
    (∃ (i : Instr) (op : Nat) (c : Cmd) (s : State),
      Awake s ∧ (((((i = .rosterLoad c ∧ op = 0x0C01) ∨ (i = .seatAdmit c ∧ op = 0x0C02) ∨ (i = .seatEvict c ∧ op = 0x0C03) ∨ (i = .trumpClear c ∧ op = 0x0706) ∨ (i = .keyRotate c ∧ op = 0x0D01) ∨ (i = .fwStage c ∧ op = 0x0D02)) ∧ Cmd_signed c = true ∧ bufOk c false s.m = true ∧ stage1 op c s.m ≠ 0) ∨ (((i = .portStop c ∧ op = 0x0502) ∨ (i = .systemReset c ∧ op = 0x0E02)) ∧ Cmd_signed c = false ∧ s.m.ann.latch ≠ []))) ∧ (∃ q, c.src = .ring q) ∧ c.flags < 16 ∧ c.rsvd = 0 ∧ c.deal = 0 ∧ Cmd_tunnel c = false ∧ ((c.target = 0xFFFE ∨ (c.target ≤ 1023 ∧ member s.m = true ∧ c.target = ownSeat s.m))) ∧ reservedOk op c = true) ∧
    (∃ (i : Instr) (op : Nat) (c : Cmd) (s : State),
      Awake s ∧ (((((i = .rosterLoad c ∧ op = 0x0C01) ∨ (i = .seatAdmit c ∧ op = 0x0C02) ∨ (i = .seatEvict c ∧ op = 0x0C03) ∨ (i = .trumpClear c ∧ op = 0x0706) ∨ (i = .keyRotate c ∧ op = 0x0D01) ∨ (i = .fwStage c ∧ op = 0x0D02)) ∧ Cmd_signed c = true ∧ bufOk c false s.m = true ∧ stage1 op c s.m ≠ 0) ∨ (((i = .portStop c ∧ op = 0x0502) ∨ (i = .systemReset c ∧ op = 0x0E02)) ∧ Cmd_signed c = false ∧ s.m.ann.latch ≠ []))) ∧ (∃ q, c.src = .ring q) ∧ c.flags < 16 ∧ c.rsvd = 0 ∧ c.deal = 0 ∧ Cmd_tunnel c = false ∧ ((c.target = 0xFFFE ∨ (c.target ≤ 1023 ∧ member s.m = true ∧ c.target = ownSeat s.m))) ∧ reservedOk op c = true) ∧
    (∃ (i : Instr) (op : Nat) (c : Cmd) (s : State),
      Awake s ∧ (((((i = .rosterLoad c ∧ op = 0x0C01) ∨ (i = .seatAdmit c ∧ op = 0x0C02) ∨ (i = .seatEvict c ∧ op = 0x0C03) ∨ (i = .trumpClear c ∧ op = 0x0706) ∨ (i = .keyRotate c ∧ op = 0x0D01) ∨ (i = .fwStage c ∧ op = 0x0D02)) ∧ Cmd_signed c = true ∧ bufOk c false s.m = true ∧ stage1 op c s.m ≠ 0) ∨ (((i = .portStop c ∧ op = 0x0502) ∨ (i = .systemReset c ∧ op = 0x0E02)) ∧ Cmd_signed c = false ∧ s.m.ann.latch ≠ []))) ∧ (∃ q, c.src = .ring q) ∧ c.flags < 16 ∧ c.rsvd = 0 ∧ c.deal = 0 ∧ Cmd_tunnel c = false ∧ ((c.target = 0xFFFE ∨ (c.target ≤ 1023 ∧ member s.m = true ∧ c.target = ownSeat s.m))) ∧ reservedOk op c = true) ∧
    (∃ (i : Instr) (op : Nat) (c : Cmd) (s : State),
      Awake s ∧ (((((i = .rosterLoad c ∧ op = 0x0C01) ∨ (i = .seatAdmit c ∧ op = 0x0C02) ∨ (i = .seatEvict c ∧ op = 0x0C03) ∨ (i = .trumpClear c ∧ op = 0x0706) ∨ (i = .keyRotate c ∧ op = 0x0D01) ∨ (i = .fwStage c ∧ op = 0x0D02)) ∧ Cmd_signed c = true ∧ bufOk c false s.m = true ∧ stage1 op c s.m ≠ 0) ∨ (((i = .portStop c ∧ op = 0x0502) ∨ (i = .systemReset c ∧ op = 0x0E02)) ∧ Cmd_signed c = false ∧ s.m.ann.latch ≠ []))) ∧ (∃ q, c.src = .ring q) ∧ c.flags < 16 ∧ c.rsvd = 0 ∧ c.deal = 0 ∧ Cmd_tunnel c = false ∧ ((c.target = 0xFFFE ∨ (c.target ≤ 1023 ∧ member s.m = true ∧ c.target = ownSeat s.m))) ∧ reservedOk op c = true) ∧
    (∃ (i : Instr) (op : Nat) (c : Cmd) (s : State),
      Awake s ∧ (((((i = .rosterLoad c ∧ op = 0x0C01) ∨ (i = .seatAdmit c ∧ op = 0x0C02) ∨ (i = .seatEvict c ∧ op = 0x0C03) ∨ (i = .trumpClear c ∧ op = 0x0706) ∨ (i = .keyRotate c ∧ op = 0x0D01) ∨ (i = .fwStage c ∧ op = 0x0D02)) ∧ Cmd_signed c = true ∧ bufOk c false s.m = true ∧ stage1 op c s.m ≠ 0) ∨ (((i = .portStop c ∧ op = 0x0502) ∨ (i = .systemReset c ∧ op = 0x0E02)) ∧ Cmd_signed c = false ∧ s.m.ann.latch ≠ []))) ∧ (∃ q, c.src = .ring q) ∧ c.flags < 16 ∧ c.rsvd = 0 ∧ c.deal = 0 ∧ Cmd_tunnel c = false ∧ ((c.target = 0xFFFE ∨ (c.target ≤ 1023 ∧ member s.m = true ∧ c.target = ownSeat s.m))) ∧ reservedOk op c = true) ∧
    (∃ (i : Instr) (op : Nat) (c : Cmd) (s : State),
      Awake s ∧ (((((i = .rosterLoad c ∧ op = 0x0C01) ∨ (i = .seatAdmit c ∧ op = 0x0C02) ∨ (i = .seatEvict c ∧ op = 0x0C03) ∨ (i = .trumpClear c ∧ op = 0x0706) ∨ (i = .keyRotate c ∧ op = 0x0D01) ∨ (i = .fwStage c ∧ op = 0x0D02)) ∧ Cmd_signed c = true ∧ bufOk c false s.m = true ∧ stage1 op c s.m ≠ 0) ∨ (((i = .portStop c ∧ op = 0x0502) ∨ (i = .systemReset c ∧ op = 0x0E02)) ∧ Cmd_signed c = false ∧ s.m.ann.latch ≠ []))) ∧ (∃ q, c.src = .ring q) ∧ c.flags < 16 ∧ c.rsvd = 0 ∧ c.deal = 0 ∧ Cmd_tunnel c = false ∧ ((c.target = 0xFFFE ∨ (c.target ≤ 1023 ∧ member s.m = true ∧ c.target = ownSeat s.m))) ∧ reservedOk op c = true) ∧
    (∃ (i : Instr) (op : Nat) (c : Cmd) (s : State),
      Awake s ∧ (((((i = .rosterLoad c ∧ op = 0x0C01) ∨ (i = .seatAdmit c ∧ op = 0x0C02) ∨ (i = .seatEvict c ∧ op = 0x0C03) ∨ (i = .trumpClear c ∧ op = 0x0706) ∨ (i = .keyRotate c ∧ op = 0x0D01) ∨ (i = .fwStage c ∧ op = 0x0D02)) ∧ Cmd_signed c = true ∧ bufOk c false s.m = true ∧ stage1 op c s.m ≠ 0) ∨ (((i = .portStop c ∧ op = 0x0502) ∨ (i = .systemReset c ∧ op = 0x0E02)) ∧ Cmd_signed c = false ∧ s.m.ann.latch ≠ []))) ∧ (∃ q, c.src = .ring q) ∧ c.flags < 16 ∧ c.rsvd = 0 ∧ c.deal = 0 ∧ Cmd_tunnel c = false ∧ ((c.target = 0xFFFE ∨ (c.target ≤ 1023 ∧ member s.m = true ∧ c.target = ownSeat s.m))) ∧ reservedOk op c = true) :=
  ⟨⟨.rosterLoad (sgn 0x0C02 384 (.bytes rosBytes) []), 0x0C01, sgn 0x0C02 384 (.bytes rosBytes) [], stDom [] {},
      rfl, (by decide +kernel), (⟨0, rfl⟩), (by decide +kernel), (by decide +kernel), (by decide +kernel), (by decide +kernel), (by decide +kernel), (by decide +kernel)⟩,
    ⟨.seatAdmit (sgn 0x0C01 384 .none []), 0x0C02, sgn 0x0C01 384 .none [], stDom [] {},
      rfl, (by decide +kernel), (⟨0, rfl⟩), (by decide +kernel), (by decide +kernel), (by decide +kernel), (by decide +kernel), (by decide +kernel), (by decide +kernel)⟩,
    ⟨.seatEvict (sgn 0x0C01 384 .none []), 0x0C03, sgn 0x0C01 384 .none [], stDom [] {},
      rfl, (by decide +kernel), (⟨0, rfl⟩), (by decide +kernel), (by decide +kernel), (by decide +kernel), (by decide +kernel), (by decide +kernel), (by decide +kernel)⟩,
    ⟨.trumpClear (sgn 0x0C01 384 .none []), 0x0706, sgn 0x0C01 384 .none [], stDom [] {},
      rfl, (by decide +kernel), (⟨0, rfl⟩), (by decide +kernel), (by decide +kernel), (by decide +kernel), (by decide +kernel), (by decide +kernel), (by decide +kernel)⟩,
    ⟨.keyRotate (sgn 0x0C01 384 .none []), 0x0D01, sgn 0x0C01 384 .none [], stDom [] {},
      rfl, (by decide +kernel), (⟨0, rfl⟩), (by decide +kernel), (by decide +kernel), (by decide +kernel), (by decide +kernel), (by decide +kernel), (by decide +kernel)⟩,
    ⟨.fwStage (sgn 0x0C01 384 .none []), 0x0D02, sgn 0x0C01 384 .none [], stDom [] {},
      rfl, (by decide +kernel), (⟨0, rfl⟩), (by decide +kernel), (by decide +kernel), (by decide +kernel), (by decide +kernel), (by decide +kernel), (by decide +kernel)⟩,
    ⟨.portStop (cmd [(24, 5)]), 0x0502, cmd [(24, 5)], stAnn [] { latch := [(2, ⟨4, 55, 3⟩)] },
      rfl, (by decide +kernel), (⟨0, rfl⟩), (by decide +kernel), (by decide +kernel), (by decide +kernel), (by decide +kernel), (by decide +kernel), (by decide +kernel)⟩,
    ⟨.systemReset (cmd [(24, 1)]), 0x0E02, cmd [(24, 1)], stAnn [] { latch := [(2, ⟨4, 55, 3⟩)] },
      rfl, (by decide +kernel), (⟨0, rfl⟩), (by decide +kernel), (by decide +kernel), (by decide +kernel), (by decide +kernel), (by decide +kernel), (by decide +kernel)⟩⟩

/-- States and operands that meet the hypotheses of HostInterfaceRuns. -/
theorem test_meets_host_interface_runs :
    (∃ (s : State),
      Awake s ∧ flag s.m F.HIF_CTRL_ENABLE = false ∧ setupFault s.m.regs = none) ∧
    (∃ (s : State) (code : Nat) (item : Nat),
      Awake s ∧ flag s.m F.HIF_CTRL_ENABLE = false ∧ setupFault s.m.regs = some (code, item)) ∧
    (∃ (s : State) (p : PollIn),
      Awake s ∧ pollDue s.m = true) ∧
    (∃ (s : State) (p : PollIn),
      Awake s ∧ pollDue s.m = true) ∧
    (∃ (s : State) (p : PollIn),
      Awake s ∧ pollDue s.m = false) ∧
    (∃ (s : State) (p : PollIn),
      Awake s ∧ pollDue s.m = false) ∧
    (∃ (s : State) (c : Nat),
      Awake s ∧ c < 16 ∧ running s.m = true ∧ cqTimer s.m c = true ∧ mget 0 s.m.hif.cqCov c = mget 0 s.m.hif.cqProd c) ∧
    (∃ (s : State) (c : Nat),
      Awake s ∧ c < 16 ∧ running s.m = true ∧ cqTimer s.m c = true ∧ mget 0 s.m.hif.cqCov c ≠ mget 0 s.m.hif.cqProd c) ∧
    (∃ (s : State) (e : Nat),
      Awake s ∧ e < 8 ∧ running s.m = true ∧ eqTimer s.m e = true ∧ mget 0 s.m.hif.eqCov e = mget 0 s.m.hif.eqProd e) ∧
    (∃ (s : State) (e : Nat),
      Awake s ∧ e < 8 ∧ running s.m = true ∧ eqTimer s.m e = true ∧ mget 0 s.m.hif.eqCov e ≠ mget 0 s.m.hif.eqProd e) ∧
    (∃ (s : State) (k : Nat) (x : FifoEntry) (xs : List FifoEntry),
      Awake s ∧ (fifo s.m k).entries = x :: xs ∧ x.deal + hifDeals s.m F.HIF_LINGER_DEALS ≤ s.m.deal ∧ running s.m = true) ∧
    (∃ (s : State) (k : Nat) (x : FifoEntry) (xs : List FifoEntry),
      Awake s ∧ (fifo s.m k).entries = x :: xs ∧ x.deal + hifDeals s.m F.HIF_LINGER_DEALS ≤ s.m.deal ∧ running s.m = false) ∧
    (∃ (s : State) (h : Held) (eff : Eff),
      Awake s ∧ s.m.hif.stopped = [h] ∧ effOf h.tk.op = some eff) ∧
    (∃ (s : State) (h : Held),
      Awake s ∧ s.m.hif.stopped = [h] ∧ h.tk.op = 0x0901 ∧ 1 ≤ u8 h.cmd 24 ∧ u8 h.cmd 24 ≤ 15 ∧ s.m.pwr.move = none) :=
  ⟨⟨st { regs := okRegs },
      rfl, (by decide +kernel), (by decide +kernel)⟩,
    ⟨st { regs := resetRegs }, 1, 48,
      rfl, (by decide +kernel), (by decide +kernel)⟩,
    ⟨st (up []), pollIn,
      rfl, (by decide +kernel)⟩,
    ⟨st { up [] with hif := { hifUp with pollFrom := 1000, linger := [0x0800], fifos := [(0x0800, { entries := [entry0], captured := 1 })] } }, pollIn,
      rfl, (by decide +kernel)⟩,
    ⟨st { up [] with hif := { hifUp with pollFrom := 1001 } }, pollIn,
      rfl, (by decide +kernel)⟩,
    ⟨st { up [] with hif := { hifUp with pollDeal := 1000, polls := 1 } }, pollIn,
      rfl, (by decide +kernel)⟩,
    ⟨st { up [] with hif := coal 15 7 }, 15,
      rfl, (by decide +kernel), (by decide +kernel), (by decide +kernel), (by decide +kernel)⟩,
    ⟨st { up [] with hif := { coal 15 7 with cqProd := [(15, 1)] } }, 15,
      rfl, (by decide +kernel), (by decide +kernel), (by decide +kernel), (by decide +kernel)⟩,
    ⟨st { up [] with hif := coal 15 7 }, 7,
      rfl, (by decide +kernel), (by decide +kernel), (by decide +kernel), (by decide +kernel)⟩,
    ⟨st { up [] with hif := { coal 15 7 with eqProd := [(7, 1)] } }, 7,
      rfl, (by decide +kernel), (by decide +kernel), (by decide +kernel), (by decide +kernel)⟩,
    ⟨st { (up [(F.HIF_LINGER_DEALS, 0, 8), (F.HIF_CTRL_ENABLE, 0, 1)]) with hif := { lat := rsetij F.HIF_LINGER_DEALS 0 0 8 setUp, fifos := [(0x0800, { entries := [entry0], captured := 1 })] } }, 0x0800, entry0, [],
      rfl, (by decide +kernel), (by decide +kernel), (by decide +kernel)⟩,
    ⟨st { deal := 1000, regs := regsWith [(F.HIF_LINGER_DEALS, 0, 8)], hif := { fifos := [(0x0800, { entries := [entry0], captured := 1 })] } }, 0x0800, entry0, [],
      rfl, (by decide +kernel), (by decide +kernel), (by decide +kernel)⟩,
    ⟨st { up [] with hif := { hifUp with stopped := [hold0] } }, hold0, powerTolerance,
      rfl, (by decide +kernel), (rfl)⟩,
    ⟨st { up [] with hif := { hifUp with stopped := [hold0] } }, hold0,
      rfl, (by decide +kernel), (by decide +kernel), (by decide +kernel), (by decide +kernel), (by decide +kernel)⟩⟩

/-- States and operands that meet the hypotheses of HostInterfaceStops. -/
theorem test_meets_host_interface_stops :
    (∃ (s : State),
      Awake s ∧ running s.m = true) ∧
    (∃ (s : State) (c : Instr) (v : Word),
      Awake s ∧ ((c = .hostReset v ∨ c = .flr ∨ c = .pciePerst))) ∧
    (∃ (s : State) (c : Instr) (v : Word),
      Awake s ∧ ((c = .hostReset v ∨ c = .flr ∨ c = .pciePerst))) ∧
    (∃ (s : State) (c : Instr) (v : Word),
      Awake s ∧ ((c = .hostReset v ∨ c = .flr ∨ c = .pciePerst))) ∧
    (∃ (s : State),
      Awake s ∧ s.m.hif.resetReq.isSome = true) :=
  ⟨⟨st (up []),
      rfl, (by decide +kernel)⟩,
    ⟨st { up [] with hif := hheld }, .hostReset 0#32, 0#32,
      rfl, (by decide +kernel)⟩,
    ⟨st { up [] with hif := hheld }, .flr, 0#32,
      rfl, (by decide +kernel)⟩,
    ⟨st { up [] with hif := { hheld with resetReq := some 998 } }, .pciePerst, 0#32,
      rfl, (by decide +kernel)⟩,
    ⟨st { up [] with hif := { hheld with resetReq := some 990 } },
      rfl, (by decide +kernel)⟩⟩

/-- States and operands that meet the hypotheses of TolerancesReturnToZero. -/
theorem test_meets_tolerances_return_to_zero :
    (∃ (s : State) (v : Word),
      Awake s) :=
  ⟨st (up [(F.PWR_TOL_RENDER_US, 0, 5)]), 0#32,
      rfl⟩

/-- States and operands that meet the hypotheses of TunnelCarriesCommands. -/
theorem test_meets_tunnel_carries_commands :
    (∃ (s : State) (r : TunnelReq),
      Awake s ∧ member s.m = true ∧ s.m.hif.assemblies.any (fun a => a.seat == r.seat && a.tunId == r.tunId) = false ∧ r.idx < r.cnt ∧ 2 ≤ r.cnt) ∧
    (∃ (s : State) (r : TunnelReq),
      Awake s ∧ member s.m = true ∧ s.m.hif.assemblies.any (fun a => a.seat == r.seat && a.tunId == r.tunId) = false ∧ r.idx = 0 ∧ r.cnt = 1 ∧ r.mgrSeq = 0 ∧ s.m.hif.seen.contains (r.seat, r.tunId) = false ∧ (effOf r.whole.op).isSome = true ∧ r.whole.op ≠ 0x0102 ∧ signedOp r.whole.op = false ∧ r.whole.cmd.flags < 16 ∧ Cmd_signed r.whole.cmd = false ∧ Cmd_tunnel r.whole.cmd = false ∧ r.whole.cmd.rsvd = 0 ∧ reservedOk r.whole.op r.whole.cmd = true ∧ r.whole.cmd.deal = 0 ∧ r.whole.cmd.target = ownSeat s.m ∧ ownSeat s.m ≤ 1023 ∧ s.m.hif.held.length < 4096) ∧
    (∃ (s : State) (r : TunnelRep) (x : Sent),
      Awake s ∧ sentOf s.m r.tunId = some x ∧ r.idx < r.cnt ∧ (replyGot r s.m).got.length < r.cnt) ∧
    (∃ (s : State) (r : TunnelRep) (x : Sent) (q : Nat),
      Awake s ∧ sentOf s.m r.tunId = some x ∧ r.idx < r.cnt ∧ r.cnt ≤ (replyGot r s.m).got.length ∧ x.tk.src = .ring q ∧ live x.tk s.m = true) ∧
    (∃ (s : State) (r : TunnelRep) (x : Sent) (q : Nat),
      Awake s ∧ sentOf s.m r.tunId = some x ∧ r.idx < r.cnt ∧ r.cnt ≤ (replyGot r s.m).got.length ∧ x.tk.src = .ring q ∧ live x.tk s.m = true) ∧
    (∃ (s : State) (tun : Nat) (d : Nat) (x : Sent) (q : Nat),
      Awake s ∧ sentOf s.m tun = some x ∧ Cmd_interim x.cmd = true ∧ x.tk.src = .ring q ∧ x.tk.interim = false ∧ live x.tk s.m = true) ∧
    (∃ (s : State) (tun : Nat) (x : Sent) (q : Nat),
      Awake s ∧ s.m.hif.sent.find? (fun x => x.tunId == tun) = some x ∧ x.tk.src = .ring q ∧ live x.tk s.m = true ∧ x.since + hifDeals s.m F.HIF_TUNNEL_TMO_DEALS ≤ s.m.deal) ∧
    (∃ (s : State) (seat : Nat) (tun : Nat),
      Awake s) ∧
    (∃ (s : State) (seat : Nat) (tun : Nat),
      Awake s) :=
  ⟨⟨stSeat hifUp, { treq with cnt := 2, idx := 1 },
      rfl, (by decide +kernel), (by decide +kernel), (by decide +kernel), (by decide +kernel)⟩,
    ⟨stSeat hifUp, treq,
      rfl, (by decide +kernel), (by decide +kernel), (by decide +kernel), (by decide +kernel), (by decide +kernel), (by decide +kernel), (by decide +kernel), (by decide +kernel), (by decide +kernel), (by decide +kernel), (by decide +kernel), (by decide +kernel), (by decide +kernel), (by decide +kernel), (by decide +kernel), (by decide +kernel), (by decide +kernel), (by decide +kernel)⟩,
    ⟨stSeat { hifUp with sent := [sent0] }, { tunId := 9, status := 0, deal := 950, result := [], idx := 1, cnt := 2 }, sent0,
      rfl, (by decide +kernel), (by decide +kernel), (by decide +kernel)⟩,
    ⟨stSeat { hifUp with sent := [sent0] }, { tunId := 9, status := 0, deal := 950, result := [] }, sent0, 0,
      rfl, (by decide +kernel), (by decide +kernel), (by decide +kernel), (by decide +kernel), (by decide +kernel)⟩,
    ⟨stSeat { hifUp with sent := [sent0], replies := [⟨4, 9, 999, [0]⟩] }, { tunId := 9, status := 0, deal := 950, result := [(4, 7)], idx := 1, cnt := 2 }, sent0, 0,
      rfl, (by decide +kernel), (by decide +kernel), (by decide +kernel), (by decide +kernel), (by decide +kernel)⟩,
    ⟨stSeat { hifUp with sent := [sent0] }, 9, 1005, sent0, 0,
      rfl, (by decide +kernel), (by decide +kernel), (by decide +kernel), (by decide +kernel), (by decide +kernel)⟩,
    ⟨st { up [(F.DOM_STATE_SEAT, 0, 4)] with deal := 1700, hif := { hifUp with sent := [sent0] } }, 9, sent0, 0,
      rfl, (by decide +kernel), (by decide +kernel), (by decide +kernel), (by decide +kernel)⟩,
    ⟨stSeat { hifUp with assemblies := [⟨7, 9, 936, [0]⟩, ⟨7, 10, 937, [0]⟩] }, 7, 9,
      rfl⟩,
    ⟨stSeat { hifUp with assemblies := [⟨7, 9, 936, [0]⟩, ⟨7, 10, 937, [0]⟩] }, 7, 10,
      rfl⟩⟩

/-- States and operands that meet the hypotheses of RegistersAnswer. -/
theorem test_meets_registers_answer :
    (∃ (s : State) (off : Nat),
      Awake s ∧ off % 4 = 0 ∧ off < 0x40000) ∧
    (∃ (s : State) (off : Nat),
      Awake s ∧ off % 4 = 0 ∧ off < 0x40000) ∧
    (∃ (s : State) (off : Nat) (v : Word),
      Awake s ∧ off % 4 = 0 ∧ 0x1004 ≤ off ∧ off < 0x2000) ∧
    (∃ (s : State) (off : Nat) (v : Word),
      Awake s ∧ off % 4 = 0 ∧ 0x1004 ≤ off ∧ off < 0x2000) ∧
    (∃ (s : State) (w : CfgWord) (v : Word),
      Awake s ∧ ((w = .id ∨ w = .classRev ∨ w = .subsys))) ∧
    (∃ (s : State) (v : Word),
      Awake s ∧ s.m.ann.latch = []) ∧
    (∃ (s : State) (v : Word) (i : Instr),
      Awake s ∧ s.m.ann.latch ≠ [] ∧ ((i = .sysResetFull v ∨ i = .sysResetNow v))) ∧
    (∃ (s : State) (v : Word) (i : Instr),
      Awake s ∧ s.m.ann.latch ≠ [] ∧ ((i = .sysResetFull v ∨ i = .sysResetNow v))) :=
  ⟨⟨st (up []), 0x3FFFC,
      rfl, (by decide +kernel), (by decide +kernel)⟩,
    ⟨st (up []), 0,
      rfl, (by decide +kernel), (by decide +kernel)⟩,
    ⟨st (up []), 0x1FFC, 0xFFFFFFFF#32,
      rfl, (by decide +kernel), (by decide +kernel), (by decide +kernel)⟩,
    ⟨st (up []), 0x1004, 7#32,
      rfl, (by decide +kernel), (by decide +kernel), (by decide +kernel)⟩,
    ⟨st { up [(F.GPIO_OUT_LEVEL, 0, 6)] with hif := { hifUp with bar0 := 0xE4000C0000, aer := 15 } }, .subsys, 0x12345678#32,
      rfl, (by decide +kernel)⟩,
    ⟨st (up []), 2#32,
      rfl, (by decide +kernel)⟩,
    ⟨st { up [] with ann := { latch := [(2, ⟨4, 55, 3⟩)] } }, 1#32, .sysResetNow 1#32,
      rfl, (by decide +kernel), (by decide +kernel)⟩,
    ⟨st { up [] with ann := { latch := [(2, ⟨4, 55, 3⟩)] } }, 1#32, .sysResetFull 1#32,
      rfl, (by decide +kernel), (by decide +kernel)⟩⟩

/-- States and operands that meet the hypotheses of PowerMoves. -/
theorem test_meets_power_moves :
    (∃ (s : State) (c : Cmd),
      Awake s ∧ Plain 0x0901 c s.m ∧ 1 ≤ u8 c 24 ∧ u8 c 24 ≤ 15 ∧ (∀ v, s.m.pwr.move = some v → v.entry = false)) ∧
    (∃ (s : State) (c : Cmd),
      Awake s ∧ Plain 0x0901 c s.m ∧ 1 ≤ u8 c 24 ∧ u8 c 24 ≤ 15 ∧ (∀ v, s.m.pwr.move = some v → v.entry = false)) ∧
    (∃ (s : State) (c : Cmd),
      Awake s ∧ Plain 0x0901 c s.m ∧ 1 ≤ u8 c 24 ∧ u8 c 24 ≤ 15 ∧ (∀ v, s.m.pwr.move = some v → v.entry = false)) ∧
    (∃ (s : State) (c : Cmd) (v : PwrMove),
      let pick := fun (i off : Nat) (f : Fld) => if (u8 c 24).testBit i then u32 c off else rd s.m f % 2 ^ 32; let new := [pick 0 28 F.PWR_TOL_RENDER_US, pick 1 32 F.PWR_TOL_ICOM_US, pick 2 36 F.PWR_TOL_ANN_US, pick 3 40 F.PWR_TOL_STREAM_US]; Awake s ∧ Plain 0x0901 c s.m ∧ 1 ≤ u8 c 24 ∧ u8 c 24 ≤ 15 ∧ s.m.pwr.move = some v ∧ v.entry = true ∧ (∀ f, f = F.PWR_TOL_RENDER_US ∨ f = F.PWR_TOL_ICOM_US ∨ f = F.PWR_TOL_ANN_US ∨ f = F.PWR_TOL_STREAM_US → rd s.m f < 2 ^ 32) ∧ v.dst ≤ targetOf s.m new) ∧
    (∃ (s : State) (c : Cmd) (v : PwrMove),
      let pick := fun (i off : Nat) (f : Fld) => if (u8 c 24).testBit i then u32 c off else rd s.m f % 2 ^ 32; let new := [pick 0 28 F.PWR_TOL_RENDER_US, pick 1 32 F.PWR_TOL_ICOM_US, pick 2 36 F.PWR_TOL_ANN_US, pick 3 40 F.PWR_TOL_STREAM_US]; Awake s ∧ Plain 0x0901 c s.m ∧ 1 ≤ u8 c 24 ∧ u8 c 24 ≤ 15 ∧ s.m.pwr.move = some v ∧ v.entry = true ∧ (∀ f, f = F.PWR_TOL_RENDER_US ∨ f = F.PWR_TOL_ICOM_US ∨ f = F.PWR_TOL_ANN_US ∨ f = F.PWR_TOL_STREAM_US → rd s.m f < 2 ^ 32) ∧ targetOf s.m new < v.dst) ∧
    (∃ (s : State) (d : Nat),
      Awake s ∧ s.m.pwr.deeper = some d ∧ s.m.pwr.move = none ∧ rd s.m F.PWR_STATE_STATE = 0 ∧ targetOf s.m (tolerances s.m) ≠ 0 ∧ d + rd s.m F.PWR_CTRL_DWELL ≤ s.m.deal) ∧
    (∃ (s : State) (v : PwrMove),
      Awake s ∧ s.m.pwr.move = some v ∧ v.dst < 4 ∧ v.entry = true) ∧
    (∃ (s : State) (v : PwrMove),
      Awake s ∧ s.m.pwr.move = some v ∧ v.dst < 4 ∧ v.entry = false) ∧
    (∃ (s : State),
      Awake s ∧ flag s.m F.SYS_RESUME_EN = true ∧ s.m.dk.live.digest ≠ 0 ∧ s.m.dk.live.cutDeal + 480000 ≤ s.m.deal ∧ (newestResume s.m 3).map (fun c => c.deck) ≠ some s.m.dk.live) ∧
    (∃ (s : State) (a : Nat) (c : ResumeCopy),
      Awake s ∧ newestResume s.m a = some c ∧ flag s.m F.TIM_STATE_LOCKED = true ∧ flag s.m F.SYS_BOOT_RESUME_VALID = false ∧ rd s.m F.SYS_BOOT_STAGE ≠ 0 ∧ s.m.dk.live.digest = 0 ∧ s.m.dk.staged = none ∧ s.m.dk.sg = none ∧ s.m.dk.retiring = none) :=
  ⟨⟨st (up [(F.PWR_TOL_ANN_US, 0, 9)]), cmd [(24, 11), (28, 5000), (32, 6000), (36, 7000), (40, 8000)],
      rfl, plain_of (by decide +kernel), (by decide +kernel), (by decide +kernel), (by intro v h; first | (cases h; done) | (cases h; rfl))⟩,
    ⟨st (up [(F.PWR_TOL_ANN_US, 0, 9)]), cmd [(24, 15), (28, 0xFFFFFFFF), (32, 0xFFFFFFFF), (36, 0xFFFFFFFF), (40, 0xFFFFFFFF)],
      rfl, plain_of (by decide +kernel), (by decide +kernel), (by decide +kernel), (by intro v h; first | (cases h; done) | (cases h; rfl))⟩,
    ⟨st { up (tolUp [(F.PWR_STATE_MOVING, 0, 1), (F.PWR_STATE_STATE, 0, 3)]) with pwr := { move := some ⟨false, 0, 3, 992, 1⟩ } }, cmd [(24, 1), (28, 5)],
      rfl, plain_of (by decide +kernel), (by decide +kernel), (by decide +kernel), (by intro v h; first | (cases h; done) | (cases h; rfl))⟩,
    ⟨st { up (tolUp [(F.PWR_STATE_MOVING, 0, 1)]) with pwr := { move := some ⟨true, 1, 0, 992, 1⟩ } }, cmd [(24, 8), (40, 0xFFFFFFFF)], ⟨true, 1, 0, 992, 1⟩,
      rfl, plain_of (by decide +kernel), (by decide +kernel), (by decide +kernel), (by decide +kernel), (by decide +kernel), (by rintro f (rfl | rfl | rfl | rfl) <;> decide +kernel), (by decide +kernel)⟩,
    ⟨st { up (tolUp [(F.PWR_STATE_MOVING, 0, 1)]) with pwr := { move := some ⟨true, 1, 0, 992, 1⟩ } }, cmd [(24, 15)], ⟨true, 1, 0, 992, 1⟩,
      rfl, plain_of (by decide +kernel), (by decide +kernel), (by decide +kernel), (by decide +kernel), (by decide +kernel), (by rintro f (rfl | rfl | rfl | rfl) <;> decide +kernel), (by decide +kernel)⟩,
    ⟨st { up (tolUp []) with pwr := { deeper := some 992 } }, 992,
      rfl, (by decide +kernel), (by decide +kernel), (by decide +kernel), (by decide +kernel), (by decide +kernel)⟩,
    ⟨st { up (tolUp [(F.PWR_STATE_MOVING, 0, 1)]) with pwr := { move := some ⟨true, 3, 0, 992, 1⟩ } }, ⟨true, 3, 0, 992, 1⟩,
      rfl, (by decide +kernel), (by decide +kernel), (by decide +kernel)⟩,
    ⟨st { up (tolUp [(F.PWR_STATE_MOVING, 0, 1), (F.PWR_STATE_STATE, 0, 3)]) with pwr := { move := some ⟨false, 0, 3, 992, 1⟩ } }, ⟨false, 0, 3, 992, 1⟩,
      rfl, (by decide +kernel), (by decide +kernel), (by decide +kernel)⟩,
    ⟨st { up [(F.SYS_RESUME_EN, 0, 1)] with deal := 480100, dk := { live := dk3 }, sys := { resume := [(0, ⟨{ digest := 4 }, 8⟩)] } },
      rfl, (by decide +kernel), (by decide +kernel), (by decide +kernel), (by decide +kernel)⟩,
    ⟨st { up [(F.TIM_STATE_LOCKED, 0, 1), (F.SYS_BOOT_STAGE, 0, 5)] with sys := { resume := [(0, ⟨{ digest := 4 }, 8⟩), (1, ⟨dk3, 9⟩)] } }, 3, ⟨dk3, 9⟩,
      rfl, (by decide +kernel), (by decide +kernel), (by decide +kernel), (by decide +kernel), (by decide +kernel), (by decide +kernel), (by decide +kernel), (by decide +kernel)⟩⟩

/-- States and operands that meet the hypotheses of ResetsTakeHold. -/
theorem test_meets_resets_take_hold :
    (∃ (s : State) (c : Instr) (cause : Nat),
      ((c = .powerOn ∧ cause = 0) ∨ (c = .resetNAssert ∧ cause = 1) ∨ (c = .pwrgoodFall ∧ cause = 7))) ∧
    (∃ (s : State) (c : Instr) (cause : Nat),
      ((c = .powerOn ∧ cause = 0) ∨ (c = .resetNAssert ∧ cause = 1) ∨ (c = .pwrgoodFall ∧ cause = 7))) ∧
    (∃ (s : State) (c : Instr) (cause : Nat),
      ((c = .powerOn ∧ cause = 0) ∨ (c = .resetNAssert ∧ cause = 1) ∨ (c = .pwrgoodFall ∧ cause = 7))) ∧
    (∃ (s : State) (c : Cmd),
      Awake s ∧ ((Plain 0x0E02 c s.m ∨ Signed 0x0E02 c s.m)) ∧ u8 c 24 = 1) ∧
    (∃ (s : State) (c : Cmd),
      Awake s ∧ ((Plain 0x0E02 c s.m ∨ Signed 0x0E02 c s.m)) ∧ u8 c 24 = 1) ∧
    (∃ (s : State) (c : Cmd),
      Awake s ∧ ((Plain 0x0E02 c s.m ∨ Signed 0x0E02 c s.m)) ∧ u8 c 24 = 0) :=
  ⟨⟨stAnn [] { latch := [(2, ⟨4, 55, 3⟩)] }, .powerOn, 0,
      (by decide +kernel)⟩,
    ⟨stAnn [] { latch := [(2, ⟨4, 55, 3⟩)] }, .resetNAssert, 1,
      (by decide +kernel)⟩,
    ⟨stAnn [] { latch := [(2, ⟨4, 55, 3⟩)] }, .pwrgoodFall, 7,
      (by decide +kernel)⟩,
    ⟨st (up []), cmd [(24, 1)],
      rfl, (.inl (plain_of (by decide +kernel))), (by decide +kernel)⟩,
    ⟨st { up [] with sec := keys0, ann := { latch := [(2, ⟨4, 55, 3⟩)] } }, sgn 0x0E02 272 .none [(24, 1)],
      rfl, (.inr (signed_of (by decide +kernel))), (by decide +kernel)⟩,
    ⟨st (up []), cmd [(24, 0)],
      rfl, (.inl (plain_of (by decide +kernel))), (by decide +kernel)⟩⟩

/-- States and operands that meet the hypotheses of BootRuns. -/
theorem test_meets_boot_runs :
    (∃ (s : State) (b : BootIn),
      canBoot s.m = false) ∧
    (∃ (s : State) (b : BootIn),
      let m := bootState b s.m; let cause := rd s.m F.SYS_RESET_CAUSE_CAUSE; let src := if cause < 2 ∨ cause = 7 then b.strap % 4 else rd s.m F.SYS_STRAP_BOOT_SRC; canBoot s.m = true ∧ ((src = 0 ∨ src = 2)) ∧ (pickSlot m).isSome = true) ∧
    (∃ (s : State) (b : BootIn),
      let m := bootState b s.m; let cause := rd s.m F.SYS_RESET_CAUSE_CAUSE; let src := if cause < 2 ∨ cause = 7 then b.strap % 4 else rd s.m F.SYS_STRAP_BOOT_SRC; canBoot s.m = true ∧ ((src = 0 ∨ src = 2)) ∧ (pickSlot m).isSome = true) ∧
    (∃ (s : State) (b : BootIn),
      let m := bootState b s.m; let cause := rd s.m F.SYS_RESET_CAUSE_CAUSE; let src := if cause < 2 ∨ cause = 7 then b.strap % 4 else rd s.m F.SYS_STRAP_BOOT_SRC; canBoot s.m = true ∧ src = 0 ∧ pickSlot m = none) ∧
    (∃ (s : State) (b : BootIn),
      let m := bootState b s.m; let cause := rd s.m F.SYS_RESET_CAUSE_CAUSE; let src := if cause < 2 ∨ cause = 7 then b.strap % 4 else rd s.m F.SYS_STRAP_BOOT_SRC; canBoot s.m = true ∧ src = 2 ∧ pickSlot m = none) ∧
    (∃ (s : State) (b : BootIn),
      let cause := rd s.m F.SYS_RESET_CAUSE_CAUSE; let src := if cause < 2 ∨ cause = 7 then b.strap % 4 else rd s.m F.SYS_STRAP_BOOT_SRC; canBoot s.m = true ∧ src = 1) ∧
    (∃ (s : State) (b : BootIn),
      let cause := rd s.m F.SYS_RESET_CAUSE_CAUSE; let src := if cause < 2 ∨ cause = 7 then b.strap % 4 else rd s.m F.SYS_STRAP_BOOT_SRC; canBoot s.m = true ∧ src = 1) ∧
    (∃ (s : State) (b : BootIn),
      let cause := rd s.m F.SYS_RESET_CAUSE_CAUSE; let src := if cause < 2 ∨ cause = 7 then b.strap % 4 else rd s.m F.SYS_STRAP_BOOT_SRC; canBoot s.m = true ∧ src = 3) ∧
    (∃ (s : State) (v : Word),
      s.m.sys.pboot = true) ∧
    (∃ (s : State) (i : BootImg),
      s.m.sys.pboot = true ∧ flag s.m F.SYS_PBOOT_CTRL_GO = true ∧ imageRuns i s.m = true) ∧
    (∃ (s : State) (i : BootImg),
      s.m.sys.pboot = true ∧ flag s.m F.SYS_PBOOT_CTRL_GO = true ∧ imageRuns i s.m = false) ∧
    (∃ (s : State) (v : Word),
      Awake s ∧ s.m.sys.pboot = false) :=
  ⟨⟨st { up [] with sys := { held := some 8 } }, {strap := 0},
      (by decide +kernel)⟩,
    ⟨heldUp { slots := [(0, ⟨bimg 1, 0⟩)] }, { strap := 0 },
      (by decide +kernel), (by decide +kernel), (by decide +kernel)⟩,
    ⟨heldUp {}, { strap := 2, slots := [(1, bimg 1)] },
      (by decide +kernel), (by decide +kernel), (by decide +kernel)⟩,
    ⟨heldUp {}, { strap := 0 },
      (by decide +kernel), (by decide +kernel), (by decide +kernel)⟩,
    ⟨st { up [(F.SYS_RESET_CAUSE_CAUSE, 0, 2), (F.SYS_STRAP_BOOT_SRC, 0, 2)] with sys := { held := some 2 } }, { strap := 0, store := 2 },
      (by decide +kernel), (by decide +kernel), (by decide +kernel)⟩,
    ⟨heldUp {}, { strap := 1 },
      (by decide +kernel), (by decide +kernel)⟩,
    ⟨State.reset, { strap := 1 },
      (by decide +kernel), (by decide +kernel)⟩,
    ⟨State.reset, { strap := 3 },
      (by decide +kernel), (by decide +kernel)⟩,
    ⟨st { up [] with sys := { pboot := true, held := some 8 } }, 1#32,
      (by decide +kernel)⟩,
    ⟨st { up [(F.SYS_PBOOT_CTRL_GO, 0, 1)] with sys := { pboot := true, held := some 8 } }, bimg 5,
      (by decide +kernel), (by decide +kernel), (by decide +kernel)⟩,
    ⟨st { up [(F.SYS_PBOOT_CTRL_GO, 0, 1)] with sys := { pboot := true, held := some 8 } }, bimg 65,
      (by decide +kernel), (by decide +kernel), (by decide +kernel)⟩,
    ⟨st (up []), 1#32,
      rfl, (by decide +kernel)⟩⟩

/-- States and operands that meet the hypotheses of SupervisionActs. -/
theorem test_meets_supervision_acts :
    (∃ (s : State) (rail : Nat) (mv : Nat),
      Awake s ∧ rail < 7 ∧ (rd s.m F.DIAG_SUPPLY_IN_RANGE).testBit rail = true) ∧
    (∃ (s : State) (rail : Nat) (mv : Nat),
      Awake s ∧ rail < 7 ∧ (rd s.m F.DIAG_SUPPLY_IN_RANGE).testBit rail = false) ∧
    (∃ (s : State) (t : Int),
      Awake s ∧ -(2 ^ 15) ≤ t ∧ t < 2 ^ 15) ∧
    (∃ (s : State) (t : Int),
      Awake s ∧ -(2 ^ 15) ≤ t ∧ t < 2 ^ 15) ∧
    (∃ (s : State) (bank : Nat),
      Awake s ∧ bank < 64) ∧
    (∃ (s : State) (bank : Nat) (word : Nat) (t : EccHit),
      Awake s ∧ eccBankOk bank t s.m = true ∧ t ≠ .data) ∧
    (∃ (s : State) (bank : Nat) (word : Nat) (t : EccHit),
      Awake s ∧ eccBankOk bank t s.m = true ∧ t ≠ .data) ∧
    (∃ (s : State) (bank : Nat) (word : Nat) (t : EccHit),
      Awake s ∧ eccBankOk bank t s.m = true ∧ t = .data) ∧
    (∃ (s : State) (k : Nat),
      Awake s ∧ k < 3 ∧ rd s.m F.DIAG_SVC_STAT_VOTING = 7) ∧
    (∃ (s : State) (k : Nat),
      Awake s ∧ k < 3 ∧ rd s.m F.DIAG_SVC_STAT_VOTING ≠ 7 ∧ (rd s.m F.DIAG_SVC_STAT_VOTING).testBit k = true) ∧
    (∃ (s : State) (k : Nat),
      Awake s ∧ k < 3 ∧ flag s.m F.DIAG_SVC_STAT_RESYNC = true ∧ rd s.m F.DIAG_SVC_STAT_VOTING ≠ 7 ∧ (rd s.m F.DIAG_SVC_STAT_VOTING).testBit k = false) :=
  ⟨⟨st { up [(F.DIAG_SUPPLY_IN_RANGE, 0, 127), (F.RING_STATE_INS, 0, 5)] with ring := { bypA := true, bypB := true } }, 6, 900,
      rfl, (by decide +kernel), (by decide +kernel)⟩,
    ⟨st { up [(F.DIAG_SUPPLY_IN_RANGE, 0, 126)] with ring := { bypA := true, bypB := true } }, 0, 900,
      rfl, (by decide +kernel), (by decide +kernel)⟩,
    ⟨st (up []), -32768,
      rfl, (by decide +kernel), (by decide +kernel)⟩,
    ⟨st (up []), 32767,
      rfl, (by decide +kernel), (by decide +kernel)⟩,
    ⟨st (up []), 63,
      rfl, (by decide +kernel)⟩,
    ⟨st (up []), 43, 9, .slot 4095,
      rfl, (by decide +kernel), (by decide +kernel)⟩,
    ⟨st (up []), 63, 9, .packet none,
      rfl, (by decide +kernel), (by decide +kernel)⟩,
    ⟨st (up []), 59, 9, .data,
      rfl, (by decide +kernel), (by decide +kernel)⟩,
    ⟨st (up [(F.DIAG_SVC_STAT_VOTING, 0, 7)]), 2,
      rfl, (by decide +kernel), (by decide +kernel)⟩,
    ⟨st (up [(F.DIAG_SVC_STAT_VOTING, 0, 5)]), 0,
      rfl, (by decide +kernel), (by decide +kernel), (by decide +kernel)⟩,
    ⟨st (up [(F.DIAG_SVC_STAT_VOTING, 0, 5), (F.DIAG_SVC_STAT_RESYNC, 0, 1)]), 1,
      rfl, (by decide +kernel), (by decide +kernel), (by decide +kernel), (by decide +kernel)⟩⟩

/-! The statements over every command or every field. -/

/-- The state after a command, where it has one. -/
def after (c : Instr) (s : State) : State := match exec c s with | .next t => t | _ => s

/-- Two commands that wait satisfy the invariant of SoundKept. -/
theorem test_meets_sound_kept : ∃ s : State, Sound s ∧ s.pending ≠ [] :=
  ⟨⟨up [], [.objSet (cmd []), .registerWrite (.bar 0x3FFFC) 1#32]⟩, by unfold Sound; decide +kernel, by decide⟩

/-- Two well-formed commands in a row. -/
theorem test_meets_queue_runs_in_order : ∃ l : List Instr, (∀ c ∈ l, Instr.wf c = true) ∧ l.length = 2 :=
  ⟨[.rcRead (.bar 0), .timeLock], by decide +kernel, rfl⟩

/-- A locked device that a write of TIM_CTRL reaches, and the two ends of BAR0. -/
theorem test_meets_sys_lock_holds :
    (∃ (c : Instr) (s t : State), exec c s = .next t ∧ flag s.m F.SYS_LOCK_LOCK = true ∧ t.m.sys.held = none) ∧
    (∃ off : Nat, off % 4 = 0 ∧ off < 0x40000 ∧ off = 0) ∧ (∃ off : Nat, off % 4 = 0 ∧ off < 0x40000 ∧ off = 0x3FFFC) :=
  ⟨⟨.timModeWrite 2#32, st (up [(F.SYS_LOCK_LOCK, 0, 1)]), after (.timModeWrite 2#32) (st (up [(F.SYS_LOCK_LOCK, 0, 1)])), rfl,
    by decide +kernel, by decide +kernel⟩,
    ⟨0, by decide⟩,
    ⟨0x3FFFC, by decide⟩⟩

theorem test_meets_commands_keep_the_rest :
    ∃ (c : Instr) (s t : State) (p : Piece), hostCommand c = true ∧ exec c s = .next t ∧ p ∉ touches c :=
  ⟨.timeQuery (cmd []), st (up []), after (.timeQuery (cmd [])) (st (up [])), .clk, rfl, rfl, by decide +kernel⟩

theorem test_meets_events_keep_the_rest :
    ∃ (c : Instr) (s t : State) (p : Piece), hostCommand c = false ∧ exec c s = .next t ∧ p ∉ touches c :=
  ⟨.timeLock, st (up []), after .timeLock (st (up [])), .objs, rfl, rfl, by decide +kernel⟩

/-- A field of each type, at the last repetition of its array. -/
theorem test_meets_field_types_act :
    (∃ (v : Nat) (f : Fld) (i j : Nat) (m : Mach), i < f.n1 ∧ j < f.n2 ∧ f.typ = .rw ∧ legal m f i (v / 2 ^ f.lsb % 2 ^ f.width) = true) ∧
    (∃ (v : Nat) (f : Fld) (i j : Nat) (m : Mach), i < f.n1 ∧ j < f.n2 ∧ f.typ = .rw ∧ legal m f i (v / 2 ^ f.lsb % 2 ^ f.width) = false) ∧
    (∃ (f : Fld) (i j : Nat) (m : Mach), i < f.n1 ∧ j < f.n2 ∧ f.typ = .rwl ∧ flag m F.SYS_LOCK_LOCK = true) ∧
    (∃ (v : Nat) (f : Fld) (i j : Nat) (m : Mach), i < f.n1 ∧ j < f.n2 ∧ f.typ = .rwl ∧ flag m F.SYS_LOCK_LOCK = false ∧
      legal m f i (v / 2 ^ f.lsb % 2 ^ f.width) = true) ∧
    (∃ (v : Nat) (f : Fld) (i j : Nat) (m : Mach), i < f.n1 ∧ j < f.n2 ∧ f.typ = .rwl ∧ flag m F.SYS_LOCK_LOCK = false ∧
      legal m f i (v / 2 ^ f.lsb % 2 ^ f.width) = false) ∧
    (∃ (f : Fld) (i j : Nat), i < f.n1 ∧ j < f.n2 ∧ f.typ = .w1c) ∧ (∃ (f : Fld) (i j : Nat), i < f.n1 ∧ j < f.n2 ∧ f.typ = .w1s) ∧
    (∃ (f : Fld) (i j : Nat), i < f.n1 ∧ j < f.n2 ∧ f.typ ≠ .rw ∧ f.typ ≠ .rwl ∧ f.typ ≠ .w1c ∧ f.typ ≠ .w1s) :=
  ⟨⟨1, F.GRF_DOMAIN_RATE_A, 0, 0, up [], by decide +kernel, by decide +kernel, by decide +kernel, by decide +kernel⟩,
    ⟨3, F.GRF_DOMAIN_RATE_A, 0, 0, up [], by decide +kernel, by decide +kernel, by decide +kernel, by decide +kernel⟩,
    ⟨F.TIM_CTRL_MODE, 0, 0, up [(F.SYS_LOCK_LOCK, 0, 1)], by decide +kernel, by decide +kernel, by decide +kernel, by decide +kernel⟩,
    ⟨2, F.TIM_CTRL_MODE, 0, 0, up [], by decide +kernel, by decide +kernel, by decide +kernel, by decide +kernel, by decide +kernel⟩,
    ⟨3, F.TIM_CTRL_MODE, 0, 0, up [], by decide +kernel, by decide +kernel, by decide +kernel, by decide +kernel, by decide +kernel⟩,
    ⟨F.CLK_FLAGS_HOLDOVER_OUT_OF_SPEC, 0, 0, by decide +kernel, by decide +kernel, by decide +kernel⟩,
    ⟨F.AES_TX_CFG_CS_LOAD, 7, 0, by decide +kernel, by decide +kernel, by decide +kernel⟩,
    ⟨F.GRF_OVERRUN_CNT_COUNT, 0, 0, by decide +kernel, by decide +kernel, by decide +kernel, by decide +kernel, by decide +kernel, by decide +kernel⟩⟩

/-! The check of WellFormed refuses an ill-formed term of each kind, and lets the ends of each range pass. -/

/-- A command whose descriptor is one byte short, and one field too large for each other part of a descriptor. -/
theorem test_wf_descriptor : ∀ c ∈ ([{ cmd [] with pay := leBytes 39 0 }, { cmd [] with tag := 2 ^ 32 }, { cmd [] with flags := 2 ^ 16 },
    { cmd [] with target := 2 ^ 16 }, { cmd [] with rsvd := 2 ^ 48 }, { cmd [] with deal := 2 ^ 64 }] : List Cmd),
    Cmd.wf c = false ∧ Desc.wf ⟨1, c⟩ = false ∧ Instr.wf (.trajPush c) = false ∧ Instr.wf (.keyPackageReceive c) = false := by decide +kernel

theorem test_wf_descriptor_ends : Cmd.wf { cmd [] with tag := 2 ^ 32 - 1, flags := 2 ^ 16 - 1, target := 2 ^ 16 - 1, rsvd := 2 ^ 48 - 1, deal := 2 ^ 64 - 1 } = true := by
  decide +kernel

/-- Every descriptor row refuses a short descriptor. -/
theorem test_wf_host_rows : ∀ f ∈ ([.deckStage, .deckCut, .deckDigest, .trajPush, .trajClear, .objSet, .spkLoad, .corrLoad, .measureRun,
    .streamOpen, .streamClose, .chmapWrite, .portStartGroup, .portStop, .refConfig, .rampLoad, .clipWrite, .msgDefine, .schedWrite, .annPlay,
    .annStop, .trumpClear, .icomConnect, .powerTolerance, .latencyQuery, .counterQuery, .timeQuery, .eventDropPacket, .rosterLoad, .seatAdmit,
    .seatEvict, .keyRotate, .fwStage, .renderReset, .systemReset, .keyPackageReceive] : List (Cmd → Instr)),
    Instr.wf (f { pay := [] }) = false ∧ Instr.wf (f (cmd [])) = true := by decide +kernel

/-- What a poll reads and what a tunnel carries. -/
theorem test_wf_polls_and_tunnels : ∀ i ∈ ([.doorbellPoll { pollIn with sqProd := [] }, .doorbellPoll { pollIn with cqCons := [] },
    .doorbellPoll { pollIn with eqCons := [] }, .doorbellPoll { pollIn with descs := [] }, .doorbellPoll { pollIn with ackSeq := 2 ^ 32 },
    .doorbellPoll { pollIn with ackMask := 2 ^ 32 }, .doorbellPoll { pollIn with sqProd := List.replicate 16 (2 ^ 32) },
    .doorbellPoll { pollIn with cqCons := List.replicate 16 (2 ^ 32) }, .doorbellPoll { pollIn with eqCons := List.replicate 8 (2 ^ 32) },
    .doorbellPoll { pollIn with descs := List.replicate 16 [⟨2 ^ 16, cmd []⟩] }, .doorbellPoll { pollIn with descs := List.replicate 16 [⟨1, { pay := [] }⟩] },
    .tunnelRequestReceive { treq with seat := 1024 }, .tunnelRequestReceive { treq with tunId := 2 ^ 32 }, .tunnelRequestReceive { treq with mgrSeq := 2 ^ 32 },
    .tunnelRequestReceive { treq with idx := 1 }, .tunnelRequestReceive { treq with cnt := 2 ^ 16 }, .tunnelRequestReceive { treq with whole := ⟨2 ^ 16, cmd []⟩ },
    .tunnelReplyReceive { tunId := 2 ^ 32, status := 0, deal := 0, result := [] }, .tunnelReplyReceive { tunId := 0, status := 2 ^ 16, deal := 0, result := [] },
    .tunnelReplyReceive { tunId := 0, status := 0, deal := 2 ^ 64, result := [] }, .stamperAckReceive (2 ^ 32) 0, .stamperAckReceive 0 (2 ^ 64),
    .tunnelTimeout (2 ^ 32), .tunnelReassemblyDiscard 1024 0, .tunnelReassemblyDiscard 0 (2 ^ 32)] : List Instr), Instr.wf i = false := by
  decide +kernel

theorem test_wf_polls_and_tunnels_ends : ∀ i ∈ ([.doorbellPoll pollIn, .tunnelRequestReceive { treq with seat := 1023, cnt := 2 ^ 16 - 1 },
    .tunnelReplyReceive { tunId := 2 ^ 32 - 1, status := 2 ^ 16 - 1, deal := 2 ^ 64 - 1, result := [] }, .stamperAckReceive 0 (2 ^ 64 - 1),
    .tunnelTimeout (2 ^ 32 - 1), .tunnelReassemblyDiscard 1023 0] : List Instr), Instr.wf i = true := by decide +kernel

/-- Indices that name no ring, port, table, node, unit, channel, direction, entry or player, and register accesses. -/
theorem test_wf_indices : ∀ i ∈ ([.coalesceTimeout 15, .coalesceTimeout 40, .captureFifoLinger (2 ^ 16), .mdioDone (2 ^ 16), .phyStatusPoll 2 0 0,
    .phyStatusPoll 0 (2 ^ 16) 0, .phyStatusPoll 0 0 (2 ^ 16), .tasChangeArm 4 0#32, .tasChangeApply 4, .csLoad 8, .uLoad 8, .aesTxShadowCopy 8,
    .sapMaskWrite 32 0#32, .kernelFault 8192 1 0 0, .kernelFault 0 0 0 0, .kernelFault 0 4 0 0, .laneOverflow 16 0 0 0, .laneOverflow 0 256 0 0,
    .laneOverflow 0 0 256 0, .bridgeLost 128 0, .bridgeLocked 128 0, .refLoss 5 (.silent 0), .refBin ⟨[], true, 0⟩, .refDisqualified 5, .refQualified 5,
    .alignerWindowEnd 24 0 0, .rampSegmentEnd 8, .passThroughUnitLost 8, .markerReceive 2 mk0, .timeDirectionLost 2,
    .ptpMessageReceive 2 ⟨true, 0, true, true, .sync 0 0⟩, .ptpMessageInterval 2 0, .ptpAnnounceTimeout 2 none, .launchTimeReached 4 0 0,
    .launchTimeReached 0 2 0, .ticEdgeCapture 8 0 0 true, .ringFrameReceive 2 (fr 0 0), .ringFrameReceive 0 { fr 0 0 with pcp := 8 },
    .localFrameReceive 1 { lf0 with pcp := 0 }, .localFrameReceive 4 { lf0 with pcp := 0 },
    .localFrameReceive 2 { lf0 with pcp := 8 }] : List Instr), Instr.wf i = false := by decide +kernel

theorem test_wf_more_indices : ∀ i ∈ ([.linkDown 4, .linkUp 4, .mkpduReceive 4 localIn, .mkaHello 4, .markerLaunch 2 0, .markerMissed 2,
    .ringStatusReceive 2 (rst 0 0), .linkHeal 2, .verdictReceive 2 true, .streamPacketReceive { pkt0 with port := 4 }, .streamLost 1024, .crfReport 1024,
    .arpRequest 1 0, .arpRequest 4 0, .igmpQuery 1, .igmpQuery 4, .sapFrameStart { dir := 32, k := 0, ns := 0, mhz := 0 }, .sapRestart 32,
    .sapClockLoss 48, .sapRateUpdate 48 0, .aesLock 8 0, .aesUnlock 8, .aesSubframeError ⟨8, true, true, 0⟩,
    .aesBlockEnd { r := 8, csA := 0, csB := 0, uA := 0, uB := 0, crcOk := true }, .scheduleFire 4096, .gpioTrigger 4096, .gpioRelease 4096,
    .icomConverged 32 0, .icomDiverged 32, .icomTalk 32, .duckHoldExpiry 32, .digestRecordReceive ⟨3, 0, 0, 0, 0, 0, 0, 0, 0, 0, 0⟩, .reachTimeout 3,
    .joinReportReceive ⟨1024, 0, 0⟩, .joinReportReceive ⟨0, 1024, 0⟩, .joinReportReceive ⟨0, 0xFFFF, 0xFFFE⟩, .copyReqReceive 1024 true, .snapshotReceive ⟨0, 1, 1, 0, [0, 0, 0], []⟩, .snapshotReceive ⟨0, 0, 1, 0, [0, 0], []⟩,
    .svcCoreDissent 3, .svcResyncDone 3, .resetRelease { strap := 4 }, .resetRelease { strap := 0, store := 3 }, .resumeDeckRestore 4,
    .supplyOutOfLimits 7 0, .supplyOutOfLimits 0 (2 ^ 16), .supplyBack 7 0, .supplyBack 0 (2 ^ 16), .tjSample 32768, .tjSample (-32769), .eccCorrected 64,
    .eccUncorrected 64 0 .data, .eccUncorrected 0 (2 ^ 32) .data, .mkaPeerLost 4, .registerWrite (.bar 2) 0#32, .registerWrite (.bar 0x40000) 0#32,
    .rcRead (.bar 2), .rcRead (.bar 0x40000), .egressFrameEnd 4 0, .gateIntervalEnd 4 0] : List Instr), Instr.wf i = false := by decide +kernel

/-- The last index of each range, and the ends of BAR0. -/
theorem test_wf_index_ends : ∀ i ∈ ([.coalesceTimeout 16, .coalesceTimeout 39, .phyStatusPoll 1 (2 ^ 16 - 1) 0, .kernelFault 8191 3 0 0, .laneOverflow 15 255 255 0,
    .refLoss 4 (.silent 0), .joinReportReceive ⟨1023, 0xFFFF, 1023⟩, .localFrameReceive 3 lf0, .ringFrameReceive 1 { fr 0 0 with pcp := 7 }, .sapClockLoss 47,
    .scheduleFire 4095, .tjSample (-32768), .tjSample 32767, .rcRead (.bar 0x3FFFC), .registerWrite .msixCtrl 0#32, .gateIntervalEnd 3 0] : List Instr),
    Instr.wf i = true := by decide +kernel

/-! Single steps, with results taken from the spec. -/

/-- What a machine shows after a step, or nothing where the step stops. -/
def shows (s : State) (f : State → Bool) : Bool := match step s with | .next t => f t | _ => false

/-- An empty queue: the block idles. -/
theorem test_empty_queue_idles : step (st (up [])) = .next (st (up [])) := rfl

/-- The command in front acts, the one behind it waits: TIM_CTRL.MODE takes 1 (05). -/
theorem test_front_runs : shows ⟨up [], [.timModeWrite 1#32, .timeLock]⟩
    (fun t => rd t.m F.TIM_CTRL_MODE == 1 && t.pending == [.timeLock]) = true := by decide +kernel

/-- An illegal value leaves a field as it is (00 R6). -/
theorem test_illegal_mode_ignored : shows ⟨up [(F.TIM_CTRL_MODE, 0, 2)], [.timModeWrite 3#32]⟩ (fun t => rd t.m F.TIM_CTRL_MODE == 2) = true := by
  decide +kernel

/-- A write of an RWL field after SYS_LOCK changes nothing (00 R8). -/
theorem test_lock_holds_mode : shows ⟨up [(F.SYS_LOCK_LOCK, 0, 1)], [.timModeWrite 1#32]⟩ (fun t => rd t.m F.TIM_CTRL_MODE == 0) = true := by
  decide +kernel

/-- GPIO_OUT_SET and GPIO_OUT_CLR change the written bits alone. -/
theorem test_gpio_out : shows ⟨up [(F.GPIO_OUT_LEVEL, 0, 6)], [.gpioOutSet 1#32]⟩ (fun t => rd t.m F.GPIO_OUT_LEVEL == 7) = true ∧
    shows ⟨up [(F.GPIO_OUT_LEVEL, 0, 6)], [.gpioOutClr 2#32]⟩ (fun t => rd t.m F.GPIO_OUT_LEVEL == 4) = true := by decide +kernel

/-- A point after the boundary joins its object's queue at its own time (11 R280). -/
theorem test_traj_push_in_time : shows ⟨up [], [.trajPush (cmd [(24, 3), (28, 5), (32, 1001), (40, 7)])]⟩
    (fun t => (objOf t.m 3).queue.map (fun p => (p.t, p.x)) == [(1001 * 65536 + 5, 7 * 256)]) = true := by decide +kernel

/-- A read of an unaligned word faults, and so does one outside BAR0. -/
theorem test_bad_reads_fault : (match step ⟨up [], [.rcRead (.bar 2)]⟩ with | .fault .barUnaligned => true | _ => false) = true ∧
    (match step ⟨up [], [.rcRead (.bar 0x40000)]⟩ with | .fault .barOutside => true | _ => false) = true := by decide +kernel

/-- A device held in reset does not take time. -/
theorem test_held_device_waits : shows ⟨{ up [] with sys := { held := some 1 } }, [.dealTick {}]⟩ (fun t => t.m.deal == 1000) = true := by decide +kernel


end Sys2Proof.Tests
end

section
/-! Register fields and register accesses: how a write reaches a field of each type (00 R4, R6, R8), which accesses stop (R3), and what the
registers with an action of their own do. -/
namespace Sys2Proof.Machine

/-! Field types. -/

section FieldTypes
variable (v : Nat) {f : Fld} {i j : Nat} (m : Mach)

theorem rdij_wrij_self (hi : i < f.n1) (hj : j < f.n2) (x : Nat) : rdij (wrij f i j x m) f i j = x % 2 ^ f.width := by
  simp [rdij, hi, hj]

theorem writeFld_rw_legal (ht : f.typ = .rw) (hi : i < f.n1) (hj : j < f.n2) (hx : legal m f i (v / 2 ^ f.lsb % 2 ^ f.width) = true) :
    rdij (writeFld v f i j m) f i j = v / 2 ^ f.lsb % 2 ^ f.width := by
  simp only [writeFld, ht, hx, if_true]
  rw [rdij_wrij_self m hi hj, Nat.mod_mod]

theorem writeFld_rw_illegal (ht : f.typ = .rw) (hx : legal m f i (v / 2 ^ f.lsb % 2 ^ f.width) = false) : writeFld v f i j m = m := by
  simp [writeFld, ht, hx]

theorem writeFld_rwl_legal (ht : f.typ = .rwl) (hl : flag m F.SYS_LOCK_LOCK = false) (hi : i < f.n1) (hj : j < f.n2)
    (hx : legal m f i (v / 2 ^ f.lsb % 2 ^ f.width) = true) : rdij (writeFld v f i j m) f i j = v / 2 ^ f.lsb % 2 ^ f.width := by
  simp only [writeFld, ht, hl, hx, Bool.not_false, Bool.and_self, if_true]
  rw [rdij_wrij_self m hi hj, Nat.mod_mod]

theorem writeFld_rwl_illegal (ht : f.typ = .rwl) (hx : legal m f i (v / 2 ^ f.lsb % 2 ^ f.width) = false) : writeFld v f i j m = m := by
  simp [writeFld, ht, hx]

theorem writeFld_w1c (ht : f.typ = .w1c) (hi : i < f.n1) (hj : j < f.n2) :
    rdij (writeFld v f i j m) f i j = andNot f.width (rdij m f i j) (v / 2 ^ f.lsb % 2 ^ f.width) % 2 ^ f.width := by
  simp only [writeFld, ht]
  exact rdij_wrij_self m hi hj _

theorem writeFld_w1s (ht : f.typ = .w1s) (hi : i < f.n1) (hj : j < f.n2) :
    rdij (writeFld v f i j m) f i j = (rdij m f i j ||| v / 2 ^ f.lsb % 2 ^ f.width) % 2 ^ f.width := by
  simp only [writeFld, ht]
  exact rdij_wrij_self m hi hj _

/-- Once SYS_LOCK is set, a write of an RWL field changes nothing (R8). -/
theorem writeFld_rwl_locked (ht : f.typ = .rwl) (hl : flag m F.SYS_LOCK_LOCK = true) : writeFld v f i j m = m := by
  simp [writeFld, ht, hl]

theorem writeFld_other (h1 : f.typ ≠ .rw) (h2 : f.typ ≠ .rwl) (h3 : f.typ ≠ .w1c) (h4 : f.typ ≠ .w1s) : writeFld v f i j m = m := by
  cases ht : f.typ <;> simp_all [writeFld]

end FieldTypes

/-- Settles O52: each field type has its own lemma about `writeFld`. -/
theorem fieldTypesAct : Obligations.FieldTypesAct := fun v _ _ _ m hi hj =>
  ⟨fun ht => ⟨writeFld_rw_legal v m ht hi hj, writeFld_rw_illegal v m ht⟩,
   fun ht => ⟨writeFld_rwl_locked v m ht,
     fun hl => ⟨writeFld_rwl_legal v m ht hl hi hj, writeFld_rwl_illegal v m ht⟩⟩,
   fun ht => writeFld_w1c v m ht hi hj, fun ht => writeFld_w1s v m ht hi hj, writeFld_other v m⟩

/-! Every command answers a next state that keeps the queue, but for the register accesses that BAR0 has no word for. -/

theorem exec_registerWrite_bar {off : Nat} (ha : off % 4 = 0) (ho : off < 0x40000) (v : Word) (s : State) :
    exec (.registerWrite (.bar off) v) s = onBus (pbootReg off) (regWrite off v.toNat) s := by
  simp [exec, execRegisterWrite, ha, Nat.not_le.mpr ho]

theorem exec_rcRead_bar {off : Nat} (ha : off % 4 = 0) (ho : off < 0x40000) (s : State) :
    exec (.rcRead (.bar off)) s = onBus true (regRead (.bar off) off) s := by
  simp [exec, execRcRead, ha, Nat.not_le.mpr ho]

theorem exec_registerWrite_unaligned {off : Nat} (ha : off % 4 ≠ 0) (v : Word) (s : State) :
    exec (.registerWrite (.bar off) v) s = .fault .barUnaligned := by
  simp [exec, execRegisterWrite, ha]

theorem exec_registerWrite_outside {off : Nat} (ha : off % 4 = 0) (ho : 0x40000 ≤ off) (v : Word) (s : State) :
    exec (.registerWrite (.bar off) v) s = .fault .barOutside := by
  simp [exec, execRegisterWrite, ha, ho]

theorem exec_rcRead_unaligned {off : Nat} (ha : off % 4 ≠ 0) (s : State) : exec (.rcRead (.bar off)) s = .fault .barUnaligned := by
  simp [exec, execRcRead, ha]

theorem exec_rcRead_outside {off : Nat} (ha : off % 4 = 0) (ho : 0x40000 ≤ off) (s : State) :
    exec (.rcRead (.bar off)) s = .fault .barOutside := by
  simp [exec, execRcRead, ha, ho]

/-- An offset is no aligned word, or lies outside BAR0, or is one of its words. -/
theorem bar_cases (off : Nat) : off % 4 ≠ 0 ∨ (off % 4 = 0 ∧ 0x40000 ≤ off) ∨ (off % 4 = 0 ∧ off < 0x40000) := by omega

theorem registerWrite_next_or_fault (a : RegAddr) (v : Word) (s : State) :
    (∃ t, exec (.registerWrite a v) s = .next t ∧ t.pending = s.pending) ∨
    (∃ off, a = .bar off ∧ ((off % 4 ≠ 0 ∧ exec (.registerWrite a v) s = .fault .barUnaligned) ∨
      (off % 4 = 0 ∧ 0x40000 ≤ off ∧ exec (.registerWrite a v) s = .fault .barOutside))) := by
  cases a with
  | msixCtrl => exact .inl ⟨_, rfl, rfl⟩
  | cfg w => exact .inl ⟨_, rfl, rfl⟩
  | bar off =>
    obtain ha | ⟨ha, ho⟩ | ⟨ha, ho⟩ := bar_cases off
    · exact .inr ⟨off, rfl, .inl ⟨ha, exec_registerWrite_unaligned ha v s⟩⟩
    · exact .inr ⟨off, rfl, .inr ⟨ha, ho, exec_registerWrite_outside ha ho v s⟩⟩
    · exact .inl ⟨_, exec_registerWrite_bar ha ho v s, rfl⟩

theorem rcRead_next_or_fault (a : RegAddr) (s : State) :
    (∃ t, exec (.rcRead a) s = .next t ∧ t.pending = s.pending) ∨
    (∃ off, a = .bar off ∧ ((off % 4 ≠ 0 ∧ exec (.rcRead a) s = .fault .barUnaligned) ∨
      (off % 4 = 0 ∧ 0x40000 ≤ off ∧ exec (.rcRead a) s = .fault .barOutside))) := by
  cases a with
  | msixCtrl => exact .inl ⟨_, rfl, rfl⟩
  | cfg w => exact .inl ⟨_, rfl, rfl⟩
  | bar off =>
    obtain ha | ⟨ha, ho⟩ | ⟨ha, ho⟩ := bar_cases off
    · exact .inr ⟨off, rfl, .inl ⟨ha, exec_rcRead_unaligned ha s⟩⟩
    · exact .inr ⟨off, rfl, .inr ⟨ha, ho, exec_rcRead_outside ha ho s⟩⟩
    · exact .inl ⟨_, exec_rcRead_bar ha ho s, rfl⟩

theorem exec_next_or_fault (c : Instr) (s : State) :
    (∃ t, exec c s = .next t ∧ t.pending = s.pending) ∨
    (∃ off, ((∃ v, c = .registerWrite (.bar off) v) ∨ c = .rcRead (.bar off)) ∧
      ((off % 4 ≠ 0 ∧ exec c s = .fault .barUnaligned) ∨ (off % 4 = 0 ∧ 0x40000 ≤ off ∧ exec c s = .fault .barOutside))) := by
  cases c
  case registerWrite a v =>
    obtain h | ⟨off, rfl, h⟩ := registerWrite_next_or_fault a v s
    · exact .inl h
    · exact .inr ⟨off, .inl ⟨v, rfl⟩, h⟩
  case rcRead a =>
    obtain h | ⟨off, rfl, h⟩ := rcRead_next_or_fault a s
    · exact .inl h
    · exact .inr ⟨off, .inr rfl, h⟩
  all_goals exact .inl ⟨_, rfl, rfl⟩

theorem bar_wf {off : Nat} (h : RegAddr.wf (.bar off) = true) : off % 4 = 0 ∧ off < 0x40000 := by
  simpa [RegAddr.wf] using h

theorem exec_next_of_wf (c : Instr) (s : State) (hc : Instr.wf c = true) : ∃ t, exec c s = .next t ∧ t.pending = s.pending := by
  obtain h | ⟨off, hacc, h⟩ := exec_next_or_fault c s
  · exact h
  · have hwf : RegAddr.wf (.bar off) = true := by
      obtain ⟨v, rfl⟩ | rfl := hacc <;> exact hc
    obtain ⟨ha, ho⟩ := bar_wf hwf
    omega

/-- Settles O5. -/
theorem onlyBadAccessesStop : Obligations.OnlyBadAccessesStop := exec_next_or_fault

/-- Settles O3: a step takes the front command off the queue and adds none, and a well-formed command has a next state. -/
theorem soundKept : Obligations.SoundKept := by
  rintro ⟨m, pending⟩ hs
  cases pending with
  | nil => exact ⟨_, rfl, hs⟩
  | cons c rest =>
    obtain ⟨hc, hrest⟩ := List.forall_mem_cons.mp hs
    obtain ⟨t, ht, hp⟩ := exec_next_of_wf c ⟨m, rest⟩ hc
    refine ⟨t, ht, fun d hd => hrest d ?_⟩
    rwa [hp] at hd

/-! Registers. -/

theorem onBus_awake (boot : Bool) (f : Mach → Mach) (s : State) (h : s.m.sys.held = none) : onBus boot f s = .next { s with m := f s.m } := by
  simp [onBus, h]

/-- A register access on a device that is not held. -/
theorem answers_bus {i : Instr} {s : State} {boot : Bool} {f : Mach → Mach} {P : Mach → Prop} (h : exec i s = onBus boot f s) (ha : Awake s)
    (hp : P (f s.m)) : Answers i s P := ⟨{ s with m := f s.m }, by rw [h, onBus_awake boot f s ha], rfl, hp⟩

section Reads
variable (off : Nat) (m : Mach)

/-- What `g` shows is no register, a read-clear keeps. -/
theorem readClear_keep {β : Type} (g : Mach → β) (hg : ∀ f i j v n, g (wrij f i j v n) = g n) : g (readClear off m) = g m :=
  forEach_keep g _ _ (fun _ _ => hg ..) m

@[simp] theorem readClear_out : (readClear off m).out = m.out := readClear_keep off m (·.out) wrij_out
@[simp] theorem readClear_hif : (readClear off m).hif = m.hif := readClear_keep off m (·.hif) wrij_hif
@[simp] theorem readClear_dk : (readClear off m).dk = m.dk := readClear_keep off m (·.dk) wrij_dk
@[simp] theorem readClear_objs : (readClear off m).objs = m.objs := readClear_keep off m (·.objs) wrij_objs

theorem rcRead_bar_answers {s : State} (ha : Awake s) (h4 : off % 4 = 0) (ho : off < 0x40000) :
    Answers (.rcRead (.bar off)) s (fun n => n.out = .read (.bar off) (regWord off s.m) :: s.m.out ∧ n.regs = (readClear off s.m).regs ∧
      n.hif = s.m.hif ∧ n.dk = s.m.dk ∧ n.objs = s.m.objs) := by
  refine answers_bus (exec_rcRead_bar h4 ho s) ha ?_
  simp [regRead, emit, useFresh]

theorem rcRead_msixCtrl_answers {s : State} (ha : Awake s) : Answers (.rcRead .msixCtrl) s
    (fun n => n.out = .read .msixCtrl (msixCtrlWord s.m) :: s.m.out ∧ n.regs = s.m.regs ∧ n.hif = s.m.hif) :=
  answers_bus (f := fun m => emit (.read .msixCtrl (msixCtrlWord m)) m) rfl ha ⟨rfl, rfl, rfl⟩

theorem rcRead_cfg_answers {s : State} (ha : Awake s) (w : CfgWord) : Answers (.rcRead (.cfg w)) s
    (fun n => n.out = .read (.cfg w) (cfgWord w s.m) :: s.m.out ∧ n.regs = s.m.regs ∧ n.hif = s.m.hif) :=
  answers_bus (f := fun m => emit (.read (.cfg w) (cfgWord w m)) m) rfl ha ⟨rfl, rfl, rfl⟩

end Reads

section Writes
variable {s : State}

/-- The registers of the host interface after HIF_CTRL have no action of their own. -/
theorem regWrite_hif {off : Nat} (hlo : 0x1004 ≤ off) (hhi : off < 0x2000) (v : Nat) (m : Mach) : regWrite off v m = writeFlds off v m := by
  have hafter : ∀ b n, afterWrite off v b n = n := by
    intro b n
    unfold afterWrite
    split
    case h_9 => rw [if_neg (by simp; omega), if_neg (by simp; omega)]
    all_goals omega
  unfold regWrite
  rw [if_neg (by simp; omega)]
  split
  case h_12 => rw [if_neg (by simp; omega), hafter]
  all_goals omega

theorem msixFlush_keep {β : Type} (g : Mach → β) (hg : ∀ (n : Mach) (p : Nat) (o : List Out), g { n with hif := { n.hif with pba := p }, out := o } = g n)
    (m : Mach) : g (msixFlush m) = g m :=
  forEach_keep g _ _ (fun _ n => onlyIf_keep g _ _ n (hg n _ _)) m

@[simp] theorem msixFlush_regs (m : Mach) : (msixFlush m).regs = m.regs := msixFlush_keep (·.regs) (fun _ _ _ => rfl) m
@[simp] theorem msixFlush_msixEn (m : Mach) : (msixFlush m).hif.msixEn = m.hif.msixEn := msixFlush_keep (·.hif.msixEn) (fun _ _ _ => rfl) m
@[simp] theorem msixFlush_msixMask (m : Mach) : (msixFlush m).hif.msixMask = m.hif.msixMask := msixFlush_keep (·.hif.msixMask) (fun _ _ _ => rfl) m

theorem registerWrite_msixCtrl_answers (ha : Awake s) (v : Word) : Answers (.registerWrite .msixCtrl v) s
    (fun n => n.hif.msixEn = v.getLsbD 15 ∧ n.hif.msixMask = v.getLsbD 14 ∧ n.regs = s.m.regs) := by
  refine answers_bus (f := msixCtrlWrite v.toNat) rfl ha ?_
  simp [msixCtrlWrite, BitVec.getLsbD]

theorem registerWrite_cfg_answers (ha : Awake s) (w : CfgWord) (v : Word) {P : Mach → Prop} (hp : P (cfgWrite w v.toNat s.m)) :
    Answers (.registerWrite (.cfg w) v) s P := answers_bus (f := cfgWrite w v.toNat) rfl ha hp

/-- A write of a configuration word changes the host interface alone. -/
theorem cfgWrite_eq (w : CfgWord) (v : Nat) (m : Mach) : cfgWrite w v m = { m with hif := (cfgWrite w v m).hif } := by
  unfold cfgWrite
  split <;> simp only []

theorem cfgWrite_barLo_hif (v : Nat) (m : Mach) :
    (cfgWrite .barLo v m).hif = { m.hif with bar0 := m.hif.bar0 / 2 ^ 32 * 2 ^ 32 + v / 2 ^ 18 * 2 ^ 18 } := by simp only [cfgWrite]

theorem cfgWrite_barHi_hif (v : Nat) (m : Mach) :
    (cfgWrite .barHi v m).hif = { m.hif with bar0 := m.hif.bar0 % 2 ^ 32 + v * 2 ^ 32 } := by simp only [cfgWrite]

theorem cfgWrite_aer_hif (v : Nat) (m : Mach) : (cfgWrite .aer v m).hif = { m.hif with aer := andNot 4 m.hif.aer v } := by simp only [cfgWrite]

theorem cfgWrite_regs (w : CfgWord) (v : Nat) (m : Mach) : (cfgWrite w v m).regs = m.regs := by rw [cfgWrite_eq]
theorem cfgWrite_out (w : CfgWord) (v : Nat) (m : Mach) : (cfgWrite w v m).out = m.out := by rw [cfgWrite_eq]

theorem registerWrite_readOnly_cfg (ha : Awake s) (v : Word) (w : CfgWord) (hw : w = .id ∨ w = .classRev ∨ w = .subsys) :
    Answers (.registerWrite (.cfg w) v) s (fun n => n = s.m) := by
  refine registerWrite_cfg_answers ha w v ?_
  obtain rfl | rfl | rfl := hw <;> simp only [cfgWrite]

theorem registerWrite_barLo_answers (ha : Awake s) (v : Word) : Answers (.registerWrite (.cfg .barLo) v) s
    (fun n => n.hif.bar0 % 2 ^ 32 = v.toNat / 2 ^ 18 * 2 ^ 18 ∧ n.hif.bar0 / 2 ^ 32 = s.m.hif.bar0 / 2 ^ 32 ∧ n.regs = s.m.regs ∧
      n.out = s.m.out) := by
  refine registerWrite_cfg_answers ha _ v ⟨?_, ?_, cfgWrite_regs .., cfgWrite_out ..⟩ <;>
  · rw [cfgWrite_barLo_hif]
    have := v.isLt
    dsimp only
    omega

theorem registerWrite_barHi_answers (ha : Awake s) (v : Word) : Answers (.registerWrite (.cfg .barHi) v) s
    (fun n => n.hif.bar0 / 2 ^ 32 = v.toNat ∧ n.hif.bar0 % 2 ^ 32 = s.m.hif.bar0 % 2 ^ 32 ∧ n.regs = s.m.regs ∧ n.out = s.m.out) := by
  refine registerWrite_cfg_answers ha _ v ⟨?_, ?_, cfgWrite_regs .., cfgWrite_out ..⟩ <;>
  · rw [cfgWrite_barHi_hif]
    dsimp only
    omega

theorem registerWrite_aer_answers (ha : Awake s) (v : Word) : Answers (.registerWrite (.cfg .aer) v) s
    (fun n => n.hif.aer = andNot 4 s.m.hif.aer v.toNat ∧ n.regs = s.m.regs ∧ n.out = s.m.out) :=
  registerWrite_cfg_answers ha _ v ⟨by rw [cfgWrite_aer_hif], cfgWrite_regs .., cfgWrite_out ..⟩

theorem fieldsAt_gpioOutSet : fieldsAt 0xE008 = [(F.GPIO_OUT_SET_SET, 0, 0)] := by decide +kernel
theorem fieldsAt_gpioOutClr : fieldsAt 0xE00C = [(F.GPIO_OUT_CLR_CLR, 0, 0)] := by decide +kernel
theorem fieldsAt_sysLock : fieldsAt 0xC = [(F.SYS_LOCK_LOCK, 0, 0)] := by decide +kernel

theorem regWrite_gpioOutSet (v : Nat) (m : Mach) : regWrite 0xE008 v m = wr F.GPIO_OUT_LEVEL (rd m F.GPIO_OUT_LEVEL ||| v) m := by
  simp [regWrite, writeFlds, fieldsAt_gpioOutSet, afterWrite, writeFld, F.GPIO_OUT_SET_SET]

theorem regWrite_gpioOutClr (v : Nat) (m : Mach) : regWrite 0xE00C v m = wr F.GPIO_OUT_LEVEL (andNot 32 (rd m F.GPIO_OUT_LEVEL) v) m := by
  simp [regWrite, writeFlds, fieldsAt_gpioOutClr, afterWrite, writeFld, F.GPIO_OUT_CLR_CLR]

theorem regWrite_sysLock (v : Nat) (m : Mach) : regWrite 0xC v m = writeFld v F.SYS_LOCK_LOCK 0 0 m := by
  simp [regWrite, writeFlds, fieldsAt_sysLock, afterWrite]

theorem sysLock_sets (v : Word) (m : Mach) : rd (regWrite 0xC (v ||| 1).toNat m) F.SYS_LOCK_LOCK = 1 := by
  rw [regWrite_sysLock]
  refine (writeFld_w1s _ m rfl (by decide) (by decide)).trans (Nat.or_mod_two_eq_one.mpr (.inr ?_))
  change (v ||| 1).toNat / 1 % 2 % 2 = 1
  rw [BitVec.toNat_or, Nat.div_one, Nat.mod_mod]
  exact Nat.or_mod_two_eq_one.mpr (.inr rfl)

theorem sysResetWrite_unlatched {v : Nat} {m : Mach} (hv : v % 4 ≠ 0) (hl : m.ann.latch = []) :
    sysResetWrite v m = setPwr { m.pwr with req := some (m.deal + 1, v / 2 % 2) } m := by
  simp [sysResetWrite, hv, zoneLatched, hl]

theorem sysResetWrite_latched {v : Nat} {m : Mach} (hv : v % 4 ≠ 0) (hl : m.ann.latch ≠ []) : sysResetWrite v m = authFail 9 0 m := by
  simp [sysResetWrite, hv, zoneLatched, hl]

/-- A refusal for authority keeps the power manager, sets its flag and is reported. -/
theorem authFail_reports (cause op : Nat) (m : Mach) : (authFail cause op m).pwr = m.pwr ∧ rd (authFail cause op m) F.SEC_FLAGS_AUTH_FAIL = 1 ∧
    Reported 0x14 0x1401 m (authFail cause op m) := by
  refine ⟨rfl, ?_, ?_⟩
  · simp only [authFail, authFailBy]
    rw [rd_raise _ _ _ _ _ (by decide), rd_wr_self]
    rfl
  · refine reported_from _ _ _ m _ rfl ?_ rfl
    simp only [running]
    rw [rd_wr_ne _ _ _ _ (by decide), rd_bump_ne _ _ _ _ (by decide)]

theorem fullWord_mod (v : Word) : (v ||| 1).toNat % 4 ≠ 0 := by
  have h : (v ||| 1).toNat % 2 = 1 := by
    rw [BitVec.toNat_or]
    exact Nat.or_mod_two_eq_one.mpr (.inr rfl)
  omega

theorem fullWord_now (v : Word) : (v ||| 1).toNat / 2 % 2 = b2n (v.getLsbD 1) := by
  rw [BitVec.toNat_or, Nat.or_div_two, BitVec.getLsbD, Nat.testBit_eq_decide_div_mod_eq]
  change (v.toNat / 2 ||| 0) % 2 = if decide (v.toNat / 2 ^ 1 % 2 = 1) = true then 1 else 0
  simp only [Nat.or_zero, decide_eq_true_eq]
  split <;> omega

theorem nowWord_now (v : Word) : (v ||| 2).toNat / 2 % 2 = 1 := by
  rw [BitVec.toNat_or, Nat.or_div_two]
  exact Nat.or_mod_two_eq_one.mpr (.inr rfl)

theorem nowWord_mod (v : Word) : (v ||| 2).toNat % 4 ≠ 0 := by
  have := nowWord_now v
  omega

theorem sysResetFull_answers (ha : Awake s) (v : Word) (hl : s.m.ann.latch = []) : Answers (.sysResetFull v) s
    (fun n => n.pwr.req = some (s.m.deal + 1, b2n (v.getLsbD 1)) ∧ n.regs = s.m.regs) := by
  refine answers_mach _ s (sysResetWrite (v ||| 1).toNat) _ rfl ha ?_
  rw [sysResetWrite_unlatched (fullWord_mod v) hl, fullWord_now]
  exact ⟨rfl, rfl⟩

theorem sysResetNow_answers (ha : Awake s) (v : Word) (hl : s.m.ann.latch = []) : Answers (.sysResetNow v) s
    (fun n => n.pwr.req = some (s.m.deal + 1, 1) ∧ n.regs = s.m.regs) := by
  refine answers_mach _ s (sysResetWrite (v ||| 2).toNat) _ rfl ha ?_
  rw [sysResetWrite_unlatched (nowWord_mod v) hl, nowWord_now]
  exact ⟨rfl, rfl⟩

theorem sysReset_latched_answers (ha : Awake s) (v : Word) (i : Instr) (hl : s.m.ann.latch ≠ [])
    (hi : i = .sysResetFull v ∨ i = .sysResetNow v) : Answers i s
    (fun n => n.pwr = s.m.pwr ∧ rd n F.SEC_FLAGS_AUTH_FAIL = 1 ∧ Reported 0x14 0x1401 s.m n) := by
  obtain rfl | rfl := hi
  · refine answers_mach _ s (sysResetWrite (v ||| 1).toNat) _ rfl ha ?_
    rw [sysResetWrite_latched (fullWord_mod v) hl]
    exact authFail_reports 9 0 s.m
  · refine answers_mach _ s (sysResetWrite (v ||| 2).toNat) _ rfl ha ?_
    rw [sysResetWrite_latched (nowWord_mod v) hl]
    exact authFail_reports 9 0 s.m

theorem gpioOutSet_answers (ha : Awake s) (v : Word) : Answers (.gpioOutSet v) s
    (fun n => rd n F.GPIO_OUT_LEVEL = (rd s.m F.GPIO_OUT_LEVEL ||| v.toNat) % 2 ^ 32 ∧ n.gpio = s.m.gpio) := by
  refine answers_mach _ s (regWrite 0xE008 v.toNat) _ rfl ha ?_
  rw [regWrite_gpioOutSet]
  exact ⟨rd_wr_self .., rfl⟩

theorem gpioOutClr_answers (ha : Awake s) (v : Word) : Answers (.gpioOutClr v) s
    (fun n => rd n F.GPIO_OUT_LEVEL = andNot 32 (rd s.m F.GPIO_OUT_LEVEL) v.toNat % 2 ^ 32 ∧ n.gpio = s.m.gpio) := by
  refine answers_mach _ s (regWrite 0xE00C v.toNat) _ rfl ha ?_
  rw [regWrite_gpioOutClr]
  exact ⟨rd_wr_self .., rfl⟩

theorem sysLock_answers (ha : Awake s) (v : Word) : Answers (.sysLock v) s (fun n => rd n F.SYS_LOCK_LOCK = 1 ∧ n.out = s.m.out) := by
  refine answers_mach _ s (regWrite 0xC (v ||| 1).toNat) _ rfl ha ⟨sysLock_sets v s.m, ?_⟩
  rw [regWrite_sysLock]
  rfl

theorem registerWrite_hif_answers (ha : Awake s) {off : Nat} (v : Word) (h4 : off % 4 = 0) (hlo : 0x1004 ≤ off) (hhi : off < 0x2000) :
    Answers (.registerWrite (.bar off) v) s (fun n => n = writeFlds off v.toNat s.m) :=
  answers_bus (exec_registerWrite_bar h4 (by omega) v s) ha (regWrite_hif hlo hhi v.toNat s.m)

end Writes

/-- Settles O53, one lemma for each clause. -/
theorem registersAnswer : Obligations.RegistersAnswer := fun _ ha =>
  ⟨fun off h4 ho => rcRead_bar_answers off ha h4 ho, rcRead_msixCtrl_answers ha, rcRead_cfg_answers ha,
   fun _ v h4 hlo hhi => registerWrite_hif_answers ha v h4 hlo hhi, registerWrite_msixCtrl_answers ha,
   fun v => ⟨registerWrite_readOnly_cfg ha v, registerWrite_barLo_answers ha v, registerWrite_barHi_answers ha v, registerWrite_aer_answers ha v⟩,
   gpioOutSet_answers ha, gpioOutClr_answers ha, sysLock_answers ha,
   fun v hl => ⟨sysResetFull_answers ha v hl, sysResetNow_answers ha v hl⟩,
   fun v i hl hi => sysReset_latched_answers ha v i hl hi⟩

end Sys2Proof.Machine
end

section
/-! The lock view of a machine: the reset that holds it, and the values of SYS_LOCK and of the RWL fields (00 R8). Every operation that neither
resets the device nor writes a register for the host leaves this view as it is: one lemma for each such operation, in the order of the
model's files. `simp` rewrites by the lemmas about the operations it calls, and `decide` shows that a field it writes is none of the view's. -/
namespace Sys2Proof.Machine

/-- SYS_LOCK and the RWL fields: `lockFlds_of_rwl` shows that the list is complete. -/
def lockFlds : List Fld :=
  [F.SYS_LOCK_LOCK, F.TIM_CTRL_MODE, F.ANN_STORE_CFG_CS, F.ANN_STORE_CFG_BASE, F.ANN_STORE_CFG_SIZE, F.SYS_RESUME_EN]

/-- The values of the lock and of the RWL fields in a register store. -/
def lockRegs (t : SMap Nat) : List Nat := lockFlds.map (fun f => rgetij t f 0 0)

/-- What SYS_LOCK protects, with the reset that holds the machine. -/
def lockView (m : Mach) : Option Nat × List Nat := (m.sys.held, lockRegs m.regs)

/-- The view of a machine written out reads two of its fields; with `lockView_fold`, `simp` sees through every record update of the others. -/
@[simp] theorem lockView_mk (deal ticks regs setup hif fresh out clk tim tic ring str dk frm objs rend vote cor icom sap pwr ann sec dom gpio sys) :
    lockView ⟨deal, ticks, regs, setup, hif, fresh, out, clk, tim, tic, ring, str, dk, frm, objs, rend, vote, cor, icom, sap, pwr, ann, sec,
      dom, gpio, sys⟩ = (sys.held, lockRegs regs) := rfl

@[simp] theorem lockView_fold (m : Mach) : (m.sys.held, lockRegs m.regs) = lockView m := rfl

/-- A field all of whose repetitions lie apart from the lock and the RWL fields: each of these stands before its first place or
after its last one. -/
def lockFree (f : Fld) : Bool :=
  lockFlds.all (fun g => fkey g 0 0 < fkey f 0 0 || fkey f (f.n1 - 1) (f.n2 - 1) < fkey g 0 0)

/-- The place of a field rises with its repetitions. -/
theorem fkey_mono (f : Fld) {i j k l : Nat} (hi : i ≤ k) (hj : j ≤ l) : fkey f i j ≤ fkey f k l := by
  have h1 := Nat.mul_le_mul_right f.s1 hi
  have h2 := Nat.mul_le_mul_right f.s2 hj
  unfold fkey
  omega

/-- No repetition of such a field stands where the lock or an RWL field stands. -/
theorem lockFree.fkey_ne {f g : Fld} (hf : lockFree f = true) (hg : g ∈ lockFlds) {i j : Nat} (hi : i ≤ f.n1 - 1) (hj : j ≤ f.n2 - 1) :
    fkey g 0 0 ≠ fkey f i j := by
  have h := List.all_eq_true.mp hf g hg
  simp only [Bool.or_eq_true, decide_eq_true_eq] at h
  have h1 := fkey_mono f (Nat.zero_le i) (Nat.zero_le j)
  have h2 := fkey_mono f hi hj
  omega

theorem lockRegs_congr {t u : SMap Nat} (h : ∀ g ∈ lockFlds, rgetij t g 0 0 = rgetij u g 0 0) : lockRegs t = lockRegs u :=
  List.map_congr_left h

theorem lockRegs_rsetij_le {f : Fld} (hf : lockFree f = true) {i j : Nat} (hi : i ≤ f.n1 - 1) (hj : j ≤ f.n2 - 1) (v : Nat) (t : SMap Nat) :
    lockRegs (rsetij f i j v t) = lockRegs t :=
  lockRegs_congr fun g hg => rgetij_rsetij_ne t f g i j 0 0 v (lockFree.fkey_ne hf hg hi hj)

@[simp] theorem lockRegs_rsetij_zero {f : Fld} (hf : lockFree f = true) (v : Nat) (t : SMap Nat) : lockRegs (rsetij f 0 0 v t) = lockRegs t :=
  lockRegs_rsetij_le hf (Nat.zero_le _) (Nat.zero_le _) v t

theorem lockRegs_rsetij_lt {f : Fld} (hf : lockFree f = true) {i j : Nat} (hi : i < f.n1) (hj : j < f.n2) (v : Nat) (t : SMap Nat) :
    lockRegs (rsetij f i j v t) = lockRegs t := lockRegs_rsetij_le hf (by omega) (by omega) v t

@[simp] theorem wr_lockView {f : Fld} (hf : lockFree f = true) (v : Nat) (m : Mach) : lockView (wr f v m) = lockView m :=
  Prod.ext rfl (lockRegs_rsetij_zero hf v m.regs)

@[simp] theorem wri_lockView {f : Fld} (hf : lockFree f = true) (i v : Nat) (m : Mach) : lockView (wri f i v m) = lockView m := by
  unfold wri
  split
  · next h => exact Prod.ext rfl (lockRegs_rsetij_le hf (by omega) (Nat.zero_le _) v m.regs)
  · rfl

@[simp] theorem wrij_lockView {f : Fld} (hf : lockFree f = true) (i j v : Nat) (m : Mach) : lockView (wrij f i j v m) = lockView m := by
  unfold wrij
  split
  · next h => exact Prod.ext rfl (lockRegs_rsetij_lt hf h.1 h.2 v m.regs)
  · rfl

@[simp] theorem lockRegs_rbump_zero {f : Fld} (hf : lockFree f = true) (n : Nat) (t : SMap Nat) : lockRegs (rbump f 0 n t) = lockRegs t :=
  lockRegs_rsetij_zero hf _ t

@[simp] theorem bump_lockView {f : Fld} (hf : lockFree f = true) (n : Nat) (m : Mach) : lockView (bump f n m) = lockView m :=
  Prod.ext rfl (lockRegs_rbump_zero hf n m.regs)

@[simp] theorem bumpi_lockView {f : Fld} (hf : lockFree f = true) (i n : Nat) (m : Mach) : lockView (bumpi f i n m) = lockView m := by
  unfold bumpi
  split
  · next h => exact Prod.ext rfl (lockRegs_rsetij_le hf (by omega) (Nat.zero_le _) _ m.regs)
  · rfl

@[simp] theorem orReg_lockView {f : Fld} (hf : lockFree f = true) (bits : Nat) (m : Mach) : lockView (orReg f bits m) = lockView m :=
  wr_lockView hf _ m

@[simp] theorem onlyIf_lockView (b : Bool) (f : Mach → Mach) (m : Mach) :
    lockView (onlyIf b f m) = if b then lockView (f m) else lockView m := apply_ite lockView (b = true) (f m) m

@[simp] theorem forEach_lockView {α : Type} (l : List α) (f : α → Mach → Mach) (h : ∀ a m, lockView (f a m) = lockView m) (m : Mach) :
    lockView (forEach l f m) = lockView m := forEach_keep lockView l f h m

@[simp] theorem ite_lockView (c : Prop) [Decidable c] (a b : Mach) :
    lockView (if c then a else b) = if c then lockView a else lockView b := apply_ite lockView c a b

/-- A filter by key leaves the keys that it lets pass. -/
theorem mfind_filter_key (p : Nat → Bool) (k : Nat) (hk : p k = true) (t : SMap Nat) : mfind (t.filter (fun q => p q.1)) k = mfind t k := by
  induction t with
  | nil => rfl
  | cons q t ih =>
    obtain ⟨j, w⟩ := q
    by_cases hj : p j = true
    · simp [hj, mfind_cons, ih]
    · have hne : j ≠ k := fun h => hj (h ▸ hk)
      simp [hj, mfind_cons, hne, ih]

theorem lockRegs_filter (p : Nat → Bool) (hp : ∀ g ∈ lockFlds, p (fkey g 0 0) = true) (t : SMap Nat) :
    lockRegs (t.filter (fun q => p q.1)) = lockRegs t :=
  lockRegs_congr fun g hg => by simp only [rgetij, mget, mfind_filter_key p _ (hp g hg)]

theorem mfind_rclear_ne (f : Fld) (k : Nat) (h : ∀ i < f.n1, ∀ j < f.n2, k ≠ fkey f i j) (t : SMap Nat) : mfind (rclear f t) k = mfind t k := by
  unfold rclear
  refine List.foldlRecOn (motive := fun u => mfind u k = mfind t k) _ _ rfl fun u hu i hi => ?_
  refine List.foldlRecOn (motive := fun u => mfind u k = mfind t k) _ _ hu fun u hu j hj => ?_
  rw [mfind_mdel_ne _ _ _ (h i (List.mem_range.mp hi) j (List.mem_range.mp hj)), hu]

theorem lockRegs_rclear {f : Fld} (hf : lockFree f = true) (t : SMap Nat) : lockRegs (rclear f t) = lockRegs t :=
  lockRegs_congr fun g hg => by
    simp only [rgetij, mget]
    rw [mfind_rclear_ne f _ fun i hi j hj => lockFree.fkey_ne hf hg (by omega) (by omega)]

/-- Every field of the register tables is one of the view's or lies apart from them. -/
theorem mem_lockFlds_lockFree : ∀ f ∈ fldTable, f ∈ lockFlds ∨ lockFree f = true := by decide +kernel

/-! Events, capture FIFOs, MSI-X and completions. -/

@[simp] theorem writeTo_lockView (e src : Nat) (l : List FifoEntry) (m : Mach) : lockView (writeTo e src l m) = lockView m := by
  unfold writeTo
  split <;> simp +decide

@[simp] theorem writeRecords_lockView (src : Nat) (l : List FifoEntry) (m : Mach) : lockView (writeRecords src l m) = lockView m := by
  simp [writeRecords]

@[simp] theorem raiseAt_lockView (d src code : Nat) (pay : Pay) (m : Mach) : lockView (raiseAt d src code pay m) = lockView m := by
  simp [raiseAt]

@[simp] theorem raise_lockView (src code : Nat) (pay : Pay) (m : Mach) : lockView (raise src code pay m) = lockView m := by
  simp [raise]

@[simp] theorem setFifo_lockView (k : Nat) (x : Fifo) (m : Mach) : lockView (setFifo k x m) = lockView m := by
  simp [setFifo]

@[simp] theorem fifoPush_lockView (k code : Nat) (pay : Pay) (m : Mach) : lockView (fifoPush k code pay m) = lockView m := by
  simp [fifoPush]

@[simp] theorem fifoEmit_lockView (k n : Nat) (m : Mach) : lockView (fifoEmit k n m) = lockView m := by
  simp [fifoEmit]

@[simp] theorem fifoEights_lockView (k : Nat) (m : Mach) : lockView (fifoEights k m) = lockView m := by
  simp [fifoEights]

@[simp] theorem fifoFlush_lockView (k : Nat) (m : Mach) : lockView (fifoFlush k m) = lockView m := by
  simp [fifoFlush]

@[simp] theorem fifoDrain_lockView (m : Mach) : lockView (fifoDrain m) = lockView m := by
  simp [fifoDrain]

@[simp] theorem sendMsix_lockView (v : Nat) (m : Mach) : lockView (sendMsix v m) = lockView m := by
  simp [sendMsix]

@[simp] theorem msixFlush_lockView (m : Mach) : lockView (msixFlush m) = lockView m :=
  forEach_lockView _ _ (fun _ _ => onlyIf_keep lockView _ _ _ rfl) m

@[simp] theorem tunnelFrames_lockView (sub req target tunId seq len : Nat) (m : Mach) :
    lockView (tunnelFrames sub req target tunId seq len m) = lockView m := by
  simp [tunnelFrames]

@[simp] theorem sendReply_lockView (seat tunId : Nat) (r : Reply) (m : Mach) : lockView (sendReply seat tunId r m) = lockView m := by
  simp [sendReply]

@[simp] theorem completeWith_lockView (tk : Ticket) (st d rsv : Nat) (now : Bool) (res : Pay) (m : Mach) :
    lockView (completeWith tk st d rsv now res m) = lockView m := by
  unfold completeWith
  split <;> simp

@[simp] theorem interim_lockView (tk : Ticket) (st d : Nat) (m : Mach) : lockView (interim tk st d m) = lockView m := by
  unfold interim
  split <;> simp

@[simp] theorem final_lockView (tk : Ticket) (st : Nat) (m : Mach) : lockView (final tk st m) = lockView m := by
  simp [final]

@[simp] theorem finalWith_lockView (tk : Ticket) (st addr : Nat) (res : Pay) (m : Mach) :
    lockView (finalWith tk st addr res m) = lockView m := by
  unfold finalWith
  split <;> simp

@[simp] theorem useFresh_lockView (n : Nat) (m : Mach) : lockView (useFresh n m) = lockView m := by
  simp [useFresh]

/-! The sticky flags. -/

@[simp] theorem watch_lockView (bit : Nat) (above : Bool) (src code : Nat) (pay : Pay) (m : Mach) :
    lockView (watch bit above src code pay m) = lockView m := by
  simp [watch]

@[simp] theorem showCrossings_lockView (m : Mach) : lockView (showCrossings m) = lockView m := by
  simp [showCrossings]

/-! The frame bus. -/

@[simp] theorem setFrm_lockView (f : Frm) (m : Mach) : lockView (setFrm f m) = lockView m := by
  simp [setFrm]

@[simp] theorem busWrite_lockView (slot : Nat) (xs : List Int) (m : Mach) : lockView (busWrite slot xs m) = lockView m := by
  simp [busWrite]

/-! The host interface. -/

@[simp] theorem raiseResetDone_lockView (m : Mach) : lockView (raiseResetDone m) = lockView m := by
  unfold raiseResetDone
  split <;> simp

@[simp] theorem raiseBootDone_lockView (m : Mach) : lockView (raiseBootDone m) = lockView m := by
  simp [raiseBootDone]

@[simp] theorem startHif_lockView (m : Mach) : lockView (startHif m) = lockView m := by
  simp +decide [startHif]

@[simp] theorem hifEnable_lockView (m : Mach) : lockView (hifEnable m) = lockView m := by
  unfold hifEnable
  (repeat' split) <;> simp +decide

@[simp] theorem aerReport_lockView (kind : Nat) (m : Mach) : lockView (aerReport kind m) = lockView m := by
  simp [aerReport]

@[simp] theorem dmaFault_lockView (m : Mach) : lockView (dmaFault m) = lockView m := by
  simp +decide [dmaFault]

@[simp] theorem takeCqCons_lockView (c word : Nat) (m : Mach) : lockView (takeCqCons c word m) = lockView m := by
  simp [takeCqCons]

@[simp] theorem takeEqCons_lockView (e word : Nat) (m : Mach) : lockView (takeEqCons e word m) = lockView m := by
  simp [takeEqCons]

@[simp] theorem takeCons_lockView (p : PollIn) (m : Mach) : lockView (takeCons p m) = lockView m := by
  simp [takeCons]

@[simp] theorem takeAck_lockView (p : PollIn) (m : Mach) : lockView (takeAck p m) = lockView m := by
  simp [takeAck]

@[simp] theorem stopSq_lockView (q prod reason : Nat) (m : Mach) : lockView (stopSq q prod reason m) = lockView m := by
  simp [stopSq]

@[simp] theorem takeSlot_lockView (q : Nat) (m : Mach) : lockView (takeSlot q m) = lockView m := by
  simp [takeSlot]

@[simp] theorem writeStatus_lockView (m : Mach) : lockView (writeStatus m) = lockView m := by
  simp [writeStatus]

@[simp] theorem fireCq_lockView (c : Nat) (m : Mach) : lockView (fireCq c m) = lockView m := by
  simp [fireCq]

@[simp] theorem fireEq_lockView (e : Nat) (m : Mach) : lockView (fireEq e m) = lockView m := by
  simp [fireEq]

@[simp] theorem fireDue_lockView (m : Mach) : lockView (fireDue m) = lockView m := by
  simp [fireDue]

@[simp] theorem coalesceTimeout_lockView (ring : Nat) (m : Mach) : lockView (coalesceTimeout ring m) = lockView m := by
  simp [coalesceTimeout]

@[simp] theorem fifoLinger_lockView (k : Nat) (m : Mach) : lockView (fifoLinger k m) = lockView m := by
  unfold fifoLinger
  split <;> simp

/-! Operator authority. -/

@[simp] theorem setSec_lockView (x : Sec) (m : Mach) : lockView (setSec x m) = lockView m := by
  simp [setSec]

@[simp] theorem authFailBy_lockView (cause op seat key : Nat) (m : Mach) : lockView (authFailBy cause op seat key m) = lockView m := by
  simp +decide [authFailBy]

@[simp] theorem authFail_lockView (cause op : Nat) (m : Mach) : lockView (authFail cause op m) = lockView m := by
  simp [authFail]

@[simp] theorem keyEvent_lockView (kind phase num id : Nat) (m : Mach) : lockView (keyEvent kind phase num id m) = lockView m := by
  simp +decide [keyEvent]

@[simp] theorem installInline_lockView (op : Nat) (c : Cmd) (m : Mach) : lockView (installInline op c m) = lockView m := by
  unfold installInline
  split <;> simp +decide

@[simp] theorem recordCounter_lockView (c : Cmd) (m : Mach) : lockView (recordCounter c m) = lockView m := by
  unfold recordCounter
  (repeat' split) <;> simp

/-! Admission of a command. -/

@[simp] theorem bad_lockView (m : Mach) : lockView (bad m).1 = lockView m := by
  simp [bad]

@[simp] theorem okM_lockView (m : Mach) : lockView (okM m).1 = lockView m := by
  simp [okM]

@[simp] theorem noRoom_lockView (m : Mach) : lockView (noRoom m).1 = lockView m := by
  simp [noRoom]

@[simp] theorem refuseAuth_lockView (h : Held) (cause key : Nat) (m : Mach) : lockView (refuseAuth h cause key m) = lockView m := by
  simp [refuseAuth]

@[simp] theorem setHeld_lockView (l : List Held) (m : Mach) : lockView (setHeld l m) = lockView m := by
  simp [setHeld]

@[simp] theorem setDom_lockView (x : Dom) (m : Mach) : lockView (setDom x m) = lockView m := by
  simp [setDom]

@[simp] theorem useTun_lockView (m : Mach) : lockView (useTun m) = lockView m := by
  simp [useTun]

@[simp] theorem addSent_lockView (x : Sent) (m : Mach) : lockView (addSent x m) = lockView m := by
  simp [addSent]

@[simp] theorem sendReq_lockView (seat tunId seq op : Nat) (c : Cmd) (m : Mach) :
    lockView (sendReq seat tunId seq op c m) = lockView m := by
  simp [sendReq]

@[simp] theorem sendStamped_lockView (tunId seq op : Nat) (c : Cmd) (m : Mach) : lockView (sendStamped tunId seq op c m) = lockView m := by
  simp [sendStamped]

@[simp] theorem reserve_lockView (c : Cmd) (m : Mach) : lockView (reserve c m) = lockView m := by
  unfold reserve
  split <;> simp

/-! User kernels. -/

@[simp] theorem faultRecord_lockView (d : NodeD) (cause instr addr : Nat) (m : Mach) :
    lockView (faultRecord d cause instr addr m) = lockView m := by
  simp +decide [faultRecord]

@[simp] theorem kernelFault_lockView (node cause instr addr : Nat) (m : Mach) :
    lockView (kernelFault node cause instr addr m) = lockView m := by
  unfold kernelFault
  split <;> simp

@[simp] theorem laneOverflow_lockView (c lanes signs node : Nat) (m : Mach) :
    lockView (laneOverflow c lanes signs node m) = lockView m := by
  simp +decide [laneOverflow]

@[simp] theorem laneSat_lockView (c l n : Nat) (m : Mach) : lockView (laneSat c l n m) = lockView m := by
  simp +decide [laneSat]

@[simp] theorem kernelLanes_lockView (cluster node : Nat) (c : Cluster) (m : Mach) :
    lockView (kernelLanes cluster node c m) = lockView m := by
  simp [kernelLanes]

/-! The delay pool. -/

@[simp] theorem setRend_lockView (r : Rend) (m : Mach) : lockView (setRend r m) = lockView m := by
  simp [setRend]

@[simp] theorem setLine_lockView (k : Nat) (x : Line) (m : Mach) : lockView (setLine k x m) = lockView m := by
  simp [setLine]

@[simp] theorem grantLine_lockView (k : Nat) (m : Mach) : lockView (grantLine k m).1 = lockView m := by
  simp only [grantLine]
  split <;> simp

@[simp] theorem lineWaits_lockView (k : Nat) (m : Mach) : lockView (lineWaits k m) = lockView m := by
  simp +decide [lineWaits]

@[simp] theorem serveWaiting_lockView (m : Mach) : lockView (serveWaiting m) = lockView m := by
  simp [serveWaiting]

@[simp] theorem cutLine_lockView (old : DeckBody) (l : LineD) (m : Mach) : lockView (cutLine old l m) = lockView m := by
  simp only [cutLine]
  split <;> simp

@[simp] theorem freeLine_lockView (k : Nat) (m : Mach) : lockView (freeLine k m) = lockView m := by
  simp [freeLine]

@[simp] theorem poolRetired_lockView (old : DeckBody) (m : Mach) : lockView (poolRetired old m) = lockView m := by
  simp [poolRetired]

@[simp] theorem trimLine_lockView (k : Nat) (m : Mach) : lockView (trimLine k m) = lockView m := by
  simp [trimLine]

@[simp] theorem watchPool_lockView (m : Mach) : lockView (watchPool m) = lockView m := by
  simp [watchPool]

@[simp] theorem poolCut_lockView (old new : DeckBody) (m : Mach) : lockView (poolCut old new m) = lockView m := by
  simp [poolCut]

@[simp] theorem poolCommit_lockView (m : Mach) : lockView (poolCommit m) = lockView m := by
  simp [poolCommit]

@[simp] theorem lineWrite_lockView (k : Nat) (xs : List Int) (m : Mach) : lockView (lineWrite k xs m) = lockView m := by
  unfold lineWrite
  split <;> simp

@[simp] theorem delayNode_lockView (id d : Nat) (xs : List Int) (m : Mach) : lockView (delayNode id d xs m).1 = lockView m := by
  simp only [delayNode]
  (repeat' split) <;> simp

/-! The scene. -/

@[simp] theorem setObj_lockView (o : Nat) (x : Obj) (m : Mach) : lockView (setObj o x m) = lockView m := by
  simp [setObj]

@[simp] theorem objSet_lockView (c : Cmd) (tk : Ticket) (m : Mach) : lockView (objSet c tk m).1 = lockView m := by
  simp only [objSet]
  split <;> simp

@[simp] theorem trajPush_lockView (c : Cmd) (tk : Ticket) (m : Mach) : lockView (trajPush c tk m).1 = lockView m := by
  simp only [trajPush]
  (repeat' split) <;> simp +decide

@[simp] theorem clearOne_lockView (mode o : Nat) (m : Mach) : lockView (clearOne mode o m) = lockView m := by
  simp [clearOne]

@[simp] theorem trajClear_lockView (c : Cmd) (tk : Ticket) (m : Mach) : lockView (trajClear c tk m).1 = lockView m := by
  simp only [trajClear]
  (repeat' split) <;> simp

@[simp] theorem evalObj_lockView (o : Nat) (m : Mach) : lockView (evalObj o m) = lockView m := by
  simp only [evalObj]
  split <;> simp +decide

@[simp] theorem showProbe_lockView (m : Mach) : lockView (showProbe m) = lockView m := by
  simp +decide [showProbe]

@[simp] theorem evalScene_lockView (m : Mach) : lockView (evalScene m) = lockView m := by
  simp +decide [evalScene]

theorem lockRegs_clearRange {lo hi : Nat} (h : ∀ g ∈ lockFlds, fkey g 0 0 / 32 < lo ∨ hi ≤ fkey g 0 0 / 32) (t : SMap Nat) :
    lockRegs (clearRange lo hi t) = lockRegs t :=
  lockRegs_filter (fun k => k / 32 < lo || hi ≤ k / 32) (fun g hg => by simpa using h g hg) t

@[simp] theorem sceneReset_lockView (m : Mach) : lockView (sceneReset m) = lockView m :=
  Prod.ext rfl (lockRegs_clearRange (by decide +kernel) m.regs)

/-! The render engine. -/

@[simp] theorem budget_lockView (s : Sel) (limit : Nat) (m : Mach) : lockView (budget s limit m) = lockView m := by
  simp +decide [budget]

@[simp] theorem clampReport_lockView (cause : Nat) {cnt flg : Fld} (hc : lockFree cnt = true) (hf : lockFree flg = true) (runs : List Nat)
    (hits : List (Nat × Nat × Nat × Int × Int)) (m : Mach) : lockView (clampReport cause cnt flg runs hits m) = lockView m := by
  simp only [clampReport]
  split
  · rfl
  · rw [forEach_lockView _ _ (fun o n => by split <;> simp), wr_lockView hf, bump_lockView hc]

@[simp] theorem showPairs_lockView (used : Nat) (m : Mach) : lockView (showPairs used m) = lockView m := by
  simp +decide [showPairs]

@[simp] theorem selectPairs_lockView (m : Mach) : lockView (selectPairs m) = lockView m := by
  simp +decide [selectPairs]

@[simp] theorem pairsCommit_lockView (m : Mach) : lockView (pairsCommit m) = lockView m := by
  simp [pairsCommit]

@[simp] theorem tapEngine_lockView (finished : Bool) (m : Mach) : lockView (tapEngine finished m) = lockView m := by
  unfold tapEngine
  split <;> simp +decide

@[simp] theorem renderSleep_lockView (fold : Bool) (m : Mach) : lockView (renderSleep fold m) = lockView m := by
  simp [renderSleep]

@[simp] theorem renderWake_lockView (m : Mach) : lockView (renderWake m) = lockView m := by
  simp [renderWake]

@[simp] theorem renderReset_lockView (m : Mach) : lockView (renderReset m) = lockView m :=
  Prod.ext rfl (lockRegs_clearRange (by decide +kernel) m.regs)

/-! The rate bridges. -/

@[simp] theorem showBridges_lockView (m : Mach) : lockView (showBridges m) = lockView m := by
  simp +decide [showBridges]

@[simp] theorem bridgeEvent_lockView (code ch dir rate : Nat) (m : Mach) : lockView (bridgeEvent code ch dir rate m) = lockView m := by
  simp [bridgeEvent]

@[simp] theorem setBridge_lockView (ch st : Nat) (m : Mach) : lockView (setBridge ch st m) = lockView m := by
  simp [setBridge]

@[simp] theorem channelLost_lockView (dir rate ch : Nat) (m : Mach) : lockView (channelLost dir rate ch m) = lockView m := by
  simp [channelLost]

@[simp] theorem channelLocked_lockView (dir rate ch : Nat) (m : Mach) : lockView (channelLocked dir rate ch m) = lockView m := by
  simp [channelLocked]

@[simp] theorem setInRange_lockView (dir n : Nat) (m : Mach) : lockView (setInRange dir n m) = lockView m := by
  unfold setInRange
  split <;> simp

@[simp] theorem domainLost_lockView (dir rate : Nat) (m : Mach) : lockView (domainLost dir rate m) = lockView m := by
  simp [domainLost]

@[simp] theorem bridgeLost_lockView (ch rate : Nat) (m : Mach) : lockView (bridgeLost ch rate m) = lockView m := by
  unfold bridgeLost
  split <;> simp

@[simp] theorem bridgeLocked_lockView (ch rate : Nat) (m : Mach) : lockView (bridgeLocked ch rate m) = lockView m := by
  unfold bridgeLocked
  split <;> simp

/-! The serial and biphase ports. -/

@[simp] theorem setSap_lockView (x : SapSt) (m : Mach) : lockView (setSap x m) = lockView m := by
  simp [setSap]

@[simp] theorem setPortDir_lockView (d : Nat) (x : Dir) (m : Mach) : lockView (setDir_ d x m) = lockView m := by
  simp [setDir_]

@[simp] theorem dirCount_lockView (d id n : Nat) (m : Mach) : lockView (dirCount d id n m) = lockView m := by
  simp [dirCount]

@[simp] theorem sapWr_lockView {f : Fld} (hf : lockFree f = true) (d v : Nat) (m : Mach) : lockView (sapWr f d v m) = lockView m :=
  wrij_lockView hf _ _ _ m

@[simp] theorem showPort_lockView (d : Nat) (m : Mach) : lockView (showPort d m) = lockView m := by
  simp +decide [showPort]

@[simp] theorem rateRecord_lockView (d cause mhz : Nat) (m : Mach) : lockView (rateRecord d cause mhz m) = lockView m := by
  simp [rateRecord]

@[simp] theorem showRate_lockView (d mhz : Nat) (m : Mach) : lockView (showRate d mhz m) = lockView m := by
  simp +decide [showRate]

@[simp] theorem rateUpdate_lockView (d mhz : Nat) (m : Mach) : lockView (rateUpdate d mhz m) = lockView m := by
  unfold rateUpdate
  split <;> simp

@[simp] theorem clockLoss_lockView (d : Nat) (m : Mach) : lockView (clockLoss d m) = lockView m := by
  unfold clockLoss
  split <;> simp

@[simp] theorem startDir_lockView (data d : Nat) (m : Mach) : lockView (startDir data d m) = lockView m := by
  simp +decide [startDir]

@[simp] theorem portStartGroup_lockView (c : Cmd) (tk : Ticket) (m : Mach) : lockView (portStartGroup c tk m).1 = lockView m := by
  simp only [portStartGroup]
  (repeat' split) <;> simp

@[simp] theorem portStop_lockView (c : Cmd) (tk : Ticket) (m : Mach) : lockView (portStop c tk m).1 = lockView m := by
  simp only [portStop]
  split <;> simp

@[simp] theorem dataBegins_lockView (bits : Nat) (m : Mach) : lockView (dataBegins bits m) = lockView m := by
  simp [dataBegins]

@[simp] theorem slip_lockView (d cause offset lo ns : Nat) (m : Mach) : lockView (slip d cause offset lo ns m) = lockView m := by
  unfold slip
  split <;> simp +decide

@[simp] theorem groupLost_lockView (g : Nat) (m : Mach) : lockView (groupLost g m) = lockView m := by
  simp [groupLost]

@[simp] theorem frameB_lockView (d : Nat) (m : Mach) : lockView (frameB d m) = lockView m := by
  unfold frameB
  split <;> simp

@[simp] theorem frameStart_lockView (f : FrameIn) (m : Mach) : lockView (frameStart f m) = lockView m := by
  unfold frameStart
  split <;> simp

@[simp] theorem restartDir_lockView (d : Nat) (x : Dir) (m : Mach) : lockView (restartDir d x m) = lockView m := by
  simp [restartDir]

@[simp] theorem sapRestart_lockView (d : Nat) (m : Mach) : lockView (sapRestart d m) = lockView m := by
  unfold sapRestart
  (repeat' split) <;> simp

@[simp] theorem sapMaskWrite_lockView (d : Nat) (v : Word) (m : Mach) : lockView (sapMaskWrite d v m) = lockView m := by
  simp +decide [sapMaskWrite]

@[simp] theorem mirror_lockView (d : Nat) (x : Dir) (frames : List (List Int)) (m : Mach) :
    lockView (mirror d x frames m) = lockView m := by
  simp +decide [mirror]

@[simp] theorem mirrorStop_lockView (m : Mach) : lockView (mirrorStop m) = lockView m := by
  simp +decide [mirrorStop]

@[simp] theorem receive_lockView (d : Nat) (x : Dir) (frames : List (List Int)) (m : Mach) :
    lockView (receive d x frames m) = lockView m := by
  simp [receive]

@[simp] theorem receiveTick_lockView (pins : List PinIn) (d : Nat) (m : Mach) : lockView (receiveTick pins d m) = lockView m := by
  unfold receiveTick
  split <;> simp

@[simp] theorem zeroInputs_lockView (role : Nat) (m : Mach) : lockView (zeroInputs role m) = lockView m := by
  simp [zeroInputs]

@[simp] theorem portTick_lockView (pins : List PinIn) (m : Mach) : lockView (portTick pins m) = lockView m := by
  simp [portTick]

@[simp] theorem biphaseOut_lockView (d : Nat) (zs : List Bool) (m : Mach) : lockView (biphaseOut d zs m) = lockView m := by
  simp [biphaseOut]

@[simp] theorem putPins_lockView (d : Nat) (x : Dir) (fs : List (List Int)) (zs : List Bool) (m : Mach) :
    lockView (putPins d x fs zs m) = lockView m := by
  simp [putPins]

@[simp] theorem transmit_lockView (d : Nat) (x : Dir) (m : Mach) : lockView (transmit d x m) = lockView m := by
  simp [transmit]

@[simp] theorem transmitB_lockView (d : Nat) (x : Dir) (m : Mach) : lockView (transmitB d x m) = lockView m := by
  simp [transmitB]

@[simp] theorem transmitZero_lockView (d : Nat) (x : Dir) (m : Mach) : lockView (transmitZero d x m) = lockView m := by
  simp [transmitZero]

@[simp] theorem dirCommit_lockView (fades : List Nat) (d : Nat) (m : Mach) : lockView (dirCommit fades d m) = lockView m := by
  unfold dirCommit
  split <;> simp +decide

@[simp] theorem portCommit_lockView (fades : List Nat) (m : Mach) : lockView (portCommit fades m) = lockView m := by
  simp [portCommit]

@[simp] theorem aesLock_lockView (r mhz : Nat) (m : Mach) : lockView (aesLock r mhz m) = lockView m := by
  simp +decide [aesLock]

@[simp] theorem aesUnlock_lockView (r : Nat) (m : Mach) : lockView (aesUnlock r m) = lockView m := by
  simp +decide [aesUnlock]

@[simp] theorem aesErrors_lockView (r quiet b p c : Nat) (m : Mach) : lockView (aesErrors r quiet b p c m) = lockView m := by
  simp +decide [aesErrors]

@[simp] theorem aesSubframeError_lockView (e : AesErr) (m : Mach) : lockView (aesSubframeError e m) = lockView m := by
  simp [aesSubframeError]

@[simp] theorem blockWords_lockView {f : Fld} (hf : lockFree f = true) (r v : Nat) (m : Mach) : lockView (blockWords f r v m) = lockView m :=
  forEach_lockView _ _ (fun _ n => wrij_lockView hf _ _ _ n) m

@[simp] theorem latchBlock_lockView (b : AesBlk) (m : Mach) : lockView (latchBlock b m) = lockView m := by
  simp +decide [latchBlock]

@[simp] theorem aesBlockEnd_lockView (b : AesBlk) (m : Mach) : lockView (aesBlockEnd b m) = lockView m := by
  simp +decide [aesBlockEnd]

@[simp] theorem loadRequest_lockView (kind t : Nat) (m : Mach) : lockView (loadRequest kind t m) = lockView m := by
  unfold loadRequest
  (repeat' split) <;> simp +decide

@[simp] theorem copyShadow_lockView (kind t : Nat) (a b : Fld) (m : Mach) : lockView (copyShadow kind t a b m) = lockView m := by
  unfold copyShadow
  (repeat' split) <;> simp +decide

@[simp] theorem shadowCopy_lockView (t : Nat) (m : Mach) : lockView (shadowCopy t m) = lockView m := by
  simp [shadowCopy]

@[simp] theorem portsSleep_lockView (m : Mach) : lockView (portsSleep m) = lockView m := by
  simp [portsSleep]

@[simp] theorem portsWake_lockView (m : Mach) : lockView (portsWake m) = lockView m := by
  simp [portsWake]

/-! The media clocks. -/

@[simp] theorem setClk_lockView (x : Clk) (m : Mach) : lockView (setClk x m) = lockView m := by
  simp [setClk]

@[simp] theorem setCand_lockView (i : Nat) (x : Cand) (m : Mach) : lockView (setCand i x m) = lockView m := by
  simp [setCand]

@[simp] theorem setAl_lockView (a : Nat) (x : Aligner) (m : Mach) : lockView (setAl a x m) = lockView m := by
  simp [setAl]

@[simp] theorem setRamp_lockView (k : Nat) (x : Ramp) (m : Mach) : lockView (setRamp k x m) = lockView m := by
  simp [setRamp]

@[simp] theorem showSel_lockView (sel mode bridging : Nat) (m : Mach) : lockView (showSel sel mode bridging m) = lockView m := by
  simp +decide [showSel]

@[simp] theorem watchHold_lockView (m : Mach) : lockView (watchHold m) = lockView m := by
  simp [watchHold]

@[simp] theorem enterHoldover_lockView (k : Nat) (m : Mach) : lockView (enterHoldover k m) = lockView m := by
  simp +decide [enterHoldover]

@[simp] theorem exitHoldover_lockView (sel : Nat) (m : Mach) : lockView (exitHoldover sel m) = lockView m := by
  unfold exitHoldover
  split <;> simp +decide

@[simp] theorem switchRef_lockView (sel : Nat) (m : Mach) : lockView (switchRef sel m) = lockView m := by
  simp [switchRef]

@[simp] theorem reselect_lockView (k : Nat) (m : Mach) : lockView (reselect k m) = lockView m := by
  simp [reselect]

@[simp] theorem wantSelect_lockView (i k : Nat) (m : Mach) : lockView (wantSelect i k m) = lockView m := by
  simp [wantSelect]

@[simp] theorem selectRef_lockView (m : Mach) : lockView (selectRef m) = lockView m := by
  unfold selectRef
  split <;> simp

@[simp] theorem disqualify_lockView (i cause k : Nat) (m : Mach) : lockView (disqualify i cause k m) = lockView m := by
  simp +decide [disqualify]

@[simp] theorem candLost_lockView (i cause : Nat) (m : Mach) : lockView (candLost i cause m) = lockView m := by
  simp +decide [candLost]

@[simp] theorem refLoss_lockView (i : Nat) (x : RefEdge) (m : Mach) : lockView (refLoss i x m) = lockView m := by
  simp [refLoss]

@[simp] theorem binCand_lockView (i : Nat) (o : Option Int) (m : Mach) : lockView (binCand i o m) = lockView m := by
  unfold binCand
  (repeat' split) <;> simp +decide

@[simp] theorem disagreePair_lockView (a b : Nat) (m : Mach) : lockView (disagreePair a b m) = lockView m := by
  simp +decide [disagreePair]

@[simp] theorem binServo_lockView (b : RefBin) (m : Mach) : lockView (binServo b m) = lockView m := by
  simp +decide [binServo]

@[simp] theorem refBin_lockView (b : RefBin) (m : Mach) : lockView (refBin b m) = lockView m := by
  simp +decide [refBin]

@[simp] theorem refDisqualified_lockView (i : Nat) (m : Mach) : lockView (refDisqualified i m) = lockView m := by
  simp [refDisqualified]

@[simp] theorem refQualified_lockView (i : Nat) (m : Mach) : lockView (refQualified i m) = lockView m := by
  simp +decide [refQualified]

@[simp] theorem refFirstEdge_lockView (phase : Int) (m : Mach) : lockView (refFirstEdge phase m) = lockView m := by
  simp +decide [refFirstEdge]

@[simp] theorem histValidSet_lockView (m : Mach) : lockView (histValidSet m) = lockView m := by
  simp +decide [histValidSet]

@[simp] theorem holdoverEstimate_lockView (temp : Int) (m : Mach) : lockView (holdoverEstimate temp m) = lockView m := by
  unfold holdoverEstimate
  split <;> simp +decide

@[simp] theorem savedValueStore_lockView (ctl temp : Int) (m : Mach) : lockView (savedValueStore ctl temp m) = lockView m := by
  simp +decide [savedValueStore]

@[simp] theorem alBit_lockView {f : Fld} (hf : lockFree f = true) (a : Nat) (b : Bool) (m : Mach) : lockView (alBit f a b m) = lockView m :=
  wr_lockView hf _ m

@[simp] theorem rampStop_lockView (k a : Nat) (m : Mach) : lockView (rampStop k a m) = lockView m := by
  simp +decide [rampStop]

@[simp] theorem alStop_lockView (a : Nat) (m : Mach) : lockView (alStop a m) = lockView m := by
  simp +decide [alStop]

@[simp] theorem alStart_lockView (a hz den mode : Nat) (ofs : Int) (m : Mach) : lockView (alStart a hz den mode ofs m) = lockView m := by
  simp [alStart]

@[simp] theorem alSlew_lockView (a : Nat) (x : Int) (m : Mach) : lockView (alSlew a x m) = lockView m := by
  simp [alSlew]

@[simp] theorem instantMoved_lockView (x : Int) (m : Mach) : lockView (instantMoved x m) = lockView m := by
  simp [instantMoved]

@[simp] theorem alTick_lockView (a : Nat) (m : Mach) : lockView (alTick a m) = lockView m := by
  simp only [alTick]
  split <;> simp +decide

@[simp] theorem alignerWindowEnd_lockView (a : Nat) (freqPpb phasePs : Int) (m : Mach) :
    lockView (alignerWindowEnd a freqPpb phasePs m) = lockView m := by
  simp +decide [alignerWindowEnd]

@[simp] theorem syncOut_lockView (edgeNs a : Nat) (m : Mach) : lockView (syncOut edgeNs a m) = lockView m := by
  simp +decide [syncOut]

@[simp] theorem syncFollow_lockView (edgeNs a : Nat) (m : Mach) : lockView (syncFollow edgeNs a m) = lockView m := by
  simp [syncFollow]

@[simp] theorem syncInEdge_lockView (edgeNs : Nat) (m : Mach) : lockView (syncInEdge edgeNs m) = lockView m := by
  simp +decide [syncInEdge]

@[simp] theorem rampTick_lockView (k : Nat) (m : Mach) : lockView (rampTick k m) = lockView m := by
  simp only [rampTick]
  split <;> simp +decide

@[simp] theorem rampSegmentEnd_lockView (k : Nat) (m : Mach) : lockView (rampSegmentEnd k m) = lockView m := by
  simp only [rampSegmentEnd]
  split <;> simp +decide

@[simp] theorem clkTick_lockView (m : Mach) : lockView (clkTick m) = lockView m := by
  simp [clkTick]

@[simp] theorem rampLoad_lockView (c : Cmd) (tk : Ticket) (m : Mach) : lockView (rampLoad c tk m).1 = lockView m := by
  simp only [rampLoad]
  (repeat' split) <;> simp +decide

@[simp] theorem refCandidate_lockView (c : Cmd) (tk : Ticket) (m : Mach) : lockView (refCandidate c tk m).1 = lockView m := by
  simp only [refCandidate]
  (repeat' split) <;> simp +decide

@[simp] theorem refOutput_lockView (c : Cmd) (tk : Ticket) (m : Mach) : lockView (refOutput c tk m).1 = lockView m := by
  simp only [refOutput]
  (repeat' split) <;> simp

@[simp] theorem refSelector_lockView (c : Cmd) (tk : Ticket) (m : Mach) : lockView (refSelector c tk m).1 = lockView m := by
  simp only [refSelector]
  (repeat' split) <;> simp

@[simp] theorem refSync_lockView (c : Cmd) (tk : Ticket) (m : Mach) : lockView (refSync c tk m).1 = lockView m := by
  simp only [refSync]
  (repeat' split) <;> simp +decide

@[simp] theorem refConfig_lockView (c : Cmd) (tk : Ticket) (m : Mach) : lockView (refConfig c tk m).1 = lockView m := by
  unfold refConfig
  split <;> simp

/-! The Heivo ring. -/

@[simp] theorem setRing_lockView (x : RingSt) (m : Mach) : lockView (setRing x m) = lockView m := by
  simp [setRing]

@[simp] theorem setPort_lockView (p : Nat) (x : Port) (m : Mach) : lockView (setPort p x m) = lockView m := by
  simp [setPort]

@[simp] theorem setEgress_lockView (p : Nat) (x : Egress) (m : Mach) : lockView (setEgress p x m) = lockView m := by
  simp [setEgress]

@[simp] theorem count_lockView (p id n : Nat) (m : Mach) : lockView (count p id n m) = lockView m := by
  simp [count]

@[simp] theorem clearCounters_lockView (p : Nat) (m : Mach) : lockView (clearCounters p m) = lockView m := by
  simp [clearCounters]

@[simp] theorem emit_lockView (o : Out) (m : Mach) : lockView (emit o m) = lockView m := by
  simp [emit]

@[simp] theorem advanceCredit_lockView (p now : Nat) (m : Mach) : lockView (advanceCredit p now m) = lockView m := by
  simp [advanceCredit]

@[simp] theorem startFrame_lockView (p now : Nat) (f : QFrame) (m : Mach) : lockView (startFrame p now f m) = lockView m := by
  simp [startFrame]

@[simp] theorem pickFrame_lockView (p now : Nat) (m : Mach) : lockView (pickFrame p now m) = lockView m := by
  simp only [pickFrame]
  (repeat' split) <;> simp

@[simp] theorem setTok_lockView (p v : Nat) (m : Mach) : lockView (setTok p v m) = lockView m := by
  simp +decide [setTok]

@[simp] theorem enqueue_lockView (p : Nat) (f : QFrame) (m : Mach) : lockView (enqueue p f m) = lockView m := by
  simp +decide [enqueue]

@[simp] theorem toEgress_lockView (p now : Nat) (cut : Bool) (f : QFrame) (m : Mach) : lockView (toEgress p now cut f m) = lockView m := by
  simp [toEgress]

@[simp] theorem ownFrame_lockView (p tc len : Nat) (tag : Option RingTag) (m : Mach) : lockView (ownFrame p tc len tag m) = lockView m := by
  simp [ownFrame]

@[simp] theorem sendMkpdu_lockView (p : Nat) (m : Mach) : lockView (sendMkpdu p m) = lockView m := by
  simp [sendMkpdu]

@[simp] theorem sendHeivo_lockView (port sub : Nat) (tag : Option RingTag) (p : Pay) (m : Mach) :
    lockView (sendHeivo port sub tag p m) = lockView m := by
  simp [sendHeivo]

@[simp] theorem sendBoth_lockView (sub : Nat) (p : Pay) (m : Mach) : lockView (sendBoth sub p m) = lockView m := by
  simp [sendBoth]

@[simp] theorem sendTrio_lockView (seat op : Nat) (p : Pay) (m : Mach) : lockView (sendTrio seat op p m) = lockView m := by
  simp [sendTrio]

@[simp] theorem joinReport_lockView (seat a b : Nat) (m : Mach) : lockView (joinReport seat a b m) = lockView m := by
  simp [joinReport]

@[simp] theorem showSeam_lockView (m : Mach) : lockView (showSeam m) = lockView m := by
  simp +decide [showSeam]

@[simp] theorem floodStatus_lockView (x : RingStatus) (m : Mach) : lockView (floodStatus x m) = lockView m := by
  simp [floodStatus]

@[simp] theorem detectFault_lockView (p cause : Nat) (m : Mach) : lockView (detectFault p cause m) = lockView m := by
  simp [detectFault]

@[simp] theorem ringStatusReceive_lockView (p : Nat) (x : RingStatus) (m : Mach) : lockView (ringStatusReceive p x m) = lockView m := by
  simp [ringStatusReceive]

@[simp] theorem ringStatusApply_lockView (m : Mach) : lockView (ringStatusApply m) = lockView m := by
  simp +decide [ringStatusApply]

@[simp] theorem epochGraceEnd_lockView (m : Mach) : lockView (epochGraceEnd m) = lockView m := by
  simp [epochGraceEnd]

@[simp] theorem linkHeal_lockView (p : Nat) (m : Mach) : lockView (linkHeal p m) = lockView m := by
  simp [linkHeal]

@[simp] theorem linkEvent_lockView (p state cause : Nat) (m : Mach) : lockView (linkEvent p state cause m) = lockView m := by
  simp [linkEvent]

@[simp] theorem showLink_lockView (p link sec : Nat) (m : Mach) : lockView (showLink p link sec m) = lockView m := by
  simp +decide [showLink]

@[simp] theorem showNbr_lockView (p peer : Nat) (m : Mach) : lockView (showNbr p peer m) = lockView m := by
  simp +decide [showNbr]

@[simp] theorem showMark_lockView (p b : Nat) (m : Mach) : lockView (showMark p b m) = lockView m := by
  simp +decide [showMark]

@[simp] theorem dropSa_lockView (p : Nat) (m : Mach) : lockView (dropSa p m) = lockView m := by
  simp +decide [dropSa]

@[simp] theorem linkDown_lockView (p cause : Nat) (m : Mach) : lockView (linkDown p cause m) = lockView m := by
  simp [linkDown]

@[simp] theorem linkUpDeclare_lockView (p : Nat) (m : Mach) : lockView (linkUpDeclare p m) = lockView m := by
  simp [linkUpDeclare]

@[simp] theorem mkaHello_lockView (p : Nat) (m : Mach) : lockView (mkaHello p m) = lockView m := by
  simp [mkaHello]

@[simp] theorem mkaPeerLost_lockView (p : Nat) (m : Mach) : lockView (mkaPeerLost p m) = lockView m := by
  simp [mkaPeerLost]

@[simp] theorem setIns_lockView (new cause : Nat) (m : Mach) : lockView (setIns new cause m) = lockView m := by
  simp +decide [setIns]

@[simp] theorem drivesLow_lockView (m : Mach) : lockView (drivesLow m) = lockView m := by
  simp +decide [drivesLow]

@[simp] theorem alertPin_lockView (m : Mach) : lockView (alertPin m) = lockView m := by
  simp [alertPin]

@[simp] theorem alert_lockView {f : Fld} (hf : lockFree f = true) (m : Mach) : lockView (alert f m) = lockView m := by
  simp [alert, hf]

@[simp] theorem unitLost_lockView (unit : Nat) (m : Mach) : lockView (unitLost unit m) = lockView m := by
  simp +decide [unitLost]

@[simp] theorem unitBack_lockView (unit : Nat) (m : Mach) : lockView (unitBack unit m) = lockView m := by
  simp [unitBack]

@[simp] theorem xoLoss_lockView (m : Mach) : lockView (xoLoss m) = lockView m := by
  simp [xoLoss]

@[simp] theorem startInsert_lockView (m : Mach) : lockView (startInsert m) = lockView m := by
  simp +decide [startInsert]

@[simp] theorem insertRetry_lockView (m : Mach) : lockView (insertRetry m) = lockView m := by
  simp [insertRetry]

@[simp] theorem insertFail_lockView (cause : Nat) (m : Mach) : lockView (insertFail cause m) = lockView m := by
  simp [insertFail]

@[simp] theorem loopbackDone_lockView (pass : Bool) (m : Mach) : lockView (loopbackDone pass m) = lockView m := by
  simp [loopbackDone]

@[simp] theorem closingTick_lockView (m : Mach) : lockView (closingTick m) = lockView m := by
  simp [closingTick]

@[simp] theorem joinReportSend_lockView (m : Mach) : lockView (joinReportSend m) = lockView m := by
  simp [joinReportSend]

@[simp] theorem tryJoin_lockView (m : Mach) : lockView (tryJoin m) = lockView m := by
  simp +decide [tryJoin]

@[simp] theorem tryTiming_lockView (m : Mach) : lockView (tryTiming m) = lockView m := by
  simp [tryTiming]

@[simp] theorem relaySettled_lockView (m : Mach) : lockView (relaySettled m) = lockView m := by
  simp [relaySettled]

@[simp] theorem keyingTimeout_lockView (m : Mach) : lockView (keyingTimeout m) = lockView m := by
  simp [keyingTimeout]

@[simp] theorem plannedLeave_lockView (cause : Nat) (m : Mach) : lockView (plannedLeave cause m) = lockView m := by
  simp [plannedLeave]

@[simp] theorem stopRing_lockView (m : Mach) : lockView (stopRing m) = lockView m := by
  simp [stopRing]

@[simp] theorem leaveDrop_lockView (m : Mach) : lockView (leaveDrop m) = lockView m := by
  unfold leaveDrop
  split <;> simp

@[simp] theorem ringCtrlPlain_lockView (v : Nat) (m : Mach) : lockView (ringCtrlPlain v m) = lockView m := by
  simp +decide [ringCtrlPlain]

@[simp] theorem enablePort_lockView (p code fec : Nat) (m : Mach) : lockView (enablePort p code fec m) = lockView m := by
  simp +decide [enablePort]

@[simp] theorem writeEnable_lockView (latched : Bool) (b : Nat) (m : Mach) : lockView (writeEnable latched b m) = lockView m := by
  simp +decide [writeEnable]

@[simp] theorem writeForce_lockView (latched : Bool) (b : Nat) (m : Mach) : lockView (writeForce latched b m) = lockView m := by
  simp +decide [writeForce]

@[simp] theorem ringCtrlWrite_lockView (latched : Bool) (v : Nat) (m : Mach) : lockView (ringCtrlWrite latched v m) = lockView m := by
  simp [ringCtrlWrite]

@[simp] theorem ringEnableSet_lockView (v : Word) (m : Mach) : lockView (ringEnableSet v m) = lockView m := by
  simp [ringEnableSet]

@[simp] theorem ringEnableClear_lockView (v : Word) (m : Mach) : lockView (ringEnableClear v m) = lockView m := by
  simp [ringEnableClear]

@[simp] theorem forceBypass_lockView (v : Word) (m : Mach) : lockView (forceBypass v m) = lockView m := by
  simp [forceBypass]

@[simp] theorem egressFrameEnd_lockView (p now : Nat) (m : Mach) : lockView (egressFrameEnd p now m) = lockView m := by
  simp only [egressFrameEnd]
  (repeat' split) <;> simp

@[simp] theorem gateIntervalEnd_lockView (p now : Nat) (m : Mach) : lockView (gateIntervalEnd p now m) = lockView m := by
  simp [gateIntervalEnd]

@[simp] theorem tasChangeArm_lockView (p : Nat) (hi : Word) (m : Mach) : lockView (tasChangeArm p hi m) = lockView m := by
  simp +decide [tasChangeArm]

@[simp] theorem tasChangeApply_lockView (p : Nat) (m : Mach) : lockView (tasChangeApply p m) = lockView m := by
  simp +decide [tasChangeApply]

@[simp] theorem queueLaunch_lockView (p q : Nat) (f : LaunchFrame) (m : Mach) : lockView (queueLaunch p q f m) = lockView m := by
  simp [queueLaunch]

@[simp] theorem launchReached_lockView (p q now : Nat) (m : Mach) : lockView (launchReached p q now m) = lockView m := by
  unfold launchReached
  split <;> simp

@[simp] theorem icvFail_lockView (p : Nat) (fcs : Bool) (m : Mach) : lockView (icvFail p fcs m) = lockView m := by
  simp +decide [icvFail]

@[simp] theorem deliverLocal_lockView (p : Nat) (f : RingFrame) (m : Mach) : lockView (deliverLocal p f m) = lockView m := by
  simp [deliverLocal]

@[simp] theorem forwardFrame_lockView (p : Nat) (f : RingFrame) (m : Mach) : lockView (forwardFrame p f m) = lockView m := by
  simp [forwardFrame]

@[simp] theorem ringFrame_lockView (p : Nat) (f : RingFrame) (m : Mach) : lockView (ringFrame p f m) = lockView m := by
  unfold ringFrame
  extract_lets _ n n1 _ n2
  have h : lockView n = lockView m := setPort_lockView _ _ m
  have h1 : lockView n1 = lockView m := (count_lockView _ _ _ n).trans h
  have h2 : lockView n2 = lockView m := by
    unfold n2
    (repeat' split) <;> simp [h1]
  clear_value n n1 n2
  (repeat' split) <;> simp [h, h2]

@[simp] theorem localFrame_lockView (p : Nat) (f : LocalFrame) (m : Mach) : lockView (localFrame p f m) = lockView m := by
  simp [localFrame]

@[simp] theorem ringMarker_lockView (p : Nat) (k : MarkerIn) (m : Mach) : lockView (ringMarker p k m) = lockView m := by
  simp [ringMarker]

@[simp] theorem markTick_lockView (m : Mach) : lockView (markTick m) = lockView m := by
  simp [markTick]

@[simp] theorem markerMissed_lockView (p : Nat) (m : Mach) : lockView (markerMissed p m) = lockView m := by
  simp [markerMissed]

@[simp] theorem tunnelsOut_lockView (m : Mach) : lockView (tunnelsOut m) = lockView m := by
  simp [tunnelsOut]

@[simp] theorem ringTick_lockView (m : Mach) : lockView (ringTick m) = lockView m := by
  simp [ringTick]

@[simp] theorem mdioGo_lockView (v : Word) (m : Mach) : lockView (mdioGo v m) = lockView m := by
  simp +decide [mdioGo]

@[simp] theorem phyResult_lockView (q : Nat × Nat × Nat) (m : Mach) : lockView (phyResult q m) = lockView m := by
  simp [phyResult]

@[simp] theorem mdioDone_lockView (data : Nat) (m : Mach) : lockView (mdioDone data m) = lockView m := by
  simp +decide [mdioDone]

@[simp] theorem phyPoll_lockView (p pma pcs : Nat) (m : Mach) : lockView (phyPoll p pma pcs m) = lockView m := by
  simp [phyPoll]

/-! The route cross-fade and the voter. -/

@[simp] theorem critMap_lockView (c : Nat) (x : Option Crit) (m : Mach) : lockView (critMap c x m) = lockView m := by
  simp +decide [critMap]

@[simp] theorem setVote_lockView (v : Voter) (m : Mach) : lockView (setVote v m) = lockView m := by
  simp [setVote]

@[simp] theorem showFaded_lockView (m : Mach) : lockView (showFaded m) = lockView m := by
  simp +decide [showFaded]

@[simp] theorem voterCut_lockView (m : Mach) : lockView (voterCut m) = lockView m := by
  simp [voterCut]

@[simp] theorem restoreCopy_lockView (c : Nat) (p : CritCopy) (ws : List (List Int)) (m : Mach) :
    lockView (restoreCopy c p ws m) = lockView m := by
  simp +decide [restoreCopy]

@[simp] theorem reportDissent_lockView (c j cause : Nat) (x : Crit) (m : Mach) : lockView (reportDissent c j cause x m) = lockView m := by
  unfold reportDissent
  (repeat' split) <;> simp +decide

@[simp] theorem noMajority_lockView (c : Nat) (x : Crit) (cause : Nat) (bs : List Ballot) (m : Mach) :
    lockView (noMajority c x cause bs m) = lockView m := by
  simp only [noMajority]
  split <;> simp +decide

@[simp] theorem critWrite_lockView (late : List Nat) (slot : Nat) (v : Option (List Int)) (m : Mach) :
    lockView (critWrite late slot v m) = lockView m := by
  simp [critWrite]

@[simp] theorem voterReset_lockView (m : Mach) : lockView (voterReset m) = lockView m :=
  Prod.ext rfl (lockRegs_clearRange (by decide +kernel) m.regs)

/-! The correction engine and the measurement. -/

@[simp] theorem setCor_lockView (x : Cor) (m : Mach) : lockView (setCor x m) = lockView m := by
  simp [setCor]

@[simp] theorem corrSat_lockView (ix c sats : Nat) (m : Mach) : lockView (corrSat ix c sats m) = lockView m := by
  simp +decide [corrSat]

@[simp] theorem corrNode_lockView (d : NodeD) (c : Nat) (m : Mach) : lockView (corrNode d c m).1 = lockView m := by
  unfold corrNode
  (repeat' split) <;> simp

@[simp] theorem corrMute_lockView (c bank word : Nat) (m : Mach) : lockView (corrMute c bank word m) = lockView m := by
  simp +decide [corrMute]

@[simp] theorem showMeas_lockView (m : Mach) : lockView (showMeas m) = lockView m := by
  unfold showMeas
  split <;> simp +decide

@[simp] theorem holdStopping_lockView (c : Cmd) (tk : Ticket) (began : Nat) (m : Mach) :
    lockView (holdStopping c tk began m).1 = lockView m := by
  simp [holdStopping]

@[simp] theorem measureRun_lockView (c : Cmd) (tk : Ticket) (m : Mach) : lockView (measureRun c tk m).1 = lockView m := by
  unfold measureRun
  (repeat' split) <;> simp

@[simp] theorem measAbort_lockView (result : Nat) (m : Mach) : lockView (measAbort result m) = lockView m := by
  unfold measAbort
  split <;> simp +decide

@[simp] theorem measTrump_lockView (cls : Nat) (m : Mach) : lockView (measTrump cls m) = lockView m := by
  simp [measTrump]

@[simp] theorem measCommit_lockView (m : Mach) : lockView (measCommit m) = lockView m := by
  unfold measCommit
  split <;> simp

@[simp] theorem measureDone_lockView (m : Mach) : lockView (measureDone m) = lockView m := by
  unfold measureDone
  split <;> simp

@[simp] theorem corrCut_lockView (old new : DeckBody) (m : Mach) : lockView (corrCut old new m) = lockView m := by
  unfold corrCut
  split <;> simp

@[simp] theorem corrSleep_lockView (m : Mach) : lockView (corrSleep m) = lockView m := by
  simp [corrSleep]

@[simp] theorem corrWake_lockView (m : Mach) : lockView (corrWake m) = lockView m := by
  simp [corrWake]

@[simp] theorem corrRenderReset_lockView (m : Mach) : lockView (corrRenderReset m) = lockView m := by
  simp [corrRenderReset]

/-! The intercom. -/

@[simp] theorem setIcom_lockView (c : Nat) (x : Icom) (m : Mach) : lockView (setIcom c x m) = lockView m := by
  simp [setIcom]

@[simp] theorem showIcom_lockView (m : Mach) : lockView (showIcom m) = lockView m := by
  simp +decide [showIcom]

@[simp] theorem icomEvent_lockView (c state erle : Nat) (m : Mach) : lockView (icomEvent c state erle m) = lockView m := by
  simp [icomEvent]

@[simp] theorem icomClear_lockView (c : Nat) (m : Mach) : lockView (icomClear c m) = lockView m := by
  simp +decide [icomClear]

@[simp] theorem icomOpen_lockView (k : Nat) (c : Cmd) (m : Mach) : lockView (icomOpen k c m) = lockView m := by
  simp [icomOpen]

@[simp] theorem icomConnect_lockView (c : Cmd) (tk : Ticket) (m : Mach) : lockView (icomConnect c tk m).1 = lockView m := by
  simp only [icomConnect]
  (repeat' split) <;> simp

@[simp] theorem icomConverged_lockView (c erle : Nat) (m : Mach) : lockView (icomConverged c erle m) = lockView m := by
  simp +decide [icomConverged]

@[simp] theorem icomDiverged_lockView (c : Nat) (m : Mach) : lockView (icomDiverged c m) = lockView m := by
  simp +decide [icomDiverged]

@[simp] theorem talkEvent_lockView (c phase : Nat) (m : Mach) : lockView (talkEvent c phase m) = lockView m := by
  simp [talkEvent]

@[simp] theorem icomTalk_lockView (c : Nat) (m : Mach) : lockView (icomTalk c m) = lockView m := by
  simp [icomTalk]

@[simp] theorem duckHoldExpiry_lockView (c : Nat) (m : Mach) : lockView (duckHoldExpiry c m) = lockView m := by
  simp [duckHoldExpiry]

@[simp] theorem icomCut_lockView (m : Mach) : lockView (icomCut m) = lockView m := by
  simp [icomCut]

@[simp] theorem icomStop_lockView (m : Mach) : lockView (icomStop m) = lockView m := by
  simp [icomStop]

@[simp] theorem icomSend_lockView (c : Nat) (m : Mach) : lockView (icomSend c m).1 = lockView m := by
  unfold icomSend
  split <;> simp

/-! Announcements. -/

@[simp] theorem setAnn_lockView (a : Ann) (m : Mach) : lockView (setAnn a m) = lockView m := by
  simp [setAnn]

@[simp] theorem watchStore_lockView (m : Mach) : lockView (watchStore m) = lockView m := by
  simp [watchStore]

@[simp] theorem clipWrite_lockView (c : Cmd) (tk : Ticket) (m : Mach) : lockView (clipWrite c tk m).1 = lockView m := by
  simp only [clipWrite]
  (repeat' split) <;> simp

@[simp] theorem clipWriteDone_lockView (n : Nat) (m : Mach) : lockView (clipWriteDone n m) = lockView m := by
  unfold clipWriteDone
  split <;> simp

@[simp] theorem msgDefine_lockView (c : Cmd) (tk : Ticket) (m : Mach) : lockView (msgDefine c tk m).1 = lockView m := by
  simp only [msgDefine]
  split <;> simp

@[simp] theorem schedWrite_lockView (c : Cmd) (tk : Ticket) (m : Mach) : lockView (schedWrite c tk m).1 = lockView m := by
  simp only [schedWrite]
  split <;> simp

@[simp] theorem setPlay_lockView (k : Nat) (p : Play) (m : Mach) : lockView (setPlay k p m) = lockView m := by
  simp [setPlay]

@[simp] theorem annEnd_lockView (id msg reason zones : Nat) (m : Mach) : lockView (annEnd id msg reason zones m) = lockView m := by
  simp [annEnd]

@[simp] theorem dropReq_lockView (r : Req) (reason : Nat) (m : Mach) : lockView (dropReq r reason m) = lockView m := by
  simp +decide [dropReq]

@[simp] theorem waitReq_lockView (r : Req) (m : Mach) : lockView (waitReq r m) = lockView m := by
  simp [waitReq]

@[simp] theorem changeZone_lockView (z : Nat) (new : Option Nat) (m : Mach) : lockView (changeZone z new m) = lockView m := by
  simp [changeZone]

@[simp] theorem endPlay_lockView (k reason : Nat) (m : Mach) : lockView (endPlay k reason m) = lockView m := by
  unfold endPlay
  split <;> simp

@[simp] theorem preempt_lockView (old : Play) (z : Nat) (r : Req) (m : Mach) : lockView (preempt old z r m) = lockView m := by
  simp +decide [preempt]

@[simp] theorem cutPlay_lockView (k : Nat) (r : Req) (m : Mach) : lockView (cutPlay k r m) = lockView m := by
  unfold cutPlay
  split <;> simp

@[simp] theorem takeZone_lockView (k : Nat) (r : Req) (z : Nat) (m : Mach) : lockView (takeZone k r z m) = lockView m := by
  simp only [takeZone]
  (repeat' split) <;> simp

@[simp] theorem startPlay_lockView (r : Req) (d : Msg) (pl : Nat) (bridged : Bool) (m : Mach) :
    lockView (startPlay r d pl bridged m) = lockView m := by
  unfold startPlay
  split <;> simp +decide

@[simp] theorem treat_lockView (waited : Bool) (r : Req) (m : Mach) : lockView (treat waited r m) = lockView m := by
  simp only [treat]
  (repeat' split) <;> simp

@[simp] theorem replayLatches_lockView (m : Mach) : lockView (replayLatches m) = lockView m := by
  simp [replayLatches]

@[simp] theorem arbitrate_lockView (m : Mach) : lockView (arbitrate m) = lockView m := by
  simp [arbitrate]

@[simp] theorem waitLimit_lockView (k : Nat) (m : Mach) : lockView (waitLimit k m) = lockView m := by
  unfold waitLimit
  split <;> simp

@[simp] theorem annPlay_lockView (c : Cmd) (tk : Ticket) (m : Mach) : lockView (annPlay c tk m).1 = lockView m := by
  unfold annPlay
  (repeat' split) <;> simp

@[simp] theorem annStop_lockView (c : Cmd) (tk : Ticket) (m : Mach) : lockView (annStop c tk m).1 = lockView m := by
  simp only [annStop]
  (repeat' split) <;> simp

@[simp] theorem fire_lockView (e : Nat) (x : Sched) (src : Nat) (m : Mach) : lockView (fire e x src m) = lockView m := by
  unfold fire
  split <;> simp +decide

@[simp] theorem scheduleFire_lockView (e : Nat) (m : Mach) : lockView (scheduleFire e m) = lockView m := by
  unfold scheduleFire
  split <;> simp

@[simp] theorem gpioTrigger_lockView (e : Nat) (m : Mach) : lockView (gpioTrigger e m) = lockView m := by
  unfold gpioTrigger
  split <;> simp

@[simp] theorem firePin_lockView (e : Nat) (m : Mach) : lockView (firePin e m) = lockView m := by
  unfold firePin
  split <;> simp

@[simp] theorem firePins_lockView (m : Mach) : lockView (firePins m) = lockView m := by
  simp [firePins]

@[simp] theorem releasePlay_lockView (k : Nat) (m : Mach) : lockView (releasePlay k m) = lockView m := by
  unfold releasePlay
  split <;> simp

@[simp] theorem gpioRelease_lockView (e : Nat) (m : Mach) : lockView (gpioRelease e m) = lockView m := by
  unfold gpioRelease
  split <;> simp

@[simp] theorem annRun_lockView (m : Mach) : lockView (annRun m) = lockView m :=
  forEach_lockView _ _ (fun k n => by (repeat' split) <;> simp) m

@[simp] theorem annCommit_lockView (m : Mach) : lockView (annCommit m) = lockView m := by
  simp [annCommit]

@[simp] theorem playEnd_lockView (p : Nat) (m : Mach) : lockView (playEnd p m) = lockView m := by
  unfold playEnd
  (repeat' split) <;> simp

@[simp] theorem pageLimit_lockView (p : Nat) (m : Mach) : lockView (pageLimit p m) = lockView m := by
  unfold pageLimit
  (repeat' split) <;> simp

@[simp] theorem clipError_lockView (p unit : Nat) (m : Mach) : lockView (clipError p unit m) = lockView m := by
  unfold clipError
  (repeat' split) <;> simp +decide

@[simp] theorem unlatch_lockView (z : Nat) (m : Mach) : lockView (unlatch z m) = lockView m := by
  simp only [unlatch]
  (repeat' split) <;> simp

@[simp] theorem trumpClear_lockView (c : Cmd) (tk : Ticket) (m : Mach) : lockView (trumpClear c tk m).1 = lockView m := by
  unfold trumpClear
  split <;> simp

@[simp] theorem annRenderReset_lockView (m : Mach) : lockView (annRenderReset m) = lockView m := by
  simp [annRenderReset]

/-! Domain time. -/

@[simp] theorem setTim_lockView (x : Tim) (m : Mach) : lockView (setTim x m) = lockView m := by
  simp [setTim]

@[simp] theorem setDir_lockView (p : Nat) (x : TimeDir) (m : Mach) : lockView (setDir p x m) = lockView m := by
  simp [setDir]

@[simp] theorem showDir_lockView (p b : Nat) (m : Mach) : lockView (showDir p b m) = lockView m := by
  simp +decide [showDir]

@[simp] theorem measureLink_lockView (p : Nat) (k : MarkerIn) (ingress : Nat) (m : Mach) :
    lockView (measureLink p k ingress m) = lockView m := by
  simp +decide [measureLink]

@[simp] theorem followSource_lockView (gen seat : Nat) (theta : Int) (m : Mach) :
    lockView (followSource gen seat theta m) = lockView m := by
  simp +decide [followSource]

@[simp] theorem takeRecord_lockView (p gen seat : Nat) (x : TimeDir) (m : Mach) : lockView (takeRecord p gen seat x m) = lockView m := by
  simp +decide [takeRecord]

@[simp] theorem timeRecord_lockView (p gen seat : Nat) (x : TimeDir) (m : Mach) : lockView (timeRecord p gen seat x m) = lockView m := by
  simp [timeRecord]

@[simp] theorem markerReceive_lockView (p : Nat) (k : MarkerIn) (m : Mach) : lockView (markerReceive p k m) = lockView m := by
  simp [markerReceive]

@[simp] theorem markerLaunch_lockView (p at_ : Nat) (m : Mach) : lockView (markerLaunch p at_ m) = lockView m := by
  simp [markerLaunch]

@[simp] theorem unlock_lockView (cause : Nat) (m : Mach) : lockView (unlock cause m) = lockView m := by
  simp +decide [unlock]

@[simp] theorem timeLost_lockView (cause : Nat) (m : Mach) : lockView (timeLost cause m) = lockView m := by
  simp +decide [timeLost]

@[simp] theorem timeDirectionLost_lockView (p : Nat) (m : Mach) : lockView (timeDirectionLost p m) = lockView m := by
  simp [timeDirectionLost]

@[simp] theorem timeFirstStep_lockView (m : Mach) : lockView (timeFirstStep m) = lockView m := by
  unfold timeFirstStep
  split
  · exact (instantMoved_lockView _ _).trans (setTim_lockView _ _)
  · rfl

@[simp] theorem talkersStart_lockView (m : Mach) : lockView (talkersStart m) = lockView m := by
  simp [talkersStart]

@[simp] theorem declareLock_lockView (kind : Nat) (step : Int) (m : Mach) : lockView (declareLock kind step m) = lockView m := by
  simp +decide [declareLock]

@[simp] theorem timeLock_lockView (m : Mach) : lockView (timeLock m) = lockView m := by
  simp [timeLock]

@[simp] theorem showSlew_lockView (m : Mach) : lockView (showSlew m) = lockView m := by
  simp +decide [showSlew]

@[simp] theorem loadSlew_lockView (th : Int) (m : Mach) : lockView (loadSlew th m) = lockView m := by
  simp +decide [loadSlew]

@[simp] theorem stepRefused_lockView (m : Mach) : lockView (stepRefused m) = lockView m := by
  simp +decide [stepRefused]

@[simp] theorem judgeSmall_lockView (m : Mach) : lockView (judgeSmall m) = lockView m := by
  simp [judgeSmall]

@[simp] theorem slewDone_lockView (m : Mach) : lockView (slewDone m) = lockView m := by
  simp +decide [slewDone]

@[simp] theorem slewTick_lockView (m : Mach) : lockView (slewTick m) = lockView m := by
  simp +decide [slewTick]

@[simp] theorem dirDisagree_lockView (a b : Int) (m : Mach) : lockView (dirDisagree a b m) = lockView m := by
  simp +decide [dirDisagree]

@[simp] theorem pushTheta_lockView (t : Int) (m : Mach) : lockView (pushTheta t m) = lockView m := by
  simp +decide [pushTheta]

@[simp] theorem thetaTick_lockView (ended : Nat) (m : Mach) : lockView (thetaTick ended m) = lockView m := by
  simp [thetaTick]

@[simp] theorem sourceStart_lockView (m : Mach) : lockView (sourceStart m) = lockView m := by
  simp [sourceStart]

@[simp] theorem sourceBegin_lockView (m : Mach) : lockView (sourceBegin m) = lockView m := by
  simp +decide [sourceBegin]

@[simp] theorem dropCand4_lockView (m : Mach) : lockView (dropCand4 m) = lockView m := by
  simp +decide [dropCand4]

@[simp] theorem stopSlew_lockView (m : Mach) : lockView (stopSlew m) = lockView m := by
  simp +decide [stopSlew]

@[simp] theorem becomeSource_lockView (m : Mach) : lockView (becomeSource m) = lockView m := by
  simp +decide [becomeSource]

@[simp] theorem endSource_lockView (m : Mach) : lockView (endSource m) = lockView m := by
  simp +decide [endSource]

@[simp] theorem todPpsEdge_lockView (m : Mach) : lockView (todPpsEdge m) = lockView m := by
  simp [todPpsEdge]

@[simp] theorem ptpState_lockView (l new cls gm steps : Nat) (m : Mach) : lockView (ptpState l new cls gm steps m) = lockView m := by
  simp +decide [ptpState]

@[simp] theorem ptpGo_lockView (l new : Nat) (m : Mach) : lockView (ptpGo l new m) = lockView m := by
  simp [ptpGo]

@[simp] theorem timRestart_lockView (m : Mach) : lockView (timRestart m) = lockView m := by
  simp +decide [timRestart, lockRegs_rclear]

@[simp] theorem setPtp_lockView (l : Nat) (x : Ptp) (m : Mach) : lockView (setPtp l x m) = lockView m := by
  simp [setPtp]

@[simp] theorem ptpTake_lockView (l : Nat) (g : GmSet) (m : Mach) : lockView (ptpTake l g m) = lockView m := by
  simp +decide [ptpTake]

@[simp] theorem ptpAnnounce_lockView (l : Nat) (g : GmSet) (m : Mach) : lockView (ptpAnnounce l g m) = lockView m := by
  simp [ptpAnnounce]

@[simp] theorem ptpSync_lockView (l t1 t2 : Nat) (m : Mach) : lockView (ptpSync l t1 t2 m) = lockView m := by
  simp [ptpSync]

@[simp] theorem ptpDelay_lockView (l t1 t2 t3 t4 : Nat) (m : Mach) : lockView (ptpDelay l t1 t2 t3 t4 m) = lockView m := by
  simp [ptpDelay]

@[simp] theorem ptpReceive_lockView (l : Nat) (k : PtpIn) (m : Mach) : lockView (ptpReceive l k m) = lockView m := by
  unfold ptpReceive
  (repeat' split) <;> simp +decide

@[simp] theorem ptpInterval_lockView (l kind : Nat) (m : Mach) : lockView (ptpInterval l kind m) = lockView m := by
  simp [ptpInterval]

@[simp] theorem ptpTimeout_lockView (l : Nat) (new : Option GmSet) (m : Mach) : lockView (ptpTimeout l new m) = lockView m := by
  unfold ptpTimeout
  (repeat' split) <;> simp

@[simp] theorem timeTick_lockView (m : Mach) : lockView (timeTick m) = lockView m := by
  simp +decide [timeTick]

@[simp] theorem ppsOutSecond_lockView (m : Mach) : lockView (ppsOutSecond m) = lockView m := by
  simp [ppsOutSecond]

@[simp] theorem timeQuery_lockView (c : Cmd) (tk : Ticket) (m : Mach) : lockView (timeQuery c tk m).1 = lockView m := by
  unfold timeQuery
  split <;> simp

/-! Streams. -/

@[simp] theorem setStr_lockView (x : Str) (m : Mach) : lockView (setStr x m) = lockView m := by
  simp [setStr]

@[simp] theorem setCtx_lockView (role k : Nat) (x : Stream) (m : Mach) : lockView (setCtx role k x m) = lockView m := by
  simp [setCtx]

@[simp] theorem markMap_lockView (m : Mach) : lockView (markMap m) = lockView m := by
  simp [markMap]

@[simp] theorem hostFrames_lockView (l : Nat) (lens : List Nat) (m : Mach) : lockView (hostFrames l lens m) = lockView m := by
  simp [hostFrames]

@[simp] theorem igmpReport_lockView (l : Nat) (m : Mach) : lockView (igmpReport l m) = lockView m := by
  simp [igmpReport]

@[simp] theorem streamOpen_lockView (c : Cmd) (tk : Ticket) (m : Mach) : lockView (streamOpen c tk m).1 = lockView m := by
  simp only [streamOpen]
  (repeat' split) <;> simp

@[simp] theorem streamClose_lockView (c : Cmd) (tk : Ticket) (m : Mach) : lockView (streamClose c tk m).1 = lockView m := by
  simp only [streamClose]
  (repeat' split) <;> simp

@[simp] theorem chmapWrite_lockView (c : Cmd) (tk : Ticket) (m : Mach) : lockView (chmapWrite c tk m).1 = lockView m := by
  simp only [chmapWrite]
  split <;> simp

@[simp] theorem closeTalkers_lockView (m : Mach) : lockView (closeTalkers m) = lockView m := by
  simp [closeTalkers]

@[simp] theorem evalMap_lockView (m : Mach) : lockView (evalMap m) = lockView m := by
  simp +decide [evalMap]

@[simp] theorem takeMalformed_lockView (k why : Nat) (m : Mach) : lockView (takeMalformed k why m) = lockView m := by
  simp +decide [takeMalformed]

@[simp] theorem takePacket_lockView (k : Nat) (p : StreamPkt) (m : Mach) : lockView (takePacket k p m) = lockView m := by
  simp only [takePacket]
  split <;> simp

@[simp] theorem packetReceive_lockView (p : StreamPkt) (m : Mach) : lockView (packetReceive p m) = lockView m :=
  forEach_lockView _ _ (fun k n => by split <;> simp) m

@[simp] theorem presentFull_lockView (k : Nat) (x : Stream) (m : Mach) : lockView (presentFull k x m) = lockView m := by
  simp [presentFull]

@[simp] theorem presentGap_lockView (k : Nat) (x : Stream) (m : Mach) : lockView (presentGap k x m) = lockView m := by
  simp +decide [presentGap]

@[simp] theorem presentOne_lockView (k : Nat) (m : Mach) : lockView (presentOne k m) = lockView m := by
  simp only [presentOne]
  (repeat' split) <;> simp

@[simp] theorem watchJitter_lockView (m : Mach) : lockView (watchJitter m) = lockView m := by
  simp [watchJitter]

@[simp] theorem presentAll_lockView (m : Mach) : lockView (presentAll m) = lockView m := by
  simp [presentAll]

@[simp] theorem streamLost_lockView (k : Nat) (m : Mach) : lockView (streamLost k m) = lockView m := by
  simp +decide [streamLost]

@[simp] theorem crfReport_lockView (k : Nat) (m : Mach) : lockView (crfReport k m) = lockView m := by
  simp only [crfReport]
  (repeat' split) <;> simp +decide

@[simp] theorem arpRequest_lockView (l addr : Nat) (m : Mach) : lockView (arpRequest l addr m) = lockView m := by
  simp [arpRequest]

@[simp] theorem sendPacket_lockView (k : Nat) (x : Stream) (frames : List (List Int)) (times : List Nat) (m : Mach) :
    lockView (sendPacket k x frames times m) = lockView m := by
  simp [sendPacket]

@[simp] theorem crfCommit_lockView (k : Nat) (x : Stream) (m : Mach) : lockView (crfCommit k x m) = lockView m := by
  simp [crfCommit]

@[simp] theorem talkOne_lockView (fades : List Nat) (k : Nat) (m : Mach) : lockView (talkOne fades k m) = lockView m := by
  simp [talkOne]

@[simp] theorem talkerCommit_lockView (fades : List Nat) (m : Mach) : lockView (talkerCommit fades m) = lockView m := by
  simp [talkerCommit]

@[simp] theorem streamsSleep_lockView (m : Mach) : lockView (streamsSleep m) = lockView m := by
  simp [streamsSleep]

@[simp] theorem streamsWake_lockView (m : Mach) : lockView (streamsWake m) = lockView m := by
  simp [streamsWake]

@[simp] theorem streamCounters_lockView (role k : Nat) (m : Mach) : lockView (streamCounters role k m).2 = lockView m := by
  unfold streamCounters
  (repeat' split) <;> simp

/-! Decks. -/

@[simp] theorem setDk_lockView (d : DeckUnit) (m : Mach) : lockView (setDk d m) = lockView m := by
  simp [setDk]

@[simp] theorem dkBump_lockView (id : Nat) (m : Mach) : lockView (dkBump id m) = lockView m := by
  simp [dkBump]

@[simp] theorem stageEvent_lockView (digest load result reason : Nat) (src : Src) (m : Mach) :
    lockView (stageEvent digest load result reason src m) = lockView m := by
  simp [stageEvent]

@[simp] theorem stageRefuse_lockView (h : Held) (reason digest load signer : Nat) (m : Mach) :
    lockView (stageRefuse h reason digest load signer m) = lockView m := by
  simp +decide [stageRefuse]

@[simp] theorem stageStart_lockView (h : Held) (m : Mach) : lockView (stageStart h m) = lockView m := by
  simp [stageStart]

@[simp] theorem startHeld_lockView (n : Nat) (m : Mach) : lockView (startHeld n m) = lockView m := by
  induction n generalizing m with
  | zero => rfl
  | succ n ih =>
    unfold startHeld
    split
    · split
      · simp [ih]
      · rfl
    · rfl

@[simp] theorem stageHeldStart_lockView (m : Mach) : lockView (stageHeldStart m) = lockView m := by
  simp [stageHeldStart]

@[simp] theorem stageCmd_lockView (c : Cmd) (tk : Ticket) (m : Mach) : lockView (stageCmd c tk m).1 = lockView m := by
  unfold stageCmd
  (repeat' split) <;> simp

@[simp] theorem cutMiss_lockView (cause : Nat) (h : Held) (m : Mach) : lockView (cutMiss cause h m) = lockView m := by
  simp +decide [cutMiss]

@[simp] theorem waitersMiss_lockView (m : Mach) : lockView (waitersMiss m) = lockView m := by
  simp [waitersMiss]

@[simp] theorem stageReady_lockView (m : Mach) : lockView (stageReady m) = lockView m := by
  unfold stageReady
  split <;> simp

@[simp] theorem stageFails_lockView (m : Mach) : lockView (stageFails m) = lockView m := by
  unfold stageFails
  split <;> simp

@[simp] theorem bridgeCut_lockView (m : Mach) : lockView (bridgeCut m) = lockView m := by
  simp [bridgeCut]

@[simp] theorem doCut_lockView (h : Held) (m : Mach) : lockView (doCut h m) = lockView m := by
  unfold doCut
  split <;> simp +decide

@[simp] theorem tryCut_lockView (h : Held) (m : Mach) : lockView (tryCut h m) = lockView m := by
  unfold tryCut
  split <;> simp

@[simp] theorem doCuts_lockView (m : Mach) : lockView (doCuts m) = lockView m := by
  simp [doCuts]

@[simp] theorem deckCut_lockView (c : Cmd) (tk : Ticket) (m : Mach) : lockView (deckCut c tk m).1 = lockView m := by
  simp [deckCut]

@[simp] theorem deckCommit_lockView (m : Mach) : lockView (deckCommit m) = lockView m := by
  unfold deckCommit
  split <;> simp

@[simp] theorem deckDigest_lockView (c : Cmd) (tk : Ticket) (m : Mach) : lockView (deckDigest c tk m).1 = lockView m := by
  unfold deckDigest
  split <;> simp

@[simp] theorem meterCounters_lockView (n : Nat) (m : Mach) : lockView (meterCounters n m).2 = lockView m := by
  unfold meterCounters
  split <;> simp

@[simp] theorem deckRenderReset_lockView (m : Mach) : lockView (deckRenderReset m) = lockView m := by
  unfold deckRenderReset
  split <;> simp

@[simp] theorem deckHostReset_lockView (m : Mach) : lockView (deckHostReset m) = lockView m := by
  simp [deckHostReset]

/-! The power manager. -/

@[simp] theorem setPwr_lockView (x : Pwr) (m : Mach) : lockView (setPwr x m) = lockView m := by
  simp [setPwr]

@[simp] theorem beginMove_lockView (entry : Bool) (dst : Nat) (m : Mach) : lockView (beginMove entry dst m) = lockView m := by
  simp +decide [beginMove]

@[simp] theorem showTarget_lockView (m : Mach) : lockView (showTarget m) = lockView m := by
  simp +decide [showTarget]

@[simp] theorem judgePower_lockView (m : Mach) : lockView (judgePower m) = lockView m := by
  simp +decide [judgePower]

@[simp] theorem powerTick_lockView (m : Mach) : lockView (powerTick m) = lockView m := by
  simp only [powerTick]
  (repeat' split) <;> simp +decide

@[simp] theorem powerTolerance_lockView (c : Cmd) (tk : Ticket) (m : Mach) : lockView (powerTolerance c tk m).1 = lockView m := by
  simp only [powerTolerance]
  (repeat' split) <;> simp +decide

@[simp] theorem powerEntryStart_lockView (m : Mach) : lockView (powerEntryStart m) = lockView m := by
  unfold powerEntryStart
  split <;> simp

@[simp] theorem endMove_lockView (v : PwrMove) (late : Bool) (m : Mach) : lockView (endMove v late m) = lockView m := by
  simp +decide [endMove]

@[simp] theorem sleepUnits_lockView (d : Nat) (m : Mach) : lockView (sleepUnits d m) = lockView m := by
  simp [sleepUnits]

@[simp] theorem powerEntryDone_lockView (m : Mach) : lockView (powerEntryDone m) = lockView m := by
  unfold powerEntryDone
  split <;> simp

@[simp] theorem wakeUnits_lockView (d : Nat) (m : Mach) : lockView (wakeUnits d m) = lockView m := by
  simp [wakeUnits]

@[simp] theorem wakeDone_lockView (m : Mach) : lockView (wakeDone m) = lockView m := by
  unfold wakeDone
  split <;> simp +decide

/-! The frame program. -/

@[simp] theorem deliver_lockView (p : Pass) (key slot : Nat) (hit : Bool) (xs : List Int) (m : Mach) :
    lockView (deliver p key slot hit xs m).1 = lockView m := by
  simp [deliver]

@[simp] theorem freeSamples_lockView (n : Nat) (m : Mach) : lockView (freeSamples n m).1 = lockView m := by
  simp [freeSamples]

@[simp] theorem bridgeOut_lockView (ch : Nat) (m : Mach) : lockView (bridgeOut ch m).1 = lockView m := by
  simp only [bridgeOut]
  (repeat' split) <;> simp

@[simp] theorem setNodeW_lockView (ix : Nat) (w : List Int) (m : Mach) : lockView (setNodeW ix w m) = lockView m := by
  simp [setNodeW]

@[simp] theorem writeOuts_lockView (outs : List Nat) (ys : List (List Int)) (m : Mach) : lockView (writeOuts outs ys m) = lockView m := by
  simp [writeOuts]

@[simp] theorem nodeSats_lockView (cluster n : Nat) (m : Mach) : lockView (nodeSats cluster n m) = lockView m := by
  simp [nodeSats]

@[simp] theorem kernelNode_lockView (d : NodeD) (k : KernelD) (words : List Nat) (xs : List (List Int)) (m : Mach) :
    lockView (kernelNode d k words xs m) = lockView m := by
  unfold kernelNode
  split <;> simp

@[simp] theorem runNode_lockView (p : Pass) (d : NodeD) (m : Mach) : lockView (runNode p d m) = lockView m := by
  simp only [runNode]
  (repeat' split) <;> simp

@[simp] theorem livePass_lockView (p : Pass) (m : Mach) : lockView (livePass p m) = lockView m := by
  simp [livePass]

@[simp] theorem runOld_lockView (run : List NodeD) (old : DeckBody) (p : Pass) (d : NodeD) (m : Mach) :
    lockView (runOld run old p d m) = lockView m := by
  simp only [runOld]
  (repeat' split) <;> simp

@[simp] theorem retirePass_lockView (p : Pass) (m : Mach) : lockView (retirePass p m) = lockView m := by
  unfold retirePass
  split <;> simp

@[simp] theorem bothPasses_lockView (p : Pass) (m : Mach) (n : Nat) (r : SMap (List Int)) : lockView (bothPasses p m n r) = lockView m := by
  induction n generalizing r with
  | zero => simp [bothPasses]
  | succ n ih => exact ih _

@[simp] theorem runFrame_lockView (p : Pass) (m : Mach) : lockView (runFrame p m) = lockView m := by
  simp [runFrame]

@[simp] theorem consumeSlot_lockView (p : Pass) (c : Nat) (m : Mach) : lockView (consumeSlot p c m) = lockView m := by
  simp [consumeSlot]

@[simp] theorem watchLoad_lockView (m : Mach) : lockView (watchLoad m) = lockView m := by
  simp [watchLoad]

@[simp] theorem recordLoad_lockView (load : Nat) (m : Mach) : lockView (recordLoad load m) = lockView m := by
  simp +decide [recordLoad]

@[simp] theorem reportOverrun_lockView (w : Work) (p : Pass) (m : Mach) : lockView (reportOverrun w p m) = lockView m := by
  simp +decide [reportOverrun]

@[simp] theorem bridgeBooks_lockView (m : Mach) : lockView (bridgeBooks m) = lockView m := by
  simp [bridgeBooks]

@[simp] theorem bankRetries_lockView (m : Mach) : lockView (bankRetries m) = lockView m := by
  simp [bankRetries]

@[simp] theorem showBusy_lockView (p : Pass) (m : Mach) : lockView (showBusy p m) = lockView m := by
  simp +decide [showBusy]

@[simp] theorem turnOver_lockView (cur : SMap (List Int)) (m : Mach) : lockView (turnOver cur m) = lockView m := by
  simp [turnOver]

@[simp] theorem frameWork_lockView (w : Work) (p : Pass) (m : Mach) : lockView (frameWork w p m) = lockView m := by
  simp [frameWork]

@[simp] theorem voteOne_lockView (done : Nat → Bool) (late : List Nat) (c : Nat) (x : Crit) (m : Mach) :
    lockView (voteOne done late c x m) = lockView m := by
  simp +decide [voteOne]

@[simp] theorem vote_lockView (done : Nat → Bool) (late : List Nat) (m : Mach) : lockView (vote done late m) = lockView m := by
  simp +decide [vote]

@[simp] theorem frameCons_lockView (p : Pass) (m : Mach) : lockView (frameCons p m) = lockView m := by
  simp +decide [frameCons]

@[simp] theorem frameIdle_lockView (m : Mach) : lockView (frameIdle m) = lockView m := by
  simp +decide [frameIdle]

@[simp] theorem firstAudio_lockView (m : Mach) : lockView (firstAudio m) = lockView m := by
  simp +decide [firstAudio]

@[simp] theorem commitDeal_lockView (late : Bool) (w0 : Work) (m : Mach) : lockView (commitDeal late w0 m) = lockView m := by
  simp [commitDeal]

@[simp] theorem dealCommit_lockView (w : Work) (m : Mach) : lockView (dealCommit w m) = lockView m := by
  simp [dealCommit]

/-! The host-function reset. -/

@[simp] theorem clearTolerances_lockView (m : Mach) : lockView (clearTolerances m) = lockView m := by
  simp +decide [clearTolerances]

@[simp] theorem hostReset_lockView (m : Mach) : lockView (hostReset m) = lockView m := by
  simp +decide [hostReset]

@[simp] theorem hostResetComplete_lockView (m : Mach) : lockView (hostResetComplete m) = lockView m := by
  unfold hostResetComplete
  split
  · rfl
  · exact Prod.ext rfl (lockRegs_filter (fun k => k / 32 < 0x1000 || 0x2000 ≤ k / 32 || k / 32 = 0x1034) (by decide +kernel) m.regs)

@[simp] theorem functionReset_lockView (m : Mach) : lockView (functionReset m) = lockView m := by
  simp [functionReset]

@[simp] theorem perstAssert_lockView (m : Mach) : lockView (perstAssert m) = lockView m := by
  simp [perstAssert]

@[simp] theorem perstRelease_lockView (m : Mach) : lockView (perstRelease m) = lockView m := by
  simp [perstRelease]

/-! Kolica. -/

@[simp] theorem showKeys_lockView (m : Mach) : lockView (showKeys m) = lockView m := by
  simp +decide [showKeys]

@[simp] theorem showLdev_lockView (m : Mach) : lockView (showLdev m) = lockView m := by
  simp +decide [showLdev]

@[simp] theorem measureImage_lockView (m : Mach) : lockView (measureImage m) = lockView m := by
  simp [measureImage]

@[simp] theorem installRing_lockView (num : Nat) (m : Mach) : lockView (installRing num m) = lockView m := by
  simp +decide [installRing]

@[simp] theorem installPkg_lockView (p : KeyPkg) (c : Cmd) (m : Mach) : lockView (installPkg p c m) = lockView m := by
  simp +decide [installPkg]

@[simp] theorem eraseKeys_lockView (m : Mach) : lockView (eraseKeys m) = lockView m := by
  simp +decide [eraseKeys]

@[simp] theorem rotateRing_lockView (c : Cmd) (m : Mach) : lockView (rotateRing c m) = lockView m := by
  simp [rotateRing]

@[simp] theorem keyRotate_lockView (c : Cmd) (tk : Ticket) (m : Mach) : lockView (keyRotate c tk m).1 = lockView m := by
  simp only [keyRotate]
  (repeat' split) <;> simp

@[simp] theorem keyGraceExpiry_lockView (m : Mach) : lockView (keyGraceExpiry m) = lockView m := by
  unfold keyGraceExpiry
  split <;> simp

@[simp] theorem fwStage_lockView (c : Cmd) (tk : Ticket) (m : Mach) : lockView (fwStage c tk m).1 = lockView m := by
  unfold fwStage
  (repeat' split) <;> simp +decide

@[simp] theorem fwStageDone_lockView (m : Mach) : lockView (fwStageDone m) = lockView m := by
  unfold fwStageDone
  split <;> simp +decide

@[simp] theorem fwCommit_lockView (m : Mach) : lockView (fwCommit m) = lockView m := by
  simp +decide [fwCommit]

@[simp] theorem attestReady_lockView (m : Mach) : lockView (attestReady m) = lockView m := by
  simp +decide [attestReady]

@[simp] theorem debugChallengeRead_lockView (m : Mach) : lockView (debugChallengeRead m) = lockView m := by
  simp [debugChallengeRead]

@[simp] theorem debugResponse_lockView (key : Nat) (ok : Bool) (m : Mach) : lockView (debugResponse key ok m) = lockView m := by
  unfold debugResponse
  split <;> simp +decide

/-! The domain manager. -/

@[simp] theorem showRole_lockView (m : Mach) : lockView (showRole m) = lockView m := by
  simp +decide [showRole]

@[simp] theorem placeSelf_lockView (m : Mach) : lockView (placeSelf m) = lockView m := by
  simp +decide [placeSelf]

@[simp] theorem showRoster_lockView (m : Mach) : lockView (showRoster m) = lockView m := by
  unfold showRoster
  split <;> simp +decide

@[simp] theorem setTrio_lockView (j seat : Nat) (m : Mach) : lockView (setTrio j seat m) = lockView m := by
  simp +decide [setTrio]

@[simp] theorem setActive_lockView (seat : Nat) (m : Mach) : lockView (setActive seat m) = lockView m := by
  simp +decide [setActive]

@[simp] theorem eraseIdentity_lockView (m : Mach) : lockView (eraseIdentity m) = lockView m := by
  simp +decide [eraseIdentity]

@[simp] theorem unknownMember_lockView (ldev p : Nat) (m : Mach) : lockView (unknownMember ldev p m) = lockView m := by
  simp +decide [unknownMember]

@[simp] theorem unbar_lockView (m : Mach) : lockView (unbar m) = lockView m := by
  simp [unbar]

@[simp] theorem judgePeers_lockView (old : Option Roster) (m : Mach) : lockView (judgePeers old m) = lockView m := by
  simp [judgePeers]

@[simp] theorem showCopying_lockView (m : Mach) : lockView (showCopying m) = lockView m := by
  simp +decide [showCopying]

@[simp] theorem startCopy_lockView (idx : Option Nat) (src restarts : Nat) (m : Mach) :
    lockView (startCopy idx src restarts m) = lockView m := by
  simp [startCopy]

@[simp] theorem leaveTrio_lockView (m : Mach) : lockView (leaveTrio m) = lockView m := by
  simp +decide [leaveTrio]

@[simp] theorem fence_lockView (j cause : Nat) (m : Mach) : lockView (fence j cause m) = lockView m := by
  simp +decide [fence]

@[simp] theorem rosterTrio_lockView (old : Option Roster) (m : Mach) : lockView (rosterTrio old m) = lockView m := by
  unfold rosterTrio
  split
  · rfl
  · simp only []
    split
    · simp +decide
    · simp +decide

@[simp] theorem replaceRoster_lockView (r : Roster) (m : Mach) : lockView (replaceRoster r m) = lockView m := by
  simp [replaceRoster]

@[simp] theorem rosterLoad_lockView (c : Cmd) (tk : Ticket) (m : Mach) : lockView (rosterLoad c tk m).1 = lockView m := by
  unfold rosterLoad
  (repeat' split) <;> simp

@[simp] theorem admitSeat_lockView (seat role ldev : Nat) (r : Roster) (m : Mach) :
    lockView (admitSeat seat role ldev r m) = lockView m := by
  simp [admitSeat]

@[simp] theorem admitCore_lockView (own : Bool) (c : Cmd) (m : Mach) : lockView (admitCore own c m).1 = lockView m := by
  simp only [admitCore]
  (repeat' split) <;> simp

@[simp] theorem seatAdmit_lockView (c : Cmd) (tk : Ticket) (m : Mach) : lockView (seatAdmit c tk m).1 = lockView m := by
  unfold seatAdmit
  split <;> simp

@[simp] theorem seatEvict_lockView (c : Cmd) (tk : Ticket) (m : Mach) : lockView (seatEvict c tk m).1 = lockView m := by
  simp only [seatEvict]
  (repeat' split) <;> simp

@[simp] theorem keyPackageReceive_lockView (c : Cmd) (m : Mach) : lockView (keyPackageReceive c m) = lockView m := by
  unfold keyPackageReceive
  (repeat' split) <;> simp

@[simp] theorem installSak_lockView (p an keyNo : Nat) (k : MkIn) (m : Mach) : lockView (installSak p an keyNo k m) = lockView m := by
  simp +decide [installSak]

@[simp] theorem refusePeer_lockView (p : Nat) (k : MkIn) (m : Mach) : lockView (refusePeer p k m) = lockView m := by
  simp +decide [refusePeer]

@[simp] theorem mkpduReceive_lockView (p : Nat) (k : MkIn) (m : Mach) : lockView (mkpduReceive p k m) = lockView m := by
  simp only [mkpduReceive]
  (repeat' split) <;> simp

@[simp] theorem verdictReceive_lockView (p : Nat) (accept : Bool) (m : Mach) : lockView (verdictReceive p accept m) = lockView m := by
  simp [verdictReceive]

@[simp] theorem joinReportReceive_lockView (r : JoinRep) (m : Mach) : lockView (joinReportReceive r m) = lockView m := by
  simp [joinReportReceive]

@[simp] theorem enrolmentReceive_lockView (a b : Nat) (ids : CandIds) (m : Mach) : lockView (enrolmentReceive a b ids m) = lockView m := by
  simp [enrolmentReceive]

@[simp] theorem judgeDissent_lockView (d agreed j : Nat) (m : Mach) : lockView (judgeDissent d agreed j m) = lockView m := by
  unfold judgeDissent
  split <;> simp +decide

@[simp] theorem freeze_lockView (d : Nat) (m : Mach) : lockView (freeze d m) = lockView m := by
  simp only [freeze]
  (repeat' split) <;> simp +decide

@[simp] theorem decideDeal_lockView (d : Nat) (m : Mach) : lockView (decideDeal d m) = lockView m := by
  unfold decideDeal
  split <;> simp +decide

@[simp] theorem judgeReach_lockView (m : Mach) : lockView (judgeReach m) = lockView m := by
  simp only [judgeReach]
  (repeat' split) <;> simp +decide

@[simp] theorem reachTimeout_lockView (j : Nat) (m : Mach) : lockView (reachTimeout j m) = lockView m := by
  simp [reachTimeout]

@[simp] theorem activeChange_lockView (m : Mach) : lockView (activeChange m) = lockView m := by
  simp [activeChange]

@[simp] theorem autonomousEnter_lockView (m : Mach) : lockView (autonomousEnter m) = lockView m := by
  simp +decide [autonomousEnter]

@[simp] theorem judgeScene_lockView (r : DigRec) (m : Mach) : lockView (judgeScene r m) = lockView m := by
  unfold judgeScene
  (repeat' split) <;> simp +decide

@[simp] theorem judgeCopy_lockView (r : DigRec) (m : Mach) : lockView (judgeCopy r m) = lockView m := by
  unfold judgeCopy
  split <;> simp

@[simp] theorem digestReceive_lockView (r : DigRec) (m : Mach) : lockView (digestReceive r m) = lockView m := by
  simp +decide [digestReceive]

@[simp] theorem copyRequest_lockView (seat : Nat) (spare : Bool) (m : Mach) : lockView (copyRequest seat spare m) = lockView m := by
  simp [copyRequest]

@[simp] theorem serveCopy_lockView (m : Mach) : lockView (serveCopy m) = lockView m := by
  simp only [serveCopy]
  (repeat' split) <;> simp

@[simp] theorem sendDigest_lockView (m : Mach) : lockView (sendDigest m) = lockView m := by
  simp [sendDigest]

@[simp] theorem joinCopy_lockView (m : Mach) : lockView (joinCopy m) = lockView m := by
  simp [joinCopy]

@[simp] theorem trioTick_lockView (m : Mach) : lockView (trioTick m) = lockView m := by
  simp [trioTick]

@[simp] theorem copyTimeout_lockView (m : Mach) : lockView (copyTimeout m) = lockView m := by
  unfold copyTimeout
  split <;> simp +decide

@[simp] theorem spareJoin_lockView (m : Mach) : lockView (spareJoin m) = lockView m := by
  unfold spareJoin
  (repeat' split) <;> simp +decide

@[simp] theorem bootDom_lockView (m : Mach) : lockView (bootDom m) = lockView m := by
  unfold bootDom
  split <;> simp

/-! The interval counter. -/

@[simp] theorem setTic_lockView (x : Tic) (m : Mach) : lockView (setTic x m) = lockView m := by
  simp [setTic]

@[simp] theorem ticCapture_lockView (ch coarse fine : Nat) (falling : Bool) (m : Mach) :
    lockView (ticCapture ch coarse fine falling m) = lockView m := by
  simp +decide [ticCapture]

@[simp] theorem ticTick_lockView (m : Mach) : lockView (ticTick m) = lockView m := by
  simp +decide [ticTick]

@[simp] theorem ticEdge_lockView (ch coarse fine : Nat) (falling : Bool) (m : Mach) :
    lockView (ticEdge ch coarse fine falling m) = lockView m := by
  simp [ticEdge]

@[simp] theorem ticAnchor_lockView (coarse fine : Nat) (m : Mach) : lockView (ticAnchor coarse fine m) = lockView m := by
  simp [ticAnchor]

@[simp] theorem ticEvent_lockView (cause coarse : Nat) (m : Mach) : lockView (ticEvent cause coarse m) = lockView m := by
  simp [ticEvent]

@[simp] theorem ticLost_lockView (coarse : Nat) (m : Mach) : lockView (ticLost coarse m) = lockView m := by
  simp +decide [ticLost]

@[simp] theorem ticRelock_lockView (coarse : Nat) (m : Mach) : lockView (ticRelock coarse m) = lockView m := by
  simp +decide [ticRelock]

@[simp] theorem ticEnable_lockView (was : Bool) (m : Mach) : lockView (ticEnable was m) = lockView m := by
  simp +decide [ticEnable]

/-! Register accesses. -/

@[simp] theorem hifCtrlWrite_lockView (v : Nat) (m : Mach) : lockView (hifCtrlWrite v m) = lockView m := by
  simp +decide [hifCtrlWrite]

@[simp] theorem sysResetWrite_lockView (v : Nat) (m : Mach) : lockView (sysResetWrite v m) = lockView m := by
  simp [sysResetWrite]

@[simp] theorem pbootGo_lockView (m : Mach) : lockView (pbootGo m) = lockView m := by
  simp +decide [pbootGo]

@[simp] theorem gclWrite_lockView (v p : Nat) (m : Mach) : lockView (gclWrite v p m) = lockView m := by
  simp [gclWrite]

@[simp] theorem msixWrite_lockView (k v : Nat) (m : Mach) : lockView (msixWrite k v m) = lockView m := by
  simp [msixWrite]

@[simp] theorem msixCtrlWrite_lockView (v : Nat) (m : Mach) : lockView (msixCtrlWrite v m) = lockView m := by
  simp [msixCtrlWrite]

theorem rc_lockFree : ∀ f ∈ fldTable, f.typ = .rc → lockFree f = true := by decide +kernel

theorem fieldsAt_mem {off : Nat} {q : Fld × Nat × Nat} (h : q ∈ fieldsAt off) : q.1 ∈ fldTable := by
  obtain ⟨f, hf, hq⟩ := List.mem_filterMap.mp h
  obtain ⟨p, -, rfl⟩ := Option.map_eq_some_iff.mp hq
  exact hf

/-- What the round of each element of a list keeps, the loop keeps. -/
theorem forEach_lockView_mem {α : Type} (l : List α) (f : α → Mach → Mach) (h : ∀ a ∈ l, ∀ m, lockView (f a m) = lockView m) (m : Mach) :
    lockView (forEach l f m) = lockView m :=
  List.foldlRecOn (motive := fun n => lockView n = lockView m) l (fun n a => f a n) rfl fun n hn a ha => (h a ha n).trans hn

@[simp] theorem readClear_lockView (off : Nat) (m : Mach) : lockView (readClear off m) = lockView m := by
  refine forEach_lockView_mem _ _ (fun q hq n => ?_) m
  obtain ⟨hq, ht⟩ := List.mem_filter.mp hq
  exact wrij_lockView (rc_lockFree _ (fieldsAt_mem hq) (by simpa using ht)) _ _ _ n

@[simp] theorem regRead_lockView (a : RegAddr) (off : Nat) (m : Mach) : lockView (regRead a off m) = lockView m := by
  simp [regRead]

@[simp] theorem cfgWrite_lockView (w : CfgWord) (v : Nat) (m : Mach) : lockView (cfgWrite w v m) = lockView m := by
  rw [cfgWrite_eq, lockView_mk, lockView_fold]

/-! Resets and the boot. -/

@[simp] theorem plannedReset_lockView (cause : Nat) (m : Mach) : lockView (plannedReset cause m) = lockView m := by
  simp [plannedReset]

@[simp] theorem renderResetEff_lockView (c : Cmd) (tk : Ticket) (m : Mach) : lockView (renderResetEff c tk m).1 = lockView m := by
  simp [renderResetEff]

@[simp] theorem seqStart_lockView (m : Mach) : lockView (seqStart m) = lockView m := by
  simp [seqStart]

@[simp] theorem renderResetNow_lockView (m : Mach) : lockView (renderResetNow m) = lockView m := by
  simp [renderResetNow]

@[simp] theorem stepThree_lockView (m : Mach) : lockView (stepThree m) = lockView m := by
  simp [stepThree]

@[simp] theorem storeLost_lockView (m : Mach) : lockView (storeLost m) = lockView m := by
  simp +decide [storeLost]

@[simp] theorem storeCheck_lockView (store : Nat) (m : Mach) : lockView (storeCheck store m) = lockView m := by
  simp +decide [storeCheck]

@[simp] theorem resumeDeckSave_lockView (m : Mach) : lockView (resumeDeckSave m) = lockView m := by
  simp [resumeDeckSave]

@[simp] theorem resumeDeckRestore_lockView (authentic : Nat) (m : Mach) : lockView (resumeDeckRestore authentic m) = lockView m := by
  unfold resumeDeckRestore
  split <;> simp +decide

@[simp] theorem resumeCut_lockView (m : Mach) : lockView (resumeCut m) = lockView m := by
  simp +decide [resumeCut]

/-! Supervision. -/

@[simp] theorem supplyEvent_lockView (rail phase mv : Nat) (m : Mach) : lockView (supplyEvent rail phase mv m) = lockView m := by
  simp [supplyEvent]

@[simp] theorem railBit_lockView (rail : Nat) (ok : Bool) (m : Mach) : lockView (railBit rail ok m) = lockView m := by
  simp +decide [railBit]

@[simp] theorem supplyOut_lockView (rail mv : Nat) (m : Mach) : lockView (supplyOut rail mv m) = lockView m := by
  simp +decide [supplyOut]

@[simp] theorem supplyBack_lockView (rail mv : Nat) (m : Mach) : lockView (supplyBack rail mv m) = lockView m := by
  simp [supplyBack]

@[simp] theorem watchTj_lockView (m : Mach) : lockView (watchTj m) = lockView m := by
  simp +decide [watchTj]

@[simp] theorem thermPin_lockView (m : Mach) : lockView (thermPin m) = lockView m := by
  simp [thermPin]

theorem bandFld_lockFree (b : Nat) : lockFree (bandFld b) = true := by
  unfold bandFld
  (repeat' split) <;> decide

@[simp] theorem countBand_lockView (t : Int) (m : Mach) : lockView (countBand t m) = lockView m := by
  simp +decide [countBand, bandFld_lockFree]

@[simp] theorem tjSample_lockView (t : Int) (m : Mach) : lockView (tjSample t m) = lockView m := by
  simp +decide [tjSample]

@[simp] theorem eccBump_lockView (bank kind : Nat) (m : Mach) : lockView (eccBump bank kind m) = lockView m := by
  simp [eccBump]

@[simp] theorem eccCorrected_lockView (bank : Nat) (m : Mach) : lockView (eccCorrected bank m) = lockView m := by
  simp [eccCorrected]

@[simp] theorem hurtNode_lockView (for_good : Bool) (ix : Nat) (m : Mach) : lockView (hurtNode for_good ix m) = lockView m := by
  unfold hurtNode
  split <;> simp

@[simp] theorem corrStateHit_lockView (set word : Nat) (m : Mach) : lockView (corrStateHit set word m) = lockView m := by
  unfold corrStateHit
  split <;> simp

@[simp] theorem dropQueued_lockView (ident : Nat) (m : Mach) : lockView (dropQueued ident m) = lockView m := by
  simp [dropQueued]

@[simp] theorem streamHit_lockView (role ctx idx : Nat) (chans : List Nat) (m : Mach) :
    lockView (streamHit role ctx idx chans m) = lockView m := by
  simp only [streamHit]
  (repeat' split) <;> simp

@[simp] theorem svcEvent_lockView (core phase : Nat) (m : Mach) : lockView (svcEvent core phase m) = lockView m := by
  simp [svcEvent]

@[simp] theorem svcResync_lockView (k : Nat) (m : Mach) : lockView (svcResync k m) = lockView m := by
  simp +decide [svcResync]

@[simp] theorem gpioTick_lockView (pins : Nat) (m : Mach) : lockView (gpioTick pins m) = lockView m := by
  simp +decide [gpioTick]

/-! The command interpreter. -/

@[simp] theorem latencyResult_lockView (ls : List Leg) (jit ofs : Nat) (m : Mach) :
    lockView (latencyResult ls jit ofs m).1 = lockView m := by
  simp [latencyResult]

@[simp] theorem latencyQuery_lockView (c : Cmd) (tk : Ticket) (m : Mach) : lockView (latencyQuery c tk m).1 = lockView m := by
  unfold latencyQuery
  (repeat' split) <;> simp

@[simp] theorem countersOf_lockView (group i : Nat) (m : Mach) : lockView (countersOf group i m).2 = lockView m := by
  unfold countersOf
  (repeat' split) <;> simp

@[simp] theorem counterQuery_lockView (c : Cmd) (tk : Ticket) (m : Mach) : lockView (counterQuery c tk m).1 = lockView m := by
  simp only [counterQuery]
  (repeat' split) <;> simp

@[simp] theorem eventDropPacket_lockView (c : Cmd) (tk : Ticket) (m : Mach) : lockView (eventDropPacket c tk m).1 = lockView m := by
  unfold eventDropPacket
  split <;> simp

@[simp] theorem watchEq_lockView (e : Nat) (m : Mach) : lockView (watchEq e m) = lockView m := by
  simp [watchEq]

@[simp] theorem rejudgeLevels_lockView (m : Mach) : lockView (rejudgeLevels m) = lockView m := by
  simp [rejudgeLevels]

@[simp] theorem replyTo_lockView (seat tunId st : Nat) (d : Desc) (m : Mach) : lockView (replyTo seat tunId st d m) = lockView m := by
  simp [replyTo]

@[simp] theorem relayStamped_lockView (tunId seq : Nat) (d : Desc) (m : Mach) : lockView (relayStamped tunId seq d m) = lockView m := by
  simp [relayStamped]

@[simp] theorem lateStamped_lockView (op seq eff : Nat) (m : Mach) : lockView (lateStamped op seq eff m) = lockView m := by
  simp +decide [lateStamped]

@[simp] theorem bufferStamped_lockView (seq : Nat) (d : Desc) (m : Mach) : lockView (bufferStamped seq d m) = lockView m := by
  unfold bufferStamped
  split <;> simp

@[simp] theorem reassemblyDiscard_lockView (seat tunId : Nat) (m : Mach) : lockView (reassemblyDiscard seat tunId m) = lockView m := by
  simp [reassemblyDiscard]

@[simp] theorem dropSent_lockView (tunId : Nat) (m : Mach) : lockView (dropSent tunId m) = lockView m := by
  simp [dropSent]

@[simp] theorem setReplies_lockView (tunId : Nat) (a : Option Assembly) (m : Mach) : lockView (setReplies tunId a m) = lockView m := by
  simp [setReplies]

@[simp] theorem tunnelReply_lockView (r : TunnelRep) (m : Mach) : lockView (tunnelReply r m) = lockView m := by
  unfold tunnelReply
  split <;> simp

@[simp] theorem stamperAck_lockView (tunId stamped : Nat) (m : Mach) : lockView (stamperAck tunId stamped m) = lockView m := by
  unfold stamperAck
  split <;> simp

@[simp] theorem tunnelTimeout_lockView (tunId : Nat) (m : Mach) : lockView (tunnelTimeout tunId m) = lockView m := by
  unfold tunnelTimeout
  split <;> simp

@[simp] theorem notePast_lockView (src : Src) (m : Mach) : lockView (notePast src m) = lockView m := by
  unfold notePast
  split <;> simp

/-! The deal boundary. -/

@[simp] theorem tickCuts_lockView (m : Mach) : lockView (tickCuts m) = lockView m := by
  simp [tickCuts]

@[simp] theorem tickEnds_lockView (x : TickIn) (m : Mach) : lockView (tickEnds x m) = lockView m := by
  simp [tickEnds]

end Sys2Proof.Machine
end

section
/-! SYS_LOCK holds (00 R8): what a host's write, a reset, a boot and the application of commands do to the lock and to the RWL fields. -/
namespace Sys2Proof.Machine

/-- Since `s`, SYS_LOCK and the RWL fields are kept in `m`, unless `m` stands in a reset. -/
def LockKept (s m : Mach) : Prop := m.sys.held = none → flag m F.SYS_LOCK_LOCK = true ∧ lockRegs m.regs = lockRegs s.regs

theorem rd_eq_of_lockRegs {m n : Mach} (h : lockRegs m.regs = lockRegs n.regs) {f : Fld} (hf : f ∈ lockFlds) : rd m f = rd n f :=
  List.map_inj_left.mp h f hf

theorem flag_lock_of_lockRegs {m n : Mach} (h : lockRegs m.regs = lockRegs n.regs) : flag m F.SYS_LOCK_LOCK = flag n F.SYS_LOCK_LOCK := by
  simp only [flag, rd_eq_of_lockRegs h (List.mem_cons_self ..)]

namespace LockKept
variable {s m n : Mach}

/-- Equal values keep the lock, and so every machine whose lock is set keeps its own. -/
theorem of_lockRegs (hs : flag s F.SYS_LOCK_LOCK = true) (h : lockRegs m.regs = lockRegs s.regs) : LockKept s m :=
  fun _ => ⟨(flag_lock_of_lockRegs h).trans hs, h⟩

/-- What leaves the view keeps the lock. -/
theorem of_view (h : lockView n = lockView m) (hm : LockKept s m) : LockKept s n := fun hn =>
  have hr : lockRegs n.regs = lockRegs m.regs := congrArg Prod.snd h
  have ⟨hl, hs⟩ := hm ((congrArg Prod.fst h).symm.trans hn)
  ⟨(flag_lock_of_lockRegs hr).trans hl, hr.trans hs⟩

/-- A reset keeps the lock: it leaves the machine held. -/
theorem of_held (h : m.sys.held ≠ none) : LockKept s m := fun hn => absurd hn h

/-- A kept lock that is clear stands in a reset: then what keeps the reset keeps the lock. -/
theorem held_of_unlocked (hm : LockKept s m) (h : ¬ flag m F.SYS_LOCK_LOCK = true) : m.sys.held ≠ none := fun hn => h (hm hn).1

theorem of_held_eq_of_unlocked (hm : LockKept s m) (h : ¬ flag m F.SYS_LOCK_LOCK = true) (hn : n.sys.held = m.sys.held) : LockKept s n :=
  of_held (hn ▸ hm.held_of_unlocked h)

protected theorem ite {c : Prop} [Decidable c] (hm : c → LockKept s m) (hn : ¬ c → LockKept s n) : LockKept s (if c then m else n) := by
  split
  · next h => exact hm h
  · next h => exact hn h

protected theorem onlyIf {b : Bool} {f : Mach → Mach} (hf : LockKept s m → LockKept s (f m)) (hm : LockKept s m) : LockKept s (onlyIf b f m) :=
  .ite (fun _ => hf hm) (fun _ => hm)

protected theorem forEach {α : Type} {l : List α} {f : α → Mach → Mach} (hf : ∀ a ∈ l, ∀ n, LockKept s n → LockKept s (f a n))
    (hm : LockKept s m) : LockKept s (forEach l f m) :=
  List.foldlRecOn (motive := LockKept s) l (fun n a => f a n) hm fun n hn a ha => hf a ha n hn

end LockKept

/-! Writes by the host. -/

section HostWrites
variable {s m : Mach}

theorem lockFlds_keys : ∀ f ∈ lockFlds, ∀ g ∈ lockFlds, g = f ∨ fkey g 0 0 ≠ fkey f 0 0 := by decide +kernel

/-- A field of the view that is written with its own value stays. -/
theorem lockRegs_rsetij_same {f : Fld} (hf : f ∈ lockFlds) {v : Nat} {t : SMap Nat} (hv : v % 2 ^ f.width = rgetij t f 0 0) :
    lockRegs (rsetij f 0 0 v t) = lockRegs t := by
  refine lockRegs_congr fun g hg => ?_
  obtain rfl | hne := lockFlds_keys f hf g hg
  · rw [rgetij_rsetij_self, hv]
  · exact rgetij_rsetij_ne t f g 0 0 0 0 v hne

theorem lockFlds_typ : ∀ f ∈ lockFlds, f = F.SYS_LOCK_LOCK ∨ f.typ = .rwl := by decide +kernel

theorem writeFld_lockView_of_lockFree {f : Fld} (hf : lockFree f = true) (v i j : Nat) (m : Mach) : lockView (writeFld v f i j m) = lockView m := by
  simp only [writeFld]
  (repeat' split) <;> simp [hf]

theorem writeFld_held (v : Nat) (f : Fld) (i j : Nat) (m : Mach) : (writeFld v f i j m).sys.held = m.sys.held := by
  simp only [writeFld]
  (repeat' split) <;> simp only [wrij_sys]

/-- SYS_LOCK is set by a 1 and cleared by nothing that is written. -/
theorem writeFld_lock_locked (hl : flag m F.SYS_LOCK_LOCK = true) (v i j : Nat) :
    lockView (writeFld v F.SYS_LOCK_LOCK i j m) = lockView m := by
  refine Prod.ext rfl ?_
  have h1 : rd m F.SYS_LOCK_LOCK = 1 := by simpa [flag] using hl
  change lockRegs (wrij F.SYS_LOCK_LOCK i j _ m).regs = _
  rw [wrij_regs]
  split
  · next h =>
    obtain ⟨rfl, rfl⟩ : i = 0 ∧ j = 0 := ⟨Nat.lt_one_iff.mp h.1, Nat.lt_one_iff.mp h.2⟩
    refine lockRegs_rsetij_same (List.mem_cons_self ..) ?_
    change (rd m F.SYS_LOCK_LOCK ||| _) % 2 ^ 1 = rd m F.SYS_LOCK_LOCK
    rw [h1]
    exact Nat.or_mod_two_eq_one.mpr (.inl rfl)
  · rfl

/-- The invariant of one field's write: a set lock shuts the RWL fields, and a clear one stands in a reset. -/
theorem writeFld_lockKept {f : Fld} (hf : f ∈ fldTable) (v i j : Nat) (hm : LockKept s m) : LockKept s (writeFld v f i j m) := by
  by_cases hl : flag m F.SYS_LOCK_LOCK = true
  · refine hm.of_view ?_
    obtain h | h := mem_lockFlds_lockFree f hf
    · obtain rfl | ht := lockFlds_typ f h
      · exact writeFld_lock_locked hl v i j
      · rw [writeFld_rwl_locked v m ht hl]
    · exact writeFld_lockView_of_lockFree h v i j m
  · exact hm.of_held_eq_of_unlocked hl (writeFld_held v f i j m)

theorem writeFlds_lockKept (off v : Nat) (hm : LockKept s m) : LockKept s (writeFlds off v m) :=
  .forEach (fun _ hq _ hn => writeFld_lockKept (fieldsAt_mem hq) _ _ _ hn) hm

theorem timCtrlWrite_lockKept (v : Nat) (hm : LockKept s m) : LockKept s (timCtrlWrite v m) := by
  simp only [timCtrlWrite]
  split
  · exact hm.of_view (by simp +decide)
  · next h =>
    refine hm.of_held_eq_of_unlocked (fun hl => h (by simp [hl])) ?_
    exact congrArg Prod.fst (timRestart_lockView _)

theorem portCfgWrite_lockKept (off v p : Nat) (hm : LockKept s m) : LockKept s (portCfgWrite off v p m) := by
  have h1 := writeFlds_lockKept off v hm
  exact .ite (fun _ => hm) fun _ => .ite (fun _ => h1.of_view (enablePort_lockView ..)) fun _ =>
    .ite (fun _ => h1.of_view (linkDown_lockView ..)) fun _ => h1

theorem probeSelWrite_lockKept (v : Nat) (hm : LockKept s m) : LockKept s (probeSelWrite v m) :=
  .ite (fun _ => writeFlds_lockKept _ _ hm) (fun _ => hm)

theorem afterWrite_lockView (off v : Nat) (b m : Mach) : lockView (afterWrite off v b m) = lockView m := by
  unfold afterWrite
  (repeat' split) <;> simp +decide

/-- A word written to BAR0: the registers whose write does more, in the order of `regWrite`, and the plain ones. -/
theorem regWrite_lockKept (off v : Nat) (hm : LockKept s m) : LockKept s (regWrite off v m) := by
  have hfld := writeFlds_lockKept off v hm
  unfold regWrite
  split
  · exact hm.of_view (msixWrite_lockView _ _ m)
  · split
    case h_1 => exact hm.of_view (sysResetWrite_lockView v m)
    case h_2 => exact hm.of_view (by simp)
    case h_3 => exact hm.of_view (hifCtrlWrite_lockView v m)
    case h_4 => exact timCtrlWrite_lockKept v hm
    case h_5 => exact hm.of_view (ringCtrlWrite_lockView _ v m)
    case h_6 => exact .ite (fun _ => hm.of_view (mdioGo_lockView _ m)) (fun _ => hfld)
    case h_11 => exact probeSelWrite_lockKept v hm
    case h_12 => exact .ite (fun _ => hm.of_view (gclWrite_lockView v _ m)) (fun _ => hfld.of_view (afterWrite_lockView ..))
    all_goals exact portCfgWrite_lockKept _ v _ hm

end HostWrites

/-! Resets and the boot. -/

section Resets
variable {s m : Mach}

theorem resetAll_lockKept (cause cnt : Nat) : LockKept s (resetAll cause cnt m) := .of_held (Option.some_ne_none _)

theorem sysReset_lockKept (cause : Nat) : LockKept s (sysReset cause m) := resetAll_lockKept _ _

theorem powerOn_lockKept : LockKept s (powerOn m) := by
  simp only [powerOn]
  exact .ite (fun _ => .of_held (Option.some_ne_none _)) (fun _ => .of_held (Option.some_ne_none _))

theorem extestSelect_lockKept : LockKept s (extestSelect m) := .of_held (Option.some_ne_none _)

theorem resetDue_lockKept (hm : LockKept s m) : LockKept s (resetDue m) := by
  unfold resetDue
  split
  · exact .ite (fun _ => sysReset_lockKept _) (fun _ => hm)
  · split
    · exact .ite (fun _ => hm) fun _ => .ite (fun _ => sysReset_lockKept _) fun _ => hm.of_view (by simp)
    · exact hm

theorem firmwareRuns_lockKept (i : BootImg) (hm : LockKept s m) : LockKept s (firmwareRuns i m) := by
  simp only [firmwareRuns]
  refine .of_view (startInsert_lockView _) (.of_view (seqStart_lockView _) (.of_view rfl (.forEach (fun q _ _ hn => regWrite_lockKept _ _ hn) ?_)))
  exact hm.of_view (by simp +decide)

theorem awaitPcie_lockKept : LockKept s (awaitPcie m) := .of_held (Option.some_ne_none _)

theorem awaitReset_lockKept : LockKept s (awaitReset m) := .of_held (Option.some_ne_none _)

theorem bootSlot_lockKept (k : Nat) (passed : Option Nat) (hm : LockKept s m) : LockKept s (bootSlot k passed m) := by
  simp only [bootSlot]
  split
  · exact hm
  · refine firmwareRuns_lockKept _ (hm.of_view ?_)
    split <;> simp +decide

theorem bootFrom_lockKept (hm : LockKept s m) : LockKept s (bootFrom m) := by
  unfold bootFrom
  split
  · split
    · exact bootSlot_lockKept _ _ hm
    · exact awaitReset_lockKept
  · exact awaitPcie_lockKept
  · split
    · exact bootSlot_lockKept _ _ hm
    · exact awaitPcie_lockKept
  · exact awaitReset_lockKept

/-- The end of a reset releases the machine and leaves the values of the view. -/
theorem bootState_lockView (b : BootIn) (m : Mach) : lockView (bootState b m) = (none, lockRegs m.regs) := by
  simp +decide [bootState]

theorem resetRelease_lockKept (hl : flag m F.SYS_LOCK_LOCK = true) (b : BootIn) : LockKept m (resetRelease b m) :=
  .ite (fun _ => .of_lockRegs hl rfl) (fun _ => bootFrom_lockKept (.of_lockRegs hl (congrArg Prod.snd (bootState_lockView b m))))

theorem pbootImageChecked_lockKept (hl : flag m F.SYS_LOCK_LOCK = true) (i : BootImg) : LockKept m (pbootImageChecked i m) := by
  have hm : LockKept m m := .of_lockRegs hl rfl
  simp only [pbootImageChecked]
  split
  · split
    · refine firmwareRuns_lockKept i (.of_lockRegs hl (congrArg Prod.snd (?_ : lockView _ = (none, lockRegs m.regs))))
      simp +decide
    · exact hm.of_view (by simp +decide)
  · exact hm

theorem eccAct_lockKept (bank word : Nat) (t : EccHit) (hm : LockKept s m) : LockKept s (eccAct bank word t m) := by
  unfold eccAct
  split
  case h_9 => exact sysReset_lockKept _
  all_goals exact hm.of_view (by (repeat' split) <;> simp +decide)

theorem eccUncorrected_lockKept (bank word : Nat) (t : EccHit) (hm : LockKept s m) : LockKept s (eccUncorrected bank word t m) :=
  .ite (fun _ => hm) (fun _ => eccAct_lockKept _ _ _ (hm.of_view (by simp +decide)))

theorem svcDissent_lockKept (k : Nat) (hm : LockKept s m) : LockKept s (svcDissent k m) := by
  simp only [svcDissent]
  refine .ite (fun _ => hm) fun _ => .ite (fun _ => hm.of_view (by simp +decide)) fun _ =>
    .ite (fun _ => hm.of_view (by simp +decide)) fun _ => sysReset_lockKept _

end Resets

/-! The application of commands: by admission, by a poll, over Heivo, at a boundary, and in a copy. -/

section Commands
variable {s m : Mach}

/-- The effect of a host command keeps the lock. -/
def EffKept (eff : Eff) : Prop := ∀ (s : Mach) (c : Cmd) (tk : Ticket) (m : Mach), LockKept s m → LockKept s (eff c tk m).1

theorem EffKept.of_view {eff : Eff} (h : ∀ c tk m, lockView (eff c tk m).1 = lockView m) : EffKept eff :=
  fun _ c tk m hm => hm.of_view (h c tk m)

theorem systemReset_effKept : EffKept systemReset := by
  intro s c tk m hm
  unfold systemReset
  split
  · exact hm.of_view (by simp)
  · exact sysReset_lockKept _
  · exact hm.of_view (by simp)

theorem effOf_kept {op : Nat} {eff : Eff} (h : effOf op = some eff) : EffKept eff := by
  unfold effOf at h
  split at h <;> cases h
  case h_35 => exact systemReset_effKept
  all_goals exact .of_view (by simp)

theorem checked_lockKept (h : Held) {k : Mach → Mach} (hk : ∀ n, LockKept s n → LockKept s (k n)) (hm : LockKept s m) :
    LockKept s (checked h k m) := by
  unfold checked
  (repeat' split)
  · exact hk m hm
  · exact hm.of_view (final_lockView ..)
  · exact hk _ (hm.of_view (installInline_lockView ..))
  · exact hm.of_view (refuseAuth_lockView ..)

section Admission
variable {eff : Eff} (heff : EffKept eff)
include heff

theorem runEff_lockKept (h : Held) (hm : LockKept s m) : LockKept s (runEff eff h m) := by
  have he := heff s h.cmd h.tk m hm
  simp only [runEff]
  split
  · exact he
  · exact he.of_view (finalWith_lockView ..)

theorem applyHeld_lockKept (h : Held) (hm : LockKept s m) : LockKept s (applyHeld eff h m) := by
  unfold applyHeld
  (repeat' split)
  · exact hm.of_view (refuseAuth_lockView ..)
  · exact runEff_lockKept heff h (hm.of_view (recordCounter_lockView ..))
  · exact hm.of_view (refuseAuth_lockView ..)
  · exact runEff_lockKept heff h hm

theorem accept_lockKept (h : Held) (at_ : Nat) (pend : Bool) (hm : LockKept s m) : LockKept s (accept eff h at_ pend m) := by
  refine .ite (fun _ => applyHeld_lockKept heff h hm) fun _ => .ite (fun _ => hm.of_view (final_lockView ..)) fun _ => hm.of_view ?_
  simp

theorem takeHere_lockKept (first : Nat) (h : Held) (hm : LockKept s m) : LockKept s (takeHere eff first h m) :=
  checked_lockKept h (fun _ hn => accept_lockKept heff h _ _ hn) hm

theorem stampOwn_lockKept (h : Held) (hm : LockKept s m) : LockKept s (stampOwn eff h m) := by
  unfold stampOwn
  extract_lets d seq tun _ c here _ tk go
  have hgo : ∀ n, LockKept s n → LockKept s (go n) := fun n hn =>
    .ite (fun _ => accept_lockKept heff _ _ _ (hn.of_view (by simp))) (fun _ => hn.of_view (by simp))
  exact .ite (fun _ => hm.of_view (final_lockView ..)) fun _ => .ite (fun _ => checked_lockKept h hgo hm) fun _ => hgo m hm

theorem sendAway_lockKept (first : Nat) (h : Held) (hm : LockKept s m) : LockKept s (sendAway eff first h m) := by
  have hbad : ∀ st, LockKept s (final h.tk st m) := fun st => hm.of_view (final_lockView ..)
  unfold sendAway
  refine .ite (fun _ => hbad _) fun _ => .ite (fun _ => hbad _) fun _ => .ite (fun _ => ?_) fun _ => hm.of_view ?_
  · exact .ite (fun _ => stampOwn_lockKept heff h hm) fun _ => hm.of_view (by simp)
  · simp

theorem admitCmd_lockKept (op first : Nat) (c : Cmd) (hm : LockKept s m) : LockKept s (admitCmd op eff first c m) := by
  have hbad : ∀ st, LockKept s (final (ticket op first c m) st m) := fun st => hm.of_view (final_lockView ..)
  unfold admitCmd
  exact .ite (fun _ => hbad _) fun _ => .ite (fun _ => hbad _) fun _ => .ite (fun _ => hbad _) fun _ =>
    .ite (fun _ => hm.of_view (refuseAuth_lockView ..)) fun _ => .ite (fun _ => hbad _) fun _ =>
    .ite (fun _ => sendAway_lockKept heff first _ hm) fun _ => takeHere_lockKept heff first _ hm

theorem hostRow_lockKept (op : Nat) (c : Cmd) (hm : LockKept s m) : LockKept s (hostRow op eff c m) :=
  admitCmd_lockKept heff op _ c (hm.of_view (reserve_lockView c m))

theorem stampFor_lockKept (seat tunId : Nat) (d : Desc) (hm : LockKept s m) : LockKept s (stampFor seat tunId eff d m) := by
  unfold stampFor
  extract_lets at_ seq _ c here go tk0
  have hgo : ∀ n, LockKept s n → LockKept s (go n) := fun n hn =>
    .ite (fun _ => accept_lockKept heff _ _ _ (hn.of_view (by simp))) (fun _ => hn.of_view (by simp))
  exact .ite (fun _ => hm.of_view (replyTo_lockView ..)) fun _ => .ite (fun _ => checked_lockKept _ hgo hm) fun _ => hgo m hm

end Admission

theorem judgeDesc_lockKept (q : Nat) (d : Desc) (hm : LockKept s m) : LockKept s (judgeDesc q d m) := by
  simp only [judgeDesc]
  split
  · next h => exact admitCmd_lockKept (effOf_kept h) _ _ _ hm
  · exact hm.of_view (final_lockView ..)

theorem serve_lockKept {judge : Desc → Mach → Mach} (hj : ∀ d n, LockKept s n → LockKept s (judge d n)) (q k : Nat) (ds : List Desc)
    (hm : LockKept s m) : LockKept s (serve judge q k ds m) := by
  induction ds generalizing k m with
  | nil => cases k <;> exact hm
  | cons d ds ih =>
    cases k with
    | zero => exact hm
    | succ k => exact .ite (fun _ => ih k (hj d _ (hm.of_view (takeSlot_lockView q m)))) (fun _ => hm)

theorem serveRing_lockKept {judge : Nat → Desc → Mach → Mach} (hj : ∀ q d n, LockKept s n → LockKept s (judge q d n)) (p : PollIn) (q : Nat)
    (hm : LockKept s m) : LockKept s (serveRing judge p q m) := by
  unfold serveRing
  split
  · exact hm
  · simp only []
    split
    · exact serve_lockKept (hj q) q _ _ (hm.of_view rfl)
    · exact hm.of_view (stopSq_lockView ..)

theorem poll_lockKept (p : PollIn) (hm : LockKept s m) : LockKept s (poll p m) := by
  unfold poll
  extract_lets first _ m0 m1
  have h1 : LockKept s m1 := hm.of_view (by simp [m1, m0])
  have h2 : LockKept s (forEach (List.range 16) (serveRing judgeDesc p) m1) :=
    h1.forEach fun q _ n hn => serveRing_lockKept (fun _ _ _ => judgeDesc_lockKept _ _) p q hn
  exact .ite (fun _ => hm) fun _ => h2.of_view (by simp)

theorem heldRelease_lockKept (hm : LockKept s m) : LockKept s (heldRelease m) := by
  refine .forEach (fun h _ n hn => ?_) (hm.of_view rfl)
  split
  · next he => exact runEff_lockKept (effOf_kept he) h hn
  · exact hn

theorem plainRequest_lockKept (seat tunId : Nat) (d : Desc) (hm : LockKept s m) : LockKept s (plainRequest seat tunId d m) := by
  have hrep : ∀ st, LockKept s (replyTo seat tunId st d m) := fun st => hm.of_view (replyTo_lockView ..)
  unfold plainRequest
  split
  · exact hrep _
  · next eff he =>
    exact .ite (fun _ => hrep _) fun _ => .ite
      (fun _ => .ite (fun _ => stampFor_lockKept (effOf_kept he) _ _ _ hm) fun _ => .ite (fun _ => hrep _) fun _ => hm)
      fun _ => .ite (fun _ => admitCmd_lockKept (effOf_kept he) _ _ _ hm) fun _ => hm

theorem newStamped_lockKept (seat tunId seq : Nat) (d : Desc) (hm : LockKept s m) : LockKept s (newStamped seat tunId seq d m) := by
  unfold newStamped
  extract_lets m1 _ c late src tk m2
  have h1 : LockKept s m1 := hm.of_view (by simp [m1])
  split
  · exact h1
  · next eff he =>
    have h2 : LockKept s m2 := h1.of_view (by simp [m2])
    exact .ite (fun _ => h1) fun _ => .ite (fun _ => h2.of_view (final_lockView ..)) fun _ => .ite (fun _ => h2.of_view (final_lockView ..))
      fun _ => checked_lockKept _ (fun n hn => accept_lockKept (effOf_kept he) _ _ _ hn) h2

theorem wholeRequest_lockKept (r : TunnelReq) (hm : LockKept s m) : LockKept s (wholeRequest r m) := by
  unfold wholeRequest
  extract_lets had _ m1 m2
  have h1 : LockKept s m1 := .ite (fun _ => hm) fun _ => hm.of_view rfl
  have h2 : LockKept s m2 := h1.of_view (bufferStamped_lockView ..)
  exact .ite (fun _ => .ite (fun _ => h1) fun _ => plainRequest_lockKept _ _ _ h1) fun _ =>
    .ite (fun _ => h2) fun _ => newStamped_lockKept _ _ _ _ h2

theorem tunnelRequest_lockKept (r : TunnelReq) (hm : LockKept s m) : LockKept s (tunnelRequest r m) :=
  .ite (fun _ => hm) fun _ => .ite (fun _ => hm.of_view rfl) fun _ => wholeRequest_lockKept r (hm.of_view rfl)

theorem sendWaiting_lockKept (x : Sent) (hm : LockKept s m) : LockKept s (sendWaiting x m) := by
  unfold sendWaiting
  split
  · exact hm
  · next he =>
    exact .ite (fun _ => stampOwn_lockKept (effOf_kept he) _ (hm.of_view (dropSent_lockView ..))) fun _ => .ite (fun _ => hm) fun _ =>
      hm.of_view (by simp)

theorem applyOne_lockKept (h : Held) (hm : LockKept s m) : LockKept s (applyOne h m) := by
  unfold applyOne
  split
  · next he => exact (applyHeld_lockKept (effOf_kept he) h hm).of_view (notePast_lockView ..)
  · exact hm

theorem applyDueIf_lockKept (p : Nat → Bool) (hm : LockKept s m) : LockKept s (applyDueIf p m) :=
  .forEach (fun h _ _ hn => .ite (fun _ => applyOne_lockKept h hn) fun _ => hn) (hm.of_view (setHeld_lockView ..))

theorem replayOne_lockKept (x : Stamped) (hm : LockKept s m) : LockKept s (replayOne x m) := by
  unfold replayOne
  extract_lets tk
  split
  · next he => exact (LockKept.onlyIf (runEff_lockKept (effOf_kept he) _) hm).of_view (notePast_lockView ..)
  · exact hm

theorem loadSnap_lockKept (f : SnapIn) (c : Copy) (hm : LockKept s m) : LockKept s (loadSnap f c m) := by
  unfold loadSnap
  extract_lets now objs _ m1 step
  have hstep : ∀ k n, LockKept s n → LockKept s (step k n) := fun k n hn =>
    .of_view (evalScene_lockView _) (.forEach (fun x _ _ hx => replayOne_lockKept x hx) (hn.of_view rfl))
  exact .of_view rfl (.forEach (l := List.range (now - f.deal)) (fun k _ n hn => hstep k n hn) (hm.of_view (n := m1) (by simp [m1])))

theorem snapshotReceive_lockKept (f : SnapIn) (hm : LockKept s m) : LockKept s (snapshotReceive f m) := by
  unfold snapshotReceive
  split
  · exact hm
  · exact .ite (fun _ => hm) fun _ => .ite (fun _ => hm.of_view (setDom_lockView ..)) fun _ => loadSnap_lockKept f _ hm

theorem tickBegins_lockKept (x : TickIn) (hm : LockKept s m) : LockKept s (tickBegins x m) := by
  unfold tickBegins
  extract_lets m1 m2 _
  have h2 : LockKept s m2 := hm.of_view (by simp [m2, m1])
  exact resetDue_lockKept (h2.of_view (by simp))

theorem dealTick_lockKept (x : TickIn) (hm : LockKept s m) : LockKept s (dealTick x m) := by
  unfold dealTick
  extract_lets same m1 m2
  have h1 : LockKept s m1 := tickBegins_lockKept x hm
  have h2 : LockKept s m2 := .of_view (selectRef_lockView _) (applyDueIf_lockKept _
    (.forEach (fun y _ _ hn => sendWaiting_lockKept y hn) h1))
  exact .ite (fun _ => h1) fun _ => .ite (fun _ => h2) fun _ =>
    .of_view (tickEnds_lockView ..) (applyDueIf_lockKept _ (h2.of_view (by simp)))

end Commands

/-! One command of the block. -/

section Steps
variable {s t : State}

theorem onMach_lockKept {f : Mach → Mach} (hf : LockKept s.m s.m → LockKept s.m (f s.m)) (hs : LockKept s.m s.m)
    (h : onMach f s = .next t) : LockKept s.m t.m := by
  cases h
  exact .ite (fun _ => hs) fun _ => hf hs

theorem onBus_lockKept {boot : Bool} {f : Mach → Mach} (hf : LockKept s.m s.m → LockKept s.m (f s.m)) (hs : LockKept s.m s.m)
    (h : onBus boot f s = .next t) : LockKept s.m t.m := by
  cases h
  exact .ite (fun _ => hf hs) fun _ => hs

theorem onPins_lockKept {f : Mach → Mach} (hf : LockKept s.m (f s.m)) (h : onPins f s = .next t) : LockKept s.m t.m := by
  cases h
  exact hf

theorem onMach_lockKept_of_view {f : Mach → Mach} (hf : lockView (f s.m) = lockView s.m) (hs : LockKept s.m s.m)
    (h : onMach f s = .next t) : LockKept s.m t.m := onMach_lockKept (.of_view hf) hs h

theorem hostCommand_lockKept {op : Nat} {eff : Eff} {c : Cmd} (he : effOf op = some eff) (hs : LockKept s.m s.m)
    (h : onMach (hostRow op eff c) s = .next t) : LockKept s.m t.m := onMach_lockKept (hostRow_lockKept (effOf_kept he) op c) hs h


/-- A host command whose application is followed by what leaves the view. -/
theorem hostCommand_then_lockKept {op : Nat} {eff : Eff} {c : Cmd} {g : Mach → Mach} (he : effOf op = some eff)
    (hg : ∀ n, lockView (g n) = lockView n) (hs : LockKept s.m s.m) (h : onMach (fun m => g (hostRow op eff c m)) s = .next t) :
    LockKept s.m t.m :=
  onMach_lockKept (f := fun m => g (hostRow op eff c m)) (fun hm => .of_view (hg _) (hostRow_lockKept (effOf_kept he) op c hm)) hs h

theorem registerWrite_lockKept (a : RegAddr) (v : Word) (hs : LockKept s.m s.m) (h : exec (.registerWrite a v) s = .next t) :
    LockKept s.m t.m := by
  cases a with
  | msixCtrl => exact onBus_lockKept (.of_view (msixCtrlWrite_lockView ..)) hs h
  | cfg w => exact onBus_lockKept (.of_view (cfgWrite_lockView ..)) hs h
  | bar off =>
    change (if _ then _ else if _ then _ else _) = _ at h
    split at h
    · cases h
    · split at h
      · cases h
      · exact onBus_lockKept (regWrite_lockKept off _) hs h

theorem rcRead_lockKept (a : RegAddr) (hs : LockKept s.m s.m) (h : exec (.rcRead a) s = .next t) : LockKept s.m t.m := by
  cases a with
  | msixCtrl => exact onBus_lockKept (.of_view (emit_lockView ..)) hs h
  | cfg w => exact onBus_lockKept (.of_view (emit_lockView ..)) hs h
  | bar off =>
    change (if _ then _ else if _ then _ else _) = _ at h
    split at h
    · cases h
    · split at h
      · cases h
      · exact onBus_lockKept (.of_view (regRead_lockView ..)) hs h

/-- Every command keeps the lock: the rows that write registers, reset, boot or apply commands have their lemmas above, and the others
leave the view. -/
theorem exec_lockKept (c : Instr) (hl : flag s.m F.SYS_LOCK_LOCK = true) (h : exec c s = .next t) : LockKept s.m t.m := by
  have hs : LockKept s.m s.m := .of_lockRegs hl rfl
  cases c
  case registerWrite a v => exact registerWrite_lockKept a v hs h
  case rcRead a => exact rcRead_lockKept a hs h
  case timModeWrite v => exact onMach_lockKept (timCtrlWrite_lockKept _) hs h
  case sysLock v => exact onMach_lockKept (regWrite_lockKept _ _) hs h
  case secAttest v => exact onMach_lockKept (regWrite_lockKept _ _) hs h
  case gpioOutSet v => exact onMach_lockKept (regWrite_lockKept _ _) hs h
  case gpioOutClr v => exact onMach_lockKept (regWrite_lockKept _ _) hs h
  case sysPbootGo v => exact onBus_lockKept (regWrite_lockKept _ _) hs h
  case powerOn => exact onPins_lockKept powerOn_lockKept h
  case resetNAssert => exact onPins_lockKept (sysReset_lockKept _) h
  case pwrgoodFall => exact onPins_lockKept (sysReset_lockKept _) h
  case extestSelect => exact onPins_lockKept extestSelect_lockKept h
  case extestRelease => exact onPins_lockKept (f := fun m => { m with sys := { m.sys with extest := false } }) (hs.of_view rfl) h
  case resetRelease b => exact onPins_lockKept (resetRelease_lockKept hl b) h
  case pbootImageChecked i => exact onPins_lockKept (pbootImageChecked_lockKept hl i) h
  case kolicaFault => exact onMach_lockKept (f := fun m => sysReset 5 (unitLost 5 m)) (fun _ => sysReset_lockKept _) hs h
  case leaveDrivesDrop =>
    exact onMach_lockKept (f := fun m => resetDue (leaveDrop m)) (fun hm => resetDue_lockKept (hm.of_view (leaveDrop_lockView _))) hs h
  case eccUncorrected b w x => exact onMach_lockKept (eccUncorrected_lockKept b w x) hs h
  case svcCoreDissent k => exact onMach_lockKept (svcDissent_lockKept k) hs h
  case doorbellPoll p => exact onMach_lockKept (poll_lockKept p) hs h
  case heldCommandRelease => exact onMach_lockKept heldRelease_lockKept hs h
  case tunnelRequestReceive r => exact onMach_lockKept (tunnelRequest_lockKept r) hs h
  case snapshotReceive f => exact onMach_lockKept (snapshotReceive_lockKept f) hs h
  case dealTick x => exact onMach_lockKept (dealTick_lockKept x) hs h
  case deckCut c => exact hostCommand_then_lockKept (op := 0x0102) (g := stepThree) rfl stepThree_lockView hs h
  case renderReset c => exact hostCommand_then_lockKept (op := 0x0E01) (g := stepThree) rfl stepThree_lockView hs h
  case refConfig c => exact hostCommand_then_lockKept (op := 0x0601) (g := selectRef) rfl selectRef_lockView hs h
  case deckStage c | spkLoad c | corrLoad c | deckDigest c | trajPush c | trajClear c | objSet c | measureRun c | streamOpen c | streamClose c
    | chmapWrite c | portStartGroup c | portStop c | rampLoad c | clipWrite c | msgDefine c | schedWrite c | annPlay c | annStop c | trumpClear c
    | icomConnect c | powerTolerance c | latencyQuery c | counterQuery c | timeQuery c | eventDropPacket c | rosterLoad c | seatAdmit c
    | seatEvict c | keyRotate c | fwStage c | systemReset c => exact hostCommand_lockKept rfl hs h
  all_goals exact onMach_lockKept_of_view (by simp) hs h

end Steps

theorem lockFlds_of_rwl : ∀ f ∈ fldTable, f.typ = .rwl → f ∈ lockFlds := by decide +kernel
theorem lockFlds_single : ∀ f ∈ lockFlds, f.n1 = 1 ∧ f.n2 = 1 := by decide +kernel

/-- Settles O58: the first clause is the equation of the access, the second the invariant `LockKept` of one command. -/
theorem sysLockHolds : Obligations.SysLockHolds := by
  refine ⟨fun off v s ha ho => ?_, fun c s t h hl hn => ?_⟩
  · exact ⟨_, exec_registerWrite_bar ha ho v s⟩
  · obtain ⟨hf, hr⟩ := exec_lockKept c hl h hn
    refine ⟨hf, fun f hft ht i j hi hj => ?_⟩
    have hm := lockFlds_of_rwl f hft ht
    obtain ⟨h1, h2⟩ := lockFlds_single f hm
    obtain ⟨rfl, rfl⟩ : i = 0 ∧ j = 0 := by omega
    exact rd_eq_of_lockRegs hr hm

end Sys2Proof.Machine
end

section
/-! Which parts of the machine the shared operations of the ring and of the alerts keep: registers, components, and all that decides where an
event goes. -/
namespace Sys2Proof.Machine

/-! Register fields. -/

section Fields
variable {f g : Fld} {k l : Nat}

theorem rdij_wr_ne (v : Nat) (m : Mach) (h : fkey g k l ≠ fkey f 0 0) : rdij (wr f v m) g k l = rdij m g k l :=
  rgetij_rsetij_ne _ _ _ _ _ _ _ _ h

theorem rdij_wri_ne (p v : Nat) (m : Mach) (h : p < f.n1 → fkey g k l ≠ fkey f p 0) : rdij (wri f p v m) g k l = rdij m g k l := by
  unfold rdij wri
  split
  case isTrue hp => exact rgetij_rsetij_ne _ _ _ _ _ _ _ _ (h hp)
  case isFalse => rfl

theorem rdij_raise (src code : Nat) (pay : Pay) (m : Mach) (h : fkey g k l ≠ fkey F.HIF_EV_DISCARD_COUNT 0 0) :
    rdij (raise src code pay m) g k l = rdij m g k l := rgetij_raise src code pay m g k l h

theorem rd_bumpi_ne (p n : Nat) (m : Mach) (h : ∀ p < f.n1, fkey g 0 0 ≠ fkey f p 0) : rd (bumpi f p n m) g = rd m g := by
  unfold rd bumpi
  split
  case isTrue hp => exact rgetij_rsetij_ne _ _ _ _ _ _ _ _ (h p hp)
  case isFalse => rfl

@[simp] theorem alertPin_regs (m : Mach) : (alertPin m).regs = m.regs := by
  simp only [alertPin]
  split <;> rfl

@[simp] theorem alertPin_ring (m : Mach) : (alertPin m).ring = m.ring := by
  simp only [alertPin]
  split <;> rfl

@[simp] theorem alertPin_ecc (m : Mach) : (alertPin m).sys.ecc = m.sys.ecc := by
  simp only [alertPin]
  split <;> rfl

theorem alertPin_out (m : Mach) : ∃ l, (alertPin m).out = l ++ m.out := by
  simp only [alertPin]
  split
  · exact ⟨[], rfl⟩
  · exact ⟨[_], rfl⟩

theorem rd_alert_self (m : Mach) : rd (alert f m) f = 1 % 2 ^ f.width := by
  rw [alert, rd_congr _ _ _ (alertPin_regs _), rd_wr_self]

theorem rd_alert_ne (m : Mach) (h : fkey g 0 0 ≠ fkey f 0 0) : rd (alert f m) g = rd m g := by
  rw [alert, rd_congr _ _ _ (alertPin_regs _), rd_wr_ne _ _ _ _ h]

@[simp] theorem alert_ring (m : Mach) : (alert f m).ring = m.ring := alertPin_ring _
@[simp] theorem alert_ecc (m : Mach) : (alert f m).sys.ecc = m.sys.ecc := alertPin_ecc _

end Fields

/-! Events: an event is reported as long as the interface runs and its latched set-up, which routes it, stays; what was written before it stays
in the output. -/

/-- What decides where an event goes is the same in two machines, and the second has only added to the output. -/
structure EventsKept (m n : Mach) : Prop where
  running : running n = running m
  lat : n.hif.lat = m.hif.lat
  out : ∃ l, n.out = l ++ m.out

section Events
variable {m n q : Mach} {src code : Nat} {pay : Pay}

theorem EventsKept.of_eq (hr : n.regs = m.regs) (hl : n.hif.lat = m.hif.lat) (ho : n.out = m.out) : EventsKept m n :=
  ⟨running_congr _ _ hr, hl, [], ho⟩

theorem EventsKept.trans (h1 : EventsKept m n) (h2 : EventsKept n q) : EventsKept m q := by
  obtain ⟨r1, t1, l1, o1⟩ := h1
  obtain ⟨r2, t2, l2, o2⟩ := h2
  exact ⟨r2.trans r1, t2.trans t1, l2 ++ l1, by rw [o2, o1, List.append_assoc]⟩

theorem eventsKept_refl (m : Mach) : EventsKept m m := .of_eq rfl rfl rfl

theorem eventsKept_setRing (x : RingSt) (m : Mach) : EventsKept m (setRing x m) := .of_eq rfl rfl rfl

theorem eventsKept_onlyIf (b : Bool) {f : Mach → Mach} (h : EventsKept m (f m)) : EventsKept m (onlyIf b f m) := by
  cases b
  · exact eventsKept_refl m
  · exact h

theorem eventsKept_wr {f : Fld} (v : Nat) (m : Mach) (h : fkey F.HIF_STATUS_RUNNING 0 0 ≠ fkey f 0 0) : EventsKept m (wr f v m) :=
  ⟨by simp only [running, rd_wr_ne _ _ _ _ h], rfl, [], rfl⟩

theorem eventsKept_bump {f : Fld} (v : Nat) (m : Mach) (h : fkey F.HIF_STATUS_RUNNING 0 0 ≠ fkey f 0 0) : EventsKept m (bump f v m) :=
  ⟨by simp only [running, rd_bump_ne _ _ _ _ h], rfl, [], rfl⟩

theorem eventsKept_bumpi {f : Fld} (p v : Nat) (m : Mach) (h : ∀ p < f.n1, fkey F.HIF_STATUS_RUNNING 0 0 ≠ fkey f p 0) :
    EventsKept m (bumpi f p v m) :=
  ⟨by simp only [running, rd_bumpi_ne _ _ _ h], rfl, [], rfl⟩

theorem eventsKept_raise (src code : Nat) (pay : Pay) (m : Mach) : EventsKept m (raise src code pay m) :=
  ⟨running_raise .., raise_lat .., raise_out ..⟩

theorem eventsKept_alertPin (m : Mach) : EventsKept m (alertPin m) := by
  refine ⟨running_congr _ _ (alertPin_regs m), ?_, alertPin_out m⟩
  simp only [alertPin]
  split <;> rfl

theorem eventsKept_alert {f : Fld} (m : Mach) (h : fkey F.HIF_STATUS_RUNNING 0 0 ≠ fkey f 0 0) : EventsKept m (alert f m) :=
  (eventsKept_wr 1 m h).trans (eventsKept_alertPin _)

/-- What is reported after changes that keep its route is reported since before them. -/
theorem reported_since (h : EventsKept m n) (hn : Reported src code n q) : Reported src code m q := by
  obtain ⟨hr, hl, l, ho⟩ := h
  intro hm he
  have hsize : eqSize n.hif (evRing src n.hif) ≠ 0 := by simpa only [eqSize, evRing, hlat, hl] using he
  obtain ⟨ring, idx, r, ⟨k, hk, hmem⟩, hc⟩ := hn (hr.trans hm) hsize
  exact ⟨ring, idx, r, ⟨k ++ l, by rw [hk, ho, List.append_assoc], List.mem_append_left _ hmem⟩, hc⟩

/-- An event that is raised after changes which keep its route is reported. -/
theorem EventsKept.reported (h : EventsKept m n) : Reported src code m (raise src code pay n) := reported_since h (raise_reported src code pay n)

end Events

/-! Frames that leave a port, the statuses they carry, and a link that goes down: whatever the few changes that they are made of keep, they keep. -/

/-- What the changes keep of which a frame that leaves a port is made. -/
structure SendKeeps {β : Type} (g : Mach → β) : Prop where
  ring : ∀ x n, g (setRing x n) = g n
  emit : ∀ o n, g (emit o n) = g n
  raise : ∀ src code pay n, g (raise src code pay n) = g n
  tok : ∀ p v n, g (setTok p v n) = g n
  low : ∀ v n, g (wr F.RING_FLAGS_TOKEN_LOW v n) = g n

/-- The fields of the ports that a link shows. -/
def linkFlds : List Fld := [F.RING_STATE_LINK_A, F.RING_STATE_SECURE_A, F.RING_STATE_LINK_B, F.RING_STATE_SECURE_B, F.RING_NBR_NBR_A,
  F.RING_NBR_NBR_B, F.RING_STATE_MARK_A, F.RING_STATE_MARK_B]

/-- The fields of each port that a link shows. -/
def linkPortFlds : List Fld := [F.RING_PORT_STAT_LINK, F.RING_PORT_STAT_SECURE, F.RING_PORT_STAT_AN]

/-- What the changes keep of which the loss of port p's link is made. -/
structure LinkKeeps {β : Type} (g : Mach → β) (p : Nat) : Prop extends SendKeeps g where
  wr : ∀ f ∈ linkFlds, ∀ v n, g (wr f v n) = g n
  wri : ∀ f ∈ linkPortFlds, ∀ v n, g (wri f p v n) = g n

/-- A place that neither an event nor a frame that leaves a port writes. -/
def sendFree (k : Nat) : Bool :=
  k != fkey F.HIF_EV_DISCARD_COUNT 0 0 && k != fkey F.RING_FLAGS_TOKEN_LOW 0 0 &&
    decide (∀ p < F.RING_TOK_FREE_FREE.n1, k ≠ fkey F.RING_TOK_FREE_FREE p 0)

/-- A place that the loss of port p's link does not write either. -/
def linkFree (p k : Nat) : Bool :=
  sendFree k && linkFlds.all (fun f => k != fkey f 0 0) && linkPortFlds.all (fun f => k != fkey f p 0)

theorem sendKeeps_rdij {f : Fld} {k l : Nat} (h : sendFree (fkey f k l) = true) : SendKeeps (fun m => rdij m f k l) := by
  simp only [sendFree, Bool.and_eq_true, bne_iff_ne, decide_eq_true_eq] at h
  obtain ⟨⟨hev, hlow⟩, htok⟩ := h
  exact ⟨fun _ _ => rfl, fun _ _ => rfl, fun _ _ _ n => rdij_raise _ _ _ n hev, fun p v n => rdij_wri_ne p v n (htok p),
    fun v n => rdij_wr_ne v n hlow⟩

theorem linkKeeps_rdij {f : Fld} {p k l : Nat} (h : linkFree p (fkey f k l) = true) : LinkKeeps (fun m => rdij m f k l) p := by
  simp only [linkFree, Bool.and_eq_true, List.all_eq_true, bne_iff_ne] at h
  obtain ⟨⟨hsend, hwr⟩, hwri⟩ := h
  exact ⟨sendKeeps_rdij hsend, fun q hq v n => rdij_wr_ne v n (hwr q hq), fun q hq v n => rdij_wri_ne p v n fun _ => hwri q hq⟩

theorem linkKeeps_pwr (p : Nat) : LinkKeeps (·.pwr) p :=
  ⟨⟨fun _ _ => rfl, fun _ _ => rfl, fun _ _ _ _ => rfl, fun _ _ _ => rfl, fun _ _ => rfl⟩, fun _ _ _ _ => rfl, fun _ _ _ _ => rfl⟩

section Sends
variable {β : Type} {g : Mach → β} {p : Nat} {m : Mach}

theorem count_keep (hg : SendKeeps g) (id n : Nat) : g (count p id n m) = g m := hg.ring _ _
theorem setPort_keep (hg : SendKeeps g) (x : Port) : g (setPort p x m) = g m := hg.ring _ _
theorem setEgress_keep (hg : SendKeeps g) (x : Egress) : g (setEgress p x m) = g m := hg.ring _ _

theorem startFrame_keep (hg : SendKeeps g) (now : Nat) (f : QFrame) : g (startFrame p now f m) = g m := by
  rw [startFrame, hg.emit, count_keep hg, count_keep hg, setEgress_keep hg, setPort_keep hg]

theorem pickFrame_keep (hg : SendKeeps g) (now : Nat) : g (pickFrame p now m) = g m := by
  simp only [pickFrame]
  split
  · rfl
  · split
    · rfl
    · rw [startFrame_keep hg, setEgress_keep hg]

theorem enqueue_keep (hg : SendKeeps g) (f : QFrame) : g (enqueue p f m) = g m := by
  simp only [enqueue]
  split
  · rw [count_keep hg, setEgress_keep hg]
  · rw [onlyIf_keep g _ _ _ (by rw [hg.raise, hg.low]), onlyIf_keep g _ _ _ (count_keep hg ..), count_keep hg, hg.tok, setEgress_keep hg]

theorem toEgress_keep (hg : SendKeeps g) (now : Nat) (cut : Bool) (f : QFrame) : g (toEgress p now cut f m) = g m := by
  have hm : g (pickFrame p now (advanceCredit p now m)) = g m := (pickFrame_keep hg now).trans (setEgress_keep hg _)
  simp only [toEgress]
  split
  · rw [onlyIf_keep g _ _ _ (count_keep hg ..), startFrame_keep hg, hm]
  · rw [onlyIf_keep g _ _ _ (count_keep hg ..), enqueue_keep hg, hm]

theorem ownFrame_keep (hg : SendKeeps g) (tc len : Nat) (tag : Option RingTag) : g (ownFrame p tc len tag m) = g m := by
  unfold ownFrame
  split
  · exact count_keep hg ..
  · exact toEgress_keep hg ..

theorem sendHeivo_keep (hg : SendKeeps g) (sub : Nat) (tag : Option RingTag) (pay : Pay) : g (sendHeivo p sub tag pay m) = g m := by
  rw [sendHeivo, ownFrame_keep hg, onlyIf_keep g _ _ _ (hg.emit _ _)]

theorem sendBoth_keep (hg : SendKeeps g) (sub : Nat) (pay : Pay) : g (sendBoth sub pay m) = g m := by
  rw [sendBoth, sendHeivo_keep hg, sendHeivo_keep hg]

theorem floodStatus_keep (hg : SendKeeps g) (x : RingStatus) : g (floodStatus x m) = g m := by
  rw [floodStatus, hg.ring, sendBoth_keep hg]

theorem detectFault_keep (hg : SendKeeps g) (cause : Nat) : g (detectFault p cause m) = g m := by
  simp only [detectFault]
  split
  · exact floodStatus_keep hg _
  · rfl

theorem showLink_keep (hw : ∀ f ∈ linkFlds, ∀ v n, g (wr f v n) = g n) (hi : ∀ f ∈ linkPortFlds, ∀ v n, g (wri f p v n) = g n)
    (link sec : Nat) : g (showLink p link sec m) = g m := by
  have hm : g (wri F.RING_PORT_STAT_LINK p link (wri F.RING_PORT_STAT_SECURE p sec m)) = g m := by
    rw [hi _ (by decide), hi _ (by decide)]
  simp only [showLink]
  split
  · rw [hw _ (by decide), hw _ (by decide), hm]
  · split
    · rw [hw _ (by decide), hw _ (by decide), hm]
    · exact hm

theorem showNbr_keep (hw : ∀ f ∈ linkFlds, ∀ v n, g (wr f v n) = g n) (peer : Nat) : g (showNbr p peer m) = g m := by
  unfold showNbr
  split
  · exact hw _ (by decide) _ _
  · split
    · exact hw _ (by decide) _ _
    · rfl

theorem showMark_keep (hw : ∀ f ∈ linkFlds, ∀ v n, g (wr f v n) = g n) (b : Nat) : g (showMark p b m) = g m := by
  unfold showMark
  split
  · exact hw _ (by decide) _ _
  · split
    · exact hw _ (by decide) _ _
    · rfl

theorem showLink_ring (link sec : Nat) : (showLink p link sec m).ring = m.ring :=
  showLink_keep (g := (·.ring)) (fun _ _ _ _ => rfl) (fun _ _ _ _ => rfl) link sec
theorem showNbr_ring (peer : Nat) : (showNbr p peer m).ring = m.ring := showNbr_keep (g := (·.ring)) (fun _ _ _ _ => rfl) peer
theorem showMark_ring (b : Nat) : (showMark p b m).ring = m.ring := showMark_keep (g := (·.ring)) (fun _ _ _ _ => rfl) b

theorem dropSa_keep (hg : LinkKeeps g p) : g (dropSa p m) = g m := by
  rw [dropSa, showNbr_keep hg.wr, hg.wri _ (by decide), showLink_keep hg.wr hg.wri, setPort_keep hg.toSendKeeps]

theorem linkDown_keep (hg : LinkKeeps g p) (cause : Nat) : g (linkDown p cause m) = g m := by
  unfold linkDown
  split
  · rw [detectFault_keep hg.toSendKeeps, showMark_keep hg.wr, showLink_keep hg.wr hg.wri, dropSa_keep hg, count_keep hg.toSendKeeps, linkEvent,
      hg.raise, onlyIf_keep g _ _ _ (count_keep hg.toSendKeeps ..), setPort_keep hg.toSendKeeps]
  · rfl

end Sends

/-! The insertion state and the drives. -/

section Insertion
variable {g : Fld} (m : Mach)

theorem rd_setRing (x : RingSt) : rd (setRing x m) g = rd m g := rfl

theorem setIns_ring (new cause : Nat) : (setIns new cause m).ring =
    { m.ring with since := m.ticks, loopOk := false, leftIns := if new = 6 then rd m F.RING_STATE_INS else m.ring.leftIns } := rfl

theorem rd_setIns_self (new cause : Nat) : rd (setIns new cause m) F.RING_STATE_INS = new % 2 ^ 3 := by
  rw [setIns, rd_raise _ _ _ _ _ (by decide), rd_wr_self]
  rfl

theorem rd_setIns_ne (new cause : Nat) (hins : fkey g 0 0 ≠ fkey F.RING_STATE_INS 0 0) (hev : fkey g 0 0 ≠ fkey F.HIF_EV_DISCARD_COUNT 0 0) :
    rd (setIns new cause m) g = rd m g := by
  rw [setIns, rd_raise _ _ _ _ _ hev, rd_wr_ne _ _ _ _ hins]
  rfl

theorem eventsKept_setIns (new cause : Nat) : EventsKept m (setIns new cause m) :=
  (eventsKept_setRing _ m).trans ((eventsKept_wr (f := F.RING_STATE_INS) new _ (by decide)).trans (eventsKept_raise ..))

theorem drivesLow_ring : (drivesLow m).ring = { m.ring with bypA := false, bypB := false } := by
  rw [drivesLow, onlyIf_keep (·.ring) _ _ _ rfl]
  rfl

theorem rd_drivesLow (h : fkey g 0 0 ≠ fkey F.RING_FLAGS_BYPASSED 0 0) : rd (drivesLow m) g = rd m g :=
  onlyIf_keep (fun n => rd n g) _ _ _ (rd_wr_ne _ _ _ _ h)

theorem eventsKept_drivesLow : EventsKept m (drivesLow m) :=
  (eventsKept_setRing _ m).trans (eventsKept_onlyIf _ (eventsKept_wr (f := F.RING_FLAGS_BYPASSED) 1 _ (by decide)))

end Insertion

/-! Bits, and the loss of a unit of the pass-through set. -/

theorem testBit_setBit_self (n k : Nat) : (setBit n k).testBit k = true := by
  unfold setBit
  split
  case isTrue h => exact h
  case isFalse h =>
    rw [Nat.add_comm, Nat.testBit_two_pow_add_eq]
    simpa using h

theorem testBit_clrBit_self (n k : Nat) : (clrBit n k).testBit k = false := by
  unfold clrBit
  split
  case isTrue h =>
    have hsum : 2 ^ k + (n - 2 ^ k) = n := Nat.add_sub_cancel' (Nat.ge_two_pow_of_testBit h)
    have hflip := Nat.testBit_two_pow_add_eq (n - 2 ^ k) k
    rw [hsum, h] at hflip
    simpa using hflip
  case isFalse h => simpa using h

section UnitLost
variable {g : Fld} (unit : Nat) {m : Mach}

/-- The machine with a unit of the pass-through set lost. -/
def markLost (m : Mach) : Mach := setRing { m.ring with unitLost := setBit m.ring.unitLost unit } m

/-- An inserted device with a unit lost, bypassed. -/
def bypassLost (m : Mach) : Mach := setIns 0 3 (drivesLow (markLost unit m))

theorem unitLost_bypassed (h : rd m F.RING_STATE_INS = 0) : unitLost unit m = markLost unit m := if_pos h

theorem unitLost_inserted (h : rd m F.RING_STATE_INS ≠ 0) : unitLost unit m =
    alert F.DIAG_ALERT_FLAGS_BYPASS (setRing { (bypassLost unit m).ring with failAt := some m.ticks, leaveAt := none } (bypassLost unit m)) :=
  if_neg h

theorem bypassLost_drives (m : Mach) : (bypassLost unit m).ring.bypA = false ∧ (bypassLost unit m).ring.bypB = false ∧
    (bypassLost unit m).ring.unitLost = setBit m.ring.unitLost unit := by
  rw [bypassLost, setIns_ring, drivesLow_ring]
  exact ⟨rfl, rfl, rfl⟩

theorem unitLost_marks (m : Mach) : (unitLost unit m).ring.unitLost.testBit unit = true := by
  by_cases h : rd m F.RING_STATE_INS = 0
  · rw [unitLost_bypassed unit h]
    exact testBit_setBit_self ..
  · obtain ⟨-, -, hunit⟩ := bypassLost_drives unit m
    rw [unitLost_inserted unit h, alert_ring, setRing_ring, hunit, testBit_setBit_self]

/-- The loss of a unit drops the drives of an inserted device at once and bypasses it (01 R22). -/
theorem unitLost_bypasses (h : rd m F.RING_STATE_INS ≠ 0) : (unitLost unit m).ring.bypA = false ∧ (unitLost unit m).ring.bypB = false ∧
    rd (unitLost unit m) F.RING_STATE_INS = 0 ∧ (unitLost unit m).ring.unitLost.testBit unit = true ∧
    rd (unitLost unit m) F.DIAG_ALERT_FLAGS_BYPASS = 1 := by
  obtain ⟨hA, hB, -⟩ := bypassLost_drives unit m
  refine ⟨?_, ?_, ?_, unitLost_marks unit m, ?_⟩ <;> rw [unitLost_inserted unit h]
  · rwa [alert_ring, setRing_ring]
  · rwa [alert_ring, setRing_ring]
  · rw [rd_alert_ne _ (by decide), rd_setRing, bypassLost, rd_setIns_self, Nat.zero_mod]
  · exact rd_alert_self _

theorem rd_unitLost (hins : fkey g 0 0 ≠ fkey F.RING_STATE_INS 0 0) (hev : fkey g 0 0 ≠ fkey F.HIF_EV_DISCARD_COUNT 0 0)
    (hbyp : fkey g 0 0 ≠ fkey F.RING_FLAGS_BYPASSED 0 0) (halert : fkey g 0 0 ≠ fkey F.DIAG_ALERT_FLAGS_BYPASS 0 0) :
    rd (unitLost unit m) g = rd m g := by
  by_cases h : rd m F.RING_STATE_INS = 0
  · rw [unitLost_bypassed unit h, markLost, rd_setRing]
  · rw [unitLost_inserted unit h, rd_alert_ne _ halert, rd_setRing, bypassLost, rd_setIns_ne _ _ _ hins hev, rd_drivesLow _ hbyp, markLost,
      rd_setRing]

theorem eventsKept_unitLost (m : Mach) : EventsKept m (unitLost unit m) := by
  have hmark : EventsKept m (markLost unit m) := eventsKept_setRing _ m
  by_cases h : rd m F.RING_STATE_INS = 0
  · rwa [unitLost_bypassed unit h]
  · have hbyp : EventsKept m (bypassLost unit m) := hmark.trans ((eventsKept_drivesLow _).trans (eventsKept_setIns _ 0 3))
    rw [unitLost_inserted unit h]
    exact hbyp.trans ((eventsKept_setRing _ _).trans (eventsKept_alert _ (by decide)))

end UnitLost

end Sys2Proof.Machine
end

section
/-! Leaving the ring (06 R180): the planned leave, the writes of RING_CTRL that begin one, the keying timeout, the deal at which the drives drop,
and the loss of a unit of the pass-through set (01 R22). -/
namespace Sys2Proof.Machine

/-! A planned leave. -/

/-- The ring status of a planned leave: it names the neighbours' facing ports. -/
def leaveStatus (m : Mach) : RingStatus :=
  { kind := 3, cause := 4, a := { seat := (port m 0).peer, port := 1 }, b := some { seat := (port m 1).peer, port := 0 }, eff := floodDeal m }

/-- A leave announced in one machine is under way in another. -/
def LeaveBegun (m n : Mach) : Prop :=
  rd n F.RING_STATE_INS = 6 ∧ n.ring.leaveAt = some (floodDeal m) ∧ n.ring.pendingSt = m.ring.pendingSt ++ [leaveStatus m]

/-- All that a leave takes from the machine, with the insertion state and FORCE_BYPASS. -/
def leaveView (m : Mach) : Nat × Nat × SMap Port × List RingStatus × Nat :=
  (rd m F.RING_STATE_INS, rd m F.RING_CTRL_FORCE_BYPASS, m.ring.ports, m.ring.pendingSt, floodDeal m)

section Leave
variable {m n q : Mach}

theorem leaveView_congr (h : leaveView n = leaveView m) : rd n F.RING_STATE_INS = rd m F.RING_STATE_INS ∧
    rd n F.RING_CTRL_FORCE_BYPASS = rd m F.RING_CTRL_FORCE_BYPASS ∧ n.ring.pendingSt = m.ring.pendingSt ∧ floodDeal n = floodDeal m ∧
    leaveStatus n = leaveStatus m := by
  simp only [leaveView, Prod.mk.injEq] at h
  obtain ⟨hins, hforce, hports, hpend, hdeal⟩ := h
  exact ⟨hins, hforce, hpend, hdeal, by simp only [leaveStatus, port, hports, hdeal]⟩

theorem LeaveBegun.of_view (h : LeaveBegun n q) (hv : leaveView n = leaveView m) : LeaveBegun m q := by
  obtain ⟨-, -, hpend, hdeal, hst⟩ := leaveView_congr hv
  simpa only [LeaveBegun, hpend, hdeal, hst] using h

theorem LeaveBegun.of_wr {f : Fld} {v : Nat} (h : LeaveBegun m n) (hf : fkey F.RING_STATE_INS 0 0 ≠ fkey f 0 0) : LeaveBegun m (wr f v n) := by
  obtain ⟨hins, hrest⟩ := h
  exact ⟨(rd_wr_ne _ _ _ _ hf).trans hins, hrest⟩

theorem floodDeal_wr {f : Fld} (v : Nat) (hf : fkey F.RING_TIMERS_FLOOD_DEALS 0 0 ≠ fkey f 0 0) : floodDeal (wr f v m) = floodDeal m := by
  rw [floodDeal, rd_wr_ne _ _ _ _ hf]
  rfl

theorem leaveStatus_wr {f : Fld} (v : Nat) (hf : fkey F.RING_TIMERS_FLOOD_DEALS 0 0 ≠ fkey f 0 0) :
    leaveStatus (wr f v m) = leaveStatus m := by
  simp only [leaveStatus, port, wr_ring, floodDeal_wr v hf]

/-- A leave that begins right after a write of another field than FLOOD_DEALS is one that the machine before the write announces. -/
theorem LeaveBegun.before_wr {f : Fld} {v : Nat} (h : LeaveBegun (wr f v m) n) (hf : fkey F.RING_TIMERS_FLOOD_DEALS 0 0 ≠ fkey f 0 0) :
    LeaveBegun m n := by
  simpa only [LeaveBegun, floodDeal_wr v hf, leaveStatus_wr v hf, wr_ring] using h

theorem plannedLeave_joined (cause : Nat) (h : rd m F.RING_STATE_INS = 5) : plannedLeave cause m =
    setRing { (setIns 6 cause (floodStatus (leaveStatus m) m)).ring with leaveAt := some (floodDeal m), leaveCause := cause }
      (setIns 6 cause (floodStatus (leaveStatus m) m)) := by
  simp only [plannedLeave, h]
  rfl

theorem plannedLeave_begins (cause : Nat) (h : rd m F.RING_STATE_INS = 5) : LeaveBegun m (plannedLeave cause m) := by
  rw [plannedLeave_joined cause h]
  exact ⟨(rd_setRing ..).trans (rd_setIns_self ..), rfl, rfl⟩

theorem plannedLeave_leaving (cause : Nat) (h : rd m F.RING_STATE_INS = 6) : plannedLeave cause m = m := by
  simp [plannedLeave, h]

theorem rd_plannedLeave_joined {f : Fld} (cause : Nat) (h : rd m F.RING_STATE_INS = 5) (hf : sendFree (fkey f 0 0) = true)
    (hins : fkey f 0 0 ≠ fkey F.RING_STATE_INS 0 0) (hev : fkey f 0 0 ≠ fkey F.HIF_EV_DISCARD_COUNT 0 0) :
    rd (plannedLeave cause m) f = rd m f := by
  rw [plannedLeave_joined cause h, rd_setRing, rd_setIns_ne _ _ _ hins hev]
  exact floodStatus_keep (sendKeeps_rdij hf) _

theorem stopRing_of_inserted (h : rd m F.RING_STATE_INS ≠ 0) : stopRing m = m := by
  simp [stopRing, beq_eq_false_iff_ne.mpr h]

theorem startInsert_of_inserted (h : rd m F.RING_STATE_INS ≠ 0) : startInsert m = m := by
  simp [startInsert, mayInsert, h]

end Leave

/-! Writes of RING_CTRL. -/

section Control
variable {m : Mach}

theorem leaveView_wr {f : Fld} (v : Nat) (h : ∀ g ∈ [F.RING_STATE_INS, F.RING_CTRL_FORCE_BYPASS, F.RING_TIMERS_FLOOD_DEALS],
    fkey g 0 0 ≠ fkey f 0 0) : leaveView (wr f v m) = leaveView m := by
  simp only [List.forall_mem_cons] at h
  obtain ⟨hins, hforce, hflood, -⟩ := h
  simp only [leaveView, floodDeal, rd_wr_ne _ _ _ _ hins, rd_wr_ne _ _ _ _ hforce, rd_wr_ne _ _ _ _ hflood, wr_ring, wr_deal]

/-- The fields of RING_CTRL that a write sets whatever else it does. -/
def ringCtrlFlds : List Fld := [F.RING_CTRL_SPEED_A, F.RING_CTRL_SPEED_B, F.RING_CTRL_FEC_A, F.RING_CTRL_FEC_B, F.RING_CTRL_EXT_PHY_A,
  F.RING_CTRL_EXT_PHY_B, F.RING_CTRL_LCL_BRIDGE]

/-- What a write of each of these fields keeps, the word's write of them keeps. -/
theorem ringCtrlPlain_keep {β : Type} (g : Mach → β) (h : ∀ f ∈ ringCtrlFlds, ∀ v n, g (wr f v n) = g n) (v : Nat) (m : Mach) :
    g (ringCtrlPlain v m) = g m := by
  have hspeed : ∀ f ∈ ringCtrlFlds, ∀ x n, g (if x ≤ 2 then wr f x n else n) = g n := by
    intro f hf x n
    split
    · exact h f hf x n
    · rfl
  simp only [ringCtrlFlds, List.forall_mem_cons] at h hspeed
  obtain ⟨-, -, hfecA, hfecB, hphyA, hphyB, hbridge, -⟩ := h
  obtain ⟨hA, hB, -⟩ := hspeed
  simp only [ringCtrlPlain]
  rw [hA, hB, hfecA, hfecB, hphyA, hphyB, hbridge]

theorem ringCtrlPlain_leaveView (v : Nat) (m : Mach) : leaveView (ringCtrlPlain v m) = leaveView m :=
  ringCtrlPlain_keep leaveView (fun f hf v _ => leaveView_wr v fun g hg => (by decide : ∀ f ∈ ringCtrlFlds, ∀ g ∈
    [F.RING_STATE_INS, F.RING_CTRL_FORCE_BYPASS, F.RING_TIMERS_FLOOD_DEALS], fkey g 0 0 ≠ fkey f 0 0) f hf g hg) v m

theorem ringCtrlPlain_enable (v : Nat) (m : Mach) : flag (ringCtrlPlain v m) F.RING_CTRL_ENABLE = flag m F.RING_CTRL_ENABLE :=
  ringCtrlPlain_keep (fun n => flag n F.RING_CTRL_ENABLE) (fun f hf v n => by
    rw [flag, rd_wr_ne _ _ _ _ ((by decide : ∀ f ∈ ringCtrlFlds, fkey F.RING_CTRL_ENABLE 0 0 ≠ fkey f 0 0) f hf), flag]) v m

theorem setRing_leaveView {x : RingSt} (hports : x.ports = m.ring.ports) (hpend : x.pendingSt = m.ring.pendingSt) :
    leaveView (setRing x m) = leaveView m := by
  simp only [leaveView, floodDeal, rd_setRing, setRing_ring, setRing_deal, hports, hpend]

theorem clearCounters_leaveView (p : Nat) (m : Mach) : leaveView (clearCounters p m) = leaveView m := by
  unfold clearCounters count
  exact (setRing_leaveView rfl rfl).trans (setRing_leaveView rfl rfl)

theorem withTim_leaveView (x : Tim) (m : Mach) : leaveView { m with tim := x } = leaveView m := rfl

theorem enablePort_leaveView (p code fec : Nat) (m : Mach) : leaveView (enablePort p code fec m) = leaveView m := by
  unfold enablePort
  extract_lets _ _ m1 _ m2
  have h1 : leaveView m1 = leaveView m := (clearCounters_leaveView ..).trans (setRing_leaveView rfl rfl)
  have h2 : leaveView m2 = leaveView m := (withTim_leaveView ..).trans h1
  clear_value m2
  split
  · exact (leaveView_wr 0 (by decide)).trans h2
  · split
    · exact (leaveView_wr 0 (by decide)).trans h2
    · exact h2

/-- A write that sets ENABLE begins no insertion in a device that is inserted. -/
theorem writeEnable_set_leaveView (latched : Bool) (h : rd m F.RING_STATE_INS ≠ 0) : leaveView (writeEnable latched 1 m) = leaveView m := by
  simp only [writeEnable, if_true]
  split
  · rfl
  · split
    · rfl
    · have hv : leaveView (enablePort 0 (rd m F.RING_CTRL_SPEED_A) (rd m F.RING_CTRL_FEC_A)
          (enablePort 1 (rd m F.RING_CTRL_SPEED_B) (rd m F.RING_CTRL_FEC_B) (wr F.RING_CTRL_ENABLE 1 m))) = leaveView m := by
        rw [enablePort_leaveView, enablePort_leaveView, leaveView_wr _ (by decide)]
      obtain ⟨hins, -⟩ := leaveView_congr hv
      exact (congrArg leaveView (startInsert_of_inserted (by rwa [hins]))).trans hv

/-- A write that clears ENABLE of a joined device begins a leave, and leaves FORCE_BYPASS. -/
theorem writeEnable_clear_begins (he : flag m F.RING_CTRL_ENABLE = true) (h : rd m F.RING_STATE_INS = 5) :
    LeaveBegun m (writeEnable false 0 m) ∧ rd (writeEnable false 0 m) F.RING_CTRL_ENABLE = 0 ∧
      rd (writeEnable false 0 m) F.RING_CTRL_FORCE_BYPASS = rd m F.RING_CTRL_FORCE_BYPASS := by
  have hins : rd (wr F.RING_CTRL_ENABLE 0 m) F.RING_STATE_INS = 5 := (rd_wr_ne _ _ _ _ (by decide)).trans h
  have hb : LeaveBegun m (plannedLeave 0 (wr F.RING_CTRL_ENABLE 0 m)) := (plannedLeave_begins 0 hins).before_wr (by decide)
  have hw : writeEnable false 0 m = plannedLeave 0 (wr F.RING_CTRL_ENABLE 0 m) := by
    simp only [writeEnable, he]
    exact stopRing_of_inserted (by rw [hb.1]; decide)
  rw [hw]
  refine ⟨hb, ?_, ?_⟩ <;> rw [rd_plannedLeave_joined 0 hins (by decide) (by decide) (by decide)]
  · rw [rd_wr_self]
    rfl
  · exact rd_wr_ne _ _ _ _ (by decide)

/-- A write of FORCE_BYPASS on a device that is leaving changes no more than the field. -/
theorem writeForce_leaving (b : Nat) (h : rd m F.RING_STATE_INS = 6) :
    writeForce false b m = m ∨ ∃ v, writeForce false b m = wr F.RING_CTRL_FORCE_BYPASS v m := by
  have hins : ∀ v, rd (wr F.RING_CTRL_FORCE_BYPASS v m) F.RING_STATE_INS = 6 := fun v => (rd_wr_ne _ _ _ _ (by decide)).trans h
  simp only [writeForce]
  split
  · split
    · exact .inl rfl
    · exact .inr ⟨1, plannedLeave_leaving 4 (hins 1)⟩
  · exact .inr ⟨0, startInsert_of_inserted (by rw [hins]; decide)⟩

theorem writeForce_set_leaving (hf : flag m F.RING_CTRL_FORCE_BYPASS = false) (h : rd m F.RING_STATE_INS = 6) :
    writeForce false 1 m = wr F.RING_CTRL_FORCE_BYPASS 1 m := by
  have hins : rd (wr F.RING_CTRL_FORCE_BYPASS 1 m) F.RING_STATE_INS = 6 := (rd_wr_ne _ _ _ _ (by decide)).trans h
  simp [writeForce, hf, plannedLeave_leaving 4 hins]

/-- A write that sets FORCE_BYPASS leaves it set, and a device that was joined leaving. -/
theorem writeForce_set_begins (hf : flag m F.RING_CTRL_FORCE_BYPASS = false) (h : rd m F.RING_STATE_INS = 5) :
    LeaveBegun m (writeForce false 1 m) ∧ rd (writeForce false 1 m) F.RING_CTRL_FORCE_BYPASS = 1 := by
  have hins : rd (wr F.RING_CTRL_FORCE_BYPASS 1 m) F.RING_STATE_INS = 5 := (rd_wr_ne _ _ _ _ (by decide)).trans h
  have hw : writeForce false 1 m = plannedLeave 4 (wr F.RING_CTRL_FORCE_BYPASS 1 m) := by
    simp [writeForce, hf]
  rw [hw, rd_plannedLeave_joined 4 hins (by decide) (by decide) (by decide), rd_wr_self]
  exact ⟨(plannedLeave_begins 4 hins).before_wr (by decide), rfl⟩

end Control

/-! The commands. -/

section Commands
variable {s : State}

theorem word_clear_enable (v : Word) : (v &&& 0xFFFFFFFE).toNat % 2 = 0 := by
  rw [BitVec.toNat_and]
  exact (Nat.and_mod_two_pow (n := 1)).trans (Nat.and_zero _)

theorem zoneLatched_of_nil {m : Mach} (h : m.ann.latch = []) : zoneLatched m = false := by
  simp [zoneLatched, h]

theorem ringEnableClear_answers (ha : Awake s) (v : Word) (he : flag s.m F.RING_CTRL_ENABLE = true) (hz : s.m.ann.latch = [])
    (h : rd s.m F.RING_STATE_INS = 5) :
    Answers (.ringEnableClear v) s (fun n => rd n F.RING_CTRL_ENABLE = 0 ∧ LeaveBegun s.m n) := by
  refine answers_mach _ s (ringEnableClear v) _ rfl ha ?_
  have hv := ringCtrlPlain_leaveView (v &&& 0xFFFFFFFE).toNat s.m
  obtain ⟨hins, -⟩ := leaveView_congr hv
  obtain ⟨hb, hen, -⟩ := writeEnable_clear_begins ((ringCtrlPlain_enable _ _).trans he) (hins.trans h)
  rw [ringEnableClear, zoneLatched_of_nil hz, ringCtrlWrite, word_clear_enable]
  have hleave := hb.of_view hv
  obtain hw | ⟨x, hw⟩ := writeForce_leaving ((v &&& 0xFFFFFFFE).toNat / 2 % 2) hb.1 <;> rw [hw]
  · exact ⟨hen, hleave⟩
  · exact ⟨(rd_wr_ne _ _ _ _ (by decide)).trans hen, hleave.of_wr (by decide)⟩

/-- What a write of ENABLE leaves a joined device to a write of FORCE_BYPASS: joined still, or with a leave begun. -/
theorem writeEnable_joined (m : Mach) (b : Nat) (hb : b < 2) (h : rd m F.RING_STATE_INS = 5) :
    rd (writeEnable false b m) F.RING_CTRL_FORCE_BYPASS = rd m F.RING_CTRL_FORCE_BYPASS ∧
      (leaveView (writeEnable false b m) = leaveView m ∨ LeaveBegun m (writeEnable false b m)) := by
  obtain rfl | rfl : b = 0 ∨ b = 1 := by omega
  · by_cases he : flag m F.RING_CTRL_ENABLE = true
    · obtain ⟨hbegun, -, hforce⟩ := writeEnable_clear_begins he h
      exact ⟨hforce, .inr hbegun⟩
    · have hw : writeEnable false 0 m = m := by simp [writeEnable, he]
      rw [hw]
      exact ⟨rfl, .inl rfl⟩
  · have hv := writeEnable_set_leaveView false (m := m) (by rw [h]; decide)
    obtain ⟨-, hforce, -⟩ := leaveView_congr hv
    exact ⟨hforce, .inl hv⟩

theorem forceBypass_answers (ha : Awake s) (v : Word) (hf : flag s.m F.RING_CTRL_FORCE_BYPASS = false) (hz : s.m.ann.latch = [])
    (h : rd s.m F.RING_STATE_INS = 5) :
    Answers (.forceBypass v) s (fun n => rd n F.RING_CTRL_FORCE_BYPASS = 1 ∧ LeaveBegun s.m n) := by
  refine answers_mach _ s (forceBypass v) _ rfl ha ?_
  rw [forceBypass, zoneLatched_of_nil hz, ringCtrlWrite, nowWord_now]
  have hv := ringCtrlPlain_leaveView (v ||| 2).toNat s.m
  generalize ringCtrlPlain (v ||| 2).toNat s.m = m at hv ⊢
  obtain ⟨hins, hforce, -⟩ := leaveView_congr hv
  obtain ⟨hkept, hcase⟩ := writeEnable_joined m _ (Nat.mod_lt (v ||| 2).toNat (by decide)) (hins.trans h)
  generalize writeEnable false ((v ||| 2).toNat % 2) m = n at hkept hcase ⊢
  have hclear : flag n F.RING_CTRL_FORCE_BYPASS = false := by rw [flag, hkept, hforce]; exact hf
  obtain hview | hbegun := hcase
  · obtain ⟨hins', -⟩ := leaveView_congr (hview.trans hv)
    obtain ⟨hb, hset⟩ := writeForce_set_begins hclear (hins'.trans h)
    exact ⟨hset, hb.of_view (hview.trans hv)⟩
  · rw [writeForce_set_leaving hclear hbegun.1, rd_wr_self]
    exact ⟨rfl, (hbegun.of_view hv).of_wr (by decide)⟩

end Commands

/-! The keying timeout. -/

/-- A ring port whose link is up without an SA is reported. -/
def reportUnkeyed (p : Nat) (m : Mach) : Mach :=
  onlyIf (linkUp m p && !secure m p) (raise 0x03 0x0302 [(1, p), (1, 3), (2, (port m p).peer), (12, 0)]) m

section Keying
variable {m : Mach}

theorem keyingTimeout_due (h2 : 2 ≤ rd m F.RING_STATE_INS) (h4 : rd m F.RING_STATE_INS ≤ 4)
    (ht : m.ring.closing + rd m F.RING_MKA_KEY_TMO_S * 8000 ≤ m.ticks) : keyingTimeout m =
      setRing { (setIns 6 2 (reportUnkeyed 1 (reportUnkeyed 0 m))).ring with leaveAt := some (m.deal + 1), leaveCause := 2 }
        (setIns 6 2 (reportUnkeyed 1 (reportUnkeyed 0 m))) := by
  simp only [keyingTimeout, h2, h4, ht, decide_true, Bool.and_self, if_true, forEach_cons, forEach_nil, reportUnkeyed]

theorem reportUnkeyed_ring (p : Nat) : (reportUnkeyed p m).ring = m.ring := onlyIf_keep (·.ring) _ _ _ rfl

theorem eventsKept_reportUnkeyed (p : Nat) (m : Mach) : EventsKept m (reportUnkeyed p m) := eventsKept_onlyIf _ (eventsKept_raise ..)

theorem rdi_reportUnkeyed {f : Fld} {k : Nat} (p : Nat) (hf : fkey f k 0 ≠ fkey F.HIF_EV_DISCARD_COUNT 0 0) :
    rdi (reportUnkeyed p m) f k = rdi m f k := onlyIf_keep (fun n => rdi n f k) _ _ _ (rdi_raise _ _ _ _ _ _ hf)

theorem reportUnkeyed_reports {p : Nat} (hu : linkUp m p = true) (hs : secure m p = false) : Reported 0x03 0x0302 m (reportUnkeyed p m) := by
  simp only [reportUnkeyed, hu, hs]
  exact (eventsKept_refl m).reported

/-- Both ring ports are judged, and what one event changes is no business of the other port. -/
theorem reportUnkeyed_both_reports {p : Nat} (hp : p < 2) (hu : linkUp m p = true) (hs : secure m p = false) :
    Reported 0x03 0x0302 m (reportUnkeyed 1 (reportUnkeyed 0 m)) := by
  obtain rfl | rfl : p = 0 ∨ p = 1 := by omega
  · exact reported_then _ _ _ _ _ (reportUnkeyed_reports hu hs) (eventsKept_reportUnkeyed ..).out
  · refine reported_since (eventsKept_reportUnkeyed 0 m) (reportUnkeyed_reports ?_ ?_)
    · rwa [linkUp, rdi_reportUnkeyed _ (by decide)]
    · rwa [secure, rdi_reportUnkeyed _ (by decide)]

theorem keyingTimeout_answers {s : State} (ha : Awake s) (h2 : 2 ≤ rd s.m F.RING_STATE_INS) (h4 : rd s.m F.RING_STATE_INS ≤ 4)
    (ht : s.m.ring.closing + rd s.m F.RING_MKA_KEY_TMO_S * 8000 ≤ s.m.ticks) :
    Answers .keyingTimeout s (fun n => rd n F.RING_STATE_INS = 6 ∧ n.ring.leaveAt = some (s.m.deal + 1) ∧
      n.ring.pendingSt = s.m.ring.pendingSt ∧
      (∀ p, p < 2 → linkUp s.m p = true → secure s.m p = false → Reported 0x03 0x0302 s.m n)) := by
  refine answers_mach _ s keyingTimeout _ rfl ha ?_
  rw [keyingTimeout_due h2 h4 ht]
  refine ⟨(rd_setRing ..).trans (rd_setIns_self ..), rfl, ?_, fun p hp hu hs => ?_⟩
  · rw [setRing_ring, setIns_ring, reportUnkeyed_ring, reportUnkeyed_ring]
  · exact reported_then _ _ _ _ _ (reportUnkeyed_both_reports hp hu hs) ((eventsKept_setIns _ 6 2).trans (eventsKept_setRing ..)).out

end Keying

/-! The deal at which the drives drop. -/

/-- The drives, and the deal of a leave. -/
def driveView (m : Mach) : Bool × Bool × Option Nat := (m.ring.bypA, m.ring.bypB, m.ring.leaveAt)

/-- The machine whose drives have dropped at the deal of a leave. -/
def dropped (m : Mach) : Mach :=
  let m1 := setIns 0 m.ring.leaveCause (drivesLow m)
  setRing { m1.ring with leaveAt := none, failAt := if m.ring.leaveCause = 2 then some m.ticks else m1.ring.failAt } m1

section Drop
variable {m : Mach}

theorem leaveDrop_due {d : Nat} (h6 : rd m F.RING_STATE_INS = 6) (hd : m.ring.leaveAt = some d) (hle : d ≤ m.deal) :
    leaveDrop m = stopRing (dropped m) := by
  simp only [leaveDrop, hd, h6, hle, dropped, decide_true, Bool.and_self, if_true]

theorem dropped_driveView (m : Mach) : driveView (dropped m) = (false, false, none) := by
  simp only [driveView, dropped, setRing_ring, setIns_ring, drivesLow_ring]

theorem dropped_ins (m : Mach) : rd (dropped m) F.RING_STATE_INS = 0 := by
  simp only [dropped, rd_setRing, rd_setIns_self, Nat.zero_mod]

theorem dropped_pwr (m : Mach) : (dropped m).pwr = m.pwr := by
  simp only [dropped, setIns, drivesLow, setRing_pwr, raise_pwr, wr_pwr]
  exact onlyIf_keep (·.pwr) _ _ _ rfl

theorem dropped_enable (m : Mach) : flag (dropped m) F.RING_CTRL_ENABLE = flag m F.RING_CTRL_ENABLE := by
  simp only [flag, dropped]
  rw [rd_setRing, rd_setIns_ne _ _ _ (by decide) (by decide), rd_drivesLow _ (by decide)]

theorem floodStatus_driveView (x : RingStatus) (m : Mach) : driveView (floodStatus x m) = driveView m := by
  simp only [driveView, floodStatus, setRing_ring]

theorem driveView_congr {n : Mach} (h : n.ring = m.ring) : driveView n = driveView m := by
  simp only [driveView, h]

theorem detectFault_driveView (p cause : Nat) (m : Mach) : driveView (detectFault p cause m) = driveView m := by
  simp only [detectFault]
  split
  · exact floodStatus_driveView ..
  · rfl

theorem dropSa_driveView (p : Nat) (m : Mach) : driveView (dropSa p m) = driveView m := by
  rw [dropSa, driveView_congr (showNbr_ring ..), driveView_congr (wri_ring ..), driveView_congr (showLink_ring ..)]
  rfl

theorem linkDown_driveView (p cause : Nat) (m : Mach) : driveView (linkDown p cause m) = driveView m := by
  unfold linkDown
  split
  · rw [detectFault_driveView, driveView_congr (showMark_ring ..), driveView_congr (showLink_ring ..), dropSa_driveView]
    exact onlyIf_keep driveView _ _ _ rfl
  · rfl

theorem showLink_link {p : Nat} (hp : p < 2) (link sec : Nat) (m : Mach) :
    rdi (showLink p link sec m) F.RING_PORT_STAT_LINK p = link % 2 ^ F.RING_PORT_STAT_LINK.width := by
  obtain rfl | rfl : p = 0 ∨ p = 1 := by omega
  · simp only [showLink, if_true]
    rw [rdi_wr_ne _ _ _ _ _ (by decide), rdi_wr_ne _ _ _ _ _ (by decide), rdi_wri_self _ _ _ _ (by decide)]
  · simp only [showLink, Nat.one_ne_zero, if_true, if_false]
    rw [rdi_wr_ne _ _ _ _ _ (by decide), rdi_wr_ne _ _ _ _ _ (by decide), rdi_wri_self _ _ _ _ (by decide)]

/-- A ring port that has declared its link down shows it. -/
theorem linkDown_down {p : Nat} (hp : p < 2) (cause : Nat) (m : Mach) : linkUp (linkDown p cause m) p = false := by
  have hfree : sendFree (fkey F.RING_PORT_STAT_LINK p 0) = true :=
    (by decide : ∀ p < 2, sendFree (fkey F.RING_PORT_STAT_LINK p 0) = true) p hp
  have hmark : ∀ f ∈ linkFlds, ∀ v n, rdij (wr f v n) F.RING_PORT_STAT_LINK p 0 = rdij n F.RING_PORT_STAT_LINK p 0 := fun f hf v n =>
    rdij_wr_ne v n ((by decide : ∀ p < 2, ∀ f ∈ linkFlds, fkey F.RING_PORT_STAT_LINK p 0 ≠ fkey f 0 0) p hp f hf)
  have hkept : ∀ c n, rdi (detectFault p c (showMark p 0 n)) F.RING_PORT_STAT_LINK p = rdi n F.RING_PORT_STAT_LINK p := fun c n =>
    (detectFault_keep (sendKeeps_rdij hfree) c).trans (showMark_keep (g := fun n => rdij n F.RING_PORT_STAT_LINK p 0) hmark 0)
  unfold linkDown
  split
  case isTrue => rw [linkUp, hkept, showLink_link hp, Nat.zero_mod]; rfl
  case isFalse h => simpa [Nat.lt_trans hp (by decide : 2 < 4)] using h

/-- The drives stay low and the device bypassed while its ring ports stop; with ENABLE clear their links go down (06 R180). -/
theorem stopRing_bypassed (h : rd m F.RING_STATE_INS = 0) : driveView (stopRing m) = driveView m ∧ rd (stopRing m) F.RING_STATE_INS = 0 ∧
    (stopRing m).pwr = m.pwr ∧ (flag m F.RING_CTRL_ENABLE = false → linkUp (stopRing m) 0 = false ∧ linkUp (stopRing m) 1 = false) := by
  cases he : flag m F.RING_CTRL_ENABLE with
  | true =>
    have hstop : stopRing m = m := by simp [stopRing, he]
    rw [hstop]
    exact ⟨rfl, h, rfl, by simp⟩
  | false =>
    have hstop : stopRing m = linkDown 1 4 (linkDown 0 4 m) := by simp [stopRing, he, h]
    have hins : ∀ p < 2, linkFree p (fkey F.RING_STATE_INS 0 0) = true := by decide
    have hlink : linkFree 1 (fkey F.RING_PORT_STAT_LINK 0 0) = true := by decide
    rw [hstop]
    refine ⟨?_, ?_, ?_, fun _ => ⟨?_, linkDown_down (by decide) ..⟩⟩
    · rw [linkDown_driveView, linkDown_driveView]
    · exact (linkDown_keep (linkKeeps_rdij (hins 1 (by decide))) 4).trans ((linkDown_keep (linkKeeps_rdij (hins 0 (by decide))) 4).trans h)
    · exact (linkDown_keep (linkKeeps_pwr 1) 4).trans (linkDown_keep (linkKeeps_pwr 0) 4)
    · have hkept : rdi (linkDown 1 4 (linkDown 0 4 m)) F.RING_PORT_STAT_LINK 0 = rdi (linkDown 0 4 m) F.RING_PORT_STAT_LINK 0 :=
        linkDown_keep (linkKeeps_rdij hlink) 4
      rw [linkUp, hkept]
      exact linkDown_down (by decide) ..

theorem resetDue_idle (h : m.pwr.reset = none) (hq : m.pwr.req = none) : resetDue m = m := by
  simp only [resetDue, h, hq]

theorem leaveDrivesDrop_answers {s : State} {d : Nat} (ha : Awake s) (h6 : rd s.m F.RING_STATE_INS = 6) (hd : s.m.ring.leaveAt = some d)
    (hle : d ≤ s.m.deal) (hr : s.m.pwr.reset = none) (hq : s.m.pwr.req = none) :
    Answers .leaveDrivesDrop s (fun n => rd n F.RING_STATE_INS = 0 ∧ n.ring.bypA = false ∧ n.ring.bypB = false ∧
      n.ring.leaveAt = none ∧ (flag s.m F.RING_CTRL_ENABLE = false → linkUp n 0 = false ∧ linkUp n 1 = false)) := by
  refine answers_mach _ s (fun m => resetDue (leaveDrop m)) _ rfl ha ?_
  obtain ⟨hdrive, hins, hpwr, hlinks⟩ := stopRing_bypassed (dropped_ins s.m)
  rw [dropped_driveView, driveView, Prod.mk.injEq, Prod.mk.injEq] at hdrive
  obtain ⟨hA, hB, hat⟩ := hdrive
  rw [dropped_pwr] at hpwr
  rw [dropped_enable] at hlinks
  simp only [leaveDrop_due h6 hd hle]
  rw [resetDue_idle (by rw [hpwr, hr]) (by rw [hpwr, hq])]
  exact ⟨hins, hA, hB, hat, hlinks⟩

end Drop

theorem passThroughUnitLost_answers {s : State} (ha : Awake s) (h : rd s.m F.RING_STATE_INS ≠ 0) (unit : Nat) :
    Answers (.passThroughUnitLost unit) s (fun n => n.ring.bypA = false ∧ n.ring.bypB = false ∧ rd n F.RING_STATE_INS = 0 ∧
      n.ring.unitLost.testBit unit = true ∧ rd n F.DIAG_ALERT_FLAGS_BYPASS = 1) :=
  answers_mach _ s (unitLost unit) _ rfl ha (unitLost_bypasses unit h)

/-- The XO is unit 1 of the pass-through set (04 R123). -/
theorem xoLoss_answers {s : State} (ha : Awake s) (h : rd s.m F.RING_STATE_INS ≠ 0) :
    Answers .xoLoss s (fun n => n.ring.bypA = false ∧ n.ring.bypB = false ∧ rd n F.RING_STATE_INS = 0 ∧ n.ring.unitLost.testBit 1 = true ∧
      rd n F.DIAG_ALERT_FLAGS_BYPASS = 1) :=
  answers_mach _ s xoLoss _ rfl ha (unitLost_bypasses 1 h)

/-- Settles O19, one lemma for each command. -/
theorem leavesRing : Obligations.LeavesRing :=
  ⟨fun _ ha =>
    ⟨fun v he hz h => ringEnableClear_answers ha v he hz h, fun v hf hz h => forceBypass_answers ha v hf hz h,
     fun h2 h4 ht => keyingTimeout_answers ha h2 h4 ht, fun _ h6 hd hle hr hq => leaveDrivesDrop_answers ha h6 hd hle hr hq⟩,
   fun _ ha h => ⟨passThroughUnitLost_answers ha h, xoLoss_answers ha h⟩⟩

end Sys2Proof.Machine
end

section
/-! Supervision (18 R486, R497; 01 R19, R502; 15 R426): rails, the junction temperature, ECC errors, and the vote of the service cores. -/
namespace Sys2Proof.Machine

/-! Rails. -/

section Rails
variable {s : State} {m : Mach} {rail : Nat} (mv : Nat)

theorem railBit_testBit (hr : rail < 7) (m : Mach) : (rd (railBit rail false m) F.DIAG_SUPPLY_IN_RANGE).testBit rail = false ∧
    (rd (railBit rail true m) F.DIAG_SUPPLY_IN_RANGE).testBit rail = true := by
  have hw : rail < F.DIAG_SUPPLY_IN_RANGE.width := hr
  simp only [railBit, rd_wr_self, Nat.testBit_mod_two_pow, putBit]
  simp [hw, testBit_setBit_self, testBit_clrBit_self]

theorem eventsKept_railBit (ok : Bool) (m : Mach) : EventsKept m (railBit rail ok m) := eventsKept_wr _ _ (by decide)

theorem rd_supplyEvent {g : Fld} (phase : Nat) (h : fkey g 0 0 ≠ fkey F.HIF_EV_DISCARD_COUNT 0 0) :
    rd (supplyEvent rail phase mv m) g = rd m g := rd_raise _ _ _ _ _ h

theorem supplyOut_due (hr : rail < 7) (hb : (rd m F.DIAG_SUPPLY_IN_RANGE).testBit rail = true) : supplyOut rail mv m =
    supplyEvent rail 0 mv (alert F.DIAG_ALERT_FLAGS_SUPPLY (unitLost 0 (railBit rail false m))) := by
  simp only [supplyOut, hr, hb, decide_true, Bool.and_self, if_true]

theorem supplyOut_answers (ha : Awake s) (hr : rail < 7) (hb : (rd s.m F.DIAG_SUPPLY_IN_RANGE).testBit rail = true) :
    Answers (.supplyOutOfLimits rail mv) s (fun n => (rd n F.DIAG_SUPPLY_IN_RANGE).testBit rail = false ∧
      rd n F.DIAG_ALERT_FLAGS_SUPPLY = 1 ∧ n.ring.unitLost.testBit 0 = true ∧ Reported 0x17 0x1710 s.m n ∧
      (rd s.m F.RING_STATE_INS ≠ 0 → n.ring.bypA = false ∧ n.ring.bypB = false ∧ rd n F.RING_STATE_INS = 0)) := by
  refine answers_mach _ s (supplyOut rail mv) _ rfl ha ?_
  rw [supplyOut_due mv hr hb]
  obtain ⟨hclear, -⟩ := railBit_testBit hr s.m
  have hkept : EventsKept s.m (alert F.DIAG_ALERT_FLAGS_SUPPLY (unitLost 0 (railBit rail false s.m))) :=
    (eventsKept_railBit false s.m).trans ((eventsKept_unitLost 0 _).trans (eventsKept_alert _ (by decide)))
  refine ⟨?_, ?_, ?_, hkept.reported, fun hins => ?_⟩
  · rwa [rd_supplyEvent _ _ (by decide), rd_alert_ne _ (by decide), rd_unitLost _ (by decide) (by decide) (by decide) (by decide)]
  · rw [rd_supplyEvent _ _ (by decide), rd_alert_self]
    rfl
  · exact alert_ring (unitLost 0 _) ▸ unitLost_marks 0 _
  · have hins' : rd (railBit rail false s.m) F.RING_STATE_INS ≠ 0 := by rwa [railBit, rd_wr_ne _ _ _ _ (by decide)]
    obtain ⟨hA, hB, h0, -⟩ := unitLost_bypasses 0 hins'
    refine ⟨?_, ?_, ?_⟩
    · rwa [supplyEvent, raise_ring, alert_ring]
    · rwa [supplyEvent, raise_ring, alert_ring]
    · rwa [rd_supplyEvent _ _ (by decide), rd_alert_ne _ (by decide)]

/-- The machine with a rail back in range; once every rail is, the supplies work again. -/
def railBack (rail : Nat) (m : Mach) : Mach :=
  onlyIf (rd (railBit rail true m) F.DIAG_SUPPLY_IN_RANGE == 127) (unitBack 0) (railBit rail true m)

theorem supplyBack_due (hr : rail < 7) (hb : (rd m F.DIAG_SUPPLY_IN_RANGE).testBit rail = false) :
    supplyBack rail mv m = supplyEvent rail 1 mv (railBack rail m) := by
  simp only [supplyBack, hr, hb, decide_true, Bool.not_false, Bool.and_self, if_true, railBack]

theorem rd_railBack {g : Fld} (m : Mach) : rd (railBack rail m) g = rd (railBit rail true m) g :=
  onlyIf_keep (fun n => rd n g) _ _ _ (rd_setRing ..)

/-- The drives stay as they are until the insertion sequence (18 R486). -/
theorem railBack_drives (m : Mach) : (railBack rail m).ring.bypA = m.ring.bypA ∧ (railBack rail m).ring.bypB = m.ring.bypB :=
  ⟨onlyIf_keep (·.ring.bypA) _ _ (railBit rail true m) rfl, onlyIf_keep (·.ring.bypB) _ _ (railBit rail true m) rfl⟩

theorem eventsKept_railBack (m : Mach) : EventsKept m (railBack rail m) :=
  (eventsKept_railBit true m).trans (eventsKept_onlyIf _ (eventsKept_setRing ..))

theorem supplyBack_answers (ha : Awake s) (hr : rail < 7) (hb : (rd s.m F.DIAG_SUPPLY_IN_RANGE).testBit rail = false) :
    Answers (.supplyBack rail mv) s (fun n => (rd n F.DIAG_SUPPLY_IN_RANGE).testBit rail = true ∧ Reported 0x17 0x1710 s.m n ∧
      n.ring.bypA = s.m.ring.bypA ∧ n.ring.bypB = s.m.ring.bypB) := by
  refine answers_mach _ s (supplyBack rail mv) _ rfl ha ?_
  rw [supplyBack_due mv hr hb]
  obtain ⟨-, hset⟩ := railBit_testBit hr s.m
  refine ⟨?_, (eventsKept_railBack s.m).reported, railBack_drives s.m⟩
  rwa [rd_supplyEvent _ _ (by decide), rd_railBack]

end Rails

/-! The junction temperature. -/

section Temperature
variable {s : State} {g : Fld} {m : Mach}

theorem n2s_mod (w n : Nat) : n2s w (n % 2 ^ w) = n2s w n := by
  simp only [n2s, Nat.mod_mod]

/-- A value in the signed range of 16 bits survives its encoding. -/
theorem n2s_s2n_16 {t : Int} (hlo : -(2 ^ 15) ≤ t) (hhi : t < 2 ^ 15) : n2s 16 (s2n 16 t) = t := by
  unfold n2s s2n
  split <;> omega

theorem rdS16_wr_self {f : Fld} (hw : f.width = 16) (v : Nat) (m : Mach) : rdS16 (wr f v m) f = n2s 16 v := by
  rw [rdS16, rd_wr_self, hw, n2s_mod]

theorem bandFld_fkey (b : Nat) : fkey F.DIAG_TJ_MAX 0 0 ≠ fkey (bandFld b) 0 0 := by
  unfold bandFld
  (repeat' split) <;> decide

theorem countBand_max (t : Int) (m : Mach) : rd (countBand t m) F.DIAG_TJ_MAX = rd m F.DIAG_TJ_MAX :=
  onlyIf_keep (fun n => rd n F.DIAG_TJ_MAX) _ _ _ (rd_bump_ne _ _ _ _ (bandFld_fkey _))

theorem thermPin_regs (m : Mach) : (thermPin m).regs = m.regs := by
  simp only [thermPin]
  split <;> rfl

theorem rd_watch (bit : Nat) (above : Bool) (src code : Nat) (pay : Pay) (m : Mach) (h : fkey g 0 0 ≠ fkey F.HIF_EV_DISCARD_COUNT 0 0) :
    rd (watch bit above src code pay m) g = rd m g := by
  unfold watch
  split
  · exact rd_raise _ _ _ _ _ h
  · rfl

theorem rd_watchTj (hev : fkey g 0 0 ≠ fkey F.HIF_EV_DISCARD_COUNT 0 0) (halert : fkey g 0 0 ≠ fkey F.DIAG_ALERT_FLAGS_TJ 0 0) (m : Mach) :
    rd (watchTj m) g = rd m g := by
  rw [watchTj, rd_watch _ _ _ _ _ _ hev]
  exact onlyIf_keep (fun n => rd n g) _ _ _ (rd_alert_ne _ halert)

/-- What the levels and the pin of a sample leave of the temperatures. -/
theorem rdS16_judged (hev : fkey g 0 0 ≠ fkey F.HIF_EV_DISCARD_COUNT 0 0) (halert : fkey g 0 0 ≠ fkey F.DIAG_ALERT_FLAGS_TJ 0 0) (m : Mach) :
    rdS16 (watchTj (thermPin m)) g = rdS16 m g := by
  rw [rdS16, rd_watchTj hev halert, rd_congr _ _ _ (thermPin_regs m), rdS16]

/-- The machine that shows a sample, before its maximum is judged. -/
def shownTemp (t : Int) (m : Mach) : Mach := wr F.DIAG_TJ_TEMP (s2n 16 t) (countBand t m)

theorem shownTemp_max (t : Int) (m : Mach) : rdS16 (shownTemp t m) F.DIAG_TJ_MAX = rdS16 m F.DIAG_TJ_MAX := by
  rw [rdS16, shownTemp, rd_wr_ne _ _ _ _ (by decide), countBand_max, rdS16]

theorem tjSample_inRange {t : Int} (hlo : -(2 ^ 15) ≤ t) (hhi : t < 2 ^ 15) (m : Mach) : tjSample t m =
    watchTj (thermPin (onlyIf (decide (rdS16 m F.DIAG_TJ_MAX < t)) (wr F.DIAG_TJ_MAX (s2n 16 t)) (shownTemp t m))) := by
  simp only [tjSample, n2s_s2n_16 hlo hhi, ← shownTemp_max t m]
  rfl

theorem tjSample_answers (ha : Awake s) {t : Int} (hlo : -(2 ^ 15) ≤ t) (hhi : t < 2 ^ 15) :
    Answers (.tjSample t) s (fun n => rdS16 n F.DIAG_TJ_TEMP = t ∧ rdS16 n F.DIAG_TJ_MAX = max (rdS16 s.m F.DIAG_TJ_MAX) t) := by
  refine answers_mach _ s (tjSample t) _ rfl ha ?_
  rw [tjSample_inRange hlo hhi, rdS16_judged (by decide) (by decide), rdS16_judged (by decide) (by decide)]
  have hshown : rdS16 (shownTemp t s.m) F.DIAG_TJ_TEMP = t := (rdS16_wr_self rfl ..).trans (n2s_s2n_16 hlo hhi)
  by_cases hmax : rdS16 s.m F.DIAG_TJ_MAX < t
  · rw [decide_eq_true hmax, onlyIf_true, max_eq_right hmax.le, rdS16_wr_self rfl, n2s_s2n_16 hlo hhi]
    exact ⟨(congrArg (n2s 16) (rd_wr_ne _ _ _ _ (by decide))).trans hshown, rfl⟩
  · rw [decide_eq_false hmax, onlyIf_false, max_eq_left (not_lt.mp hmax), shownTemp_max]
    exact ⟨hshown, rfl⟩

end Temperature

/-! ECC errors. -/

/-- What the action on a failing word keeps: the counters of the banks, the flag of the alert, and what has been written for the host. -/
structure HitKept (m n : Mach) : Prop where
  ecc : n.sys.ecc = m.sys.ecc
  alert : rd n F.DIAG_ALERT_FLAGS_ECC = rd m F.DIAG_ALERT_FLAGS_ECC
  out : ∃ l, n.out = l ++ m.out

section Ecc
variable {s : State} {m n q : Mach}

theorem HitKept.of_eq (hs : n.sys = m.sys) (hr : n.regs = m.regs) (ho : n.out = m.out) : HitKept m n :=
  ⟨by rw [hs], rd_congr _ _ _ hr, [], ho⟩

theorem HitKept.trans (h1 : HitKept m n) (h2 : HitKept n q) : HitKept m q := by
  obtain ⟨e1, a1, l1, o1⟩ := h1
  obtain ⟨e2, a2, l2, o2⟩ := h2
  exact ⟨e2.trans e1, a2.trans a1, l2 ++ l1, by rw [o2, o1, List.append_assoc]⟩

theorem hitKept_refl (m : Mach) : HitKept m m := .of_eq rfl rfl rfl

theorem hitKept_forEach {α : Type} {f : α → Mach → Mach} (h : ∀ a n, HitKept n (f a n)) (l : List α) (m : Mach) :
    HitKept m (forEach l f m) := by
  induction l generalizing m with
  | nil => exact hitKept_refl m
  | cons a l ih => exact (h a m).trans (ih _)

theorem hitKept_onlyIf (b : Bool) {f : Mach → Mach} (h : HitKept m (f m)) : HitKept m (onlyIf b f m) := by
  cases b
  · exact hitKept_refl m
  · exact h

theorem hitKept_wr {f : Fld} (v : Nat) (m : Mach) (h : fkey F.DIAG_ALERT_FLAGS_ECC 0 0 ≠ fkey f 0 0) : HitKept m (wr f v m) :=
  ⟨rfl, rd_wr_ne _ _ _ _ h, [], rfl⟩

theorem hitKept_raise (src code : Nat) (pay : Pay) (m : Mach) : HitKept m (raise src code pay m) :=
  ⟨rfl, rd_raise _ _ _ _ _ (by decide), raise_out ..⟩

theorem hitKept_setTok (p v : Nat) (m : Mach) : HitKept m (setTok p v m) :=
  ⟨rfl, rdij_wri_ne p v m ((by decide : ∀ p < F.RING_TOK_FREE_FREE.n1, fkey F.DIAG_ALERT_FLAGS_ECC 0 0 ≠ fkey F.RING_TOK_FREE_FREE p 0) p),
    [], rfl⟩

theorem hitKept_corrMute (c bank word : Nat) (m : Mach) : HitKept m (corrMute c bank word m) := by
  unfold corrMute
  split
  · exact hitKept_refl m
  · refine .trans ?_ (.trans (hitKept_wr (f := F.COR_FLAGS_ECC_MUTE) 1 _ (by decide)) (hitKept_raise ..))
    exact .of_eq rfl rfl rfl

theorem hitKept_corrStateHit (set word : Nat) (m : Mach) : HitKept m (corrStateHit set word m) := by
  unfold corrStateHit
  split
  · exact hitKept_refl m
  · exact .of_eq rfl rfl rfl

theorem hitKept_hurtNode (forGood : Bool) (ix : Nat) (m : Mach) : HitKept m (hurtNode forGood ix m) := by
  unfold hurtNode
  split
  · exact hitKept_refl m
  · exact .of_eq rfl rfl rfl

theorem hitKept_streamHit (role ctx idx : Nat) (chans : List Nat) (m : Mach) : HitKept m (streamHit role ctx idx chans m) := by
  simp only [streamHit]
  split
  · split
    · exact .of_eq rfl rfl rfl
    · exact hitKept_refl m
  · exact hitKept_onlyIf _ (.of_eq rfl rfl rfl)

theorem hitKept_count (p id k : Nat) (m : Mach) : HitKept m (count p id k m) := .of_eq rfl rfl rfl

theorem hitKept_setEgress (p : Nat) (x : Egress) (m : Mach) : HitKept m (setEgress p x m) := .of_eq rfl rfl rfl

theorem hitKept_dropQueued (ident : Nat) (m : Mach) : HitKept m (dropQueued ident m) := by
  unfold dropQueued
  extract_lets _ m1
  have h1 : HitKept m m1 := .of_eq rfl rfl rfl
  clear_value m1
  refine h1.trans (hitKept_forEach (fun p n => ?_) _ _)
  exact hitKept_onlyIf _ ((hitKept_setEgress ..).trans ((hitKept_setTok ..).trans (hitKept_count ..)))

/-- The action of Table 1.4 on a word that is no service data. -/
theorem hitKept_eccAct (bank word : Nat) {t : EccHit} (ht : t ≠ .data) (m : Mach) : HitKept m (eccAct bank word t m) := by
  cases t with
  | data => exact absurd rfl ht
  | pool line idx =>
    simp only [eccAct]
    split
    · exact .of_eq rfl rfl rfl
    · exact hitKept_refl m
  | coef set => exact hitKept_corrMute ..
  | corState set w => exact hitKept_corrStateHit ..
  | program nodes => exact hitKept_forEach (hitKept_hurtNode true) nodes m
  | slot k => exact hitKept_onlyIf _ (.of_eq rfl rfl rfl)
  | stream l => exact hitKept_forEach (fun q n => hitKept_streamHit ..) l m
  | localMem node => exact hitKept_hurtNode ..
  | code => exact hitKept_wr 1 m (by decide)
  | packet x =>
    cases x with
    | none => exact hitKept_refl m
    | some q => exact (hitKept_onlyIf _ (hitKept_count ..)).trans (hitKept_dropQueued ..)

theorem mem_insertNat_self (x : Nat) (l : List Nat) : x ∈ insertNat x l := by
  induction l with
  | nil => exact List.mem_singleton_self x
  | cons y t ih =>
    simp only [insertNat]
    split
    · exact List.mem_cons_self
    · split
      case isTrue h => exact h ▸ List.mem_cons_self
      case isFalse => exact List.mem_cons_of_mem _ ih

theorem eccAct_slot_zero (bank word : Nat) {k : Nat} (hk : k < 4096) (m : Mach) : k ∈ (eccAct bank word (.slot k) m).frm.zero := by
  simp only [eccAct, hk, decide_true, onlyIf_true, setFrm_frm]
  exact mem_insertNat_self ..

/-- The machine that has counted and reported an uncorrectable error. -/
def eccReport (bank word : Nat) (t : EccHit) (m : Mach) : Mach :=
  alert F.DIAG_ALERT_FLAGS_ECC (raise 0x15 0x1501 [(1, bank), (1, eccRow t), (2, 0), (4, word), (4, eccCnt (eccBump bank 1 m) bank 0 % 2 ^ 32),
    (4, eccCnt (eccBump bank 1 m) bank 1 % 2 ^ 32)] (eccBump bank 1 m))

theorem eccUncorrected_inBank (bank word : Nat) {t : EccHit} (hb : eccBankOk bank t m = true) :
    eccUncorrected bank word t m = eccAct bank word t (eccReport bank word t m) := by
  simp only [eccUncorrected, hb, eccReport]
  rfl

theorem eccReport_reports (bank word : Nat) (t : EccHit) (m : Mach) : Reported 0x15 0x1501 m (eccReport bank word t m) :=
  reported_then _ _ _ _ _ (EventsKept.reported (n := eccBump bank 1 m) (.of_eq rfl rfl rfl)) (eventsKept_alert _ (by decide)).out

theorem eccCnt_eccBump_self (bank kind : Nat) (m : Mach) : eccCnt (eccBump bank kind m) bank kind = eccCnt m bank kind + 1 := by
  simp [eccCnt, eccBump]

theorem eccReport_ecc (bank word : Nat) (t : EccHit) (m : Mach) : (eccReport bank word t m).sys.ecc = (eccBump bank 1 m).sys.ecc := alert_ecc _

theorem eccCorrected_answers (ha : Awake s) {bank : Nat} (hb : bank < 64) :
    Answers (.eccCorrected bank) s (fun n => eccCnt n bank 0 = eccCnt s.m bank 0 + 1 ∧ n.regs = s.m.regs ∧ n.out = s.m.out) := by
  refine answers_mach _ s (eccCorrected bank) _ rfl ha ?_
  rw [eccCorrected, decide_eq_true hb, onlyIf_true]
  exact ⟨eccCnt_eccBump_self .., rfl, rfl⟩

theorem eccUncorrected_answers (ha : Awake s) (bank word : Nat) {t : EccHit} (hb : eccBankOk bank t s.m = true) (ht : t ≠ .data) :
    Answers (.eccUncorrected bank word t) s (fun n => eccCnt n bank 1 = eccCnt s.m bank 1 + 1 ∧
      rd n F.DIAG_ALERT_FLAGS_ECC = 1 ∧ Reported 0x15 0x1501 s.m n ∧ (∀ slot, slot < 4096 → t = .slot slot → slot ∈ n.frm.zero)) := by
  refine answers_mach _ s (eccUncorrected bank word t) _ rfl ha ?_
  rw [eccUncorrected_inBank bank word hb]
  obtain ⟨hecc, halert, hout⟩ := hitKept_eccAct bank word ht (eccReport bank word t s.m)
  refine ⟨?_, ?_, reported_then _ _ _ _ _ (eccReport_reports bank word t s.m) hout, ?_⟩
  · exact (congrArg (mget 0 · (2 * bank + 1)) (hecc.trans (eccReport_ecc ..))).trans (eccCnt_eccBump_self bank 1 s.m)
  · exact halert.trans (rd_alert_self _)
  · rintro k hk rfl
    exact eccAct_slot_zero _ _ hk _

/-- What a system reset leaves of the output, and the state of the drives in it. -/
theorem sysReset_holds (cause : Nat) (m : Mach) : (sysReset cause m).sys.held = some cause ∧ (sysReset cause m).ring.bypA = false ∧
    (sysReset cause m).ring.bypB = false ∧ ∃ l, (sysReset cause m).out = l ++ m.out :=
  ⟨rfl, rfl, rfl, _, rfl⟩

theorem eccData_answers (ha : Awake s) (bank word : Nat) (hb : eccBankOk bank .data s.m = true) :
    Answers (.eccUncorrected bank word .data) s (fun n => n.sys.held = some 6 ∧ n.ring.bypA = false ∧ n.ring.bypB = false ∧
      Reported 0x15 0x1501 s.m n) := by
  refine answers_mach _ s (eccUncorrected bank word .data) _ rfl ha ?_
  rw [eccUncorrected_inBank bank word hb]
  obtain ⟨hheld, hA, hB, hout⟩ := sysReset_holds 6 (unitLost 4 (eccReport bank word .data s.m))
  have hlost := reported_then _ _ _ _ _ (eccReport_reports bank word .data s.m) (eventsKept_unitLost 4 _).out
  exact ⟨hheld, hA, hB, reported_then _ _ _ _ _ hlost hout⟩

end Ecc

/-! The service cores. -/

/-- The machine that has counted, flagged and reported a dissent. -/
def dissentReport (k : Nat) (m : Mach) : Mach :=
  svcEvent k 0 (alert F.DIAG_ALERT_FLAGS_SVC
    (onlyIf (flag m F.DIAG_SVC_STAT_RESYNC) (bump F.DIAG_SVC_RESTART_COUNT 1) (bumpi F.DIAG_SVC_DIS_COUNT k 1 m)))

section Cores
variable {s : State} {m : Mach} {k : Nat}

theorem svcDissent_of_lt (hk : k < 3) : svcDissent k m =
    if !(rd m F.DIAG_SVC_STAT_VOTING).testBit k then dissentReport k m
    else if rd m F.DIAG_SVC_STAT_VOTING = 7 then
      wr F.DIAG_SVC_STAT_RESYNC 1 (wr F.DIAG_SVC_STAT_VOTING (clrBit (rd m F.DIAG_SVC_STAT_VOTING) k) (dissentReport k m))
    else sysReset 4 (unitLost 4 (svcEvent k 2 (dissentReport k m))) :=
  if_neg (Nat.not_le.mpr hk)

theorem dissentReport_reports (k : Nat) (m : Mach) : Reported 0x12 0x1201 m (dissentReport k m) := by
  have hdis : EventsKept m (bumpi F.DIAG_SVC_DIS_COUNT k 1 m) := eventsKept_bumpi _ _ _ (by decide)
  have hrestart := hdis.trans (eventsKept_onlyIf (flag m F.DIAG_SVC_STAT_RESYNC) (eventsKept_bump (f := F.DIAG_SVC_RESTART_COUNT) 1 _ (by decide)))
  exact (hrestart.trans (eventsKept_alert _ (by decide))).reported

theorem dissentReport_alert (k : Nat) (m : Mach) : rd (dissentReport k m) F.DIAG_ALERT_FLAGS_SVC = 1 :=
  (rd_raise _ _ _ _ _ (by decide)).trans (rd_alert_self _)

theorem svcDissent_outvoted_answers (ha : Awake s) (hk : k < 3) (hv : rd s.m F.DIAG_SVC_STAT_VOTING = 7) :
    Answers (.svcCoreDissent k) s (fun n => rd n F.DIAG_SVC_STAT_VOTING = 7 - 2 ^ k ∧ rd n F.DIAG_SVC_STAT_RESYNC = 1 ∧
      rd n F.DIAG_ALERT_FLAGS_SVC = 1 ∧ Reported 0x12 0x1201 s.m n) := by
  refine answers_mach _ s (svcDissent k) _ rfl ha ?_
  have hbit : ∀ k < 3, Nat.testBit 7 k = true ∧ clrBit 7 k % 2 ^ F.DIAG_SVC_STAT_VOTING.width = 7 - 2 ^ k := by decide
  obtain ⟨hvotes, hclr⟩ := hbit k hk
  rw [svcDissent_of_lt hk, hv, hvotes, if_neg (by decide), if_pos rfl]
  refine ⟨?_, ?_, ?_, reported_then _ _ _ _ _ (dissentReport_reports k s.m) ⟨[], rfl⟩⟩
  · rw [rd_wr_ne _ _ _ _ (by decide), rd_wr_self, hclr]
  · rw [rd_wr_self]
    rfl
  · rw [rd_wr_ne _ _ _ _ (by decide), rd_wr_ne _ _ _ _ (by decide), dissentReport_alert]

theorem svcDissent_noMajority_answers (ha : Awake s) (hk : k < 3) (hv : rd s.m F.DIAG_SVC_STAT_VOTING ≠ 7)
    (hb : (rd s.m F.DIAG_SVC_STAT_VOTING).testBit k = true) :
    Answers (.svcCoreDissent k) s (fun n => n.sys.held = some 4 ∧ n.ring.bypA = false ∧ n.ring.bypB = false ∧ Reported 0x12 0x1201 s.m n) := by
  refine answers_mach _ s (svcDissent k) _ rfl ha ?_
  rw [svcDissent_of_lt hk, hb, if_neg (by decide), if_neg hv]
  obtain ⟨hheld, hA, hB, hout⟩ := sysReset_holds 4 (unitLost 4 (svcEvent k 2 (dissentReport k s.m)))
  have hkept : EventsKept (dissentReport k s.m) (unitLost 4 (svcEvent k 2 (dissentReport k s.m))) :=
    (eventsKept_raise ..).trans (eventsKept_unitLost 4 _)
  exact ⟨hheld, hA, hB, reported_then _ _ _ _ _ (reported_then _ _ _ _ _ (dissentReport_reports k s.m) hkept.out) hout⟩

theorem svcResync_copied (hk : k < 3) (hf : flag m F.DIAG_SVC_STAT_RESYNC = true) (hv : rd m F.DIAG_SVC_STAT_VOTING ≠ 7)
    (hb : (rd m F.DIAG_SVC_STAT_VOTING).testBit k = false) : svcResync k m =
      svcEvent k 1 (wr F.DIAG_SVC_STAT_RESYNC 0 (wr F.DIAG_SVC_STAT_VOTING (setBit (rd m F.DIAG_SVC_STAT_VOTING) k) m)) := by
  simp only [svcResync, if_neg hv, hk, hf, hb, decide_true, Bool.not_false, Bool.and_self, if_true]

theorem svcResyncDone_answers (ha : Awake s) (hk : k < 3) (hf : flag s.m F.DIAG_SVC_STAT_RESYNC = true)
    (hv : rd s.m F.DIAG_SVC_STAT_VOTING ≠ 7) (hb : (rd s.m F.DIAG_SVC_STAT_VOTING).testBit k = false) :
    Answers (.svcResyncDone k) s (fun n => (rd n F.DIAG_SVC_STAT_VOTING).testBit k = true ∧ rd n F.DIAG_SVC_STAT_RESYNC = 0 ∧
      Reported 0x12 0x1201 s.m n) := by
  refine answers_mach _ s (svcResync k) _ rfl ha ?_
  rw [svcResync_copied hk hf hv hb]
  have hw : k < F.DIAG_SVC_STAT_VOTING.width := hk
  have hkept : EventsKept s.m (wr F.DIAG_SVC_STAT_RESYNC 0 (wr F.DIAG_SVC_STAT_VOTING (setBit (rd s.m F.DIAG_SVC_STAT_VOTING) k) s.m)) :=
    (eventsKept_wr _ _ (by decide)).trans (eventsKept_wr _ _ (by decide))
  refine ⟨?_, ?_, hkept.reported⟩ <;> rw [svcEvent, rd_raise _ _ _ _ _ (by decide)]
  · rw [rd_wr_ne _ _ _ _ (by decide), rd_wr_self, Nat.testBit_mod_two_pow, testBit_setBit_self, decide_eq_true hw]
    rfl
  · rw [rd_wr_self, Nat.zero_mod]

end Cores

/-- Settles O57, one lemma for each command and outcome. -/
theorem supervisionActs : Obligations.SupervisionActs := fun _ ha =>
  ⟨fun _ mv hr => ⟨supplyOut_answers mv ha hr, supplyBack_answers mv ha hr⟩, fun _ hlo hhi => tjSample_answers ha hlo hhi,
   fun _ hb => eccCorrected_answers ha hb,
   fun bank word _ hb => ⟨eccUncorrected_answers ha bank word hb, fun ht => by subst ht; exact eccData_answers ha bank word hb⟩,
   fun _ hk => ⟨svcDissent_outvoted_answers ha hk, svcDissent_noMajority_answers ha hk, svcResyncDone_answers ha hk⟩⟩

end Sys2Proof.Machine
end

section
/-! The machine right after a power-on reset (02 R25): its register store holds two fields alone, and every component is empty. -/
namespace Sys2Proof.Machine

/-- After a reset a field that does not lie at a place of `resetRegs` reads the reset value of its register. -/
theorem rd_reset {f : Fld} (h : mfind resetRegs (fkey f 0 0) = none) : rd State.reset.m f = f.reset :=
  congrArg (Option.getD · f.reset) h

theorem not_running_reset : running State.reset.m = false := by
  rw [running, rd_reset (by decide)]
  rfl

theorem objOf_reset (o : Nat) : objOf State.reset.m o = {} := rfl

/-- Settles O7: the fields that it names lie outside `resetRegs`, and the components are those of an empty machine. -/
theorem resetState : Obligations.ResetState := by
  refine ⟨fun _ hc => absurd hc List.not_mem_nil, rfl, rfl, rfl, rfl, ?_, not_running_reset, rfl, rfl, rfl, objOf_reset, rfl, rfl, ?_, rfl, rfl, ?_⟩
  all_goals exact rd_reset (by decide)

end Sys2Proof.Machine
end

section
/-! The queries (02 R43; 03 R69, R78; 05 R152; 08 R240): a plain command whose effect gives result data writes them by DMA and completes DONE. -/
namespace Sys2Proof.Machine

/-- What the effect of a query leaves of the machine: all that its completion is made of, decks, scene, registers, and what was written before. -/
structure QueryKept (m n : Mach) : Prop where
  deal : n.deal = m.deal
  regs : n.regs = m.regs
  dk : n.dk = m.dk
  objs : n.objs = m.objs
  epoch : n.hif.epoch = m.hif.epoch
  out : n.out = m.out

/-- A command has completed DONE and left decks, scene and registers. -/
def LeftDone (op : Nat) (c : Cmd) (m n : Mach) : Prop := n.dk = m.dk ∧ n.objs = m.objs ∧ n.regs = m.regs ∧ Completed op stDone c m n

section Queries
variable {m n q : Mach} {op st addr : Nat} {c : Cmd} {eff : Eff} {res : Pay}

theorem QueryKept.trans (h1 : QueryKept m n) (h2 : QueryKept n q) : QueryKept m q :=
  ⟨h2.deal.trans h1.deal, h2.regs.trans h1.regs, h2.dk.trans h1.dk, h2.objs.trans h1.objs, h2.epoch.trans h1.epoch, h2.out.trans h1.out⟩

theorem queryKept_refl (m : Mach) : QueryKept m m := ⟨rfl, rfl, rfl, rfl, rfl, rfl⟩

theorem queryKept_reserve (c : Cmd) (m : Mach) : QueryKept m (reserve c m) := ⟨by simp, by simp, by simp, by simp, by simp, by simp⟩

theorem queryKept_useFresh (k : Nat) (m : Mach) : QueryKept m (useFresh k m) := ⟨rfl, rfl, rfl, rfl, rfl, rfl⟩

theorem queryKept_setCtx (role k : Nat) (x : Stream) (m : Mach) : QueryKept m (setCtx role k x m) := ⟨rfl, rfl, rfl, rfl, rfl, rfl⟩

theorem queryKept_setFrm (x : Frm) (m : Mach) : QueryKept m (setFrm x m) := ⟨rfl, rfl, rfl, rfl, rfl, rfl⟩

/-! What a query reads is no business of the completion entries that it reserves. -/

@[simp] theorem bufOk_reserve (w : Bool) : bufOk c w (reserve c m) = bufOk c w m := by
  simp only [bufOk, reserve_lat]

theorem digestResult_reserve : digestResult (reserve c m) = digestResult m := by
  simp only [digestResult, stagedDigest, reserve_deal, reserve_dk]

theorem timeResult_reserve (kind l : Nat) : timeResult kind l (reserve c m) = timeResult kind l m := by
  unfold reserve
  split <;> rfl

theorem eqSize_reserve (e : Nat) : eqSize (reserve c m).hif e = eqSize m.hif e := by
  simp only [eqSize, hlat, reserve_lat]

theorem reserve_eqProd : (reserve c m).hif.eqProd = m.hif.eqProd := by
  unfold reserve
  split <;> rfl

theorem final_eqProd (tk : Ticket) : (final tk st n).hif.eqProd = n.hif.eqProd := by
  unfold final completeWith
  split
  · exact (apply_ite Hif.eqProd ..).trans (ite_self _)
  · rfl
  · rfl

/-- A completion written after changes that have only added to the output is written since before them. -/
theorem completed_since (hr : running n = running m) (hd : n.deal = m.deal) (ho : ∃ l, n.out = l ++ m.out) (h : Completed op st c n q) :
    Completed op st c m q := by
  obtain ⟨l, ho⟩ := ho
  intro hm k hk
  obtain ⟨ring, idx, l', hl', hmem⟩ := h (hr.trans hm) k hk
  exact ⟨ring, idx, l' ++ l, by rw [hl', ho, List.append_assoc], List.mem_append_left _ (hd ▸ hmem)⟩

theorem QueryKept.completed {k : Nat} (hk : QueryKept m n) (hc : c.src = .ring k) :
    Completed op st c m (finalWith (nowTicket op c m) st addr res n) := by
  obtain ⟨hdeal, hregs, -, -, hepoch, hout⟩ := hk
  have hfinal : ∀ n', n'.deal = n.deal → n'.regs = n.regs → n'.hif = n.hif → (∃ l, n'.out = l ++ n.out) →
      Completed op st c m (final (nowTicket op c m) st n') := fun n' hd hr hh ho =>
    completed_since (running_congr _ _ (hr.trans hregs)) (hd.trans hdeal) (hout ▸ ho)
      (final_completed _ _ _ _ _ _ rfl rfl rfl (hepoch.symm.trans (congrArg Hif.epoch hh.symm)) rfl rfl rfl)
  simp only [finalWith, nowTicket, hc]
  split
  · exact hc ▸ hfinal _ rfl rfl rfl ⟨[_], rfl⟩
  · exact hc ▸ hfinal _ rfl rfl rfl ⟨[], rfl⟩

/-- A plain query: its result leaves by DMA, it completes DONE, and decks, scene and registers stay. -/
theorem plain_query (hp : Plain op c m) (hop : op ≠ 0x0102) (hn : eff c (nowTicket op c m) (reserve c m) = (n, { res := res }))
    (hk : QueryKept (reserve c m) n) (hres : res ≠ []) :
    let f := hostRow op eff c m
    LeftDone op c m f ∧ f.tim = n.tim ∧
      (running m = true → NewOut m f (.dma (bufAddr c) res)) := by
  have hk' := (queryKept_reserve c m).trans hk
  obtain ⟨k, hc⟩ := hp.1
  intro f
  have hf : f = finalWith (nowTicket op c m) stDone (bufAddr c) res n := plain_result op eff c m n res hp (fun h => absurd h hop) hn hk'.deal
  rw [hf, LeftDone, finalWith_dk, finalWith_objs, finalWith_regs, finalWith_tim]
  refine ⟨⟨hk'.dk, hk'.objs, hk'.regs, hk'.completed hc⟩, rfl, fun hr => ?_⟩
  exact finalWith_dma op stDone _ c m n res k hc hres ((running_congr _ _ hk'.regs).trans hr) hk'.epoch hk'.out

end Queries

section Effects
variable {s : State} {c : Cmd} {tk : Ticket} {m : Mach}

/-! The effects of the queries. -/

theorem deckDigest_result (hb : bufOk c true m = true) (hl : 64 ≤ bufLen c) : deckDigest c tk m = (m, { res := digestResult m }) := by
  simp [deckDigest, hb, Nat.not_lt.mpr hl]

theorem timeQuery_result (hb : bufOk c true m = true) (hk : u8 c 24 ≤ 1) (hp : u8 c 25 ≤ 1) (hl : 64 ≤ bufLen c) :
    timeQuery c tk m = (m, { res := timeResult (u8 c 24) (u8 c 25) m }) := by
  simp [timeQuery, hb, Nat.not_lt.mpr hk, Nat.not_lt.mpr hp, Nat.not_lt.mpr hl]

theorem counterQuery_result (hb : bufOk c true m = true) (hl : 16 ≤ bufLen c) {l : List (Nat × Nat)}
    (h : (countersOf (u8 c 24) (u16 c 26) m).1 = some l) : counterQuery c tk m =
      ((countersOf (u8 c 24) (u16 c 26) m).2, { res := counterResult m.deal (u8 c 24) (u16 c 26) (bufLen c) l }) := by
  simp [counterQuery, hb, Nat.not_lt.mpr hl, h]

/-- A read of counters clears at most the peak of a listener or of a meter. -/
theorem queryKept_countersOf (group i : Nat) (m : Mach) : QueryKept m (countersOf group i m).2 := by
  have hstream : ∀ role, QueryKept m (streamCounters role i m).2 := fun role => by
    simp only [streamCounters]
    split
    · exact queryKept_refl m
    · split
      · exact queryKept_refl m
      · exact queryKept_setCtx ..
  have hmeter : QueryKept m (meterCounters (i - 0x0100) m).2 := by
    unfold meterCounters
    split
    · exact queryKept_refl m
    · exact queryKept_setFrm ..
  unfold countersOf
  split
  case h_2 | h_3 => exact hstream _
  case h_10 =>
    (repeat' split)
    · exact queryKept_refl m
    · exact hmeter
    · exact queryKept_refl m
  all_goals exact queryKept_refl m

/-- The result of a latency query of a path from a source to a consumer that both exist. -/
def latencyAnswer (c : Cmd) (st : List (Nat × Leg)) (goal : Nat → List Leg) (m : Mach) : Mach × Pay :=
  latencyResult (st.flatMap (fun q => (legsFrom m goal 4097 [q.1] q.1).map (Leg_add q.2)))
    (if u8 c 24 = 0 then (ctxOf m 0 (u16 c 26)).depth * spd m else 0) (if u8 c 24 = 0 then (ctxOf m 0 (u16 c 26)).ofs else 0) m

theorem latencyQuery_result (hb : bufOk c true m = true) (hl : 64 ≤ bufLen c) {st : List (Nat × Leg)} {goal : Nat → List Leg}
    (hs : pathStarts m (u8 c 24) (u16 c 26) (u16 c 28) = some st) (he : pathEnds m (u8 c 25) (u16 c 30) (u16 c 32) = some goal) :
    latencyQuery c tk m = ((latencyAnswer c st goal m).1, { res := (latencyAnswer c st goal m).2 }) := by
  simp only [latencyQuery, hb, hs, he, Nat.not_lt.mpr hl, latencyAnswer, beq_iff_eq]
  rfl

theorem eventDropPacket_done (hk : u8 c 24 ≤ 7) (he : eqSize m.hif (u8 c 24) ≠ 0) : eventDropPacket c tk m = okM m := by
  simp [eventDropPacket, Nat.not_lt.mpr hk, he]

theorem deckDigest_answers (ha : Awake s) (hb : bufOk c true s.m = true) (hp : Plain 0x0103 c s.m) (hl : 64 ≤ bufLen c) :
    Answers (.deckDigest c) s (fun n => LeftDone 0x0103 c s.m n ∧
      (running s.m = true → NewOut s.m n (.dma (bufAddr c) (digestResult s.m)))) := by
  refine answers_mach _ s _ _ rfl ha ?_
  obtain ⟨hleft, -, hout⟩ := plain_query (eff := deckDigest) hp (by decide) (deckDigest_result (by simpa using hb) hl) (queryKept_refl _)
    (List.cons_ne_nil _ _)
  exact ⟨hleft, digestResult_reserve (m := s.m) ▸ hout⟩

theorem timeQuery_answers (ha : Awake s) (hb : bufOk c true s.m = true) (hp : Plain 0x0A03 c s.m) (hk : u8 c 24 ≤ 1) (hq : u8 c 25 ≤ 1)
    (hl : 64 ≤ bufLen c) :
    Answers (.timeQuery c) s (fun n => LeftDone 0x0A03 c s.m n ∧
      n.tim = s.m.tim ∧ (running s.m = true → NewOut s.m n (.dma (bufAddr c) (timeResult (u8 c 24) (u8 c 25) s.m)))) := by
  refine answers_mach _ s _ _ rfl ha ?_
  have hne : ∀ m, timeResult (u8 c 24) (u8 c 25) m ≠ [] := fun m => by
    unfold timeResult
    split <;> exact List.cons_ne_nil _ _
  obtain ⟨hleft, htim, hout⟩ := plain_query (eff := timeQuery) hp (by decide) (timeQuery_result (by simpa using hb) hk hq hl)
    (queryKept_refl _) (hne _)
  exact ⟨hleft, htim.trans (reserve_tim ..), timeResult_reserve (m := s.m) _ _ ▸ hout⟩

theorem counterQuery_answers (ha : Awake s) (hb : bufOk c true s.m = true) (hp : Plain 0x0A02 c s.m) (hl : 16 ≤ bufLen c)
    {l : List (Nat × Nat)} (h : (countersOf (u8 c 24) (u16 c 26) (reserve c s.m)).1 = some l) :
    Answers (.counterQuery c) s (fun n => LeftDone 0x0A02 c s.m n ∧
      (running s.m = true → NewOut s.m n (.dma (bufAddr c) (counterResult s.m.deal (u8 c 24) (u16 c 26) (bufLen c) l)))) := by
  refine answers_mach _ s _ _ rfl ha ?_
  obtain ⟨hleft, -, hout⟩ := plain_query (eff := counterQuery) hp (by decide) (counterQuery_result (by simpa using hb) hl h)
    (queryKept_countersOf ..) (List.cons_ne_nil _ _)
  exact ⟨hleft, reserve_deal c s.m ▸ hout⟩

theorem latencyQuery_answers (ha : Awake s) (hb : bufOk c true s.m = true) (hp : Plain 0x0A01 c s.m) (hl : 64 ≤ bufLen c)
    {st : List (Nat × Leg)} {goal : Nat → List Leg} (hs : pathStarts (reserve c s.m) (u8 c 24) (u16 c 26) (u16 c 28) = some st)
    (he : pathEnds (reserve c s.m) (u8 c 25) (u16 c 30) (u16 c 32) = some goal) :
    Answers (.latencyQuery c) s (fun n => LeftDone 0x0A01 c s.m n ∧
      (running s.m = true → NewOut s.m n (.dma (bufAddr c) (latencyAnswer c st goal (reserve c s.m)).2))) := by
  refine answers_mach _ s _ _ rfl ha ?_
  obtain ⟨hleft, -, hout⟩ := plain_query (eff := latencyQuery) hp (by decide) (latencyQuery_result (by simpa using hb) hl hs he)
    (queryKept_useFresh ..) (List.cons_ne_nil _ _)
  exact ⟨hleft, hout⟩

theorem eventDropPacket_answers (ha : Awake s) (hp : Plain 0x0B01 c s.m) (hk : u8 c 24 ≤ 7) (he : eqSize s.m.hif (u8 c 24) ≠ 0) :
    Answers (.eventDropPacket c) s (fun n => LeftDone 0x0B01 c s.m n ∧
      n.hif.eqProd = s.m.hif.eqProd) := by
  refine answers_mach _ s _ _ rfl ha ?_
  have hn := eventDropPacket_done (tk := nowTicket 0x0B01 c s.m) hk ((eqSize_reserve (c := c) _).trans_ne he)
  have hkept := queryKept_reserve c s.m
  obtain ⟨k, hc⟩ := hp.1
  rw [plain_status 0x0B01 stDone _ _ _ _ hp (fun h => absurd h (by decide)) hn hkept.deal]
  refine ⟨⟨by simp, by simp, by simp, ?_⟩, (final_eqProd _).trans reserve_eqProd⟩
  rw [← finalWith_ring_nil _ stDone 0 _ k hc]
  exact hkept.completed hc

end Effects

/-- Settles O14, one lemma for each query. -/
theorem queriesAnswer : Obligations.QueriesAnswer := fun _ _ ha =>
  ⟨fun hb hp hl => deckDigest_answers ha hb hp hl, fun hb hp hl _ _ hs he => latencyQuery_answers ha hb hp hl hs he,
   fun hb hp hl _ h => counterQuery_answers ha hb hp hl h, fun hb hp hk hq hl => timeQuery_answers ha hb hp hk hq hl,
   fun hp hk he => eventDropPacket_answers ha hp hk he⟩

end Sys2Proof.Machine
end

section
/-! Kernel faults and lane overflows (09 R249, R264), and the rate bridges of a domain (02 R30). -/
namespace Sys2Proof.Machine

section Loops
variable {α : Type} {m : Mach} {f : Fld}

theorem eventsKept_forEach {g : α → Mach → Mach} (h : ∀ a n, EventsKept n (g a n)) (l : List α) (m : Mach) :
    EventsKept m (forEach l g m) := by
  induction l generalizing m with
  | nil => exact eventsKept_refl m
  | cons a l ih => exact (h a m).trans (ih _)

theorem eventsKept_wri (i v : Nat) (m : Mach) (h : ∀ i < f.n1, fkey F.HIF_STATUS_RUNNING 0 0 ≠ fkey f i 0) : EventsKept m (wri f i v m) := by
  unfold wri
  split
  case isTrue hi => exact ⟨by simp only [running, rd, rgetij_rsetij_ne _ _ _ _ _ _ _ _ (h i hi)], rfl, [], rfl⟩
  case isFalse => exact eventsKept_refl m

theorem rdi_bumpi_self {i : Nat} (hi : i < f.n1) (n : Nat) (m : Mach) :
    rdi (bumpi f i n m) f i = min (2 ^ f.width - 1) (rdi m f i + n) := by
  have hlt : min (2 ^ f.width - 1) (rdi m f i + n) < 2 ^ f.width := by
    have := Nat.two_pow_pos f.width
    omega
  simp only [rdi, bumpi, hi, if_true, rbump, rgetij_rsetij_self]
  exact Nat.mod_eq_of_lt hlt

theorem rdi_bumpi_ne {g : Fld} {k : Nat} (i n : Nat) (m : Mach) (h : i < f.n1 → fkey g k 0 ≠ fkey f i 0) :
    rdi (bumpi f i n m) g k = rdi m g k := by
  unfold rdi bumpi
  split
  case isTrue hi => exact rgetij_rsetij_ne _ _ _ _ _ _ _ _ (h hi)
  case isFalse => rfl

end Loops

/-! User kernels. -/

section Kernels
variable {s : State} {m : Mach} {node cause instr addr : Nat} {d : NodeD}

/-- The machine with a node silenced. -/
def silenced (node : Nat) (m : Mach) : Mach :=
  setFrm { m.frm with nodes := mput node { mget {} m.frm.nodes node with silent := true } m.frm.nodes, hurt := insertNat node m.frm.hurt } m

theorem kernelFault_running (hd : nodeAt m node = some d) (ht : d.typ = 0x12) (hs : (mget {} m.frm.nodes node).silent = false) (h1 : 1 ≤ cause)
    (h3 : cause ≤ 3) : kernelFault node cause instr addr m = faultRecord d cause instr addr (silenced node m) := by
  simp [kernelFault, hd, ht, hs, Nat.ne_of_gt h1, Nat.not_lt.mpr h3, silenced]

theorem faultRecord_frm : (faultRecord d cause instr addr m).frm = m.frm := rfl

theorem faultRecord_cluster (hc : d.cluster < 16) : (rd (faultRecord d cause instr addr m) F.DIAG_CL_FAULT_CLUSTER).testBit d.cluster = true := by
  have hw : d.cluster < F.DIAG_CL_FAULT_CLUSTER.width := hc
  rw [faultRecord, rd_raise _ _ _ _ _ (by decide), orReg, rd_wr_self]
  simp [Nat.testBit_mod_two_pow, Nat.testBit_or, Nat.testBit_two_pow_self, hw]

theorem kernelFault_answers (ha : Awake s) (hd : nodeAt s.m node = some d) (ht : d.typ = 0x12) (hc : d.cluster < 16)
    (hs : (mget {} s.m.frm.nodes node).silent = false) (h1 : 1 ≤ cause) (h3 : cause ≤ 3) :
    Answers (.kernelFault node cause instr addr) s (fun n => (mget {} n.frm.nodes node).silent = true ∧ node ∈ n.frm.hurt ∧
      (rd n F.DIAG_CL_FAULT_CLUSTER).testBit d.cluster = true ∧ Reported 0x0C 0x0C02 s.m n) := by
  refine answers_mach _ s (kernelFault node cause instr addr) _ rfl ha ?_
  rw [kernelFault_running hd ht hs h1 h3, faultRecord_frm]
  have hsilent : EventsKept s.m (silenced node s.m) := .of_eq rfl rfl rfl
  refine ⟨?_, mem_insertNat_self .., faultRecord_cluster hc, ?_⟩
  · simp [silenced]
  · exact (hsilent.trans (eventsKept_wr _ _ (by decide))).reported

end Kernels

/-! Lane overflows. -/

section Lanes
variable {s : State} {m : Mach} {c lanes signs node : Nat}

/-- The counts of the lanes of cluster c, those of a list raised by one. -/
def countLanes (c : Nat) (l : List Nat) (m : Mach) : Mach := forEach l (fun l m => bumpi F.DIAG_LANE_OVF_COUNT (8 * c + l) 1 m) m

theorem laneKey_ne {i j : Nat} (h : i ≠ j) : fkey F.DIAG_LANE_OVF_COUNT i 0 ≠ fkey F.DIAG_LANE_OVF_COUNT j 0 := by
  simp only [fkey, F.DIAG_LANE_OVF_COUNT]
  omega

theorem rdi_countLanes {l : List Nat} {i : Nat} (hl : l.Nodup) (hi : 8 * c + i < F.DIAG_LANE_OVF_COUNT.n1) (m : Mach) :
    rdi (countLanes c l m) F.DIAG_LANE_OVF_COUNT (8 * c + i) =
      if i ∈ l then min (2 ^ F.DIAG_LANE_OVF_COUNT.width - 1) (rdi m F.DIAG_LANE_OVF_COUNT (8 * c + i) + 1)
      else rdi m F.DIAG_LANE_OVF_COUNT (8 * c + i) := by
  induction l generalizing m with
  | nil => rfl
  | cons a l ih =>
    obtain ⟨ha, hl⟩ := List.nodup_cons.mp hl
    refine (ih hl _).trans ?_
    by_cases hai : i = a
    · subst hai
      rw [if_neg ha, if_pos List.mem_cons_self, rdi_bumpi_self hi]
    · rw [rdi_bumpi_ne _ _ _ fun _ => laneKey_ne (by omega)]
      simp only [List.mem_cons, hai, false_or]

theorem rdi_countLanes_flag (l : List Nat) {g : Nat} (hg : g < 4) (m : Mach) :
    rdi (countLanes c l m) F.DIAG_OVF_FLAG_LANE g = rdi m F.DIAG_OVF_FLAG_LANE g := by
  refine forEach_keep (fun n => rdi n F.DIAG_OVF_FLAG_LANE g) _ _ (fun k n => rdi_bumpi_ne _ _ _ fun hk => ?_) m
  simp only [fkey, F.DIAG_OVF_FLAG_LANE, F.DIAG_LANE_OVF_COUNT] at hk ⊢
  omega

theorem mem_bitsOf {w n k : Nat} : k ∈ bitsOf w n ↔ k < w ∧ n.testBit k = true := by
  simp only [bitsOf, List.mem_filter, List.mem_range]

theorem bitsOf_nodup (w n : Nat) : (bitsOf w n).Nodup := List.nodup_range.filter _

/-- The machine with an overflow counted and flagged. -/
def flagLanes (c lanes : Nat) (m : Mach) : Mach :=
  wri F.DIAG_OVF_FLAG_LANE (c / 4) (rdi m F.DIAG_OVF_FLAG_LANE (c / 4) ||| (lanes * 2 ^ (8 * (c % 4)))) (countLanes c (bitsOf 8 lanes) m)

theorem laneOverflow_of_lt (hc : c < 16) (h0 : 0 < lanes) (h8 : lanes < 256) : laneOverflow c lanes signs node m =
    onlyIf (!ovfAny m c) (raise 0x0C 0x0C01 [(2, node), (1, c), (1, lanes), (4, ((nodeAt m node).map (fun d => d.id)).getD 0),
      (1, signs % 256 &&& lanes), (3, 0), (4, 0)]) (flagLanes c lanes m) := by
  have hflag := rdi_countLanes_flag (c := c) (bitsOf 8 lanes) (g := c / 4) (by omega) m
  unfold countLanes at hflag
  simp only [laneOverflow, Nat.not_le.mpr hc, Nat.mod_eq_of_lt h8, Nat.ne_of_gt h0, decide_false, Bool.false_or, Bool.false_eq_true, if_false,
    hflag, flagLanes, countLanes]

theorem rdi_laneOverflow {g : Fld} {i : Nat} (hc : c < 16) (h0 : 0 < lanes) (h8 : lanes < 256)
    (hg : fkey g i 0 ≠ fkey F.HIF_EV_DISCARD_COUNT 0 0) : rdi (laneOverflow c lanes signs node m) g i = rdi (flagLanes c lanes m) g i := by
  rw [laneOverflow_of_lt hc h0 h8]
  exact onlyIf_keep (fun n => rdi n g i) _ _ _ (rdi_raise _ _ _ _ _ _ hg)

theorem eventsKept_flagLanes : EventsKept m (flagLanes c lanes m) :=
  (eventsKept_forEach (fun _ n => eventsKept_bumpi _ _ n (by decide)) _ m).trans (eventsKept_wri _ _ _ (by decide))

theorem laneOverflow_answers (ha : Awake s) (hc : c < 16) (h0 : 0 < lanes) (h8 : lanes < 256) :
    Answers (.laneOverflow c lanes signs node) s (fun n =>
      rdi n F.DIAG_OVF_FLAG_LANE (c / 4) = (rdi s.m F.DIAG_OVF_FLAG_LANE (c / 4) ||| (lanes * 2 ^ (8 * (c % 4)))) % 2 ^ 32 ∧
      (∀ l, l < 8 → rdi n F.DIAG_LANE_OVF_COUNT (8 * c + l) =
        if lanes.testBit l then min (2 ^ F.DIAG_LANE_OVF_COUNT.width - 1) (rdi s.m F.DIAG_LANE_OVF_COUNT (8 * c + l) + 1)
        else rdi s.m F.DIAG_LANE_OVF_COUNT (8 * c + l)) ∧
      (ovfAny s.m c = false → Reported 0x0C 0x0C01 s.m n)) := by
  refine answers_mach _ s (laneOverflow c lanes signs node) _ rfl ha ⟨?_, fun l hl => ?_, fun hany => ?_⟩
  · have hi : c / 4 < F.DIAG_OVF_FLAG_LANE.n1 := show c / 4 < 4 by omega
    rw [rdi_laneOverflow hc h0 h8, flagLanes, rdi_wri_self _ _ _ _ hi]
    · rfl
    · simp only [fkey, F.DIAG_OVF_FLAG_LANE, F.HIF_EV_DISCARD_COUNT]
      omega
  · have hi : 8 * c + l < F.DIAG_LANE_OVF_COUNT.n1 := show 8 * c + l < 128 by omega
    rw [rdi_laneOverflow hc h0 h8, flagLanes, rdi_wri_ne, rdi_countLanes (bitsOf_nodup ..) hi]
    · simp only [mem_bitsOf, hl, true_and]
    · simp only [fkey, F.DIAG_LANE_OVF_COUNT, F.DIAG_OVF_FLAG_LANE]
      omega
    · simp only [fkey, F.DIAG_LANE_OVF_COUNT, F.HIF_EV_DISCARD_COUNT]
      omega
  · rw [laneOverflow_of_lt hc h0 h8, hany]
    exact eventsKept_flagLanes.reported

end Lanes

/-! The bridges of a domain. -/

section Bridges
variable {s : State} {m : Mach} {dir rate ch : Nat} {code : Nat} {next : Nat → Nat}

/-- A channel takes the state that follows its own, which is reported where it is another one. -/
def moveBridge (code : Nat) (next : Nat → Nat) (dir rate ch : Nat) (m : Mach) : Mach :=
  let st := mget 0 m.frm.brStat ch
  if next st ≠ st then bridgeEvent code ch dir rate (setBridge ch (next st) m) else m

/-- The state of a channel after the loss of its domain's clock. -/
def lostState (st : Nat) : Nat := if st = 1 then 2 else if st = 3 then 0 else st

/-- The state of a channel after its domain's clock has locked. -/
def lockedState (st : Nat) : Nat := if st = 0 ∨ st = 2 then 3 else st

theorem channelLost_eq : channelLost dir rate ch m = moveBridge 0x0A01 lostState dir rate ch m := by
  simp only [channelLost, moveBridge]
  by_cases h1 : mget 0 m.frm.brStat ch = 1
  · simp [lostState, h1]
  · by_cases h3 : mget 0 m.frm.brStat ch = 3 <;> simp [lostState, h1, h3]

theorem channelLocked_eq : channelLocked dir rate ch m = moveBridge 0x0A02 lockedState dir rate ch m := by
  simp only [channelLocked, moveBridge]
  by_cases h : mget 0 m.frm.brStat ch = 0 ∨ mget 0 m.frm.brStat ch = 2
  · have hne : 3 ≠ mget 0 m.frm.brStat ch := by omega
    simp [lockedState, h, hne]
  · simp [lockedState, h]

theorem lostState_idem (st : Nat) : lostState (lostState st) = lostState st := by
  simp only [lostState]
  (repeat' split) <;> omega

theorem lockedState_idem (st : Nat) : lockedState (lockedState st) = lockedState st := by
  simp only [lockedState]
  (repeat' split) <;> omega

theorem showBridges_frm (m : Mach) : (showBridges m).frm = m.frm := by
  rw [showBridges]
  exact forEach_keep (fun n => n.frm) _ _ (fun _ n => wri_frm _ _ _ n) m

theorem eventsKept_setBridge (st : Nat) (m : Mach) : EventsKept m (setBridge ch st m) :=
  have hset : EventsKept m (setFrm { m.frm with brStat := mset 0 ch st m.frm.brStat } m) := .of_eq rfl rfl rfl
  hset.trans (eventsKept_forEach (fun _ n => eventsKept_wri _ _ n (by decide)) _ _)

theorem eventsKept_moveBridge (m : Mach) : EventsKept m (moveBridge code next dir rate ch m) := by
  simp only [moveBridge]
  split
  · exact (eventsKept_setBridge _ m).trans (eventsKept_raise ..)
  · exact eventsKept_refl m

theorem moveBridge_brStat_self : mget 0 (moveBridge code next dir rate ch m).frm.brStat ch = next (mget 0 m.frm.brStat ch) := by
  simp only [moveBridge]
  split
  case isTrue => simp [bridgeEvent, setBridge, showBridges_frm]
  case isFalse h => exact (not_not.mp h).symm

theorem moveBridge_brStat_ne {k : Nat} (h : k ≠ ch) :
    mget 0 (moveBridge code next dir rate ch m).frm.brStat k = mget 0 m.frm.brStat k := by
  simp only [moveBridge]
  split
  · simp [bridgeEvent, setBridge, showBridges_frm, mget_mset_ne _ _ _ _ _ h]
  · rfl

/-- Each channel of a list takes the state that follows its own, and no other one, however often the list names it. -/
theorem moveBridges_brStat (hn : ∀ st, next (next st) = next st) (l : List Nat) (k : Nat) (m : Mach) :
    mget 0 (forEach l (moveBridge code next dir rate) m).frm.brStat k = if k ∈ l then next (mget 0 m.frm.brStat k) else mget 0 m.frm.brStat k := by
  induction l generalizing m with
  | nil => rfl
  | cons a l ih =>
    refine (ih _).trans ?_
    by_cases hk : k = a
    · subst hk
      simp only [moveBridge_brStat_self, hn, ite_self, List.mem_cons_self, if_true]
    · simp only [moveBridge_brStat_ne hk, List.mem_cons, hk, false_or]

theorem moveBridges_reports {l : List Nat} {k : Nat} (hk : k ∈ l) (h : next (mget 0 m.frm.brStat k) ≠ mget 0 m.frm.brStat k) :
    Reported 0x0A code m (forEach l (moveBridge code next dir rate) m) := by
  induction l generalizing m with
  | nil => exact absurd hk List.not_mem_nil
  | cons a l ih =>
    by_cases hka : k = a
    · subst hka
      refine reported_then _ _ _ _ _ ?_ (eventsKept_forEach (fun _ n => eventsKept_moveBridge n) l _).out
      simp only [moveBridge, h, ne_eq, not_false_eq_true, if_true]
      exact (eventsKept_setBridge _ m).reported
    · exact reported_since (eventsKept_moveBridge m) (ih ((List.mem_cons.mp hk).resolve_left hka) (by rwa [moveBridge_brStat_ne hka]))

theorem mem_domainChs (h : bridgeDir m ch = some dir) : ch ∈ domainChs m dir := by
  obtain ⟨p, hp, rfl⟩ := Option.map_eq_some_iff.mp h
  have hch : p.1 = ch := by simpa using List.find?_some hp
  exact List.mem_map.mpr ⟨p, List.mem_filter.mpr ⟨List.mem_of_find?_eq_some hp, by simp⟩, hch⟩

theorem setInRange_frm (n : Nat) (m : Mach) : (setInRange dir n m).frm = m.frm := by
  unfold setInRange
  split <;> rfl

theorem setInRange_out (n : Nat) (m : Mach) : ∃ l, (setInRange dir n m).out = l ++ m.out := by
  refine ⟨[], ?_⟩
  unfold setInRange
  split <;> rfl

theorem bridgeLost_answers (ha : Awake s) (h : bridgeDir s.m ch = some dir) :
    Answers (.bridgeLost ch rate) s (fun n => ∀ k, k = ch ∨ k ∈ domainChs s.m dir →
      (mget 0 s.m.frm.brStat k = 1 → mget 0 n.frm.brStat k = 2 ∧ Reported 0x0A 0x0A01 s.m n) ∧
      (mget 0 s.m.frm.brStat k = 3 → mget 0 n.frm.brStat k = 0 ∧ Reported 0x0A 0x0A01 s.m n)) := by
  refine answers_mach _ s (bridgeLost ch rate) _ rfl ha fun k hk => ?_
  replace hk : k ∈ domainChs s.m dir := hk.elim (fun e => e ▸ mem_domainChs h) id
  have hlost : bridgeLost ch rate s.m = setInRange dir 0 (forEach (domainChs s.m dir) (moveBridge 0x0A01 lostState dir rate) s.m) := by
    simp only [bridgeLost, h, domainLost, ← funext₂ fun k n => channelLost_eq (dir := dir) (rate := rate) (ch := k) (m := n)]
  have hmoves : lostState (mget 0 s.m.frm.brStat k) ≠ mget 0 s.m.frm.brStat k → Reported 0x0A 0x0A01 s.m (bridgeLost ch rate s.m) := fun hne => by
    rw [hlost]
    exact reported_then _ _ _ _ _ (moveBridges_reports hk hne) (setInRange_out ..)
  have hstat : mget 0 (bridgeLost ch rate s.m).frm.brStat k = lostState (mget 0 s.m.frm.brStat k) := by
    rw [hlost, setInRange_frm, moveBridges_brStat lostState_idem, if_pos hk]
  refine ⟨fun hst => ?_, fun hst => ?_⟩
  · exact ⟨by rw [hstat, hst]; rfl, hmoves (by rw [hst]; decide)⟩
  · exact ⟨by rw [hstat, hst]; rfl, hmoves (by rw [hst]; decide)⟩

theorem bridgeLocked_answers (ha : Awake s) (h : bridgeDir s.m ch = some dir) (hr : inRange64 s.m dir = true) :
    Answers (.bridgeLocked ch rate) s (fun n => ∀ k, k = ch ∨ k ∈ domainChs s.m dir →
      (mget 0 s.m.frm.brStat k = 0 ∨ mget 0 s.m.frm.brStat k = 2 → mget 0 n.frm.brStat k = 3 ∧ Reported 0x0A 0x0A02 s.m n)) := by
  refine answers_mach _ s (bridgeLocked ch rate) _ rfl ha fun k hk hst => ?_
  replace hk : k ∈ domainChs s.m dir := hk.elim (fun e => e ▸ mem_domainChs h) id
  have hlocked : bridgeLocked ch rate s.m = forEach (domainChs s.m dir) (moveBridge 0x0A02 lockedState dir rate) s.m := by
    simp only [bridgeLocked, h, hr, onlyIf_true, ← funext₂ fun k n => channelLocked_eq (dir := dir) (rate := rate) (ch := k) (m := n)]
  have hnext : lockedState (mget 0 s.m.frm.brStat k) = 3 := if_pos hst
  rw [hlocked]
  refine ⟨?_, moveBridges_reports hk (by omega)⟩
  rw [moveBridges_brStat lockedState_idem, if_pos hk, hnext]

end Bridges

end Sys2Proof.Machine
end

section
/-! The pace of a machine: what a deal boundary turns on and every part of the device leaves alone (02 R24, R25). One lemma for each function,
in the order of the model; what does change the pace comes last. -/
namespace Sys2Proof.Machine

/-- What a deal boundary turns on: the deal and its tick, the epoch of the host interface, the commands that wait, the resets asked for, the
number that the next tick takes, and the frame program's commit and its run of overruns. -/
structure Pace where
  deal : Nat
  ticks : Nat
  epoch : Nat
  held : List Held
  sent : List Sent
  reset : Option (Nat × Nat)
  req : Option (Nat × Nat)
  starts : Option Nat
  next : Option Nat
  committed : Bool
  run : Nat

/-- The pace of a machine. -/
def pace (m : Mach) : Pace :=
  ⟨m.deal, m.ticks, m.hif.epoch, m.hif.held, m.hif.sent, m.pwr.reset, m.pwr.req, m.tim.starts, m.tim.next, m.frm.committed, m.frm.run⟩

@[simp] theorem pace_mk (deal ticks regs setup hif fresh out clk tim tic ring str dk frm objs rend vote cor icom sap pwr ann sec dom gpio sys) :
    pace ⟨deal, ticks, regs, setup, hif, fresh, out, clk, tim, tic, ring, str, dk, frm, objs, rend, vote, cor, icom, sap, pwr, ann, sec, dom,
      gpio, sys⟩ = ⟨deal, ticks, hif.epoch, hif.held, hif.sent, pwr.reset, pwr.req, tim.starts, tim.next, frm.committed, frm.run⟩ := (rfl)

@[simp] theorem pace_fold (m : Mach) : Pace.mk m.deal m.ticks m.hif.epoch m.hif.held m.hif.sent m.pwr.reset m.pwr.req m.tim.starts m.tim.next
    m.frm.committed m.frm.run = pace m := (rfl)

@[simp] theorem pace_deal (m : Mach) : (pace m).deal = m.deal := (rfl)
@[simp] theorem pace_ticks (m : Mach) : (pace m).ticks = m.ticks := (rfl)
@[simp] theorem pace_epoch (m : Mach) : (pace m).epoch = m.hif.epoch := (rfl)
@[simp] theorem pace_held (m : Mach) : (pace m).held = m.hif.held := (rfl)
@[simp] theorem pace_sent (m : Mach) : (pace m).sent = m.hif.sent := (rfl)
@[simp] theorem pace_reset (m : Mach) : (pace m).reset = m.pwr.reset := (rfl)
@[simp] theorem pace_req (m : Mach) : (pace m).req = m.pwr.req := (rfl)
@[simp] theorem pace_starts (m : Mach) : (pace m).starts = m.tim.starts := (rfl)
@[simp] theorem pace_next (m : Mach) : (pace m).next = m.tim.next := (rfl)
@[simp] theorem pace_committed (m : Mach) : (pace m).committed = m.frm.committed := (rfl)
@[simp] theorem pace_run (m : Mach) : (pace m).run = m.frm.run := (rfl)

section Paces
variable {α : Type} {m : Mach} {f : Fld} {i v n : Nat}

@[simp] theorem wr_pace : pace (wr f v m) = pace m := (rfl)
@[simp] theorem wri_pace : pace (wri f i v m) = pace m := (rfl)
@[simp] theorem bump_pace : pace (bump f n m) = pace m := (rfl)
@[simp] theorem bumpi_pace : pace (bumpi f i n m) = pace m := (rfl)
@[simp] theorem orReg_pace : pace (orReg f n m) = pace m := (rfl)
@[simp] theorem sapWr_pace : pace (sapWr f n v m) = pace m := (rfl)
@[simp] theorem alBit_pace (b : Bool) : pace (alBit f n b m) = pace m := (rfl)

@[simp] theorem ite_pace (c : Prop) [Decidable c] (a b : Mach) : pace (if c then a else b) = if c then pace a else pace b := apply_ite pace c a b
@[simp] theorem onlyIf_pace (b : Bool) (g : Mach → Mach) : pace (onlyIf b g m) = if b then pace (g m) else pace m := ite_pace ..
@[simp] theorem forEach_pace (l : List α) (g : α → Mach → Mach) (h : ∀ a n, pace (g a n) = pace n) : pace (forEach l g m) = pace m :=
  forEach_keep pace l g h m

@[simp] theorem setFrm_pace (x : Frm) (hc : x.committed = m.frm.committed) (hr : x.run = m.frm.run) : pace (setFrm x m) = pace m := by
  simp [setFrm, hc, hr]
@[simp] theorem setTim_pace (x : Tim) (hs : x.starts = m.tim.starts) (hn : x.next = m.tim.next) : pace (setTim x m) = pace m := by
  simp [setTim, hs, hn]
@[simp] theorem setPwr_pace (x : Pwr) (hs : x.reset = m.pwr.reset) (hn : x.req = m.pwr.req) : pace (setPwr x m) = pace m := by
  simp [setPwr, hs, hn]

theorem evPost_queues (fuel e src : Nat) (l : List FifoEntry) (deal seat : Nat) (h : Hif) :
    (evPost fuel e src l deal seat h).1.epoch = h.epoch ∧ (evPost fuel e src l deal seat h).1.held = h.held ∧
      (evPost fuel e src l deal seat h).1.sent = h.sent := by
  have hkeep := evPost_keep (fun h => (h.epoch, h.held, h.sent)) (fun _ _ _ _ => by unfold evHif; split <;> rfl) (fun _ _ _ => rfl)
    fuel e src l deal seat h
  simpa using hkeep

@[simp] theorem writeTo_pace (e src : Nat) (l : List FifoEntry) : pace (writeTo e src l m) = pace m := by
  unfold writeTo
  split <;> simp [evPost_queues]

@[simp] theorem tunnelFrames_pace (sub req target tunId seq len : Nat) : pace (tunnelFrames sub req target tunId seq len m) = pace m := by
  simp [tunnelFrames]
@[simp] theorem sendReply_pace (seat tunId : Nat) (r : Reply) : pace (sendReply seat tunId r m) = pace m := by simp [sendReply]

@[simp] theorem completeWith_pace (tk : Ticket) (st d rsv : Nat) (now : Bool) (res : Pay) : pace (completeWith tk st d rsv now res m) = pace m := by
  unfold completeWith
  split
  · by_cases h : live tk m = true <;> simp [h, cplHif]
  · exact sendReply_pace ..
  · rfl

/-! Events and completions. -/

@[simp] theorem writeRecords_pace (src : Nat) (l : List FifoEntry) : pace (writeRecords src l m) = pace m := by simp [writeRecords]
@[simp] theorem raiseAt_pace (d src code : Nat) (pay : Pay) : pace (raiseAt d src code pay m) = pace m := by simp [raiseAt]
@[simp] theorem raise_pace (src code : Nat) (pay : Pay) : pace (raise src code pay m) = pace m := by simp [raise]
@[simp] theorem setFifo_pace (k : Nat) (x : Fifo) : pace (setFifo k x m) = pace m := by simp [setFifo]
@[simp] theorem fifoEmit_pace (k n : Nat) : pace (fifoEmit k n m) = pace m := by simp [fifoEmit]
@[simp] theorem fifoEights_pace (k : Nat) : pace (fifoEights k m) = pace m := by simp [fifoEights]
@[simp] theorem fifoFlush_pace (k : Nat) : pace (fifoFlush k m) = pace m := by simp [fifoFlush]
@[simp] theorem fifoDrain_pace : pace (fifoDrain m) = pace m := by simp [fifoDrain]
@[simp] theorem final_pace (tk : Ticket) (st : Nat) : pace (final tk st m) = pace m := by simp [final]
@[simp] theorem useFresh_pace (n : Nat) : pace (useFresh n m) = pace m := by simp [useFresh]

/-! Flags. -/

@[simp] theorem watch_pace (bit : Nat) (above : Bool) (src code : Nat) (pay : Pay) : pace (watch bit above src code pay m) = pace m := by
  simp [watch]

/-! The frame bus. -/

@[simp] theorem busWrite_pace (slot : Nat) (xs : List Int) : pace (busWrite slot xs m) = pace m := by simp [busWrite]

/-! Admission. -/

@[simp] theorem setDom_pace (x : Dom) : pace (setDom x m) = pace m := by simp [setDom]
@[simp] theorem sendReq_pace (seat tunId seq op : Nat) (c : Cmd) : pace (sendReq seat tunId seq op c m) = pace m := by simp [sendReq]

/-! User kernels. -/

@[simp] theorem faultRecord_pace (d : NodeD) (cause instr addr : Nat) : pace (faultRecord d cause instr addr m) = pace m := by simp [faultRecord]
@[simp] theorem kernelFault_pace (node cause instr addr : Nat) : pace (kernelFault node cause instr addr m) = pace m := by
  unfold kernelFault
  split <;> simp
@[simp] theorem laneOverflow_pace (c lanes signs node : Nat) : pace (laneOverflow c lanes signs node m) = pace m := by simp [laneOverflow]
@[simp] theorem laneSat_pace (c l n : Nat) : pace (laneSat c l n m) = pace m := by simp [laneSat]
@[simp] theorem kernelLanes_pace (cluster node : Nat) (c : Cluster) : pace (kernelLanes cluster node c m) = pace m := by simp [kernelLanes]

/-! The delay pool. -/

@[simp] theorem setRend_pace (r : Rend) : pace (setRend r m) = pace m := by simp [setRend]
@[simp] theorem setLine_pace (k : Nat) (x : Line) : pace (setLine k x m) = pace m := by simp [setLine]
@[simp] theorem grantLine_pace (k : Nat) : pace (grantLine k m).1 = pace m := by
  simp only [grantLine]
  split <;> simp
@[simp] theorem lineWaits_pace (k : Nat) : pace (lineWaits k m) = pace m := by simp [lineWaits]
@[simp] theorem serveWaiting_pace : pace (serveWaiting m) = pace m := by simp [serveWaiting]
@[simp] theorem cutLine_pace (old : DeckBody) (l : LineD) : pace (cutLine old l m) = pace m := by
  simp only [cutLine]
  split <;> simp
@[simp] theorem freeLine_pace (k : Nat) : pace (freeLine k m) = pace m := by simp [freeLine]
@[simp] theorem poolRetired_pace (old : DeckBody) : pace (poolRetired old m) = pace m := by simp [poolRetired]
@[simp] theorem trimLine_pace (k : Nat) : pace (trimLine k m) = pace m := by simp [trimLine]
@[simp] theorem watchPool_pace : pace (watchPool m) = pace m := by simp [watchPool]
@[simp] theorem poolCut_pace (old new : DeckBody) : pace (poolCut old new m) = pace m := by simp [poolCut]
@[simp] theorem poolCommit_pace : pace (poolCommit m) = pace m := by simp [poolCommit]
@[simp] theorem lineWrite_pace (k : Nat) (xs : List Int) : pace (lineWrite k xs m) = pace m := by
  unfold lineWrite
  split <;> simp
@[simp] theorem delayNode_pace (id d : Nat) (xs : List Int) : pace (delayNode id d xs m).1 = pace m := by
  simp only [delayNode]
  (repeat' split) <;> simp

/-! The scene. -/

@[simp] theorem setObj_pace (o : Nat) (x : Obj) : pace (setObj o x m) = pace m := by simp [setObj]
@[simp] theorem evalObj_pace (o : Nat) : pace (evalObj o m) = pace m := by
  simp only [evalObj]
  split <;> simp
@[simp] theorem showProbe_pace : pace (showProbe m) = pace m := by simp [showProbe]
@[simp] theorem evalScene_pace : pace (evalScene m) = pace m := by simp [evalScene]
@[simp] theorem sceneReset_pace : pace (sceneReset m) = pace m := (rfl)

/-! The render engine. -/

@[simp] theorem budget_pace (s : Sel) (limit : Nat) : pace (budget s limit m) = pace m := by simp [budget]
@[simp] theorem clampReport_pace (cause : Nat) (cnt flg : Fld) (runs : List Nat) (hits : List (Nat × Nat × Nat × Int × Int)) :
    pace (clampReport cause cnt flg runs hits m) = pace m := by
  simp only [clampReport]
  split
  · rfl
  · rw [forEach_pace _ _ (fun o n => by split <;> simp), wr_pace, bump_pace]
@[simp] theorem showPairs_pace (used : Nat) : pace (showPairs used m) = pace m := by simp [showPairs]
@[simp] theorem selectPairs_pace : pace (selectPairs m) = pace m := by simp [selectPairs]
@[simp] theorem pairsCommit_pace : pace (pairsCommit m) = pace m := by simp [pairsCommit]
@[simp] theorem tapEngine_pace (finished : Bool) : pace (tapEngine finished m) = pace m := by
  unfold tapEngine
  split <;> simp
@[simp] theorem renderReset_pace : pace (renderReset m) = pace m := (rfl)

/-! The rate bridges. -/

@[simp] theorem showBridges_pace : pace (showBridges m) = pace m := by simp [showBridges]
@[simp] theorem bridgeEvent_pace (code ch dir rate : Nat) : pace (bridgeEvent code ch dir rate m) = pace m := by simp [bridgeEvent]
@[simp] theorem setBridge_pace (ch st : Nat) : pace (setBridge ch st m) = pace m := by simp [setBridge]
@[simp] theorem channelLost_pace (dir rate ch : Nat) : pace (channelLost dir rate ch m) = pace m := by simp [channelLost]
@[simp] theorem setInRange_pace (dir n : Nat) : pace (setInRange dir n m) = pace m := by
  unfold setInRange
  split <;> simp
@[simp] theorem domainLost_pace (dir rate : Nat) : pace (domainLost dir rate m) = pace m := by simp [domainLost]

/-! The serial and biphase ports. -/

@[simp] theorem setSap_pace (x : SapSt) : pace (setSap x m) = pace m := by simp [setSap]
@[simp] theorem setPortDir_pace (d : Nat) (x : Dir) : pace (setDir_ d x m) = pace m := by simp [setDir_]
@[simp] theorem dirCount_pace (d id n : Nat) : pace (dirCount d id n m) = pace m := by simp [dirCount]
@[simp] theorem showPort_pace (d : Nat) : pace (showPort d m) = pace m := by simp [showPort]
@[simp] theorem dataBegins_pace (bits : Nat) : pace (dataBegins bits m) = pace m := by simp [dataBegins]
@[simp] theorem mirror_pace (d : Nat) (x : Dir) (frames : List (List Int)) : pace (mirror d x frames m) = pace m := by simp [mirror]
@[simp] theorem receive_pace (d : Nat) (x : Dir) (frames : List (List Int)) : pace (receive d x frames m) = pace m := by simp [receive]
@[simp] theorem receiveTick_pace (pins : List PinIn) (d : Nat) : pace (receiveTick pins d m) = pace m := by
  unfold receiveTick
  split <;> simp
@[simp] theorem zeroInputs_pace (role : Nat) : pace (zeroInputs role m) = pace m := by simp [zeroInputs]
@[simp] theorem portTick_pace (pins : List PinIn) : pace (portTick pins m) = pace m := by simp [portTick]
@[simp] theorem biphaseOut_pace (d : Nat) (zs : List Bool) : pace (biphaseOut d zs m) = pace m := by simp [biphaseOut]
@[simp] theorem putPins_pace (d : Nat) (x : Dir) (fs : List (List Int)) (zs : List Bool) : pace (putPins d x fs zs m) = pace m := by simp [putPins]
@[simp] theorem transmit_pace (d : Nat) (x : Dir) : pace (transmit d x m) = pace m := by simp [transmit]
@[simp] theorem transmitB_pace (d : Nat) (x : Dir) : pace (transmitB d x m) = pace m := by simp [transmitB]
@[simp] theorem transmitZero_pace (d : Nat) (x : Dir) : pace (transmitZero d x m) = pace m := by simp [transmitZero]
@[simp] theorem dirCommit_pace (fades : List Nat) (d : Nat) : pace (dirCommit fades d m) = pace m := by
  unfold dirCommit
  split <;> simp
@[simp] theorem portCommit_pace (fades : List Nat) : pace (portCommit fades m) = pace m := by simp [portCommit]

/-! The media clocks. -/

@[simp] theorem setClk_pace (x : Clk) : pace (setClk x m) = pace m := by simp [setClk]
@[simp] theorem setCand_pace (i : Nat) (x : Cand) : pace (setCand i x m) = pace m := by simp [setCand]
@[simp] theorem setAl_pace (a : Nat) (x : Aligner) : pace (setAl a x m) = pace m := by simp [setAl]
@[simp] theorem setRamp_pace (k : Nat) (x : Ramp) : pace (setRamp k x m) = pace m := by simp [setRamp]
@[simp] theorem showSel_pace (sel mode bridging : Nat) : pace (showSel sel mode bridging m) = pace m := by simp [showSel]
@[simp] theorem watchHold_pace : pace (watchHold m) = pace m := by simp [watchHold]
@[simp] theorem enterHoldover_pace (k : Nat) : pace (enterHoldover k m) = pace m := by simp [enterHoldover]
@[simp] theorem exitHoldover_pace (sel : Nat) : pace (exitHoldover sel m) = pace m := by
  unfold exitHoldover
  split <;> simp
@[simp] theorem switchRef_pace (sel : Nat) : pace (switchRef sel m) = pace m := by simp [switchRef]
@[simp] theorem reselect_pace (k : Nat) : pace (reselect k m) = pace m := by simp [reselect]
@[simp] theorem wantSelect_pace (i k : Nat) : pace (wantSelect i k m) = pace m := by simp [wantSelect]
@[simp] theorem selectRef_pace : pace (selectRef m) = pace m := by
  unfold selectRef
  split <;> simp
@[simp] theorem disqualify_pace (i cause k : Nat) : pace (disqualify i cause k m) = pace m := by simp [disqualify]
@[simp] theorem candLost_pace (i cause : Nat) : pace (candLost i cause m) = pace m := by simp [candLost]
@[simp] theorem alSlew_pace (a : Nat) (x : Int) : pace (alSlew a x m) = pace m := by simp [alSlew]
@[simp] theorem instantMoved_pace (x : Int) : pace (instantMoved x m) = pace m := by simp [instantMoved]
@[simp] theorem alTick_pace (a : Nat) : pace (alTick a m) = pace m := by
  simp only [alTick]
  split <;> simp
@[simp] theorem rampTick_pace (k : Nat) : pace (rampTick k m) = pace m := by
  simp only [rampTick]
  split <;> simp
@[simp] theorem clkTick_pace : pace (clkTick m) = pace m := by simp [clkTick]

/-! The ring. -/

@[simp] theorem setRing_pace (x : RingSt) : pace (setRing x m) = pace m := by simp [setRing]
@[simp] theorem setPort_pace (p : Nat) (x : Port) : pace (setPort p x m) = pace m := by simp [setPort]
@[simp] theorem setEgress_pace (p : Nat) (x : Egress) : pace (setEgress p x m) = pace m := by simp [setEgress]
@[simp] theorem count_pace (p id n : Nat) : pace (count p id n m) = pace m := by simp [count]
@[simp] theorem emit_pace (o : Out) : pace (emit o m) = pace m := by simp [emit]
@[simp] theorem advanceCredit_pace (p now : Nat) : pace (advanceCredit p now m) = pace m := by simp [advanceCredit]

theorem pace_sendKeeps : SendKeeps pace where
  ring _ _ := setRing_pace _
  emit _ _ := emit_pace _
  raise _ _ _ _ := raise_pace _ _ _
  tok _ _ _ := by simp [setTok]
  low _ _ := wr_pace

@[simp] theorem pickFrame_pace (p now : Nat) : pace (pickFrame p now m) = pace m := pickFrame_keep pace_sendKeeps now
@[simp] theorem ownFrame_pace (p tc len : Nat) (tag : Option RingTag) : pace (ownFrame p tc len tag m) = pace m :=
  ownFrame_keep pace_sendKeeps tc len tag
@[simp] theorem sendTrio_pace (seat op : Nat) (p : Pay) : pace (sendTrio seat op p m) = pace m := by simp [sendTrio]
@[simp] theorem joinReport_pace (seat a b : Nat) : pace (joinReport seat a b m) = pace m := by simp [joinReport]
@[simp] theorem showSeam_pace : pace (showSeam m) = pace m := by simp [showSeam]
@[simp] theorem setIns_pace (new cause : Nat) : pace (setIns new cause m) = pace m := by simp [setIns]
@[simp] theorem alertPin_pace : pace (alertPin m) = pace m := by simp [alertPin]
@[simp] theorem alert_pace (f : Fld) : pace (alert f m) = pace m := by simp [alert]
@[simp] theorem closingTick_pace : pace (closingTick m) = pace m := by simp [closingTick]
@[simp] theorem joinReportSend_pace : pace (joinReportSend m) = pace m := by simp [joinReportSend]
@[simp] theorem tryJoin_pace : pace (tryJoin m) = pace m := by simp [tryJoin]
@[simp] theorem queueLaunch_pace (p q : Nat) (f : LaunchFrame) : pace (queueLaunch p q f m) = pace m := by simp [queueLaunch]
@[simp] theorem markTick_pace : pace (markTick m) = pace m := by simp [markTick]
@[simp] theorem tunnelsOut_pace : pace (tunnelsOut m) = pace m := by simp [tunnelsOut]
@[simp] theorem ringTick_pace : pace (ringTick m) = pace m := by simp [ringTick]

/-! The voter. -/

@[simp] theorem critMap_pace (c : Nat) (x : Option Crit) : pace (critMap c x m) = pace m := by simp [critMap]
@[simp] theorem setVote_pace (v : Voter) : pace (setVote v m) = pace m := by simp [setVote]
@[simp] theorem showFaded_pace : pace (showFaded m) = pace m := by simp [showFaded]
@[simp] theorem voterCut_pace : pace (voterCut m) = pace m := by simp [voterCut]
@[simp] theorem restoreCopy_pace (c : Nat) (p : CritCopy) (ws : List (List Int)) : pace (restoreCopy c p ws m) = pace m := by simp [restoreCopy]
@[simp] theorem reportDissent_pace (c j cause : Nat) (x : Crit) : pace (reportDissent c j cause x m) = pace m := by
  unfold reportDissent
  (repeat' split) <;> simp
@[simp] theorem noMajority_pace (c : Nat) (x : Crit) (cause : Nat) (bs : List Ballot) : pace (noMajority c x cause bs m) = pace m := by
  simp only [noMajority]
  split <;> simp
@[simp] theorem critWrite_pace (late : List Nat) (slot : Nat) (v : Option (List Int)) : pace (critWrite late slot v m) = pace m := by
  simp [critWrite]
@[simp] theorem voteOne_pace (done : Nat → Bool) (late : List Nat) (c : Nat) (x : Crit) : pace (voteOne done late c x m) = pace m := by
  simp [voteOne]
@[simp] theorem vote_pace (done : Nat → Bool) (late : List Nat) : pace (vote done late m) = pace m := by simp [vote]
@[simp] theorem voterReset_pace : pace (voterReset m) = pace m := (rfl)

/-! The correction. -/

@[simp] theorem setCor_pace (x : Cor) : pace (setCor x m) = pace m := by simp [setCor]
@[simp] theorem corrSat_pace (ix c sats : Nat) : pace (corrSat ix c sats m) = pace m := by simp [corrSat]
@[simp] theorem corrNode_pace (d : NodeD) (c : Nat) : pace (corrNode d c m).1 = pace m := by
  unfold corrNode
  (repeat' split) <;> simp
@[simp] theorem showMeas_pace : pace (showMeas m) = pace m := by
  unfold showMeas
  split <;> simp
@[simp] theorem measAbort_pace (result : Nat) : pace (measAbort result m) = pace m := by
  unfold measAbort
  split <;> simp
@[simp] theorem measTrump_pace (cls : Nat) : pace (measTrump cls m) = pace m := by simp [measTrump]
@[simp] theorem measCommit_pace : pace (measCommit m) = pace m := by
  unfold measCommit
  split <;> simp
@[simp] theorem corrCut_pace (old new : DeckBody) : pace (corrCut old new m) = pace m := by
  unfold corrCut
  split <;> simp
@[simp] theorem corrRenderReset_pace : pace (corrRenderReset m) = pace m := by simp [corrRenderReset]

/-! The intercom. -/

@[simp] theorem setIcom_pace (c : Nat) (x : Icom) : pace (setIcom c x m) = pace m := by simp [setIcom]
@[simp] theorem showIcom_pace : pace (showIcom m) = pace m := by simp [showIcom]
@[simp] theorem icomEvent_pace (c state erle : Nat) : pace (icomEvent c state erle m) = pace m := by simp [icomEvent]
@[simp] theorem icomCut_pace : pace (icomCut m) = pace m := by simp [icomCut]
@[simp] theorem icomSend_pace (c : Nat) : pace (icomSend c m).1 = pace m := by
  unfold icomSend
  split <;> simp

/-! Announcements. -/

@[simp] theorem setAnn_pace (a : Ann) : pace (setAnn a m) = pace m := by simp [setAnn]
@[simp] theorem setPlay_pace (k : Nat) (p : Play) : pace (setPlay k p m) = pace m := by simp [setPlay]
@[simp] theorem annEnd_pace (id msg reason zones : Nat) : pace (annEnd id msg reason zones m) = pace m := by simp [annEnd]
@[simp] theorem dropReq_pace (r : Req) (reason : Nat) : pace (dropReq r reason m) = pace m := by simp [dropReq]
@[simp] theorem waitReq_pace (r : Req) : pace (waitReq r m) = pace m := by simp [waitReq]
@[simp] theorem changeZone_pace (z : Nat) (new : Option Nat) : pace (changeZone z new m) = pace m := by simp [changeZone]
@[simp] theorem endPlay_pace (k reason : Nat) : pace (endPlay k reason m) = pace m := by
  unfold endPlay
  split <;> simp
@[simp] theorem preempt_pace (old : Play) (z : Nat) (r : Req) : pace (preempt old z r m) = pace m := by simp [preempt]
@[simp] theorem cutPlay_pace (k : Nat) (r : Req) : pace (cutPlay k r m) = pace m := by
  unfold cutPlay
  split <;> simp
@[simp] theorem takeZone_pace (k : Nat) (r : Req) (z : Nat) : pace (takeZone k r z m) = pace m := by
  simp only [takeZone]
  (repeat' split) <;> simp
@[simp] theorem startPlay_pace (r : Req) (d : Msg) (pl : Nat) (bridged : Bool) : pace (startPlay r d pl bridged m) = pace m := by
  unfold startPlay
  split <;> simp
@[simp] theorem treat_pace (waited : Bool) (r : Req) : pace (treat waited r m) = pace m := by
  simp only [treat]
  (repeat' split) <;> simp
@[simp] theorem replayLatches_pace : pace (replayLatches m) = pace m := by simp [replayLatches]
@[simp] theorem arbitrate_pace : pace (arbitrate m) = pace m := by simp [arbitrate]
@[simp] theorem fire_pace (e : Nat) (x : Sched) (src : Nat) : pace (fire e x src m) = pace m := by
  unfold fire
  split <;> simp
@[simp] theorem firePin_pace (e : Nat) : pace (firePin e m) = pace m := by
  unfold firePin
  split <;> simp
@[simp] theorem firePins_pace : pace (firePins m) = pace m := by simp [firePins]
@[simp] theorem annRun_pace : pace (annRun m) = pace m := forEach_pace _ _ (fun k n => by (repeat' split) <;> simp)
@[simp] theorem annCommit_pace : pace (annCommit m) = pace m := by simp [annCommit]
@[simp] theorem annRenderReset_pace : pace (annRenderReset m) = pace m := by simp [annRenderReset]

/-! Network time. -/

@[simp] theorem setDir_pace (p : Nat) (x : TimeDir) : pace (setDir p x m) = pace m := by simp [setDir]
@[simp] theorem unlock_pace (cause : Nat) : pace (unlock cause m) = pace m := by simp [unlock]
@[simp] theorem timeLost_pace (cause : Nat) : pace (timeLost cause m) = pace m := by simp [timeLost]
@[simp] theorem talkersStart_pace : pace (talkersStart m) = pace m := by simp [talkersStart]
@[simp] theorem declareLock_pace (kind : Nat) (step : Int) : pace (declareLock kind step m) = pace m := by simp [declareLock]
@[simp] theorem showSlew_pace : pace (showSlew m) = pace m := by simp [showSlew]
@[simp] theorem loadSlew_pace (th : Int) : pace (loadSlew th m) = pace m := by simp [loadSlew]
@[simp] theorem judgeSmall_pace : pace (judgeSmall m) = pace m := by simp [judgeSmall]
@[simp] theorem slewTick_pace : pace (slewTick m) = pace m := by simp [slewTick]
@[simp] theorem dirDisagree_pace (a b : Int) : pace (dirDisagree a b m) = pace m := by simp [dirDisagree]
@[simp] theorem pushTheta_pace (t : Int) : pace (pushTheta t m) = pace m := by simp [pushTheta, setTim]
@[simp] theorem thetaTick_pace (ended : Nat) : pace (thetaTick ended m) = pace m := by simp [thetaTick]
@[simp] theorem ptpState_pace (l new cls gm steps : Nat) : pace (ptpState l new cls gm steps m) = pace m := by simp [ptpState]
@[simp] theorem ptpGo_pace (l new : Nat) : pace (ptpGo l new m) = pace m := by simp [ptpGo]

/-! Streams. -/

@[simp] theorem setStr_pace (x : Str) : pace (setStr x m) = pace m := by simp [setStr]
@[simp] theorem setCtx_pace (role k : Nat) (x : Stream) : pace (setCtx role k x m) = pace m := by simp [setCtx]
@[simp] theorem markMap_pace : pace (markMap m) = pace m := by simp [markMap]
@[simp] theorem closeTalkers_pace : pace (closeTalkers m) = pace m := by simp [closeTalkers]
@[simp] theorem evalMap_pace : pace (evalMap m) = pace m := by simp [evalMap]
@[simp] theorem presentFull_pace (k : Nat) (x : Stream) : pace (presentFull k x m) = pace m := by simp [presentFull]
@[simp] theorem presentGap_pace (k : Nat) (x : Stream) : pace (presentGap k x m) = pace m := by simp [presentGap]
@[simp] theorem presentOne_pace (k : Nat) : pace (presentOne k m) = pace m := by
  simp only [presentOne]
  (repeat' split) <;> simp
@[simp] theorem watchJitter_pace : pace (watchJitter m) = pace m := by simp [watchJitter]
@[simp] theorem presentAll_pace : pace (presentAll m) = pace m := by simp [presentAll]
@[simp] theorem sendPacket_pace (k : Nat) (x : Stream) (frames : List (List Int)) (times : List Nat) :
    pace (sendPacket k x frames times m) = pace m := by simp [sendPacket]
@[simp] theorem crfCommit_pace (k : Nat) (x : Stream) : pace (crfCommit k x m) = pace m := by simp [crfCommit]
@[simp] theorem talkOne_pace (fades : List Nat) (k : Nat) : pace (talkOne fades k m) = pace m := by simp [talkOne]
@[simp] theorem talkerCommit_pace (fades : List Nat) : pace (talkerCommit fades m) = pace m := by simp [talkerCommit]

/-! Decks. -/

@[simp] theorem setDk_pace (d : DeckUnit) : pace (setDk d m) = pace m := by simp [setDk]
@[simp] theorem dkBump_pace (id : Nat) : pace (dkBump id m) = pace m := by simp [dkBump]
@[simp] theorem stageEvent_pace (digest load result reason : Nat) (src : Src) : pace (stageEvent digest load result reason src m) = pace m := by
  simp [stageEvent]
@[simp] theorem cutMiss_pace (cause : Nat) (h : Held) : pace (cutMiss cause h m) = pace m := by simp [cutMiss]
@[simp] theorem waitersMiss_pace : pace (waitersMiss m) = pace m := by simp [waitersMiss]
@[simp] theorem bridgeCut_pace : pace (bridgeCut m) = pace m := by simp [bridgeCut]
@[simp] theorem doCut_pace (h : Held) : pace (doCut h m) = pace m := by
  unfold doCut
  split <;> simp [setFrm]
@[simp] theorem tryCut_pace (h : Held) : pace (tryCut h m) = pace m := by
  unfold tryCut
  split <;> simp
@[simp] theorem doCuts_pace : pace (doCuts m) = pace m := by simp [doCuts]
@[simp] theorem deckCommit_pace : pace (deckCommit m) = pace m := by
  unfold deckCommit
  split <;> simp [setFrm]
@[simp] theorem deckRenderReset_pace : pace (deckRenderReset m) = pace m := by
  unfold deckRenderReset
  split <;> simp

/-! Power. -/

@[simp] theorem beginMove_pace (entry : Bool) (dst : Nat) : pace (beginMove entry dst m) = pace m := by simp [beginMove]
@[simp] theorem judgePower_pace : pace (judgePower m) = pace m := by simp [judgePower]
@[simp] theorem powerTick_pace : pace (powerTick m) = pace m := by
  simp only [powerTick]
  (repeat' split) <;> simp

/-! The frame program. -/

@[simp] theorem deliver_pace (p : Pass) (key slot : Nat) (hit : Bool) (xs : List Int) : pace (deliver p key slot hit xs m).1 = pace m := by
  simp [deliver]
@[simp] theorem freeSamples_pace (n : Nat) : pace (freeSamples n m).1 = pace m := by simp [freeSamples]
@[simp] theorem bridgeOut_pace (ch : Nat) : pace (bridgeOut ch m).1 = pace m := by
  simp only [bridgeOut]
  (repeat' split) <;> simp
@[simp] theorem setNodeW_pace (ix : Nat) (w : List Int) : pace (setNodeW ix w m) = pace m := by simp [setNodeW]
@[simp] theorem writeOuts_pace (outs : List Nat) (ys : List (List Int)) : pace (writeOuts outs ys m) = pace m := by simp [writeOuts]
@[simp] theorem nodeSats_pace (cluster n : Nat) : pace (nodeSats cluster n m) = pace m := by simp [nodeSats]
@[simp] theorem kernelNode_pace (d : NodeD) (k : KernelD) (words : List Nat) (xs : List (List Int)) : pace (kernelNode d k words xs m) = pace m := by
  unfold kernelNode
  split <;> simp
@[simp] theorem runNode_pace (p : Pass) (d : NodeD) : pace (runNode p d m) = pace m := by
  simp only [runNode]
  (repeat' split) <;> simp
@[simp] theorem livePass_pace (p : Pass) : pace (livePass p m) = pace m := by simp [livePass]
@[simp] theorem runOld_pace (run : List NodeD) (old : DeckBody) (p : Pass) (d : NodeD) : pace (runOld run old p d m) = pace m := by
  simp only [runOld]
  (repeat' split) <;> simp
@[simp] theorem retirePass_pace (p : Pass) : pace (retirePass p m) = pace m := by
  unfold retirePass
  split <;> simp
@[simp] theorem bothPasses_pace (p : Pass) (n : Nat) (r : SMap (List Int)) : pace (bothPasses p m n r) = pace m := by
  induction n generalizing r with
  | zero => simp [bothPasses]
  | succ n ih => exact ih _
@[simp] theorem runFrame_pace (p : Pass) : pace (runFrame p m) = pace m := by simp [runFrame]
@[simp] theorem consumeSlot_pace (p : Pass) (c : Nat) : pace (consumeSlot p c m) = pace m := by simp [consumeSlot]
@[simp] theorem watchLoad_pace : pace (watchLoad m) = pace m := by simp [watchLoad]
@[simp] theorem recordLoad_pace (load : Nat) : pace (recordLoad load m) = pace m := by simp [recordLoad]
@[simp] theorem bridgeBooks_pace : pace (bridgeBooks m) = pace m := by simp [bridgeBooks]
@[simp] theorem bankRetries_pace : pace (bankRetries m) = pace m := by simp [bankRetries]
@[simp] theorem showBusy_pace (p : Pass) : pace (showBusy p m) = pace m := by simp [showBusy]
@[simp] theorem frameWork_pace (w : Work) (p : Pass) : pace (frameWork w p m) = pace m := by simp [frameWork]
@[simp] theorem frameCons_pace (p : Pass) : pace (frameCons p m) = pace m := by simp [frameCons]
@[simp] theorem frameIdle_pace : pace (frameIdle m) = pace m := by simp [frameIdle]
@[simp] theorem firstAudio_pace : pace (firstAudio m) = pace m := by simp [firstAudio]

/-! The domain. -/

@[simp] theorem showRole_pace : pace (showRole m) = pace m := by simp [showRole]
@[simp] theorem setTrio_pace (j seat : Nat) : pace (setTrio j seat m) = pace m := by simp [setTrio]
@[simp] theorem setActive_pace (seat : Nat) : pace (setActive seat m) = pace m := by simp [setActive]
@[simp] theorem showCopying_pace : pace (showCopying m) = pace m := by simp [showCopying]
@[simp] theorem startCopy_pace (idx : Option Nat) (src restarts : Nat) : pace (startCopy idx src restarts m) = pace m := by simp [startCopy]
@[simp] theorem serveCopy_pace : pace (serveCopy m) = pace m := by
  simp only [serveCopy]
  (repeat' split) <;> simp
@[simp] theorem sendDigest_pace : pace (sendDigest m) = pace m := by simp [sendDigest]
@[simp] theorem joinCopy_pace : pace (joinCopy m) = pace m := by simp [joinCopy]

/-! The interval counter. -/

@[simp] theorem setTic_pace (x : Tic) : pace (setTic x m) = pace m := by simp [setTic]
@[simp] theorem ticTick_pace : pace (ticTick m) = pace m := by simp [ticTick]

/-! Resets. -/

@[simp] theorem seqStart_pace : pace (seqStart m) = pace m := by simp [seqStart]
@[simp] theorem renderResetNow_pace : pace (renderResetNow m) = pace m := by simp [renderResetNow]
@[simp] theorem stepThree_pace : pace (stepThree m) = pace m := by simp [stepThree]
@[simp] theorem resumeCut_pace : pace (resumeCut m) = pace m := by simp [resumeCut]

/-! Supervision. -/

@[simp] theorem gpioTick_pace (pins : Nat) : pace (gpioTick pins m) = pace m := by simp [gpioTick]

/-! The boundary. -/

@[simp] theorem tickCuts_pace : pace (tickCuts m) = pace m := by simp [tickCuts]

/-! The commit (`Frame`): it closes the deal and decides the run of overruns, and keeps the rest of the pace. -/

theorem setFrm_turns (x : Frm) : pace (setFrm x m) = { pace m with committed := x.committed, run := x.run } := (rfl)

@[simp] theorem reportOverrun_pace (w : Work) (p : Pass) : pace (reportOverrun w p m) = { pace m with run := m.frm.run + 1 } := by
  simp [reportOverrun, setFrm_turns]

@[simp] theorem turnOver_pace (cur : SMap (List Int)) : pace (turnOver cur m) = { pace m with committed := true } := by
  simp [turnOver, setFrm_turns]

/-- Whether a deal in which the frame program runs overran: its tick came first, or a node failed in it. -/
def overran (late : Bool) (w : Work) (m : Mach) : Bool := late || (withFails w m).2.fail != [] || (withFails w m).2.rfail != []

theorem commitDeal_parked (late : Bool) (w : Work) (h : parked m = true) :
    pace (commitDeal late w m) = { pace m with committed := true, run := 0 } := by
  simp [commitDeal, h, setFrm_turns]

theorem commitDeal_running (late : Bool) (w : Work) (h : parked m = false) :
    pace (commitDeal late w m) = { pace m with committed := true, run := if overran late w m then m.frm.run + 1 else 0 } := by
  have hrun (l : Nat) (q : Work × Pass) : (recordLoad l (frameCons q.2 (frameWork q.1 q.2 m))).frm.run = m.frm.run :=
    congrArg Pace.run (by simp : pace _ = pace m)
  unfold commitDeal
  simp only [h, Bool.not_false, if_true, Bool.true_and]
  change pace (turnOver _ _) = _
  cases ho : overran late w m <;> simp only [overran] at ho <;> simp [ho, hrun, setFrm_turns]

theorem commitDeal_pace (late : Bool) (w : Work) : ∃ r, pace (commitDeal late w m) = { pace m with committed := true, run := r } := by
  cases h : parked m
  · exact ⟨_, commitDeal_running late w h⟩
  · exact ⟨_, commitDeal_parked late w h⟩

theorem turnOver_cur (cur : SMap (List Int)) : (turnOver cur m).frm.cur = [] := by
  rw [turnOver, showBridges_frm]
  rfl

theorem commitDeal_cur (late : Bool) (w : Work) : (commitDeal late w m).frm.cur = [] := by
  unfold commitDeal
  exact turnOver_cur _

/-! The time unit at a boundary (`Time`): the next deal begins. -/

/-- The deal that a tick begins. -/
def Pace.nextDeal (p : Pace) : Nat :=
  match p.starts with
  | some d => d
  | none => p.next.getD (p.deal + 1)

/-- The pace after a tick. -/
def Pace.tick (p : Pace) : Pace := { p with deal := p.nextDeal, ticks := p.ticks + 1, starts := none, next := none }

theorem pace_nextDeal : (pace m).nextDeal = nextDeal m := rfl

@[simp] theorem timeTick_pace : pace (timeTick m) = (pace m).tick := by simp [timeTick, Pace.tick, pace_nextDeal]

theorem tickBegins_idle (x : TickIn) (hr : m.pwr.reset = none) (hq : m.pwr.req = none) : lockView (tickBegins x m) = lockView m ∧
    ∃ r, pace (tickBegins x m) = { (pace m).tick with committed := false, run := r } := by
  unfold tickBegins
  extract_lets m1 m2 _
  obtain ⟨r, hcommit⟩ : ∃ r, pace m1 = { pace m with committed := true, run := r } := by
    by_cases h : m.frm.committed = true
    · exact ⟨m.frm.run, by simp only [m1, h, if_true]; simp [pace, h]⟩
    · obtain ⟨r, hr⟩ := commitDeal_pace (m := m) true (x.late.getD overrunLoad)
      exact ⟨r, (congrArg pace (if_neg h)).trans hr⟩
  have hm2 : pace m2 = (pace m1).tick := by simp [m2]
  have hbegin : pace (clkTick (gpioTick x.gpio (setFrm { m2.frm with committed := false } m2))) =
      { (pace m).tick with committed := false, run := r } := by
    rw [clkTick_pace, gpioTick_pace, setFrm_turns, hm2, hcommit, ← pace_run, hm2, hcommit]
    rfl
  have hlock : lockView m2 = lockView m := by simp [m2, m1]
  rw [resetDue_idle]
  · exact ⟨.trans (by simp) hlock, r, hbegin⟩
  · rw [← pace_reset, hbegin]
    exact hr
  · rw [← pace_req, hbegin]
    exact hq

/-! The end of the boundary: without a held command the records of the trio keep the pace, but for a deal number that a lost source no longer
gives. -/

/-- The pace without the deal number that a source gives the next tick. -/
def beat (m : Mach) : Pace := { pace m with starts := none }

theorem beat_deal : (beat m).deal = m.deal := rfl
theorem beat_ticks : (beat m).ticks = m.ticks := rfl
theorem beat_held : (beat m).held = m.hif.held := rfl
theorem beat_committed : (beat m).committed = m.frm.committed := rfl

theorem beat_of_pace {n : Mach} (h : pace n = pace m) : beat n = beat m := congrArg (fun p => { p with starts := none }) h

theorem endSource_beat : beat (endSource m) = beat m := by
  unfold endSource
  extract_lets t m1
  have h1 : beat m1 = beat m := by simp [m1, t, beat, setTim]
  split
  · exact (beat_of_pace (by simp)).trans h1
  · rfl

theorem leaveTrio_beat : beat (leaveTrio m) = beat m := (beat_of_pace (by simp [leaveTrio])).trans endSource_beat

theorem fence_beat (j cause : Nat) : beat (fence j cause m) = beat m := by
  unfold fence
  extract_lets seat _ m1 m2 m3
  have h3 : beat m3 = beat m := beat_of_pace (by simp [m3, m2, m1])
  split
  · rfl
  · split
    · exact leaveTrio_beat.trans h3
    · exact .trans (beat_of_pace (by simp)) h3

theorem judgeDissent_beat (d agreed j : Nat) : beat (judgeDissent d agreed j m) = beat m := by
  unfold judgeDissent
  split
  · rfl
  · extract_lets n _ m1 m2
    have h2 : beat m2 = beat m := beat_of_pace (by simp [m2, m1])
    split
    · exact beat_of_pace (by simp)
    · split
      · exact (fence_beat ..).trans h2
      · exact h2

theorem setHeld_nil_pace (h : m.hif.held = []) : pace (setHeld [] m) = pace m := by simp [setHeld, pace, h]

theorem replay_pace {now : Nat} (h : now = m.deal) (l : List α) (d : α → Nat) :
    pace { forEach l (fun k n => evalScene { n with deal := d k }) m with deal := now } = pace m := by
  have hstep (k : α) (n : Mach) : pace (evalScene { n with deal := d k }) = { pace n with deal := d k } := evalScene_pace
  subst h
  exact forEach_keep (fun n => { pace n with deal := m.deal }) l _ (fun k n => by rw [hstep]) m

theorem freeze_pace (d : Nat) (h : m.hif.held = []) : pace (freeze d m) = pace m := by
  unfold freeze
  extract_lets two m1 gone m2 m3 _ _ m4
  have h1 : m1.hif.held = [] := h
  have hm1 : pace m1 = pace m := bump_pace
  have h3 : pace m3 = pace m := by simp [m3, m2, gone, h1, setHeld_nil_pace, hm1]
  have h4 : pace m4 = pace m := by
    simp only [m4]
    split
    · rw [replay_pace (by rfl)]
      exact h3
    · exact h3
  split
  · exact bump_pace
  · exact .trans (by simp) h4

theorem decideDeal_beat (d : Nat) (h : m.hif.held = []) : beat (decideDeal d m) = beat m := by
  unfold decideDeal
  extract_lets held
  split
  · rfl
  · split
    · exact (forEach_keep beat _ _ (fun j n => judgeDissent_beat ..) _).trans (beat_of_pace (by simp))
    · split
      · exact beat_of_pace (freeze_pace d h)
      · rfl

theorem judgeReach_beat : beat (judgeReach m) = beat m := by
  unfold judgeReach
  extract_lets n peers _ m1 got mem major vac m2 act
  have h2 : beat m2 = beat m := beat_of_pace (by simp [m2, m1])
  have hactive : beat (setActive 0xFFFF m2) = beat m := (beat_of_pace (setActive_pace _)).trans h2
  split
  · exact h2
  · split
    · split
      · exact h2
      · exact endSource_beat.trans hactive
    · split
      · split
        · exact hactive
        · exact h2
      · exact hactive

theorem trioTick_beat (h : m.hif.held = []) : beat (trioTick m) = beat m := by
  unfold trioTick
  extract_lets m1 _ m2
  have h1 : beat m1 = beat m := judgeReach_beat.trans (decideDeal_beat _ h)
  split
  · rfl
  · exact .trans (beat_of_pace (by simp [m2])) h1

theorem tickEnds_beat (x : TickIn) (h : m.hif.held = []) : beat (tickEnds x m) = beat m := by
  have hscene : pace (evalScene (evalMap (closeTalkers m))) = pace m := by simp
  refine (beat_of_pace (by simp [tickEnds])).trans ((trioTick_beat ?_).trans (beat_of_pace hscene))
  exact (congrArg Pace.held hscene).trans h

/-! The whole boundary, where no command is held and none waits to be sent. -/

theorem applyDueIf_none (p : Nat → Bool) (h : m.hif.held = []) : applyDueIf p m = setHeld [] m := by
  simp [applyDueIf, h]

theorem sendAllWaiting_none (h : m.hif.sent.any (fun q => q.waiting) = false) : sendAllWaiting m = m := by
  have hnone : m.hif.sent.filter (fun q => q.waiting) = [] := by simpa using h
  simp [sendAllWaiting, hnone]

theorem queues_of_pace {p : Pace} (h : pace m = p) : m.hif.epoch = p.epoch ∧ m.hif.held = p.held ∧ m.hif.sent = p.sent :=
  h ▸ ⟨rfl, rfl, rfl⟩

theorem awake_of_lockView {n : Mach} (h : lockView n = lockView m) (hk : m.sys.held = none) : n.sys.held = none :=
  (congrArg Prod.fst h).trans hk

/-- Where nothing waits, the boundary between its start and its end keeps the pace, and the reset that holds the machine. -/
theorem selectRef_idle (hh : m.hif.held = []) (hs : m.hif.sent.any (fun q => q.waiting) = false) :
    pace (selectRef (applyDue (sendAllWaiting m))) = pace m ∧ lockView (selectRef (applyDue (sendAllWaiting m))) = lockView m := by
  rw [sendAllWaiting_none hs, applyDue, applyDueIf_none _ hh]
  exact ⟨(selectRef_pace ..).trans (setHeld_nil_pace hh), by simp⟩

theorem applyOnDeck_idle (hh : m.hif.held = []) : pace (applyOnDeck (tickCuts (arbitrate (firePins m)))) = pace m := by
  have hcuts : pace (tickCuts (arbitrate (firePins m))) = pace m := by simp
  have hheld : (tickCuts (arbitrate (firePins m))).hif.held = [] := by
    rw [← pace_held, hcuts]
    exact hh
  rw [applyOnDeck, applyDueIf_none _ hheld, setHeld_nil_pace hheld, hcuts]

theorem dealTick_beat (x : TickIn) (hk : m.sys.held = none) (hr : m.pwr.reset = none) (hq : m.pwr.req = none) (hh : m.hif.held = [])
    (hs : m.hif.sent.any (fun q => q.waiting) = false) : ∃ r, beat (dealTick x m) = { (pace m).tick with committed := false, run := r } := by
  unfold dealTick
  extract_lets same m1 m2 _
  obtain ⟨hlock1, r, h1⟩ : lockView m1 = lockView m ∧ ∃ r, pace m1 = { (pace m).tick with committed := false, run := r } :=
    tickBegins_idle x hr hq
  obtain ⟨hepoch1, hheld1, hsent1⟩ := queues_of_pace h1
  simp only [Pace.tick, pace_epoch, pace_held, pace_sent] at hepoch1 hheld1 hsent1
  obtain ⟨h2, hlock2⟩ : pace m2 = pace m1 ∧ lockView m2 = lockView m1 :=
    selectRef_idle (hheld1.trans hh) ((congrArg (List.any · _) hsent1).trans hs)
  obtain ⟨hepoch2, hheld2, -⟩ := queues_of_pace h2
  have hk1 : m1.sys.held = none := awake_of_lockView hlock1 hk
  have hk2 : m2.sys.held = none := awake_of_lockView hlock2 hk1
  have hsame1 : same m1 = true := by simp [same, hepoch1, hk1]
  have hsame2 : same m2 = true := by simp [same, hepoch2, hepoch1, hk2]
  have hm2 : m2.hif.held = [] := by rw [hheld2, pace_held, hheld1, hh]
  have hdeck : pace (applyOnDeck (tickCuts (arbitrate (firePins m2)))) = pace m2 := applyOnDeck_idle hm2
  have hheld : (applyOnDeck (tickCuts (arbitrate (firePins m2)))).hif.held = [] := by rw [← pace_held, hdeck, pace_held, hm2]
  refine ⟨r, ?_⟩
  simp only [hsame1, hsame2, Bool.not_true, Bool.false_eq_true, if_false]
  rw [tickEnds_beat x hheld, beat, hdeck, h2, h1]
  rfl

end Paces

/-! The tick and the commit as commands. -/

section Deals
variable {s : State}

theorem dealTick_answers (x : TickIn) (ha : Awake s) (hr : s.m.pwr.reset = none) (hq : s.m.pwr.req = none) (hh : s.m.hif.held = [])
    (hs : s.m.hif.sent.any (fun q => q.waiting) = false) : Answers (.dealTick x) s (fun n =>
      n.deal = nextDeal s.m ∧ n.ticks = s.m.ticks + 1 ∧ n.frm.committed = false ∧ n.hif.held = []) := by
  obtain ⟨r, hb⟩ := dealTick_beat x ha hr hq hh hs
  refine answers_mach _ s (dealTick x) _ rfl ha ?_
  rw [← beat_deal, ← beat_ticks, ← beat_committed, ← beat_held, hb]
  exact ⟨rfl, rfl, rfl, hh⟩

theorem overran_eq_false_iff (w : Work) (m : Mach) : overran false w m = false ↔ (trial w m).hurt = [] ∧ (trial w m).rhurt = [] := by
  by_cases h : (trial w m).hurt = [] ∧ (trial w m).rhurt = []
  · simp [overran, withFails, h, passOf]
  · simp [overran, withFails, h]

theorem dealCommit_due {m : Mach} (load : Nat) (hc : m.frm.committed = false) (h : parked m = true ∨ (trial { load := load } m).late = []) :
    dealCommit { load := load } m = commitDeal false { load := load } m := by
  have hcan : canCommit { load := load } m = true := by simpa [canCommit] using h
  simp [dealCommit, hc, hcan]

theorem commitDeal_run (w : Work) (m : Mach) : (commitDeal false w m).frm.run =
    if parked m = true ∨ ((trial w m).hurt = [] ∧ (trial w m).rhurt = []) then 0 else m.frm.run + 1 := by
  cases h : parked m
  · rw [← pace_run, commitDeal_running false w h]
    cases ho : overran false w m <;> simp [← overran_eq_false_iff, ho]
  · rw [← pace_run, commitDeal_parked false w h]
    rfl

theorem dealCommit_answers (load : Nat) (ha : Awake s) (hc : s.m.frm.committed = false)
    (h : parked s.m = true ∨ (trial { load := load } s.m).late = []) :
    Answers (.dealCommit { load := load }) s (fun n => n.frm.committed = true ∧ n.frm.cur = [] ∧ n.deal = s.m.deal ∧
      n.frm.run = if parked s.m = true ∨ ((trial { load := load } s.m).hurt = [] ∧ (trial { load := load } s.m).rhurt = []) then 0
        else s.m.frm.run + 1) := by
  refine answers_mach _ s (dealCommit { load := load }) _ rfl ha ?_
  rw [dealCommit_due load hc h]
  obtain ⟨r, hp⟩ := commitDeal_pace (m := s.m) false { load := load }
  refine ⟨?_, commitDeal_cur .., ?_, commitDeal_run ..⟩
  · rw [← pace_committed, hp]
  · rw [← pace_deal, hp]
    rfl

end Deals

/-- Settles O38, one lemma for each command. -/
theorem frameProgramRuns : Obligations.FrameProgramRuns := fun _ ha =>
  ⟨fun x hr hq hh hs => dealTick_answers x ha hr hq hh hs, fun load hc h => dealCommit_answers load ha hc h,
   fun _ _ _ _ _ hd ht hc hs h1 h3 => kernelFault_answers ha hd ht hc hs h1 h3, fun _ _ _ _ hc h0 h8 => laneOverflow_answers ha hc h0 h8,
   fun _ _ _ h => ⟨bridgeLost_answers ha h, fun hr => bridgeLocked_answers ha h hr⟩⟩

end Sys2Proof.Machine
end

section
/-! Commands over Heivo (03 R70, R71, R506; 06 R165): what a fragment, a reply, an acknowledgement and a timeout do with the books of the host
interface, and the completions that they write. -/
namespace Sys2Proof.Machine

/-! Completions of local commands. -/

section Completions
variable {tk : Ticket} {q st d rsv : Nat} {now : Bool} {res : Pay} {m n : Mach}

/-- What neither the counts of a completion ring nor the frames that wait for the ring are part of, a completion keeps. -/
theorem completeWith_hif_keep {β : Type} (g : Hif → β)
    (hcpl : ∀ (h : Hif) prod rsv pend first w, g { h with cqProd := prod, cqRsv := rsv, cqPend := pend, cqFirst := first, cqNow := w } = g h)
    (hsend : ∀ (h : Hif) l, g { h with toSend := l } = g h) (m : Mach) : g (completeWith tk st d rsv now res m).hif = g m.hif := by
  unfold completeWith
  split
  · dsimp only
    split
    · exact hcpl ..
    · rfl
  · exact hsend ..
  · rfl

/-- The completion of a local command that can still be written goes to the ring of its submission ring, at the producer index. -/
theorem completeWith_ring_out (hq : tk.src = .ring q) (hl : live tk m = true) : (completeWith tk st d rsv now res m).out =
    .completion (cqOf m q) (mget 0 m.hif.cqProd (cqOf m q) % 2 ^ 32) tk.tag tk.op st d :: m.out := by
  simp [completeWith, hq, hl]

theorem live_congr (hr : n.regs = m.regs) (he : n.hif.epoch = m.hif.epoch) : live tk n = live tk m := by
  simp only [live, running_congr _ _ hr, he]

end Completions

/-! Requests. -/

section Requests
variable {s : State} {m : Mach} {r : TunnelReq}

/-- The machine with a request's first fragment kept. -/
def keepFragment (r : TunnelReq) (m : Mach) : Mach :=
  { m with hif := { m.hif with assemblies := m.hif.assemblies ++ [⟨r.seat, r.tunId, m.deal, [r.idx]⟩] } }

/-- The machine with a request of another seat among those that it has had. -/
def markSeen (r : TunnelReq) (m : Mach) : Mach := { m with hif := { m.hif with seen := m.hif.seen ++ [(r.seat, r.tunId)] } }

/-- A command as the tunnel of another seat brings it, without a stamp. -/
def tunnelled (seat tun : Nat) (c : Cmd) : Cmd := { c with src := .tunnel seat tun 0 }

/-- The first fragment of a request that comes to a member: it is kept, or it is the whole request. -/
theorem tunnelRequest_first (hm : member m = true) (ha : m.hif.assemblies.any (fun a => a.seat == r.seat && a.tunId == r.tunId) = false)
    (hi : r.idx < r.cnt) : tunnelRequest r m = if 1 < r.cnt then keepFragment r m else wholeRequest r m := by
  have hnone : ∀ a ∈ m.hif.assemblies, ¬ (a.seat == r.seat && a.tunId == r.tunId) = true := List.any_eq_false.mp ha
  have hfind : m.hif.assemblies.find? (fun a => a.seat == r.seat && a.tunId == r.tunId) = none := List.find?_eq_none.mpr hnone
  have hrest : m.hif.assemblies.filter (fun a => !(a.seat == r.seat && a.tunId == r.tunId)) = m.hif.assemblies :=
    List.filter_eq_self.mpr fun a h => (Bool.not_eq_true' _).mpr (Bool.not_eq_true _ ▸ hnone a h)
  simp only [tunnelRequest, hm, hfind, hrest, Nat.not_le.mpr hi, Option.getD_none, insertNat, List.length_singleton, Bool.not_true,
    decide_false, Bool.or_self, Bool.false_eq_true, if_false]
  rfl

theorem tunnelRequest_fragment_answers (ha : Awake s) (hm : member s.m = true)
    (hn : s.m.hif.assemblies.any (fun a => a.seat == r.seat && a.tunId == r.tunId) = false) (hi : r.idx < r.cnt) (hc : 2 ≤ r.cnt) :
    Answers (.tunnelRequestReceive r) s (fun n => n.hif.assemblies = s.m.hif.assemblies ++ [⟨r.seat, r.tunId, s.m.deal, [r.idx]⟩] ∧
      n.hif.held = s.m.hif.held ∧ n.regs = s.m.regs) := by
  refine answers_mach _ s (tunnelRequest r) _ rfl ha ?_
  rw [tunnelRequest_first hm hn hi, if_pos (show 1 < r.cnt from hc)]
  exact ⟨rfl, rfl, rfl⟩

/-- A command for this seat without an envelope and without a deal of its own, taken before its first eligible deal: it is held until then. -/
theorem admitCmd_held {op first : Nat} {eff : Eff} {c : Cmd} (hf : c.flags < 16) (hr : c.rsvd = 0)
    (hself : c.target = 0xFFFE ∨ (c.target ≤ 1023 ∧ member m = true ∧ c.target = ownSeat m)) (hrs : reservedOk op c = true) (hcut : op ≠ 0x0102)
    (hsg : signedOp op = false) (hd : c.deal = 0) (ht : Cmd_tunnel c = false) (hs : Cmd_signed c = false) (hfirst : m.deal < first)
    (hfull : m.hif.held.length < 4096) :
    admitCmd op eff first c m = setHeld (m.hif.held ++ [⟨{ c with deal := first }, ticket op first c m⟩]) m := by
  have hcut' : (op = 0x0102 && !cutArgsOk c) = false := by rw [decide_eq_false hcut, Bool.false_and]
  have htake : admitCmd op eff first c m = takeHere eff first ⟨c, ticket op first c m⟩ m := by
    simp only [admitCmd, header_ok op c m hf hr hself, hrs, hcut', hsg, hd, ht, forSelf_of c m hself, Bool.not_true, Bool.false_and,
      bne_self_eq_false, Bool.or_self, Bool.false_eq_true, if_false]
  have hcheck : ∀ k : Mach → Mach, checked ⟨c, ticket op first c m⟩ k m = k m := fun k => if_pos (by simp [carriesEnv, hs])
  have heff : (ticket op first c m).eff = first := if_pos hd
  rw [htake, takeHere, hcheck, heff, Nat.max_self, accept, if_neg (Nat.not_le.mpr hfirst), if_neg (Nat.not_le.mpr hfull)]
  simp only [Nat.lt_irrefl, decide_false, Bool.and_false, Bool.or_false, Bool.false_eq_true, if_false]

/-- A whole request of another seat that no manager has stamped, had for the first time. -/
theorem wholeRequest_new (h0 : r.mgrSeq = 0) (hseen : m.hif.seen.contains (r.seat, r.tunId) = false) :
    wholeRequest r m = plainRequest r.seat r.tunId r.whole (markSeen r m) := by
  simp only [wholeRequest, tunKey, h0, hseen, if_true, Bool.false_eq_true, if_false]
  rfl

/-- An unstamped request of another seat for this one is judged as a command of this deal. -/
theorem plainRequest_here {seat tun : Nat} {x : Desc} {eff : Eff} (he : effOf x.op = some eff) (hrs : reservedOk x.op x.cmd = true)
    (ht : Cmd_tunnel x.cmd = false) (hself : forSelf m x.cmd = true) (hall : x.cmd.target ≠ 0xFFFF) :
    plainRequest seat tun x m = admitCmd x.op eff (firstDeal x.cmd m) (tunnelled seat tun x.cmd) m := by
  have hrs' : reservedOk x.op { x.cmd with src := .tunnel seat tun 0 } = true := hrs
  have ht' : Cmd_tunnel { x.cmd with src := .tunnel seat tun 0 } = false := ht
  have hself' : forSelf m { x.cmd with src := .tunnel seat tun 0 } = true := hself
  simp only [plainRequest, he, hrs', ht', hself', hall, Bool.not_true, decide_false, Bool.or_self, Bool.false_eq_true, if_false, if_true]
  rfl

theorem tunnelRequest_whole_answers (ha : Awake s) (hm : member s.m = true)
    (hn : s.m.hif.assemblies.any (fun a => a.seat == r.seat && a.tunId == r.tunId) = false) (hi : r.idx = 0) (hc : r.cnt = 1) (h0 : r.mgrSeq = 0)
    (hseen : s.m.hif.seen.contains (r.seat, r.tunId) = false) (he : (effOf r.whole.op).isSome = true) (hcut : r.whole.op ≠ 0x0102)
    (hsg : signedOp r.whole.op = false) (hf : r.whole.cmd.flags < 16) (hs : Cmd_signed r.whole.cmd = false)
    (ht : Cmd_tunnel r.whole.cmd = false) (hr : r.whole.cmd.rsvd = 0) (hrs : reservedOk r.whole.op r.whole.cmd = true)
    (hd : r.whole.cmd.deal = 0) (htgt : r.whole.cmd.target = ownSeat s.m) (hseat : ownSeat s.m ≤ 1023) (hfull : s.m.hif.held.length < 4096) :
    Answers (.tunnelRequestReceive r) s (fun n => ∃ h, n.hif.held = s.m.hif.held ++ [h] ∧ h.tk.op = r.whole.op ∧
      h.tk.src = .tunnel r.seat r.tunId 0 ∧ h.cmd.deal = s.m.deal + 1 ∧ h.cmd.pay = r.whole.cmd.pay ∧ n.out = s.m.out) := by
  obtain ⟨eff, heff⟩ := Option.isSome_iff_exists.mp he
  have hself : r.whole.cmd.target = 0xFFFE ∨ (r.whole.cmd.target ≤ 1023 ∧ member s.m = true ∧ r.whole.cmd.target = ownSeat s.m) :=
    .inr ⟨htgt ▸ hseat, hm, htgt⟩
  have hfirst : firstDeal r.whole.cmd (markSeen r s.m) = s.m.deal + 1 := by
    rw [firstDeal, hs]
    rfl
  refine answers_mach _ s (tunnelRequest r) _ rfl ha ?_
  rw [tunnelRequest_first hm hn (by omega), if_neg (by omega), wholeRequest_new h0 hseen,
    plainRequest_here heff hrs ht (forSelf_of _ (markSeen r s.m) hself) (by omega), hfirst,
    admitCmd_held (c := tunnelled r.seat r.tunId r.whole.cmd) (m := markSeen r s.m) hf hr hself hrs hcut hsg hd ht hs (Nat.lt_succ_self s.m.deal) hfull]
  exact ⟨_, rfl, rfl, rfl, rfl, rfl, rfl⟩

end Requests

/-! Replies, acknowledgements and timeouts. -/

section Replies
variable {s : State} {m : Mach} {x : Sent} {tun q : Nat}

theorem tunnelReply_fragment_answers {r : TunnelRep} (ha : Awake s) (hx : sentOf s.m r.tunId = some x) (hi : r.idx < r.cnt)
    (hg : (replyGot r s.m).got.length < r.cnt) :
    Answers (.tunnelReplyReceive r) s (fun n => replyGot r s.m ∈ n.hif.replies ∧ n.hif.sent = s.m.hif.sent ∧ n.out = s.m.out) := by
  refine answers_mach _ s (tunnelReply r) _ rfl ha ?_
  simp only [tunnelReply, hx, if_neg (Nat.not_le.mpr hi), if_pos hg]
  exact ⟨List.mem_append_right _ (List.mem_singleton_self _), rfl, rfl⟩

/-- A whole reply has come: nothing waits for it any more, and its result data are written where they still can be. -/
def replyTaken (r : TunnelRep) (x : Sent) (m : Mach) : Mach :=
  let m1 := dropSent r.tunId (setReplies r.tunId none m)
  if live x.tk m1 && r.result != [] then { m1 with out := .dma (bufAddr x.cmd) r.result :: m1.out } else m1

theorem tunnelReply_whole {r : TunnelRep} (hx : sentOf m r.tunId = some x) (hi : r.idx < r.cnt) (hg : r.cnt ≤ (replyGot r m).got.length) :
    tunnelReply r m = completeWith x.tk r.status r.deal (if x.tk.interim then 1 else 2) x.tk.irq [] (replyTaken r x m) := by
  simp only [tunnelReply, hx, if_neg (Nat.not_le.mpr hi), if_neg (Nat.not_lt.mpr hg), replyTaken]

theorem replyTaken_hif (r : TunnelRep) (x : Sent) (m : Mach) :
    (replyTaken r x m).hif = (dropSent r.tunId (setReplies r.tunId none m)).hif := (apply_ite Mach.hif ..).trans (ite_self _)

theorem replyTaken_regs (r : TunnelRep) (x : Sent) (m : Mach) : (replyTaken r x m).regs = m.regs := (apply_ite Mach.regs ..).trans (ite_self _)

theorem live_replyTaken {r : TunnelRep} (hl : live x.tk m = true) : live x.tk (replyTaken r x m) = true :=
  (live_congr (replyTaken_regs r x m) (congrArg Hif.epoch (replyTaken_hif r x m) :)).trans hl

theorem replyTaken_out {r : TunnelRep} (hl : live x.tk m = true) :
    (replyTaken r x m).out = (if r.result = [] then [] else [.dma (bufAddr x.cmd) r.result]) ++ m.out := by
  have hl' : live x.tk (dropSent r.tunId (setReplies r.tunId none m)) = true := hl
  simp only [replyTaken, hl', Bool.true_and]
  by_cases hres : r.result = []
  · rw [if_neg (by simp [hres]), if_pos hres]
    rfl
  · rw [if_pos (by simp [hres]), if_neg hres]
    rfl

theorem tunnelReply_whole_answers {r : TunnelRep} (ha : Awake s) (hx : sentOf s.m r.tunId = some x) (hi : r.idx < r.cnt)
    (hg : r.cnt ≤ (replyGot r s.m).got.length) (hq : x.tk.src = .ring q) (hl : live x.tk s.m = true) :
    Answers (.tunnelReplyReceive r) s (fun n => n.hif.sent = s.m.hif.sent.filter (fun y => y.tunId != r.tunId) ∧
      (r.result ≠ [] → NewOut s.m n (.dma (bufAddr x.cmd) r.result)) ∧
      NewOut s.m n (.completion (cqOf s.m q) (mget 0 s.m.hif.cqProd (cqOf s.m q) % 2 ^ 32) x.tk.tag x.tk.op r.status r.deal) ∧
      n.regs = s.m.regs) := by
  have hcq : cqOf (replyTaken r x s.m) q = cqOf s.m q := by rw [cqOf, lat, replyTaken_hif]; rfl
  have hprod : (replyTaken r x s.m).hif.cqProd = s.m.hif.cqProd := (congrArg Hif.cqProd (replyTaken_hif r x s.m) :)
  have hout : ∀ st d rsv now, (completeWith x.tk st d rsv now [] (replyTaken r x s.m)).out =
      (.completion (cqOf s.m q) (mget 0 s.m.hif.cqProd (cqOf s.m q) % 2 ^ 32) x.tk.tag x.tk.op st d ::
        if r.result = [] then [] else [.dma (bufAddr x.cmd) r.result]) ++ s.m.out := fun st d rsv now => by
    rw [completeWith_ring_out hq (live_replyTaken hl), hcq, hprod, replyTaken_out hl, List.cons_append]
  refine answers_mach _ s (tunnelReply r) _ rfl ha ?_
  rw [tunnelReply_whole hx hi hg]
  refine ⟨?_, fun hres => ⟨_, hout .., ?_⟩, ⟨_, hout .., List.mem_cons_self⟩, (completeWith_regs ..).trans (replyTaken_regs ..)⟩
  · rw [completeWith_hif_keep (·.sent) (fun _ _ _ _ _ _ => rfl) (fun _ _ => rfl), replyTaken_hif]
    rfl
  · rw [if_neg hres]
    exact List.mem_cons_of_mem _ (List.mem_singleton_self _)

theorem stamperAck_answers {d : Nat} (ha : Awake s) (hx : sentOf s.m tun = some x) (hint : Cmd_interim x.cmd = true) (hq : x.tk.src = .ring q)
    (hno : x.tk.interim = false) (hl : live x.tk s.m = true) : Answers (.stamperAckReceive tun d) s (fun n =>
      NewOut s.m n (.completion (cqOf s.m q) (mget 0 s.m.hif.cqProd (cqOf s.m q) % 2 ^ 32) x.tk.tag x.tk.op stPending d) ∧
        n.hif.sent.length = s.m.hif.sent.length ∧ n.regs = s.m.regs) := by
  have hpend : interim x.tk stPending d s.m = completeWith x.tk stPending d 1 false [] s.m := by
    simp only [interim, hq, hno, Bool.false_eq_true, if_false]
  refine answers_mach _ s (stamperAck tun d) _ rfl ha ?_
  simp only [stamperAck, hx, if_pos hint, hpend]
  refine ⟨⟨[_], completeWith_ring_out hq hl, List.mem_singleton_self _⟩, ?_, completeWith_regs ..⟩
  rw [List.length_map, completeWith_hif_keep (·.sent) (fun _ _ _ _ _ _ => rfl) (fun _ _ => rfl)]

theorem tunnelTimeout_answers (ha : Awake s) (hx : s.m.hif.sent.find? (fun x => x.tunId == tun) = some x) (hq : x.tk.src = .ring q)
    (hl : live x.tk s.m = true) (hdue : x.since + hifDeals s.m F.HIF_TUNNEL_TMO_DEALS ≤ s.m.deal) :
    Answers (.tunnelTimeout tun) s (fun n => n.hif.sent = s.m.hif.sent.filter (fun y => y.tunId != tun) ∧
      NewOut s.m n (.completion (cqOf s.m q) (mget 0 s.m.hif.cqProd (cqOf s.m q) % 2 ^ 32) x.tk.tag x.tk.op stNotMember s.m.deal)) := by
  refine answers_mach _ s (tunnelTimeout tun) _ rfl ha ?_
  simp only [tunnelTimeout, hx, if_pos hdue]
  exact ⟨completeWith_hif_keep (·.sent) (fun _ _ _ _ _ _ => rfl) (fun _ _ => rfl) _,
    [_], completeWith_ring_out hq (m := dropSent tun s.m) hl, List.mem_singleton_self _⟩

theorem reassemblyDiscard_answers (ha : Awake s) (seat tun : Nat) : Answers (.tunnelReassemblyDiscard seat tun) s (fun n =>
    n.hif.assemblies = s.m.hif.assemblies.filter (fun a => !(a.seat == seat && a.tunId == tun && a.first + 64 ≤ s.m.deal)) ∧
      n.hif.held = s.m.hif.held ∧ n.regs = s.m.regs ∧ n.out = s.m.out) :=
  answers_mach _ s (reassemblyDiscard seat tun) _ rfl ha ⟨rfl, rfl, rfl, rfl⟩

end Replies

/-- Settles O51, one lemma for each clause. -/
theorem tunnelCarriesCommands : Obligations.TunnelCarriesCommands := fun _ ha =>
  ⟨fun _ hm hn => ⟨tunnelRequest_fragment_answers ha hm hn, tunnelRequest_whole_answers ha hm hn⟩,
   fun _ _ _ hx hi => ⟨tunnelReply_fragment_answers ha hx hi, tunnelReply_whole_answers ha hx hi⟩,
   fun _ _ _ _ => stamperAck_answers ha, fun _ _ _ => tunnelTimeout_answers ha, reassemblyDiscard_answers ha⟩

end Sys2Proof.Machine
end

section
/-! How the host interface stops (03 R83, R84; 18 R481): the mirrors and the vector of a DMA fault, and what a host-function reset discards, keeps
and starts anew. -/
namespace Sys2Proof.Machine

/-! Register fields with two indices, and the cleared registers. -/

section Fields
variable {f g : Fld} {i j k l : Nat}

theorem rdij_wrij_ne (v : Nat) (m : Mach) (h : i < f.n1 → j < f.n2 → fkey g k l ≠ fkey f i j) : rdij (wrij f i j v m) g k l = rdij m g k l := by
  unfold rdij wrij
  split
  case isTrue hij => exact rgetij_rsetij_ne _ _ _ _ _ _ _ _ (h hij.1 hij.2)
  case isFalse => rfl

/-- A repetition at zero stays at zero where zero is written to any repetition of its field. -/
theorem rdij_wrij_zero {m : Mach} (h : rdij m f k l = 0) : rdij (wrij f i j 0 m) f k l = 0 := by
  by_cases hk : fkey f k l = fkey f i j
  · unfold rdij wrij
    split
    · simp only [rgetij, rsetij, hk, mget_mset_self, Nat.zero_mod]
    · exact h
  · rw [rdij_wrij_ne 0 m fun _ _ => hk, h]

/-- A filter by key takes away the keys that it does not let pass. -/
theorem mfind_filter_key_none (p : Nat → Bool) (k : Nat) (hk : p k = false) (t : SMap Nat) : mfind (t.filter (fun q => p q.1)) k = none := by
  induction t with
  | nil => rfl
  | cons q t ih =>
    obtain ⟨j, w⟩ := q
    by_cases hj : p j = true
    · have hne : j ≠ k := fun h => by simp [← h, hj] at hk
      simp [hj, mfind_cons, hne, ih]
    · simp [hj, ih]

/-- A field of block 1 other than HIF_EV_DISCARD reads its reset value once the host interface's registers are cleared. -/
theorem rgetij_clearHifRegs (t : SMap Nat) (h : (decide (fkey f i j / 32 < 0x1000) || decide (0x2000 ≤ fkey f i j / 32) ||
    decide (fkey f i j / 32 = 0x1034)) = false) : rgetij (clearHifRegs t) f i j = f.reset := by
  have hnone : mfind (clearHifRegs t) (fkey f i j) = none :=
    mfind_filter_key_none (fun k => decide (k / 32 < 0x1000) || decide (0x2000 ≤ k / 32) || decide (k / 32 = 0x1034)) _ h t
  rw [rgetij, mget, hnone, Option.getD_none]

end Fields

/-- What one round of a loop brings about and every round keeps holds after the loop. -/
theorem forEach_holds {α : Type} {P : Mach → Prop} {f : α → Mach → Mach} {a : α} (hset : ∀ m, P (f a m))
    (hkeep : ∀ b m, P m → P (f b m)) {l : List α} (ha : a ∈ l) (m : Mach) : P (forEach l f m) := by
  induction l generalizing m with
  | nil => cases ha
  | cons b l ih =>
    rw [forEach_cons]
    obtain rfl | ha := List.mem_cons.mp ha
    · exact List.foldlRecOn (motive := P) l _ (hset m) fun n hn b _ => hkeep b n hn
    · exact ih ha _

/-! The mirrors. -/

theorem mirrorStop_keep {β : Type} (g : Mach → β) (h : ∀ d n, g (sapWr F.SAP_x_HB_POS_ACTIVE d 0 n) = g n) (m : Mach) : g (mirrorStop m) = g m :=
  forEach_keep g _ _ h m

theorem rd_mirrorStop {f : Fld} (h : ∀ i < F.SAP_x_HB_POS_ACTIVE.n1, ∀ j < F.SAP_x_HB_POS_ACTIVE.n2, fkey f 0 0 ≠ fkey F.SAP_x_HB_POS_ACTIVE i j)
    (m : Mach) : rd (mirrorStop m) f = rd m f :=
  mirrorStop_keep (fun n => rd n f) (fun _ n => rdij_wrij_ne 0 n fun hi hj => h _ hi _ hj) m

theorem sapSide_lt (d : Nat) : sapSide d < 2 := by
  unfold sapSide
  split <;> omega

theorem sapRd_sapWr_zero (f : Fld) (d e : Nat) {m : Mach} (h : sapRd m f d = 0) : sapRd (sapWr f e 0 m) f d = 0 := rdij_wrij_zero h

theorem mirrorStop_stops {d : Nat} (hd : d < 32) (m : Mach) : sapRd (mirrorStop m) F.SAP_x_HB_POS_ACTIVE d = 0 := by
  have hset : ∀ n, sapRd (sapWr F.SAP_x_HB_POS_ACTIVE d 0 n) F.SAP_x_HB_POS_ACTIVE d = 0 := fun n =>
    (rdij_wrij_self n (Nat.mod_lt _ (by decide)) (sapSide_lt d) 0).trans (Nat.zero_mod _)
  exact forEach_holds (P := fun n => sapRd n F.SAP_x_HB_POS_ACTIVE d = 0) (f := fun e => sapWr F.SAP_x_HB_POS_ACTIVE e 0) hset
    (fun e _ hn => sapRd_sapWr_zero _ d e hn) (List.mem_range.mpr hd) m

/-! A DMA fault (R83). -/

section DmaFault
variable {s : State} (m : Mach)

/-- A machine whose DMA has failed, before the fault vector is sent. -/
def faulted (m : Mach) : Mach := wr F.HIF_STATUS_DMA_FAULT 1 (wr F.HIF_STATUS_RUNNING 0 (useFresh 1 (aerReport (aerKind m) m)))

theorem dmaFault_running {m : Mach} (hr : running m = true) : dmaFault m = sendMsix (lat m F.HIF_CTRL_FAULT_VEC 0) (faulted m) := if_pos hr

theorem sendMsix_out (v : Nat) : ∃ l, (sendMsix v m).out = l ++ m.out := by
  simp only [sendMsix]
  split
  · exact ⟨[_], rfl⟩
  · exact ⟨[], rfl⟩

theorem rd_sendMsix (v : Nat) (f : Fld) : rd (sendMsix v m) f = rd m f := rfl

theorem rd_faulted_running : rd (faulted m) F.HIF_STATUS_RUNNING = 0 := by
  rw [faulted, rd_wr_ne _ _ _ _ (by decide), rd_wr_self, Nat.zero_mod]

theorem rd_faulted_flag : rd (faulted m) F.HIF_STATUS_DMA_FAULT = 1 := rd_wr_self ..

theorem newOut_faulted : NewOut m (faulted m) (.aer (aerKind m)) := ⟨[_], rfl, List.mem_singleton_self _⟩

theorem dmaFault_answers (ha : Awake s) (hr : running s.m = true) : Answers .dmaFault s (fun n => running n = false ∧
    rd n F.HIF_STATUS_DMA_FAULT = 1 ∧ NewOut s.m n (.aer (aerKind s.m)) ∧ n.hif.aer.testBit (aerKind s.m) = true ∧
      (∀ d, d < 32 → sapRd n F.SAP_x_HB_POS_ACTIVE d = 0) ∧ n.hif.held = s.m.hif.held ∧ n.dk = s.m.dk ∧ n.objs = s.m.objs) := by
  have hhif : (mirrorStop (dmaFault s.m)).hif = (dmaFault s.m).hif := mirrorStop_keep (·.hif) (fun _ _ => rfl) _
  have hout : (mirrorStop (dmaFault s.m)).out = (dmaFault s.m).out := mirrorStop_keep (·.out) (fun _ _ => rfl) _
  have hdk : (mirrorStop (dmaFault s.m)).dk = (dmaFault s.m).dk := mirrorStop_keep (·.dk) (fun _ _ => rfl) _
  have hobjs : (mirrorStop (dmaFault s.m)).objs = (dmaFault s.m).objs := mirrorStop_keep (·.objs) (fun _ _ => rfl) _
  refine answers_mach _ s (fun m => if running m then mirrorStop (dmaFault m) else m) _ rfl ha ?_
  rw [if_pos hr, hhif, hdk, hobjs, running, rd_mirrorStop (by decide), rd_mirrorStop (by decide), dmaFault_running hr, rd_sendMsix, rd_sendMsix,
    rd_faulted_running, rd_faulted_flag]
  refine ⟨rfl, rfl, ?_, testBit_setBit_self .., fun d hd => mirrorStop_stops hd _, rfl, rfl, rfl⟩
  rw [dmaFault_running hr] at hout
  obtain ⟨l, hl⟩ := sendMsix_out (faulted s.m) (lat s.m F.HIF_CTRL_FAULT_VEC 0)
  exact newOut_mono _ _ _ _ (newOut_faulted s.m) ⟨l, hout.trans hl⟩

end DmaFault

/-! The start of a host-function reset (R84, steps 1 to 3). -/

/-- What such a reset settles besides registers: the commands that wait, when the reset was asked for, the live deck, the scene and the deal. -/
def resetView (m : Mach) : List Held × Option Nat × Deck × SMap Obj × Nat := (m.hif.held, m.hif.resetReq, m.dk.live, m.objs, m.deal)

section HostReset
variable {s : State} {f : Fld} (m : Mach)

theorem writeTo_resetView (e src : Nat) (l : List FifoEntry) : resetView (writeTo e src l m) = resetView m := by
  have hkeep := evPost_keep (fun h => (h.held, h.resetReq)) (fun _ _ _ _ => by unfold evHif; split <;> rfl) (fun _ _ _ => rfl)
    8 e src l m.deal (ownSeat m) m.hif
  obtain ⟨hheld, hreq⟩ := Prod.mk.inj hkeep
  unfold writeTo
  split
  · simp only [resetView, hheld, hreq]
  · rfl

theorem raise_resetView (src code : Nat) (pay : Pay) : resetView (raise src code pay m) = resetView m := writeTo_resetView ..

theorem hifEnable_resetView : resetView (hifEnable m) = resetView m := by
  have hdone : ∀ n, resetView (raiseResetDone n) = resetView n := fun n => by
    unfold raiseResetDone
    split
    · rfl
    · exact writeTo_resetView ..
  have hboot : ∀ n, resetView (raiseBootDone n) = resetView n := fun n => by
    unfold raiseBootDone
    split
    · exact raise_resetView ..
    · rfl
  unfold hifEnable
  split
  · rfl
  · split
    · rfl
    · rw [hboot, hdone]
      rfl

theorem final_resetView (tk : Ticket) (st : Nat) : resetView (final tk st m) = resetView m := by
  have hkeep := completeWith_hif_keep (tk := tk) (st := st) (d := m.deal) (rsv := if tk.interim then 1 else 2) (now := tk.irq) (res := [])
    (fun h => (h.held, h.resetReq)) (fun _ _ _ _ _ _ => rfl) (fun _ _ => rfl) m
  obtain ⟨hheld, hreq⟩ := Prod.mk.inj hkeep
  simp only [resetView, final, hheld, hreq, completeWith_dk, completeWith_objs, completeWith_deal]

theorem cutMiss_resetView (cause : Nat) (h : Held) : resetView (cutMiss cause h m) = resetView m := by
  rw [cutMiss, final_resetView, raise_resetView]
  rfl

theorem waitersMiss_resetView : resetView (waitersMiss m) = resetView m := forEach_keep resetView _ _ (fun h n => cutMiss_resetView n 4 h) _

theorem deckHostReset_resetView : resetView (deckHostReset m) = resetView m := by
  simp only [deckHostReset]
  split
  · exact waitersMiss_resetView _
  · rfl

theorem rd_waitersMiss (hcut : fkey f 0 0 ≠ fkey F.GRF_FLAGS_CUT_MISSED 0 0) (hev : fkey f 0 0 ≠ fkey F.HIF_EV_DISCARD_COUNT 0 0) :
    rd (waitersMiss m) f = rd m f := by
  refine forEach_keep (fun n => rd n f) _ _ (fun h n => ?_) _
  rw [cutMiss, rd_final, rd_raise _ _ _ _ _ hev, rd_wr_ne _ _ _ _ hcut]
  rfl

theorem rd_deckHostReset (hcut : fkey f 0 0 ≠ fkey F.GRF_FLAGS_CUT_MISSED 0 0) (hev : fkey f 0 0 ≠ fkey F.HIF_EV_DISCARD_COUNT 0 0) :
    rd (deckHostReset m) f = rd m f := by
  simp only [deckHostReset]
  split
  · exact rd_waitersMiss _ hcut hev
  · rfl

/-- The fields that a host-function reset returns to zero, and those of the power target that follows (17 R464). -/
def tolFlds : List Fld := [F.PWR_TOL_RENDER_US, F.PWR_TOL_ICOM_US, F.PWR_TOL_ANN_US, F.PWR_TOL_STREAM_US, F.PWR_STATE_TARGET, F.PWR_STATE_FORCED]

theorem rd_showTarget (ht : fkey f 0 0 ≠ fkey F.PWR_STATE_TARGET 0 0) (hf : fkey f 0 0 ≠ fkey F.PWR_STATE_FORCED 0 0) :
    rd (showTarget m) f = rd m f := by
  rw [showTarget, rd_wr_ne _ _ _ _ ht, rd_wr_ne _ _ _ _ hf]
  exact rd_congr _ _ _ (setPwr_regs ..)

theorem rd_clearTolerances (h : ∀ g ∈ tolFlds, fkey f 0 0 ≠ fkey g 0 0) : rd (clearTolerances m) f = rd m f := by
  rw [clearTolerances, rd_showTarget _ (h _ (by decide)) (h _ (by decide)), rd_wr_ne _ _ _ _ (h _ (by decide)),
    rd_wr_ne _ _ _ _ (h _ (by decide)), rd_wr_ne _ _ _ _ (h _ (by decide)), rd_wr_ne _ _ _ _ (h _ (by decide))]

/-- The host interface once polling has stopped and the local host's commands are gone. -/
def resetBegun (m : Mach) : Mach :=
  wr F.HIF_STATUS_RUNNING 0 (wr F.HIF_STATUS_RESET_BUSY 1 { m with hif := { m.hif with
    held := m.hif.held.filter (fun x => !ownHost x), stopped := m.hif.stopped.filter (fun x => !ownHost x)
    sent := m.hif.sent.filter (fun x => !isLocal x.tk.src), resetReq := some (m.hif.resetReq.getD m.deal)
    resetEv := some (m.hif.resetEv.getD 0 + heldOwn m) } })

theorem hostReset_eq : hostReset m = clearTolerances (mirrorStop (deckHostReset (resetBegun m))) := rfl

theorem clearTolerances_resetView : resetView (clearTolerances m) = resetView m := rfl

theorem hostReset_resetView : resetView (hostReset m) =
    (m.hif.held.filter (fun x => !ownHost x), some (m.hif.resetReq.getD m.deal), m.dk.live, m.objs, m.deal) := by
  rw [hostReset_eq, clearTolerances_resetView, mirrorStop_keep resetView (fun _ _ => rfl), deckHostReset_resetView]
  rfl

theorem rd_hostReset (h : (tolFlds ++ [F.GRF_FLAGS_CUT_MISSED, F.HIF_EV_DISCARD_COUNT]).all (fun g => fkey f 0 0 != fkey g 0 0) = true)
    (hsap : ∀ i < F.SAP_x_HB_POS_ACTIVE.n1, ∀ j < F.SAP_x_HB_POS_ACTIVE.n2, fkey f 0 0 ≠ fkey F.SAP_x_HB_POS_ACTIVE i j) :
    rd (hostReset m) f = rd (resetBegun m) f := by
  have hne := fun g hg => bne_iff_ne.mp (List.all_eq_true.mp h g hg)
  rw [hostReset_eq, rd_clearTolerances _ fun g hg => hne g (List.mem_append_left _ hg), rd_mirrorStop hsap,
    rd_deckHostReset _ (hne _ (by decide)) (hne _ (by decide))]

/-- Polling stops, and the reset shows as busy. -/
theorem hostReset_status : running (hostReset m) = false ∧ rd (hostReset m) F.HIF_STATUS_RESET_BUSY = 1 := by
  rw [running, rd_hostReset m (by decide) (by decide), rd_hostReset m (by decide) (by decide), resetBegun, rd_wr_self,
    rd_wr_ne _ _ _ _ (by decide), rd_wr_self]
  exact ⟨rfl, rfl⟩

/-- A host-function reset has started since a machine: polling has stopped, and the local host's commands are gone. -/
structure ResetStarted (m n : Mach) : Prop where
  running : running n = false
  busy : rd n F.HIF_STATUS_RESET_BUSY = 1
  req : n.hif.resetReq = some (m.hif.resetReq.getD m.deal)
  held : n.hif.held = m.hif.held.filter (fun x => !ownHost x)
  live : n.dk.live = m.dk.live
  objs : n.objs = m.objs

/-- The start of the reset on a machine that is as another one in all that the reset settles. -/
theorem hostReset_starts {n : Mach} (h : resetView n = resetView m) : ResetStarted m (hostReset n) := by
  simp only [resetView, Prod.mk.injEq] at h
  obtain ⟨hheld, hreq, hlive, hobjs, hdeal⟩ := h
  have hview := hostReset_resetView n
  simp only [resetView, hheld, hreq, hlive, hobjs, hdeal, Prod.mk.injEq] at hview
  obtain ⟨hheld', hreq', hlive', hobjs', -⟩ := hview
  obtain ⟨hrun, hbusy⟩ := hostReset_status n
  exact ⟨hrun, hbusy, hreq', hheld', hlive', hobjs'⟩

/-- What the reset of the PCI Express function returns besides: the MSI-X structures and BAR0 (03 R49). -/
def returnFunction (n : Mach) : Mach := { n with hif := { n.hif with msix := [], pba := 0, msixEn := false, msixMask := false, bar0 := 0 } }

/-- PCIE_PERST_N is low (18 R481). -/
def perstLow (n : Mach) : Mach := { n with sys := { n.sys with perst := true } }

theorem functionReset_eq : functionReset m = returnFunction (hostReset m) := rfl

theorem perstAssert_eq : perstAssert m = perstLow (returnFunction (hostReset m)) := rfl

theorem ResetStarted.returnFunction {m n : Mach} (h : ResetStarted m n) : ResetStarted m (returnFunction n) :=
  ⟨h.running, h.busy, h.req, h.held, h.live, h.objs⟩

theorem ResetStarted.perstLow {m n : Mach} (h : ResetStarted m n) : ResetStarted m (perstLow n) :=
  ⟨h.running, h.busy, h.req, h.held, h.live, h.objs⟩

/-- A word with HOST_RESET set takes its plain fields and its enable before the reset. -/
theorem hifCtrlWrite_reset (v : Word) : ∃ n, hifCtrlWrite (v ||| 2).toNat m = hostReset n ∧ resetView n = resetView m := by
  have hbit : (v ||| 2).toNat.testBit 1 = true := by
    rw [BitVec.toNat_or, Nat.testBit_or, Bool.or_eq_true]
    exact .inr (by decide)
  refine ⟨_, by rw [hifCtrlWrite, hbit, onlyIf_true], ?_⟩
  rw [onlyIf_keep resetView _ _ _ (hifEnable_resetView _)]
  rfl

theorem hostReset_answers (ha : Awake s) (c : Instr) (v : Word) (hc : c = .hostReset v ∨ c = .flr ∨ c = .pciePerst) :
    Answers c s (fun n => running n = false ∧ rd n F.HIF_STATUS_RESET_BUSY = 1 ∧ n.hif.resetReq = some (s.m.hif.resetReq.getD s.m.deal) ∧
      n.hif.held = s.m.hif.held.filter (fun x => !ownHost x) ∧ n.dk.live = s.m.dk.live ∧ n.objs = s.m.objs ∧
      (c = .flr ∨ c = .pciePerst → n.hif.msix = [] ∧ n.hif.msixEn = false) ∧ (c = .pciePerst → n.sys.perst = true)) := by
  have hstart : ResetStarted s.m (hostReset s.m) := hostReset_starts s.m rfl
  obtain rfl | rfl | rfl := hc
  · obtain ⟨n, hn, hview⟩ := hifCtrlWrite_reset s.m v
    obtain ⟨hrun, hbusy, hreq, hheld, hlive, hobjs⟩ := hostReset_starts s.m hview
    refine answers_mach _ s (hifCtrlWrite (v ||| 2).toNat) _ rfl ha ?_
    rw [hn]
    exact ⟨hrun, hbusy, hreq, hheld, hlive, hobjs, by simp, by simp⟩
  · obtain ⟨hrun, hbusy, hreq, hheld, hlive, hobjs⟩ := hstart.returnFunction
    refine answers_mach _ s functionReset _ rfl ha ?_
    rw [functionReset_eq]
    exact ⟨hrun, hbusy, hreq, hheld, hlive, hobjs, fun _ => ⟨rfl, rfl⟩, by simp⟩
  · obtain ⟨hrun, hbusy, hreq, hheld, hlive, hobjs⟩ := hstart.returnFunction.perstLow
    refine answers_mach _ s perstAssert _ rfl ha ?_
    rw [perstAssert_eq]
    exact ⟨hrun, hbusy, hreq, hheld, hlive, hobjs, fun _ => ⟨rfl, rfl⟩, fun _ => rfl⟩

theorem pciePerstRelease_answers (ha : Awake s) : Answers .pciePerstRelease s (fun n => n.sys.perst = false ∧ n.regs = s.m.regs ∧
    n.hif = s.m.hif ∧ n.out = s.m.out) := answers_mach _ s perstRelease _ rfl ha ⟨rfl, rfl, rfl, rfl⟩

/-! The end of a host-function reset (R84, step 4). -/

theorem hostResetComplete_answers (ha : Awake s) (hreq : s.m.hif.resetReq.isSome = true) :
    Answers .hostResetComplete s (fun n => n.hif.epoch = s.m.hif.epoch + 1 ∧ n.hif.resetReq = none ∧ running n = false ∧
      rd n F.HIF_CTRL_ENABLE = 0 ∧ n.hif.held = s.m.hif.held ∧ n.hif.sqCons = [] ∧ n.hif.cqProd = [] ∧ n.hif.eqProd = [] ∧
      n.hif.fifos = s.m.hif.fifos ∧ n.dk = s.m.dk ∧ n.out = s.m.out) := by
  have hrun : rgetij (clearHifRegs s.m.regs) F.HIF_STATUS_RUNNING 0 0 = 0 := rgetij_clearHifRegs _ (by decide)
  have hen : rgetij (clearHifRegs s.m.regs) F.HIF_CTRL_ENABLE 0 0 = 0 := rgetij_clearHifRegs _ (by decide)
  have hsome : s.m.hif.resetReq.isNone = false := by rw [← Option.not_isSome, hreq, Bool.not_true]
  refine answers_mach _ s hostResetComplete _ rfl ha ?_
  rw [hostResetComplete, hsome, if_neg Bool.false_ne_true]
  refine ⟨rfl, rfl, ?_, hen, rfl, rfl, rfl, rfl, rfl, rfl, rfl⟩
  change (rgetij (clearHifRegs s.m.regs) F.HIF_STATUS_RUNNING 0 0 == 1) = false
  rw [hrun]
  rfl

end HostReset

/-- Settles O49, one lemma for each clause. -/
theorem hostInterfaceStops : Obligations.HostInterfaceStops := fun _ ha =>
  ⟨dmaFault_answers ha, hostReset_answers ha, pciePerstRelease_answers ha, hostResetComplete_answers ha⟩

end Sys2Proof.Machine
end

section
/-! A poll that resets the device. A manager stamps a command with a deal that lies DOM_TRIO.LEAD deals ahead (15 R410), and LEAD is 2 to 255; in a
state where it is 0, which no register write reaches, the deal of the stamp is the present one. A command that the poll takes is then applied in the
poll itself, SYSTEM_RESET among them, and the reset empties the books of the poll. -/
namespace Sys2Proof.Machine

/-- SYSTEM_RESET at once (MODE 1), for this device, through the manager (TUNNEL). -/
def stampedReset : Desc := ⟨0x0E02, { flags := 1, pay := 1 :: List.replicate 39 0 }⟩

/-- A well-formed poll that finds that descriptor on submission ring 0, and nothing on the others. -/
def resetPoll : PollIn :=
  { sqProd := 1 :: List.replicate 15 0, cqCons := List.replicate 16 0, eqCons := List.replicate 8 0, ackSeq := 0, ackMask := 0,
    descs := [stampedReset] :: List.replicate 15 [] }

/-- A managing member at seat 4 and deal 1000 whose interface runs with submission ring 0 and completion ring 0, and whose LEAD is 0. -/
def leadlessManager : Mach :=
  { deal := 1000
    regs := [(F.HIF_STATUS_RUNNING, 1), (F.DOM_STATE_SEAT, 4), (F.DOM_STATE_MANAGING, 1), (F.DOM_TRIO_LEAD, 0)].foldl
      (fun t q => rsetij q.1 0 0 q.2 t) resetRegs
    hif := { lat := [(F.HIF_SQ_SIZE_LOG2, 4), (F.HIF_CQ_SIZE_LOG2, 4)].foldl (fun t q => rsetij q.1 0 0 q.2 t) [] } }

theorem pollDue_leadlessManager : pollDue leadlessManager = true := by decide +kernel

/-- The poll applies the reset: the device stands in a reset by command, without a poll in its books. -/
theorem poll_leadlessManager : (poll resetPoll leadlessManager).sys.held = some 2 ∧ (poll resetPoll leadlessManager).hif.pollDeal = 0 := by
  decide +kernel

/-- The machine that a poll leaves of a device that is not held. -/
theorem mach_of_doorbellPoll {p : PollIn} {m : Mach} {q : List Instr} {t : State} (hm : m.sys.held = none)
    (ht : exec (.doorbellPoll p) ⟨m, q⟩ = .next t) : t.m = poll p m := by
  have hrow : exec (.doorbellPoll p) ⟨m, q⟩ = onMach (poll p) ⟨m, q⟩ := rfl
  rw [hrow, onMach_awake _ _ hm] at ht
  cases ht
  rfl

/-- Refutes O48: the clause of a due poll fails where LEAD is 0. The poll of `leadlessManager` is due, but it applies the SYSTEM_RESET that it takes,
and the deal of the last poll is 0 after it, not 1000. -/
theorem not_hostInterfaceRuns : ¬ Obligations.HostInterfaceRuns := by
  intro h
  obtain ⟨-, -, hpoll, -⟩ := h ⟨leadlessManager, []⟩ rfl
  obtain ⟨t, ht, -, -, hdeal, -⟩ := (hpoll resetPoll).1 pollDue_leadlessManager
  rw [mach_of_doorbellPoll rfl ht, poll_leadlessManager.2] at hdeal
  exact absurd hdeal (by decide)

end Sys2Proof.Machine
end

section
/-! What the operations of the media clock unit leave of the machine (04): the places of BAR0 that each may write, and the parts of the unit that
each keeps. -/
namespace Sys2Proof.Machine

/-- The second machine differs from the first in no register outside a list of places, in no set-up in force and no latched one, and has only
added to the output. -/
structure Kept (ks : List Nat) (m n : Mach) : Prop where
  regs : ∀ k ∉ ks, ∀ d, mget d n.regs k = mget d m.regs k
  setup : n.setup = m.setup
  lat : n.hif.lat = m.hif.lat
  out : ∃ l, n.out = l ++ m.out

/-- Where an event writes a register: the count of the discarded ones (03 R504). -/
def discardKey : Nat := fkey F.HIF_EV_DISCARD_COUNT 0 0

section Kept
variable {α : Type} {ks ls : List Nat} {m n q : Mach} {f : Fld} {i : Nat}

theorem Kept.of_eq (hr : n.regs = m.regs) (hs : n.setup = m.setup) (hl : n.hif.lat = m.hif.lat) (ho : n.out = m.out) : Kept ks m n :=
  ⟨fun _ _ _ => by rw [hr], hs, hl, [], ho⟩

theorem Kept.refl (m : Mach) : Kept ks m m := .of_eq rfl rfl rfl rfl

theorem Kept.trans (h1 : Kept ks m n) (h2 : Kept ks n q) : Kept ks m q := by
  obtain ⟨r1, s1, t1, l1, o1⟩ := h1
  obtain ⟨r2, s2, t2, l2, o2⟩ := h2
  exact ⟨fun k hk d => (r2 k hk d).trans (r1 k hk d), s2.trans s1, t2.trans t1, l2 ++ l1, by rw [o2, o1, List.append_assoc]⟩

theorem Kept.mono (h : Kept ks m n) (hs : ks ⊆ ls) : Kept ls m n := ⟨fun k hk => h.regs k fun hm => hk (hs hm), h.setup, h.lat, h.out⟩

theorem Kept.rdi (h : Kept ks m n) (hf : fkey f i 0 ∉ ks) : rdi n f i = rdi m f i := h.regs _ hf _

theorem Kept.rd (h : Kept ks m n) (hf : fkey f 0 0 ∉ ks) : rd n f = rd m f := h.rdi hf

theorem Kept.events (h : Kept ks m n) (hr : fkey F.HIF_STATUS_RUNNING 0 0 ∉ ks) : EventsKept m n :=
  ⟨by simp only [running, h.rd hr], h.lat, h.out⟩

theorem kept_rsetij {v : Nat} (hr : n.regs = rsetij f i 0 v m.regs) (hf : fkey f i 0 ∈ ks) (hs : n.setup = m.setup) (hh : n.hif = m.hif)
    (ho : n.out = m.out) : Kept ks m n := by
  refine ⟨fun k hk d => ?_, hs, by rw [hh], [], ho⟩
  rw [hr, rsetij]
  exact mget_mset_other _ _ _ _ _ _ fun e => hk (e ▸ hf)

theorem kept_wr (v : Nat) (m : Mach) (hf : fkey f 0 0 ∈ ks) : Kept ks m (wr f v m) := kept_rsetij rfl hf rfl rfl rfl

theorem kept_bump (v : Nat) (m : Mach) (hf : fkey f 0 0 ∈ ks) : Kept ks m (bump f v m) := kept_rsetij rfl hf rfl rfl rfl

theorem kept_wri (i v : Nat) (m : Mach) (hf : i < f.n1 → fkey f i 0 ∈ ks) : Kept ks m (wri f i v m) := by
  by_cases hi : i < f.n1
  · exact kept_rsetij (by rw [wri_regs, if_pos hi]) (hf hi) rfl rfl rfl
  · exact .of_eq (by rw [wri_regs, if_neg hi]) rfl rfl rfl

theorem kept_setClk (x : Clk) (m : Mach) : Kept ks m (setClk x m) := .of_eq rfl rfl rfl rfl

theorem kept_raise (src code : Nat) (pay : Pay) (m : Mach) (hd : discardKey ∈ ks) : Kept ks m (raise src code pay m) := by
  refine ⟨fun k hk d => ?_, raise_setup .., raise_lat .., raise_out ..⟩
  unfold raise raiseAt writeRecords writeTo
  simp only []
  split
  · rfl
  · exact mget_mset_other _ _ _ _ _ _ fun e => hk (e ▸ hd)

theorem kept_onlyIf (b : Bool) {g : Mach → Mach} (h : Kept ks m (g m)) : Kept ks m (onlyIf b g m) := by
  cases b
  · exact .refl m
  · exact h

theorem kept_forEach {g : α → Mach → Mach} {l : List α} (h : ∀ a ∈ l, ∀ n, Kept ks n (g a n)) (m : Mach) : Kept ks m (forEach l g m) := by
  induction l generalizing m with
  | nil => exact .refl m
  | cons a l ih => exact (h a List.mem_cons_self m).trans (ih (fun b hb => h b (List.mem_cons_of_mem a hb)) _)

theorem kept_watch (bit : Nat) (above : Bool) (src code : Nat) (pay : Pay) (m : Mach) (hd : discardKey ∈ ks) :
    Kept ks m (watch bit above src code pay m) := by
  unfold watch
  split
  · refine .trans ?_ (kept_raise _ _ _ _ hd)
    exact .of_eq rfl rfl rfl rfl
  · exact .of_eq rfl rfl rfl rfl

end Kept

/-- A loop that meets each element once: what the rounds of the other elements keep is what its own round met, and stays as that round left it. -/
theorem forEach_once {α β : Type} (g : Mach → β) {f : α → Mach → Mach} {a : α} {l : List α} (hl : l.Nodup) (ha : a ∈ l)
    (hne : ∀ b ∈ l, b ≠ a → ∀ n, g (f b n) = g n) (m : Mach) : ∃ n, g n = g m ∧ g (forEach l f m) = g (f a n) := by
  induction l generalizing m with
  | nil => cases ha
  | cons b l ih =>
    obtain ⟨hb, hl⟩ := List.nodup_cons.mp hl
    have hrest : ∀ c ∈ l, c ≠ a → ∀ n, g (f c n) = g n := fun c hc => hne c (List.mem_cons_of_mem b hc)
    by_cases hba : b = a
    · subst hba
      exact ⟨m, rfl, List.foldlRecOn (motive := fun n => g n = g (f b m)) l _ rfl fun n hn c hc =>
        (hrest c hc (fun e => hb (e ▸ hc)) n).trans hn⟩
    · obtain ⟨n, hn, heq⟩ := ih hl ((List.mem_cons.mp ha).resolve_left (Ne.symm hba)) hrest (f b m)
      exact ⟨n, hn.trans (hne b List.mem_cons_self hba m), heq⟩

/-! The records of candidates, outputs and ramp engines. -/

section Tables
variable {m : Mach} {i j : Nat}

@[simp] theorem cand_setCand_self (x : Cand) : cand (setCand i x m) i = x := mget_mset_self ..
@[simp] theorem aligner_setAl_self (x : Aligner) : aligner (setAl i x m) i = x := mget_mset_self ..
@[simp] theorem ramp_setRamp_self (x : Ramp) : ramp (setRamp i x m) i = x := mget_mset_self ..

theorem cand_setCand_ne (x : Cand) (h : j ≠ i) : cand (setCand i x m) j = cand m j := mget_mset_ne _ _ _ _ _ h
theorem aligner_setAl_ne (x : Aligner) (h : j ≠ i) : aligner (setAl i x m) j = aligner m j := mget_mset_ne _ _ _ _ _ h

theorem cand_congr {n : Mach} (h : n.clk.cands = m.clk.cands) : cand n i = cand m i := by rw [cand, cand, h]
theorem aligner_congr {n : Mach} (h : n.clk.als = m.clk.als) : aligner n i = aligner m i := by rw [aligner, aligner, h]
theorem ramp_congr {n : Mach} (h : n.clk.ramps = m.clk.ramps) : ramp n i = ramp m i := by rw [ramp, ramp, h]

end Tables

end Sys2Proof.Machine
end

section
/-! Candidate references are lost, qualify and stop qualifying (04 R91, R92). -/
namespace Sys2Proof.Machine

/-- Where the end of candidate i's qualification writes registers. -/
def disqualifyKeys (i : Nat) : List Nat := [discardKey, fkey F.CLK_REF_STAT_QUALIFIED i 0]

section Candidates
variable {s : State} {m : Mach} {i cause k : Nat}

theorem wantSelect_due : (wantSelect i k m).clk.due.isSome = true := rfl

theorem rdi_wantSelect (f : Fld) (j : Nat) : rdi (wantSelect i k m) f j = rdi m f j := rfl

theorem kept_wantSelect {ks : List Nat} (m : Mach) : Kept ks m (wantSelect i k m) := kept_setClk ..

theorem kept_disqualify (m : Mach) : Kept (disqualifyKeys i) m (disqualify i cause k m) :=
  ((kept_setClk ..).trans (kept_wri i 0 _ fun _ => by simp [disqualifyKeys])).trans
    ((kept_onlyIf _ (kept_raise _ _ _ _ (by simp [disqualifyKeys]))).trans (kept_wantSelect _))

theorem disqualify_due : (disqualify i cause k m).clk.due.isSome = true := wantSelect_due

/-- A candidate that stops qualifying keeps its type and nominal rate. -/
theorem cand_disqualify : cand (disqualify i cause k m) i =
    { cand m i with inRun := 0, outRun := 0, bins := if cause = 3 then (cand m i).bins else [] } := by
  refine (onlyIf_keep (cand · i) _ _ _ rfl).trans ?_
  exact cand_setCand_self _

theorem disqualify_unqualified (hi : i ≤ 4) (m : Mach) : rdi (disqualify i cause k m) F.CLK_REF_STAT_QUALIFIED i = 0 := by
  have hkey : fkey F.CLK_REF_STAT_QUALIFIED i 0 ≠ discardKey :=
    (by decide : ∀ i ≤ 4, fkey F.CLK_REF_STAT_QUALIFIED i 0 ≠ discardKey) i hi
  refine (onlyIf_keep (rdi · F.CLK_REF_STAT_QUALIFIED i) _ _ _ (rdi_raise _ _ _ _ _ _ hkey)).trans ?_
  rw [rdi_wri_self _ _ _ _ (Nat.lt_succ_of_le hi), Nat.zero_mod]

theorem disqualify_reported (hq : rdi m F.CLK_REF_STAT_QUALIFIED i = 1) (hi : i ≤ 4) : Reported 0x06 0x0601 m (disqualify i cause k m) := by
  have hrun : fkey F.HIF_STATUS_RUNNING 0 0 ∉ disqualifyKeys i :=
    (by decide : ∀ i ≤ 4, fkey F.HIF_STATUS_RUNNING 0 0 ∉ disqualifyKeys i) i hi
  unfold disqualify
  extract_lets was c m1
  have hwas : was = true := by simp [was, hq]
  have h1 : Kept (disqualifyKeys i) m m1 := (kept_setClk ..).trans (kept_wri i 0 _ fun _ => by simp [disqualifyKeys])
  rw [hwas]
  exact reported_then _ _ _ _ _ (h1.events hrun).reported ⟨[], rfl⟩

/-- Where the loss of candidate i writes registers. -/
def lossKeys (i : Nat) : List Nat := fkey F.CLK_REF_STAT_PRESENT i 0 :: fkey F.CLK_REF_STAT_IN_TOL i 0 :: disqualifyKeys i

theorem refLoss_lost {x : RefEdge} (hi : i < 4) (hc : lossCause m (cand m i) x ≠ 0) (hp : rdi m F.CLK_REF_STAT_PRESENT i = 1) :
    refLoss i x m = disqualify i (lossCause m (cand m i) x) 0 (wri F.CLK_REF_STAT_PRESENT i 0 (wri F.CLK_REF_STAT_IN_TOL i 0 m)) := by
  simp [refLoss, candLost, hc, hp, Nat.not_le.mpr hi, Nat.le_of_lt hi]

theorem refLoss_answers {x : RefEdge} (ha : Awake s) (hi : i < 4) (hc : lossCause s.m (cand s.m i) x ≠ 0)
    (hp : rdi s.m F.CLK_REF_STAT_PRESENT i = 1) :
    Answers (.refLoss i x) s (fun n => rdi n F.CLK_REF_STAT_PRESENT i = 0 ∧ rdi n F.CLK_REF_STAT_QUALIFIED i = 0 ∧
      rdi n F.CLK_REF_STAT_IN_TOL i = 0 ∧ n.clk.due.isSome = true ∧
      (rdi s.m F.CLK_REF_STAT_QUALIFIED i = 1 → Reported 0x06 0x0601 s.m n)) := by
  have hi4 : i ≤ 4 := Nat.le_of_lt hi
  have hi5 : i < 5 := Nat.lt_succ_of_le hi4
  obtain ⟨hpres, htol, hpt, hqp, hqt, hrun⟩ := (by decide : ∀ i ≤ 4, fkey F.CLK_REF_STAT_PRESENT i 0 ∉ disqualifyKeys i ∧
    fkey F.CLK_REF_STAT_IN_TOL i 0 ∉ disqualifyKeys i ∧ fkey F.CLK_REF_STAT_IN_TOL i 0 ≠ fkey F.CLK_REF_STAT_PRESENT i 0 ∧
    fkey F.CLK_REF_STAT_QUALIFIED i 0 ≠ fkey F.CLK_REF_STAT_PRESENT i 0 ∧ fkey F.CLK_REF_STAT_QUALIFIED i 0 ≠ fkey F.CLK_REF_STAT_IN_TOL i 0 ∧
    fkey F.HIF_STATUS_RUNNING 0 0 ∉ lossKeys i) i hi4
  refine answers_mach _ s (refLoss i x) _ rfl ha ?_
  rw [refLoss_lost hi hc hp]
  refine ⟨?_, disqualify_unqualified hi4 _, ?_, disqualify_due, fun hq => ?_⟩
  · rw [(kept_disqualify _).rdi hpres, rdi_wri_self _ _ _ _ hi5, Nat.zero_mod]
  · rw [(kept_disqualify _).rdi htol, rdi_wri_ne _ _ _ _ _ _ hpt, rdi_wri_self _ _ _ _ hi5, Nat.zero_mod]
  · have hkept : Kept (lossKeys i) s.m (wri F.CLK_REF_STAT_PRESENT i 0 (wri F.CLK_REF_STAT_IN_TOL i 0 s.m)) :=
      (kept_wri _ _ _ fun _ => by simp [lossKeys]).trans (kept_wri _ _ _ fun _ => by simp [lossKeys])
    refine reported_since (hkept.events hrun) (disqualify_reported ?_ hi4)
    rw [rdi_wri_ne _ _ _ _ _ _ hqp, rdi_wri_ne _ _ _ _ _ _ hqt, hq]

theorem refDisqualified_answers (ha : Awake s) (hi : i ≤ 4) (hq : qualified s.m i = true) (hd : su s.m F.CLK_MON_DWELL_S ≤ (cand s.m i).outRun) :
    Answers (.refDisqualified i) s (fun n => rdi n F.CLK_REF_STAT_QUALIFIED i = 0 ∧
      rdi n F.CLK_REF_STAT_PRESENT i = rdi s.m F.CLK_REF_STAT_PRESENT i ∧ n.clk.due.isSome = true ∧ Reported 0x06 0x0601 s.m n) := by
  have hpres := (by decide : ∀ i ≤ 4, fkey F.CLK_REF_STAT_PRESENT i 0 ∉ disqualifyKeys i) i hi
  have hq1 : rdi s.m F.CLK_REF_STAT_QUALIFIED i = 1 := by
    simp only [qualified, Bool.and_eq_true, beq_iff_eq] at hq
    exact hq.1
  have heq : refDisqualified i s.m = disqualify i 3 (cand s.m i).outRun s.m := by simp [refDisqualified, hi, hq, hd]
  refine answers_mach _ s (refDisqualified i) _ rfl ha ?_
  rw [heq]
  exact ⟨disqualify_unqualified hi _, (kept_disqualify _).rdi hpres, disqualify_due, disqualify_reported hq1 hi⟩

theorem refQualified_answers (ha : Awake s) (hi : i ≤ 4) (hw : watched s.m i = true) (hp : rdi s.m F.CLK_REF_STAT_PRESENT i = 1)
    (hq : rdi s.m F.CLK_REF_STAT_QUALIFIED i = 0) (hr : su s.m F.CLK_MON_QUAL_S ≤ (cand s.m i).inRun) :
    Answers (.refQualified i) s (fun n => rdi n F.CLK_REF_STAT_QUALIFIED i = 1 ∧ n.clk.due.isSome = true ∧ Reported 0x06 0x0602 s.m n) := by
  obtain ⟨hkey, hrun⟩ := (by decide : ∀ i ≤ 4, fkey F.CLK_REF_STAT_QUALIFIED i 0 ≠ discardKey ∧
    fkey F.HIF_STATUS_RUNNING 0 0 ∉ disqualifyKeys i) i hi
  have heq : ∃ pay, refQualified i s.m = wantSelect i 0 (raise 0x06 0x0602 pay (wri F.CLK_REF_STAT_QUALIFIED i 1 s.m)) :=
    ⟨_, by simp only [refQualified, hi, hw, hp, hq, hr, decide_true, beq_self_eq_true, Bool.and_self, if_true]; rfl⟩
  obtain ⟨pay, heq⟩ := heq
  have hkept : Kept (disqualifyKeys i) s.m (wri F.CLK_REF_STAT_QUALIFIED i 1 s.m) := kept_wri _ _ _ fun _ => by simp [disqualifyKeys]
  refine answers_mach _ s (refQualified i) _ rfl ha ?_
  rw [heq]
  refine ⟨?_, wantSelect_due, reported_then _ _ _ _ _ (hkept.events hrun).reported ⟨[], rfl⟩⟩
  rw [rdi_wantSelect, rdi_raise _ _ _ _ _ _ hkey, rdi_wri_self _ _ _ _ (Nat.lt_succ_of_le hi)]
  rfl

end Candidates

/-- Settles O23, one lemma for each command. -/
theorem candidatesQualify : Obligations.CandidatesQualify := fun _ _ ha hi =>
  ⟨fun _ hi4 hc hp => refLoss_answers ha hi4 hc hp, fun hq hd => refDisqualified_answers ha hi hq hd,
   fun hw hp hq hr => refQualified_answers ha hi hw hp hq hr⟩

end Sys2Proof.Machine
end

section
/-! The 1 s bins, the history, bridging, the saved value and the holdover estimate (04 R92, R97, R99, R101, R104, R105). -/
namespace Sys2Proof.Machine

theorem s2n_mod (w : Nat) (v : Int) : s2n w v % 2 ^ w = s2n w v := by
  have hpos : (0 : Int) < 2 ^ w := by positivity
  have hlt := Int.emod_lt_of_pos v hpos
  refine Nat.mod_eq_of_lt ((Int.toNat_lt (Int.emod_nonneg v hpos.ne')).mpr ?_)
  exact_mod_cast hlt

theorem clampPpb_natAbs_le (x : Int) : (clampPpb x).natAbs ≤ 200000 := by
  unfold clampPpb
  omega

/-! The servo's part of a bin. -/

section Servo
variable {m : Mach} {b : RefBin}

theorem servoWord_natAbs_le (x : Int) (m : Mach) : (servoWord x m).natAbs ≤ 200000 := by
  unfold servoWord slewTo
  split
  · exact clampPpb_natAbs_le _
  · exact clampPpb_natAbs_le _

theorem kept_binServo {ks : List Nat} (b : RefBin) (m : Mach) (h : fkey F.CLK_STATE_MODE 0 0 ∈ ks) : Kept ks m (binServo b m) :=
  .trans (kept_setClk ..) (kept_onlyIf _ (kept_wr _ _ h))

theorem binServo_cands : (binServo b m).clk.cands = m.clk.cands := onlyIf_keep (·.clk.cands) _ _ _ rfl

theorem binServo_hist : (binServo b m).clk.hist = (((binServo b m).clk.ctl, b.temp) :: m.clk.hist).take 4200 := by
  unfold binServo
  extract_lets acts ctl
  have hctl := onlyIf_keep (·.clk.ctl) acts (wr F.CLK_STATE_MODE (if b.locked then 2 else 1)) (setClk { m.clk with ctl := ctl } m) rfl
  refine (onlyIf_keep (·.clk.hist) _ _ _ rfl).trans ?_
  rw [onlyIf_keep (·.clk.ctl) _ _ _ rfl]
  rfl

theorem binServo_ctl : (binServo b m).clk.ctl = m.clk.ctl ∨ (binServo b m).clk.ctl.natAbs ≤ 200000 := by
  unfold binServo
  extract_lets acts ctl
  rw [onlyIf_keep (·.clk.ctl) _ _ _ rfl, setClk_clk]
  show ctl = m.clk.ctl ∨ ctl.natAbs ≤ 200000
  unfold ctl
  split
  · split
    · exact .inr (servoWord_natAbs_le ..)
    · exact .inl rfl
  · exact .inl rfl

/-- Without a reference the control word stays. -/
theorem binServo_ctl_unreferenced (h : rd m F.CLK_STATE_SEL = 7) : (binServo b m).clk.ctl = m.clk.ctl := by
  unfold binServo
  extract_lets acts ctl
  have hacts : acts = false := by simp [acts, h]
  rw [onlyIf_keep (·.clk.ctl) _ _ _ rfl, setClk_clk]
  show ctl = m.clk.ctl
  unfold ctl
  split
  · rw [hacts]; rfl
  · rfl

end Servo

/-! The candidates' part of a bin. -/

section Bins
variable {β : Type} {s : State} {m : Mach} {b : RefBin} {i j : Nat} {o : Option Int}

/-- Where a candidate's bin writes registers. -/
def binKeys (i : Nat) : List Nat := [fkey F.CLK_REF_OFS_PPB i 0, fkey F.CLK_REF_STAT_IN_TOL i 0, fkey F.CLK_REF_STAT_PRESENT i 0]

theorem kept_binCand (i : Nat) (o : Option Int) (m : Mach) : Kept (binKeys i) m (binCand i o m) := by
  have hin : ∀ f ∈ [F.CLK_REF_OFS_PPB, F.CLK_REF_STAT_IN_TOL, F.CLK_REF_STAT_PRESENT], fkey f i 0 ∈ binKeys i := by simp [binKeys]
  have hw : ∀ f ∈ [F.CLK_REF_OFS_PPB, F.CLK_REF_STAT_IN_TOL, F.CLK_REF_STAT_PRESENT], ∀ v n, Kept (binKeys i) n (wri f i v n) :=
    fun f hf v n => kept_wri i v n fun _ => hin f hf
  unfold binCand
  extract_lets c
  split
  · exact .refl m
  · split
    · exact (((kept_setClk ..).trans (hw _ (by simp) ..)).trans (hw _ (by simp) ..)).trans (hw _ (by simp) ..)
    · split
      · exact (kept_setClk ..).trans (hw _ (by simp) ..)
      · exact .refl m

/-- A candidate's bin changes the table of candidates alone in the unit. -/
theorem binCand_clk (g : Clk → β) (hg : ∀ x l, g { x with cands := l } = g x) (i : Nat) (o : Option Int) (m : Mach) :
    g (binCand i o m).clk = g m.clk := by
  unfold binCand
  extract_lets c
  split
  · rfl
  · split
    · exact hg ..
    · split
      · exact hg ..
      · rfl

theorem cand_binCand_ne (h : j ≠ i) (o : Option Int) (m : Mach) : cand (binCand i o m) j = cand m j := by
  unfold binCand
  extract_lets c
  split
  · rfl
  · split
    · exact cand_setCand_ne _ h
    · split
      · exact cand_setCand_ne _ h
      · rfl

theorem Kept.watched {ks : List Nat} {n : Mach} (h : Kept ks m n)
    (hf : ∀ k ∈ [fkey F.CLK_STATE_SOURCE 0 0, fkey F.TIM_CTRL_MODE 0 0, fkey F.CLK_REF_STAT_ENABLED i 0], k ∉ ks) :
    watched n i = watched m i := by
  rw [Machine.watched, Machine.watched, exists4, exists4, flag, flag, h.rd (hf _ (by simp)), h.rd (hf _ (by simp)), h.rdi (hf _ (by simp))]

/-- What a bin turns on for candidate i, and what it writes for it. -/
def candView (i : Nat) (m : Mach) : Bool × SMap Nat × Cand × Nat × Nat :=
  (watched m i, m.setup, cand m i, rdi m F.CLK_REF_STAT_PRESENT i, rdi m F.CLK_REF_OFS_PPB i)

/-- The places that the view of candidate i reads. -/
def viewKeys (i : Nat) : List Nat := [fkey F.CLK_STATE_SOURCE 0 0, fkey F.TIM_CTRL_MODE 0 0, fkey F.CLK_REF_STAT_ENABLED i 0,
  fkey F.CLK_REF_STAT_PRESENT i 0, fkey F.CLK_REF_OFS_PPB i 0]

theorem Kept.candView {ks : List Nat} {n : Mach} (h : Kept ks m n) (hf : ∀ k ∈ viewKeys i, k ∉ ks) (hc : cand n i = cand m i) :
    candView i n = candView i m := by
  simp only [viewKeys, List.forall_mem_cons] at hf
  obtain ⟨hsrc, hmode, hen, hpres, hofs, -⟩ := hf
  rw [Machine.candView, Machine.candView, h.watched (by simp [hsrc, hmode, hen]), h.setup, hc, h.rdi hpres, h.rdi hofs]

/-- The bin of another candidate leaves candidate i's view. -/
theorem binCand_candView (hi : i < 5) (hj : j < 5) (h : j ≠ i) (o : Option Int) (m : Mach) : candView i (binCand j o m) = candView i m :=
  (kept_binCand j o m).candView ((by decide : ∀ i < 5, ∀ j < 5, j ≠ i → ∀ k ∈ viewKeys i, k ∉ binKeys j) i hi j hj h)
    (cand_binCand_ne h.symm o m)

/-- The bin of a measured candidate. -/
theorem binCand_measured (hi : i < 5) (hw : watched m i = true) (x : Int) :
    let bins := (x :: (cand m i).bins).take (su m F.CLK_MON_AVG_S)
    rdi (binCand i (some x) m) F.CLK_REF_STAT_PRESENT i = 1 ∧ (cand (binCand i (some x) m) i).bins = bins ∧
      rdi (binCand i (some x) m) F.CLK_REF_OFS_PPB i = s2n 32 (meanOf bins) := by
  intro bins
  obtain ⟨hpo, hpt⟩ := (by decide : ∀ i < 5, fkey F.CLK_REF_STAT_PRESENT i 0 ≠ fkey F.CLK_REF_OFS_PPB i 0 ∧
    fkey F.CLK_REF_STAT_PRESENT i 0 ≠ fkey F.CLK_REF_STAT_IN_TOL i 0) i hi
  unfold binCand
  extract_lets
  rw [if_neg (by simp [hw])]
  refine ⟨?_, ?_, ?_⟩
  · rw [rdi_wri_ne _ _ _ _ _ _ hpo, rdi_wri_ne _ _ _ _ _ _ hpt, rdi_wri_self _ _ _ _ hi]
    rfl
  · exact congrArg Cand.bins (cand_setCand_self _)
  · rw [rdi_wri_self _ _ _ _ hi]
    exact s2n_mod 32 _

/-- Where the judgement of two inputs' offsets writes registers. -/
def pairKeys : List Nat := [discardKey, fkey F.CLK_FLAGS_REF_DISAGREE 0 0]

theorem kept_disagreePair (i j : Nat) (m : Mach) : Kept pairKeys m (disagreePair i j m) := by
  unfold disagreePair
  extract_lets key w
  split
  · split
    · exact ((kept_setClk ..).trans (kept_wr _ _ (by simp [pairKeys]))).trans (kept_onlyIf _ (kept_raise _ _ _ _ (by simp [pairKeys])))
    · exact kept_setClk ..
  · exact .refl m

theorem disagreePair_clk (g : Clk → β) (hg : ∀ x d w, g { x with disagree := d, within := w } = g x) (i j : Nat) (m : Mach) :
    g (disagreePair i j m).clk = g m.clk := by
  unfold disagreePair
  extract_lets key w
  split
  · split
    · exact (onlyIf_keep (fun n => g n.clk) _ _ _ rfl).trans (hg ..)
    · exact hg ..
  · rfl

/-- The candidates' bins of one second. -/
def candBins (b : RefBin) (m : Mach) : Mach := forEach (List.range 5) (fun i => binCand i (binOffset m b i)) (binServo b m)

/-- Where a second writes registers after the candidates' bins. -/
def binEndKeys : List Nat := fkey F.CLK_SAVED_AGE_SEC 0 0 :: pairKeys

theorem kept_refBin (b : RefBin) (m : Mach) : Kept binEndKeys (candBins b m) (refBin b m) :=
  (kept_forEach (fun _ _ n => (kept_disagreePair _ _ n).mono (List.subset_cons_self ..)) _).trans
    (kept_onlyIf _ (kept_bump _ _ List.mem_cons_self))

theorem refBin_clk (g : Clk → β) (hg : ∀ x d w, g { x with disagree := d, within := w } = g x) (b : RefBin) (m : Mach) :
    g (refBin b m).clk = g (candBins b m).clk := by
  unfold refBin
  extract_lets m1 m2
  have h2 : g m2.clk = g m1.clk := forEach_keep (fun n => g n.clk) _ _ (fun _ n => disagreePair_clk g hg _ _ n) m1
  clear_value m2
  exact (onlyIf_keep (fun n => g n.clk) _ _ m2 rfl).trans h2

theorem refBin_candView (hi : i < 5) (b : RefBin) (m : Mach) : candView i (refBin b m) = candView i (candBins b m) :=
  (kept_refBin b m).candView ((by decide : ∀ i < 5, ∀ k ∈ viewKeys i, k ∉ binEndKeys) i hi)
    (cand_congr (refBin_clk (·.cands) (fun _ _ _ => rfl) b m))

theorem binServo_candView (hi : i < 5) (b : RefBin) (m : Mach) : candView i (binServo b m) = candView i m :=
  (kept_binServo b m List.mem_cons_self).candView ((by decide : ∀ i < 5, ∀ k ∈ viewKeys i, k ∉ [fkey F.CLK_STATE_MODE 0 0]) i hi)
    (cand_congr binServo_cands)

/-- The control word and the history are those that the servo leaves. -/
theorem refBin_servo (b : RefBin) (m : Mach) : (refBin b m).clk.ctl = (binServo b m).clk.ctl ∧ (refBin b m).clk.hist = (binServo b m).clk.hist := by
  have hkeep : ∀ {γ : Type} (g : Clk → γ), (∀ x l, g { x with cands := l } = g x) → g (candBins b m).clk = g (binServo b m).clk :=
    fun g hg => forEach_keep (fun n => g n.clk) _ _ (fun _ n => binCand_clk g hg _ _ n) _
  exact ⟨(refBin_clk (·.ctl) (fun _ _ _ => rfl) b m).trans (hkeep (·.ctl) fun _ _ => rfl),
    (refBin_clk (·.hist) (fun _ _ _ => rfl) b m).trans (hkeep (·.hist) fun _ _ => rfl)⟩

/-- A second leaves a measured candidate present, with its bin and its mean offset. -/
theorem refBin_measured {x : Int} (hi : i < 5) (hw : watched m i = true) (hx : binOffset m b i = some x) :
    let bins := (x :: (cand m i).bins).take (su m F.CLK_MON_AVG_S)
    rdi (refBin b m) F.CLK_REF_STAT_PRESENT i = 1 ∧ (cand (refBin b m) i).bins = bins ∧
      rdi (refBin b m) F.CLK_REF_OFS_PPB i = s2n 32 (meanOf bins) := by
  obtain ⟨n, hn, hend⟩ := forEach_once (candView i) (f := fun j => binCand j (binOffset m b j)) List.nodup_range (List.mem_range.mpr hi)
    (fun j hj h n => binCand_candView hi (List.mem_range.mp hj) h _ n) (binServo b m)
  rw [binServo_candView hi, candView, candView, Prod.mk.injEq, Prod.mk.injEq, Prod.mk.injEq] at hn
  obtain ⟨hnw, hns, hnc, -⟩ := hn
  have hview : candView i (refBin b m) = candView i (binCand i (some x) n) := by
    rw [refBin_candView hi, ← hx]
    exact hend
  simp only [candView, Prod.mk.injEq] at hview
  obtain ⟨-, -, hc, hp, ho⟩ := hview
  have hsu : su n F.CLK_MON_AVG_S = su m F.CLK_MON_AVG_S := by rw [su, su, hns]
  have hbin := binCand_measured hi (hnw.trans hw) x
  rw [hnc, hsu] at hbin
  rw [hc, hp, ho]
  exact hbin

theorem refBin_answers {x : Int} (ha : Awake s) (hi : i < 5) (hw : watched s.m i = true) (hx : binOffset s.m b i = some x) :
    Answers (.refBin b) s (fun n =>
      let bins := (x :: (cand s.m i).bins).take (su s.m F.CLK_MON_AVG_S)
      rdi n F.CLK_REF_STAT_PRESENT i = 1 ∧ (cand n i).bins = bins ∧ rdi n F.CLK_REF_OFS_PPB i = s2n 32 (meanOf bins) ∧
      n.clk.hist = ((n.clk.ctl, b.temp) :: s.m.clk.hist).take 4200 ∧ (n.clk.ctl = s.m.clk.ctl ∨ n.clk.ctl.natAbs ≤ 200000) ∧
      (rd s.m F.CLK_STATE_SEL = 7 → n.clk.ctl = s.m.clk.ctl)) := by
  obtain ⟨hpres, hbins, hofs⟩ := refBin_measured hi hw hx
  obtain ⟨hctl, hhist⟩ := refBin_servo b s.m
  refine answers_mach _ s (refBin b) _ rfl ha ⟨hpres, hbins, hofs, ?_⟩
  rw [hctl, hhist]
  exact ⟨binServo_hist, binServo_ctl, binServo_ctl_unreferenced⟩

end Bins

/-! Lock, bridging and the saved value. -/

section Lock
variable {s : State}

theorem histValidSet_answers (ha : Awake s) (h : 61 ≤ s.m.clk.lockedSec) :
    Answers .histValidSet s (fun n => rd n F.CLK_STATE_HIST_VALID = 1 ∧ n.clk = s.m.clk ∧ n.out = s.m.out) := by
  refine answers_mach _ s histValidSet _ rfl ha ?_
  rw [histValidSet, decide_eq_true h]
  exact ⟨rd_wr_self .., rfl, rfl⟩

theorem refFirstEdge_answers (ha : Awake s) (phase : Int) (h : flag s.m F.CLK_STATE_BRIDGING = true) :
    Answers (.refFirstEdge phase) s (fun n => rd n F.CLK_STATE_BRIDGING = 0 ∧ n.clk.absorbed = phase ∧ Reported 0x06 0x0603 s.m n) := by
  refine answers_mach _ s (refFirstEdge phase) _ rfl ha ?_
  rw [refFirstEdge, if_pos h]
  refine ⟨?_, rfl, ?_⟩
  · rw [rd_raise _ _ _ _ _ (by decide), rd_wr_self]
    rfl
  · exact ((kept_setClk (ks := [fkey F.CLK_STATE_BRIDGING 0 0]) ..).trans (kept_wr _ _ List.mem_cons_self)).events (by decide) |>.reported

theorem savedValueStore_answers (ha : Awake s) (hen : flag s.m F.CLK_CTRL_SAVE_EN = true) (hm : rd s.m F.CLK_STATE_MODE = 2)
    (h0 : s.m.clk.lockedSec ≠ 0) (hh : s.m.clk.lockedSec % 3600 = 0) (ctl temp : Int) :
    Answers (.savedValueStore ctl temp) s (fun n =>
      n.clk.saved = some { ctl := roundedMean ((savedWindow s.m).map Prod.fst) ctl, temp := roundedMean ((savedWindow s.m).map Prod.snd) temp,
                           sec := domSec s.m - 600 } ∧
      rd n F.CLK_SAVED_AGE_SEC = 600 ∧ n.out = s.m.out) := by
  refine answers_mach _ s (savedValueStore ctl temp) _ rfl ha ?_
  rw [savedValueStore, if_pos (by simp [hen, hm, h0, hh])]
  exact ⟨rfl, rd_wr_self .., rfl⟩

end Lock

/-! A second of holdover. -/

section Hold
variable {s : State} {m : Mach} {h : Holdover} {temp : Int}

theorem watchHold_clk (m : Mach) : (watchHold m).clk = m.clk := by
  unfold watchHold watch
  split <;> rfl

theorem kept_watchHold {ks : List Nat} (m : Mach) (hd : discardKey ∈ ks) : Kept ks m (watchHold m) := kept_watch _ _ _ _ _ m hd

theorem rd_watchHold {f : Fld} (m : Mach) (hf : fkey f 0 0 ∉ [discardKey]) : rd (watchHold m) f = rd m f :=
  (kept_watchHold m List.mem_cons_self).rd hf

/-- The holdover with a second's temperature accounted. -/
def warmed (temp : Int) (h : Holdover) : Holdover := { h with sumTemp := h.sumTemp + (temp - h.tempRef).natAbs }

/-- The estimate of a second, as CLK_HOLD_EST shows it. -/
def shownEstimate (m : Mach) (h : Holdover) (t : Nat) : Nat := min (holdEstimate m h t) 0xFFFFFFFF

/-- The holdover with its estimate judged against the limit. -/
def judged (m : Mach) (h : Holdover) (e : Nat) : Holdover := { h with oos := decide (su m F.CLK_HOLD_LIMIT_NS ≤ e) }

theorem rd_holdSec_bump (m : Mach) : rd (bump F.CLK_HOLD_SEC_SEC 1 m) F.CLK_HOLD_SEC_SEC = min (2 ^ 32 - 1) (rd m F.CLK_HOLD_SEC_SEC + 1) := by
  rw [rd_bump_self]
  exact Nat.mod_eq_of_lt (show min (2 ^ 32 - 1) _ < 2 ^ 32 by omega)

theorem holdoverEstimate_freeRun (hh : m.clk.hold = some h) (hk : h.kind = 2) :
    ∃ x, x.hold = some (warmed temp h) ∧ holdoverEstimate temp m = setClk x (bump F.CLK_HOLD_SEC_SEC 1 m) := by
  simp only [holdoverEstimate, hh]
  refine ⟨_, ?_, if_pos hk⟩
  rfl

theorem holdoverEstimate_judged (hh : m.clk.hold = some h) (hk : h.kind ≠ 2) :
    let e := shownEstimate m (warmed temp h) (min (2 ^ 32 - 1) (rd m F.CLK_HOLD_SEC_SEC + 1))
    let j := judged m (warmed temp h) e
    ∃ x, x.hold = some j ∧ holdoverEstimate temp m = watchHold (onlyIf (j.oos && !h.oos) (wr F.CLK_FLAGS_HOLDOVER_OUT_OF_SPEC 1)
      (wr F.CLK_HOLD_EST_NS e (setClk x (bump F.CLK_HOLD_SEC_SEC 1 m)))) := by
  simp only [holdoverEstimate, hh, rd_holdSec_bump]
  refine ⟨_, ?_, if_neg hk⟩
  rfl

theorem rd_holdSec_holdoverEstimate (hh : m.clk.hold = some h) :
    rd (holdoverEstimate temp m) F.CLK_HOLD_SEC_SEC = min (2 ^ 32 - 1) (rd m F.CLK_HOLD_SEC_SEC + 1) := by
  by_cases hk : h.kind = 2
  · obtain ⟨x, -, heq⟩ := holdoverEstimate_freeRun (temp := temp) hh hk
    exact heq ▸ rd_holdSec_bump m
  · obtain ⟨x, -, heq⟩ := holdoverEstimate_judged (temp := temp) hh hk
    rw [heq, rd_watchHold _ (by decide), onlyIf_keep (rd · F.CLK_HOLD_SEC_SEC) _ _ _ (rd_wr_ne _ _ _ _ (by decide)), rd_wr_ne _ _ _ _ (by decide)]
    exact rd_holdSec_bump m

/-- Outside free run a second shows its estimate, keeps its judgement, and sets the flag as the estimate rises to the limit. -/
theorem holdoverEstimate_shows {e : Nat} {j : Holdover} (hh : m.clk.hold = some h) (hk : h.kind ≠ 2)
    (he : e = shownEstimate m (warmed temp h) (min (2 ^ 32 - 1) (rd m F.CLK_HOLD_SEC_SEC + 1))) (hj : j = judged m (warmed temp h) e) :
    let n := holdoverEstimate temp m
    n.clk.hold = some j ∧ rd n F.CLK_HOLD_EST_NS = e ∧
      (j.oos = true → h.oos = false → rd n F.CLK_FLAGS_HOLDOVER_OUT_OF_SPEC = 1) := by
  obtain ⟨x, hx, heq⟩ := holdoverEstimate_judged (temp := temp) hh hk
  rw [← he, ← hj] at hx heq
  have hlt : e < 2 ^ 32 := by
    rw [he, shownEstimate]
    omega
  simp only [heq]
  refine ⟨?_, ?_, fun ho h0 => ?_⟩
  · rw [watchHold_clk, onlyIf_keep Mach.clk _ _ _ (wr_clk ..), wr_clk, setClk_clk, hx]
  · rw [rd_watchHold _ (by decide), onlyIf_keep (rd · F.CLK_HOLD_EST_NS) _ _ _ (rd_wr_ne _ _ _ _ (by decide)), rd_wr_self]
    exact Nat.mod_eq_of_lt hlt
  · rw [ho, h0, rd_watchHold _ (by decide)]
    exact rd_wr_self ..

theorem holdoverEstimate_answers (ha : Awake s) (hh : s.m.clk.hold = some h) :
    Answers (.holdoverEstimate temp) s (fun n =>
      let h1 := { h with sumTemp := h.sumTemp + (temp - h.tempRef).natAbs }
      let e := min (holdEstimate s.m h1 (rd n F.CLK_HOLD_SEC_SEC)) 0xFFFFFFFF
      let oos := decide (su s.m F.CLK_HOLD_LIMIT_NS ≤ e)
      rd n F.CLK_HOLD_SEC_SEC = min (2 ^ 32 - 1) (rd s.m F.CLK_HOLD_SEC_SEC + 1) ∧
      (h.kind ≠ 2 → n.clk.hold = some { h1 with oos := oos } ∧ rd n F.CLK_HOLD_EST_NS = e ∧
        (oos = true → h.oos = false → rd n F.CLK_FLAGS_HOLDOVER_OUT_OF_SPEC = 1)) ∧
      (h.kind = 2 → n.clk.hold = some h1 ∧ rd n F.CLK_HOLD_EST_NS = rd s.m F.CLK_HOLD_EST_NS)) := by
  refine answers_mach _ s (holdoverEstimate temp) _ rfl ha ?_
  by_cases hk : h.kind = 2
  · obtain ⟨x, hx, heq⟩ := holdoverEstimate_freeRun (temp := temp) hh hk
    rw [heq]
    exact ⟨rd_holdSec_bump _, fun hne => absurd hk hne, fun _ => ⟨hx, rd_bump_ne _ _ _ _ (by decide)⟩⟩
  · have hsec := rd_holdSec_holdoverEstimate (temp := temp) hh
    exact ⟨hsec, fun _ => holdoverEstimate_shows hh hk (hsec ▸ rfl) rfl, fun h2 => absurd h2 hk⟩

end Hold

/-- Settles O24, one lemma for each command. -/
theorem servoRuns : Obligations.ServoRuns :=
  ⟨fun _ ha =>
    ⟨fun _ _ _ hi hw hx => refBin_answers ha hi hw hx, histValidSet_answers ha, refFirstEdge_answers ha,
     fun hen hm h0 hh => savedValueStore_answers ha hen hm h0 hh⟩,
   fun _ _ _ ha hh => holdoverEstimate_answers ha hh⟩

end Sys2Proof.Machine
end

section
/-! Outputs and their aligners, SYNC_IN, and the end of a ramp segment (04 R108, R113, R114, R116, R117). -/
namespace Sys2Proof.Machine

/-! The lock bit. -/

section Locks
variable {s : State} {m : Mach} {a : Nat} {freqPpb phasePs : Int}

theorem testBit_rd_alBit {f : Fld} (ha : a < f.width) (b : Bool) (m : Mach) : (rd (alBit f a b m) f).testBit a = b := by
  rw [alBit, rd_wr_self, Nat.testBit_mod_two_pow, decide_eq_true ha, Bool.true_and]
  cases b
  · exact testBit_clrBit_self ..
  · exact testBit_setBit_self ..

/-- The machine in which output a has had its fourth good window, and locks. -/
def lockedOut (a : Nat) (m : Mach) : Mach := alBit F.CLK_AL_LOCK_LOCK a true (setAl a { aligner m a with good := 4 } m)

/-- The fourth good window locks the output, and may complete a SYNC_IN alignment. -/
theorem alignerWindowEnd_locks (ha : a < 24) (hon : (aligner m a).st = .on) (hg : (aligner m a).good = 3)
    (hl : (rd m F.CLK_AL_LOCK_LOCK).testBit a = false) (hf : freqPpb.natAbs ≤ su m F.CLK_LOCK_PPM * 1000)
    (hp : phasePs.natAbs ≤ 1000 ∨ (aligner m a).mode = 2) :
    alignerWindowEnd a freqPpb phasePs m = lockedOut a m ∨
    ∃ pay x, x.als = (lockedOut a m).clk.als ∧ alignerWindowEnd a freqPpb phasePs m = raise 0x06 0x0609 pay (setClk x (lockedOut a m)) := by
  have hph : (if (aligner m a).mode = 2 then 0 else phasePs.natAbs) ≤ 1000 := by
    split
    · omega
    · next hm => exact hp.resolve_right hm
  unfold alignerWindowEnd
  rw [if_pos (by simp [ha, hon])]
  extract_lets lim ph good locked lost locks m1 m2 m3 c
  have hgood : good = 4 := by simp [good, lim, ph, hf, hph, hg]
  have hlost : lost = false := by simp [lost, locked, hl]
  have hlocks : locks = true := by simp [locks, locked, hl, hgood]
  have h3 : m3 = lockedOut a m := by simp only [m3, m2, m1, hlocks, hlost, hgood, onlyIf_true, onlyIf_false, lockedOut]
  clear_value m3
  subst h3
  split
  · exact .inr ⟨_, { (lockedOut a m).clk with syncWait := 0 }, rfl, rfl⟩
  · exact .inl rfl

theorem alignerWindowEnd_answers (ha : Awake s) (h24 : a < 24) (hon : (aligner s.m a).st = .on) (hg : (aligner s.m a).good = 3)
    (hl : (rd s.m F.CLK_AL_LOCK_LOCK).testBit a = false) (hf : freqPpb.natAbs ≤ su s.m F.CLK_LOCK_PPM * 1000)
    (hp : phasePs.natAbs ≤ 1000 ∨ (aligner s.m a).mode = 2) :
    Answers (.alignerWindowEnd a freqPpb phasePs) s (fun n => (rd n F.CLK_AL_LOCK_LOCK).testBit a = true ∧ (aligner n a).good = 4) := by
  have hlock : (rd (lockedOut a s.m) F.CLK_AL_LOCK_LOCK).testBit a = true := testBit_rd_alBit h24 true _
  have hgood : (aligner (lockedOut a s.m) a).good = 4 := congrArg Aligner.good (aligner_setAl_self _)
  refine answers_mach _ s (alignerWindowEnd a freqPpb phasePs) _ rfl ha ?_
  obtain heq | ⟨pay, x, hx, heq⟩ := alignerWindowEnd_locks h24 hon hg hl hf hp
  · rw [heq]
    exact ⟨hlock, hgood⟩
  · rw [heq, rd_raise _ _ _ _ _ (by decide), aligner_congr hx]
    exact ⟨hlock, hgood⟩

end Locks

/-! What a SYNC_IN edge does to each output. -/

section Groups
variable {g : Nat} {m : Mach}

theorem showPort_clk (d : Nat) (m : Mach) : (showPort d m).clk = m.clk := by
  unfold showPort
  extract_lets x on y now silent
  split
  · rfl
  · split <;> rfl

theorem slip_clk (d cause offset lo ns : Nat) (m : Mach) : (slip d cause offset lo ns m).clk = m.clk := by
  unfold slip
  split
  · rfl
  · exact showPort_clk ..

theorem groupLost_clk : (groupLost g m).clk = m.clk := by
  unfold groupLost
  exact forEach_keep (·.clk) _ _ (fun _ n => slip_clk _ _ _ _ _ (useFresh 1 n)) m

end Groups

section SyncIn
variable {β : Type} {s : State} {m : Mach} {a b edge : Nat}

/-- What an edge leaves of an output that follows it. -/
def steady (o : Aligner) : AlSt × Nat × Nat × Int := (o.st, o.mode, o.hz, o.ofs)

theorem syncFollow_clk (g : Clk → β) (hg : ∀ x l, g { x with als := l } = g x) (a : Nat) (m : Mach) : g (syncFollow edge a m).clk = g m.clk := by
  unfold syncFollow
  extract_lets o
  split
  · exact hg ..
  · rfl

theorem syncFollow_regs (a : Nat) (m : Mach) : (syncFollow edge a m).regs = m.regs := by
  unfold syncFollow
  extract_lets o
  split <;> rfl

theorem aligner_syncFollow_ne (h : a ≠ b) (m : Mach) : aligner (syncFollow edge b m) a = aligner m a := by
  unfold syncFollow
  extract_lets o
  split
  · exact aligner_setAl_ne _ h
  · rfl

theorem steady_syncFollow (b : Nat) (m : Mach) : steady (aligner (syncFollow edge b m) a) = steady (aligner m a) := by
  by_cases h : a = b
  · subst h
    unfold syncFollow
    extract_lets o
    split
    · rw [aligner_setAl_self]
      rfl
    · rfl
  · rw [aligner_syncFollow_ne h]

theorem ref_syncFollow (hm : (aligner m a).mode = 3) (hst : (aligner m a).st ≠ .stopped) : (aligner (syncFollow edge a m) a).ref = edge := by
  unfold syncFollow
  extract_lets o
  rw [if_pos (by simp [o, hm, hst]), aligner_setAl_self]

/-- The outputs in SYNC mode follow the edge. -/
def followed (edge : Nat) (m : Mach) : Mach := forEach (List.range 24) (syncFollow edge) m

theorem followed_clk (g : Clk → β) (hg : ∀ x l, g { x with als := l } = g x) (m : Mach) : g (followed edge m).clk = g m.clk :=
  forEach_keep (fun n => g n.clk) _ _ (fun a n => syncFollow_clk g hg a n) m

theorem followed_regs (m : Mach) : (followed edge m).regs = m.regs := forEach_keep (·.regs) _ _ syncFollow_regs m

theorem steady_followed (m : Mach) : steady (aligner (followed edge m) a) = steady (aligner m a) :=
  forEach_keep (fun n => steady (aligner n a)) _ _ (fun b n => steady_syncFollow b n) m

theorem ref_followed (ha : a < 24) (hm : (aligner m a).mode = 3) (hst : (aligner m a).st ≠ .stopped) :
    (aligner (followed edge m) a).ref = edge := by
  obtain ⟨n, hn, heq⟩ := forEach_once (aligner · a) (f := syncFollow edge) List.nodup_range (List.mem_range.mpr ha)
    (fun b _ h n => aligner_syncFollow_ne h.symm n) m
  rw [followed, heq]
  exact ref_syncFollow (hn ▸ hm) (hn ▸ hst)

theorem alStart_clk (g : Clk → β) (hg : ∀ x l, g { x with als := l } = g x) (a hz den mode : Nat) (ofs : Int) (m : Mach) :
    g (alStart a hz den mode ofs m).clk = g m.clk := hg ..

theorem aligner_alStart_self (a hz den mode : Nat) (ofs : Int) (m : Mach) : aligner (alStart a hz den mode ofs m) a =
    { st := .search 0, mode := mode, hz := hz, den := den, ofs := ofs, band := (freeVal m).toNat % 8,
      bits := if 8 ≤ a then rdi m F.SAP_GRP_FRAME_BITS (a - 8) else 0 } := aligner_setAl_self _

theorem aligner_alStart_ne (h : a ≠ b) (hz den mode : Nat) (ofs : Int) (m : Mach) : aligner (alStart b hz den mode ofs m) a = aligner m a :=
  aligner_setAl_ne _ h

theorem syncOut_clk (g : Clk → β) (hg : ∀ x l, g { x with als := l } = g x) (a : Nat) (m : Mach) : g (syncOut edge a m).clk = g m.clk := by
  unfold syncOut
  extract_lets o m1 x y
  split
  · split
    · rfl
    · exact (hg ..).trans (alStart_clk g hg ..)
  · exact (onlyIf_keep (fun n => g n.clk) _ _ _ (congrArg g groupLost_clk)).trans (hg ..)

theorem aligner_syncOut_ne (h : a ≠ b) (m : Mach) : aligner (syncOut edge b m) a = aligner m a := by
  unfold syncOut
  extract_lets o m1 x y
  split
  · split
    · rfl
    · exact (aligner_setAl_ne _ h).trans (aligner_alStart_ne h ..)
  · exact (onlyIf_keep (aligner · a) _ _ _ (aligner_congr (congrArg Clk.als groupLost_clk))).trans (aligner_setAl_ne _ h)

/-- A running output of the mask is aligned to the edge. -/
theorem aligner_syncOut_on (h : (aligner m a).st = .on) :
    let o := aligner (syncOut edge a m) a
    o.st = .on ∧ o.mode = 3 ∧ o.ref = edge ∧ o.ofs = m.clk.syncOfs := by
  have hkeep : ∃ y, aligner (syncOut edge a m) a = y ∧ y.st = .on ∧ y.mode = 3 ∧ y.ref = edge ∧ y.ofs = m.clk.syncOfs := by
    unfold syncOut
    extract_lets o m1 x y
    have ho : o.st = .on := h
    rw [if_neg (by simp [ho])]
    have hlost : ∀ g n, aligner (groupLost g n) a = aligner n a := fun g n => aligner_congr (congrArg Clk.als groupLost_clk)
    refine ⟨y, (onlyIf_keep (aligner · a) _ _ _ (hlost ..)).trans (aligner_setAl_self y), ?_, rfl, rfl, rfl⟩
    simp [y, ho]
  obtain ⟨y, rfl, hy⟩ := hkeep
  exact hy

/-- A stopped output of the mask that has a frequency starts, aligned to the edge. -/
theorem aligner_syncOut_stopped (h : (aligner m a).st = .stopped) (hz : (aligner m a).hz ≠ 0) :
    let o := aligner (syncOut edge a m) a
    o.st = .search 0 ∧ o.mode = 3 ∧ o.ref = edge ∧ o.ofs = m.clk.syncOfs := by
  simp only [syncOut, h, if_true, hz, if_false, aligner_setAl_self, aligner_alStart_self, and_self]

/-- An armed edge takes effect on the outputs of the mask. -/
def syncTaken (edge : Nat) (m : Mach) : Mach :=
  forEach (bitsOf 24 m.clk.syncArm) (syncOut edge)
    (setClk { (followed edge m).clk with syncEdge := edge, syncWait := m.clk.syncArm, syncArm := 0 } (followed edge m))

theorem syncInEdge_armed (h : flag m F.CLK_SYNC_STAT_ARMED = true) : syncInEdge edge m = wr F.CLK_SYNC_STAT_ARMED 0 (syncTaken edge m) := by
  simp only [syncInEdge, h, if_true, followed, syncTaken]

theorem syncInEdge_unarmed (h : flag m F.CLK_SYNC_STAT_ARMED = false) : syncInEdge edge m = followed edge m := by
  simp only [syncInEdge, h, Bool.false_eq_true, if_false, followed]

theorem syncTaken_clk (g : Clk → β) (hg : ∀ x l, g { x with als := l } = g x) (m : Mach) : g (syncTaken edge m).clk =
    g { (followed edge m).clk with syncEdge := edge, syncWait := m.clk.syncArm, syncArm := 0 } :=
  forEach_keep (fun n => g n.clk) _ _ (fun a n => syncOut_clk g hg a n) _

/-- The round of an output of the mask meets it as the edge found it, but for its alignment instant and its slew. -/
theorem aligner_syncTaken (ha : a < 24) (hb : m.clk.syncArm.testBit a = true) : ∃ n, steady (aligner n a) = steady (aligner m a) ∧
    n.clk.syncOfs = m.clk.syncOfs ∧ aligner (syncTaken edge m) a = aligner (syncOut edge a n) a := by
  have hsteady := steady_followed (edge := edge) (a := a) m
  have hofs : (followed edge m).clk.syncOfs = m.clk.syncOfs := followed_clk (·.syncOfs) (fun _ _ => rfl) m
  unfold syncTaken
  generalize followed edge m = f at hsteady hofs ⊢
  obtain ⟨n, hn, heq⟩ := forEach_once (fun n => (aligner n a, n.clk.syncOfs)) (f := syncOut edge)
    (bitsOf_nodup 24 _) (mem_bitsOf.mpr ⟨ha, hb⟩)
    (fun b _ h n => Prod.ext (aligner_syncOut_ne h.symm n) (syncOut_clk (·.syncOfs) (fun _ _ => rfl) b n))
    (setClk { f.clk with syncEdge := edge, syncWait := m.clk.syncArm, syncArm := 0 } f)
  obtain ⟨hal, hn⟩ := Prod.mk.inj hn
  exact ⟨n, (congrArg steady hal).trans hsteady, hn.trans hofs, congrArg Prod.fst heq⟩

theorem syncInEdge_armed_answers (ha : Awake s) (h : flag s.m F.CLK_SYNC_STAT_ARMED = true) :
    Answers (.syncInEdge edge) s (fun n => rd n F.CLK_SYNC_STAT_ARMED = 0 ∧ n.clk.syncArm = 0 ∧ n.clk.syncEdge = edge ∧
      n.clk.syncWait = s.m.clk.syncArm ∧
      (∀ a, a < 24 → s.m.clk.syncArm.testBit a = true →
        ((aligner s.m a).st = .on → (aligner n a).st = .on ∧ (aligner n a).mode = 3 ∧ (aligner n a).ref = edge ∧
          (aligner n a).ofs = s.m.clk.syncOfs) ∧
        ((aligner s.m a).st = .stopped → (aligner s.m a).hz ≠ 0 → (aligner n a).st = .search 0 ∧ (aligner n a).mode = 3 ∧
          (aligner n a).ref = edge ∧ (aligner n a).ofs = s.m.clk.syncOfs))) := by
  refine answers_mach _ s (syncInEdge edge) _ rfl ha ?_
  rw [syncInEdge_armed h, wr_clk]
  refine ⟨rd_wr_self .., syncTaken_clk (·.syncArm) (fun _ _ => rfl) _, syncTaken_clk (·.syncEdge) (fun _ _ => rfl) _,
    syncTaken_clk (·.syncWait) (fun _ _ => rfl) _, fun a h24 hb => ?_⟩
  obtain ⟨n, hsteady, hofs, heq⟩ := aligner_syncTaken (edge := edge) h24 hb
  simp only [steady, Prod.mk.injEq] at hsteady
  obtain ⟨hst, -, hhz, -⟩ := hsteady
  have hout : aligner (wr F.CLK_SYNC_STAT_ARMED 0 (syncTaken edge s.m)) a = aligner (syncOut edge a n) a := heq
  rw [hout, ← hst, ← hhz, ← hofs]
  exact ⟨aligner_syncOut_on, aligner_syncOut_stopped⟩

theorem syncInEdge_unarmed_answers (ha : Awake s) (h : flag s.m F.CLK_SYNC_STAT_ARMED = false) :
    Answers (.syncInEdge edge) s (fun n => n.regs = s.m.regs ∧
      ∀ a, a < 24 → (aligner s.m a).mode = 3 → (aligner s.m a).st ≠ .stopped → (aligner n a).ref = edge) := by
  refine answers_mach _ s (syncInEdge edge) _ rfl ha ?_
  rw [syncInEdge_unarmed h]
  exact ⟨followed_regs _, fun _ h24 hm hst => ref_followed h24 hm hst⟩

end SyncIn

/-! The end of a ramp segment. -/

section Segments
variable {s : State} {m : Mach} {k : Nat} {g : RampSeg} {rest : List RampSeg}

/-- The machine whose engine k has ended a segment: the offset at its target, the segments that are left from their start. -/
def segmentDone (k : Nat) (g : RampSeg) (rest : List RampSeg) (m : Mach) : Mach :=
  wri F.CLK_RAMP_OFS_PPB k (s2n 32 g.target) (setRamp k { ramp m k with segs := rest, pos := 0, start := g.target } m)

theorem rampSegmentEnd_due (h1 : 1 ≤ k) (h7 : k ≤ 7) (hs : (ramp m k).segs = g :: rest) (hd : g.dur ≤ (ramp m k).pos) :
    (rest ≠ [] ∧ rampSegmentEnd k m = segmentDone k g rest m) ∨
    ∃ v pay, rest = [] ∧ rampSegmentEnd k m = raise 0x06 0x0608 pay (wr F.CLK_RAMP_STAT_ACTIVE v (segmentDone k g rest m)) := by
  simp only [rampSegmentEnd, hs, h1, h7, hd, decide_true, Bool.and_self, if_true]
  split
  · next hr => exact .inr ⟨_, _, hr, rfl⟩
  · next hr => exact .inl ⟨hr, rfl⟩

theorem ramp_segmentDone : ramp (segmentDone k g rest m) k = { ramp m k with segs := rest, pos := 0, start := g.target } := ramp_setRamp_self _

theorem rdi_segmentDone (h7 : k ≤ 7) (m : Mach) : rdi (segmentDone k g rest m) F.CLK_RAMP_OFS_PPB k = s2n 32 g.target := by
  rw [segmentDone, rdi_wri_self _ _ _ _ (Nat.lt_succ_of_le h7)]
  exact s2n_mod 32 _

/-- Where the end of a segment writes registers. -/
def segmentKeys (k : Nat) : List Nat := [fkey F.CLK_RAMP_OFS_PPB k 0, fkey F.CLK_RAMP_STAT_ACTIVE 0 0]

theorem rampSegmentEnd_answers (ha : Awake s) (h1 : 1 ≤ k) (h7 : k ≤ 7) (hs : (ramp s.m k).segs = g :: rest) (hd : g.dur ≤ (ramp s.m k).pos) :
    Answers (.rampSegmentEnd k) s (fun n => (ramp n k).segs = rest ∧ (ramp n k).pos = 0 ∧ (ramp n k).start = g.target ∧
      rdi n F.CLK_RAMP_OFS_PPB k = s2n 32 g.target ∧ (rest = [] → Reported 0x06 0x0608 s.m n)) := by
  obtain ⟨hdis, hact, hrun⟩ := (by decide : ∀ k ≤ 7, fkey F.CLK_RAMP_OFS_PPB k 0 ≠ fkey F.HIF_EV_DISCARD_COUNT 0 0 ∧
    fkey F.CLK_RAMP_OFS_PPB k 0 ≠ fkey F.CLK_RAMP_STAT_ACTIVE 0 0 ∧ fkey F.HIF_STATUS_RUNNING 0 0 ∉ segmentKeys k) k h7
  refine answers_mach _ s (rampSegmentEnd k) _ rfl ha ?_
  obtain ⟨hr, heq⟩ | ⟨v, pay, -, heq⟩ := rampSegmentEnd_due h1 h7 hs hd
  · rw [heq, ramp_segmentDone]
    exact ⟨rfl, rfl, rfl, rdi_segmentDone h7 _, fun h => absurd h hr⟩
  · have hramp : ramp (raise 0x06 0x0608 pay (wr F.CLK_RAMP_STAT_ACTIVE v (segmentDone k g rest s.m))) k = ramp (segmentDone k g rest s.m) k := rfl
    have hkept : Kept (segmentKeys k) s.m (wr F.CLK_RAMP_STAT_ACTIVE v (segmentDone k g rest s.m)) :=
      ((kept_setClk ..).trans (kept_wri _ _ _ fun _ => by simp [segmentKeys])).trans (kept_wr _ _ (by simp [segmentKeys]))
    rw [heq, hramp, ramp_segmentDone, rdi_raise _ _ _ _ _ _ hdis, rdi_wr_ne _ _ _ _ _ hact]
    exact ⟨rfl, rfl, rfl, rdi_segmentDone h7 _, fun _ => (hkept.events hrun).reported⟩

end Segments

/-- Settles O25, one lemma for each command. -/
theorem outputsAlign : Obligations.OutputsAlign := fun _ ha =>
  ⟨fun _ _ _ h24 hon hg hl hf hp => alignerWindowEnd_answers ha h24 hon hg hl hf hp,
   fun _ => ⟨syncInEdge_armed_answers ha, syncInEdge_unarmed_answers ha⟩,
   fun _ _ _ h1 h7 hs hd => rampSegmentEnd_answers ha h1 h7 hs hd⟩

end Sys2Proof.Machine
end

section
/-! The selection of a reference at a boundary (04 R94, R99, R106): the registers and the parts of the unit that it writes, and the candidate that
it shows. -/
namespace Sys2Proof.Machine

/-- Where a selection writes registers. -/
def selKeys : List Nat := [discardKey, fkey F.CLK_STATE_SEL 0 0, fkey F.CLK_STATE_MODE 0 0, fkey F.CLK_STATE_BRIDGING 0 0,
  fkey F.CLK_STATE_HIST_VALID 0 0, fkey F.CLK_HOLD_EST_NS 0 0, fkey F.CLK_HOLD_SEC_SEC 0 0] ++
  (List.range 5).map (fun i => fkey F.CLK_REF_STAT_SELECTED i 0)

section Selection
variable {β : Type} {m n q : Mach} {sel mode bridging k : Nat}

/-- The machine with a selection shown in CLK_STATE. -/
def stateShown (sel mode bridging : Nat) (m : Mach) : Mach :=
  wr F.CLK_STATE_SEL sel (wr F.CLK_STATE_MODE mode (wr F.CLK_STATE_BRIDGING bridging m))

theorem showSel_eq (m : Mach) : showSel sel mode bridging m =
    forEach (List.range 5) (fun i => wri F.CLK_REF_STAT_SELECTED i (b2n (i = sel))) (stateShown sel mode bridging m) := rfl

/-- The candidates' SELECTED bits are written last. -/
theorem kept_selectedBits (m : Mach) : Kept ((List.range 5).map fun i => fkey F.CLK_REF_STAT_SELECTED i 0) (stateShown sel mode bridging m)
    (showSel sel mode bridging m) := by
  rw [showSel_eq]
  exact kept_forEach (fun i hi n => kept_wri i _ n fun _ => List.mem_map_of_mem hi) _

theorem kept_stateShown (m : Mach) : Kept selKeys m (stateShown sel mode bridging m) :=
  ((kept_wr _ _ (by decide)).trans (kept_wr _ _ (by decide))).trans (kept_wr _ _ (by decide))

theorem kept_showSel (m : Mach) : Kept selKeys m (showSel sel mode bridging m) :=
  (kept_stateShown m).trans ((kept_selectedBits m).mono (List.subset_append_right ..))

theorem showSel_clk (m : Mach) : (showSel sel mode bridging m).clk = m.clk := by
  rw [showSel_eq]
  exact forEach_keep (·.clk) _ _ (fun i n => wri_clk _ i _ n) _

theorem rd_sel_showSel (m : Mach) : rd (showSel sel mode bridging m) F.CLK_STATE_SEL = sel % 2 ^ F.CLK_STATE_SEL.width := by
  rw [(kept_selectedBits m).rd (by decide), stateShown, rd_wr_self]

theorem kept_enterHoldover (m : Mach) : Kept selKeys m (enterHoldover k m) :=
  (((((kept_setClk ..).trans (kept_watchHold _ (by decide))).trans (kept_showSel _)).trans
    ((kept_wr _ _ (by decide)).trans (kept_wr _ _ (by decide)))).trans (kept_wr _ _ (by decide))).trans (kept_raise _ _ _ _ (by decide))

theorem rd_sel_enterHoldover (m : Mach) : rd (enterHoldover k m) F.CLK_STATE_SEL = 7 := by
  unfold enterHoldover
  extract_lets h
  rw [rd_raise _ _ _ _ _ (by decide), rd_wr_ne _ _ _ _ (by decide), rd_wr_ne _ _ _ _ (by decide), rd_wr_ne _ _ _ _ (by decide), rd_sel_showSel]
  rfl

theorem kept_exitHoldover (m : Mach) : Kept selKeys m (exitHoldover sel m) := by
  unfold exitHoldover
  split
  · exact .refl m
  · exact ((((kept_setClk ..).trans (kept_raise _ _ _ _ (by decide))).trans (kept_wr _ _ (by decide))).trans (kept_wr _ _ (by decide))).trans
      (kept_watchHold _ (by decide))

theorem kept_switchRef (m : Mach) : Kept selKeys m (switchRef sel m) :=
  ((kept_setClk ..).trans (kept_exitHoldover _)).trans (kept_showSel _)

theorem rd_sel_switchRef (m : Mach) : rd (switchRef sel m) F.CLK_STATE_SEL = sel % 2 ^ F.CLK_STATE_SEL.width := rd_sel_showSel _

theorem kept_reselect (m : Mach) : Kept selKeys m (reselect k m) := by
  unfold reselect
  extract_lets sel
  split
  · exact .refl m
  · split
    · exact kept_enterHoldover m
    · exact kept_switchRef m

/-- The choice is shown. -/
theorem rd_sel_reselect (h : chooseRef m < 8) : rd (reselect k m) F.CLK_STATE_SEL = chooseRef m := by
  unfold reselect
  extract_lets sel
  split
  · next heq => exact heq.symm
  · split
    · next h7 => exact (rd_sel_enterHoldover m).trans h7.symm
    · exact (rd_sel_switchRef m).trans (Nat.mod_eq_of_lt h)

theorem kept_selectRef (m : Mach) : Kept selKeys m (selectRef m) := by
  unfold selectRef
  split
  · exact (kept_setClk ..).trans (kept_reselect _)
  · exact .refl m

/-- A selection that waits, or one whose choice is shown already, shows its choice at the boundary. -/
theorem rd_sel_selectRef (h : m.clk.due.isSome = true ∨ rd m F.CLK_STATE_SEL = chooseRef m) (hlt : chooseRef m < 8) :
    rd (selectRef m) F.CLK_STATE_SEL = chooseRef m := by
  unfold selectRef
  split
  · next k hk =>
    have hchoose : chooseRef (setClk { m.clk with due := none } m) = chooseRef m := rfl
    rw [rd_sel_reselect (hchoose ▸ hlt), hchoose]
  · next hk => exact h.resolve_left (by simp [hk])

/-! The parts of the unit that a selection leaves: all but the holdover, the lock, the last bin of domain time, the reference switched from, and the
selection that waits. -/

section Unit
variable (g : Clk → β) (hg : ∀ x h l b s d, g { x with hold := h, lockedSec := l, bin4 := b, switchFrom := s, due := d } = g x)
include hg

theorem enterHoldover_clk (m : Mach) : g (enterHoldover k m).clk = g m.clk := by
  have hclk : (enterHoldover k m).clk = { m.clk with hold := some (holdEntry k m), lockedSec := 0, bin4 := none } := by
    unfold enterHoldover
    extract_lets h
    rw [raise_clk, wr_clk, wr_clk, wr_clk, showSel_clk, watchHold_clk, setClk_clk]
  rw [hclk]
  exact hg m.clk _ _ _ m.clk.switchFrom m.clk.due

theorem exitHoldover_clk (m : Mach) : g (exitHoldover sel m).clk = g m.clk := by
  unfold exitHoldover
  split
  · rfl
  · rw [watchHold_clk, wr_clk, wr_clk, raise_clk, setClk_clk]
    exact hg m.clk _ m.clk.lockedSec m.clk.bin4 m.clk.switchFrom m.clk.due

theorem switchRef_clk (m : Mach) : g (switchRef sel m).clk = g m.clk := by
  unfold switchRef
  extract_lets src
  rw [showSel_clk, exitHoldover_clk g hg]
  exact hg m.clk m.clk.hold _ _ _ m.clk.due

theorem reselect_clk (m : Mach) : g (reselect k m).clk = g m.clk := by
  unfold reselect
  extract_lets sel
  split
  · rfl
  · split
    · exact enterHoldover_clk g hg m
    · exact switchRef_clk g hg m

theorem selectRef_clk (m : Mach) : g (selectRef m).clk = g m.clk := by
  unfold selectRef
  split
  · rw [reselect_clk g hg]
    exact hg m.clk m.clk.hold m.clk.lockedSec m.clk.bin4 m.clk.switchFrom _
  · rfl

end Unit

end Selection

end Sys2Proof.Machine
end

section
/-! REF_CONFIG and RAMP_LOAD (04 R91, R94, R114, R116, R117, R119). -/
namespace Sys2Proof.Machine

/-! Commands that complete DONE. -/

/-- What an effect leaves for its command to complete: the route of what is written, what was written before, and the pace of the machine. -/
structure Completable (m n : Mach) : Prop where
  events : EventsKept m n
  pace : pace n = pace m

section Done
variable {s : State} {m n q : Mach} {op : Nat} {c : Cmd} {eff : Eff} {P : Mach → Prop} {ks : List Nat}

theorem Kept.completable (h : Kept ks m n) (hr : fkey F.HIF_STATUS_RUNNING 0 0 ∉ ks) (hp : Machine.pace n = Machine.pace m) : Completable m n :=
  ⟨h.events hr, hp⟩

theorem Completable.trans (h1 : Completable m n) (h2 : Completable n q) : Completable m q :=
  ⟨h1.events.trans h2.events, h2.pace.trans h1.pace⟩

theorem Completable.refl (m : Mach) : Completable m m := ⟨eventsKept_refl m, rfl⟩

theorem completable_raise (src code : Nat) (pay : Pay) (m : Mach) : Completable m (raise src code pay m) :=
  ⟨eventsKept_raise .., raise_pace _ _ _⟩

theorem completable_onlyIf (b : Bool) {f : Mach → Mach} (h : Completable m (f m)) : Completable m (onlyIf b f m) :=
  ⟨eventsKept_onlyIf b h.events, onlyIf_keep Machine.pace b f m h.pace⟩

theorem completable_forEach {α : Type} {l : List α} {f : α → Mach → Mach} (h : ∀ x n, Completable n (f x n)) (m : Mach) :
    Completable m (forEach l f m) :=
  ⟨eventsKept_forEach (fun x n => (h x n).events) l m, forEach_pace l f fun x n => (h x n).pace⟩

/-- A plain command whose effect is applied leaves the registers and the clocks of its effect, and completes DONE. -/
theorem plain_done (hp : Plain op c m) (hop : op ≠ 0x0102) (hn : eff c (nowTicket op c m) (reserve c m) = okM n)
    (hk : Completable (reserve c m) n) :
    let f := hostRow op eff c m
    f.regs = n.regs ∧ f.clk = n.clk ∧ Completed op stDone c m f := by
  obtain ⟨⟨hrun, -, hout⟩, hpace⟩ := hk
  have hdeal : n.deal = m.deal := (congrArg Pace.deal hpace).trans (reserve_deal c m)
  have hepoch : n.hif.epoch = m.hif.epoch := (congrArg Pace.epoch hpace).trans (reserve_epoch c m)
  have hrow : hostRow op eff c m = final (nowTicket op c m) stDone n := plain_status op stDone eff c m n hp (absurd · hop) hn hdeal
  rw [hrow]
  refine ⟨final_regs .., final_clk .., completed_since ?_ hdeal ?_ (final_completed op stDone c n n _ rfl rfl rfl hepoch.symm rfl rfl rfl)⟩
  · exact hrun.trans (running_congr _ _ (reserve_regs c m))
  · rw [← reserve_out c m]
    exact hout

/-- A plain REF_CONFIG that is applied: the choice of R94 is made on its effect. -/
theorem refConfig_answers (ha : Awake s) (hp : Plain 0x0601 c s.m)
    (h : ∃ n, refConfig c (nowTicket 0x0601 c s.m) (reserve c s.m) = okM n ∧ Completable (reserve c s.m) n ∧
      ∀ q, q.regs = n.regs → q.clk = n.clk → Completed 0x0601 stDone c s.m (selectRef q) → P (selectRef q)) : Answers (.refConfig c) s P := by
  obtain ⟨n, hn, hk, hP⟩ := h
  obtain ⟨hregs, hclk, hdone⟩ := plain_done hp (by decide) hn hk
  refine answers_mach _ s (fun m => selectRef (hostRow 0x0601 refConfig c m)) _ rfl ha (hP _ hregs hclk fun hr k hk => ?_)
  obtain ⟨ring, idx, ho⟩ := hdone hr k hk
  exact ⟨ring, idx, newOut_mono _ _ _ _ ho (kept_selectRef _).out⟩

theorem rdi_selectRef {f : Fld} {i : Nat} (hr : q.regs = n.regs) (hf : fkey f i 0 ∉ selKeys) : rdi (selectRef q) f i = rdi n f i :=
  ((kept_selectRef q).rdi hf).trans (rdi_congr _ _ _ _ hr)

theorem cand_selectRef {i : Nat} (hc : q.clk = n.clk) : cand (selectRef q) i = cand n i :=
  cand_congr ((selectRef_clk (·.cands) (fun _ _ _ _ _ _ => rfl) q).trans (congrArg Clk.cands hc))

theorem aligner_selectRef {a : Nat} (hc : q.clk = n.clk) : aligner (selectRef q) a = aligner n a :=
  aligner_congr ((selectRef_clk (·.als) (fun _ _ _ _ _ _ => rfl) q).trans (congrArg Clk.als hc))

/-- The reserved bytes of a plain REF_CONFIG are zero, by its kind. -/
theorem zeroAt_of_plain {kind : Nat} {r : Nat × Nat} (hp : Plain 0x0601 c m) (hk : u8 c 24 = kind) (hr : r ∈ refRsv kind) :
    zeroAt c r.1 r.2 = true := by
  obtain ⟨-, -, -, -, -, -, -, -, hrs, -⟩ := hp
  simp only [reservedOk, rsvBytes, hk, List.all_eq_true] at hrs
  exact hrs r hr

end Done

/-! Kind 0: candidates. -/

section Candidates
variable {s : State} {m : Mach} {c : Cmd} {tk : Ticket}

/-- Where a configuration of candidate i writes registers. -/
def configKeys (i : Nat) : List Nat :=
  fkey F.CLK_REF_STAT_ENABLED i 0 :: fkey F.CLK_REF_STAT_RANK i 0 :: fkey F.CLK_REF_STAT_TOL i 0 :: lossKeys i

/-- The fields of CLK_REF_STAT that a configuration sets. -/
def refStatFlds : List Fld :=
  [F.CLK_REF_STAT_ENABLED, F.CLK_REF_STAT_RANK, F.CLK_REF_STAT_TOL, F.CLK_REF_STAT_PRESENT, F.CLK_REF_STAT_QUALIFIED]

theorem refStat_selFree : ∀ f ∈ refStatFlds, ∀ i ≤ 4, fkey f i 0 ∉ selKeys := by decide

theorem running_configFree : ∀ i ≤ 4, fkey F.HIF_STATUS_RUNNING 0 0 ∉ configKeys i := by decide

/-- The registers of an enabled candidate. -/
def enabledRegs (c : Cmd) (m : Mach) : Mach :=
  wri F.CLK_REF_STAT_ENABLED (u8 c 25) 1 (wri F.CLK_REF_STAT_RANK (u8 c 25) (u8 c 26) (wri F.CLK_REF_STAT_TOL (u8 c 25) (u16 c 34) m))

theorem kept_enabledRegs (c : Cmd) (m : Mach) : Kept (configKeys (u8 c 25)) m (enabledRegs c m) :=
  ((kept_wri _ _ _ fun _ => by simp [configKeys]).trans (kept_wri _ _ _ fun _ => by simp [configKeys])).trans
    (kept_wri _ _ _ fun _ => by simp [configKeys])

/-- A candidate is enabled with its rank and tolerance. -/
def Enabled (c : Cmd) (n : Mach) : Prop :=
  rdi n F.CLK_REF_STAT_ENABLED (u8 c 25) = 1 ∧ rdi n F.CLK_REF_STAT_RANK (u8 c 25) = u8 c 26 ∧ rdi n F.CLK_REF_STAT_TOL (u8 c 25) = u16 c 34

theorem enabledRegs_enabled (hi : u8 c 25 < 4) (hr : u8 c 26 ≤ 7) (ht : u16 c 34 ≤ 2000) (m : Mach) : Enabled c (enabledRegs c m) := by
  have hi5 : u8 c 25 < 5 := Nat.lt_succ_of_lt hi
  obtain ⟨her, het, hrt⟩ := (by decide : ∀ i < 5, fkey F.CLK_REF_STAT_RANK i 0 ≠ fkey F.CLK_REF_STAT_ENABLED i 0 ∧
    fkey F.CLK_REF_STAT_TOL i 0 ≠ fkey F.CLK_REF_STAT_ENABLED i 0 ∧ fkey F.CLK_REF_STAT_TOL i 0 ≠ fkey F.CLK_REF_STAT_RANK i 0) _ hi5
  refine ⟨?_, ?_, ?_⟩
  · exact rdi_wri_self _ _ _ _ hi5
  · rw [enabledRegs, rdi_wri_ne _ _ _ _ _ _ her, rdi_wri_self _ _ _ _ hi5]
    exact Nat.mod_eq_of_lt (show u8 c 26 < 2 ^ 3 by omega)
  · rw [enabledRegs, rdi_wri_ne _ _ _ _ _ _ het, rdi_wri_ne _ _ _ _ _ _ hrt, rdi_wri_self _ _ _ _ hi5]
    exact Nat.mod_eq_of_lt (show u16 c 34 < 2 ^ 16 by omega)

/-- The record of a candidate is of the type and rate that the command states. -/
def Rated (c : Cmd) (n : Mach) : Prop :=
  (cand n (u8 c 25)).pps = (u8 c 27 == 1) ∧ (cand n (u8 c 25)).hz = u32 c 28 ∧ (cand n (u8 c 25)).den = u16 c 32

/-- The registers of a candidate whose type or rate is new. -/
def renewed (c : Cmd) (m : Mach) : Mach :=
  disqualify (u8 c 25) 4 0 (wri F.CLK_REF_STAT_PRESENT (u8 c 25) 0
    (setCand (u8 c 25) { pps := u8 c 27 == 1, hz := u32 c 28, den := u16 c 32 } (enabledRegs c m)))

/-- A REFIN input's configuration that is legal, by whether its type and rate stay. -/
theorem refCandidate_enables (hzero : zeroAt c 36 28 = true) (hi : u8 c 25 < 4) (hr : u8 c 26 ≤ 7) (hp : u8 c 27 ≤ 1)
    (h1 : u8 c 27 = 1 → u32 c 28 = 0 ∧ u16 c 32 = 0)
    (h0 : u8 c 27 = 0 → u16 c 32 ≠ 0 ∧ 8000 * u16 c 32 ≤ u32 c 28 ∧ u32 c 28 ≤ 50000000 * u16 c 32)
    (ht : 1 ≤ u16 c 34) (ht2 : u16 c 34 ≤ 2000) :
    (Rated c m ∧ refCandidate c tk m = okM (wantSelect 7 0 (enabledRegs c m))) ∨ refCandidate c tk m = okM (renewed c m) := by
  have hrate : (if u8 c 27 = 1 then u32 c 28 != 0 || u16 c 32 != 0
      else u16 c 32 == 0 || decide (u32 c 28 < 8000 * u16 c 32) || decide (50000000 * u16 c 32 < u32 c 28)) = false := by
    split
    · next h => simp [h1 h]
    · next h =>
      obtain ⟨hd, hlo, hhi⟩ := h0 (by omega)
      simp [hd, Nat.not_lt.mpr hlo, Nat.not_lt.mpr hhi]
  unfold refCandidate
  extract_lets i rank pps hz den tol m1 x same m2
  rw [if_neg (by simp [hzero, i]; omega), if_neg (by simp [rank]; omega), if_neg (by simp [tol, rank, pps]; omega), if_neg (by simp [i]; omega),
    if_neg (by rw [hrate]; decide)]
  split
  · next hsame =>
    refine .inl ⟨?_, rfl⟩
    simp only [same, Bool.and_eq_true, beq_iff_eq] at hsame
    obtain ⟨⟨⟨-, hpps⟩, hhz⟩, hden⟩ := hsame
    exact ⟨hpps, hhz, hden⟩
  · exact .inr rfl

theorem renewed_enabled (hi : u8 c 25 < 4) (h : Enabled c (enabledRegs c m)) : Enabled c (renewed c m) := by
  have hkept : Kept (lossKeys (u8 c 25)) (enabledRegs c m) (renewed c m) :=
    .trans (.trans (kept_setClk ..) (kept_wri _ _ _ fun _ => by simp [lossKeys])) ((kept_disqualify _).mono fun _ h => by simp [lossKeys, h])
  obtain ⟨he, hr, ht⟩ := (by decide : ∀ i < 4, fkey F.CLK_REF_STAT_ENABLED i 0 ∉ lossKeys i ∧
    fkey F.CLK_REF_STAT_RANK i 0 ∉ lossKeys i ∧ fkey F.CLK_REF_STAT_TOL i 0 ∉ lossKeys i) _ hi
  unfold Enabled
  rw [hkept.rdi he, hkept.rdi hr, hkept.rdi ht]
  exact h

theorem renewed_rated : Rated c (renewed c m) := by
  unfold Rated renewed
  rw [cand_disqualify, cand_congr (congrArg Clk.cands (wri_clk ..)), cand_setCand_self]
  exact ⟨rfl, rfl, rfl⟩

theorem renewed_completable (hi : u8 c 25 < 4) (m : Mach) : Completable m (renewed c m) := by
  have hkept : Kept (configKeys (u8 c 25)) m (renewed c m) :=
    .trans (.trans (.trans (kept_enabledRegs c m) (kept_setClk ..)) (kept_wri _ _ _ fun _ => by simp [configKeys, lossKeys]))
      ((kept_disqualify _).mono fun _ h => by simp [configKeys, lossKeys, h])
  exact hkept.completable (running_configFree _ (Nat.le_of_lt hi)) (by simp [renewed, enabledRegs])

theorem configures_completable (hi : u8 c 25 < 4) (m : Mach) : Completable m (wantSelect 7 0 (enabledRegs c m)) :=
  (Kept.trans (kept_enabledRegs c m) (kept_wantSelect _)).completable (running_configFree _ (Nat.le_of_lt hi)) (by simp [enabledRegs])

theorem refConfig_enables_answers (ha : Awake s) (hp : Plain 0x0601 c s.m) (hk : u8 c 24 = 0) (hi : u8 c 25 < 4)
    (hr : u8 c 26 ≤ 7) (hpps : u8 c 27 ≤ 1)
    (h1 : u8 c 27 = 1 → u32 c 28 = 0 ∧ u16 c 32 = 0)
    (h0 : u8 c 27 = 0 → u16 c 32 ≠ 0 ∧ 8000 * u16 c 32 ≤ u32 c 28 ∧ u32 c 28 ≤ 50000000 * u16 c 32)
    (ht : 1 ≤ u16 c 34) (ht2 : u16 c 34 ≤ 2000) :
    Answers (.refConfig c) s (fun n => rdi n F.CLK_REF_STAT_ENABLED (u8 c 25) = 1 ∧ rdi n F.CLK_REF_STAT_RANK (u8 c 25) = u8 c 26 ∧
      rdi n F.CLK_REF_STAT_TOL (u8 c 25) = u16 c 34 ∧ (cand n (u8 c 25)).pps = (u8 c 27 == 1) ∧ (cand n (u8 c 25)).hz = u32 c 28 ∧
      (cand n (u8 c 25)).den = u16 c 32 ∧ Completed 0x0601 stDone c s.m n) := by
  have hzero : zeroAt c 36 28 = true := zeroAt_of_plain hp hk (r := (36, 28)) (by decide)
  have hen : Enabled c (enabledRegs c (reserve c s.m)) := enabledRegs_enabled hi hr ht2 _
  obtain ⟨n, hn, hkept, ⟨he, hrk, htl⟩, hpp, hhz, hden⟩ : ∃ n, refConfig c (nowTicket 0x0601 c s.m) (reserve c s.m) = okM n ∧
      Completable (reserve c s.m) n ∧ Enabled c n ∧ Rated c n := by
    simp only [refConfig, hk]
    obtain ⟨hrated, heq⟩ | heq := refCandidate_enables (m := reserve c s.m) (tk := nowTicket 0x0601 c s.m) hzero hi hr hpps h1 h0 ht ht2
    · exact ⟨_, heq, configures_completable hi _, hen, hrated⟩
    · exact ⟨_, heq, renewed_completable hi _, renewed_enabled hi hen, renewed_rated⟩
  refine refConfig_answers ha hp ⟨n, hn, hkept, fun q hq hc hdone => ?_⟩
  have hfree : ∀ f ∈ refStatFlds, rdi (selectRef q) f (u8 c 25) = rdi n f (u8 c 25) := fun f hf =>
    rdi_selectRef hq (refStat_selFree f hf _ (Nat.le_of_lt hi))
  rw [hfree _ (by simp [refStatFlds]), hfree _ (by simp [refStatFlds]), hfree _ (by simp [refStatFlds]), cand_selectRef hc]
  exact ⟨he, hrk, htl, hpp, hhz, hden, hdone⟩

/-- The machine with candidate i disabled. -/
def disabled (i : Nat) (m : Mach) : Mach :=
  disqualify i 4 0 (wri F.CLK_REF_STAT_ENABLED i 0 (wri F.CLK_REF_STAT_PRESENT i 0 (wri F.CLK_REF_STAT_IN_TOL i 0 m)))

theorem refCandidate_disables (hzero : zeroAt c 36 28 = true) (hi : u8 c 25 < 4) (hr : u8 c 26 = 0xFF) :
    refCandidate c tk m = okM (disabled (u8 c 25) m) := by
  simp [refCandidate, hzero, hr, Nat.not_lt.mpr (Nat.le_of_lt hi), Nat.ne_of_lt hi, disabled]

theorem disabled_completable {i : Nat} (hi : i < 4) (m : Mach) : Completable m (disabled i m) := by
  have hkept : Kept (configKeys i) m (disabled i m) :=
    .trans (.trans (.trans (kept_wri _ _ _ fun _ => by simp [configKeys, lossKeys]) (kept_wri _ _ _ fun _ => by simp [configKeys, lossKeys]))
      (kept_wri _ _ _ fun _ => by simp [configKeys])) ((kept_disqualify _).mono fun _ h => by simp [configKeys, lossKeys, h])
  exact hkept.completable (running_configFree i (Nat.le_of_lt hi)) (by simp [disabled])

theorem disabled_shown {i : Nat} (hi : i < 4) (m : Mach) : rdi (disabled i m) F.CLK_REF_STAT_ENABLED i = 0 ∧
    rdi (disabled i m) F.CLK_REF_STAT_QUALIFIED i = 0 ∧ rdi (disabled i m) F.CLK_REF_STAT_PRESENT i = 0 := by
  obtain ⟨he, hp, hep⟩ := (by decide : ∀ i < 4, fkey F.CLK_REF_STAT_ENABLED i 0 ∉ disqualifyKeys i ∧
    fkey F.CLK_REF_STAT_PRESENT i 0 ∉ disqualifyKeys i ∧ fkey F.CLK_REF_STAT_PRESENT i 0 ≠ fkey F.CLK_REF_STAT_ENABLED i 0) i hi
  have hi5 : i < 5 := Nat.lt_succ_of_lt hi
  refine ⟨?_, disqualify_unqualified (Nat.le_of_lt hi) _, ?_⟩
  · rw [disabled, (kept_disqualify _).rdi he, rdi_wri_self _ _ _ _ hi5, Nat.zero_mod]
  · rw [disabled, (kept_disqualify _).rdi hp, rdi_wri_ne _ _ _ _ _ _ hep, rdi_wri_self _ _ _ _ hi5, Nat.zero_mod]

theorem refConfig_disables_answers (ha : Awake s) (hp : Plain 0x0601 c s.m) (hk : u8 c 24 = 0) (hi : u8 c 25 < 4) (hr : u8 c 26 = 0xFF) :
    Answers (.refConfig c) s (fun n => rdi n F.CLK_REF_STAT_ENABLED (u8 c 25) = 0 ∧ rdi n F.CLK_REF_STAT_QUALIFIED (u8 c 25) = 0 ∧
      rdi n F.CLK_REF_STAT_PRESENT (u8 c 25) = 0 ∧ Completed 0x0601 stDone c s.m n) := by
  have hzero : zeroAt c 36 28 = true := zeroAt_of_plain hp hk (r := (36, 28)) (by decide)
  have hn : refConfig c (nowTicket 0x0601 c s.m) (reserve c s.m) = okM (disabled (u8 c 25) (reserve c s.m)) := by
    simp only [refConfig, hk]
    exact refCandidate_disables hzero hi hr
  obtain ⟨he, hq, hpres⟩ := disabled_shown hi (reserve c s.m)
  refine refConfig_answers ha hp ⟨_, hn, disabled_completable hi _, fun q hregs hc hdone => ?_⟩
  have hfree : ∀ f ∈ refStatFlds, rdi (selectRef q) f (u8 c 25) = rdi (disabled (u8 c 25) (reserve c s.m)) f (u8 c 25) := fun f hf =>
    rdi_selectRef hregs (refStat_selFree f hf _ (Nat.le_of_lt hi))
  rw [hfree _ (by simp [refStatFlds]), hfree _ (by simp [refStatFlds]), hfree _ (by simp [refStatFlds])]
  exact ⟨he, hq, hpres, hdone⟩

theorem exists4_reserve : exists4 (reserve c m) = exists4 m := by simp only [exists4, flag, rd, reserve_regs]

theorem refCandidate_tolerance (hzero : zeroAt c 36 28 = true) (hi : u8 c 25 = 4) (hx : exists4 m = true) (hr : u8 c 26 = 0) (hpps : u8 c 27 = 0)
    (hhz : u32 c 28 = 0) (hden : u16 c 32 = 0) (ht : 1 ≤ u16 c 34) (ht2 : u16 c 34 ≤ 2000) :
    refCandidate c tk m = okM (wantSelect 7 0 (wri F.CLK_REF_STAT_TOL 4 (u16 c 34) m)) := by
  simp [refCandidate, hzero, hi, hx, hr, hpps, hhz, hden, Nat.ne_of_gt ht, Nat.not_lt.mpr ht2]

theorem refConfig_tolerance_answers (ha : Awake s) (hp : Plain 0x0601 c s.m) (hk : u8 c 24 = 0) (hi : u8 c 25 = 4) (hx : exists4 s.m = true)
    (hr : u8 c 26 = 0) (hpps : u8 c 27 = 0) (hhz : u32 c 28 = 0) (hden : u16 c 32 = 0) (ht : 1 ≤ u16 c 34) (ht2 : u16 c 34 ≤ 2000) :
    Answers (.refConfig c) s (fun n => rdi n F.CLK_REF_STAT_TOL 4 = u16 c 34 ∧ Completed 0x0601 stDone c s.m n) := by
  have hzero : zeroAt c 36 28 = true := zeroAt_of_plain hp hk (r := (36, 28)) (by decide)
  have hn : refConfig c (nowTicket 0x0601 c s.m) (reserve c s.m) =
      okM (wantSelect 7 0 (wri F.CLK_REF_STAT_TOL 4 (u16 c 34) (reserve c s.m))) := by
    simp only [refConfig, hk]
    exact refCandidate_tolerance hzero hi (exists4_reserve.trans hx) hr hpps hhz hden ht ht2
  have hkept : Kept [fkey F.CLK_REF_STAT_TOL 4 0] (reserve c s.m) (wantSelect 7 0 (wri F.CLK_REF_STAT_TOL 4 (u16 c 34) (reserve c s.m))) :=
    (kept_wri _ _ _ fun _ => List.mem_cons_self).trans (kept_wantSelect _)
  refine refConfig_answers ha hp ⟨_, hn, hkept.completable (by decide) (by simp), fun q hq _ hdone => ⟨?_, hdone⟩⟩
  rw [rdi_selectRef hq (by decide), rdi_wantSelect, rdi_wri_self _ _ _ _ (by decide)]
  exact Nat.mod_eq_of_lt (show u16 c 34 < 2 ^ 16 by omega)

end Candidates

/-! Kind 1: outputs. -/

section Outputs
variable {s : State} {m : Mach} {c : Cmd} {tk : Ticket} {a : Nat}

theorem alStart_completable (hz den mode : Nat) (ofs : Int) (m : Mach) : Completable m (alStart a hz den mode ofs m) :=
  ⟨.of_eq rfl rfl rfl, by simp [alStart]⟩

theorem alStop_of_stopped (h : (aligner m a).st = .stopped) : alStop a m = m := if_pos h

theorem refOutput_starts (h34 : zeroAt c 34 2 = true) (h40 : zeroAt c 40 24 = true) (h24 : u8 c 25 < 24) (h1 : u8 c 26 = 1)
    (hok : outputOk (u8 c 25) (u32 c 28) (u16 c 32) (u8 c 27) (s32 c 36) = true) (hst : (aligner m (u8 c 25)).st = .stopped) :
    refOutput c tk m = okM (alStart (u8 c 25) (u32 c 28) (u16 c 32) (u8 c 27) (s32 c 36) m) := by
  have hlt : ¬ 23 < u8 c 25 := by omega
  simp [refOutput, h34, h40, hlt, h1, hok, hst, alStop_of_stopped]

theorem refConfig_starts_answers (ha : Awake s) (hp : Plain 0x0601 c s.m) (hk : u8 c 24 = 1) (h24 : u8 c 25 < 24) (h1 : u8 c 26 = 1)
    (hok : outputOk (u8 c 25) (u32 c 28) (u16 c 32) (u8 c 27) (s32 c 36) = true) (hst : (aligner s.m (u8 c 25)).st = .stopped) :
    Answers (.refConfig c) s (fun n => (aligner n (u8 c 25)).st = .search 0 ∧ (aligner n (u8 c 25)).hz = u32 c 28 ∧
      (aligner n (u8 c 25)).den = u16 c 32 ∧ (aligner n (u8 c 25)).mode = u8 c 27 ∧ (aligner n (u8 c 25)).ofs = s32 c 36 ∧
      Completed 0x0601 stDone c s.m n) := by
  have h34 : zeroAt c 34 2 = true := zeroAt_of_plain hp hk (r := (34, 2)) (by decide)
  have h40 : zeroAt c 40 24 = true := zeroAt_of_plain hp hk (r := (40, 24)) (by decide)
  have hst' : (aligner (reserve c s.m) (u8 c 25)).st = .stopped := (congrArg Aligner.st (aligner_congr (by rw [reserve_clk]))).trans hst
  have hn : refConfig c (nowTicket 0x0601 c s.m) (reserve c s.m) =
      okM (alStart (u8 c 25) (u32 c 28) (u16 c 32) (u8 c 27) (s32 c 36) (reserve c s.m)) := by
    simp only [refConfig, hk]
    exact refOutput_starts h34 h40 h24 h1 hok hst'
  refine refConfig_answers ha hp ⟨_, hn, alStart_completable .., fun q _ hc hdone => ?_⟩
  rw [aligner_selectRef hc, aligner_alStart_self]
  exact ⟨rfl, rfl, rfl, rfl, rfl, hdone⟩

theorem eventsKept_wrij {f : Fld} (i j v : Nat) (m : Mach) (h : ∀ i < f.n1, ∀ j < f.n2, fkey F.HIF_STATUS_RUNNING 0 0 ≠ fkey f i j) :
    EventsKept m (wrij f i j v m) := by
  refine ⟨?_, rfl, [], rfl⟩
  simp only [running, rd, wrij]
  split
  case isTrue hij => rw [rgetij_rsetij_ne _ _ _ _ _ _ _ _ (h i hij.1 j hij.2)]
  case isFalse => rfl

theorem eventsKept_showPort (d : Nat) (m : Mach) : EventsKept m (showPort d m) := by
  unfold showPort
  extract_lets x on y now silent
  have hrun : EventsKept m (wr F.SAP_RUN_DIR (putBit (rd m F.SAP_RUN_DIR) d on) m) := eventsKept_wr _ _ (by decide)
  split
  · exact ((((hrun.trans (eventsKept_wrij _ _ _ _ (by decide))).trans (eventsKept_wrij _ _ _ _ (by decide))).trans
      (eventsKept_wrij _ _ _ _ (by decide))).trans (eventsKept_wrij _ _ _ _ (by decide))).trans (eventsKept_wrij _ _ _ _ (by decide))
  · split
    · exact eventsKept_wri _ _ _ (by decide)
    · exact (eventsKept_wri _ _ _ (by decide)).trans (eventsKept_wri _ _ _ (by decide))

theorem slip_completable (d cause offset lo ns : Nat) (m : Mach) : Completable m (slip d cause offset lo ns m) := by
  unfold slip
  split
  · exact .refl m
  · next x _ =>
    extract_lets auto y
    generalize hshown : showPort d _ = p
    have hp : Completable m p := by
      subst hshown
      refine ⟨EventsKept.trans ?_ (eventsKept_showPort d _), by simp⟩
      exact ((EventsKept.of_eq rfl rfl rfl).trans (eventsKept_wr _ _ (by decide))).trans
        ((eventsKept_wrij _ _ _ _ (by decide)).trans (.of_eq rfl rfl rfl))
    have hdeal : p.deal = m.deal := congrArg Pace.deal hp.pace
    rw [← hdeal]
    exact hp.trans (completable_raise ..)

theorem groupLost_completable (g : Nat) (m : Mach) : Completable m (groupLost g m) := by
  unfold groupLost
  refine completable_forEach (fun d n => ?_) m
  have hfresh : Completable n (useFresh 1 n) := ⟨.of_eq rfl rfl rfl, useFresh_pace 1⟩
  exact hfresh.trans (slip_completable ..)

/-- The machine with engine k idle. -/
def engineIdle (k : Nat) (m : Mach) : Mach :=
  wr F.CLK_RAMP_STAT_ACTIVE (clrBit (rd m F.CLK_RAMP_STAT_ACTIVE) k) (wri F.CLK_RAMP_OFS_PPB k 0 (setRamp k {} m))

theorem engineIdle_completable (k : Nat) (m : Mach) : Completable m (engineIdle k m) :=
  ⟨((EventsKept.of_eq rfl rfl rfl : EventsKept m (setRamp k {} m)).trans (eventsKept_wri k 0 _ (by decide))).trans (eventsKept_wr _ _ (by decide)),
    by simp [engineIdle]⟩

theorem rampStop_completable (k a : Nat) (m : Mach) : Completable m (rampStop k a m) := by
  unfold rampStop
  split
  · exact (engineIdle_completable k m).trans (completable_onlyIf _ (completable_raise ..))
  · exact .refl m

theorem rampStop_als (k a : Nat) (m : Mach) : (rampStop k a m).clk.als = m.clk.als := by
  unfold rampStop
  split
  · exact onlyIf_keep (·.clk.als) _ _ _ rfl
  · rfl

/-- The machine with output a stopped, before its engines and its group follow. -/
def alHeldLow (a : Nat) (m : Mach) : Mach :=
  alBit F.CLK_AL_RUN_RUN a false (alBit F.CLK_AL_LOCK_LOCK a false (alBit F.CLK_SYNC_MASK_MASK a false
    (setAl a { aligner m a with st := .stopped, slew := 0, good := 0 } m)))

theorem alHeldLow_completable (a : Nat) (m : Mach) : Completable m (alHeldLow a m) := by
  have hkept : Kept [fkey F.CLK_AL_RUN_RUN 0 0, fkey F.CLK_AL_LOCK_LOCK 0 0, fkey F.CLK_SYNC_MASK_MASK 0 0] m
      (alHeldLow a m) := (((kept_setClk ..).trans (kept_wr _ _ (by decide))).trans (kept_wr _ _ (by decide))).trans (kept_wr _ _ (by decide))
  exact hkept.completable (by decide) (by simp [alHeldLow])

theorem alStop_running (h : (aligner m a).st ≠ .stopped) : alStop a m =
    onlyIf (decide (8 ≤ a)) (groupLost (a - 8)) (forEach (List.range 8) (fun k => rampStop k a) (alHeldLow a m)) := if_neg h

theorem alStop_completable (a : Nat) (m : Mach) : Completable m (alStop a m) := by
  by_cases h : (aligner m a).st = .stopped
  · rw [alStop_of_stopped h]
    exact .refl m
  · rw [alStop_running h]
    have hloop : Completable (alHeldLow a m) (forEach (List.range 8) (fun k => rampStop k a) (alHeldLow a m)) :=
      completable_forEach (fun k n => rampStop_completable k a n) _
    exact ((alHeldLow_completable a m).trans hloop).trans (completable_onlyIf _ (groupLost_completable ..))

theorem alStop_stopped (a : Nat) (m : Mach) : (aligner (alStop a m) a).st = .stopped := by
  by_cases h : (aligner m a).st = .stopped
  · rw [alStop_of_stopped h, h]
  · rw [alStop_running h]
    have hals : (onlyIf (decide (8 ≤ a)) (groupLost (a - 8)) (forEach (List.range 8) (fun k => rampStop k a) (alHeldLow a m))).clk.als =
        (alHeldLow a m).clk.als :=
      (onlyIf_keep (·.clk.als) _ _ _ (congrArg Clk.als groupLost_clk)).trans (forEach_keep (·.clk.als) _ _ (fun k n => rampStop_als k a n) _)
    rw [aligner_congr hals]
    exact congrArg Aligner.st (aligner_setAl_self _)

theorem refConfig_stops_answers (ha : Awake s) (hp : Plain 0x0601 c s.m) (hk : u8 c 24 = 1) (h24 : u8 c 25 < 24) (h0 : u8 c 26 = 0) :
    Answers (.refConfig c) s (fun n => (aligner n (u8 c 25)).st = .stopped ∧ Completed 0x0601 stDone c s.m n) := by
  have h34 : zeroAt c 34 2 = true := zeroAt_of_plain hp hk (r := (34, 2)) (by decide)
  have h40 : zeroAt c 40 24 = true := zeroAt_of_plain hp hk (r := (40, 24)) (by decide)
  have hlt : ¬ 23 < u8 c 25 := by omega
  have hn : refConfig c (nowTicket 0x0601 c s.m) (reserve c s.m) = okM (alStop (u8 c 25) (reserve c s.m)) := by
    simp only [refConfig, hk]
    simp [refOutput, h34, h40, hlt, h0]
  refine refConfig_answers ha hp ⟨_, hn, alStop_completable .., fun q _ hc hdone => ⟨?_, hdone⟩⟩
  rw [aligner_selectRef hc]
  exact alStop_stopped ..

end Outputs

/-! Kind 2: the selector. -/

section Selector
variable {s : State} {m n : Mach} {c : Cmd} {tk : Ticket}

/-- The mode that a selector command names (Table 4.2). -/
def selMode (c : Cmd) : SelMode :=
  if u8 c 25 = 0 then .auto else if u8 c 25 = 1 then .holdover else if u8 c 25 = 2 then .freeRun else .cand (u8 c 26)

theorem qualified_congr (h : n.regs = m.regs) (i : Nat) : qualified n i = qualified m i := by
  simp only [qualified, exists4, flag, rd, rdi, h]

/-- The selector's effect: its mode, and a choice that waits for the boundary or, of no reference, is shown already. -/
theorem refSelector_selects (hzero : zeroAt c 27 37 = true) (hs : u8 c 25 ≤ 3)
    (hq : u8 c 25 = 3 → u8 c 26 ≤ 4 ∧ qualified m (u8 c 26) = true) :
    ∃ n, refSelector c tk m = okM n ∧ Completable m n ∧ n.clk.mode = selMode c ∧
      ((u8 c 25 = 1 ∨ u8 c 25 = 2) ∧ rd n F.CLK_STATE_SEL = 7 ∨ n.clk.due.isSome = true ∧ n.regs = m.regs) := by
  have hbad : (decide (3 < u8 c 25) || !zeroAt c 27 37 || (u8 c 25 == 3 && (decide (4 < u8 c 26) || !qualified m (u8 c 26)))) = false := by
    by_cases h3 : u8 c 25 = 3
    · obtain ⟨h4, hqual⟩ := hq h3
      simp [h3, hzero, hqual, h4]
    · simp [hzero, h3, hs]
  unfold refSelector
  extract_lets sel mode x m1
  rw [if_neg (by rw [hbad]; decide)]
  split
  · next h =>
    simp only [Bool.and_eq_true, Bool.or_eq_true, decide_eq_true_eq] at h
    have hkept : Kept selKeys m (enterHoldover 0 m1) := (kept_setClk ..).trans (kept_enterHoldover m1)
    refine ⟨_, rfl, hkept.completable (by decide) (by simp [m1]), ?_, .inl ⟨h.1, rd_sel_enterHoldover m1⟩⟩
    exact enterHoldover_clk (·.mode) (fun _ _ _ _ _ _ => rfl) m1
  · exact ⟨_, rfl, ⟨.of_eq rfl rfl rfl, by simp [m1]⟩, rfl, .inr ⟨rfl, rfl⟩⟩

theorem chooseRef_holdover (h : m.clk.mode = .holdover ∨ m.clk.mode = .freeRun) : chooseRef m = 7 := by
  unfold chooseRef
  obtain h | h := h <;> rw [h]

theorem chooseRef_cand {i : Nat} (h : m.clk.mode = .cand i) (hq : qualified m i = true) : chooseRef m = i := by
  unfold chooseRef
  rw [h]
  exact if_pos hq

theorem refConfig_selects_answers (ha : Awake s) (hp : Plain 0x0601 c s.m) (hk : u8 c 24 = 2) (hs : u8 c 25 ≤ 3)
    (hq : u8 c 25 = 3 → u8 c 26 ≤ 4 ∧ qualified s.m (u8 c 26) = true) :
    Answers (.refConfig c) s (fun n =>
      n.clk.mode = (if u8 c 25 = 0 then .auto else if u8 c 25 = 1 then .holdover else if u8 c 25 = 2 then .freeRun else .cand (u8 c 26)) ∧
      (u8 c 25 = 1 ∨ u8 c 25 = 2 → rd n F.CLK_STATE_SEL = 7) ∧ (u8 c 25 = 3 → rd n F.CLK_STATE_SEL = u8 c 26) ∧
      Completed 0x0601 stDone c s.m n) := by
  have hzero : zeroAt c 27 37 = true := zeroAt_of_plain hp hk (r := (27, 37)) (by decide)
  have hqual : ∀ i, qualified (reserve c s.m) i = qualified s.m i := qualified_congr (reserve_regs c s.m)
  obtain ⟨n, hn, hkept, hmode, hdue⟩ := refSelector_selects (m := reserve c s.m) (tk := nowTicket 0x0601 c s.m) hzero hs
    (fun h => (hqual (u8 c 26)).symm ▸ hq h)
  have heff : refConfig c (nowTicket 0x0601 c s.m) (reserve c s.m) = okM n := by simp only [refConfig, hk, hn]
  refine refConfig_answers ha hp ⟨n, heff, hkept, fun q hregs hc hdone => ?_⟩
  have hqm : q.clk.mode = selMode c := (congrArg Clk.mode hc).trans hmode
  refine ⟨(selectRef_clk (·.mode) (fun _ _ _ _ _ _ => rfl) q).trans hqm, fun h12 => ?_, fun h3 => ?_, hdone⟩
  · have hchoose : chooseRef q = 7 := chooseRef_holdover (by obtain h | h := h12 <;> simp [hqm, selMode, h])
    rw [rd_sel_selectRef ?_ (by omega), hchoose]
    obtain ⟨-, h7⟩ | ⟨hsome, -⟩ := hdue
    · exact .inr (by rw [hchoose, rd_congr _ _ _ hregs, h7])
    · exact .inl (by rw [hc, hsome])
  · obtain ⟨h4, hq3⟩ := hq h3
    obtain ⟨h12, -⟩ | ⟨hsome, hsame⟩ := hdue
    · omega
    · have hchoose : chooseRef q = u8 c 26 :=
        chooseRef_cand (by simp [hqm, selMode, h3]) ((qualified_congr (hregs.trans (hsame.trans (reserve_regs c s.m))) _).trans hq3)
      rw [rd_sel_selectRef (.inl (by rw [hc, hsome])) (by omega), hchoose]

end Selector

/-! Kind 3: SYNC_IN. -/

section Arming
variable {s : State} {m : Mach} {c : Cmd} {tk : Ticket}

theorem rampOn_reserve (a : Nat) : rampOn (reserve c m) a = rampOn m a := by simp only [rampOn, drives, ramp, reserve_clk]

/-- Arming SYNC_IN, by the mask that the register then shows. -/
theorem refSync_arms (h26 : zeroAt c 26 2 = true) (h32 : zeroAt c 32 4 = true) (h40 : zeroAt c 40 24 = true) (hpol : u8 c 25 ≤ 1)
    (hmask : u32 c 28 < 2 ^ 24) (hramp : (bitsOf 24 (u32 c 28)).any (rampOn m) = false) :
    ∃ v, refSync c tk m = okM (wr F.CLK_SYNC_STAT_ARMED (b2n (u32 c 28 != 0)) (wr F.CLK_SYNC_STAT_POL (u8 c 25)
      (wr F.CLK_SYNC_MASK_MASK v (setClk { m.clk with syncOfs := s32 c 36, syncArm := u32 c 28 } m)))) := by
  unfold refSync
  extract_lets mask
  rw [if_neg (by simp [h26, h32, h40, mask]; omega), if_neg (by simp only [mask, hramp]; decide)]
  exact ⟨_, rfl⟩

/-- Where the arming of SYNC_IN writes registers. -/
def armKeys : List Nat := [fkey F.CLK_SYNC_STAT_ARMED 0 0, fkey F.CLK_SYNC_STAT_POL 0 0, fkey F.CLK_SYNC_MASK_MASK 0 0]

theorem refConfig_arms_answers (ha : Awake s) (hp : Plain 0x0601 c s.m) (hk : u8 c 24 = 3) (hpol : u8 c 25 ≤ 1) (hmask : u32 c 28 < 2 ^ 24)
    (hramp : (bitsOf 24 (u32 c 28)).any (rampOn s.m) = false) :
    Answers (.refConfig c) s (fun n => n.clk.syncArm = u32 c 28 ∧ n.clk.syncOfs = s32 c 36 ∧
      rd n F.CLK_SYNC_STAT_ARMED = b2n (u32 c 28 != 0) ∧ rd n F.CLK_SYNC_STAT_POL = u8 c 25 ∧ Completed 0x0601 stDone c s.m n) := by
  have hramp' : (bitsOf 24 (u32 c 28)).any (rampOn (reserve c s.m)) = false := by
    rw [funext (rampOn_reserve (m := s.m) (c := c)), hramp]
  obtain ⟨v, hv⟩ := refSync_arms (m := reserve c s.m) (tk := nowTicket 0x0601 c s.m) (zeroAt_of_plain hp hk (r := (26, 2)) (by decide))
    (zeroAt_of_plain hp hk (r := (32, 4)) (by decide)) (zeroAt_of_plain hp hk (r := (40, 24)) (by decide)) hpol hmask hramp'
  have hn : refConfig c (nowTicket 0x0601 c s.m) (reserve c s.m) = _ := (by simp only [refConfig, hk] : _ = refSync c _ _).trans hv
  have hkept : ∀ (x : Clk) (n : Mach), Kept armKeys n (wr F.CLK_SYNC_STAT_ARMED (b2n (u32 c 28 != 0)) (wr F.CLK_SYNC_STAT_POL (u8 c 25)
      (wr F.CLK_SYNC_MASK_MASK v (setClk x n)))) := fun x n =>
    (((kept_setClk ..).trans (kept_wr _ _ (by decide))).trans (kept_wr _ _ (by decide))).trans (kept_wr _ _ (by decide))
  have hb : b2n (u32 c 28 != 0) < 2 ^ 1 := by
    unfold b2n
    split <;> decide
  refine refConfig_answers ha hp ⟨_, hn, (hkept _ _).completable (by decide) (by simp), fun q hq hc hdone => ?_⟩
  refine ⟨?_, ?_, ?_, ?_, hdone⟩
  · rw [selectRef_clk (·.syncArm) (fun _ _ _ _ _ _ => rfl), hc]
    rfl
  · rw [selectRef_clk (·.syncOfs) (fun _ _ _ _ _ _ => rfl), hc]
    rfl
  · rw [(kept_selectRef q).rd (by decide), rd_congr _ _ _ hq, rd_wr_self]
    exact Nat.mod_eq_of_lt hb
  · rw [(kept_selectRef q).rd (by decide), rd_congr _ _ _ hq, rd_wr_ne _ _ _ _ (by decide), rd_wr_self]
    exact Nat.mod_eq_of_lt (show u8 c 25 < 2 ^ 1 by omega)

end Arming

/-! RAMP_LOAD. -/

section Ramps
variable {s : State} {m : Mach} {c : Cmd} {tk : Ticket}

/-- The engine that a RAMP_LOAD leaves. -/
def loadedRamp (c : Cmd) (m : Mach) : Ramp :=
  { output := some (u8 c 25), segs := (records 16 (u16 c 26) (bufBytes c)).map segOf, pos := 0,
    start := n2s 32 (rdi m F.CLK_RAMP_OFS_PPB (u8 c 24)) }

/-- Where a RAMP_LOAD writes registers. -/
def rampLoadKeys : List Nat := [discardKey, fkey F.CLK_RAMP_STAT_ACTIVE 0 0]

theorem rampLoad_loads (hk1 : 1 ≤ u8 c 24) (hk7 : u8 c 24 ≤ 7) (ha : u8 c 25 < 24) (hn1 : 1 ≤ u16 c 26) (hn16 : u16 c 26 ≤ 16)
    (hlen : bufLen c = 16 * u16 c 26) (hbuf : bufOk c false m = true) (hseg : (records 16 (u16 c 26) (bufBytes c)).all segOk = true)
    (hon : (aligner m (u8 c 25)).st = .on) (hfree : (aligner m (u8 c 25)).mode = 2)
    (hdrive : ∀ j, j < 8 → j ≠ u8 c 24 → (ramp m j).output ≠ some (u8 c 25)) :
    ∃ n, rampLoad c tk m = okM n ∧ Completable m n ∧ ramp n (u8 c 24) = loadedRamp c m := by
  have hother : (List.range 8).any (fun j => j != u8 c 24 && drives m j (u8 c 25)) = false := by
    simp only [List.any_eq_false, List.mem_range, Bool.and_eq_true, bne_iff_ne, drives, beq_iff_eq, not_and]
    exact hdrive
  unfold rampLoad
  extract_lets k a n recs r ofs m1
  rw [if_neg (by simp [k, a, n, recs, hk1, hk7, ha, hn1, hn16, hlen, hbuf, hseg]),
    if_neg (by simp only [a, k, hon, hfree, hother]; decide)]
  have hkept : Kept rampLoadKeys m m1 := kept_onlyIf _ (kept_raise _ _ _ _ (by decide))
  have hpace : pace m1 = pace m := onlyIf_keep pace _ _ _ (raise_pace _ _ _)
  refine ⟨_, rfl, Kept.completable (.trans (.trans hkept (kept_setClk ..)) (kept_wr _ _ (by decide : _ ∈ rampLoadKeys))) (by decide) ?_,
    ramp_setRamp_self _⟩
  rw [orReg_pace, setRamp_pace, hpace]

theorem rampLoad_answers (ha : Awake s) (hp : Plain 0x0602 c s.m) (hk1 : 1 ≤ u8 c 24) (hk7 : u8 c 24 ≤ 7) (h24 : u8 c 25 < 24)
    (hn1 : 1 ≤ u16 c 26) (hn16 : u16 c 26 ≤ 16) (hlen : bufLen c = 16 * u16 c 26) (hbuf : bufOk c false s.m = true)
    (hseg : (records 16 (u16 c 26) (bufBytes c)).all segOk = true) (hon : (aligner s.m (u8 c 25)).st = .on)
    (hfree : (aligner s.m (u8 c 25)).mode = 2) (hdrive : ∀ j, j < 8 → j ≠ u8 c 24 → (ramp s.m j).output ≠ some (u8 c 25)) :
    Answers (.rampLoad c) s (fun n => (ramp n (u8 c 24)).output = some (u8 c 25) ∧ (ramp n (u8 c 24)).pos = 0 ∧
      (ramp n (u8 c 24)).segs = (records 16 (u16 c 26) (bufBytes c)).map segOf ∧
      (ramp n (u8 c 24)).start = n2s 32 (rdi s.m F.CLK_RAMP_OFS_PPB (u8 c 24)) ∧ Completed 0x0602 stDone c s.m n) := by
  have hals : ∀ a, aligner (reserve c s.m) a = aligner s.m a := fun _ => aligner_congr (by rw [reserve_clk])
  have hramps : ∀ k, ramp (reserve c s.m) k = ramp s.m k := fun _ => ramp_congr (by rw [reserve_clk])
  obtain ⟨n, hn, hkept, hr⟩ := rampLoad_loads (m := reserve c s.m) (tk := nowTicket 0x0602 c s.m) hk1 hk7 h24 hn1 hn16 hlen
    ((bufOk_reserve false).trans hbuf) hseg (by rw [hals, hon]) (by rw [hals, hfree]) (fun j => hramps j ▸ hdrive j)
  obtain ⟨-, hclk, hdone⟩ := plain_done hp (by decide) hn hkept
  refine answers_mach _ s (hostRow 0x0602 rampLoad c) _ rfl ha ?_
  rw [ramp_congr (congrArg Clk.ramps hclk), hr, loadedRamp, rdi_congr _ _ _ _ (reserve_regs c s.m)]
  exact ⟨rfl, rfl, rfl, rfl, hdone⟩

end Ramps

/-- Settles O26, one lemma for each clause. -/
theorem clockCommands : Obligations.ClockCommands := fun _ _ ha =>
  ⟨refConfig_enables_answers ha, refConfig_disables_answers ha, refConfig_tolerance_answers ha, refConfig_starts_answers ha,
   refConfig_stops_answers ha, refConfig_selects_answers ha, refConfig_arms_answers ha, rampLoad_answers ha⟩

end Sys2Proof.Machine
end

section
/-! The interval counter (05 R149-R151): the edges that are counted, the stamps that enter a capture FIFO, and the timebase. -/
namespace Sys2Proof.Machine

/-- A stamp of a channel has entered its capture FIFO, with the channel's next sequence number (R151). -/
def StampEnters (coarse fine ch : Nat) (m n : Mach) : Prop :=
  (fifo n (0x0700 + ch)).captured = (fifo m (0x0700 + ch)).captured + 1 ∧
  (∃ flags epoch, (fifo n (0x0700 + ch)).entries = (fifo m (0x0700 + ch)).entries ++
    [{ deal := m.deal, code := 0x0701,
       pay := [(1, ch), (1, flags), (1, epoch), (1, 0), (8, ticStamp coarse fine), (4, mget 0 m.tic.seq ch)] }]) ∧
  mget 0 n.tic.seq ch = (mget 0 m.tic.seq ch + 1) % 2 ^ 32

section Stamps
variable {s : State} {m : Mach} {ch coarse fine k code : Nat} {pay : Pay} {falling : Bool}

@[simp] theorem fifo_setFifo_self (x : Fifo) : fifo (setFifo k x m) k = x := mget_mset_self ..

/-- A capture FIFO with room takes an entry at its end. -/
theorem fifoPush_room (h : (fifo m k).entries.length < 64) : fifoPush k code pay m =
    setFifo k { fifo m k with entries := (fifo m k).entries ++ [{ deal := m.deal, code := code, pay := pay }],
                              captured := (fifo m k).captured + 1, run := 0 } m := if_pos h

theorem fifoPush_tic : (fifoPush k code pay m).tic = m.tic := by
  simp only [fifoPush]
  split
  · rfl
  · exact onlyIf_keep (·.tic) _ _ _ rfl

/-- A stamp is an entry for its channel's capture FIFO, pushed once the channel's sequence number has moved on. -/
theorem ticCapture_pushes : ∃ flags epoch q, ticCapture ch coarse fine falling m =
    fifoPush (0x0700 + ch) 0x0701 [(1, ch), (1, flags), (1, epoch), (1, 0), (8, ticStamp coarse fine), (4, mget 0 m.tic.seq ch)] q ∧
      q.hif = m.hif ∧ q.deal = m.deal ∧ q.tic.seq = mset 0 ch ((mget 0 m.tic.seq ch + 1) % 2 ^ 32) m.tic.seq ∧ q.tic.edges = m.tic.edges :=
  ⟨_, _, _, rfl, rfl, rfl, rfl, rfl⟩

theorem ticCapture_enters (h : (fifo m (0x0700 + ch)).entries.length < 64) :
    StampEnters coarse fine ch m (ticCapture ch coarse fine falling m) := by
  obtain ⟨flags, epoch, q, heq, hhif, hdeal, hseq, -⟩ := ticCapture_pushes (m := m) (ch := ch) (coarse := coarse) (fine := fine)
    (falling := falling)
  have hfifo : fifo q (0x0700 + ch) = fifo m (0x0700 + ch) := by rw [fifo, fifo, hhif]
  have htic : mget 0 (ticCapture ch coarse fine falling m).tic.seq ch = (mget 0 m.tic.seq ch + 1) % 2 ^ 32 := by
    rw [heq, fifoPush_tic, hseq, mget_mset_self]
  rw [← hfifo] at h
  rw [heq, fifoPush_room h, hfifo, hdeal] at *
  exact ⟨by rw [fifo_setFifo_self], ⟨flags, epoch, by rw [fifo_setFifo_self]⟩, htic⟩

theorem ticCapture_edges : (ticCapture ch coarse fine falling m).tic.edges = m.tic.edges := by
  obtain ⟨_, _, q, heq, -, -, -, hedges⟩ := ticCapture_pushes (m := m) (ch := ch) (coarse := coarse) (fine := fine) (falling := falling)
  rw [heq, fifoPush_tic, hedges]

/-- An edge taken: the channel's filter runs from it, and the channel has counted n edges since its last stamp. -/
def edgeTaken (ch coarse fine n : Nat) (m : Mach) : Mach :=
  setTic { m.tic with lastAt := mput ch (coarse * 64 + fine) m.tic.lastAt, edges := mset 0 ch n m.tic.edges } m

/-- An edge past the filter is counted, and stamped where it completes DIV + 1 (R150). -/
theorem ticEdge_taken (ht : ticTakes m ch falling = true) (hf : ∀ t, mfind m.tic.lastAt ch = some t → t + 512 ≤ coarse * 64 + fine) :
    ticEdge ch coarse fine falling m = if rdi m F.TIC_CH_DIV ch ≤ mget 0 m.tic.edges ch
      then ticCapture ch coarse fine falling (edgeTaken ch coarse fine 0 m)
      else edgeTaken ch coarse fine (mget 0 m.tic.edges ch + 1) m := by
  have hpast : (mfind m.tic.lastAt ch).any (fun t => decide (coarse * 64 + fine < t + 512)) = false := by
    cases hl : mfind m.tic.lastAt ch with
    | none => rfl
    | some t => simpa using hf t hl
  simp only [ticEdge, ht, hpast]
  by_cases hd : rdi m F.TIC_CH_DIV ch ≤ mget 0 m.tic.edges ch <;> simp [edgeTaken, hd]

theorem ticEdge_counts_answers (ha : Awake s) (ht : ticTakes s.m ch falling = true)
    (hf : ∀ t, mfind s.m.tic.lastAt ch = some t → t + 512 ≤ coarse * 64 + fine) (hd : mget 0 s.m.tic.edges ch < rdi s.m F.TIC_CH_DIV ch) :
    Answers (.ticEdgeCapture ch coarse fine falling) s
      (fun n => mget 0 n.tic.edges ch = mget 0 s.m.tic.edges ch + 1 ∧ n.hif = s.m.hif) := by
  refine answers_mach _ s (ticEdge ch coarse fine falling) _ rfl ha ?_
  rw [ticEdge_taken ht hf, if_neg (Nat.not_le.mpr hd)]
  exact ⟨by simp [edgeTaken], rfl⟩

theorem ticEdge_stamps_answers (ha : Awake s) (ht : ticTakes s.m ch falling = true)
    (hf : ∀ t, mfind s.m.tic.lastAt ch = some t → t + 512 ≤ coarse * 64 + fine) (hd : rdi s.m F.TIC_CH_DIV ch ≤ mget 0 s.m.tic.edges ch)
    (hroom : (fifo s.m (0x0700 + ch)).entries.length < 64) :
    Answers (.ticEdgeCapture ch coarse fine falling) s
      (fun n => StampEnters coarse fine ch s.m n ∧ mget 0 n.tic.edges ch = 0) := by
  refine answers_mach _ s (ticEdge ch coarse fine falling) _ rfl ha ?_
  rw [ticEdge_taken ht hf, if_pos hd]
  exact ⟨ticCapture_enters (m := edgeTaken ch coarse fine 0 s.m) hroom, by simp [ticCapture_edges, edgeTaken]⟩

theorem ticAnchor_answers (ha : Awake s) (he : flag s.m F.TIC_CTRL_ENABLE = true) (h : flag s.m F.TIC_CTRL_ANCHOR = true)
    (hroom : (fifo s.m 0x0708).entries.length < 64) :
    Answers (.ticAnchor coarse fine) s (fun n => StampEnters coarse fine 8 s.m n) := by
  refine answers_mach _ s (ticAnchor coarse fine) _ rfl ha ?_
  have hanchor : ticAnchor coarse fine s.m = ticCapture 8 coarse fine false s.m := by simp [ticAnchor, he, h]
  rw [hanchor]
  exact ticCapture_enters hroom

end Stamps

/-! The timebase. -/

section Timebase
variable {s : State} {m : Mach} {f : Fld} {cause coarse : Nat}

theorem rd_ticEvent (h : fkey f 0 0 ≠ discardKey) : rd (ticEvent cause coarse m) f = rd m f := rd_raise _ _ _ _ _ h

/-- The counter clock held at its last frequency (R149). -/
def timebaseHeld (coarse : Nat) (m : Mach) : Mach :=
  wr F.TIC_STATUS_EXT_PRESENT 0 (wr F.TIC_STATUS_TB_LOCKED 0 (wr F.TIC_STATUS_TB_HOLD 1 (wr F.TIC_FLAGS_TB_LOST 1
    (setTic { m.tic with holdSince := m.ticks, coarse := coarse } m))))

/-- The edges of an external timebase have returned. -/
def timebasePresent (coarse : Nat) (m : Mach) : Mach := wr F.TIC_STATUS_EXT_PRESENT 1 (setTic { m.tic with coarse := coarse } m)

theorem ticTimebaseLost_answers (ha : Awake s) (he : flag s.m F.TIC_CTRL_ENABLE = true) (hx : s.m.tic.tbExt = true)
    (hh : flag s.m F.TIC_STATUS_TB_HOLD = false) :
    Answers (.ticTimebaseLost coarse) s (fun n => rd n F.TIC_STATUS_TB_HOLD = 1 ∧ rd n F.TIC_STATUS_TB_LOCKED = 0 ∧
      rd n F.TIC_FLAGS_TB_LOST = 1 ∧ Reported 0x07 0x0702 s.m n) := by
  have heq : ticLost coarse s.m = ticEvent 1 coarse (timebaseHeld coarse s.m) := by simp [ticLost, he, hx, hh, timebaseHeld]
  have hkept : EventsKept s.m (timebaseHeld coarse s.m) :=
    ⟨by simp (disch := decide) only [running, timebaseHeld, rd_wr_ne]; rfl, rfl, [], rfl⟩
  refine answers_mach _ s (ticLost coarse) _ rfl ha ?_
  rw [heq]
  refine ⟨?_, ?_, ?_, hkept.reported⟩ <;>
    simp (disch := decide) only [rd_ticEvent, timebaseHeld, rd_wr_ne, rd_wr_self] <;> rfl

theorem ticTimebaseRelock_answers (ha : Awake s) (he : flag s.m F.TIC_CTRL_ENABLE = true) (hx : s.m.tic.tbExt = true)
    (hl : flag s.m F.TIC_STATUS_TB_LOCKED = false ∨ flag s.m F.TIC_STATUS_EXT_PRESENT = false) :
    Answers (.ticTimebaseRelock coarse) s (fun n => rd n F.TIC_STATUS_TB_HOLD = 0 ∧ rd n F.TIC_STATUS_TB_LOCKED = 1 ∧
      rd n F.TIC_STATUS_EXT_PRESENT = 1 ∧ Reported 0x07 0x0702 s.m n) := by
  have hopen : (flag s.m F.TIC_STATUS_TB_LOCKED && flag s.m F.TIC_STATUS_EXT_PRESENT) = false := Bool.and_eq_false_iff.mpr hl
  have heq : ticRelock coarse s.m = wr F.TIC_STATUS_TB_HOLD 0 (ticEvent 3 coarse (wr F.TIC_STATUS_TB_LOCKED 1
      (ticEvent 2 coarse (timebasePresent coarse s.m)))) := by simp [ticRelock, he, hx, hopen, timebasePresent]
  have hkept : EventsKept s.m (timebasePresent coarse s.m) :=
    ⟨by simp (disch := decide) only [running, timebasePresent, rd_wr_ne]; rfl, rfl, [], rfl⟩
  refine answers_mach _ s (ticRelock coarse) _ rfl ha ?_
  rw [heq]
  refine ⟨?_, ?_, ?_, reported_then _ _ _ _ _ hkept.reported (raise_out ..)⟩ <;>
    simp (disch := decide) only [rd_ticEvent, timebasePresent, rd_wr_ne, rd_wr_self] <;> rfl

end Timebase

/-- Settles O31, one lemma for each command and outcome. -/
theorem intervalCounterStamps : Obligations.IntervalCounterStamps := fun _ _ _ ha he =>
  ⟨fun _ _ _ ht hf => ⟨ticEdge_counts_answers ha ht hf, ticEdge_stamps_answers ha ht hf⟩, ticAnchor_answers ha he,
   ticTimebaseLost_answers ha he, ticTimebaseRelock_answers ha he⟩

end Sys2Proof.Machine
end

section
/-! What the shared operations of the time unit leave of the machine (05 R131-R142): the places of BAR0 that each may write, and the parts of the
unit that each keeps. -/
namespace Sys2Proof.Machine

/-- Where the loss of lock writes registers. -/
def unlockKeys : List Nat := [discardKey, fkey F.TIM_STATE_LOCKED 0 0, fkey F.TIM_FLAGS_UNLOCKED 0 0]

/-- Where the loss of the last direction, or of the slave port, writes registers. -/
def timeLostKeys : List Nat := fkey F.TIM_STATE_HOLD 0 0 :: (unlockKeys ++ lossKeys 4)

/-- Where an insertion that ends in JOINED writes registers. -/
def joinKeys : List Nat := [discardKey, fkey F.RING_STATE_INS 0 0, fkey F.SYS_BOOT_STAGE 0 0, fkey F.SYS_BOOT_MS_JOINED 0 0]

section TimeKept
variable {α β : Type} {ks : List Nat} {m n : Mach} {p q cause : Nat}

theorem kept_setTim (x : Tim) (m : Mach) : Kept ks m (setTim x m) := .of_eq rfl rfl rfl rfl
theorem kept_setDir (p : Nat) (x : TimeDir) (m : Mach) : Kept ks m (setDir p x m) := kept_setTim ..
theorem kept_setRing (x : RingSt) (m : Mach) : Kept ks m (setRing x m) := .of_eq rfl rfl rfl rfl
theorem kept_emit (o : Out) (m : Mach) : Kept ks m (emit o m) := ⟨fun _ _ _ => rfl, rfl, rfl, [o], rfl⟩

theorem kept_orReg {f : Fld} (v : Nat) (m : Mach) (hf : fkey f 0 0 ∈ ks) : Kept ks m (orReg f v m) := kept_wr _ m hf

theorem kept_candLost (i cause : Nat) (m : Mach) : Kept (lossKeys i) m (candLost i cause m) := by
  unfold candLost
  split
  · exact (kept_wri _ _ _ fun _ => by simp [lossKeys]).trans <| (kept_wri _ _ _ fun _ => by simp [lossKeys]).trans <|
      (kept_disqualify _).mono fun _ hk => by simp [lossKeys, hk]
  · exact .refl m

theorem kept_unlock (cause : Nat) (m : Mach) : Kept unlockKeys m (unlock cause m) :=
  (kept_setTim ..).trans <| (kept_wr _ _ (by decide)).trans <| (kept_wr _ _ (by decide)).trans <| kept_raise _ _ _ _ (by decide)

theorem kept_timeLost (cause : Nat) (m : Mach) : Kept timeLostKeys m (timeLost cause m) := by
  unfold timeLost
  split
  · exact ((kept_unlock ..).mono (by decide)).trans <| (kept_wr _ _ (by decide)).trans <| (kept_candLost ..).mono (by decide)
  · exact .refl m

/-! The state of the time unit. -/

theorem disqualify_tim (i cause k : Nat) (m : Mach) : (disqualify i cause k m).tim = m.tim := onlyIf_keep (·.tim) _ _ _ rfl

theorem candLost_tim (i cause : Nat) (m : Mach) : (candLost i cause m).tim = m.tim := by
  unfold candLost
  split
  · exact disqualify_tim ..
  · rfl

/-- The loss of time restarts the run of deals within the lock window, and leaves the rest of the unit. -/
theorem timeLost_tim (g : Tim → β) (hg : ∀ x k, g { x with lockRun := k } = g x) (cause : Nat) (m : Mach) :
    g (timeLost cause m).tim = g m.tim := by
  unfold timeLost
  split
  · rw [candLost_tim]
    exact hg m.tim 0
  · rfl

/-- A unit that has never locked has no time to lose. -/
theorem timeLost_never (h : flag m F.TIM_STATE_EVER_LOCKED = false) : timeLost cause m = m := by simp [timeLost, h]

theorem timeLost_holds (he : flag m F.TIM_STATE_EVER_LOCKED = true) (hh : flag m F.TIM_STATE_HOLD = false)
    (hs : flag m F.TIM_STATE_SOURCE = false) : rd (timeLost cause m) F.TIM_STATE_HOLD = 1 ∧ rd (timeLost cause m) F.TIM_STATE_LOCKED = 0 ∧
      Reported 0x04 0x0402 m (timeLost cause m) := by
  have heq : timeLost cause m = candLost 4 5 (wr F.TIM_STATE_HOLD 1 (unlock cause m)) := by simp [timeLost, he, hh, hs]
  have hbefore : EventsKept m (wr F.TIM_STATE_LOCKED 0 (wr F.TIM_FLAGS_UNLOCKED 1 (setTim { m.tim with lockRun := 0 } m))) :=
    Kept.events (ks := unlockKeys) ((kept_setTim ..).trans <| (kept_wr _ _ (by decide)).trans (kept_wr _ _ (by decide))) (by decide)
  have hunlock : Reported 0x04 0x0402 m (unlock cause m) := hbefore.reported
  have hlost : ∀ k, Kept (lossKeys 4) k (candLost 4 5 k) := kept_candLost 4 5
  rw [heq]
  refine ⟨?_, ?_, reported_then _ _ _ _ _ hunlock (hlost _).out⟩
  · rw [(hlost _).rd (by decide), rd_wr_self]
    rfl
  · rw [(hlost _).rd (by decide), rd_wr_ne _ _ _ _ (by decide), unlock, rd_raise _ _ _ _ _ (by decide), rd_wr_self]
    rfl

/-! Directions. -/

@[simp] theorem timeDir_setDir_self (x : TimeDir) : timeDir (setDir p x m) p = x := mget_mset_self ..

theorem timeDir_setDir_ne (x : TimeDir) (h : q ≠ p) : timeDir (setDir p x m) q = timeDir m q := mget_mset_ne _ _ _ _ _ h

theorem timeDir_congr (h : n.tim.dirs = m.tim.dirs) : timeDir n p = timeDir m p := by rw [timeDir, timeDir, h]

theorem timeDir_timeLost : timeDir (timeLost cause m) p = timeDir m p := timeDir_congr (timeLost_tim (·.dirs) (fun _ _ => rfl) _ _)

theorem kept_showDir (p b : Nat) (m : Mach) (hA : fkey F.TIM_STATE_PATH_A 0 0 ∈ ks) (hB : fkey F.TIM_STATE_PATH_B 0 0 ∈ ks) :
    Kept ks m (showDir p b m) := by
  unfold showDir
  split
  · exact kept_wr _ _ hA
  · split
    · exact kept_wr _ _ hB
    · exact .refl m

theorem showDir_tim (p b : Nat) (m : Mach) : (showDir p b m).tim = m.tim := by
  unfold showDir
  split
  · rfl
  · split <;> rfl

/-! JOINED, which a locked device may enter (06 Table 6.7). -/

theorem kept_setIns (new cause : Nat) (m : Mach) : Kept joinKeys m (setIns new cause m) :=
  (kept_setRing ..).trans <| (kept_wr _ _ (by decide)).trans <| kept_raise _ _ _ _ (by decide)

theorem kept_sendTrio (seat op : Nat) (pay : Pay) (m : Mach) : Kept ks m (sendTrio seat op pay m) :=
  ⟨fun _ _ _ => rfl, rfl, rfl, _, by simp only [sendTrio, tunnelFrames, emit]; rw [← List.append_cons]⟩

theorem kept_joinReportSend (m : Mach) : Kept ks m (joinReportSend m) := by
  have hdom : ∀ (x : Dom) (n : Mach), Kept ks n { n with dom := x } := fun _ _ => .of_eq rfl rfl rfl rfl
  simp only [joinReportSend]
  split
  · exact hdom ..
  · split
    · exact (hdom ..).trans <| (hdom ..).trans <| kept_forEach (fun _ _ _ => (kept_sendTrio ..).trans (kept_sendTrio ..)) _
    · exact (hdom ..).trans (kept_sendTrio ..)

theorem kept_tryJoin (m : Mach) : Kept joinKeys m (tryJoin m) := by
  unfold tryJoin
  split
  · exact (kept_setIns ..).trans <| (kept_onlyIf _ ((kept_wr _ _ (by decide)).trans (kept_wr _ _ (by decide)))).trans <|
      kept_joinReportSend _
  · exact .refl m

end TimeKept

end Sys2Proof.Machine
end

section
/-! The first step, lock, and the slew of a refused step (05 R135-R137). -/
namespace Sys2Proof.Machine

/-! The one step. -/

section FirstStep
variable {s : State} {m : Mach}

theorem instantMoved_keep {β : Type} (g : Mach → β) (hg : ∀ x n, g (setClk x n) = g n) (x : Int) (m : Mach) : g (instantMoved x m) = g m :=
  forEach_keep g _ _ (fun _ n => onlyIf_keep g _ _ n (hg _ n)) m

/-- The estimate that the averaged theta makes of the source's time, in 1/65,536 ns. -/
def estimate (m : Mach) : Nat := ((m.tim.ns * 65536 + m.tim.frac : Nat) - ofPs (thetaAvg m) : Int).toNat

/-- The time unit set to the estimate (R126, R135). -/
def steppedTo (m : Mach) : Mach :=
  setTim { m.tim with stepped := true, stepNs := -nearDiv (thetaAvg m) 1000, ns := estimate m / 65536, frac := estimate m % 65536,
                      next := some ((estimate m + 125000 * 65536 - 1) / (125000 * 65536)), avg := [], lockRun := 0 }
    (setClk { m.clk with bin4 := none } m)

theorem timeFirstStep_steps (h0 : m.tim.stepped = false) (he : flag m F.TIM_STATE_EVER_LOCKED = false)
    (hs : flag m F.TIM_STATE_SOURCE = false) (hf : avgFull m = true) (ha : m.tim.avg ≠ []) :
    timeFirstStep m = instantMoved (thetaAvg m) (steppedTo m) := if_pos (by simp [h0, he, hs, hf, ha])

theorem timeFirstStep_answers (ha : Awake s) (h0 : s.m.tim.stepped = false) (he : flag s.m F.TIM_STATE_EVER_LOCKED = false)
    (hs : flag s.m F.TIM_STATE_SOURCE = false) (hf : avgFull s.m = true) (hne : s.m.tim.avg ≠ []) :
    Answers .timeFirstStep s (fun n => n.tim.stepped = true ∧ n.tim.ns = estimate s.m / 65536 ∧ n.tim.frac = estimate s.m % 65536 ∧
      n.tim.next = some ((estimate s.m + 125000 * 65536 - 1) / (125000 * 65536)) ∧ n.deal = s.m.deal ∧ n.regs = s.m.regs) := by
  have hkeep : ∀ {β : Type} (g : Mach → β), (∀ x n, g (setClk x n) = g n) → g (timeFirstStep s.m) = g (steppedTo s.m) := fun g hg => by
    rw [timeFirstStep_steps h0 he hs hf hne, instantMoved_keep g hg]
  refine answers_mach _ s timeFirstStep _ rfl ha ?_
  rw [hkeep (·.tim) fun _ _ => rfl, hkeep (·.deal) fun _ _ => rfl, hkeep (·.regs) fun _ _ => rfl]
  exact ⟨rfl, rfl, rfl, rfl, rfl, rfl⟩

end FirstStep

/-! Lock. -/

section Lock
variable {s : State} {m : Mach} {kind : Nat} {step : Int}

/-- The bits of a locked time unit. -/
def lockShown (m : Mach) : Mach := wr F.TIM_STATE_LOCKED 1 (wr F.TIM_STATE_EVER_LOCKED 1 (wr F.TIM_STATE_HOLD 0 m))

/-- Domain time present as candidate 4. -/
def candidatePresent (m : Mach) : Mach := wri F.CLK_REF_STAT_ENABLED 4 1 (wri F.CLK_REF_STAT_PRESENT 4 1 m)

/-- Where what follows the event of a lock writes registers. -/
def lockedKeys : List Nat := fkey F.CLK_REF_STAT_ENABLED 4 0 :: fkey F.CLK_REF_STAT_PRESENT 4 0 :: joinKeys

/-- The machine in which a lock is declared: at the first one the open talkers start. -/
def lockBegun (m : Mach) : Mach :=
  setTim { (onlyIf (!flag m F.TIM_STATE_EVER_LOCKED) talkersStart m).tim with relock := false }
    (onlyIf (!flag m F.TIM_STATE_EVER_LOCKED) talkersStart m)

theorem eventsKept_lockBegun (m : Mach) : EventsKept m (lockBegun m) := (eventsKept_onlyIf _ (.of_eq rfl rfl rfl)).trans (.of_eq rfl rfl rfl)

/-- A lock shows its bits, is reported, and then makes domain time a candidate and lets the device join (R135). -/
theorem declareLock_reports : ∃ pay, declareLock kind step m =
    tryJoin (onlyIf (exists4 m) candidatePresent (raise 0x04 0x0401 pay (lockShown (lockBegun m)))) := ⟨_, rfl⟩

theorem declareLock_locks (kind : Nat) (step : Int) (m : Mach) : rd (declareLock kind step m) F.TIM_STATE_LOCKED = 1 ∧
    rd (declareLock kind step m) F.TIM_STATE_EVER_LOCKED = 1 ∧ rd (declareLock kind step m) F.TIM_STATE_HOLD = 0 ∧
    (exists4 m = true → rdi (declareLock kind step m) F.CLK_REF_STAT_PRESENT 4 = 1) ∧ Reported 0x04 0x0401 m (declareLock kind step m) := by
  obtain ⟨pay, heq⟩ := declareLock_reports (m := m) (kind := kind) (step := step)
  have hshown : EventsKept m (lockShown (lockBegun m)) :=
    (eventsKept_lockBegun m).trans ⟨by simp (disch := decide) only [running, lockShown, rd_wr_ne], rfl, [], rfl⟩
  have hafter : ∀ n, Kept lockedKeys n (tryJoin (onlyIf (exists4 m) candidatePresent n)) := fun n =>
    (kept_onlyIf _ ((kept_wri _ _ _ fun _ => by decide).trans (kept_wri _ _ _ fun _ => by decide))).trans ((kept_tryJoin _).mono (by decide))
  rw [heq]
  refine ⟨?_, ?_, ?_, fun hx => ?_, reported_then _ _ _ _ _ hshown.reported (hafter _).out⟩
  · rw [(hafter _).rd (by decide), rd_raise _ _ _ _ _ (by decide), lockShown, rd_wr_self]
    rfl
  · rw [(hafter _).rd (by decide), rd_raise _ _ _ _ _ (by decide), lockShown, rd_wr_ne _ _ _ _ (by decide), rd_wr_self]
    rfl
  · rw [(hafter _).rd (by decide), rd_raise _ _ _ _ _ (by decide), lockShown, rd_wr_ne _ _ _ _ (by decide), rd_wr_ne _ _ _ _ (by decide),
      rd_wr_self]
    rfl
  · rw [(kept_tryJoin _).rdi (by decide), hx, onlyIf_true, candidatePresent, rdi_wri_ne _ _ _ _ _ _ (by decide),
      rdi_wri_self _ _ _ _ (by decide)]
    rfl

theorem timeLock_answers (ha : Awake s) (h1 : s.m.tim.stepped = true) (hl : flag s.m F.TIM_STATE_LOCKED = false ∨ s.m.tim.relock = true)
    (hs : flag s.m F.TIM_STATE_SLEWING = false) (hj : s.m.tim.judge = false) (hh : flag s.m F.TIM_STATE_HOLD = false)
    (hr : su s.m F.TIM_LOCK_DEALS ≤ s.m.tim.lockRun) :
    Answers .timeLock s (fun n => rd n F.TIM_STATE_LOCKED = 1 ∧ rd n F.TIM_STATE_EVER_LOCKED = 1 ∧ rd n F.TIM_STATE_HOLD = 0 ∧
      (exists4 s.m = true → rdi n F.CLK_REF_STAT_PRESENT 4 = 1) ∧ Reported 0x04 0x0401 s.m n) := by
  have hdue : (!flag s.m F.TIM_STATE_LOCKED || s.m.tim.relock) = true := by simpa using hl
  have heq : ∃ kind step, timeLock s.m = declareLock kind step s.m :=
    ⟨_, _, if_pos (by simp only [h1, hdue, hs, hj, hh, hr, decide_true, Bool.not_false, Bool.and_self])⟩
  obtain ⟨kind, step, heq⟩ := heq
  refine answers_mach _ s timeLock _ rfl ha ?_
  rw [heq]
  exact declareLock_locks kind step s.m

end Lock

/-! The slew. -/

section Slew
variable {s : State} {m : Mach} {th : Int}

/-- Where the registers of a slew stand. -/
def showSlewKeys : List Nat := fkey F.TIM_SLEW_REM_NS 0 0 :: fkey F.TIM_STATE_OFFGRID 0 0 :: unlockKeys

/-- Where the start of a slew writes registers. -/
def slewKeys : List Nat := fkey F.TIM_STATE_SLEWING 0 0 :: fkey F.CLK_RAMP_STAT_ACTIVE 0 0 :: fkey F.CLK_RAMP_OFS_PPB 0 0 :: showSlewKeys

theorem kept_showSlew (m : Mach) : Kept showSlewKeys m (showSlew m) :=
  (kept_wr _ _ (by decide)).trans <| (kept_wr _ _ (by decide)).trans <| kept_onlyIf _ ((kept_unlock ..).mono (by decide))

theorem showSlew_tim {β : Type} (g : Tim → β) (hg : ∀ x k, g { x with lockRun := k } = g x) (m : Mach) : g (showSlew m).tim = g m.tim :=
  onlyIf_keep (fun n => g n.tim) _ _ _ (hg m.tim 0)

/-- A slew that engine 0 is given, before its registers show it (R136). -/
def slewLoaded (th : Int) (m : Mach) : Mach :=
  wri F.CLK_RAMP_OFS_PPB 0 (s2n 32 (if 0 < th then -(slewRate m th : Int) else slewRate m th)) (orReg F.CLK_RAMP_STAT_ACTIVE 1
    (wr F.TIM_STATE_SLEWING 1
      (setTim { m.tim with slewTotal := th, slewRem := th, slewDeals := 0, slewRate := slewRate m th, relock := false } m)))

theorem loadSlew_eq : loadSlew th m = showSlew (slewLoaded th m) := rfl

theorem kept_loadSlew (th : Int) (m : Mach) : Kept slewKeys m (loadSlew th m) :=
  ((kept_setTim ..).trans <| (kept_wr _ _ (by decide)).trans <| (kept_orReg _ _ (by decide)).trans <|
    kept_wri _ _ _ fun _ => by decide).trans ((kept_showSlew _).mono (by decide))

theorem rd_slewing_loadSlew : rd (loadSlew th m) F.TIM_STATE_SLEWING = 1 := by
  rw [loadSlew_eq, (kept_showSlew _).rd (by decide), slewLoaded, rd_wri_ne _ _ _ _ _ (by decide), rd_orReg_ne _ _ _ _ (by decide), rd_wr_self]
  rfl

/-- A slew moves no domain time; all of its offset is still to run. -/
theorem loadSlew_tim : (loadSlew th m).tim.slewRem = th ∧ (loadSlew th m).tim.ns = m.tim.ns ∧ (loadSlew th m).tim.frac = m.tim.frac :=
  ⟨showSlew_tim (·.slewRem) (fun _ _ => rfl) _, showSlew_tim (·.ns) (fun _ _ => rfl) _, showSlew_tim (·.frac) (fun _ _ => rfl) _⟩

/-- A step refused, before it is reported. -/
def refusalFlagged (m : Mach) : Mach := wr F.TIM_FLAGS_STEP_REFUSED 1 (setTim { m.tim with judge := false, slewAcc := 0 } m)

theorem stepRefused_answers (ha : Awake s) (hj : s.m.tim.judge = true) (he : flag s.m F.TIM_STATE_EVER_LOCKED = true) (hf : avgFull s.m = true)
    (hn : su s.m F.TIM_STEP_NS * 1000 < (thetaAvg s.m).natAbs) :
    Answers .stepRefused s (fun n => rd n F.TIM_STATE_SLEWING = 1 ∧ rd n F.TIM_FLAGS_STEP_REFUSED = 1 ∧ n.tim.slewRem = thetaAvg s.m ∧
      n.tim.ns = s.m.tim.ns ∧ n.tim.frac = s.m.tim.frac ∧ Reported 0x04 0x0403 s.m n) := by
  have heq : ∃ pay, stepRefused s.m = loadSlew (thetaAvg s.m) (raise 0x04 0x0403 pay (refusalFlagged s.m)) :=
    ⟨_, if_pos (by simp [hj, he, hf, hn])⟩
  obtain ⟨pay, heq⟩ := heq
  have hflagged : EventsKept s.m (refusalFlagged s.m) :=
    ⟨by simp (disch := decide) only [running, refusalFlagged, rd_wr_ne]; rfl, rfl, [], rfl⟩
  refine answers_mach _ s stepRefused _ rfl ha ?_
  rw [heq]
  obtain ⟨hrem, hns, hfrac⟩ := loadSlew_tim (th := thetaAvg s.m) (m := raise 0x04 0x0403 pay (refusalFlagged s.m))
  refine ⟨rd_slewing_loadSlew, ?_, hrem, hns, hfrac, reported_then _ _ _ _ _ hflagged.reported (kept_loadSlew ..).out⟩
  rw [(kept_loadSlew ..).rd (by decide), rd_raise _ _ _ _ _ (by decide), refusalFlagged, rd_wr_self]
  rfl

/-- A slew ended, before it is reported. -/
def slewEnded (m : Mach) : Mach :=
  wri F.CLK_RAMP_OFS_PPB 0 0 (wr F.CLK_RAMP_STAT_ACTIVE (clrBit (rd m F.CLK_RAMP_STAT_ACTIVE) 0)
    (wr F.TIM_STATE_SLEWING 0 (setTim { m.tim with relock := true, lockRun := 0 } m)))

theorem slewDone_answers (ha : Awake s) (hs : flag s.m F.TIM_STATE_SLEWING = true) (hr : s.m.tim.slewRem = 0) :
    Answers .slewDone s (fun n => rd n F.TIM_STATE_SLEWING = 0 ∧ rdi n F.CLK_RAMP_OFS_PPB 0 = 0 ∧ n.tim.relock = true ∧
      n.tim.ns = s.m.tim.ns ∧ Reported 0x04 0x0404 s.m n) := by
  have heq : ∃ pay, slewDone s.m = raise 0x04 0x0404 pay (slewEnded s.m) :=
    ⟨_, if_pos (by simp [hs, hr])⟩
  obtain ⟨pay, heq⟩ := heq
  have hended : EventsKept s.m (slewEnded s.m) :=
    ⟨by simp (disch := decide) only [running, slewEnded, rd_wri_ne, rd_wr_ne]; rfl, rfl, [], rfl⟩
  refine answers_mach _ s slewDone _ rfl ha ?_
  rw [heq]
  refine ⟨?_, ?_, rfl, rfl, hended.reported⟩
  · rw [rd_raise _ _ _ _ _ (by decide), slewEnded, rd_wri_ne _ _ _ _ _ (by decide), rd_wr_ne _ _ _ _ (by decide), rd_wr_self]
    rfl
  · rw [rdi_raise _ _ _ _ _ _ (by decide), slewEnded, rdi_wri_self _ _ _ _ (by decide)]
    rfl

end Slew

/-- Settles O28, one lemma for each command. -/
theorem timeLocks : Obligations.TimeLocks :=
  ⟨fun _ ha => ⟨timeFirstStep_answers ha, timeLock_answers ha⟩, fun _ ha => ⟨stepRefused_answers ha, slewDone_answers ha⟩⟩

end Sys2Proof.Machine
end

section
/-! The time unit is set (05 R127, R147, R153): the start of a source's time, the restart that a new TIM_CTRL.MODE brings, and PPS_OUT. -/
namespace Sys2Proof.Machine

section Cleared
variable {ks : List Nat} {k : Nat}

/-- A register store without a list of places. -/
def cleared (ks : List Nat) (t : SMap Nat) : SMap Nat := ks.foldl (fun t k => mdel k t) t

theorem mget_cleared_of_not_mem (h : k ∉ ks) (d : Nat) (t : SMap Nat) : mget d (cleared ks t) k = mget d t k := by
  induction ks generalizing t with
  | nil => rfl
  | cons j ks ih =>
    obtain ⟨hj, hks⟩ := not_or.mp (mt List.mem_cons.mpr h)
    refine (ih hks (mdel j t)).trans ?_
    rw [mget, mfind_mdel_ne _ _ _ hj, mget]

theorem mget_cleared_of_mem (h : k ∈ ks) (d : Nat) (t : SMap Nat) : mget d (cleared ks t) k = d := by
  induction ks generalizing t with
  | nil => cases h
  | cons j ks ih =>
    by_cases hk : k ∈ ks
    · exact ih hk _
    · obtain rfl := (List.mem_cons.mp h).resolve_right hk
      refine (mget_cleared_of_not_mem hk d _).trans ?_
      rw [mget, mfind_mdel_self, Option.getD_none]

/-- A field that is not repeated is cleared at its one place. -/
theorem foldl_rclear (l : List Fld) (h : ∀ f ∈ l, f.n1 = 1 ∧ f.n2 = 1) (t : SMap Nat) :
    l.foldl (fun t f => rclear f t) t = cleared (l.map (fkey · 0 0)) t := by
  induction l generalizing t with
  | nil => rfl
  | cons f l ih =>
    obtain ⟨h1, h2⟩ := h f List.mem_cons_self
    have hone : rclear f t = mdel (fkey f 0 0) t := by simp [rclear, h1, h2]
    rw [List.foldl_cons, hone]
    exact ih (fun g hg => h g (List.mem_cons_of_mem f hg)) _

end Cleared

/-! The restart. -/

/-- The fields that a restart clears. -/
def restartFlds : List Fld := [F.TIM_STATE_LOCKED, F.TIM_STATE_EVER_LOCKED, F.TIM_STATE_HOLD, F.TIM_STATE_SLEWING, F.TIM_STATE_OFFGRID,
  F.TIM_STATE_PATH_A, F.TIM_STATE_PATH_B, F.TIM_STATE_SOURCE, F.TIM_STATE_SOURCE_SEAT, F.TIM_OFFSET_PS, F.TIM_SLEW_REM_NS, F.TIM_GEN_GEN,
  F.CLK_STATE_SOURCE]

/-- The time unit's state and registers cleared; domain time runs on, and the launch queues and local ports stay. -/
def unitCleared (m : Mach) : Mach :=
  { m with regs := restartFlds.foldl (fun t f => rclear f t) m.regs
           tim := { ns := m.tim.ns, queues := m.tim.queues, ptp := m.tim.ptp } }

/-- The time unit as it restarts, before the local ports and the source role (R153). -/
def unitRestarted (m : Mach) : Mach :=
  wri F.CLK_RAMP_OFS_PPB 0 0 (wr F.CLK_RAMP_STAT_ACTIVE (clrBit (rd m F.CLK_RAMP_STAT_ACTIVE) 0) (unitCleared (dropCand4 m)))

/-- That unit, with its local ports listening. -/
def portsListen (m : Mach) : Mach :=
  forEach [0, 1] (fun l n => onlyIf (rdi n F.TIM_PTP_STAT_STATE l != 0) (ptpGo l 4) n) (unitRestarted m)

theorem timRestart_eq (m : Mach) : timRestart m =
    if rd (portsListen m) F.TIM_CTRL_MODE = 1 then
      sourceBegin (wr F.TIM_STATE_SOURCE_SEAT (ownSeat (portsListen m)) (portsListen m))
    else if rd (portsListen m) F.TIM_CTRL_MODE = 0 && member (portsListen m) && activeMgr (portsListen m) == ownSeat (portsListen m) then
      becomeSource (portsListen m)
    else portsListen m := rfl

/-- A time unit in a mode that has never locked or stepped and averages nothing yet. -/
structure Unlocked (mode : Nat) (n : Mach) : Prop where
  mode : rd n F.TIM_CTRL_MODE = mode
  locked : rd n F.TIM_STATE_LOCKED = 0
  ever : rd n F.TIM_STATE_EVER_LOCKED = 0
  stepped : n.tim.stepped = false
  avg : n.tim.avg = []

/-- Where the role of a source is shown. -/
def sourceKeys : List Nat := [fkey F.TIM_STATE_SOURCE 0 0, fkey F.CLK_STATE_SOURCE 0 0]

/-- Where the end of candidate 4 writes registers. -/
def dropKeys : List Nat := fkey F.CLK_REF_STAT_ENABLED 4 0 :: lossKeys 4

section Restart
variable {s : State} {m n : Mach} {ks : List Nat} {mode l new : Nat} {v : Word}

theorem Unlocked.of_kept (h : Unlocked mode m) (hk : Kept ks m n)
    (hf : ∀ k ∈ [fkey F.TIM_CTRL_MODE 0 0, fkey F.TIM_STATE_LOCKED 0 0, fkey F.TIM_STATE_EVER_LOCKED 0 0], k ∉ ks)
    (hs : n.tim.stepped = m.tim.stepped) (ha : n.tim.avg = m.tim.avg ∨ n.tim.avg = []) : Unlocked mode n := by
  simp only [List.forall_mem_cons] at hf
  obtain ⟨hmode, hlocked, hever, -⟩ := hf
  exact ⟨(hk.rd hmode).trans h.mode, (hk.rd hlocked).trans h.locked, (hk.rd hever).trans h.ever, hs.trans h.stepped,
    ha.elim (·.trans h.avg) id⟩

theorem Unlocked.never (h : Unlocked mode m) : flag m F.TIM_STATE_EVER_LOCKED = false := by rw [flag, h.ever]; rfl

theorem kept_dropCand4 (m : Mach) : Kept dropKeys m (dropCand4 m) :=
  ((kept_candLost ..).mono (by decide)).trans <| (kept_setClk ..).trans <| (kept_wri _ _ _ fun _ => by decide).trans (kept_wantSelect _)

theorem dropCand4_tim (m : Mach) : (dropCand4 m).tim = m.tim := candLost_tim 4 5 m

theorem rd_unitCleared (f : Fld) (m : Mach) :
    rd (unitCleared m) f = mget f.reset (cleared (restartFlds.map (fkey · 0 0)) m.regs) (fkey f 0 0) := by
  rw [rd, rgetij, unitCleared, foldl_rclear restartFlds (by decide)]

theorem rd_unitRestarted {f : Fld} (ho : fkey f 0 0 ≠ fkey F.CLK_RAMP_OFS_PPB 0 0) (ha : fkey f 0 0 ≠ fkey F.CLK_RAMP_STAT_ACTIVE 0 0)
    (m : Mach) : rd (unitRestarted m) f = rd (unitCleared (dropCand4 m)) f :=
  (rd_wri_ne _ _ _ _ _ ho).trans (rd_wr_ne _ _ _ _ ha)

theorem unitRestarted_unlocked (m : Mach) : Unlocked (rd m F.TIM_CTRL_MODE) (unitRestarted m) := by
  refine ⟨?_, ?_, ?_, rfl, rfl⟩ <;> rw [rd_unitRestarted (by decide) (by decide), rd_unitCleared]
  · exact (mget_cleared_of_not_mem (by decide) _ _).trans ((kept_dropCand4 m).rd (by decide))
  · exact mget_cleared_of_mem (by decide) _ _
  · exact mget_cleared_of_mem (by decide) _ _

/-- Where the event of a new state of local port l writes registers. -/
def ptpStateKeys (l : Nat) : List Nat := [fkey F.TIM_PTP_STAT_STATE l 0, discardKey]

theorem kept_ptpState (l new cls gm steps : Nat) (m : Mach) : Kept (ptpStateKeys l) m (ptpState l new cls gm steps m) :=
  (kept_wri _ _ _ fun _ => by simp [ptpStateKeys]).trans (kept_onlyIf _ (kept_raise _ _ _ _ (by simp [ptpStateKeys])))

theorem ptpState_tim (l new cls gm steps : Nat) (m : Mach) : (ptpState l new cls gm steps m).tim = m.tim := onlyIf_keep (·.tim) _ _ _ rfl

theorem ptpState_unlocked (hl : l < 2) (cls gm steps : Nat) (h : Unlocked mode m) : Unlocked mode (ptpState l new cls gm steps m) := by
  have htim := ptpState_tim l new cls gm steps m
  exact h.of_kept (kept_ptpState ..) ((by decide : ∀ l < 2, ∀ k ∈ [fkey F.TIM_CTRL_MODE 0 0, fkey F.TIM_STATE_LOCKED 0 0,
    fkey F.TIM_STATE_EVER_LOCKED 0 0], k ∉ ptpStateKeys l) l hl) (by rw [htim]) (.inl (by rw [htim]))

theorem setDir_unlocked (p : Nat) (x : TimeDir) (h : Unlocked mode m) : Unlocked mode (setDir p x m) :=
  h.of_kept (kept_setDir (ks := []) ..) (fun _ _ => List.not_mem_nil) rfl (.inl rfl)

theorem ptpGo_unlocked (hl : l < 2) (h : Unlocked mode m) : Unlocked mode (ptpGo l new m) := by
  simp only [ptpGo]
  split
  · rw [timeLost_never]
    · exact setDir_unlocked _ _ (ptpState_unlocked hl _ _ _ h)
    · exact (setDir_unlocked _ _ (ptpState_unlocked hl _ _ _ h)).never
  · exact ptpState_unlocked hl _ _ _ h

/-- What each round of a loop brings on from the last holds after the loop. -/
theorem forEach_invariant {α : Type} {P : Mach → Prop} {f : α → Mach → Mach} {l : List α} (h : ∀ a ∈ l, ∀ n, P n → P (f a n)) (hm : P m) :
    P (forEach l f m) := List.foldlRecOn (motive := P) l _ hm fun n hn a ha => h a ha n hn

theorem portsListen_unlocked (m : Mach) : Unlocked (rd m F.TIM_CTRL_MODE) (portsListen m) := by
  refine forEach_invariant (fun l hl n hn => ?_) (unitRestarted_unlocked m)
  unfold onlyIf
  split
  · exact ptpGo_unlocked ((by decide : ∀ l ∈ [0, 1], l < 2) l hl) hn
  · exact hn

/-! The role of a source. -/

theorem kept_sourceBegin (m : Mach) : Kept sourceKeys m (sourceBegin m) := by
  have hrole : Kept sourceKeys m (wr F.TIM_STATE_SOURCE 1 (wr F.CLK_STATE_SOURCE 1 m)) :=
    (kept_wr _ _ (by decide)).trans (kept_wr _ _ (by decide))
  simp only [sourceBegin]
  split
  · exact hrole.trans (kept_setTim ..)
  · exact hrole.trans (kept_setTim ..)

theorem sourceBegin_tim {β : Type} (g : Tim → β) (hg : ∀ x w d, g { x with todWait := w, starts := d } = g x) (m : Mach) :
    g (sourceBegin m).tim = g m.tim := by
  simp only [sourceBegin]
  split
  · exact hg m.tim true m.tim.starts
  · exact hg ..

theorem sourceBegin_source (m : Mach) : rd (sourceBegin m) F.TIM_STATE_SOURCE = 1 := by
  have hregs : (sourceBegin m).regs = (wr F.TIM_STATE_SOURCE 1 (wr F.CLK_STATE_SOURCE 1 m)).regs := by
    simp only [sourceBegin]
    split <;> rfl
  rw [rd_congr _ _ _ hregs, rd_wr_self]
  rfl

theorem sourceBegin_unlocked (h : Unlocked mode m) : Unlocked mode (sourceBegin m) :=
  h.of_kept (kept_sourceBegin m) (by decide) (sourceBegin_tim (·.stepped) (fun _ _ _ => rfl) m)
    (.inl (sourceBegin_tim (·.avg) (fun _ _ _ => rfl) m))

/-- Where a slew that stops where it stands writes registers. -/
def stopSlewKeys : List Nat := [fkey F.CLK_RAMP_OFS_PPB 0 0, fkey F.CLK_RAMP_STAT_ACTIVE 0 0, fkey F.TIM_SLEW_REM_NS 0 0,
  fkey F.TIM_STATE_OFFGRID 0 0, fkey F.TIM_STATE_SLEWING 0 0]

theorem kept_stopSlew (m : Mach) : Kept stopSlewKeys m (stopSlew m) :=
  (kept_setTim ..).trans <| (kept_wr _ _ (by decide)).trans <| (kept_wr _ _ (by decide)).trans <| (kept_wr _ _ (by decide)).trans <|
    (kept_wr _ _ (by decide)).trans <| kept_wri _ _ _ fun _ => by decide

theorem becomeSource_unlocked (h : Unlocked mode m) : Unlocked mode (becomeSource m) := by
  have hdrop : Unlocked mode (dropCand4 m) :=
    h.of_kept (kept_dropCand4 m) (by decide) (by rw [dropCand4_tim]) (.inl (by rw [dropCand4_tim]))
  have hstop : Unlocked mode (stopSlew (dropCand4 m)) := hdrop.of_kept (kept_stopSlew _) (by decide) rfl (.inr rfl)
  have hseat : ∀ gen, Unlocked mode (wr F.TIM_STATE_SOURCE_SEAT (ownSeat m) (wr F.TIM_GEN_GEN gen (stopSlew (dropCand4 m)))) := fun gen =>
    hstop.of_kept (ks := [fkey F.TIM_STATE_SOURCE_SEAT 0 0, fkey F.TIM_GEN_GEN 0 0])
      ((kept_wr _ _ (by decide)).trans (kept_wr _ _ (by decide))) (by decide) rfl (.inl rfl)
  unfold becomeSource
  split
  · exact h
  · rw [h.never]
    exact sourceBegin_unlocked (hseat _)

theorem timRestart_unlocked (m : Mach) : Unlocked (rd m F.TIM_CTRL_MODE) (timRestart m) ∧
    (rd m F.TIM_CTRL_MODE = 1 → rd (timRestart m) F.TIM_STATE_SOURCE = 1) := by
  have hports := portsListen_unlocked m
  have hseat : Unlocked (rd m F.TIM_CTRL_MODE) (wr F.TIM_STATE_SOURCE_SEAT (ownSeat (portsListen m)) (portsListen m)) :=
    hports.of_kept (kept_wr (ks := [fkey F.TIM_STATE_SOURCE_SEAT 0 0]) _ _ (by decide)) (by decide) rfl (.inl rfl)
  rw [timRestart_eq, hports.mode]
  split
  case isTrue => exact ⟨sourceBegin_unlocked hseat, fun _ => sourceBegin_source _⟩
  case isFalse h1 =>
    refine ⟨?_, fun h => absurd h h1⟩
    split
    · exact becomeSource_unlocked hports
    · exact hports

/-- The fields of TIM_CTRL other than MODE, as a word writes them. -/
def timCtrlPlain (v : Nat) (m : Mach) : Mach :=
  wr F.TIM_CTRL_PPS_OUT_EN (v / 4 % 2) (wr F.TIM_CTRL_TOD_ARM (v / 8 % 2) (wr F.TIM_CTRL_PPS_REF (v / 16 % 4) m))

theorem timCtrlWrite_restarts {v : Nat} (hl : flag m F.SYS_LOCK_LOCK = false) (h3 : v % 4 ≠ 3) (hm : v % 4 ≠ rd m F.TIM_CTRL_MODE) :
    timCtrlWrite v m = timRestart (wr F.TIM_CTRL_MODE (v % 4) (timCtrlPlain v m)) := if_neg (by simp [hl, h3, hm])

theorem timModeWrite_answers (ha : Awake s) (hl : flag s.m F.SYS_LOCK_LOCK = false) (h3 : v.toNat % 4 ≠ 3)
    (hm : v.toNat % 4 ≠ rd s.m F.TIM_CTRL_MODE) :
    Answers (.timModeWrite v) s (fun n => rd n F.TIM_CTRL_MODE = v.toNat % 4 ∧ rd n F.TIM_STATE_LOCKED = 0 ∧
      rd n F.TIM_STATE_EVER_LOCKED = 0 ∧ n.tim.stepped = false ∧ n.tim.avg = [] ∧ (v.toNat % 4 = 1 → rd n F.TIM_STATE_SOURCE = 1)) := by
  have hmode : rd (wr F.TIM_CTRL_MODE (v.toNat % 4) (timCtrlPlain v.toNat s.m)) F.TIM_CTRL_MODE = v.toNat % 4 :=
    (rd_wr_self ..).trans (Nat.mod_mod _ 4)
  obtain ⟨hrest, hsource⟩ := timRestart_unlocked (wr F.TIM_CTRL_MODE (v.toNat % 4) (timCtrlPlain v.toNat s.m))
  rw [hmode] at hrest hsource
  refine answers_mach _ s (timModeWrite v) _ rfl ha ?_
  rw [timModeWrite, timCtrlWrite_restarts hl h3 hm]
  exact ⟨hrest.mode, hrest.locked, hrest.ever, hrest.stepped, hrest.avg, hsource⟩

end Restart

/-! The start of a source's time, and PPS_OUT. -/

section Starts
variable {s : State}

theorem todPpsEdge_answers (ha : Awake s) (hw : s.m.tim.todWait = true) :
    Answers .todPpsEdge s (fun n => n.tim.todWait = false ∧
      n.tim.starts = some ((rd s.m F.TIM_TOD_SEC_HI_SEC * 2 ^ 32 + rd s.m F.TIM_TOD_SEC_LO_SEC) * 8000) ∧ n.regs = s.m.regs) := by
  have heq : todPpsEdge s.m = sourceStart s.m := if_pos hw
  refine answers_mach _ s todPpsEdge _ rfl ha ?_
  rw [heq]
  exact ⟨rfl, rfl, rfl⟩

theorem ppsOutSecond_rises (ha : Awake s) (hp : su s.m F.TIM_CTRL_PPS_OUT_EN = 1) (he : flag s.m F.TIM_STATE_EVER_LOCKED = true) :
    Answers .ppsOutSecond s (fun n => n.tim.ppsOut = true ∧ n.tim.ppsEnd = s.m.deal + 8 * su s.m F.TIM_PPS_WIDTH_MS ∧
      n.regs = s.m.regs) := by
  have heq : ppsOutSecond s.m = setTim { s.m.tim with ppsOut := true, ppsEnd := s.m.deal + 8 * su s.m F.TIM_PPS_WIDTH_MS } s.m :=
    if_pos (by simp [hp, he])
  refine answers_mach _ s ppsOutSecond _ rfl ha ?_
  rw [heq]
  exact ⟨rfl, rfl, rfl⟩

theorem ppsOutSecond_stays (ha : Awake s) (he : flag s.m F.TIM_STATE_EVER_LOCKED = false) : Answers .ppsOutSecond s (fun n => n = s.m) :=
  answers_mach _ s ppsOutSecond _ rfl ha (if_neg (by simp [he]))

end Starts

/-- Settles O29, one lemma for each command and outcome. -/
theorem timeUnitIsSet : Obligations.TimeUnitIsSet := fun _ ha =>
  ⟨todPpsEdge_answers ha, fun _ => timModeWrite_answers ha, ppsOutSecond_rises ha, ppsOutSecond_stays ha⟩

end Sys2Proof.Machine
end

section
/-! Egress ports (05 R145; 06 R168, R183): what a frame that leaves a port changes of the machine, the end of a frame, the end of a gate interval,
and the launch-time queues. -/
namespace Sys2Proof.Machine

/-- Where a frame for port p writes registers: its tokens, and the record of a low pool. -/
def sendKeys (p : Nat) : List Nat := [discardKey, fkey F.RING_FLAGS_TOKEN_LOW 0 0, fkey F.RING_TOK_FREE_FREE p 0]

section Sends
variable {β : Type} {ks : List Nat} {m : Mach} {p q now : Nat} {f : QFrame}

@[simp] theorem egress_setEgress_self (x : Egress) : egress (setEgress p x m) p = x := mget_mset_self ..
@[simp] theorem port_setPort_self (x : Port) : port (setPort p x m) p = x := mget_mset_self ..

theorem egress_emit (o : Out) : egress (emit o m) p = egress m p := rfl
theorem ringCnt_emit (o : Out) (id : Nat) : ringCnt (emit o m) p id = ringCnt m p id := rfl
theorem egress_setTok (v : Nat) : egress (setTok q v m) p = egress m p := rfl
theorem tokFree_count (id n : Nat) : tokFree (count q id n m) p = tokFree m p := rfl
theorem egress_count (id n : Nat) : egress (count q id n m) p = egress m p := rfl

theorem ringCnt_count_self (id n : Nat) : ringCnt (count p id n m) p id = ringCnt m p id + n := mget_mset_self ..

theorem ringCnt_count_ne {id jd : Nat} (n : Nat) (h : p * 2 ^ 16 + id ≠ q * 2 ^ 16 + jd) : ringCnt (count q jd n m) p id = ringCnt m p id :=
  mget_mset_ne _ _ _ _ _ h

theorem kept_count (p id n : Nat) (m : Mach) : Kept ks m (count p id n m) := kept_setRing ..
theorem kept_setPort (p : Nat) (x : Port) (m : Mach) : Kept ks m (setPort p x m) := kept_setRing ..
theorem kept_setEgress (p : Nat) (x : Egress) (m : Mach) : Kept ks m (setEgress p x m) := kept_setRing ..

/-- A frame as it goes on the wire: on a secure port with the next packet number (R171). -/
def wired (p : Nat) (f : QFrame) (m : Mach) : QFrame := if secure m p && !f.clear then { f with pn := (port m p).txPn } else f

/-- A port with a frame on the wire, and the frame counted. -/
def frameStarted (p now : Nat) (f : QFrame) (m : Mach) : Mach :=
  count p 0x0102 1 (count (16 + 8 * p + f.tc) 0x0120 1 (setEgress p { egress m p with sending := some (wired p f m) }
    (setPort p { port m p with txPn := if secure m p && !f.clear then (port m p).txPn + 1 else (port m p).txPn,
                               txStamp := stampOut m p (now * 65536) } m)))

theorem startFrame_eq (p now : Nat) (f : QFrame) (m : Mach) :
    startFrame p now f m = emit (.egress p (wired p f m) (stampOut m p (now * 65536))) (frameStarted p now f m) := rfl

theorem wired_same (p : Nat) (f : QFrame) (m : Mach) : (wired p f m).ident = f.ident ∧ (wired p f m).tc = f.tc ∧ (wired p f m).len = f.len := by
  unfold wired
  split <;> exact ⟨rfl, rfl, rfl⟩

theorem frameStarted_regs (p now : Nat) (f : QFrame) (m : Mach) : (frameStarted p now f m).regs = m.regs := by
  simp only [frameStarted, count, setEgress, setPort, setRing_regs]

theorem egress_frameStarted : egress (frameStarted p now f m) p = { egress m p with sending := some (wired p f m) } := by
  rw [frameStarted, egress_count, egress_count, egress_setEgress_self]

theorem frameStarted_out (p now : Nat) (f : QFrame) (m : Mach) : (frameStarted p now f m).out = m.out := by
  simp only [frameStarted, count, setEgress, setPort, setRing_out]

theorem kept_startFrame (p now : Nat) (f : QFrame) (m : Mach) : Kept ks m (startFrame p now f m) := by
  have hstarted : Kept ks m (frameStarted p now f m) :=
    (kept_setPort ..).trans <| (kept_setEgress ..).trans <| (kept_count ..).trans (kept_count ..)
  rw [startFrame_eq]
  exact hstarted.trans (kept_emit ..)

theorem kept_pickFrame (p now : Nat) (m : Mach) : Kept ks m (pickFrame p now m) := by
  simp only [pickFrame]
  split
  · exact .refl m
  · split
    · exact .refl m
    · exact (kept_setEgress ..).trans (kept_startFrame ..)

theorem kept_enqueue (p : Nat) (f : QFrame) (m : Mach) : Kept (sendKeys p) m (enqueue p f m) := by
  simp only [enqueue]
  split
  · exact (kept_setEgress ..).trans (kept_count ..)
  · exact (kept_setEgress ..).trans <| (kept_wri _ _ _ fun _ => by simp [sendKeys]).trans <| (kept_count ..).trans <|
      (kept_onlyIf _ (kept_count ..)).trans <|
        kept_onlyIf _ ((kept_wr _ _ (by simp [sendKeys])).trans (kept_raise _ _ _ _ (by simp [sendKeys])))

theorem kept_toEgress (p now : Nat) (cut : Bool) (f : QFrame) (m : Mach) : Kept (sendKeys p) m (toEgress p now cut f m) := by
  have hfirst : Kept (sendKeys p) m (pickFrame p now (advanceCredit p now m)) := (kept_setEgress ..).trans (kept_pickFrame ..)
  simp only [toEgress]
  split
  · exact hfirst.trans <| (kept_startFrame ..).trans (kept_onlyIf _ (kept_count ..))
  · exact hfirst.trans <| (kept_enqueue ..).trans (kept_onlyIf _ (kept_count ..))

theorem kept_ownFrame (p tc len : Nat) (tag : Option RingTag) (m : Mach) : Kept (sendKeys p) m (ownFrame p tc len tag m) := by
  unfold ownFrame
  split
  · exact kept_count ..
  · exact kept_toEgress ..

/-- A frame that leaves a port leaves the time unit as it is. -/
theorem tim_sendKeeps : SendKeeps (·.tim) :=
  ⟨fun _ _ => rfl, fun _ _ => rfl, fun _ _ _ _ => rfl, fun _ _ _ => rfl, fun _ _ => rfl⟩

/-! The egress port itself. -/

/-- The advance of the credits leaves all of the port but the credits and their time. -/
theorem egress_advanceCredit (g : Egress → β) (hg : ∀ x c t, g { x with credit := c, last := t } = g x) (now : Nat) (m : Mach) :
    g (egress (advanceCredit p now m) p) = g (egress m p) := by
  rw [advanceCredit, egress_setEgress_self]
  exact hg ..

/-- The pick of the next frame leaves all of the port but the frame on the wire and those that wait. -/
theorem egress_pickFrame (g : Egress → β) (hg : ∀ x f l, g { x with sending := f, waiting := l } = g x) (now : Nat) (m : Mach) :
    g (egress (pickFrame p now m) p) = g (egress m p) := by
  simp only [pickFrame]
  split
  · rfl
  · split
    · rfl
    · rw [startFrame_eq, egress_emit, egress_frameStarted, egress_setEgress_self]
      exact hg (egress m p) _ _

theorem pickFrame_regs (now : Nat) (m : Mach) : (pickFrame p now m).regs = m.regs := by
  simp only [pickFrame]
  split
  · rfl
  · split
    · rfl
    · rw [startFrame_eq, emit_regs, frameStarted_regs]
      rfl

/-- A port at which no frame waits starts none. -/
theorem pickFrame_none (h : (egress m p).waiting = []) : pickFrame p now m = m := by simp [pickFrame, h]

end Sends

/-! The end of a frame, and of a gate interval. -/

section Ends
variable {s : State} {m : Mach} {p now : Nat} {f : QFrame}

/-- A frame off the wire: its tokens are back in the pool (R168). -/
def frameEnded (p now : Nat) (f : QFrame) (m : Mach) : Mach :=
  let free := tokFree m p + f.tokens
  let e := egress (advanceCredit p now m) p
  count p 0x0110 f.tokens (setTok p free
    (setEgress p { e with sending := none, tokenLow := e.tokenLow && decide (free < 512), dropRun := if 512 ≤ free then 0 else e.dropRun }
      (advanceCredit p now m)))

theorem egressFrameEnd_sending (hp : p < 4) (hf : (egress m p).sending = some f) :
    egressFrameEnd p now m = pickFrame p now (frameEnded p now f m) := by
  have hsend : (egress (advanceCredit p now m) p).sending = some f :=
    (egress_advanceCredit (·.sending) (fun _ _ _ => rfl) now m).trans hf
  simp only [egressFrameEnd, if_pos hp, hsend]
  rfl

theorem frameEnded_waiting : (egress (frameEnded p now f m) p).waiting = (egress m p).waiting := by
  rw [frameEnded, egress_count, egress_setTok, egress_setEgress_self]
  exact egress_advanceCredit (·.waiting) (fun _ _ _ => rfl) now m

theorem frameEnded_sending : (egress (frameEnded p now f m) p).sending = none := by
  rw [frameEnded, egress_count, egress_setTok, egress_setEgress_self]

theorem frameEnded_out : (frameEnded p now f m).out = m.out := by
  simp only [frameEnded, count, setTok, advanceCredit, setEgress, setRing_out, wri_out]

theorem tokFree_frameEnded (hp : p < 4) : tokFree (frameEnded p now f m) p = (tokFree m p + f.tokens) % 2 ^ F.RING_TOK_FREE_FREE.width := by
  rw [frameEnded, tokFree_count, tokFree, setTok, rdi_wri_self _ _ _ _ hp]

theorem egressFrameEnd_answers (ha : Awake s) (hp : p < 4) (hf : (egress s.m p).sending = some f) :
    Answers (.egressFrameEnd p now) s (fun n => tokFree n p = (tokFree s.m p + f.tokens) % 2 ^ F.RING_TOK_FREE_FREE.width ∧
      ((egress s.m p).waiting = [] → (egress n p).sending = none ∧ n.out = s.m.out)) := by
  refine answers_mach _ s (egressFrameEnd p now) _ rfl ha ?_
  rw [egressFrameEnd_sending hp hf]
  refine ⟨?_, fun hw => ?_⟩
  · rw [tokFree, rdi_congr _ _ _ _ (pickFrame_regs ..)]
    exact tokFree_frameEnded hp
  · rw [pickFrame_none (frameEnded_waiting.trans hw)]
    exact ⟨frameEnded_sending, frameEnded_out⟩

theorem gateIntervalEnd_answers (ha : Awake s) (hp : p < 4) (he : rdi s.m F.RING_TAS_CTRL_ENABLE p = 1) (ho : (egress s.m p).oper ≠ []) :
    Answers (.gateIntervalEnd p now) s (fun n =>
      (egress n p).entry = ((egress s.m p).entry + 1) % (egress s.m p).oper.length ∧
      (egress n p).gateEnd = now +
        ((egress s.m p).oper.getD (((egress s.m p).entry + 1) % (egress s.m p).oper.length) (0, 0)).2) := by
  have heq : ∃ x q, gateIntervalEnd p now s.m = pickFrame p now (setEgress p x q) ∧
      x.entry = ((egress s.m p).entry + 1) % (egress s.m p).oper.length ∧
      x.gateEnd = now + ((egress s.m p).oper.getD (((egress s.m p).entry + 1) % (egress s.m p).oper.length) (0, 0)).2 :=
    ⟨_, _, if_pos (by simp [hp, he, ho]), rfl, rfl⟩
  obtain ⟨x, q, heq, hentry, hend⟩ := heq
  refine answers_mach _ s (gateIntervalEnd p now) _ rfl ha ?_
  rw [heq, egress_pickFrame (·.entry) (fun _ _ _ => rfl), egress_pickFrame (·.gateEnd) (fun _ _ _ => rfl), egress_setEgress_self]
  exact ⟨hentry, hend⟩

end Ends

/-! The launch-time queues (05 R145). -/

section Launch
variable {s : State} {m : Mach} {p q now : Nat} {f : LaunchFrame} {rest : List LaunchFrame}

/-- The frame that a launch-time queue gives its port. -/
def launchFrame (f : LaunchFrame) (m : Mach) : QFrame :=
  { tc := f.tc, len := f.len, tokens := 0, transit := false, poisoned := false, ident := f.ident, tag := f.dual.map (fun d => ownTag d m) }

/-- The machine with what is left of a launch-time queue. -/
def launchPopped (p q : Nat) (rest : List LaunchFrame) (m : Mach) : Mach :=
  { m with tim := { m.tim with queues := mset [] (2 * p + q) rest m.tim.queues } }

theorem openFor_congr {e x : Egress} (ho : x.oper = e.oper) (he : x.entry = e.entry) (hg : x.gateEnd = e.gateEnd) (tc now : Nat) :
    openFor x tc now = openFor e tc now := by
  have hin : ∀ k, gateIn x tc k = gateIn e tc k := fun k => by rw [gateIn, gateIn, ho]
  have hgo : ∀ n k acc, openFor.go x tc n k acc = openFor.go e tc n k acc := fun n => by
    induction n with
    | zero => exact fun _ _ => rfl
    | succ n ih => exact fun k acc => by simp only [openFor.go, hin, ho, ih]
  simp only [openFor, hin, hgo, ho, he, hg]

/-- Whether a gate is open rests neither on the credits nor on a frame's tag. -/
theorem gateOpen_launchFrame (p now : Nat) (f : LaunchFrame) (m : Mach) : gateOpen p now (launchFrame f m) (advanceCredit p now m) =
    gateOpen p now { tc := f.tc, len := f.len, tokens := 0, transit := false, poisoned := false, ident := f.ident } m := by
  have hoper : (egress (advanceCredit p now m) p).oper = (egress m p).oper := egress_advanceCredit (·.oper) (fun _ _ _ => rfl) now m
  have hentry : (egress (advanceCredit p now m) p).entry = (egress m p).entry := egress_advanceCredit (·.entry) (fun _ _ _ => rfl) now m
  have hend : (egress (advanceCredit p now m) p).gateEnd = (egress m p).gateEnd :=
    egress_advanceCredit (·.gateEnd) (fun _ _ _ => rfl) now m
  simp only [gateOpen, openFor_congr hoper hentry hend, hoper]
  rfl

theorem launchReached_late (hq : mget [] m.tim.queues (2 * p + q) = f :: rest) (hn : f.at_ns ≤ now)
    (hl : f.at_ns + su m F.TIM_LAUNCH_LATE_NS < now) : launchReached p q now m = count p 0x0403 1 (launchPopped p q rest m) := by
  simp only [launchReached, hq, if_neg (Nat.not_lt.mpr hn), if_pos hl]
  rfl

/-- The machine in which a frame of a launch-time queue starts: it has left its queue, and is counted by whether it starts at its time. -/
def launchCounted (p q now : Nat) (f : LaunchFrame) (rest : List LaunchFrame) (m : Mach) : Mach :=
  count p (if f.at_ns < now then 0x0402 else 0x0401) 1 (launchPopped p q rest (advanceCredit p now m))

theorem launchReached_starts (hq : mget [] m.tim.queues (2 * p + q) = f :: rest) (hn : f.at_ns ≤ now)
    (hl : now ≤ f.at_ns + su m F.TIM_LAUNCH_LATE_NS) (hs : maySend m p = true) (hi : (egress m p).sending = none)
    (hg : gateOpen p now (launchFrame f m) (advanceCredit p now m) = true) :
    launchReached p q now m = startFrame p now (launchFrame f m) (launchCounted p q now f rest m) := by
  have hidle : (egress (advanceCredit p now m) p).sending = none := (egress_advanceCredit (·.sending) (fun _ _ _ => rfl) now m).trans hi
  have hmay : ¬ (!maySend m p) = true := by simp [hs]
  simp only [launchReached, hq, if_neg (Nat.not_lt.mpr hn), if_neg (Nat.not_lt.mpr hl), if_neg hmay]
  exact if_pos (by rw [hidle]; exact hg)

/-- The start of a frame counts among the frames sent of its port and class alone. -/
theorem ringCnt_startFrame {id : Nat} (hid : id < 2 ^ 16) (h1 : id ≠ 0x0102) (h2 : id ≠ 0x0120) (f : QFrame) (m : Mach) :
    ringCnt (startFrame p now f m) p id = ringCnt m p id := by
  have hframe : ringCnt (frameStarted p now f m) p id = ringCnt m p id :=
    (ringCnt_count_ne 1 (by omega)).trans (ringCnt_count_ne 1 (by omega))
  rw [startFrame_eq, ringCnt_emit, hframe]

theorem launchTimeReached_answers (ha : Awake s) (hq : mget [] s.m.tim.queues (2 * p + q) = f :: rest) (hn : f.at_ns ≤ now) :
    Answers (.launchTimeReached p q now) s (fun n =>
      (f.at_ns + su s.m F.TIM_LAUNCH_LATE_NS < now →
        mget [] n.tim.queues (2 * p + q) = rest ∧ ringCnt n p 0x0403 = ringCnt s.m p 0x0403 + 1 ∧ n.out = s.m.out) ∧
      (now ≤ f.at_ns + su s.m F.TIM_LAUNCH_LATE_NS → maySend s.m p = true → (egress s.m p).sending = none →
        gateOpen p now { tc := f.tc, len := f.len, tokens := 0, transit := false, poisoned := false, ident := f.ident } s.m = true →
        mget [] n.tim.queues (2 * p + q) = rest ∧
        (∃ g, n.out = .egress p g (stampOut s.m p (now * 65536)) :: s.m.out ∧ g.ident = f.ident ∧ g.tc = f.tc ∧ g.len = f.len) ∧
        (f.at_ns = now → ringCnt n p 0x0401 = ringCnt s.m p 0x0401 + 1) ∧
        (f.at_ns < now → ringCnt n p 0x0402 = ringCnt s.m p 0x0402 + 1))) := by
  refine answers_mach _ s (launchReached p q now) _ rfl ha ⟨fun hl => ?_, fun hl hs hi hg => ?_⟩
  · rw [launchReached_late hq hn hl]
    exact ⟨mget_mset_self _ _ _ s.m.tim.queues, ringCnt_count_self .., rfl⟩
  · rw [launchReached_starts hq hn hl hs hi ((gateOpen_launchFrame ..).trans hg)]
    refine ⟨?_, ⟨wired p (launchFrame f s.m) (launchCounted p q now f rest s.m), ?_, wired_same ..⟩, fun h => ?_, fun h => ?_⟩
    · rw [startFrame_keep tim_sendKeeps]
      exact mget_mset_self _ _ _ s.m.tim.queues
    · rw [startFrame_eq, emit_out, frameStarted_out]
      rfl
    · rw [ringCnt_startFrame (by decide) (by decide) (by decide), launchCounted, if_neg (by omega)]
      exact ringCnt_count_self ..
    · rw [ringCnt_startFrame (by decide) (by decide) (by decide), launchCounted, if_pos h]
      exact ringCnt_count_self ..

end Launch

/-- Settles O21, one lemma for each command. -/
theorem egressRuns : Obligations.EgressRuns := fun _ _ _ ha hp =>
  ⟨fun _ => egressFrameEnd_answers ha hp, gateIntervalEnd_answers ha hp, fun _ _ _ _ => launchTimeReached_answers ha⟩

end Sys2Proof.Machine
end

section
/-! Deal markers (05 R131-R133; 06 R164): a record that is followed, the marker that leaves in a deal, and a direction that delivers none. -/
namespace Sys2Proof.Machine

/-! A record is taken. -/

/-- Where the validity of the ring's directions is shown. -/
def pathKeys : List Nat := [fkey F.TIM_STATE_PATH_A 0 0, fkey F.TIM_STATE_PATH_B 0 0]

/-- Where a record that is taken writes registers. -/
def takeKeys : List Nat := fkey F.TIM_STATE_HOLD 0 0 :: pathKeys

section Records
variable {β : Type} {m n : Mach} {p gen seat : Nat} {x : TimeDir} {th : Int}

/-- A direction with a record taken: valid for a generation or source that it was not following, or after LOSS_DEALS deals (R132). -/
def takenDir (gen seat : Nat) (x : TimeDir) (m : Mach) : TimeDir :=
  let run := if x.recDeal + 1 = m.deal || x.recDeal = m.deal then x.run + 1 else 1
  { x with followed := some (gen, seat), run := run,
           valid := x.valid || x.followed != some (gen, seat) || decide (su m F.TIM_RING_LOSS_DEALS ≤ run), recDeal := m.deal }

/-- The machine with a record taken and its direction shown. -/
def recordTaken (p gen seat : Nat) (x : TimeDir) (m : Mach) : Mach :=
  showDir p (b2n (takenDir gen seat x m).valid)
    (setTim { m.tim with dirs := mset {} p (takenDir gen seat x m) m.tim.dirs, lastRec := m.deal } m)

/-- Records that return also end HOLD, and their average is judged (R138). -/
theorem takeRecord_eq : takeRecord p gen seat x m = if (takenDir gen seat x m).valid && flag m F.TIM_STATE_HOLD then
    wr F.TIM_STATE_HOLD 0 (setTim { (recordTaken p gen seat x m).tim with judge := true, avg := [], lockRun := 0 } (recordTaken p gen seat x m))
  else recordTaken p gen seat x m := rfl

theorem recordTaken_tim : (recordTaken p gen seat x m).tim =
    { m.tim with dirs := mset {} p (takenDir gen seat x m) m.tim.dirs, lastRec := m.deal } := showDir_tim ..

theorem takeRecord_tim (g : Tim → β) (hg : ∀ t j a k, g { t with judge := j, avg := a, lockRun := k } = g t) :
    g (takeRecord p gen seat x m).tim = g { m.tim with dirs := mset {} p (takenDir gen seat x m) m.tim.dirs, lastRec := m.deal } := by
  rw [takeRecord_eq, ← recordTaken_tim]
  split
  · exact hg ..
  · rfl

theorem timeDir_takeRecord : timeDir (takeRecord p gen seat x m) p = takenDir gen seat x m := by
  rw [timeDir, takeRecord_tim (·.dirs) fun _ _ _ _ => rfl]
  exact mget_mset_self ..

theorem takeRecord_ptp : (takeRecord p gen seat x m).tim.ptp = m.tim.ptp := takeRecord_tim (·.ptp) fun _ _ _ _ => rfl

theorem kept_takeRecord (p gen seat : Nat) (x : TimeDir) (m : Mach) : Kept takeKeys m (takeRecord p gen seat x m) := by
  have htaken : Kept takeKeys m (recordTaken p gen seat x m) := (kept_setTim ..).trans (kept_showDir _ _ _ (by decide) (by decide))
  rw [takeRecord_eq]
  split
  · exact htaken.trans <| (kept_setTim ..).trans (kept_wr _ _ (by decide))
  · exact htaken

/-! A generation or source that is not followed yet. -/

/-- Where a new source writes registers. -/
def followKeys : List Nat := [discardKey, fkey F.TIM_STATE_SOURCE_SEAT 0 0, fkey F.TIM_GEN_GEN 0 0]

/-- The machine that follows a new source, before it is reported. -/
def sourceFollowed (gen seat : Nat) (m : Mach) : Mach :=
  wr F.TIM_GEN_GEN gen (wr F.TIM_STATE_SOURCE_SEAT seat
    (setTim { m.tim with avg := [], judge := flag m F.TIM_STATE_EVER_LOCKED, lockRun := 0 } m))

theorem kept_sourceFollowed (gen seat : Nat) (m : Mach) : Kept followKeys m (sourceFollowed gen seat m) :=
  (kept_setTim ..).trans <| (kept_wr _ _ (by decide)).trans (kept_wr _ _ (by decide))

theorem followSource_raises : ∃ pay, followSource gen seat th m = raise 0x04 0x0405 pay (sourceFollowed gen seat m) := ⟨_, rfl⟩

theorem followSource_follows (hseat : seat < 0xFFFF) (hgen : gen < 2 ^ 16) : srcSeat (followSource gen seat th m) = seat ∧
    rd (followSource gen seat th m) F.TIM_GEN_GEN = gen ∧ (followSource gen seat th m).tim.dirs = m.tim.dirs ∧
    Kept followKeys m (followSource gen seat th m) ∧ Reported 0x04 0x0405 m (followSource gen seat th m) := by
  obtain ⟨pay, heq⟩ := followSource_raises (gen := gen) (seat := seat) (th := th) (m := m)
  have hkept := kept_sourceFollowed gen seat m
  rw [heq]
  refine ⟨?_, ?_, rfl, hkept.trans (kept_raise _ _ _ _ (by decide)), (hkept.events (by decide)).reported⟩
  · rw [srcSeat, rd_raise _ _ _ _ _ (by decide), sourceFollowed, rd_wr_ne _ _ _ _ (by decide), rd_wr_self]
    exact Nat.mod_eq_of_lt (Nat.lt_succ_of_lt hseat)
  · rw [rd_raise _ _ _ _ _ (by decide), sourceFollowed, rd_wr_self]
    exact Nat.mod_eq_of_lt hgen

/-- A record of a newer generation, or the first one at all, is followed and taken (R132, R133). -/
theorem timeRecord_new (h : srcSeat m = 0xFFFF ∨ (newerGen (rd m F.TIM_GEN_GEN) gen = false ∧ gen ≠ rd m F.TIM_GEN_GEN)) :
    ∃ b, timeRecord p gen seat x m = takeRecord p gen seat x (followSource gen seat x.theta (setTim { m.tim with dup := b } m)) := by
  refine ⟨(false || (m.tim.dup && (gen == rd m F.TIM_GEN_GEN))), ?_⟩
  unfold timeRecord
  extract_lets known two theta _ m1 m2
  have hold : (known && newerGen (rd m F.TIM_GEN_GEN) gen) = false := by
    rcases h with h | ⟨h, -⟩ <;> simp [known, h]
  have htwo : two = false := by
    rcases h with h | ⟨-, h⟩ <;> simp [two, known, h]
  have hnew : (!known || gen != rd m F.TIM_GEN_GEN || seat != srcSeat m) = true := by
    rcases h with h | ⟨-, h⟩ <;> simp [known, h]
  simp only [hold, m2, hnew, m1, htwo, Bool.false_and, onlyIf_false, onlyIf_true, Bool.false_eq_true, if_false]

end Records

/-! A marker arrives. -/

/-- Where a marker itself, beside its record, writes registers. -/
def markerKeys : List Nat := [fkey F.RING_STATE_MARK_A 0 0, fkey F.RING_STATE_MARK_B 0 0, fkey F.TIM_LINK_A_PS 0 0, fkey F.TIM_LINK_B_PS 0 0]

section Receive
variable {s : State} {m n : Mach} {p : Nat} {k : MarkerIn}

/-- The machine with a port's marker stamped, judged, and its link measured. -/
def markerHeard (p : Nat) (k : MarkerIn) (m : Mach) : Mach :=
  measureLink p k (stampIn m p k.ingress) (ringMarker p k (setPort p { port m p with rxStamp := stampIn m p k.ingress } m))

/-- A direction with the record of a marker (R131). -/
def markerDir (p : Nat) (k : MarkerIn) (ingress : Nat) (m : Mach) : TimeDir :=
  { timeDir m p with theta := toPs ((ingress : Int) - ((k.origin : Int) + k.corr + linkIn m p)), hops := k.hops, origin := k.origin,
                     corr := k.corr, ingress := ingress, forward := true, recSeat := k.srcSeat, recGen := k.gen }

theorem rd_setPort (f : Fld) (x : Port) : rd (setPort p x m) f = rd m f := rfl

/-- A marker of this table that carries a record, at a seat that follows the ring. -/
theorem markerReceive_record (hp : p < 2) (hv : k.version = 1) (ht : rd m F.DOM_STATE_ROLE = 0 ∨ k.tableId = rd m F.DOM_TABLE_TABLE_ID)
    (hf : k.flags.testBit 3 = false) (hs : flag m F.TIM_STATE_SOURCE = false) (hm : rd m F.TIM_CTRL_MODE = 0) :
    markerReceive p k m = timeRecord p k.gen k.srcSeat (markerDir p k (stampIn m p k.ingress) (markerHeard p k m))
      (count p 0x0405 1 (markerHeard p k m)) := by
  unfold markerReceive
  extract_lets at_ _ n m1 est _ x
  have hours : (k.version != 1 || (rd n F.DOM_STATE_ROLE != 0 && k.tableId != rd n F.DOM_TABLE_TABLE_ID)) = false := by
    rcases ht with ht | ht <;> simp [n, rd_setPort, hv, ht]
  have hfollows : (k.flags.testBit 3 || flag n F.TIM_STATE_SOURCE || rd n F.TIM_CTRL_MODE != 0) = false := by
    simp only [flag] at hs
    simp [n, flag, rd_setPort, hf, hs, hm]
  rw [if_neg (Nat.not_le.mpr hp), if_neg (by rw [hours]; exact Bool.false_ne_true), if_neg (by rw [hfollows]; exact Bool.false_ne_true)]
  rfl

theorem kept_showMark (p b : Nat) (m : Mach) : Kept markerKeys m (showMark p b m) := by
  unfold showMark
  split
  · exact kept_wr _ _ (by decide)
  · split
    · exact kept_wr _ _ (by decide)
    · exact .refl m

theorem kept_ringMarker (p : Nat) (k : MarkerIn) (m : Mach) : Kept markerKeys m (ringMarker p k m) :=
  (kept_onlyIf _ ((kept_setPort ..).trans (kept_showMark ..))).trans ((kept_count ..).trans (kept_count ..))

/-- The link that a marker measures is shown, and kept with the direction (R128). -/
theorem measureLink_measures (p : Nat) (k : MarkerIn) (ingress : Nat) (m : Mach) : ∃ f v d, f ∈ [F.TIM_LINK_A_PS, F.TIM_LINK_B_PS] ∧
    measureLink p k ingress m = wr f v (setDir p { timeDir m p with delays := d, prevRx := ingress } m) := by
  simp only [measureLink]
  split
  · exact ⟨_, _, _, by decide, rfl⟩
  · exact ⟨_, _, _, by decide, rfl⟩

theorem kept_markerHeard (p : Nat) (k : MarkerIn) (m : Mach) : Kept markerKeys m (markerHeard p k m) := by
  obtain ⟨f, v, d, hf, heq⟩ := measureLink_measures p k (stampIn m p k.ingress)
    (ringMarker p k (setPort p { port m p with rxStamp := stampIn m p k.ingress } m))
  rw [markerHeard, heq]
  exact (kept_setPort ..).trans <| (kept_ringMarker ..).trans <| (kept_setDir ..).trans <|
    kept_wr _ _ ((by decide : ∀ f ∈ [F.TIM_LINK_A_PS, F.TIM_LINK_B_PS], fkey f 0 0 ∈ markerKeys) f hf)

/-- The deal of a machine and its time unit, which the ring's part of a marker leaves. -/
def dealTime (m : Mach) : Nat × Tim := (m.deal, m.tim)

theorem dealTime_count (id n : Nat) : dealTime (count p id n m) = dealTime m := rfl
theorem dealTime_setPort (x : Port) : dealTime (setPort p x m) = dealTime m := rfl

theorem dealTime_ringMarker (p : Nat) (k : MarkerIn) (m : Mach) : dealTime (ringMarker p k m) = dealTime m := by
  have hmark : ∀ b n, dealTime (showMark p b n) = dealTime n := fun b n => by
    unfold showMark
    split
    · rfl
    · split <;> rfl
  rw [ringMarker, dealTime_count, dealTime_count, onlyIf_keep dealTime _ _ _ (by rw [hmark, dealTime_setPort])]

/-- A marker moves no deal, and writes the link's measurements into its direction alone. -/
theorem markerHeard_time (p : Nat) (k : MarkerIn) (m : Mach) : (markerHeard p k m).deal = m.deal ∧
    ∃ d i, timeDir (markerHeard p k m) p = { timeDir m p with delays := d, prevRx := i } := by
  obtain ⟨q, hq, f, v, d, heq⟩ : ∃ q, dealTime q = dealTime m ∧ ∃ f v d, markerHeard p k m =
      wr f v (setDir p { timeDir q p with delays := d, prevRx := stampIn m p k.ingress } q) := by
    obtain ⟨f, v, d, -, heq⟩ := measureLink_measures p k (stampIn m p k.ingress)
      (ringMarker p k (setPort p { port m p with rxStamp := stampIn m p k.ingress } m))
    exact ⟨_, (dealTime_ringMarker ..).trans (dealTime_setPort _), f, v, d, by rw [markerHeard, heq]⟩
  obtain ⟨hdeal, htim⟩ := Prod.mk.inj hq
  rw [heq]
  refine ⟨hdeal, d, stampIn m p k.ingress, (timeDir_setDir_self _).trans ?_⟩
  rw [timeDir_congr (congrArg Tim.dirs htim)]

theorem linkIn_congr (hd : (timeDir n p).delays = (timeDir m p).delays) (hs : n.setup = m.setup) : linkIn n p = linkIn m p := by
  rw [linkIn, linkIn, linkMean, linkMean, hd, sui, sui, hs]

theorem markerReceive_answers (ha : Awake s) (hp : p < 2) (hv : k.version = 1)
    (ht : rd s.m F.DOM_STATE_ROLE = 0 ∨ k.tableId = rd s.m F.DOM_TABLE_TABLE_ID) (hf : k.flags.testBit 3 = false)
    (hs : flag s.m F.TIM_STATE_SOURCE = false) (hm : rd s.m F.TIM_CTRL_MODE = 0)
    (hnew : srcSeat s.m = 0xFFFF ∨ (newerGen (rd s.m F.TIM_GEN_GEN) k.gen = false ∧ k.gen ≠ rd s.m F.TIM_GEN_GEN)) (hseat : k.srcSeat < 0xFFFF)
    (hgen : k.gen < 2 ^ 16) (hfresh : (timeDir s.m p).followed ≠ some (k.gen, k.srcSeat)) :
    Answers (.markerReceive p k) s (fun n => srcSeat n = k.srcSeat ∧ rd n F.TIM_GEN_GEN = k.gen ∧ (timeDir n p).valid = true ∧
      (timeDir n p).theta = toPs ((stampIn s.m p k.ingress : Int) - ((k.origin : Int) + k.corr + linkIn n p)) ∧
      (timeDir n p).recDeal = s.m.deal ∧ (timeDir n p).hops = k.hops ∧ n.tim.lastRec = s.m.deal ∧ Reported 0x04 0x0405 s.m n) := by
  have hheard := kept_markerHeard p k s.m
  obtain ⟨hdeal, d, i, hdir⟩ := markerHeard_time p k s.m
  have hseen : srcSeat (markerHeard p k s.m) = srcSeat s.m := hheard.rd (by decide)
  have hgens : rd (markerHeard p k s.m) F.TIM_GEN_GEN = rd s.m F.TIM_GEN_GEN := hheard.rd (by decide)
  rw [← hseen, ← hgens] at hnew
  obtain ⟨b, htake⟩ := timeRecord_new (m := count p 0x0405 1 (markerHeard p k s.m)) (p := p) (seat := k.srcSeat)
    (x := markerDir p k (stampIn s.m p k.ingress) (markerHeard p k s.m)) hnew
  obtain ⟨x, hx⟩ : ∃ x, markerDir p k (stampIn s.m p k.ingress) (markerHeard p k s.m) = x := ⟨_, rfl⟩
  obtain ⟨q, hq⟩ : ∃ q, setTim { (count p 0x0405 1 (markerHeard p k s.m)).tim with dup := b } (count p 0x0405 1 (markerHeard p k s.m)) = q :=
    ⟨_, rfl⟩
  have hfollowed : x.followed ≠ some (k.gen, k.srcSeat) := by
    rw [← hx, markerDir, hdir]
    exact hfresh
  have hkq : Kept markerKeys s.m q := hq ▸ hheard.trans ((kept_count ..).trans (kept_setTim ..))
  have hdq : q.deal = s.m.deal := hq ▸ hdeal
  obtain ⟨hss, hgg, -, hkf, hrep⟩ := followSource_follows (m := q) (th := x.theta) hseat hgen
  have hkt := kept_takeRecord p k.gen k.srcSeat x (followSource k.gen k.srcSeat x.theta q)
  refine answers_mach _ s (markerReceive p k) _ rfl ha ?_
  rw [markerReceive_record hp hv ht hf hs hm, htake, hx, hq]
  have hlink : linkIn (takeRecord p k.gen k.srcSeat x (followSource k.gen k.srcSeat x.theta q)) p = linkIn (markerHeard p k s.m) p := by
    refine linkIn_congr ?_ ((hkt.setup.trans (hkf.setup.trans hkq.setup)).trans hheard.setup.symm)
    rw [timeDir_takeRecord, ← hx]
    rfl
  refine ⟨(hkt.rd (by decide)).trans hss, (hkt.rd (by decide)).trans hgg, ?_, ?_, ?_, ?_, ?_,
    reported_then _ _ _ _ _ (reported_since (hkq.events (by decide)) hrep) hkt.out⟩
  · rw [timeDir_takeRecord]
    simp [takenDir, hfollowed]
  · rw [hlink, timeDir_takeRecord, ← hx]
    rfl
  · rw [timeDir_takeRecord, ← hdq]
    rfl
  · rw [timeDir_takeRecord, ← hx]
    rfl
  · rw [takeRecord_tim (·.lastRec) fun _ _ _ _ => rfl, ← hdq]
    rfl

end Receive

/-! The marker that leaves in a deal (06 R164). -/

section Launch
variable {β : Type} {s : State} {m : Mach} {p q now at_ : Nat} {f : QFrame}

theorem port_setDir (x : TimeDir) : port (setDir q x m) p = port m p := rfl
theorem port_emit (o : Out) : port (emit o m) p = port m p := rfl
theorem port_count (id n : Nat) : port (count q id n m) p = port m p := rfl
theorem port_setEgress (x : Egress) : port (setEgress q x m) p = port m p := rfl
theorem port_setTok (v : Nat) : port (setTok q v m) p = port m p := rfl
theorem port_wr (g : Fld) (v : Nat) : port (wr g v m) p = port m p := rfl
theorem port_raise (src code : Nat) (pay : Pay) : port (raise src code pay m) p = port m p := rfl

/-- The start of a frame leaves all of its port but the packet number and the egress stamp. -/
theorem port_startFrame (g : Port → β) (hg : ∀ x n t, g { x with txPn := n, txStamp := t } = g x) (f : QFrame) (m : Mach) :
    g (port (startFrame p now f m) p) = g (port m p) := by
  rw [startFrame_eq, port_emit, frameStarted, port_count, port_count, port_setEgress, port_setPort_self]
  exact hg ..

theorem port_pickFrame (g : Port → β) (hg : ∀ x n t, g { x with txPn := n, txStamp := t } = g x) (m : Mach) :
    g (port (pickFrame p now m) p) = g (port m p) := by
  simp only [pickFrame]
  split
  · rfl
  · split
    · rfl
    · rw [port_startFrame g hg, port_setEgress]

theorem port_enqueue (f : QFrame) (m : Mach) : port (enqueue p f m) q = port m q := by
  simp only [enqueue]
  split
  · rw [port_count, port_setEgress]
  · rw [onlyIf_keep (port · q) _ _ _ (by rw [port_raise, port_wr]), onlyIf_keep (port · q) _ _ _ (port_count ..), port_count, port_setTok,
      port_setEgress]

theorem port_toEgress (g : Port → β) (hg : ∀ x n t, g { x with txPn := n, txStamp := t } = g x) (cut : Bool) (f : QFrame) (m : Mach) :
    g (port (toEgress p now cut f m) p) = g (port m p) := by
  have hfirst : g (port (pickFrame p now (advanceCredit p now m)) p) = g (port m p) := by
    rw [port_pickFrame g hg, advanceCredit, port_setEgress]
  simp only [toEgress]
  split
  · rw [onlyIf_keep (port · p) _ _ _ (port_count ..), port_startFrame g hg, hfirst]
  · rw [onlyIf_keep (port · p) _ _ _ (port_count ..), port_enqueue, hfirst]

/-- A port whose marker of this deal is due. -/
def markerTaken (p : Nat) (m : Mach) : Mach := setPort p { port m p with markDeal := m.deal } m

/-- A marker on its way: listed, the record of the opposite direction forwarded, and its stamp kept (05 R128, R129). -/
def markerSent (p at_ : Nat) (m : Mach) : Mach :=
  let st := stampOut m p at_
  let pay := markerPay m p st
  let m1 := setDir (1 - p) { timeDir m (1 - p) with forward := false } (emit (.heivo p 1 none (heivoHdr 1 pay m) pay) (markerTaken p m))
  setDir p { timeDir m1 p with sent := (st :: (timeDir m1 p).sent).take 4 } m1

theorem markerLaunch_due (hp : p < 2) (hs : maySend m p = true) (hc : 4 ≤ carries m) (hd : (port m p).markDeal < m.deal)
    (ha : markerAt m * 65536 ≤ at_) : markerLaunch p at_ m =
      if (markerAt m + su m F.TIM_LAUNCH_LATE_NS) * 65536 < at_ then count p 0x0403 1 (markerTaken p m)
      else toEgress p (at_ / 65536) false
        { tc := 7, len := heivoLen none (markerPay m p (stampOut m p at_)), tokens := 0, transit := true, poisoned := false, ident := 0 }
        (count p (if markerAt m * 65536 < at_ then 0x0402 else 0x0401) 1 (markerSent p at_ m)) :=
  if_pos (by simp [hp, hs, hc, hd, ha])

theorem markerSent_dirs (hp : p < 2) : (timeDir (markerSent p at_ m) p).sent = (stampOut m p at_ :: (timeDir m p).sent).take 4 ∧
    (timeDir (markerSent p at_ m) (1 - p)).forward = false := by
  have hne : p ≠ 1 - p := by omega
  simp only [markerSent, timeDir_setDir_self, timeDir_setDir_ne _ hne, timeDir_setDir_ne _ hne.symm]
  exact ⟨rfl, trivial⟩

theorem port_markerSent : port (markerSent p at_ m) q = port (markerTaken p m) q := by
  simp only [markerSent, port_setDir, port_emit]

theorem markerSent_out : (markerSent p at_ m).out =
    .heivo p 1 none (heivoHdr 1 (markerPay m p (stampOut m p at_)) m) (markerPay m p (stampOut m p at_)) :: m.out := rfl

theorem markerLaunch_answers (ha : Awake s) (hp : p < 2) (hs : maySend s.m p = true) (hc : 4 ≤ carries s.m)
    (hd : (port s.m p).markDeal < s.m.deal) (hat : markerAt s.m * 65536 ≤ at_) :
    Answers (.markerLaunch p at_) s (fun n =>
      let st := stampOut s.m p at_
      let pay := markerPay s.m p st
      (port n p).markDeal = s.m.deal ∧
      (at_ ≤ (markerAt s.m + su s.m F.TIM_LAUNCH_LATE_NS) * 65536 → NewOut s.m n (.heivo p 1 none (heivoHdr 1 pay s.m) pay) ∧
        (timeDir n p).sent = (st :: (timeDir s.m p).sent).take 4 ∧ (timeDir n (1 - p)).forward = false) ∧
      ((markerAt s.m + su s.m F.TIM_LAUNCH_LATE_NS) * 65536 < at_ → n.out = s.m.out ∧
        ringCnt n p 0x0403 = ringCnt s.m p 0x0403 + 1)) := by
  refine answers_mach _ s (markerLaunch p at_) _ rfl ha ?_
  rw [markerLaunch_due hp hs hc hd hat]
  split
  case isTrue hlate =>
    refine ⟨?_, fun h => absurd hlate (Nat.not_lt.mpr h), fun _ => ⟨rfl, ringCnt_count_self ..⟩⟩
    rw [port_count, markerTaken, port_setPort_self]
  case isFalse hlate =>
    obtain ⟨hsent, hforward⟩ := markerSent_dirs (m := s.m) (at_ := at_) hp
    generalize hq : count p (if markerAt s.m * 65536 < at_ then 0x0402 else 0x0401) 1 (markerSent p at_ s.m) = q
    have hmark : (port q p).markDeal = s.m.deal := by
      rw [← hq, port_count, port_markerSent, markerTaken, port_setPort_self]
    have hout : q.out = .heivo p 1 none (heivoHdr 1 (markerPay s.m p (stampOut s.m p at_)) s.m) (markerPay s.m p (stampOut s.m p at_)) ::
        s.m.out := by rw [← hq, count, setRing_out, markerSent_out]
    have htim : q.tim = (markerSent p at_ s.m).tim := by rw [← hq, count, setRing_tim]
    have hdirs : ∀ k now cut f, timeDir (toEgress p now cut f q) k = timeDir (markerSent p at_ s.m) k := fun k now cut f => by
      rw [timeDir, toEgress_keep tim_sendKeeps, htim, timeDir]
    refine ⟨?_, fun _ => ⟨newOut_mono _ _ _ _ ⟨[_], hout, List.mem_singleton.mpr rfl⟩ (kept_toEgress ..).out, ?_, ?_⟩, fun h => absurd h hlate⟩
    · rw [port_toEgress (·.markDeal) fun _ _ _ => rfl, hmark]
    · rw [hdirs, hsent]
    · rw [hdirs, hforward]

end Launch

/-! A direction that delivers no record (R132). -/

section Lost
variable {s : State} {m : Mach} {p : Nat}

/-- A direction out of the average. -/
def dirLost (p : Nat) (m : Mach) : Mach := showDir p 0 (setDir p { timeDir m p with valid := false, run := 0 } m)

theorem kept_dirLost (p : Nat) (m : Mach) : Kept pathKeys m (dirLost p m) := (kept_setDir ..).trans (kept_showDir _ _ _ (by decide) (by decide))

theorem dirLost_tim : (dirLost p m).tim = (setDir p { timeDir m p with valid := false, run := 0 } m).tim := showDir_tim ..

theorem dirLost_shown (hp : p < 2) : rd (dirLost p m) (if p = 0 then F.TIM_STATE_PATH_A else F.TIM_STATE_PATH_B) = 0 := by
  obtain rfl | rfl : p = 0 ∨ p = 1 := by omega
  · exact rd_wr_self _ F.TIM_STATE_PATH_A 0
  · exact rd_wr_self _ F.TIM_STATE_PATH_B 0

theorem timeDirectionLost_due (hp : p < 2) (hv : (timeDir m p).valid = true) (hd : (timeDir m p).recDeal < m.deal) :
    timeDirectionLost p m = if (timeDir (dirLost p m) (1 - p)).valid then dirLost p m else timeLost 1 (dirLost p m) :=
  if_pos (by simp [hp, hv, hd])

theorem timeDirectionLost_answers (ha : Awake s) (hp : p < 2) (hv : (timeDir s.m p).valid = true) (hd : (timeDir s.m p).recDeal < s.m.deal) :
    Answers (.timeDirectionLost p) s (fun n => (timeDir n p).valid = false ∧
      rd n (if p = 0 then F.TIM_STATE_PATH_A else F.TIM_STATE_PATH_B) = 0 ∧
      ((timeDir s.m (1 - p)).valid = false → flag s.m F.TIM_STATE_EVER_LOCKED = true → flag s.m F.TIM_STATE_HOLD = false →
        flag s.m F.TIM_STATE_SOURCE = false → rd n F.TIM_STATE_HOLD = 1 ∧ rd n F.TIM_STATE_LOCKED = 0 ∧ Reported 0x04 0x0402 s.m n)) := by
  have hkept := kept_dirLost p s.m
  have hself : timeDir (dirLost p s.m) p = { timeDir s.m p with valid := false, run := 0 } :=
    (timeDir_congr (congrArg Tim.dirs dirLost_tim)).trans (timeDir_setDir_self _)
  have hother : timeDir (dirLost p s.m) (1 - p) = timeDir s.m (1 - p) :=
    (timeDir_congr (congrArg Tim.dirs dirLost_tim)).trans (timeDir_setDir_ne _ (by omega))
  refine answers_mach _ s (timeDirectionLost p) _ rfl ha ?_
  rw [timeDirectionLost_due hp hv hd, hother]
  split
  case isTrue h => exact ⟨by rw [hself], dirLost_shown hp, fun hn => absurd h (by simp [hn])⟩
  case isFalse h =>
    refine ⟨by rw [timeDir_timeLost, hself], ?_, fun _ he hh hs => ?_⟩
    · have hkey : fkey (if p = 0 then F.TIM_STATE_PATH_A else F.TIM_STATE_PATH_B) 0 0 ∉ timeLostKeys := by
        split <;> decide
      rw [(kept_timeLost ..).rd hkey, dirLost_shown hp]
    · obtain ⟨hhold, hlocked, hrep⟩ := timeLost_holds (m := dirLost p s.m) (cause := 1) (by rw [flag, hkept.rd (by decide)]; exact he)
        (by rw [flag, hkept.rd (by decide)]; exact hh) (by rw [flag, hkept.rd (by decide)]; exact hs)
      exact ⟨hhold, hlocked, reported_since (hkept.events (by decide)) hrep⟩

end Lost

/-- Settles O27, one lemma for each command. -/
theorem markersCarryTime : Obligations.MarkersCarryTime := fun _ _ ha hp =>
  ⟨fun _ => markerReceive_answers ha hp, fun _ => markerLaunch_answers ha hp, timeDirectionLost_answers ha hp⟩

end Sys2Proof.Machine
end

section
/-! The PTP ports L0 and L1 (05 R138, R140-R143): Announce, Sync and delay messages, the messages that a port sends, and the timeout of its
master. -/
namespace Sys2Proof.Machine

/-! A port takes a state. -/

/-- Where a new state of local port l writes registers. -/
def ptpGoKeys (l : Nat) : List Nat := fkey F.TIM_PTP_STAT_STATE l 0 :: timeLostKeys

/-- Where a grandmaster that local port l notes writes registers. -/
def ptpTakeKeys (l : Nat) : List Nat := fkey F.TIM_PTP_STAT_GM_CLASS l 0 :: fkey F.TIM_PTP_STAT_STEPS l 0 :: ptpGoKeys l

/-- A slave port that leaves its state takes its theta with it (R138). -/
def slaveLeft (m : Mach) : Mach := timeLost 2 (setDir 2 { timeDir m 2 with valid := false, run := 0 } m)

section States
variable {β : Type} {ks : List Nat} {m n : Mach} {l new : Nat} {g : GmSet} {x : Ptp}

@[simp] theorem ptpPort_setPtp_self : ptpPort (setPtp l x m) l = x := mget_mset_self ..

theorem ptpPort_congr (h : n.tim.ptp = m.tim.ptp) : ptpPort n l = ptpPort m l := by rw [ptpPort, ptpPort, h]

theorem ptpPort_wri (f : Fld) (i v : Nat) : ptpPort (wri f i v m) l = ptpPort m l := ptpPort_congr (by rw [wri_tim])

theorem kept_setPtp (l : Nat) (x : Ptp) (m : Mach) : Kept ks m (setPtp l x m) := kept_setTim ..

theorem kept_useFresh (k : Nat) (m : Mach) : Kept ks m (useFresh k m) := .of_eq rfl rfl rfl rfl

theorem kept_slaveLeft (m : Mach) : Kept timeLostKeys m (slaveLeft m) := (kept_setDir ..).trans (kept_timeLost ..)

theorem slaveLeft_ptp (m : Mach) : (slaveLeft m).tim.ptp = m.tim.ptp := timeLost_tim (·.ptp) (fun _ _ => rfl) _ _

/-- A port that takes a state reports it, and may be a slave port that leaves its own. -/
theorem ptpGo_cases {P : Mach → Prop} (h : ∀ cls gm steps, P (ptpState l new cls gm steps m)) (hleft : ∀ n, P n → P (slaveLeft n)) :
    P (ptpGo l new m) := by
  simp only [ptpGo]
  split
  · exact hleft _ (h ..)
  · exact h ..

theorem kept_ptpGo (l new : Nat) (m : Mach) : Kept (ptpGoKeys l) m (ptpGo l new m) :=
  ptpGo_cases (fun _ _ _ => (kept_ptpState ..).mono (List.cons_subset_cons _ (by decide)))
    fun n hn => hn.trans ((kept_slaveLeft n).mono (List.subset_cons_self ..))

theorem ptpGo_ptp : (ptpGo l new m).tim.ptp = m.tim.ptp :=
  ptpGo_cases (P := fun n => n.tim.ptp = m.tim.ptp) (fun _ _ _ => by rw [ptpState_tim]) fun n hn => (slaveLeft_ptp n).trans hn

theorem ptpState_state (hl : l < 2) (cls gm steps : Nat) :
    rdi (ptpState l new cls gm steps m) F.TIM_PTP_STAT_STATE l = new % 2 ^ F.TIM_PTP_STAT_STATE.width :=
  (onlyIf_keep (fun n => rdi n F.TIM_PTP_STAT_STATE l) _ _ _
    (rdi_raise _ _ _ _ _ _ ((by decide : ∀ l < 2, fkey F.TIM_PTP_STAT_STATE l 0 ≠ fkey F.HIF_EV_DISCARD_COUNT 0 0) l hl))).trans
    (rdi_wri_self _ _ _ _ hl)

theorem ptpGo_state (hl : l < 2) : rdi (ptpGo l new m) F.TIM_PTP_STAT_STATE l = new % 2 ^ F.TIM_PTP_STAT_STATE.width :=
  ptpGo_cases (P := fun n => rdi n F.TIM_PTP_STAT_STATE l = new % 2 ^ F.TIM_PTP_STAT_STATE.width) (ptpState_state hl) fun n hn =>
    ((kept_slaveLeft n).rdi ((by decide : ∀ l < 2, fkey F.TIM_PTP_STAT_STATE l 0 ∉ timeLostKeys) l hl)).trans hn

theorem ptpState_reported (hnew : rdi m F.TIM_PTP_STAT_STATE l ≠ new) (cls gm steps : Nat) :
    Reported 0x04 0x0407 m (ptpState l new cls gm steps m) := by
  have hold : (rdi m F.TIM_PTP_STAT_STATE l != new) = true := bne_iff_ne.mpr hnew
  simp only [ptpState, hold, onlyIf_true]
  exact (eventsKept_wri (f := F.TIM_PTP_STAT_STATE) l new m (by decide)).reported

theorem ptpGo_reported (hnew : rdi m F.TIM_PTP_STAT_STATE l ≠ new) : Reported 0x04 0x0407 m (ptpGo l new m) :=
  ptpGo_cases (ptpState_reported hnew) fun n hn => reported_then _ _ _ _ _ hn (kept_slaveLeft n).out

/-! A port takes a grandmaster. -/

/-- Port l of n follows the grandmaster g, in the state that it decided on at m, and has reported a change. -/
def Follows (l : Nat) (g : GmSet) (m n : Mach) : Prop :=
  rdi n F.TIM_PTP_STAT_STATE l = ptpDecide m l (gmOrder g) ∧ (ptpPort n l).gmId = g.gmId ∧
  rdi n F.TIM_PTP_STAT_GM_CLASS l = g.cls % 2 ^ F.TIM_PTP_STAT_GM_CLASS.width ∧
  rdi n F.TIM_PTP_STAT_STEPS l = g.steps % 2 ^ F.TIM_PTP_STAT_STEPS.width ∧
  (rdi m F.TIM_PTP_STAT_STATE l ≠ ptpDecide m l (gmOrder g) → Reported 0x04 0x0407 m n)

theorem ptpDecide_fits (m : Mach) (l : Nat) (d : Nat × Nat × Nat × Nat) :
    ptpDecide m l d % 2 ^ F.TIM_PTP_STAT_STATE.width = ptpDecide m l d := by
  unfold ptpDecide
  split
  · rfl
  · split
    · rfl
    · split <;> rfl

/-- The machine with a grandmaster noted at a port. -/
def gmNoted (l : Nat) (g : GmSet) (m : Mach) : Mach :=
  wri F.TIM_PTP_STAT_GM_CLASS l g.cls (wri F.TIM_PTP_STAT_STEPS l g.steps
    (setPtp l { ptpPort m l with gmId := g.gmId, prio1 := g.prio1, prio2 := g.prio2, annTick := m.ticks } m))

theorem ptpTake_eq : ptpTake l g m = useFresh 1 (ptpGo l (ptpDecide m l (gmOrder g)) (gmNoted l g m)) := rfl

theorem kept_gmNoted (l : Nat) (g : GmSet) (m : Mach) :
    Kept [fkey F.TIM_PTP_STAT_GM_CLASS l 0, fkey F.TIM_PTP_STAT_STEPS l 0] m (gmNoted l g m) :=
  (kept_setPtp ..).trans <| (kept_wri _ _ _ fun _ => by simp).trans (kept_wri _ _ _ fun _ => by simp)

theorem gmNoted_gm (hl : l < 2) : (ptpPort (gmNoted l g m) l).gmId = g.gmId ∧
    rdi (gmNoted l g m) F.TIM_PTP_STAT_GM_CLASS l = g.cls % 2 ^ F.TIM_PTP_STAT_GM_CLASS.width ∧
    rdi (gmNoted l g m) F.TIM_PTP_STAT_STEPS l = g.steps % 2 ^ F.TIM_PTP_STAT_STEPS.width := by
  refine ⟨?_, rdi_wri_self _ _ _ _ hl, ?_⟩
  · rw [gmNoted, ptpPort_wri, ptpPort_wri, ptpPort_setPtp_self]
  · rw [gmNoted, rdi_wri_ne _ _ _ _ _ _ ((by decide : ∀ l < 2, fkey F.TIM_PTP_STAT_STEPS l 0 ≠ fkey F.TIM_PTP_STAT_GM_CLASS l 0) l hl)]
    exact rdi_wri_self _ _ _ _ hl

theorem kept_ptpTake (l : Nat) (g : GmSet) (m : Mach) : Kept (ptpTakeKeys l) m (ptpTake l g m) := by
  rw [ptpTake_eq]
  exact ((kept_gmNoted l g m).mono (by simp [ptpTakeKeys])).trans <| ((kept_ptpGo ..).mono fun _ hk => by simp [ptpTakeKeys, hk]).trans
    (kept_useFresh ..)

theorem ptpTake_follows (hl : l < 2) : Follows l g m (ptpTake l g m) := by
  obtain ⟨hid, hclass, hsteps⟩ := gmNoted_gm (g := g) (m := m) hl
  have hnoted := kept_gmNoted l g m
  have hgo : Kept (ptpGoKeys l) _ (ptpTake l g m) := (kept_ptpGo l (ptpDecide m l (gmOrder g)) (gmNoted l g m)).trans (kept_useFresh 1 _)
  refine ⟨(ptpGo_state hl).trans (ptpDecide_fits ..), ?_, ?_, ?_, fun hne => ?_⟩
  · rw [ptpTake_eq, ptpPort_congr (n := useFresh _ _) ptpGo_ptp, hid]
  · rw [hgo.rdi ((by decide : ∀ l < 2, fkey F.TIM_PTP_STAT_GM_CLASS l 0 ∉ ptpGoKeys l) l hl), hclass]
  · rw [hgo.rdi ((by decide : ∀ l < 2, fkey F.TIM_PTP_STAT_STEPS l 0 ∉ ptpGoKeys l) l hl), hsteps]
  · have hstate : rdi (gmNoted l g m) F.TIM_PTP_STAT_STATE l = rdi m F.TIM_PTP_STAT_STATE l := hnoted.rdi ((by decide : ∀ l < 2,
      fkey F.TIM_PTP_STAT_STATE l 0 ∉ [fkey F.TIM_PTP_STAT_GM_CLASS l 0, fkey F.TIM_PTP_STAT_STEPS l 0]) l hl)
    have hevents : EventsKept m (gmNoted l g m) := hnoted.events ((by decide : ∀ l < 2,
      fkey F.HIF_STATUS_RUNNING 0 0 ∉ [fkey F.TIM_PTP_STAT_GM_CLASS l 0, fkey F.TIM_PTP_STAT_STEPS l 0]) l hl)
    exact reported_since hevents (ptpGo_reported (by rwa [hstate]))

end States

/-! A message arrives. -/

/-- The machine with the capability of a port's neighbour shown. -/
def asShown (l : Nat) (k : PtpIn) (m : Mach) : Mach := wri F.TIM_PTP_STAT_AS_CAPABLE l (b2n (k.asCapable && k.gptp)) m

section Receive
variable {s : State} {m n : Mach} {l t1 t2 t3 t4 : Nat} {k : PtpIn} {g : GmSet}

theorem kept_asShown (l : Nat) (k : PtpIn) (m : Mach) : Kept [fkey F.TIM_PTP_STAT_AS_CAPABLE l 0] m (asShown l k m) :=
  kept_wri _ _ _ fun _ => by simp

theorem asShown_state (hl : l < 2) : rdi (asShown l k m) F.TIM_PTP_STAT_STATE l = rdi m F.TIM_PTP_STAT_STATE l :=
  (kept_asShown l k m).rdi ((by decide : ∀ l < 2, fkey F.TIM_PTP_STAT_STATE l 0 ∉ [fkey F.TIM_PTP_STAT_AS_CAPABLE l 0]) l hl)

/-- Where a port's role, its comparison with another master and its decision read registers. -/
def judgeKeys (l : Nat) : List Nat := [fkey F.TIM_PTP_STAT_STATE l 0, fkey F.TIM_PTP_STAT_STATE (1 - l) 0, fkey F.TIM_PTP_STAT_GM_CLASS l 0,
  fkey F.TIM_CTRL_MODE 0 0, fkey F.TIM_STATE_SOURCE 0 0, fkey F.TIM_STATE_HOLD 0 0, fkey F.TIM_STATE_LOCKED 0 0, fkey F.CLK_STATE_MODE 0 0,
  fkey F.CLK_FLAGS_HOLDOVER_OUT_OF_SPEC 0 0]

/-- What a port is by its set-up and by the state of time does not turn on its neighbour's capability. -/
theorem ptpJudged_asShown (hl : l < 2) : ptpGptp (asShown l k m) l = ptpGptp m l ∧
    ∀ g, ptpOutranked (asShown l k m) l g = ptpOutranked m l g ∧
      ptpDecide (asShown l k m) l (gmOrder g) = ptpDecide m l (gmOrder g) := by
  have hkeys : ∀ j ∈ judgeKeys l, j ∉ [fkey F.TIM_PTP_STAT_AS_CAPABLE l 0] := (by decide : ∀ l < 2, ∀ j ∈ judgeKeys l,
    j ∉ [fkey F.TIM_PTP_STAT_AS_CAPABLE l 0]) l hl
  simp only [judgeKeys, List.forall_mem_cons] at hkeys
  obtain ⟨hown, hother, hgm, hmode, hsource, hhold, hlocked, hclk, hoos, -⟩ := hkeys
  have hk := kept_asShown l k m
  have hport : ptpPort (asShown l k m) l = ptpPort m l := ptpPort_wri ..
  have hfresh : (asShown l k m).fresh = m.fresh := rfl
  have hticks : (asShown l k m).ticks = m.ticks := rfl
  generalize asShown l k m = n at *
  have hset : ∀ f, sui n f l = sui m f l := fun f => by rw [sui, sui, hk.setup]
  have hrole : ptpRole n l = ptpRole m l := by rw [ptpRole, ptpRole, hset, hk.rd hmode]
  have hgptp : ptpGptp n l = ptpGptp m l := by rw [ptpGptp, ptpGptp, hrole]
  have hflag : ∀ f, fkey f 0 0 ∉ [fkey F.TIM_PTP_STAT_AS_CAPABLE l 0] → flag n f = flag m f := fun f hf => by rw [flag, flag, hk.rd hf]
  have hclass : clockClass n = clockClass m := by
    rw [clockClass, clockClass, freeVal, freeVal, hflag _ hsource, hflag _ hhold, hflag _ hlocked, hflag _ hoos, hk.rd hclk, hfresh]
  refine ⟨hgptp, fun g => ⟨?_, ?_⟩⟩
  · rw [ptpOutranked, ptpOutranked, hport, hk.rdi hown, hk.rdi hgm, ptpTimeoutAt, ptpTimeoutAt, ptpEvery, ptpEvery, hport, hset, hset, hset,
      hset, hticks]
  · rw [ptpDecide, ptpDecide, ptpForced, ptpForced, ptpOwn, ptpOwn, hrole, hgptp, hclass, hset, hset, hk.rd hmode, hk.rdi hother]

/-- A message for a port shows its neighbour's capability; its stamps are those of the port as it arrived (R144). -/
theorem ptpReceive_announce (hl : l < 2) (hm : ptpMine m l k = true) (hb : k.body = .announce g) :
    ptpReceive l k m = ptpAnnounce l g (asShown l k m) := by
  rw [ptpReceive, if_neg (by simp [hl, hm]), hb]
  rfl

theorem ptpReceive_sync (hl : l < 2) (hm : ptpMine m l k = true) (hb : k.body = .sync t1 t2) :
    ptpReceive l k m = ptpSync l t1 (stampIn m (2 + l) t2) (asShown l k m) := by
  rw [ptpReceive, if_neg (by simp [hl, hm]), hb]
  rfl

theorem ptpReceive_delay (hl : l < 2) (hm : ptpMine m l k = true) (hb : k.body = .delay t1 t2 t3 t4) :
    ptpReceive l k m = if k.gptp then ptpDelay l (stampOut m (2 + l) t1) t2 t3 (stampIn m (2 + l) t4) (asShown l k m)
      else ptpDelay l t1 t2 (stampOut m (2 + l) t3) t4 (asShown l k m) := by
  rw [ptpReceive, if_neg (by simp [hl, hm]), hb]
  rfl

theorem follows_asShown (hl : l < 2) (h : Follows l g (asShown l k m) n) : Follows l g m n := by
  obtain ⟨-, hdecide⟩ := (ptpJudged_asShown (m := m) (k := k) hl).2 g
  obtain ⟨hstate, hid, hclass, hsteps, hrep⟩ := h
  rw [asShown_state hl, hdecide] at hrep
  rw [hdecide] at hstate
  exact ⟨hstate, hid, hclass, hsteps, fun hne => reported_since ((kept_asShown l k m).events
    ((by decide : ∀ l < 2, fkey F.HIF_STATUS_RUNNING 0 0 ∉ [fkey F.TIM_PTP_STAT_AS_CAPABLE l 0]) l hl)) (hrep hne)⟩

theorem asShown_capable (hl : l < 2) : rdi (asShown l k m) F.TIM_PTP_STAT_AS_CAPABLE l = b2n (k.asCapable && k.gptp) := by
  rw [asShown, rdi_wri_self _ _ _ _ hl]
  cases k.asCapable && k.gptp <;> rfl

theorem ptpAnnounce_answers (ha : Awake s) (hl : l < 2) (hm : ptpMine s.m l k = true) (hb : k.body = .announce g) :
    Answers (.ptpMessageReceive l k) s (fun n => rdi n F.TIM_PTP_STAT_AS_CAPABLE l = b2n (k.asCapable && k.gptp) ∧
      (ptpOutranked s.m l g = true → n.tim = s.m.tim ∧ n.out = s.m.out ∧ rdi n F.TIM_PTP_STAT_STATE l = rdi s.m F.TIM_PTP_STAT_STATE l) ∧
      (ptpOutranked s.m l g = false → Follows l g s.m n)) := by
  obtain ⟨houtranked, -⟩ := (ptpJudged_asShown (m := s.m) (k := k) hl).2 g
  refine answers_mach _ s (ptpReceive l k) _ rfl ha ?_
  rw [ptpReceive_announce hl hm hb, ptpAnnounce, houtranked]
  split
  case isTrue h => exact ⟨asShown_capable hl, fun _ => ⟨rfl, rfl, asShown_state hl⟩, fun hn => by simp [h] at hn⟩
  case isFalse h =>
    refine ⟨?_, fun hy => absurd hy h, fun _ => follows_asShown hl (ptpTake_follows hl)⟩
    rw [(kept_ptpTake l g _).rdi ((by decide : ∀ l < 2, fkey F.TIM_PTP_STAT_AS_CAPABLE l 0 ∉ ptpTakeKeys l) l hl)]
    exact asShown_capable hl

/-! A Sync, and a delay measurement. -/

/-- A port with the offset that a Sync gives it. -/
def syncedPort (t1 t2 : Nat) (x : Ptp) : Ptp := { x with t1 := t1, t2 := t2, offset := toPs ((t2 : Int) - t1) - x.pathDelay }

theorem ptpSync_slave (h : rdi m F.TIM_PTP_STAT_STATE l = 9) : ptpSync l t1 t2 m =
    if rd m F.TIM_CTRL_MODE = 2 then
      takeRecord 2 0 l { timeDir (setPtp l (syncedPort t1 t2 (ptpPort m l)) m) 2 with theta := (syncedPort t1 t2 (ptpPort m l)).offset }
        (setPtp l (syncedPort t1 t2 (ptpPort m l)) m)
    else setPtp l (syncedPort t1 t2 (ptpPort m l)) m := if_neg (by simp [h])

theorem ptpSync_gives (h : rdi m F.TIM_PTP_STAT_STATE l = 9) : ptpPort (ptpSync l t1 t2 m) l = syncedPort t1 t2 (ptpPort m l) ∧
    (rd m F.TIM_CTRL_MODE = 2 → (timeDir (ptpSync l t1 t2 m) 2).theta = (syncedPort t1 t2 (ptpPort m l)).offset ∧
      (timeDir (ptpSync l t1 t2 m) 2).recDeal = m.deal) := by
  rw [ptpSync_slave h]
  split
  case isTrue =>
    refine ⟨?_, fun _ => ?_⟩
    · rw [ptpPort_congr takeRecord_ptp, ptpPort_setPtp_self]
    · rw [timeDir_takeRecord]
      exact ⟨rfl, rfl⟩
  case isFalse hmode => exact ⟨ptpPort_setPtp_self, fun hm => absurd hm hmode⟩

theorem ptpSync_answers (ha : Awake s) (hl : l < 2) (hm : ptpMine s.m l k = true) (hb : k.body = .sync t1 t2)
    (h9 : rdi s.m F.TIM_PTP_STAT_STATE l = 9) :
    Answers (.ptpMessageReceive l k) s (fun n =>
      (ptpPort n l).offset = toPs ((stampIn s.m (2 + l) t2 : Int) - t1) - (ptpPort s.m l).pathDelay ∧
      (rd s.m F.TIM_CTRL_MODE = 2 → (timeDir n 2).theta = (ptpPort n l).offset ∧ (timeDir n 2).recDeal = s.m.deal)) := by
  have hmode : rd (asShown l k s.m) F.TIM_CTRL_MODE = rd s.m F.TIM_CTRL_MODE :=
    (kept_asShown l k s.m).rd ((by decide : ∀ l < 2, fkey F.TIM_CTRL_MODE 0 0 ∉ [fkey F.TIM_PTP_STAT_AS_CAPABLE l 0]) l hl)
  obtain ⟨hport, htheta⟩ := ptpSync_gives (t1 := t1) (t2 := stampIn s.m (2 + l) t2) ((asShown_state hl).trans h9)
  refine answers_mach _ s (ptpReceive l k) _ rfl ha ?_
  rw [ptpReceive_sync hl hm hb, hport]
  refine ⟨?_, fun h2 => htheta (hmode.trans h2)⟩
  rw [asShown, ptpPort_wri]
  rfl

theorem ptpDelay_answers (ha : Awake s) (hl : l < 2) (hm : ptpMine s.m l k = true) (hb : k.body = .delay t1 t2 t3 t4) :
    Answers (.ptpMessageReceive l k) s (fun n =>
      (k.gptp = false → (ptpPort n l).pathDelay =
        toPs ((((ptpPort s.m l).t2 : Int) - (ptpPort s.m l).t1 + ((t4 : Int) - stampOut s.m (2 + l) t3)) / 2)) ∧
      (k.gptp = true → (ptpPort n l).pathDelay =
        toPs (((stampIn s.m (2 + l) t4 : Int) - stampOut s.m (2 + l) t1 -
          (((t3 : Int) - t2) - ((t3 : Int) - t2) * (ptpPort n l).rateRatio / 2 ^ 41)) / 2))) := by
  have hgptp : ptpGptp (asShown l k s.m) l = k.gptp := by
    simp only [ptpMine, Bool.and_eq_true, beq_iff_eq] at hm
    obtain ⟨⟨⟨-, hg⟩, -⟩, -⟩ := hm
    exact (ptpJudged_asShown hl).1.trans hg.symm
  refine answers_mach _ s (ptpReceive l k) _ rfl ha ?_
  rw [ptpReceive_delay hl hm hb]
  split
  case isTrue h =>
    rw [ptpDelay, hgptp, if_pos h, ptpPort_setPtp_self]
    exact ⟨fun hn => by simp [h] at hn, fun _ => rfl⟩
  case isFalse h =>
    rw [ptpDelay, hgptp, if_neg h, ptpPort_setPtp_self, asShown, ptpPort_wri]
    exact ⟨fun _ => rfl, fun hy => absurd hy h⟩

end Receive

/-! A message leaves, and the master's timeout. -/

section Sends
variable {s : State} {m : Mach} {l kind : Nat} {g : GmSet}

/-- The machine with a message of a port counted and on its way out. -/
def ptpSent (l kind : Nat) (m : Mach) : Mach :=
  emit (.ptp (2 + l) kind (ptpPay m l)) (setPtp l { ptpPort m l with sent := mput kind m.ticks (ptpPort m l).sent } m)

theorem ptpInterval_due (hl : l < 2) (hk : kind ≤ 2) (hr : ptpRuns m l = true) (hs : ptpSends m l kind = true)
    (hd : ∀ t, mfind (ptpPort m l).sent kind = some t → t + ptpEvery m l kind ≤ m.ticks) :
    ptpInterval l kind m = useFresh 1 (ownFrame (2 + l) (tcOf m (2 + l) 0) 64 none (ptpSent l kind m)) := by
  have hdue : ¬ (mfind (ptpPort m l).sent kind).any (fun t => decide (m.ticks < t + ptpEvery m l kind)) = true := by
    simp only [Option.any_eq_true, decide_eq_true_eq, not_exists, not_and, Nat.not_lt]
    exact hd
  simp only [ptpInterval]
  rw [if_neg (by simp [hl, hk, hr, hs]), if_neg hdue]
  rfl

theorem ptpInterval_answers (ha : Awake s) (hl : l < 2) (hk : kind ≤ 2) (hr : ptpRuns s.m l = true) (hs : ptpSends s.m l kind = true)
    (hd : ∀ t, mfind (ptpPort s.m l).sent kind = some t → t + ptpEvery s.m l kind ≤ s.m.ticks) :
    Answers (.ptpMessageInterval l kind) s (fun n => NewOut s.m n (.ptp (2 + l) kind (ptpPay s.m l)) ∧
      mfind (ptpPort n l).sent kind = some s.m.ticks) := by
  have hout : NewOut s.m (ptpSent l kind s.m) (.ptp (2 + l) kind (ptpPay s.m l)) := ⟨[_], rfl, List.mem_singleton_self _⟩
  have htim : ∀ tc n, (useFresh 1 (ownFrame (2 + l) tc 64 none n)).tim = n.tim := fun _ _ => ownFrame_keep tim_sendKeeps ..
  refine answers_mach _ s (ptpInterval l kind) _ rfl ha ?_
  rw [ptpInterval_due hl hk hr hs hd]
  refine ⟨newOut_mono _ _ _ _ hout ((kept_ownFrame ..).trans (kept_useFresh ..)).out, ?_⟩
  have hport : ptpPort (ptpSent l kind s.m) l = { ptpPort s.m l with sent := mput kind s.m.ticks (ptpPort s.m l).sent } :=
    ptpPort_setPtp_self
  rw [ptpPort_congr (congrArg Tim.ptp (htim _ _)), hport, mfind_mput_self]

theorem ptpTimeout_due (hl : l < 2) (hr : ptpRuns m l = true) (hf : ptpForced m l = false) (ht : ptpTimeoutAt m l ≤ m.ticks) :
    ptpTimeout l none m = ptpGo l (if ptpRole m l = 5 then 4 else 6) m ∧ ∀ g, ptpTimeout l (some g) m = ptpTake l g m :=
  ⟨if_neg (by simp [hl, hr, hf, ht]), fun _ => if_neg (by simp [hl, hr, hf, ht])⟩

theorem ptpTimeout_answers (ha : Awake s) (hl : l < 2) (hr : ptpRuns s.m l = true) (hf : ptpForced s.m l = false)
    (ht : ptpTimeoutAt s.m l ≤ s.m.ticks) :
    Answers (.ptpAnnounceTimeout l none) s (fun n => rdi n F.TIM_PTP_STAT_STATE l = (if ptpRole s.m l = 5 then 4 else 6)) ∧
    ∀ g, Answers (.ptpAnnounceTimeout l (some g)) s (Follows l g s.m) := by
  obtain ⟨hnone, hsome⟩ := ptpTimeout_due hl hr hf ht
  refine ⟨answers_mach _ s (ptpTimeout l none) _ rfl ha ?_, fun g => answers_mach _ s (ptpTimeout l (some g)) _ rfl ha ?_⟩
  · rw [hnone, ptpGo_state hl]
    split <;> rfl
  · rw [hsome]
    exact ptpTake_follows hl

end Sends

/-- Settles O30, one lemma for each command and kind of message. -/
theorem ptpPortsRun : Obligations.PtpPortsRun := fun _ _ ha hl =>
  ⟨fun _ hm => ⟨fun _ => ptpAnnounce_answers ha hl hm, fun _ _ => ptpSync_answers ha hl hm, fun _ _ _ _ => ptpDelay_answers ha hl hm⟩,
    fun _ => ptpInterval_answers ha hl, ptpTimeout_answers ha hl⟩

end Sys2Proof.Machine
end

section
/-! Frames that leave a port, as the ring sees them (06 R166-R168, R170, R174): what they keep of its records and counters, the MKPDUs, and the
statuses that the ring ports carry. -/
namespace Sys2Proof.Machine

/-- The counters that a frame may raise which leaves a port (R186). -/
def sendCounts : List Nat := [0x0102, 0x0103, 0x0104, 0x010E, 0x0111, 0x0120, 0x0121, 0x0305]

/-- What the changes keep of which a frame is made that leaves port o; unlike `SendKeeps`, it may look at the ring. -/
structure FrameKeeps {β : Type} (g : Mach → β) (o : Nat) : Prop where
  egress : ∀ x n, g (setEgress o x n) = g n
  sent : ∀ n pn st, g (setPort o { port n o with txPn := pn, txStamp := st } n) = g n
  count : ∀ q, ∀ id ∈ sendCounts, ∀ k n, g (count q id k n) = g n
  emit : ∀ x n, g (emit x n) = g n
  raise : ∀ src code pay n, g (raise src code pay n) = g n
  tok : ∀ v n, g (setTok o v n) = g n
  low : ∀ v n, g (wr F.RING_FLAGS_TOKEN_LOW v n) = g n

section Frames
variable {β : Type} {g : Mach → β} {o p q now id : Nat} {f : QFrame} {m n : Mach}

theorem frameKeeps_ring (g : RingSt → β) (hg : ∀ x ps es cs, g { x with ports := ps, egress := es, counters := cs } = g x) :
    FrameKeeps (fun m => g m.ring) o :=
  ⟨fun _ n => hg n.ring _ _ _, fun n _ _ => hg n.ring _ _ _, fun _ _ _ _ n => hg n.ring _ _ _, fun _ _ => rfl, fun _ _ _ _ => rfl,
    fun _ _ => rfl, fun _ _ => rfl⟩

theorem port_setPort_ne (x : Port) (h : p ≠ q) : port (setPort q x m) p = port m p := mget_mset_ne _ _ _ _ _ h

theorem frameKeeps_port (h : p ≠ o) : FrameKeeps (port · p) o :=
  ⟨fun _ _ => rfl, fun _ _ _ => port_setPort_ne _ h, fun _ _ _ _ _ => rfl, fun _ _ => rfl, fun _ _ _ _ => rfl, fun _ _ => rfl, fun _ _ => rfl⟩

theorem frameKeeps_ringCnt (hid : id < 2 ^ 16) (h : id ∉ sendCounts) : FrameKeeps (ringCnt · p id) o := by
  have hkey : ∀ q, ∀ jd ∈ sendCounts, p * 2 ^ 16 + id ≠ q * 2 ^ 16 + jd := fun q jd hjd => by
    have hlt : jd < 2 ^ 16 := (by decide : ∀ jd ∈ sendCounts, jd < 2 ^ 16) jd hjd
    have hne : id ≠ jd := fun e => h (e ▸ hjd)
    omega
  exact ⟨fun _ _ => rfl, fun _ _ _ => rfl, fun q jd hjd k _ => ringCnt_count_ne k (hkey q jd hjd), fun _ _ => rfl, fun _ _ _ _ => rfl,
    fun _ _ => rfl, fun _ _ => rfl⟩

theorem FrameKeeps.startFrame (hg : FrameKeeps g o) (now : Nat) (f : QFrame) (m : Mach) : g (startFrame o now f m) = g m := by
  rw [startFrame_eq, hg.emit, frameStarted, hg.count _ _ (by decide), hg.count _ _ (by decide), hg.egress, hg.sent]

theorem FrameKeeps.pickFrame (hg : FrameKeeps g o) (now : Nat) (m : Mach) : g (pickFrame o now m) = g m := by
  simp only [Machine.pickFrame]
  split
  · rfl
  · split
    · rfl
    · rw [hg.startFrame, hg.egress]

theorem FrameKeeps.advanceCredit (hg : FrameKeeps g o) (now : Nat) (m : Mach) : g (advanceCredit o now m) = g m := hg.egress _ _

theorem FrameKeeps.enqueue (hg : FrameKeeps g o) (f : QFrame) (m : Mach) : g (enqueue o f m) = g m := by
  simp only [Machine.enqueue]
  split
  · rw [hg.count _ _ (by decide), hg.egress]
  · rw [onlyIf_keep g _ _ _ (by rw [hg.raise, hg.low]), onlyIf_keep g _ _ _ (hg.count _ _ (by decide) _ _), hg.count _ _ (by decide), hg.tok,
      hg.egress]

theorem FrameKeeps.toEgress (hg : FrameKeeps g o) (now : Nat) (cut : Bool) (f : QFrame) (m : Mach) : g (toEgress o now cut f m) = g m := by
  have hfirst : g (Machine.pickFrame o now (Machine.advanceCredit o now m)) = g m := (hg.pickFrame now _).trans (hg.advanceCredit now m)
  simp only [Machine.toEgress]
  split
  · rw [onlyIf_keep g _ _ _ (hg.count _ _ (by decide) _ _), hg.startFrame, hfirst]
  · rw [onlyIf_keep g _ _ _ (hg.count _ _ (by decide) _ _), hg.enqueue, hfirst]

theorem FrameKeeps.ownFrame (hg : FrameKeeps g o) (tc len : Nat) (tag : Option RingTag) (m : Mach) : g (ownFrame o tc len tag m) = g m := by
  unfold Machine.ownFrame
  split
  · exact hg.count _ _ (by decide) _ _
  · exact hg.toEgress ..

theorem FrameKeeps.sendHeivo (hg : FrameKeeps g o) (sub : Nat) (tag : Option RingTag) (pay : Pay) (m : Mach) :
    g (sendHeivo o sub tag pay m) = g m := by
  rw [Machine.sendHeivo, hg.ownFrame, onlyIf_keep g _ _ _ (hg.emit _ _)]

/-! MKPDUs (R170). -/

/-- A port whose MKPDU is on its way. -/
def helloSent (p : Nat) (m : Mach) : Mach := setPort p { port m p with hello := m.ticks } (emit (.mkpdu p) m)

theorem FrameKeeps.sendMkpdu (hg : FrameKeeps g o) (m : Mach) : g (sendMkpdu o m) = g (helloSent o m) := hg.toEgress ..

theorem kept_sendMkpdu (p : Nat) (m : Mach) : Kept (sendKeys p) m (sendMkpdu p m) :=
  (kept_emit ..).trans <| (kept_setPort ..).trans (kept_toEgress ..)

theorem sendMkpdu_sends (p : Nat) (m : Mach) : NewOut m (sendMkpdu p m) (.mkpdu p) :=
  newOut_mono _ (helloSent p m) _ _ ⟨[_], rfl, List.mem_singleton_self _⟩ (kept_toEgress ..).out

theorem sendMkpdu_faults (p : Nat) (m : Mach) : (sendMkpdu p m).ring.faults = m.ring.faults :=
  (frameKeeps_ring (o := p) (·.faults) fun _ _ _ _ => rfl).sendMkpdu m

/-- An MKPDU leaves all of its port but the packet number, the egress stamp and its own time. -/
theorem port_sendMkpdu (g : Port → β) (hg : ∀ x pn st, g { x with txPn := pn, txStamp := st } = g x) (p : Nat) (m : Mach) :
    g (port (sendMkpdu p m) p) = g { port m p with hello := m.ticks } :=
  (port_toEgress g hg ..).trans (congrArg g (port_setPort_self _))

/-! Statuses (R174). -/

/-- Where a status that leaves on both ring ports writes registers. -/
def floodKeys : List Nat := sendKeys 0 ++ sendKeys 1

theorem newOut_since {o : Out} (h : ∃ l, n.out = l ++ m.out) {r : Mach} (hn : NewOut n r o) : NewOut m r o := by
  obtain ⟨l, hl⟩ := h
  obtain ⟨k, hk, hmem⟩ := hn
  exact ⟨k ++ l, by rw [hk, hl, List.append_assoc], List.mem_append_left _ hmem⟩

theorem kept_sendHeivo (o sub : Nat) (tag : Option RingTag) (pay : Pay) (m : Mach) : Kept (sendKeys o) m (sendHeivo o sub tag pay m) :=
  (kept_onlyIf _ (kept_emit ..)).trans (kept_ownFrame ..)

theorem kept_sendBoth (sub : Nat) (pay : Pay) (m : Mach) : Kept floodKeys m (sendBoth sub pay m) :=
  ((kept_sendHeivo ..).mono (List.subset_append_left ..)).trans ((kept_sendHeivo ..).mono (List.subset_append_right ..))

theorem kept_floodStatus (x : RingStatus) (m : Mach) : Kept floodKeys m (floodStatus x m) := (kept_sendBoth ..).trans (kept_setRing ..)

theorem kept_detectFault (p cause : Nat) (m : Mach) : Kept floodKeys m (detectFault p cause m) := by
  simp only [detectFault]
  split
  · exact kept_floodStatus ..
  · exact .refl m

theorem sendHeivo_sends (sub : Nat) (tag : Option RingTag) (pay : Pay) (h : maySend m o = true) :
    NewOut m (sendHeivo o sub tag pay m) (.heivo o sub tag (heivoHdr sub pay m) pay) := by
  rw [sendHeivo, h, onlyIf_true]
  exact newOut_mono _ _ _ _ ⟨[_], rfl, List.mem_singleton_self _⟩ (kept_ownFrame ..).out

/-- Whether a port may send rests on its own record and registers alone. -/
theorem maySend_congr (hcfg : rdi n F.RING_PORT_CFG_MACSEC p = rdi m F.RING_PORT_CFG_MACSEC p) (hsec : secure n p = secure m p)
    (hport : ((port n p).xpn, (port n p).txPn) = ((port m p).xpn, (port m p).txPn)) : maySend n p = maySend m p := by
  obtain ⟨hxpn, hpn⟩ := Prod.mk.inj hport
  simp only [maySend, macsecOn, hcfg, hsec, hxpn, hpn]

/-- A frame for port A leaves port B as it is. -/
theorem maySend_other (sub : Nat) (tag : Option RingTag) (pay : Pay) (m : Mach) : maySend (sendHeivo 0 sub tag pay m) 1 = maySend m 1 := by
  have hkept := kept_sendHeivo 0 sub tag pay m
  have hport : port (sendHeivo 0 sub tag pay m) 1 = port m 1 := (frameKeeps_port (by decide)).sendHeivo ..
  have hsec : secure (sendHeivo 0 sub tag pay m) 1 = secure m 1 := congrArg (· == 1) (hkept.rdi (by decide))
  exact maySend_congr (hkept.rdi (by decide)) hsec (by rw [hport])

theorem sendBoth_sends (sub : Nat) (pay : Pay) (ho : o < 2) (h : maySend m o = true) :
    ∃ tag hdr, NewOut m (sendBoth sub pay m) (.heivo o sub tag hdr pay) := by
  obtain rfl | rfl : o = 0 ∨ o = 1 := by omega
  · exact ⟨_, _, newOut_mono _ _ _ _ (sendHeivo_sends sub _ pay h) (kept_sendHeivo ..).out⟩
  · exact ⟨_, _, newOut_since (kept_sendHeivo ..).out (sendHeivo_sends sub _ pay ((maySend_other ..).trans h))⟩

/-- A status is held here, and its frame leaves every ring port that may send. -/
def Floods (x : RingStatus) (m n : Mach) : Prop := n.ring.pendingSt = m.ring.pendingSt ++ [x] ∧
  ∀ o, o < 2 → maySend m o = true → ∃ tag hdr, NewOut m n (.heivo o 2 tag hdr (statusPay x))

theorem floodStatus_floods (x : RingStatus) (m : Mach) : Floods x m (floodStatus x m) := by
  refine ⟨by rw [floodStatus, setRing_ring], fun o ho h => ?_⟩
  obtain ⟨tag, hdr, hout⟩ := sendBoth_sends 2 (statusPay x) ho h
  exact ⟨tag, hdr, newOut_mono _ _ _ _ hout ⟨[], by rw [floodStatus, setRing_out, List.nil_append]⟩⟩

/-- A fault that is found adds to the statuses held, and leaves the rest of the ring. -/
theorem detectFault_ring (g : RingSt → β) (hg : ∀ x l, g { x with pendingSt := l } = g x) (p cause : Nat) (m : Mach) :
    g (detectFault p cause m).ring = g m.ring := by
  simp only [detectFault]
  split
  · exact hg m.ring _
  · rfl

end Frames

end Sys2Proof.Machine
end

section
/-! Links (06 R159, R160, R170): what a link shows, how it goes down, the polls of an external PHY, and the MKA peer of a port. -/
namespace Sys2Proof.Machine

/-- Where the loss of port p's link writes registers. -/
def linkPlaces (p : Nat) : List Nat := floodKeys ++ linkFlds.map (fun f => fkey f 0 0) ++ linkPortFlds.map (fun f => fkey f p 0)

/-- A port's record without its SA. -/
def unsecured (x : Port) : Port := { x with peer := 0xFFFF, keyNo := 0, peerJoined := false, markRun := 0, backRun := 0 }

section Shows
variable {β : Type} {f : Fld} {p link sec cause : Nat} {m n : Mach}

theorem mem_linkPlaces (hf : f ∈ linkFlds) : fkey f 0 0 ∈ linkPlaces p :=
  List.mem_append_left _ (List.mem_append_right _ (List.mem_map_of_mem (f := fun f => fkey f 0 0) hf))

theorem mem_linkPlaces_port (hf : f ∈ linkPortFlds) : fkey f p 0 ∈ linkPlaces p :=
  List.mem_append_right _ (List.mem_map_of_mem (f := fun f => fkey f p 0) hf)

theorem kept_showLink (p link sec : Nat) (m : Mach) : Kept (linkPlaces p) m (showLink p link sec m) := by
  have hport : Kept (linkPlaces p) m (wri F.RING_PORT_STAT_LINK p link (wri F.RING_PORT_STAT_SECURE p sec m)) :=
    (kept_wri _ _ _ fun _ => mem_linkPlaces_port (by decide)).trans (kept_wri _ _ _ fun _ => mem_linkPlaces_port (by decide))
  simp only [showLink]
  split
  · exact hport.trans <| (kept_wr _ _ (mem_linkPlaces (by decide))).trans (kept_wr _ _ (mem_linkPlaces (by decide)))
  · split
    · exact hport.trans <| (kept_wr _ _ (mem_linkPlaces (by decide))).trans (kept_wr _ _ (mem_linkPlaces (by decide)))
    · exact hport

theorem kept_showNbr (p peer : Nat) (m : Mach) : Kept [fkey F.RING_NBR_NBR_A 0 0, fkey F.RING_NBR_NBR_B 0 0] m (showNbr p peer m) := by
  unfold showNbr
  split
  · exact kept_wr _ _ (by decide)
  · split
    · exact kept_wr _ _ (by decide)
    · exact .refl m

theorem nbrKeys_subset : [fkey F.RING_NBR_NBR_A 0 0, fkey F.RING_NBR_NBR_B 0 0] ⊆ linkPlaces p :=
  List.cons_subset.mpr ⟨mem_linkPlaces (by decide), List.cons_subset.mpr ⟨mem_linkPlaces (by decide), List.nil_subset _⟩⟩

theorem kept_dropSa (p : Nat) (m : Mach) : Kept (linkPlaces p) m (dropSa p m) :=
  (kept_setPort ..).trans <| (kept_showLink ..).trans <| (kept_wri _ _ _ fun _ => mem_linkPlaces_port (by decide)).trans <|
    (kept_showNbr ..).mono nbrKeys_subset

/-- A link that is shown: both bits of its port, at every port (Table 6.8). -/
theorem showLink_shows (hp : p < 4) (link sec : Nat) (m : Mach) :
    rdi (showLink p link sec m) F.RING_PORT_STAT_LINK p = link % 2 ∧ rdi (showLink p link sec m) F.RING_PORT_STAT_SECURE p = sec % 2 := by
  have hne : ∀ p < 4, ∀ f ∈ [F.RING_PORT_STAT_LINK, F.RING_PORT_STAT_SECURE], ∀ g ∈ linkFlds, fkey f p 0 ≠ fkey g 0 0 := by decide
  have hstate : ∀ f ∈ [F.RING_PORT_STAT_LINK, F.RING_PORT_STAT_SECURE], rdi (showLink p link sec m) f p =
      rdi (wri F.RING_PORT_STAT_LINK p link (wri F.RING_PORT_STAT_SECURE p sec m)) f p := by
    intro f hf
    simp only [showLink]
    split
    · rw [rdi_wr_ne _ _ _ _ _ (hne p hp f hf _ (by decide)), rdi_wr_ne _ _ _ _ _ (hne p hp f hf _ (by decide))]
    · split
      · rw [rdi_wr_ne _ _ _ _ _ (hne p hp f hf _ (by decide)), rdi_wr_ne _ _ _ _ _ (hne p hp f hf _ (by decide))]
      · rfl
  have hports : ∀ p < 4, fkey F.RING_PORT_STAT_SECURE p 0 ≠ fkey F.RING_PORT_STAT_LINK p 0 := by decide
  rw [hstate _ (by decide), hstate _ (by decide), rdi_wri_self _ _ _ _ hp, rdi_wri_ne _ _ _ _ _ _ (hports p hp), rdi_wri_self _ _ _ _ hp]
  exact ⟨rfl, rfl⟩

theorem dropSa_ring (p : Nat) (m : Mach) : (dropSa p m).ring = (setPort p (unsecured (port m p)) m).ring := by
  rw [dropSa, showNbr_ring, wri_ring, showLink_ring]
  rfl

theorem port_congr (h : n.ring = m.ring) : port n p = port m p := by rw [port, port, h]

theorem ringCnt_congr {id : Nat} (h : n.ring = m.ring) : ringCnt n p id = ringCnt m p id := by rw [ringCnt, ringCnt, h]

theorem port_dropSa (p : Nat) (m : Mach) : port (dropSa p m) p = unsecured (port m p) :=
  (port_congr (dropSa_ring p m)).trans (port_setPort_self _)

/-- A port whose SA is withdrawn is unsecured. -/
theorem dropSa_unsecures (hp : p < 4) (m : Mach) : secure (dropSa p m) p = false := by
  have hnbr : ∀ p < 4, fkey F.RING_PORT_STAT_SECURE p 0 ∉ [fkey F.RING_NBR_NBR_A 0 0, fkey F.RING_NBR_NBR_B 0 0] := by decide
  have han : ∀ p < 4, fkey F.RING_PORT_STAT_SECURE p 0 ≠ fkey F.RING_PORT_STAT_AN p 0 := by decide
  rw [secure, dropSa, (kept_showNbr ..).rdi (hnbr p hp), rdi_wri_ne _ _ _ _ _ _ (han p hp), (showLink_shows hp ..).2]
  rfl

end Shows

/-! A link goes down (R160). -/

section Down
variable {β : Type} {p cause : Nat} {m : Mach}

/-- A port that has reported its link down and counted it. -/
def lossCounted (p cause : Nat) (m : Mach) : Mach :=
  count p 0x010D 1 (linkEvent p 0 cause (onlyIf (cause == 1) (count p 0x010A 1)
    (setPort p { port m p with pcs := if cause = 1 then false else (port m p).pcs } m)))

/-- A port whose link is down, before it becomes a fault point. -/
def linkLost (p cause : Nat) (m : Mach) : Mach := showMark p 0 (showLink p 0 0 (dropSa p (lossCounted p cause m)))

theorem linkDown_up (hp : p < 4) (hu : linkUp m p = true) (cause : Nat) :
    linkDown p cause m = detectFault p (if cause = 3 then 3 else 1) (linkLost p cause m) := if_pos (by simp [hp, hu])

theorem linkDown_not_up (hu : linkUp m p = false) (cause : Nat) : linkDown p cause m = m := if_neg (by simp [hu])

/-- A link that goes down takes the secure channel with it. -/
theorem linkDown_unlinks (hp : p < 4) (hu : linkUp m p = true) (cause : Nat) :
    linkUp (linkDown p cause m) p = false ∧ secure (linkDown p cause m) p = false := by
  have hflood : ∀ p < 4, ∀ f ∈ [F.RING_PORT_STAT_LINK, F.RING_PORT_STAT_SECURE], fkey f p 0 ∉ floodKeys := by decide
  have hmark : ∀ p < 4, ∀ f ∈ [F.RING_PORT_STAT_LINK, F.RING_PORT_STAT_SECURE], fkey f p 0 ∉ markerKeys := by decide
  have hkept : ∀ f ∈ [F.RING_PORT_STAT_LINK, F.RING_PORT_STAT_SECURE], rdi (linkDown p cause m) f p =
      rdi (showLink p 0 0 (dropSa p (lossCounted p cause m))) f p := fun f hf => by
    rw [linkDown_up hp hu, (kept_detectFault ..).rdi (hflood p hp f hf), linkLost, (kept_showMark ..).rdi (hmark p hp f hf)]
  obtain ⟨hlink, hsec⟩ := showLink_shows hp 0 0 (dropSa p (lossCounted p cause m))
  rw [linkUp, secure, hkept _ (by decide), hkept _ (by decide), hlink, hsec]
  exact ⟨rfl, rfl⟩

theorem kept_lossCounted {ks : List Nat} (hd : discardKey ∈ ks) (p cause : Nat) (m : Mach) : Kept ks m (lossCounted p cause m) :=
  (kept_setPort ..).trans <| (kept_onlyIf _ (kept_count ..)).trans <| (kept_raise _ _ _ _ hd).trans (kept_count ..)

theorem kept_linkLost (p cause : Nat) (m : Mach) : Kept (linkPlaces p) (lossCounted p cause m) (linkLost p cause m) := by
  refine (kept_dropSa ..).trans ((kept_showLink p 0 0 _).trans ?_)
  unfold linkLost showMark
  split
  · exact kept_wr _ _ (mem_linkPlaces (by decide))
  · split
    · exact kept_wr _ _ (mem_linkPlaces (by decide))
    · exact .refl _

theorem floodKeys_subset (p : Nat) : floodKeys ⊆ linkPlaces p := fun _ hk => List.mem_append_left _ (List.mem_append_left _ hk)

theorem kept_linkGone (p c cause : Nat) (m : Mach) : Kept (linkPlaces p) (lossCounted p cause m) (detectFault p c (linkLost p cause m)) :=
  (kept_linkLost ..).trans ((kept_detectFault ..).mono (floodKeys_subset p))

theorem kept_linkDown (p cause : Nat) (m : Mach) : Kept (linkPlaces p) m (linkDown p cause m) := by
  unfold linkDown
  split
  · exact (kept_lossCounted (floodKeys_subset p (by decide)) p cause m).trans (kept_linkGone ..)
  · exact .refl m

theorem lossCounted_reports (p cause : Nat) (m : Mach) :
    Reported (if p < 2 then 1 else 2) (if p < 2 then 0x0105 else 0x0201) m (lossCounted p cause m) := by
  have hbefore : EventsKept m (onlyIf (cause == 1) (count p 0x010A 1)
      (setPort p { port m p with pcs := if cause = 1 then false else (port m p).pcs } m)) :=
    Kept.events (ks := []) ((kept_setPort ..).trans (kept_onlyIf _ (kept_count ..))) List.not_mem_nil
  exact reported_then _ _ _ _ _ hbefore.reported (kept_count (ks := []) ..).out

theorem linkDown_reports (hp : p < 4) (hu : linkUp m p = true) (cause : Nat) :
    Reported (if p < 2 then 1 else 2) (if p < 2 then 0x0105 else 0x0201) m (linkDown p cause m) := by
  rw [linkDown_up hp hu]
  exact reported_then _ _ _ _ _ (lossCounted_reports p cause m) (kept_linkGone ..).out

theorem linkLost_ring (p cause : Nat) (m : Mach) : (linkLost p cause m).ring = (dropSa p (lossCounted p cause m)).ring := by
  rw [linkLost, showMark_ring, showLink_ring]

theorem linkDown_counts (hp : p < 4) (hu : linkUp m p = true) (cause : Nat) :
    ringCnt (linkDown p cause m) p 0x010D = ringCnt m p 0x010D + 1 := by
  have hfault : ringCnt (linkDown p cause m) p 0x010D = ringCnt (linkLost p cause m) p 0x010D := by
    rw [linkDown_up hp hu, ringCnt, detectFault_ring (·.counters) (fun _ _ => rfl), ringCnt]
  have hdrop : ringCnt (linkLost p cause m) p 0x010D = ringCnt (lossCounted p cause m) p 0x010D := by
    rw [ringCnt_congr (linkLost_ring ..), ringCnt_congr (dropSa_ring ..)]
    rfl
  have herr : ringCnt (onlyIf (cause == 1) (count p 0x010A 1)
      (setPort p { port m p with pcs := if cause = 1 then false else (port m p).pcs } m)) p 0x010D = ringCnt m p 0x010D :=
    onlyIf_keep (ringCnt · p 0x010D) _ _ _ (ringCnt_count_ne 1 (by omega))
  rw [hfault, hdrop, lossCounted, ringCnt_count_self]
  exact congrArg (· + 1) herr

/-- The loss of a link leaves of its port what is not of the PCS lock, the peer and its markers. -/
theorem port_linkDown (g : Port → β) (hpcs : ∀ x b, g { x with pcs := b } = g x) (hsa : ∀ x, g (unsecured x) = g x) (p cause : Nat) (m : Mach) :
    g (port (linkDown p cause m) p) = g (port m p) := by
  have hloss : g (port (lossCounted p cause m) p) = g (port m p) := by
    rw [lossCounted, port_count, linkEvent, port_raise, onlyIf_keep (port · p) _ _ _ (port_count ..), port_setPort_self, hpcs]
  unfold linkDown
  split
  · have hports := detectFault_ring (·.ports) (fun _ _ => rfl) p (if cause = 3 then 3 else 1) (linkLost p cause m)
    change g (mget {} (detectFault p _ (linkLost p cause m)).ring.ports p) = _
    rw [hports, linkLost_ring]
    exact (congrArg g (port_dropSa ..)).trans ((hsa _).trans hloss)
  · rfl

/-- The loss of a link leaves of the ring what is not of its ports, its counters and the statuses held. -/
theorem linkDown_ring (g : RingSt → β) (hg : ∀ x ps cs l, g { x with ports := ps, counters := cs, pendingSt := l } = g x) (p cause : Nat)
    (m : Mach) : g (linkDown p cause m).ring = g m.ring := by
  have herr : g (onlyIf (cause == 1) (count p 0x010A 1)
      (setPort p { port m p with pcs := if cause = 1 then false else (port m p).pcs } m)).ring = g m.ring :=
    (onlyIf_keep (fun n => g n.ring) _ _ _ (hg _ _ _ _)).trans (hg m.ring _ _ _)
  unfold linkDown
  split
  · have hfault := detectFault_ring g (fun x l => hg x _ _ l) p (if cause = 3 then 3 else 1) (linkLost p cause m)
    refine hfault.trans ?_
    rw [linkLost_ring, dropSa_ring]
    exact (hg _ _ _ _).trans ((hg _ _ _ _).trans herr)
  · rfl

end Down

/-! The commands. -/

section Links
variable {s : State} {m : Mach} {p : Nat}

theorem linkDown_answers (ha : Awake s) (hp : p < 4) (hu : linkUp s.m p = true) :
    Answers (.linkDown p) s (fun n => linkUp n p = false ∧ secure n p = false ∧ ringCnt n p 0x010D = ringCnt s.m p 0x010D + 1 ∧
      Reported (if p < 2 then 1 else 2) (if p < 2 then 0x0105 else 0x0201) s.m n) := by
  refine answers_mach _ s (linkDown p 1) _ rfl ha ?_
  obtain ⟨hlink, hsec⟩ := linkDown_unlinks hp hu 1
  exact ⟨hlink, hsec, linkDown_counts hp hu 1, linkDown_reports hp hu 1⟩

/-- A port that shows and reports its link up. -/
def linkRisen (p : Nat) (m : Mach) : Mach := linkEvent p 1 1 (showLink p 1 0 (setPort p { port m p with pcs := true } m))

theorem linkUpDeclare_due (hp : p < 4) (ho : portOn m p = true) (hu : linkUp m p = false) (he : extPhy m p = true → (port m p).phy = true) :
    linkUpDeclare p m = onlyIf (macsecOn m p) (sendMkpdu p) (linkRisen p m) := by
  have hphy : (!extPhy m p || (port m p).phy) = true := by
    cases hx : extPhy m p with
    | false => rfl
    | true => exact he hx
  exact if_pos (by simp [hp, ho, hu, hphy])

theorem linkRisen_up (hp : p < 4) (m : Mach) : linkUp (linkRisen p m) p = true := by
  have hev : ∀ p < 4, fkey F.RING_PORT_STAT_LINK p 0 ≠ fkey F.HIF_EV_DISCARD_COUNT 0 0 := by decide
  rw [linkUp, linkRisen, linkEvent, rdi_raise _ _ _ _ _ _ (hev p hp), (showLink_shows hp ..).1]
  rfl

theorem linkRisen_reports (hp : p < 4) (m : Mach) :
    Reported (if p < 2 then 1 else 2) (if p < 2 then 0x0105 else 0x0201) m (linkRisen p m) := by
  have hrun : ∀ p < 4, fkey F.HIF_STATUS_RUNNING 0 0 ∉ linkPlaces p := by decide
  have hshown : Kept (linkPlaces p) m (showLink p 1 0 (setPort p { port m p with pcs := true } m)) := (kept_setPort ..).trans (kept_showLink ..)
  exact (hshown.events (hrun p hp)).reported

theorem kept_linkRisen (p : Nat) (m : Mach) : Kept (linkPlaces p) m (linkRisen p m) :=
  (kept_setPort ..).trans <| (kept_showLink ..).trans <|
    kept_raise _ _ _ _ (floodKeys_subset p (by decide))

theorem dk_sendKeeps : SendKeeps (·.dk) :=
  ⟨fun _ _ => rfl, fun _ _ => rfl, fun _ _ _ _ => rfl, fun _ _ _ => rfl, fun _ _ => rfl⟩

theorem sendMkpdu_dk (p : Nat) (m : Mach) : (sendMkpdu p m).dk = m.dk := by
  rw [sendMkpdu, toEgress_keep dk_sendKeeps]
  rfl

theorem linkRisen_keeps (p : Nat) (m : Mach) : (linkRisen p m).dk = m.dk ∧ (linkRisen p m).ring.faults = m.ring.faults := by
  rw [linkRisen, linkEvent, raise_dk, raise_ring, showLink_keep (g := (·.dk)) (fun _ _ _ _ => rfl) (fun _ _ _ _ => rfl), showLink_ring]
  exact ⟨rfl, rfl⟩

theorem linkUp_answers (ha : Awake s) (hp : p < 4) (ho : portOn s.m p = true) (hu : linkUp s.m p = false)
    (he : extPhy s.m p = true → (port s.m p).phy = true) :
    Answers (.linkUp p) s (fun n => linkUp n p = true ∧ (macsecOn s.m p = true → NewOut s.m n (.mkpdu p)) ∧
      Reported (if p < 2 then 1 else 2) (if p < 2 then 0x0105 else 0x0201) s.m n ∧ n.dk = s.m.dk ∧ n.ring.faults = s.m.ring.faults) := by
  have hsend : ∀ p < 4, fkey F.RING_PORT_STAT_LINK p 0 ∉ sendKeys p := by decide
  have hkept : Kept (sendKeys p) (linkRisen p s.m) (onlyIf (macsecOn s.m p) (sendMkpdu p) (linkRisen p s.m)) :=
    kept_onlyIf _ (kept_sendMkpdu ..)
  obtain ⟨hdk, hfaults⟩ := linkRisen_keeps p s.m
  refine answers_mach _ s (linkUpDeclare p) _ rfl ha ?_
  rw [linkUpDeclare_due hp ho hu he]
  refine ⟨?_, fun hm => ?_, ?_, ?_, ?_⟩
  · rw [linkUp, hkept.rdi (hsend p hp)]
    exact linkRisen_up hp s.m
  · rw [hm, onlyIf_true]
    exact newOut_since (kept_linkRisen ..).out (sendMkpdu_sends ..)
  · exact reported_then _ _ _ _ _ (linkRisen_reports hp s.m) hkept.out
  · rw [onlyIf_keep (·.dk) _ _ _ (sendMkpdu_dk ..), hdk]
  · rw [onlyIf_keep (·.ring.faults) _ _ _ (sendMkpdu_faults ..), hfaults]

/-! The polls of an external PHY (R159). -/

/-- A poll that finds a link shows it; one that finds none takes the link down. -/
theorem phyResult_eq (p pma pcs : Nat) (m : Mach) : phyResult (p, pma, pcs) m =
    if pma.testBit 2 && pcs.testBit 2 then setPort p { port m p with phy := pma.testBit 2 && pcs.testBit 2 } m
    else linkDown p 2 (setPort p { port m p with phy := pma.testBit 2 && pcs.testBit 2 } m) := rfl

theorem port_phyResult {β : Type} (g : Port → β) (hpcs : ∀ x b, g { x with pcs := b } = g x) (hsa : ∀ x, g (unsecured x) = g x)
    (p pma pcs : Nat) (m : Mach) : g (port (phyResult (p, pma, pcs) m) p) = g { port m p with phy := pma.testBit 2 && pcs.testBit 2 } := by
  rw [phyResult_eq]
  split
  · rw [port_setPort_self]
  · rw [port_linkDown g hpcs hsa, port_setPort_self]

/-- A port that has been polled in this tick. -/
def polled (p : Nat) (m : Mach) : Mach := setPort p { port m p with pollTick := m.ticks } m

theorem phyPoll_due {pma pcs : Nat} (hp : p < 2) (he : extPhy m p = true) (ht : (port m p).pollTick = 0 ∨ (port m p).pollTick + 8 ≤ m.ticks) :
    phyPoll p pma pcs m = if m.ring.mdioBusy then setRing { (polled p m).ring with polls := m.ring.polls ++ [(p, pma, pcs)] } (polled p m)
      else phyResult (p, pma, pcs) (polled p m) := if_pos (by simp [hp, he, ht])

theorem phyResult_none (hp : p < 4) {pma pcs : Nat} (h : (pma.testBit 2 && pcs.testBit 2) = false) :
    linkUp (phyResult (p, pma, pcs) m) p = false ∧
      (linkUp m p = true → Reported (if p < 2 then 1 else 2) (if p < 2 then 0x0105 else 0x0201) m (phyResult (p, pma, pcs) m)) := by
  rw [phyResult_eq, if_neg (by simp [h])]
  generalize hq : setPort p { port m p with phy := pma.testBit 2 && pcs.testBit 2 } m = q
  have hkept : Kept [] m q := hq ▸ kept_setPort ..
  have hlink : linkUp q p = linkUp m p := congrArg (· == 1) (hkept.rdi List.not_mem_nil)
  cases hu : linkUp m p with
  | false =>
    rw [linkDown_not_up (hlink.trans hu)]
    exact ⟨hlink.trans hu, fun h => absurd h Bool.false_ne_true⟩
  | true => exact ⟨(linkDown_unlinks hp (hlink.trans hu) 2).1, fun _ =>
      reported_since (hkept.events List.not_mem_nil) (linkDown_reports hp (hlink.trans hu) 2)⟩

theorem phyStatusPoll_answers (ha : Awake s) (hp : p < 2) (he : extPhy s.m p = true)
    (ht : (port s.m p).pollTick = 0 ∨ (port s.m p).pollTick + 8 ≤ s.m.ticks) (pma pcs : Nat) :
    Answers (.phyStatusPoll p pma pcs) s (fun n => (port n p).pollTick = s.m.ticks ∧
      (s.m.ring.mdioBusy = true → n.ring.polls = s.m.ring.polls ++ [(p, pma, pcs)] ∧ n.regs = s.m.regs ∧ n.out = s.m.out) ∧
      (s.m.ring.mdioBusy = false → (port n p).phy = (pma.testBit 2 && pcs.testBit 2) ∧
        ((port n p).phy = false → linkUp n p = false ∧ (linkUp s.m p = true → Reported 1 0x0105 s.m n)) ∧
        ((port n p).phy = true → n.regs = s.m.regs))) := by
  have hpolled : port (polled p s.m) p = { port s.m p with pollTick := s.m.ticks } := port_setPort_self _
  refine answers_mach _ s (phyPoll p pma pcs) _ rfl ha ?_
  rw [phyPoll_due hp he ht]
  cases hb : s.m.ring.mdioBusy with
  | true => exact ⟨congrArg Port.pollTick hpolled, fun _ => ⟨rfl, rfl, rfl⟩, fun h => absurd h (by decide)⟩
  | false =>
    have hphy : (port (phyResult (p, pma, pcs) (polled p s.m)) p).phy = (pma.testBit 2 && pcs.testBit 2) :=
      port_phyResult (·.phy) (fun _ _ => rfl) (fun _ => rfl) ..
    simp only [Bool.false_eq_true, if_false]
    refine ⟨?_, fun h => h.elim, fun _ => ⟨hphy, fun h => ?_, fun h => ?_⟩⟩
    · rw [port_phyResult (·.pollTick) (fun _ _ => rfl) (fun _ => rfl), hpolled]
    · obtain ⟨hdown, hrep⟩ := phyResult_none (m := polled p s.m) (by omega : p < 4) (hphy.symm.trans h)
      rw [if_pos hp, if_pos hp] at hrep
      exact ⟨hdown, fun hu => reported_since (Kept.events (ks := []) (kept_setPort ..) List.not_mem_nil) (hrep hu)⟩
    · rw [phyResult_eq, if_pos (hphy.symm.trans h)]
      rfl

/-! MKA (R160, R170). -/

theorem mkaHello_answers (ha : Awake s) (hp : p < 4) (hu : linkUp s.m p = true) (hm : macsecOn s.m p = true)
    (ht : (port s.m p).hello + 8 * rd s.m F.RING_MKA_HELLO_MS ≤ s.m.ticks) :
    Answers (.mkaHello p) s (fun n => NewOut s.m n (.mkpdu p) ∧ (port n p).hello = s.m.ticks ∧ n.ring.faults = s.m.ring.faults) := by
  have hdue : mkaHello p s.m = sendMkpdu p s.m := if_pos (by simp [hp, hu, hm, ht])
  refine answers_mach _ s (mkaHello p) _ rfl ha ?_
  rw [hdue]
  exact ⟨sendMkpdu_sends .., port_sendMkpdu (·.hello) (fun _ _ _ => rfl) .., sendMkpdu_faults ..⟩

theorem mkaPeerLost_answers (ha : Awake s) (hp : p < 4) (hs : secure s.m p = true) (hu : p < 2 → linkUp s.m p = true) :
    Answers (.mkaPeerLost p) s (fun n => secure n p = false ∧ (p < 2 → linkUp n p = false) ∧ Reported 0x03 0x0302 s.m n) := by
  obtain ⟨q, hq, hkept, hrep⟩ : ∃ q, mkaPeerLost p s.m = (if p < 2 then linkDown p 3 q else dropSa p q) ∧ Kept [discardKey] s.m q ∧
      Reported 0x03 0x0302 s.m q :=
    ⟨_, if_pos (by simp [hp, hs]), kept_raise _ _ _ _ (by decide), raise_reported _ _ _ _⟩
  have hlink : ∀ p < 4, fkey F.RING_PORT_STAT_LINK p 0 ∉ [discardKey] := by decide
  refine answers_mach _ s (mkaPeerLost p) _ rfl ha ?_
  rw [hq]
  split
  case isTrue h2 =>
    have hup : linkUp q p = true := by rw [linkUp, hkept.rdi (hlink p hp)]; exact hu h2
    obtain ⟨hdown, hsec⟩ := linkDown_unlinks hp hup 3
    exact ⟨hsec, fun _ => hdown, reported_then _ _ _ _ _ hrep (kept_linkDown ..).out⟩
  case isFalse h2 => exact ⟨dropSa_unsecures hp q, fun h => absurd h h2, reported_then _ _ _ _ _ hrep (kept_dropSa ..).out⟩

end Links

/-- Settles O15, one lemma for each command. -/
theorem linksComeAndGo : Obligations.LinksComeAndGo := fun _ _ ha hp =>
  ⟨linkUp_answers ha hp, linkDown_answers ha hp, fun pma pcs h2 he ht => phyStatusPoll_answers ha h2 he ht pma pcs,
    mkaHello_answers ha hp, mkaPeerLost_answers ha hp⟩

end Sys2Proof.Machine
end

section
/-! The seam (06 R173, R174): a ring status is held, takes effect at its deal with the others that are due, and the configuration before is
dropped a deal later. -/
namespace Sys2Proof.Machine

/-- Where the registers that show the seam stand. -/
def seamKeys : List Nat := [fkey F.RING_SEAM_SEAT 0 0, fkey F.RING_SEAM_PORT 0 0, fkey F.RING_SEAM_HOME 0 0, fkey F.RING_SEAM_SPLIT 0 0,
  fkey F.RING_STATE_SEAM_HERE 0 0]

/-- The statuses that are due at this boundary. -/
def dueStatuses (m : Mach) : List RingStatus := m.ring.pendingSt.filter (fun x => x.eff ≤ m.deal)

/-- The machine with the configuration that the due statuses make, before it is shown. -/
def reconfigured (m : Mach) : Mach :=
  setRing { m.ring with
      pendingSt := m.ring.pendingSt.filter (fun x => m.deal < x.eff)
      doneSt := (dueStatuses m ++ m.ring.doneSt).filter (fun x => m.deal ≤ x.eff + 16)
      faults := (dueStatuses m).foldl applyFaults m.ring.faults
      prev := some (m.ring.faults, rd m F.RING_STATE_EPOCH % 2), prevEnd := m.deal + 1 }
    { m with dom := { m.dom with joined := (dueStatuses m).foldl (passedBy m) m.dom.joined } }

/-- The machine with the seam moved and shown, and its next EPOCH. -/
def seamMoved (m : Mach) : Mach :=
  showSeam (wr F.RING_FLAGS_SEAM_MOVED 1 (wr F.RING_STATE_EPOCH (rd m F.RING_STATE_EPOCH + 1) (reconfigured m)))

/-- The event of a status that takes effect with an EPOCH. -/
def seamEvent (epoch : Nat) (x : RingStatus) : Mach → Mach :=
  raise 0x01 0x0101 [(1, x.kind), (1, x.cause), (2, epoch % 2 ^ 16), (2, x.a.seat), (1, x.a.port), (1, 0), (8, x.eff)]

section Seam
variable {s : State} {m : Mach} {p : Nat} {x : RingStatus}

theorem ringStatusReceive_answers (ha : Awake s) (hp : s.m.ring.pendingSt.contains x = false) (hd : s.m.ring.doneSt.contains x = false) :
    Answers (.ringStatusReceive p x) s (fun n =>
      n.ring.pendingSt = s.m.ring.pendingSt ++ [if s.m.deal < x.eff then x else { x with eff := s.m.deal + 1 }] ∧
      n.ring.faults = s.m.ring.faults ∧ n.regs = s.m.regs) := by
  refine answers_mach _ s (ringStatusReceive p x) _ rfl ha ?_
  have hnew : ¬ (s.m.ring.pendingSt.contains x || s.m.ring.doneSt.contains x) = true := by rw [hp, hd]; decide
  rw [ringStatusReceive, if_neg hnew]
  split <;> exact ⟨rfl, rfl, rfl⟩

theorem ringStatusApply_due (h : dueStatuses m ≠ []) :
    ringStatusApply m = forEach (dueStatuses m) (seamEvent (rd m F.RING_STATE_EPOCH + 1)) (seamMoved m) := if_neg h

theorem kept_showSeam (m : Mach) : Kept seamKeys m (showSeam m) :=
  (kept_wr _ _ (by decide)).trans <| (kept_wr _ _ (by decide)).trans <| (kept_wr _ _ (by decide)).trans <|
    (kept_wr _ _ (by decide)).trans (kept_wr _ _ (by decide))

theorem seamMoved_ring (m : Mach) : (seamMoved m).ring = (reconfigured m).ring := rfl

theorem seamMoved_shows (m : Mach) :
    rd (seamMoved m) F.RING_STATE_EPOCH = (rd m F.RING_STATE_EPOCH + 1) % 2 ^ F.RING_STATE_EPOCH.width ∧
      rd (seamMoved m) F.RING_FLAGS_SEAM_MOVED = 1 := by
  rw [seamMoved, (kept_showSeam _).rd (by decide), (kept_showSeam _).rd (by decide), rd_wr_self, rd_wr_ne _ _ _ _ (by decide), rd_wr_self]
  exact ⟨rfl, rfl⟩

theorem eventsKept_seamMoved (m : Mach) : EventsKept m (seamMoved m) := by
  have hnew : EventsKept m (reconfigured m) := .of_eq rfl rfl rfl
  exact hnew.trans <| (eventsKept_wr _ _ (by decide)).trans <| (eventsKept_wr _ _ (by decide)).trans ((kept_showSeam _).events (by decide))

/-- Each status that takes effect is reported. -/
theorem seamEvents_report {l : List RingStatus} (hl : l ≠ []) (epoch : Nat) (m : Mach) :
    Reported 0x01 0x0101 m (forEach l (seamEvent epoch) m) := by
  obtain ⟨y, t, rfl⟩ := List.exists_cons_of_ne_nil hl
  have hrest : Kept [discardKey] (seamEvent epoch y m) (forEach t (seamEvent epoch) (seamEvent epoch y m)) :=
    kept_forEach (fun _ _ _ => kept_raise _ _ _ _ (by decide)) _
  rw [forEach_cons]
  exact reported_then _ _ _ _ _ (raise_reported _ _ _ m) hrest.out

theorem ringStatusApply_answers (ha : Awake s) (h : dueStatuses s.m ≠ []) : Answers .ringStatusApply s (fun n =>
    n.ring.faults = (dueStatuses s.m).foldl applyFaults s.m.ring.faults ∧
    n.ring.pendingSt = s.m.ring.pendingSt.filter (fun x => s.m.deal < x.eff) ∧
    n.ring.prev = some (s.m.ring.faults, rd s.m F.RING_STATE_EPOCH % 2) ∧
    rd n F.RING_STATE_EPOCH = (rd s.m F.RING_STATE_EPOCH + 1) % 2 ^ F.RING_STATE_EPOCH.width ∧ rd n F.RING_FLAGS_SEAM_MOVED = 1 ∧
    Reported 0x01 0x0101 s.m n) := by
  refine answers_mach _ s ringStatusApply _ rfl ha ?_
  rw [ringStatusApply_due h]
  have hring := forEach_keep (·.ring) (dueStatuses s.m) (seamEvent (rd s.m F.RING_STATE_EPOCH + 1)) (fun _ _ => raise_ring ..) (seamMoved s.m)
  have hkept : Kept [discardKey] (seamMoved s.m) (forEach (dueStatuses s.m) (seamEvent (rd s.m F.RING_STATE_EPOCH + 1)) (seamMoved s.m)) :=
    kept_forEach (fun _ _ _ => kept_raise _ _ _ _ (by decide)) _
  obtain ⟨hepoch, hflag⟩ := seamMoved_shows s.m
  rw [hring, hkept.rd (by decide), hkept.rd (by decide), seamMoved_ring]
  exact ⟨rfl, rfl, rfl, hepoch, hflag, reported_since (eventsKept_seamMoved s.m) (seamEvents_report h _ _)⟩

theorem epochGraceEnd_answers (ha : Awake s) (h : s.m.ring.prevEnd ≤ s.m.deal) : Answers .epochGraceEnd s (fun n =>
    n.ring.prev = none ∧ n.ring.faults = s.m.ring.faults ∧ n.regs = s.m.regs ∧ n.out = s.m.out) := by
  refine answers_mach _ s epochGraceEnd _ rfl ha ?_
  rw [epochGraceEnd, if_pos h]
  exact ⟨rfl, rfl, rfl, rfl⟩

end Seam

/-- Settles O16, one lemma for each command. -/
theorem seamMoves : Obligations.SeamMoves := fun _ ha =>
  ⟨fun _ _ _ hp hd => ringStatusReceive_answers ha hp hd, ringStatusApply_answers ha, epochGraceEnd_answers ha⟩

end Sys2Proof.Machine
end

section
/-! Faults and heals (06 R174, R176): a port without valid markers becomes a fault point, a link that is well again is healed, and the missed
markers are counted. -/
namespace Sys2Proof.Machine

/-- This seat's own seam point at a port. -/
def ownPoint (p : Nat) (m : Mach) : SeamPt := { seat := ownSeat m, port := p }

/-- The ring status of a heal: both ends of the link of a port. -/
def healStatus (p : Nat) (m : Mach) : RingStatus :=
  { kind := 2, cause := 5, a := ownPoint p m, b := some { seat := (port m p).peer, port := 1 - p }, eff := floodDeal m }

/-- A port whose run of valid markers has ended. -/
def unmarked (p : Nat) (m : Mach) : Mach := setPort p { port m p with markRun := 0, backRun := 0 } m

section Faults
variable {β : Type} {s : State} {m n q : Mach} {p o cause : Nat} {x : RingStatus}

theorem port_setPort_keep (g : Port → β) {y : Port} (h : g y = g (port m p)) : g (port (setPort p y m) o) = g (port m o) := by
  by_cases ho : o = p
  · rw [ho, port_setPort_self, h]
  · rw [port_setPort_ne _ ho]

theorem detectFault_announces (hp : p < 2) (hc : carries m = 5)
    (hf : m.ring.faults.contains (ownPoint p m) = false ∨
      m.ring.pendingSt.any (fun x => x.kind = 2 && (x.a = ownPoint p m || x.b = some (ownPoint p m))) = true)
    (hn : m.ring.pendingSt.any (fun x => x.kind = 1 && x.a = ownPoint p m) = false) :
    detectFault p cause m = floodStatus { kind := 1, cause := cause, a := ownPoint p m, b := none, eff := floodDeal m } m := by
  have hnew : (!m.ring.faults.contains (ownPoint p m) ||
      m.ring.pendingSt.any (fun x => x.kind = 2 && (x.a = ownPoint p m || x.b = some (ownPoint p m)))) = true := by
    rcases hf with h | h <;> rw [h]
    · rfl
    · exact Bool.or_true _
  have hall : (decide (p < 2) && carries m == 5 && (!m.ring.faults.contains (ownPoint p m) ||
      m.ring.pendingSt.any (fun x => x.kind = 2 && (x.a = ownPoint p m || x.b = some (ownPoint p m)))) &&
      !m.ring.pendingSt.any (fun x => x.kind = 1 && x.a = ownPoint p m)) = true := by
    rw [hnew, hn, hc, decide_eq_true hp]
    rfl
  exact if_pos hall

/-- The marker bit of a port whose run of markers has ended goes out; all that a fault turns on stays. -/
theorem unmarked_keeps (p : Nat) (m : Mach) : Kept markerKeys m (showMark p 0 (unmarked p m)) ∧
    (showMark p 0 (unmarked p m)).ring = (unmarked p m).ring ∧ ownPoint p (showMark p 0 (unmarked p m)) = ownPoint p m ∧
    carries (showMark p 0 (unmarked p m)) = carries m ∧ floodDeal (showMark p 0 (unmarked p m)) = floodDeal m := by
  have hkept : Kept markerKeys m (showMark p 0 (unmarked p m)) := (kept_setPort ..).trans (kept_showMark ..)
  have hring := showMark_ring (p := p) (m := unmarked p m) 0
  have hdeal : (showMark p 0 (unmarked p m)).deal = m.deal := showMark_keep (g := (·.deal)) (fun _ _ _ _ => rfl) 0
  refine ⟨hkept, hring, ?_, ?_, ?_⟩
  · rw [ownPoint, ownSeat, hkept.rd (by decide), ownPoint, ownSeat]
  · rw [carries, hkept.rd (by decide), hring]
    rfl
  · rw [floodDeal, hkept.rd (by decide), hdeal, floodDeal]

theorem maySend_unmarked (ho : o < 2) : maySend (showMark p 0 (unmarked p m)) o = maySend m o := by
  obtain ⟨hkept, hring, -⟩ := unmarked_keeps p m
  have hfree : ∀ o < 2, ∀ f ∈ [F.RING_PORT_CFG_MACSEC, F.RING_PORT_STAT_SECURE], fkey f o 0 ∉ markerKeys := by decide
  refine maySend_congr (hkept.rdi (hfree o ho _ (by decide))) (congrArg (· == 1) (hkept.rdi (hfree o ho _ (by decide)))) ?_
  rw [port_congr hring]
  exact port_setPort_keep (fun x => (x.xpn, x.txPn)) rfl

/-- What is flooded after changes that keep the statuses held, the ports that may send and the output is flooded since before them. -/
theorem Floods.since (h : Floods x q n) (hp : q.ring.pendingSt = m.ring.pendingSt) (hs : ∀ o < 2, maySend q o = maySend m o)
    (ho : ∃ l, q.out = l ++ m.out) : Floods x m n := by
  obtain ⟨hpend, hsend⟩ := h
  refine ⟨by rw [hpend, hp], fun o hlt hm => ?_⟩
  obtain ⟨tag, hdr, hout⟩ := hsend o hlt ((hs o hlt).trans hm)
  exact ⟨tag, hdr, newOut_since ho hout⟩

theorem markerMissed_answers (ha : Awake s) (hp : p < 2) (hs : secure s.m p = true) (hc : carries s.m = 5)
    (hl : (port s.m p).lastMark + 2 ≤ s.m.deal)
    (hf : s.m.ring.faults.contains (ownPoint p s.m) = false ∨
      s.m.ring.pendingSt.any (fun x => x.kind = 2 && (x.a = ownPoint p s.m || x.b = some (ownPoint p s.m))) = true)
    (hn : s.m.ring.pendingSt.any (fun x => x.kind = 1 && x.a = ownPoint p s.m) = false) :
    Answers (.markerMissed p) s (fun n =>
      Floods { kind := 1, cause := 2, a := ownPoint p s.m, b := none, eff := floodDeal s.m } s.m n ∧ (port n p).markRun = 0) := by
  have hdue : markerMissed p s.m = detectFault p 2 (showMark p 0 (unmarked p s.m)) := if_pos (by simp [hp, hs, hl])
  obtain ⟨hkept, hring, hown, hcarries, hdeal⟩ := unmarked_keeps p s.m
  have hpend : (showMark p 0 (unmarked p s.m)).ring.pendingSt = s.m.ring.pendingSt := by rw [hring]; rfl
  have hfaults : (showMark p 0 (unmarked p s.m)).ring.faults = s.m.ring.faults := by rw [hring]; rfl
  have hmay : ∀ o < 2, maySend (showMark p 0 (unmarked p s.m)) o = maySend s.m o := fun _ => maySend_unmarked
  have hmark : (port (showMark p 0 (unmarked p s.m)) p).markRun = 0 := by rw [port_congr hring, unmarked, port_setPort_self]
  refine answers_mach _ s (markerMissed p) _ rfl ha ?_
  rw [hdue, detectFault_announces hp (hcarries.trans hc) (by rw [hfaults, hpend, hown]; exact hf) (by rw [hpend, hown]; exact hn), hown, hdeal]
  generalize showMark p 0 (unmarked p s.m) = q at *
  exact ⟨(floodStatus_floods _ q).since hpend hmay hkept.out, hmark⟩

/-! Missed markers (log 73). -/

/-- One port at the end of a deal. -/
def dealMarked (p : Nat) (m : Mach) : Mach :=
  onlyIf (secure m p && decide ((port m p).lastMark < m.deal)) (fun m => count p 0x010C 1 (unmarked p m)) m

theorem markTick_eq (m : Mach) : markTick m = dealMarked 1 (dealMarked 0 m) := rfl

theorem dealMarked_counts (hs : secure m p = true) (hl : (port m p).lastMark < m.deal) :
    ringCnt (dealMarked p m) p 0x010C = ringCnt m p 0x010C + 1 := by
  rw [dealMarked, hs, decide_eq_true hl]
  exact ringCnt_count_self ..

/-- What a deal's end does at one port is no business of the other. -/
theorem dealMarked_other (h : p ≠ o) : port (dealMarked o m) p = port m p ∧ ringCnt (dealMarked o m) p 0x010C = ringCnt m p 0x010C ∧
    secure (dealMarked o m) p = secure m p ∧ (dealMarked o m).deal = m.deal :=
  ⟨onlyIf_keep (port · p) _ _ _ (port_setPort_ne _ h), onlyIf_keep (ringCnt · p 0x010C) _ _ _ (ringCnt_count_ne 1 (by omega)),
    onlyIf_keep (secure · p) _ _ _ rfl, onlyIf_keep (·.deal) _ _ _ rfl⟩

theorem markTick_counts (hp : p < 2) (hs : secure m p = true) (hl : (port m p).lastMark < m.deal) :
    ringCnt (markTick m) p 0x010C = ringCnt m p 0x010C + 1 := by
  rw [markTick_eq]
  obtain rfl | rfl : p = 0 ∨ p = 1 := by omega
  · obtain ⟨-, hcnt, -⟩ := dealMarked_other (m := dealMarked 0 m) (by decide : 0 ≠ 1)
    rw [hcnt, dealMarked_counts hs hl]
  · obtain ⟨hport, hcnt, hsec, hdeal⟩ := dealMarked_other (m := m) (by decide : 1 ≠ 0)
    rw [dealMarked_counts (hsec.trans hs) (by rwa [hport, hdeal]), hcnt]

/-! Heals (R176). -/

theorem linkHeal_answers (ha : Awake s) (hp : p < 2) (hs : secure s.m p = true) (hj : joined s.m = true) (hu : linkUp s.m p = true)
    (hpj : (port s.m p).peerJoined = true) (hm : rd s.m F.RING_WTR_WTR_DEALS ≤ (port s.m p).markRun)
    (hb : rd s.m F.RING_WTR_WTR_DEALS ≤ (port s.m p).backRun) (hlow : ownSeat s.m < (port s.m p).peer)
    (hf : s.m.ring.faults.contains (ownPoint p s.m) = true ∨
      s.m.ring.faults.contains { seat := (port s.m p).peer, port := 1 - p } = true)
    (hn : s.m.ring.pendingSt.any (fun y => y.kind = 2 && y.a = ownPoint p s.m) = false) :
    Answers (.linkHeal p) s (Floods (healStatus p s.m) s.m) := by
  have hfault : (s.m.ring.faults.contains (ownPoint p s.m) || s.m.ring.faults.contains { seat := (port s.m p).peer, port := 1 - p }) = true :=
    Bool.or_eq_true_iff.mpr hf
  have hdue : (decide (p < 2) && linkUp s.m p && secure s.m p && joined s.m && (port s.m p).peerJoined &&
      decide (rd s.m F.RING_WTR_WTR_DEALS ≤ min (port s.m p).markRun (port s.m p).backRun) && decide (ownSeat s.m < (port s.m p).peer) &&
      (s.m.ring.faults.contains (ownPoint p s.m) || s.m.ring.faults.contains { seat := (port s.m p).peer, port := 1 - p }) &&
      !s.m.ring.pendingSt.any (fun y => y.kind = 2 && y.a = ownPoint p s.m)) = true := by
    rw [hfault, hn, hu, hs, hj, hpj, decide_eq_true hp, decide_eq_true hlow, decide_eq_true (le_min hm hb)]
    rfl
  refine answers_mach _ s (linkHeal p) _ rfl ha ?_
  have heq : linkHeal p s.m = floodStatus (healStatus p s.m) s.m := if_pos hdue
  rw [heq]
  exact floodStatus_floods _ _

end Faults

/-- Settles O17, one lemma for each clause. -/
theorem faultsAreFlooded : Obligations.FaultsAreFlooded := fun _ _ ha hp hs =>
  ⟨markerMissed_answers ha hp hs, markTick_counts hp hs, linkHeal_answers ha hp hs⟩

end Sys2Proof.Machine
end

section
/-! Insertion (06 R179, Table 6.7): the write of ENABLE and the retry that start it, the loopback test, CLOSING, and the states after it. -/
namespace Sys2Proof.Machine

/-- All that the start of an insertion turns on but ENABLE: the insertion state, FORCE_BYPASS and RETRY_S, the units lost, the last failure and the
tick; and what decides where its event goes. -/
def insertView (m : Mach) : (Nat × Nat × Nat × Nat × Option Nat × Nat) × Nat × SMap Nat × List Out :=
  ((rd m F.RING_STATE_INS, rd m F.RING_CTRL_FORCE_BYPASS, rd m F.RING_MKA_RETRY_S, m.ring.unitLost, m.ring.failAt, m.ticks),
    rd m F.HIF_STATUS_RUNNING, m.hif.lat, m.out)

/-- The fields among these. -/
def insertFlds : List Fld := [F.RING_STATE_INS, F.RING_CTRL_FORCE_BYPASS, F.RING_MKA_RETRY_S, F.HIF_STATUS_RUNNING]

/-- A device that may be inserted as soon as ENABLE is set and FORCE_BYPASS clear. -/
def InsertReady (m : Mach) : Prop := rd m F.RING_STATE_INS = 0 ∧ m.ring.unitLost = 0 ∧
  ∀ t, m.ring.failAt = some t → t + rd m F.RING_MKA_RETRY_S * 8000 ≤ m.ticks

/-- Insertion has begun and is reported, with ENABLE set. -/
def InsertBegun (m n : Mach) : Prop := rd n F.RING_CTRL_ENABLE = 1 ∧ rd n F.RING_STATE_INS = 1 ∧ Reported 0x01 0x0102 m n

section Start
variable {s : State} {m n q : Mach}

theorem insertView_congr (h : insertView n = insertView m) : (InsertReady m → InsertReady n) ∧
    rd n F.RING_CTRL_FORCE_BYPASS = rd m F.RING_CTRL_FORCE_BYPASS ∧ EventsKept m n := by
  simp only [insertView, Prod.mk.injEq] at h
  obtain ⟨⟨hins, hforce, hretry, hunit, hfail, hticks⟩, hrun, hlat, hout⟩ := h
  refine ⟨fun hr => ?_, hforce, by simp only [running, hrun], hlat, [], hout⟩
  simpa only [InsertReady, hins, hretry, hunit, hfail, hticks] using hr

theorem insertView_wr {f : Fld} (v : Nat) (m : Mach) (h : ∀ g ∈ insertFlds, fkey g 0 0 ≠ fkey f 0 0) :
    insertView (wr f v m) = insertView m := by
  simp only [insertFlds, List.forall_mem_cons] at h
  obtain ⟨hins, hforce, hretry, hrun, -⟩ := h
  simp only [insertView, rd_wr_ne _ _ _ _ hins, rd_wr_ne _ _ _ _ hforce, rd_wr_ne _ _ _ _ hretry, rd_wr_ne _ _ _ _ hrun, wr_ring, wr_ticks,
    wr_hif, wr_out]

theorem mayInsert_ready (hr : InsertReady m) (he : rd m F.RING_CTRL_ENABLE = 1) :
    mayInsert m = !flag m F.RING_CTRL_FORCE_BYPASS := by
  obtain ⟨hins, hunit, hfail⟩ := hr
  have hclear : ∀ b : Bool, (0 == 0 && true && !b && 0 == 0 && true) = !b := by decide
  unfold mayInsert
  rw [hins, hunit, flag, he]
  cases ht : m.ring.failAt with
  | none => exact hclear _
  | some t =>
    simp only [decide_eq_true (hfail t ht)]
    exact hclear _

theorem setIns_reports (new cause : Nat) (m : Mach) : Reported 0x01 0x0102 m (setIns new cause m) :=
  ((eventsKept_setRing _ _).trans (eventsKept_wr _ _ (by decide))).reported

/-- An insertion that may start is in PREPARE, and reported. -/
theorem startInsert_begins (h : mayInsert m = true) : rd (startInsert m) F.RING_STATE_INS = 1 ∧ Reported 0x01 0x0102 m (startInsert m) := by
  rw [startInsert, if_pos h, rd_setIns_self]
  have hboot : EventsKept m (onlyIf (rd m F.SYS_BOOT_STAGE == 3) (wr F.SYS_BOOT_STAGE 4) m) :=
    eventsKept_onlyIf _ (eventsKept_wr _ _ (by decide))
  exact ⟨rfl, reported_since hboot (setIns_reports _ _ _)⟩

theorem rd_startInsert {f : Fld} (hins : fkey f 0 0 ≠ fkey F.RING_STATE_INS 0 0) (hev : fkey f 0 0 ≠ fkey F.HIF_EV_DISCARD_COUNT 0 0)
    (hboot : fkey f 0 0 ≠ fkey F.SYS_BOOT_STAGE 0 0) : rd (startInsert m) f = rd m f := by
  unfold startInsert
  split
  · rw [rd_setIns_ne _ _ _ hins hev, onlyIf_keep (fun n => rd n f) _ _ _ (rd_wr_ne _ _ _ _ hboot)]
  · rfl

theorem insertRetry_answers (ha : Awake s) (h : mayInsert s.m = true) :
    Answers .insertRetry s (fun n => rd n F.RING_STATE_INS = 1 ∧ Reported 0x01 0x0102 s.m n) :=
  answers_mach _ s insertRetry _ rfl ha (startInsert_begins h)

/-! The write of ENABLE. -/

theorem word_set_enable (v : Word) : (v ||| 1).toNat % 2 = 1 := by
  rw [BitVec.toNat_or]
  exact Nat.or_mod_two_eq_one.mpr (.inr rfl)

/-- A word that sets ENABLE has the other bits of the word it is made of. -/
theorem word_set_div (v : Word) : (v ||| 1).toNat / 2 = v.toNat / 2 := by
  rw [BitVec.toNat_or, Nat.or_div_two]
  exact Nat.or_zero _

theorem word_bit_one {v : Word} (h : v.getLsbD 1 = false) : v.toNat / 2 % 2 = 0 := by
  rw [BitVec.getLsbD, Nat.testBit_eq_decide_div_mod_eq, decide_eq_false_iff_not] at h
  omega

theorem ringCtrlPlain_insertView (v : Nat) (m : Mach) : insertView (ringCtrlPlain v m) = insertView m :=
  ringCtrlPlain_keep insertView (fun f hf v n => insertView_wr v n
    ((by decide : ∀ f ∈ ringCtrlFlds, ∀ g ∈ insertFlds, fkey g 0 0 ≠ fkey f 0 0) f hf)) v m

/-- The speeds of a word with equal speed codes are equal in force. -/
theorem ringCtrlPlain_speeds {v : Nat} (heq : v / 16 % 4 = v / 64 % 4) (hle : v / 16 % 4 ≤ 2) (m : Mach) :
    rd (ringCtrlPlain v m) F.RING_CTRL_SPEED_A = rd (ringCtrlPlain v m) F.RING_CTRL_SPEED_B := by
  simp only [ringCtrlPlain, ← heq, if_pos hle]
  rw [rd_wr_self, rd_wr_ne _ _ _ _ (by decide), rd_wr_self]
  rfl

theorem withTim_insertView (x : Tim) (m : Mach) : insertView { m with tim := x } = insertView m := rfl

theorem setRing_insertView {x : RingSt} (hu : x.unitLost = m.ring.unitLost) (hf : x.failAt = m.ring.failAt) :
    insertView (setRing x m) = insertView m := by
  simp only [insertView, rd_setRing, setRing_ring, setRing_ticks, setRing_hif, setRing_out, hu, hf]

theorem clearCounters_insertView (p : Nat) (m : Mach) : insertView (clearCounters p m) = insertView m := by
  unfold clearCounters count
  exact (setRing_insertView rfl rfl).trans (setRing_insertView rfl rfl)

/-- What a port's enable keeps: what changes of the time unit, of the ring's counters, and of the link delays shown keep. -/
theorem enablePort_insertView (p code fec : Nat) (m : Mach) : insertView (enablePort p code fec m) = insertView m ∧
    rd (enablePort p code fec m) F.RING_CTRL_ENABLE = rd m F.RING_CTRL_ENABLE := by
  unfold enablePort
  extract_lets _ _ m1 _ m2
  have hv : insertView m2 = insertView m :=
    (withTim_insertView ..).trans ((clearCounters_insertView ..).trans (setRing_insertView rfl rfl))
  have he : rd m2 F.RING_CTRL_ENABLE = rd m F.RING_CTRL_ENABLE := rfl
  clear_value m2
  split
  · exact ⟨(insertView_wr _ _ (by decide)).trans hv, (rd_wr_ne _ _ _ _ (by decide)).trans he⟩
  · split
    · exact ⟨(insertView_wr _ _ (by decide)).trans hv, (rd_wr_ne _ _ _ _ (by decide)).trans he⟩
    · exact ⟨hv, he⟩

/-- A write that sets ENABLE while the speeds are equal enables both ring ports, and starts the insertion where it may. -/
theorem writeEnable_set (latched : Bool) (he : flag m F.RING_CTRL_ENABLE = false)
    (hs : rd m F.RING_CTRL_SPEED_A = rd m F.RING_CTRL_SPEED_B) :
    ∃ n, writeEnable latched 1 m = startInsert n ∧ insertView n = insertView m ∧ rd n F.RING_CTRL_ENABLE = 1 := by
  obtain ⟨hB, hBe⟩ := enablePort_insertView 1 (rd m F.RING_CTRL_SPEED_B) (rd m F.RING_CTRL_FEC_B) (wr F.RING_CTRL_ENABLE 1 m)
  obtain ⟨hA, hAe⟩ := enablePort_insertView 0 (rd m F.RING_CTRL_SPEED_A) (rd m F.RING_CTRL_FEC_A)
    (enablePort 1 (rd m F.RING_CTRL_SPEED_B) (rd m F.RING_CTRL_FEC_B) (wr F.RING_CTRL_ENABLE 1 m))
  refine ⟨_, ?_, hA.trans (hB.trans (insertView_wr _ _ (by decide))), hAe.trans (hBe.trans (rd_wr_self ..))⟩
  rw [writeEnable, if_pos rfl, if_neg (by rw [he]; decide), if_neg (by simp [hs])]

/-- ENABLE is set: the insertion starts at once, or with the FORCE_BYPASS that the same word clears. -/
theorem writeForce_clear_begins (latched : Bool) (hr : InsertReady m) (he : rd m F.RING_CTRL_ENABLE = 1) :
    InsertBegun m (writeForce latched 0 (startInsert m)) := by
  have hw : writeForce latched 0 (startInsert m) = startInsert (wr F.RING_CTRL_FORCE_BYPASS 0 (startInsert m)) := if_neg (by decide)
  have hen : ∀ k, rd (startInsert k) F.RING_CTRL_ENABLE = rd k F.RING_CTRL_ENABLE := fun k => rd_startInsert (by decide) (by decide) (by decide)
  have hwen : ∀ k, rd (wr F.RING_CTRL_FORCE_BYPASS 0 k) F.RING_CTRL_ENABLE = rd k F.RING_CTRL_ENABLE := fun k => rd_wr_ne _ _ _ _ (by decide)
  have hmay := mayInsert_ready hr he
  rw [hw]
  refine ⟨by rw [hen, hwen, hen, he], ?_⟩
  cases hf : flag m F.RING_CTRL_FORCE_BYPASS with
  | false =>
    obtain ⟨hins, hrep⟩ := startInsert_begins (by rw [hmay, hf]; rfl)
    have hins' : rd (wr F.RING_CTRL_FORCE_BYPASS 0 (startInsert m)) F.RING_STATE_INS = 1 := (rd_wr_ne _ _ _ _ (by decide)).trans hins
    rw [startInsert_of_inserted (by rw [hins']; decide)]
    exact ⟨hins', hrep⟩
  | true =>
    have hidle : startInsert m = m := if_neg (by rw [hmay, hf]; decide)
    have hready : InsertReady (wr F.RING_CTRL_FORCE_BYPASS 0 m) := by
      obtain ⟨hins, hunit, hfail⟩ := hr
      exact ⟨(rd_wr_ne _ _ _ _ (by decide)).trans hins, hunit, fun t ht => by rw [rd_wr_ne _ _ _ _ (by decide)]; exact hfail t ht⟩
    have hclear : flag (wr F.RING_CTRL_FORCE_BYPASS 0 m) F.RING_CTRL_FORCE_BYPASS = false := by rw [flag, rd_wr_self]; rfl
    rw [hidle]
    obtain ⟨hins, hrep⟩ := startInsert_begins ((mayInsert_ready hready ((hwen m).trans he)).trans (by rw [hclear]; rfl))
    exact ⟨hins, reported_since (eventsKept_wr _ _ (by decide)) hrep⟩

theorem ringEnableSet_answers (ha : Awake s) (v : Word) (he : flag s.m F.RING_CTRL_ENABLE = false) (hv : v.getLsbD 1 = false)
    (heq : v.toNat / 16 % 4 = v.toNat / 64 % 4) (hle : v.toNat / 16 % 4 ≤ 2) (hr : InsertReady s.m) :
    Answers (.ringEnableSet v) s (InsertBegun s.m) := by
  have hdiv := word_set_div v
  have hforce : (v ||| 1).toNat / 2 % 2 = 0 := by rw [hdiv]; exact word_bit_one hv
  refine answers_mach _ s (ringEnableSet v) _ rfl ha ?_
  rw [ringEnableSet, ringCtrlWrite, word_set_enable, hforce]
  obtain ⟨hready, -, hevents⟩ := insertView_congr (ringCtrlPlain_insertView (v ||| 1).toNat s.m)
  have hspeeds := ringCtrlPlain_speeds (v := (v ||| 1).toNat) (by omega) (by omega) s.m
  have hclear := (ringCtrlPlain_enable (v ||| 1).toNat s.m).trans he
  generalize ringCtrlPlain (v ||| 1).toNat s.m = q at *
  obtain ⟨n, hn, hview, hen⟩ := writeEnable_set (zoneLatched s.m) hclear hspeeds
  obtain ⟨hready', -, hevents'⟩ := insertView_congr hview
  obtain ⟨hen', hins, hrep⟩ := writeForce_clear_begins (zoneLatched s.m) (hready' (hready hr)) hen
  rw [hn]
  exact ⟨hen', hins, reported_since (hevents.trans hevents') hrep⟩

end Start

/-! The loopback test, and CLOSING. -/

section Closing
variable {s : State} {m : Mach}

theorem loopbackTestDone_passes (ha : Awake s) (h : rd s.m F.RING_STATE_INS = 1) (ht : s.m.ring.since + 160 ≤ s.m.ticks) :
    Answers (.loopbackTestDone true) s
      (fun n => n.ring = { s.m.ring with loopOk := true } ∧ n.regs = s.m.regs ∧ n.out = s.m.out) := by
  refine answers_mach _ s (loopbackDone true) _ rfl ha ?_
  rw [loopbackDone, if_pos h, if_neg (by decide), if_pos ht]
  exact ⟨rfl, rfl, rfl⟩

/-- The machine in CLOSING, both drives high. -/
def closed (m : Mach) : Mach := setRing { (setIns 2 0 m).ring with bypA := true, bypB := true, closing := m.ticks } (setIns 2 0 m)

theorem closingTick_closes (h : rd m F.RING_STATE_INS = 1) (hl : m.ring.loopOk = true) :
    rd (closingTick m) F.RING_STATE_INS = 2 ∧ (closingTick m).ring.bypA = true ∧ (closingTick m).ring.bypB = true ∧
      (closingTick m).ring.closing = m.ticks ∧ Reported 0x01 0x0102 m (closingTick m) := by
  have heq : closingTick m = closed m := if_pos (by rw [h, hl]; rfl)
  rw [heq]
  refine ⟨?_, rfl, rfl, rfl, ?_⟩
  · rw [closed, rd_setRing, rd_setIns_self]
    rfl
  · exact reported_then _ _ _ _ _ (setIns_reports 2 0 m) (eventsKept_setRing ..).out

/-- The machine whose insertion has failed (Table 6.7). -/
def insertFailed (cause : Nat) (m : Mach) : Mach :=
  setRing { (setIns 0 cause (drivesLow m)).ring with failAt := some m.ticks, leaveAt := none } (setIns 0 cause (drivesLow m))

theorem insertFail_fails (cause : Nat) (m : Mach) : rd (insertFail cause m) F.RING_STATE_INS = 0 ∧ (insertFail cause m).ring.bypA = false ∧
    (insertFail cause m).ring.bypB = false ∧ (insertFail cause m).ring.failAt = some m.ticks ∧
    Reported 0x01 0x0102 m (insertFail cause m) := by
  have heq : insertFail cause m = insertFailed cause m := rfl
  have hrep : Reported 0x01 0x0102 m (setIns 0 cause (drivesLow m)) := reported_since (eventsKept_drivesLow m) (setIns_reports _ _ _)
  rw [heq, insertFailed, rd_setRing, rd_setIns_self, setRing_ring, setIns_ring, drivesLow_ring]
  exact ⟨rfl, rfl, rfl, rfl, reported_then _ _ _ _ _ hrep (eventsKept_setRing ..).out⟩

theorem loopbackTestDone_fails (ha : Awake s) (h : rd s.m F.RING_STATE_INS = 1) :
    Answers (.loopbackTestDone false) s (fun n => rd n F.RING_STATE_INS = 0 ∧ n.ring.bypA = false ∧ n.ring.bypB = false ∧
      n.ring.failAt = some s.m.ticks ∧ Reported 0x01 0x0102 s.m n) := by
  refine answers_mach _ s (loopbackDone false) _ rfl ha ?_
  rw [loopbackDone, if_pos h, if_pos (by decide)]
  exact insertFail_fails 1 s.m

/-! KEYING and TIMING. -/

theorem relaySettled_due (h : rd m F.RING_STATE_INS = 2) (ht : m.ring.closing + rd m F.RING_TIMERS_RELAY_MS * 8 ≤ m.ticks)
    (hu : linkUp m 0 = true ∨ linkUp m 1 = true) : relaySettled m = tryTiming (setIns 3 0 m) := if_pos (by simp [h, ht, hu])

theorem secure_setIns {p : Nat} (hp : p < 2) (new cause : Nat) (m : Mach) : secure (setIns new cause m) p = secure m p :=
  congrArg (· == 1) ((kept_setIns ..).rdi ((by decide : ∀ p < 2, fkey F.RING_PORT_STAT_SECURE p 0 ∉ joinKeys) p hp))

theorem tryTiming_unsecured (h0 : secure m 0 = false) (h1 : secure m 1 = false) : tryTiming m = m := if_neg (by simp [h0, h1])

theorem tryTiming_secured (hi : rd m F.RING_STATE_INS = 3) (hs : secure m 0 = true ∨ secure m 1 = true) :
    tryTiming m = tryJoin (setIns 4 0 m) := if_pos (by simp [hi, hs])

/-- A device waits in TIMING for its time. -/
theorem tryJoin_untimed (hl : flag m F.TIM_STATE_LOCKED = false) (hs : flag m F.TIM_STATE_SOURCE = false) : tryJoin m = m :=
  if_neg (by simp [hl, hs])

theorem relaySettled_keying (ha : Awake s) (h : rd s.m F.RING_STATE_INS = 2)
    (ht : s.m.ring.closing + rd s.m F.RING_TIMERS_RELAY_MS * 8 ≤ s.m.ticks) (hu : linkUp s.m 0 = true ∨ linkUp s.m 1 = true)
    (h0 : secure s.m 0 = false) (h1 : secure s.m 1 = false) :
    Answers .relaySettled s (fun n => rd n F.RING_STATE_INS = 3 ∧ n.ring.bypA = s.m.ring.bypA ∧ n.ring.bypB = s.m.ring.bypB ∧
      Reported 0x01 0x0102 s.m n) := by
  refine answers_mach _ s relaySettled _ rfl ha ?_
  rw [relaySettled_due h ht hu, tryTiming_unsecured ((secure_setIns (by decide) ..).trans h0) ((secure_setIns (by decide) ..).trans h1),
    rd_setIns_self, setIns_ring]
  exact ⟨rfl, rfl, rfl, setIns_reports _ _ _⟩

theorem relaySettled_timing (ha : Awake s) (h : rd s.m F.RING_STATE_INS = 2)
    (ht : s.m.ring.closing + rd s.m F.RING_TIMERS_RELAY_MS * 8 ≤ s.m.ticks) (hu : linkUp s.m 0 = true ∨ linkUp s.m 1 = true)
    (hs : secure s.m 0 = true ∨ secure s.m 1 = true) (hl : flag s.m F.TIM_STATE_LOCKED = false) (hsrc : flag s.m F.TIM_STATE_SOURCE = false) :
    Answers .relaySettled s (fun n => rd n F.RING_STATE_INS = 4 ∧ n.ring.bypA = s.m.ring.bypA ∧ n.ring.bypB = s.m.ring.bypB ∧
      Reported 0x01 0x0102 s.m n) := by
  have hflag : ∀ f ∈ [F.TIM_STATE_LOCKED, F.TIM_STATE_SOURCE], flag (setIns 4 0 (setIns 3 0 s.m)) f = flag s.m f := fun f hf => by
    have hfree := (by decide : ∀ f ∈ [F.TIM_STATE_LOCKED, F.TIM_STATE_SOURCE], fkey f 0 0 ∉ joinKeys) f hf
    rw [flag, (kept_setIns ..).rd hfree, (kept_setIns ..).rd hfree, flag]
  have hsec : secure (setIns 3 0 s.m) 0 = true ∨ secure (setIns 3 0 s.m) 1 = true := by
    rwa [secure_setIns (by decide), secure_setIns (by decide)]
  refine answers_mach _ s relaySettled _ rfl ha ?_
  rw [relaySettled_due h ht hu, tryTiming_secured (rd_setIns_self ..) hsec,
    tryJoin_untimed ((hflag _ (by decide)).trans hl) ((hflag _ (by decide)).trans hsrc), rd_setIns_self, setIns_ring, setIns_ring]
  exact ⟨rfl, rfl, rfl, reported_since (eventsKept_setIns _ 3 0) (setIns_reports _ _ _)⟩

end Closing

/-- Settles O18, one lemma for each clause. -/
theorem insertionRuns : Obligations.InsertionRuns := fun _ ha =>
  ⟨fun v he hv heq hle hins hunit hfail => ringEnableSet_answers ha v he hv heq hle ⟨hins, hunit, hfail⟩, insertRetry_answers ha,
    fun h => ⟨loopbackTestDone_passes ha h, closingTick_closes h, loopbackTestDone_fails ha h⟩,
    fun h ht hu => ⟨relaySettled_keying ha h ht hu, relaySettled_timing ha h ht hu⟩⟩

end Sys2Proof.Machine
end

section
/-! Frames that arrive on a ring port or a local port (06 R166, R169, R184). -/
namespace Sys2Proof.Machine

/-- A port with the ingress stamp of a frame (05 R144). -/
def rxStamped (p ingress : Nat) (m : Mach) : Mach := setPort p { port m p with rxStamp := stampIn m p ingress } m

/-- A ring port that has counted a good frame and taken its packet number. -/
def frameTaken (p : Nat) (f : RingFrame) (m : Mach) : Mach :=
  let n := count p 0x0101 1 (rxStamped p f.ingress m)
  setPort p { port n p with icvRun := 0, rxPn := f.pn + 1 } n

/-- What becomes of a good frame in a machine n that has taken it: judged by the seat and the configurations of m, it is stripped, discarded,
delivered, or forwarded too (R166 steps 2 to 6). -/
def frameRouted (p : Nat) (f : RingFrame) (m n : Mach) : Mach :=
  if f.origin = ownSeat m then count p 0x0106 1 n
  else match configFor m f.epoch with
    | none => count p 0x0112 1 n
    | some l =>
      if f.hopsLeft ≤ 1 then deliverLocal p f (count p 0x0107 1 n)
      else if !f.dual && (isSeam m l p || isSeam m l (1 - p)) then deliverLocal p f (count p 0x0108 1 n)
      else deliverLocal p f (forwardFrame p f n)

/-- A frame of a port delivered to this device, and counted. -/
def delivered (p ident : Nat) (m : Mach) : Mach := emit (.deliver p ident) (count p 0x0105 1 m)

/-- The record of a port, and the frames that it has counted as received. -/
def rxView (p : Nat) (m : Mach) : Port × Nat := (port m p, ringCnt m p 0x0101)

section RingFrames
variable {s : State} {m n : Mach} {p q : Nat} {f : RingFrame}

theorem ringFrame_unsecured (hp : p < 2) (hs : secure m p = false) : ringFrame p f m = count p 0x0305 1 (rxStamped p f.ingress m) := by
  have hsec : secure (rxStamped p f.ingress m) p = false := hs
  exact (if_neg (Nat.not_le.mpr hp)).trans (if_pos (by rw [← rxStamped, hsec]; rfl))

theorem ringFrame_good (hp : p < 2) (hs : secure m p = true) (hpn : (port m p).rxPn ≤ f.pn) (hl : f.len ≤ 4096) (hx : f.poisoned = false)
    (hf : f.fcsOk = true) (hi : f.icvOk = true) (hh : ∀ h, f.heivo = some h → heivoOk m h = true) :
    ringFrame p f m = frameRouted p f m (frameTaken p f m) := by
  have hport : port (rxStamped p f.ingress m) p = { port m p with rxStamp := stampIn m p f.ingress } := port_setPort_self _
  unfold ringFrame
  extract_lets _ q m1 _ m2
  have hm2 : m2 = frameTaken p f m := by
    simp only [m2, hx, hf, hi]
    rfl
  have hq : q = rxStamped p f.ingress m := rfl
  have hsec : ¬ (!secure q p) = true := by rw [show secure q p = true from hs]; decide
  have hold : ¬ f.pn < (port q p).rxPn := by rw [hq, hport]; exact Nat.not_lt.mpr hpn
  rw [if_neg (Nat.not_le.mpr hp), if_neg hsec, if_neg hold, if_neg (Nat.not_lt.mpr hl)]
  refine (if_neg ?_).trans (by rw [hm2]; rfl)
  cases hv : f.heivo with
  | none => exact Bool.false_ne_true
  | some h =>
    have hok : ¬ (!heivoOk m h) = true := by rw [hh h hv]; decide
    exact hok

theorem ringCnt_setPort {id : Nat} (x : Port) : ringCnt (setPort q x m) p id = ringCnt m p id := rfl

theorem frameTaken_out (p : Nat) (f : RingFrame) (m : Mach) : (frameTaken p f m).out = m.out := by
  simp only [frameTaken, rxStamped, setPort, count, setRing_out]

theorem frameTaken_view (p : Nat) (f : RingFrame) (m : Mach) :
    (rxView p (frameTaken p f m)).1.rxPn = f.pn + 1 ∧ (rxView p (frameTaken p f m)).2 = ringCnt m p 0x0101 + 1 := by
  rw [rxView, frameTaken, port_setPort_self, ringCnt_setPort, ringCnt_count_self]
  exact ⟨rfl, rfl⟩

theorem rxView_count {id : Nat} (k : Nat) (n : Mach) (h : id < 2 ^ 16) (hne : id ≠ 0x0101) : rxView p (count q id k n) = rxView p n := by
  rw [rxView, ringCnt_count_ne k (by omega), port_count, rxView]

theorem rxView_frameKeeps (h : p ≠ q) : FrameKeeps (rxView p) q := by
  have hport : FrameKeeps (port · p) q := frameKeeps_port h
  have hcnt : FrameKeeps (ringCnt · p 0x0101) q := frameKeeps_ringCnt (by decide) (by decide)
  exact ⟨fun x n => Prod.ext (hport.egress x n) (hcnt.egress x n), fun n k t => Prod.ext (hport.sent n k t) (hcnt.sent n k t),
    fun o id hid k n => Prod.ext (hport.count o id hid k n) (hcnt.count o id hid k n), fun _ _ => rfl, fun _ _ _ _ => rfl, fun _ _ => rfl,
    fun _ _ => rfl⟩

theorem rxView_deliverLocal (f : RingFrame) (n : Mach) : rxView p (deliverLocal p f n) = rxView p n :=
  onlyIf_keep (rxView p) _ _ _ (rxView_count 1 n (by decide) (by decide))

/-- The copy of a frame for the opposite port is no business of the port that took it. -/
theorem rxView_forwardFrame (hp : p < 2) (f : RingFrame) (n : Mach) : rxView p (forwardFrame p f n) = rxView p n := by
  have hk : FrameKeeps (rxView p) (1 - p) := rxView_frameKeeps (by omega)
  unfold forwardFrame
  extract_lets o _ _ m1 _
  have h1 : rxView p m1 = rxView p n := (hk.pickFrame ..).trans (hk.advanceCredit ..)
  split
  · split
    · split
      · exact (rxView_count 1 m1 (by decide) (by decide)).trans h1
      · exact (rxView_count _ _ (by decide) (by decide)).trans ((rxView_count _ m1 (by decide) (by decide)).trans h1)
    · exact (hk.toEgress ..).trans (onlyIf_keep (rxView p) _ _ _ (rxView_count 1 n (by decide) (by decide)))
  · rfl

theorem rxView_frameRouted (hp : p < 2) (f : RingFrame) (m n : Mach) : rxView p (frameRouted p f m n) = rxView p n := by
  unfold frameRouted
  split
  · exact rxView_count 1 n (by decide) (by decide)
  · split
    · exact rxView_count 1 n (by decide) (by decide)
    · split
      · exact (rxView_deliverLocal f _).trans (rxView_count 1 n (by decide) (by decide))
      · split
        · exact (rxView_deliverLocal f _).trans (rxView_count 1 n (by decide) (by decide))
        · exact (rxView_deliverLocal f _).trans (rxView_forwardFrame hp f n)

theorem frameRouted_lastHop (ho : f.origin ≠ ownSeat m) (hc : (configFor m f.epoch).isSome = true) (hh : f.hopsLeft ≤ 1) :
    frameRouted p f m n = deliverLocal p f (count p 0x0107 1 n) := by
  obtain ⟨l, hl⟩ := Option.isSome_iff_exists.mp hc
  rw [frameRouted, if_neg ho, hl]
  exact if_pos hh

theorem ringCnt_frameTaken {id : Nat} (hne : id ≠ 0x0101) : ringCnt (frameTaken p f m) p id = ringCnt m p id :=
  ringCnt_count_ne (m := rxStamped p f.ingress m) 1 (by omega)

theorem delivered_out (ident : Nat) : (delivered p ident m).out = .deliver p ident :: m.out := by
  rw [delivered, emit_out, count, setRing_out]

theorem ringCnt_delivered (ident : Nat) : ringCnt (delivered p ident m) p 0x0105 = ringCnt m p 0x0105 + 1 := by
  rw [delivered, ringCnt_emit, ringCnt_count_self]

theorem ringCnt_delivered_ne {id : Nat} (ident : Nat) (h : id ≠ 0x0105) : ringCnt (delivered p ident m) p id = ringCnt m p id := by
  rw [delivered, ringCnt_emit, ringCnt_count_ne 1 (by omega)]

theorem count_out (id k : Nat) : (count p id k m).out = m.out := by rw [count, setRing_out]

/-- Local delivery of a good frame for this device; no other frame is delivered. -/
theorem deliverLocal_good (hx : f.poisoned = false) (hf : f.fcsOk = true) (hi : f.icvOk = true) :
    deliverLocal p f n = onlyIf f.toMe (delivered p f.ident) n := by
  rw [deliverLocal, hx, hf, hi]
  cases f.toMe <;> rfl

theorem ringFrameReceive_unsecured (ha : Awake s) (hp : p < 2) (hs : secure s.m p = false) : Answers (.ringFrameReceive p f) s (fun n =>
    n.out = s.m.out ∧ ringCnt n p 0x0305 = ringCnt s.m p 0x0305 + 1 ∧ n.regs = s.m.regs) := by
  refine answers_mach _ s (ringFrame p f) _ rfl ha ?_
  rw [ringFrame_unsecured hp hs]
  exact ⟨rfl, ringCnt_count_self .., rfl⟩

theorem ringFrameReceive_good (ha : Awake s) (hp : p < 2) (hs : secure s.m p = true) (hpn : (port s.m p).rxPn ≤ f.pn) (hl : f.len ≤ 4096)
    (hx : f.poisoned = false) (hf : f.fcsOk = true) (hi : f.icvOk = true) (hh : ∀ h, f.heivo = some h → heivoOk s.m h = true) :
    Answers (.ringFrameReceive p f) s (fun n => (port n p).rxPn = f.pn + 1 ∧ ringCnt n p 0x0101 = ringCnt s.m p 0x0101 + 1 ∧
      (f.origin = ownSeat s.m → n.out = s.m.out ∧ ringCnt n p 0x0106 = ringCnt s.m p 0x0106 + 1) ∧
      (f.origin ≠ ownSeat s.m → (configFor s.m f.epoch).isSome = true → f.hopsLeft ≤ 1 → ringCnt n p 0x0107 = ringCnt s.m p 0x0107 + 1 ∧
        (f.toMe = true → n.out = .deliver p f.ident :: s.m.out ∧ ringCnt n p 0x0105 = ringCnt s.m p 0x0105 + 1) ∧
        (f.toMe = false → n.out = s.m.out))) := by
  refine answers_mach _ s (ringFrame p f) _ rfl ha ?_
  rw [ringFrame_good hp hs hpn hl hx hf hi hh]
  obtain ⟨hrx, hcnt⟩ := frameTaken_view p f s.m
  rw [← rxView_frameRouted hp f s.m] at hrx hcnt
  refine ⟨hrx, hcnt, fun ho => ?_, fun ho hc hlast => ?_⟩
  · rw [frameRouted, if_pos ho]
    rw [ringCnt_count_self, ringCnt_frameTaken (by decide), count_out, frameTaken_out]
    exact ⟨rfl, rfl⟩
  · rw [frameRouted_lastHop ho hc hlast, deliverLocal_good hx hf hi]
    refine ⟨?_, fun h => ?_, fun h => ?_⟩
    · rw [onlyIf_keep (ringCnt · p 0x0107) _ _ _ (ringCnt_delivered_ne _ (by decide)), ringCnt_count_self,
        ringCnt_frameTaken (by decide)]
    · rw [h, onlyIf_true, delivered_out, count_out, frameTaken_out, ringCnt_delivered, ringCnt_count_ne 1 (by omega),
        ringCnt_frameTaken (by decide)]
      exact ⟨rfl, rfl⟩
    · rw [h, onlyIf_false, count_out, frameTaken_out]

end RingFrames

/-! Local ports. -/

section LocalFrames
variable {s : State} {m : Mach} {p : Nat} {f : LocalFrame}

/-- A local port that has counted a good frame, and taken its packet number where it runs MACsec. -/
def localTaken (p : Nat) (f : LocalFrame) (m : Mach) : Mach :=
  let n := count p 0x0101 1 (rxStamped p f.ingress m)
  onlyIf (macsecOn m p) (setPort p { port n p with rxPn := max (port n p).rxPn (f.pn + 1) }) n

theorem localFrame_mine (hp : p = 2 ∨ p = 3) (ho : portOn m p = true) (hx : f.poisoned = false) (hl : f.len ≤ maxFrame m p) (hf : f.fcsOk = true)
    (hm : macsecOn m p = true → secure m p = true ∧ (port m p).rxPn ≤ f.pn + 64) (hk : f.macsecOk = true) (ht : f.toMe = true) :
    localFrame p f m = delivered p f.ident (localTaken p f m) := by
  have hport : port (rxStamped p f.ingress m) p = { port m p with rxStamp := stampIn m p f.ingress } := port_setPort_self _
  have hlocal : (decide (p = 2) || decide (p = 3)) = true := by simpa using hp
  unfold localFrame
  rw [if_pos hlocal]
  extract_lets _ q m1 _ m2
  have hq : q = rxStamped p f.ingress m := rfl
  have hon : ¬ (!portOn q p) = true := by rw [show portOn q p = true from ho]; decide
  have hlen : ¬ (decide (maxFrame q p < f.len) || !f.fcsOk) = true := by
    rw [hf, decide_eq_false (show ¬ maxFrame q p < f.len from Nat.not_lt.mpr hl)]; decide
  have hsec : ¬ (macsecOn q p && !secure q p) = true := by
    cases hon : macsecOn m p with
    | false => rw [show macsecOn q p = false from hon]; exact Bool.false_ne_true
    | true => rw [show secure q p = true from (hm hon).1]; simp
  have hpn : ¬ (macsecOn q p && decide (f.pn + 64 < (port q p).rxPn)) = true := by
    cases hon : macsecOn m p with
    | false => rw [show macsecOn q p = false from hon]; exact Bool.false_ne_true
    | true => rw [hq, hport, decide_eq_false (Nat.not_lt.mpr (hm hon).2)]; simp
  rw [if_neg hon, if_neg (by rw [hx]; decide), if_neg hlen, if_neg hsec, if_neg hpn, if_neg (by rw [hk]; decide), if_pos ht]
  rfl

theorem localTaken_keeps (p : Nat) (f : LocalFrame) (m : Mach) : (localTaken p f m).out = m.out ∧ (localTaken p f m).regs = m.regs ∧
    ringCnt (localTaken p f m) p 0x0105 = ringCnt m p 0x0105 :=
  ⟨onlyIf_keep (·.out) _ _ _ rfl, onlyIf_keep (·.regs) _ _ _ rfl,
    (onlyIf_keep (ringCnt · p 0x0105) _ _ _ rfl).trans (ringCnt_count_ne (m := rxStamped p f.ingress m) 1 (by omega))⟩

theorem localFrameReceive_mine (ha : Awake s) (hp : p = 2 ∨ p = 3) (ho : portOn s.m p = true) (hx : f.poisoned = false)
    (hl : f.len ≤ maxFrame s.m p) (hf : f.fcsOk = true) (hm : macsecOn s.m p = true → secure s.m p = true ∧ (port s.m p).rxPn ≤ f.pn + 64)
    (hk : f.macsecOk = true) (ht : f.toMe = true) : Answers (.localFrameReceive p f) s (fun n =>
      n.out = .deliver p f.ident :: s.m.out ∧ n.regs = s.m.regs ∧ ringCnt n p 0x0105 = ringCnt s.m p 0x0105 + 1) := by
  obtain ⟨hout, hregs, hcnt⟩ := localTaken_keeps p f s.m
  refine answers_mach _ s (localFrame p f) _ rfl ha ?_
  rw [localFrame_mine hp ho hx hl hf hm hk ht, delivered_out, ringCnt_delivered, hout, hcnt]
  exact ⟨rfl, hregs, rfl⟩

end LocalFrames

/-- Settles O20, one lemma for each clause. -/
theorem framesArrive : Obligations.FramesArrive := fun _ ha =>
  ⟨fun _ _ => ringFrameReceive_unsecured ha, fun _ _ => ringFrameReceive_good ha, fun _ _ => localFrameReceive_mine ha⟩

end Sys2Proof.Machine
end

section
/-! Gate list changes (06 R183; log 95) and MDIO transactions (06 R159). -/
namespace Sys2Proof.Machine

/-! Gate lists. -/

section Gates
variable {s : State} {m : Mach} {p : Nat}

/-- The deal of the change that a high word completes. -/
def changeDeal (p : Nat) (hi : Word) (m : Mach) : Nat := rdi m F.RING_TAS_CHANGE_LO_DEAL p + hi.toNat * 2 ^ 32

/-- A gate change that has been armed. -/
def changeArmed (p : Nat) (hi : Word) (m : Mach) : Mach :=
  setRing { m.ring with changeAt := mset 0 p (changeDeal p hi m) m.ring.changeAt } (wri F.RING_TAS_CHANGE_HI_DEAL p hi.toNat m)

theorem tasChangeArm_past {hi : Word} (hp : p < 4) (hd : changeDeal p hi m < m.deal) :
    tasChangeArm p hi m = wri F.RING_TAS_CTRL_ERR p 1 (wri F.RING_TAS_CHANGE_HI_DEAL p hi.toNat m) := (if_pos hp).trans (if_pos hd)

theorem tasChangeArm_ahead {hi : Word} (hp : p < 4) (hd : m.deal ≤ changeDeal p hi m) :
    tasChangeArm p hi m = wri F.RING_TAS_CTRL_PENDING p 1 (changeArmed p hi m) := (if_pos hp).trans (if_neg (Nat.not_lt.mpr hd))

theorem tasChangeArm_answers (ha : Awake s) (hp : p < 4) (hi : Word) : Answers (.tasChangeArm p hi) s (fun n =>
    (changeDeal p hi s.m < s.m.deal → rdi n F.RING_TAS_CTRL_ERR p = 1 ∧ n.ring = s.m.ring) ∧
    (s.m.deal ≤ changeDeal p hi s.m → rdi n F.RING_TAS_CTRL_PENDING p = 1 ∧ mget 0 n.ring.changeAt p = changeDeal p hi s.m)) := by
  refine answers_mach _ s (tasChangeArm p hi) _ rfl ha ⟨fun hd => ?_, fun hd => ?_⟩
  · rw [tasChangeArm_past hp hd, rdi_wri_self _ _ _ _ hp]
    exact ⟨rfl, rfl⟩
  · rw [tasChangeArm_ahead hp hd, rdi_wri_self _ _ _ _ hp, wri_ring, changeArmed, setRing_ring, mget_mset_self]
    exact ⟨rfl, rfl⟩

/-- The start of the cycle at which an armed change takes effect. -/
def changeStart (p : Nat) (m : Mach) : Nat :=
  cycleStart (rdi m F.RING_TAS_BASE_LO_DEAL p + rdi m F.RING_TAS_BASE_HI_DEAL p * 2 ^ 32) (mget 0 m.ring.changeAt p) (rdi m F.RING_TAS_CYCLE_NS p)

/-- The administrative list of a port, fitted to its cycle. -/
def adminList (p : Nat) (m : Mach) : List (Nat × Nat) :=
  tasFit (rdi m F.RING_TAS_CYCLE_NS p) ((List.range (rdi m F.RING_TAS_CTRL_ADMIN_LEN p)).map (gclEntry m p))

/-- An egress port with its administrative list in force. -/
def listApplied (p : Nat) (m : Mach) : Egress :=
  { egress m p with oper := adminList p m, entry := 0, gateEnd := changeStart p m + ((adminList p m).getD 0 (0, 0)).2 }

theorem tasChangeApply_due (hp : p < 4) (hq : rdi m F.RING_TAS_CTRL_PENDING p = 1) (hs : changeStart p m < m.tim.ns + 125000) :
    tasChangeApply p m = wri F.RING_TAS_CTRL_PENDING p 0 (setEgress p (listApplied p m) m) := by
  have hdue : (decide (p < 4) && rdi m F.RING_TAS_CTRL_PENDING p == 1 && decide (changeStart p m < m.tim.ns + 125000)) = true := by
    rw [hq, decide_eq_true hp, decide_eq_true hs]
    rfl
  exact if_pos hdue

theorem tasChangeApply_answers (ha : Awake s) (hp : p < 4) (hq : rdi s.m F.RING_TAS_CTRL_PENDING p = 1)
    (hs : changeStart p s.m < s.m.tim.ns + 125000) : Answers (.tasChangeApply p) s (fun n => (egress n p).oper = adminList p s.m ∧
      (egress n p).entry = 0 ∧ (egress n p).gateEnd = changeStart p s.m + ((adminList p s.m).getD 0 (0, 0)).2 ∧
      rdi n F.RING_TAS_CTRL_PENDING p = 0 ∧ n.out = s.m.out) := by
  refine answers_mach _ s (tasChangeApply p) _ rfl ha ?_
  have heg : egress (wri F.RING_TAS_CTRL_PENDING p 0 (setEgress p (listApplied p s.m) s.m)) p = listApplied p s.m := egress_setEgress_self _
  rw [tasChangeApply_due hp hq hs, heg, rdi_wri_self _ _ _ _ hp]
  exact ⟨rfl, rfl, rfl, rfl, rfl⟩

end Gates

/-! MDIO. -/

section Mdio
variable {β : Type} {s : State} {m : Mach} {p : Nat} {f : Fld}

/-- The operands of an MDIO transaction in their fields. -/
def mdioOperands (n : Nat) (m : Mach) : Mach :=
  wr F.RING_MDIO_CTRL_PRTAD (n % 32) (wr F.RING_MDIO_CTRL_DEVAD (n / 32 % 32) (wr F.RING_MDIO_CTRL_OP (n / 1024 % 4)
    (if 7 ≤ n / 65536 % 64 then wr F.RING_MDIO_CTRL_DIV (n / 65536 % 64) m else m)))

theorem mdioOperands_reads (n : Nat) (m : Mach) : rd (mdioOperands n m) F.RING_MDIO_CTRL_PRTAD = n % 32 ∧
    rd (mdioOperands n m) F.RING_MDIO_CTRL_DEVAD = n / 32 % 32 ∧ rd (mdioOperands n m) F.RING_MDIO_CTRL_OP = n / 1024 % 4 := by
  have hPrtad : ∀ v k, rd (wr F.RING_MDIO_CTRL_PRTAD (v % 32) k) F.RING_MDIO_CTRL_PRTAD = v % 32 := fun v k =>
    (rd_wr_self ..).trans (Nat.mod_mod v 32)
  have hDevad : ∀ v k, rd (wr F.RING_MDIO_CTRL_DEVAD (v % 32) k) F.RING_MDIO_CTRL_DEVAD = v % 32 := fun v k =>
    (rd_wr_self ..).trans (Nat.mod_mod v 32)
  have hOp : ∀ v k, rd (wr F.RING_MDIO_CTRL_OP (v % 4) k) F.RING_MDIO_CTRL_OP = v % 4 := fun v k => (rd_wr_self ..).trans (Nat.mod_mod v 4)
  refine ⟨hPrtad .., ?_, ?_⟩
  · rw [mdioOperands, rd_wr_ne _ _ _ _ (by decide), hDevad]
  · rw [mdioOperands, rd_wr_ne _ _ _ _ (by decide), rd_wr_ne _ _ _ _ (by decide), hOp]

/-- The machine with its transaction started. -/
def mdioStarted (v : Word) (m : Mach) : Mach := wr F.RING_MDIO_CTRL_GO 1 (wr F.RING_MDIO_CTRL_BUSY 1 (mdioOperands v.toNat m))

theorem mdioGo_eq (v : Word) (m : Mach) : mdioGo v m = setRing { (mdioOperands v.toNat m).ring with
    mdioBusy := true, mdioOp := if m.ring.mdioBusy then m.ring.mdioOp else v.toNat / 1024 % 4 } (mdioStarted v m) := rfl

theorem rd_mdioStarted (v : Word) (m : Mach) (h : ∀ g ∈ [F.RING_MDIO_CTRL_GO, F.RING_MDIO_CTRL_BUSY], fkey f 0 0 ≠ fkey g 0 0) :
    rd (mdioStarted v m) f = rd (mdioOperands v.toNat m) f := by
  rw [mdioStarted, rd_wr_ne _ _ _ _ (h _ (by decide)), rd_wr_ne _ _ _ _ (h _ (by decide))]

theorem mdioGo_answers (ha : Awake s) (v : Word) : Answers (.mdioGo v) s (fun n =>
    rd n F.RING_MDIO_CTRL_GO = 1 ∧ rd n F.RING_MDIO_CTRL_BUSY = 1 ∧ n.ring.mdioBusy = true ∧
    rd n F.RING_MDIO_CTRL_PRTAD = v.toNat % 32 ∧ rd n F.RING_MDIO_CTRL_DEVAD = v.toNat / 32 % 32 ∧
    rd n F.RING_MDIO_CTRL_OP = v.toNat / 1024 % 4 ∧ (s.m.ring.mdioBusy = false → n.ring.mdioOp = v.toNat / 1024 % 4)) := by
  obtain ⟨hprtad, hdevad, hop⟩ := mdioOperands_reads v.toNat s.m
  refine answers_mach _ s (mdioGo v) _ rfl ha ?_
  rw [mdioGo_eq]
  simp only [rd_setRing, setRing_ring]
  rw [rd_mdioStarted v s.m (f := F.RING_MDIO_CTRL_PRTAD) (by decide), rd_mdioStarted v s.m (f := F.RING_MDIO_CTRL_DEVAD) (by decide),
    rd_mdioStarted v s.m (f := F.RING_MDIO_CTRL_OP) (by decide), mdioStarted, rd_wr_self, rd_wr_ne _ _ _ _ (by decide), rd_wr_self]
  exact ⟨rfl, rfl, trivial, hprtad, hdevad, hop, fun h => by rw [h]; rfl⟩

/-! The end of a transaction. -/

/-- The result of a poll leaves what the loss of no port's link writes. -/
theorem rd_phyResult (h : ∀ p < 4, fkey f 0 0 ∉ linkPlaces p) (q : Nat × Nat × Nat) (m : Mach) : rd (phyResult q m) f = rd m f := by
  obtain ⟨p, pma, pcs⟩ := q
  rw [phyResult_eq]
  split
  · rfl
  · by_cases hp : p < 4
    · exact (kept_linkDown ..).rd (h p hp)
    · have hidle : ∀ k, linkDown p 2 k = k := fun k => if_neg (by simp [hp])
      rw [hidle]
      rfl

theorem phyResult_ring (g : RingSt → β) (hg : ∀ x ps cs l, g { x with ports := ps, counters := cs, pendingSt := l } = g x)
    (q : Nat × Nat × Nat) (m : Mach) : g (phyResult q m).ring = g m.ring := by
  obtain ⟨p, pma, pcs⟩ := q
  rw [phyResult_eq]
  split
  · exact hg m.ring _ _ _
  · exact (linkDown_ring g hg ..).trans (hg m.ring _ _ _)

/-- The machine with its transaction ended, before the polls that waited. -/
def mdioEnded (data : Nat) (m : Mach) : Mach :=
  let n := onlyIf (decide (2 ≤ m.ring.mdioOp)) (wr F.RING_MDIO_DATA_DATA data) m
  setRing { n.ring with mdioBusy := false, polls := [] } (wr F.RING_MDIO_CTRL_GO 0 (wr F.RING_MDIO_CTRL_BUSY 0 n))

theorem mdioEnded_shows (data : Nat) (m : Mach) : rd (mdioEnded data m) F.RING_MDIO_CTRL_GO = 0 ∧ rd (mdioEnded data m) F.RING_MDIO_CTRL_BUSY = 0 ∧
    (2 ≤ m.ring.mdioOp → rd (mdioEnded data m) F.RING_MDIO_DATA_DATA = data % 2 ^ F.RING_MDIO_DATA_DATA.width) := by
  simp only [mdioEnded, rd_setRing]
  rw [rd_wr_self, rd_wr_ne _ _ _ _ (by decide), rd_wr_self, rd_wr_ne _ _ _ _ (by decide), rd_wr_ne _ _ _ _ (by decide)]
  exact ⟨rfl, rfl, fun h => by rw [decide_eq_true h, onlyIf_true, rd_wr_self]⟩

theorem mdioEnded_ring (data : Nat) (m : Mach) : (mdioEnded data m).ring = { m.ring with mdioBusy := false, polls := [] } := by
  rw [mdioEnded, setRing_ring, onlyIf_keep (·.ring) _ _ _ (wr_ring ..)]

theorem mdioEnded_out (data : Nat) (m : Mach) : (mdioEnded data m).out = m.out := onlyIf_keep (·.out) _ _ _ rfl

theorem mdioDone_answers (ha : Awake s) (data : Nat) (hb : s.m.ring.mdioBusy = true) : Answers (.mdioDone data) s (fun n =>
    rd n F.RING_MDIO_CTRL_GO = 0 ∧ rd n F.RING_MDIO_CTRL_BUSY = 0 ∧ n.ring.mdioBusy = false ∧ n.ring.polls = [] ∧
    (2 ≤ s.m.ring.mdioOp → rd n F.RING_MDIO_DATA_DATA = data % 2 ^ F.RING_MDIO_DATA_DATA.width) ∧
    (s.m.ring.polls = [] → n.out = s.m.out) ∧
    (∀ p pma pcs, s.m.ring.polls = [(p, pma, pcs)] → (port n p).phy = (pma.testBit 2 && pcs.testBit 2))) := by
  have heq : mdioDone data s.m = forEach s.m.ring.polls phyResult (mdioEnded data s.m) := if_pos hb
  have hfree : ∀ p < 4, ∀ f ∈ [F.RING_MDIO_CTRL_GO, F.RING_MDIO_CTRL_BUSY, F.RING_MDIO_DATA_DATA], fkey f 0 0 ∉ linkPlaces p := by decide
  have hreg : ∀ f ∈ [F.RING_MDIO_CTRL_GO, F.RING_MDIO_CTRL_BUSY, F.RING_MDIO_DATA_DATA],
      rd (forEach s.m.ring.polls phyResult (mdioEnded data s.m)) f = rd (mdioEnded data s.m) f := fun f hf =>
    forEach_keep (fun n => rd n f) _ _ (fun q n => rd_phyResult (fun p hp => hfree p hp f hf) q n) _
  have hring := forEach_keep (fun n => (n.ring.mdioBusy, n.ring.polls)) s.m.ring.polls phyResult
    (fun q n => phyResult_ring (fun x => (x.mdioBusy, x.polls)) (fun _ _ _ _ => rfl) q n) (mdioEnded data s.m)
  rw [mdioEnded_ring, Prod.mk.injEq] at hring
  obtain ⟨hgo, hbusy, hdata⟩ := mdioEnded_shows data s.m
  refine answers_mach _ s (mdioDone data) _ rfl ha ?_
  rw [heq, hreg _ (by decide), hreg _ (by decide), hreg _ (by decide)]
  refine ⟨hgo, hbusy, hring.1, hring.2, hdata, fun hp => ?_, fun p pma pcs hp => ?_⟩
  · rw [hp, forEach_nil, mdioEnded_out]
  · rw [hp, forEach_cons, forEach_nil]
    exact port_phyResult (·.phy) (fun _ _ => rfl) (fun _ => rfl) ..

end Mdio

/-- Settles O22, one lemma for each command. -/
theorem gateListsAndMdio : Obligations.GateListsAndMdio :=
  ⟨fun _ _ ha hp => ⟨tasChangeArm_answers ha hp, tasChangeApply_answers ha hp⟩,
    fun _ ha => ⟨mdioGo_answers ha, mdioDone_answers ha⟩⟩

end Sys2Proof.Machine
end

section
/-! Join reports, enrolment and copies (15 R406, R409, R423, R425; the verdict records and relay kinds by logs 101 and 110). -/
namespace Sys2Proof.Machine

section Reports
variable {s : State} {m n : Mach} {seat a b idev ldev : Nat} {q : Nat × Nat}

/-- A join report that is recorded. -/
def joinNoted (seat : Nat) (m : Mach) : Mach :=
  setDom { m.dom with joined := if m.dom.joined.contains seat then m.dom.joined else m.dom.joined ++ [seat] } m

/-- Both ends of a link that a seat's report names are told the verdict on it. -/
def tellLink (seat : Nat) (q : Nat × Nat) (m : Mach) : Mach :=
  let told := b2n (verdictOn m seat q.1 q.2)
  sendTrio q.2 0xF005 [(2, seat), (1, told)] (sendTrio seat 0xF005 [(2, q.2), (1, told)] m)

theorem joinReport_eq (seat a b : Nat) (m : Mach) :
    joinReport seat a b m = forEach ([(0, a), (1, b)].filter fun q => q.2 != 0xFFFF) (tellLink seat) (joinNoted seat m) := rfl

theorem mem_joinNoted (seat : Nat) (m : Mach) : seat ∈ (joinNoted seat m).dom.joined := by
  show seat ∈ if m.dom.joined.contains seat then m.dom.joined else m.dom.joined ++ [seat]
  split
  case isTrue h => exact List.contains_iff_mem.mp h
  case isFalse => exact List.mem_append_right _ (List.mem_singleton_self _)

/-- A verdict rests on the roster, the join reports and the fault points. -/
theorem verdictOn_congr (hd : n.dom = m.dom) (hr : n.ring = m.ring) (seat p peer : Nat) : verdictOn n seat p peer = verdictOn m seat p peer := by
  simp only [verdictOn, seatsBetween, cutOff, hd, hr]

theorem sendTrio_dom (seat op : Nat) (p : Pay) (m : Mach) : (sendTrio seat op p m).dom = m.dom := rfl
theorem sendTrio_ring (seat op : Nat) (p : Pay) (m : Mach) : (sendTrio seat op p m).ring = m.ring := rfl
theorem sendTrio_regs (seat op : Nat) (p : Pay) (m : Mach) : (sendTrio seat op p m).regs = m.regs := rfl

theorem tellLink_dom (seat : Nat) (q : Nat × Nat) (m : Mach) : (tellLink seat q m).dom = m.dom := by rw [tellLink, sendTrio_dom, sendTrio_dom]
theorem tellLink_ring (seat : Nat) (q : Nat × Nat) (m : Mach) : (tellLink seat q m).ring = m.ring := by rw [tellLink, sendTrio_ring, sendTrio_ring]
theorem tellLink_regs (seat : Nat) (q : Nat × Nat) (m : Mach) : (tellLink seat q m).regs = m.regs := by rw [tellLink, sendTrio_regs, sendTrio_regs]

theorem tellLinks_keep (seat : Nat) (l : List (Nat × Nat)) (m : Mach) : (forEach l (tellLink seat) m).dom = m.dom ∧
    (forEach l (tellLink seat) m).ring = m.ring ∧ (forEach l (tellLink seat) m).regs = m.regs :=
  ⟨forEach_keep (·.dom) _ _ (tellLink_dom seat) m, forEach_keep (·.ring) _ _ (tellLink_ring seat) m,
    forEach_keep (·.regs) _ _ (tellLink_regs seat) m⟩

theorem kept_tellLink (seat : Nat) (q : Nat × Nat) (m : Mach) : Kept [] m (tellLink seat q m) := (kept_sendTrio ..).trans (kept_sendTrio ..)

theorem sendTrio_sends (seat op : Nat) (p : Pay) (m : Mach) : NewOut m (sendTrio seat op p m) (.trio seat op p) :=
  ⟨_, by simp only [sendTrio, tunnelFrames, emit]; rw [← List.append_cons], by simp⟩

theorem tellLink_sends (seat : Nat) (q : Nat × Nat) (m : Mach) :
    NewOut m (tellLink seat q m) (.trio seat 0xF005 [(2, q.2), (1, b2n (verdictOn m seat q.1 q.2))]) ∧
      NewOut m (tellLink seat q m) (.trio q.2 0xF005 [(2, seat), (1, b2n (verdictOn m seat q.1 q.2))]) :=
  ⟨newOut_mono _ _ _ _ (sendTrio_sends ..) (kept_sendTrio (ks := []) ..).out, newOut_since (kept_sendTrio (ks := []) ..).out (sendTrio_sends ..)⟩

theorem tellLinks_send {l : List (Nat × Nat)} (hq : q ∈ l) (m : Mach) :
    NewOut m (forEach l (tellLink seat) m) (.trio seat 0xF005 [(2, q.2), (1, b2n (verdictOn m seat q.1 q.2))]) ∧
      NewOut m (forEach l (tellLink seat) m) (.trio q.2 0xF005 [(2, seat), (1, b2n (verdictOn m seat q.1 q.2))]) := by
  induction l generalizing m with
  | nil => cases hq
  | cons a l ih =>
    rw [forEach_cons]
    obtain rfl | hq := List.mem_cons.mp hq
    · have hrest := (kept_forEach (fun b _ k => kept_tellLink seat b k) (tellLink seat q m) (l := l)).out
      exact ⟨newOut_mono _ _ _ _ (tellLink_sends seat q m).1 hrest, newOut_mono _ _ _ _ (tellLink_sends seat q m).2 hrest⟩
    · obtain ⟨hseat, hother⟩ := ih hq (tellLink seat a m)
      rw [verdictOn_congr (tellLink_dom ..) (tellLink_ring ..)] at hseat hother
      exact ⟨newOut_since (kept_tellLink seat a m).out hseat, newOut_since (kept_tellLink seat a m).out hother⟩

theorem joinReportReceive_answers (ha : Awake s) (hact : activeMgr s.m = ownSeat s.m) (hmem : member s.m = true) (seat a b : Nat) :
    Answers (.joinReportReceive ⟨seat, a, b⟩) s (fun n => seat ∈ n.dom.joined ∧ n.regs = s.m.regs ∧
      ∀ p t, (p = 0 ∧ t = a) ∨ (p = 1 ∧ t = b) → t ≠ 0xFFFF →
        NewOut s.m n (.trio seat 0xF005 [(2, t), (1, b2n (verdictOn n seat p t))]) ∧
        NewOut s.m n (.trio t 0xF005 [(2, seat), (1, b2n (verdictOn n seat p t))])) := by
  have hdue : joinReportReceive ⟨seat, a, b⟩ s.m = joinReport seat a b s.m := by simp [joinReportReceive, hact, hmem]
  refine answers_mach _ s (joinReportReceive ⟨seat, a, b⟩) _ rfl ha ?_
  rw [hdue, joinReport_eq]
  obtain ⟨hdom, hring, hregs⟩ := tellLinks_keep seat ([(0, a), (1, b)].filter fun q => q.2 != 0xFFFF) (joinNoted seat s.m)
  refine ⟨by rw [hdom]; exact mem_joinNoted .., hregs, fun p t hlink ht => ?_⟩
  have hmem : (p, t) ∈ [(0, a), (1, b)].filter fun q => q.2 != 0xFFFF := by simp_all
  rw [verdictOn_congr hdom hring]
  exact tellLinks_send hmem (joinNoted seat s.m)

/-- The active manager owes the last ring-key buffer to a candidate that the roster binds, and reports any other. -/
theorem enrolmentReceive_answers (ha : Awake s) (hact : activeMgr s.m = ownSeat s.m) (hmem : member s.m = true) (a b idev ldev : Nat) :
    let due := ldev ≠ 0 ∧ s.m.sec.lastRing.isSome = true ∧
      s.m.dom.roster.any (fun r => r.ents.any (fun e => e.present && e.ldev == ldev)) = true
    Answers (.enrolmentReceive a b ⟨idev, ldev⟩) s (fun n => n.dom = s.m.dom ∧
      (due → n.out = .relay a 2 a b idev ldev :: s.m.out) ∧ (¬ due → Reported 0x17 0x1707 s.m n)) := by
  intro due
  refine answers_mach _ s (enrolmentReceive a b ⟨idev, ldev⟩) _ rfl ha ?_
  have hcond : (ldev != 0 && s.m.sec.lastRing.isSome && s.m.dom.roster.any fun r => r.ents.any fun e => e.present && e.ldev == ldev) = true ↔
      due := by simp only [due, Bool.and_eq_true, bne_iff_ne, and_assoc]
  simp only [enrolmentReceive, hmem, hact, Bool.not_true, Bool.false_eq_true, if_false, if_true, hcond]
  split
  case isTrue hd => exact ⟨rfl, fun _ => rfl, fun h => absurd hd h⟩
  case isFalse hd => exact ⟨raise_dom .., fun h => absurd h hd, fun _ => raise_reported _ _ _ _⟩

theorem enrolmentReceive_relays (ha : Awake s) (a b idev ldev : Nat) (hmem : member s.m = true) (hact : activeMgr s.m ≠ ownSeat s.m)
    (hknown : activeMgr s.m ≠ 0xFFFF) (hun : (port s.m 0).unknown = true ∨ (port s.m 1).unknown = true) :
    Answers (.enrolmentReceive a b ⟨idev, ldev⟩) s (fun n => n.dom = s.m.dom ∧ n.out = .relay (activeMgr s.m) 0 a b idev ldev :: s.m.out) := by
  have hrelay : enrolmentReceive a b ⟨idev, ldev⟩ s.m = emit (.relay (activeMgr s.m) 0 a b idev ldev) s.m := by
    simp [enrolmentReceive, onlyIf, hmem, hact, hknown, hun]
  refine answers_mach _ s (enrolmentReceive a b ⟨idev, ldev⟩) _ rfl ha ?_
  rw [hrelay]
  exact ⟨rfl, rfl⟩

end Reports

/-! Copies (R423-R425). -/

section Copies
variable {s : State} {m : Mach}

theorem copyReqReceive_answers (ha : Awake s) (seat : Nat) (spare : Bool) (hidx : ownIdx s.m ≠ 3) :
    Answers (.copyReqReceive seat spare) s (fun n => (seat, spare) ∈ n.dom.serveQ ∧ n.regs = s.m.regs ∧ n.out = s.m.out) := by
  refine answers_mach _ s (copyRequest seat spare) _ rfl ha ?_
  rw [copyRequest, if_neg hidx]
  refine ⟨?_, rfl, rfl⟩
  cases spare with
  | true => exact List.mem_append_left _ (List.mem_append_right _ (List.mem_singleton_self _))
  | false => exact List.mem_append_right _ (List.mem_singleton_self _)

/-! What the evaluation of a scene keeps. -/

theorem evalObj_dom (o : Nat) (m : Mach) : (evalObj o m).dom = m.dom := by
  simp only [evalObj]
  split
  · rfl
  · exact (onlyIf_keep (·.dom) _ _ _ (by simp only [raise_dom, wr_dom, bump_dom])).trans <|
      onlyIf_keep (·.dom) _ _ _ (onlyIf_keep (·.dom) _ _ _ (raise_dom ..))

theorem showProbe_dom (m : Mach) : (showProbe m).dom = m.dom := by simp only [showProbe, wr_dom]

theorem evalScene_dom (m : Mach) : (evalScene m).dom = m.dom := by
  simp only [evalScene, showProbe_dom, wr_dom]
  exact forEach_keep (·.dom) _ _ evalObj_dom m

theorem trajPush_dom (c : Cmd) (tk : Ticket) (m : Mach) : (trajPush c tk m).1.dom = m.dom := by
  unfold trajPush
  extract_lets
  split
  · rfl
  · split
    · rfl
    · exact onlyIf_keep (·.dom) _ _ _ (raise_dom ..)

theorem trajClear_dom (c : Cmd) (tk : Ticket) (m : Mach) : (trajClear c tk m).1.dom = m.dom := by
  simp only [trajClear]
  split
  · rfl
  · split
    · exact forEach_keep (·.dom) (m.objs.map Prod.fst) (clearOne (u8 c 26)) (fun _ _ => rfl) m
    · rfl

theorem objSet_dom (c : Cmd) (tk : Ticket) (m : Mach) : (objSet c tk m).1.dom = m.dom := by
  simp only [objSet]
  split <;> rfl

theorem runEff_dom {eff : Eff} (h : ∀ c tk m, (eff c tk m).1.dom = m.dom) (x : Held) (m : Mach) : (runEff eff x m).dom = m.dom := by
  unfold runEff
  extract_lets r
  split
  · exact h ..
  · exact (finalWith_dom ..).trans (h ..)

/-- A replayed command of the scene leaves the copy that it belongs to. -/
theorem replayOne_copy (x : Stamped) (m : Mach) : (replayOne x m).dom.copy = m.dom.copy := by
  have hnote : ∀ n : Mach, (notePast (.tunnel 0 0 x.seq) n).dom.copy = n.dom.copy := fun n => by
    simp only [notePast]
    split <;> rfl
  have hscene : ∀ op ∈ [0x0201, 0x0202, 0x0203], ∀ eff, effOf op = some eff → ∀ c tk m, (eff c tk m).1.dom = m.dom := by
    intro op hop eff heff
    simp only [List.mem_cons, List.not_mem_nil, or_false] at hop
    obtain rfl | rfl | rfl := hop <;> obtain rfl := Option.some.inj heff
    · exact trajPush_dom
    · exact trajClear_dom
    · exact objSet_dom
  simp only [replayOne]
  split
  case h_2 => rfl
  case h_1 eff heff =>
    rw [hnote]
    cases hop : List.contains [0x0201, 0x0202, 0x0203] x.d.op with
    | false => rfl
    | true => exact congrArg Dom.copy (runEff_dom (hscene _ (List.contains_iff_mem.mp hop) eff heff) ..)

/-- A complete image is loaded for the present deal, whose copy it leaves loaded. -/
theorem loadSnap_loads (f : SnapIn) (c : Copy) (m : Mach) :
    (loadSnap f c m).dom.copy = some { c with loaded := some f.deal, eqRun := 0 } ∧ (loadSnap f c m).deal = m.deal := by
  unfold loadSnap
  extract_lets now objs _ m1 step _
  refine ⟨forEach_keep (·.dom.copy) _ step (fun k n => ?_) m1, rfl⟩
  simp only [step, evalScene_dom]
  exact forEach_keep (·.dom.copy) _ _ replayOne_copy _

/-- A scene of the present deal or a later one is loaded as it is. -/
theorem loadSnap_objs {f : SnapIn} (h : m.deal ≤ f.deal) (c : Copy) :
    (loadSnap f c m).objs = f.objs.foldl (fun t x => mset {} x.o (objOfSnap x) t) [] := by
  have hnow : m.deal - f.deal = 0 := by omega
  rw [loadSnap, hnow]
  rfl

theorem snapshotReceive_eq {f : SnapIn} {x : Copy} (hc : m.dom.copy = some x) (hsrc : x.src = f.seat) (hl : x.loaded = none) (hi : f.idx < f.cnt) :
    snapshotReceive f m = if (insertNat f.idx x.got).length < f.cnt
      then setDom { m.dom with copy := some { x with got := insertNat f.idx x.got, lastFrag := m.deal } } m
      else loadSnap f { x with got := insertNat f.idx x.got, lastFrag := m.deal } m := by
  simp [snapshotReceive, hc, hsrc, hl, hi]

theorem snapshotReceive_keeps (ha : Awake s) {f : SnapIn} {x : Copy} (hc : s.m.dom.copy = some x) (hsrc : x.src = f.seat) (hl : x.loaded = none)
    (hi : f.idx < f.cnt) (hpart : (insertNat f.idx x.got).length < f.cnt) :
    Answers (.snapshotReceive f) s (fun n =>
      n.dom.copy = some { x with got := insertNat f.idx x.got, lastFrag := s.m.deal } ∧ n.objs = s.m.objs) := by
  refine answers_mach _ s (snapshotReceive f) _ rfl ha ?_
  rw [snapshotReceive_eq hc hsrc hl hi, if_pos hpart]
  exact ⟨rfl, rfl⟩

theorem snapshotReceive_loads (ha : Awake s) {f : SnapIn} {x : Copy} (hc : s.m.dom.copy = some x) (hsrc : x.src = f.seat) (hl : x.loaded = none)
    (hi : f.idx < f.cnt) (hall : f.cnt ≤ (insertNat f.idx x.got).length) :
    Answers (.snapshotReceive f) s (fun n => (∃ y, n.dom.copy = some y ∧ y.loaded = some f.deal) ∧ n.deal = s.m.deal ∧
      (s.m.deal ≤ f.deal → n.objs = f.objs.foldl (fun t x => mset {} x.o (objOfSnap x) t) [])) := by
  refine answers_mach _ s (snapshotReceive f) _ rfl ha ?_
  rw [snapshotReceive_eq hc hsrc hl hi, if_neg (by omega)]
  obtain ⟨hcopy, hdeal⟩ := loadSnap_loads f { x with got := insertNat f.idx x.got, lastFrag := s.m.deal } s.m
  exact ⟨⟨_, hcopy, rfl⟩, hdeal, fun h => loadSnap_objs h _⟩

/-! A copy that stands still. -/

/-- A request that is asked of another seat is the copy in progress. -/
theorem startCopy_copy {src : Nat} (hn : src ≠ 0xFFFF) (ho : src ≠ ownSeat m) (idx : Option Nat) (restarts : Nat) :
    (startCopy idx src restarts m).dom.copy =
      some { src := src, idx := idx, since := m.deal, lastFrag := m.deal, restarts := restarts } := by
  rw [startCopy, if_neg (by simp [hn, ho])]
  rfl

theorem kept_startCopy (idx : Option Nat) (src restarts : Nat) (m : Mach) :
    Kept [fkey F.DOM_STATE_COPYING 0 0] m (startCopy idx src restarts m) := by
  unfold startCopy
  split
  · exact .refl m
  · have hdom : ∀ x, Kept [fkey F.DOM_STATE_COPYING 0 0] m (setDom x m) := fun _ => .of_eq rfl rfl rfl rfl
    exact (hdom _).trans <| (kept_wr _ _ (List.mem_singleton_self _)).trans (kept_sendTrio ..)

theorem copyTimeout_due {x : Copy} (hc : m.dom.copy = some x) (hdue : x.since + rd m F.DOM_COPY_DEALS ≤ m.deal) :
    copyTimeout m = startCopy x.idx
      ((((trioSeats m).filter (fun t => t != 0xFFFF && t != x.src && t != ownSeat m)).head?).getD x.src) (x.restarts + 1)
      (bump F.DOM_COPY_CNT_COUNT 1 m) := by
  simp [copyTimeout, hc, hdue]

theorem copyTimeout_answers (ha : Awake s) {x : Copy} (hc : s.m.dom.copy = some x) (hdue : x.since + rd s.m F.DOM_COPY_DEALS ≤ s.m.deal) :
    Answers .copyTimeout s (fun n =>
      rd n F.DOM_COPY_CNT_COUNT = min (2 ^ F.DOM_COPY_CNT_COUNT.width - 1) (rd s.m F.DOM_COPY_CNT_COUNT + 1) ∧
      (∀ t, ((trioSeats s.m).filter (fun t => t != 0xFFFF && t != x.src && t != ownSeat s.m)).head? = some t →
        ∃ y, n.dom.copy = some y ∧ y.src = t ∧ y.restarts = x.restarts + 1 ∧ y.idx = x.idx ∧ y.loaded = none)) := by
  refine answers_mach _ s copyTimeout _ rfl ha ?_
  rw [copyTimeout_due hc hdue]
  refine ⟨?_, fun t ht => ?_⟩
  · rw [(kept_startCopy ..).rd (by decide), rd_bump_self]
    exact Nat.mod_eq_of_lt (Nat.lt_of_le_of_lt (Nat.min_le_left ..) (by decide))
  · obtain ⟨hnone, hown⟩ : t ≠ 0xFFFF ∧ t ≠ ownSeat s.m := by
      have := (List.mem_filter.mp (List.mem_of_mem_head? ht)).2
      simp only [Bool.and_eq_true, bne_iff_ne] at this
      exact ⟨this.1.1, this.2⟩
    have hseat : ownSeat (bump F.DOM_COPY_CNT_COUNT 1 s.m) = ownSeat s.m := rd_bump_ne _ _ _ _ (by decide)
    rw [ht]
    exact ⟨_, startCopy_copy hnone (by rw [hseat]; exact hown) .., rfl, rfl, rfl, rfl⟩

end Copies

end Sys2Proof.Machine
end

section
/-! MKA peers and verdicts (06 R170; 15 R405, R423): the member that is withdrawn, the MKPDU that is answered, the SAK that secures a port and
the peer that is refused. -/
namespace Sys2Proof.Machine

/-- Where an event about a peer and the records of it write registers. -/
def memberKeys : List Nat := [discardKey, fkey F.DOM_FLAGS_UNKNOWN_PEER 0 0, fkey F.RING_FLAGS_NBR_CHANGED 0 0]

/-- Where the judgement of a port's peer writes registers. -/
def peerPlaces (p : Nat) : List Nat := linkPlaces p ++ (memberKeys ++ joinKeys)

section Peers
variable {β : Type} {s : State} {m n : Mach} {p kn an keyNo ldev : Nat} {k : MkIn} {ks : List Nat}

theorem linkPlaces_subset : linkPlaces p ⊆ peerPlaces p := List.subset_append_left ..
theorem memberKeys_subset : memberKeys ⊆ peerPlaces p := fun _ h => List.mem_append_right _ (List.mem_append_left _ h)
theorem joinKeys_subset : joinKeys ⊆ peerPlaces p := fun _ h => List.mem_append_right _ (List.mem_append_right _ h)

/-- A port stays as secure as it was, where its bit is not written. -/
theorem secure_kept (h : Kept ks m n) (hp : p < 4) (hk : ∀ p < 4, fkey F.RING_PORT_STAT_SECURE p 0 ∉ ks) : secure n p = secure m p :=
  congrArg (· == 1) (h.rdi (hk p hp))

/-! A member that is not known (R405). -/

/-- A port whose SA is withdrawn, with the fault point that it becomes. -/
def saWithdrawn (p : Nat) (m : Mach) : Mach := detectFault p 3 (dropSa p m)

/-- A ring port that faces an unknown member. -/
def memberUnknown (ldev p : Nat) (m : Mach) : Mach :=
  wr F.DOM_FLAGS_UNKNOWN_PEER 1 (wr F.RING_FLAGS_NBR_CHANGED 1
    (setPort p { port (saWithdrawn p m) p with unknown := true, barred := some ((port m p).peer, ldev) } (saWithdrawn p m)))

theorem unknownMember_eq (hp : p < 2) (ldev : Nat) (m : Mach) :
    unknownMember ldev p m = raise 0x01 0x0103 [(1, p), (1, 2), (2, (port m p).peer), (2, 0), (10, 0)] (memberUnknown ldev p m) := if_pos hp

theorem kept_saWithdrawn (p : Nat) (m : Mach) : Kept (linkPlaces p) m (saWithdrawn p m) :=
  (kept_dropSa ..).trans ((kept_detectFault ..).mono (floodKeys_subset p))

/-- The record of the unknown member writes few registers besides. -/
theorem kept_memberUnknown (ldev p : Nat) (m : Mach) : Kept memberKeys (saWithdrawn p m) (memberUnknown ldev p m) :=
  (kept_setPort ..).trans <| (kept_wr _ _ (by decide)).trans (kept_wr _ _ (by decide))

theorem kept_unknownMember (ldev p : Nat) (m : Mach) : Kept (peerPlaces p) m (unknownMember ldev p m) := by
  by_cases hp : p < 2
  · rw [unknownMember_eq hp]
    exact ((kept_saWithdrawn ..).mono linkPlaces_subset).trans <|
      ((kept_memberUnknown ..).trans (kept_raise _ _ _ _ (by decide))).mono memberKeys_subset
  · rw [unknownMember, if_neg hp]
    exact .refl m

theorem unknownMember_withdraws (hp : p < 2) (ldev : Nat) (m : Mach) : secure (unknownMember ldev p m) p = false ∧
    (port (unknownMember ldev p m) p).unknown = true ∧ rd (unknownMember ldev p m) F.DOM_FLAGS_UNKNOWN_PEER = 1 := by
  have hrest : Kept (floodKeys ++ memberKeys) (dropSa p m) (unknownMember ldev p m) := by
    rw [unknownMember_eq hp]
    exact ((kept_detectFault ..).mono (List.subset_append_left ..)).trans <|
      ((kept_memberUnknown ..).trans (kept_raise _ _ _ _ (by decide))).mono (List.subset_append_right ..)
  refine ⟨(secure_kept hrest (by omega) (by decide)).trans (dropSa_unsecures (by omega) m), ?_, ?_⟩
  · rw [unknownMember_eq hp, port_congr (raise_ring ..), memberUnknown, port_congr (wr_ring ..), port_congr (wr_ring ..), port_setPort_self]
  · rw [unknownMember_eq hp, rd_raise _ _ _ _ _ (by decide), memberUnknown, rd_wr_self]
    rfl

theorem verdictReceive_answers (ha : Awake s) (hp : p < 2) (hs : secure s.m p = true) :
    Answers (.verdictReceive p false) s (fun n => secure n p = false ∧ (port n p).unknown = true ∧ rd n F.DOM_FLAGS_UNKNOWN_PEER = 1 ∧
      Reported 0x17 0x1708 s.m n) := by
  obtain ⟨ldev, pay, hv⟩ : ∃ ldev pay, verdictReceive p false s.m = raise 0x17 0x1708 pay (unknownMember ldev p s.m) :=
    ⟨_, _, if_pos (by simp [hp, hs])⟩
  obtain ⟨hsec, hun, hflag⟩ := unknownMember_withdraws hp ldev s.m
  have hraise : Kept [discardKey] (unknownMember ldev p s.m) (verdictReceive p false s.m) := hv ▸ kept_raise _ _ _ _ (by decide)
  have hrun : ∀ p < 2, fkey F.HIF_STATUS_RUNNING 0 0 ∉ peerPlaces p := by decide
  refine answers_mach _ s (verdictReceive p false) _ rfl ha ⟨(secure_kept hraise (by omega) (by decide)).trans hsec, ?_,
    (hraise.rd (by decide)).trans hflag, ?_⟩
  · rw [hv, port_congr (raise_ring ..), hun]
  · rw [hv]
    exact ((kept_unknownMember ..).events (hrun p hp)).reported

/-! An MKPDU that arrives (06 R170). -/

/-- A port that has counted an MKPDU, and answered one of a new peer. -/
def mkAnswered (p : Nat) (k : MkIn) (m : Mach) : Mach := onlyIf k.new (sendMkpdu p) (count p 0x0101 1 m)

theorem kept_mkAnswered (p : Nat) (k : MkIn) (m : Mach) : Kept (sendKeys p) m (mkAnswered p k m) :=
  (kept_count ..).trans (kept_onlyIf _ (kept_sendMkpdu ..))

theorem mkAnswered_sends (hn : k.new = true) (m : Mach) : NewOut m (mkAnswered p k m) (.mkpdu p) := by
  rw [mkAnswered, hn, onlyIf_true]
  exact newOut_since (kept_count (ks := []) ..).out (sendMkpdu_sends ..)

theorem mkAnswered_port (g : Port → β) (hg : ∀ x pn st, g { x with txPn := pn, txStamp := st } = g x) (hh : ∀ x t, g { x with hello := t } = g x) :
    g (port (mkAnswered p k m) p) = g (port m p) :=
  onlyIf_keep (fun n => g (port n p)) k.new (sendMkpdu p) (count p 0x0101 1 m) ((port_sendMkpdu g hg ..).trans (hh ..))

theorem frameKeeps_dom (o : Nat) : FrameKeeps (·.dom) o :=
  ⟨fun _ _ => rfl, fun _ _ _ => rfl, fun _ _ _ _ _ => rfl, fun _ _ => rfl, fun _ _ _ _ => rfl, fun _ _ => rfl, fun _ _ => rfl⟩
theorem frameKeeps_sec (o : Nat) : FrameKeeps (·.sec) o :=
  ⟨fun _ _ => rfl, fun _ _ _ => rfl, fun _ _ _ _ _ => rfl, fun _ _ => rfl, fun _ _ _ _ => rfl, fun _ _ => rfl, fun _ _ => rfl⟩

theorem mkAnswered_dom : (mkAnswered p k m).dom = m.dom := onlyIf_keep (·.dom) _ _ _ ((frameKeeps_dom p).sendMkpdu _)
theorem mkAnswered_sec : (mkAnswered p k m).sec = m.sec := onlyIf_keep (·.sec) _ _ _ ((frameKeeps_sec p).sendMkpdu _)

theorem ownSeat_mkAnswered (hp : p < 4) : ownSeat (mkAnswered p k m) = ownSeat m :=
  (kept_mkAnswered ..).rd ((by decide : ∀ p < 4, fkey F.DOM_STATE_SEAT 0 0 ∉ sendKeys p) p hp)

theorem secure_mkAnswered (hp : p < 4) : secure (mkAnswered p k m) p = secure m p :=
  congrArg (· == 1) ((kept_mkAnswered ..).rdi ((by decide : ∀ p < 4, fkey F.RING_PORT_STAT_SECURE p 0 ∉ sendKeys p) p hp))

/-- The CAK that a port shares with a peer rests on the seat, the keys and the port's own state. -/
theorem commonKey_mkAnswered (hp : p < 4) : commonKey (mkAnswered p k m) p k = commonKey m p k := by
  have hrd : ∀ f ∈ [F.SEC_RING_KEY_NUMBER, F.DOM_TABLE_TABLE_ID], rd (mkAnswered p k m) f = rd m f := fun f hf =>
    (kept_mkAnswered ..).rd ((by decide : ∀ p < 4, ∀ f ∈ [F.SEC_RING_KEY_NUMBER, F.DOM_TABLE_TABLE_ID], fkey f 0 0 ∉ sendKeys p) p hp f hf)
  have hkey : (port (mkAnswered p k m) p).keyNo = (port m p).keyNo := mkAnswered_port (·.keyNo) (fun _ _ _ => rfl) (fun _ _ => rfl)
  simp only [commonKey, linkKeys, ownSeat_mkAnswered hp, secure_mkAnswered hp, hrd _ (List.mem_cons_self ..), hrd F.DOM_TABLE_TABLE_ID (by decide),
    hkey, mkAnswered_sec]

theorem peerKnown_congr (h : n.dom = m.dom) : peerKnown n k = peerKnown m k := by rw [peerKnown, peerKnown, h]

/-! A SAK (06 R169). -/

/-- A port that shows its SAK. -/
def sakShown (p an keyNo : Nat) (k : MkIn) (m : Mach) : Mach :=
  showNbr p k.peer (wri F.RING_PORT_STAT_AN p an (showLink p 1 1 (setPort p { port m p with
    peer := k.peer, keyNo := keyNo, unknown := false, refused := none, barred := none, txPn := 1, rxPn := 1,
    xpn := p < 2 || rdi m F.RING_PORT_CFG_XPN p == 1 } (count p 0x0306 1 m))))

/-- A port whose SAK is reported. -/
def sakInstalled (p an keyNo : Nat) (k : MkIn) (m : Mach) : Mach :=
  raise 0x03 0x0301 [(1, p), (1, an), (2, k.peer), (4, keyNo), (8, 0)] (sakShown p an keyNo k m)

theorem kept_sakShown (p an keyNo : Nat) (k : MkIn) (m : Mach) : Kept (linkPlaces p) m (sakShown p an keyNo k m) :=
  (kept_count ..).trans <| (kept_setPort ..).trans <| (kept_showLink ..).trans <|
    (kept_wri _ _ _ fun _ => mem_linkPlaces_port (by decide)).trans <| (kept_showNbr ..).mono nbrKeys_subset

theorem kept_sakInstalled (p an keyNo : Nat) (k : MkIn) (m : Mach) : Kept (peerPlaces p) m (sakInstalled p an keyNo k m) :=
  ((kept_sakShown ..).mono linkPlaces_subset).trans (kept_raise _ _ _ _ (memberKeys_subset (by decide)))

theorem sakInstalled_dom : (sakInstalled p an keyNo k m).dom = m.dom := by
  rw [sakInstalled, raise_dom, sakShown, showNbr_keep (g := (·.dom)) (fun _ _ _ _ => rfl), wri_dom,
    showLink_keep (g := (·.dom)) (fun _ _ _ _ => rfl) (fun _ _ _ _ => rfl)]
  rfl

theorem sakInstalled_peer : (port (sakInstalled p an keyNo k m) p).peer = k.peer := by
  rw [sakInstalled, port_congr (raise_ring ..), sakShown, port_congr (showNbr_ring ..), port_congr (wri_ring ..), port_congr (showLink_ring ..),
    port_setPort_self]

theorem sakInstalled_secures (hp : p < 4) : secure (sakInstalled p an keyNo k m) p = true := by
  have han : ∀ p < 4, fkey F.RING_PORT_STAT_SECURE p 0 ≠ fkey F.RING_PORT_STAT_AN p 0 := by decide
  rw [sakInstalled, secure_kept (kept_raise (ks := [discardKey]) _ _ _ _ (by decide)) hp (by decide), sakShown,
    secure_kept (kept_showNbr ..) hp (by decide), secure, rdi_wri_ne _ _ _ _ _ _ (han p hp), (showLink_shows hp ..).2]
  rfl

theorem installSak_local (hp : 2 ≤ p) (an keyNo : Nat) (k : MkIn) (m : Mach) : installSak p an keyNo k m = sakInstalled p an keyNo k m := if_pos hp

/-- A ring peer that the roster binds may move the insertion on, once it is reported where it is new. -/
theorem installSak_known (hp : p < 2) (hk : peerKnown m k = true) (an keyNo : Nat) : ∃ n, installSak p an keyNo k m = tryTiming n ∧
    Kept memberKeys (sakInstalled p an keyNo k m) n ∧ n.ring = (sakInstalled p an keyNo k m).ring := by
  have hknown : peerKnown (sakInstalled p an keyNo k m) k = true := (peerKnown_congr sakInstalled_dom).trans hk
  refine ⟨_, (if_neg (by omega)).trans (if_neg ?_), kept_onlyIf _ ((kept_wr _ _ (by decide)).trans (kept_raise _ _ _ _ (by decide))),
    onlyIf_keep (·.ring) _ _ _ rfl⟩
  rw [Bool.not_eq_true']
  exact fun h => absurd (hknown.symm.trans h) (by decide)

theorem installSak_unknown (hp : p < 2) (hk : peerKnown m k = false) (an keyNo : Nat) :
    installSak p an keyNo k m = unknownMember k.ldev p (sakInstalled p an keyNo k m) := by
  have hunknown : peerKnown (sakInstalled p an keyNo k m) k = false := (peerKnown_congr sakInstalled_dom).trans hk
  exact (if_neg (by omega)).trans (if_pos (by rw [Bool.not_eq_true']; exact hunknown))

theorem kept_tryTiming (m : Mach) : Kept joinKeys m (tryTiming m) := by
  unfold tryTiming
  split
  · exact (kept_setIns ..).trans (kept_tryJoin ..)
  · exact .refl m

theorem joinReport_ring (seat a b : Nat) (m : Mach) : (joinReport seat a b m).ring = m.ring := by
  rw [joinReport_eq]
  exact (tellLinks_keep ..).2.1

theorem joinReportSend_ring (m : Mach) : (joinReportSend m).ring = m.ring := by
  simp only [joinReportSend]
  split
  · rfl
  · split
    · exact joinReport_ring ..
    · rfl

theorem tryJoin_ports (m : Mach) : (tryJoin m).ring.ports = m.ring.ports := by
  unfold tryJoin
  split
  · rw [joinReportSend_ring, onlyIf_keep (·.ring) _ _ _ rfl, setIns_ring]
  · rfl

theorem tryTiming_ports (m : Mach) : (tryTiming m).ring.ports = m.ring.ports := by
  unfold tryTiming
  split
  · rw [tryJoin_ports, setIns_ring]
  · rfl

/-- The SAK of a peer secures the port, on a ring port where the roster binds the peer. -/
theorem installSak_secures (hp : p < 4) (hk : p < 2 → peerKnown m k = true) (an keyNo : Nat) :
    secure (installSak p an keyNo k m) p = true ∧ (port (installSak p an keyNo k m) p).peer = k.peer ∧
      Reported 0x03 0x0301 m (installSak p an keyNo k m) := by
  have hrun : ∀ p < 4, fkey F.HIF_STATUS_RUNNING 0 0 ∉ linkPlaces p := by decide
  have hrep : Reported 0x03 0x0301 m (sakInstalled p an keyNo k m) := ((kept_sakShown ..).events (hrun p hp)).reported
  by_cases h2 : p < 2
  · obtain ⟨n, hn, hkept, hring⟩ := installSak_known h2 (hk h2) an keyNo
    have hports : port (tryTiming n) p = port (sakInstalled p an keyNo k m) p := by rw [port, port, tryTiming_ports, hring]
    rw [hn, hports]
    refine ⟨?_, sakInstalled_peer, reported_then _ _ _ _ _ hrep (hkept.mono (List.subset_append_left _ joinKeys) |>.trans
      ((kept_tryTiming n).mono (List.subset_append_right ..))).out⟩
    rw [secure_kept (kept_tryTiming n) hp (by decide), secure_kept hkept hp (by decide), sakInstalled_secures hp]
  · rw [installSak_local (by omega)]
    exact ⟨sakInstalled_secures hp, sakInstalled_peer, hrep⟩

theorem kept_installSak (p an keyNo : Nat) (k : MkIn) (m : Mach) : Kept (peerPlaces p) m (installSak p an keyNo k m) := by
  have hsak := kept_sakInstalled p an keyNo k m
  by_cases hp : p < 2
  · cases hk : peerKnown m k with
    | true =>
      obtain ⟨n, hn, hkept, -⟩ := installSak_known hp hk an keyNo
      rw [hn]
      exact hsak.trans <| (hkept.mono memberKeys_subset).trans ((kept_tryTiming n).mono joinKeys_subset)
    | false =>
      rw [installSak_unknown hp hk]
      exact hsak.trans (kept_unknownMember ..)
  · rw [installSak_local (by omega)]
    exact hsak

/-! A peer that is refused (R406). -/

/-- A port that has refused its peer, and reported it. -/
def peerRefused (p : Nat) (k : MkIn) (m : Mach) : Mach :=
  raise 0x03 0x0302 [(1, p), (1, 2), (2, k.peer), (12, 0)] (setPort p { port m p with refused := some (k.peer, k.ldev), unknown := true } m)

/-- What follows the refusal, of a ring port's peer alone, is recorded, reported and passed on, and leaves the ring. -/
theorem refusePeer_rest (p : Nat) (k : MkIn) (m : Mach) :
    Kept memberKeys (peerRefused p k m) (refusePeer p k m) ∧ (refusePeer p k m).ring = (peerRefused p k m).ring := by
  simp only [refusePeer]
  split
  · exact ⟨.refl _, rfl⟩
  · have hshown : ∀ n, Kept memberKeys n (raise 0x01 0x0103 [(1, p), (1, 2), (2, k.peer), (2, 0), (10, 0)]
        (wr F.DOM_FLAGS_UNKNOWN_PEER 1 (wr F.RING_FLAGS_NBR_CHANGED 1 n))) := fun n =>
      (kept_wr _ _ (by decide)).trans <| (kept_wr _ _ (by decide)).trans (kept_raise _ _ _ _ (by decide))
    split
    · exact ⟨hshown _, rfl⟩
    · split
      · exact ⟨(hshown _).trans (kept_onlyIf _ (kept_emit ..)), onlyIf_keep (·.ring) _ _ _ rfl⟩
      · exact ⟨(hshown _).trans (kept_onlyIf _ (kept_emit ..)), onlyIf_keep (·.ring) _ _ _ rfl⟩

theorem kept_peerRefused (p : Nat) (k : MkIn) (m : Mach) : Kept memberKeys m (peerRefused p k m) :=
  (kept_setPort ..).trans (kept_raise _ _ _ _ (by decide))

theorem kept_refusePeer (p : Nat) (k : MkIn) (m : Mach) : Kept memberKeys m (refusePeer p k m) :=
  (kept_peerRefused ..).trans (refusePeer_rest p k m).1

theorem refusePeer_refuses (p : Nat) (k : MkIn) (m : Mach) :
    (port (refusePeer p k m) p).refused = some (k.peer, k.ldev) ∧ Reported 0x03 0x0302 m (refusePeer p k m) := by
  obtain ⟨hkept, hring⟩ := refusePeer_rest p k m
  have hrep : Reported 0x03 0x0302 m (peerRefused p k m) := ((kept_setPort (ks := []) ..).events List.not_mem_nil).reported
  refine ⟨?_, reported_then _ _ _ _ _ hrep hkept.out⟩
  rw [port_congr hring, peerRefused, port_congr (raise_ring ..), port_setPort_self]

/-! What an MKPDU does. -/

section Runs
variable (hp : p < 4) (hu : linkUp m p = true) (hm : macsecOn m p = true) (hd : flag m F.SEC_STATE_DEBUG = false)
include hp hu hm hd

theorem mkpduReceive_refuses (hc : commonKey m p k = none) (href : (port m p).refused ≠ some (k.peer, k.ldev)) :
    mkpduReceive p k m = refusePeer p k (mkAnswered p k m) := by
  have hc1 := (commonKey_mkAnswered hp).trans hc
  have href1 : (port (mkAnswered p k m) p).refused ≠ some (k.peer, k.ldev) := by
    rwa [mkAnswered_port (·.refused) (fun _ _ _ => rfl) (fun _ _ => rfl)]
  rw [mkAnswered] at hc1 href1
  simp [mkpduReceive, mkAnswered, hp, hu, hm, hd, hc1, href1]

theorem mkpduReceive_installs (hc : commonKey m p k = some kn) (hs : k.sak = some (an, keyNo))
    (hbar : (port m p).barred ≠ some (k.peer, k.ldev)) (hserved : p < 2 → k.served = decide (k.peer < ownSeat m)) :
    mkpduReceive p k m = installSak p an (if p < 2 then kn else keyNo) k (mkAnswered p k m) := by
  have hc1 := (commonKey_mkAnswered hp).trans hc
  have hseat := ownSeat_mkAnswered (k := k) (m := m) hp
  have hbar1 : (port (mkAnswered p k m) p).barred ≠ some (k.peer, k.ldev) := by
    rwa [mkAnswered_port (·.barred) (fun _ _ _ => rfl) (fun _ _ => rfl)]
  rw [mkAnswered] at hc1 hbar1 hseat
  simp only [mkpduReceive, mkAnswered, hu, hm, hd, hc1, hs, hbar1, hseat, Bool.not_true, Bool.or_false, decide_eq_true_eq, Bool.false_eq_true,
    decide_false, if_neg (by omega : ¬ 4 ≤ p), if_false]
  refine if_neg fun h => ?_
  obtain ⟨h2, hne⟩ : p < 2 ∧ k.served ≠ decide (k.peer < ownSeat m) := by simpa using h
  exact hne (hserved h2)

/-- Whatever an MKPDU brings about, what it is answered with stays. -/
theorem mkpduReceive_out : ∃ l, (mkpduReceive p k m).out = l ++ (mkAnswered p k m).out := by
  have hif : mkpduReceive p k m = _ := (if_neg (by simp [hp, hu, hm])).trans (if_neg (by simp [hd]))
  rw [hif]
  split
  · split
    · exact ⟨[], rfl⟩
    · exact (kept_refusePeer ..).out
  · split
    · exact ⟨[], rfl⟩
    · split
      · exact ⟨[], rfl⟩
      · exact (kept_installSak ..).out

end Runs

theorem mkpduReceive_answers (ha : Awake s) (p : Nat) (k : MkIn) (hp : p < 4) (hu : linkUp s.m p = true) (hm : macsecOn s.m p = true)
    (hd : flag s.m F.SEC_STATE_DEBUG = false) :
    Answers (.mkpduReceive p k) s (fun n => (k.new = true → NewOut s.m n (.mkpdu p)) ∧
      (∀ kn an keyNo, commonKey s.m p k = some kn → k.sak = some (an, keyNo) → (port s.m p).barred ≠ some (k.peer, k.ldev) →
        (p < 2 → k.served = decide (k.peer < ownSeat s.m) ∧ peerKnown s.m k = true) →
        secure n p = true ∧ (port n p).peer = k.peer ∧ Reported 0x03 0x0301 s.m n) ∧
      (commonKey s.m p k = none → (port s.m p).refused ≠ some (k.peer, k.ldev) →
        (port n p).refused = some (k.peer, k.ldev) ∧ secure n p = secure s.m p ∧ Reported 0x03 0x0302 s.m n)) := by
  have hrun : ∀ p < 4, fkey F.HIF_STATUS_RUNNING 0 0 ∉ sendKeys p := by decide
  have hevents : EventsKept s.m (mkAnswered p k s.m) := (kept_mkAnswered ..).events (hrun p hp)
  refine answers_mach _ s (mkpduReceive p k) _ rfl ha ⟨fun hnew => ?_, fun kn an keyNo hc hs hbar hring => ?_, fun hc href => ?_⟩
  · exact newOut_mono _ _ _ _ (mkAnswered_sends hnew s.m) (mkpduReceive_out hp hu hm hd)
  · rw [mkpduReceive_installs hp hu hm hd hc hs hbar fun h2 => (hring h2).1]
    have hknown : p < 2 → peerKnown (mkAnswered p k s.m) k = true := fun h2 => (peerKnown_congr mkAnswered_dom).trans (hring h2).2
    obtain ⟨hsec, hpeer, hrep⟩ := installSak_secures hp hknown an (if p < 2 then kn else keyNo)
    exact ⟨hsec, hpeer, reported_since hevents hrep⟩
  · rw [mkpduReceive_refuses hp hu hm hd hc href]
    obtain ⟨hrefused, hrep⟩ := refusePeer_refuses p k (mkAnswered p k s.m)
    refine ⟨hrefused, ?_, reported_since hevents hrep⟩
    rw [secure_kept (kept_refusePeer ..) hp (by decide), secure_mkAnswered hp]

end Peers

/-- Settles O44, one lemma for each command. -/
theorem copiesAndPeers : Obligations.CopiesAndPeers := fun _ ha =>
  ⟨fun hact hmem => ⟨joinReportReceive_answers ha hact hmem, enrolmentReceive_answers ha hact hmem⟩, enrolmentReceive_relays ha,
    copyReqReceive_answers ha,
    fun _ _ hc hsrc hl hi => ⟨snapshotReceive_keeps ha hc hsrc hl hi, snapshotReceive_loads ha hc hsrc hl hi⟩,
    fun _ => copyTimeout_answers ha, mkpduReceive_answers ha, fun _ => verdictReceive_answers ha⟩

end Sys2Proof.Machine
end

section
/-! Stream contexts (07 R195-R199, R214): a context read back, and the frames of this device's own that leave a local port (R192). -/
namespace Sys2Proof.Machine

section Contexts
variable {m n : Mach} {role k j : Nat} {c : Cmd}

theorem ctxs_congr (h : n.str = m.str) : ctxs n role = ctxs m role := by rw [ctxs, ctxs, h]
theorem ctxOf_congr (h : n.str = m.str) : ctxOf n role k = ctxOf m role k := by rw [ctxOf, ctxOf, ctxs_congr h]

theorem ctxs_setCtx (x : Stream) (m : Mach) : ctxs (setCtx role k x m) role = mset {} k x (ctxs m role) := by
  by_cases h : role = 0 <;> simp [ctxs, setCtx, h]

theorem ctxOf_setCtx_self (x : Stream) (m : Mach) : ctxOf (setCtx role k x m) role k = x := by
  rw [ctxOf, ctxs_setCtx, mget_mset_self]

theorem ctxOf_setCtx_ne (x : Stream) (m : Mach) (h : j ≠ k) : ctxOf (setCtx role k x m) role j = ctxOf m role j := by
  rw [ctxOf, ctxs_setCtx, mget_mset_ne _ _ _ _ _ h, ctxOf]

theorem ctxOf_markMap (m : Mach) : ctxOf (markMap m) role k = ctxOf m role k := rfl

theorem setCtx_chmap (x : Stream) (m : Mach) : (setCtx role k x m).str.chmap = m.str.chmap := by
  by_cases h : role = 0 <;> simp [setCtx, h]

theorem completable_setStr (x : Str) (m : Mach) : Completable m (setStr x m) := ⟨.of_eq rfl rfl rfl, rfl⟩
theorem completable_setCtx (role k : Nat) (x : Stream) (m : Mach) : Completable m (setCtx role k x m) := completable_setStr ..
theorem completable_markMap (m : Mach) : Completable m (markMap m) := completable_setStr ..
theorem completable_useFresh (k : Nat) (m : Mach) : Completable m (useFresh k m) := ⟨.of_eq rfl rfl rfl, rfl⟩

/-- A plain command whose effect is applied leaves the streams, the decks and the registers of its effect, and completes DONE. -/
theorem plain_answers {i : Instr} {s : State} {op : Nat} {eff : Eff} {P : Mach → Prop} (hexec : exec i s = onMach (hostRow op eff c) s)
    (ha : Awake s) (hp : Plain op c s.m) (hop : op ≠ 0x0102) (hn : eff c (nowTicket op c s.m) (reserve c s.m) = okM n)
    (hk : Completable (reserve c s.m) n)
    (hP : ∀ f, f.str = n.str → f.dk = n.dk → f.regs = n.regs → Completed op stDone c s.m f → P f) : Answers i s P := by
  obtain ⟨-, -, hdone⟩ := plain_done hp hop hn hk
  have hdeal : n.deal = s.m.deal := (congrArg Pace.deal hk.pace).trans (reserve_deal c s.m)
  have hrow := plain_status op stDone eff c s.m n hp (absurd · hop) hn hdeal
  refine answers_mach i s _ P hexec ha (hP _ ?_ ?_ ?_ hdone) <;> rw [hrow]
  · exact final_str ..
  · exact final_dk ..
  · exact final_regs ..

/-! What an opening reads is no business of the completion entries that it reserves. -/

theorem setCtx_reserve (x : Stream) : setCtx role k x (reserve c m) = reserve c (setCtx role k x m) := by
  unfold reserve
  split <;> rfl

theorem ctxs_reserve : ctxs (reserve c m) role = ctxs m role := ctxs_congr (reserve_str c m)
theorem ctxOf_reserve : ctxOf (reserve c m) role k = ctxOf m role k := ctxOf_congr (reserve_str c m)
theorem spd_reserve : spd (reserve c m) = spd m := by simp only [spd, reserve_frm]
theorem rateHz_reserve : rateHz (reserve c m) = rateHz m := by simp only [rateHz, reserve_frm]
theorem stays_reserve (x : Stream) : stays (reserve c m) x = stays m x := by simp only [stays, reserve_deal]
theorem clash_reserve (x y : Stream) : clash (reserve c m) x y = clash m x y := by simp only [clash, stays_reserve]
theorem chUsed_reserve : chUsed (reserve c m) role = chUsed m role := by simp only [chUsed, ctxs_reserve, stays_reserve]

theorem asked_reserve : asked c (reserve c m) = asked c m := by
  simp only [asked, rdi, freeVal, reserve_regs, reserve_deal, reserve_fresh]

theorem openKindOk_reserve : openKindOk c (reserve c m) = openKindOk c m := by
  simp only [openKindOk, openTimeOk, rdi, reserve_regs, spd_reserve, rateHz_reserve]

theorem macsecOn_reserve (p : Nat) : macsecOn (reserve c m) p = macsecOn m p := by simp only [macsecOn, rdi, reserve_regs]

theorem frameLen_reserve (x : Stream) : frameLen x (reserve c m) = frameLen x m := by
  simp only [frameLen, plainLen, dataLen, macsecOn_reserve, spd_reserve]

theorem frameMax_reserve (x : Stream) : frameMax x (reserve c m) = frameMax x m := by simp only [frameMax, rdi, reserve_regs]

end Contexts

/-! Frames of this device's own, and membership reports (R192). -/

section Frames
variable {β : Type} {g : Mach → β} {l : Nat} {lens : List Nat} {m : Mach}

theorem hostFrames_keep (hg : SendKeeps g) (l : Nat) (lens : List Nat) (m : Mach) : g (hostFrames l lens m) = g m :=
  forEach_keep g lens _ (fun _ _ => ownFrame_keep hg ..) m

theorem completable_ownFrame (p tc len : Nat) (tag : Option RingTag) (m : Mach) : Completable m (ownFrame p tc len tag m) := by
  refine (kept_ownFrame ..).completable ?_ (ownFrame_pace ..)
  have htok : fkey F.HIF_STATUS_RUNNING 0 0 ≠ fkey F.RING_TOK_FREE_FREE p 0 := by simp [fkey, F.HIF_STATUS_RUNNING, F.RING_TOK_FREE_FREE]; omega
  have hrest : fkey F.HIF_STATUS_RUNNING 0 0 ∉ [discardKey, fkey F.RING_FLAGS_TOKEN_LOW 0 0] := by decide
  simpa [sendKeys, htok] using hrest

theorem completable_hostFrames (l : Nat) (lens : List Nat) (m : Mach) : Completable m (hostFrames l lens m) :=
  completable_forEach (fun _ _ => completable_ownFrame ..) m

theorem completable_emit (o : Out) (m : Mach) : Completable m (emit o m) := ⟨⟨rfl, rfl, [o], rfl⟩, rfl⟩

/-- What is written just before frames of the device's own is new after them. -/
theorem hostFrames_sends (l : Nat) (lens : List Nat) (o : Out) (m : Mach) : NewOut m (hostFrames l lens (emit o m)) o :=
  newOut_mono _ _ _ _ ⟨[_], rfl, List.mem_singleton_self _⟩ (completable_hostFrames ..).events.out

theorem str_sendKeeps : SendKeeps (·.str) := ⟨fun _ _ => rfl, fun _ _ => rfl, fun _ _ _ _ => rfl, fun _ _ _ => rfl, fun _ _ => rfl⟩

/-- The groups of the open AES67 listeners of a local port. -/
def groupsOf (l : Nat) (m : Mach) : List Nat :=
  dedup ((m.str.lis.filter (fun p => p.2.isOpen && p.2.kind == 1 && p.2.port == l && p.2.dest / 2 ^ 28 == 0xE)).map (fun p => p.2.dest))

/-- The lengths of the frames that report groups: one frame for each group, or one for all (R192). -/
def reportLens (l : Nat) (m : Mach) : List Nat :=
  if su m F.STR_CTRL_IGMP_V2 == 1 then (groupsOf l m).map (fun _ => 46) else [54 + 8 * (groupsOf l m).length]

theorem igmpReport_eq (l : Nat) (m : Mach) : igmpReport l m = onlyIf (su m F.STR_CTRL_IGMP_EN == 1 && !(groupsOf l m).isEmpty)
    (fun n => hostFrames l (reportLens l m) (emit (.igmp l (su m F.STR_CTRL_IGMP_V2 == 1) (groupsOf l m)) n)) m := rfl

theorem igmpReport_keep (hg : SendKeeps g) (l : Nat) (m : Mach) : g (igmpReport l m) = g m := by
  rw [igmpReport_eq]
  exact onlyIf_keep g _ _ _ ((hostFrames_keep hg ..).trans (hg.emit ..))

theorem completable_igmpReport (l : Nat) (m : Mach) : Completable m (igmpReport l m) := by
  rw [igmpReport_eq]
  exact completable_onlyIf _ ((completable_emit ..).trans (completable_hostFrames ..))

theorem mem_dedup {l : List Nat} {x : Nat} : x ∈ dedup l ↔ x ∈ l := by
  suffices h : ∀ acc, x ∈ l.foldl (fun a y => if a.contains y then a else a ++ [y]) acc ↔ x ∈ acc ∨ x ∈ l by simpa [dedup] using h []
  induction l with
  | nil => simp
  | cons y l ih =>
    intro acc
    have hy : x ∈ (if acc.contains y then acc else acc ++ [y]) ↔ x ∈ acc ∨ x = y := by
      split
      case isTrue h => exact ⟨.inl, fun h' => h'.elim id fun e => e ▸ List.contains_iff_mem.mp h⟩
      case isFalse => simp
    rw [List.foldl_cons, ih, hy, List.mem_cons, or_assoc]

theorem mem_groupsOf {d : Nat} : d ∈ groupsOf l m ↔
    ∃ q ∈ m.str.lis, (q.2.isOpen = true ∧ q.2.kind = 1 ∧ q.2.port = l ∧ q.2.dest / 2 ^ 28 = 0xE) ∧ q.2.dest = d := by
  rw [groupsOf, mem_dedup]
  simp [and_assoc]

end Frames

end Sys2Proof.Machine
end

section
/-! STREAM_OPEN, STREAM_CLOSE and CHMAP_WRITE (07 R195-R198, R209). -/
namespace Sys2Proof.Machine

section Opens
variable {s : State} {c : Cmd} {tk : Ticket} {m : Mach}

/-- The machine with a context opened (R197): the channel map is to be evaluated, and an AES67 talker has taken its random start (R192). -/
def opened (role k : Nat) (x : Stream) (m : Mach) : Mach :=
  useFresh (if x.kind = 1 && role = 1 then 1 else 0) (markMap (setCtx role k x m))

/-- The machine after a STREAM_OPEN that is applied: an AES67 listener has joined its group (R197). -/
def joinedGroup (role k : Nat) (x : Stream) (m : Mach) : Mach :=
  onlyIf (role = 0 && x.kind = 1) (igmpReport x.port) (opened role k x m)

theorem unlessClosing_closed {x : Stream} (h : x.isOpen = false ∨ x.closeAt.isSome = true) : (unlessClosing x).isOpen = false := by
  unfold unlessClosing
  split
  case isTrue => rfl
  case isFalse hc => exact h.resolve_right hc

theorem streamOpen_opens (hcommon : openCommonOk c = true) (hkind : openKindOk c m = true)
    (hfree : (ctxOf m (u8 c 26) (u16 c 24)).isOpen = false ∨ (ctxOf m (u8 c 26) (u16 c 24)).closeAt.isSome = true)
    (hlen : frameLen (asked c m) m ≤ frameMax (asked c m) m) :
    let m0 := setCtx (u8 c 26) (u16 c 24) (unlessClosing (ctxOf m (u8 c 26) (u16 c 24))) m
    (ctxs m0 (u8 c 26)).any (fun p => clash m0 (asked c m) p.2) = false →
    chUsed m0 (u8 c 26) + (asked c m).ch ≤ (if m.frm.rate = 1 then 1024 else 2048) →
    streamOpen c tk m = okM (joinedGroup (u8 c 26) (u16 c 24) (asked c m) m) := by
  intro m0 hclash hch
  have hclosed : (ctxOf m0 (u8 c 26) (u16 c 24)).isOpen = false := by
    rw [ctxOf_setCtx_self]
    exact unlessClosing_closed hfree
  simp only [streamOpen]
  rw [if_neg (by simp only [m0] at hclash hclosed; simp [hcommon, hkind, hclosed, hclash, hlen]), if_neg (Nat.not_lt.mpr hch)]
  rfl

theorem joinedGroup_keep {β : Type} {g : Mach → β} (hg : SendKeeps g) (role k : Nat) (x : Stream) (m : Mach) :
    g (joinedGroup role k x m) = g (opened role k x m) := onlyIf_keep g _ _ _ (igmpReport_keep hg ..)

theorem completable_joinedGroup (role k : Nat) (x : Stream) (m : Mach) : Completable m (joinedGroup role k x m) :=
  (completable_setCtx role k x m).trans <| (completable_markMap _).trans <| (completable_useFresh _ _).trans <|
    completable_onlyIf _ (completable_igmpReport ..)

theorem streamOpen_answers (ha : Awake s) (hp : Plain 0x0401 c s.m) (hcommon : openCommonOk c = true) (hkind : openKindOk c s.m = true)
    (hfree : (ctxOf s.m (u8 c 26) (u16 c 24)).isOpen = false ∨ (ctxOf s.m (u8 c 26) (u16 c 24)).closeAt.isSome = true)
    (hlen : frameLen (asked c s.m) s.m ≤ frameMax (asked c s.m) s.m) :
    let m0 := setCtx (u8 c 26) (u16 c 24) (unlessClosing (ctxOf s.m (u8 c 26) (u16 c 24))) s.m
    (ctxs m0 (u8 c 26)).any (fun p => clash m0 (asked c s.m) p.2) = false →
    chUsed m0 (u8 c 26) + (asked c s.m).ch ≤ (if s.m.frm.rate = 1 then 1024 else 2048) →
    Answers (.streamOpen c) s (fun n => ctxOf n (u8 c 26) (u16 c 24) = asked c s.m ∧ n.str.marked = true ∧
      (∀ j, j ≠ u16 c 24 → ctxOf n (u8 c 26) j = ctxOf s.m (u8 c 26) j) ∧ n.str.chmap = s.m.str.chmap ∧ n.dk = s.m.dk ∧
      Completed 0x0401 stDone c s.m n) := by
  intro m0 hclash hch
  have hn : streamOpen c (nowTicket 0x0401 c s.m) (reserve c s.m) =
      okM (joinedGroup (u8 c 26) (u16 c 24) (asked c s.m) (reserve c s.m)) := by
    rw [← asked_reserve (c := c) (m := s.m)]
    apply streamOpen_opens hcommon
    · rwa [openKindOk_reserve]
    · rwa [ctxOf_reserve]
    · rwa [asked_reserve, frameLen_reserve, frameMax_reserve]
    · simpa only [setCtx_reserve, ctxOf_reserve, ctxs_reserve, clash_reserve, asked_reserve] using hclash
    · simpa only [setCtx_reserve, ctxOf_reserve, chUsed_reserve, asked_reserve, reserve_frm] using hch
  refine plain_answers rfl ha hp (by decide) hn (completable_joinedGroup ..) fun f hstr hdk _ hdone => ?_
  replace hstr := hstr.trans (joinedGroup_keep str_sendKeeps ..)
  replace hdk := hdk.trans (joinedGroup_keep dk_sendKeeps ..)
  refine ⟨(ctxOf_congr hstr).trans (ctxOf_setCtx_self ..), hstr ▸ rfl, fun j hj => ?_, ?_, hdk.trans (reserve_dk ..), hdone⟩
  · exact (ctxOf_congr hstr).trans ((ctxOf_setCtx_ne _ _ hj).trans ctxOf_reserve)
  · exact (congrArg Str.chmap hstr).trans ((setCtx_chmap ..).trans (congrArg Str.chmap (reserve_str ..)))

end Opens

section Closes
variable {s : State} {c : Cmd} {tk : Ticket} {m : Mach}

/-- The boundary at which a close that is asked for now ends a context (R198). -/
def closeDeal (role : Nat) (x : Stream) (m : Mach) : Nat :=
  if role = 0 ∨ x.susp = true then m.deal else m.deal + (x.p - (m.deal - x.first) % x.p) % x.p

theorem streamClose_closes (hk : u16 c 24 < 1024) (hr : u8 c 26 < 2) (ho : (ctxOf m (u8 c 26) (u16 c 24)).isOpen = true) :
    let x := ctxOf m (u8 c 26) (u16 c 24)
    (x.closeAt = none → streamClose c tk m =
      okM (markMap (setCtx (u8 c 26) (u16 c 24) { x with closeAt := some (closeDeal (u8 c 26) x m) } m))) ∧
    (x.closeAt.isSome = true → streamClose c tk m = okM m) := by
  intro x
  have hok : ¬ (decide (1024 ≤ u16 c 24) || decide (2 ≤ u8 c 26) || !x.isOpen) = true := by simp [x, ho, hk, hr]
  refine ⟨fun hnone => ?_, fun hsome => ?_⟩
  · simp only [streamClose]
    rw [if_neg hok, if_neg (Option.not_isSome_iff_eq_none.mpr hnone)]
    simp [closeDeal, x]
  · exact (if_neg hok).trans (if_pos hsome)

theorem streamClose_answers (ha : Awake s) (hp : Plain 0x0402 c s.m) (hk : u16 c 24 < 1024) (hr : u8 c 26 < 2)
    (ho : (ctxOf s.m (u8 c 26) (u16 c 24)).isOpen = true) :
    let x := ctxOf s.m (u8 c 26) (u16 c 24)
    (x.closeAt = none → Answers (.streamClose c) s (fun n =>
      ctxOf n (u8 c 26) (u16 c 24) = { x with closeAt := some (closeDeal (u8 c 26) x s.m) } ∧
      n.str.marked = true ∧ n.regs = s.m.regs ∧ Completed 0x0402 stDone c s.m n)) ∧
    (x.closeAt.isSome = true → Answers (.streamClose c) s (fun n =>
      n.str = s.m.str ∧ n.regs = s.m.regs ∧ Completed 0x0402 stDone c s.m n)) := by
  intro x
  obtain ⟨hfirst, hagain⟩ := streamClose_closes (tk := nowTicket 0x0402 c s.m) (m := reserve c s.m) hk hr (by rwa [ctxOf_reserve])
  simp only [ctxOf_reserve] at hfirst hagain
  refine ⟨fun h => ?_, fun h => ?_⟩
  · refine plain_answers rfl ha hp (by decide) (hfirst h) ((completable_setCtx ..).trans (completable_markMap _)) fun f hstr _ hregs hdone =>
      ⟨?_, hstr ▸ rfl, hregs.trans (reserve_regs ..), hdone⟩
    rw [ctxOf_congr hstr, ctxOf_markMap, ctxOf_setCtx_self, closeDeal, closeDeal, reserve_deal]
  · exact plain_answers rfl ha hp (by decide) (hagain h) (.refl _) fun f hstr _ hregs hdone =>
      ⟨hstr.trans (reserve_str ..), hregs.trans (reserve_regs ..), hdone⟩

end Closes

section Maps
variable {s : State} {c : Cmd} {tk : Ticket} {m : Mach}

/-- The entries of a CHMAP_WRITE buffer. -/
def mapEntries (c : Cmd) : List (Nat × ChEnt) := (records 8 (u16 c 24) (bufBytes c)).map mapEntry

theorem chmapWrite_writes (h1 : 1 ≤ u16 c 24) (h2 : u16 c 24 ≤ 16384) (hl : bufLen c = 8 * u16 c 24) (hb : bufOk c false m = true)
    (hok : (mapEntries c).all mapEntryOk = true) (hu : mapUnique ((mapEntries c).foldl mapPut m.str.chmap) = true) :
    chmapWrite c tk m = okM (markMap (setStr { m.str with chmap := (mapEntries c).foldl mapPut m.str.chmap } m)) := by
  refine if_neg ?_
  have hne : u16 c 24 ≠ 0 := Nat.one_le_iff_ne_zero.mp h1
  rw [mapEntries] at hok hu
  rw [hok, hu, hb, hl]
  simp [hne, h2]

theorem chmapWrite_answers (ha : Awake s) (hp : Plain 0x0403 c s.m) (h1 : 1 ≤ u16 c 24) (h2 : u16 c 24 ≤ 16384)
    (hl : bufLen c = 8 * u16 c 24) (hb : bufOk c false s.m = true) (hok : (mapEntries c).all mapEntryOk = true)
    (hu : mapUnique ((mapEntries c).foldl mapPut s.m.str.chmap) = true) :
    Answers (.chmapWrite c) s (fun n => n.str.chmap = (mapEntries c).foldl mapPut s.m.str.chmap ∧ n.str.marked = true ∧
      n.str.lis = s.m.str.lis ∧ n.str.tal = s.m.str.tal ∧ n.regs = s.m.regs ∧ Completed 0x0403 stDone c s.m n) := by
  have hn := chmapWrite_writes (tk := nowTicket 0x0403 c s.m) (m := reserve c s.m) h1 h2 hl (by rwa [bufOk_reserve]) hok (by rwa [reserve_str])
  rw [reserve_str] at hn
  exact plain_answers rfl ha hp (by decide) hn ((completable_setStr ..).trans (completable_markMap _)) fun f hstr _ hregs hdone =>
    ⟨hstr ▸ rfl, hstr ▸ rfl, hstr ▸ rfl, hstr ▸ rfl, hregs.trans (reserve_regs ..), hdone⟩

end Maps

/-- Settles O35, one lemma for each command. -/
theorem streamsOpenAndClose : Obligations.StreamsOpenAndClose := fun _ _ ha =>
  ⟨streamOpen_answers ha, streamClose_answers ha, chmapWrite_answers ha⟩

end Sys2Proof.Machine
end

section
/-! Reception (07 R192, R193, R200-R204, R207): accepted and malformed packets, lost listeners, CRF reports, ARP and IGMP. -/
namespace Sys2Proof.Machine

/-- An event whose flag is set just before it: the flag stands, and the event is reported. -/
theorem flagged_reported {f : Fld} {src code : Nat} {pay : Pay} {m n : Mach} (hrun : fkey F.HIF_STATUS_RUNNING 0 0 ≠ fkey f 0 0)
    (hev : fkey f 0 0 ≠ fkey F.HIF_EV_DISCARD_COUNT 0 0) (hw : 1 % 2 ^ f.width = 1) (h : EventsKept m n) :
    rd (raise src code pay (wr f 1 n)) f = 1 ∧ Reported src code m (raise src code pay (wr f 1 n)) := by
  refine ⟨?_, (h.trans (eventsKept_wr 1 n hrun)).reported⟩
  rw [rd_raise _ _ _ _ _ hev, rd_wr_self, hw]

/-! What the content of an accepted packet leaves of its listener: all but storage, phase and the counts of DROPPED and MISALIGNED. -/

/-- What the changes keep of which the reception of a packet's content is made. -/
structure ContentKeeps {β : Type} (g : Stream → β) : Prop where
  dropped : ∀ n x, g (cbump 0x0504 n x) = g x
  misaligned : ∀ n x, g (cbump 0x0509 n x) = g x
  store : ∀ x t, g { x with store := t } = g x
  lastStamp : ∀ x t, g { x with lastStamp := t } = g x
  measured : ∀ x ph t r d, g { x with phase := ph, lastStamp := t, phaseRef := r, drift := d } = g x

section Content
variable {β : Type} {g : Stream → β} {id jd : Nat}

theorem cbump_cnt_self (n : Nat) (x : Stream) : mget 0 (cbump id n x).cnt id = mget 0 x.cnt id + n := mget_mset_self ..

theorem cbump_cnt_ne (n : Nat) (x : Stream) (h : id ≠ jd) : mget 0 (cbump jd n x).cnt id = mget 0 x.cnt id := mget_mset_ne _ _ _ _ _ h

theorem contentKeeps_lastAcc : ContentKeeps (·.lastAcc) :=
  ⟨fun _ _ => rfl, fun _ _ => rfl, fun _ _ => rfl, fun _ _ => rfl, fun _ _ _ _ _ => rfl⟩

theorem contentKeeps_malRun : ContentKeeps (·.malRun) :=
  ⟨fun _ _ => rfl, fun _ _ => rfl, fun _ _ => rfl, fun _ _ => rfl, fun _ _ _ _ _ => rfl⟩

theorem contentKeeps_cnt (hd : id ≠ 0x0504) (hm : id ≠ 0x0509) : ContentKeeps (fun x => mget 0 x.cnt id) :=
  ⟨fun n x => cbump_cnt_ne n x hd, fun n x => cbump_cnt_ne n x hm, fun _ _ => rfl, fun _ _ => rfl, fun _ _ _ _ _ => rfl⟩

theorem placeFrame_keep (hg : ContentKeeps g) (deal s bits : Nat) (p : Int) (x : Stream) (j : Nat) (f : List Int) :
    g (placeFrame deal s bits p x j f) = g x := by
  simp only [placeFrame]
  split
  · exact hg.dropped ..
  · exact hg.store ..

theorem placeAll_keep (hg : ContentKeeps g) (deal s bits : Nat) (p : Int) (j : Nat) (fs : List (List Int)) (x : Stream) :
    g (placeAll deal s bits p j fs x) = g x := by
  induction fs generalizing j x with
  | nil => rfl
  | cons f fs ih => rw [placeAll, ih, placeFrame_keep hg]

theorem takeStamps_keep (hg : ContentKeeps g) (rate : Nat) (ts : List Nat) (x : Stream) : g (ts.foldl (takeStamp rate) x) = g x := by
  induction ts generalizing x with
  | nil => rfl
  | cons t ts ih => exact (ih _).trans (hg.measured ..)

theorem takeContent_keep (hg : ContentKeeps g) (p : StreamPkt) (m : Mach) (x : Stream) : g (takeContent p m x) = g x := by
  unfold takeContent
  extract_lets s local_ si x1 x2
  have h1 : g x1 = g x := by
    unfold x1
    split
    · exact hg.misaligned ..
    · rfl
  split
  · exact takeStamps_keep hg ..
  · exact (placeAll_keep hg ..).trans ((hg.lastStamp ..).trans h1)

end Content

section Packets
variable {s : State} {m : Mach} {p : StreamPkt} {k : Nat}

/-- A listener that counts the frames of a packet addressed to it as received, and a set tu (R190, R204). -/
def received (p : StreamPkt) (x : Stream) : Stream := cbump 0x0502 p.frames.length { x with tu := x.tu + min 1 p.tu }

/-- A listener that takes a packet as its next one, before its content (R203, R204, R207). -/
def sequenced (p : StreamPkt) (m : Mach) (x : Stream) : Stream :=
  cbump 0x0507 1 { seqTake p.seq x with malRun := 0, lastAcc := m.deal + 1, seen := if x.ssrc = 0 then p.ssrc else 0 }

/-- The ring port that delivered the kept copy is counted (R203). -/
def countVia (port : Nat) (x : Stream) : Stream := if port = 0 then cbump 0x050C 1 x else if port = 1 then cbump 0x050D 1 x else x

theorem seqTake_cnt (seq : Nat) (x : Stream) : (seqTake seq x).cnt = x.cnt := by
  unfold seqTake
  extract_lets md s
  split
  · rfl
  · exact (apply_ite Stream.cnt ..).trans (ite_self _)

theorem countVia_keep {β : Type} {g : Stream → β} (hA : ∀ x, g (cbump 0x050C 1 x) = g x) (hB : ∀ x, g (cbump 0x050D 1 x) = g x)
    (port : Nat) (x : Stream) : g (countVia port x) = g x := by
  unfold countVia
  split
  · exact hA x
  · split
    · exact hB x
    · rfl

/-- A packet that no check stops and whose sequence number is new is taken (R203). -/
theorem takePacket_accepts (h : seqJudge (ctxOf m 0 k) p.seq = 0) :
    takePacket k p m = setCtx 0 k (takeContent p m (countVia p.port (sequenced p m (received p (ctxOf m 0 k))))) m := by
  have hjudge : seqJudge (received p (ctxOf m 0 k)) p.seq = 0 := h
  simp only [takePacket]
  rw [received] at hjudge
  rw [hjudge]
  rfl

/-- The listener that has taken a packet: the packet and its frames are counted, and its deal noted. -/
theorem accepted_ctx (p : StreamPkt) (m : Mach) (x : Stream) :
    let y := takeContent p m (countVia p.port (sequenced p m (received p x)))
    y.lastAcc = m.deal + 1 ∧ y.malRun = 0 ∧ mget 0 y.cnt 0x0507 = mget 0 x.cnt 0x0507 + 1 ∧
      mget 0 y.cnt 0x0502 = mget 0 x.cnt 0x0502 + p.frames.length := by
  intro y
  have hcnt : ∀ id, id ≠ 0x0504 → id ≠ 0x0509 → id ≠ 0x050C → id ≠ 0x050D →
      mget 0 y.cnt id = mget 0 (sequenced p m (received p x)).cnt id := fun id hd hm hA hB =>
    (takeContent_keep (contentKeeps_cnt hd hm) ..).trans
      (countVia_keep (g := fun x => mget 0 x.cnt id) (fun x => cbump_cnt_ne 1 x hA) (fun x => cbump_cnt_ne 1 x hB) ..)
  refine ⟨?_, ?_, ?_, ?_⟩
  · exact (takeContent_keep contentKeeps_lastAcc ..).trans (countVia_keep (g := (·.lastAcc)) (fun _ => rfl) (fun _ => rfl) ..)
  · exact (takeContent_keep contentKeeps_malRun ..).trans (countVia_keep (g := (·.malRun)) (fun _ => rfl) (fun _ => rfl) ..)
  · rw [hcnt _ (by decide) (by decide) (by decide) (by decide), sequenced, cbump_cnt_self]
    simp only [seqTake_cnt]
    rw [received, cbump_cnt_ne _ _ (by decide)]
  · rw [hcnt _ (by decide) (by decide) (by decide) (by decide), sequenced, cbump_cnt_ne _ _ (by decide)]
    simp only [seqTake_cnt]
    rw [received, cbump_cnt_self]

/-- A packet that one listener alone hears is taken by it, or is malformed. -/
theorem packetReceive_one (h : (m.str.lis.filter (fun q => heard m p q.2)).map Prod.fst = [k]) :
    (malReason (ctxOf m 0 k) p m = 0 → packetReceive p m = takePacket k p m) ∧
    (malReason (ctxOf m 0 k) p m ≠ 0 → packetReceive p m = takeMalformed k (malReason (ctxOf m 0 k) p m) m) := by
  rw [packetReceive, h, forEach_cons, forEach_nil]
  split
  case h_1 h0 => exact ⟨fun _ => rfl, fun h1 => absurd h0 h1⟩
  case h_2 h0 => exact ⟨fun h1 => absurd h1 h0, fun _ => rfl⟩

theorem streamPacketReceive_accepts (ha : Awake s) (h : (s.m.str.lis.filter (fun q => heard s.m p q.2)).map Prod.fst = [k])
    (hmal : malReason (ctxOf s.m 0 k) p s.m = 0) (hseq : seqJudge (ctxOf s.m 0 k) p.seq = 0) :
    Answers (.streamPacketReceive p) s (fun n => (ctxOf n 0 k).lastAcc = s.m.deal + 1 ∧ (ctxOf n 0 k).malRun = 0 ∧
      mget 0 (ctxOf n 0 k).cnt 0x0507 = mget 0 (ctxOf s.m 0 k).cnt 0x0507 + 1 ∧
      mget 0 (ctxOf n 0 k).cnt 0x0502 = mget 0 (ctxOf s.m 0 k).cnt 0x0502 + p.frames.length ∧ n.regs = s.m.regs ∧ n.out = s.m.out) := by
  refine answers_mach _ s (packetReceive p) _ rfl ha ?_
  obtain ⟨hacc, hrun, hpackets, hframes⟩ := accepted_ctx p s.m (ctxOf s.m 0 k)
  rw [(packetReceive_one h).1 hmal, takePacket_accepts hseq, ctxOf_setCtx_self]
  exact ⟨hacc, hrun, hpackets, hframes, rfl, rfl⟩

theorem takeMalformed_counts (k why : Nat) (m : Mach) :
    ctxOf (takeMalformed k why m) 0 k = cbump 0x0508 1 { ctxOf m 0 k with malRun := (ctxOf m 0 k).malRun + 1 } ∧
    ((ctxOf m 0 k).malRun = 0 →
      rd (takeMalformed k why m) F.STR_FLAGS_MALFORMED = 1 ∧ Reported 0x05 0x0505 m (takeMalformed k why m)) := by
  simp only [takeMalformed]
  refine ⟨?_, fun h0 => ?_⟩
  · rw [onlyIf_keep (fun n => ctxOf n 0 k) _ _ _ rfl, ctxOf_setCtx_self]
  · rw [h0]
    exact flagged_reported (by decide) (by decide) rfl (completable_setCtx ..).events

theorem streamPacketReceive_malformed (ha : Awake s) (h : (s.m.str.lis.filter (fun q => heard s.m p q.2)).map Prod.fst = [k])
    (hmal : malReason (ctxOf s.m 0 k) p s.m ≠ 0) :
    Answers (.streamPacketReceive p) s (fun n => (ctxOf n 0 k).malRun = (ctxOf s.m 0 k).malRun + 1 ∧
      mget 0 (ctxOf n 0 k).cnt 0x0508 = mget 0 (ctxOf s.m 0 k).cnt 0x0508 + 1 ∧
      ((ctxOf s.m 0 k).malRun = 0 → rd n F.STR_FLAGS_MALFORMED = 1 ∧ Reported 0x05 0x0505 s.m n)) := by
  refine answers_mach _ s (packetReceive p) _ rfl ha ?_
  obtain ⟨hctx, honset⟩ := takeMalformed_counts k (malReason (ctxOf s.m 0 k) p s.m) s.m
  rw [(packetReceive_one h).2 hmal, hctx]
  exact ⟨rfl, cbump_cnt_self .., honset⟩

end Packets

/-! A listener without packets, and the report of a CRF listener. -/

section Reports
variable {s : State} {k r : Nat}

theorem streamLost_answers (ha : Awake s) (ho : (ctxOf s.m 0 k).isOpen = true) (hs : (ctxOf s.m 0 k).susp = false)
    (hl : (ctxOf s.m 0 k).lost = false) (hd : su s.m F.STR_LOSS_DEALS + (ctxOf s.m 0 k).lastAcc ≤ s.m.deal) :
    Answers (.streamLost k) s (fun n => ctxOf n 0 k = { ctxOf s.m 0 k with lost := true } ∧ rd n F.STR_FLAGS_LOST = 1 ∧
      Reported 0x05 0x0503 s.m n) := by
  refine answers_mach _ s (streamLost k) _ rfl ha ?_
  rw [streamLost, if_pos (by simp [ho, hs, hl, hd])]
  exact ⟨ctxOf_setCtx_self .., flagged_reported (by decide) (by decide) rfl (completable_setCtx ..).events⟩

/-- The mean frequency offset of a CRF listener in ppb since the timestamp r (R193). -/
def crfPpb (x : Stream) (r : Nat) : Int := -(nearDiv (x.drift * 1000000) ((x.lastStamp : Int) - r))

/-- A CRF listener after its report: the next second is measured from its last timestamp. -/
def crfReported (warn r : Nat) (x : Stream) : Stream :=
  { x with ppb := crfPpb x r, above := decide (warn ≤ (crfPpb x r).natAbs), phaseRef := some x.lastStamp, drift := 0 }

theorem crfReport_answers (ha : Awake s) (ho : (ctxOf s.m 0 k).isOpen = true) (hk : (ctxOf s.m 0 k).kind = 2)
    (hr : (ctxOf s.m 0 k).phaseRef = some r) (hlt : r < (ctxOf s.m 0 k).lastStamp) :
    Answers (.crfReport k) s (fun n => ctxOf n 0 k = crfReported (su s.m F.STR_CRF_WARN_PPB) r (ctxOf s.m 0 k) ∧
      (su s.m F.STR_CRF_WARN_PPB ≤ (crfPpb (ctxOf s.m 0 k) r).natAbs → (ctxOf s.m 0 k).above = false →
        rd n F.STR_FLAGS_CRF_OFFSET = 1 ∧ Reported 0x05 0x0507 s.m n)) := by
  refine answers_mach _ s (crfReport k) _ rfl ha ?_
  simp only [crfReport]
  rw [if_neg (by simp [ho, hk]), hr]
  simp only []
  rw [if_neg (Nat.not_le.mpr hlt), Nat.cast_sub hlt.le]
  refine ⟨?_, fun hwarn habove => ?_⟩
  · rw [onlyIf_keep (fun n => ctxOf n 0 k) _ _ _ rfl, ctxOf_setCtx_self]
    rfl
  · rw [crfPpb] at hwarn
    rw [habove, decide_eq_true hwarn]
    exact flagged_reported (by decide) (by decide) rfl (completable_setCtx ..).events

end Reports

/-! ARP and IGMP (R192). -/

section Answered
variable {s : State} {l addr : Nat}

theorem arpRequest_answers (ha : Awake s) (hen : su s.m F.STR_CTRL_ARP_EN = 1) (hl : l = 2 ∨ l = 3) (hne : addr ≠ 0)
    (haddr : rdi s.m F.STR_IP_ADDR_ADDR (l - 2) = addr) :
    Answers (.arpRequest l addr) s (fun n => NewOut s.m n (.arp l addr) ∧ n.str = s.m.str) := by
  refine answers_mach _ s (arpRequest l addr) _ rfl ha ?_
  rw [arpRequest, if_pos (by simp [hen, hl, hne, haddr])]
  exact ⟨hostFrames_sends .., hostFrames_keep str_sendKeeps ..⟩

theorem igmpQuery_answers {q : Nat × Stream} (ha : Awake s) (hen : su s.m F.STR_CTRL_IGMP_EN = 1) (hq : q ∈ s.m.str.lis)
    (ho : q.2.isOpen = true) (hk : q.2.kind = 1) (hl : q.2.port = l) (hd : q.2.dest / 2 ^ 28 = 0xE) :
    Answers (.igmpQuery l) s (fun n => n.str = s.m.str ∧
      ∃ g, NewOut s.m n (.igmp l (decide (su s.m F.STR_CTRL_IGMP_V2 = 1)) g) ∧ q.2.dest ∈ g ∧
        (∀ d ∈ g, ∃ x ∈ s.m.str.lis, x.2.isOpen = true ∧ x.2.kind = 1 ∧ x.2.port = l ∧ x.2.dest = d)) := by
  have hmem : q.2.dest ∈ groupsOf l s.m := mem_groupsOf.mpr ⟨q, hq, ⟨ho, hk, hl, hd⟩, rfl⟩
  have hsome : (groupsOf l s.m).isEmpty = false := List.isEmpty_eq_false_iff.mpr (List.ne_nil_of_mem hmem)
  refine answers_mach _ s (igmpReport l) _ rfl ha ⟨igmpReport_keep str_sendKeeps .., groupsOf l s.m, ?_, hmem, fun d hdg => ?_⟩
  · rw [igmpReport_eq, hen, hsome]
    exact hostFrames_sends ..
  · obtain ⟨x, hx, ⟨hxo, hxk, hxl, -⟩, hxd⟩ := mem_groupsOf.mp hdg
    exact ⟨x, hx, hxo, hxk, hxl, hxd⟩

end Answered

/-- Settles O36, one lemma for each command and outcome. -/
theorem streamsReceive : Obligations.StreamsReceive := fun _ ha =>
  ⟨fun _ _ h => ⟨streamPacketReceive_accepts ha h, streamPacketReceive_malformed ha h⟩, fun _ => streamLost_answers ha,
    fun _ _ => crfReport_answers ha, fun _ _ => arpRequest_answers ha, fun _ _ => igmpQuery_answers ha⟩

end Sys2Proof.Machine
end

section
/-! Staging (08 R228-R230): what a start, a pass and a refusal leave of the deck unit, and the completions that they write. -/
namespace Sys2Proof.Machine

/-! Completions written after changes that keep their route. -/

section Completions
variable {m n : Mach} {c : Cmd} {tk : Ticket} {op q st d rsv : Nat} {now : Bool} {res : Pay}

theorem completable_setDk (x : DeckUnit) (m : Mach) : Completable m (setDk x m) := ⟨.of_eq rfl rfl rfl, rfl⟩
theorem completable_dkBump (id : Nat) (m : Mach) : Completable m (dkBump id m) := completable_setDk ..
theorem completable_stageEvent (digest load result reason : Nat) (src : Src) (m : Mach) :
    Completable m (stageEvent digest load result reason src m) := completable_raise ..

theorem completable_wr {f : Fld} (v : Nat) (m : Mach) (h : fkey F.HIF_STATUS_RUNNING 0 0 ≠ fkey f 0 0) : Completable m (wr f v m) :=
  ⟨eventsKept_wr v m h, rfl⟩

theorem completable_bump {f : Fld} (v : Nat) (m : Mach) (h : fkey F.HIF_STATUS_RUNNING 0 0 ≠ fkey f 0 0) : Completable m (bump f v m) :=
  ⟨eventsKept_bump v m h, rfl⟩

theorem completable_reserve (c : Cmd) (m : Mach) : Completable m (reserve c m) := by
  unfold reserve
  split
  · exact ⟨.of_eq rfl rfl rfl, rfl⟩
  · exact .refl m

theorem Completable.deal (h : Completable m n) : n.deal = m.deal := congrArg Pace.deal h.pace
theorem Completable.live (h : Completable m n) (tk : Ticket) : Machine.live tk n = Machine.live tk m := by
  simp only [Machine.live, h.events.running, show n.hif.epoch = m.hif.epoch from congrArg Pace.epoch h.pace]

theorem completeWith_out (m : Mach) : ∃ l, (completeWith tk st d rsv now res m).out = l ++ m.out := by
  unfold completeWith
  split
  · dsimp only
    split
    · exact ⟨[_], rfl⟩
    · exact ⟨[], rfl⟩
  · exact ⟨_, List.append_cons ..⟩
  · exact ⟨[], rfl⟩

theorem completable_completeWith (m : Mach) : Completable m (completeWith tk st d rsv now res m) :=
  ⟨⟨running_congr _ _ (completeWith_regs ..), completeWith_hif_keep (·.lat) (fun _ _ _ _ _ _ => rfl) (fun _ _ => rfl) m, completeWith_out m⟩,
    completeWith_pace ..⟩

theorem completable_final (tk : Ticket) (st : Nat) (m : Mach) : Completable m (final tk st m) := completable_completeWith m

/-- A completion that can still be written is written. -/
theorem Completable.newOut_completeWith (h : Completable m n) (hq : tk.src = .ring q) (hl : Machine.live tk m = true) :
    ∃ ring idx, NewOut m (completeWith tk st d rsv now res n) (.completion ring idx tk.tag tk.op st d) := by
  have hout := completeWith_ring_out (st := st) (d := d) (rsv := rsv) (now := now) (res := res) hq ((h.live tk).trans hl)
  exact ⟨_, _, newOut_since h.events.out ⟨[_], hout, List.mem_singleton_self _⟩⟩

theorem Completable.newOut_final (h : Completable m n) (hq : tk.src = .ring q) (hl : Machine.live tk m = true) :
    ∃ ring idx, NewOut m (final tk st n) (.completion ring idx tk.tag tk.op st m.deal) := by
  rw [← h.deal]
  exact h.newOut_completeWith hq hl

theorem live_nowTicket (hr : running m = true) : live (nowTicket op c m) m = true := by simp [live, nowTicket, hr]

theorem Completable.completed_final (h : Completable m n) : Completed op st c m (final (nowTicket op c m) st n) :=
  fun hr _ hq => h.newOut_final hq (live_nowTicket hr)

theorem Completable.completed_interim (h : Completable m n) : Completed op st c m (interim (nowTicket op c m) st m.deal n) := by
  intro hr q hq
  have hi : interim (nowTicket op c m) st m.deal n = completeWith (nowTicket op c m) st m.deal 1 false [] n := by simp [interim, nowTicket, hq]
  rw [hi]
  exact h.newOut_completeWith hq (live_nowTicket hr)

end Completions

/-! The start of a staging (R228, R230). -/

/-- The staging that a command starts at this deal. -/
def stagingOf (h : Held) (m : Mach) : Staging :=
  let i := imageIn h.cmd
  { h := { h with tk := { h.tk with interim := true } }, deck := buildDeck h.tk.op h.tk.src i m,
    reason := imageReason h.tk.op (bufLen h.cmd) i m, base := if isPartial h.tk.op i then some i.base else none,
    start := m.deal, signer := i.signer }

/-- The machine without a staged deck. -/
def unstaged (m : Mach) : Mach := setDk { m.dk with staged := none, stBase := none } m

/-- What the checks at the start of a staging ask: an image, that keeps no staged deck waiting, in a buffer that can be read, of the size of
its kind (R228, R229 cases 1 and 2). -/
structure Startable (h : Held) (m : Mach) : Prop where
  image : bufLen h.cmd ≠ 0
  room : u8 h.cmd 24 = 1 → m.dk.staged = none
  buf : bufOk h.cmd false m = true
  size : bufLen h.cmd ≤ imageMax h.tk.op

section Start
variable {s : State} {m n : Mach} {h : Held} {l : List Held} {c : Cmd} {op : Nat}

theorem Startable.congr (hs : Startable h m) (hd : n.dk.staged = m.dk.staged) (hl : n.hif.lat = m.hif.lat) : Startable h n :=
  ⟨hs.image, hd ▸ hs.room, by simpa only [bufOk, hl] using hs.buf, hs.size⟩

theorem stageStart_eq (hs : Startable h m) : stageStart h m =
    setDk { (unstaged m).dk with sg := some (stagingOf h m) } (interim h.tk stPending m.deal (unstaged m)) := by
  obtain ⟨himage, hroom, hbuf, hsize⟩ := hs
  have hfull : ¬ (u8 h.cmd 24 = 1 && m.dk.staged.isSome) = true := by
    simp only [Bool.and_eq_true, decide_eq_true_eq, not_and]
    intro h1
    simp [hroom h1]
  unfold stageStart
  simp only [if_neg himage, if_neg hfull, hbuf, Bool.not_true, Bool.false_eq_true, if_false, if_neg (Nat.not_lt.mpr hsize), interim_dk]
  rfl

theorem imageReason_reserve (len : Nat) (i : DeckImg) (c : Cmd) (m : Mach) : imageReason op len i (reserve c m) = imageReason op len i m := by
  unfold reserve
  split <;> rfl

theorem stageFree_reserve (c : Cmd) (m : Mach) : stageFree (reserve c m) = stageFree m := by
  unfold reserve
  split <;> rfl

/-- A staging command whose slot is free starts its staging. -/
theorem stageCmd_starts {tk : Ticket} (hk : u8 c 24 ≤ 1) (hf : stageFree m = true) (hh : m.dk.held = []) :
    stageCmd c tk m = (stageStart ⟨c, tk⟩ m, { st := none }) := by
  simp [stageCmd, Nat.not_lt.mpr hk, hf, hh]

/-- What a staging command does where the slot is free. -/
def StagingStarted (op : Nat) (c : Cmd) (m n : Mach) : Prop :=
  (∃ g, n.dk.sg = some g ∧ g.start = m.deal ∧ g.h.cmd = c ∧ g.deck.digest = (imageIn c).digest ∧
    g.reason = imageReason op (bufLen c) (imageIn c) m) ∧
  n.dk.staged = none ∧ n.dk.live = m.dk.live ∧ n.frm = m.frm ∧ n.regs = m.regs ∧ Completed op stPending c m n

theorem stageCmd_answers {i : Instr} (hexec : exec i s = onMach (hostRow op stageCmd c) s) (hop : op ≠ 0x0102) (ha : Awake s)
    (hp : Plain op c s.m) (hk : u8 c 24 ≤ 1) (hf : stageFree s.m = true) (hh : s.m.dk.held = [])
    (hs : Startable ⟨c, nowTicket op c s.m⟩ s.m) : Answers i s (StagingStarted op c s.m) := by
  refine answers_mach i s _ _ hexec ha ?_
  have hs' : Startable ⟨c, nowTicket op c s.m⟩ (reserve c s.m) := hs.congr (by rw [reserve_dk]) (reserve_lat ..)
  have heff := stageCmd_starts (tk := nowTicket op c s.m) hk ((stageFree_reserve c s.m).trans hf) (by simpa using hh)
  rw [plain_silent op stageCmd c s.m _ hp (absurd · hop) heff, stageStart_eq hs', reserve_deal]
  have hdone : Completable s.m (unstaged (reserve c s.m)) := (completable_reserve c s.m).trans (completable_setDk ..)
  refine ⟨⟨_, rfl, reserve_deal c s.m, rfl, rfl, imageReason_reserve ..⟩, rfl, ?_, ?_, ?_, hdone.completed_interim⟩
  · exact (congrArg DeckUnit.live (reserve_dk c s.m) :)
  · exact (interim_frm ..).trans (reserve_frm c s.m)
  · exact (interim_regs ..).trans (reserve_regs c s.m)

/-- Settles O11: the three commands run one effect. -/
theorem stagingStarts : Obligations.StagingStarts := by
  intro i op c s hi ha hp hk hf hh himage hroom hbuf hsize
  have hs : Startable ⟨c, nowTicket op c s.m⟩ s.m := ⟨himage, hroom, hbuf, hsize⟩
  obtain ⟨rfl, rfl⟩ | ⟨rfl, rfl⟩ | ⟨rfl, rfl⟩ := hi <;> exact stageCmd_answers rfl (by decide) ha hp hk hf hh hs

end Start

/-! The end of a staging (R228, R229), and the start of the oldest held one (R230). -/

section Ends
variable {s : State} {m : Mach} {g : Staging} {h : Held} {l : List Held}

theorem stageReady_eq (hg : m.dk.sg = some g) (hr : g.reason = 0) (hf : folded m = false) : stageReady m =
    final g.h.tk (if g.h.tk.eff < g.start then stLate else stDone) (stageEvent g.deck.digest g.deck.load 0 0 g.h.tk.src
      (dkBump 0x0901 (setDk { m.dk with sg := none, staged := some g.deck, stBase := g.base, stReady := m.deal } m))) := by
  simp [stageReady, hg, hr, hf]

theorem stageReady_answers (ha : Awake s) (hg : s.m.dk.sg = some g) (hr : g.reason = 0) (hf : folded s.m = false) :
    Answers .deckStageReady s (fun n => n.dk.staged = some g.deck ∧ n.dk.sg = none ∧ n.dk.live = s.m.dk.live ∧ n.dk.stReady = s.m.deal ∧
      Reported 0x0B 0x0B11 s.m n ∧
      (∀ q, g.h.tk.src = .ring q → live g.h.tk s.m = true → ∃ ring idx, NewOut s.m n
        (.completion ring idx g.h.tk.tag g.h.tk.op (if g.h.tk.eff < g.start then stLate else stDone) s.m.deal))) := by
  refine answers_mach _ s stageReady _ rfl ha ?_
  rw [stageReady_eq hg hr hf, final_dk]
  have hready : Completable s.m (dkBump 0x0901 (setDk { s.m.dk with sg := none, staged := some g.deck, stBase := g.base, stReady := s.m.deal } s.m)) :=
    (completable_setDk ..).trans (completable_dkBump ..)
  refine ⟨rfl, rfl, rfl, rfl, ?_, fun q hq hl => (hready.trans (completable_stageEvent ..)).newOut_final hq hl⟩
  exact reported_then _ _ _ _ _ hready.events.reported (completable_final ..).events.out

/-- The completion status of a refused staging. -/
def refusal (reason : Nat) : Nat := if reason = 0x80 then stRefusedAuth else stBadArg

/-- A refused staging is flagged and reported, then its command is completed (R229). -/
theorem stageRefuse_refuses (h : Held) (reason digest load signer : Nat) (m : Mach) : ∃ n, stageRefuse h reason digest load signer m =
    final h.tk (refusal reason) n ∧ Completable m n ∧ Reported 0x0B 0x0B11 m n ∧ rd n F.GRF_FLAGS_STAGE_REFUSED = 1 ∧ n.dk = (dkBump 0x0902 m).dk := by
  let flagged := wr F.GRF_FLAGS_STAGE_REFUSED 1 (dkBump 0x0902 m)
  let reported := stageEvent digest load 1 reason h.tk.src flagged
  have hflagged : Completable m flagged := (completable_dkBump ..).trans (completable_wr _ _ (by decide))
  have hreported : Completable m reported := hflagged.trans (completable_stageEvent ..)
  have hevent : Reported 0x0B 0x0B11 m reported := hflagged.events.reported
  have hflag : rd reported F.GRF_FLAGS_STAGE_REFUSED = 1 := (rd_raise _ _ _ _ _ (by decide)).trans (rd_wr_self ..)
  by_cases hauth : reason = 0x80
  · have hfail : ∀ cause seat key n, Completable n (authFailBy cause h.tk.op seat key n) := fun _ _ _ n =>
      ((completable_bump _ n (by decide)).trans (completable_wr _ _ (by decide))).trans (completable_raise ..)
    refine ⟨authFailBy 8 h.tk.op (fromSeat m h.cmd.src) signer reported, ?_, hreported.trans (hfail ..),
      reported_then _ _ _ _ _ hevent (hfail _ _ _ reported).events.out, ?_, rfl⟩
    · simp only [stageRefuse, refusal, if_pos hauth]
      rfl
    · rw [authFailBy, rd_raise _ _ _ _ _ (by decide), rd_wr_ne _ _ _ _ (by decide), rd_bump_ne _ _ _ _ (by decide), hflag]
  · refine ⟨reported, ?_, hreported, hevent, hflag, rfl⟩
    simp only [stageRefuse, refusal, if_neg hauth]
    rfl

theorem waitersMiss_none (h : m.dk.waiting = []) : waitersMiss m = setDk { m.dk with waiting := [] } m := by
  simp [waitersMiss, h]

theorem stageFails_eq (hg : m.dk.sg = some g) (hr : g.reason ≠ 0) (hf : folded m = false) :
    stageFails m = waitersMiss (stageRefuse g.h g.reason g.deck.digest g.deck.load g.signer (setDk { m.dk with sg := none } m)) := by
  simp [stageFails, hg, hr, hf]

theorem stageFails_answers (ha : Awake s) (hg : s.m.dk.sg = some g) (hr : g.reason ≠ 0) (hf : folded s.m = false) (hw : s.m.dk.waiting = []) :
    Answers .deckStageRefused s (fun n => n.dk.sg = none ∧ n.dk.staged = s.m.dk.staged ∧ n.dk.live = s.m.dk.live ∧
      rd n F.GRF_FLAGS_STAGE_REFUSED = 1 ∧ Reported 0x0B 0x0B11 s.m n ∧
      (∀ q, g.h.tk.src = .ring q → live g.h.tk s.m = true → ∃ ring idx, NewOut s.m n
        (.completion ring idx g.h.tk.tag g.h.tk.op (refusal g.reason) s.m.deal))) := by
  refine answers_mach _ s stageFails _ rfl ha ?_
  have hfreed := completable_setDk { s.m.dk with sg := none } s.m
  obtain ⟨n, heq, hn, hevent, hflag, hdk⟩ := stageRefuse_refuses g.h g.reason g.deck.digest g.deck.load g.signer (setDk { s.m.dk with sg := none } s.m)
  have hend : (final g.h.tk (refusal g.reason) n).dk = (dkBump 0x0902 (setDk { s.m.dk with sg := none } s.m)).dk := (final_dk ..).trans hdk
  rw [stageFails_eq hg hr hf, heq, waitersMiss_none (by rw [hend]; exact hw)]
  refine ⟨?_, ?_, ?_, ?_, ?_, fun q hq hl => ?_⟩
  · exact (congrArg DeckUnit.sg hend :)
  · exact (congrArg DeckUnit.staged hend :)
  · exact (congrArg DeckUnit.live hend :)
  · exact (rd_final ..).trans hflag
  · exact reported_then _ _ _ _ _ (reported_since hfreed.events hevent) (completable_final ..).events.out
  · exact (hfreed.trans hn).newOut_final hq hl

/-- While a staging runs no held one starts. -/
theorem startHeld_busy (k : Nat) (hg : m.dk.sg = some g) : startHeld k m = m := by
  cases k with
  | zero => rfl
  | succ k =>
    have hbusy : stageFree m = false := by simp [stageFree, hg]
    unfold startHeld
    split
    · rw [hbusy, if_neg Bool.false_ne_true]
    · rfl

theorem stageHeldStart_eq (hh : m.dk.held = h :: l) (hf : stageFree m = true) (hs : Startable h m) :
    stageHeldStart m = stageStart h (setDk { m.dk with held := l } m) := by
  have hs' : Startable h (setDk { m.dk with held := l } m) := hs.congr rfl rfl
  rw [stageHeldStart, hh, List.length_cons, startHeld, hh]
  simp only [hf, if_true]
  rw [stageStart_eq hs']
  exact startHeld_busy _ rfl

theorem stageHeldStart_answers (ha : Awake s) (hh : s.m.dk.held = h :: l) (hf : stageFree s.m = true) (hs : Startable h s.m) :
    Answers .stageHeldStart s (fun n => n.dk.held = l ∧ (∃ g, n.dk.sg = some g ∧ g.h.cmd = h.cmd ∧ g.start = s.m.deal) ∧
      n.dk.staged = none ∧ n.dk.live = s.m.dk.live) := by
  refine answers_mach _ s stageHeldStart _ rfl ha ?_
  have hs' : Startable h (setDk { s.m.dk with held := l } s.m) := hs.congr rfl rfl
  rw [stageHeldStart_eq hh hf hs, stageStart_eq hs']
  exact ⟨rfl, ⟨_, rfl, rfl, rfl⟩, rfl, rfl⟩

end Ends

/-- Settles O12, one lemma for each command. -/
theorem stagingEnds : Obligations.StagingEnds :=
  ⟨fun _ _ => stageReady_answers, fun _ _ => stageFails_answers,
    fun _ _ _ ha hh hf himage hroom hbuf hsize => stageHeldStart_answers ha hh hf ⟨himage, hroom, hbuf, hsize⟩⟩

end Sys2Proof.Machine
end

section
/-! What a cut and a render reset do beside the deck unit (08 R231, R234-R237; 17 R468). -/
namespace Sys2Proof.Machine

/-- Since `m`, events go as before, output has only been added, and clocks, time and the power state are kept. -/
structure RestKept (m n : Mach) : Prop extends EventsKept m n where
  clk : n.clk = m.clk
  tim : n.tim = m.tim
  power : rd n F.PWR_STATE_STATE = rd m F.PWR_STATE_STATE

/-- Since `m`, the deck unit and the scene are kept as well. -/
structure DeckKept (m n : Mach) : Prop extends RestKept m n where
  dk : n.dk = m.dk
  objs : n.objs = m.objs

/-- The fields that a cut and a render reset must leave: whether polling is active, and the power state. -/
def restFlds : List Fld := [F.HIF_STATUS_RUNNING, F.PWR_STATE_STATE]

section Rest
variable {m n p : Mach} {f : Fld}

theorem RestKept.refl (m : Mach) : RestKept m m := ⟨eventsKept_refl m, rfl, rfl, rfl⟩

theorem RestKept.trans (h1 : RestKept m n) (h2 : RestKept n p) : RestKept m p :=
  ⟨h1.toEventsKept.trans h2.toEventsKept, h2.clk.trans h1.clk, h2.tim.trans h1.tim, h2.power.trans h1.power⟩

theorem restKept_of_eq (hr : n.regs = m.regs) (hh : n.hif.lat = m.hif.lat) (ho : n.out = m.out) (hc : n.clk = m.clk) (ht : n.tim = m.tim) :
    RestKept m n := ⟨.of_eq hr hh ho, hc, ht, rd_congr _ _ _ hr⟩

theorem DeckKept.refl (m : Mach) : DeckKept m m := ⟨.refl m, rfl, rfl⟩

theorem DeckKept.trans (h1 : DeckKept m n) (h2 : DeckKept n p) : DeckKept m p :=
  ⟨h1.toRestKept.trans h2.toRestKept, h2.dk.trans h1.dk, h2.objs.trans h1.objs⟩

theorem deckKept_onlyIf (b : Bool) {g : Mach → Mach} (h : DeckKept m (g m)) : DeckKept m (onlyIf b g m) := by
  cases b
  · exact .refl m
  · exact h

theorem deckKept_forEach {α : Type} {l : List α} {g : α → Mach → Mach} (h : ∀ a n, DeckKept n (g a n)) (m : Mach) : DeckKept m (forEach l g m) :=
  List.foldlRecOn (motive := DeckKept m) l _ (.refl m) fun n hn a _ => hn.trans (h a n)

theorem restKept_forEach {α : Type} {l : List α} {g : α → Mach → Mach} (h : ∀ a n, RestKept n (g a n)) (m : Mach) : RestKept m (forEach l g m) :=
  List.foldlRecOn (motive := RestKept m) l _ (.refl m) fun n hn a _ => hn.trans (h a n)

/-! The operations of which a cut and a render reset are made. -/

theorem deckKept_wr (v : Nat) (m : Mach) (h : ∀ g ∈ restFlds, fkey g 0 0 ≠ fkey f 0 0) : DeckKept m (wr f v m) :=
  ⟨⟨eventsKept_wr v m (h _ (by decide)), rfl, rfl, rd_wr_ne _ _ _ _ (h _ (by decide))⟩, rfl, rfl⟩

theorem deckKept_wri (i v : Nat) (m : Mach) (h : ∀ g ∈ restFlds, ∀ i < f.n1, fkey g 0 0 ≠ fkey f i 0) : DeckKept m (wri f i v m) := by
  refine ⟨⟨eventsKept_wri i v m (h _ (by decide)), rfl, rfl, ?_⟩, rfl, rfl⟩
  by_cases hi : i < f.n1
  · exact rd_wri_ne _ _ _ _ _ (h _ (by decide) i hi)
  · exact rd_congr _ _ _ (by rw [wri_regs, if_neg hi])

theorem deckKept_raise (src code : Nat) (pay : Pay) (m : Mach) : DeckKept m (raise src code pay m) :=
  ⟨⟨eventsKept_raise .., raise_clk .., raise_tim .., rd_raise _ _ _ _ _ (by decide)⟩, raise_dk .., raise_objs ..⟩

theorem deckKept_watch (bit : Nat) (above : Bool) (src code : Nat) (pay : Pay) (m : Mach) : DeckKept m (watch bit above src code pay m) := by
  unfold watch
  split
  · refine .trans ?_ (deckKept_raise ..)
    exact ⟨restKept_of_eq rfl rfl rfl rfl rfl, rfl, rfl⟩
  · exact ⟨restKept_of_eq rfl rfl rfl rfl rfl, rfl, rfl⟩

theorem deckKept_setRend (x : Rend) (m : Mach) : DeckKept m (setRend x m) := ⟨restKept_of_eq rfl rfl rfl rfl rfl, rfl, rfl⟩
theorem deckKept_setVote (x : Voter) (m : Mach) : DeckKept m (setVote x m) := ⟨restKept_of_eq rfl rfl rfl rfl rfl, rfl, rfl⟩
theorem deckKept_setCor (x : Cor) (m : Mach) : DeckKept m (setCor x m) := ⟨restKept_of_eq rfl rfl rfl rfl rfl, rfl, rfl⟩
theorem deckKept_setIcom (c : Nat) (x : Icom) (m : Mach) : DeckKept m (setIcom c x m) := ⟨restKept_of_eq rfl rfl rfl rfl rfl, rfl, rfl⟩
theorem deckKept_setFrm (x : Frm) (m : Mach) : DeckKept m (setFrm x m) := ⟨restKept_of_eq rfl rfl rfl rfl rfl, rfl, rfl⟩
theorem deckKept_setAnn (x : Ann) (m : Mach) : DeckKept m (setAnn x m) := ⟨restKept_of_eq rfl rfl rfl rfl rfl, rfl, rfl⟩
theorem deckKept_markMap (m : Mach) : DeckKept m (markMap m) := ⟨restKept_of_eq rfl rfl rfl rfl rfl, rfl, rfl⟩

theorem restKept_setDk (x : DeckUnit) (m : Mach) : RestKept m (setDk x m) := restKept_of_eq rfl rfl rfl rfl rfl

theorem restKept_final (tk : Ticket) (st : Nat) (m : Mach) : RestKept m (final tk st m) :=
  ⟨(completable_final ..).events, final_clk .., final_tim .., rd_final ..⟩

/-! The delay pool (11 R313-R315). -/

theorem deckKept_setLine (k : Nat) (x : Line) (m : Mach) : DeckKept m (setLine k x m) := deckKept_setRend ..

theorem deckKept_grantLine (k : Nat) (m : Mach) : DeckKept m (grantLine k m).1 := by
  simp only [grantLine]
  split
  · exact .refl m
  · exact (deckKept_setLine ..).trans (deckKept_setRend ..)

theorem deckKept_lineWaits (k : Nat) (m : Mach) : DeckKept m (lineWaits k m) := by
  simp only [lineWaits]
  split
  · exact deckKept_setLine ..
  · exact (deckKept_setLine ..).trans ((deckKept_setRend ..).trans ((deckKept_wr _ _ (by decide)).trans (deckKept_raise ..)))

/-- A line is granted its blocks, or waits for them. -/
theorem deckKept_grantOrWait (k : Nat) (m : Mach) :
    DeckKept m (if (grantLine k m).2 then (grantLine k m).1 else lineWaits k (grantLine k m).1) := by
  split
  · exact deckKept_grantLine ..
  · exact (deckKept_grantLine ..).trans (deckKept_lineWaits ..)

theorem deckKept_cutLine (old : DeckBody) (l : LineD) (m : Mach) : DeckKept m (cutLine old l m) := by
  simp only [cutLine]
  split
  · exact (deckKept_setLine ..).trans (deckKept_grantOrWait ..)
  · split
    · exact ((deckKept_onlyIf _ (deckKept_setRend ..)).trans (deckKept_setLine ..)).trans (deckKept_grantOrWait ..)
    · exact (deckKept_onlyIf _ (deckKept_setRend ..)).trans (deckKept_setLine ..)

theorem deckKept_poolCut (old new : DeckBody) (m : Mach) : DeckKept m (poolCut old new m) :=
  ((deckKept_setRend ..).trans (deckKept_forEach (fun l n => deckKept_cutLine old l n) _)).trans (deckKept_watch ..)

/-! The voter, the correction, the intercom and the bridges. -/

theorem deckKept_critMap (c : Nat) (x : Option Crit) (m : Mach) : DeckKept m (critMap c x m) := by
  unfold critMap
  iterate 5 refine .trans ?_ (deckKept_wri _ _ _ (by decide))
  exact deckKept_wri _ _ _ (by decide)

theorem deckKept_voterCut (m : Mach) : DeckKept m (voterCut m) :=
  ((deckKept_setVote ..).trans (deckKept_forEach (fun _ _ => deckKept_critMap ..) _)).trans (deckKept_wr _ _ (by decide))

theorem deckKept_showMeas (m : Mach) : DeckKept m (showMeas m) := by
  unfold showMeas
  split <;> exact (deckKept_wr _ _ (by decide)).trans (deckKept_wr _ _ (by decide))

theorem deckKept_measAbort (result : Nat) (m : Mach) : DeckKept m (measAbort result m) := by
  unfold measAbort
  split
  · exact (deckKept_setCor ..).trans ((deckKept_wr _ _ (by decide)).trans (deckKept_showMeas _))
  · exact .refl m

theorem deckKept_corrCut (old new : DeckBody) (m : Mach) : DeckKept m (corrCut old new m) := by
  unfold corrCut
  split
  · exact (deckKept_onlyIf _ (deckKept_measAbort ..)).trans (deckKept_setCor ..)
  · exact deckKept_setCor ..

theorem deckKept_showIcom (m : Mach) : DeckKept m (showIcom m) :=
  ((deckKept_wr _ _ (by decide)).trans (deckKept_wr _ _ (by decide))).trans (deckKept_wr _ _ (by decide))

theorem deckKept_icomCut (m : Mach) : DeckKept m (icomCut m) := by
  refine .trans (deckKept_forEach (fun c n => ?_) m) (deckKept_showIcom _)
  dsimp only
  split
  · exact .refl n
  · exact (deckKept_setIcom ..).trans (deckKept_raise ..)

theorem deckKept_showBridges (m : Mach) : DeckKept m (showBridges m) := deckKept_forEach (fun _ n => deckKept_wri _ _ n (by decide)) m

theorem deckKept_bridgeCut (m : Mach) : DeckKept m (bridgeCut m) := (deckKept_setFrm ..).trans (deckKept_showBridges _)

/-! The render reset of the units. -/

theorem deckKept_corrRenderReset (m : Mach) : DeckKept m (corrRenderReset m) := (deckKept_measAbort ..).trans (deckKept_setCor ..)

theorem deckKept_annRenderReset (m : Mach) : DeckKept m (annRenderReset m) :=
  (deckKept_forEach (fun _ _ => deckKept_raise ..) m).trans (deckKept_setAnn ..)

theorem deckKept_seqStart (m : Mach) : DeckKept m (seqStart m) := (deckKept_setFrm ..).trans (deckKept_showBridges _)

theorem rd_of_clearRange {lo hi : Nat} (hr : n.regs = clearRange lo hi m.regs) (hf : fkey f 0 0 / 32 < lo ∨ hi ≤ fkey f 0 0 / 32) :
    rd n f = rd m f := by
  rw [rd, hr, rgetij, mget, clearRange, mfind_filter_key (fun k => k / 32 < lo || hi ≤ k / 32) _ (by simpa using hf)]
  rfl

/-- A reset that returns a range of registers beside polling and power. -/
theorem restKept_clearRange {lo hi : Nat} (hr : n.regs = clearRange lo hi m.regs)
    (h : ∀ f ∈ restFlds, fkey f 0 0 / 32 < lo ∨ hi ≤ fkey f 0 0 / 32) (hh : n.hif = m.hif) (ho : n.out = m.out) (hc : n.clk = m.clk)
    (ht : n.tim = m.tim) : RestKept m n :=
  ⟨⟨by simp only [running, rd_of_clearRange hr (h F.HIF_STATUS_RUNNING (by decide))], congrArg Hif.lat hh, [], ho⟩, hc, ht,
    rd_of_clearRange hr (h _ (by decide))⟩

theorem restKept_voterReset (m : Mach) : RestKept m (voterReset m) := restKept_clearRange rfl (by decide) rfl rfl rfl rfl
theorem restKept_renderReset (m : Mach) : RestKept m (renderReset m) := restKept_clearRange rfl (by decide) rfl rfl rfl rfl
theorem restKept_sceneReset (m : Mach) : RestKept m (sceneReset m) := restKept_clearRange rfl (by decide) rfl rfl rfl rfl

/-! The render reset of the deck unit. -/

theorem restKept_cutMiss (cause : Nat) (h : Held) (m : Mach) : RestKept m (cutMiss cause h m) :=
  (restKept_setDk ..).trans (.trans ((deckKept_wr _ _ (by decide)).trans (deckKept_raise ..)).toRestKept (restKept_final ..))

theorem restKept_waitersMiss (m : Mach) : RestKept m (waitersMiss m) :=
  (restKept_setDk ..).trans (restKept_forEach (fun _ _ => restKept_cutMiss ..) _)

theorem restKept_deckRenderReset (m : Mach) : RestKept m (deckRenderReset m) := by
  unfold deckRenderReset
  extract_lets _ m1 m2
  have h1 : RestKept m m1 := by
    unfold m1
    split
    · exact (restKept_setDk ..).trans ((deckKept_raise ..).toRestKept.trans (restKept_final ..))
    · exact .refl m
  have h2 : RestKept m1 m2 := (restKept_waitersMiss m1).trans (restKept_forEach (fun _ _ => restKept_cutMiss ..) _)
  exact ((h1.trans h2).trans (restKept_setDk ..)).trans (deckKept_markMap _).toRestKept

end Rest

end Sys2Proof.Machine
end

section
/-! DECK_CUT and RENDER_RESET (08 R231; 17 R468). -/
namespace Sys2Proof.Machine

/-! The cut. -/

/-- The decks after a cut: the staged deck is live, the live one retires, and the slots change places; the scene stays. -/
structure CutMade (d : Deck) (m n : Mach) : Prop where
  live : n.dk.live = { d with cutDeal := m.deal }
  staged : n.dk.staged = none
  retiring : n.dk.retiring = some m.dk.live
  slotB : n.dk.slotB = !m.dk.slotB
  objs : n.objs = m.objs

/-- The deck unit at a cut: the staged deck is live, the old one retires, and the slots change places. -/
def decksCut (d : Deck) (fadeN changed : Nat) (m : Mach) : Mach :=
  setDk { m.dk with live := { d with cutDeal := m.deal }, staged := none, stBase := none, retiring := some m.dk.live, slotB := !m.dk.slotB,
                    fadeN := fadeN, fadeLeft := fadeN, changed := changed, retFrom := m.deal } m

/-- The units that follow the decks at a cut (R234-R237). -/
def unitsCut (old new : DeckBody) (x : Frm) (m : Mach) : Mach :=
  markMap (bridgeCut (icomCut (corrCut old new (voterCut (poolCut old new (setFrm x m))))))

section Cut
variable {s : State} {m : Mach} {h : Held} {d : Deck} {c : Cmd}

theorem deckKept_unitsCut (old new : DeckBody) (x : Frm) (m : Mach) : DeckKept m (unitsCut old new x m) := by
  have hdelays : DeckKept m (poolCut old new (setFrm x m)) := (deckKept_setFrm ..).trans (deckKept_poolCut ..)
  have hnodes := (deckKept_voterCut (poolCut old new (setFrm x m))).trans (deckKept_corrCut old new _)
  exact (hdelays.trans hnodes).trans (((deckKept_icomCut _).trans (deckKept_bridgeCut _)).trans (deckKept_markMap _))

theorem unitsCut_pace {old new : DeckBody} {x : Frm} (hc : x.committed = m.frm.committed) (hr : x.run = m.frm.run) :
    pace (unitsCut old new x m) = pace m := by
  simp [unitsCut, hc, hr]

/-- A cut that is not late: the decks change, the other units follow, and the cut is counted, reported and completed DONE. -/
theorem doCut_inTime (hs : m.dk.staged = some d) (ht : m.deal ≤ h.tk.eff) : ∃ fadeN changed pay n,
    doCut h m = final h.tk stDone (raise 0x0B 0x0B12 pay (dkBump 0x0903 n)) ∧ DeckKept (decksCut d fadeN changed m) n ∧ pace n = pace m := by
  simp only [doCut, hs, Nat.not_lt.mpr ht, decide_false, onlyIf_false, if_false]
  exact ⟨_, _, _, unitsCut m.dk.live.body d.body _ (decksCut d _ _ m), rfl, deckKept_unitsCut .., unitsCut_pace rfl rfl⟩

theorem doCut_makes (hs : m.dk.staged = some d) (ht : m.deal ≤ h.tk.eff) : ∃ pay n, doCut h m = final h.tk stDone (raise 0x0B 0x0B12 pay n) ∧
    CutMade d m n ∧ Completable m n := by
  obtain ⟨fadeN, changed, pay, n, heq, hn, hpace⟩ := doCut_inTime hs ht
  refine ⟨pay, _, heq, ⟨?_, ?_, ?_, ?_, hn.objs⟩, .trans ⟨?_, hpace⟩ (completable_dkBump ..)⟩
  · exact (congrArg DeckUnit.live hn.dk :)
  · exact (congrArg DeckUnit.staged hn.dk :)
  · exact (congrArg DeckUnit.retiring hn.dk :)
  · exact (congrArg DeckUnit.slotB hn.dk :)
  · exact ((restKept_setDk ..).trans hn.toRestKept).toEventsKept

/-- What a cut asks of the staged deck: EXPECT and GROUP name it, or nothing, and its BASE, if it has one, is the live deck. -/
structure CutFits (c : Cmd) (d : Deck) (m : Mach) : Prop where
  expect : u64 c 24 = 0 ∨ u64 c 24 = d.digest
  group : u32 c 32 = 0 ∨ u32 c 32 = d.group
  base : m.dk.stBase = none ∨ m.dk.stBase = some m.dk.live.digest

theorem tryCut_fits (hs : m.dk.staged = some d) (hf : CutFits h.cmd d m) : tryCut h m = doCut h m := by
  obtain ⟨hexpect, hgroup, hbase⟩ := hf
  have hnamed : ((u64 h.cmd 24 != 0 && u64 h.cmd 24 != d.digest) || (u32 h.cmd 32 != 0 && u32 h.cmd 32 != d.group)) = false := by
    rcases hexpect with h1 | h1 <;> rcases hgroup with h2 | h2 <;> simp [h1, h2]
  have hlive : ¬ (m.dk.stBase.isSome && m.dk.stBase ≠ some m.dk.live.digest) = true := by
    rcases hbase with h1 | h1 <;> simp [h1]
  simp only [tryCut, hs, hnamed, Bool.false_eq_true, if_false, if_neg hlive]

/-- A boundary's only cut, with none waiting. -/
theorem stepThree_cut (hr : m.dk.renderDue = false) (hc : m.dk.cuts = [h]) (hw : m.dk.waiting = []) :
    stepThree m = tryCut h (setDk { m.dk with waiting := [], cuts := [] } m) := by
  simp [stepThree, hr, doCuts, hc, hw]

theorem deckCut_answers (ha : Awake s) (hp : Plain 0x0102 c s.m) (hargs : cutArgsOk c = true) (hs : s.m.dk.staged = some d)
    (hf : CutFits c d s.m) (hc : s.m.dk.cuts = []) (hw : s.m.dk.waiting = []) (hr : s.m.dk.renderDue = false) :
    Answers (.deckCut c) s (fun n => n.dk.live = { d with cutDeal := s.m.deal } ∧ n.dk.staged = none ∧ n.dk.retiring = some s.m.dk.live ∧
      n.dk.slotB = !s.m.dk.slotB ∧ n.objs = s.m.objs ∧ Reported 0x0B 0x0B12 s.m n ∧ Completed 0x0102 stDone c s.m n) := by
  refine answers_mach _ s (fun m => stepThree (hostRow 0x0102 deckCut c m)) _ rfl ha ?_
  let h : Held := ⟨c, nowTicket 0x0102 c s.m⟩
  let due := setDk { (reserve c s.m).dk with waiting := [], cuts := [] } (reserve c s.m)
  have hdue : Completable s.m due := (completable_reserve c s.m).trans (completable_setDk ..)
  have hrow : stepThree (hostRow 0x0102 deckCut c s.m) = tryCut h due := by
    rw [plain_silent 0x0102 deckCut c s.m _ hp (fun _ => hargs) rfl, stepThree_cut (h := h)]
    · rfl
    · simpa using hr
    · simp [hc, h]
    · simpa using hw
  have hstaged : due.dk.staged = some d := (congrArg DeckUnit.staged (reserve_dk c s.m)).trans hs
  have hfits : CutFits h.cmd d due := ⟨hf.expect, hf.group, by simpa [due] using hf.base⟩
  obtain ⟨pay, n, heq, ⟨hlive, hnone, hret, hslot, hobjs⟩, hn⟩ := doCut_makes (h := h) hstaged hdue.deal.le
  rw [hrow, tryCut_fits hstaged hfits, heq, final_dk, final_objs, raise_dk, raise_objs]
  refine ⟨?_, hnone, ?_, ?_, ?_, ?_, ?_⟩
  · rw [hlive, hdue.deal]
  · rw [hret]
    exact (congrArg (fun x => some x.live) (reserve_dk c s.m) :)
  · rw [hslot]
    exact (congrArg (fun x => !x.slotB) (reserve_dk c s.m) :)
  · exact hobjs.trans (reserve_objs c s.m)
  · exact reported_then _ _ _ _ _ (hdue.trans hn).events.reported (completable_final ..).events.out
  · exact ((hdue.trans hn).trans (completable_raise ..)).completed_final

end Cut

/-! The render reset. -/

section Reset
variable {s : State} {m : Mach} {c : Cmd} {tk : Ticket}

theorem restKept_reserve (c : Cmd) (m : Mach) : RestKept m (reserve c m) :=
  restKept_of_eq (reserve_regs ..) (reserve_lat ..) (reserve_out ..) (reserve_clk ..) (reserve_tim ..)

theorem restKept_setSec (x : Sec) (m : Mach) : RestKept m (setSec x m) := restKept_of_eq rfl rfl rfl rfl rfl

theorem restKept_installInline (op : Nat) (c : Cmd) (m : Mach) : RestKept m (installInline op c m) := by
  unfold installInline
  split
  · split
    · refine .trans ?_ (deckKept_onlyIf _ ((deckKept_wr _ _ (by decide)).trans (deckKept_raise ..))).toRestKept
      exact (restKept_setSec ..).trans (deckKept_wr _ _ (by decide)).toRestKept
    · exact .refl m
  · exact .refl m

theorem restKept_recordCounter (c : Cmd) (m : Mach) : RestKept m (recordCounter c m) := by
  unfold recordCounter
  split
  · split
    · exact restKept_setSec ..
    · exact .refl m
  · exact .refl m

@[simp] theorem installInline_pace (op : Nat) (c : Cmd) (m : Mach) : pace (installInline op c m) = pace m := by
  unfold installInline
  (repeat' split) <;> simp [setSec, keyEvent]

@[simp] theorem recordCounter_pace (c : Cmd) (m : Mach) : pace (recordCounter c m) = pace m := by
  unfold recordCounter
  (repeat' split) <;> simp [setSec]

@[simp] theorem reserve_pace (c : Cmd) (m : Mach) : pace (reserve c m) = pace m := (completable_reserve c m).pace

/-- A command that is admitted, with a signature or without one, meets its effect on a machine that admission has left as it was but for its
entries and its keys. -/
theorem hostRow_admitted {op : Nat} {eff : Eff} (h : Plain op c m ∨ Signed op c m) (hop : op ≠ 0x0102) :
    ∃ n, hostRow op eff c m = runEff eff ⟨c, nowTicket op c m⟩ n ∧ RestKept m n ∧ pace n = pace m := by
  obtain hp | hs := h
  · exact ⟨_, hostRow_plain op eff c m hp (absurd · hop), restKept_reserve c m, reserve_pace c m⟩
  · refine ⟨_, hostRow_signed op eff c m hs, ?_, by simp⟩
    exact ((restKept_reserve ..).trans (restKept_installInline ..)).trans (restKept_recordCounter ..)

/-- The machine that a render reset is asked of. -/
def renderAsked (m : Mach) : Mach := setDk { m.dk with renderDue := true } { m with pwr := { m.pwr with rrAt := some m.deal } }

theorem runEff_renderReset {q : Nat} (hq : tk.src = .ring q) (ht : m.deal ≤ tk.eff) :
    runEff renderResetEff ⟨c, tk⟩ m = final tk stDone (renderAsked m) := by
  have hdone : doneOrLate tk (renderAsked m) = stDone := if_neg (Nat.not_lt.mpr ht)
  calc runEff renderResetEff ⟨c, tk⟩ m = finalWith tk (doneOrLate tk (renderAsked m)) (bufAddr c) [] (renderAsked m) := rfl
    _ = final tk stDone (renderAsked m) := by rw [hdone, finalWith_ring_nil _ _ _ _ q hq]

/-- The deck unit and the scene after a render reset at a deal: the empty deck is live, and nothing else is there. -/
structure RenderCleared (deal : Nat) (n : Mach) : Prop where
  live : n.dk.live = { cutDeal := deal }
  staged : n.dk.staged = none
  retiring : n.dk.retiring = none
  sg : n.dk.sg = none
  objs : n.objs = []

theorem stepThree_reset (hr : m.dk.renderDue = true) : stepThree m = renderResetNow m := if_pos hr

theorem renderResetNow_clears (m : Mach) : RestKept m (renderResetNow m) ∧ RenderCleared m.deal (renderResetNow m) := by
  let decks := deckRenderReset m
  let units := sceneReset (renderReset (voterReset decks))
  have hunits : RestKept m units := (restKept_deckRenderReset m).trans
    (((restKept_voterReset decks).trans (restKept_renderReset _)).trans (restKept_sceneReset _))
  have hrest : DeckKept units (renderResetNow m) := ((deckKept_corrRenderReset units).trans (deckKept_annRenderReset _)).trans
    ((deckKept_seqStart _).trans (deckKept_icomCut _))
  refine ⟨hunits.trans hrest.toRestKept, ?_, ?_, ?_, ?_, hrest.objs⟩ <;> rw [hrest.dk] <;> rfl

theorem renderReset_answers (ha : Awake s) (h : Plain 0x0E01 c s.m ∨ Signed 0x0E01 c s.m) :
    Answers (.renderReset c) s (fun n => n.dk.live = { cutDeal := s.m.deal } ∧ n.dk.staged = none ∧ n.dk.retiring = none ∧ n.dk.sg = none ∧
      n.objs = [] ∧ n.clk = s.m.clk ∧ n.tim = s.m.tim ∧ rd n F.PWR_STATE_STATE = rd s.m F.PWR_STATE_STATE ∧
      Completed 0x0E01 stDone c s.m n) := by
  refine answers_mach _ s (fun m => stepThree (hostRow 0x0E01 renderResetEff c m)) _ rfl ha ?_
  obtain ⟨n, hrow, hn, hpace⟩ := hostRow_admitted (eff := renderResetEff) h (by decide)
  have hdeal : n.deal = s.m.deal := congrArg Pace.deal hpace
  obtain ⟨q, hq⟩ : ∃ q, c.src = .ring q := h.elim (·.1) (·.1)
  have hasked : RestKept s.m (renderAsked n) := hn.trans (restKept_of_eq rfl rfl rfl rfl rfl)
  have hdone : Completed 0x0E01 stDone c s.m (final (nowTicket 0x0E01 c s.m) stDone (renderAsked n)) :=
    Completable.completed_final ⟨hasked.toEventsKept, hpace⟩
  rw [hrow, runEff_renderReset hq hdeal.le, stepThree_reset (by rw [final_dk]; rfl)]
  obtain ⟨hkept, hlive, hstaged, hretiring, hsg, hobjs⟩ := renderResetNow_clears (final (nowTicket 0x0E01 c s.m) stDone (renderAsked n))
  obtain ⟨-, hclk, htim, hpower⟩ := (hasked.trans (restKept_final ..)).trans hkept
  refine ⟨?_, hstaged, hretiring, hsg, hobjs, hclk, htim, hpower, fun hr k hk => ?_⟩
  · rw [hlive, final_deal]
    exact (congrArg (fun d => ({ cutDeal := d } : Deck)) hdeal :)
  · obtain ⟨ring, idx, ho⟩ := hdone hr k hk
    exact ⟨ring, idx, newOut_mono _ _ _ _ ho hkept.out⟩

end Reset

/-- Settles O13, one lemma for each command. -/
theorem stepThreeActs : Obligations.StepThreeActs :=
  ⟨fun _ _ _ ha hp hargs hs hbase hc hw hr hexpect hgroup => deckCut_answers ha hp hargs hs ⟨hexpect, hgroup, hbase⟩ hc hw hr,
    fun _ _ => renderReset_answers⟩

end Sys2Proof.Machine
end

section
/-! The scene's commands (10 R277, R280, R281, R283): an object read back, and what each command leaves of the objects. -/
namespace Sys2Proof.Machine

section Objects
variable {m n : Mach} {o k : Nat} {c : Cmd}

theorem objOf_congr (h : n.objs = m.objs) : objOf n o = objOf m o := by rw [objOf, objOf, h]
theorem objOf_setObj_self (x : Obj) (m : Mach) : objOf (setObj o x m) o = x := mget_mset_self ..
theorem objOf_setObj_ne (x : Obj) (m : Mach) (h : k ≠ o) : objOf (setObj o x m) k = objOf m k := mget_mset_ne _ _ _ _ _ h
theorem objOf_reserve : objOf (reserve c m) o = objOf m o := objOf_congr (reserve_objs c m)
theorem objOf_final (tk : Ticket) (st : Nat) (m : Mach) : objOf (final tk st m) o = objOf m o := objOf_congr (final_objs ..)
theorem objCount_reserve : objCount (reserve c m) = objCount m := by rw [objCount, objCount, reserve_frm]
theorem completable_setObj (o : Nat) (x : Obj) (m : Mach) : Completable m (setObj o x m) := ⟨.of_eq rfl rfl rfl, rfl⟩

theorem objOf_eq_default (h : o ∉ m.objs.map Prod.fst) : objOf m o = {} := by
  suffices hfind : ∀ t : SMap Obj, o ∉ t.map Prod.fst → mfind t o = none by rw [objOf, mget, hfind _ h]; rfl
  intro t ht
  induction t with
  | nil => rfl
  | cons p t ih =>
    obtain ⟨hp, ht⟩ := not_or.mp (List.mem_cons.not.mp ht)
    rw [mfind_cons, if_neg (Ne.symm hp), ih ht]

/-- A plain command whose effect is applied ends in the final completion of its effect. -/
theorem plain_answers_final {i : Instr} {s : State} {op : Nat} {eff : Eff} {P : Mach → Prop} (hexec : exec i s = onMach (hostRow op eff c) s)
    (ha : Awake s) (hp : Plain op c s.m) (hop : op ≠ 0x0102) (hn : eff c (nowTicket op c s.m) (reserve c s.m) = okM n)
    (hk : Completable (reserve c s.m) n) (hP : ∀ f, f = final (nowTicket op c s.m) stDone n → Completed op stDone c s.m f → P f) :
    Answers i s P := by
  have hkept : Completable s.m n := (completable_reserve c s.m).trans hk
  refine answers_mach i s _ P hexec ha ?_
  rw [plain_status op stDone eff c s.m n hp (absurd · hop) hn hkept.deal]
  exact hP _ rfl hkept.completed_final

end Objects

/-! OBJ_SET (R277). -/

section Parameters
variable {s : State} {m : Mach} {c : Cmd} {tk : Ticket}

/-- Each SET bit writes its own fields, and no two bits the same field. -/
theorem objWrite_eq (c : Cmd) (x : Obj) :
    let b := (u16 c 26).testBit
    objWrite c x = { x with
      mode := if b 0 then u8 c 28 else x.mode, trump := if b 1 then u8 c 29 else x.trump
      enable := if b 2 then (u16 c 30).testBit 0 else x.enable, fine := if b 2 then (u16 c 30).testBit 1 else x.fine
      gain := if b 3 then s32 c 32 else x.gain
      spread := if b 4 then u16 c 36 else x.spread, rolloff := if b 4 then u16 c 38 else x.rolloff
      aperture := if b 5 then u32 c 40 else x.aperture, refDist := if b 5 then u32 c 44 else x.refDist
      zone := if b 6 then u16 c 48 else x.zone } := by
  intro b
  unfold objWrite
  extract_lets set x0 x1 x2 x3 x4 x5
  have h0 : x0 = { x with mode := if b 0 then u8 c 28 else x.mode } := by unfold x0; split <;> rfl
  have h1 : x1 = { x0 with trump := if b 1 then u8 c 29 else x0.trump } := by unfold x1; split <;> rfl
  have h2 : x2 = { x1 with enable := if b 2 then (u16 c 30).testBit 0 else x1.enable
                           fine := if b 2 then (u16 c 30).testBit 1 else x1.fine } := by unfold x2; split <;> rfl
  have h3 : x3 = { x2 with gain := if b 3 then s32 c 32 else x2.gain } := by unfold x3; split <;> rfl
  have h4 : x4 = { x3 with spread := if b 4 then u16 c 36 else x3.spread
                           rolloff := if b 4 then u16 c 38 else x3.rolloff } := by unfold x4; split <;> rfl
  have h5 : x5 = { x4 with aperture := if b 5 then u32 c 40 else x4.aperture
                           refDist := if b 5 then u32 c 44 else x4.refDist } := by unfold x5; split <;> rfl
  have h6 : (if set.testBit 6 then { x5 with zone := u16 c 48 } else x5) = { x5 with zone := if b 6 then u16 c 48 else x5.zone } := by
    split <;> rfl
  clear_value x0 x1 x2 x3 x4 x5
  subst h0 h1 h2 h3 h4 h5
  exact h6

/-- OBJ_SET on arguments within Table 10.4: only the mark of a change of MODE or FINE comes on top of the write. -/
theorem objSet_writes (ho : u16 c 24 < objCount m) (h0 : 0 < u16 c 26) (h7 : u16 c 26 < 128) (hz : zeroAt c 50 14 = true)
    (hok : objSetOk c = true) : ∃ r, objSet c tk m = okM (setObj (u16 c 24) { objWrite c (objOf m (u16 c 24)) with refresh := r } m) := by
  have hargs : (decide (objCount m ≤ u16 c 24) || decide (u16 c 26 = 0) || decide (128 ≤ u16 c 26) || !zeroAt c 50 14 || !objSetOk c) = false := by
    simp [hz, hok, ho, h7, Nat.ne_of_gt h0]
  unfold objSet
  extract_lets o x y
  rw [if_neg (by rw [hargs]; exact Bool.false_ne_true)]
  split
  · exact ⟨y.refresh, rfl⟩
  · exact ⟨1, rfl⟩

theorem objSet_answers (ha : Awake s) (hp : Plain 0x0203 c s.m) (ho : u16 c 24 < objCount s.m) (h0 : 0 < u16 c 26) (h7 : u16 c 26 < 128)
    (hok : objSetOk c = true) : Answers (.objSet c) s (fun n =>
      (∃ r, objOf n (u16 c 24) = { objWrite c (objOf s.m (u16 c 24)) with refresh := r }) ∧
      (∀ o, o ≠ u16 c 24 → objOf n o = objOf s.m o) ∧ n.regs = s.m.regs ∧ n.dk = s.m.dk ∧ Completed 0x0203 stDone c s.m n) := by
  have hz : zeroAt c 50 14 = true := by
    obtain ⟨-, -, -, -, -, -, -, -, hrs, -⟩ := hp
    exact List.all_eq_true.mp hrs (50, 14) List.mem_cons_self
  obtain ⟨r, hn⟩ := objSet_writes (tk := nowTicket 0x0203 c s.m) (m := reserve c s.m) (by rwa [objCount_reserve]) h0 h7 hz hok
  refine plain_answers_final rfl ha hp (by decide) hn (completable_setObj ..) fun f hf hdone => ⟨⟨r, ?_⟩, fun o hne => ?_, ?_, ?_, hdone⟩
  · rw [hf, objOf_final, objOf_setObj_self, objOf_reserve]
  · rw [hf, objOf_final, objOf_setObj_ne _ _ hne, objOf_reserve]
  · exact hf ▸ (final_regs ..).trans (reserve_regs c s.m)
  · exact hf ▸ (final_dk ..).trans (reserve_dk c s.m)

end Parameters

/-- Settles O8: the object is the one that `objWrite_eq` describes, but for its mark of a change. -/
theorem objSetWrites : Obligations.ObjSetWrites := by
  intro c s ha hp ho h0 h7 hok
  obtain ⟨t, hexec, hpend, ⟨r, hobj⟩, hrest⟩ := objSet_answers ha hp ho h0 h7 hok
  refine ⟨t, hexec, hpend, ?_⟩
  rw [objWrite_eq] at hobj
  simp only [hobj, true_and]
  exact hrest

/-! TRAJ_PUSH (R280, R281). -/

section Pushes
variable {s : State} {m n : Mach} {c : Cmd} {tk : Ticket} {x : Obj} {deal : Nat}

/-- The time of a pushed point, as its payload gives it. -/
def pushTime (c : Cmd) : Nat := u64 c 32 * 65536 + u16 c 28

/-- The queue that a push meets: with REPLACE, without the points from its time on. -/
def pushQueue (c : Cmd) (x : Obj) : List Point := if (u8 c 26).testBit 0 then x.queue.filter (fun p => p.t < pushTime c) else x.queue

/-- A pushed point is late at a deal. -/
def pushLate (c : Cmd) (deal : Nat) : Bool := decide (pushTime c ≤ deal * 65536)

/-- The time that a pushed point takes in the queue. -/
def pushAt (c : Cmd) (deal : Nat) : Nat := if pushLate c deal then (deal + 1) * 65536 else pushTime c

/-- A push replaces a late point that was moved to the same boundary before it. -/
def pushReplaces (c : Cmd) (deal : Nat) (x : Obj) : Bool :=
  pushLate c deal && (pushQueue c x).getLast?.any (fun p => p.late && p.t == pushAt c deal)

/-- The points that stay before the pushed one. -/
def pushKept (c : Cmd) (deal : Nat) (x : Obj) : List Point :=
  if pushReplaces c deal x then (pushQueue c x).dropLast else pushQueue c x

/-- The object after a push. -/
def pushed (c : Cmd) (deal : Nat) (x : Obj) : Obj :=
  { x with queue := pushKept c deal x ++ [{ t := pushAt c deal, x := s32 c 40 * 256, y := s32 c 44 * 256, z := s32 c 48 * 256,
                                            jump := (u8 c 26).testBit 1, rest := (u8 c 26).testBit 2, late := pushLate c deal }] }

/-- The flag and the counts of a late point that replaces as many as given. -/
def lateMarked (replaced : Nat) (m : Mach) : Mach :=
  wr F.OBJ_FLAGS_LATE 1 (bump F.OBJ_LATE_DISC_COUNT replaced (bump F.OBJ_LATE_CNT_COUNT 1 m))

/-- What a late point leaves beside its queue: it is flagged, counted and reported. -/
def lateReported (c : Cmd) (replaced : Nat) (m : Mach) : Mach :=
  raise 0x0D 0x0D01 [(2, u16 c 24), (2, u16 c 28), (4, min (2 ^ 32 - 1) (m.deal - u64 c 32)), (8, u64 c 32)] (lateMarked replaced m)

/-- The machine after a push that is applied. -/
def afterPush (c : Cmd) (m : Mach) : Mach :=
  let x := objOf m (u16 c 24)
  onlyIf (pushLate c m.deal) (lateReported c (b2n (pushReplaces c m.deal x))) (setObj (u16 c 24) (pushed c m.deal x) m)

theorem trajPush_pushes (ho : u16 c 24 < objCount m) (hf : u8 c 26 < 8)
    (hlast : ∀ p, (pushKept c m.deal (objOf m (u16 c 24))).getLast? = some p → p.t < pushTime c)
    (hlen : (pushQueue c (objOf m (u16 c 24))).length < 16) : trajPush c tk m = okM (afterPush c m) := by
  have horder : ¬ (pushKept c m.deal (objOf m (u16 c 24))).getLast?.any (fun p => decide (pushTime c ≤ p.t)) = true := by
    intro h
    obtain ⟨p, hp, hle⟩ := (Option.any_eq_true ..).mp h
    exact Nat.not_le.mpr (hlast p hp) (of_decide_eq_true hle)
  unfold trajPush
  extract_lets o fl t x q newest late at_ disc kept pt m1
  have hargs : ¬ (decide (objCount m ≤ o) || decide (8 ≤ fl) || kept.getLast?.any (fun p => decide (t ≤ p.t))) = true := by
    rw [Bool.or_eq_true, Bool.or_eq_true, decide_eq_true_eq, decide_eq_true_eq, not_or, not_or]
    exact ⟨⟨Nat.not_le.mpr ho, Nat.not_le.mpr hf⟩, horder⟩
  rw [if_neg hargs, if_neg (Nat.not_le.mpr (show q.length < 16 from hlen))]
  rfl

/-- A counter that holds at its greatest value. -/
theorem rd_bump_saturates (f : Fld) (k : Nat) (m : Mach) : rd (bump f k m) f = min (2 ^ f.width - 1) (rd m f + k) := by
  rw [rd_bump_self]
  have := Nat.two_pow_pos f.width
  exact Nat.mod_eq_of_lt (by omega)

theorem completable_lateMarked (replaced : Nat) (m : Mach) : Completable m (lateMarked replaced m) :=
  ((completable_bump 1 m (by decide)).trans (completable_bump replaced _ (by decide))).trans (completable_wr 1 _ (by decide))

theorem completable_lateReported (c : Cmd) (replaced : Nat) (m : Mach) : Completable m (lateReported c replaced m) :=
  (completable_lateMarked ..).trans (completable_raise ..)

theorem lateReported_reported (c : Cmd) (replaced : Nat) (m : Mach) : Reported 0x0D 0x0D01 m (lateReported c replaced m) :=
  (completable_lateMarked ..).events.reported

theorem lateReported_counts (c : Cmd) (replaced : Nat) (m : Mach) :
    let n := lateReported c replaced m
    rd n F.OBJ_FLAGS_LATE = 1 ∧
    rd n F.OBJ_LATE_CNT_COUNT = min (2 ^ F.OBJ_LATE_CNT_COUNT.width - 1) (rd m F.OBJ_LATE_CNT_COUNT + 1) ∧
    rd n F.OBJ_LATE_DISC_COUNT = min (2 ^ F.OBJ_LATE_DISC_COUNT.width - 1) (rd m F.OBJ_LATE_DISC_COUNT + replaced) := by
  refine ⟨?_, ?_, ?_⟩ <;> rw [lateReported, rd_raise _ _ _ _ _ (by decide), lateMarked]
  · rw [rd_wr_self]
    rfl
  · rw [rd_wr_ne _ _ _ _ (by decide), rd_bump_ne _ _ _ _ (by decide), rd_bump_saturates]
  · rw [rd_wr_ne _ _ _ _ (by decide), rd_bump_saturates, rd_bump_ne _ _ _ _ (by decide)]

theorem completable_afterPush (c : Cmd) (m : Mach) : Completable m (afterPush c m) :=
  (completable_setObj ..).trans (completable_onlyIf _ (completable_lateReported ..))

theorem afterPush_objs (c : Cmd) (m : Mach) :
    (afterPush c m).objs = (setObj (u16 c 24) (pushed c m.deal (objOf m (u16 c 24))) m).objs := onlyIf_keep (·.objs) _ _ _ (raise_objs ..)

theorem afterPush_inTime (h : pushLate c m.deal = false) : (afterPush c m).regs = m.regs := by
  simp only [afterPush, h, onlyIf_false]
  rfl

theorem afterPush_late (h : pushLate c m.deal = true) :
    let n := afterPush c m
    (rd n F.OBJ_FLAGS_LATE = 1 ∧
      rd n F.OBJ_LATE_CNT_COUNT = min (2 ^ F.OBJ_LATE_CNT_COUNT.width - 1) (rd m F.OBJ_LATE_CNT_COUNT + 1) ∧
      rd n F.OBJ_LATE_DISC_COUNT = min (2 ^ F.OBJ_LATE_DISC_COUNT.width - 1)
        (rd m F.OBJ_LATE_DISC_COUNT + b2n (pushReplaces c m.deal (objOf m (u16 c 24))))) ∧
    Reported 0x0D 0x0D01 m n := by
  simp only [afterPush, h, onlyIf_true]
  exact ⟨lateReported_counts .., reported_since (completable_setObj ..).events (lateReported_reported c _ _)⟩

end Pushes

/-- Settles O9, by the point's lateness. -/
theorem trajPushAddsPoint : Obligations.TrajPushAddsPoint := by
  intro c s ha hp ho hf t x q late at_ disc kept hlast hlen
  let r := reserve c s.m
  have hobj : objOf r (u16 c 24) = x := objOf_reserve
  have hdeal : r.deal = s.m.deal := reserve_deal c s.m
  have hn : trajPush c (nowTicket 0x0201 c s.m) r = okM (afterPush c r) :=
    trajPush_pushes (by rwa [objCount_reserve]) hf (by rw [hobj, hdeal]; exact hlast) (by rw [hobj]; exact hlen)
  refine plain_answers_final rfl ha hp (by decide) hn (completable_afterPush c r) fun f hend hdone =>
    ⟨?_, fun o hne => ?_, fun hin => ?_, fun hlate => ?_, hdone⟩
  · rw [hend, objOf_final, objOf_congr (afterPush_objs c r), objOf_setObj_self, hobj, hdeal]
    rfl
  · rw [hend, objOf_final, objOf_congr (afterPush_objs c r), objOf_setObj_ne _ _ hne, objOf_reserve]
  · have hregs : f.regs = s.m.regs := by rw [hend, final_regs, afterPush_inTime (hdeal ▸ hin), reserve_regs]
    exact ⟨rd_congr _ _ _ hregs, rd_congr _ _ _ hregs, rd_congr _ _ _ hregs⟩
  · obtain ⟨⟨hflag, hcount, hdisc⟩, hreported⟩ := afterPush_late (c := c) (m := r) (hdeal ▸ hlate)
    have hkeep : ∀ g, rd f g = rd (afterPush c r) g := fun g => rd_congr _ _ g (by rw [hend, final_regs])
    have hbefore : ∀ g, rd r g = rd s.m g := fun g => rd_congr _ _ g (reserve_regs c s.m)
    rw [hobj, hdeal, hbefore] at hdisc
    rw [hbefore] at hcount
    refine ⟨(hkeep _).trans hflag, (hkeep _).trans hcount, (hkeep _).trans hdisc, ?_⟩
    rw [hend]
    exact reported_then _ _ _ _ _ (reported_since (completable_reserve c s.m).events hreported) (completable_final ..).events.out

/-! TRAJ_CLEAR (R283). -/

section Clears
variable {s : State} {m : Mach} {c : Cmd} {tk : Ticket} {mode o deal : Nat} {x : Obj}

/-- An object after the clear of its queue at a deal. -/
def trajCleared (mode deal : Nat) (x : Obj) : Obj :=
  let hold : List Point :=
    if mode = 0 && x.state != 0 then [{ t := deal * 65536, x := x.x, y := x.y, z := x.z, jump := true, hold := true }] else []
  { x with queue := hold, state := if mode = 0 then x.state else 0 }

theorem clearOne_eq (mode o : Nat) (m : Mach) : clearOne mode o m = setObj o (trajCleared mode m.deal (objOf m o)) m := rfl

theorem trajCleared_default (mode deal : Nat) : trajCleared mode deal {} = {} := by simp [trajCleared]

theorem trajCleared_trajCleared (mode deal : Nat) (x : Obj) : trajCleared mode deal (trajCleared mode deal x) = trajCleared mode deal x := by
  by_cases h : mode = 0 <;> simp [trajCleared, h]

theorem trajCleared_unplaces (deal : Nat) (x : Obj) : trajCleared 1 deal x = { x with queue := [], state := 0 } := rfl

theorem trajCleared_unplaced (h : x.state = 0) : trajCleared 0 deal x = { x with queue := [] } := by simp [trajCleared, h]

theorem trajCleared_holds (h : x.state ≠ 0) : trajCleared 0 deal x =
    { x with queue := [{ t := deal * 65536, x := x.x, y := x.y, z := x.z, jump := true, hold := true }] } := by simp [trajCleared, h]

theorem completable_clearOne (mode o : Nat) (m : Mach) : Completable m (clearOne mode o m) := completable_setObj ..

/-- A loop of clears, which may meet an object more than once. -/
theorem objOf_forEach_clearOne (l : List Nat) (m : Mach) :
    objOf (forEach l (clearOne mode) m) o = if o ∈ l then trajCleared mode m.deal (objOf m o) else objOf m o := by
  induction l generalizing m with
  | nil => rfl
  | cons a l ih =>
    rw [forEach_cons, ih, (completable_clearOne mode a m).deal, clearOne_eq]
    by_cases hoa : o = a
    · subst hoa
      rw [objOf_setObj_self, trajCleared_trajCleared, ite_self, if_pos List.mem_cons_self]
    · simp only [objOf_setObj_ne _ _ hoa, List.mem_cons, hoa, false_or]

/-- A clear of every listed object clears every object: one that is not listed is at its reset value. -/
theorem objOf_clearAll (m : Mach) : objOf (forEach (m.objs.map Prod.fst) (clearOne mode) m) o = trajCleared mode m.deal (objOf m o) := by
  rw [objOf_forEach_clearOne]
  split
  · rfl
  · next h => rw [objOf_eq_default h, trajCleared_default]

/-- What a clear of one object, or of all, leaves: the named objects cleared, the others and the registers kept. -/
structure SceneCleared (c : Cmd) (m n : Mach) : Prop where
  named : ∀ o, o = u16 c 24 ∨ u16 c 24 = 0xFFFF → objOf n o = trajCleared (u8 c 26) m.deal (objOf m o)
  others : u16 c 24 ≠ 0xFFFF → ∀ o, o ≠ u16 c 24 → objOf n o = objOf m o
  regs : n.regs = m.regs

theorem trajClear_clears (hm : u8 c 26 ≤ 1) (ho : u16 c 24 < objCount m ∨ u16 c 24 = 0xFFFF) :
    ∃ n, trajClear c tk m = okM n ∧ Completable m n ∧ SceneCleared c m n := by
  have hargs : ¬ (decide (1 < u8 c 26) || (decide (objCount m ≤ u16 c 24) && u16 c 24 != 0xFFFF)) = true := by
    simp only [Bool.or_eq_true, Bool.and_eq_true, decide_eq_true_eq, bne_iff_ne]
    omega
  unfold trajClear
  extract_lets o mode
  rw [if_neg hargs]
  by_cases hall : o = 0xFFFF
  · exact ⟨_, if_pos hall, completable_forEach (completable_clearOne mode) m, fun _ _ => objOf_clearAll m, absurd hall,
      forEach_keep (·.regs) _ (clearOne mode) (fun _ _ => rfl) m⟩
  · exact ⟨_, if_neg hall, completable_clearOne .., fun k hk => hk.resolve_right hall ▸ objOf_setObj_self .., fun _ k hk =>
      objOf_setObj_ne _ _ hk, rfl⟩

theorem trajClear_answers (ha : Awake s) (hp : Plain 0x0202 c s.m) (hm : u8 c 26 ≤ 1) (ho : u16 c 24 < objCount s.m ∨ u16 c 24 = 0xFFFF) :
    Answers (.trajClear c) s (fun n => SceneCleared c s.m n ∧ Completed 0x0202 stDone c s.m n) := by
  obtain ⟨n, hn, hkept, hnamed, hothers, hregs⟩ :=
    trajClear_clears (tk := nowTicket 0x0202 c s.m) (m := reserve c s.m) hm (by rwa [objCount_reserve])
  refine plain_answers_final rfl ha hp (by decide) hn hkept fun f hf hdone => ⟨⟨fun o h => ?_, fun hone o h => ?_, ?_⟩, hdone⟩
  · rw [hf, objOf_final, hnamed o h, objOf_reserve, reserve_deal]
  · rw [hf, objOf_final, hothers hone o h, objOf_reserve]
  · rw [hf, final_regs, hregs, reserve_regs]

end Clears

/-- Settles O10: the three values of `trajCleared`. -/
theorem trajClearEmpties : Obligations.TrajClearEmpties := by
  intro c s ha hp hm ho
  obtain ⟨t, hexec, hpend, ⟨hnamed, hothers, hregs⟩, hdone⟩ := trajClear_answers ha hp hm ho
  refine ⟨t, hexec, hpend, fun o h => ⟨fun h1 => ?_, fun h0 hs => ?_, fun h0 hs => ?_⟩, hothers, hregs, hdone⟩
  · rw [hnamed o h, h1, trajCleared_unplaces]
  · rw [hnamed o h, h0, trajCleared_unplaced hs]
  · rw [hnamed o h, h0, trajCleared_holds hs]

end Sys2Proof.Machine
end

section
/-! MEASURE_RUN and the end of a measurement (12 R340, R342). -/
namespace Sys2Proof.Machine

/-! Result data written after changes that keep their route. -/

section Results
variable {m n : Mach} {tk : Ticket} {st addr q : Nat} {res : Pay}

theorem finalWith_ring_emit (hq : tk.src = .ring q) (hl : live tk n = true) (hres : res ≠ []) :
    finalWith tk st addr res n = final tk st (emit (.dma addr res) n) := by
  simp [finalWith, hq, hl, hres, emit]

theorem completable_finalWith (tk : Ticket) (st addr : Nat) (res : Pay) (m : Mach) : Completable m (finalWith tk st addr res m) := by
  unfold finalWith
  split
  · refine .trans ?_ (completable_final ..)
    split
    · exact completable_emit ..
    · exact .refl m
  · exact completable_completeWith m

/-- Result data that can still be written leave by DMA, and the final completion after them. -/
theorem Completable.newOut_finalWith (h : Completable m n) (hq : tk.src = .ring q) (hl : Machine.live tk m = true) (hres : res ≠ []) :
    NewOut m (finalWith tk st addr res n) (.dma addr res) ∧
      ∃ ring idx, NewOut m (finalWith tk st addr res n) (.completion ring idx tk.tag tk.op st m.deal) := by
  rw [finalWith_ring_emit hq ((h.live tk).trans hl) hres]
  have hdma : NewOut m (emit (.dma addr res) n) (.dma addr res) := newOut_since h.events.out ⟨[_], rfl, List.mem_singleton_self _⟩
  exact ⟨newOut_mono _ _ _ _ hdma (completable_final ..).events.out, (h.trans (completable_emit ..)).newOut_final hq hl⟩

end Results

/-- The machine with its measurement replaced and shown in COR_MEAS_STAT. -/
def measShown (x : Meas) (m : Mach) : Mach := showMeas (setCor { m.cor with meas := some x } m)

/-- The measurement that MEASURE_RUN starts. -/
def measStarted (c : Cmd) (tk : Ticket) (m : Mach) : Meas :=
  { h := ⟨c, { tk with interim := true }⟩, ents := measEnts c, mics := measMics c, blocks := pickBlocks (measBlocks c) (usedBlocks m) }

/-- What the checks of MEASURE_RUN ask: the render engines do not stop, the operands are legal, the buffer is long enough and can be read and
written, no measurement holds blocks, and the pool has room (R339, R340; 17 R465). -/
structure MeasReady (c : Cmd) (m : Mach) : Prop where
  going : renderStopping m = none
  args : measArgsOk c m = true
  len : measBufLen c ≤ bufLen c
  read : bufOk c false m = true
  write : bufOk c true m = true
  lists : measListsOk c m = true
  idle : m.cor.meas = none
  room : measBlocks c ≤ freeBlocks m

section Measurement
variable {s : State} {m : Mach} {c : Cmd} {tk : Ticket} {x : Meas}

theorem measShown_eq (x : Meas) (m : Mach) : measShown x m =
    wr F.COR_MEAS_STAT_STATE x.st (wr F.COR_MEAS_STAT_OUTPUT (if x.st = 1 then x.pos else 0) (setCor { m.cor with meas := some x } m)) := rfl

theorem rd_measShown (hx : x.st < 4) (m : Mach) : rd (measShown x m) F.COR_MEAS_STAT_STATE = x.st := by
  rw [measShown_eq, rd_wr_self]
  exact Nat.mod_eq_of_lt hx

theorem completable_measShown (x : Meas) (m : Mach) : Completable m (measShown x m) := by
  have hset : Completable m (setCor { m.cor with meas := some x } m) := ⟨.of_eq rfl rfl rfl, rfl⟩
  exact hset.trans ((completable_wr _ _ (by decide : _ ≠ fkey F.COR_MEAS_STAT_OUTPUT 0 0)).trans (completable_wr _ _ (by decide)))

theorem measReady_reserve (h : MeasReady c m) : MeasReady c (reserve c m) := by
  unfold reserve
  split
  · exact ⟨h.going, h.args, h.len, h.read, h.write, h.lists, h.idle, h.room⟩
  · exact h

theorem usedBlocks_reserve : usedBlocks (reserve c m) = usedBlocks m := by simp only [usedBlocks, reserve_rend, reserve_cor]

/-- The machine after a MEASURE_RUN that is taken: the interim completion, then the blocks, then the excitation. -/
def measTaken (c : Cmd) (tk : Ticket) (m : Mach) : Mach :=
  let x := measStarted c tk m
  measShown x (setRend { m.rend with allocs := m.rend.allocs + x.blocks.length } (interim tk stPending m.deal m))

theorem measureRun_starts (h : MeasReady c m) : measureRun c tk m = (measTaken c tk m, { st := none }) := by
  obtain ⟨hgoing, hargs, hlen, hread, hwrite, hlists, hidle, hroom⟩ := h
  have hstop : ¬ (renderStopping m).isSome = true := by simp [hgoing]
  have hbad : ¬ (!measArgsOk c m || decide (bufLen c < measBufLen c) || !bufOk c false m || !bufOk c true m || !measListsOk c m) = true := by
    simp [hargs, hlen, hread, hwrite, hlists]
  have hfull : ¬ (m.cor.meas.isSome || decide (freeBlocks m < measBlocks c)) = true := by simp [hidle, hroom]
  unfold measureRun
  rw [if_neg hstop, if_neg hbad, if_neg hfull]
  simp only [interim_rend]
  rfl

theorem measTaken_out (c : Cmd) (tk : Ticket) (m : Mach) : (measTaken c tk m).out = (interim tk stPending m.deal m).out := rfl

/-- What is taken and shown after the interim completion leaves it written. -/
theorem completed_measTaken (c : Cmd) (m : Mach) :
    Completed 0x0302 stPending c m (measTaken c (nowTicket 0x0302 c m) (reserve c m)) := by
  intro hr q hq
  obtain ⟨ring, idx, hout⟩ := (completable_reserve c m).completed_interim (op := 0x0302) (st := stPending) hr q hq
  exact ⟨ring, idx, newOut_mono _ _ _ _ hout ⟨[], by rw [measTaken_out, reserve_deal]; rfl⟩⟩

theorem measureRun_answers (ha : Awake s) (hp : Plain 0x0302 c s.m) (h : MeasReady c s.m) :
    Answers (.measureRun c) s (fun n =>
      let x := measStarted c (nowTicket 0x0302 c s.m) s.m
      n.cor.meas = some x ∧ n.rend.allocs = s.m.rend.allocs + x.blocks.length ∧
      rd n F.COR_MEAS_STAT_STATE = 1 ∧ n.dk = s.m.dk ∧ Completed 0x0302 stPending c s.m n) := by
  refine answers_mach _ s _ _ rfl ha ?_
  rw [plain_silent 0x0302 measureRun c s.m _ hp (fun h => absurd h (by decide)) (measureRun_starts (measReady_reserve h))]
  have hx : measStarted c (nowTicket 0x0302 c s.m) (reserve c s.m) = measStarted c (nowTicket 0x0302 c s.m) s.m := by
    rw [measStarted, usedBlocks_reserve, measStarted]
  refine ⟨?_, ?_, rd_measShown (by decide : 1 < 4) _, ?_, completed_measTaken c s.m⟩
  · rw [← hx]
    rfl
  · rw [← hx, ← reserve_rend c s.m]
    rfl
  · exact (interim_dk ..).trans (reserve_dk c s.m)

/-! The end (R342). -/

/-- What the end of a measurement writes to the host buffer: how it ended, the count, and the responses. -/
def measResults (m : Mach) (x : Meas) : Pay := [(4, x.result), (4, x.done * x.mics.length), (8, 0)] ++ measResponses m x

/-- The machine with the measurement's free values taken and its state written. -/
def measWritten (x : Meas) (m : Mach) : Mach := useFresh (measFresh x) (measShown { x with st := 3 } m)

/-- The machine after the results of a measurement and its final completion. -/
def measCompleted (x : Meas) (m : Mach) : Mach := finalWith x.h.tk stDone (bufAddr x.h.cmd + 48) (measResults m x) (measWritten x m)

theorem measureDone_eq (hx : m.cor.meas = some x) (h2 : x.st = 2) : measureDone m =
    raise 0x0F 0x0F03 [(4, x.result), (4, x.done * x.mics.length), (4, x.h.tk.tag), (2, x.blocks.length), (2, 0)] (measCompleted x m) := by
  unfold measureDone
  rw [hx]
  exact if_neg (not_not_intro h2)

theorem completable_measWritten (x : Meas) (m : Mach) : Completable m (measWritten x m) :=
  (completable_measShown ..).trans (completable_useFresh ..)

theorem measureDone_answers (ha : Awake s) (hx : s.m.cor.meas = some x) (h2 : x.st = 2) :
    Answers .measureDone s (fun n => n.cor.meas = some { x with st := 3 } ∧ rd n F.COR_MEAS_STAT_STATE = 3 ∧ Reported 0x0F 0x0F03 s.m n ∧
      (∀ q, x.h.tk.src = .ring q → live x.h.tk s.m = true →
        NewOut s.m n (.dma (bufAddr x.h.cmd + 48) (measResults s.m x)) ∧
        ∃ ring idx, NewOut s.m n (.completion ring idx x.h.tk.tag x.h.tk.op stDone s.m.deal))) := by
  refine answers_mach _ s measureDone _ rfl ha ?_
  rw [measureDone_eq hx h2]
  have hwritten := completable_measWritten x s.m
  refine ⟨?_, ?_, (hwritten.trans (completable_finalWith ..)).events.reported, fun q hq hl => ?_⟩
  · rw [raise_cor, measCompleted, finalWith_cor]
    rfl
  · rw [rd_raise _ _ _ _ _ (by decide), measCompleted, rd_congr _ _ _ (finalWith_regs ..)]
    exact rd_measShown (x := { x with st := 3 }) (by decide : 3 < 4) s.m
  · obtain ⟨hdma, ring, idx, hdone⟩ := hwritten.newOut_finalWith (st := stDone) (addr := bufAddr x.h.cmd + 48) (res := measResults s.m x) hq hl
      (List.cons_ne_nil _ _)
    exact ⟨newOut_mono _ _ _ _ hdma (raise_out ..), ring, idx, newOut_mono _ _ _ _ hdone (raise_out ..)⟩

end Measurement

end Sys2Proof.Machine
end

section
/-! The intercom channels (12 R346-R348). -/
namespace Sys2Proof.Machine

/-- The fields that each channel has of its own. -/
def icomChanFlds : List Fld := [F.AEC_CH_STAT_CONVERGED, F.AEC_CH_STAT_ERLE, F.AEC_CH_DIV_COUNT]

/-- The fields of the unit, and the count of discarded events. -/
def icomUnitFlds : List Fld := [F.AEC_CONN_CHANNEL, F.AEC_DORMANT_CHANNEL, F.AEC_TALK_CHANNEL, F.AEC_FLAGS_DIVERGED, F.HIF_EV_DISCARD_COUNT]

/-- The machine with a channel replaced, its filter zeroed, and its state shown and reported. -/
def icomRenewed (k state : Nat) (x : Icom) (m : Mach) : Mach := icomEvent k state 0 (showIcom (icomClear k (setIcom k x m)))

/-- The machine with near-end speech started on a channel or ended, shown and reported. -/
def icomTalking (k phase : Nat) (b : Bool) (m : Mach) : Mach := talkEvent k phase (showIcom (setIcom k { icomOf m k with talk := b } m))

/-- The machine after an ICOM_CONNECT that is legal (R346). -/
def icomAfter (c : Cmd) (m : Mach) : Mach :=
  let k := u8 c 24
  if u8 c 25 = 1 then icomOpen k c m
  else if u8 c 25 = 2 then setIcom k (icomSet c (icomOf m k)) m
  else if (icomOf m k).conn then icomRenewed k 0 {} m
  else m

section Channels
variable {s : State} {m n : Mach} {c : Cmd} {tk : Ticket} {k state erle : Nat} {x : Icom} {f g : Fld}

/-! A channel read back. -/

theorem icomOf_congr (h : n.icom = m.icom) : icomOf n k = icomOf m k := by rw [icomOf, icomOf, h]
theorem icomOf_setIcom_self (x : Icom) (m : Mach) : icomOf (setIcom k x m) k = x := mget_mset_self ..
theorem icomOf_reserve : icomOf (reserve c m) k = icomOf m k := icomOf_congr (reserve_icom c m)
theorem icomServed_reserve : icomServed (reserve c m) = icomServed m := by rw [icomServed, icomServed, reserve_frm]
theorem icomNode_reserve : icomNode (reserve c m) k = icomNode m k := by rw [icomNode, icomNode, reserve_dk]
theorem icomBits_congr (p : Icom → Bool) (h : n.icom = m.icom) : icomBits p n = icomBits p m := by rw [icomBits, icomBits, h]

/-! The fields of the channels. -/

theorem icomChan_apart : ∀ k < 32, ∀ f ∈ icomChanFlds, ∀ g ∈ icomUnitFlds, fkey f k 0 ≠ fkey g 0 0 := by decide

theorem icomChan_distinct : ∀ k < 32, ∀ f ∈ icomChanFlds, ∀ g ∈ icomChanFlds, f ≠ g → fkey f k 0 ≠ fkey g k 0 := by decide

theorem icomChan_running : ∀ f ∈ icomChanFlds, ∀ k < f.n1, fkey F.HIF_STATUS_RUNNING 0 0 ≠ fkey f k 0 := by decide

theorem rdi_icomWr (hk : k < 32) (hf : f ∈ icomChanFlds) (hg : g ∈ icomUnitFlds) (v : Nat) (m : Mach) : rdi (wr g v m) f k = rdi m f k :=
  rdi_wr_ne _ _ _ _ _ (icomChan_apart k hk f hf g hg)

theorem rdi_icomRaise (hk : k < 32) (hf : f ∈ icomChanFlds) (src code : Nat) (pay : Pay) (m : Mach) :
    rdi (raise src code pay m) f k = rdi m f k :=
  rdi_raise _ _ _ _ _ _ (icomChan_apart k hk f hf _ (by decide))

theorem rdi_showIcom (hk : k < 32) (hf : f ∈ icomChanFlds) (m : Mach) : rdi (showIcom m) f k = rdi m f k := by
  rw [showIcom, rdi_icomWr hk hf (by decide), rdi_icomWr hk hf (by decide), rdi_icomWr hk hf (by decide)]

theorem icomClear_zeroes (hk : k < 32) (m : Mach) :
    rdi (icomClear k m) F.AEC_CH_STAT_CONVERGED k = 0 ∧ rdi (icomClear k m) F.AEC_CH_STAT_ERLE k = 0 := by
  constructor
  · exact rdi_wri_self _ _ _ _ hk
  · rw [icomClear, rdi_wri_ne _ _ _ _ _ _ (icomChan_distinct k hk _ (by decide) _ (by decide) (by decide))]
    exact rdi_wri_self _ _ _ _ hk

theorem rd_talk_showIcom (m : Mach) : rd (showIcom m) F.AEC_TALK_CHANNEL = icomBits (fun x => x.talk) m % 2 ^ 32 := by
  rw [showIcom, rd_wr_ne _ _ _ _ (by decide), rd_wr_ne _ _ _ _ (by decide), rd_wr_self]
  rfl

/-! What the changes of a channel leave for their events and completions. -/

theorem completable_icomWri (hf : f ∈ icomChanFlds) (i v : Nat) (m : Mach) : Completable m (wri f i v m) :=
  ⟨eventsKept_wri i v m (icomChan_running f hf), wri_pace ..⟩

theorem completable_setIcom (k : Nat) (x : Icom) (m : Mach) : Completable m (setIcom k x m) := ⟨.of_eq rfl rfl rfl, rfl⟩

theorem completable_icomClear (k : Nat) (m : Mach) : Completable m (icomClear k m) :=
  (completable_icomWri (by decide) ..).trans (completable_icomWri (by decide) ..)

theorem completable_showIcom (m : Mach) : Completable m (showIcom m) :=
  ((completable_wr _ _ (by decide : _ ≠ fkey F.AEC_TALK_CHANNEL 0 0)).trans
    (completable_wr _ _ (by decide : _ ≠ fkey F.AEC_DORMANT_CHANNEL 0 0))).trans (completable_wr _ _ (by decide))

/-! A channel renewed: connected or disconnected (R346). -/

theorem completable_icomRenewed (k state : Nat) (x : Icom) (m : Mach) : Completable m (icomRenewed k state x m) :=
  (((completable_setIcom ..).trans (completable_icomClear ..)).trans (completable_showIcom _)).trans (completable_raise ..)

theorem icomRenewed_reported (k state : Nat) (x : Icom) (m : Mach) : Reported 0x10 0x1001 m (icomRenewed k state x m) :=
  (((completable_setIcom ..).trans (completable_icomClear ..)).trans (completable_showIcom _)).events.reported

theorem icomOf_icomRenewed (state : Nat) (x : Icom) (m : Mach) : icomOf (icomRenewed k state x m) k = x :=
  (icomOf_congr (raise_icom ..)).trans (icomOf_setIcom_self x m)

theorem icomRenewed_zeroes (hk : k < 32) (state : Nat) (x : Icom) (m : Mach) :
    rdi (icomRenewed k state x m) F.AEC_CH_STAT_CONVERGED k = 0 ∧ rdi (icomRenewed k state x m) F.AEC_CH_STAT_ERLE k = 0 := by
  have hread : ∀ f ∈ icomChanFlds, rdi (icomRenewed k state x m) f k = rdi (icomClear k (setIcom k x m)) f k := fun f hf =>
    (rdi_icomRaise hk hf ..).trans (rdi_showIcom hk hf _)
  rw [hread _ (by decide), hread _ (by decide)]
  exact icomClear_zeroes hk _

/-! ICOM_CONNECT (R346). -/

theorem icomConnect_legal (hok : icomArgsOk c = true) (hk : u8 c 24 < icomServed m) (hc : u8 c 25 = 2 → (icomOf m (u8 c 24)).conn = true) :
    icomConnect c tk m = okM (icomAfter c m) := by
  have hargs : ¬ (!icomArgsOk c || decide (icomServed m ≤ u8 c 24) || (u8 c 25 == 2 && !(icomOf m (u8 c 24)).conn)) = true := by
    simp only [hok, Bool.not_true, Bool.false_or, Bool.or_eq_true, Bool.and_eq_true, decide_eq_true_eq, beq_iff_eq, not_or, not_and]
    exact ⟨Nat.not_le.mpr hk, fun h2 => by simp [hc h2]⟩
  simp only [icomConnect, if_neg hargs, icomAfter, apply_ite okM]
  rfl

/-- A legal ICOM_CONNECT whose effect is n: it leaves the channels and the registers of its effect, reports what its effect reports, and
completes DONE. -/
theorem icomConnect_answers {P : Mach → Prop} (ha : Awake s) (hp : Plain 0x0801 c s.m) (hok : icomArgsOk c = true) (hk : u8 c 24 < icomServed s.m)
    (hc : u8 c 25 = 2 → (icomOf s.m (u8 c 24)).conn = true) (hn : icomAfter c (reserve c s.m) = n) (hkept : Completable (reserve c s.m) n)
    (hP : ∀ f, f.icom = n.icom → f.regs = n.regs → (Reported 0x10 0x1001 (reserve c s.m) n → Reported 0x10 0x1001 s.m f) →
      Completed 0x0801 stDone c s.m f → P f) : Answers (.icomConnect c) s P := by
  have heff : icomConnect c (nowTicket 0x0801 c s.m) (reserve c s.m) = okM n :=
    hn ▸ icomConnect_legal hok (by rwa [icomServed_reserve]) (by rwa [icomOf_reserve])
  refine plain_answers_final rfl ha hp (by decide) heff hkept fun f hf hdone => hP f ?_ ?_ (fun hrep => ?_) hdone
  · rw [hf, final_icom]
  · rw [hf, final_regs]
  · rw [hf]
    exact reported_then _ _ _ _ _ (reported_since (completable_reserve c s.m).events hrep) (completable_final ..).events.out

/-- A channel that a legal ICOM_CONNECT connects or disconnects. -/
theorem icomConnect_renews (ha : Awake s) (hp : Plain 0x0801 c s.m) (hok : icomArgsOk c = true) (hk : u8 c 24 < icomServed s.m) (h32 : u8 c 24 < 32)
    (hc : u8 c 25 ≠ 2) (hn : icomAfter c (reserve c s.m) = icomRenewed (u8 c 24) state x (reserve c s.m)) :
    Answers (.icomConnect c) s (fun n => icomOf n (u8 c 24) = x ∧ rdi n F.AEC_CH_STAT_CONVERGED (u8 c 24) = 0 ∧
      rdi n F.AEC_CH_STAT_ERLE (u8 c 24) = 0 ∧ Reported 0x10 0x1001 s.m n ∧ Completed 0x0801 stDone c s.m n) := by
  refine icomConnect_answers ha hp hok hk (absurd · hc) hn (completable_icomRenewed ..) fun f hicom hregs hrep hdone => ?_
  obtain ⟨hconv, herle⟩ := icomRenewed_zeroes h32 state x (reserve c s.m)
  exact ⟨(icomOf_congr hicom).trans (icomOf_icomRenewed ..), (rdi_congr _ _ _ _ hregs).trans hconv, (rdi_congr _ _ _ _ hregs).trans herle,
    hrep (icomRenewed_reported _ _ _ _), hdone⟩

theorem icomConnect_sets (ha : Awake s) (hp : Plain 0x0801 c s.m) (hok : icomArgsOk c = true) (hk : u8 c 24 < icomServed s.m) (h2 : u8 c 25 = 2)
    (hc : (icomOf s.m (u8 c 24)).conn = true) :
    Answers (.icomConnect c) s (fun n => icomOf n (u8 c 24) = icomSet c (icomOf s.m (u8 c 24)) ∧ n.regs = s.m.regs ∧
      Completed 0x0801 stDone c s.m n) := by
  have hn : icomAfter c (reserve c s.m) = setIcom (u8 c 24) (icomSet c (icomOf s.m (u8 c 24))) (reserve c s.m) := by
    simp only [icomAfter, h2, icomOf_reserve]
    rfl
  exact icomConnect_answers ha hp hok hk (fun _ => hc) hn (completable_setIcom ..) fun f hicom hregs _ hdone =>
    ⟨(icomOf_congr hicom).trans (icomOf_setIcom_self ..), hregs.trans (reserve_regs c s.m), hdone⟩

theorem icomConnect_idles (ha : Awake s) (hp : Plain 0x0801 c s.m) (hok : icomArgsOk c = true) (hk : u8 c 24 < icomServed s.m) (h0 : u8 c 25 = 0)
    (hc : (icomOf s.m (u8 c 24)).conn = false) :
    Answers (.icomConnect c) s (fun n => n.icom = s.m.icom ∧ n.regs = s.m.regs ∧ Completed 0x0801 stDone c s.m n) := by
  have hn : icomAfter c (reserve c s.m) = reserve c s.m := by
    simp only [icomAfter, h0, icomOf_reserve, hc]
    rfl
  exact icomConnect_answers ha hp hok hk (fun h2 => absurd (h0.symm.trans h2) (by decide)) hn (.refl _) fun f hicom hregs _ hdone =>
    ⟨hicom.trans (reserve_icom c s.m), hregs.trans (reserve_regs c s.m), hdone⟩

/-! Convergence and divergence (R347). -/

theorem icomConverged_answers (ha : Awake s) (hk : k < 32) (hr : icomRuns s.m k = true) (h200 : 200 ≤ erle)
    (hw : erle < 2 ^ F.AEC_CH_STAT_ERLE.width) :
    Answers (.icomConverged k erle) s (fun n => rdi n F.AEC_CH_STAT_CONVERGED k = 1 ∧ rdi n F.AEC_CH_STAT_ERLE k = erle ∧
      n.icom = s.m.icom ∧ Reported 0x10 0x1001 s.m n) := by
  have hcond : (icomRuns s.m k && decide (200 ≤ erle) && decide (erle < 2 ^ 16)) = true := by
    rw [hr, decide_eq_true h200, decide_eq_true (show erle < 2 ^ 16 from hw)]
    rfl
  refine answers_mach _ s (icomConverged k erle) _ rfl ha ?_
  rw [icomConverged, hcond, onlyIf_true, icomEvent]
  refine ⟨?_, ?_, raise_icom .., ((completable_icomWri (by decide) ..).trans (completable_icomWri (by decide) ..)).events.reported⟩
  · rw [rdi_icomRaise hk (by decide), rdi_wri_self _ _ _ _ hk]
    rfl
  · rw [rdi_icomRaise hk (by decide), rdi_wri_ne _ _ _ _ _ _ (icomChan_distinct k hk _ (by decide) _ (by decide) (by decide)),
      rdi_wri_self _ _ _ _ hk]
    exact Nat.mod_eq_of_lt hw

/-- The machine with a channel's filter zeroed, its divergence flagged and counted. -/
def icomReset (k : Nat) (m : Mach) : Mach := bumpi F.AEC_CH_DIV_COUNT k 1 (wr F.AEC_FLAGS_DIVERGED 1 (icomClear k m))

theorem icomDiverged_eq (hr : icomRuns m k = true) : icomDiverged k m =
    raise 0x10 0x1002 [(1, k), (3, 0), (4, rdi (icomReset k m) F.AEC_CH_DIV_COUNT k), (8, 0)] (icomReset k m) := by
  rw [icomDiverged, hr]
  rfl

theorem eventsKept_icomReset (k : Nat) (m : Mach) : EventsKept m (icomReset k m) :=
  ((completable_icomClear k m).events.trans (eventsKept_wr _ _ (by decide))).trans (eventsKept_bumpi _ _ _ (icomChan_running _ (by decide)))

theorem icomReset_shows (hk : k < 32) (m : Mach) :
    rdi (icomReset k m) F.AEC_CH_STAT_CONVERGED k = 0 ∧ rdi (icomReset k m) F.AEC_CH_STAT_ERLE k = 0 ∧
    rd (icomReset k m) F.AEC_FLAGS_DIVERGED = 1 ∧
    rdi (icomReset k m) F.AEC_CH_DIV_COUNT k = min (2 ^ F.AEC_CH_DIV_COUNT.width - 1) (rdi m F.AEC_CH_DIV_COUNT k + 1) := by
  have hread : ∀ f ∈ icomChanFlds, f ≠ F.AEC_CH_DIV_COUNT → rdi (icomReset k m) f k = rdi (icomClear k m) f k := fun f hf hne =>
    (rdi_bumpi_ne _ _ _ fun _ => icomChan_distinct k hk f hf _ (by decide) hne).trans (rdi_icomWr hk hf (by decide) _ _)
  have hcount : rdi (icomClear k m) F.AEC_CH_DIV_COUNT k = rdi m F.AEC_CH_DIV_COUNT k := by
    rw [icomClear, rdi_wri_ne _ _ _ _ _ _ (icomChan_distinct k hk _ (by decide) _ (by decide) (by decide)),
      rdi_wri_ne _ _ _ _ _ _ (icomChan_distinct k hk _ (by decide) _ (by decide) (by decide))]
  obtain ⟨hconv, herle⟩ := icomClear_zeroes hk m
  refine ⟨(hread _ (by decide) (by decide)).trans hconv, (hread _ (by decide) (by decide)).trans herle, ?_, ?_⟩
  · rw [icomReset, rd_bumpi_ne _ _ _ (by decide), rd_wr_self]
    rfl
  · rw [icomReset, rdi_bumpi_self hk, rdi_icomWr hk (by decide) (by decide), hcount]

theorem icomDiverged_answers (ha : Awake s) (hk : k < 32) (hr : icomRuns s.m k = true) :
    Answers (.icomDiverged k) s (fun n => rdi n F.AEC_CH_STAT_CONVERGED k = 0 ∧ rdi n F.AEC_CH_STAT_ERLE k = 0 ∧ rd n F.AEC_FLAGS_DIVERGED = 1 ∧
      rdi n F.AEC_CH_DIV_COUNT k = min (2 ^ F.AEC_CH_DIV_COUNT.width - 1) (rdi s.m F.AEC_CH_DIV_COUNT k + 1) ∧
      n.icom = s.m.icom ∧ Reported 0x10 0x1002 s.m n) := by
  refine answers_mach _ s (icomDiverged k) _ rfl ha ?_
  obtain ⟨hconv, herle, hflag, hcount⟩ := icomReset_shows hk s.m
  rw [icomDiverged_eq hr]
  exact ⟨(rdi_icomRaise hk (by decide) ..).trans hconv, (rdi_icomRaise hk (by decide) ..).trans herle,
    (rd_raise _ _ _ _ _ (by decide)).trans hflag, (rdi_icomRaise hk (by decide) ..).trans hcount, raise_icom ..,
    (eventsKept_icomReset k s.m).reported⟩

/-! Near-end speech (R348). -/

theorem icomTalking_shows (k phase : Nat) (b : Bool) (m : Mach) :
    let n := icomTalking k phase b m
    icomOf n k = { icomOf m k with talk := b } ∧ rd n F.AEC_TALK_CHANNEL = icomBits (fun x => x.talk) n % 2 ^ 32 ∧ Reported 0x10 0x1003 m n := by
  refine ⟨(icomOf_congr (raise_icom ..)).trans (icomOf_setIcom_self ..), ?_,
    ((completable_setIcom ..).trans (completable_showIcom _)).events.reported⟩
  rw [icomTalking, talkEvent, rd_raise _ _ _ _ _ (by decide), rd_talk_showIcom, icomBits_congr _ (raise_icom ..)]
  rfl

theorem icomTalk_answers (ha : Awake s) (hr : icomRuns s.m k = true) (ht : (icomOf s.m k).talk = false) :
    Answers (.icomTalk k) s (fun n => icomOf n k = { icomOf s.m k with talk := true } ∧
      rd n F.AEC_TALK_CHANNEL = icomBits (fun x => x.talk) n % 2 ^ 32 ∧ Reported 0x10 0x1003 s.m n) := by
  refine answers_mach _ s (icomTalk k) _ rfl ha ?_
  rw [icomTalk, hr, ht]
  exact icomTalking_shows k 0 true s.m

theorem duckHoldExpiry_answers (ha : Awake s) (ht : (icomOf s.m k).talk = true) :
    Answers (.duckHoldExpiry k) s (fun n => icomOf n k = { icomOf s.m k with talk := false } ∧
      rd n F.AEC_TALK_CHANNEL = icomBits (fun x => x.talk) n % 2 ^ 32 ∧ Reported 0x10 0x1003 s.m n) := by
  refine answers_mach _ s (duckHoldExpiry k) _ rfl ha ?_
  rw [duckHoldExpiry, ht]
  exact icomTalking_shows k 1 false s.m

end Channels

/-- The operations of ICOM_CONNECT: connect, change, disconnect, and disconnect what is not connected (R346). -/
theorem icomConnect_operates {s : State} {c : Cmd} (ha : Awake s) (hp : Plain 0x0801 c s.m) (hk : u8 c 24 < 32) (hok : icomArgsOk c = true)
    (hs : u8 c 24 < icomServed s.m) :
    let k := u8 c 24
    (u8 c 25 = 1 → Answers (.icomConnect c) s (fun n =>
      icomOf n k = { icomSet c (icomOf s.m k) with conn := true, dormant := !icomNode s.m k, talk := false, hold := none } ∧
      rdi n F.AEC_CH_STAT_CONVERGED k = 0 ∧ rdi n F.AEC_CH_STAT_ERLE k = 0 ∧ Reported 0x10 0x1001 s.m n ∧ Completed 0x0801 stDone c s.m n)) ∧
    (u8 c 25 = 2 → (icomOf s.m k).conn = true → Answers (.icomConnect c) s (fun n =>
      icomOf n k = icomSet c (icomOf s.m k) ∧ n.regs = s.m.regs ∧ Completed 0x0801 stDone c s.m n)) ∧
    (u8 c 25 = 0 → (icomOf s.m k).conn = true → Answers (.icomConnect c) s (fun n => icomOf n k = {} ∧
      rdi n F.AEC_CH_STAT_CONVERGED k = 0 ∧ rdi n F.AEC_CH_STAT_ERLE k = 0 ∧ Reported 0x10 0x1001 s.m n ∧ Completed 0x0801 stDone c s.m n)) ∧
    (u8 c 25 = 0 → (icomOf s.m k).conn = false → Answers (.icomConnect c) s (fun n => n.icom = s.m.icom ∧ n.regs = s.m.regs ∧
      Completed 0x0801 stDone c s.m n)) := by
  refine ⟨fun h1 => ?_, icomConnect_sets ha hp hok hs, fun h0 hc => ?_, icomConnect_idles ha hp hok hs⟩
  · refine icomConnect_renews (state := if !icomNode s.m (u8 c 24) then 2 else 1) ha hp hok hs hk (by rw [h1]; decide) ?_
    rw [icomAfter, if_pos h1, icomOpen, icomNode_reserve]
    rfl
  · refine icomConnect_renews (state := 0) ha hp hok hs hk (by rw [h0]; decide) ?_
    simp only [icomAfter, h0, icomOf_reserve, hc]
    rfl

/-- Settles O37, one lemma for each command and each step of a channel. -/
theorem measurementAndIntercom : Obligations.MeasurementAndIntercom := by
  refine ⟨fun s ha => ⟨fun c hp hgoing hargs hlen hread hwrite hlists hidle hroom => ?_, fun x => measureDone_answers ha⟩,
    fun k s ha hk => ⟨fun c hp hck hok hs => ?_, fun hr => ⟨fun erle => icomConverged_answers ha hk hr, icomDiverged_answers ha hk hr,
      icomTalk_answers ha hr⟩, duckHoldExpiry_answers ha⟩⟩
  · obtain ⟨t, hexec, hpend, hmeas, hallocs, hrest⟩ := measureRun_answers ha hp ⟨hgoing, hargs, hlen, hread, hwrite, hlists, hidle, hroom⟩
    exact ⟨t, hexec, hpend, ⟨_, hmeas, rfl, rfl, rfl, rfl, rfl, rfl, rfl, hallocs⟩, hrest⟩
  · subst hck
    exact icomConnect_operates ha hp hk hok hs

end Sys2Proof.Machine
end

section
/-! The queue: a step runs the front command (log 1), a run takes the commands in their order, and a held device ignores what does not reach it
(17 R467). -/
namespace Sys2Proof.Machine

/-- Settles O1. -/
theorem stepRunsFront : Obligations.StepRunsFront := fun _ _ _ => rfl

/-- Settles O2. -/
theorem emptyQueueIdles : Obligations.EmptyQueueIdles := fun _ => rfl

/-- What a command does to the machine does not depend on the queue behind it. -/
theorem exec_withQueue {c : Instr} {m n : Mach} {q : List Instr} (hc : Instr.wf c = true) (h : exec c ⟨m, q⟩ = .next ⟨n, q⟩) (p : List Instr) :
    exec c ⟨m, p⟩ = .next ⟨n, p⟩ := by
  cases c
  case registerWrite a v =>
    cases a with
    | bar off =>
      obtain ⟨ha, ho⟩ := bar_wf hc
      rw [exec_registerWrite_bar ha ho] at h ⊢
      cases h
      rfl
    | _ => cases h; rfl
  case rcRead a =>
    cases a with
    | bar off =>
      obtain ⟨ha, ho⟩ := bar_wf hc
      rw [exec_rcRead_bar ha ho] at h ⊢
      cases h
      rfl
    | _ => cases h; rfl
  all_goals
    cases h
    rfl

theorem applyAll_cons {c : Instr} {s t : State} (h : exec c s = .next t) (l : List Instr) : applyAll (c :: l) s = applyAll l t := by
  rw [applyAll, h]

theorem runSteps_cons {c : Instr} {m n : Mach} {q : List Instr} (h : exec c ⟨m, q⟩ = .next ⟨n, q⟩) (k : Nat) :
    runSteps (k + 1) ⟨m, c :: q⟩ = runSteps k ⟨n, q⟩ := by
  rw [runSteps, stepRunsFront, h]

/-- Settles O4, by induction on the commands in front. -/
theorem queueRunsInOrder : Obligations.QueueRunsInOrder := by
  intro l rest
  induction l with
  | nil => exact fun m _ => ⟨m, rfl, rfl⟩
  | cons c l ih =>
    intro m hl
    obtain ⟨hc, hrest⟩ := List.forall_mem_cons.mp hl
    obtain ⟨⟨n, q⟩, hn, rfl : q = rest⟩ := exec_next_of_wf c ⟨m, rest⟩ hc
    obtain ⟨t, happly, hrun⟩ := ih n hrest
    exact ⟨t, (applyAll_cons hn l).trans happly, (runSteps_cons (exec_withQueue hc hn (l ++ q)) l.length).trans hrun⟩

/-- Settles O6: each row but those that reach a held device acts through `onMach`. -/
theorem heldDeviceDoesNothing : Obligations.HeldDeviceDoesNothing := by
  intro c s cause h hc
  cases c
  case registerWrite | rcRead | sysPbootGo | pbootImageChecked | powerOn | resetNAssert | pwrgoodFall | extestSelect | extestRelease |
      resetRelease => cases hc
  case deckCut c => exact onMach_held (fun m => stepThree (hostRow 0x0102 deckCut c m)) s cause h
  case renderReset c => exact onMach_held (fun m => stepThree (hostRow 0x0E01 renderResetEff c m)) s cause h
  case refConfig c => exact onMach_held (fun m => selectRef (hostRow 0x0601 refConfig c m)) s cause h
  case leaveDrivesDrop => exact onMach_held (fun m => resetDue (leaveDrop m)) s cause h
  case kolicaFault => exact onMach_held (fun m => sysReset 5 (unitLost 5 m)) s cause h
  all_goals exact onMach_held _ s cause h

end Sys2Proof.Machine
end

section
/-! The frame of the model's operations: the pieces of the machine that an operation leaves as they are, its components and the blocks of BAR0.
`outside l m` is what a machine shows outside the pieces of `l`; an operation that touches pieces of `l` alone keeps it. -/
namespace Sys2Proof.Machine

/-- Every piece of one list is in another. -/
def covers (l ps : List Piece) : Bool := ps.all (l.contains ·)

/-- Whether a place of the register store lies in one of the 64 blocks, and in none that is listed. -/
def blockOutside (l : List Piece) (k : Nat) : Bool := decide (k / 32 / 4096 < 64) && !l.contains (.block (k / 32 / 4096))

/-- A component, or a fixed value where its piece is listed. -/
def unlessIn {α : Type} (l : List Piece) (p : Piece) (d x : α) : α := bif l.contains p then d else x

/-- What a machine shows outside the listed pieces. -/
def outside (l : List Piece) (m : Mach) : Mach × (Nat → Option Nat) :=
  ({ deal := unlessIn l .deal 0 m.deal, ticks := unlessIn l .ticks 0 m.ticks, regs := [], setup := unlessIn l .setup [] m.setup
     hif := unlessIn l .hif {} m.hif, fresh := unlessIn l .fresh 0 m.fresh, out := unlessIn l .out [] m.out, clk := unlessIn l .clk {} m.clk
     tim := unlessIn l .tim {} m.tim, tic := unlessIn l .tic {} m.tic, ring := unlessIn l .ring {} m.ring, str := unlessIn l .str {} m.str
     dk := unlessIn l .dk {} m.dk, frm := unlessIn l .frm {} m.frm, objs := unlessIn l .objs [] m.objs, rend := unlessIn l .rend {} m.rend
     vote := unlessIn l .vote {} m.vote, cor := unlessIn l .cor {} m.cor, icom := unlessIn l .icom [] m.icom, sap := unlessIn l .sap {} m.sap
     pwr := unlessIn l .pwr {} m.pwr, ann := unlessIn l .ann {} m.ann, sec := unlessIn l .sec {} m.sec, dom := unlessIn l .dom {} m.dom
     gpio := unlessIn l .gpio {} m.gpio, sys := unlessIn l .sys {} m.sys },
   fun k => bif blockOutside l k then mfind m.regs k else none)

section View
variable {l ps : List Piece} {m n : Mach} {p : Piece}

theorem covers_iff : covers l ps = true ↔ ∀ p ∈ ps, p ∈ l := by simp [covers]

theorem covers_append {qs : List Piece} : covers l (ps ++ qs) = true ↔ covers l ps = true ∧ covers l qs = true := by
  simp [covers_iff, or_imp, forall_and]

theorem unlessIn_congr {α : Type} {d x y : α} (h : p ∉ l → x = y) : unlessIn l p d x = unlessIn l p d y := by
  by_cases hp : p ∈ l
  · simp [unlessIn, hp]
  · rw [h hp]

theorem eq_of_unlessIn {α : Type} {d x y : α} (hp : p ∉ l) (h : unlessIn l p d x = unlessIn l p d y) : x = y := by
  simpa [unlessIn, hp] using h

theorem blockOutside_iff {k : Nat} : blockOutside l k = true ↔ k / 32 / 4096 < 64 ∧ .block (k / 32 / 4096) ∉ l := by simp [blockOutside]

/-- Two machines that agree in every other piece show the same outside the listed ones. -/
theorem outside_congr (h : ∀ p, p ∉ l → SamePiece p m n) : outside l n = outside l m := by
  simp only [outside, Prod.mk.injEq, Mach.mk.injEq]
  refine ⟨⟨unlessIn_congr (h .deal), unlessIn_congr (h .ticks), trivial, unlessIn_congr (h .setup), unlessIn_congr (h .hif), unlessIn_congr (h .fresh),
    unlessIn_congr (h .out), unlessIn_congr (h .clk), unlessIn_congr (h .tim), unlessIn_congr (h .tic), unlessIn_congr (h .ring),
    unlessIn_congr (h .str), unlessIn_congr (h .dk), unlessIn_congr (h .frm), unlessIn_congr (h .objs), unlessIn_congr (h .rend),
    unlessIn_congr (h .vote), unlessIn_congr (h .cor), unlessIn_congr (h .icom), unlessIn_congr (h .sap), unlessIn_congr (h .pwr),
    unlessIn_congr (h .ann), unlessIn_congr (h .sec), unlessIn_congr (h .dom), unlessIn_congr (h .gpio), unlessIn_congr (h .sys)⟩, funext fun k => ?_⟩
  cases hk : blockOutside l k
  · rfl
  · obtain ⟨hlt, hb⟩ := blockOutside_iff.mp hk
    exact h (.block _) hb hlt k rfl

/-- Two machines that show the same outside the listed pieces agree in every other piece. -/
theorem samePiece_of_outside (h : outside l n = outside l m) (hp : p ∉ l) : SamePiece p m n := by
  simp only [outside, Prod.mk.injEq, Mach.mk.injEq] at h
  obtain ⟨⟨hdeal, hticks, -, hsetup, hhif, hfresh, hout, hclk, htim, htic, hring, hstr, hdk, hfrm, hobjs, hrend, hvote, hcor, hicom, hsap, hpwr,
    hann, hsec, hdom, hgpio, hsys⟩, hregs⟩ := h
  cases p
  case deal => exact eq_of_unlessIn hp hdeal
  case ticks => exact eq_of_unlessIn hp hticks
  case out => exact eq_of_unlessIn hp hout
  case fresh => exact eq_of_unlessIn hp hfresh
  case hif => exact eq_of_unlessIn hp hhif
  case clk => exact eq_of_unlessIn hp hclk
  case tim => exact eq_of_unlessIn hp htim
  case tic => exact eq_of_unlessIn hp htic
  case ring => exact eq_of_unlessIn hp hring
  case str => exact eq_of_unlessIn hp hstr
  case dk => exact eq_of_unlessIn hp hdk
  case frm => exact eq_of_unlessIn hp hfrm
  case objs => exact eq_of_unlessIn hp hobjs
  case rend => exact eq_of_unlessIn hp hrend
  case vote => exact eq_of_unlessIn hp hvote
  case cor => exact eq_of_unlessIn hp hcor
  case icom => exact eq_of_unlessIn hp hicom
  case sap => exact eq_of_unlessIn hp hsap
  case pwr => exact eq_of_unlessIn hp hpwr
  case ann => exact eq_of_unlessIn hp hann
  case sec => exact eq_of_unlessIn hp hsec
  case dom => exact eq_of_unlessIn hp hdom
  case gpio => exact eq_of_unlessIn hp hgpio
  case sys => exact eq_of_unlessIn hp hsys
  case setup => exact eq_of_unlessIn hp hsetup
  case block b =>
    rintro hb k rfl
    simpa [blockOutside_iff.mpr ⟨hb, hp⟩] using congrFun hregs k

/-- What is kept outside some pieces is kept outside more of them. -/
theorem outside_mono (hc : covers l ps = true) (h : outside ps n = outside ps m) : outside l n = outside l m :=
  outside_congr fun _ hp => samePiece_of_outside h fun hps => hp (covers_iff.mp hc _ hps)

end View

/-! Register fields: a write reaches the block of its field. -/

section Blocks
variable {l : List Piece} {f : Fld}

/-- The block of a field, all of whose repetitions lie in it, is listed. -/
def inBlock (l : List Piece) (f : Fld) : Bool :=
  l.contains (.block (fkey f 0 0 / 32 / 4096)) && fkey f (f.n1 - 1) (f.n2 - 1) / 32 / 4096 == fkey f 0 0 / 32 / 4096

theorem not_blockOutside_of_inBlock (h : inBlock l f = true) {i j : Nat} (hi : i ≤ f.n1 - 1) (hj : j ≤ f.n2 - 1) :
    blockOutside l (fkey f i j) = false := by
  simp only [inBlock, Bool.and_eq_true, beq_iff_eq] at h
  obtain ⟨hl, hb⟩ := h
  have hlo := fkey_mono f (Nat.zero_le i) (Nat.zero_le j)
  have hhi := fkey_mono f hi hj
  have he : fkey f i j / 32 / 4096 = fkey f 0 0 / 32 / 4096 := by omega
  simp [blockOutside, he, List.contains_iff_mem.mp hl]

/-- The register stores of two machines that agree in all else. -/
theorem outside_regs {t : SMap Nat} {m : Mach} (h : ∀ k, blockOutside l k = true → mfind t k = mfind m.regs k) :
    outside l { m with regs := t } = outside l m := by
  refine Prod.ext rfl (funext fun k => ?_)
  cases hk : blockOutside l k
  · simp only [outside, hk, cond_false]
  · simp only [outside, hk, cond_true, h k hk]

theorem mfind_mset_ne {α : Type} [DecidableEq α] (d : α) (n k : Nat) (v : α) (t : SMap α) (h : k ≠ n) : mfind (mset d n v t) k = mfind t k := by
  unfold mset
  split
  · exact mfind_mdel_ne _ _ _ h
  · exact mfind_mput_ne _ _ _ _ h

theorem outside_rsetij (h : inBlock l f = true) {i j : Nat} (hi : i ≤ f.n1 - 1) (hj : j ≤ f.n2 - 1) (v : Nat) (m : Mach) :
    outside l { m with regs := rsetij f i j v m.regs } = outside l m :=
  outside_regs fun k hk => mfind_mset_ne _ _ _ _ _ fun he => by
    rw [he, not_blockOutside_of_inBlock h hi hj] at hk
    cases hk

@[simp] theorem wr_outside (h : inBlock l f = true) (v : Nat) (m : Mach) : outside l (wr f v m) = outside l m :=
  outside_rsetij h (Nat.zero_le _) (Nat.zero_le _) v m

@[simp] theorem wri_outside (h : inBlock l f = true) (i v : Nat) (m : Mach) : outside l (wri f i v m) = outside l m := by
  unfold wri
  split
  · next hi => exact outside_rsetij h (by omega) (Nat.zero_le _) v m
  · rfl

@[simp] theorem wrij_outside (h : inBlock l f = true) (i j v : Nat) (m : Mach) : outside l (wrij f i j v m) = outside l m := by
  unfold wrij
  split
  · next hij => exact outside_rsetij h (by omega) (by omega) v m
  · rfl

@[simp] theorem bump_outside (h : inBlock l f = true) (n : Nat) (m : Mach) : outside l (bump f n m) = outside l m :=
  outside_rsetij h (Nat.zero_le _) (Nat.zero_le _) _ m

@[simp] theorem bumpi_outside (h : inBlock l f = true) (i n : Nat) (m : Mach) : outside l (bumpi f i n m) = outside l m := by
  unfold bumpi
  split
  · next hi => exact outside_rsetij h (by omega) (Nat.zero_le _) _ m
  · rfl

@[simp] theorem orReg_outside (h : inBlock l f = true) (bits : Nat) (m : Mach) : outside l (orReg f bits m) = outside l m := wr_outside h _ m

theorem blockOutside_of_allBlocks (h : covers l allBlocks = true) (k : Nat) : blockOutside l k = false :=
  Bool.eq_false_iff.mpr fun hk => by
    obtain ⟨hlt, hb⟩ := blockOutside_iff.mp hk
    exact hb (covers_iff.mp h _ (List.mem_map_of_mem (List.mem_range.mpr hlt)))

theorem wrij_outside_allBlocks (h : covers l allBlocks = true) (f : Fld) (i j v : Nat) (m : Mach) : outside l (wrij f i j v m) = outside l m := by
  unfold wrij
  split
  · exact outside_regs fun k hk => absurd hk (by simp [blockOutside_of_allBlocks h])
  · rfl

/-- Fields of listed blocks at their reset values. -/
theorem rclears_outside {fs : List Fld} (h : ∀ f ∈ fs, inBlock l f = true) (m : Mach) :
    outside l { m with regs := fs.foldl (fun t f => rclear f t) m.regs } = outside l m := by
  refine outside_regs fun k hk => ?_
  refine List.foldlRecOn (motive := fun t => mfind t k = mfind m.regs k) _ _ rfl fun t ht f hf => ?_
  rw [mfind_rclear_ne f k (fun i hi j hj he => ?_), ht]
  rw [he, not_blockOutside_of_inBlock (h f hf) (by omega) (by omega)] at hk
  cases hk

theorem mfind_clearRange {lo hi k : Nat} (h : ¬ (lo ≤ k / 32 ∧ k / 32 < hi)) (t : SMap Nat) : mfind (clearRange lo hi t) k = mfind t k :=
  mfind_filter_key (fun k => k / 32 < lo || hi ≤ k / 32) k (by simp; omega) t

theorem clearRange_outside {b lo hi : Nat} (hb : l.contains (.block b) = true) (hlo : 4096 * b ≤ lo) (hhi : hi ≤ 4096 * b + 4096) (m : Mach) :
    outside l { m with regs := clearRange lo hi m.regs } = outside l m :=
  outside_regs fun k hk => mfind_clearRange (fun hin => by
    have he : k / 32 / 4096 = b := by omega
    exact (blockOutside_iff.mp hk).2 (he ▸ List.contains_iff_mem.mp hb)) _

end Blocks

/-! One component replaced. -/

section Updates
variable {l : List Piece}

@[simp] theorem outside_with_hif (h : covers l [.hif] = true) (x : Hif) (m : Mach) : outside l { m with hif := x } = outside l m :=
  outside_mono h rfl

@[simp] theorem outside_with_out (h : covers l [.out] = true) (x : List Out) (m : Mach) : outside l { m with out := x } = outside l m :=
  outside_mono h rfl

@[simp] theorem outside_with_tim (h : covers l [.tim] = true) (x : Tim) (m : Mach) : outside l { m with tim := x } = outside l m :=
  outside_mono h rfl

@[simp] theorem outside_with_str (h : covers l [.str] = true) (x : Str) (m : Mach) : outside l { m with str := x } = outside l m :=
  outside_mono h rfl

@[simp] theorem outside_with_sap (h : covers l [.sap] = true) (x : SapSt) (m : Mach) : outside l { m with sap := x } = outside l m :=
  outside_mono h rfl

@[simp] theorem outside_with_pwr (h : covers l [.pwr] = true) (x : Pwr) (m : Mach) : outside l { m with pwr := x } = outside l m :=
  outside_mono h rfl

@[simp] theorem outside_with_dom (h : covers l [.dom] = true) (x : Dom) (m : Mach) : outside l { m with dom := x } = outside l m :=
  outside_mono h rfl

@[simp] theorem outside_with_sys (h : covers l [.sys] = true) (x : Sys) (m : Mach) : outside l { m with sys := x } = outside l m :=
  outside_mono h rfl

end Updates

/-! Conditions and loops. -/

section Control
variable {l : List Piece}

@[simp] theorem onlyIf_outside (b : Bool) (f : Mach → Mach) (m : Mach) :
    outside l (onlyIf b f m) = if b then outside l (f m) else outside l m := apply_ite (outside l) (b = true) (f m) m

@[simp] theorem forEach_outside {α : Type} (as : List α) (f : α → Mach → Mach) (h : ∀ a m, outside l (f a m) = outside l m) (m : Mach) :
    outside l (forEach as f m) = outside l m := forEach_keep (outside l) as f h m

@[simp] theorem ite_outside (c : Prop) [Decidable c] (a b : Mach) :
    outside l (if c then a else b) = if c then outside l a else outside l b := apply_ite (outside l) c a b

end Control

end Sys2Proof.Machine
end

section
/-! The frame of each operation of the model, in the order of its definitions: the pieces that it touches. -/
namespace Sys2Proof.Machine

section Keeps
variable {ps : List Piece}

/-! Events, capture FIFOs, MSI-X and completions. -/

@[simp] theorem writeTo_outside (hc : covers ps [.out, .hif, .block 0x1] = true)
    (e src : Nat) (l : List FifoEntry) (m : Mach) : outside ps (writeTo e src l m) = outside ps m := by
  refine outside_mono hc ?_
  by_cases hr : running m = true
  · simp only [writeTo, hr, if_true]
    rfl
  · simp only [writeTo, hr]
    exact bump_outside (f := F.HIF_EV_DISCARD_COUNT) (by decide) l.length m

@[simp] theorem writeRecords_outside (hc : covers ps [.out, .hif, .block 0x1] = true)
    (src : Nat) (l : List FifoEntry) (m : Mach) : outside ps (writeRecords src l m) = outside ps m := outside_mono hc (by simp +decide [writeRecords])

@[simp] theorem raiseAt_outside (hc : covers ps [.out, .hif, .block 0x1] = true)
    (d src code : Nat) (pay : Pay) (m : Mach) : outside ps (raiseAt d src code pay m) = outside ps m := outside_mono hc (by simp +decide [raiseAt])

@[simp] theorem raise_outside (hc : covers ps [.out, .hif, .block 0x1] = true)
    (src code : Nat) (pay : Pay) (m : Mach) : outside ps (raise src code pay m) = outside ps m := outside_mono hc (by simp +decide [raise])

@[simp] theorem setFifo_outside (hc : covers ps [.hif] = true) (k : Nat) (x : Fifo) (m : Mach) : outside ps (setFifo k x m) = outside ps m :=
  outside_mono hc rfl

@[simp] theorem fifoPush_outside (hc : covers ps [.out, .hif, .block 0x1] = true)
    (k code : Nat) (pay : Pay) (m : Mach) : outside ps (fifoPush k code pay m) = outside ps m := outside_mono hc (by simp +decide [fifoPush])

@[simp] theorem fifoEmit_outside (hc : covers ps [.out, .hif, .block 0x1] = true)
    (k n : Nat) (m : Mach) : outside ps (fifoEmit k n m) = outside ps m := outside_mono hc (by simp +decide [fifoEmit])

@[simp] theorem fifoEights_outside (hc : covers ps [.out, .hif, .block 0x1] = true)
    (k : Nat) (m : Mach) : outside ps (fifoEights k m) = outside ps m := outside_mono hc (by simp +decide [fifoEights])

@[simp] theorem fifoFlush_outside (hc : covers ps [.out, .hif, .block 0x1] = true) (k : Nat) (m : Mach) : outside ps (fifoFlush k m) = outside ps m :=
  outside_mono hc (by simp +decide [fifoFlush])

@[simp] theorem sendMsix_outside (hc : covers ps [.out, .hif] = true) (v : Nat) (m : Mach) : outside ps (sendMsix v m) = outside ps m :=
  outside_mono hc rfl

@[simp] theorem msixFlush_outside (hc : covers ps [.out, .hif] = true) (m : Mach) : outside ps (msixFlush m) = outside ps m :=
  outside_mono hc (forEach_outside _ _ (fun _ _ => onlyIf_keep (outside _) _ _ _ rfl) m)

@[simp] theorem tunnelFrames_outside (hc : covers ps [.out, .hif] = true)
    (sub req target tunId seq len : Nat) (m : Mach) : outside ps (tunnelFrames sub req target tunId seq len m) = outside ps m :=
  outside_mono hc rfl

@[simp] theorem sendReply_outside (hc : covers ps [.out, .hif] = true)
    (seat tunId : Nat) (r : Reply) (m : Mach) : outside ps (sendReply seat tunId r m) = outside ps m :=
  outside_mono hc rfl

@[simp] theorem completeWith_outside (hc : covers ps [.out, .hif] = true)
    (tk : Ticket) (st d rsv : Nat) (now : Bool) (res : Pay) (m : Mach) : outside ps (completeWith tk st d rsv now res m) = outside ps m := by
  refine outside_mono hc ?_
  unfold completeWith
  split
  · rfl
  · exact sendReply_outside rfl ..
  · rfl

@[simp] theorem interim_outside (hc : covers ps [.out, .hif] = true)
    (tk : Ticket) (st d : Nat) (m : Mach) : outside ps (interim tk st d m) = outside ps m := by
  refine outside_mono hc ?_
  unfold interim
  split <;> simp +decide

@[simp] theorem final_outside (hc : covers ps [.out, .hif] = true) (tk : Ticket) (st : Nat) (m : Mach) : outside ps (final tk st m) = outside ps m :=
  outside_mono hc (by simp +decide [final])

@[simp] theorem finalWith_outside (hc : covers ps [.out, .hif] = true)
    (tk : Ticket) (st addr : Nat) (res : Pay) (m : Mach) : outside ps (finalWith tk st addr res m) = outside ps m := by
  refine outside_mono hc ?_
  unfold finalWith
  split <;> simp +decide

@[simp] theorem useFresh_outside (hc : covers ps [.fresh] = true) (n : Nat) (m : Mach) : outside ps (useFresh n m) = outside ps m :=
  outside_mono hc rfl

/-! The sticky flags. -/

@[simp] theorem watch_outside (hc : covers ps [.out, .hif, .block 0x1] = true)
    (bit : Nat) (above : Bool) (src code : Nat) (pay : Pay) (m : Mach) : outside ps (watch bit above src code pay m) = outside ps m :=
  outside_mono hc (by simp +decide [watch])

/-! The frame bus. -/

@[simp] theorem setFrm_outside (hc : covers ps [.frm] = true) (f : Frm) (m : Mach) : outside ps (setFrm f m) = outside ps m :=
  outside_mono hc rfl

@[simp] theorem busWrite_outside (hc : covers ps [.frm] = true)
    (slot : Nat) (xs : List Int) (m : Mach) : outside ps (busWrite slot xs m) = outside ps m := outside_mono hc (by simp +decide [busWrite])

/-! The host interface. -/

@[simp] theorem raiseResetDone_outside (hc : covers ps [.out, .hif, .block 0x1] = true) (m : Mach) : outside ps (raiseResetDone m) = outside ps m := by
  refine outside_mono hc ?_
  unfold raiseResetDone
  split <;> simp +decide

@[simp] theorem raiseBootDone_outside (hc : covers ps [.out, .hif, .block 0x1] = true) (m : Mach) : outside ps (raiseBootDone m) = outside ps m :=
  outside_mono hc (by simp +decide [raiseBootDone])

@[simp] theorem startHif_outside (hc : covers ps [.hif, .block 0x1] = true) (m : Mach) : outside ps (startHif m) = outside ps m := by
  refine outside_mono hc ?_
  change outside _ (wr F.HIF_STATUS_RUNNING 1 (wr F.HIF_CTRL_ENABLE 1 (wr F.HIF_STATUS_CFG_ERR 0
    (wr F.HIF_STATUS_CFG_ERR_CODE 0 (wr F.HIF_STATUS_CFG_ERR_ITEM 0 m))))) = _
  simp +decide

@[simp] theorem hifEnable_outside (hc : covers ps [.out, .hif, .block 0x1] = true) (m : Mach) : outside ps (hifEnable m) = outside ps m := by
  refine outside_mono hc ?_
  unfold hifEnable
  (repeat' split) <;> simp +decide

@[simp] theorem aerReport_outside (hc : covers ps [.out, .hif] = true) (kind : Nat) (m : Mach) : outside ps (aerReport kind m) = outside ps m :=
  outside_mono hc rfl

@[simp] theorem dmaFault_outside (hc : covers ps [.out, .fresh, .hif, .block 0x1] = true) (m : Mach) : outside ps (dmaFault m) = outside ps m :=
  outside_mono hc (by simp +decide [dmaFault])

@[simp] theorem fireCq_outside (hc : covers ps [.out, .hif] = true) (c : Nat) (m : Mach) : outside ps (fireCq c m) = outside ps m :=
  outside_mono hc (by simp +decide [fireCq])

@[simp] theorem fireEq_outside (hc : covers ps [.out, .hif] = true) (e : Nat) (m : Mach) : outside ps (fireEq e m) = outside ps m :=
  outside_mono hc (by simp +decide [fireEq])

@[simp] theorem coalesceTimeout_outside (hc : covers ps [.out, .hif] = true)
    (ring : Nat) (m : Mach) : outside ps (coalesceTimeout ring m) = outside ps m := outside_mono hc (by simp +decide [coalesceTimeout])

@[simp] theorem fifoLinger_outside (hc : covers ps [.out, .hif, .block 0x1] = true)
    (k : Nat) (m : Mach) : outside ps (fifoLinger k m) = outside ps m := by
  refine outside_mono hc ?_
  unfold fifoLinger
  split <;> simp +decide

/-! Operator authority. -/

@[simp] theorem setSec_outside (hc : covers ps [.sec] = true) (x : Sec) (m : Mach) : outside ps (setSec x m) = outside ps m :=
  outside_mono hc rfl

@[simp] theorem authFailBy_outside (hc : covers ps [.out, .hif, .block 0x1, .block 0x3] = true)
    (cause op seat key : Nat) (m : Mach) : outside ps (authFailBy cause op seat key m) = outside ps m :=
  outside_mono hc (by simp +decide [authFailBy])

@[simp] theorem authFail_outside (hc : covers ps [.out, .hif, .block 0x1, .block 0x3] = true)
    (cause op : Nat) (m : Mach) : outside ps (authFail cause op m) = outside ps m := outside_mono hc (by simp +decide [authFail])

@[simp] theorem keyEvent_outside (hc : covers ps [.out, .hif, .block 0x1, .block 0x3] = true)
    (kind phase num id : Nat) (m : Mach) : outside ps (keyEvent kind phase num id m) = outside ps m := outside_mono hc (by simp +decide [keyEvent])

@[simp] theorem installInline_outside (hc : covers ps [.out, .hif, .sec, .block 0x1, .block 0x3] = true)
    (op : Nat) (c : Cmd) (m : Mach) : outside ps (installInline op c m) = outside ps m := by
  refine outside_mono hc ?_
  unfold installInline
  split <;> simp +decide

@[simp] theorem recordCounter_outside (hc : covers ps [.sec] = true) (c : Cmd) (m : Mach) : outside ps (recordCounter c m) = outside ps m := by
  refine outside_mono hc ?_
  unfold recordCounter
  (repeat' split) <;> simp +decide

/-! Admission of a command. -/

@[simp] theorem bad_outside (hc : covers ps [] = true) (m : Mach) : outside ps (bad m).1 = outside ps m := outside_mono hc (by simp +decide [bad])

@[simp] theorem okM_outside (hc : covers ps [] = true) (m : Mach) : outside ps (okM m).1 = outside ps m := outside_mono hc (by simp +decide [okM])

@[simp] theorem noRoom_outside (hc : covers ps [] = true) (m : Mach) : outside ps (noRoom m).1 = outside ps m :=
  outside_mono hc (by simp +decide [noRoom])

@[simp] theorem refuseAuth_outside (hc : covers ps [.out, .hif, .block 0x1, .block 0x3] = true)
    (h : Held) (cause key : Nat) (m : Mach) : outside ps (refuseAuth h cause key m) = outside ps m := outside_mono hc (by simp +decide [refuseAuth])

@[simp] theorem setHeld_outside (hc : covers ps [.hif] = true) (l : List Held) (m : Mach) : outside ps (setHeld l m) = outside ps m :=
  outside_mono hc rfl

@[simp] theorem setDom_outside (hc : covers ps [.dom] = true) (x : Dom) (m : Mach) : outside ps (setDom x m) = outside ps m :=
  outside_mono hc rfl

@[simp] theorem useTun_outside (hc : covers ps [.hif] = true) (m : Mach) : outside ps (useTun m) = outside ps m :=
  outside_mono hc rfl

@[simp] theorem addSent_outside (hc : covers ps [.hif] = true) (x : Sent) (m : Mach) : outside ps (addSent x m) = outside ps m :=
  outside_mono hc rfl

@[simp] theorem sendReq_outside (hc : covers ps [.out, .hif] = true)
    (seat tunId seq op : Nat) (c : Cmd) (m : Mach) : outside ps (sendReq seat tunId seq op c m) = outside ps m :=
  outside_mono hc (by simp +decide [sendReq])

@[simp] theorem sendStamped_outside (hc : covers ps [.out, .hif, .dom] = true)
    (tunId seq op : Nat) (c : Cmd) (m : Mach) : outside ps (sendStamped tunId seq op c m) = outside ps m :=
  outside_mono hc (by simp +decide [sendStamped])

@[simp] theorem reserve_outside (hc : covers ps [.hif] = true) (c : Cmd) (m : Mach) : outside ps (reserve c m) = outside ps m := by
  refine outside_mono hc ?_
  unfold reserve
  split <;> simp +decide

/-! User kernels. -/

@[simp] theorem faultRecord_outside (hc : covers ps [.out, .hif, .block 0x1, .block 0x11] = true)
    (d : NodeD) (cause instr addr : Nat) (m : Mach) : outside ps (faultRecord d cause instr addr m) = outside ps m :=
  outside_mono hc (by simp +decide [faultRecord])

@[simp] theorem kernelFault_outside (hc : covers ps [.out, .hif, .frm, .block 0x1, .block 0x11] = true)
    (node cause instr addr : Nat) (m : Mach) : outside ps (kernelFault node cause instr addr m) = outside ps m := by
  refine outside_mono hc ?_
  unfold kernelFault
  split <;> simp +decide

@[simp] theorem laneOverflow_outside (hc : covers ps [.out, .hif, .block 0x1, .block 0x11] = true)
    (c lanes signs node : Nat) (m : Mach) : outside ps (laneOverflow c lanes signs node m) = outside ps m :=
  outside_mono hc (by simp +decide [laneOverflow])

@[simp] theorem laneSat_outside (hc : covers ps [.block 0x11] = true) (c l n : Nat) (m : Mach) : outside ps (laneSat c l n m) = outside ps m :=
  outside_mono hc (by simp +decide [laneSat])

@[simp] theorem kernelLanes_outside (hc : covers ps [.out, .hif, .block 0x1, .block 0x11] = true)
    (cluster node : Nat) (c : Cluster) (m : Mach) : outside ps (kernelLanes cluster node c m) = outside ps m :=
  outside_mono hc (by simp +decide [kernelLanes])

/-! The delay pool. -/

@[simp] theorem setRend_outside (hc : covers ps [.rend] = true) (r : Rend) (m : Mach) : outside ps (setRend r m) = outside ps m :=
  outside_mono hc rfl

@[simp] theorem setLine_outside (hc : covers ps [.rend] = true) (k : Nat) (x : Line) (m : Mach) : outside ps (setLine k x m) = outside ps m :=
  outside_mono hc (by simp +decide [setLine])

@[simp] theorem grantLine_outside (hc : covers ps [.rend] = true) (k : Nat) (m : Mach) : outside ps (grantLine k m).1 = outside ps m := by
  refine outside_mono hc ?_
  simp only [grantLine]
  split <;> simp +decide

@[simp] theorem lineWaits_outside (hc : covers ps [.out, .hif, .rend, .block 0x1, .block 0xF] = true)
    (k : Nat) (m : Mach) : outside ps (lineWaits k m) = outside ps m := outside_mono hc (by simp +decide [lineWaits])

@[simp] theorem serveWaiting_outside (hc : covers ps [.rend] = true) (m : Mach) : outside ps (serveWaiting m) = outside ps m :=
  outside_mono hc (by simp +decide [serveWaiting])

@[simp] theorem cutLine_outside (hc : covers ps [.out, .hif, .rend, .block 0x1, .block 0xF] = true)
    (old : DeckBody) (l : LineD) (m : Mach) : outside ps (cutLine old l m) = outside ps m := by
  refine outside_mono hc ?_
  simp only [cutLine]
  split <;> simp +decide

@[simp] theorem freeLine_outside (hc : covers ps [.rend] = true) (k : Nat) (m : Mach) : outside ps (freeLine k m) = outside ps m :=
  outside_mono hc (by simp +decide [freeLine])

@[simp] theorem poolRetired_outside (hc : covers ps [.rend] = true) (old : DeckBody) (m : Mach) : outside ps (poolRetired old m) = outside ps m :=
  outside_mono hc (by simp +decide [poolRetired])

@[simp] theorem trimLine_outside (hc : covers ps [.rend] = true) (k : Nat) (m : Mach) : outside ps (trimLine k m) = outside ps m :=
  outside_mono hc (by simp +decide [trimLine])

@[simp] theorem watchPool_outside (hc : covers ps [.out, .hif, .block 0x1] = true) (m : Mach) : outside ps (watchPool m) = outside ps m :=
  outside_mono hc (by simp +decide [watchPool])

@[simp] theorem poolCut_outside (hc : covers ps [.out, .hif, .rend, .block 0x1, .block 0xF] = true)
    (old new : DeckBody) (m : Mach) : outside ps (poolCut old new m) = outside ps m := outside_mono hc (by simp +decide [poolCut])

@[simp] theorem poolCommit_outside (hc : covers ps [.out, .hif, .rend, .block 0x1] = true) (m : Mach) : outside ps (poolCommit m) = outside ps m :=
  outside_mono hc (by simp +decide [poolCommit])

@[simp] theorem lineWrite_outside (hc : covers ps [.rend] = true)
    (k : Nat) (xs : List Int) (m : Mach) : outside ps (lineWrite k xs m) = outside ps m := by
  refine outside_mono hc ?_
  unfold lineWrite
  split <;> simp +decide

@[simp] theorem delayNode_outside (hc : covers ps [.rend] = true)
    (id d : Nat) (xs : List Int) (m : Mach) : outside ps (delayNode id d xs m).1 = outside ps m := by
  refine outside_mono hc ?_
  simp only [delayNode]
  (repeat' split) <;> simp +decide

/-! The scene. -/

@[simp] theorem setObj_outside (hc : covers ps [.objs] = true) (o : Nat) (x : Obj) (m : Mach) : outside ps (setObj o x m) = outside ps m :=
  outside_mono hc rfl

@[simp] theorem objSet_outside (hc : covers ps [.objs] = true) (c : Cmd) (tk : Ticket) (m : Mach) : outside ps (objSet c tk m).1 = outside ps m := by
  refine outside_mono hc ?_
  simp only [objSet]
  split <;> simp +decide

@[simp] theorem trajPush_outside (hc : covers ps [.out, .hif, .objs, .block 0x1, .block 0xF] = true)
    (c : Cmd) (tk : Ticket) (m : Mach) : outside ps (trajPush c tk m).1 = outside ps m := by
  refine outside_mono hc ?_
  simp only [trajPush]
  (repeat' split) <;> simp +decide

@[simp] theorem clearOne_outside (hc : covers ps [.objs] = true) (mode o : Nat) (m : Mach) : outside ps (clearOne mode o m) = outside ps m :=
  outside_mono hc (by simp +decide [clearOne])

@[simp] theorem trajClear_outside (hc : covers ps [.objs] = true)
    (c : Cmd) (tk : Ticket) (m : Mach) : outside ps (trajClear c tk m).1 = outside ps m := by
  refine outside_mono hc ?_
  simp only [trajClear]
  (repeat' split) <;> simp +decide

@[simp] theorem sceneReset_outside (hc : covers ps [.objs, .block 0xF] = true) (m : Mach) : outside ps (sceneReset m) = outside ps m :=
  outside_mono hc (clearRange_outside (b := 0xF) rfl (by decide) (by decide) m)

/-! The render engine. -/

@[simp] theorem pairsCommit_outside (hc : covers ps [.rend] = true) (m : Mach) : outside ps (pairsCommit m) = outside ps m :=
  outside_mono hc (by simp +decide [pairsCommit])

@[simp] theorem tapEngine_outside (hc : covers ps [.frm, .block 0xF] = true)
    (finished : Bool) (m : Mach) : outside ps (tapEngine finished m) = outside ps m := by
  refine outside_mono hc ?_
  unfold tapEngine
  split <;> simp +decide

@[simp] theorem renderSleep_outside (hc : covers ps [.rend] = true) (fold : Bool) (m : Mach) : outside ps (renderSleep fold m) = outside ps m :=
  outside_mono hc (by simp +decide [renderSleep])

@[simp] theorem renderWake_outside (hc : covers ps [.rend] = true) (m : Mach) : outside ps (renderWake m) = outside ps m :=
  outside_mono hc (by simp +decide [renderWake])

@[simp] theorem renderReset_outside (hc : covers ps [.rend, .block 0xF] = true) (m : Mach) : outside ps (renderReset m) = outside ps m :=
  outside_mono hc (clearRange_outside (l := [.rend, .block 0xF]) (b := 0xF) (lo := 0xF040) (hi := 0xF100) rfl (by decide) (by decide) m)

/-! The rate bridges. -/

@[simp] theorem showBridges_outside (hc : covers ps [.block 0xB] = true) (m : Mach) : outside ps (showBridges m) = outside ps m :=
  outside_mono hc (by simp +decide [showBridges])

@[simp] theorem bridgeEvent_outside (hc : covers ps [.out, .hif, .block 0x1] = true)
    (code ch dir rate : Nat) (m : Mach) : outside ps (bridgeEvent code ch dir rate m) = outside ps m :=
  outside_mono hc (by simp +decide [bridgeEvent])

@[simp] theorem setBridge_outside (hc : covers ps [.frm, .block 0xB] = true)
    (ch st : Nat) (m : Mach) : outside ps (setBridge ch st m) = outside ps m := outside_mono hc (by simp +decide [setBridge])

@[simp] theorem channelLost_outside (hc : covers ps [.out, .hif, .frm, .block 0x1, .block 0xB] = true)
    (dir rate ch : Nat) (m : Mach) : outside ps (channelLost dir rate ch m) = outside ps m := outside_mono hc (by simp +decide [channelLost])

@[simp] theorem channelLocked_outside (hc : covers ps [.out, .hif, .frm, .block 0x1, .block 0xB] = true)
    (dir rate ch : Nat) (m : Mach) : outside ps (channelLocked dir rate ch m) = outside ps m := outside_mono hc (by simp +decide [channelLocked])

@[simp] theorem setInRange_outside (hc : covers ps [.sap] = true) (dir n : Nat) (m : Mach) : outside ps (setInRange dir n m) = outside ps m := by
  refine outside_mono hc ?_
  unfold setInRange
  split <;> simp +decide

@[simp] theorem domainLost_outside (hc : covers ps [.out, .hif, .frm, .sap, .block 0x1, .block 0xB] = true)
    (dir rate : Nat) (m : Mach) : outside ps (domainLost dir rate m) = outside ps m := outside_mono hc (by simp +decide [domainLost])

@[simp] theorem bridgeLost_outside (hc : covers ps [.out, .hif, .frm, .sap, .block 0x1, .block 0xB] = true)
    (ch rate : Nat) (m : Mach) : outside ps (bridgeLost ch rate m) = outside ps m := by
  refine outside_mono hc ?_
  unfold bridgeLost
  split <;> simp +decide

@[simp] theorem bridgeLocked_outside (hc : covers ps [.out, .hif, .frm, .block 0x1, .block 0xB] = true)
    (ch rate : Nat) (m : Mach) : outside ps (bridgeLocked ch rate m) = outside ps m := by
  refine outside_mono hc ?_
  unfold bridgeLocked
  split <;> simp +decide

/-! The serial and biphase ports. -/

@[simp] theorem setSap_outside (hc : covers ps [.sap] = true) (x : SapSt) (m : Mach) : outside ps (setSap x m) = outside ps m :=
  outside_mono hc rfl

@[simp] theorem replaceDir_outside (hc : covers ps [.sap] = true) (d : Nat) (x : Dir) (m : Mach) : outside ps (setDir_ d x m) = outside ps m :=
  outside_mono hc rfl

@[simp] theorem dirCount_outside (hc : covers ps [.sap] = true) (d id n : Nat) (m : Mach) : outside ps (dirCount d id n m) = outside ps m :=
  outside_mono hc (by simp +decide [dirCount])

@[simp] theorem sapWr_outside {f : Fld} (hf : inBlock ps f = true) (d v : Nat) (m : Mach) : outside ps (sapWr f d v m) = outside ps m :=
  wrij_outside hf _ _ _ m

@[simp] theorem showPort_outside (hc : covers ps [.block 0xC, .block 0xD] = true) (d : Nat) (m : Mach) : outside ps (showPort d m) = outside ps m :=
  outside_mono hc (by simp +decide [showPort])

@[simp] theorem rateRecord_outside (hc : covers ps [.out, .hif, .sap, .block 0x1] = true)
    (d cause mhz : Nat) (m : Mach) : outside ps (rateRecord d cause mhz m) = outside ps m := outside_mono hc (by simp +decide [rateRecord])

@[simp] theorem showRate_outside (hc : covers ps [.block 0xC, .block 0xD] = true)
    (d mhz : Nat) (m : Mach) : outside ps (showRate d mhz m) = outside ps m := outside_mono hc (by simp +decide [showRate])

@[simp] theorem rateUpdate_outside (hc : covers ps [.out, .hif, .frm, .sap, .block 0x1, .block 0xB, .block 0xC, .block 0xD] = true)
    (d mhz : Nat) (m : Mach) : outside ps (rateUpdate d mhz m) = outside ps m := by
  refine outside_mono hc ?_
  unfold rateUpdate
  split <;> simp +decide

@[simp] theorem clockLoss_outside (hc : covers ps [.out, .hif, .frm, .sap, .block 0x1, .block 0xB, .block 0xC, .block 0xD] = true)
    (d : Nat) (m : Mach) : outside ps (clockLoss d m) = outside ps m := by
  refine outside_mono hc ?_
  unfold clockLoss
  split <;> simp +decide

@[simp] theorem startDir_outside (hc : covers ps [.sap, .block 0xC, .block 0xD] = true)
    (data d : Nat) (m : Mach) : outside ps (startDir data d m) = outside ps m := outside_mono hc (by simp +decide [startDir])

@[simp] theorem portStartGroup_outside (hc : covers ps [.out, .hif, .sap, .block 0xC, .block 0xD] = true)
    (c : Cmd) (tk : Ticket) (m : Mach) : outside ps (portStartGroup c tk m).1 = outside ps m := by
  refine outside_mono hc ?_
  simp only [portStartGroup]
  split
  · exact bad_outside rfl m
  · split
    · exact (outside_with_hif rfl _ (interim tk stBusyStopping _ m)).trans (interim_outside rfl _ _ _ m)
    · split
      · exact bad_outside rfl m
      · simp +decide [okM]

@[simp] theorem portStop_outside (hc : covers ps [.sap] = true) (c : Cmd) (tk : Ticket) (m : Mach) : outside ps (portStop c tk m).1 = outside ps m := by
  refine outside_mono hc ?_
  simp only [portStop]
  split <;> simp +decide

@[simp] theorem dataBegins_outside (hc : covers ps [.out, .hif, .sap, .block 0x1] = true)
    (bits : Nat) (m : Mach) : outside ps (dataBegins bits m) = outside ps m := outside_mono hc (by simp +decide [dataBegins])

@[simp] theorem slip_outside (hc : covers ps [.out, .hif, .sap, .block 0x1, .block 0xC, .block 0xD] = true)
    (d cause offset lo ns : Nat) (m : Mach) : outside ps (slip d cause offset lo ns m) = outside ps m := by
  refine outside_mono hc ?_
  unfold slip
  split <;> simp +decide

@[simp] theorem groupLost_outside (hc : covers ps [.out, .fresh, .hif, .sap, .block 0x1, .block 0xC, .block 0xD] = true)
    (g : Nat) (m : Mach) : outside ps (groupLost g m) = outside ps m := outside_mono hc (by simp +decide [groupLost])

@[simp] theorem frameB_outside (hc : covers ps [.out, .hif, .sap, .block 0x1, .block 0xC, .block 0xD] = true)
    (d : Nat) (m : Mach) : outside ps (frameB d m) = outside ps m := by
  refine outside_mono hc ?_
  unfold frameB
  split <;> simp +decide

@[simp] theorem frameStart_outside (hc : covers ps [.out, .hif, .sap, .block 0x1, .block 0xC, .block 0xD] = true)
    (f : FrameIn) (m : Mach) : outside ps (frameStart f m) = outside ps m := by
  refine outside_mono hc ?_
  unfold frameStart
  split <;> simp +decide

@[simp] theorem restartDir_outside (hc : covers ps [.sap, .block 0xC, .block 0xD] = true)
    (d : Nat) (x : Dir) (m : Mach) : outside ps (restartDir d x m) = outside ps m := outside_mono hc (by simp +decide [restartDir])

@[simp] theorem sapRestart_outside (hc : covers ps [.sap, .block 0xC, .block 0xD] = true)
    (d : Nat) (m : Mach) : outside ps (sapRestart d m) = outside ps m := by
  refine outside_mono hc ?_
  unfold sapRestart
  (repeat' split) <;> simp +decide

@[simp] theorem sapMaskWrite_outside (hc : covers ps [.block 0xC] = true)
    (d : Nat) (v : Word) (m : Mach) : outside ps (sapMaskWrite d v m) = outside ps m := outside_mono hc (by simp +decide [sapMaskWrite])

@[simp] theorem mirror_outside (hc : covers ps [.out, .block 0xC] = true)
    (d : Nat) (x : Dir) (frames : List (List Int)) (m : Mach) : outside ps (mirror d x frames m) = outside ps m :=
  outside_mono hc (by simp +decide [mirror])

@[simp] theorem mirrorStop_outside (hc : covers ps [.block 0xC] = true) (m : Mach) : outside ps (mirrorStop m) = outside ps m :=
  outside_mono hc (by simp +decide [mirrorStop])

@[simp] theorem biphaseOut_outside (hc : covers ps [.out] = true)
    (d : Nat) (zs : List Bool) (m : Mach) : outside ps (biphaseOut d zs m) = outside ps m := outside_mono hc (by simp +decide [biphaseOut])

@[simp] theorem putPins_outside (hc : covers ps [.out] = true)
    (d : Nat) (x : Dir) (fs : List (List Int)) (zs : List Bool) (m : Mach) : outside ps (putPins d x fs zs m) = outside ps m :=
  outside_mono hc (by simp +decide [putPins])

@[simp] theorem transmit_outside (hc : covers ps [.out, .sap, .block 0xC] = true)
    (d : Nat) (x : Dir) (m : Mach) : outside ps (transmit d x m) = outside ps m := outside_mono hc (by simp +decide [transmit])

@[simp] theorem transmitB_outside (hc : covers ps [.out, .fresh, .block 0xC] = true)
    (d : Nat) (x : Dir) (m : Mach) : outside ps (transmitB d x m) = outside ps m := outside_mono hc (by simp +decide [transmitB])

@[simp] theorem transmitZero_outside (hc : covers ps [.out] = true) (d : Nat) (x : Dir) (m : Mach) : outside ps (transmitZero d x m) = outside ps m :=
  outside_mono hc (by simp +decide [transmitZero])

@[simp] theorem dirCommit_outside (hc : covers ps [.out, .fresh, .hif, .frm, .sap, .block 0x1, .block 0xB, .block 0xC, .block 0xD] = true)
    (fades : List Nat) (d : Nat) (m : Mach) : outside ps (dirCommit fades d m) = outside ps m := by
  refine outside_mono hc ?_
  unfold dirCommit
  split <;> simp +decide

@[simp] theorem portCommit_outside (hc : covers ps [.out, .fresh, .hif, .frm, .sap, .block 0x1, .block 0xB, .block 0xC, .block 0xD] = true)
    (fades : List Nat) (m : Mach) : outside ps (portCommit fades m) = outside ps m := outside_mono hc (by simp +decide [portCommit])

@[simp] theorem aesLock_outside (hc : covers ps [.out, .hif, .sap, .block 0x1, .block 0xC, .block 0xD] = true)
    (r mhz : Nat) (m : Mach) : outside ps (aesLock r mhz m) = outside ps m := outside_mono hc (by simp +decide [aesLock])

@[simp] theorem aesUnlock_outside (hc : covers ps [.out, .hif, .frm, .sap, .block 0x1, .block 0xB, .block 0xD] = true)
    (r : Nat) (m : Mach) : outside ps (aesUnlock r m) = outside ps m := outside_mono hc (by simp +decide [aesUnlock])

@[simp] theorem aesErrors_outside (hc : covers ps [.out, .hif, .sap, .block 0x1, .block 0xD] = true)
    (r quiet b p c : Nat) (m : Mach) : outside ps (aesErrors r quiet b p c m) = outside ps m := outside_mono hc (by simp +decide [aesErrors])

@[simp] theorem aesSubframeError_outside (hc : covers ps [.out, .hif, .sap, .block 0x1, .block 0xD] = true)
    (e : AesErr) (m : Mach) : outside ps (aesSubframeError e m) = outside ps m := outside_mono hc (by simp +decide [aesSubframeError])

@[simp] theorem blockWords_outside {f : Fld} (hf : inBlock ps f = true) (r v : Nat) (m : Mach) :
    outside ps (blockWords f r v m) = outside ps m := forEach_outside _ _ (fun _ n => wrij_outside hf _ _ _ n) m

@[simp] theorem latchBlock_outside (hc : covers ps [.out, .hif, .block 0x1, .block 0xD] = true)
    (b : AesBlk) (m : Mach) : outside ps (latchBlock b m) = outside ps m := outside_mono hc (by simp +decide [latchBlock])

@[simp] theorem aesBlockEnd_outside (hc : covers ps [.out, .hif, .sap, .block 0x1, .block 0xD] = true)
    (b : AesBlk) (m : Mach) : outside ps (aesBlockEnd b m) = outside ps m := outside_mono hc (by simp +decide [aesBlockEnd])

@[simp] theorem loadRequest_outside (hc : covers ps [.sap, .block 0xD] = true)
    (kind t : Nat) (m : Mach) : outside ps (loadRequest kind t m) = outside ps m := by
  refine outside_mono hc ?_
  unfold loadRequest
  (repeat' split) <;> simp +decide

@[simp] theorem copyShadow_outside (hc : covers ps [.sap, .block 0xD] = true)
    (kind t : Nat) (a b : Fld) (m : Mach) : outside ps (copyShadow kind t a b m) = outside ps m := by
  refine outside_mono hc ?_
  unfold copyShadow
  (repeat' split) <;> simp +decide

@[simp] theorem shadowCopy_outside (hc : covers ps [.sap, .block 0xD] = true) (t : Nat) (m : Mach) : outside ps (shadowCopy t m) = outside ps m :=
  outside_mono hc (by simp +decide [shadowCopy])

@[simp] theorem portsSleep_outside (hc : covers ps [.sap] = true) (m : Mach) : outside ps (portsSleep m) = outside ps m :=
  outside_mono hc (by simp +decide [portsSleep])

@[simp] theorem portsWake_outside (hc : covers ps [.sap, .block 0xC, .block 0xD] = true) (m : Mach) : outside ps (portsWake m) = outside ps m :=
  outside_mono hc (by simp +decide [portsWake])

/-! The media clocks. -/

@[simp] theorem setClk_outside (hc : covers ps [.clk] = true) (x : Clk) (m : Mach) : outside ps (setClk x m) = outside ps m :=
  outside_mono hc rfl

@[simp] theorem setCand_outside (hc : covers ps [.clk] = true) (i : Nat) (x : Cand) (m : Mach) : outside ps (setCand i x m) = outside ps m :=
  outside_mono hc (by simp +decide [setCand])

@[simp] theorem setAl_outside (hc : covers ps [.clk] = true) (a : Nat) (x : Aligner) (m : Mach) : outside ps (setAl a x m) = outside ps m :=
  outside_mono hc (by simp +decide [setAl])

@[simp] theorem setRamp_outside (hc : covers ps [.clk] = true) (k : Nat) (x : Ramp) (m : Mach) : outside ps (setRamp k x m) = outside ps m :=
  outside_mono hc (by simp +decide [setRamp])

@[simp] theorem showSel_outside (hc : covers ps [.block 0x4] = true)
    (sel mode bridging : Nat) (m : Mach) : outside ps (showSel sel mode bridging m) = outside ps m := outside_mono hc (by simp +decide [showSel])

@[simp] theorem watchHold_outside (hc : covers ps [.out, .hif, .block 0x1] = true) (m : Mach) : outside ps (watchHold m) = outside ps m :=
  outside_mono hc (by simp +decide [watchHold])

@[simp] theorem enterHoldover_outside (hc : covers ps [.out, .hif, .clk, .block 0x1, .block 0x4] = true)
    (k : Nat) (m : Mach) : outside ps (enterHoldover k m) = outside ps m := outside_mono hc (by simp +decide [enterHoldover])

@[simp] theorem exitHoldover_outside (hc : covers ps [.out, .hif, .clk, .block 0x1, .block 0x4] = true)
    (sel : Nat) (m : Mach) : outside ps (exitHoldover sel m) = outside ps m := by
  refine outside_mono hc ?_
  unfold exitHoldover
  split <;> simp +decide

@[simp] theorem switchRef_outside (hc : covers ps [.out, .hif, .clk, .block 0x1, .block 0x4] = true)
    (sel : Nat) (m : Mach) : outside ps (switchRef sel m) = outside ps m := outside_mono hc (by simp +decide [switchRef])

@[simp] theorem reselect_outside (hc : covers ps [.out, .hif, .clk, .block 0x1, .block 0x4] = true)
    (k : Nat) (m : Mach) : outside ps (reselect k m) = outside ps m := outside_mono hc (by simp +decide [reselect])

@[simp] theorem wantSelect_outside (hc : covers ps [.clk] = true) (i k : Nat) (m : Mach) : outside ps (wantSelect i k m) = outside ps m :=
  outside_mono hc (by simp +decide [wantSelect])

@[simp] theorem selectRef_outside (hc : covers ps [.out, .hif, .clk, .block 0x1, .block 0x4] = true)
    (m : Mach) : outside ps (selectRef m) = outside ps m := by
  refine outside_mono hc ?_
  unfold selectRef
  split <;> simp +decide

@[simp] theorem disqualify_outside (hc : covers ps [.out, .hif, .clk, .block 0x1, .block 0x4] = true)
    (i cause k : Nat) (m : Mach) : outside ps (disqualify i cause k m) = outside ps m := outside_mono hc (by simp +decide [disqualify])

@[simp] theorem candLost_outside (hc : covers ps [.out, .hif, .clk, .block 0x1, .block 0x4] = true)
    (i cause : Nat) (m : Mach) : outside ps (candLost i cause m) = outside ps m := outside_mono hc (by simp +decide [candLost])

@[simp] theorem refLoss_outside (hc : covers ps [.out, .hif, .clk, .block 0x1, .block 0x4] = true)
    (i : Nat) (x : RefEdge) (m : Mach) : outside ps (refLoss i x m) = outside ps m := outside_mono hc (by simp +decide [refLoss])

@[simp] theorem binCand_outside (hc : covers ps [.clk, .block 0x4] = true)
    (i : Nat) (o : Option Int) (m : Mach) : outside ps (binCand i o m) = outside ps m := by
  refine outside_mono hc ?_
  unfold binCand
  (repeat' split) <;> simp +decide

@[simp] theorem disagreePair_outside (hc : covers ps [.out, .hif, .clk, .block 0x1, .block 0x4] = true)
    (a b : Nat) (m : Mach) : outside ps (disagreePair a b m) = outside ps m := outside_mono hc (by simp +decide [disagreePair])

@[simp] theorem binServo_outside (hc : covers ps [.clk, .block 0x4] = true) (b : RefBin) (m : Mach) : outside ps (binServo b m) = outside ps m :=
  outside_mono hc (by simp +decide [binServo])

@[simp] theorem refBin_outside (hc : covers ps [.out, .hif, .clk, .block 0x1, .block 0x4] = true)
    (b : RefBin) (m : Mach) : outside ps (refBin b m) = outside ps m := outside_mono hc (by simp +decide [refBin])

@[simp] theorem refDisqualified_outside (hc : covers ps [.out, .hif, .clk, .block 0x1, .block 0x4] = true)
    (i : Nat) (m : Mach) : outside ps (refDisqualified i m) = outside ps m := outside_mono hc (by simp +decide [refDisqualified])

@[simp] theorem refQualified_outside (hc : covers ps [.out, .hif, .clk, .block 0x1, .block 0x4] = true)
    (i : Nat) (m : Mach) : outside ps (refQualified i m) = outside ps m := outside_mono hc (by simp +decide [refQualified])

@[simp] theorem refFirstEdge_outside (hc : covers ps [.out, .hif, .clk, .block 0x1, .block 0x4] = true)
    (phase : Int) (m : Mach) : outside ps (refFirstEdge phase m) = outside ps m := outside_mono hc (by simp +decide [refFirstEdge])

@[simp] theorem histValidSet_outside (hc : covers ps [.block 0x4] = true) (m : Mach) : outside ps (histValidSet m) = outside ps m :=
  outside_mono hc (by simp +decide [histValidSet])

@[simp] theorem holdoverEstimate_outside (hc : covers ps [.out, .hif, .clk, .block 0x1, .block 0x4] = true)
    (temp : Int) (m : Mach) : outside ps (holdoverEstimate temp m) = outside ps m := by
  refine outside_mono hc ?_
  unfold holdoverEstimate
  split <;> simp +decide

@[simp] theorem savedValueStore_outside (hc : covers ps [.clk, .block 0x4] = true)
    (ctl temp : Int) (m : Mach) : outside ps (savedValueStore ctl temp m) = outside ps m := outside_mono hc (by simp +decide [savedValueStore])

@[simp] theorem alBit_outside {f : Fld} (hf : inBlock ps f = true) (a : Nat) (b : Bool) (m : Mach) :
    outside ps (alBit f a b m) = outside ps m := wr_outside hf _ m

@[simp] theorem rampStop_outside (hc : covers ps [.out, .hif, .clk, .block 0x1, .block 0x4] = true)
    (k a : Nat) (m : Mach) : outside ps (rampStop k a m) = outside ps m := outside_mono hc (by simp +decide [rampStop])

@[simp] theorem alStop_outside (hc : covers ps [.out, .fresh, .hif, .clk, .sap, .block 0x1, .block 0x4, .block 0xC, .block 0xD] = true)
    (a : Nat) (m : Mach) : outside ps (alStop a m) = outside ps m := outside_mono hc (by simp +decide [alStop])

@[simp] theorem alStart_outside (hc : covers ps [.fresh, .clk] = true)
    (a hz den mode : Nat) (ofs : Int) (m : Mach) : outside ps (alStart a hz den mode ofs m) = outside ps m :=
  outside_mono hc (by simp +decide [alStart])

@[simp] theorem alSlew_outside (hc : covers ps [.clk] = true) (a : Nat) (x : Int) (m : Mach) : outside ps (alSlew a x m) = outside ps m :=
  outside_mono hc (by simp +decide [alSlew])

@[simp] theorem instantMoved_outside (hc : covers ps [.clk] = true) (x : Int) (m : Mach) : outside ps (instantMoved x m) = outside ps m :=
  outside_mono hc (by simp +decide [instantMoved])

@[simp] theorem alignerWindowEnd_outside (hc : covers ps [.out, .hif, .clk, .block 0x1, .block 0x4] = true)
    (a : Nat) (freqPpb phasePs : Int) (m : Mach) : outside ps (alignerWindowEnd a freqPpb phasePs m) = outside ps m :=
  outside_mono hc (by simp +decide [alignerWindowEnd])

@[simp] theorem syncOut_outside (hc : covers ps [.out, .fresh, .hif, .clk, .sap, .block 0x1, .block 0x4, .block 0xC, .block 0xD] = true)
    (edgeNs a : Nat) (m : Mach) : outside ps (syncOut edgeNs a m) = outside ps m := outside_mono hc (by simp +decide [syncOut])

@[simp] theorem syncFollow_outside (hc : covers ps [.clk] = true) (edgeNs a : Nat) (m : Mach) : outside ps (syncFollow edgeNs a m) = outside ps m :=
  outside_mono hc (by simp +decide [syncFollow])

@[simp] theorem syncInEdge_outside (hc : covers ps [.out, .fresh, .hif, .clk, .sap, .block 0x1, .block 0x4, .block 0xC, .block 0xD] = true)
    (edgeNs : Nat) (m : Mach) : outside ps (syncInEdge edgeNs m) = outside ps m := outside_mono hc (by simp +decide [syncInEdge])

@[simp] theorem rampSegmentEnd_outside (hc : covers ps [.out, .hif, .clk, .block 0x1, .block 0x4] = true)
    (k : Nat) (m : Mach) : outside ps (rampSegmentEnd k m) = outside ps m := by
  refine outside_mono hc ?_
  simp only [rampSegmentEnd]
  split <;> simp +decide

@[simp] theorem rampLoad_outside (hc : covers ps [.out, .hif, .clk, .block 0x1, .block 0x4] = true)
    (c : Cmd) (tk : Ticket) (m : Mach) : outside ps (rampLoad c tk m).1 = outside ps m := by
  refine outside_mono hc ?_
  simp only [rampLoad]
  (repeat' split) <;> simp +decide

@[simp] theorem refCandidate_outside (hc : covers ps [.out, .hif, .clk, .block 0x1, .block 0x4] = true)
    (c : Cmd) (tk : Ticket) (m : Mach) : outside ps (refCandidate c tk m).1 = outside ps m := by
  refine outside_mono hc ?_
  simp only [refCandidate]
  (repeat' split) <;> simp +decide

@[simp] theorem refOutput_outside (hc : covers ps [.out, .fresh, .hif, .clk, .sap, .block 0x1, .block 0x4, .block 0xC, .block 0xD] = true)
    (c : Cmd) (tk : Ticket) (m : Mach) : outside ps (refOutput c tk m).1 = outside ps m := by
  refine outside_mono hc ?_
  simp only [refOutput]
  (repeat' split) <;> simp +decide

@[simp] theorem refSelector_outside (hc : covers ps [.out, .hif, .clk, .block 0x1, .block 0x4] = true)
    (c : Cmd) (tk : Ticket) (m : Mach) : outside ps (refSelector c tk m).1 = outside ps m := by
  refine outside_mono hc ?_
  simp only [refSelector]
  (repeat' split) <;> simp +decide

@[simp] theorem refSync_outside (hc : covers ps [.clk, .block 0x4] = true)
    (c : Cmd) (tk : Ticket) (m : Mach) : outside ps (refSync c tk m).1 = outside ps m := by
  refine outside_mono hc ?_
  simp only [refSync]
  (repeat' split) <;> simp +decide

@[simp] theorem refConfig_outside (hc : covers ps [.out, .fresh, .hif, .clk, .sap, .block 0x1, .block 0x4, .block 0xC, .block 0xD] = true)
    (c : Cmd) (tk : Ticket) (m : Mach) : outside ps (refConfig c tk m).1 = outside ps m := by
  refine outside_mono hc ?_
  unfold refConfig
  split <;> simp +decide

/-! The Heivo ring. -/

@[simp] theorem setRing_outside (hc : covers ps [.ring] = true) (x : RingSt) (m : Mach) : outside ps (setRing x m) = outside ps m :=
  outside_mono hc rfl

@[simp] theorem setPort_outside (hc : covers ps [.ring] = true) (p : Nat) (x : Port) (m : Mach) : outside ps (setPort p x m) = outside ps m :=
  outside_mono hc (by simp +decide [setPort])

@[simp] theorem setEgress_outside (hc : covers ps [.ring] = true) (p : Nat) (x : Egress) (m : Mach) : outside ps (setEgress p x m) = outside ps m :=
  outside_mono hc (by simp +decide [setEgress])

@[simp] theorem count_outside (hc : covers ps [.ring] = true) (p id n : Nat) (m : Mach) : outside ps (count p id n m) = outside ps m :=
  outside_mono hc (by simp +decide [count])

@[simp] theorem clearCounters_outside (hc : covers ps [.ring] = true) (p : Nat) (m : Mach) : outside ps (clearCounters p m) = outside ps m :=
  outside_mono hc (by simp +decide [clearCounters])

@[simp] theorem emit_outside (hc : covers ps [.out] = true) (o : Out) (m : Mach) : outside ps (emit o m) = outside ps m :=
  outside_mono hc rfl

@[simp] theorem advanceCredit_outside (hc : covers ps [.ring] = true) (p now : Nat) (m : Mach) : outside ps (advanceCredit p now m) = outside ps m :=
  outside_mono hc (by simp +decide [advanceCredit])

@[simp] theorem startFrame_outside (hc : covers ps [.out, .ring] = true)
    (p now : Nat) (f : QFrame) (m : Mach) : outside ps (startFrame p now f m) = outside ps m := outside_mono hc (by simp +decide [startFrame])

@[simp] theorem pickFrame_outside (hc : covers ps [.out, .ring] = true) (p now : Nat) (m : Mach) : outside ps (pickFrame p now m) = outside ps m := by
  refine outside_mono hc ?_
  simp only [pickFrame]
  (repeat' split) <;> simp +decide

@[simp] theorem setTok_outside (hc : covers ps [.block 0x8] = true) (p v : Nat) (m : Mach) : outside ps (setTok p v m) = outside ps m :=
  outside_mono hc (by simp +decide [setTok])

@[simp] theorem enqueue_outside (hc : covers ps [.out, .hif, .ring, .block 0x1, .block 0x8] = true)
    (p : Nat) (f : QFrame) (m : Mach) : outside ps (enqueue p f m) = outside ps m := outside_mono hc (by simp +decide [enqueue])

@[simp] theorem toEgress_outside (hc : covers ps [.out, .hif, .ring, .block 0x1, .block 0x8] = true)
    (p now : Nat) (cut : Bool) (f : QFrame) (m : Mach) : outside ps (toEgress p now cut f m) = outside ps m :=
  outside_mono hc (by simp +decide [toEgress])

@[simp] theorem ownFrame_outside (hc : covers ps [.out, .hif, .ring, .block 0x1, .block 0x8] = true)
    (p tc len : Nat) (tag : Option RingTag) (m : Mach) : outside ps (ownFrame p tc len tag m) = outside ps m :=
  outside_mono hc (by simp +decide [ownFrame])

@[simp] theorem sendMkpdu_outside (hc : covers ps [.out, .hif, .ring, .block 0x1, .block 0x8] = true)
    (p : Nat) (m : Mach) : outside ps (sendMkpdu p m) = outside ps m := outside_mono hc (by simp +decide [sendMkpdu])

@[simp] theorem sendHeivo_outside (hc : covers ps [.out, .hif, .ring, .block 0x1, .block 0x8] = true)
    (port sub : Nat) (tag : Option RingTag) (p : Pay) (m : Mach) : outside ps (sendHeivo port sub tag p m) = outside ps m :=
  outside_mono hc (by simp +decide [sendHeivo])

@[simp] theorem sendBoth_outside (hc : covers ps [.out, .hif, .ring, .block 0x1, .block 0x8] = true)
    (sub : Nat) (p : Pay) (m : Mach) : outside ps (sendBoth sub p m) = outside ps m := outside_mono hc (by simp +decide [sendBoth])

@[simp] theorem sendTrio_outside (hc : covers ps [.out, .hif] = true)
    (seat op : Nat) (p : Pay) (m : Mach) : outside ps (sendTrio seat op p m) = outside ps m := outside_mono hc (by simp +decide [sendTrio])

@[simp] theorem joinReport_outside (hc : covers ps [.out, .hif, .dom] = true)
    (seat a b : Nat) (m : Mach) : outside ps (joinReport seat a b m) = outside ps m := outside_mono hc (by simp +decide [joinReport])

@[simp] theorem showSeam_outside (hc : covers ps [.block 0x8] = true) (m : Mach) : outside ps (showSeam m) = outside ps m :=
  outside_mono hc (by simp +decide [showSeam])

@[simp] theorem floodStatus_outside (hc : covers ps [.out, .hif, .ring, .block 0x1, .block 0x8] = true)
    (x : RingStatus) (m : Mach) : outside ps (floodStatus x m) = outside ps m := outside_mono hc (by simp +decide [floodStatus])

@[simp] theorem detectFault_outside (hc : covers ps [.out, .hif, .ring, .block 0x1, .block 0x8] = true)
    (p cause : Nat) (m : Mach) : outside ps (detectFault p cause m) = outside ps m := outside_mono hc (by simp +decide [detectFault])

@[simp] theorem ringStatusReceive_outside (hc : covers ps [.ring] = true)
    (p : Nat) (x : RingStatus) (m : Mach) : outside ps (ringStatusReceive p x m) = outside ps m :=
  outside_mono hc (by simp +decide [ringStatusReceive])

@[simp] theorem ringStatusApply_outside (hc : covers ps [.out, .hif, .ring, .dom, .block 0x1, .block 0x8] = true)
    (m : Mach) : outside ps (ringStatusApply m) = outside ps m := outside_mono hc (by simp +decide [ringStatusApply])

@[simp] theorem epochGraceEnd_outside (hc : covers ps [.ring] = true) (m : Mach) : outside ps (epochGraceEnd m) = outside ps m :=
  outside_mono hc (by simp +decide [epochGraceEnd])

@[simp] theorem linkHeal_outside (hc : covers ps [.out, .hif, .ring, .block 0x1, .block 0x8] = true)
    (p : Nat) (m : Mach) : outside ps (linkHeal p m) = outside ps m := outside_mono hc (by simp +decide [linkHeal])

@[simp] theorem linkEvent_outside (hc : covers ps [.out, .hif, .block 0x1] = true)
    (p state cause : Nat) (m : Mach) : outside ps (linkEvent p state cause m) = outside ps m := outside_mono hc (by simp +decide [linkEvent])

@[simp] theorem showLink_outside (hc : covers ps [.block 0x8] = true)
    (p link sec : Nat) (m : Mach) : outside ps (showLink p link sec m) = outside ps m := outside_mono hc (by simp +decide [showLink])

@[simp] theorem showNbr_outside (hc : covers ps [.block 0x8] = true) (p peer : Nat) (m : Mach) : outside ps (showNbr p peer m) = outside ps m :=
  outside_mono hc (by simp +decide [showNbr])

@[simp] theorem showMark_outside (hc : covers ps [.block 0x8] = true) (p b : Nat) (m : Mach) : outside ps (showMark p b m) = outside ps m :=
  outside_mono hc (by simp +decide [showMark])

@[simp] theorem dropSa_outside (hc : covers ps [.ring, .block 0x8] = true) (p : Nat) (m : Mach) : outside ps (dropSa p m) = outside ps m :=
  outside_mono hc (by simp +decide [dropSa])

@[simp] theorem linkDown_outside (hc : covers ps [.out, .hif, .ring, .block 0x1, .block 0x8] = true)
    (p cause : Nat) (m : Mach) : outside ps (linkDown p cause m) = outside ps m := outside_mono hc (by simp +decide [linkDown])

@[simp] theorem linkUpDeclare_outside (hc : covers ps [.out, .hif, .ring, .block 0x1, .block 0x8] = true)
    (p : Nat) (m : Mach) : outside ps (linkUpDeclare p m) = outside ps m := outside_mono hc (by simp +decide [linkUpDeclare])

@[simp] theorem mkaHello_outside (hc : covers ps [.out, .hif, .ring, .block 0x1, .block 0x8] = true)
    (p : Nat) (m : Mach) : outside ps (mkaHello p m) = outside ps m := outside_mono hc (by simp +decide [mkaHello])

@[simp] theorem mkaPeerLost_outside (hc : covers ps [.out, .hif, .ring, .block 0x1, .block 0x8] = true)
    (p : Nat) (m : Mach) : outside ps (mkaPeerLost p m) = outside ps m := outside_mono hc (by simp +decide [mkaPeerLost])

@[simp] theorem setIns_outside (hc : covers ps [.out, .hif, .ring, .block 0x1, .block 0x8] = true)
    (new cause : Nat) (m : Mach) : outside ps (setIns new cause m) = outside ps m := outside_mono hc (by simp +decide [setIns])

@[simp] theorem drivesLow_outside (hc : covers ps [.ring, .block 0x8] = true) (m : Mach) : outside ps (drivesLow m) = outside ps m :=
  outside_mono hc (by simp +decide [drivesLow])

@[simp] theorem alertPin_outside (hc : covers ps [.out, .sys] = true) (m : Mach) : outside ps (alertPin m) = outside ps m :=
  outside_mono hc (by simp +decide [alertPin])

@[simp] theorem alert_outside {f : Fld} (hf : inBlock ps f = true) (hc : covers ps [.out, .sys] = true) (m : Mach) :
    outside ps (alert f m) = outside ps m := (alertPin_outside hc _).trans (wr_outside hf 1 m)

@[simp] theorem unitLost_outside (hc : covers ps [.out, .hif, .ring, .sys, .block 0x1, .block 0x8, .block 0x11] = true)
    (unit : Nat) (m : Mach) : outside ps (unitLost unit m) = outside ps m := outside_mono hc (by simp +decide [unitLost])

@[simp] theorem unitBack_outside (hc : covers ps [.ring] = true) (unit : Nat) (m : Mach) : outside ps (unitBack unit m) = outside ps m :=
  outside_mono hc (by simp +decide [unitBack])

@[simp] theorem xoLoss_outside (hc : covers ps [.out, .hif, .ring, .sys, .block 0x1, .block 0x8, .block 0x11] = true)
    (m : Mach) : outside ps (xoLoss m) = outside ps m := outside_mono hc (by simp +decide [xoLoss])

@[simp] theorem startInsert_outside (hc : covers ps [.out, .hif, .ring, .block 0x0, .block 0x1, .block 0x8] = true)
    (m : Mach) : outside ps (startInsert m) = outside ps m := outside_mono hc (by simp +decide [startInsert])

@[simp] theorem insertRetry_outside (hc : covers ps [.out, .hif, .ring, .block 0x0, .block 0x1, .block 0x8] = true)
    (m : Mach) : outside ps (insertRetry m) = outside ps m := outside_mono hc (by simp +decide [insertRetry])

@[simp] theorem insertFail_outside (hc : covers ps [.out, .hif, .ring, .block 0x1, .block 0x8] = true)
    (cause : Nat) (m : Mach) : outside ps (insertFail cause m) = outside ps m := outside_mono hc (by simp +decide [insertFail])

@[simp] theorem loopbackDone_outside (hc : covers ps [.out, .hif, .ring, .block 0x1, .block 0x8] = true)
    (pass : Bool) (m : Mach) : outside ps (loopbackDone pass m) = outside ps m := outside_mono hc (by simp +decide [loopbackDone])

@[simp] theorem joinReportSend_outside (hc : covers ps [.out, .hif, .dom] = true) (m : Mach) : outside ps (joinReportSend m) = outside ps m :=
  outside_mono hc (by simp +decide [joinReportSend])

@[simp] theorem tryJoin_outside (hc : covers ps [.out, .hif, .ring, .dom, .block 0x0, .block 0x1, .block 0x8] = true)
    (m : Mach) : outside ps (tryJoin m) = outside ps m := outside_mono hc (by simp +decide [tryJoin])

@[simp] theorem tryTiming_outside (hc : covers ps [.out, .hif, .ring, .dom, .block 0x0, .block 0x1, .block 0x8] = true)
    (m : Mach) : outside ps (tryTiming m) = outside ps m := outside_mono hc (by simp +decide [tryTiming])

@[simp] theorem relaySettled_outside (hc : covers ps [.out, .hif, .ring, .dom, .block 0x0, .block 0x1, .block 0x8] = true)
    (m : Mach) : outside ps (relaySettled m) = outside ps m := outside_mono hc (by simp +decide [relaySettled])

@[simp] theorem keyingTimeout_outside (hc : covers ps [.out, .hif, .ring, .block 0x1, .block 0x8] = true)
    (m : Mach) : outside ps (keyingTimeout m) = outside ps m := outside_mono hc (by simp +decide [keyingTimeout])

@[simp] theorem plannedLeave_outside (hc : covers ps [.out, .hif, .ring, .block 0x1, .block 0x8] = true)
    (cause : Nat) (m : Mach) : outside ps (plannedLeave cause m) = outside ps m := outside_mono hc (by simp +decide [plannedLeave])

@[simp] theorem stopRing_outside (hc : covers ps [.out, .hif, .ring, .block 0x1, .block 0x8] = true)
    (m : Mach) : outside ps (stopRing m) = outside ps m := outside_mono hc (by simp +decide [stopRing])

@[simp] theorem ringCtrlPlain_outside (hc : covers ps [.block 0x8] = true) (v : Nat) (m : Mach) : outside ps (ringCtrlPlain v m) = outside ps m :=
  outside_mono hc (by simp +decide [ringCtrlPlain])

@[simp] theorem enablePort_outside (hc : covers ps [.tim, .ring, .block 0x5] = true)
    (p code fec : Nat) (m : Mach) : outside ps (enablePort p code fec m) = outside ps m := outside_mono hc (by simp +decide [enablePort])

@[simp] theorem writeEnable_outside (hc : covers ps [.out, .hif, .tim, .ring, .block 0x0, .block 0x1, .block 0x3, .block 0x5, .block 0x8] = true)
    (latched : Bool) (b : Nat) (m : Mach) : outside ps (writeEnable latched b m) = outside ps m := outside_mono hc (by simp +decide [writeEnable])

@[simp] theorem writeForce_outside (hc : covers ps [.out, .hif, .ring, .block 0x0, .block 0x1, .block 0x3, .block 0x8] = true)
    (latched : Bool) (b : Nat) (m : Mach) : outside ps (writeForce latched b m) = outside ps m := outside_mono hc (by simp +decide [writeForce])

@[simp] theorem ringCtrlWrite_outside (hc : covers ps [.out, .hif, .tim, .ring, .block 0x0, .block 0x1, .block 0x3, .block 0x5, .block 0x8] = true)
    (latched : Bool) (v : Nat) (m : Mach) : outside ps (ringCtrlWrite latched v m) = outside ps m := outside_mono hc (by simp +decide [ringCtrlWrite])

@[simp] theorem ringEnableSet_outside (hc : covers ps [.out, .hif, .tim, .ring, .block 0x0, .block 0x1, .block 0x3, .block 0x5, .block 0x8] = true)
    (v : Word) (m : Mach) : outside ps (ringEnableSet v m) = outside ps m := outside_mono hc (by simp +decide [ringEnableSet])

@[simp] theorem ringEnableClear_outside (hc : covers ps [.out, .hif, .tim, .ring, .block 0x0, .block 0x1, .block 0x3, .block 0x5, .block 0x8] = true)
    (v : Word) (m : Mach) : outside ps (ringEnableClear v m) = outside ps m := outside_mono hc (by simp +decide [ringEnableClear])

@[simp] theorem forceBypass_outside (hc : covers ps [.out, .hif, .tim, .ring, .block 0x0, .block 0x1, .block 0x3, .block 0x5, .block 0x8] = true)
    (v : Word) (m : Mach) : outside ps (forceBypass v m) = outside ps m := outside_mono hc (by simp +decide [forceBypass])

@[simp] theorem egressFrameEnd_outside (hc : covers ps [.out, .ring, .block 0x8] = true)
    (p now : Nat) (m : Mach) : outside ps (egressFrameEnd p now m) = outside ps m := by
  refine outside_mono hc ?_
  simp only [egressFrameEnd]
  (repeat' split) <;> simp +decide

@[simp] theorem gateIntervalEnd_outside (hc : covers ps [.out, .ring] = true)
    (p now : Nat) (m : Mach) : outside ps (gateIntervalEnd p now m) = outside ps m := outside_mono hc (by simp +decide [gateIntervalEnd])

@[simp] theorem tasChangeArm_outside (hc : covers ps [.ring, .block 0x8] = true)
    (p : Nat) (hi : Word) (m : Mach) : outside ps (tasChangeArm p hi m) = outside ps m := outside_mono hc (by simp +decide [tasChangeArm])

@[simp] theorem tasChangeApply_outside (hc : covers ps [.ring, .block 0x8] = true)
    (p : Nat) (m : Mach) : outside ps (tasChangeApply p m) = outside ps m := outside_mono hc (by simp +decide [tasChangeApply])

@[simp] theorem queueLaunch_outside (hc : covers ps [.tim, .ring] = true)
    (p q : Nat) (f : LaunchFrame) (m : Mach) : outside ps (queueLaunch p q f m) = outside ps m := outside_mono hc (by simp +decide [queueLaunch])

@[simp] theorem launchReached_outside (hc : covers ps [.out, .tim, .ring] = true)
    (p q now : Nat) (m : Mach) : outside ps (launchReached p q now m) = outside ps m := by
  refine outside_mono hc ?_
  unfold launchReached
  split <;> simp +decide

@[simp] theorem icvFail_outside (hc : covers ps [.out, .hif, .ring, .block 0x1, .block 0x8] = true)
    (p : Nat) (fcs : Bool) (m : Mach) : outside ps (icvFail p fcs m) = outside ps m := outside_mono hc (by simp +decide [icvFail])

@[simp] theorem deliverLocal_outside (hc : covers ps [.out, .ring] = true)
    (p : Nat) (f : RingFrame) (m : Mach) : outside ps (deliverLocal p f m) = outside ps m := outside_mono hc (by simp +decide [deliverLocal])

@[simp] theorem forwardFrame_outside (hc : covers ps [.out, .hif, .ring, .block 0x1, .block 0x8] = true)
    (p : Nat) (f : RingFrame) (m : Mach) : outside ps (forwardFrame p f m) = outside ps m := outside_mono hc (by simp +decide [forwardFrame])

@[simp] theorem ringFrame_outside (hc : covers ps [.out, .hif, .ring, .block 0x1, .block 0x8] = true)
    (p : Nat) (f : RingFrame) (m : Mach) : outside ps (ringFrame p f m) = outside ps m := by
  refine outside_mono hc ?_
  unfold ringFrame
  extract_lets _ n n1 _ n2
  have h : outside [.out, .hif, .ring, .block 0x1, .block 0x8] n = outside [.out, .hif, .ring, .block 0x1, .block 0x8] m := setPort_outside rfl _ _ m
  have h1 :
      outside [.out, .hif, .ring, .block 0x1, .block 0x8] n1 = outside [.out, .hif, .ring, .block 0x1, .block 0x8] m := (count_outside rfl _ _ _ n).trans h
  have h2 :
      outside [.out, .hif, .ring, .block 0x1, .block 0x8] n2 = outside [.out, .hif, .ring, .block 0x1, .block 0x8] m := by
      unfold n2
      (repeat' split) <;> simp +decide [h1]
  clear_value n n1 n2
  (repeat' split) <;> simp +decide [h, h2]

@[simp] theorem localFrame_outside (hc : covers ps [.out, .hif, .ring, .block 0x1, .block 0x8] = true)
    (p : Nat) (f : LocalFrame) (m : Mach) : outside ps (localFrame p f m) = outside ps m := outside_mono hc (by simp +decide [localFrame])

@[simp] theorem ringMarker_outside (hc : covers ps [.ring, .block 0x8] = true)
    (p : Nat) (k : MarkerIn) (m : Mach) : outside ps (ringMarker p k m) = outside ps m := outside_mono hc (by simp +decide [ringMarker])

@[simp] theorem markerMissed_outside (hc : covers ps [.out, .hif, .ring, .block 0x1, .block 0x8] = true)
    (p : Nat) (m : Mach) : outside ps (markerMissed p m) = outside ps m := outside_mono hc (by simp +decide [markerMissed])

@[simp] theorem mdioGo_outside (hc : covers ps [.ring, .block 0x8] = true) (v : Word) (m : Mach) : outside ps (mdioGo v m) = outside ps m :=
  outside_mono hc (by simp +decide [mdioGo])

@[simp] theorem phyResult_outside (hc : covers ps [.out, .hif, .ring, .block 0x1, .block 0x8] = true)
    (q : Nat × Nat × Nat) (m : Mach) : outside ps (phyResult q m) = outside ps m := outside_mono hc (by simp +decide [phyResult])

@[simp] theorem mdioDone_outside (hc : covers ps [.out, .hif, .ring, .block 0x1, .block 0x8] = true)
    (data : Nat) (m : Mach) : outside ps (mdioDone data m) = outside ps m := outside_mono hc (by simp +decide [mdioDone])

@[simp] theorem phyPoll_outside (hc : covers ps [.out, .hif, .ring, .block 0x1, .block 0x8] = true)
    (p pma pcs : Nat) (m : Mach) : outside ps (phyPoll p pma pcs m) = outside ps m := outside_mono hc (by simp +decide [phyPoll])

/-! The route cross-fade and the voter. -/

@[simp] theorem critMap_outside (hc : covers ps [.block 0x11] = true)
    (c : Nat) (x : Option Crit) (m : Mach) : outside ps (critMap c x m) = outside ps m := outside_mono hc (by simp +decide [critMap])

@[simp] theorem setVote_outside (hc : covers ps [.vote] = true) (v : Voter) (m : Mach) : outside ps (setVote v m) = outside ps m :=
  outside_mono hc rfl

@[simp] theorem showFaded_outside (hc : covers ps [.block 0x11] = true) (m : Mach) : outside ps (showFaded m) = outside ps m :=
  outside_mono hc (by simp +decide [showFaded])

@[simp] theorem voterCut_outside (hc : covers ps [.vote, .block 0x11] = true) (m : Mach) : outside ps (voterCut m) = outside ps m :=
  outside_mono hc (by simp +decide [voterCut])

@[simp] theorem restoreCopy_outside (hc : covers ps [.frm, .block 0x11] = true)
    (c : Nat) (p : CritCopy) (ws : List (List Int)) (m : Mach) : outside ps (restoreCopy c p ws m) = outside ps m :=
  outside_mono hc (by simp +decide [restoreCopy])

@[simp] theorem reportDissent_outside (hc : covers ps [.out, .hif, .vote, .block 0x1, .block 0x11] = true)
    (c j cause : Nat) (x : Crit) (m : Mach) : outside ps (reportDissent c j cause x m) = outside ps m := by
  refine outside_mono hc ?_
  unfold reportDissent
  (repeat' split) <;> simp +decide

@[simp] theorem noMajority_outside (hc : covers ps [.out, .hif, .frm, .sys, .block 0x1, .block 0x11] = true)
    (c : Nat) (x : Crit) (cause : Nat) (bs : List Ballot) (m : Mach) : outside ps (noMajority c x cause bs m) = outside ps m := by
  refine outside_mono hc ?_
  simp only [noMajority]
  split <;> simp +decide

@[simp] theorem critWrite_outside (hc : covers ps [.frm, .vote] = true)
    (late : List Nat) (slot : Nat) (v : Option (List Int)) (m : Mach) : outside ps (critWrite late slot v m) = outside ps m :=
  outside_mono hc (by simp +decide [critWrite])

@[simp] theorem voterReset_outside (hc : covers ps [.vote, .block 0x11] = true) (m : Mach) : outside ps (voterReset m) = outside ps m :=
  outside_mono hc (clearRange_outside (b := 0x11) rfl (by decide) (by decide) m)

/-! The correction engine and the measurement. -/

@[simp] theorem setCor_outside (hc : covers ps [.cor] = true) (x : Cor) (m : Mach) : outside ps (setCor x m) = outside ps m :=
  outside_mono hc rfl

@[simp] theorem corrSat_outside (hc : covers ps [.out, .hif, .frm, .block 0x1, .block 0xF] = true)
    (ix c sats : Nat) (m : Mach) : outside ps (corrSat ix c sats m) = outside ps m := outside_mono hc (by simp +decide [corrSat])

@[simp] theorem corrNode_outside (hc : covers ps [.out, .hif, .frm, .cor, .block 0x1, .block 0xF] = true)
    (d : NodeD) (c : Nat) (m : Mach) : outside ps (corrNode d c m).1 = outside ps m := by
  refine outside_mono hc ?_
  unfold corrNode
  (repeat' split) <;> simp +decide

@[simp] theorem showMeas_outside (hc : covers ps [.block 0xF] = true) (m : Mach) : outside ps (showMeas m) = outside ps m := by
  refine outside_mono hc ?_
  unfold showMeas
  split <;> simp +decide

@[simp] theorem holdStopping_outside (hc : covers ps [.out, .hif] = true)
    (c : Cmd) (tk : Ticket) (began : Nat) (m : Mach) : outside ps (holdStopping c tk began m).1 = outside ps m :=
  outside_mono hc ((outside_with_hif rfl _ _).trans (interim_outside rfl ..))

@[simp] theorem measureRun_outside (hc : covers ps [.out, .hif, .rend, .cor, .block 0xF] = true)
    (c : Cmd) (tk : Ticket) (m : Mach) : outside ps (measureRun c tk m).1 = outside ps m := by
  refine outside_mono hc ?_
  unfold measureRun
  (repeat' split) <;> simp +decide

@[simp] theorem measAbort_outside (hc : covers ps [.cor, .block 0xF] = true)
    (result : Nat) (m : Mach) : outside ps (measAbort result m) = outside ps m := by
  refine outside_mono hc ?_
  unfold measAbort
  split <;> simp +decide

@[simp] theorem measCommit_outside (hc : covers ps [.rend, .cor, .block 0xF] = true) (m : Mach) : outside ps (measCommit m) = outside ps m := by
  refine outside_mono hc ?_
  unfold measCommit
  split <;> simp +decide

@[simp] theorem measureDone_outside (hc : covers ps [.out, .fresh, .hif, .cor, .block 0x1, .block 0xF] = true)
    (m : Mach) : outside ps (measureDone m) = outside ps m := by
  refine outside_mono hc ?_
  unfold measureDone
  split <;> simp +decide

@[simp] theorem corrCut_outside (hc : covers ps [.cor, .block 0xF] = true)
    (old new : DeckBody) (m : Mach) : outside ps (corrCut old new m) = outside ps m := by
  refine outside_mono hc ?_
  unfold corrCut
  split <;> simp +decide

@[simp] theorem corrSleep_outside (hc : covers ps [.cor] = true) (m : Mach) : outside ps (corrSleep m) = outside ps m :=
  outside_mono hc (by simp +decide [corrSleep])

@[simp] theorem corrWake_outside (hc : covers ps [.frm, .cor] = true) (m : Mach) : outside ps (corrWake m) = outside ps m :=
  outside_mono hc (by simp +decide [corrWake])

@[simp] theorem corrRenderReset_outside (hc : covers ps [.cor, .block 0xF] = true) (m : Mach) : outside ps (corrRenderReset m) = outside ps m :=
  outside_mono hc (by simp +decide [corrRenderReset])

/-! The intercom. -/

@[simp] theorem setIcom_outside (hc : covers ps [.icom] = true) (c : Nat) (x : Icom) (m : Mach) : outside ps (setIcom c x m) = outside ps m :=
  outside_mono hc rfl

@[simp] theorem showIcom_outside (hc : covers ps [.block 0x13] = true) (m : Mach) : outside ps (showIcom m) = outside ps m :=
  outside_mono hc (by simp +decide [showIcom])

@[simp] theorem icomEvent_outside (hc : covers ps [.out, .hif, .block 0x1] = true)
    (c state erle : Nat) (m : Mach) : outside ps (icomEvent c state erle m) = outside ps m := outside_mono hc (by simp +decide [icomEvent])

@[simp] theorem icomClear_outside (hc : covers ps [.block 0x13] = true) (c : Nat) (m : Mach) : outside ps (icomClear c m) = outside ps m :=
  outside_mono hc (by simp +decide [icomClear])

@[simp] theorem icomOpen_outside (hc : covers ps [.out, .hif, .icom, .block 0x1, .block 0x13] = true)
    (k : Nat) (c : Cmd) (m : Mach) : outside ps (icomOpen k c m) = outside ps m := outside_mono hc (by simp +decide [icomOpen])

@[simp] theorem icomConnect_outside (hc : covers ps [.out, .hif, .icom, .block 0x1, .block 0x13] = true)
    (c : Cmd) (tk : Ticket) (m : Mach) : outside ps (icomConnect c tk m).1 = outside ps m := by
  refine outside_mono hc ?_
  simp only [icomConnect]
  (repeat' split) <;> simp +decide

@[simp] theorem icomConverged_outside (hc : covers ps [.out, .hif, .block 0x1, .block 0x13] = true)
    (c erle : Nat) (m : Mach) : outside ps (icomConverged c erle m) = outside ps m := outside_mono hc (by simp +decide [icomConverged])

@[simp] theorem icomDiverged_outside (hc : covers ps [.out, .hif, .block 0x1, .block 0x13] = true)
    (c : Nat) (m : Mach) : outside ps (icomDiverged c m) = outside ps m := outside_mono hc (by simp +decide [icomDiverged])

@[simp] theorem talkEvent_outside (hc : covers ps [.out, .hif, .block 0x1] = true)
    (c phase : Nat) (m : Mach) : outside ps (talkEvent c phase m) = outside ps m := outside_mono hc (by simp +decide [talkEvent])

@[simp] theorem icomTalk_outside (hc : covers ps [.out, .hif, .icom, .block 0x1, .block 0x13] = true)
    (c : Nat) (m : Mach) : outside ps (icomTalk c m) = outside ps m := outside_mono hc (by simp +decide [icomTalk])

@[simp] theorem duckHoldExpiry_outside (hc : covers ps [.out, .hif, .icom, .block 0x1, .block 0x13] = true)
    (c : Nat) (m : Mach) : outside ps (duckHoldExpiry c m) = outside ps m := outside_mono hc (by simp +decide [duckHoldExpiry])

@[simp] theorem icomCut_outside (hc : covers ps [.out, .hif, .icom, .block 0x1, .block 0x13] = true)
    (m : Mach) : outside ps (icomCut m) = outside ps m := outside_mono hc (by simp +decide [icomCut])

@[simp] theorem icomStop_outside (hc : covers ps [.icom, .block 0x13] = true) (m : Mach) : outside ps (icomStop m) = outside ps m :=
  outside_mono hc (by simp +decide [icomStop])

@[simp] theorem icomSend_outside (hc : covers ps [.fresh] = true) (c : Nat) (m : Mach) : outside ps (icomSend c m).1 = outside ps m := by
  refine outside_mono hc ?_
  unfold icomSend
  split <;> simp +decide

/-! Announcements. -/

@[simp] theorem setAnn_outside (hc : covers ps [.ann] = true) (a : Ann) (m : Mach) : outside ps (setAnn a m) = outside ps m :=
  outside_mono hc rfl

@[simp] theorem watchStore_outside (hc : covers ps [.out, .hif, .block 0x1] = true) (m : Mach) : outside ps (watchStore m) = outside ps m :=
  outside_mono hc (by simp +decide [watchStore])

@[simp] theorem clipWrite_outside (hc : covers ps [.out, .hif, .ann, .block 0x1] = true)
    (c : Cmd) (tk : Ticket) (m : Mach) : outside ps (clipWrite c tk m).1 = outside ps m := by
  refine outside_mono hc ?_
  simp only [clipWrite]
  (repeat' split) <;> simp +decide

@[simp] theorem clipWriteDone_outside (hc : covers ps [.out, .hif, .ann, .block 0x1] = true)
    (n : Nat) (m : Mach) : outside ps (clipWriteDone n m) = outside ps m := by
  refine outside_mono hc ?_
  unfold clipWriteDone
  split <;> simp +decide

@[simp] theorem msgDefine_outside (hc : covers ps [.ann] = true)
    (c : Cmd) (tk : Ticket) (m : Mach) : outside ps (msgDefine c tk m).1 = outside ps m := by
  refine outside_mono hc ?_
  simp only [msgDefine]
  split <;> simp +decide

@[simp] theorem schedWrite_outside (hc : covers ps [.ann] = true)
    (c : Cmd) (tk : Ticket) (m : Mach) : outside ps (schedWrite c tk m).1 = outside ps m := by
  refine outside_mono hc ?_
  simp only [schedWrite]
  split <;> simp +decide

@[simp] theorem setPlay_outside (hc : covers ps [.ann] = true) (k : Nat) (p : Play) (m : Mach) : outside ps (setPlay k p m) = outside ps m :=
  outside_mono hc (by simp +decide [setPlay])

@[simp] theorem annEnd_outside (hc : covers ps [.out, .hif, .block 0x1] = true)
    (id msg reason zones : Nat) (m : Mach) : outside ps (annEnd id msg reason zones m) = outside ps m := outside_mono hc (by simp +decide [annEnd])

@[simp] theorem dropReq_outside (hc : covers ps [.out, .hif, .ann, .block 0x1, .block 0x12] = true)
    (r : Req) (reason : Nat) (m : Mach) : outside ps (dropReq r reason m) = outside ps m := outside_mono hc (by simp +decide [dropReq])

@[simp] theorem waitReq_outside (hc : covers ps [.out, .hif, .ann, .block 0x1, .block 0x12] = true)
    (r : Req) (m : Mach) : outside ps (waitReq r m) = outside ps m := outside_mono hc (by simp +decide [waitReq])

@[simp] theorem changeZone_outside (hc : covers ps [.ann] = true)
    (z : Nat) (new : Option Nat) (m : Mach) : outside ps (changeZone z new m) = outside ps m := outside_mono hc (by simp +decide [changeZone])

@[simp] theorem endPlay_outside (hc : covers ps [.out, .hif, .ann, .block 0x1, .block 0x12] = true)
    (k reason : Nat) (m : Mach) : outside ps (endPlay k reason m) = outside ps m := by
  refine outside_mono hc ?_
  unfold endPlay
  split <;> simp +decide

@[simp] theorem waitLimit_outside (hc : covers ps [.out, .hif, .ann, .block 0x1, .block 0x12] = true)
    (k : Nat) (m : Mach) : outside ps (waitLimit k m) = outside ps m := by
  refine outside_mono hc ?_
  unfold waitLimit
  split <;> simp +decide

@[simp] theorem annPlay_outside (hc : covers ps [.ann] = true) (c : Cmd) (tk : Ticket) (m : Mach) : outside ps (annPlay c tk m).1 = outside ps m := by
  refine outside_mono hc ?_
  unfold annPlay
  (repeat' split) <;> simp +decide

@[simp] theorem annStop_outside (hc : covers ps [.out, .hif, .ann, .block 0x1, .block 0x12] = true)
    (c : Cmd) (tk : Ticket) (m : Mach) : outside ps (annStop c tk m).1 = outside ps m := by
  refine outside_mono hc ?_
  simp only [annStop]
  (repeat' split) <;> simp +decide

@[simp] theorem fire_outside (hc : covers ps [.out, .hif, .ann, .block 0x1, .block 0x12] = true)
    (e : Nat) (x : Sched) (src : Nat) (m : Mach) : outside ps (fire e x src m) = outside ps m := by
  refine outside_mono hc ?_
  unfold fire
  split <;> simp +decide

@[simp] theorem scheduleFire_outside (hc : covers ps [.out, .hif, .ann, .block 0x1, .block 0x12] = true)
    (e : Nat) (m : Mach) : outside ps (scheduleFire e m) = outside ps m := by
  refine outside_mono hc ?_
  unfold scheduleFire
  split <;> simp +decide

@[simp] theorem gpioTrigger_outside (hc : covers ps [.ann] = true) (e : Nat) (m : Mach) : outside ps (gpioTrigger e m) = outside ps m := by
  refine outside_mono hc ?_
  unfold gpioTrigger
  split <;> simp +decide

@[simp] theorem releasePlay_outside (hc : covers ps [.out, .hif, .ann, .block 0x1, .block 0x12] = true)
    (k : Nat) (m : Mach) : outside ps (releasePlay k m) = outside ps m := by
  refine outside_mono hc ?_
  unfold releasePlay
  split <;> simp +decide

@[simp] theorem gpioRelease_outside (hc : covers ps [.out, .hif, .ann, .block 0x1, .block 0x12] = true)
    (e : Nat) (m : Mach) : outside ps (gpioRelease e m) = outside ps m := by
  refine outside_mono hc ?_
  unfold gpioRelease
  split <;> simp +decide

@[simp] theorem annRun_outside (hc : covers ps [.fresh, .ann] = true) (m : Mach) : outside ps (annRun m) = outside ps m :=
  outside_mono hc (forEach_outside _ _ (fun k n => by (repeat' split) <;> simp +decide) m)

@[simp] theorem annCommit_outside (hc : covers ps [.ann] = true) (m : Mach) : outside ps (annCommit m) = outside ps m :=
  outside_mono hc (by simp +decide [annCommit])

@[simp] theorem playEnd_outside (hc : covers ps [.out, .hif, .ann, .block 0x1, .block 0x12] = true)
    (p : Nat) (m : Mach) : outside ps (playEnd p m) = outside ps m := by
  refine outside_mono hc ?_
  unfold playEnd
  (repeat' split) <;> simp +decide

@[simp] theorem pageLimit_outside (hc : covers ps [.ann] = true) (p : Nat) (m : Mach) : outside ps (pageLimit p m) = outside ps m := by
  refine outside_mono hc ?_
  unfold pageLimit
  (repeat' split) <;> simp +decide

@[simp] theorem clipError_outside (hc : covers ps [.out, .hif, .ann, .block 0x1, .block 0x12] = true)
    (p unit : Nat) (m : Mach) : outside ps (clipError p unit m) = outside ps m := by
  refine outside_mono hc ?_
  unfold clipError
  (repeat' split) <;> simp +decide

@[simp] theorem unlatch_outside (hc : covers ps [.out, .hif, .ann, .block 0x1, .block 0x12] = true)
    (z : Nat) (m : Mach) : outside ps (unlatch z m) = outside ps m := by
  refine outside_mono hc ?_
  simp only [unlatch]
  (repeat' split) <;> simp +decide

@[simp] theorem trumpClear_outside (hc : covers ps [.out, .hif, .ann, .block 0x1, .block 0x12] = true)
    (c : Cmd) (tk : Ticket) (m : Mach) : outside ps (trumpClear c tk m).1 = outside ps m := by
  refine outside_mono hc ?_
  unfold trumpClear
  split <;> simp +decide

@[simp] theorem annRenderReset_outside (hc : covers ps [.out, .hif, .ann, .block 0x1] = true)
    (m : Mach) : outside ps (annRenderReset m) = outside ps m := outside_mono hc (by simp +decide [annRenderReset])

/-! Domain time. -/

@[simp] theorem setTim_outside (hc : covers ps [.tim] = true) (x : Tim) (m : Mach) : outside ps (setTim x m) = outside ps m :=
  outside_mono hc rfl

@[simp] theorem setDir_outside (hc : covers ps [.tim] = true) (p : Nat) (x : TimeDir) (m : Mach) : outside ps (setDir p x m) = outside ps m :=
  outside_mono hc (by simp +decide [setDir])

@[simp] theorem showDir_outside (hc : covers ps [.block 0x5] = true) (p b : Nat) (m : Mach) : outside ps (showDir p b m) = outside ps m :=
  outside_mono hc (by simp +decide [showDir])

@[simp] theorem measureLink_outside (hc : covers ps [.tim, .block 0x5] = true)
    (p : Nat) (k : MarkerIn) (ingress : Nat) (m : Mach) : outside ps (measureLink p k ingress m) = outside ps m :=
  outside_mono hc (by simp +decide [measureLink])

@[simp] theorem followSource_outside (hc : covers ps [.out, .hif, .tim, .block 0x1, .block 0x5] = true)
    (gen seat : Nat) (theta : Int) (m : Mach) : outside ps (followSource gen seat theta m) = outside ps m :=
  outside_mono hc (by simp +decide [followSource])

@[simp] theorem takeRecord_outside (hc : covers ps [.tim, .block 0x5] = true)
    (p gen seat : Nat) (x : TimeDir) (m : Mach) : outside ps (takeRecord p gen seat x m) = outside ps m :=
  outside_mono hc (by simp +decide [takeRecord])

@[simp] theorem timeRecord_outside (hc : covers ps [.out, .hif, .tim, .ring, .block 0x1, .block 0x5] = true)
    (p gen seat : Nat) (x : TimeDir) (m : Mach) : outside ps (timeRecord p gen seat x m) = outside ps m :=
  outside_mono hc (by simp +decide [timeRecord])

@[simp] theorem markerReceive_outside (hc : covers ps [.out, .hif, .tim, .ring, .block 0x1, .block 0x5, .block 0x8] = true)
    (p : Nat) (k : MarkerIn) (m : Mach) : outside ps (markerReceive p k m) = outside ps m := outside_mono hc (by simp +decide [markerReceive])

@[simp] theorem markerLaunch_outside (hc : covers ps [.out, .hif, .tim, .ring, .block 0x1, .block 0x8] = true)
    (p at_ : Nat) (m : Mach) : outside ps (markerLaunch p at_ m) = outside ps m := outside_mono hc (by simp +decide [markerLaunch])

@[simp] theorem unlock_outside (hc : covers ps [.out, .hif, .tim, .block 0x1, .block 0x5] = true)
    (cause : Nat) (m : Mach) : outside ps (unlock cause m) = outside ps m := outside_mono hc (by simp +decide [unlock])

@[simp] theorem timeLost_outside (hc : covers ps [.out, .hif, .clk, .tim, .block 0x1, .block 0x4, .block 0x5] = true)
    (cause : Nat) (m : Mach) : outside ps (timeLost cause m) = outside ps m := outside_mono hc (by simp +decide [timeLost])

@[simp] theorem timeDirectionLost_outside (hc : covers ps [.out, .hif, .clk, .tim, .block 0x1, .block 0x4, .block 0x5] = true)
    (p : Nat) (m : Mach) : outside ps (timeDirectionLost p m) = outside ps m := outside_mono hc (by simp +decide [timeDirectionLost])

@[simp] theorem timeFirstStep_outside (hc : covers ps [.clk, .tim] = true) (m : Mach) : outside ps (timeFirstStep m) = outside ps m := by
  refine outside_mono hc ?_
  unfold timeFirstStep
  split
  · exact (instantMoved_outside rfl _ _).trans rfl
  · rfl

@[simp] theorem talkersStart_outside (hc : covers ps [.str] = true) (m : Mach) : outside ps (talkersStart m) = outside ps m :=
  outside_mono hc (by simp +decide [talkersStart])

@[simp] theorem declareLock_outside (hc : covers ps [.out, .hif, .tim, .ring, .str, .dom, .block 0x0, .block 0x1, .block 0x4, .block 0x5, .block 0x8] = true)
    (kind : Nat) (step : Int) (m : Mach) : outside ps (declareLock kind step m) = outside ps m := outside_mono hc (by simp +decide [declareLock])

@[simp] theorem timeLock_outside (hc : covers ps [.out, .hif, .tim, .ring, .str, .dom, .block 0x0, .block 0x1, .block 0x4, .block 0x5, .block 0x8] = true)
    (m : Mach) : outside ps (timeLock m) = outside ps m := outside_mono hc (by simp +decide [timeLock])

@[simp] theorem showSlew_outside (hc : covers ps [.out, .hif, .tim, .block 0x1, .block 0x5] = true)
    (m : Mach) : outside ps (showSlew m) = outside ps m := outside_mono hc (by simp +decide [showSlew])

@[simp] theorem loadSlew_outside (hc : covers ps [.out, .hif, .tim, .block 0x1, .block 0x4, .block 0x5] = true)
    (th : Int) (m : Mach) : outside ps (loadSlew th m) = outside ps m := outside_mono hc (by simp +decide [loadSlew])

@[simp] theorem stepRefused_outside (hc : covers ps [.out, .hif, .tim, .block 0x1, .block 0x4, .block 0x5] = true)
    (m : Mach) : outside ps (stepRefused m) = outside ps m := outside_mono hc (by simp +decide [stepRefused])

@[simp] theorem slewDone_outside (hc : covers ps [.out, .hif, .tim, .block 0x1, .block 0x4, .block 0x5] = true)
    (m : Mach) : outside ps (slewDone m) = outside ps m := outside_mono hc (by simp +decide [slewDone])

@[simp] theorem sourceStart_outside (hc : covers ps [.tim] = true) (m : Mach) : outside ps (sourceStart m) = outside ps m :=
  outside_mono hc (by simp +decide [sourceStart])

@[simp] theorem sourceBegin_outside (hc : covers ps [.tim, .block 0x4, .block 0x5] = true) (m : Mach) : outside ps (sourceBegin m) = outside ps m :=
  outside_mono hc (by simp +decide [sourceBegin])

@[simp] theorem dropCand4_outside (hc : covers ps [.out, .hif, .clk, .block 0x1, .block 0x4] = true)
    (m : Mach) : outside ps (dropCand4 m) = outside ps m := outside_mono hc (by simp +decide [dropCand4])

@[simp] theorem stopSlew_outside (hc : covers ps [.tim, .block 0x4, .block 0x5] = true) (m : Mach) : outside ps (stopSlew m) = outside ps m :=
  outside_mono hc (by simp +decide [stopSlew])

@[simp] theorem becomeSource_outside (hc : covers ps [.out, .hif, .clk, .tim, .block 0x1, .block 0x4, .block 0x5] = true)
    (m : Mach) : outside ps (becomeSource m) = outside ps m := outside_mono hc (by simp +decide [becomeSource])

@[simp] theorem endSource_outside (hc : covers ps [.out, .hif, .clk, .tim, .block 0x1, .block 0x4, .block 0x5] = true)
    (m : Mach) : outside ps (endSource m) = outside ps m := outside_mono hc (by simp +decide [endSource])

@[simp] theorem todPpsEdge_outside (hc : covers ps [.tim] = true) (m : Mach) : outside ps (todPpsEdge m) = outside ps m :=
  outside_mono hc (by simp +decide [todPpsEdge])

@[simp] theorem ptpState_outside (hc : covers ps [.out, .hif, .block 0x1, .block 0x5] = true)
    (l new cls gm steps : Nat) (m : Mach) : outside ps (ptpState l new cls gm steps m) = outside ps m := outside_mono hc (by simp +decide [ptpState])

@[simp] theorem ptpGo_outside (hc : covers ps [.out, .hif, .clk, .tim, .block 0x1, .block 0x4, .block 0x5] = true)
    (l new : Nat) (m : Mach) : outside ps (ptpGo l new m) = outside ps m := outside_mono hc (by simp +decide [ptpGo])

theorem unitCleared_outside (hc : covers ps [.tim, .block 0x4, .block 0x5] = true) (m : Mach) : outside ps (unitCleared m) = outside ps m := by
  refine outside_mono hc ?_
  exact rclears_outside (l := [.tim, .block 0x4, .block 0x5]) (fs := restartFlds) (by decide) { m with tim := _ }

theorem portsListen_outside (hc : covers ps [.out, .hif, .clk, .tim, .block 0x1, .block 0x4, .block 0x5] = true) (m : Mach) :
    outside ps (portsListen m) = outside ps m :=
  outside_mono hc (by simp +decide [portsListen, unitRestarted, unitCleared_outside])

@[simp] theorem timRestart_outside (hc : covers ps [.out, .hif, .clk, .tim, .block 0x1, .block 0x4, .block 0x5] = true)
    (m : Mach) : outside ps (timRestart m) = outside ps m := by
  refine outside_mono hc ?_
  rw [timRestart_eq]
  simp +decide [portsListen_outside]

@[simp] theorem setPtp_outside (hc : covers ps [.tim] = true) (l : Nat) (x : Ptp) (m : Mach) : outside ps (setPtp l x m) = outside ps m :=
  outside_mono hc (by simp +decide [setPtp])

@[simp] theorem ptpTake_outside (hc : covers ps [.out, .fresh, .hif, .clk, .tim, .block 0x1, .block 0x4, .block 0x5] = true)
    (l : Nat) (g : GmSet) (m : Mach) : outside ps (ptpTake l g m) = outside ps m := outside_mono hc (by simp +decide [ptpTake])

@[simp] theorem ptpAnnounce_outside (hc : covers ps [.out, .fresh, .hif, .clk, .tim, .block 0x1, .block 0x4, .block 0x5] = true)
    (l : Nat) (g : GmSet) (m : Mach) : outside ps (ptpAnnounce l g m) = outside ps m := outside_mono hc (by simp +decide [ptpAnnounce])

@[simp] theorem ptpSync_outside (hc : covers ps [.tim, .block 0x5] = true)
    (l t1 t2 : Nat) (m : Mach) : outside ps (ptpSync l t1 t2 m) = outside ps m := outside_mono hc (by simp +decide [ptpSync])

@[simp] theorem ptpDelay_outside (hc : covers ps [.tim] = true)
    (l t1 t2 t3 t4 : Nat) (m : Mach) : outside ps (ptpDelay l t1 t2 t3 t4 m) = outside ps m := outside_mono hc (by simp +decide [ptpDelay])

@[simp] theorem ptpReceive_outside (hc : covers ps [.out, .fresh, .hif, .clk, .tim, .block 0x1, .block 0x4, .block 0x5] = true)
    (l : Nat) (k : PtpIn) (m : Mach) : outside ps (ptpReceive l k m) = outside ps m := by
  refine outside_mono hc ?_
  unfold ptpReceive
  (repeat' split) <;> simp +decide

@[simp] theorem ptpInterval_outside (hc : covers ps [.out, .fresh, .hif, .tim, .ring, .block 0x1, .block 0x8] = true)
    (l kind : Nat) (m : Mach) : outside ps (ptpInterval l kind m) = outside ps m := outside_mono hc (by simp +decide [ptpInterval])

@[simp] theorem ptpTimeout_outside (hc : covers ps [.out, .fresh, .hif, .clk, .tim, .block 0x1, .block 0x4, .block 0x5] = true)
    (l : Nat) (new : Option GmSet) (m : Mach) : outside ps (ptpTimeout l new m) = outside ps m := by
  refine outside_mono hc ?_
  unfold ptpTimeout
  (repeat' split) <;> simp +decide

@[simp] theorem ppsOutSecond_outside (hc : covers ps [.tim] = true) (m : Mach) : outside ps (ppsOutSecond m) = outside ps m :=
  outside_mono hc (by simp +decide [ppsOutSecond])

@[simp] theorem timeQuery_outside (hc : covers ps [] = true) (c : Cmd) (tk : Ticket) (m : Mach) : outside ps (timeQuery c tk m).1 = outside ps m := by
  refine outside_mono hc ?_
  unfold timeQuery
  split <;> simp +decide

/-! Streams. -/

@[simp] theorem setStr_outside (hc : covers ps [.str] = true) (x : Str) (m : Mach) : outside ps (setStr x m) = outside ps m :=
  outside_mono hc rfl

@[simp] theorem setCtx_outside (hc : covers ps [.str] = true)
    (role k : Nat) (x : Stream) (m : Mach) : outside ps (setCtx role k x m) = outside ps m := outside_mono hc (by simp +decide [setCtx])

@[simp] theorem markMap_outside (hc : covers ps [.str] = true) (m : Mach) : outside ps (markMap m) = outside ps m :=
  outside_mono hc (by simp +decide [markMap])

@[simp] theorem hostFrames_outside (hc : covers ps [.out, .hif, .ring, .block 0x1, .block 0x8] = true)
    (l : Nat) (lens : List Nat) (m : Mach) : outside ps (hostFrames l lens m) = outside ps m := outside_mono hc (by simp +decide [hostFrames])

@[simp] theorem igmpReport_outside (hc : covers ps [.out, .hif, .ring, .block 0x1, .block 0x8] = true)
    (l : Nat) (m : Mach) : outside ps (igmpReport l m) = outside ps m := outside_mono hc (by simp +decide [igmpReport])

@[simp] theorem streamOpen_outside (hc : covers ps [.out, .fresh, .hif, .ring, .str, .block 0x1, .block 0x8] = true)
    (c : Cmd) (tk : Ticket) (m : Mach) : outside ps (streamOpen c tk m).1 = outside ps m := by
  refine outside_mono hc ?_
  simp only [streamOpen]
  (repeat' split) <;> simp +decide

@[simp] theorem streamClose_outside (hc : covers ps [.str] = true)
    (c : Cmd) (tk : Ticket) (m : Mach) : outside ps (streamClose c tk m).1 = outside ps m := by
  refine outside_mono hc ?_
  simp only [streamClose]
  (repeat' split) <;> simp +decide

@[simp] theorem chmapWrite_outside (hc : covers ps [.str] = true)
    (c : Cmd) (tk : Ticket) (m : Mach) : outside ps (chmapWrite c tk m).1 = outside ps m := by
  refine outside_mono hc ?_
  simp only [chmapWrite]
  split <;> simp +decide

@[simp] theorem takeMalformed_outside (hc : covers ps [.out, .hif, .str, .block 0x1, .block 0xA] = true)
    (k why : Nat) (m : Mach) : outside ps (takeMalformed k why m) = outside ps m := outside_mono hc (by simp +decide [takeMalformed])

@[simp] theorem takePacket_outside (hc : covers ps [.str] = true)
    (k : Nat) (p : StreamPkt) (m : Mach) : outside ps (takePacket k p m) = outside ps m := by
  refine outside_mono hc ?_
  simp only [takePacket]
  split <;> simp +decide

@[simp] theorem packetReceive_outside (hc : covers ps [.out, .hif, .str, .block 0x1, .block 0xA] = true)
    (p : StreamPkt) (m : Mach) : outside ps (packetReceive p m) = outside ps m :=
  outside_mono hc (forEach_outside _ _ (fun k n => by split <;> simp +decide) m)

@[simp] theorem streamLost_outside (hc : covers ps [.out, .hif, .str, .block 0x1, .block 0xA] = true)
    (k : Nat) (m : Mach) : outside ps (streamLost k m) = outside ps m := outside_mono hc (by simp +decide [streamLost])

@[simp] theorem crfReport_outside (hc : covers ps [.out, .hif, .str, .block 0x1, .block 0xA] = true)
    (k : Nat) (m : Mach) : outside ps (crfReport k m) = outside ps m := by
  refine outside_mono hc ?_
  simp only [crfReport]
  (repeat' split) <;> simp +decide

@[simp] theorem arpRequest_outside (hc : covers ps [.out, .hif, .ring, .block 0x1, .block 0x8] = true)
    (l addr : Nat) (m : Mach) : outside ps (arpRequest l addr m) = outside ps m := outside_mono hc (by simp +decide [arpRequest])

@[simp] theorem sendPacket_outside (hc : covers ps [.out, .hif, .tim, .ring, .str, .block 0x1] = true)
    (k : Nat) (x : Stream) (frames : List (List Int)) (times : List Nat) (m : Mach) : outside ps (sendPacket k x frames times m) = outside ps m :=
  outside_mono hc (by simp +decide [sendPacket])

@[simp] theorem crfCommit_outside (hc : covers ps [.out, .hif, .tim, .ring, .str, .block 0x1] = true)
    (k : Nat) (x : Stream) (m : Mach) : outside ps (crfCommit k x m) = outside ps m := outside_mono hc (by simp +decide [crfCommit])

@[simp] theorem talkOne_outside (hc : covers ps [.out, .hif, .tim, .ring, .str, .block 0x1] = true)
    (fades : List Nat) (k : Nat) (m : Mach) : outside ps (talkOne fades k m) = outside ps m := outside_mono hc (by simp +decide [talkOne])

@[simp] theorem talkerCommit_outside (hc : covers ps [.out, .hif, .tim, .ring, .str, .block 0x1] = true)
    (fades : List Nat) (m : Mach) : outside ps (talkerCommit fades m) = outside ps m := outside_mono hc (by simp +decide [talkerCommit])

@[simp] theorem streamsSleep_outside (hc : covers ps [.str] = true) (m : Mach) : outside ps (streamsSleep m) = outside ps m :=
  outside_mono hc (by simp +decide [streamsSleep])

@[simp] theorem streamsWake_outside (hc : covers ps [.str] = true) (m : Mach) : outside ps (streamsWake m) = outside ps m :=
  outside_mono hc (by simp +decide [streamsWake])

@[simp] theorem streamCounters_outside (hc : covers ps [.str] = true)
    (role k : Nat) (m : Mach) : outside ps (streamCounters role k m).2 = outside ps m := by
  refine outside_mono hc ?_
  unfold streamCounters
  (repeat' split) <;> simp +decide

/-! Decks. -/

@[simp] theorem setDk_outside (hc : covers ps [.dk] = true) (d : DeckUnit) (m : Mach) : outside ps (setDk d m) = outside ps m :=
  outside_mono hc rfl

@[simp] theorem dkBump_outside (hc : covers ps [.dk] = true) (id : Nat) (m : Mach) : outside ps (dkBump id m) = outside ps m :=
  outside_mono hc (by simp +decide [dkBump])

@[simp] theorem stageEvent_outside (hc : covers ps [.out, .hif, .block 0x1] = true)
    (digest load result reason : Nat) (src : Src) (m : Mach) : outside ps (stageEvent digest load result reason src m) = outside ps m :=
  outside_mono hc (by simp +decide [stageEvent])

@[simp] theorem stageRefuse_outside (hc : covers ps [.out, .hif, .dk, .block 0x1, .block 0x3, .block 0xB] = true)
    (h : Held) (reason digest load signer : Nat) (m : Mach) : outside ps (stageRefuse h reason digest load signer m) = outside ps m :=
  outside_mono hc (by simp +decide [stageRefuse])

@[simp] theorem stageStart_outside (hc : covers ps [.out, .hif, .dk, .block 0x1, .block 0x3, .block 0xB] = true)
    (h : Held) (m : Mach) : outside ps (stageStart h m) = outside ps m := outside_mono hc (by simp +decide [stageStart])

@[simp] theorem startHeld_outside (hc : covers ps [.out, .hif, .dk, .block 0x1, .block 0x3, .block 0xB] = true)
    (n : Nat) (m : Mach) : outside ps (startHeld n m) = outside ps m := by
  refine outside_mono hc ?_
  induction n generalizing m with
  | zero => rfl
  | succ n ih =>
    unfold startHeld
    split
    · split
      · simp +decide [ih]
      · rfl
    · rfl

@[simp] theorem stageHeldStart_outside (hc : covers ps [.out, .hif, .dk, .block 0x1, .block 0x3, .block 0xB] = true)
    (m : Mach) : outside ps (stageHeldStart m) = outside ps m := outside_mono hc (by simp +decide [stageHeldStart])

@[simp] theorem stageCmd_outside (hc : covers ps [.out, .hif, .dk, .block 0x1, .block 0x3, .block 0xB] = true)
    (c : Cmd) (tk : Ticket) (m : Mach) : outside ps (stageCmd c tk m).1 = outside ps m := by
  refine outside_mono hc ?_
  unfold stageCmd
  (repeat' split) <;> simp +decide

@[simp] theorem cutMiss_outside (hc : covers ps [.out, .hif, .dk, .block 0x1, .block 0xB] = true)
    (cause : Nat) (h : Held) (m : Mach) : outside ps (cutMiss cause h m) = outside ps m := outside_mono hc (by simp +decide [cutMiss])

@[simp] theorem waitersMiss_outside (hc : covers ps [.out, .hif, .dk, .block 0x1, .block 0xB] = true)
    (m : Mach) : outside ps (waitersMiss m) = outside ps m := outside_mono hc (by simp +decide [waitersMiss])

@[simp] theorem stageReady_outside (hc : covers ps [.out, .hif, .dk, .block 0x1] = true) (m : Mach) : outside ps (stageReady m) = outside ps m := by
  refine outside_mono hc ?_
  unfold stageReady
  split <;> simp +decide

@[simp] theorem stageFails_outside (hc : covers ps [.out, .hif, .dk, .block 0x1, .block 0x3, .block 0xB] = true)
    (m : Mach) : outside ps (stageFails m) = outside ps m := by
  refine outside_mono hc ?_
  unfold stageFails
  split <;> simp +decide

@[simp] theorem bridgeCut_outside (hc : covers ps [.frm, .block 0xB] = true) (m : Mach) : outside ps (bridgeCut m) = outside ps m :=
  outside_mono hc (by simp +decide [bridgeCut])

@[simp] theorem doCut_outside (hc : covers ps [.out, .hif, .str, .dk, .frm, .rend, .vote, .cor, .icom, .block 0x1, .block 0xB, .block 0xF, .block 0x11, .block 0x13] = true)
    (h : Held) (m : Mach) : outside ps (doCut h m) = outside ps m := by
  refine outside_mono hc ?_
  unfold doCut
  split <;> simp +decide

@[simp] theorem tryCut_outside (hc : covers ps [.out, .hif, .str, .dk, .frm, .rend, .vote, .cor, .icom, .block 0x1, .block 0xB, .block 0xF, .block 0x11, .block 0x13] = true)
    (h : Held) (m : Mach) : outside ps (tryCut h m) = outside ps m := by
  refine outside_mono hc ?_
  unfold tryCut
  split <;> simp +decide

@[simp] theorem doCuts_outside (hc : covers ps [.out, .hif, .str, .dk, .frm, .rend, .vote, .cor, .icom, .block 0x1, .block 0xB, .block 0xF, .block 0x11, .block 0x13] = true)
    (m : Mach) : outside ps (doCuts m) = outside ps m := outside_mono hc (by simp +decide [doCuts])

@[simp] theorem deckCut_outside (hc : covers ps [.dk] = true) (c : Cmd) (tk : Ticket) (m : Mach) : outside ps (deckCut c tk m).1 = outside ps m :=
  outside_mono hc (by simp +decide [deckCut])

@[simp] theorem deckCommit_outside (hc : covers ps [.out, .hif, .dk, .frm, .rend, .block 0x1] = true)
    (m : Mach) : outside ps (deckCommit m) = outside ps m := by
  refine outside_mono hc ?_
  unfold deckCommit
  split <;> simp +decide

@[simp] theorem deckDigest_outside (hc : covers ps [] = true) (c : Cmd) (tk : Ticket) (m : Mach) : outside ps (deckDigest c tk m).1 = outside ps m := by
  refine outside_mono hc ?_
  unfold deckDigest
  split <;> simp +decide

@[simp] theorem meterCounters_outside (hc : covers ps [.frm] = true) (n : Nat) (m : Mach) : outside ps (meterCounters n m).2 = outside ps m := by
  refine outside_mono hc ?_
  unfold meterCounters
  split <;> simp +decide

@[simp] theorem deckRenderReset_outside (hc : covers ps [.out, .hif, .str, .dk, .block 0x1, .block 0xB] = true)
    (m : Mach) : outside ps (deckRenderReset m) = outside ps m := by
  refine outside_mono hc ?_
  unfold deckRenderReset
  split <;> simp +decide

@[simp] theorem deckHostReset_outside (hc : covers ps [.out, .hif, .dk, .block 0x1, .block 0xB] = true)
    (m : Mach) : outside ps (deckHostReset m) = outside ps m := outside_mono hc (by simp +decide [deckHostReset])

/-! The power manager. -/

@[simp] theorem setPwr_outside (hc : covers ps [.pwr] = true) (x : Pwr) (m : Mach) : outside ps (setPwr x m) = outside ps m :=
  outside_mono hc rfl

@[simp] theorem beginMove_outside (hc : covers ps [.pwr, .block 0x2] = true)
    (entry : Bool) (dst : Nat) (m : Mach) : outside ps (beginMove entry dst m) = outside ps m := outside_mono hc (by simp +decide [beginMove])

@[simp] theorem showTarget_outside (hc : covers ps [.pwr, .block 0x2] = true) (m : Mach) : outside ps (showTarget m) = outside ps m :=
  outside_mono hc (by simp +decide [showTarget])

@[simp] theorem judgePower_outside (hc : covers ps [.pwr, .block 0x2] = true) (m : Mach) : outside ps (judgePower m) = outside ps m :=
  outside_mono hc (by simp +decide [judgePower])

@[simp] theorem powerTolerance_outside (hc : covers ps [.out, .hif, .pwr, .block 0x2] = true)
    (c : Cmd) (tk : Ticket) (m : Mach) : outside ps (powerTolerance c tk m).1 = outside ps m := by
  refine outside_mono hc ?_
  simp only [powerTolerance]
  (repeat' split) <;> simp +decide

@[simp] theorem powerEntryStart_outside (hc : covers ps [.pwr, .block 0x2] = true) (m : Mach) : outside ps (powerEntryStart m) = outside ps m := by
  refine outside_mono hc ?_
  unfold powerEntryStart
  split <;> simp +decide

@[simp] theorem endMove_outside (hc : covers ps [.out, .hif, .pwr, .block 0x1, .block 0x2] = true)
    (v : PwrMove) (late : Bool) (m : Mach) : outside ps (endMove v late m) = outside ps m := outside_mono hc (by simp +decide [endMove])

@[simp] theorem sleepUnits_outside (hc : covers ps [.str, .frm, .rend, .cor, .icom, .sap, .block 0x13] = true)
    (d : Nat) (m : Mach) : outside ps (sleepUnits d m) = outside ps m := outside_mono hc (by simp +decide [sleepUnits])

@[simp] theorem powerEntryDone_outside (hc : covers ps [.out, .hif, .str, .frm, .rend, .cor, .icom, .sap, .pwr, .block 0x1, .block 0x2, .block 0x13] = true)
    (m : Mach) : outside ps (powerEntryDone m) = outside ps m := by
  refine outside_mono hc ?_
  unfold powerEntryDone
  split <;> simp +decide

@[simp] theorem wakeUnits_outside (hc : covers ps [.str, .frm, .rend, .cor, .sap, .block 0xC, .block 0xD] = true)
    (d : Nat) (m : Mach) : outside ps (wakeUnits d m) = outside ps m := outside_mono hc (by simp +decide [wakeUnits])

@[simp] theorem wakeDone_outside (hc : covers ps [.out, .hif, .str, .frm, .rend, .cor, .sap, .pwr, .block 0x1, .block 0x2, .block 0xC, .block 0xD] = true)
    (m : Mach) : outside ps (wakeDone m) = outside ps m := by
  refine outside_mono hc ?_
  unfold wakeDone
  split <;> simp +decide

/-! The frame program. -/

@[simp] theorem deliver_outside (hc : covers ps [.frm] = true)
    (p : Pass) (key slot : Nat) (hit : Bool) (xs : List Int) (m : Mach) : outside ps (deliver p key slot hit xs m).1 = outside ps m :=
  outside_mono hc (by simp +decide [deliver])

@[simp] theorem freeSamples_outside (hc : covers ps [.fresh] = true) (n : Nat) (m : Mach) : outside ps (freeSamples n m).1 = outside ps m :=
  outside_mono hc (by simp +decide [freeSamples])

@[simp] theorem bridgeOut_outside (hc : covers ps [.fresh, .frm] = true) (ch : Nat) (m : Mach) : outside ps (bridgeOut ch m).1 = outside ps m := by
  refine outside_mono hc ?_
  simp only [bridgeOut]
  (repeat' split) <;> simp +decide

@[simp] theorem setNodeW_outside (hc : covers ps [.frm] = true) (ix : Nat) (w : List Int) (m : Mach) : outside ps (setNodeW ix w m) = outside ps m :=
  outside_mono hc (by simp +decide [setNodeW])

@[simp] theorem writeOuts_outside (hc : covers ps [.frm] = true)
    (outs : List Nat) (ys : List (List Int)) (m : Mach) : outside ps (writeOuts outs ys m) = outside ps m :=
  outside_mono hc (by simp +decide [writeOuts])

@[simp] theorem nodeSats_outside (hc : covers ps [.fresh, .block 0x11] = true)
    (cluster n : Nat) (m : Mach) : outside ps (nodeSats cluster n m) = outside ps m := outside_mono hc (by simp +decide [nodeSats])

@[simp] theorem kernelNode_outside (hc : covers ps [.out, .fresh, .hif, .frm, .block 0x1, .block 0x11] = true)
    (d : NodeD) (k : KernelD) (words : List Nat) (xs : List (List Int)) (m : Mach) : outside ps (kernelNode d k words xs m) = outside ps m := by
  refine outside_mono hc ?_
  unfold kernelNode
  split <;> simp +decide

@[simp] theorem runNode_outside (hc : covers ps [.out, .fresh, .hif, .frm, .rend, .cor, .block 0x1, .block 0xF, .block 0x11] = true)
    (p : Pass) (d : NodeD) (m : Mach) : outside ps (runNode p d m) = outside ps m := by
  refine outside_mono hc ?_
  simp only [runNode]
  (repeat' split) <;> simp +decide

@[simp] theorem livePass_outside (hc : covers ps [.out, .fresh, .hif, .frm, .rend, .cor, .block 0x1, .block 0xF, .block 0x11] = true)
    (p : Pass) (m : Mach) : outside ps (livePass p m) = outside ps m := outside_mono hc (by simp +decide [livePass])

@[simp] theorem runOld_outside (hc : covers ps [.out, .fresh, .hif, .frm, .rend, .block 0x1, .block 0x11] = true)
    (run : List NodeD) (old : DeckBody) (p : Pass) (d : NodeD) (m : Mach) : outside ps (runOld run old p d m) = outside ps m := by
  refine outside_mono hc ?_
  simp only [runOld]
  (repeat' split) <;> simp +decide

@[simp] theorem retirePass_outside (hc : covers ps [.out, .fresh, .hif, .frm, .rend, .block 0x1, .block 0x11] = true)
    (p : Pass) (m : Mach) : outside ps (retirePass p m) = outside ps m := by
  refine outside_mono hc ?_
  unfold retirePass
  split <;> simp +decide

@[simp] theorem bothPasses_outside (hc : covers ps [.out, .fresh, .hif, .frm, .rend, .cor, .block 0x1, .block 0xF, .block 0x11] = true)
    (p : Pass) (m : Mach) (n : Nat) (r : SMap (List Int)) : outside ps (bothPasses p m n r) = outside ps m := by
  refine outside_mono hc ?_
  induction n generalizing r with
  | zero => simp +decide [bothPasses]
  | succ n ih => exact ih _

@[simp] theorem runFrame_outside (hc : covers ps [.out, .fresh, .hif, .frm, .rend, .cor, .block 0x1, .block 0xF, .block 0x11] = true)
    (p : Pass) (m : Mach) : outside ps (runFrame p m) = outside ps m := outside_mono hc (by simp +decide [runFrame])

@[simp] theorem consumeSlot_outside (hc : covers ps [.frm] = true) (p : Pass) (c : Nat) (m : Mach) : outside ps (consumeSlot p c m) = outside ps m :=
  outside_mono hc (by simp +decide [consumeSlot])

@[simp] theorem watchLoad_outside (hc : covers ps [.out, .hif, .block 0x1] = true) (m : Mach) : outside ps (watchLoad m) = outside ps m :=
  outside_mono hc (by simp +decide [watchLoad])

@[simp] theorem recordLoad_outside (hc : covers ps [.out, .hif, .frm, .block 0x1, .block 0xB] = true)
    (load : Nat) (m : Mach) : outside ps (recordLoad load m) = outside ps m := outside_mono hc (by simp +decide [recordLoad])

@[simp] theorem reportOverrun_outside (hc : covers ps [.out, .hif, .frm, .block 0x1, .block 0xB] = true)
    (w : Work) (p : Pass) (m : Mach) : outside ps (reportOverrun w p m) = outside ps m := outside_mono hc (by simp +decide [reportOverrun])

@[simp] theorem bridgeBooks_outside (hc : covers ps [.fresh, .frm] = true) (m : Mach) : outside ps (bridgeBooks m) = outside ps m :=
  outside_mono hc (by simp +decide [bridgeBooks])

@[simp] theorem bankRetries_outside (hc : covers ps [.fresh, .frm] = true) (m : Mach) : outside ps (bankRetries m) = outside ps m :=
  outside_mono hc (by simp +decide [bankRetries])

@[simp] theorem showBusy_outside (hc : covers ps [.block 0x11] = true) (p : Pass) (m : Mach) : outside ps (showBusy p m) = outside ps m :=
  outside_mono hc (by simp +decide [showBusy])

@[simp] theorem turnOver_outside (hc : covers ps [.frm, .block 0xB] = true)
    (cur : SMap (List Int)) (m : Mach) : outside ps (turnOver cur m) = outside ps m := outside_mono hc (by simp +decide [turnOver])

@[simp] theorem frameWork_outside (hc : covers ps [.out, .fresh, .hif, .frm, .rend, .cor, .ann, .block 0x1, .block 0xF, .block 0x11] = true)
    (w : Work) (p : Pass) (m : Mach) : outside ps (frameWork w p m) = outside ps m := outside_mono hc (by simp +decide [frameWork])

@[simp] theorem voteOne_outside (hc : covers ps [.out, .hif, .frm, .vote, .sys, .block 0x1, .block 0x11] = true)
    (done : Nat → Bool) (late : List Nat) (c : Nat) (x : Crit) (m : Mach) : outside ps (voteOne done late c x m) = outside ps m :=
  outside_mono hc (by simp +decide [voteOne])

@[simp] theorem vote_outside (hc : covers ps [.out, .hif, .frm, .vote, .sys, .block 0x1, .block 0x11] = true)
    (done : Nat → Bool) (late : List Nat) (m : Mach) : outside ps (vote done late m) = outside ps m := outside_mono hc (by simp +decide [vote])

@[simp] theorem frameCons_outside (hc : covers ps [.out, .hif, .frm, .vote, .sys, .block 0x1, .block 0x11] = true)
    (p : Pass) (m : Mach) : outside ps (frameCons p m) = outside ps m := outside_mono hc (by simp +decide [frameCons])

@[simp] theorem frameIdle_outside (hc : covers ps [.fresh, .frm, .ann, .block 0x11] = true) (m : Mach) : outside ps (frameIdle m) = outside ps m :=
  outside_mono hc (by simp +decide [frameIdle])

@[simp] theorem firstAudio_outside (hc : covers ps [.sys, .block 0x0] = true) (m : Mach) : outside ps (firstAudio m) = outside ps m :=
  outside_mono hc (by simp +decide [firstAudio])

@[simp] theorem commitDeal_outside (hc : covers ps [.out, .fresh, .hif, .tim, .ring, .str, .dk, .frm, .rend, .vote, .cor, .sap, .pwr, .ann, .sys, .block 0x0, .block 0x1, .block 0xB, .block 0xC, .block 0xD, .block 0xF, .block 0x11] = true)
    (late : Bool) (w0 : Work) (m : Mach) : outside ps (commitDeal late w0 m) = outside ps m := outside_mono hc (by simp +decide [commitDeal])

@[simp] theorem dealCommit_outside (hc : covers ps [.out, .fresh, .hif, .tim, .ring, .str, .dk, .frm, .rend, .vote, .cor, .sap, .pwr, .ann, .sys, .block 0x0, .block 0x1, .block 0xB, .block 0xC, .block 0xD, .block 0xF, .block 0x11] = true)
    (w : Work) (m : Mach) : outside ps (dealCommit w m) = outside ps m := outside_mono hc (by simp +decide [dealCommit])

/-! The host-function reset. -/

@[simp] theorem clearTolerances_outside (hc : covers ps [.pwr, .block 0x2] = true) (m : Mach) : outside ps (clearTolerances m) = outside ps m :=
  outside_mono hc (by simp +decide [clearTolerances])

@[simp] theorem hostReset_outside (hc : covers ps [.out, .hif, .dk, .pwr, .block 0x1, .block 0x2, .block 0xB, .block 0xC] = true)
    (m : Mach) : outside ps (hostReset m) = outside ps m := outside_mono hc (by simp +decide [hostReset])

@[simp] theorem hostResetComplete_outside (hc : covers ps [.hif, .block 0x1] = true) (m : Mach) : outside ps (hostResetComplete m) = outside ps m := by
  refine outside_mono hc ?_
  unfold hostResetComplete
  split
  · rfl
  · refine outside_regs (l := [.hif, .block 0x1]) (m := m) fun k hk => ?_
    have hb := (blockOutside_iff.mp hk).2
    refine mfind_filter_key (fun k => k / 32 < 0x1000 || 0x2000 ≤ k / 32 || k / 32 = 0x1034) k ?_ _
    simp at hb ⊢
    omega

@[simp] theorem functionReset_outside (hc : covers ps [.out, .hif, .dk, .pwr, .block 0x1, .block 0x2, .block 0xB, .block 0xC] = true)
    (m : Mach) : outside ps (functionReset m) = outside ps m := outside_mono hc (by simp +decide [functionReset])

@[simp] theorem perstAssert_outside (hc : covers ps [.out, .hif, .dk, .pwr, .sys, .block 0x1, .block 0x2, .block 0xB, .block 0xC] = true)
    (m : Mach) : outside ps (perstAssert m) = outside ps m := outside_mono hc (by simp +decide [perstAssert])

@[simp] theorem perstRelease_outside (hc : covers ps [.sys] = true) (m : Mach) : outside ps (perstRelease m) = outside ps m :=
  outside_mono hc rfl

/-! Kolica. -/

@[simp] theorem showKeys_outside (hc : covers ps [.block 0x3] = true) (m : Mach) : outside ps (showKeys m) = outside ps m :=
  outside_mono hc (by simp +decide [showKeys])

@[simp] theorem showLdev_outside (hc : covers ps [.block 0x3] = true) (m : Mach) : outside ps (showLdev m) = outside ps m :=
  outside_mono hc (by simp +decide [showLdev])

@[simp] theorem measureImage_outside (hc : covers ps [.sec] = true) (m : Mach) : outside ps (measureImage m) = outside ps m :=
  outside_mono hc (by simp +decide [measureImage])

@[simp] theorem installRing_outside (hc : covers ps [.sec, .block 0x3] = true)
    (num : Nat) (m : Mach) : outside ps (installRing num m) = outside ps m := outside_mono hc (by simp +decide [installRing])

@[simp] theorem installPkg_outside (hc : covers ps [.out, .hif, .sec, .block 0x1, .block 0x3] = true)
    (p : KeyPkg) (c : Cmd) (m : Mach) : outside ps (installPkg p c m) = outside ps m := outside_mono hc (by simp +decide [installPkg])

@[simp] theorem eraseKeys_outside (hc : covers ps [.out, .hif, .sec, .block 0x1, .block 0x3] = true)
    (m : Mach) : outside ps (eraseKeys m) = outside ps m := outside_mono hc (by simp +decide [eraseKeys])

@[simp] theorem rotateRing_outside (hc : covers ps [.out, .hif, .ring, .sec, .block 0x1, .block 0x3, .block 0x8] = true)
    (c : Cmd) (m : Mach) : outside ps (rotateRing c m) = outside ps m := outside_mono hc (by simp +decide [rotateRing])

@[simp] theorem keyRotate_outside (hc : covers ps [.out, .hif, .ring, .sec, .block 0x1, .block 0x3, .block 0x8] = true)
    (c : Cmd) (tk : Ticket) (m : Mach) : outside ps (keyRotate c tk m).1 = outside ps m := by
  refine outside_mono hc ?_
  simp only [keyRotate]
  (repeat' split) <;> simp +decide

@[simp] theorem keyGraceExpiry_outside (hc : covers ps [.out, .hif, .sec, .block 0x1, .block 0x3] = true)
    (m : Mach) : outside ps (keyGraceExpiry m) = outside ps m := by
  refine outside_mono hc ?_
  unfold keyGraceExpiry
  split <;> simp +decide

@[simp] theorem fwStage_outside (hc : covers ps [.out, .hif, .sec, .block 0x1, .block 0x3] = true)
    (c : Cmd) (tk : Ticket) (m : Mach) : outside ps (fwStage c tk m).1 = outside ps m := by
  refine outside_mono hc ?_
  unfold fwStage
  (repeat' split) <;> simp +decide

@[simp] theorem fwStageDone_outside (hc : covers ps [.out, .hif, .sec, .block 0x1, .block 0x3] = true)
    (m : Mach) : outside ps (fwStageDone m) = outside ps m := by
  refine outside_mono hc ?_
  unfold fwStageDone
  split <;> simp +decide

@[simp] theorem fwCommit_outside (hc : covers ps [.out, .hif, .sec, .block 0x1, .block 0x3] = true)
    (m : Mach) : outside ps (fwCommit m) = outside ps m := outside_mono hc (by simp +decide [fwCommit])

@[simp] theorem attestReady_outside (hc : covers ps [.fresh, .block 0x3] = true) (m : Mach) : outside ps (attestReady m) = outside ps m :=
  outside_mono hc (by simp +decide [attestReady])

@[simp] theorem debugChallengeRead_outside (hc : covers ps [.out, .fresh, .sec] = true)
    (m : Mach) : outside ps (debugChallengeRead m) = outside ps m := outside_mono hc (by simp +decide [debugChallengeRead])

@[simp] theorem debugResponse_outside (hc : covers ps [.out, .hif, .ring, .sec, .block 0x1, .block 0x3, .block 0x8] = true)
    (key : Nat) (ok : Bool) (m : Mach) : outside ps (debugResponse key ok m) = outside ps m := by
  refine outside_mono hc ?_
  unfold debugResponse
  split <;> simp +decide

/-! The domain manager. -/

@[simp] theorem showRole_outside (hc : covers ps [.block 0x10] = true) (m : Mach) : outside ps (showRole m) = outside ps m :=
  outside_mono hc (by simp +decide [showRole])

@[simp] theorem placeSelf_outside (hc : covers ps [.block 0x10] = true) (m : Mach) : outside ps (placeSelf m) = outside ps m :=
  outside_mono hc (by simp +decide [placeSelf])

@[simp] theorem showRoster_outside (hc : covers ps [.block 0x10] = true) (m : Mach) : outside ps (showRoster m) = outside ps m := by
  refine outside_mono hc ?_
  unfold showRoster
  split <;> simp +decide

@[simp] theorem setTrio_outside (hc : covers ps [.block 0x10] = true) (j seat : Nat) (m : Mach) : outside ps (setTrio j seat m) = outside ps m :=
  outside_mono hc (by simp +decide [setTrio])

@[simp] theorem setActive_outside (hc : covers ps [.dom, .block 0x8, .block 0x10] = true)
    (seat : Nat) (m : Mach) : outside ps (setActive seat m) = outside ps m := outside_mono hc (by simp +decide [setActive])

@[simp] theorem eraseIdentity_outside (hc : covers ps [.out, .hif, .clk, .tim, .sec, .dom, .block 0x1, .block 0x3, .block 0x4, .block 0x5, .block 0x8, .block 0x10] = true)
    (m : Mach) : outside ps (eraseIdentity m) = outside ps m := outside_mono hc (by simp +decide [eraseIdentity])

@[simp] theorem unknownMember_outside (hc : covers ps [.out, .hif, .ring, .block 0x1, .block 0x8, .block 0x10] = true)
    (ldev p : Nat) (m : Mach) : outside ps (unknownMember ldev p m) = outside ps m := outside_mono hc (by simp +decide [unknownMember])

@[simp] theorem unbar_outside (hc : covers ps [.ring] = true) (m : Mach) : outside ps (unbar m) = outside ps m :=
  outside_mono hc (by simp +decide [unbar])

@[simp] theorem judgePeers_outside (hc : covers ps [.out, .hif, .ring, .block 0x1, .block 0x8, .block 0x10] = true)
    (old : Option Roster) (m : Mach) : outside ps (judgePeers old m) = outside ps m := outside_mono hc (by simp +decide [judgePeers])

@[simp] theorem showCopying_outside (hc : covers ps [.block 0x10] = true) (m : Mach) : outside ps (showCopying m) = outside ps m :=
  outside_mono hc (by simp +decide [showCopying])

@[simp] theorem startCopy_outside (hc : covers ps [.out, .hif, .dom, .block 0x10] = true)
    (idx : Option Nat) (src restarts : Nat) (m : Mach) : outside ps (startCopy idx src restarts m) = outside ps m :=
  outside_mono hc (by simp +decide [startCopy])

@[simp] theorem leaveTrio_outside (hc : covers ps [.out, .hif, .clk, .tim, .dom, .block 0x1, .block 0x4, .block 0x5, .block 0x10] = true)
    (m : Mach) : outside ps (leaveTrio m) = outside ps m := outside_mono hc (by simp +decide [leaveTrio])

@[simp] theorem fence_outside (hc : covers ps [.out, .hif, .clk, .tim, .dom, .block 0x1, .block 0x4, .block 0x5, .block 0x8, .block 0x10] = true)
    (j cause : Nat) (m : Mach) : outside ps (fence j cause m) = outside ps m := outside_mono hc (by simp +decide [fence])

@[simp] theorem rosterTrio_outside (hc : covers ps [.out, .hif, .clk, .tim, .dom, .block 0x1, .block 0x4, .block 0x5, .block 0x10] = true)
    (old : Option Roster) (m : Mach) : outside ps (rosterTrio old m) = outside ps m := by
  refine outside_mono hc ?_
  unfold rosterTrio
  split
  · rfl
  · simp only []
    split
    · simp +decide
    · simp +decide

@[simp] theorem replaceRoster_outside (hc : covers ps [.out, .hif, .clk, .tim, .ring, .sec, .dom, .block 0x1, .block 0x3, .block 0x4, .block 0x5, .block 0x8, .block 0x10] = true)
    (r : Roster) (m : Mach) : outside ps (replaceRoster r m) = outside ps m := outside_mono hc (by simp +decide [replaceRoster])

@[simp] theorem rosterLoad_outside (hc : covers ps [.out, .hif, .clk, .tim, .ring, .sec, .dom, .block 0x1, .block 0x3, .block 0x4, .block 0x5, .block 0x8, .block 0x10] = true)
    (c : Cmd) (tk : Ticket) (m : Mach) : outside ps (rosterLoad c tk m).1 = outside ps m := by
  refine outside_mono hc ?_
  unfold rosterLoad
  (repeat' split) <;> simp +decide

@[simp] theorem admitSeat_outside (hc : covers ps [.out, .hif, .ring, .dom, .block 0x1, .block 0x10] = true)
    (seat role ldev : Nat) (r : Roster) (m : Mach) : outside ps (admitSeat seat role ldev r m) = outside ps m :=
  outside_mono hc (by simp +decide [admitSeat])

@[simp] theorem admitCore_outside (hc : covers ps [.out, .hif, .ring, .sec, .dom, .block 0x1, .block 0x3, .block 0x10] = true)
    (own : Bool) (c : Cmd) (m : Mach) : outside ps (admitCore own c m).1 = outside ps m := by
  refine outside_mono hc ?_
  simp only [admitCore]
  (repeat' split) <;> simp +decide

@[simp] theorem seatAdmit_outside (hc : covers ps [.out, .hif, .ring, .sec, .dom, .block 0x1, .block 0x3, .block 0x10] = true)
    (c : Cmd) (tk : Ticket) (m : Mach) : outside ps (seatAdmit c tk m).1 = outside ps m := by
  refine outside_mono hc ?_
  unfold seatAdmit
  split <;> simp +decide

@[simp] theorem seatEvict_outside (hc : covers ps [.out, .hif, .clk, .tim, .ring, .sec, .dom, .block 0x1, .block 0x3, .block 0x4, .block 0x5, .block 0x8, .block 0x10] = true)
    (c : Cmd) (tk : Ticket) (m : Mach) : outside ps (seatEvict c tk m).1 = outside ps m := by
  refine outside_mono hc ?_
  simp only [seatEvict]
  (repeat' split) <;> simp +decide

@[simp] theorem keyPackageReceive_outside (hc : covers ps [.out, .hif, .ring, .sec, .dom, .block 0x1, .block 0x3, .block 0x8, .block 0x10] = true)
    (c : Cmd) (m : Mach) : outside ps (keyPackageReceive c m) = outside ps m := by
  refine outside_mono hc ?_
  unfold keyPackageReceive
  (repeat' split) <;> simp +decide

@[simp] theorem installSak_outside (hc : covers ps [.out, .hif, .ring, .dom, .block 0x0, .block 0x1, .block 0x8, .block 0x10] = true)
    (p an keyNo : Nat) (k : MkIn) (m : Mach) : outside ps (installSak p an keyNo k m) = outside ps m := outside_mono hc (by simp +decide [installSak])

@[simp] theorem refusePeer_outside (hc : covers ps [.out, .hif, .ring, .block 0x1, .block 0x8, .block 0x10] = true)
    (p : Nat) (k : MkIn) (m : Mach) : outside ps (refusePeer p k m) = outside ps m := outside_mono hc (by simp +decide [refusePeer])

@[simp] theorem mkpduReceive_outside (hc : covers ps [.out, .hif, .ring, .dom, .block 0x0, .block 0x1, .block 0x8, .block 0x10] = true)
    (p : Nat) (k : MkIn) (m : Mach) : outside ps (mkpduReceive p k m) = outside ps m := by
  refine outside_mono hc ?_
  simp only [mkpduReceive]
  (repeat' split) <;> simp +decide

@[simp] theorem verdictReceive_outside (hc : covers ps [.out, .hif, .ring, .block 0x1, .block 0x8, .block 0x10] = true)
    (p : Nat) (accept : Bool) (m : Mach) : outside ps (verdictReceive p accept m) = outside ps m := outside_mono hc (by simp +decide [verdictReceive])

@[simp] theorem joinReportReceive_outside (hc : covers ps [.out, .hif, .dom] = true)
    (r : JoinRep) (m : Mach) : outside ps (joinReportReceive r m) = outside ps m := outside_mono hc (by simp +decide [joinReportReceive])

@[simp] theorem enrolmentReceive_outside (hc : covers ps [.out, .hif, .block 0x1] = true)
    (a b : Nat) (ids : CandIds) (m : Mach) : outside ps (enrolmentReceive a b ids m) = outside ps m :=
  outside_mono hc (by simp +decide [enrolmentReceive])

@[simp] theorem reachTimeout_outside (hc : covers ps [.out, .hif, .clk, .tim, .dom, .block 0x1, .block 0x4, .block 0x5, .block 0x8, .block 0x10] = true)
    (j : Nat) (m : Mach) : outside ps (reachTimeout j m) = outside ps m := outside_mono hc (by simp +decide [reachTimeout])

@[simp] theorem activeChange_outside (hc : covers ps [.out, .hif, .clk, .tim, .dom, .block 0x1, .block 0x4, .block 0x5, .block 0x8, .block 0x10] = true)
    (m : Mach) : outside ps (activeChange m) = outside ps m := outside_mono hc (by simp +decide [activeChange])

@[simp] theorem autonomousEnter_outside (hc : covers ps [.out, .hif, .dom, .block 0x1, .block 0x8, .block 0x10] = true)
    (m : Mach) : outside ps (autonomousEnter m) = outside ps m := outside_mono hc (by simp +decide [autonomousEnter])

@[simp] theorem judgeScene_outside (hc : covers ps [.out, .hif, .dom, .block 0x1, .block 0x10] = true)
    (r : DigRec) (m : Mach) : outside ps (judgeScene r m) = outside ps m := by
  refine outside_mono hc ?_
  unfold judgeScene
  (repeat' split) <;> simp +decide

@[simp] theorem judgeCopy_outside (hc : covers ps [.dom] = true) (r : DigRec) (m : Mach) : outside ps (judgeCopy r m) = outside ps m := by
  refine outside_mono hc ?_
  unfold judgeCopy
  split <;> simp +decide

@[simp] theorem digestReceive_outside (hc : covers ps [.out, .hif, .clk, .tim, .dom, .block 0x1, .block 0x4, .block 0x5, .block 0x8, .block 0x10] = true)
    (r : DigRec) (m : Mach) : outside ps (digestReceive r m) = outside ps m := outside_mono hc (by simp +decide [digestReceive])

@[simp] theorem copyRequest_outside (hc : covers ps [.dom] = true)
    (seat : Nat) (spare : Bool) (m : Mach) : outside ps (copyRequest seat spare m) = outside ps m := outside_mono hc (by simp +decide [copyRequest])

@[simp] theorem copyTimeout_outside (hc : covers ps [.out, .hif, .dom, .block 0x10] = true) (m : Mach) : outside ps (copyTimeout m) = outside ps m := by
  refine outside_mono hc ?_
  unfold copyTimeout
  split <;> simp +decide

@[simp] theorem spareJoin_outside (hc : covers ps [.out, .hif, .dom, .block 0x1, .block 0x10] = true)
    (m : Mach) : outside ps (spareJoin m) = outside ps m := by
  refine outside_mono hc ?_
  unfold spareJoin
  (repeat' split) <;> simp +decide

@[simp] theorem bootDom_outside (hc : covers ps [.block 0x8, .block 0x10] = true) (m : Mach) : outside ps (bootDom m) = outside ps m := by
  refine outside_mono hc ?_
  unfold bootDom
  split <;> simp +decide

/-! The interval counter. -/

@[simp] theorem setTic_outside (hc : covers ps [.tic] = true) (x : Tic) (m : Mach) : outside ps (setTic x m) = outside ps m :=
  outside_mono hc rfl

@[simp] theorem ticCapture_outside (hc : covers ps [.out, .hif, .tic, .block 0x1, .block 0x6] = true)
    (ch coarse fine : Nat) (falling : Bool) (m : Mach) : outside ps (ticCapture ch coarse fine falling m) = outside ps m :=
  outside_mono hc (by simp +decide [ticCapture])

@[simp] theorem ticEdge_outside (hc : covers ps [.out, .hif, .tic, .block 0x1, .block 0x6] = true)
    (ch coarse fine : Nat) (falling : Bool) (m : Mach) : outside ps (ticEdge ch coarse fine falling m) = outside ps m :=
  outside_mono hc (by simp +decide [ticEdge])

@[simp] theorem ticAnchor_outside (hc : covers ps [.out, .hif, .tic, .block 0x1, .block 0x6] = true)
    (coarse fine : Nat) (m : Mach) : outside ps (ticAnchor coarse fine m) = outside ps m := outside_mono hc (by simp +decide [ticAnchor])

@[simp] theorem ticEvent_outside (hc : covers ps [.out, .hif, .block 0x1] = true)
    (cause coarse : Nat) (m : Mach) : outside ps (ticEvent cause coarse m) = outside ps m := outside_mono hc (by simp +decide [ticEvent])

@[simp] theorem ticLost_outside (hc : covers ps [.out, .hif, .tic, .block 0x1, .block 0x6] = true)
    (coarse : Nat) (m : Mach) : outside ps (ticLost coarse m) = outside ps m := outside_mono hc (by simp +decide [ticLost])

@[simp] theorem ticRelock_outside (hc : covers ps [.out, .hif, .tic, .block 0x1, .block 0x6] = true)
    (coarse : Nat) (m : Mach) : outside ps (ticRelock coarse m) = outside ps m := outside_mono hc (by simp +decide [ticRelock])

@[simp] theorem ticEnable_outside (hc : covers ps [.tic, .block 0x6] = true) (was : Bool) (m : Mach) : outside ps (ticEnable was m) = outside ps m :=
  outside_mono hc (by simp +decide [ticEnable])

/-! Register accesses. -/

@[simp] theorem hifCtrlWrite_outside (hc : covers ps [.out, .hif, .dk, .pwr, .block 0x1, .block 0x2, .block 0xB, .block 0xC] = true)
    (v : Nat) (m : Mach) : outside ps (hifCtrlWrite v m) = outside ps m := outside_mono hc (by simp +decide [hifCtrlWrite])

@[simp] theorem sysResetWrite_outside (hc : covers ps [.out, .hif, .pwr, .block 0x1, .block 0x3] = true)
    (v : Nat) (m : Mach) : outside ps (sysResetWrite v m) = outside ps m := outside_mono hc (by simp +decide [sysResetWrite])

@[simp] theorem pbootGo_outside (hc : covers ps [.block 0x0] = true) (m : Mach) : outside ps (pbootGo m) = outside ps m :=
  outside_mono hc (by simp +decide [pbootGo])

@[simp] theorem gclWrite_outside (hc : covers ps [.ring] = true) (v p : Nat) (m : Mach) : outside ps (gclWrite v p m) = outside ps m :=
  outside_mono hc (by simp +decide [gclWrite])

@[simp] theorem msixWrite_outside (hc : covers ps [.out, .hif] = true) (k v : Nat) (m : Mach) : outside ps (msixWrite k v m) = outside ps m :=
  outside_mono hc (by simp +decide [msixWrite])

@[simp] theorem msixCtrlWrite_outside (hc : covers ps [.out, .hif] = true) (v : Nat) (m : Mach) : outside ps (msixCtrlWrite v m) = outside ps m :=
  outside_mono hc (by simp +decide [msixCtrlWrite])

@[simp] theorem readClear_outside (hc : covers ps allBlocks = true) (off : Nat) (m : Mach) : outside ps (readClear off m) = outside ps m :=
  forEach_outside _ _ (fun _ n => wrij_outside_allBlocks hc _ _ _ _ n) m

@[simp] theorem regRead_outside (hc : covers ps ([.out, .fresh] ++ allBlocks) = true)
    (a : RegAddr) (off : Nat) (m : Mach) : outside ps (regRead a off m) = outside ps m := by
  obtain ⟨ho, hb⟩ := covers_append.mp hc
  have hread := useFresh_outside (ps := [.out, .fresh]) rfl (b2n (icomOpenBits off m)) (readClear off m)
  exact (outside_mono ho ((emit_outside rfl _ _).trans hread)).trans (readClear_outside hb off m)

@[simp] theorem cfgWrite_outside (hc : covers ps [.hif] = true) (w : CfgWord) (v : Nat) (m : Mach) : outside ps (cfgWrite w v m) = outside ps m :=
  outside_mono hc (((congrArg (outside _) (cfgWrite_eq ..)).trans (outside_with_hif rfl _ m)))

/-! Resets and the boot. -/

@[simp] theorem renderResetEff_outside (hc : covers ps [.dk, .pwr] = true)
    (c : Cmd) (tk : Ticket) (m : Mach) : outside ps (renderResetEff c tk m).1 = outside ps m := outside_mono hc (by simp +decide [renderResetEff])

@[simp] theorem seqStart_outside (hc : covers ps [.frm, .block 0xB] = true) (m : Mach) : outside ps (seqStart m) = outside ps m :=
  outside_mono hc (by simp +decide [seqStart])

@[simp] theorem renderResetNow_outside (hc : covers ps [.out, .hif, .str, .dk, .frm, .objs, .rend, .vote, .cor, .icom, .ann, .block 0x1, .block 0xB, .block 0xF, .block 0x11, .block 0x13] = true)
    (m : Mach) : outside ps (renderResetNow m) = outside ps m := outside_mono hc (by simp +decide [renderResetNow])

@[simp] theorem stepThree_outside (hc : covers ps [.out, .hif, .str, .dk, .frm, .objs, .rend, .vote, .cor, .icom, .ann, .block 0x1, .block 0xB, .block 0xF, .block 0x11, .block 0x13] = true)
    (m : Mach) : outside ps (stepThree m) = outside ps m := outside_mono hc (by simp +decide [stepThree])

@[simp] theorem storeLost_outside (hc : covers ps [.clk, .ann, .sec, .dom, .block 0x3, .block 0x4] = true)
    (m : Mach) : outside ps (storeLost m) = outside ps m := by
  refine outside_mono hc ?_
  change outside _ (wr F.SEC_STATE_LIFECYCLE 1 (wr F.SEC_RING_KEY_NUMBER 0 (wr F.CLK_SAVED_AGE_SEC 0xFFFFFFFF m))) = _
  simp +decide

@[simp] theorem storeCheck_outside (hc : covers ps [.out, .hif, .clk, .ann, .sec, .dom, .block 0x1, .block 0x3, .block 0x4] = true)
    (store : Nat) (m : Mach) : outside ps (storeCheck store m) = outside ps m := outside_mono hc (by simp +decide [storeCheck])

@[simp] theorem resumeDeckSave_outside (hc : covers ps [.sys] = true) (m : Mach) : outside ps (resumeDeckSave m) = outside ps m :=
  outside_mono hc (by simp +decide [resumeDeckSave])

@[simp] theorem resumeDeckRestore_outside (hc : covers ps [.dk, .sys, .block 0x0] = true)
    (authentic : Nat) (m : Mach) : outside ps (resumeDeckRestore authentic m) = outside ps m := by
  refine outside_mono hc ?_
  unfold resumeDeckRestore
  split <;> simp +decide

/-! Supervision. -/

@[simp] theorem supplyEvent_outside (hc : covers ps [.out, .hif, .block 0x1] = true)
    (rail phase mv : Nat) (m : Mach) : outside ps (supplyEvent rail phase mv m) = outside ps m := outside_mono hc (by simp +decide [supplyEvent])

@[simp] theorem railBit_outside (hc : covers ps [.block 0x11] = true)
    (rail : Nat) (ok : Bool) (m : Mach) : outside ps (railBit rail ok m) = outside ps m := outside_mono hc (by simp +decide [railBit])

@[simp] theorem supplyOut_outside (hc : covers ps [.out, .hif, .ring, .sys, .block 0x1, .block 0x8, .block 0x11] = true)
    (rail mv : Nat) (m : Mach) : outside ps (supplyOut rail mv m) = outside ps m := outside_mono hc (by simp +decide [supplyOut])

@[simp] theorem supplyBack_outside (hc : covers ps [.out, .hif, .ring, .block 0x1, .block 0x11] = true)
    (rail mv : Nat) (m : Mach) : outside ps (supplyBack rail mv m) = outside ps m := outside_mono hc (by simp +decide [supplyBack])

@[simp] theorem watchTj_outside (hc : covers ps [.out, .hif, .sys, .block 0x1, .block 0x11] = true)
    (m : Mach) : outside ps (watchTj m) = outside ps m := outside_mono hc (by simp +decide [watchTj])

@[simp] theorem thermPin_outside (hc : covers ps [.out, .sys] = true) (m : Mach) : outside ps (thermPin m) = outside ps m :=
  outside_mono hc (by simp +decide [thermPin])

theorem bandFld_inBlock (b : Nat) : inBlock [.sys, .block 0x11] (bandFld b) = true := by
  unfold bandFld
  (repeat' split) <;> rfl

@[simp] theorem countBand_outside (hc : covers ps [.sys, .block 0x11] = true) (t : Int) (m : Mach) : outside ps (countBand t m) = outside ps m := by
  refine outside_mono hc ?_
  unfold countBand
  exact onlyIf_keep (outside _) _ _ _ (bump_outside (bandFld_inBlock _) 1 _)

@[simp] theorem tjSample_outside (hc : covers ps [.out, .hif, .sys, .block 0x1, .block 0x11] = true)
    (t : Int) (m : Mach) : outside ps (tjSample t m) = outside ps m := outside_mono hc (by simp +decide [tjSample])

@[simp] theorem eccBump_outside (hc : covers ps [.sys] = true) (bank kind : Nat) (m : Mach) : outside ps (eccBump bank kind m) = outside ps m :=
  outside_mono hc (by simp +decide [eccBump])

@[simp] theorem eccCorrected_outside (hc : covers ps [.sys] = true) (bank : Nat) (m : Mach) : outside ps (eccCorrected bank m) = outside ps m :=
  outside_mono hc (by simp +decide [eccCorrected])

@[simp] theorem svcEvent_outside (hc : covers ps [.out, .hif, .block 0x1] = true)
    (core phase : Nat) (m : Mach) : outside ps (svcEvent core phase m) = outside ps m := outside_mono hc (by simp +decide [svcEvent])

@[simp] theorem svcResync_outside (hc : covers ps [.out, .hif, .block 0x1, .block 0x11] = true)
    (k : Nat) (m : Mach) : outside ps (svcResync k m) = outside ps m := outside_mono hc (by simp +decide [svcResync])

/-! The command interpreter. -/

@[simp] theorem latencyResult_outside (hc : covers ps [.fresh] = true)
    (ls : List Leg) (jit ofs : Nat) (m : Mach) : outside ps (latencyResult ls jit ofs m).1 = outside ps m :=
  outside_mono hc (by simp +decide [latencyResult])

@[simp] theorem latencyQuery_outside (hc : covers ps [.fresh] = true)
    (c : Cmd) (tk : Ticket) (m : Mach) : outside ps (latencyQuery c tk m).1 = outside ps m := by
  refine outside_mono hc ?_
  unfold latencyQuery
  (repeat' split) <;> simp +decide

@[simp] theorem countersOf_outside (hc : covers ps [.str, .frm] = true)
    (group i : Nat) (m : Mach) : outside ps (countersOf group i m).2 = outside ps m := by
  refine outside_mono hc ?_
  unfold countersOf
  (repeat' split) <;> simp +decide

@[simp] theorem counterQuery_outside (hc : covers ps [.str, .frm] = true)
    (c : Cmd) (tk : Ticket) (m : Mach) : outside ps (counterQuery c tk m).1 = outside ps m := by
  refine outside_mono hc ?_
  simp only [counterQuery]
  (repeat' split) <;> simp +decide

@[simp] theorem eventDropPacket_outside (hc : covers ps [] = true)
    (c : Cmd) (tk : Ticket) (m : Mach) : outside ps (eventDropPacket c tk m).1 = outside ps m := by
  refine outside_mono hc ?_
  unfold eventDropPacket
  split <;> simp +decide

@[simp] theorem reassemblyDiscard_outside (hc : covers ps [.hif] = true)
    (seat tunId : Nat) (m : Mach) : outside ps (reassemblyDiscard seat tunId m) = outside ps m :=
  outside_mono hc (by simp +decide [reassemblyDiscard])

@[simp] theorem dropSent_outside (hc : covers ps [.hif] = true) (tunId : Nat) (m : Mach) : outside ps (dropSent tunId m) = outside ps m :=
  outside_mono hc rfl

@[simp] theorem setReplies_outside (hc : covers ps [.hif] = true)
    (tunId : Nat) (a : Option Assembly) (m : Mach) : outside ps (setReplies tunId a m) = outside ps m :=
  outside_mono hc rfl

@[simp] theorem tunnelReply_outside (hc : covers ps [.out, .hif] = true) (r : TunnelRep) (m : Mach) : outside ps (tunnelReply r m) = outside ps m := by
  refine outside_mono hc ?_
  unfold tunnelReply
  split <;> simp +decide

@[simp] theorem stamperAck_outside (hc : covers ps [.out, .hif] = true)
    (tunId stamped : Nat) (m : Mach) : outside ps (stamperAck tunId stamped m) = outside ps m := by
  refine outside_mono hc ?_
  unfold stamperAck
  split
  · rfl
  · split
    · exact (outside_with_hif rfl _ _).trans (interim_outside rfl ..)
    · rfl

@[simp] theorem tunnelTimeout_outside (hc : covers ps [.out, .hif] = true)
    (tunId : Nat) (m : Mach) : outside ps (tunnelTimeout tunId m) = outside ps m := by
  refine outside_mono hc ?_
  unfold tunnelTimeout
  split <;> simp +decide

/-! The deal boundary. -/

/-! SYS_LOCK holds (00 R8): what a host's write, a reset, a boot and the application of commands do to the lock and to the RWL fields. -/

end Keeps

end Sys2Proof.Machine
end
section
/-! The frame of a host's register writes, of the boot and of the admission of commands. -/
namespace Sys2Proof.Machine

/-- The pieces that a word written to BAR0 may reach. -/
def regPieces : List Piece := [.out, .hif, .clk, .tim, .tic, .ring, .dk, .sap, .pwr, .sys] ++ allBlocks

/-- The pieces that the firmware of a boot image may reach as it starts. -/
def firmwarePieces : List Piece := [.out, .hif, .clk, .tim, .tic, .ring, .dk, .frm, .sap, .pwr, .sec, .sys] ++ allBlocks

/-- The pieces that the end of a reset may reach. -/
def bootPieces : List Piece :=
  [.out, .fresh, .hif, .clk, .tim, .tic, .ring, .dk, .frm, .rend, .cor, .sap, .pwr, .ann, .sec, .dom, .sys] ++ allBlocks

/-- The pieces that the admission, the refusal and the completion of a command may reach. -/
def admitPieces : List Piece := [.out, .hif, .sec, .dom, .block 0x1, .block 0x3]

theorem covers_trans {l ps qs : List Piece} (h : covers l ps = true) (hq : covers ps qs = true) : covers l qs = true :=
  covers_iff.mpr fun p hp => covers_iff.mp h p (covers_iff.mp hq p hp)

/-! Writes by the host. -/

section HostWrites
variable {ps : List Piece}

theorem writeFld_outside (hb : covers ps allBlocks = true) (v : Nat) (f : Fld) (i j : Nat) (m : Mach) :
    outside ps (writeFld v f i j m) = outside ps m := by
  simp only [writeFld]
  (repeat' split) <;> simp only [wrij_outside_allBlocks hb]

theorem writeFlds_outside (hb : covers ps allBlocks = true) (off v : Nat) (m : Mach) : outside ps (writeFlds off v m) = outside ps m :=
  forEach_outside _ _ (fun _ n => writeFld_outside hb _ _ _ _ n) m

theorem timCtrlWrite_outside (hc : covers ps [.out, .hif, .clk, .tim, .block 0x1, .block 0x4, .block 0x5] = true) (v : Nat) (m : Mach) :
    outside ps (timCtrlWrite v m) = outside ps m := outside_mono hc (by simp +decide [timCtrlWrite])

section Registers
variable (hc : covers ps regPieces = true)
include hc

theorem portCfgWrite_outside (off v p : Nat) (m : Mach) : outside ps (portCfgWrite off v p m) = outside ps m := by
  refine outside_mono hc ?_
  have h1 := writeFlds_outside (ps := regPieces) (by decide) off v m
  simp only [portCfgWrite]
  split
  · rfl
  · split
    · exact (enablePort_outside (by decide) ..).trans h1
    · split
      · exact (linkDown_outside (by decide) ..).trans h1
      · exact h1

theorem probeSelWrite_outside (v : Nat) (m : Mach) : outside ps (probeSelWrite v m) = outside ps m := by
  refine outside_mono hc ?_
  unfold probeSelWrite
  split
  · exact writeFlds_outside (by decide) ..
  · rfl

theorem afterWrite_outside (off v : Nat) (b m : Mach) : outside ps (afterWrite off v b m) = outside ps m := by
  refine outside_mono hc ?_
  unfold afterWrite
  (repeat' split) <;> simp +decide [regPieces]

/-- A word written to BAR0: the registers whose write does more, in the order of `regWrite`, and the plain ones. -/
theorem regWrite_outside (off v : Nat) (m : Mach) : outside ps (regWrite off v m) = outside ps m := by
  refine outside_mono hc ?_
  have hfld := writeFlds_outside (ps := regPieces) (by decide) off v m
  unfold regWrite
  split
  · exact msixWrite_outside (by decide) _ _ m
  · split
    case h_1 => exact sysResetWrite_outside (by decide) v m
    case h_2 => exact onlyIf_keep (outside _) _ _ _ (pbootGo_outside (by decide) m)
    case h_3 => exact hifCtrlWrite_outside (by decide) v m
    case h_4 => exact timCtrlWrite_outside (by decide) v m
    case h_5 => exact ringCtrlWrite_outside (by decide) _ v m
    case h_6 =>
      split
      · exact mdioGo_outside (by decide) _ m
      · exact hfld
    case h_11 => exact probeSelWrite_outside (by decide) v m
    case h_12 =>
      split
      · exact gclWrite_outside (by decide) v _ m
      · exact (afterWrite_outside (by decide) ..).trans hfld
    all_goals exact portCfgWrite_outside (by decide) _ v _ m

end Registers

end HostWrites

/-! The boot. -/

section Boot
variable {ps : List Piece}

theorem firmwareRuns_outside (hc : covers ps firmwarePieces = true) (i : BootImg) (m : Mach) : outside ps (firmwareRuns i m) = outside ps m := by
  refine outside_mono hc ?_
  simp only [firmwareRuns]
  refine (startInsert_outside (by decide) _).trans <| (seqStart_outside (by decide) _).trans <| (outside_with_sys (by decide) _ _).trans <|
    (forEach_outside _ _ (fun q n => regWrite_outside (by decide) _ _ n) _).trans ?_
  simp +decide [firmwarePieces]

theorem awaitPcie_outside (hc : covers ps bootPieces = true) (m : Mach) : outside ps (awaitPcie m) = outside ps m :=
  outside_mono hc ((wr_outside (by decide) 1 _).trans (outside_with_sys (by decide) _ m))

theorem awaitReset_outside (hc : covers ps bootPieces = true) (m : Mach) : outside ps (awaitReset m) = outside ps m :=
  outside_mono hc (outside_with_sys (by decide) _ m)

theorem bootSlot_outside (hc : covers ps bootPieces = true) (k : Nat) (passed : Option Nat) (m : Mach) :
    outside ps (bootSlot k passed m) = outside ps m := by
  refine outside_mono hc ?_
  simp only [bootSlot]
  split
  · rfl
  · refine (firmwareRuns_outside (by decide) ..).trans ?_
    split <;> simp +decide [bootPieces]

theorem bootFrom_outside (hc : covers ps bootPieces = true) (m : Mach) : outside ps (bootFrom m) = outside ps m := by
  unfold bootFrom
  split
  · split
    · exact bootSlot_outside hc _ _ m
    · exact awaitReset_outside hc m
  · exact awaitPcie_outside hc m
  · split
    · exact bootSlot_outside hc _ _ m
    · exact awaitPcie_outside hc m
  · exact awaitReset_outside hc m

theorem bootState_outside (hc : covers ps bootPieces = true) (b : BootIn) (m : Mach) : outside ps (bootState b m) = outside ps m := by
  refine outside_mono hc ?_
  simp +decide [bootState, bootPieces]

theorem resetRelease_outside (hc : covers ps bootPieces = true) (b : BootIn) (m : Mach) : outside ps (resetRelease b m) = outside ps m := by
  unfold resetRelease
  split
  · rfl
  · exact (bootFrom_outside hc _).trans (bootState_outside hc b m)

theorem pbootImageChecked_outside (hc : covers ps firmwarePieces = true) (i : BootImg) (m : Mach) :
    outside ps (pbootImageChecked i m) = outside ps m := by
  refine outside_mono hc ?_
  simp only [pbootImageChecked]
  split
  · split
    · exact (firmwareRuns_outside (by decide) ..).trans <| (wr_outside (by decide) 1 _).trans <| (wr_outside (by decide) 1 _).trans <|
        (outside_with_sys (by decide) _ (wr F.SYS_PBOOT_CTRL_GO 0 m)).trans (wr_outside (by decide) 0 m)
    · simp +decide [firmwarePieces]
  · rfl

end Boot

/-! The admission of a command whose effect keeps what is outside. -/

section Admission
variable {ps : List Piece} {eff : Eff} (hc : covers ps admitPieces = true)
include hc

theorem checked_outside (h : Held) {k : Mach → Mach} (hk : ∀ n, outside ps (k n) = outside ps n) (m : Mach) :
    outside ps (checked h k m) = outside ps m := by
  unfold checked
  (repeat' split)
  · exact hk m
  · exact final_outside (covers_trans hc (by decide)) ..
  · exact (hk _).trans (installInline_outside (covers_trans hc (by decide)) ..)
  · exact refuseAuth_outside (covers_trans hc (by decide)) ..

variable (heff : ∀ c tk m, outside ps (eff c tk m).1 = outside ps m)
include heff

theorem runEff_outside (h : Held) (m : Mach) : outside ps (runEff eff h m) = outside ps m := by
  simp only [runEff]
  split
  · exact heff ..
  · exact (finalWith_outside (covers_trans hc (by decide)) ..).trans (heff ..)

theorem applyHeld_outside (h : Held) (m : Mach) : outside ps (applyHeld eff h m) = outside ps m := by
  have hrefuse := fun cause key => refuseAuth_outside (covers_trans hc (by decide)) h cause key m
  unfold applyHeld
  (repeat' split)
  · exact hrefuse ..
  · exact (runEff_outside hc heff h _).trans (recordCounter_outside (covers_trans hc (by decide)) ..)
  · exact hrefuse ..
  · exact runEff_outside hc heff h m

theorem accept_outside (h : Held) (at_ : Nat) (pend : Bool) (m : Mach) : outside ps (accept eff h at_ pend m) = outside ps m := by
  have hio : covers ps [.out, .hif] = true := covers_trans hc (by decide)
  have hhif : covers ps [.hif] = true := covers_trans hc (by decide)
  simp only [accept]
  split
  · exact applyHeld_outside hc heff h m
  · split
    · exact final_outside hio ..
    · simp [hhif, hio]

theorem takeHere_outside (first : Nat) (h : Held) (m : Mach) : outside ps (takeHere eff first h m) = outside ps m :=
  checked_outside hc h (fun n => accept_outside hc heff h _ _ n) m

theorem stampOwn_outside (h : Held) (m : Mach) : outside ps (stampOwn eff h m) = outside ps m := by
  have hio : covers ps [.out, .hif] = true := covers_trans hc (by decide)
  have hhif : covers ps [.hif] = true := covers_trans hc (by decide)
  have hdom : covers ps [.out, .hif, .dom] = true := covers_trans hc (by decide)
  unfold stampOwn
  extract_lets d seq tun _ c here _ tk go
  have hsent : ∀ n, outside ps (sendStamped tun seq h.tk.op c (useTun (if Cmd_interim c then interim h.tk stPending d n else n))) = outside ps n :=
    fun n => by simp [hio, hhif, hdom]
  have hgo : ∀ n, outside ps (go n) = outside ps n := fun n => by
    simp only [go]
    split
    · exact (accept_outside hc heff ..).trans (hsent n)
    · exact (addSent_outside hhif ..).trans (hsent n)
  clear_value go
  split
  · exact final_outside hio ..
  · split
    · exact checked_outside hc h hgo m
    · exact hgo m

theorem sendAway_outside (first : Nat) (h : Held) (m : Mach) : outside ps (sendAway eff first h m) = outside ps m := by
  have hio : covers ps [.out, .hif] = true := covers_trans hc (by decide)
  have hhif : covers ps [.hif] = true := covers_trans hc (by decide)
  simp only [sendAway]
  split
  · exact final_outside hio ..
  · split
    · exact final_outside hio ..
    · split
      · split
        · exact stampOwn_outside hc heff h m
        · simp [hio, hhif]
      · simp [hio, hhif]

theorem admitCmd_outside (op first : Nat) (c : Cmd) (m : Mach) : outside ps (admitCmd op eff first c m) = outside ps m := by
  have hbad := fun tk st => final_outside (covers_trans hc (by decide)) tk st m
  simp only [admitCmd]
  (repeat' split)
  · exact hbad ..
  · exact hbad ..
  · exact hbad ..
  · exact refuseAuth_outside (covers_trans hc (by decide)) ..
  · exact hbad ..
  · exact sendAway_outside hc heff ..
  · exact takeHere_outside hc heff ..

theorem hostRow_outside (op : Nat) (c : Cmd) (m : Mach) : outside ps (hostRow op eff c m) = outside ps m :=
  (admitCmd_outside hc heff ..).trans (reserve_outside (covers_trans hc (by decide)) c m)

end Admission

end Sys2Proof.Machine
end

section
/-! What each command of the block leaves unchanged. -/
namespace Sys2Proof.Machine

/-- Outside every piece nothing is left to see. -/
theorem outside_everything (m n : Mach) : outside everything n = outside everything m := by
  refine outside_congr fun p hp => ?_
  cases p
  case block b => exact fun hb => absurd (by simpa [everything, allBlocks] using hb) (show ¬ Piece.block b ∈ everything from hp)
  all_goals exact absurd (by decide) hp

section Steps
variable {s t : State} {l : List Piece} {f : Mach → Mach}

theorem onMach_outside (hf : outside l (f s.m) = outside l s.m) (h : onMach f s = .next t) : outside l t.m = outside l s.m := by
  cases h
  exact (apply_ite (outside l) ..).trans (by rw [hf, ite_self])

theorem onBus_outside {boot : Bool} (hf : outside l (f s.m) = outside l s.m) (h : onBus boot f s = .next t) : outside l t.m = outside l s.m := by
  cases h
  exact (apply_ite (outside l) ..).trans (by rw [hf, ite_self])

theorem onPins_outside (hf : outside l (f s.m) = outside l s.m) (h : onPins f s = .next t) : outside l t.m = outside l s.m := by
  cases h
  exact hf

theorem hostCommand_outside {op : Nat} {eff : Eff} {c : Cmd} (hc : covers l admitPieces = true)
    (he : ∀ c tk m, outside l (eff c tk m).1 = outside l m) (h : onMach (hostRow op eff c) s = .next t) : outside l t.m = outside l s.m :=
  onMach_outside (hostRow_outside hc he op c s.m) h

/-- A host command whose application is followed by what keeps the rest. -/
theorem hostCommand_then_outside {op : Nat} {eff : Eff} {c : Cmd} {g : Mach → Mach} (hc : covers l admitPieces = true)
    (he : ∀ c tk m, outside l (eff c tk m).1 = outside l m) (hg : ∀ n, outside l (g n) = outside l n)
    (h : onMach (fun m => g (hostRow op eff c m)) s = .next t) : outside l t.m = outside l s.m :=
  onMach_outside (f := fun m => g (hostRow op eff c m)) ((hg _).trans (hostRow_outside hc he op c s.m)) h

theorem registerWrite_outside (a : RegAddr) (v : Word) (h : exec (.registerWrite a v) s = .next t) :
    outside regPieces t.m = outside regPieces s.m := by
  cases a with
  | msixCtrl => exact onBus_outside (msixCtrlWrite_outside (by decide) ..) h
  | cfg w => exact onBus_outside (cfgWrite_outside (by decide) ..) h
  | bar off =>
    change (if _ then _ else if _ then _ else _) = _ at h
    split at h
    · cases h
    · split at h
      · cases h
      · exact onBus_outside (regWrite_outside (by decide) off _ _) h

theorem rcRead_outside (a : RegAddr) (h : exec (.rcRead a) s = .next t) :
    outside ([.out, .fresh] ++ allBlocks) t.m = outside ([.out, .fresh] ++ allBlocks) s.m := by
  cases a with
  | msixCtrl => exact onBus_outside (emit_outside (by decide) ..) h
  | cfg w => exact onBus_outside (emit_outside (by decide) ..) h
  | bar off =>
    change (if _ then _ else if _ then _ else _) = _ at h
    split at h
    · cases h
    · split at h
      · cases h
      · exact onBus_outside (regRead_outside (by decide) ..) h

/-- Every command keeps what is outside the pieces that it touches: the rows that write registers, boot or are commands of the host have
their lemmas above, and the others that of their operation. -/
theorem exec_outside (c : Instr) (h : exec c s = .next t) : outside (touches c) t.m = outside (touches c) s.m := by
  cases c
  case registerWrite a v => exact registerWrite_outside a v h
  case rcRead a => exact rcRead_outside a h
  case timModeWrite v => exact onMach_outside (timCtrlWrite_outside rfl _ _) h
  case sysLock v => exact onMach_outside (regWrite_outside (by rfl) _ _ _) h
  case secAttest v => exact onMach_outside (regWrite_outside (by rfl) _ _ _) h
  case gpioOutSet v => exact onMach_outside (regWrite_outside (by rfl) _ _ _) h
  case gpioOutClr v => exact onMach_outside (regWrite_outside (by rfl) _ _ _) h
  case sysPbootGo v => exact onBus_outside (regWrite_outside (by rfl) _ _ _) h
  case resetRelease b => exact onPins_outside (resetRelease_outside (by rfl) b _) h
  case pbootImageChecked i => exact onPins_outside (pbootImageChecked_outside (by rfl) i _) h
  case extestRelease => exact onPins_outside (f := fun m => { m with sys := { m.sys with extest := false } }) (outside_with_sys rfl _ _) h
  case systemReset | doorbellPoll | heldCommandRelease | tunnelRequestReceive | dealTick | leaveDrivesDrop | snapshotReceive | svcCoreDissent
    | kolicaFault | extestSelect | powerOn | resetNAssert | pwrgoodFall | eccUncorrected => exact outside_everything _ _
  case deckCut c =>
    exact hostCommand_then_outside (op := 0x0102) (g := stepThree) rfl (deckCut_outside rfl) (stepThree_outside rfl) h
  case renderReset c =>
    exact hostCommand_then_outside (op := 0x0E01) (g := stepThree) rfl (renderResetEff_outside rfl) (stepThree_outside rfl) h
  case refConfig c =>
    exact hostCommand_then_outside (op := 0x0601) (g := selectRef) rfl (refConfig_outside rfl) (selectRef_outside rfl) h
  case deckStage c | spkLoad c | corrLoad c | deckDigest c | trajPush c | trajClear c | objSet c | measureRun c | streamOpen c | streamClose c
    | chmapWrite c | portStartGroup c | portStop c | rampLoad c | clipWrite c | msgDefine c | schedWrite c | annPlay c | annStop c | trumpClear c
    | icomConnect c | powerTolerance c | latencyQuery c | counterQuery c | timeQuery c | eventDropPacket c | rosterLoad c | seatAdmit c
    | seatEvict c | keyRotate c | fwStage c => exact hostCommand_outside rfl (by simp +decide [touches]) h
  all_goals exact onMach_outside (by simp +decide [touches]) h

end Steps

/-- Settles O59: a piece that a descriptor does not touch shows in what the descriptor keeps. -/
theorem commandsKeepTheRest : Obligations.CommandsKeepTheRest := fun c _ _ _ _ h hp => samePiece_of_outside (exec_outside c h) hp

/-- Settles O60, by the same frame of every command. -/
theorem eventsKeepTheRest : Obligations.EventsKeepTheRest := fun c _ _ _ _ h hp => samePiece_of_outside (exec_outside c h) hp

end Sys2Proof.Machine
end

section
/-! Frames at work: what a machine that shows the same outside some pieces reads, the places of whole register fields, and what the admission
of a command leaves. -/
namespace Sys2Proof.Machine

/-! Register fields of a block that is not listed. -/

section Reads
variable {l : List Piece} {m n : Mach} {f : Fld} {i j : Nat}

/-- A field, all of whose repetitions lie in one block, and that block is not listed. -/
def offBlock (l : List Piece) (f : Fld) : Bool :=
  blockOutside l (fkey f 0 0) && fkey f (f.n1 - 1) (f.n2 - 1) / 32 / 4096 == fkey f 0 0 / 32 / 4096

theorem rdij_of_outside (h : outside l n = outside l m) (hf : offBlock l f = true) (hi : i < f.n1) (hj : j < f.n2) : rdij n f i j = rdij m f i j := by
  simp only [offBlock, Bool.and_eq_true, beq_iff_eq] at hf
  obtain ⟨hb, he⟩ := hf
  have hlo := fkey_mono f (Nat.zero_le i) (Nat.zero_le j)
  have hhi := fkey_mono f (show i ≤ f.n1 - 1 by omega) (show j ≤ f.n2 - 1 by omega)
  have hk : blockOutside l (fkey f i j) = true := by
    rw [blockOutside_iff, show fkey f i j / 32 / 4096 = fkey f 0 0 / 32 / 4096 by omega]
    exact blockOutside_iff.mp hb
  have hr : (outside l n).2 (fkey f i j) = (outside l m).2 (fkey f i j) := by rw [h]
  simp only [outside, hk, cond_true] at hr
  simp only [rdij, rgetij, mget, hr]

theorem rdi_of_outside (h : outside l n = outside l m) (hf : offBlock l f = true) (hi : i < f.n1) (hj : 0 < f.n2) : rdi n f i = rdi m f i :=
  rdij_of_outside h hf hi hj

theorem rd_of_outside (h : outside l n = outside l m) (hf : offBlock l f = true) (h1 : 0 < f.n1) (h2 : 0 < f.n2) : rd n f = rd m f :=
  rdij_of_outside h hf h1 h2

end Reads

/-! Whole fields. -/

section Places
variable {fs : List Fld} {ks : List Nat} {m n : Mach} {f g : Fld} {i j : Nat}

/-- The places of a field in the register store. -/
def fieldPlaces (f : Fld) : List Nat := (List.range f.n1).flatMap fun i => (List.range f.n2).map fun j => fkey f i j

/-- The places of some fields, and the count of discarded events, which every event may move. -/
def placesOf (fs : List Fld) : List Nat := (F.HIF_EV_DISCARD_COUNT :: fs).flatMap fieldPlaces

/-- The places of a field lie apart from those of some fields. -/
def apart (g : Fld) (fs : List Fld) : Bool := (fieldPlaces g).all fun k => !(placesOf fs).contains k

theorem mem_fieldPlaces (hi : i < f.n1) (hj : j < f.n2) : fkey f i j ∈ fieldPlaces f :=
  List.mem_flatMap.mpr ⟨i, List.mem_range.mpr hi, List.mem_map.mpr ⟨j, List.mem_range.mpr hj, rfl⟩⟩

theorem mem_placesOf (hf : f ∈ fs) (hi : i < f.n1) (hj : j < f.n2) : fkey f i j ∈ placesOf fs :=
  List.mem_flatMap.mpr ⟨f, List.mem_cons_of_mem _ hf, mem_fieldPlaces hi hj⟩

theorem discard_mem_placesOf : discardKey ∈ placesOf fs := List.mem_flatMap.mpr ⟨_, List.mem_cons_self .., mem_fieldPlaces (by decide) (by decide)⟩

theorem not_mem_placesOf (h : apart g fs = true) (hi : i < g.n1) (hj : j < g.n2) : fkey g i j ∉ placesOf fs := by
  simpa using List.all_eq_true.mp h _ (mem_fieldPlaces hi hj)

theorem placesOf_mono {gs : List Fld} (h : fs ⊆ gs) : placesOf fs ⊆ placesOf gs := fun _ hk => by
  obtain ⟨f, hf, hk⟩ := List.mem_flatMap.mp hk
  exact List.mem_flatMap.mpr ⟨f, List.cons_subset_cons _ h hf, hk⟩

theorem Kept.rdij (h : Kept (placesOf fs) m n) (hg : apart g fs = true) (hi : i < g.n1) (hj : j < g.n2) : rdij n g i j = rdij m g i j :=
  h.regs _ (not_mem_placesOf hg hi hj) _

theorem kept_wrij (hf : i < f.n1 → j < f.n2 → fkey f i j ∈ ks) (v : Nat) (m : Mach) : Kept ks m (wrij f i j v m) := by
  unfold wrij
  split
  · next h =>
    exact ⟨fun k hk d => mget_mset_other _ _ _ _ _ _ fun he => hk (he ▸ hf h.1 h.2), rfl, rfl, [], rfl⟩
  · exact .refl m

theorem kept_wrij_field (hf : f ∈ fs) (i j v : Nat) (m : Mach) : Kept (placesOf fs) m (wrij f i j v m) :=
  kept_wrij (fun hi hj => mem_placesOf hf hi hj) v m

theorem kept_wri_field (hf : f ∈ fs) (h2 : 0 < f.n2) (i v : Nat) (m : Mach) : Kept (placesOf fs) m (wri f i v m) :=
  kept_wri i v m fun hi => mem_placesOf hf hi h2

theorem kept_wr_field (hf : f ∈ fs) (h1 : 0 < f.n1) (h2 : 0 < f.n2) (v : Nat) (m : Mach) : Kept (placesOf fs) m (wr f v m) :=
  kept_wr v m (mem_placesOf hf h1 h2)

theorem kept_raise_field (src code : Nat) (pay : Pay) (m : Mach) : Kept (placesOf fs) m (raise src code pay m) :=
  kept_raise src code pay m discard_mem_placesOf

/-- Fields that leave the state of the host interface leave the route of events. -/
theorem Kept.events_field (h : Kept (placesOf fs) m n) (hr : apart F.HIF_STATUS_RUNNING fs = true) : EventsKept m n :=
  h.events (not_mem_placesOf hr (by decide) (by decide))

theorem Kept.completable_field (h : Kept (placesOf fs) m n) (hr : apart F.HIF_STATUS_RUNNING fs = true) (hp : pace n = pace m) : Completable m n :=
  ⟨h.events_field hr, hp⟩

end Places

/-! The way of a completion. -/

/-- The second machine writes events and completions where and when the first one does. -/
structure Routed (m n : Mach) : Prop where
  events : EventsKept m n
  deal : n.deal = m.deal
  epoch : n.hif.epoch = m.hif.epoch

section Routes
variable {m n q : Mach} {tk : Ticket} {op st : Nat} {c : Cmd}

theorem Completable.routed (h : Completable m n) : Routed m n := ⟨h.events, h.deal, congrArg Pace.epoch h.pace⟩

theorem Routed.trans (h1 : Routed m n) (h2 : Routed n q) : Routed m q :=
  ⟨h1.events.trans h2.events, h2.deal.trans h1.deal, h2.epoch.trans h1.epoch⟩

theorem Routed.newOut_final {k : Nat} (h : Routed m n) (hq : tk.src = .ring k) (hl : live tk m = true) :
    ∃ ring idx, NewOut m (final tk st n) (.completion ring idx tk.tag tk.op st m.deal) := by
  have hlive : live tk n = live tk m := by simp only [live, h.events.running, h.epoch]
  obtain ⟨ring, idx, hout⟩ := (Completable.refl n).newOut_final (st := st) hq (hlive.trans hl)
  exact ⟨ring, idx, newOut_since h.events.out (h.deal ▸ hout)⟩

theorem Routed.completed_final (h : Routed m n) : Completed op st c m (final (nowTicket op c m) st n) :=
  fun hr _ hq => h.newOut_final hq (live_nowTicket hr)

end Routes

/-! Commands of the host that are admitted and applied at this boundary. -/

section Admitted
variable {s : State} {m n : Mach} {op : Nat} {eff : Eff} {c : Cmd} {P : Mach → Prop}

/-- The pieces that the judgement of a local command may reach. -/
def judgePieces : List Piece := [.out, .hif, .sec, .block 0x1, .block 0x3]

/-- The registers that the judgement of a local command may write. -/
def judgementKeys : List Nat := [discardKey, fkey F.SEC_KEYS_OPERATOR 0 0, fkey F.SEC_FLAGS_KEY_CHANGED 0 0]

/-- Since `m`, a command has been judged: its entries, its keys and the events of its judgement. -/
structure Judged (m n : Mach) : Prop where
  completable : Completable m n
  outside : outside judgePieces n = outside judgePieces m
  sec : ∃ ks, n.sec = { m.sec with keys := ks }
  kept : Kept judgementKeys m n

theorem judged_reserve (c : Cmd) (m : Mach) : Judged m (reserve c m) :=
  ⟨completable_reserve c m, reserve_outside rfl c m, ⟨m.sec.keys, reserve_sec c m⟩,
    .of_eq (reserve_regs ..) (reserve_setup ..) (reserve_lat ..) (reserve_out ..)⟩

theorem Judged.trans {q : Mach} (h1 : Judged m n) (h2 : Judged n q) : Judged m q := by
  obtain ⟨ks, hks⟩ := h1.sec
  obtain ⟨ls, hls⟩ := h2.sec
  exact ⟨h1.completable.trans h2.completable, h2.outside.trans h1.outside, ⟨ls, by rw [hls, hks]⟩, h1.kept.trans h2.kept⟩

theorem kept_setSec {ks : List Nat} (x : Sec) (m : Mach) : Kept ks m (setSec x m) := .of_eq rfl rfl rfl rfl

theorem judged_installInline (op : Nat) (c : Cmd) (m : Mach) : Judged m (installInline op c m) := by
  refine ⟨⟨(restKept_installInline ..).toEventsKept, installInline_pace ..⟩, installInline_outside rfl .., ?_, ?_⟩
  · unfold installInline
    split
    · split
      · exact ⟨_, onlyIf_keep (·.sec) _ _ _ rfl⟩
      · exact ⟨m.sec.keys, rfl⟩
    · exact ⟨m.sec.keys, rfl⟩
  · unfold installInline
    split
    · split
      · refine .trans ?_ (kept_onlyIf _ ((kept_wr _ _ (by decide)).trans (kept_raise _ _ _ _ (by decide))))
        exact (kept_setSec _ m).trans (kept_wr (f := F.SEC_KEYS_OPERATOR) _ _ (by decide))
      · exact .refl m
    · exact .refl m

theorem judged_recordCounter (c : Cmd) (m : Mach) : Judged m (recordCounter c m) := by
  refine ⟨⟨(restKept_recordCounter ..).toEventsKept, recordCounter_pace ..⟩, recordCounter_outside rfl .., ?_, ?_⟩ <;> unfold recordCounter <;> split
  · split
    · exact ⟨_, rfl⟩
    · exact ⟨m.sec.keys, rfl⟩
  · exact ⟨m.sec.keys, rfl⟩
  · split
    · exact .of_eq rfl rfl rfl rfl
    · exact .refl m
  · exact .refl m

theorem judged_signed (op : Nat) (c : Cmd) (m : Mach) : Judged m (recordCounter c (installInline op c (reserve c m))) :=
  ((judged_reserve ..).trans (judged_installInline ..)).trans (judged_recordCounter ..)

/-- A command that is admitted, with a signature or without one, meets its effect on a machine that its judgement has left as it was but for
its entries and its keys. -/
theorem hostRow_judged (h : Plain op c m ∨ Signed op c m) (hop : op ≠ 0x0102) :
    ∃ n, hostRow op eff c m = runEff eff ⟨c, nowTicket op c m⟩ n ∧ Judged m n := by
  obtain hp | hs := h
  · exact ⟨_, hostRow_plain op eff c m hp (absurd · hop), judged_reserve c m⟩
  · exact ⟨_, hostRow_signed op eff c m hs, judged_signed op c m⟩

/-- An effect that is applied on the judged machine ends in its final completion. -/
theorem runEff_done {n' : Mach} {q : Nat} (hq : c.src = .ring q) (hj : Judged m n) (hn : eff c (nowTicket op c m) n = okM n') (hk : Routed n n') :
    runEff eff ⟨c, nowTicket op c m⟩ n = final (nowTicket op c m) stDone n' ∧ Completed op stDone c m (final (nowTicket op c m) stDone n') := by
  have hkept : Routed m n' := hj.completable.routed.trans hk
  have hdone : doneOrLate (nowTicket op c m) n' = stDone := if_neg (by simp [nowTicket, hkept.deal])
  refine ⟨?_, hkept.completed_final⟩
  calc runEff eff ⟨c, nowTicket op c m⟩ n = finalWith (nowTicket op c m) (doneOrLate (nowTicket op c m) n') (bufAddr c) [] n' := by
        simp only [runEff, hn, okM, stDone, if_true]
    _ = final (nowTicket op c m) stDone n' := by rw [hdone, finalWith_ring_nil _ _ _ _ q hq]

/-- A command whose effect is applied at once, for a statement of the machine that its effect leaves with the final completion. -/
theorem admitted_answers {i : Instr} (hexec : exec i s = onMach (hostRow op eff c) s) (ha : Awake s) (h : Plain op c s.m ∨ Signed op c s.m)
    (hop : op ≠ 0x0102) (hn : ∀ n, Judged s.m n → ∃ n', eff c (nowTicket op c s.m) n = okM n' ∧ Routed n n' ∧
      (Completed op stDone c s.m (final (nowTicket op c s.m) stDone n') → P (final (nowTicket op c s.m) stDone n'))) : Answers i s P := by
  obtain ⟨n, hrow, hj⟩ := hostRow_judged (eff := eff) h hop
  obtain ⟨n', heff, hk, hP⟩ := hn n hj
  obtain ⟨q, hq⟩ : ∃ q, c.src = .ring q := h.elim (·.1) (·.1)
  obtain ⟨hrun, hc⟩ := runEff_done hq hj heff hk
  refine answers_mach i s _ P hexec ha ?_
  rw [hrow, hrun]
  exact hP hc

end Admitted

end Sys2Proof.Machine
end

section
/-! The serial and biphase ports (13): what their status registers and counters leave, starts and stops (R361, R363). -/
namespace Sys2Proof.Machine

/-! Directions and their registers. -/

section Directions
variable {m n : Mach} {d e : Nat} {x : Dir} {fs : List Fld}

/-- The fields that show a direction. -/
def portFlds : List Fld := [F.SAP_x_STAT_RUN, F.SAP_x_STAT_SILENT, F.SAP_x_STAT_DOMAIN_A, F.SAP_x_STAT_SLIPPED, F.SAP_x_STAT_CLOCK, F.SAP_RUN_DIR,
  F.AES_RX_STAT_RUN, F.AES_TX_STAT_RUN, F.AES_TX_STAT_DOMAIN_A]

theorem dirOf_congr (h : n.sap = m.sap) (d : Nat) : dirOf n d = dirOf m d := by rw [dirOf, dirOf, h]

@[simp] theorem dirOf_setDir_self (d : Nat) (x : Dir) (m : Mach) : dirOf (setDir_ d x m) d = some x := mfind_mput_self ..

theorem dirOf_setDir_ne (x : Dir) (h : e ≠ d) : dirOf (setDir_ d x m) e = dirOf m e := mfind_mput_ne _ _ _ _ h

theorem showPort_sap (d : Nat) (m : Mach) : (showPort d m).sap = m.sap :=
  samePiece_of_outside (p := .sap) (showPort_outside (ps := [.block 0xC, .block 0xD]) rfl d m) (by decide)

@[simp] theorem dirOf_showPort (d e : Nat) (m : Mach) : dirOf (showPort d m) e = dirOf m e := dirOf_congr (showPort_sap d m) e

@[simp] theorem dirOf_dirCount (d id k e : Nat) (m : Mach) : dirOf (dirCount d id k m) e = dirOf m e := rfl

@[simp] theorem dirOf_raise (src code : Nat) (pay : Pay) (m : Mach) (e : Nat) : dirOf (raise src code pay m) e = dirOf m e := rfl

@[simp] theorem dirOf_wrij (f : Fld) (i j v : Nat) (m : Mach) (e : Nat) : dirOf (wrij f i j v m) e = dirOf m e := dirOf_congr (wrij_sap ..) e

@[simp] theorem dirOf_sapWr (f : Fld) (k v : Nat) (m : Mach) (e : Nat) : dirOf (sapWr f k v m) e = dirOf m e := dirOf_wrij ..

theorem kept_setSap {ks : List Nat} (x : SapSt) (m : Mach) : Kept ks m (setSap x m) := .of_eq rfl rfl rfl rfl

theorem kept_sapWr {f : Fld} (hf : f ∈ fs) (d v : Nat) (m : Mach) : Kept (placesOf fs) m (sapWr f d v m) := kept_wrij_field hf ..

theorem kept_showPort (h : portFlds ⊆ fs) (d : Nat) (m : Mach) : Kept (placesOf fs) m (showPort d m) := by
  refine Kept.mono (ks := placesOf portFlds) ?_ (placesOf_mono h)
  simp only [showPort]
  split
  · exact (kept_wr_field (by decide) (by decide) (by decide) _ m).trans <| (kept_sapWr (by decide) d _ _).trans <| (kept_sapWr (by decide) d _ _).trans <|
      (kept_sapWr (by decide) d _ _).trans <| (kept_sapWr (by decide) d _ _).trans (kept_sapWr (by decide) d _ _)
  · split
    · exact kept_wri_field (by decide) (by decide) _ _ m
    · exact (kept_wri_field (by decide) (by decide) _ _ m).trans (kept_wri_field (by decide) (by decide) _ _ _)

end Directions

/-! A start. -/

section Start
variable {m n : Mach} {data d : Nat} {ds : List Nat}

/-- The fields that a start writes. -/
def startFlds : List Fld := F.SAP_x_HB_POS_ACTIVE :: F.SAP_x_HB_POS_FRAME :: portFlds

/-- A direction that has been started on a machine with a data deal. -/
def Begun (data : Nat) (m : Mach) (d : Nat) (o : Option Dir) : Prop :=
  ∃ x, o = some x ∧ x.begin_ = data * spd m ∧ x.left = silentOf m d ∧ x.stopAt = none

/-- What the start of directions keeps: the registers but those it writes, the pace, the starts that are listed and the frame rate. -/
structure StartKept (m n : Mach) : Prop where
  kept : Kept (placesOf startFlds) m n
  pace : pace n = pace m
  starts : n.sap.starts = m.sap.starts
  frm : n.frm = m.frm

theorem StartKept.trans {q : Mach} (h1 : StartKept m n) (h2 : StartKept n q) : StartKept m q :=
  ⟨h1.kept.trans h2.kept, h2.pace.trans h1.pace, h2.starts.trans h1.starts, h2.frm.trans h1.frm⟩

theorem silentOf_kept {fs : List Fld} (h : Kept (placesOf fs) m n) (hd : d < 48)
    (hf : [F.SAP_x_CFG_SILENT, F.AES_RX_CFG_SILENT, F.AES_TX_CFG_SILENT].all (apart · fs) = true) : silentOf n d = silentOf m d := by
  simp only [List.all_cons, List.all_nil, Bool.and_true, Bool.and_eq_true] at hf
  obtain ⟨hsap, hrx, htx⟩ := hf
  have hside : sapSide d < 2 := by unfold sapSide; split <;> decide
  unfold silentOf
  split
  · exact h.rdij hsap (Nat.mod_lt _ (by decide)) hside
  · split
    · exact h.rdij hrx (show d - 32 < 8 by omega) (by decide)
    · exact h.rdij htx (show d - 40 < 8 by omega) (by decide)

theorem StartKept.begun (h : StartKept m n) (hd : d < 48) {o : Option Dir} (hb : Begun data n d o) : Begun data m d o := by
  obtain ⟨x, hx, hbegin, hleft, hstop⟩ := hb
  exact ⟨x, hx, by rw [hbegin, spd, spd, h.frm], hleft.trans (silentOf_kept h.kept hd (by decide +kernel)), hstop⟩

theorem startDir_kept (data d : Nat) (m : Mach) : StartKept m (startDir data d m) := by
  have hframe := startDir_outside (ps := [.sap, .block 0xC, .block 0xD]) rfl data d m
  refine ⟨?_, by simp [startDir], ?_, samePiece_of_outside (p := .frm) hframe (by decide)⟩
  · exact (kept_setSap _ m).trans <| (kept_onlyIf _ ((kept_sapWr (by decide) d 1 _).trans (kept_sapWr (by decide) d 0 _))).trans
      (kept_showPort (by decide) d _)
  · refine (congrArg SapSt.starts (showPort_sap d _)).trans ?_
    exact onlyIf_keep (fun n => n.sap.starts) _ _ _ (by simp [sapWr])

theorem dirOf_startDir (data d e : Nat) (m : Mach) : dirOf (startDir data d m) e =
    dirOf (setDir_ d { setupDir m d with begin_ := data * spd m, left := (setupDir m d).silent, susp := rd m F.PWR_STATE_STATE == 3 } m) e := by
  refine (dirOf_showPort d e _).trans ?_
  exact onlyIf_keep (dirOf · e) _ _ _ (by simp)

theorem setupDir_silent (m : Mach) (d : Nat) : (setupDir m d).silent = silentOf m d := rfl

theorem setupDir_stopAt (m : Mach) (d : Nat) : (setupDir m d).stopAt = none := by
  unfold setupDir
  split
  · rfl
  · split <;> rfl

theorem startDir_begun (data d : Nat) (m : Mach) : Begun data m d (dirOf (startDir data d m) d) :=
  ⟨_, (dirOf_startDir ..).trans (dirOf_setDir_self ..), rfl, setupDir_silent m d, setupDir_stopAt m d⟩

theorem forEach_startDir (data : Nat) : ∀ (ds : List Nat) (m : Mach), (∀ d ∈ ds, d < 48) →
    let n := forEach ds (startDir data) m
    StartKept m n ∧ (∀ d ∈ ds, Begun data m d (dirOf n d)) ∧ ∀ d, d ∉ ds → dirOf n d = dirOf m d
  | [], m, _ => ⟨⟨.refl m, rfl, rfl, rfl⟩, fun _ h => absurd h (List.not_mem_nil), fun _ _ => rfl⟩
  | e :: ds, m, hlt => by
    have hfirst := startDir_kept data e m
    obtain ⟨hk, hin, hout⟩ := forEach_startDir data ds (startDir data e m) fun d hd => hlt d (List.mem_cons_of_mem _ hd)
    refine ⟨hfirst.trans hk, fun d hd => ?_, fun d hd => ?_⟩
    · by_cases hmem : d ∈ ds
      · exact hfirst.begun (hlt d hd) (hin d hmem)
      · obtain rfl := (List.mem_cons.mp hd).resolve_right hmem
        change Begun data m d (dirOf (forEach ds (startDir data) _) d)
        rw [hout d hmem]
        exact startDir_begun data d m
    · obtain ⟨hne, hmem⟩ := not_or.mp (fun h => hd (List.mem_cons.mpr h))
      exact (hout d hmem).trans ((dirOf_startDir ..).trans (dirOf_setDir_ne _ hne))

end Start

/-! The two commands. -/

section Commands
variable {c : Cmd} {s : State} {m : Mach}

theorem dirOk_free {d : Nat} (h : dirOk m d = true) : dirOf m d = none := by
  simp only [dirOk, Bool.and_eq_true, Option.isNone_iff_eq_none] at h
  exact h.1.1

theorem dirOk_reserve (c : Cmd) (m : Mach) (d : Nat) : dirOk (reserve c m) d = dirOk m d := by
  unfold reserve
  split <;> rfl

/-- The data deal of a start. -/
def dataDeal (m : Mach) (ds : List Nat) : Nat := m.deal + silentDeals m (maxOf 0 (ds.map (silentOf m)))

/-- The machine with the directions of a mask started. -/
def groupStarted (mask : Nat) (m : Mach) : Mach :=
  let n := forEach (bitsOf 48 mask) (startDir (dataDeal m (bitsOf 48 mask))) m
  setSap { n.sap with starts := n.sap.starts ++ [⟨mask, dataDeal m (bitsOf 48 mask), mask⟩] } n

/-- Directions that may start, start (R361). -/
theorem portStartGroup_starts (tk : Ticket) (h0 : u64 c 24 ≠ 0) (h48 : u64 c 24 < 2 ^ 48) (hok : (bitsOf 48 (u64 c 24)).all (dirOk m) = true)
    (hfold : foldEntry m = none) : portStartGroup c tk m = okM (groupStarted (u64 c 24) m) := by
  have hstops : (bitsOf 48 (u64 c 24)).filterMap (fun d => (dirOf m d).bind (fun x => x.stopAt)) = [] :=
    List.filterMap_eq_nil_iff.mpr fun d hd => by rw [dirOk_free (List.all_eq_true.mp hok d hd)]; rfl
  have hmask : ¬ (decide (u64 c 24 = 0) || decide (2 ^ 48 ≤ u64 c 24)) = true := by
    simpa [h0] using h48
  simp only [portStartGroup, hstops, hfold, hok]
  rw [if_neg hmask]
  rfl

theorem reserve_dataDeal (c : Cmd) (m : Mach) (ds : List Nat) : dataDeal (reserve c m) ds = dataDeal m ds := by
  unfold reserve
  split <;> rfl

theorem portStartGroup_answers (ha : Awake s) (h0 : u64 c 24 ≠ 0) (h48 : u64 c 24 < 2 ^ 48) (hp : Plain 0x0501 c s.m)
    (hok : (bitsOf 48 (u64 c 24)).all (dirOk s.m) = true) (hfold : foldEntry s.m = none) :
    Answers (.portStartGroup c) s (fun n =>
      let data := s.m.deal + silentDeals s.m (maxOf 0 ((bitsOf 48 (u64 c 24)).map (silentOf s.m)))
      n.sap.starts = s.m.sap.starts ++ [⟨u64 c 24, data, u64 c 24⟩] ∧
      (∀ d ∈ bitsOf 48 (u64 c 24), ∃ x, dirOf n d = some x ∧ x.begin_ = data * spd s.m ∧ x.left = silentOf s.m d ∧ x.stopAt = none) ∧
      (∀ d, (u64 c 24).testBit d = false → dirOf n d = dirOf s.m d) ∧ Completed 0x0501 stDone c s.m n) := by
  have hok' : (bitsOf 48 (u64 c 24)).all (dirOk (reserve c s.m)) = true := by
    simpa only [List.all_eq_true, dirOk_reserve] using hok
  have hfold' : foldEntry (reserve c s.m) = none := by
    unfold reserve
    split <;> exact hfold
  have hspd : spd (reserve c s.m) = spd s.m := by rw [spd, spd, reserve_frm]
  have hsilent : ∀ d, silentOf (reserve c s.m) d = silentOf s.m d := fun d => by
    unfold reserve
    split <;> rfl
  obtain ⟨hk, hin, hout⟩ := forEach_startDir (dataDeal (reserve c s.m) (bitsOf 48 (u64 c 24))) (bitsOf 48 (u64 c 24)) (reserve c s.m)
    fun d hd => (mem_bitsOf.mp hd).1
  refine plain_answers_final rfl ha hp (by decide) (portStartGroup_starts _ h0 h48 hok' hfold')
    ((hk.kept.completable_field (by decide +kernel) hk.pace).trans ⟨.of_eq rfl rfl rfl, rfl⟩) fun f hf hdone => ?_
  have hsap : f.sap = (groupStarted (u64 c 24) (reserve c s.m)).sap := by rw [hf, final_sap]
  have hdir := dirOf_congr hsap
  refine ⟨?_, fun d hd => ?_, fun d hd => ?_, hdone⟩
  · rw [hsap]
    refine (congrArg (· ++ _) hk.starts).trans ?_
    rw [reserve_sap, reserve_dataDeal]
    rfl
  · obtain ⟨x, hx, hbegin, hleft, hstop⟩ := hin d hd
    exact ⟨x, (hdir d).trans hx, by rw [hbegin, reserve_dataDeal, hspd]; rfl, hleft.trans (hsilent d), hstop⟩
  · refine (hdir d).trans ((hout d fun hm => ?_).trans (dirOf_congr (reserve_sap c s.m) d))
    rw [(mem_bitsOf.mp hm).2] at hd
    cases hd

/-- A direction with its stop set at a deal where a mask names it and it has none. -/
def stopDir (mask deal : Nat) (p : Nat × Dir) : Nat × Dir :=
  if mask.testBit p.1 && p.2.stopAt.isNone then (p.1, { p.2 with stopAt := some deal }) else p

theorem stopDir_fst (mask deal : Nat) (p : Nat × Dir) : (stopDir mask deal p).1 = p.1 := by
  unfold stopDir
  split <;> rfl

theorem mfind_map_stopDir (mask deal d : Nat) (t : SMap Dir) :
    mfind (t.map (stopDir mask deal)) d = (mfind t d).map fun x => (stopDir mask deal (d, x)).2 := by
  induction t with
  | nil => rfl
  | cons p t ih =>
    obtain ⟨k, x⟩ := p
    simp only [List.map_cons, mfind]
    rw [stopDir_fst]
    split
    · next h => subst h; rfl
    · exact ih

/-- The machine with the directions of a mask stopped at this deal. -/
def portsStopped (mask : Nat) (m : Mach) : Mach :=
  setSap { m.sap with dirs := m.sap.dirs.map (stopDir mask m.deal), starts := m.sap.starts.filter (fun x => x.left &&& mask == 0) } m

theorem portStop_stops (tk : Ticket) (h0 : u64 c 24 ≠ 0) (h48 : u64 c 24 < 2 ^ 48) : portStop c tk m = okM (portsStopped (u64 c 24) m) := by
  have hmask : ¬ (decide (u64 c 24 = 0) || decide (2 ^ 48 ≤ u64 c 24)) = true := by
    simpa [h0] using h48
  simp only [portStop]
  rw [if_neg hmask]
  rfl

theorem portStop_answers (ha : Awake s) (h0 : u64 c 24 ≠ 0) (h48 : u64 c 24 < 2 ^ 48) (hp : Plain 0x0502 c s.m ∨ Signed 0x0502 c s.m) :
    Answers (.portStop c) s (fun n =>
      (∀ d x, (u64 c 24).testBit d = true → dirOf s.m d = some x → x.stopAt = none → dirOf n d = some { x with stopAt := some s.m.deal }) ∧
      (∀ d, (u64 c 24).testBit d = false → dirOf n d = dirOf s.m d) ∧
      n.sap.starts = s.m.sap.starts.filter (fun x => x.left &&& u64 c 24 == 0) ∧ n.str = s.m.str ∧ Completed 0x0502 stDone c s.m n) := by
  refine admitted_answers rfl ha hp (by decide) fun n hj => ⟨_, portStop_stops _ h0 h48, ⟨.of_eq rfl rfl rfl, rfl, rfl⟩, fun hdone => ?_⟩
  have hsap : n.sap = s.m.sap := samePiece_of_outside (p := .sap) hj.outside (by decide)
  have hstr : n.str = s.m.str := samePiece_of_outside (p := .str) hj.outside (by decide)
  have hdir : ∀ d, dirOf (final (nowTicket 0x0502 c s.m) stDone (portsStopped (u64 c 24) n)) d =
      (dirOf s.m d).map fun x => (stopDir (u64 c 24) s.m.deal (d, x)).2 := fun d => by
    rw [dirOf, final_sap, dirOf, ← hsap, ← hj.completable.deal]
    exact mfind_map_stopDir ..
  refine ⟨fun d x ht hx hs => ?_, fun d ht => ?_, ?_, ?_, hdone⟩
  · rw [hdir, hx]
    simp [stopDir, ht, hs]
  · rw [hdir]
    simp [stopDir, ht]
  · rw [final_sap, ← hsap]
    rfl
  · rw [final_str, ← hstr]
    rfl

end Commands

/-- Settles O32: a start by induction over the directions of its mask, a stop by the map over the running directions. -/
theorem portsStartAndStop : Obligations.PortsStartAndStop := fun _ _ ha h0 h48 =>
  ⟨portStartGroup_answers ha h0 h48, portStop_answers ha h0 h48⟩

end Sys2Proof.Machine
end

section
/-! Rates, slips and restarts of the serial directions (13 R360, R364-R366). -/
namespace Sys2Proof.Machine

/-! The registers of a serial direction, its counters and its capture FIFO. -/

section Books
variable {m n q : Mach} {d e id k cause mhz : Nat} {x : Dir} {f g : Fld} {l : List Piece} {fs : List Fld}

theorem sapRd_of_outside (h : outside l n = outside l m) (hf : offBlock l f = true) (h1 : f.n1 = 16) (h2 : f.n2 = 2) : sapRd n f d = sapRd m f d :=
  rdij_of_outside h hf (by rw [h1]; exact Nat.mod_lt _ (by decide)) (by rw [h2]; exact sapSide_lt d)

theorem Kept.sapRd (h : Kept (placesOf fs) m n) (hg : apart g fs = true) (h1 : g.n1 = 16) (h2 : g.n2 = 2) : sapRd n g d = sapRd m g d :=
  h.rdij hg (by rw [h1]; exact Nat.mod_lt _ (by decide)) (by rw [h2]; exact sapSide_lt d)

theorem sapRd_sapWr_self (h1 : f.n1 = 16) (h2 : f.n2 = 2) (v : Nat) (m : Mach) : sapRd (sapWr f d v m) f d = v % 2 ^ f.width :=
  rdij_wrij_self m (by rw [h1]; exact Nat.mod_lt _ (by decide)) (by rw [h2]; exact sapSide_lt d) v

theorem autoRestart_of_sapRd (h : sapRd n F.SAP_x_CFG_AUTO_RESTART d = sapRd m F.SAP_x_CFG_AUTO_RESTART d) : autoRestart n d = autoRestart m d := by
  rw [autoRestart, autoRestart, h]

/-- A counter of a direction. -/
def portCnt (m : Mach) (d id : Nat) : Nat := mget 0 m.sap.cnt (d * 2 ^ 16 + id)

theorem portCnt_congr (h : n.sap = m.sap) : portCnt n d id = portCnt m d id := by rw [portCnt, portCnt, h]

@[simp] theorem portCnt_dirCount_self (m : Mach) : portCnt (dirCount d id k m) d id = portCnt m d id + k := mget_mset_self ..

theorem portCnt_dirCount_ne (m : Mach) (h : id ≠ e) : portCnt (dirCount d e k m) d id = portCnt m d id :=
  mget_mset_ne _ _ _ _ _ (by omega)

@[simp] theorem portCnt_setDir (m : Mach) : portCnt (setDir_ e x m) d id = portCnt m d id := rfl

@[simp] theorem portCnt_showPort (m : Mach) : portCnt (showPort e m) d id = portCnt m d id := portCnt_congr (showPort_sap ..)

@[simp] theorem portCnt_raise (src code : Nat) (pay : Pay) (m : Mach) : portCnt (raise src code pay m) d id = portCnt m d id := rfl

theorem firstIdx_lt {α : Type} (p : α → Bool) (l : List α) (k j : Nat) (h : firstIdx p l k = some j) : j < k + l.length := by
  induction l generalizing k with
  | nil => cases h
  | cons a t ih =>
    simp only [firstIdx] at h
    split at h
    · cases h
      exact Nat.lt_add_of_pos_right (Nat.succ_pos _)
    · have := ih (k + 1) h
      simp only [List.length_cons]
      omega

theorem nominalOf_lt (mhz : Nat) : nominalOf mhz < 8 := by
  simp only [nominalOf]
  split
  · next k hk => exact firstIdx_lt _ _ _ _ hk
  · decide

/-! What a capture FIFO holds. -/

theorem fifo_congr (h : n.hif.fifos = m.hif.fifos) (k : Nat) : fifo n k = fifo m k := by rw [fifo, fifo, h]

theorem raise_fifos (src code : Nat) (pay : Pay) (m : Mach) : (raise src code pay m).hif.fifos = m.hif.fifos :=
  raise_hif_keep (fun h => h.fifos) (fun _ _ _ _ => by unfold evHif; split <;> rfl) (fun _ _ _ => rfl) _ _ _ _

theorem showPort_hif (d : Nat) (m : Mach) : (showPort d m).hif = m.hif :=
  samePiece_of_outside (p := .hif) (showPort_outside (ps := [.block 0xC, .block 0xD]) rfl d m) (by decide)

theorem fifo_push (h : (fifo m k).entries.length < 64) (code : Nat) (pay : Pay) :
    (fifo (fifoPush k code pay m) k).entries = (fifo m k).entries ++ [⟨m.deal, code, pay⟩] := by
  rw [fifoPush_room h, fifo_setFifo_self]

theorem eventsKept_setFifo (k : Nat) (x : Fifo) (m : Mach) : EventsKept m (setFifo k x m) := .of_eq rfl rfl rfl

theorem eventsKept_fifoPush (k code : Nat) (pay : Pay) (m : Mach) : EventsKept m (fifoPush k code pay m) := by
  simp only [fifoPush]
  split
  · exact eventsKept_setFifo ..
  · exact (eventsKept_setFifo ..).trans (eventsKept_onlyIf _ (eventsKept_raise ..))

/-! The record of a rate. -/

theorem fifoPush_sap (k code : Nat) (pay : Pay) (m : Mach) : (fifoPush k code pay m).sap = m.sap :=
  samePiece_of_outside (p := .sap) (fifoPush_outside (ps := [.out, .hif, .block 0x1]) rfl k code pay m) (by decide)

theorem dirOf_rateRecord (hx : dirOf m d = some x) (cause mhz : Nat) :
    dirOf (rateRecord d cause mhz m) d = some { x with rate := mhz, clock := cause != 2 } := by
  simp only [rateRecord, hx, Option.getD_some]
  exact (dirOf_congr (fifoPush_sap ..) d).trans (dirOf_setDir_self ..)

/-- The record enters the capture FIFO of the direction's block, where there is room. -/
theorem rateRecord_enters (hx : dirOf m d = some x) (hk : k = if d < 32 then 0x0800 else 0x0900) (hroom : (fifo m k).entries.length < 64) :
    (fifo (rateRecord d cause mhz m) k).entries = (fifo m k).entries ++
      [⟨m.deal, k + 1, [(1, d), (1, cause), (1, nominalOf mhz), (1, 0), (4, x.rate), (4, mhz), (4, 0)]⟩] := by
  simp only [rateRecord, hx, Option.getD_some, ← hk]
  exact fifo_push (m := setDir_ d _ m) hroom ..

theorem eventsKept_rateRecord (d cause mhz : Nat) (m : Mach) : EventsKept m (rateRecord d cause mhz m) :=
  EventsKept.trans (n := setDir_ d { (dirOf m d).getD {} with rate := mhz, clock := cause != 2 } m) (.of_eq rfl rfl rfl) (eventsKept_fifoPush ..)

theorem portCnt_rateRecord (m : Mach) : portCnt (rateRecord e cause mhz m) d id = portCnt m d id :=
  (portCnt_congr (m := setDir_ e { (dirOf m e).getD {} with rate := mhz, clock := cause != 2 } m) (fifoPush_sap ..)).trans (portCnt_setDir m)

/-! The loss of a direction's domain: its bridges are told, and its clock has not been in range. -/

theorem channelLost_fifos (dir rate ch : Nat) (m : Mach) : (channelLost dir rate ch m).hif.fifos = m.hif.fifos := by
  simp only [channelLost]
  split
  · refine (raise_fifos ..).trans ?_
    exact congrArg Hif.fifos (forEach_keep (fun n => n.hif) _ _ (fun _ n => wri_hif _ _ _ n) _)
  · rfl

theorem channelLost_sap (dir rate ch : Nat) (m : Mach) : (channelLost dir rate ch m).sap = m.sap :=
  samePiece_of_outside (p := .sap) (channelLost_outside (ps := [.out, .hif, .frm, .block 0x1, .block 0xB]) rfl dir rate ch m) (by decide)

theorem dirOf_domainLost (hx : dirOf m d = some x) (rate : Nat) : dirOf (domainLost d rate m) d = some { x with inRange := 0 } := by
  have hsap : (forEach (domainChs m d) (channelLost d rate) m).sap = m.sap := forEach_keep (·.sap) _ _ (fun ch n => channelLost_sap d rate ch n) m
  simp only [domainLost, setInRange, hsap, show mfind m.sap.dirs d = some x from hx]
  exact mfind_mput_self ..

theorem domainLost_fifos (d rate : Nat) (m : Mach) : (domainLost d rate m).hif.fifos = m.hif.fifos := by
  have hlost : (forEach (domainChs m d) (channelLost d rate) m).hif.fifos = m.hif.fifos :=
    forEach_keep (·.hif.fifos) _ _ (fun ch n => channelLost_fifos d rate ch n) m
  rw [← hlost]
  unfold domainLost setInRange
  split <;> rfl

end Books

/-! A frame start that is aligned, a mask and the rate. -/

section Rates
variable {s : State} {d mhz : Nat} {x : Dir}

/-- The record of a rate change of a serial direction has entered its capture FIFO, where that had room. -/
def RateRecorded (m : Mach) (d cause mhz : Nat) (x : Dir) (n : Mach) : Prop :=
  (fifo m 0x0800).entries.length < 64 → (fifo n 0x0800).entries = (fifo m 0x0800).entries ++
    [⟨m.deal, 0x0801, [(1, d), (1, cause), (1, nominalOf mhz), (1, 0), (4, x.rate), (4, mhz), (4, 0)]⟩]

theorem frameStart_counted (ha : Awake s) (hx : dirOf s.m d = some x) {f : FrameIn} (hf : f.dir = d) (haway : f.away = false) (hfifo : f.fifo = false)
    (hd : d < 32) (hA : x.domA = false) (hsusp : x.susp = false) (hz : x.zlo = none) (hdata : x.data = true) (hclock : x.clock = true) :
    Answers (.sapFrameStart f) s (fun n => dirOf n d = some { x with frames := x.frames + 1, syncRun := 0 } ∧
      mget 0 n.sap.cnt (d * 2 ^ 16 + (if 16 ≤ d then 0x0802 else 0x0805)) =
        mget 0 s.m.sap.cnt (d * 2 ^ 16 + (if 16 ≤ d then 0x0802 else 0x0805)) + 1 ∧ n.regs = s.m.regs) := by
  have htx : isTx d = decide (16 ≤ d) := by simp [isTx, hd]; omega
  have hrun : frameStart f s.m = dirCount d (if 16 ≤ d then 0x0802 else 0x0805) 1
      (setDir_ d { x with frames := x.frames + 1, syncRun := 0 } (setDir_ d { x with syncRun := 0 } s.m)) := by
    simp [frameStart, frameB, hf, hx, haway, hfifo, hclock, hA, hsusp, hz, hdata, htx]
  refine answers_mach _ s (frameStart f) _ rfl ha ?_
  rw [hrun]
  exact ⟨dirOf_setDir_self .., portCnt_dirCount_self (setDir_ d _ (setDir_ d _ s.m)), rfl⟩

theorem sapMaskWrite_answers (ha : Awake s) (hd : d < 32) (v : Word) :
    Answers (.sapMaskWrite d v) s (fun n => sapRd n F.SAP_x_MASK_SLOT d = v.toNat ∧ n.sap = s.m.sap ∧ n.out = s.m.out) := by
  have hrun : sapMaskWrite d v s.m = sapWr F.SAP_x_MASK_SLOT d v.toNat s.m := if_pos (by simpa using hd)
  refine answers_mach _ s (sapMaskWrite d v) _ rfl ha ?_
  rw [hrun]
  exact ⟨(sapRd_sapWr_self rfl rfl _ _).trans (Nat.mod_eq_of_lt v.isLt), wrij_sap .., wrij_out ..⟩

theorem sapRd_clock_showPort {m : Mach} (hd : d < 32) (hx : dirOf m d = some x) : sapRd (showPort d m) F.SAP_x_STAT_CLOCK d = b2n x.clock := by
  have hb : b2n x.clock % 2 ^ F.SAP_x_STAT_CLOCK.width = b2n x.clock := by cases x.clock <;> rfl
  simp only [showPort, hx, hd, if_true, Option.isSome_some, Option.getD_some, Bool.true_and]
  rw [Kept.sapRd (m := sapWr F.SAP_x_STAT_CLOCK d (b2n x.clock) (wr F.SAP_RUN_DIR (putBit (rd m F.SAP_RUN_DIR) d true) m)) (fs := portFlds.take 4) ?_
    (by decide +kernel) rfl rfl, sapRd_sapWr_self rfl rfl, hb]
  exact (kept_sapWr (by decide) d _ _).trans <| (kept_sapWr (by decide) d _ _).trans <| (kept_sapWr (by decide) d _ _).trans (kept_sapWr (by decide) d _ _)

theorem sapClockLoss_answers (ha : Awake s) (hd : d < 32) (hx : dirOf s.m d = some x) (hclock : x.clock = true) (hmaster : x.master = false) :
    Answers (.sapClockLoss d) s (fun n => dirOf n d = some { x with rate := 0, clock := false, inRange := 0 } ∧ sapRd n F.SAP_x_STAT_CLOCK d = 0 ∧
      RateRecorded s.m d 2 0 x n) := by
  have hrun : clockLoss d s.m = domainLost d 0 (showPort d (rateRecord d 2 0 s.m)) := by
    simp [clockLoss, hx, hclock, hmaster, hd]
  have hdir := dirOf_rateRecord hx 2 0
  refine answers_mach _ s (clockLoss d) _ rfl ha ?_
  rw [hrun]
  refine ⟨dirOf_domainLost ((dirOf_showPort ..).trans hdir) 0, ?_, fun hroom => ?_⟩
  · rw [sapRd_of_outside (domainLost_outside (ps := [.out, .hif, .frm, .sap, .block 0x1, .block 0xB]) rfl d 0 _) (by decide) rfl rfl, sapRd_clock_showPort hd hdir]
    rfl
  · rw [fifo_congr ((domainLost_fifos ..).trans (congrArg Hif.fifos (showPort_hif d _)))]
    exact rateRecord_enters hx (if_pos hd).symm hroom

/-- The machine that shows a measured rate, its bridges told where it has left the one before. -/
def rateSeen (d mhz : Nat) (x : Dir) (m : Mach) : Mach :=
  onlyIf (!x.domA && rateShown m d != 0 && decide (d < 40) && offRate (rateShown m d) mhz) (domainLost d mhz) (showRate d mhz m)

theorem showRate_serial (hd : d < 32) (m : Mach) :
    showRate d mhz m = sapWr F.SAP_x_RATE_MHZ d mhz (sapWr F.SAP_x_RATE_NOMINAL d (nominalOf mhz) m) := if_pos hd

theorem rateSeen_sapRd (hd : d < 32) (hm : mhz < 2 ^ F.SAP_x_RATE_MHZ.width) (m : Mach) :
    sapRd (rateSeen d mhz x m) F.SAP_x_RATE_MHZ d = mhz ∧ sapRd (rateSeen d mhz x m) F.SAP_x_RATE_NOMINAL d = nominalOf mhz := by
  have hkeep : outside [.out, .hif, .frm, .sap, .block 0x1, .block 0xB] (rateSeen d mhz x m) = outside _ (showRate d mhz m) :=
    onlyIf_keep (outside _) _ _ _ (domainLost_outside rfl d mhz _)
  rw [sapRd_of_outside hkeep (by decide) rfl rfl, sapRd_of_outside hkeep (by decide) rfl rfl, showRate_serial hd]
  refine ⟨(sapRd_sapWr_self rfl rfl _ _).trans (Nat.mod_eq_of_lt hm), ?_⟩
  rw [(kept_sapWr (fs := [F.SAP_x_RATE_MHZ]) (by decide) d mhz _).sapRd (by decide +kernel) rfl rfl, sapRd_sapWr_self rfl rfl]
  exact Nat.mod_eq_of_lt (nominalOf_lt mhz)

theorem dirOf_showRate (hd : d < 32) (e : Nat) (m : Mach) : dirOf (showRate d mhz m) e = dirOf m e := by
  rw [showRate_serial hd, dirOf_sapWr, dirOf_sapWr]

theorem showRate_hif (hd : d < 32) (m : Mach) : (showRate d mhz m).hif = m.hif := by
  rw [showRate_serial hd]
  exact (wrij_hif ..).trans (wrij_hif ..)

theorem rateSeen_dirOf {m : Mach} (hd : d < 32) (hx : dirOf m d = some x) :
    ∃ y, dirOf (rateSeen d mhz x m) d = some y ∧ y.rate = x.rate ∧ y.clock = x.clock := by
  have hshown : dirOf (showRate d mhz m) d = some x := (dirOf_showRate hd d m).trans hx
  unfold rateSeen onlyIf
  split
  · exact ⟨_, dirOf_domainLost hshown mhz, rfl, rfl⟩
  · exact ⟨x, hshown, rfl, rfl⟩

theorem rateSeen_fifo (hd : d < 32) (m : Mach) : fifo (rateSeen d mhz x m) 0x0800 = fifo m 0x0800 := by
  refine fifo_congr ((onlyIf_keep (·.hif.fifos) _ _ _ (domainLost_fifos ..)).trans ?_) _
  rw [showRate_hif hd]

theorem sapRateUpdate_answers (ha : Awake s) (hd : d < 32) (hx : dirOf s.m d = some x) (hm : mhz < 2 ^ F.SAP_x_RATE_MHZ.width) :
    Answers (.sapRateUpdate d mhz) s (fun n => sapRd n F.SAP_x_RATE_MHZ d = mhz ∧ sapRd n F.SAP_x_RATE_NOMINAL d = nominalOf mhz ∧
      (rd s.m F.SAP_RATE_TOL_PPM * x.rate < ((x.rate : Int) - mhz).natAbs * 1000000 →
        (∃ y, dirOf n d = some y ∧ y.rate = mhz ∧ y.clock = true) ∧ RateRecorded s.m d 3 mhz x n) ∧
      (((x.rate : Int) - mhz).natAbs * 1000000 ≤ rd s.m F.SAP_RATE_TOL_PPM * x.rate →
        (∃ y, dirOf n d = some y ∧ y.rate = x.rate ∧ y.clock = x.clock) ∧ fifo n 0x0800 = fifo s.m 0x0800)) := by
  have hdiff : (if x.rate < mhz then mhz - x.rate else x.rate - mhz) = ((x.rate : Int) - mhz).natAbs := by split <;> omega
  have hrun : rateUpdate d mhz s.m = onlyIf (decide (rd s.m F.SAP_RATE_TOL_PPM * x.rate < ((x.rate : Int) - mhz).natAbs * 1000000))
      (rateRecord d 3 mhz) (rateSeen d mhz x s.m) := by
    rw [← hdiff]
    simp only [rateUpdate, hx]
    rfl
  obtain ⟨hmhz, hnom⟩ := rateSeen_sapRd (x := x) hd hm s.m
  obtain ⟨y, hy, hrate, hyclock⟩ := rateSeen_dirOf (mhz := mhz) hd hx
  have hdeal : (rateSeen d mhz x s.m).deal = s.m.deal := by
    refine (onlyIf_keep (·.deal) _ _ _ (congrArg Pace.deal (domainLost_pace d mhz))).trans ?_
    rw [showRate_serial hd]
    rfl
  have hfifo := rateSeen_fifo (mhz := mhz) (x := x) hd s.m
  refine answers_mach _ s (rateUpdate d mhz) _ rfl ha ?_
  rw [hrun]
  have hkeep : outside [.out, .hif, .sap, .block 0x1] _ = outside [.out, .hif, .sap, .block 0x1] (rateSeen d mhz x s.m) :=
    onlyIf_keep (outside _) (decide (rd s.m F.SAP_RATE_TOL_PPM * x.rate < ((x.rate : Int) - mhz).natAbs * 1000000)) (rateRecord d 3 mhz) _
      (rateRecord_outside rfl d 3 mhz _)
  refine ⟨(sapRd_of_outside hkeep (by decide) rfl rfl).trans hmhz, (sapRd_of_outside hkeep (by decide) rfl rfl).trans hnom, fun hmoved => ?_, fun hstill => ?_⟩
  · rw [decide_eq_true hmoved]
    refine ⟨⟨_, dirOf_rateRecord hy 3 mhz, rfl, rfl⟩, fun hroom => ?_⟩
    have henters := rateRecord_enters (cause := 3) (mhz := mhz) hy (if_pos hd).symm (hfifo ▸ hroom)
    rw [hfifo, hdeal, hrate] at henters
    exact henters
  · rw [decide_eq_false (Nat.not_lt.mpr hstill)]
    exact ⟨⟨y, hy, hrate, hyclock⟩, hfifo⟩

end Rates

/-! Restarts and slips. -/

section Slips
variable {s : State} {m n : Mach} {d cause offset lo ns : Nat} {x : Dir} {f : FrameIn}

/-- A direction has restarted, zero until its data resume (R366). -/
def Restarted (m : Mach) (d : Nat) (x : Dir) (domA : Bool) (n : Mach) : Prop :=
  (∃ y, dirOf n d = some y ∧ y.restart = none ∧ y.gwait = false ∧ y.data = false ∧ y.left = x.silent ∧ y.zlo.isSome = true ∧
    y.zhi = some ((m.deal + silentDeals m x.silent) * spd m) ∧ y.domA = domA) ∧
  mget 0 n.sap.cnt (d * 2 ^ 16 + 0x0807) = mget 0 m.sap.cnt (d * 2 ^ 16 + 0x0807) + 1

theorem restartDir_restarted (d : Nat) (x y : Dir) (hy : y.silent = x.silent) (m : Mach) : Restarted m d x y.domA (restartDir d y m) := by
  refine ⟨⟨_, (dirOf_showPort d d _).trans ((dirOf_dirCount ..).trans (dirOf_setDir_self ..)), rfl, rfl, rfl, hy, ?_, ?_, rfl⟩, ?_⟩
  · cases y.zlo <;> rfl
  · rw [← hy]
  · exact (portCnt_showPort _).trans (portCnt_dirCount_self (setDir_ d _ m))

theorem sapRestart_answers_due (ha : Awake s) (hx : dirOf s.m d = some x) {r : Nat} (hg : x.gwait = false) (hr : x.restart = some r)
    (hlt : r < s.m.deal) : Answers (.sapRestart d) s (Restarted s.m d x x.domA) := by
  have hrun : sapRestart d s.m = restartDir d x s.m := by simp [sapRestart, hx, hg, hr, onlyIf, hlt]
  refine answers_mach _ s (sapRestart d) _ rfl ha ?_
  rw [hrun]
  exact restartDir_restarted d x x rfl s.m

theorem sapRestart_answers_locked (ha : Awake s) (hx : dirOf s.m d = some x) (hg : x.gwait = true)
    (hl : (rd s.m F.CLK_AL_LOCK_LOCK).testBit (8 + x.grp) = true) :
    Answers (.sapRestart d) s (Restarted s.m d x (groupDomA s.m x.grp (x.slots * x.width))) := by
  have hrun : sapRestart d s.m = restartDir d { x with domA := groupDomA s.m x.grp (x.slots * x.width) } s.m := by simp [sapRestart, hx, hg, hl]
  refine answers_mach _ s (sapRestart d) _ rfl ha ?_
  rw [hrun]
  exact restartDir_restarted d x { x with domA := groupDomA s.m x.grp (x.slots * x.width) } rfl s.m

/-- Since `m`, a direction that carries data has been looked at, but no slip of it declared. -/
structure Unslipped (m n : Mach) (d : Nat) : Prop where
  events : EventsKept m n
  deal : n.deal = m.deal
  frm : n.frm = m.frm
  cnt : portCnt n d 0x0806 = portCnt m d 0x0806
  auto : autoRestart n d = autoRestart m d
  dir : ∃ y, dirOf n d = some y ∧ y.zlo = none

/-- A slip of a serial direction has been declared since `m`. -/
structure Slipped (m n : Mach) (d offset lo : Nat) : Prop where
  offset : sapRd n F.SAP_x_STAT_OFFSET d = offset
  cnt : portCnt n d 0x0806 = portCnt m d 0x0806 + 1
  reported : Reported 0x08 0x0802 m n
  restarts : autoRestart m d = true → ∃ y, dirOf n d = some y ∧ y.zlo = some lo ∧ y.restart = some m.deal
  runsOn : autoRestart m d = false → ∃ y, dirOf n d = some y ∧ y.slipped = true ∧ y.zlo = none

theorem unslipped_setDir (hz : x.zlo = none) (m : Mach) : Unslipped m (setDir_ d x m) d :=
  ⟨.of_eq rfl rfl rfl, rfl, rfl, rfl, rfl, x, dirOf_setDir_self .., hz⟩

theorem Unslipped.trans {q : Mach} (h1 : Unslipped m n d) (h2 : Unslipped n q d) : Unslipped m q d :=
  ⟨h1.events.trans h2.events, h2.deal.trans h1.deal, h2.frm.trans h1.frm, h2.cnt.trans h1.cnt, h2.auto.trans h1.auto, h2.dir⟩

/-- The machine with the books of a slip, before its event, its direction at a value. -/
def slipShown (d offset : Nat) (y : Dir) (m : Mach) : Mach :=
  showPort d (dirCount d 0x0806 1 (sapWr F.SAP_x_STAT_OFFSET d offset (orReg F.SAP_FLAGS_SLIP (2 ^ d) (setDir_ d y m))))

/-- A direction after a slip that its frame starts or its FIFO have shown. -/
def slipDir (auto : Bool) (lo deal : Nat) (x : Dir) : Dir :=
  { if auto then { x with zlo := some lo, zhi := none, restart := some deal, data := x.data && x.domA } else { x with slipped := true } with syncRun := 0 }

theorem dirOf_slipShown (y : Dir) (m : Mach) : dirOf (slipShown d offset y m) d = some y := by
  rw [slipShown, dirOf_showPort, dirOf_dirCount, dirOf_sapWr]
  exact dirOf_setDir_self d y m

theorem portCnt_slipShown (y : Dir) (m : Mach) : portCnt (slipShown d offset y m) d 0x0806 = portCnt m d 0x0806 + 1 := by
  rw [slipShown, portCnt_showPort, portCnt_dirCount_self]
  exact congrArg (· + 1) ((portCnt_congr (wrij_sap F.SAP_x_STAT_OFFSET (d % 16) (sapSide d) offset _)).trans (portCnt_setDir m))

theorem sapRd_offset_slipShown (ho : offset < 2 ^ F.SAP_x_STAT_OFFSET.width) (y : Dir) (m : Mach) :
    sapRd (slipShown d offset y m) F.SAP_x_STAT_OFFSET d = offset := by
  rw [slipShown, (kept_showPort (List.Subset.refl _) d _).sapRd (by decide +kernel) rfl rfl]
  exact (sapRd_sapWr_self rfl rfl _ _).trans (Nat.mod_eq_of_lt ho)

theorem eventsKept_setDir_ (y : Dir) (m : Mach) : EventsKept m (setDir_ d y m) := .of_eq rfl rfl rfl
theorem eventsKept_dirCount (id k : Nat) (m : Mach) : EventsKept m (dirCount d id k m) := .of_eq rfl rfl rfl

theorem eventsKept_slipShown (y : Dir) (m : Mach) : EventsKept m (slipShown d offset y m) :=
  (eventsKept_setDir_ y m).trans <| (eventsKept_wr _ _ (by decide)).trans <| (eventsKept_wrij _ _ _ _ (by decide)).trans <|
    (eventsKept_dirCount ..).trans (eventsKept_showPort d _)

theorem slipShown_deal (y : Dir) (m : Mach) : (slipShown d offset y m).deal = m.deal := by
  have hshow := fun q => samePiece_of_outside (p := .deal) (showPort_outside (ps := [.block 0xC, .block 0xD]) rfl d q) (by decide)
  exact (hshow _).trans rfl

theorem slip_eq (hx : dirOf m d = some x) (hc : cause ≠ 3) : ∃ pay, slip d cause offset lo ns m =
    raise 0x08 0x0802 pay (slipShown d offset (slipDir (autoRestart m d) lo m.deal x) m) := by
  simp only [slip, hx, hc, if_false, raise, slipShown_deal]
  exact ⟨_, rfl⟩

theorem slip_slipped (hu : Unslipped m n d) (hc : cause ≠ 3) (ho : offset < 2 ^ F.SAP_x_STAT_OFFSET.width) :
    Slipped m (slip d cause offset lo ns n) d offset lo := by
  obtain ⟨x, hx, hz⟩ := hu.dir
  obtain ⟨pay, heq⟩ := slip_eq (offset := offset) (lo := lo) (ns := ns) hx hc
  have hdir : dirOf (slip d cause offset lo ns n) d = some (slipDir (autoRestart m d) lo m.deal x) := by
    rw [heq, dirOf_raise, dirOf_slipShown, hu.auto, hu.deal]
  refine ⟨?_, ?_, ?_, fun hauto => ?_, fun hauto => ?_⟩
  · rw [heq, sapRd_of_outside (raise_outside (ps := [.out, .hif, .block 0x1]) rfl ..) (by decide) rfl rfl, sapRd_offset_slipShown ho]
  · rw [heq, portCnt_raise, portCnt_slipShown, hu.cnt]
  · rw [heq]
    exact (hu.events.trans (eventsKept_slipShown ..)).reported
  · rw [hauto] at hdir
    exact ⟨_, hdir, rfl, rfl⟩
  · rw [hauto] at hdir
    exact ⟨_, hdir, rfl, hz⟩

/-- What follows in the same frame start leaves the slip as it is. -/
theorem Slipped.then {q : Mach} (h : Slipped m n d offset lo) (hoff : sapRd q F.SAP_x_STAT_OFFSET d = sapRd n F.SAP_x_STAT_OFFSET d)
    (hcnt : portCnt q d 0x0806 = portCnt n d 0x0806) (hout : ∃ l, q.out = l ++ n.out)
    (hdir : ∀ x, dirOf n d = some x → ∃ y, dirOf q d = some y ∧ y.zlo = x.zlo ∧ y.restart = x.restart ∧ y.slipped = x.slipped) :
    Slipped m q d offset lo := by
  refine ⟨hoff.trans h.offset, hcnt.trans h.cnt, reported_then _ _ _ _ _ h.reported hout, fun ha => ?_, fun ha => ?_⟩
  · obtain ⟨x, hx, hz, hr⟩ := h.restarts ha
    obtain ⟨y, hy, hz', hr', -⟩ := hdir x hx
    exact ⟨y, hy, hz'.trans hz, hr'.trans hr⟩
  · obtain ⟨x, hx, hs, hz⟩ := h.runsOn ha
    obtain ⟨y, hy, hz', -, hs'⟩ := hdir x hx
    exact ⟨y, hy, hs'.trans hs, hz'.trans hz⟩

theorem eventsKept_setSap (y : SapSt) (m : Mach) : EventsKept m (setSap y m) := .of_eq rfl rfl rfl

theorem eventsKept_dataBegins (bits : Nat) (m : Mach) : EventsKept m (dataBegins bits m) := by
  unfold dataBegins
  exact (eventsKept_setSap _ m).trans (eventsKept_forEach (fun _ n => eventsKept_raise _ _ _ n) _ _)

theorem dataBegins_dirs (bits : Nat) (m : Mach) : (dataBegins bits m).sap.dirs = m.sap.dirs :=
  forEach_keep (·.sap.dirs) _ _ (fun _ n => congrArg SapSt.dirs (raise_sap _ _ _ n)) _

theorem dataBegins_cnt (bits : Nat) (m : Mach) : (dataBegins bits m).sap.cnt = m.sap.cnt :=
  forEach_keep (·.sap.cnt) _ _ (fun _ n => congrArg SapSt.cnt (raise_sap _ _ _ n)) _

theorem dirOf_dataBegins (bits e : Nat) (m : Mach) : dirOf (dataBegins bits m) e = dirOf m e := by rw [dirOf, dataBegins_dirs, dirOf]

/-- The frames of a B direction move no slip. -/
theorem Slipped.frameB (h : Slipped m n d offset lo) : Slipped m (frameB d n) d offset lo := by
  have hid : ∀ b : Bool, (0x0806 : Nat) ≠ if b then 0x0802 else 0x0805 := by decide
  have hself : ∀ {x : Dir}, dirOf n d = some x → ∀ y : Dir, y.zlo = x.zlo → y.restart = x.restart → y.slipped = x.slipped →
      ∀ z, dirOf n d = some z → ∃ w, some y = some w ∧ w.zlo = z.zlo ∧ w.restart = z.restart ∧ w.slipped = z.slipped := by
    intro x hx y hz hr hs z hz'
    obtain rfl : x = z := Option.some.inj (hx.symm.trans hz')
    exact ⟨y, rfl, hz, hr, hs⟩
  unfold Machine.frameB
  split
  · exact h
  · next x hx =>
    split
    · exact h
    · split
      · exact h.then rfl (portCnt_dirCount_ne (setDir_ d _ n) (hid _)) ⟨[], rfl⟩ (by
          simp only [dirOf_dirCount, dirOf_setDir_self]
          exact hself hx _ rfl rfl rfl)
      · split
        · refine h.then ?_ ?_ ?_ ?_
          · rw [sapRd_of_outside (dataBegins_outside (ps := [.out, .hif, .sap, .block 0x1]) rfl ..) (by decide) rfl rfl,
              (kept_showPort (List.Subset.refl _) d _).sapRd (by decide +kernel) rfl rfl]
            rfl
          · rw [portCnt, dataBegins_cnt]
            exact (portCnt_showPort _).trans (portCnt_dirCount_ne (setDir_ d _ n) (hid _))
          · exact ((eventsKept_setDir_ _ n).trans <| (eventsKept_dirCount ..).trans <| (eventsKept_showPort d _).trans (eventsKept_dataBegins ..)).out
          · simp only [dirOf_dataBegins, dirOf_showPort, dirOf_dirCount, dirOf_setDir_self]
            exact hself hx _ rfl rfl rfl
        · exact h.then rfl rfl ⟨[], rfl⟩ (by
            simp only [dirOf_setDir_self]
            exact hself hx _ rfl rfl rfl)

/-- The clock of a direction appears with its first frame start. -/
def clockSeen (f : FrameIn) (x : Dir) (m : Mach) : Mach :=
  if !x.clock && f.dir < 32 then showPort f.dir (rateRecord f.dir 1 f.mhz m) else m

/-- A frame start away from its place is counted, and any other ends the run of such ones. -/
def alignSeen (f : FrameIn) (x : Dir) (m : Mach) : Mach :=
  let y := (dirOf (clockSeen f x m) f.dir).getD x
  if f.away && f.dir < 32 && !x.master then dirCount f.dir 0x0808 1 (setDir_ f.dir { y with syncRun := y.syncRun + 1 } (clockSeen f x m))
  else setDir_ f.dir { y with syncRun := 0 } (clockSeen f x m)

theorem clockSeen_unslipped (hx : dirOf m f.dir = some x) (hz : x.zlo = none) : Unslipped m (clockSeen f x m) f.dir := by
  unfold clockSeen
  split
  · have hshow := showPort_outside (ps := [.block 0xC, .block 0xD]) rfl f.dir (rateRecord f.dir 1 f.mhz m)
    have hrec := rateRecord_outside (ps := [.out, .hif, .sap, .block 0x1]) rfl f.dir 1 f.mhz m
    refine ⟨(eventsKept_rateRecord ..).trans (eventsKept_showPort ..), ?_, ?_, ?_, ?_, _, (dirOf_showPort ..).trans (dirOf_rateRecord hx _ _), hz⟩
    · exact (samePiece_of_outside (p := .deal) hshow (by decide)).trans (samePiece_of_outside (p := .deal) hrec (by decide))
    · exact (samePiece_of_outside (p := .frm) hshow (by decide)).trans (samePiece_of_outside (p := .frm) hrec (by decide))
    · exact (portCnt_showPort _).trans (portCnt_rateRecord m)
    · refine autoRestart_of_sapRd (((kept_showPort (List.Subset.refl _) f.dir _).sapRd (by decide +kernel) rfl rfl).trans ?_)
      exact sapRd_of_outside hrec (by decide) rfl rfl
  · exact ⟨eventsKept_refl m, rfl, rfl, rfl, rfl, x, hx, hz⟩

theorem alignSeen_unslipped (hx : dirOf m f.dir = some x) (hz : x.zlo = none) : Unslipped m (alignSeen f x m) f.dir := by
  have hseen := clockSeen_unslipped hx hz
  obtain ⟨y, hy, hyz⟩ := hseen.dir
  refine hseen.trans ?_
  simp only [alignSeen, hy, Option.getD_some]
  split
  · refine (unslipped_setDir (x := { y with syncRun := y.syncRun + 1 }) hyz _).trans ⟨.of_eq rfl rfl rfl, rfl, rfl, ?_, rfl, _, dirOf_setDir_self .., hyz⟩
    exact portCnt_dirCount_ne _ (by decide)
  · exact unslipped_setDir (x := { y with syncRun := 0 }) hyz _

theorem frameStart_eq (hx : dirOf m f.dir = some x) : frameStart f m =
    let next := m.deal * spd m + f.k
    let armed := f.dir < 32 && x.zlo.isNone && x.stopAt.isNone
    Machine.frameB f.dir
      (if armed && f.fifo then
        slip f.dir 2 f.offset next f.ns (setDir_ f.dir (rotate f next ((dirOf (alignSeen f x m) f.dir).getD x)) (alignSeen f x m))
      else if armed && f.away && !x.master && 1 ≤ x.syncRun then slip f.dir 1 f.offset next f.ns (alignSeen f x m)
      else alignSeen f x m) := by
  simp only [frameStart, hx]
  rfl

theorem sapFrameStart_slips (ha : Awake s) (hd : f.dir < 32) (hx : dirOf s.m f.dir = some x) (ho : f.offset < 2 ^ F.SAP_x_STAT_OFFSET.width)
    (hslip : f.fifo = true ∨ (f.away = true ∧ x.master = false ∧ 1 ≤ x.syncRun)) (hz : x.zlo = none) (hs : x.stopAt = none) :
    Answers (.sapFrameStart f) s (fun n => Slipped s.m n f.dir f.offset (s.m.deal * spd s.m + f.k)) := by
  have hseen := alignSeen_unslipped hx hz
  obtain ⟨y, hy, hyz⟩ := hseen.dir
  have hrun : ∃ cause q, frameStart f s.m = frameB f.dir (slip f.dir cause f.offset (s.m.deal * spd s.m + f.k) f.ns q) ∧ cause ≠ 3 ∧ Unslipped s.m q f.dir := by
    rw [frameStart_eq hx]
    by_cases hfifo : f.fifo = true
    · refine ⟨2, setDir_ f.dir (rotate f (s.m.deal * spd s.m + f.k) y) (alignSeen f x s.m), ?_, by decide,
        hseen.trans (unslipped_setDir (x := rotate f (s.m.deal * spd s.m + f.k) y) hyz _)⟩
      simp [hd, hz, hs, hfifo, hy]
    · obtain ⟨haway, hmaster, hrun⟩ := hslip.resolve_left hfifo
      refine ⟨1, alignSeen f x s.m, ?_, by decide, hseen⟩
      simp [hd, hz, hs, hfifo, haway, hmaster, hrun]
  obtain ⟨cause, q, hrun, hc, hu⟩ := hrun
  refine answers_mach _ s (frameStart f) _ rfl ha ?_
  rw [hrun]
  exact (slip_slipped hu hc ho).frameB

end Slips

/-- Settles O33: each command by its own lemma above; the slip by what the frame start has looked at before, and by what its frame leaves. -/
theorem serialDirectionsRun : Obligations.SerialDirectionsRun := by
  intro d x s ha hd hx recorded restarts
  refine ⟨fun f hf haway hfifo hA hsusp hz hdata hclock => frameStart_counted ha hx hf haway hfifo hd hA hsusp hz hdata hclock,
    fun r hg hr hlt => sapRestart_answers_due ha hx hg hr hlt, fun hg hl => sapRestart_answers_locked ha hx hg hl,
    fun hc hm => sapClockLoss_answers ha hd hx hc hm, fun mhz hm => sapRateUpdate_answers ha hd hx hm, fun v => sapMaskWrite_answers ha hd v, ?_⟩
  rintro f rfl ho hslip hz hs
  obtain ⟨t, he, hp, h⟩ := sapFrameStart_slips ha hd hx ho hslip hz hs
  exact ⟨t, he, hp, h.offset, h.cnt, h.reported, h.restarts, h.runsOn⟩

end Sys2Proof.Machine
end

section
/-! Biphase receivers and transmitters (13 R371, R372, R374). -/
namespace Sys2Proof.Machine

/-! Lock, loss of lock and errors. -/

section Receivers
variable {s : State} {m n : Mach} {r d id i mhz : Nat} {x : Dir} {g : Fld} {fs : List Fld}

theorem Kept.rdi_field (h : Kept (placesOf fs) m n) (hg : apart g fs = true) (hi : i < g.n1) (h2 : 0 < g.n2) :
    Machine.rdi n g i = Machine.rdi m g i := h.rdij hg hi h2

@[simp] theorem dirOf_wri (f : Fld) (i v : Nat) (m : Mach) (d : Nat) : dirOf (wri f i v m) d = dirOf m d := rfl

@[simp] theorem portCnt_wri (f : Fld) (i v : Nat) (m : Mach) : portCnt (wri f i v m) d id = portCnt m d id := rfl

theorem showRate_biphase (hr : r < 8) (m : Mach) :
    showRate (32 + r) mhz m = wri F.AES_RX_RATE_MHZ r mhz (wri F.AES_RX_RATE_NOMINAL r (nominalOf mhz) m) := by
  have h32 : ¬ 32 + r < 32 := by omega
  have h40 : 32 + r < 40 := by omega
  simp only [showRate, h32, h40, if_false, if_true, Nat.add_sub_cancel_left]

/-- The record of a rate change of a biphase receiver has entered its capture FIFO, where that had room. -/
def LockRecorded (m : Mach) (r cause mhz : Nat) (x : Dir) (n : Mach) : Prop :=
  (fifo m 0x0900).entries.length < 64 → (fifo n 0x0900).entries = (fifo m 0x0900).entries ++
    [⟨m.deal, 0x0901, [(1, 32 + r), (1, cause), (1, nominalOf mhz), (1, 0), (4, x.rate), (4, mhz), (4, 0)]⟩]

theorem aesLock_answers (ha : Awake s) (hr : r < 8) (hx : dirOf s.m (32 + r) = some x) (hl : rdi s.m F.AES_RX_STAT_LOCK r = 0) :
    Answers (.aesLock r mhz) s (fun n => rdi n F.AES_RX_STAT_LOCK r = 1 ∧ rdi n F.AES_RX_RATE_NOMINAL r = nominalOf mhz ∧
      dirOf n (32 + r) = some { x with rate := mhz, clock := true } ∧ LockRecorded s.m r 1 mhz x n) := by
  have hrun : aesLock r mhz s.m = rateRecord (32 + r) 1 mhz (wri F.AES_RX_RATE_MHZ r mhz (wri F.AES_RX_RATE_NOMINAL r (nominalOf mhz)
      (wri F.AES_RX_STAT_LOCK r 1 s.m))) := by
    simp [aesLock, hr, hx, hl, showRate_biphase hr]
  have hkeep := fun q => rateRecord_outside (ps := [.out, .hif, .sap, .block 0x1]) rfl (32 + r) 1 mhz q
  refine answers_mach _ s (aesLock r mhz) _ rfl ha ?_
  rw [hrun]
  refine ⟨?_, ?_, dirOf_rateRecord (by simpa using hx) 1 mhz, fun hroom => rateRecord_enters (m := wri F.AES_RX_RATE_MHZ r mhz _) (by simpa using hx)
    (if_neg (by omega)).symm hroom⟩
  · rw [rdi_of_outside (hkeep _) (by decide) hr (by decide), (kept_wri_field (fs := [F.AES_RX_RATE_MHZ, F.AES_RX_RATE_NOMINAL]) (by decide) (by decide)
      r mhz _).rdi_field (by decide +kernel) hr (by decide), (kept_wri_field (fs := [F.AES_RX_RATE_MHZ, F.AES_RX_RATE_NOMINAL]) (by decide) (by decide)
      r _ _).rdi_field (by decide +kernel) hr (by decide), rdi_wri_self _ _ _ _ hr]
    rfl
  · rw [rdi_of_outside (hkeep _) (by decide) hr (by decide), (kept_wri_field (fs := [F.AES_RX_RATE_MHZ]) (by decide) (by decide) r mhz _).rdi_field
      (by decide +kernel) hr (by decide), rdi_wri_self _ _ _ _ hr]
    exact Nat.mod_eq_of_lt (nominalOf_lt mhz)

theorem portCnt_domainLost (d e rate : Nat) (m : Mach) : portCnt (domainLost e rate m) d id = portCnt m d id := by
  have hsap : (forEach (domainChs m e) (channelLost e rate) m).sap = m.sap := forEach_keep (·.sap) _ _ (fun ch n => channelLost_sap e rate ch n) m
  unfold domainLost setInRange
  split <;> exact congrArg (fun y => mget 0 y.cnt (d * 2 ^ 16 + id)) hsap

theorem aesUnlock_answers (ha : Awake s) (hr : r < 8) (hx : dirOf s.m (32 + r) = some x) (hl : rdi s.m F.AES_RX_STAT_LOCK r = 1) :
    Answers (.aesUnlock r) s (fun n => rdi n F.AES_RX_STAT_LOCK r = 0 ∧ rdi n F.AES_RX_FLAGS_UNLOCK r = 1 ∧
      dirOf n (32 + r) = some { x with rate := 0, clock := false, inRange := 0 } ∧
      portCnt n (32 + r) 0x0815 = portCnt s.m (32 + r) 0x0815 + 1 ∧ LockRecorded s.m r 2 0 x n) := by
  have hrun : aesUnlock r s.m = domainLost (32 + r) 0 (rateRecord (32 + r) 2 0 (dirCount (32 + r) 0x0815 1
      (wri F.AES_RX_FLAGS_UNLOCK r 1 (wri F.AES_RX_STAT_LOCK r 0 s.m)))) := by
    simp [aesUnlock, hr, hx, hl]
  have hkeep : ∀ q, outside [.out, .hif, .frm, .sap, .block 0x1, .block 0xB] (domainLost (32 + r) 0 (rateRecord (32 + r) 2 0 q)) = outside _ q :=
    fun q => (domainLost_outside rfl ..).trans (rateRecord_outside rfl ..)
  have hx' : dirOf (dirCount (32 + r) 0x0815 1 (wri F.AES_RX_FLAGS_UNLOCK r 1 (wri F.AES_RX_STAT_LOCK r 0 s.m))) (32 + r) = some x := by simpa using hx
  refine answers_mach _ s (aesUnlock r) _ rfl ha ?_
  rw [hrun]
  refine ⟨?_, ?_, dirOf_domainLost (dirOf_rateRecord hx' 2 0) 0, ?_, fun hroom => ?_⟩
  · rw [rdi_of_outside (hkeep _) (by decide) hr (by decide)]
    exact ((kept_wri_field (fs := [F.AES_RX_FLAGS_UNLOCK]) (by decide) (by decide) r 1 _).rdi_field (by decide +kernel) hr (by decide)).trans
      (rdi_wri_self _ _ _ _ hr)
  · rw [rdi_of_outside (hkeep _) (by decide) hr (by decide)]
    exact rdi_wri_self _ _ _ _ hr
  · rw [portCnt_domainLost, portCnt_rateRecord, portCnt_dirCount_self, portCnt_wri, portCnt_wri]
  · rw [fifo_congr (domainLost_fifos ..)]
    exact rateRecord_enters hx' (if_neg (by omega)).symm hroom

/-- The fields that the errors of a receiver set. -/
def errFlds : List Fld := [F.AES_RX_FLAGS_BIPHASE, F.AES_RX_FLAGS_PARITY, F.AES_RX_FLAGS_CS_CRC]

/-- The books of a receiver's errors. -/
def errsCounted (r : Nat) (run : AesRun) (b p c : Nat) (m : Mach) : Mach :=
  dirCount (32 + r) 0x0811 b (dirCount (32 + r) 0x0812 p (dirCount (32 + r) 0x0813 c (setSap { m.sap with runs := mset {} r run m.sap.runs } m)))

/-- The flags of a receiver's errors. -/
def errsFlagged (r b p c : Nat) (m : Mach) : Mach :=
  onlyIf (b != 0) (wri F.AES_RX_FLAGS_BIPHASE r 1) (onlyIf (p != 0) (wri F.AES_RX_FLAGS_PARITY r 1) (onlyIf (c != 0) (wri F.AES_RX_FLAGS_CS_CRC r 1) m))

theorem aesErrors_eq (r quiet b p c : Nat) (m : Mach) : ∃ run pay, aesErrors r quiet b p c m =
    onlyIf (mget {} m.sap.runs r = {} || 64 ≤ quiet) (raise 0x09 0x0903 pay) (errsFlagged r b p c (errsCounted r run b p c m)) := ⟨_, _, rfl⟩

theorem kept_errsFlagged (r b p c : Nat) (m : Mach) : Kept (placesOf errFlds) m (errsFlagged r b p c m) :=
  (kept_onlyIf _ (kept_wri_field (by decide) (by decide) r 1 m)).trans <| (kept_onlyIf _ (kept_wri_field (by decide) (by decide) r 1 _)).trans
    (kept_onlyIf _ (kept_wri_field (by decide) (by decide) r 1 _))

theorem errsFlagged_sap (r b p c : Nat) (m : Mach) : (errsFlagged r b p c m).sap = m.sap :=
  (onlyIf_keep (·.sap) _ _ _ rfl).trans ((onlyIf_keep (·.sap) _ _ _ rfl).trans (onlyIf_keep (·.sap) _ _ _ rfl))

theorem errsFlagged_biphase (hr : r < 8) {b : Nat} (hb : b ≠ 0) (p c : Nat) (m : Mach) : rdi (errsFlagged r b p c m) F.AES_RX_FLAGS_BIPHASE r = 1 := by
  rw [errsFlagged, onlyIf, if_pos (by simpa using hb), rdi_wri_self _ _ _ _ hr]
  rfl

theorem errsFlagged_parity (hr : r < 8) {p : Nat} (hp : p ≠ 0) (b c : Nat) (m : Mach) : rdi (errsFlagged r b p c m) F.AES_RX_FLAGS_PARITY r = 1 := by
  rw [errsFlagged, (kept_onlyIf (ks := placesOf [F.AES_RX_FLAGS_BIPHASE]) _ (kept_wri_field (by decide) (by decide) r 1 _)).rdi_field
    (by decide +kernel) hr (by decide), onlyIf, if_pos (by simpa using hp), rdi_wri_self _ _ _ _ hr]
  rfl

theorem errsFlagged_crc (hr : r < 8) {c : Nat} (hc : c ≠ 0) (b p : Nat) (m : Mach) : rdi (errsFlagged r b p c m) F.AES_RX_FLAGS_CS_CRC r = 1 := by
  have hkeep := fun q => (kept_onlyIf (ks := placesOf [F.AES_RX_FLAGS_BIPHASE, F.AES_RX_FLAGS_PARITY]) (p != 0)
    (kept_wri_field (f := F.AES_RX_FLAGS_PARITY) (by decide) (by decide) r 1 q)).trans
    (kept_onlyIf (b != 0) (kept_wri_field (f := F.AES_RX_FLAGS_BIPHASE) (by decide) (by decide) r 1 _))
  rw [errsFlagged, (hkeep _).rdi_field (by decide +kernel) hr (by decide), onlyIf, if_pos (by simpa using hc), rdi_wri_self _ _ _ _ hr]
  rfl

/-- The errors of a receiver have been counted and flagged since `m`. -/
structure ErrsSeen (r quiet b p c : Nat) (m n : Mach) : Prop where
  kept : Kept (placesOf errFlds) m n
  dirs : n.sap.dirs = m.sap.dirs
  biphase : portCnt n (32 + r) 0x0811 = portCnt m (32 + r) 0x0811 + b
  parity : portCnt n (32 + r) 0x0812 = portCnt m (32 + r) 0x0812 + p
  crc : portCnt n (32 + r) 0x0813 = portCnt m (32 + r) 0x0813 + c
  biphaseFlag : b ≠ 0 → rdi n F.AES_RX_FLAGS_BIPHASE r = 1
  parityFlag : p ≠ 0 → rdi n F.AES_RX_FLAGS_PARITY r = 1
  crcFlag : c ≠ 0 → rdi n F.AES_RX_FLAGS_CS_CRC r = 1
  reported : 64 ≤ quiet → Reported 0x09 0x0903 m n

theorem aesErrors_seen (hr : r < 8) (quiet b p c : Nat) (m : Mach) : ErrsSeen r quiet b p c m (aesErrors r quiet b p c m) := by
  obtain ⟨run, pay, heq⟩ := aesErrors_eq r quiet b p c m
  have hcounted : Kept (placesOf errFlds) m (errsFlagged r b p c (errsCounted r run b p c m)) :=
    (kept_setSap _ m).trans <| (kept_setSap _ _).trans <| (kept_setSap _ _).trans <| (kept_setSap _ _).trans (kept_errsFlagged ..)
  have hsap : (aesErrors r quiet b p c m).sap = (errsCounted r run b p c m).sap := by
    rw [heq, onlyIf_keep (·.sap) _ _ _ (raise_sap ..), errsFlagged_sap]
  have hflag : ∀ f ∈ errFlds, rdi (aesErrors r quiet b p c m) f r = rdi (errsFlagged r b p c (errsCounted r run b p c m)) f r := fun f hf => by
    rw [heq]
    exact (kept_onlyIf (ks := placesOf []) _ (kept_raise_field ..)).rdi_field (by revert f; decide +kernel) (by revert f; simpa [errFlds] using ⟨hr, hr, hr⟩)
      (by revert f; decide)
  refine ⟨?_, (congrArg SapSt.dirs hsap).trans rfl, ?_, ?_, ?_, fun h => ?_, fun h => ?_, fun h => ?_, fun h => ?_⟩
  · rw [heq]
    exact hcounted.trans (kept_onlyIf _ (kept_raise_field ..))
  · rw [portCnt_congr hsap, errsCounted, portCnt_dirCount_self, portCnt_dirCount_ne _ (by decide), portCnt_dirCount_ne _ (by decide)]
    rfl
  · rw [portCnt_congr hsap, errsCounted, portCnt_dirCount_ne _ (by decide), portCnt_dirCount_self, portCnt_dirCount_ne _ (by decide)]
    rfl
  · rw [portCnt_congr hsap, errsCounted, portCnt_dirCount_ne _ (by decide), portCnt_dirCount_ne _ (by decide), portCnt_dirCount_self]
    rfl
  · exact (hflag _ (by decide)).trans (errsFlagged_biphase hr h ..)
  · exact (hflag _ (by decide)).trans (errsFlagged_parity hr h ..)
  · exact (hflag _ (by decide)).trans (errsFlagged_crc hr h ..)
  · rw [heq, onlyIf, if_pos (by simp [h])]
    exact (hcounted.events_field (by decide +kernel)).reported

theorem aesSubframeError_answers (ha : Awake s) {e : AesErr} (hr : e.r < 8) (hx : dirOf s.m (32 + e.r) = some x) (he : e.biphase = true ∨ e.parity = true) :
    Answers (.aesSubframeError e) s (fun n =>
      (e.biphase = true → rdi n F.AES_RX_FLAGS_BIPHASE e.r = 1 ∧ portCnt n (32 + e.r) 0x0811 = portCnt s.m (32 + e.r) 0x0811 + 1) ∧
      (e.parity = true → rdi n F.AES_RX_FLAGS_PARITY e.r = 1 ∧ portCnt n (32 + e.r) 0x0812 = portCnt s.m (32 + e.r) 0x0812 + 1) ∧
      (64 ≤ e.quiet → Reported 0x09 0x0903 s.m n)) := by
  have hrun : aesSubframeError e s.m = aesErrors e.r e.quiet (b2n e.biphase) (b2n e.parity) 0 s.m := if_pos (by simpa [hr, hx] using he)
  have hseen := aesErrors_seen hr e.quiet (b2n e.biphase) (b2n e.parity) 0 s.m
  refine answers_mach _ s (aesSubframeError e) _ rfl ha ?_
  rw [hrun]
  refine ⟨fun hb => ?_, fun hp => ?_, hseen.reported⟩
  · rw [hseen.biphase]
    exact ⟨hseen.biphaseFlag (by simp [hb, b2n]), by simp [hb, b2n]⟩
  · rw [hseen.parity]
    exact ⟨hseen.parityFlag (by simp [hp, b2n]), by simp [hp, b2n]⟩

end Receivers

/-! The end of a block. -/

section Blocks
variable {s : State} {m n : Mach} {r v w : Nat} {x : Dir} {f : Fld} {fs : List Fld} {b : AesBlk}

/-- A number below a power of 2^32 is the sum of its words. -/
theorem sum_words (v k : Nat) : ((List.range k).map (fun w => v / 2 ^ (32 * w) % 2 ^ 32 * 2 ^ (32 * w))).sum = v % 2 ^ (32 * k) := by
  induction k with
  | zero => simp [Nat.mod_one]
  | succ k ih =>
    rw [List.range_succ, List.map_append, List.sum_append, ih, List.map_singleton, List.sum_singleton, Nat.mul_succ, Nat.pow_add, Nat.mod_mul,
      Nat.mul_comm (2 ^ (32 * k))]

/-- The fields of the blocks that a receiver latches. -/
def blockFlds : List Fld := [F.AES_RX_CS_A_BYTES, F.AES_RX_CS_B_BYTES, F.AES_RX_U_A_BYTES, F.AES_RX_U_B_BYTES]

theorem blockFlds_shape : ∀ f ∈ blockFlds, f.n1 = 8 ∧ f.n2 = 6 ∧ f.s2 = 4 ∧ f.width = 32 := by decide

theorem kept_blockWords (hf : f ∈ fs) (r v : Nat) (m : Mach) : Kept (placesOf fs) m (blockWords f r v m) :=
  kept_forEach (fun w _ n => kept_wrij_field hf r w _ n) m

theorem blockWords_sap (r v : Nat) (m : Mach) : (blockWords f r v m).sap = m.sap := forEach_keep (·.sap) _ _ (fun _ n => wrij_sap _ _ _ _ n) m

theorem rdij_blockWords (hf : f ∈ blockFlds) (hr : r < 8) (hw : w < 6) (v : Nat) (m : Mach) : rdij (blockWords f r v m) f r w = v / 2 ^ (32 * w) % 2 ^ 32 := by
  obtain ⟨h1, h2, hs, hwd⟩ := blockFlds_shape f hf
  obtain ⟨n, -, hn⟩ := forEach_once (fun n => rdij n f r w) (f := fun w n => wrij f r w (v / 2 ^ (32 * w)) n) List.nodup_range (List.mem_range.mpr hw)
    (fun u _ hu q => rdij_wrij_ne _ q fun _ _ he => hu (by simp only [fkey, hs] at he; omega)) m
  rw [blockWords, hn, rdij_wrij_self n (by omega) (by omega), hwd]

theorem blockRead_blockWords (hf : f ∈ blockFlds) (hr : r < 8) (v : Nat) (m : Mach) : blockRead f r (blockWords f r v m) = v % 2 ^ 192 := by
  rw [blockRead, ← sum_words v 6]
  refine congrArg List.sum (List.map_congr_left fun w hw => ?_)
  rw [rdij_blockWords hf hr (List.mem_range.mp hw)]

theorem Kept.blockRead (h : Kept (placesOf fs) m n) (hf : f ∈ blockFlds) (ha : apart f fs = true) (hr : r < 8) :
    Machine.blockRead f r n = Machine.blockRead f r m := by
  obtain ⟨h1, h2, -, -⟩ := blockFlds_shape f hf
  refine congrArg List.sum (List.map_congr_left fun w hw => ?_)
  rw [h.rdij ha (by omega) (h2 ▸ List.mem_range.mp hw)]

/-- The machine with a block's words, its sequence number and PRO shown. -/
def blockShown (b : AesBlk) (seq : Nat) (m : Mach) : Mach :=
  blockWords F.AES_RX_CS_A_BYTES b.r b.csA (blockWords F.AES_RX_CS_B_BYTES b.r b.csB (blockWords F.AES_RX_U_A_BYTES b.r b.uA
    (blockWords F.AES_RX_U_B_BYTES b.r b.uB (wri F.AES_RX_STAT_CS_SEQ b.r seq (wri F.AES_RX_STAT_PRO b.r (b.csA % 2) m)))))

theorem latchBlock_eq (b : AesBlk) (m : Mach) : ∃ c pay, latchBlock b m =
    onlyIf c (raise 0x09 0x0902 pay) (blockShown b ((rdi m F.AES_RX_STAT_CS_SEQ b.r + 1) % 256) m) := ⟨_, _, rfl⟩

/-- A block has been latched since `m`. -/
structure BlockLatched (b : AesBlk) (m n : Mach) : Prop where
  kept : Kept (placesOf (F.AES_RX_STAT_CS_SEQ :: F.AES_RX_STAT_PRO :: blockFlds)) m n
  sap : n.sap = m.sap
  seq : rdi n F.AES_RX_STAT_CS_SEQ b.r = (rdi m F.AES_RX_STAT_CS_SEQ b.r + 1) % 256
  csA : blockRead F.AES_RX_CS_A_BYTES b.r n = b.csA % 2 ^ 192
  csB : blockRead F.AES_RX_CS_B_BYTES b.r n = b.csB % 2 ^ 192
  uA : blockRead F.AES_RX_U_A_BYTES b.r n = b.uA % 2 ^ 192
  uB : blockRead F.AES_RX_U_B_BYTES b.r n = b.uB % 2 ^ 192

theorem blockShown_latched (hr : b.r < 8) (m : Mach) : BlockLatched b m (blockShown b ((rdi m F.AES_RX_STAT_CS_SEQ b.r + 1) % 256) m) := by
  have hA : ∀ v q, Kept (placesOf [F.AES_RX_CS_A_BYTES]) q (blockWords F.AES_RX_CS_A_BYTES b.r v q) := fun v q => kept_blockWords (by decide) ..
  have hAB : ∀ v w q, Kept (placesOf [F.AES_RX_CS_A_BYTES, F.AES_RX_CS_B_BYTES]) q
      (blockWords F.AES_RX_CS_A_BYTES b.r v (blockWords F.AES_RX_CS_B_BYTES b.r w q)) := fun v w q =>
    (kept_blockWords (by decide) ..).trans (kept_blockWords (by decide) ..)
  have hABU : ∀ v w u q, Kept (placesOf [F.AES_RX_CS_A_BYTES, F.AES_RX_CS_B_BYTES, F.AES_RX_U_A_BYTES]) q
      (blockWords F.AES_RX_CS_A_BYTES b.r v (blockWords F.AES_RX_CS_B_BYTES b.r w (blockWords F.AES_RX_U_A_BYTES b.r u q))) := fun v w u q =>
    (kept_blockWords (by decide) ..).trans ((kept_blockWords (by decide) ..).trans (kept_blockWords (by decide) ..))
  have hall : ∀ {gs}, blockFlds ⊆ gs → ∀ q, Kept (placesOf gs) q (blockWords F.AES_RX_CS_A_BYTES b.r b.csA (blockWords F.AES_RX_CS_B_BYTES b.r b.csB
      (blockWords F.AES_RX_U_A_BYTES b.r b.uA (blockWords F.AES_RX_U_B_BYTES b.r b.uB q)))) := fun hg q =>
    (kept_blockWords (hg (by decide)) ..).trans <| (kept_blockWords (hg (by decide)) ..).trans <|
      (kept_blockWords (hg (by decide)) ..).trans (kept_blockWords (hg (by decide)) ..)
  refine ⟨?_, ?_, ?_, blockRead_blockWords (by decide) hr .., ?_, ?_, ?_⟩
  · exact (kept_wri_field (by decide) (by decide) _ _ m).trans <| (kept_wri_field (by decide) (by decide) _ _ _).trans (hall (by decide) _)
  · simp only [blockShown, blockWords_sap]
    rfl
  · rw [blockShown, (hall (List.Subset.refl _) _).rdi_field (by decide +kernel) hr (by decide), rdi_wri_self _ _ _ _ hr]
    exact Nat.mod_eq_of_lt (Nat.mod_lt _ (by decide))
  · rw [blockShown, (hA _ _).blockRead (by decide) (by decide +kernel) hr, blockRead_blockWords (by decide) hr]
  · rw [blockShown, (hAB _ _ _).blockRead (by decide) (by decide +kernel) hr, blockRead_blockWords (by decide) hr]
  · rw [blockShown, (hABU _ _ _ _).blockRead (by decide) (by decide +kernel) hr, blockRead_blockWords (by decide) hr]

theorem latchBlock_latched (hr : b.r < 8) (m : Mach) : BlockLatched b m (latchBlock b m) := by
  obtain ⟨c, pay, heq⟩ := latchBlock_eq b m
  have hs := blockShown_latched hr m
  have hev : Kept (placesOf []) (blockShown b ((rdi m F.AES_RX_STAT_CS_SEQ b.r + 1) % 256) m) (latchBlock b m) := by
    rw [heq]
    exact kept_onlyIf _ (kept_raise_field ..)
  refine ⟨hs.kept.trans (hev.mono (placesOf_mono (List.nil_subset _))), ?_, ?_, ?_, ?_, ?_, ?_⟩
  · rw [heq, onlyIf_keep (·.sap) _ _ _ (raise_sap ..), hs.sap]
  · rw [hev.rdi_field (by decide +kernel) hr (by decide), hs.seq]
  · rw [hev.blockRead (by decide) (by decide +kernel) hr, hs.csA]
  · rw [hev.blockRead (by decide) (by decide +kernel) hr, hs.csB]
  · rw [hev.blockRead (by decide) (by decide +kernel) hr, hs.uA]
  · rw [hev.blockRead (by decide) (by decide +kernel) hr, hs.uB]

/-- The machine with the V bits of a block shown, and counted where they mute. -/
def vSeen (b : AesBlk) (m : Mach) : Mach :=
  wri F.AES_RX_STAT_V_A b.r (b2n b.vA) (wri F.AES_RX_STAT_V_B b.r (b2n b.vB)
    (onlyIf (rdi m F.AES_RX_CFG_VMUTE b.r == 1) (dirCount (32 + b.r) 0x0814 b.vCount) m))

theorem kept_vSeen (b : AesBlk) (m : Mach) : Kept (placesOf [F.AES_RX_STAT_V_A, F.AES_RX_STAT_V_B]) m (vSeen b m) :=
  (kept_onlyIf _ (kept_setSap ..)).trans <| (kept_wri_field (by decide) (by decide) _ _ _).trans (kept_wri_field (by decide) (by decide) _ _ _)

theorem vSeen_vA (hr : b.r < 8) (m : Mach) : rdi (vSeen b m) F.AES_RX_STAT_V_A b.r = b2n b.vA := by
  rw [vSeen, rdi_wri_self _ _ _ _ hr]
  cases b.vA <;> rfl

theorem vSeen_vB (hr : b.r < 8) (m : Mach) : rdi (vSeen b m) F.AES_RX_STAT_V_B b.r = b2n b.vB := by
  rw [vSeen, (kept_wri_field (fs := [F.AES_RX_STAT_V_A]) (by decide) (by decide) _ _ _).rdi_field (by decide +kernel) hr (by decide),
    rdi_wri_self _ _ _ _ hr]
  cases b.vB <;> rfl

theorem vSeen_dirs (b : AesBlk) (m : Mach) : (vSeen b m).sap.dirs = m.sap.dirs := onlyIf_keep (·.sap.dirs) _ _ _ rfl

theorem vSeen_crcCnt (b : AesBlk) (m : Mach) : portCnt (vSeen b m) (32 + b.r) 0x0813 = portCnt m (32 + b.r) 0x0813 :=
  onlyIf_keep (portCnt · (32 + b.r) 0x0813) _ _ _ (portCnt_dirCount_ne m (by decide))

theorem aesBlockEnd_answers (ha : Awake s) (hr : b.r < 8) (hx : dirOf s.m (32 + b.r) = some x) (hl : rdi s.m F.AES_RX_STAT_LOCK b.r = 1) :
    let bad := (b.csA % 2 = 1 ∨ b.csB % 2 = 1) ∧ b.crcOk = false
    Answers (.aesBlockEnd b) s (fun n => rdi n F.AES_RX_STAT_V_A b.r = b2n b.vA ∧ rdi n F.AES_RX_STAT_V_B b.r = b2n b.vB ∧ n.sap.dirs = s.m.sap.dirs ∧
      (bad → rdi n F.AES_RX_STAT_CS_SEQ b.r = rdi s.m F.AES_RX_STAT_CS_SEQ b.r ∧ portCnt n (32 + b.r) 0x0813 = portCnt s.m (32 + b.r) 0x0813 + 1 ∧
        rdi n F.AES_RX_FLAGS_CS_CRC b.r = 1 ∧ blockRead F.AES_RX_CS_A_BYTES b.r n = blockRead F.AES_RX_CS_A_BYTES b.r s.m ∧
        blockRead F.AES_RX_CS_B_BYTES b.r n = blockRead F.AES_RX_CS_B_BYTES b.r s.m) ∧
      (¬ bad → rdi n F.AES_RX_STAT_CS_SEQ b.r = (rdi s.m F.AES_RX_STAT_CS_SEQ b.r + 1) % 256 ∧
        blockRead F.AES_RX_CS_A_BYTES b.r n = b.csA % 2 ^ 192 ∧ blockRead F.AES_RX_CS_B_BYTES b.r n = b.csB % 2 ^ 192 ∧
        blockRead F.AES_RX_U_A_BYTES b.r n = b.uA % 2 ^ 192 ∧ blockRead F.AES_RX_U_B_BYTES b.r n = b.uB % 2 ^ 192)) := by
  intro bad
  have hrun : aesBlockEnd b s.m = if (b.csA % 2 == 1 || b.csB % 2 == 1) && !b.crcOk then aesErrors b.r b.quiet 0 0 1 (vSeen b s.m)
      else latchBlock b (vSeen b s.m) := by
    simp only [aesBlockEnd, hr, hx, hl, decide_true, Option.isSome_some, Bool.and_self, beq_self_eq_true, if_true]
    rfl
  have hbad : ((b.csA % 2 == 1 || b.csB % 2 == 1) && !b.crcOk) = true ↔ bad := by simp [bad]
  have hv := kept_vSeen b s.m
  have hseq := hv.rdi_field (g := F.AES_RX_STAT_CS_SEQ) (by decide +kernel) hr (by decide)
  refine answers_mach _ s (aesBlockEnd b) _ rfl ha ?_
  rw [hrun]
  split
  · next h =>
    have he := aesErrors_seen hr b.quiet 0 0 1 (vSeen b s.m)
    refine ⟨?_, ?_, he.dirs.trans (vSeen_dirs ..), fun _ => ⟨?_, ?_, he.crcFlag (by decide), ?_, ?_⟩, fun hn => absurd (hbad.mp h) hn⟩
    · rw [he.kept.rdi_field (by decide +kernel) hr (by decide), vSeen_vA hr]
    · rw [he.kept.rdi_field (by decide +kernel) hr (by decide), vSeen_vB hr]
    · rw [he.kept.rdi_field (by decide +kernel) hr (by decide), hseq]
    · rw [he.crc, vSeen_crcCnt]
    · rw [he.kept.blockRead (by decide) (by decide +kernel) hr, hv.blockRead (by decide) (by decide +kernel) hr]
    · rw [he.kept.blockRead (by decide) (by decide +kernel) hr, hv.blockRead (by decide) (by decide +kernel) hr]
  · next h =>
    have hb := latchBlock_latched hr (vSeen b s.m)
    refine ⟨?_, ?_, (congrArg SapSt.dirs hb.sap).trans (vSeen_dirs ..), fun hn => absurd (hbad.mpr hn) h, fun _ => ⟨?_, hb.csA, hb.csB, hb.uA, hb.uB⟩⟩
    · rw [hb.kept.rdi_field (by decide +kernel) hr (by decide), vSeen_vA hr]
    · rw [hb.kept.rdi_field (by decide +kernel) hr (by decide), vSeen_vB hr]
    · rw [hb.seq, hseq]

end Blocks

/-! Transmitters: load requests and the copy of the shadow words. -/

section Transmitters
variable {s : State} {m : Mach} {t k kind w : Nat} {a b : Fld}

/-- The load bit of one kind of words. -/
def loadFld (kind : Nat) : Fld := if kind = 0 then F.AES_TX_CFG_CS_LOAD else F.AES_TX_CFG_U_LOAD

theorem loadRequest_new (ht : t < 8) (h : mfind m.sap.loads (2 * t + kind) = none) :
    loadRequest kind t m = setSap { m.sap with loads := mput (2 * t + kind) m.deal m.sap.loads } (wri (loadFld kind) t 1 m) := by
  simp [loadRequest, ht, h, loadFld]

theorem loadRequest_pending (h : mfind m.sap.loads (2 * t + kind) ≠ none) : loadRequest kind t m = m := by
  simp only [loadRequest]
  rw [if_neg (by simpa using fun _ => h)]

/-- The active words with a copy of the shadow words of two fields. -/
def shadowLoaded (t k : Nat) (a b : Fld) (m : Mach) (u : SMap Nat) : SMap Nat :=
  (List.range k).foldl (fun u w => mset 0 (fkey a t w / 32) (rdij m a t w) (mset 0 (fkey b t w / 32) (rdij m b t w) u)) u

/-- The places of the shadow words of two fields are six and six. -/
structure ShadowPlaces (t : Nat) (a b : Fld) : Prop where
  left : ∀ v w, fkey a t v / 32 = fkey a t w / 32 → v = w
  right : ∀ v w, fkey b t v / 32 = fkey b t w / 32 → v = w
  apart : ∀ v, v < 6 → ∀ w, w < 6 → fkey a t v / 32 ≠ fkey b t w / 32

theorem shadowLoaded_succ (t k : Nat) (a b : Fld) (m : Mach) (u : SMap Nat) : shadowLoaded t (k + 1) a b m u =
    mset 0 (fkey a t k / 32) (rdij m a t k) (mset 0 (fkey b t k / 32) (rdij m b t k) (shadowLoaded t k a b m u)) := by
  rw [shadowLoaded, List.range_succ, List.foldl_append]
  rfl

theorem mget_shadowLoaded (h : ShadowPlaces t a b) (m : Mach) (u : SMap Nat) : ∀ k, k ≤ 6 → ∀ w, w < k →
    mget 0 (shadowLoaded t k a b m u) (fkey a t w / 32) = rdij m a t w ∧ mget 0 (shadowLoaded t k a b m u) (fkey b t w / 32) = rdij m b t w
  | 0, _, w, hw => absurd hw (Nat.not_lt_zero w)
  | k + 1, hk, w, hw => by
    rw [shadowLoaded_succ, mget_mset_ne _ (fkey a t k / 32) (fkey b t w / 32) _ _ (h.apart k (by omega) w (by omega)).symm]
    by_cases he : w = k
    · subst he
      exact ⟨mget_mset_self .., mget_mset_self ..⟩
    · rw [mget_mset_ne _ _ _ _ _ fun e => he (h.left _ _ e), mget_mset_ne _ _ _ _ _ (h.apart w (by omega) k (by omega)),
        mget_mset_ne _ _ _ _ _ fun e => he (h.right _ _ e)]
      exact mget_shadowLoaded h m u k (by omega) w (by omega)

theorem mget_shadowLoaded_ne {p : Nat} (ha : ∀ w, w < 6 → p ≠ fkey a t w / 32) (hb : ∀ w, w < 6 → p ≠ fkey b t w / 32) (m : Mach) (u : SMap Nat) :
    ∀ k, k ≤ 6 → mget 0 (shadowLoaded t k a b m u) p = mget 0 u p
  | 0, _ => rfl
  | k + 1, hk => by
    rw [shadowLoaded_succ, mget_mset_ne _ _ _ _ _ (ha k (by omega)), mget_mset_ne _ _ _ _ _ (hb k (by omega))]
    exact mget_shadowLoaded_ne ha hb m u k (by omega)

/-- The machine with the shadow words of one kind active. -/
def shadowCopied (kind t : Nat) (a b : Fld) (m : Mach) : Mach :=
  wri (loadFld kind) t 0 (setSap { m.sap with loads := mdel (2 * t + kind) m.sap.loads, active := shadowLoaded t 6 a b m m.sap.active } m)

theorem copyShadow_due (hk : mfind m.sap.loads (2 * t + kind) = some k) (hlt : k < m.deal) : copyShadow kind t a b m = shadowCopied kind t a b m := by
  simp only [copyShadow, hk, hlt, if_true]
  rfl

/-- A copy is made or nothing changes. -/
theorem copyShadow_cases (kind t : Nat) (a b : Fld) (m : Mach) : copyShadow kind t a b m = shadowCopied kind t a b m ∨ copyShadow kind t a b m = m := by
  unfold copyShadow
  split
  · split
    · exact .inl rfl
    · exact .inr rfl
  · exact .inr rfl

/-- What the copy of the other kind of words leaves of a transmitter. -/
structure OtherKept (kind t : Nat) (m n : Mach) : Prop where
  deal : n.deal = m.deal
  out : n.out = m.out
  loads : mfind n.sap.loads (2 * t + kind) = mfind m.sap.loads (2 * t + kind)
  kept : Kept (placesOf [loadFld (1 - kind)]) m n

theorem copyShadow_other {other : Nat} (ho : other = 1 - kind) (hk : kind ≤ 1) : OtherKept kind t m (copyShadow other t a b m) := by
  subst ho
  obtain h | h := copyShadow_cases (1 - kind) t a b m <;> rw [h]
  · exact ⟨rfl, rfl, mfind_mdel_ne _ _ _ (by omega), (kept_setSap _ m).trans (kept_wri_field (List.mem_singleton_self _)
      (by unfold loadFld; split <;> decide) _ _ _)⟩
  · exact ⟨rfl, rfl, rfl, .refl m⟩

theorem copyShadow_active_ne {other p : Nat} (ha : ∀ w, w < 6 → p ≠ fkey a t w / 32) (hb : ∀ w, w < 6 → p ≠ fkey b t w / 32) (m : Mach) :
    mget 0 (copyShadow other t a b m).sap.active p = mget 0 m.sap.active p := by
  obtain h | h := copyShadow_cases other t a b m <;> rw [h]
  exact mget_shadowLoaded_ne ha hb m m.sap.active 6 (Nat.le_refl 6)

theorem csPlaces (t : Nat) : ShadowPlaces t F.AES_TX_CS_A_BYTES F.AES_TX_CS_B_BYTES := by
  constructor <;> intros <;> simp only [fkey, F.AES_TX_CS_A_BYTES, F.AES_TX_CS_B_BYTES] at * <;> omega

theorem uPlaces (t : Nat) : ShadowPlaces t F.AES_TX_U_A_BYTES F.AES_TX_U_B_BYTES := by
  constructor <;> intros <;> simp only [fkey, F.AES_TX_U_A_BYTES, F.AES_TX_U_B_BYTES] at * <;> omega

/-- A load that is due has been carried out since `m`. -/
def Loaded (kind t : Nat) (a b : Fld) (m n : Mach) : Prop :=
  rdi n (loadFld kind) t = 0 ∧ mfind n.sap.loads (2 * t + kind) = none ∧ n.out = m.out ∧
    ∀ w, w < 6 → mget 0 n.sap.active (fkey a t w / 32) = rdij m a t w ∧ mget 0 n.sap.active (fkey b t w / 32) = rdij m b t w

theorem shadowCopied_loaded (ht : t < 8) (hp : ShadowPlaces t a b) (m : Mach) : Loaded kind t a b m (shadowCopied kind t a b m) := by
  have hn1 : (loadFld kind).n1 = 8 := by unfold loadFld; split <;> rfl
  exact ⟨(rdi_wri_self _ _ _ _ (by omega)).trans (Nat.zero_mod _), mfind_mdel_self .., rfl, fun w hw => mget_shadowLoaded hp m m.sap.active 6 (Nat.le_refl 6) w hw⟩

theorem csCopy_answers (ha : Awake s) (ht : t < 8) (hk : mfind s.m.sap.loads (2 * t) = some k) (hlt : k < s.m.deal) :
    Answers (.aesTxShadowCopy t) s (Loaded 0 t F.AES_TX_CS_A_BYTES F.AES_TX_CS_B_BYTES s.m) := by
  have hother := copyShadow_other (kind := 0) (t := t) (m := s.m) (a := F.AES_TX_U_A_BYTES) (b := F.AES_TX_U_B_BYTES) (other := 1) rfl (by decide)
  obtain ⟨hdeal, hout, hloads, hkept⟩ := hother
  obtain ⟨hbit, hgone, hout', hact⟩ := shadowCopied_loaded (kind := 0) ht (csPlaces t) (copyShadow 1 t F.AES_TX_U_A_BYTES F.AES_TX_U_B_BYTES s.m)
  refine answers_mach _ s (shadowCopy t) _ rfl ha ?_
  rw [shadowCopy, copyShadow_due (hloads.trans hk) (hdeal ▸ hlt)]
  refine ⟨hbit, hgone, hout'.trans hout, fun w hw => ?_⟩
  rw [(hact w hw).1, (hact w hw).2]
  exact ⟨hkept.rdij (by decide +kernel) ht hw, hkept.rdij (by decide +kernel) ht hw⟩

theorem uCopy_answers (ha : Awake s) (ht : t < 8) (hk : mfind s.m.sap.loads (2 * t + 1) = some k) (hlt : k < s.m.deal) :
    Answers (.aesTxShadowCopy t) s (Loaded 1 t F.AES_TX_U_A_BYTES F.AES_TX_U_B_BYTES s.m) := by
  obtain ⟨hbit, hgone, hout', hact⟩ := shadowCopied_loaded (kind := 1) ht (uPlaces t) s.m
  have hother := copyShadow_other (kind := 1) (t := t) (m := shadowCopied 1 t F.AES_TX_U_A_BYTES F.AES_TX_U_B_BYTES s.m) (a := F.AES_TX_CS_A_BYTES)
    (b := F.AES_TX_CS_B_BYTES) (other := 0) rfl (by decide)
  obtain ⟨-, hout, hloads, hkept⟩ := hother
  have hne := fun p => copyShadow_active_ne (t := t) (a := F.AES_TX_CS_A_BYTES) (b := F.AES_TX_CS_B_BYTES) (other := 0) (p := p)
  refine answers_mach _ s (shadowCopy t) _ rfl ha ?_
  rw [shadowCopy, copyShadow_due hk hlt]
  refine ⟨(hkept.rdi_field (by decide +kernel) ht (by decide)).trans hbit, hloads.trans hgone, hout.trans hout', fun w hw => ?_⟩
  rw [← (hact w hw).1, ← (hact w hw).2]
  constructor <;> refine hne _ (fun v hv => ?_) (fun v hv => ?_) _ <;>
    simp only [fkey, F.AES_TX_U_A_BYTES, F.AES_TX_U_B_BYTES, F.AES_TX_CS_A_BYTES, F.AES_TX_CS_B_BYTES] <;> omega

theorem csLoad_answers (ha : Awake s) (ht : t < 8) (h : mfind s.m.sap.loads (2 * t) = none) : Answers (.csLoad t) s (fun n =>
    rdi n F.AES_TX_CFG_CS_LOAD t = 1 ∧ mfind n.sap.loads (2 * t) = some s.m.deal ∧ n.sap.active = s.m.sap.active) := by
  refine answers_mach _ s (loadRequest 0 t) _ rfl ha ?_
  rw [loadRequest_new ht h]
  exact ⟨rdi_wri_self _ _ _ _ ht, mfind_mput_self .., rfl⟩

theorem uLoad_answers (ha : Awake s) (ht : t < 8) (h : mfind s.m.sap.loads (2 * t + 1) = none) : Answers (.uLoad t) s (fun n =>
    rdi n F.AES_TX_CFG_U_LOAD t = 1 ∧ mfind n.sap.loads (2 * t + 1) = some s.m.deal ∧ n.sap.active = s.m.sap.active) := by
  refine answers_mach _ s (loadRequest 1 t) _ rfl ha ?_
  rw [loadRequest_new ht h]
  exact ⟨rdi_wri_self _ _ _ _ ht, mfind_mput_self .., rfl⟩

end Transmitters

/-- Settles O34: each command by its lemma above. -/
theorem biphasePortsRun : Obligations.BiphasePortsRun := by
  refine ⟨fun r x s ha hr hx => ⟨fun mhz hl => aesLock_answers ha hr hx hl, aesUnlock_answers ha hr hx, ?_, ?_⟩, fun t s ha ht =>
    ⟨csLoad_answers ha ht, uLoad_answers ha ht, fun h => ?_, fun h => ?_, fun k hk hlt => csCopy_answers ha ht hk hlt,
      fun k hk hlt => uCopy_answers ha ht hk hlt⟩⟩
  · rintro e rfl he
    exact aesSubframeError_answers ha hr hx he
  · rintro b rfl hl
    exact aesBlockEnd_answers ha hr hx hl
  · exact answers_mach _ s (loadRequest 0 t) _ rfl ha (loadRequest_pending h)
  · exact answers_mach _ s (loadRequest 1 t) _ rfl ha (loadRequest_pending h)

end Sys2Proof.Machine
end

section
/-! Announcements (14): what the end of a play, of a request and the watch of the store leave, and the store and the tables (R381-R383, R392). -/
namespace Sys2Proof.Machine

/-! The operations of the service: each changes the service's state and reports. -/

section Service
variable {m n : Mach} {k z reason : Nat} {p : Play} {r : Req}

theorem eventsKept_setAnn (a : Ann) (m : Mach) : EventsKept m (setAnn a m) := .of_eq rfl rfl rfl
theorem completable_setAnn (a : Ann) (m : Mach) : Completable m (setAnn a m) := ⟨eventsKept_setAnn a m, rfl⟩

theorem watchStore_ann (m : Mach) : (watchStore m).ann = m.ann :=
  samePiece_of_outside (p := .ann) (watchStore_outside (ps := [.out, .hif, .block 0x1]) rfl m) (by decide)

theorem completable_watchStore (m : Mach) : Completable m (watchStore m) := ⟨(deckKept_watch ..).toEventsKept, by simp [watchStore]⟩

/-- An operation of the service: the state that it leaves, and an event. -/
structure Served (a : Ann) (m n : Mach) : Prop where
  ann : n.ann = a
  completable : Completable m n

theorem Served.trans {a b : Ann} {q : Mach} (h1 : Served a m n) (h2 : Served b n q) : Served b m q :=
  ⟨h2.ann, h1.completable.trans h2.completable⟩

/-- The state of the service without a request. -/
def withoutReq (a : Ann) (r : Req) : Ann := { a with waiting := a.waiting.erase r, new := a.new.erase r }

theorem completable_flagIf4 (reason : Nat) (m : Mach) : Completable m (onlyIf (reason == 4) (wr F.ANN_FLAGS_DROPPED 1) m) :=
  completable_onlyIf _ (completable_wr _ _ (by decide))

theorem dropReq_served (r : Req) (reason : Nat) (m : Mach) : Served (withoutReq m.ann r) m (dropReq r reason m) := by
  refine ⟨?_, ((completable_setAnn _ m).trans (completable_flagIf4 ..)).trans (completable_raise ..)⟩
  exact onlyIf_keep (·.ann) _ _ _ rfl

/-- A dropped request is reported, and flagged where no time or place was left for it. -/
theorem dropReq_reported (r : Req) (reason : Nat) (m : Mach) : Reported 0x11 0x1102 m (dropReq r reason m) :=
  (eventsKept_setAnn _ m |>.trans (completable_flagIf4 ..).events).reported

theorem dropReq_flagged (r : Req) (m : Mach) : rd (dropReq r 4 m) F.ANN_FLAGS_DROPPED = 1 := by
  refine (rd_raise _ _ _ _ _ (by decide)).trans ?_
  exact rd_wr_self ..

theorem dropReqs_served (reason : Nat) (l : List Req) (m : Mach) :
    Served { m.ann with waiting := m.ann.waiting.diff l, new := m.ann.new.diff l } m (forEach l (fun r m => dropReq r reason m) m) := by
  induction l generalizing m with
  | nil => exact ⟨rfl, .refl m⟩
  | cons r l ih =>
    have hfirst := dropReq_served r reason m
    have hrest := ih (dropReq r reason m)
    rw [hfirst.ann] at hrest
    simp only [List.diff_cons]
    exact hfirst.trans hrest

/-- What is taken out of a list, as often as it occurs, is not left. -/
theorem not_mem_diff {l l' : List Req} {r : Req} (h : l.count r ≤ l'.count r) : r ∉ l.diff l' := by
  rw [← List.count_eq_zero, List.count_diff]
  omega

/-- The zones of a play become free. -/
theorem zonesFreed (zs : List Nat) (m : Mach) : ∃ h f, forEach zs (fun z m => changeZone z none m) m = setAnn { m.ann with holder := h, fades := f } m ∧
    (∀ z ∈ zs, mfind h z = none) ∧ ∀ z, mfind m.ann.holder z = none → mfind h z = none := by
  induction zs generalizing m with
  | nil => exact ⟨m.ann.holder, m.ann.fades, rfl, fun _ hz => absurd hz List.not_mem_nil, fun _ => id⟩
  | cons y zs ih =>
    obtain ⟨h, f, heq, hin, hkeep⟩ := ih (changeZone y none m)
    have hdel : ∀ z, mfind m.ann.holder z = none → mfind (mdel y m.ann.holder) z = none := fun z hz => by
      by_cases he : z = y
      · rw [he, mfind_mdel_self]
      · rw [mfind_mdel_ne _ _ _ he, hz]
    refine ⟨h, f, heq, fun z hz => ?_, fun z hz => hkeep z (hdel z hz)⟩
    by_cases hmem : z ∈ zs
    · exact hin z hmem
    · obtain rfl := (List.mem_cons.mp hz).resolve_right hmem
      exact hkeep z (mfind_mdel_self ..)

/-- The state of the service after the end of a play. -/
def playGone (k : Nat) (p : Play) (h : SMap Nat) (f : SMap ZoneFade) (a : Ann) : Ann :=
  { a with holder := h, fades := f, players := mdel p.player a.players, plays := mput k { p with zones := [] } a.plays }

/-- A play ends, not cut off by another: it leaves its player and its zones, and is reported. -/
theorem endPlay_ends (hp : playOf m k = some p) (hr : reason ≠ 3) :
    ∃ h f, Served (playGone k p h f m.ann) m (endPlay k reason m) ∧ (∀ z ∈ p.zones, mfind h z = none) ∧
      (∀ z, mfind m.ann.holder z = none → mfind h z = none) ∧ Reported 0x11 0x1102 m (endPlay k reason m) := by
  obtain ⟨h, f, heq, hin, hkeep⟩ := zonesFreed p.zones m
  have hrun : endPlay k reason m = annEnd p.rq.id p.rq.msg reason p.zones.length (setAnn (playGone k p h f m.ann) m) := by
    simp only [endPlay, hp, heq, onlyIf]
    rw [if_neg (by simp [hr])]
    rfl
  rw [hrun]
  exact ⟨h, f, ⟨rfl, (completable_setAnn _ m).trans (completable_raise ..)⟩, hin, hkeep, (eventsKept_setAnn _ m).reported⟩

end Service

/-! The store and the tables. -/

section Store
variable {s : State} {c : Cmd} {k : Nat}

theorem reserve_usedUnits (c : Cmd) (m : Mach) : usedUnits (reserve c m) = usedUnits m := by simp only [usedUnits, storedClips, reserve_ann]

theorem reserve_rd (c : Cmd) (m : Mach) (f : Fld) : rd (reserve c m) f = rd m f := rd_congr _ _ _ (reserve_regs c m)

/-- The clip that a CLIP_WRITE brings. -/
def newClip (c : Cmd) (m : Mach) : Clip := { ser := m.ann.ser, rate := u8 c 27, wide := u8 c 28 == 1, data := (bufBytes c).take (bufLen c) }

/-- The machine with a clip taken into the store. -/
def clipTaken (c : Cmd) (tk : Ticket) (m : Mach) : Mach :=
  let m1 := interim tk stPending (writeBound (bufLen c) m.deal) m
  watchStore (setAnn { m1.ann with ser := m1.ann.ser + 1, writes := m1.ann.writes ++ [⟨{ cmd := c, tk := { tk with interim := true } }, newClip c m, m.deal⟩] } m1)

theorem clipTaken_ann (tk : Ticket) (m : Mach) : (clipTaken c tk m).ann =
    { m.ann with ser := m.ann.ser + 1, writes := m.ann.writes ++ [⟨{ cmd := c, tk := { tk with interim := true } }, newClip c m, m.deal⟩] } := by
  simp only [clipTaken, watchStore_ann, setAnn_ann, interim_ann]

theorem clipWrite_takes (tk : Ticket) (m : Mach) (h24 : u16 c 24 ≤ 4095) (h27 : u8 c 27 ≤ 5) (h28 : u8 c 28 ≤ 1) (h26 : u8 c 26 = 0) (h2 : 2 ≤ bufLen c)
    (hmax : bufLen c ≤ 16777216) (hmod : bufLen c % (if u8 c 28 = 1 then 3 else 2) = 0) (hbuf : bufOk c false m = true)
    (hfit : usedUnits m + (bufLen c + 65535) / 65536 ≤ rd m F.ANN_STORE_CFG_SIZE) : clipWrite c tk m = (clipTaken c tk m, { st := none }) := by
  have hbytes : clipBytes (newClip c m) = if u8 c 28 = 1 then 3 else 2 := by simp [clipBytes, newClip]
  have hargs : ¬ (decide (4095 < u16 c 24) || decide (1 < u8 c 26) || decide (5 < u8 c 27) || decide (1 < u8 c 28)) = true := by
    simp only [Bool.or_eq_true, decide_eq_true_eq]
    omega
  have hlen : ¬ (decide (bufLen c < 2) || decide (16777216 < bufLen c) || bufLen c % clipBytes (newClip c m) != 0 || !bufOk c false m) = true := by
    rw [hbytes, hmod, hbuf]
    simp only [Bool.or_eq_true, decide_eq_true_eq, bne_self_eq_false, Bool.not_true, Bool.false_eq_true, or_false]
    omega
  simp only [clipWrite]
  rw [if_neg hargs, if_neg (by omega)]
  exact (if_neg hlen).trans (if_neg (Nat.not_lt.mpr hfit))

theorem clipWrite_answers (ha : Awake s) (hp : Plain 0x0701 c s.m) (h24 : u16 c 24 ≤ 4095) (h27 : u8 c 27 ≤ 5) (h28 : u8 c 28 ≤ 1) (h26 : u8 c 26 = 0)
    (h2 : 2 ≤ bufLen c) (hmax : bufLen c ≤ 16777216) (hmod : bufLen c % (if u8 c 28 = 1 then 3 else 2) = 0) (hbuf : bufOk c false s.m = true)
    (hfit : usedUnits s.m + (bufLen c + 65535) / 65536 ≤ rd s.m F.ANN_STORE_CFG_SIZE) :
    Answers (.clipWrite c) s (fun n => (∃ w, n.ann.writes = s.m.ann.writes ++ [w] ∧ w.h.cmd = c ∧ w.clip.rate = u8 c 27 ∧
      w.clip.wide = (u8 c 28 == 1) ∧ w.clip.data = (bufBytes c).take (bufLen c) ∧ w.start = s.m.deal) ∧ n.ann.clips = s.m.ann.clips ∧
      (running s.m = true → ∀ q, c.src = .ring q → ∃ ring idx,
        NewOut s.m n (.completion ring idx c.tag 0x0701 stPending (writeBound (bufLen c) s.m.deal)))) := by
  have htake := clipWrite_takes (nowTicket 0x0701 c s.m) (reserve c s.m) h24 h27 h28 h26 h2 hmax hmod ((bufOk_reserve ..).trans hbuf)
    (by rw [reserve_usedUnits, reserve_rd]; exact hfit)
  refine answers_mach _ s _ _ rfl ha ?_
  rw [plain_silent 0x0701 clipWrite c s.m _ hp (absurd · (by decide)) htake]
  rw [clipTaken_ann, reserve_ann]
  refine ⟨⟨⟨{ cmd := c, tk := { nowTicket 0x0701 c s.m with interim := true } }, newClip c (reserve c s.m), (reserve c s.m).deal⟩, rfl, rfl, rfl, rfl, rfl,
    reserve_deal c s.m⟩, rfl, fun hrun q hq => ?_⟩
  · have hinterim : ∀ d m, interim (nowTicket 0x0701 c s.m) stPending d m = completeWith (nowTicket 0x0701 c s.m) stPending d 1 false [] m :=
      fun d m => by simp [interim, nowTicket, hq]
    obtain ⟨ring, idx, hnew⟩ := (completable_reserve c s.m).newOut_completeWith (tk := nowTicket 0x0701 c s.m) (st := stPending)
      (d := writeBound (bufLen c) s.m.deal) (rsv := 1) (now := false) (res := []) hq (live_nowTicket hrun)
    refine ⟨ring, idx, newOut_mono _ _ _ _ hnew ?_⟩
    rw [clipTaken, hinterim, reserve_deal]
    exact ((completable_setAnn ..).trans (completable_watchStore _)).events.out

theorem clipDelete_answers (ha : Awake s) (hp : Plain 0x0701 c s.m) (h24 : u16 c 24 ≤ 4095) (h27 : u8 c 27 ≤ 5) (h28 : u8 c 28 ≤ 1) (h26 : u8 c 26 = 1)
    (hlen : bufLen c = 0) (hsome : (mfind s.m.ann.clips (u16 c 24)).isSome = true) :
    Answers (.clipWrite c) s (fun n => n.ann.clips = mdel (u16 c 24) s.m.ann.clips ∧ n.ann.writes = s.m.ann.writes ∧ Completed 0x0701 stDone c s.m n) := by
  have hargs : ¬ (decide (4095 < u16 c 24) || decide (1 < u8 c 26) || decide (5 < u8 c 27) || decide (1 < u8 c 28)) = true := by
    simp only [Bool.or_eq_true, decide_eq_true_eq]
    omega
  have hn : clipWrite c (nowTicket 0x0701 c s.m) (reserve c s.m) =
      okM (watchStore (setAnn { (reserve c s.m).ann with clips := mdel (u16 c 24) (reserve c s.m).ann.clips } (reserve c s.m))) := by
    simp only [clipWrite]
    rw [if_neg hargs, if_pos h26, if_neg (by simp [hlen, Option.isSome_iff_ne_none.mp hsome])]
  refine plain_answers_final rfl ha hp (by decide) hn ((completable_setAnn ..).trans (completable_watchStore _)) fun f hf hdone => ?_
  have hann : f.ann = { s.m.ann with clips := mdel (u16 c 24) s.m.ann.clips } := by
    rw [hf, final_ann, watchStore_ann, ← reserve_ann c s.m]
    rfl
  rw [hann]
  exact ⟨rfl, rfl, hdone⟩

theorem clipWriteDone_answers (ha : Awake s) {w : ClipWrite} (hw : s.m.ann.writes.find? (fun w => u16 w.h.cmd 24 == k) = some w) :
    Answers (.clipWriteDone k) s (fun n => mfind n.ann.clips k = some w.clip ∧ n.ann.writes = s.m.ann.writes.erase w ∧
      (∀ q, w.h.tk.src = .ring q → live w.h.tk s.m = true → ∃ ring idx, NewOut s.m n
        (.completion ring idx w.h.tk.tag w.h.tk.op (if w.h.tk.eff < w.start then stLate else stDone) s.m.deal))) := by
  have hrun : clipWriteDone k s.m = final w.h.tk (if w.h.tk.eff < w.start then stLate else stDone)
      (watchStore (setAnn { s.m.ann with clips := mput k w.clip s.m.ann.clips, writes := s.m.ann.writes.erase w } s.m)) := by
    simp only [clipWriteDone, hw]
  refine answers_mach _ s (clipWriteDone k) _ rfl ha ?_
  rw [hrun, final_ann, watchStore_ann]
  exact ⟨mfind_mput_self .., rfl, fun q hq hl => ((completable_setAnn ..).trans (completable_watchStore _)).newOut_final hq hl⟩

theorem msgDefine_answers (ha : Awake s) (hp : Plain 0x0702 c s.m) (h1 : 1 ≤ u16 c 24) (hmax : u16 c 24 ≤ 1024) (hlen : bufLen c = 96 * u16 c 24)
    (hbuf : bufOk c false s.m = true) (hok : (records 96 (u16 c 24) (bufBytes c)).all (msgOk s.m) = true) :
    Answers (.msgDefine c) s (fun n => n.ann = { s.m.ann with msgs := (records 96 (u16 c 24) (bufBytes c)).foldl (fun t l =>
        if (msgEntry l).2.kind = 0 then mdel (msgEntry l).1 t else mput (msgEntry l).1 (msgEntry l).2 t) s.m.ann.msgs } ∧
      n.regs = s.m.regs ∧ Completed 0x0702 stDone c s.m n) := by
  have hok' : (records 96 (u16 c 24) (bufBytes c)).all (msgOk (reserve c s.m)) = true := by
    have hmsg : msgOk (reserve c s.m) = msgOk s.m := funext fun l => by simp only [msgOk, reserve_ann]
    rw [hmsg, hok]
  have h0 : ¬ (decide (u16 c 24 = 0) || decide (1024 < u16 c 24) || bufLen c != 96 * u16 c 24 || !bufOk c false (reserve c s.m) ||
      !(records 96 (u16 c 24) (bufBytes c)).all (msgOk (reserve c s.m))) = true := by
    rw [bufOk_reserve, hbuf, hok', hlen]
    simp only [Bool.or_eq_true, decide_eq_true_eq, bne_self_eq_false, Bool.not_true, Bool.false_eq_true, or_false]
    omega
  refine plain_answers_final rfl ha hp (by decide) (n := setAnn _ (reserve c s.m)) (if_neg h0) (completable_setAnn ..) fun f hf hdone => ?_
  have hann : f.ann = _ := (congrArg Mach.ann hf).trans ((final_ann ..).trans (setAnn_ann ..))
  have hregs : f.regs = s.m.regs := by rw [hf, final_regs, setAnn_regs, reserve_regs]
  rw [hann, reserve_ann]
  exact ⟨rfl, hregs, hdone⟩

theorem schedWrite_answers (ha : Awake s) (hp : Plain 0x0703 c s.m) (h1 : 1 ≤ u16 c 24) (hmax : u16 c 24 ≤ 4096) (hlen : bufLen c = 32 * u16 c 24)
    (hbuf : bufOk c false s.m = true) (hok : (records 32 (u16 c 24) (bufBytes c)).all (schedOk s.m) = true) :
    Answers (.schedWrite c) s (fun n => n.ann.sched = (records 32 (u16 c 24) (bufBytes c)).foldl (fun t l =>
        mput (schedEntry l).1 (schedEntry l).2 t) s.m.ann.sched ∧ n.ann.msgs = s.m.ann.msgs ∧ n.ann.new = s.m.ann.new ∧
      n.ann.plays = s.m.ann.plays ∧ n.regs = s.m.regs ∧ Completed 0x0703 stDone c s.m n) := by
  have hok' : (records 32 (u16 c 24) (bufBytes c)).all (schedOk (reserve c s.m)) = true := by
    have hsched : schedOk (reserve c s.m) = schedOk s.m := funext fun l => by simp only [schedOk, reserve_ann]
    rw [hsched, hok]
  have h0 : ¬ (decide (u16 c 24 = 0) || decide (4096 < u16 c 24) || bufLen c != 32 * u16 c 24 || !bufOk c false (reserve c s.m) ||
      !(records 32 (u16 c 24) (bufBytes c)).all (schedOk (reserve c s.m))) = true := by
    rw [bufOk_reserve, hbuf, hok', hlen]
    simp only [Bool.or_eq_true, decide_eq_true_eq, bne_self_eq_false, Bool.not_true, Bool.false_eq_true, or_false]
    omega
  refine plain_answers_final rfl ha hp (by decide) (n := setAnn _ (reserve c s.m)) (if_neg h0) (completable_setAnn ..) fun f hf hdone => ?_
  have hann : f.ann = _ := (congrArg Mach.ann hf).trans ((final_ann ..).trans (setAnn_ann ..))
  have hregs : f.regs = s.m.regs := by rw [hf, final_regs, setAnn_regs, reserve_regs]
  rw [hann, reserve_ann]
  exact ⟨rfl, rfl, rfl, rfl, hregs, hdone⟩

theorem clipError_answers (ha : Awake s) {p unit i : Nat} {x : Play} {cl : Clip} (hp : mfind s.m.ann.players p = some k) (hx : playOf s.m k = some x)
    (hseg : x.segs[x.seg]? = some (.clip i cl)) (hm : x.mute = false) :
    Answers (.clipError p unit) s (fun n => playOf n k = some { x with mute := true } ∧ rd n F.ANN_FLAGS_CLIP_ERR = 1 ∧ Reported 0x11 0x1107 s.m n) := by
  have hrun : clipError p unit s.m = raise 0x11 0x1107 [(2, i), (2, 0), (4, unit), (4, x.rq.id), (4, 0)]
      (wr F.ANN_FLAGS_CLIP_ERR 1 (setPlay k { x with mute := true } s.m)) := by
    simp [clipError, hp, hx, hseg, hm, onlyIf]
  refine answers_mach _ s (clipError p unit) _ rfl ha ?_
  rw [hrun]
  exact ⟨mfind_mput_self .., flagged_reported (by decide) (by decide) (by decide) (eventsKept_setAnn _ s.m)⟩

end Store

/-- Settles O39: each command by its lemma above. -/
theorem clipsAndTables : Obligations.ClipsAndTables := fun _ ha =>
  ⟨fun _ hp h24 h27 h28 => ⟨clipWrite_answers ha hp h24 h27 h28, clipDelete_answers ha hp h24 h27 h28⟩, fun _ _ hw => clipWriteDone_answers ha hw,
    fun _ hp h1 hmax hlen hbuf hok => msgDefine_answers ha hp h1 hmax hlen hbuf hok,
    fun _ hp h1 hmax hlen hbuf hok => schedWrite_answers ha hp h1 hmax hlen hbuf hok,
    fun _ _ _ _ _ _ hp hx hseg hm => clipError_answers ha hp hx hseg hm⟩

end Sys2Proof.Machine
end

section
/-! Requests to play (14 R388, R391, R393): by command, by the schedule and by a pin, and how they are dropped. -/
namespace Sys2Proof.Machine

section Requests
variable {s : State} {m n : Mach} {c : Cmd} {d : Msg} {e k src : Nat} {x : Sched} {y : Play} {r : Req}

theorem annPlay_answers (ha : Awake s) (hp : Plain 0x0704 c s.m) (hd : mfind s.m.ann.msgs (u16 c 24) = some d) (h26 : u8 c 26 ≤ 15 ∨ u8 c 26 = 0xFF)
    (h27 : u8 c 27 ≤ 1) : Answers (.annPlay c) s (fun n =>
      let cls := if u8 c 26 = 0xFF then d.cls else u8 c 26
      let zs := if u8 c 27 = 1 then zonesOf (c.pay.drop 8) else d.zones
      n.ann.new = s.m.ann.new ++ [⟨u32 c 28, u16 c 24, cls, zs, s.m.deal, 0, 0⟩] ∧
      n.ann.waiting = s.m.ann.waiting ∧ n.ann.plays = s.m.ann.plays ∧ n.regs = s.m.regs ∧ Completed 0x0704 stDone c s.m n) := by
  have hargs : ¬ ((decide (15 < u8 c 26) && u8 c 26 != 0xFF) || decide (1 < u8 c 27)) = true := by
    simp only [Bool.or_eq_true, Bool.and_eq_true, decide_eq_true_eq, bne_iff_ne]
    omega
  have hn : annPlay c (nowTicket 0x0704 c s.m) (reserve c s.m) = okM (setAnn { (reserve c s.m).ann with new := (reserve c s.m).ann.new ++
      [⟨u32 c 28, u16 c 24, if u8 c 26 = 0xFF then d.cls else u8 c 26, if u8 c 27 = 1 then zonesOf (c.pay.drop 8) else d.zones, s.m.deal, 0, 0⟩] }
      (reserve c s.m)) := by
    simp only [annPlay, reserve_ann, hd, reserve_deal]
    rw [if_neg hargs]
  refine plain_answers_final rfl ha hp (by decide) hn (completable_setAnn ..) fun f hf hdone => ?_
  have hann : f.ann = _ := (congrArg Mach.ann hf).trans ((final_ann ..).trans (setAnn_ann ..))
  have hregs : f.regs = s.m.regs := by rw [hf, final_regs, setAnn_regs, reserve_regs]
  rw [hann, reserve_ann]
  exact ⟨rfl, rfl, rfl, hregs, hdone⟩

/-- The request of an entry. -/
def entryReq (e : Nat) (x : Sched) (src : Nat) (d : Msg) (deal : Nat) : Req :=
  ⟨0x80000000 + e, x.msg, if x.cls = 0xFF then d.cls else x.cls, d.zones, deal, src, if src = 2 then x.pin * 4096 + e else e⟩

theorem fire_asks (hd : mfind m.ann.msgs x.msg = some d)
    (hfree : (m.ann.waiting ++ m.ann.new).any (fun w => w.src == src && w.entry == (entryReq e x src d m.deal).entry) = false) :
    fire e x src m = setAnn { m.ann with new := m.ann.new ++ [entryReq e x src d m.deal] } m := by
  simp only [fire, hd]
  exact if_neg (Bool.not_eq_true _ ▸ hfree)

theorem fire_drops (hd : mfind m.ann.msgs x.msg = some d)
    (hwait : (m.ann.waiting ++ m.ann.new).any (fun w => w.src == src && w.entry == (entryReq e x src d m.deal).entry) = true) :
    fire e x src m = annEnd (0x80000000 + e) x.msg 4 0 (wr F.ANN_FLAGS_DROPPED 1 m) := by
  simp only [fire, hd]
  exact if_pos hwait

/-- The machine that has noted an entry's firing. -/
def entryMarked (e : Nat) (m : Mach) : Mach := setAnn { m.ann with lastFire := mput e (m.deal + 1) m.ann.lastFire } m

/-- The machine in which a pin's entry has left the armed ones for the fired ones. -/
def pinMarked (e : Nat) (m : Mach) : Mach := setAnn { m.ann with trig := [], fired := insertNat e m.ann.fired } m

theorem scheduleFire_answers (ha : Awake s) (hx : mfind s.m.ann.sched e = some x) (hon : x.flags.testBit 0 = true) (hd : mfind s.m.ann.msgs x.msg = some d)
    (hdue : entryDue s.m x (s.m.deal + 1) = true) (hlast : mfind s.m.ann.lastFire e ≠ some (s.m.deal + 1)) :
    Answers (.scheduleFire e) s (fun n => mfind n.ann.lastFire e = some (s.m.deal + 1) ∧ n.ann.waiting = s.m.ann.waiting ∧
      ((s.m.ann.waiting ++ s.m.ann.new).any (fun w => w.src == 1 && w.entry == e) = false →
        n.ann.new = s.m.ann.new ++ [⟨0x80000000 + e, x.msg, if x.cls = 0xFF then d.cls else x.cls, d.zones, s.m.deal, 1, e⟩]) ∧
      ((s.m.ann.waiting ++ s.m.ann.new).any (fun w => w.src == 1 && w.entry == e) = true →
        n.ann.new = s.m.ann.new ∧ rd n F.ANN_FLAGS_DROPPED = 1 ∧ Reported 0x11 0x1102 s.m n)) := by
  have hrun : scheduleFire e s.m = fire e x 1 (entryMarked e s.m) := by
    simp [scheduleFire, hx, hon, hdue, hlast, onlyIf, entryMarked]
  refine answers_mach _ s (scheduleFire e) _ rfl ha ?_
  rw [hrun]
  by_cases hw : (s.m.ann.waiting ++ s.m.ann.new).any (fun w => w.src == 1 && w.entry == e) = true
  · rw [fire_drops (m := entryMarked e s.m) hd hw]
    exact ⟨mfind_mput_self .., rfl, fun h => absurd (hw.symm.trans h) (by decide), fun _ =>
      ⟨rfl, flagged_reported (by decide) (by decide) (by decide) (eventsKept_setAnn _ s.m)⟩⟩
  · rw [fire_asks (m := entryMarked e s.m) hd (Bool.not_eq_true _ ▸ hw)]
    exact ⟨mfind_mput_self .., rfl, fun _ => rfl, fun h => absurd h hw⟩

theorem gpioTrigger_answers (ha : Awake s) (hx : mfind s.m.ann.sched e = some x) (hon : x.flags.testBit 0 = true) (ht : x.trig = 4)
    (hf : s.m.ann.fired.contains e = false) : Answers (.gpioTrigger e) s (fun n =>
      e ∈ n.ann.trig ∧ n.ann.new = s.m.ann.new ∧ n.ann.fired = s.m.ann.fired ∧ n.regs = s.m.regs) := by
  have hrun : gpioTrigger e s.m = setAnn { s.m.ann with trig := insertNat e s.m.ann.trig } s.m := by
    simp only [gpioTrigger, hx, ht, hon, hf, onlyIf]
    rfl
  refine answers_mach _ s (gpioTrigger e) _ rfl ha ?_
  rw [hrun]
  exact ⟨mem_insertNat_self .., rfl, rfl, rfl⟩

theorem firePins_asks (hx : mfind m.ann.sched e = some x) (hon : x.flags.testBit 0 = true) (ht : x.trig = 4) (hf : m.ann.fired.contains e = false)
    (hd : mfind m.ann.msgs x.msg = some d) (htrig : m.ann.trig = [e]) (hpin : pinHeld m x true = true)
    (hw : (m.ann.waiting ++ m.ann.new).any (fun w => w.src == 2 && w.entry == x.pin * 4096 + e) = false) :
    (firePins m).ann.new = m.ann.new ++ [⟨0x80000000 + e, x.msg, if x.cls = 0xFF then d.cls else x.cls, d.zones, m.deal, 2, x.pin * 4096 + e⟩] ∧
      e ∈ (firePins m).ann.fired ∧ (firePins m).ann.trig = [] := by
  have hpin' : pinHeld (setAnn { m.ann with trig := [] } m) x true = true := hpin
  have hrun : firePins m = fire e x 2 (pinMarked e m) := by
    simp only [firePins, htrig, forEach_cons, forEach_nil, firePin, setAnn_ann, hx, ht, hon, hf, hpin', onlyIf]
    rfl
  rw [hrun, fire_asks (m := pinMarked e m) hd hw]
  exact ⟨rfl, mem_insertNat_self .., rfl⟩

/-! The return of a pin. -/

/-- What a play stopped by its pin leaves of the other plays' books. -/
theorem releasePlay_kept (k : Nat) (m : Mach) : (releasePlay k m).ann.waiting = m.ann.waiting ∧ (releasePlay k m).ann.fired = m.ann.fired := by
  unfold releasePlay
  split
  · exact ⟨rfl, rfl⟩
  · next p hp =>
    split
    · exact ⟨rfl, rfl⟩
    · split
      · exact ⟨onlyIf_keep (·.ann.waiting) _ _ _ rfl, onlyIf_keep (·.ann.fired) _ _ _ rfl⟩
      · obtain ⟨h, f, hserved, -⟩ := endPlay_ends (reason := 2) hp (by decide)
        rw [hserved.ann]
        exact ⟨rfl, rfl⟩

/-- The requests of an entry dropped: each as often as it waits. -/
theorem entryReqs_dropped (m : Mach) (id : Nat) : ∃ w v, Served { m.ann with waiting := w, new := v } m
      (forEach (m.ann.waiting.filter (fun r => r.id == id)) (fun r m => dropReq r 2 m) m) ∧ ∀ r ∈ w, r.id ≠ id := by
  refine ⟨_, _, dropReqs_served 2 _ m, fun r hr hid => not_mem_diff (Nat.le_of_eq ?_) hr⟩
  exact (List.count_filter (by simpa using hid)).symm

/-- The machine after the return of a pin, its entry ready again. -/
def pinReady (e : Nat) (m : Mach) : Mach := setAnn { m.ann with fired := m.ann.fired.filter (fun k => k != e) } m

/-- The plays of an id that players hold. -/
def playsOf (m : Mach) (id : Nat) : List Nat := (playing m).filter (fun k => (playOf m k).any (fun p => p.rq.id == id))

theorem gpioRelease_eq (hx : mfind m.ann.sched e = some x) (ht : x.trig = 4) (hf : m.ann.fired.contains e = true) (hpin : pinHeld m x false = true) :
    gpioRelease e m = if x.flags.testBit 1 then
        forEach (playsOf (forEach (m.ann.waiting.filter (fun r => r.id == 0x80000000 + e)) (fun r m => dropReq r 2 m) (pinReady e m)) (0x80000000 + e))
          releasePlay (forEach (m.ann.waiting.filter (fun r => r.id == 0x80000000 + e)) (fun r m => dropReq r 2 m) (pinReady e m))
      else pinReady e m := by
  simp only [gpioRelease, hx, ht, hf, hpin]
  rfl

theorem releasePlay_pages (hy : playOf m k = some y) (hl : playLatched m y = false) (hk : y.defn.kind = 2) (hc : y.segs[2]? ≠ some (.quiet 0)) :
    ∃ z, playOf (releasePlay k m) k = some z ∧ z.stopping = true := by
  have hrun : releasePlay k m = onlyIf (!y.stopping) (setPlay k
      { y with stopping := true, seg := max 2 y.seg, pos := (if y.seg < 2 then 0 else y.pos), mute := (y.mute && decide (2 ≤ y.seg)) }) m := by
    simp [releasePlay, hy, hl, hk, hc]
  rw [hrun]
  by_cases hs : y.stopping = true
  · rw [hs]
    exact ⟨y, hy, hs⟩
  · rw [Bool.not_eq_true] at hs
    rw [hs]
    exact ⟨_, mfind_mput_self .., rfl⟩

theorem releasePlay_ends (hy : playOf m k = some y) (hl : playLatched m y = false) (hc : y.defn.kind ≠ 2 ∨ y.segs[2]? = some (.quiet 0)) :
    mfind (releasePlay k m).ann.players y.player = none ∧ Reported 0x11 0x1102 m (releasePlay k m) := by
  have hrun : releasePlay k m = endPlay k 2 m := by
    have hno : (decide (y.defn.kind = 2) && y.segs[2]? != some (.quiet 0)) = false := by
      obtain h | h := hc <;> simp [h]
    simp [releasePlay, hy, hl, hno]
  obtain ⟨h, f, hserved, -, -, hrep⟩ := endPlay_ends (reason := 2) hy (by decide)
  rw [hrun, hserved.ann]
  exact ⟨mfind_mdel_self .., hrep⟩

theorem gpioRelease_answers (ha : Awake s) (hx : mfind s.m.ann.sched e = some x) (ht : x.trig = 4) (hf : s.m.ann.fired.contains e = true)
    (hpin : pinHeld s.m x false = true) : Answers (.gpioRelease e) s (fun n => n.ann.fired = s.m.ann.fired.filter (fun k => k != e) ∧
      (x.flags.testBit 1 = false → n.ann.waiting = s.m.ann.waiting ∧ n.ann.plays = s.m.ann.plays ∧ n.ann.players = s.m.ann.players) ∧
      (x.flags.testBit 1 = true → (∀ r ∈ n.ann.waiting, r.id ≠ 0x80000000 + e) ∧
        (∀ k y, (playing s.m).filter (fun j => (playOf s.m j).any (fun z => z.rq.id == 0x80000000 + e)) = [k] → playOf s.m k = some y →
          playLatched s.m y = false →
          (y.defn.kind = 2 → y.segs[2]? ≠ some (.quiet 0) → ∃ z, playOf n k = some z ∧ z.stopping = true) ∧
          (y.defn.kind ≠ 2 ∨ y.segs[2]? = some (.quiet 0) → mfind n.ann.players y.player = none ∧ Reported 0x11 0x1102 s.m n)))) := by
  refine answers_mach _ s (gpioRelease e) _ rfl ha ?_
  rw [gpioRelease_eq hx ht hf hpin]
  by_cases hbit : x.flags.testBit 1 = true
  · rw [if_pos hbit]
    obtain ⟨w, v, hserved, hgone⟩ := entryReqs_dropped (pinReady e s.m) (0x80000000 + e)
    change Served _ _ (forEach (s.m.ann.waiting.filter (fun r => r.id == 0x80000000 + e)) (fun r m => dropReq r 2 m) (pinReady e s.m)) at hserved
    generalize forEach (s.m.ann.waiting.filter (fun r => r.id == 0x80000000 + e)) (fun r m => dropReq r 2 m) (pinReady e s.m) = q at hserved ⊢
    obtain ⟨hann, hcomp⟩ := hserved
    have hplays : ∀ j, playOf q j = playOf s.m j := fun j => by rw [playOf, hann]; rfl
    have hkept : ∀ (g : Ann → List Req), (∀ k n, g (releasePlay k n).ann = g n.ann) → g (forEach (playsOf q (0x80000000 + e)) releasePlay q).ann = g q.ann :=
      fun g hg => forEach_keep (fun n => g n.ann) _ _ hg q
    have hfired : (forEach (playsOf q (0x80000000 + e)) releasePlay q).ann.fired = q.ann.fired :=
      forEach_keep (·.ann.fired) _ _ (fun k n => (releasePlay_kept k n).2) q
    refine ⟨hfired.trans (by rw [hann]; rfl), fun h => absurd (hbit.symm.trans h) (by decide), fun _ => ⟨fun r hr => ?_, fun k y hone hy hl => ?_⟩⟩
    · rw [hkept (·.waiting) (fun k n => (releasePlay_kept k n).1), hann] at hr
      exact hgone r hr
    · have hlist : playsOf q (0x80000000 + e) = [k] := by
        rw [← hone, playsOf, playing, hann]
        exact List.filter_congr fun j _ => by rw [hplays]
      have hl' : playLatched q y = false := by
        rw [← hl, playLatched, playLatched, hann]
        rfl
      rw [hlist, forEach_cons, forEach_nil]
      refine ⟨fun hk hc => releasePlay_pages ((hplays k).trans hy) hl' hk hc, fun hc => ?_⟩
      obtain ⟨hgone, hrep⟩ := releasePlay_ends ((hplays k).trans hy) hl' hc
      exact ⟨hgone, reported_since ((eventsKept_setAnn _ s.m).trans hcomp.events) hrep⟩
  · rw [if_neg hbit]
    exact ⟨rfl, fun _ => ⟨rfl, rfl, rfl⟩, fun h => absurd h hbit⟩

theorem annWaitLimit_answers (ha : Awake s) (hr : s.m.ann.waiting[k]? = some r)
    (hlim : r.since + ((mfind s.m.ann.msgs r.msg).map (fun d => d.wait)).getD 0 ≤ s.m.deal) :
    Answers (.annWaitLimit k) s (fun n => n.ann.waiting = s.m.ann.waiting.erase r ∧ rd n F.ANN_FLAGS_DROPPED = 1 ∧ Reported 0x11 0x1102 s.m n) := by
  have hrun : waitLimit k s.m = dropReq r 4 s.m := by simp [waitLimit, hr, hlim, onlyIf]
  refine answers_mach _ s (waitLimit k) _ rfl ha ?_
  rw [hrun]
  exact ⟨congrArg Ann.waiting (dropReq_served r 4 s.m).ann, dropReq_flagged r s.m, dropReq_reported r 4 s.m⟩

end Requests

/-- Settles O40: each way in which a request arises or is dropped by its lemma above. -/
theorem requestsArise : Obligations.RequestsArise := fun _ ha =>
  ⟨fun _ _ hp hd h26 h27 => annPlay_answers ha hp hd h26 h27,
    fun _ _ _ hx hon hd => ⟨fun hdue hlast => scheduleFire_answers ha hx hon hd hdue hlast, fun ht hf =>
      ⟨gpioTrigger_answers ha hx hon ht hf, fun htrig hpin hw => firePins_asks hx hon ht hf hd htrig hpin hw⟩⟩,
    fun _ _ hx ht hf hpin => gpioRelease_answers ha hx ht hf hpin, fun _ _ hr hlim => annWaitLimit_answers ha hr hlim⟩

end Sys2Proof.Machine
end

section
/-! The ends of plays (14 R383, R390, R391) and the latches that TRUMP_CLEAR removes (R396). -/
namespace Sys2Proof.Machine

section Ends
variable {s : State} {m n : Mach} {c : Cmd} {p k z src code : Nat} {x y : Play}

/-- The reservation of a place in the completion ring changes neither the output nor the route of an event. -/
theorem reported_of_reserve (h : Reported src code m n) : Reported src code (reserve c m) n := fun hr he => by
  obtain ⟨hrun, hlat, -⟩ := (completable_reserve c m).events
  obtain ⟨ring, idx, r, hnew, hcode⟩ := h (hrun ▸ hr) (by simpa only [eqSize, evRing, Machine.hlat, hlat] using he)
  exact ⟨ring, idx, r, newOut_congr _ _ _ _ hnew (reserve_out c m).symm, hcode⟩

theorem annPlayEnd_answers (ha : Awake s) (hp : mfind s.m.ann.players p = some k) (hx : playOf s.m k = some x) (hdone : x.done = true)
    (hdrain : x.bridged = true → acDelay s.m ≤ x.drain) : Answers (.annPlayEnd p) s (fun n => mfind n.ann.players x.player = none ∧
      (∀ z ∈ x.zones, mfind n.ann.holder z = none) ∧ playOf n k = some { x with zones := [] } ∧ n.ann.latch = s.m.ann.latch ∧ Reported 0x11 0x1102 s.m n) := by
  have hend : (x.done && (!x.bridged || decide (acDelay s.m ≤ x.drain))) = true := by
    rw [hdone]
    cases hb : x.bridged with
    | false => rfl
    | true => simpa using hdrain hb
  have hrun : playEnd p s.m = endPlay k (if x.stopping then 2 else 1) s.m := by
    simp only [playEnd, hp, hx, hend, onlyIf, if_true]
  refine answers_mach _ s (playEnd p) _ rfl ha ?_
  obtain ⟨h, f, hserved, hfree, -, hrep⟩ := endPlay_ends (reason := if x.stopping then 2 else 1) hx (by split <;> decide)
  rw [hrun, playOf, hserved.ann]
  exact ⟨mfind_mdel_self .., hfree, mfind_mput_self .., rfl, hrep⟩

/-- A page that has left its microphone does not return to it: only a message starts again. -/
theorem settle_page_seg (m : Mach) (fuel : Nat) (x : Play) (hk : x.defn.kind = 2) (hs : 2 ≤ x.seg) : 2 ≤ (settle m fuel x).seg := by
  induction fuel generalizing x with
  | zero => exact hs
  | succ fuel ih =>
    unfold settle
    split
    · exact hs
    · split
      · have hend : (x.segs.all (fun s => segLen m x.defn s == 0) || (!(x.defn.kind == 1 && x.defn.flags.testBit 2) &&
            (if x.defn.kind = 1 then x.defn.reps else 1) ≤ x.rep + 1)) = true := by simp [hk]
        rw [if_pos hend]
        exact hs
      · exact hs
      · split
        · exact ih _ hk (Nat.le_succ_of_le hs)
        · exact hs

theorem annPageLimit_answers (ha : Awake s) (hp : mfind s.m.ann.players p = some k) (hx : playOf s.m k = some x) (hk : x.defn.kind = 2) (hs : x.seg = 1)
    (hlim : x.defn.limit * spd s.m ≤ x.pos) : Answers (.annPageLimit p) s (fun n => (∃ q, playOf n k = some q ∧ 2 ≤ q.seg) ∧
      n.ann.players = s.m.ann.players ∧ n.ann.holder = s.m.ann.holder ∧ n.out = s.m.out) := by
  have hrun : pageLimit p s.m = setPlay k (settle s.m (x.segs.length + 2) { x with seg := 2, pos := 0, mute := false }) s.m := by
    simp [pageLimit, hp, hx, hk, hs, hlim, onlyIf]
  refine answers_mach _ s (pageLimit p) _ rfl ha ?_
  rw [hrun]
  exact ⟨⟨_, mfind_mput_self .., settle_page_seg s.m _ { x with seg := 2, pos := 0, mute := false } hk (Nat.le_refl 2)⟩, rfl, rfl, rfl⟩

/-! ANN_STOP. -/

/-- The plays and requests that an ANN_STOP names. -/
def stopHit (c : Cmd) (r : Req) : Bool := if u16 c 28 = 0xFFFF then r.id == u32 c 24 else r.msg == u16 c 28

/-- The plays that an ANN_STOP names, with their numbers. -/
def stopMine (c : Cmd) (m : Mach) : List (Nat × Play) :=
  ((playing m).filterMap (fun k => (playOf m k).map (fun p => (k, p)))).filter (fun q => stopHit c q.2.rq)

/-- The requests that an ANN_STOP names. -/
def stopReqs (c : Cmd) (m : Mach) : List Req := (m.ann.waiting ++ m.ann.new).filter (stopHit c)

theorem annStop_eq (tk : Ticket) (hmsg : u16 c 28 ≠ 0xFFFF → (mfind m.ann.msgs (u16 c 28)).isSome = true) : annStop c tk m =
    if stopMine c m != [] && (stopMine c m).filter (fun q => !playLatched m q.2) == [] && stopReqs c m == [] then (m, { st := some stRefusedAuth })
    else okM (forEach (stopReqs c m) (fun r m => dropReq r 2 m)
      (forEach ((stopMine c m).filter (fun q => !playLatched m q.2)) (fun q m => endPlay q.1 2 m) m)) := by
  have hok : ¬ (u16 c 28 != 0xFFFF && (mfind m.ann.msgs (u16 c 28)).isNone) = true := by
    intro h
    obtain ⟨h1, h2⟩ := Bool.and_eq_true_iff.mp h
    have := hmsg (bne_iff_ne.mp h1)
    rw [Option.isSome_iff_ne_none] at this
    exact this (Option.isNone_iff_eq_none.mp h2)
  simp only [annStop]
  rw [if_neg hok]
  rfl

/-- Numbers filtered by what stands under them, and what stands under them filtered. -/
theorem filter_filterMap_pair {β : Type} (f : Nat → Option β) (g : β → Bool) (l : List Nat) :
    (l.filterMap (fun k => (f k).map (fun p => (k, p)))).filter (fun q => g q.2) =
      (l.filter (fun k => (f k).any g)).filterMap (fun k => (f k).map (fun p => (k, p))) := by
  induction l with
  | nil => rfl
  | cons a l ih =>
    cases hf : f a with
    | none => simp [hf, ih]
    | some b => cases hg : g b <;> simp [hf, hg, ih]

theorem stopMine_single (hone : (playing m).filter (fun j => (playOf m j).any (fun y => stopHit c y.rq)) = [k]) (hx : playOf m k = some x) :
    stopMine c m = [(k, x)] := by
  rw [stopMine, filter_filterMap_pair (playOf m) (fun y => stopHit c y.rq), hone]
  simp [hx]

/-- No request that an ANN_STOP names is left. -/
theorem stopReqs_gone {r : Req} (hr : r ∈ m.ann.waiting.diff (stopReqs c m) ++ m.ann.new.diff (stopReqs c m)) : stopHit c r = false := by
  rw [← Bool.not_eq_true]
  intro hhit
  have hcount : (stopReqs c m).count r = m.ann.waiting.count r + m.ann.new.count r := by
    rw [stopReqs, List.count_filter hhit, List.count_append]
  obtain h | h := List.mem_append.mp hr
  · exact not_mem_diff (by omega) h
  · exact not_mem_diff (by omega) h

theorem annStop_answers (ha : Awake s) (hp : Plain 0x0705 c s.m) (hmsg : u16 c 28 ≠ 0xFFFF → (mfind s.m.ann.msgs (u16 c 28)).isSome = true)
    (hone : (playing s.m).filter (fun j => (playOf s.m j).any (fun y => stopHit c y.rq)) = [k]) (hx : playOf s.m k = some x) (hl : playLatched s.m x = false) :
    Answers (.annStop c) s (fun n => mfind n.ann.players x.player = none ∧ (∀ z ∈ x.zones, mfind n.ann.holder z = none) ∧
      (∀ r ∈ n.ann.waiting ++ n.ann.new, stopHit c r = false) ∧ n.ann.latch = s.m.ann.latch ∧
      Reported 0x11 0x1102 (reserve c s.m) n ∧ Completed 0x0705 stDone c s.m n) := by
  have hann := reserve_ann c s.m
  have hmine : stopMine c (reserve c s.m) = [(k, x)] := stopMine_single (by simpa only [playing, playOf, hann] using hone) (by rwa [playOf, hann])
  have hfree : (stopMine c (reserve c s.m)).filter (fun q => !playLatched (reserve c s.m) q.2) = [(k, x)] := by
    have hl' : playLatched (reserve c s.m) x = false := by simpa only [playLatched, hann] using hl
    rw [hmine]
    simp [hl']
  have hrun := annStop_eq (c := c) (m := reserve c s.m) (nowTicket 0x0705 c s.m) (by rwa [hann])
  rw [hfree, if_neg (by simp), forEach_cons, forEach_nil] at hrun
  obtain ⟨h, f, hended, hzones, -, hrep⟩ := endPlay_ends (m := reserve c s.m) (k := k) (p := x) (reason := 2) (by rwa [playOf, hann]) (by decide)
  have hdropped := dropReqs_served 2 (stopReqs c (reserve c s.m)) (endPlay k 2 (reserve c s.m))
  refine plain_answers_final rfl ha hp (by decide) hrun (hended.completable.trans hdropped.completable) fun q hq hdone => ?_
  have hq' := hdropped.ann
  rw [← final_ann (nowTicket 0x0705 c s.m) stDone, ← hq, hended.ann] at hq'
  rw [hq']
  refine ⟨mfind_mdel_self .., hzones, fun r hr => stopReqs_gone (c := c) (m := reserve c s.m) hr, (congrArg Ann.latch hann :), ?_, hdone⟩
  rw [hq]
  exact reported_then _ _ _ _ _ hrep (hdropped.completable.trans (completable_final ..)).events.out

theorem annStop_refused (ha : Awake s) (hp : Plain 0x0705 c s.m) (hmsg : u16 c 28 ≠ 0xFFFF → (mfind s.m.ann.msgs (u16 c 28)).isSome = true)
    (hone : (playing s.m).filter (fun j => (playOf s.m j).any (fun y => stopHit c y.rq)) = [k]) (hx : playOf s.m k = some x) (hl : playLatched s.m x = true)
    (hreq : (s.m.ann.waiting ++ s.m.ann.new).any (stopHit c) = false) :
    Answers (.annStop c) s (fun n => n.ann = s.m.ann ∧ n.regs = s.m.regs ∧ Completed 0x0705 stRefusedAuth c s.m n) := by
  have hann := reserve_ann c s.m
  have hmine : stopMine c (reserve c s.m) = [(k, x)] := stopMine_single (by simpa only [playing, playOf, hann] using hone) (by rwa [playOf, hann])
  have hreqs : stopReqs c (reserve c s.m) = [] := by
    rw [stopReqs, hann, List.filter_eq_nil_iff]
    simpa only [List.any_eq_false] using hreq
  have hl' : playLatched (reserve c s.m) x = true := by simpa only [playLatched, hann] using hl
  have hrun := annStop_eq (c := c) (m := reserve c s.m) (nowTicket 0x0705 c s.m) (by rwa [hann])
  rw [hmine, hreqs, if_pos (by simp [hl'])] at hrun
  refine answers_mach _ s _ _ rfl ha ?_
  rw [plain_status 0x0705 stRefusedAuth annStop c s.m _ hp (absurd · (by decide)) hrun (reserve_deal c s.m)]
  exact ⟨(final_ann ..).trans hann, (final_regs ..).trans (reserve_regs c s.m), (completable_reserve c s.m).completed_final⟩

/-! TRUMP_CLEAR. -/

/-- What the removal of latches leaves: the latches of the list's zones are gone, and the tables stay. -/
structure Unlatched (zs : List Nat) (m n : Mach) : Prop where
  latch : ∀ z, mfind n.ann.latch z = if z ∈ zs then none else mfind m.ann.latch z
  msgs : n.ann.msgs = m.ann.msgs
  sched : n.ann.sched = m.ann.sched
  completable : Completable m n

/-- The machine in which a zone has no latch. -/
def noLatch (z : Nat) (m : Mach) : Mach := setAnn { m.ann with latch := mdel z m.ann.latch, replay := m.ann.replay } m

theorem noLatch_unlatched (z : Nat) (m : Mach) : Unlatched [z] m (noLatch z m) := by
  refine ⟨fun y => ?_, rfl, rfl, completable_setAnn ..⟩
  by_cases hy : y = z
  · rw [if_pos (List.mem_singleton.mpr hy), hy]
    exact mfind_mdel_self ..
  · rw [if_neg (List.mem_singleton.not.mpr hy)]
    exact mfind_mdel_ne _ _ _ hy

theorem Unlatched.served {zs : List Nat} {a : Ann} {q : Mach} (h : Unlatched zs m n) (hq : Served a n q) (hl : a.latch = n.ann.latch) (hm : a.msgs = n.ann.msgs)
    (hs : a.sched = n.ann.sched) : Unlatched zs m q := by
  obtain ⟨hann, hc⟩ := hq
  refine ⟨fun z => ?_, ?_, ?_, h.completable.trans hc⟩
  · rw [hann, hl, h.latch]
  · rw [hann, hm, h.msgs]
  · rw [hann, hs, h.sched]

/-- The machine in which a play has left a zone. -/
def zoneLeft (z k : Nat) (x : Play) (m : Mach) : Mach := setPlay k { x with zones := x.zones.erase z } (changeZone z none m)

theorem unlatch_unlatched (z : Nat) (m : Mach) : Unlatched [z] m (unlatch z m) := by
  unfold unlatch
  split
  · next hnone =>
    refine ⟨fun y => ?_, rfl, rfl, .refl m⟩
    by_cases hy : y = z
    · rw [if_pos (List.mem_singleton.mpr hy), hy, hnone]
    · rw [if_neg (List.mem_singleton.not.mpr hy)]
  · change Unlatched [z] m (match mfind m.ann.holder z with | none => noLatch z m | some k => match playOf (noLatch z m) k with | none => noLatch z m | some p => _)
    have hgone := noLatch_unlatched z m
    split
    · exact hgone
    · next k _ =>
      split
      · exact hgone
      · next x _ =>
        split
        · have hleft : Unlatched [z] m (zoneLeft z k x (noLatch z m)) := hgone.served ⟨rfl, completable_setAnn ..⟩ rfl rfl rfl
          change Unlatched [z] m (if (x.zones.erase z).isEmpty then endPlay k 2 (zoneLeft z k x (noLatch z m)) else zoneLeft z k x (noLatch z m))
          split
          · obtain ⟨h, f, hserved, -⟩ := endPlay_ends (m := zoneLeft z k x (noLatch z m)) (k := k) (reason := 2) (mfind_mput_self ..) (by decide)
            exact hleft.served hserved rfl rfl rfl
          · exact hleft
        · exact hgone

theorem unlatches_unlatched (zs : List Nat) (m : Mach) : Unlatched zs m (forEach zs unlatch m) := by
  induction zs generalizing m with
  | nil => exact ⟨fun y => (if_neg List.not_mem_nil).symm, rfl, rfl, .refl m⟩
  | cons z zs ih =>
    have hfirst := unlatch_unlatched z m
    have hrest := ih (unlatch z m)
    refine ⟨fun y => ?_, hrest.msgs.trans hfirst.msgs, hrest.sched.trans hfirst.sched, hfirst.completable.trans hrest.completable⟩
    rw [forEach_cons, hrest.latch, hfirst.latch]
    by_cases h1 : y = z <;> by_cases h2 : y ∈ zs <;> simp [h1, h2]

/-- The zones that a TRUMP_CLEAR names. -/
def clearZones (c : Cmd) : List Nat := if u8 c 24 = 1 then List.range 256 else zonesOf (bufBytes c)

theorem mem_clearZones : z ∈ clearZones c ↔ z < 256 ∧ (u8 c 24 = 1 ∨ z ∈ zonesOf (bufBytes c)) := by
  unfold clearZones
  have hbound : z ∈ zonesOf (bufBytes c) → z < 256 := fun h => List.mem_range.mp (List.mem_filter.mp h).1
  split <;> simp_all

/-- The zones among those that a TRUMP_CLEAR names in which a latch stands. -/
def clearGone (c : Cmd) (m : Mach) : List Nat := (clearZones c).filter (fun z => (mfind m.ann.latch z).isSome)

/-- The service's state without the latches that TRUMP_CLEAR removes. -/
def latchesCleared (c : Cmd) (m : Mach) : Mach :=
  let m1 := forEach (clearGone c m) unlatch m
  setAnn { m1.ann with replay := m1.ann.replay.filter (fun l => (m1.ann.latch.map Prod.snd).contains l) } m1

theorem trumpClear_clears (tk : Ticket) (h24 : u8 c 24 ≤ 1) (hlen : bufLen c = 304) (hbuf : bufOk c false m = true) :
    trumpClear c tk m = okM (raise 0x11 0x1105 [(1, min 255 (clearGone c m).length), (7, 0), (8, envKey c)] (latchesCleared c m)) := by
  have hargs : ¬ (decide (1 < u8 c 24) || bufLen c != 304 || !bufOk c false m) = true := by
    rw [hlen, hbuf]
    simpa using h24
  simp only [trumpClear]
  rw [if_neg hargs]
  rfl

theorem latchesCleared_unlatched (c : Cmd) (m : Mach) : Unlatched (clearGone c m) m (latchesCleared c m) :=
  (unlatches_unlatched (clearGone c m) m).served ⟨rfl, completable_setAnn ..⟩ rfl rfl rfl

theorem latchesCleared_latch (c : Cmd) (m : Mach) (z : Nat) : mfind (latchesCleared c m).ann.latch z = if z ∈ clearZones c then none else mfind m.ann.latch z := by
  rw [(latchesCleared_unlatched c m).latch, clearGone]
  by_cases h1 : z ∈ clearZones c <;> cases h2 : mfind m.ann.latch z <;> simp [List.mem_filter, h1, h2]

theorem bufOk_of_events (h : EventsKept m n) (w : Bool) : bufOk c w n = bufOk c w m := by
  simp only [bufOk, h.lat]

theorem trumpClear_answers (ha : Awake s) (hs : Signed 0x0706 c s.m) (h24 : u8 c 24 ≤ 1) (hlen : bufLen c = 304) : Answers (.trumpClear c) s (fun n =>
    (∀ z, z < 256 ∧ (u8 c 24 = 1 ∨ z ∈ zonesOf (bufBytes c)) → mfind n.ann.latch z = none) ∧
    (∀ z, ¬ (z < 256 ∧ (u8 c 24 = 1 ∨ z ∈ zonesOf (bufBytes c))) → mfind n.ann.latch z = mfind s.m.ann.latch z) ∧
    n.ann.msgs = s.m.ann.msgs ∧ n.ann.sched = s.m.ann.sched ∧ Reported 0x11 0x1105 (reserve c s.m) n ∧ Completed 0x0706 stDone c s.m n) := by
  have hbuf : bufOk c false s.m = true := by
    obtain ⟨-, -, -, -, -, -, -, -, -, hbuf, -⟩ := hs
    exact hbuf
  refine admitted_answers rfl ha (.inr hs) (by decide) fun n hj =>
    ⟨_, trumpClear_clears _ h24 hlen ((bufOk_of_events hj.completable.events false).trans hbuf), ?_, fun hdone => ?_⟩
  · exact ((latchesCleared_unlatched c n).completable.trans (completable_raise ..)).routed
  have hann : n.ann = s.m.ann := samePiece_of_outside (p := .ann) hj.outside (by decide)
  obtain ⟨-, hmsgs, hsched, hcomp⟩ := latchesCleared_unlatched c n
  have hlatch := latchesCleared_latch c n
  have hrep := reported_of_reserve (c := c) (reported_then _ _ _ _ _ ((hj.completable.trans hcomp).events.reported (src := 0x11) (code := 0x1105)
    (pay := [(1, min 255 (clearGone c n).length), (7, 0), (8, envKey c)])) (completable_final (nowTicket 0x0706 c s.m) stDone _).events.out)
  rw [final_ann, raise_ann]
  simp only [hann] at hlatch hmsgs hsched
  refine ⟨fun z hz => ?_, fun z hz => ?_, hmsgs, hsched, hrep, hdone⟩
  · rw [hlatch, if_pos (mem_clearZones.mpr hz)]
  · rw [hlatch, if_neg (mem_clearZones.not.mpr hz)]

end Ends

/-- Settles O41: each end by its lemma above. -/
theorem playsEnd : Obligations.PlaysEnd := fun _ ha =>
  ⟨fun _ _ _ hp hx => ⟨fun hdone hdrain => annPlayEnd_answers ha hp hx hdone hdrain, fun hk hs hlim => annPageLimit_answers ha hp hx hk hs hlim⟩,
    fun _ _ _ hp hmsg hone hx => ⟨fun hl => annStop_answers ha hp hmsg hone hx hl, fun hl hreq => annStop_refused ha hp hmsg hone hx hl hreq⟩,
    fun _ hs h24 hlen => trumpClear_answers ha hs h24 hlen⟩

end Sys2Proof.Machine
end

section
/-! The key store (16 R433-R450): what its registers show, and what the installation and the erasure of keys leave. -/
namespace Sys2Proof.Machine

section Store
variable {ks : List Nat} {m n : Mach} {c : Cmd} {num : Nat}

theorem completable_setSec (x : Sec) (m : Mach) : Completable m (setSec x m) := ⟨.of_eq rfl rfl rfl, rfl⟩

/-- The registers that show the keys and the LDevID, and those that an event about a key writes. -/
def keyShowFlds : List Fld := [F.SEC_KEYS_OPERATOR, F.SEC_KEYS_DECK, F.SEC_KEYS_PREV_RING, F.SEC_KEYS_LCL0, F.SEC_KEYS_LCL1, F.SEC_LDEV_LO_ID,
  F.SEC_LDEV_HI_ID, F.SEC_FLAGS_KEY_CHANGED]

theorem kept_keyEvent (kind phase num id : Nat) (m : Mach) : Kept (placesOf keyShowFlds) m (keyEvent kind phase num id m) :=
  (kept_wr_field (by decide) (by decide) (by decide) _ _).trans (kept_raise_field ..)

theorem kept_showKeys (m : Mach) : Kept (placesOf keyShowFlds) m (showKeys m) :=
  (kept_wr_field (by decide) (by decide) (by decide) _ _).trans <| (kept_wr_field (by decide) (by decide) (by decide) _ _).trans <|
    (kept_wr_field (by decide) (by decide) (by decide) _ _).trans <| (kept_wr_field (by decide) (by decide) (by decide) _ _).trans <|
    kept_wr_field (by decide) (by decide) (by decide) _ _

theorem kept_showLdev (m : Mach) : Kept (placesOf keyShowFlds) m (showLdev m) :=
  (kept_wr_field (by decide) (by decide) (by decide) _ _).trans (kept_wr_field (by decide) (by decide) (by decide) _ _)

theorem completable_keyEvent (kind phase num id : Nat) (m : Mach) : Completable m (keyEvent kind phase num id m) :=
  (kept_keyEvent ..).completable_field (by decide +kernel) ((raise_pace ..).trans wr_pace)

theorem completable_showKeys (m : Mach) : Completable m (showKeys m) := (kept_showKeys m).completable_field (by decide +kernel) (by simp [showKeys])

theorem completable_showLdev (m : Mach) : Completable m (showLdev m) := (kept_showLdev m).completable_field (by decide +kernel) (by simp [showLdev])

theorem completable_recordCounter (c : Cmd) (m : Mach) : Completable m (recordCounter c m) := (judged_recordCounter c m).completable

theorem keyEvent_sec (kind phase num id : Nat) (m : Mach) : (keyEvent kind phase num id m).sec = m.sec := rfl

theorem keyEvent_reported (kind phase num id : Nat) (h : EventsKept m n) : Reported 0x14 0x1402 m (keyEvent kind phase num id n) :=
  (h.trans (completable_wr _ _ (by decide)).events).reported

/-! The ring key (R449). -/

/-- The store with a new ring key in force: the one before it is kept for its grace. -/
def ringSec (m : Mach) : Sec :=
  { m.sec with prevKey := if rd m F.SEC_RING_KEY_NUMBER = 0 then none
                          else some (rd m F.SEC_RING_KEY_NUMBER, m.deal + rd m F.SEC_CTRL_KEY_GRACE_S * 8000) }

theorem installRing_sec (num : Nat) (m : Mach) : (installRing num m).sec = ringSec m := rfl

theorem installRing_number (num : Nat) (m : Mach) : rd (installRing num m) F.SEC_RING_KEY_NUMBER = num % 2 ^ F.SEC_RING_KEY_NUMBER.width :=
  ((kept_showKeys _).rdij (by decide +kernel) (by decide) (by decide)).trans (rd_wr_self ..)

theorem completable_installRing (num : Nat) (m : Mach) : Completable m (installRing num m) :=
  ((completable_setSec _ m).trans (completable_wr _ _ (by decide))).trans (completable_showKeys _)

/-! A key package (R446). -/

/-- The store with the LDevID, the operator keys and the deck keys of a package. -/
def pkgSec (p : KeyPkg) (x : Sec) : Sec := { x with ldev := keyIdOf p.certKey, keys := opSet p.operators x.keys, deckKeys := p.decks.map keyIdOf }

/-- The machine with the LDevID and the keys of a package, all but the ring key. -/
def pkgSet (p : KeyPkg) (m : Mach) : Mach := showLdev (wr F.SEC_STATE_LIFECYCLE 2 (setSec (pkgSec p m.sec) m))

theorem pkgSet_sec (p : KeyPkg) (m : Mach) : (pkgSet p m).sec = pkgSec p m.sec := rfl

/-- The machine that holds the keys of a package, before it reports them. -/
def pkgHeld (p : KeyPkg) (c : Cmd) (m : Mach) : Mach := recordCounter c (installRing p.ringKey (pkgSet p m))

theorem installPkg_eq (p : KeyPkg) (c : Cmd) (m : Mach) : installPkg p c m = keyEvent 1 0 p.ringKey (keyIdOf p.certKey)
    (keyEvent 3 0 p.decks.length (envKey c) (keyEvent 2 0 p.operators.length (envKey c) (keyEvent 5 0 0 (keyIdOf p.certKey) (pkgHeld p c m)))) := rfl

theorem kept_pkgEvents (p : KeyPkg) (c : Cmd) (m : Mach) : Kept (placesOf keyShowFlds) (pkgHeld p c m) (installPkg p c m) :=
  (kept_keyEvent ..).trans <| (kept_keyEvent ..).trans <| (kept_keyEvent ..).trans (kept_keyEvent ..)

theorem completable_pkgHeld (p : KeyPkg) (c : Cmd) (m : Mach) : Completable m (pkgHeld p c m) :=
  (completable_setSec _ m).trans <| (completable_wr _ _ (by decide)).trans <| (completable_showLdev _).trans <| (completable_installRing ..).trans
    (completable_recordCounter ..)

theorem completable_installPkg (p : KeyPkg) (c : Cmd) (m : Mach) : Completable m (installPkg p c m) :=
  (completable_pkgHeld p c m).trans <| (completable_keyEvent ..).trans <| (completable_keyEvent ..).trans <| (completable_keyEvent ..).trans
    (completable_keyEvent ..)

theorem installPkg_reported (p : KeyPkg) (c : Cmd) (m : Mach) : Reported 0x14 0x1402 m (installPkg p c m) :=
  keyEvent_reported _ _ _ _ ((completable_pkgHeld p c m).trans <| (completable_keyEvent ..).trans <| (completable_keyEvent ..).trans
    (completable_keyEvent ..)).events

theorem installPkg_holds (p : KeyPkg) (c : Cmd) (m : Mach) : (installPkg p c m).sec.ldev = keyIdOf p.certKey ∧
    (installPkg p c m).sec.deckKeys = p.decks.map keyIdOf ∧
    rd (installPkg p c m) F.SEC_RING_KEY_NUMBER = p.ringKey % 2 ^ F.SEC_RING_KEY_NUMBER.width := by
  obtain ⟨ks, hks⟩ := (judged_recordCounter c (installRing p.ringKey (pkgSet p m))).sec
  have hsec : (installPkg p c m).sec = (pkgHeld p c m).sec := by
    rw [installPkg_eq, keyEvent_sec, keyEvent_sec, keyEvent_sec, keyEvent_sec]
  rw [hsec, pkgHeld, hks, installRing_sec, ringSec, pkgSet_sec]
  refine ⟨rfl, rfl, ?_⟩
  rw [(kept_pkgEvents p c m).rd (not_mem_placesOf (by decide +kernel) (by decide) (by decide)), pkgHeld, (judged_recordCounter ..).kept.rd (by decide),
    installRing_number]

theorem installPkg_dom (p : KeyPkg) (c : Cmd) (m : Mach) : (installPkg p c m).dom = m.dom :=
  samePiece_of_outside (p := .dom) (installPkg_outside (ps := [.out, .hif, .sec, .block 0x1, .block 0x3]) rfl p c m) (by decide)

/-! The identity (R435). -/

theorem completable_eraseKeys (m : Mach) : Completable m (eraseKeys m) := by
  unfold eraseKeys
  split
  · exact .refl m
  · exact (completable_setSec _ m).trans <| (completable_wr _ _ (by decide)).trans <| (completable_wr _ _ (by decide)).trans <|
      (completable_showLdev _).trans <| (completable_showKeys _).trans (completable_keyEvent ..)

theorem eraseKeys_ldev (m : Mach) : (eraseKeys m).sec.ldev = 0 := by
  unfold eraseKeys
  split
  case isTrue h => exact h
  case isFalse => rfl

end Store

end Sys2Proof.Machine
end

section
/-! The domain manager (15): what its operations on the trio, the roster's registers and the peers keep. -/
namespace Sys2Proof.Machine

/-- Where the operations of the domain manager write registers, the own seat's and the roster's registers apart. -/
def managerKeys : List Nat := peerPlaces 0 ++ peerPlaces 1 ++ timeLostKeys ++ seamKeys ++
  [fkey F.TIM_STATE_SOURCE 0 0, fkey F.CLK_STATE_SOURCE 0 0, fkey F.DOM_TRIO_SEAT01_SEAT0 0 0, fkey F.DOM_TRIO_SEAT01_SEAT1 0 0,
    fkey F.DOM_TRIO_SEAT2_SEAT2 0 0, fkey F.DOM_TRIO_SEAT2_ACTIVE 0 0, fkey F.DOM_STATE_ROLE 0 0, fkey F.DOM_STATE_TRIO_IDX 0 0,
    fkey F.DOM_STATE_MANAGING 0 0, fkey F.DOM_STATE_WAITING 0 0, fkey F.DOM_STATE_FROZEN 0 0, fkey F.DOM_STATE_COPYING 0 0,
    fkey F.DOM_FLAGS_FENCED 0 0, fkey F.DOM_FENCE_CNT_COUNT 0 0]

/-- An operation of the domain manager: it keeps the roster, and the way of events and completions. -/
structure Managed (m n : Mach) : Prop where
  kept : Kept managerKeys m n
  roster : n.dom.roster = m.dom.roster
  deal : n.deal = m.deal
  epoch : n.hif.epoch = m.hif.epoch

section Manager
variable {ks : List Nat} {m n q : Mach} {f : Fld} {v j seat cause p ldev : Nat} {old : Option Roster}

theorem Managed.refl (m : Mach) : Managed m m := ⟨.refl m, rfl, rfl, rfl⟩

theorem Managed.trans (h1 : Managed m n) (h2 : Managed n q) : Managed m q :=
  ⟨h1.kept.trans h2.kept, h2.roster.trans h1.roster, h2.deal.trans h1.deal, h2.epoch.trans h1.epoch⟩

theorem Managed.routed (h : Managed m n) : Routed m n := ⟨h.kept.events (by decide +kernel), h.deal, h.epoch⟩

theorem Managed.of_beat (hk : Kept ks m n) (hs : ks ⊆ managerKeys) (hr : n.dom.roster = m.dom.roster) (hb : beat n = beat m) : Managed m n :=
  ⟨hk.mono hs, hr, congrArg Pace.deal hb, congrArg Pace.epoch hb⟩

theorem Managed.of_pace (hk : Kept ks m n) (hs : ks ⊆ managerKeys) (hr : n.dom.roster = m.dom.roster) (hp : pace n = pace m) : Managed m n :=
  .of_beat hk hs hr (beat_of_pace hp)

theorem managed_onlyIf (b : Bool) {g : Mach → Mach} (h : Managed m (g m)) : Managed m (onlyIf b g m) := by
  cases b
  · exact .refl m
  · exact h

theorem managed_forEach {α : Type} {g : α → Mach → Mach} {l : List α} (h : ∀ a ∈ l, ∀ n, Managed n (g a n)) (m : Mach) : Managed m (forEach l g m) := by
  induction l generalizing m with
  | nil => exact .refl m
  | cons a l ih => exact (h a List.mem_cons_self m).trans (ih (fun b hb => h b (List.mem_cons_of_mem a hb)) _)

theorem managed_wr (v : Nat) (m : Mach) (hf : fkey f 0 0 ∈ managerKeys) : Managed m (wr f v m) := ⟨kept_wr v m hf, rfl, rfl, rfl⟩
theorem managed_bump (v : Nat) (m : Mach) (hf : fkey f 0 0 ∈ managerKeys) : Managed m (bump f v m) := ⟨kept_bump v m hf, rfl, rfl, rfl⟩
theorem managed_raise (src code : Nat) (pay : Pay) (m : Mach) : Managed m (raise src code pay m) :=
  .of_pace (kept_raise src code pay m (ks := managerKeys) (by decide +kernel)) (List.Subset.refl _) rfl (raise_pace ..)

theorem managed_setDom {x : Dom} (m : Mach) (hr : x.roster = m.dom.roster) : Managed m (setDom x m) := ⟨.of_eq rfl rfl rfl rfl, hr, rfl, rfl⟩
theorem managed_setRing (x : RingSt) (m : Mach) : Managed m (setRing x m) := ⟨kept_setRing .., rfl, rfl, rfl⟩
theorem managed_emit (o : Out) (m : Mach) : Managed m (emit o m) := ⟨kept_emit .., rfl, rfl, rfl⟩

theorem managed_setTrio (j seat : Nat) (m : Mach) : Managed m (setTrio j seat m) := by
  unfold setTrio
  split
  · exact managed_wr _ _ (by decide +kernel)
  · split
    · exact managed_wr _ _ (by decide +kernel)
    · exact managed_wr _ _ (by decide +kernel)

theorem managed_showRole (m : Mach) : Managed m (showRole m) := managed_wr _ _ (by decide +kernel)

theorem managed_showSeam (m : Mach) : Managed m (showSeam m) := .of_pace (kept_showSeam m) (by decide +kernel) rfl (showSeam_pace ..)

/-- The machine that shows an active manager. -/
def activeShown (seat : Nat) (m : Mach) : Mach := showRole (showSeam (wr F.DOM_TRIO_SEAT2_ACTIVE seat m))

theorem managed_activeShown (seat : Nat) (m : Mach) : Managed m (activeShown seat m) :=
  (managed_wr _ _ (by decide +kernel)).trans <| (managed_showSeam _).trans (managed_showRole _)

/-- The machine that remembers the active manager it has known. -/
def activeNoted (m : Mach) : Mach := setDom { m.dom with wasActive := if activeMgr m = 0xFFFF then m.dom.wasActive else activeMgr m } m

theorem setActive_eq (seat : Nat) (m : Mach) : setActive seat m = activeShown seat (activeNoted m) := rfl

theorem managed_activeNoted (m : Mach) : Managed m (activeNoted m) := managed_setDom m rfl

theorem managed_setActive (seat : Nat) (m : Mach) : Managed m (setActive seat m) := (managed_activeNoted m).trans (managed_activeShown ..)

theorem endSource_dom (m : Mach) : (endSource m).dom = m.dom :=
  samePiece_of_outside (p := .dom) (endSource_outside (ps := [.out, .hif, .clk, .tim, .block 0x1, .block 0x4, .block 0x5]) rfl m) (by decide)

/-- The time unit of a source that ends. -/
theorem kept_endSource (m : Mach) : Kept (fkey F.TIM_STATE_SOURCE 0 0 :: fkey F.CLK_STATE_SOURCE 0 0 :: timeLostKeys) m (endSource m) := by
  simp only [endSource]
  split
  · have hended : Kept (fkey F.TIM_STATE_SOURCE 0 0 :: fkey F.CLK_STATE_SOURCE 0 0 :: timeLostKeys) m
        (wr F.TIM_STATE_SOURCE 0 (wr F.CLK_STATE_SOURCE 0 (setTim { m.tim with todWait := false, starts := none, stepped := true } m))) :=
      (kept_setTim ..).trans <| (kept_wr _ _ (by decide)).trans (kept_wr _ _ (by decide))
    split
    · exact hended
    · exact hended.trans ((kept_timeLost ..).mono (by decide))
  · exact .refl m

theorem managed_endSource (m : Mach) : Managed m (endSource m) :=
  .of_beat (kept_endSource m) (by decide +kernel) (congrArg Dom.roster (endSource_dom m)) endSource_beat

theorem managed_startCopy (idx : Option Nat) (src restarts : Nat) (m : Mach) : Managed m (startCopy idx src restarts m) := by
  refine .of_pace (kept_startCopy idx src restarts m) (by decide +kernel) ?_ (startCopy_pace ..)
  unfold startCopy
  split
  · rfl
  · rw [sendTrio_dom, showCopying, wr_dom, setDom_dom]

/-- The machine of a member that has given up its index. -/
def indexLeft (m : Mach) : Mach :=
  wr F.DOM_STATE_TRIO_IDX 3 (wr F.DOM_STATE_MANAGING 0 (wr F.DOM_STATE_WAITING 0 (wr F.DOM_STATE_FROZEN 0 (endSource m))))

theorem managed_indexLeft (m : Mach) : Managed m (indexLeft m) :=
  (managed_endSource m).trans <| (managed_wr _ _ (by decide +kernel)).trans <| (managed_wr _ _ (by decide +kernel)).trans <|
    (managed_wr _ _ (by decide +kernel)).trans (managed_wr _ _ (by decide +kernel))

/-- The machine of a worker: it serves no copy and keeps no checkpoint. -/
def nothingServed (m : Mach) : Mach := setDom { m.dom with serve := none, serveQ := [], check := none, frozenAt := none } m

theorem managed_nothingServed (m : Mach) : Managed m (nothingServed m) := managed_setDom m rfl

theorem leaveTrio_eq (m : Mach) : leaveTrio m = startCopy none (copySource (indexLeft m)) 0 (showRole (nothingServed (indexLeft m))) := rfl

theorem managed_leaveTrio (m : Mach) : Managed m (leaveTrio m) := by
  rw [leaveTrio_eq]
  exact (managed_indexLeft m).trans <| (managed_nothingServed _).trans <| (managed_showRole _).trans (managed_startCopy ..)

/-! Fencing (R415). -/

/-- The machine that has forgotten what a member sent. -/
def peerForgotten (j : Nat) (m : Mach) : Mach :=
  setDom { m.dom with peers := mdel j m.dom.peers, dissent := mdel j m.dom.dissent, noSpare := m.dom.noSpare ++ [trioAt m j] } m

theorem managed_peerForgotten (j : Nat) (m : Mach) : Managed m (peerForgotten j m) := managed_setDom m rfl

/-- The machine that has noted a fencing and made the index vacant. -/
def indexVacant (j : Nat) (m : Mach) : Mach := setTrio j 0xFFFF (wr F.DOM_FLAGS_FENCED 1 (bump F.DOM_FENCE_CNT_COUNT 1 (peerForgotten j m)))

/-- The machine in which a fenced member is not the active manager. -/
def memberFenced (j : Nat) (m : Mach) : Mach := onlyIf (activeMgr (indexVacant j m) == trioAt m j) (setActive 0xFFFF) (indexVacant j m)

/-- The machine that has reported a fencing. -/
def fenceTold (j cause : Nat) (m : Mach) : Mach :=
  raise 0x17 0x1702 [(2, trioAt m j), (1, j), (1, cause), (2, (nextSpare (memberFenced j m)).getD 0xFFFF), (10, 0)] (memberFenced j m)

/-- What follows the fencing of a seat: this device leaves the trio, or asks for a copy as the spare that is next. -/
def afterFence (seat own j : Nat) (m : Mach) : Mach :=
  if seat = own then leaveTrio m
  else if nextSpare m = some (ownSeat m) && m.dom.copy.isNone then startCopy (some j) (copySource m) 0 m
  else m

theorem fence_eq (hs : trioAt m j ≠ 0xFFFF) (cause : Nat) : fence j cause m = afterFence (trioAt m j) (ownSeat m) j (fenceTold j cause m) := by
  simp only [fence]
  rw [if_neg hs]
  rfl

theorem managed_indexVacant (j : Nat) (m : Mach) : Managed m (indexVacant j m) :=
  (managed_peerForgotten j m).trans <| (managed_bump _ _ (by decide +kernel)).trans <| (managed_wr _ _ (by decide +kernel)).trans (managed_setTrio ..)

theorem managed_memberFenced (j : Nat) (m : Mach) : Managed m (memberFenced j m) :=
  (managed_indexVacant j m).trans (managed_onlyIf _ (managed_setActive ..))

theorem managed_afterFence (seat own j : Nat) (m : Mach) : Managed m (afterFence seat own j m) := by
  unfold afterFence
  split
  · exact managed_leaveTrio m
  · split
    · exact managed_startCopy ..
    · exact .refl m

theorem managed_fence (j cause : Nat) (m : Mach) : Managed m (fence j cause m) := by
  by_cases hs : trioAt m j = 0xFFFF
  · rw [show fence j cause m = m from if_pos hs]
    exact .refl m
  · rw [fence_eq hs]
    exact (managed_memberFenced j m).trans ((managed_raise ..).trans (managed_afterFence ..))

/-! Peers (R403, R405). -/

theorem unknownMember_dom (ldev p : Nat) (m : Mach) : (unknownMember ldev p m).dom = m.dom :=
  samePiece_of_outside (p := .dom) (unknownMember_outside (ps := [.out, .hif, .ring, .block 0x1, .block 0x8, .block 0x10]) rfl ldev p m) (by decide)

theorem linkKeeps_pace (p : Nat) : LinkKeeps pace p := ⟨pace_sendKeeps, fun _ _ _ _ => wr_pace, fun _ _ _ _ => wri_pace ..⟩

theorem unknownMember_pace (ldev p : Nat) (m : Mach) : pace (unknownMember ldev p m) = pace m := by
  by_cases hp : p < 2
  · rw [unknownMember_eq hp, raise_pace, memberUnknown, wr_pace, wr_pace, setPort_pace, saWithdrawn, detectFault_keep pace_sendKeeps,
      dropSa_keep (linkKeeps_pace p)]
  · rw [unknownMember, if_neg hp]

theorem managed_unknownMember (hp : p < 2) (ldev : Nat) (m : Mach) : Managed m (unknownMember ldev p m) :=
  .of_pace (kept_unknownMember ldev p m) ((by decide +kernel : ∀ p < 2, peerPlaces p ⊆ managerKeys) p hp) (congrArg Dom.roster (unknownMember_dom ..))
    (unknownMember_pace ..)

theorem managed_unbar (m : Mach) : Managed m (unbar m) := managed_forEach (fun _ _ _ => managed_setRing ..) m

theorem managed_judgePeers (old : Option Roster) (m : Mach) : Managed m (judgePeers old m) :=
  (managed_unbar m).trans <| managed_forEach (fun p hp n => managed_onlyIf _ (managed_unknownMember
    ((by decide : ∀ p ∈ [0, 1], p < 2) p hp) ..)) _

/-! The trio of a roster (R403). -/

/-- The machine whose scene is not frozen. -/
def thawed (m : Mach) : Mach := wr F.DOM_STATE_FROZEN 0 (setDom { m.dom with frozenAt := none } m)

theorem managed_thawed (m : Mach) : Managed m (thawed m) :=
  .trans (n := setDom { m.dom with frozenAt := none } m) (managed_setDom m rfl) (managed_wr _ _ (by decide +kernel))

theorem managed_rosterTrio (old : Option Roster) (m : Mach) : Managed m (rosterTrio old m) := by
  unfold rosterTrio
  split
  · exact .refl m
  · next r _ =>
    extract_lets keeps m1 own m2 m3 m4 kept m5 mine
    have h2 : Managed m m2 := (managed_forEach (fun _ _ _ => managed_setTrio ..) m).trans (managed_wr _ _ (by decide +kernel))
    have h3 : Managed m2 m3 := by
      by_cases hleft : (ownIdx m != 3 && own = 3) = true
      · rw [show m3 = leaveTrio m2 from if_pos hleft]
        exact managed_leaveTrio m2
      · rw [show m3 = m2 from if_neg hleft]
        exact .refl m2
    have h4 : Managed m3 m4 := managed_onlyIf _ (managed_thawed m3)
    have h5 : Managed m m5 := ((h2.trans h3).trans h4).trans (managed_setDom m4 rfl)
    clear_value mine m5
    split
    · split
      · exact h5.trans (managed_startCopy ..)
      · exact h5
    · exact h5

end Manager

end Sys2Proof.Machine
end

section
/-! The roster (15 R403, R404, R407, R408): its replacement, an admission, an eviction, and the erasure of this device's identity. -/
namespace Sys2Proof.Machine

theorem foldr_bytes_lt (l : List Byte) : l.foldr (fun b acc => b.toNat + 256 * acc) 0 < 256 ^ l.length := by
  induction l with
  | nil => decide
  | cons b l ih =>
    have hb : b.toNat < 256 := b.isLt
    rw [List.foldr_cons, List.length_cons, Nat.pow_succ]
    omega

theorem leAt_lt (l : List Byte) (off n : Nat) : leAt l off n < 256 ^ n :=
  Nat.lt_of_lt_of_le (foldr_bytes_lt _) (Nat.pow_le_pow_right (by decide) (List.length_take_le ..))

section Rosters
variable {s : State} {m n : Mach} {c : Cmd} {r : Roster} {f : Fld} {l : List Byte}

theorem Routed.refl (m : Mach) : Routed m m := (Completable.refl m).routed

theorem routed_wr (v : Nat) (m : Mach) (h : fkey F.HIF_STATUS_RUNNING 0 0 ≠ fkey f 0 0) : Routed m (wr f v m) := (completable_wr v m h).routed

theorem routed_setDom (x : Dom) (m : Mach) : Routed m (setDom x m) := ⟨.of_eq rfl rfl rfl, rfl, rfl⟩

theorem routed_placeSelf (m : Mach) : Routed m (placeSelf m) := routed_wr _ _ (by decide)

theorem showRoster_dom (m : Mach) : (showRoster m).dom = m.dom := by
  unfold showRoster
  split <;> rfl

theorem routed_showRoster (m : Mach) : Routed m (showRoster m) := by
  unfold showRoster
  split
  · exact (routed_wr _ _ (by decide)).trans <| (routed_wr _ _ (by decide)).trans (routed_wr _ _ (by decide))
  · exact (routed_wr _ _ (by decide)).trans <| (routed_wr _ _ (by decide)).trans (routed_wr _ _ (by decide))

/-- The registers of a roster. -/
def rosterFlds : List Fld := [F.DOM_TABLE_TABLE_ID, F.DOM_TABLE_PRESENT, F.DOM_ROSTER_VER_VERSION]

theorem kept_showRoster (m : Mach) : Kept (placesOf rosterFlds) m (showRoster m) := by
  unfold showRoster
  split
  · exact (kept_wr_field (by decide) (by decide) (by decide) _ _).trans <| (kept_wr_field (by decide) (by decide) (by decide) _ _).trans
      (kept_wr_field (by decide) (by decide) (by decide) _ _)
  · exact (kept_wr_field (by decide) (by decide) (by decide) _ _).trans <| (kept_wr_field (by decide) (by decide) (by decide) _ _).trans
      (kept_wr_field (by decide) (by decide) (by decide) _ _)

theorem showRoster_shows (hr : m.dom.roster = some r) : rd (showRoster m) F.DOM_TABLE_TABLE_ID = r.table % 2 ^ 16 ∧
    rd (showRoster m) F.DOM_ROSTER_VER_VERSION = r.version % 2 ^ 32 := by
  have hrun : showRoster m = wr F.DOM_TABLE_TABLE_ID r.table (wr F.DOM_TABLE_PRESENT (ringSeats r).length (wr F.DOM_ROSTER_VER_VERSION r.version m)) := by
    simp only [showRoster, hr]
  rw [hrun]
  exact ⟨rd_wr_self .., (rd_wr_ne _ _ _ _ (by decide)).trans <| (rd_wr_ne _ _ _ _ (by decide)).trans (rd_wr_self ..)⟩

/-- The machine that shows a roster in force. -/
structure Shown (r : Roster) (m : Mach) : Prop where
  roster : m.dom.roster = some r
  table : rd m F.DOM_TABLE_TABLE_ID = r.table % 2 ^ 16
  version : rd m F.DOM_ROSTER_VER_VERSION = r.version % 2 ^ 32

theorem shown_showRoster (hr : m.dom.roster = some r) : Shown r (showRoster m) := by
  obtain ⟨ht, hv⟩ := showRoster_shows hr
  exact ⟨by rw [showRoster_dom, hr], ht, hv⟩

theorem Managed.shown (h : Managed m n) (hs : Shown r m) : Shown r n :=
  ⟨h.roster.trans hs.roster, (h.kept.rd (by decide +kernel)).trans hs.table, (h.kept.rd (by decide +kernel)).trans hs.version⟩

theorem shown_final {tk : Ticket} {st : Nat} (h : Shown r m) : Shown r (final tk st m) :=
  ⟨by rw [final_dom, h.roster], (rd_congr _ _ _ (final_regs ..)).trans h.table, (rd_congr _ _ _ (final_regs ..)).trans h.version⟩

/-! The erasure of the identity (16 R435). -/

/-- A device without an identity: it has no roster, no LDevID, no seat and no role. -/
structure Erased (n : Mach) : Prop where
  roster : n.dom.roster = none
  ldev : n.sec.ldev = 0
  seat : rd n F.DOM_STATE_SEAT = 0xFFFE
  role : rd n F.DOM_STATE_ROLE = 0

/-- The machine without a domain, before it shows that. -/
def domLeft (m : Mach) : Mach :=
  wr F.DOM_STATE_SEAT 0xFFFE (wr F.DOM_STATE_TRIO_IDX 3 (wr F.DOM_STATE_MANAGING 0 (wr F.DOM_STATE_WAITING 0 (wr F.DOM_STATE_FROZEN 0
    (wr F.DOM_TRIO_SEAT2_ACTIVE 0xFFFF (setDom {} (endSource (eraseKeys m))))))))

/-- The machine without a domain, its trio seats vacant. -/
def trioLeft (m : Mach) : Mach := forEach [0, 1, 2] (fun j m => setTrio j 0xFFFF m) (domLeft m)

theorem eraseIdentity_eq (m : Mach) : eraseIdentity m = showRole (showSeam (showRoster (trioLeft m))) := rfl

theorem managed_trioLeft (m : Mach) : Managed (domLeft m) (trioLeft m) := managed_forEach (fun _ _ _ => managed_setTrio ..) _

theorem routed_domLeft (m : Mach) : Routed m (domLeft m) :=
  (completable_eraseKeys m).routed.trans <| (managed_endSource _).routed.trans <| (routed_setDom ..).trans <| (routed_wr _ _ (by decide)).trans <|
    (routed_wr _ _ (by decide)).trans <| (routed_wr _ _ (by decide)).trans <| (routed_wr _ _ (by decide)).trans <| (routed_wr _ _ (by decide)).trans
    (routed_wr _ _ (by decide))

theorem routed_eraseIdentity (m : Mach) : Routed m (eraseIdentity m) :=
  (routed_domLeft m).trans <| (managed_trioLeft m).routed.trans <| (routed_showRoster _).trans <| (managed_showSeam _).routed.trans (managed_showRole _).routed

theorem eraseIdentity_sec (m : Mach) : (eraseIdentity m).sec = (eraseKeys m).sec :=
  calc (eraseIdentity m).sec = (trioLeft m).sec := by
        rw [eraseIdentity_eq]
        exact samePiece_of_outside (p := .sec) ((showRole_outside (ps := [.block 0x8, .block 0x10]) rfl _).trans <|
          (showSeam_outside (ps := [.block 0x8, .block 0x10]) rfl _).trans (showRoster_outside (ps := [.block 0x8, .block 0x10]) rfl _)) (by decide)
    _ = (domLeft m).sec := forEach_keep (·.sec) _ _ (fun j n => samePiece_of_outside (p := .sec) (setTrio_outside (ps := [.block 0x10]) rfl j _ n) (by decide)) _
    _ = (endSource (eraseKeys m)).sec := by simp only [domLeft, wr_sec, setDom_sec]
    _ = (eraseKeys m).sec :=
        samePiece_of_outside (p := .sec) (endSource_outside (ps := [.out, .hif, .clk, .tim, .block 0x1, .block 0x4, .block 0x5]) rfl _) (by decide)

theorem eraseIdentity_erased (m : Mach) : Erased (eraseIdentity m) := by
  have hroster : (trioLeft m).dom.roster = none := (managed_trioLeft m).roster
  have hseam : (showSeam (showRoster (trioLeft m))).dom.roster = none := by rw [(managed_showSeam _).roster, showRoster_dom, hroster]
  refine ⟨?_, ?_, ?_, ?_⟩
  · rw [eraseIdentity_eq, (managed_showRole _).roster, hseam]
  · rw [eraseIdentity_sec, eraseKeys_ldev]
  · rw [eraseIdentity_eq, (managed_showRole _).kept.rd (by decide +kernel), (managed_showSeam _).kept.rd (by decide +kernel),
      (kept_showRoster _).rd (by decide +kernel), (managed_trioLeft m).kept.rd (by decide +kernel), domLeft, rd_wr_self]
    rfl
  · rw [eraseIdentity_eq, showRole, rd_wr_self, hseam]
    rfl

theorem Erased.final {tk : Ticket} {st : Nat} (h : Erased m) : Erased (final tk st m) :=
  ⟨by rw [final_dom, h.roster], by rw [final_sec, h.ldev], (rd_congr _ _ _ (final_regs ..)).trans h.seat, (rd_congr _ _ _ (final_regs ..)).trans h.role⟩

/-! ROSTER_LOAD. -/

/-- Whether a roster holds this device's own entry, or the device has no seat yet. -/
def ownKept (r : Roster) (m : Mach) : Bool := !(member m && !(r.ents.any (fun e => e.seat == ownSeat m && e.present && e.ldev == m.sec.ldev)))

/-- The machine that holds a new roster. -/
def rosterHeld (r : Roster) (m : Mach) : Mach := setDom { m.dom with roster := some r } m

theorem rosterHeld_roster (r : Roster) (m : Mach) : (rosterHeld r m).dom.roster = some r := rfl

/-- The machine that shows a new roster and its own place in it. -/
def rosterShown (r : Roster) (m : Mach) : Mach := showRoster (placeSelf (rosterHeld r m))

theorem shown_rosterShown (r : Roster) (m : Mach) : Shown r (rosterShown r m) := shown_showRoster rfl

theorem routed_rosterHeld (r : Roster) (m : Mach) : Routed m (rosterHeld r m) := routed_setDom ..

theorem routed_rosterShown (r : Roster) (m : Mach) : Routed m (rosterShown r m) :=
  (routed_rosterHeld r m).trans ((routed_placeSelf _).trans (routed_showRoster _))

theorem replaceRoster_keeps (h : ownKept r m = true) : Managed (rosterShown r m) (replaceRoster r m) := by
  have hrun : replaceRoster r m = judgePeers m.dom.roster (showRole (onlyIf
      (activeMgr (rosterTrio m.dom.roster (rosterShown r m)) != 0xFFFF &&
        !(trioSeats (rosterTrio m.dom.roster (rosterShown r m))).contains (activeMgr (rosterTrio m.dom.roster (rosterShown r m))))
      (setActive 0xFFFF) (rosterTrio m.dom.roster (rosterShown r m)))) := by
    simp only [replaceRoster]
    rw [if_neg (by simpa only [ownKept, Bool.not_eq_true'] using Bool.not_eq_true _ ▸ (Bool.not_eq_true' _).mp h)]
    rfl
  rw [hrun]
  exact (managed_rosterTrio ..).trans <| (managed_onlyIf _ (managed_setActive ..)).trans <| (managed_showRole _).trans (managed_judgePeers ..)

theorem replaceRoster_erases (h : ownKept r m = false) : replaceRoster r m = eraseIdentity (judgePeers m.dom.roster (rosterHeld r m)) := by
  simp only [replaceRoster]
  rw [if_pos ((Bool.not_eq_false' _).mp h)]
  rfl

theorem routed_replaceRoster (r : Roster) (m : Mach) : Routed m (replaceRoster r m) := by
  cases h : ownKept r m with
  | true => exact (routed_rosterShown r m).trans (replaceRoster_keeps h).routed
  | false =>
    rw [replaceRoster_erases h]
    exact (routed_rosterHeld r m).trans <| (managed_judgePeers ..).routed.trans (routed_eraseIdentity _)

theorem parseRoster_numbers (h : parseRoster l = some r) : r.table = leAt l 6 2 ∧ r.version = leAt l 8 4 := by
  simp only [parseRoster] at h
  split at h
  · obtain rfl := Option.some.inj h
    exact ⟨rfl, rfl⟩
  · cases h

theorem rosterLoad_replaces (tk : Ticket) (hlen : bufLen c ≤ 32768) (hbuf : bufOk c false m = true) (hr : parseRoster (bufBytes c) = some r)
    (hsize : bufLen c = 64 + 16 * r.ents.length + 272)
    (hold : (m.dom.roster = none ∧ firstHost c = true) ∨ ∃ o, m.dom.roster = some o ∧ r.table = o.table ∧ o.version < r.version) :
    rosterLoad c tk m = okM (replaceRoster r m) := by
  have hargs : ¬ (decide (32768 < bufLen c) || !bufOk c false m) = true := by
    rw [hbuf]
    simpa using hlen
  simp only [rosterLoad]
  rw [if_neg hargs]
  simp only [hr]
  rw [if_neg (by simp [hsize])]
  obtain ⟨hnone, hfirst⟩ | ⟨o, ho, htable, hver⟩ := hold
  · simp only [hnone, hfirst, if_true]
  · simp only [ho]
    rw [if_neg (by simp [htable, hver])]

theorem Judged.dom (h : Judged m n) : n.dom = m.dom := samePiece_of_outside (p := .dom) h.outside (by decide)
theorem Judged.ownSeat (h : Judged m n) : Machine.ownSeat n = Machine.ownSeat m := h.kept.rd (by decide)
theorem Judged.bufOk (h : Judged m n) (w : Bool) : Machine.bufOk c w n = Machine.bufOk c w m := bufOk_of_events h.completable.events w

theorem Judged.ownKept (h : Judged m n) : Machine.ownKept r n = Machine.ownKept r m := by
  obtain ⟨ks, hks⟩ := h.sec
  simp only [Machine.ownKept, member, h.ownSeat, hks]

theorem ownKept_iff : ownKept r m = true ↔
    (member m = false ∨ r.ents.any (fun e => e.seat == ownSeat m && e.present && e.ldev == m.sec.ldev) = true) := by
  unfold ownKept
  cases member m <;> simp

theorem signed_bufOk {op : Nat} (h : Signed op c m) : bufOk c false m = true := by
  obtain ⟨-, -, -, -, -, -, -, -, -, hbuf, -⟩ := h
  exact hbuf

theorem rosterLoad_answers (ha : Awake s) (hs : Signed 0x0C01 c s.m) (hlen : bufLen c ≤ 32768) (hr : parseRoster (bufBytes c) = some r)
    (hsize : bufLen c = 64 + 16 * r.ents.length + 272)
    (hold : (s.m.dom.roster = none ∧ firstHost c = true) ∨ ∃ o, s.m.dom.roster = some o ∧ r.table = o.table ∧ o.version < r.version) :
    Answers (.rosterLoad c) s (fun n => n.dk = s.m.dk ∧ n.objs = s.m.objs ∧ Completed 0x0C01 stDone c s.m n ∧
      (ownKept r s.m = true → n.dom.roster = some r ∧ rd n F.DOM_TABLE_TABLE_ID = r.table ∧ rd n F.DOM_ROSTER_VER_VERSION = r.version) ∧
      (ownKept r s.m = false → Erased n)) := by
  refine admitted_answers rfl ha (.inr hs) (by decide) fun n hj => ⟨_, rosterLoad_replaces _ hlen ((hj.bufOk false).trans (signed_bufOk hs)) hr hsize (hj.dom ▸ hold),
    routed_replaceRoster r n, fun hdone => ⟨?_, ?_, hdone, fun hown => ?_, fun hown => ?_⟩⟩
  · have hdk : n.dk = s.m.dk := samePiece_of_outside (p := .dk) hj.outside (by decide)
    rw [final_dk, ← hdk]
    exact samePiece_of_outside (p := .dk) (replaceRoster_outside (ps := [.out, .hif, .clk, .tim, .ring, .sec, .dom, .block 0x1, .block 0x3, .block 0x4,
      .block 0x5, .block 0x8, .block 0x10]) rfl r n) (by decide)
  · have hobjs : n.objs = s.m.objs := samePiece_of_outside (p := .objs) hj.outside (by decide)
    rw [final_objs, ← hobjs]
    exact samePiece_of_outside (p := .objs) (replaceRoster_outside (ps := [.out, .hif, .clk, .tim, .ring, .sec, .dom, .block 0x1, .block 0x3, .block 0x4,
      .block 0x5, .block 0x8, .block 0x10]) rfl r n) (by decide)
  · obtain ⟨hroster, htable, hver⟩ := shown_final (tk := nowTicket 0x0C01 c s.m) (st := stDone)
      ((replaceRoster_keeps (hj.ownKept.trans hown)).shown (shown_rosterShown r n))
    obtain ⟨ht, hv⟩ := parseRoster_numbers hr
    refine ⟨hroster, htable.trans (Nat.mod_eq_of_lt ?_), hver.trans (Nat.mod_eq_of_lt ?_)⟩
    · exact ht ▸ leAt_lt ..
    · exact hv ▸ leAt_lt ..
  · rw [replaceRoster_erases (hj.ownKept.trans hown)]
    exact (eraseIdentity_erased _).final

/-! SEAT_ADMIT. -/

/-- The roster with a seat admitted. -/
def admitted (seat role ldev : Nat) (r : Roster) : Roster :=
  { r with version := r.version + 1, ents := putEntry { seat := seat, present := true, ldev := ldev } r.ents,
           spares := if role = 1 && !r.spares.contains seat then r.spares ++ [seat] else r.spares }

/-- The machine that shows an admission and offers the exchange to the peers it did not know. -/
def admissionShown (seat role ldev : Nat) (r : Roster) (m : Mach) : Mach :=
  forEach [0, 1] (fun p m => onlyIf (port m p).unknown (emit (.enrol p 1)) m) (unbar (showRole (rosterShown (admitted seat role ldev r) m)))

theorem admitSeat_eq (seat role ldev : Nat) (r : Roster) (m : Mach) : admitSeat seat role ldev r m =
    raise 0x17 0x1708 [(2, seat), (1, 0), (1, role), (4, r.version + 1), (8, ldev)] (admissionShown seat role ldev r m) := rfl

theorem managed_admissionShown (seat role ldev : Nat) (r : Roster) (m : Mach) :
    Managed (rosterShown (admitted seat role ldev r) m) (admissionShown seat role ldev r m) :=
  (managed_showRole _).trans <| (managed_unbar _).trans <| managed_forEach (fun _ _ _ => managed_onlyIf _ (managed_emit ..)) _

theorem routed_admissionShown (seat role ldev : Nat) (r : Roster) (m : Mach) : Routed m (admissionShown seat role ldev r m) :=
  (routed_rosterShown ..).trans (managed_admissionShown ..).routed

theorem routed_admitSeat (seat role ldev : Nat) (r : Roster) (m : Mach) : Routed m (admitSeat seat role ldev r m) := by
  rw [admitSeat_eq]
  exact (routed_admissionShown ..).trans (managed_raise ..).routed

theorem shown_admitSeat (seat role ldev : Nat) (r : Roster) (m : Mach) : Shown (admitted seat role ldev r) (admitSeat seat role ldev r m) := by
  rw [admitSeat_eq]
  exact ((managed_admissionShown ..).trans (managed_raise ..)).shown (shown_rosterShown ..)

theorem admitSeat_sec (seat role ldev : Nat) (r : Roster) (m : Mach) : (admitSeat seat role ldev r m).sec = m.sec :=
  samePiece_of_outside (p := .sec) (admitSeat_outside (ps := [.out, .hif, .ring, .dom, .block 0x1, .block 0x10]) rfl seat role ldev r m) (by decide)

/-- What a SEAT_ADMIT's record must say. -/
structure AdmitOk (l : List Byte) : Prop where
  length : l.length = 32
  seat : leAt l 0 2 ≤ 1023
  role : leAt l 2 1 ≤ 1
  zero : leAt l 3 1 = 0
  ldev : leAt l 16 8 ≠ 0
  rest : leAt l 24 8 = 0

/-- A package installed at the candidate. -/
def candInstalled (cand : Bool) (p : KeyPkg) (c : Cmd) (m : Mach) : Mach := if cand then installPkg p c m else m

theorem completable_candInstalled (cand : Bool) (p : KeyPkg) (c : Cmd) (m : Mach) : Completable m (candInstalled cand p c m) := by
  cases cand
  · exact .refl m
  · exact completable_installPkg p c m

variable {p : KeyPkg}

theorem admitCore_joins (own : Bool) (hl : AdmitOk (admitRec c)) (hp : pkgOf c = some p) (hr : m.dom.roster = some r)
    (hver : leAt (admitRec c) 4 4 = r.version + 1) (hok : leAt (admitRec c) 8 8 = idevId → pkgOk p m = true)
    (hfree : ∀ e, entryOf r (leAt (admitRec c) 0 2) = some e →
      e.present = false ∨ e.ldev = 0 ∨ (leAt (admitRec c) 8 8 = idevId ∧ e.ldev = leAt (admitRec c) 16 8))
    (hroom : leAt (admitRec c) 2 1 = 1 → r.spares.length < 8 ∨ r.spares.contains (leAt (admitRec c) 0 2) = true) :
    admitCore own c m = okM (admitSeat (leAt (admitRec c) 0 2) (leAt (admitRec c) 2 1) (leAt (admitRec c) 16 8) r
      (candInstalled (leAt (admitRec c) 8 8 == idevId) p c m)) := by
  obtain ⟨hlen, hseat, hrole, hzero, hldev, hrest⟩ := hl
  simp only [admitCore]
  rw [if_neg (by simp [hlen, hseat, hrole, hzero, hldev, hrest])]
  simp only [hp, hr]
  have hplace : ¬ (decide (leAt (admitRec c) 2 1 = 1) && decide (8 ≤ r.spares.length) && !r.spares.contains (leAt (admitRec c) 0 2)) = true := by
    simp only [Bool.and_eq_true, decide_eq_true_eq, Bool.not_eq_true']
    rintro ⟨⟨h1, h2⟩, h3⟩
    obtain h | h := hroom h1
    · omega
    · exact absurd (h3.symm.trans h) (by decide)
  refine (if_neg ?_).trans ((if_neg hplace).trans rfl)
  simp only [hver, bne_self_eq_false, Bool.false_or, Bool.or_eq_true, Bool.and_eq_true, beq_iff_eq, Bool.not_eq_true']
  rintro (htaken | ⟨hc, hbad⟩)
  · cases he : entryOf r (leAt (admitRec c) 0 2) with
    | none => simp [he] at htaken
    | some e => obtain h | h | ⟨h1, h2⟩ := hfree e he <;> simp [*] at htaken
  · exact absurd (hbad.symm.trans (hok hc)) (by decide)

theorem admitCore_alone (hl : AdmitOk (admitRec c)) (hp : pkgOf c = some p) (hr : m.dom.roster = none) (hc : leAt (admitRec c) 8 8 = idevId)
    (hok : pkgOk p m = true) : admitCore true c m = okM (installPkg p c m) := by
  obtain ⟨hlen, hseat, hrole, hzero, hldev, hrest⟩ := hl
  simp only [admitCore]
  rw [if_neg (by simp [hlen, hseat, hrole, hzero, hldev, hrest])]
  simp [hp, hr, hc, hok]

theorem seatAdmit_eq (tk : Ticket) (hbuf : bufOk c false m = true) (hlen : 304 ≤ bufLen c) : seatAdmit c tk m = admitCore (firstHost c) c m := by
  simp only [seatAdmit]
  rw [if_neg]
  simpa [hbuf] using hlen

theorem Judged.pkgOk (h : Judged m n) : Machine.pkgOk p n = Machine.pkgOk p m := by
  obtain ⟨ks, hks⟩ := h.sec
  simp only [Machine.pkgOk, hks]

theorem seatAdmit_answers (ha : Awake s) (hs : Signed 0x0C02 c s.m) (hlen : 304 ≤ bufLen c) (hp : pkgOf c = some p) (hl : AdmitOk (admitRec c))
    (hok : leAt (admitRec c) 8 8 = idevId → pkgOk p s.m = true) (hr : s.m.dom.roster = some r) (hver : leAt (admitRec c) 4 4 = r.version + 1)
    (hfree : ∀ e, entryOf r (leAt (admitRec c) 0 2) = some e →
      e.present = false ∨ e.ldev = 0 ∨ (leAt (admitRec c) 8 8 = idevId ∧ e.ldev = leAt (admitRec c) 16 8))
    (hroom : leAt (admitRec c) 2 1 = 1 → r.spares.length < 8 ∨ r.spares.contains (leAt (admitRec c) 0 2) = true) :
    Answers (.seatAdmit c) s (fun n => n.dom.roster = some (admitted (leAt (admitRec c) 0 2) (leAt (admitRec c) 2 1) (leAt (admitRec c) 16 8) r) ∧
      rd n F.DOM_ROSTER_VER_VERSION = r.version + 1 ∧ (leAt (admitRec c) 8 8 = idevId → n.sec.ldev = keyIdOf p.certKey) ∧
      Reported 0x17 0x1708 (reserve c s.m) n ∧ Completed 0x0C02 stDone c s.m n) := by
  refine admitted_answers rfl ha (.inr hs) (by decide) fun n hj => ⟨_, (seatAdmit_eq _ ((hj.bufOk false).trans (signed_bufOk hs)) hlen).trans
    (admitCore_joins (firstHost c) hl hp (hj.dom ▸ hr) hver (fun h => hj.pkgOk.trans (hok h)) hfree hroom),
    (completable_candInstalled ..).routed.trans (routed_admitSeat ..), fun hdone => ?_⟩
  have hnum : r.version + 1 < 2 ^ 32 := hver ▸ leAt_lt ..
  obtain ⟨hroster, -, hversion⟩ := shown_final (tk := nowTicket 0x0C02 c s.m) (st := stDone) (shown_admitSeat (leAt (admitRec c) 0 2)
    (leAt (admitRec c) 2 1) (leAt (admitRec c) 16 8) r (candInstalled (leAt (admitRec c) 8 8 == idevId) p c n))
  refine ⟨hroster, hversion.trans (Nat.mod_eq_of_lt hnum), fun hc => ?_, ?_, hdone⟩
  · rw [final_sec, admitSeat_sec, candInstalled, if_pos (beq_iff_eq.mpr hc)]
    exact (installPkg_holds p c n).1
  · rw [admitSeat_eq]
    exact reported_of_reserve (reported_then _ _ _ _ _ ((hj.completable.routed.trans ((completable_candInstalled ..).routed.trans
      (routed_admissionShown ..))).events.reported) (completable_final ..).events.out)

theorem seatAdmit_first (ha : Awake s) (hs : Signed 0x0C02 c s.m) (hlen : 304 ≤ bufLen c) (hp : pkgOf c = some p) (hl : AdmitOk (admitRec c))
    (hr : s.m.dom.roster = none) (hf : firstHost c = true) (hc : leAt (admitRec c) 8 8 = idevId) (hok : pkgOk p s.m = true) :
    Answers (.seatAdmit c) s (fun n => n.sec.ldev = keyIdOf p.certKey ∧ n.sec.deckKeys = p.decks.map keyIdOf ∧ n.dom.roster = none ∧
      rd n F.SEC_RING_KEY_NUMBER = p.ringKey % 2 ^ F.SEC_RING_KEY_NUMBER.width ∧ Completed 0x0C02 stDone c s.m n) := by
  refine admitted_answers rfl ha (.inr hs) (by decide) fun n hj => ⟨_, (seatAdmit_eq _ ((hj.bufOk false).trans (signed_bufOk hs)) hlen).trans
    (hf ▸ admitCore_alone hl hp (hj.dom ▸ hr) hc (hj.pkgOk.trans hok)), (completable_installPkg ..).routed, fun hdone => ?_⟩
  obtain ⟨hldev, hdeck, hnum⟩ := installPkg_holds p c n
  refine ⟨by rw [final_sec, hldev], by rw [final_sec, hdeck], ?_, (rd_congr _ _ _ (final_regs ..)).trans hnum, hdone⟩
  rw [final_dom, installPkg_dom, hj.dom, hr]

/-! SEAT_EVICT. -/

/-- The roster with a seat evicted. -/
def evicted (seat : Nat) (r : Roster) : Roster :=
  { r with version := r.version + 1, spares := r.spares.erase seat,
           ents := r.ents.map (fun e => if e.seat = seat then { e with present := false } else e) }

/-- The machine that shows an eviction. -/
def evictionShown (seat : Nat) (r : Roster) (m : Mach) : Mach := showRole (showRoster (rosterHeld (evicted seat r) m))

theorem shown_evictionShown (seat : Nat) (r : Roster) (m : Mach) : Shown (evicted seat r) (evictionShown seat r m) :=
  (managed_showRole _).shown (shown_showRoster rfl)

theorem routed_evictionShown (seat : Nat) (r : Roster) (m : Mach) : Routed m (evictionShown seat r m) :=
  (routed_rosterHeld ..).trans <| (routed_showRoster _).trans (managed_showRole _).routed

/-- The trio after an eviction: the seat that was evicted is fenced. -/
def seatFenced (seat : Nat) (m : Mach) : Mach :=
  match (List.range 3).find? (fun j => trioAt m j == seat) with
  | some j => fence j 4 m
  | none => m

theorem managed_seatFenced (seat : Nat) (m : Mach) : Managed m (seatFenced seat m) := by
  unfold seatFenced
  split
  · exact managed_fence ..
  · exact .refl m

theorem seatEvict_evicts (tk : Ticket) {seat : Nat} (hseat : seat = leAt (bufBytes c) 0 2) (hr : m.dom.roster = some r) (hbuf : bufOk c false m = true)
    (hlen : bufLen c = 280) (hzero : leAt (bufBytes c) 2 2 = 0) (hver : leAt (bufBytes c) 4 4 = r.version + 1)
    (hthere : r.ents.any (fun e => e.seat == seat && e.present) = true) : ∃ pay,
      seatEvict c tk m = if seat = ownSeat m then okM (eraseIdentity (seatFenced seat (raise 0x17 0x1708 pay (evictionShown seat r m))))
        else okM (judgePeers (some r) (seatFenced seat (raise 0x17 0x1708 pay (evictionShown seat r m)))) := by
  subst hseat
  refine ⟨[(2, leAt (bufBytes c) 0 2), (1, 1), (1, if r.spares.contains (leAt (bufBytes c) 0 2) then 1 else 0), (4, r.version + 1),
    (8, ((entryOf r (leAt (bufBytes c) 0 2)).map RosterEnt.ldev).getD 0)], ?_⟩
  simp only [seatEvict, hr]
  rw [if_neg (by simp [hbuf, hlen, hzero, hver, hthere])]
  rfl

theorem seatEvict_answers (ha : Awake s) (hs : Signed 0x0C03 c s.m) {seat : Nat} (hseat : seat = leAt (bufBytes c) 0 2) (hr : s.m.dom.roster = some r)
    (hlen : bufLen c = 280) (hzero : leAt (bufBytes c) 2 2 = 0) (hver : leAt (bufBytes c) 4 4 = r.version + 1)
    (hthere : r.ents.any (fun e => e.seat == seat && e.present) = true) :
    Answers (.seatEvict c) s (fun n => Reported 0x17 0x1708 (reserve c s.m) n ∧ Completed 0x0C03 stDone c s.m n ∧ (seat = ownSeat s.m → Erased n) ∧
      (seat ≠ ownSeat s.m → rd n F.DOM_ROSTER_VER_VERSION = r.version + 1 ∧ n.dom.roster = some (evicted seat r))) := by
  have hnum : r.version + 1 < 2 ^ 32 := hver ▸ leAt_lt ..
  by_cases hown : seat = ownSeat s.m
  · refine admitted_answers rfl ha (.inr hs) (by decide) fun n hj => ?_
    obtain ⟨pay, hrun⟩ := seatEvict_evicts (nowTicket 0x0C03 c s.m) hseat (hj.dom ▸ hr) ((hj.bufOk false).trans (signed_bufOk hs)) hlen hzero hver hthere
    rw [if_pos (hj.ownSeat ▸ hown)] at hrun
    have hafter := (managed_seatFenced seat (raise 0x17 0x1708 pay (evictionShown seat r n))).routed.trans (routed_eraseIdentity _)
    refine ⟨_, hrun, ((routed_evictionShown ..).trans (managed_raise ..).routed).trans hafter, fun hdone => ⟨?_, hdone, fun _ =>
      (eraseIdentity_erased _).final, fun h => absurd hown h⟩⟩
    exact reported_of_reserve (reported_then _ _ _ _ _ ((hj.completable.routed.trans (routed_evictionShown ..)).events.reported)
      (hafter.events.trans (completable_final ..).events).out)
  · refine admitted_answers rfl ha (.inr hs) (by decide) fun n hj => ?_
    obtain ⟨pay, hrun⟩ := seatEvict_evicts (nowTicket 0x0C03 c s.m) hseat (hj.dom ▸ hr) ((hj.bufOk false).trans (signed_bufOk hs)) hlen hzero hver hthere
    rw [if_neg (hj.ownSeat ▸ hown)] at hrun
    have hafter := (managed_seatFenced seat (raise 0x17 0x1708 pay (evictionShown seat r n))).trans (managed_judgePeers (some r) _)
    refine ⟨_, hrun, ((routed_evictionShown ..).trans (managed_raise ..).routed).trans hafter.routed, fun hdone => ⟨?_, hdone, fun h => absurd h hown,
      fun _ => ?_⟩⟩
    · exact reported_of_reserve (reported_then _ _ _ _ _ ((hj.completable.routed.trans (routed_evictionShown ..)).events.reported)
        (hafter.routed.events.trans (completable_final ..).events).out)
    · obtain ⟨hroster, -, hversion⟩ := shown_final (tk := nowTicket 0x0C03 c s.m) (st := stDone)
        (((managed_raise 0x17 0x1708 pay (evictionShown seat r n)).trans hafter).shown (shown_evictionShown seat r n))
      exact ⟨hversion.trans (Nat.mod_eq_of_lt hnum), hroster⟩

theorem Erased.all (h : Erased n) : n.dom.roster = none ∧ n.sec.ldev = 0 ∧ rd n F.DOM_STATE_SEAT = 0xFFFE ∧ rd n F.DOM_STATE_ROLE = 0 :=
  ⟨h.roster, h.ldev, h.seat, h.role⟩

end Rosters

/-- Settles O42: each command by its lemma above. -/
theorem rosterChanges : Obligations.RosterChanges := by
  intro c s ha
  refine ⟨fun r hs hlen hr hsize hold => ?_, fun p hs hlen hp h1 h2 h3 h4 h5 h6 hok => ⟨fun r hr hver hfree hroom => ?_, fun hr hf hc => ?_⟩,
    fun r hs hr hlen hzero hver hthere => ?_⟩
  · obtain ⟨t, hexec, hpend, hdk, hobjs, hdone, hkeep, herase⟩ := rosterLoad_answers ha hs hlen hr hsize hold
    exact ⟨t, hexec, hpend, hdk, hobjs, hdone, fun h => hkeep (ownKept_iff.mpr h),
      fun h => (herase (Bool.not_eq_true _ ▸ ownKept_iff.not.mpr h)).all⟩
  · exact seatAdmit_answers ha hs hlen hp ⟨h1, h2, h3, h4, h5, h6⟩ hok hr hver hfree hroom
  · exact seatAdmit_first ha hs hlen hp ⟨h1, h2, h3, h4, h5, h6⟩ hr hf hc (hok hc)
  · obtain ⟨t, hexec, hpend, hrep, hdone, herase, hkeep⟩ := seatEvict_answers ha hs rfl hr hlen hzero hver hthere
    exact ⟨t, hexec, hpend, hrep, hdone, fun h => (herase h).all, hkeep⟩

end Sys2Proof.Machine
end

section
/-! The trio (15 R415, R416, R419, R420, R424): a member's record, a fencing, the active manager, an autonomous worker and a spare that joins. -/
namespace Sys2Proof.Machine

section Trio
variable {s : State} {m n : Mach} {ks : List Nat} {j d : Nat} {r : DigRec} {x : Copy}

/-! The seats of the trio. -/

/-- The registers of the trio's seats. -/
def trioFlds : List Fld := [F.DOM_TRIO_SEAT01_SEAT0, F.DOM_TRIO_SEAT01_SEAT1, F.DOM_TRIO_SEAT2_SEAT2]

theorem trioAt_kept (h : Kept ks m n) (hk : ∀ f ∈ trioFlds, fkey f 0 0 ∉ ks) (j : Nat) : trioAt n j = trioAt m j := by
  simp only [trioAt, trioSeats, h.rd (hk _ (by decide : F.DOM_TRIO_SEAT01_SEAT0 ∈ trioFlds)), h.rd (hk _ (by decide : F.DOM_TRIO_SEAT01_SEAT1 ∈ trioFlds)),
    h.rd (hk _ (by decide : F.DOM_TRIO_SEAT2_SEAT2 ∈ trioFlds))]

theorem trioAt_setTrio (hj : j < 3) (v : Nat) (m : Mach) : trioAt (setTrio j v m) j = v % 2 ^ 16 := by
  match j, hj with
  | 0, _ => exact rd_wr_self (f := F.DOM_TRIO_SEAT01_SEAT0) ..
  | 1, _ => exact rd_wr_self (f := F.DOM_TRIO_SEAT01_SEAT1) ..
  | 2, _ => exact rd_wr_self (f := F.DOM_TRIO_SEAT2_SEAT2) ..

theorem kept_setTrio (j v : Nat) (m : Mach) : Kept (trioFlds.map (fkey · 0 0)) m (setTrio j v m) := by
  unfold setTrio
  split
  · exact kept_wr _ _ (by decide)
  · split
    · exact kept_wr _ _ (by decide)
    · exact kept_wr _ _ (by decide)

/-! The active manager. -/

/-- Where a new view of the active manager writes registers. -/
def activeKeys : List Nat := fkey F.DOM_TRIO_SEAT2_ACTIVE 0 0 :: fkey F.DOM_STATE_ROLE 0 0 :: seamKeys

theorem kept_showRole (m : Mach) : Kept [fkey F.DOM_STATE_ROLE 0 0] m (showRole m) := kept_wr _ _ (List.mem_singleton_self _)

theorem kept_setDom (x : Dom) (m : Mach) : Kept ks m (setDom x m) := .of_eq rfl rfl rfl rfl

theorem kept_setActive (seat : Nat) (m : Mach) : Kept activeKeys m (setActive seat m) := by
  rw [setActive_eq]
  exact (kept_setDom ..).trans <| (kept_wr _ _ (by decide)).trans <| ((kept_showSeam _).mono (by decide)).trans ((kept_showRole _).mono (by decide))

theorem setActive_dom (seat : Nat) (m : Mach) : (setActive seat m).dom = (activeNoted m).dom := rfl

theorem activeMgr_setActive (seat : Nat) (m : Mach) : activeMgr (setActive seat m) = seat % 2 ^ 16 := by
  rw [setActive_eq, activeShown, activeMgr, (kept_showRole _).rd (by decide), (kept_showSeam _).rd (by decide), rd_wr_self]
  rfl

/-! A member's record (R416). -/

/-- What this device knows by the records: the other members, the last record of a managing one, and the roster. -/
def books (m : Mach) : SMap Peer × Nat × Option Roster := (m.dom.peers, m.dom.lastRec, m.dom.roster)

theorem books_of_dom (h : n.dom = m.dom) : books n = books m := by simp only [books, h]

theorem books_endSource (m : Mach) : books (endSource m) = books m := books_of_dom (endSource_dom m)

theorem books_startCopy (idx : Option Nat) (src restarts : Nat) (m : Mach) : books (startCopy idx src restarts m) = books m := by
  unfold startCopy
  split
  · rfl
  · exact (books_of_dom (sendTrio_dom ..)).trans rfl

theorem books_judgeScene (r : DigRec) (m : Mach) : books (judgeScene r m) = books m := by
  unfold judgeScene
  split
  · rfl
  · split
    · rfl
    · dsimp only
      split
      · rfl
      · split
        · exact (onlyIf_keep books _ _ _ (books_startCopy ..)).trans rfl
        · rfl

theorem books_judgeCopy (r : DigRec) (m : Mach) : books (judgeCopy r m) = books m := by
  unfold judgeCopy
  split
  · rfl
  · split <;> rfl

/-- A member as its record shows it. -/
def peerHeard (r : DigRec) (m : Mach) : Peer :=
  let p := peer m r.idx
  let run := if p.last + 1 = r.deal then p.run + 1 else if p.last = r.deal then p.run else 1
  { p with est := p.est || decide (rd m F.DOM_TRIO_REACH_DEALS ≤ run), last := max p.last r.deal, run := run,
           digs := (mput r.deal r.d p.digs).filter (fun q => r.deal ≤ q.1 + 8), flags := r.flags, reach := r.reach }

/-- The digests that a record relays, with those heard before. -/
def relayedHeard (r : DigRec) (m : Mach) : SMap Nat :=
  let rel (t : SMap Nat) (k v : Nat) : SMap Nat := if v = 0 then t else mput ((r.deal - 1) * 4 + k) v t
  (rel (rel m.dom.relayed ((r.idx + 1) % 3) r.d1) ((r.idx + 2) % 3) r.d2).filter (fun q => r.deal ≤ q.1 / 4 + 8)

/-- The machine that has booked a record. -/
def recordBooked (r : DigRec) (m : Mach) : Mach :=
  setDom { m.dom with peers := mput r.idx (peerHeard r m) m.dom.peers, relayed := relayedHeard r m,
                      lastRec := if r.flags.testBit 0 then m.deal else m.dom.lastRec } m

/-- The machine that follows the active manager of a record. -/
def managerHeard (act : Bool) (seat : Nat) (m : Mach) : Mach :=
  if act && activeMgr m != seat then setActive seat (if activeMgr m == ownSeat m then endSource m else m) else m

/-- The machine whose autonomy a managing member's record ends. -/
def autonomyEnded (act : Bool) (m : Mach) : Mach :=
  if act && flag m F.DOM_STATE_AUTONOMOUS then raise 0x17 0x1705 [(1, 1), (3, 0), (4, m.deal - m.dom.autoAt), (8, 0)] (wr F.DOM_STATE_AUTONOMOUS 0 m) else m

theorem books_setActive (seat : Nat) (m : Mach) : books (setActive seat m) = books m := rfl

theorem books_managerHeard (act : Bool) (seat : Nat) (m : Mach) : books (managerHeard act seat m) = books m := by
  unfold managerHeard
  split
  · rw [books_setActive]
    split
    · exact books_endSource m
    · rfl
  · rfl

theorem books_autonomyEnded (act : Bool) (m : Mach) : books (autonomyEnded act m) = books m := by
  unfold autonomyEnded
  split <;> rfl

/-- Whether a record is the active manager's. -/
def fromActive (r : DigRec) : Bool := r.flags.testBit 0 && r.flags.testBit 1

/-- The machine that a record has reached. -/
def recordHeard (r : DigRec) (m : Mach) : Mach := autonomyEnded (fromActive r) (managerHeard (fromActive r) r.sender (recordBooked r m))

theorem books_recordHeard (r : DigRec) (m : Mach) : books (recordHeard r m) =
    (mput r.idx (peerHeard r m) m.dom.peers, if r.flags.testBit 0 then m.deal else m.dom.lastRec, m.dom.roster) := by
  rw [recordHeard, books_autonomyEnded, books_managerHeard]
  rfl

theorem digestReceive_eq (hr : m.dom.roster.isSome = true) (hi : r.idx ≤ 2) (ho : r.idx ≠ ownIdx m) (hno : m.dom.noSpare.contains r.sender = false)
    (ht : trioAt m r.idx = r.sender) (hs : r.sender < 0xFFFF) (hb : boundSeat m r.sender = true) : digestReceive r m =
      judgeCopy r (if fromActive r && ownIdx (recordHeard r m) = 3 then judgeScene r (recordHeard r m) else recordHeard r m) := by
  have hargs : ¬ (m.dom.roster.isNone || decide (2 < r.idx) || decide (r.idx = ownIdx m) || m.dom.noSpare.contains r.sender ||
      (trioAt m r.idx != 0xFFFF && trioAt m r.idx != r.sender) || !boundSeat m r.sender) = true := by
    rw [hno, hb, ht]
    simp [Option.isSome_iff_ne_none.mp hr, Nat.not_lt.mpr hi, ho]
  have hseat : ¬ trioAt m r.idx = 0xFFFF := by omega
  unfold digestReceive
  rw [if_neg hargs, if_neg hseat]
  rfl

theorem digestReceive_books (hr : m.dom.roster.isSome = true) (hi : r.idx ≤ 2) (ho : r.idx ≠ ownIdx m) (hno : m.dom.noSpare.contains r.sender = false)
    (ht : trioAt m r.idx = r.sender) (hs : r.sender < 0xFFFF) (hb : boundSeat m r.sender = true) :
    books (digestReceive r m) =
      (mput r.idx (peerHeard r m) m.dom.peers, if r.flags.testBit 0 then m.deal else m.dom.lastRec, m.dom.roster) := by
  rw [digestReceive_eq hr hi ho hno ht hs hb, books_judgeCopy, ← books_recordHeard]
  split
  · exact books_judgeScene ..
  · rfl

theorem digestRecordReceive_answers (ha : Awake s) (hr : s.m.dom.roster.isSome = true) (hi : r.idx ≤ 2) (ho : r.idx ≠ ownIdx s.m)
    (hno : s.m.dom.noSpare.contains r.sender = false) (ht : trioAt s.m r.idx = r.sender) (hs : r.sender < 0xFFFF) (hb : boundSeat s.m r.sender = true) :
    Answers (.digestRecordReceive r) s (fun n => (peer n r.idx).last = max (peer s.m r.idx).last r.deal ∧ (peer n r.idx).reach = r.reach ∧
      (peer n r.idx).flags = r.flags ∧ (r.flags.testBit 0 = true → n.dom.lastRec = s.m.deal) ∧ n.dom.roster = s.m.dom.roster) := by
  have hbooks := digestReceive_books hr hi ho hno ht hs hb
  refine answers_mach _ s (digestReceive r) _ rfl ha ?_
  simp only [books, Prod.mk.injEq] at hbooks
  obtain ⟨hpeers, hlast, hroster⟩ := hbooks
  have hpeer : peer (digestReceive r s.m) r.idx = peerHeard r s.m := by rw [peer, hpeers, mget_mput_self]
  rw [hpeer]
  exact ⟨rfl, rfl, rfl, fun h => hlast.trans (if_pos h), hroster⟩

/-! A fencing (R415). -/

/-- Where what follows a fencing writes registers. -/
def leaveKeys : List Nat := fkey F.DOM_STATE_TRIO_IDX 0 0 :: fkey F.DOM_STATE_MANAGING 0 0 :: fkey F.DOM_STATE_WAITING 0 0 :: fkey F.DOM_STATE_FROZEN 0 0 ::
  fkey F.DOM_STATE_ROLE 0 0 :: fkey F.DOM_STATE_COPYING 0 0 :: fkey F.TIM_STATE_SOURCE 0 0 :: fkey F.CLK_STATE_SOURCE 0 0 :: timeLostKeys

theorem kept_leaveTrio (m : Mach) : Kept leaveKeys m (leaveTrio m) := by
  rw [leaveTrio_eq]
  exact ((kept_endSource m).mono (by decide)).trans <| (kept_wr _ _ (by decide)).trans <| (kept_wr _ _ (by decide)).trans <|
    (kept_wr _ _ (by decide)).trans <| (kept_wr _ _ (by decide)).trans <| (kept_setDom ..).trans <| ((kept_showRole _).mono (by decide)).trans
    ((kept_startCopy ..).mono (by decide))

theorem kept_afterFence (seat own j : Nat) (m : Mach) : Kept leaveKeys m (afterFence seat own j m) := by
  unfold afterFence
  split
  · exact kept_leaveTrio m
  · split
    · exact (kept_startCopy ..).mono (by decide)
    · exact .refl m

/-- What a fencing leaves unwritten after the index is vacant: all but its event, the active manager and what follows. -/
theorem kept_fenced (hs : trioAt m j ≠ 0xFFFF) (cause : Nat) : Kept (discardKey :: (activeKeys ++ leaveKeys)) (indexVacant j m) (fence j cause m) := by
  rw [fence_eq hs]
  exact ((kept_onlyIf _ (kept_setActive ..)).mono (by decide)).trans <| (kept_raise _ _ _ _ (List.mem_cons_self ..)).trans
    ((kept_afterFence ..).mono (by decide))

theorem fence_fences (hj : j < 3) (hs : trioAt m j ≠ 0xFFFF) (cause : Nat) : trioAt (fence j cause m) j = 0xFFFF ∧
    rd (fence j cause m) F.DOM_FLAGS_FENCED = 1 ∧
    rd (fence j cause m) F.DOM_FENCE_CNT_COUNT = min (2 ^ F.DOM_FENCE_CNT_COUNT.width - 1) (rd m F.DOM_FENCE_CNT_COUNT + 1) ∧
    Reported 0x17 0x1702 m (fence j cause m) := by
  have hkept := kept_fenced hs cause
  refine ⟨?_, ?_, ?_, ?_⟩
  · rw [trioAt_kept hkept (by decide), indexVacant, trioAt_setTrio hj]
    rfl
  · rw [hkept.rd (by decide), indexVacant, (kept_setTrio ..).rd (by decide), rd_wr_self]
    rfl
  · rw [hkept.rd (by decide), indexVacant, (kept_setTrio ..).rd (by decide), rd_wr_ne _ _ _ _ (by decide), rd_bump_self]
    exact Nat.mod_eq_of_lt (Nat.lt_of_le_of_lt (Nat.min_le_left ..) (by decide))
  · rw [fence_eq hs]
    exact reported_then _ _ _ _ _ (managed_memberFenced j m).routed.events.reported (kept_afterFence ..).out

theorem reachTimeout_answers (ha : Awake s) (hj : j < 3) (ht : trioAt s.m j ≠ 0xFFFF) (ho : j ≠ ownIdx s.m) (hi : ownIdx s.m ≠ 3)
    (hm : managing s.m = true) (hd : directly s.m j = false) (hb : byRelay s.m j = false) :
    Answers (.reachTimeout j) s (fun n => trioAt n j = 0xFFFF ∧ rd n F.DOM_FLAGS_FENCED = 1 ∧
      rd n F.DOM_FENCE_CNT_COUNT = min (2 ^ F.DOM_FENCE_CNT_COUNT.width - 1) (rd s.m F.DOM_FENCE_CNT_COUNT + 1) ∧ Reported 0x17 0x1702 s.m n) := by
  have hrun : reachTimeout j s.m = fence j 2 s.m := by
    simp [reachTimeout, Nat.not_le.mpr hj, ht, ho, hi, hm, hd, hb, onlyIf]
  refine answers_mach _ s (reachTimeout j) _ rfl ha ?_
  rw [hrun]
  exact fence_fences hj ht 2

/-! The active manager changes (R419). -/

/-- Where a device that becomes the time source writes registers. -/
def becomeKeys : List Nat := dropKeys ++ stopSlewKeys ++ sourceKeys ++ [fkey F.TIM_STATE_SOURCE_SEAT 0 0, fkey F.TIM_GEN_GEN 0 0,
  fkey F.TIM_STATE_LOCKED 0 0, fkey F.TIM_STATE_HOLD 0 0]

/-- The machine that is about to give the time. -/
def sourceNamed (m : Mach) : Mach :=
  wr F.TIM_STATE_SOURCE_SEAT (ownSeat m) (wr F.TIM_GEN_GEN ((rd m F.TIM_GEN_GEN + 1) % 2 ^ 16) (stopSlew (dropCand4 m)))

/-- The machine that goes on as the source of a time that it has had. -/
def sourceTaken (m : Mach) : Mach := wr F.TIM_STATE_LOCKED 1 (wr F.TIM_STATE_HOLD 0 (wr F.TIM_STATE_SOURCE 1 (wr F.CLK_STATE_SOURCE 1 m)))

theorem becomeSource_eq (m : Mach) : becomeSource m = if flag m F.TIM_STATE_SOURCE || rd m F.TIM_CTRL_MODE != 0 then m
    else if flag m F.TIM_STATE_EVER_LOCKED then sourceTaken (sourceNamed m) else sourceBegin (sourceNamed m) := rfl

theorem kept_sourceNamed (m : Mach) : Kept becomeKeys m (sourceNamed m) :=
  ((kept_dropCand4 m).mono (by decide)).trans <| ((kept_stopSlew _).mono (by decide)).trans <| (kept_wr _ _ (by decide)).trans (kept_wr _ _ (by decide))

theorem kept_becomeSource (m : Mach) : Kept becomeKeys m (becomeSource m) := by
  rw [becomeSource_eq]
  split
  · exact .refl m
  · split
    · exact (kept_sourceNamed m).trans <| (kept_wr _ _ (by decide)).trans <| (kept_wr _ _ (by decide)).trans <| (kept_wr _ _ (by decide)).trans
        (kept_wr _ _ (by decide))
    · exact (kept_sourceNamed m).trans ((kept_sourceBegin _).mono (by decide))

theorem becomeSource_source (hm : rd m F.TIM_CTRL_MODE = 0) : rd (becomeSource m) F.TIM_STATE_SOURCE = 1 := by
  rw [becomeSource_eq]
  split
  case isTrue h => simpa [hm, flag] using h
  case isFalse =>
    split
    · rw [sourceTaken, rd_wr_ne _ _ _ _ (by decide), rd_wr_ne _ _ _ _ (by decide), rd_wr_self]
      rfl
    · exact sourceBegin_source _

theorem activeChange_answers (ha : Awake s) (hi : ownIdx s.m ≠ 3) (hm : managing s.m = true) (hact : activeMgr s.m = 0xFFFF)
    (hseat : ownSeat s.m < 0xFFFF)
    (hlow : (List.range (ownIdx s.m)).any (fun k => directly s.m k && k != ownIdx s.m && (peer s.m k).flags.testBit 0) = false) :
    Answers .activeChange s (fun n => activeMgr n = ownSeat s.m ∧ (rd s.m F.TIM_CTRL_MODE = 0 → rd n F.TIM_STATE_SOURCE = 1) ∧
      Reported 0x17 0x1706 s.m n) := by
  have hrun : activeChange s.m = raise 0x17 0x1706 [(2, s.m.dom.wasActive), (2, ownSeat s.m), (1, ownIdx s.m), (3, 0), (8, 0)]
      (becomeSource (setActive (ownSeat s.m) s.m)) := by
    simp only [activeChange]
    rw [if_neg]
    rw [hlow]
    simp [hi, hm, hact]
  refine answers_mach _ s activeChange _ rfl ha ?_
  rw [hrun]
  refine ⟨?_, fun hmode => ?_, ?_⟩
  · rw [activeMgr, rd_raise _ _ _ _ _ (by decide), (kept_becomeSource _).rd (by decide +kernel)]
    exact (activeMgr_setActive ..).trans (Nat.mod_eq_of_lt (by omega))
  · rw [rd_raise _ _ _ _ _ (by decide)]
    exact becomeSource_source (((kept_setActive ..).rd (by decide)).trans hmode)
  · exact ((managed_setActive ..).routed.events.trans ((kept_becomeSource _).events (by decide +kernel))).reported

/-! A worker without records (R420), and a spare that joins (R424). -/

/-- The machine of a worker that knows no active manager. -/
def managerLost (m : Mach) : Mach := setActive 0xFFFF (setDom { m.dom with autoAt := m.deal } m)

theorem autonomousEnter_answers (ha : Awake s) (hm : member s.m = true) (hi : ownIdx s.m = 3) (hf : flag s.m F.DOM_STATE_AUTONOMOUS = false)
    (hd : s.m.dom.lastRec + rd s.m F.DOM_TRIO_AUTO_DEALS ≤ s.m.deal) :
    Answers .autonomousEnter s (fun n => rd n F.DOM_STATE_AUTONOMOUS = 1 ∧ rd n F.DOM_FLAGS_AUTONOMOUS = 1 ∧ activeMgr n = 0xFFFF ∧
      n.dom.autoAt = s.m.deal ∧ Reported 0x17 0x1705 s.m n) := by
  have hrun : autonomousEnter s.m = raise 0x17 0x1705 [(1, 0), (3, 0), (4, 0), (8, 0)]
      (wr F.DOM_STATE_AUTONOMOUS 1 (wr F.DOM_FLAGS_AUTONOMOUS 1 (managerLost s.m))) := by
    rw [autonomousEnter, if_pos (by simp [hm, hi, hf, hd])]
    rfl
  have hlost : EventsKept s.m (managerLost s.m) := (routed_setDom ..).events.trans (managed_setActive ..).routed.events
  refine answers_mach _ s autonomousEnter _ rfl ha ?_
  rw [hrun]
  refine ⟨?_, ?_, ?_, rfl, ((hlost.trans (eventsKept_wr _ _ (by decide))).trans (eventsKept_wr _ _ (by decide))).reported⟩
  · rw [rd_raise _ _ _ _ _ (by decide), rd_wr_self]
    rfl
  · rw [rd_raise _ _ _ _ _ (by decide), rd_wr_ne _ _ _ _ (by decide), rd_wr_self]
    rfl
  · rw [activeMgr, rd_raise _ _ _ _ _ (by decide), rd_wr_ne _ _ _ _ (by decide), rd_wr_ne _ _ _ _ (by decide)]
    exact activeMgr_setActive ..

/-- The machine of a spare that has taken an index. -/
def indexTaken (j : Nat) (m : Mach) : Mach := setTrio j (ownSeat m) (wr F.DOM_STATE_TRIO_IDX j (setDom { m.dom with copy := none } m))

theorem kept_indexTaken (j : Nat) (m : Mach) : Kept (fkey F.DOM_STATE_TRIO_IDX 0 0 :: trioFlds.map (fkey · 0 0)) m (indexTaken j m) :=
  (kept_setDom ..).trans <| (kept_wr _ _ (List.mem_cons_self ..)).trans ((kept_setTrio ..).mono (List.subset_cons_self ..))

theorem indexTaken_copy (j : Nat) (m : Mach) : (indexTaken j m).dom.copy = none := by
  unfold indexTaken setTrio
  split
  · rfl
  · split <;> rfl

theorem spareJoin_answers (ha : Awake s) (hc : s.m.dom.copy = some x) (hx : x.idx = some j) (hj : j < 3) (hl : x.loaded = some d) (he : 2 ≤ x.eqRun)
    (ht : trioAt s.m j = 0xFFFF) (hs : ownSeat s.m < 0xFFFF) :
    Answers .spareJoin s (fun n => trioAt n j = ownSeat s.m ∧ ownIdx n = j ∧ n.dom.copy = none ∧ Reported 0x17 0x1703 s.m n) := by
  have hrun : spareJoin s.m = raise 0x17 0x1703 [(2, ownSeat s.m), (1, j), (1, 0), (2, x.src), (2, min 0xFFFF x.restarts), (8, d)]
      (showCopying (showRole (indexTaken j s.m))) := by
    simp only [spareJoin, hc, hx, hl]
    rw [if_pos (by simp [he, ht])]
    rfl
  have hshown : Kept [fkey F.DOM_STATE_ROLE 0 0, fkey F.DOM_STATE_COPYING 0 0] (indexTaken j s.m) (showCopying (showRole (indexTaken j s.m))) :=
    ((kept_showRole _).mono (by decide)).trans (kept_wr _ _ (by decide))
  have htold : Kept [discardKey, fkey F.DOM_STATE_ROLE 0 0, fkey F.DOM_STATE_COPYING 0 0] (indexTaken j s.m) (spareJoin s.m) := by
    rw [hrun]
    exact (hshown.mono (by decide)).trans (kept_raise _ _ _ _ (by decide))
  refine answers_mach _ s spareJoin _ rfl ha ⟨?_, ?_, ?_, ?_⟩
  · rw [trioAt_kept htold (by decide), indexTaken, trioAt_setTrio hj]
    exact Nat.mod_eq_of_lt (by omega)
  · rw [ownIdx, htold.rd (by decide), indexTaken, (kept_setTrio ..).rd (by decide), rd_wr_self]
    exact Nat.mod_eq_of_lt (Nat.lt_trans hj (by decide))
  · rw [hrun]
    exact indexTaken_copy j s.m
  · rw [hrun]
    exact (((kept_indexTaken j s.m).events (by decide)).trans (hshown.events (by decide))).reported

end Trio

/-- Settles O43: each row by its lemma above. -/
theorem trioRuns : Obligations.TrioRuns := fun _ ha =>
  ⟨fun _ hr hi ho hno ht hs hb => digestRecordReceive_answers ha hr hi ho hno ht hs hb,
    fun _ hj ht ho hi hm hd hb => reachTimeout_answers ha hj ht ho hi hm hd hb,
    fun hi hm hact hseat hlow => activeChange_answers ha hi hm hact hseat hlow,
    fun hm hi hf hd => autonomousEnter_answers ha hm hi hf hd,
    fun _ _ _ hc hx hj hl he ht hs => spareJoin_answers ha hc hx hj hl he ht hs⟩

end Sys2Proof.Machine
end

section
/-! Keys and boot images (16 R435-R450): KEY_ROTATE, the enrolment exchange, the grace of the previous ring key, and the staging of an image. -/
namespace Sys2Proof.Machine

/-! Effects that do not end in DONE. -/

section Effects
variable {m n n' : Mach} {op st q : Nat} {eff : Eff} {c : Cmd}

theorem runEff_status (hq : c.src = .ring q) (hst : st ≠ stDone) (hn : eff c (nowTicket op c m) n = (n', { st := some st })) :
    runEff eff ⟨c, nowTicket op c m⟩ n = final (nowTicket op c m) st n' := by
  simp only [runEff, hn, hst, if_false]
  exact finalWith_ring_nil _ _ _ _ q hq

theorem runEff_silent (hn : eff c (nowTicket op c m) n = (n', { st := none })) : runEff eff ⟨c, nowTicket op c m⟩ n = n' := by simp only [runEff, hn]

end Effects

section Keys
variable {s : State} {m n : Mach} {c : Cmd} {l : List Byte} {tk : Ticket}

theorem Judged.ownEntry (h : Judged m n) : Machine.ownEntry c n = Machine.ownEntry c m := by simp only [Machine.ownEntry, h.ownSeat]

theorem Judged.rotateOk (h : Judged m n) : Machine.rotateOk c n = Machine.rotateOk c m := by
  simp only [Machine.rotateOk, h.bufOk, forSelf, member, h.ownSeat, h.kept.rd (f := F.SEC_RING_KEY_NUMBER) (by decide)]

theorem Judged.debugBit (h : Judged m n) : flag n F.SEC_STATE_DEBUG = flag m F.SEC_STATE_DEBUG := by rw [flag, h.kept.rd (by decide), flag]

theorem Judged.ringSec (h : Judged m n) : (Machine.ringSec n).prevKey = (Machine.ringSec m).prevKey := by
  simp only [Machine.ringSec, h.kept.rd (f := F.SEC_RING_KEY_NUMBER) (by decide), h.kept.rd (f := F.SEC_CTRL_KEY_GRACE_S) (by decide), h.completable.deal]

/-! The ring key (R448, R449). -/

/-- The MKPDUs that a new ring key sends. -/
def ringHellos (m : Mach) : Mach := forEach [0, 1] (fun p m => onlyIf (linkUp m p) (sendMkpdu p) m) m

theorem sendMkpdu_pace (p : Nat) (m : Mach) : pace (sendMkpdu p m) = pace m := by
  rw [sendMkpdu, toEgress_keep pace_sendKeeps, setPort_pace, emit_pace]

theorem kept_ringHellos (m : Mach) : Kept floodKeys m (ringHellos m) :=
  kept_forEach (fun p hp n => kept_onlyIf _ ((kept_sendMkpdu p n).mono ((by decide +kernel : ∀ p ∈ [0, 1], sendKeys p ⊆ floodKeys) p hp))) m

theorem completable_ringHellos (m : Mach) : Completable m (ringHellos m) :=
  ⟨(kept_ringHellos m).events (by decide +kernel), forEach_keep pace _ _ (fun p n => onlyIf_keep pace _ _ _ (sendMkpdu_pace p n)) m⟩

theorem ringHellos_sec (m : Mach) : (ringHellos m).sec = m.sec :=
  forEach_keep (·.sec) _ _ (fun p n => onlyIf_keep (·.sec) _ _ _
    (samePiece_of_outside (p := .sec) (sendMkpdu_outside (ps := [.out, .ring, .hif, .block 0x1, .block 0x8]) rfl p n) (by decide))) m

/-- The machine with a ring key in force, whose ring ports have said so. -/
def ringKeyed (num : Nat) (m : Mach) : Mach := ringHellos (installRing num m)

theorem completable_ringKeyed (num : Nat) (m : Mach) : Completable m (ringKeyed num m) := (completable_installRing num m).trans (completable_ringHellos _)

theorem ringKeyed_sec (num : Nat) (m : Mach) : (ringKeyed num m).sec = ringSec m := by rw [ringKeyed, ringHellos_sec, installRing_sec]

theorem ringKeyed_number (num : Nat) (m : Mach) : rd (ringKeyed num m) F.SEC_RING_KEY_NUMBER = num % 2 ^ F.SEC_RING_KEY_NUMBER.width := by
  rw [ringKeyed, (kept_ringHellos _).rd (by decide +kernel), installRing_number]

theorem rotateRing_own (he : ownEntry c m = true) (hd : flag m F.SEC_STATE_DEBUG = false) :
    rotateRing c m = keyEvent 1 0 (leAt (rotBytes c) 4 4) m.sec.ldev (ringKeyed (leAt (rotBytes c) 4 4) m) := by
  rw [rotateRing, if_pos (by simp [he, hd])]
  rfl

/-- A rotation at a seat that has an entry: the new ring key is in force, the one before it kept for its grace. -/
theorem rotateRing_rotates (he : ownEntry c m = true) (hd : flag m F.SEC_STATE_DEBUG = false) :
    Completable m (rotateRing c m) ∧ rd (rotateRing c m) F.SEC_RING_KEY_NUMBER = leAt (rotBytes c) 4 4 ∧
      (rotateRing c m).sec.prevKey = (ringSec m).prevKey ∧ Reported 0x14 0x1402 m (rotateRing c m) := by
  rw [rotateRing_own he hd]
  refine ⟨(completable_ringKeyed ..).trans (completable_keyEvent ..), ?_, ?_, keyEvent_reported _ _ _ _ (completable_ringKeyed ..).events⟩
  · rw [(kept_keyEvent ..).rd (not_mem_placesOf (by decide +kernel) (by decide) (by decide)), ringKeyed_number]
    exact Nat.mod_eq_of_lt (leAt_lt ..)
  · rw [keyEvent_sec, ringKeyed_sec]

/-- The machine that keeps a kind-1 rotation for the seats that join later. -/
def rotationKept (c : Cmd) (m : Mach) : Mach := setSec { m.sec with lastRing := some c } m

theorem completable_rotationKept (c : Cmd) (m : Mach) : Completable m (rotationKept c m) := completable_setSec _ m

theorem rotationKept_ringSec (c : Cmd) (m : Mach) : (ringSec (rotationKept c m)).prevKey = (ringSec m).prevKey := rfl

theorem keyRotate_ring (hok : rotateOk c m = true) (hk : leAt (rotBytes c) 0 1 = 1) : keyRotate c tk m = okM (rotateRing c (rotationKept c m)) := by
  simp only [keyRotate, hok, hk]
  rfl

theorem keyRotate_rings (ha : Awake s) (hs : Signed 0x0D01 c s.m) (hok : rotateOk c s.m = true) (hk : leAt (rotBytes c) 0 1 = 1)
    (he : ownEntry c s.m = true) (hd : flag s.m F.SEC_STATE_DEBUG = false) : Answers (.keyRotate c) s (fun n =>
      (rd n F.SEC_RING_KEY_NUMBER = leAt (rotBytes c) 4 4 ∧ n.sec.prevKey = (ringSec s.m).prevKey) ∧
      Reported 0x14 0x1402 (reserve c s.m) n ∧ Completed 0x0D01 stDone c s.m n) := by
  refine admitted_answers rfl ha (.inr hs) (by decide) fun n hj => ?_
  have hkeep := completable_rotationKept c n
  obtain ⟨hcomp, hnum, hprev, hrep⟩ := rotateRing_rotates (c := c) (m := rotationKept c n) (hj.ownEntry.trans he) (hj.debugBit.trans hd)
  refine ⟨_, keyRotate_ring (hj.rotateOk.trans hok) hk, (hkeep.trans hcomp).routed, fun hdone => ⟨⟨?_, ?_⟩, ?_, hdone⟩⟩
  · exact (rd_congr _ _ _ (final_regs ..)).trans hnum
  · rw [final_sec, hprev, rotationKept_ringSec, hj.ringSec]
  · exact reported_of_reserve (reported_then _ _ _ _ _ (reported_since (hj.completable.trans hkeep).events hrep) (completable_final ..).events.out)

theorem keyRotate_missing (ha : Awake s) (hs : Signed 0x0D01 c s.m) (hok : rotateOk c s.m = true) (hk : leAt (rotBytes c) 0 1 = 1)
    (hno : ownEntry c s.m = false ∨ flag s.m F.SEC_STATE_DEBUG = true) : Answers (.keyRotate c) s (fun n =>
      rd n F.SEC_RING_KEY_NUMBER = rd s.m F.SEC_RING_KEY_NUMBER ∧ Reported 0x14 0x1408 (reserve c s.m) n ∧ Completed 0x0D01 stDone c s.m n) := by
  refine admitted_answers rfl ha (.inr hs) (by decide) fun n hj => ?_
  have hkeep := completable_rotationKept c n
  have hrun : rotateRing c (rotationKept c n) = raise 0x14 0x1408 [(4, leAt (rotBytes c) 4 4), (12, 0)] (rotationKept c n) := by
    have hown : ownEntry c (rotationKept c n) = ownEntry c s.m := hj.ownEntry
    have hdebug : flag (rotationKept c n) F.SEC_STATE_DEBUG = flag s.m F.SEC_STATE_DEBUG := hj.debugBit
    rw [rotateRing, if_neg]
    rw [hown, hdebug]
    obtain h | h := hno <;> simp [h]
  refine ⟨_, keyRotate_ring (hj.rotateOk.trans hok) hk, ?_, fun hdone => ⟨?_, ?_, hdone⟩⟩ <;> rw [hrun]
  · exact (hkeep.trans (completable_raise ..)).routed
  · rw [rd_congr _ _ _ (final_regs ..), rd_raise _ _ _ _ _ (by decide)]
    exact hj.kept.rd (by decide)
  · exact reported_of_reserve (reported_then _ _ _ _ _ (hj.completable.trans hkeep).events.reported (completable_final ..).events.out)

/-! The operator keys, the deck keys and a local port's CAK (R443, R448). -/

/-- The machine that shows a new store of keys and reports a change of keys. -/
def storeShown (kind num id : Nat) (x : Sec) (m : Mach) : Mach := keyEvent kind 0 num id (showKeys (setSec x m))

theorem completable_storeShown (kind num id : Nat) (x : Sec) (m : Mach) : Completable m (storeShown kind num id x m) :=
  (completable_setSec x m).trans <| (completable_showKeys _).trans (completable_keyEvent ..)

theorem storeShown_sec (kind num id : Nat) (x : Sec) (m : Mach) : (storeShown kind num id x m).sec = x := rfl

theorem storeShown_reported (kind num id : Nat) (x : Sec) (m : Mach) : Reported 0x14 0x1402 m (storeShown kind num id x m) :=
  keyEvent_reported _ _ _ _ ((completable_setSec x m).trans (completable_showKeys _)).events

/-- A rotation that only changes the store. -/
theorem keyRotate_stores {P : Sec → Prop} (ha : Awake s) (hs : Signed 0x0D01 c s.m)
    (hn : ∀ n, Judged s.m n → ∃ kind num id x, keyRotate c (nowTicket 0x0D01 c s.m) n = okM (storeShown kind num id x n) ∧ P x) :
    Answers (.keyRotate c) s (fun n => P n.sec ∧ Reported 0x14 0x1402 (reserve c s.m) n ∧ Completed 0x0D01 stDone c s.m n) := by
  refine admitted_answers rfl ha (.inr hs) (by decide) fun n hj => ?_
  obtain ⟨kind, num, id, x, hrun, hP⟩ := hn n hj
  refine ⟨_, hrun, (completable_storeShown ..).routed, fun hdone => ⟨?_, ?_, hdone⟩⟩
  · rw [final_sec, storeShown_sec]
    exact hP
  · exact reported_of_reserve (reported_then _ _ _ _ _ (reported_since hj.completable.events (storeShown_reported _ _ _ _ _)) (completable_final ..).events.out)

/-- The key identifier of a key record. -/
def recKey (e : List Byte) : Nat := keyIdOf ((e.drop 16).take 96)

theorem isSome_mput {α : Type} (n k : Nat) (v : α) (t : SMap α) : (mfind (mput n v t) k).isSome = true ↔ n = k ∨ (mfind t k).isSome = true := by
  by_cases h : k = n
  · subst h
    rw [mfind_mput_self]
    simp
  · rw [mfind_mput_ne _ _ _ _ h]
    simp [Ne.symm h]

theorem isSome_foldl_mput {α β : Type} (f : α → Nat) (g : α → β) (as : List α) (t : SMap β) (k : Nat) :
    (mfind (as.foldl (fun t a => mput (f a) (g a) t) t) k).isSome = true ↔ (∃ a ∈ as, f a = k) ∨ (mfind t k).isSome = true := by
  induction as generalizing t with
  | nil => simp
  | cons a as ih => simp [ih, isSome_mput, or_assoc, or_comm, or_left_comm]

theorem opSet_isSome (as : List KeyRec) (old : SMap OpKey) (k : Nat) : (mfind (opSet as old) k).isSome = true ↔ ∃ a ∈ as, keyIdOf a.key = k := by
  rw [opSet, isSome_foldl_mput (fun a : KeyRec => keyIdOf a.key)]
  simp [mfind]

/-- The operator keys of a KEY_ROTATE. -/
def rotOperators (c : Cmd) (m : Mach) : SMap OpKey :=
  opSet ((rotEntries c).map (fun e => { key := (e.drop 16).take 96, roles := leAt e 9 1 })) m.sec.keys

theorem rotOperators_isSome (c : Cmd) (m : Mach) (k : Nat) : (mfind (rotOperators c m) k).isSome = true ↔ ∃ e ∈ rotEntries c, recKey e = k := by
  rw [rotOperators, opSet_isSome]
  simp only [List.mem_map, exists_exists_and_eq_and, recKey]

theorem keyRotate_operators (ha : Awake s) (hs : Signed 0x0D01 c s.m) (hok : rotateOk c s.m = true) (hk : leAt (rotBytes c) 0 1 = 2) :
    Answers (.keyRotate c) s (fun n => ((∀ k, (mfind n.sec.keys k).isSome = true ↔ ∃ e ∈ rotEntries c, recKey e = k) ∧ n.sec.deckKeys = s.m.sec.deckKeys) ∧
      Reported 0x14 0x1402 (reserve c s.m) n ∧ Completed 0x0D01 stDone c s.m n) := by
  refine keyRotate_stores (P := fun x => (∀ k, (mfind x.keys k).isSome = true ↔ ∃ e ∈ rotEntries c, recKey e = k) ∧ x.deckKeys = s.m.sec.deckKeys) ha hs fun n hj =>
    ⟨2, (rotEntries c).length, envKey c, { n.sec with keys := rotOperators c n }, ?_, rotOperators_isSome c n, ?_⟩
  · simp only [keyRotate, hj.rotateOk, hok, hk]
    rfl
  · obtain ⟨ks, hks⟩ := hj.sec
    rw [hks]

theorem keyRotate_decks (ha : Awake s) (hs : Signed 0x0D01 c s.m) (hok : rotateOk c s.m = true) (hk : leAt (rotBytes c) 0 1 = 3) :
    Answers (.keyRotate c) s (fun n => n.sec.deckKeys = (rotEntries c).map recKey ∧
      Reported 0x14 0x1402 (reserve c s.m) n ∧ Completed 0x0D01 stDone c s.m n) := by
  refine keyRotate_stores (P := fun x => x.deckKeys = _) ha hs fun n hj =>
    ⟨3, (rotEntries c).length, envKey c, { n.sec with deckKeys := (rotEntries c).map recKey }, ?_, rfl⟩
  simp only [keyRotate, hj.rotateOk, hok, hk]
  rfl

theorem keyRotate_caks (ha : Awake s) (hs : Signed 0x0D01 c s.m) (hok : rotateOk c s.m = true) (hk : leAt (rotBytes c) 0 1 = 4)
    (he : ownEntry c s.m = true) : Answers (.keyRotate c) s (fun n =>
      n.sec.caks = mput (leAt (rotBytes c) 2 1) (beAt (rotBytes c) 8 16) s.m.sec.caks ∧
      Reported 0x14 0x1402 (reserve c s.m) n ∧ Completed 0x0D01 stDone c s.m n) := by
  refine keyRotate_stores (P := fun x => x.caks = _) ha hs fun n hj =>
    ⟨4, 1, n.sec.ldev, { n.sec with caks := mput (leAt (rotBytes c) 2 1) (beAt (rotBytes c) 8 16) n.sec.caks }, ?_, ?_⟩
  · simp only [keyRotate, hj.rotateOk, hok, hk, hj.ownEntry, he]
    rfl
  · obtain ⟨ks, hks⟩ := hj.sec
    rw [hks]

/-! The enrolment exchange (R446, R450). -/

theorem keyPackageReceive_rotates (ha : Awake s) {w : Bool} {e : Env} (hbuf : c.buf = .rotate l w) (henv : c.env = some e) (h1 : stage1 0x0D01 c s.m = 0)
    (hfresh : ((mfind s.m.sec.keys e.keyId).map OpKey.counter).getD 0 < e.counter) (hk : leAt l 0 1 = 1)
    (hnew : rd s.m F.SEC_RING_KEY_NUMBER < leAt l 4 4) (hmem : member s.m = true) (hown : ownEntry c s.m = true) (hd : flag s.m F.SEC_STATE_DEBUG = false) :
    Answers (.keyPackageReceive c) s (fun n => (rd n F.SEC_RING_KEY_NUMBER = leAt l 4 4 ∧ n.sec.prevKey = (ringSec s.m).prevKey) ∧
      Reported 0x14 0x1402 s.m n) := by
  have hbytes : rotBytes c = l := by rw [rotBytes, hbuf]
  have hrun : keyPackageReceive c s.m = rotateRing c (recordCounter c s.m) := by
    simp [keyPackageReceive, hbuf, h1, henv, hfresh, hbytes, hk, hnew, hmem]
  have hj := judged_recordCounter c s.m
  obtain ⟨-, hnum, hprev, hrep⟩ := rotateRing_rotates (c := c) (hj.ownEntry.trans hown) (hj.debugBit.trans hd)
  refine answers_mach _ s (keyPackageReceive c) _ rfl ha ?_
  rw [hrun]
  exact ⟨⟨hnum.trans (by rw [hbytes]), hprev.trans hj.ringSec⟩, reported_since hj.completable.events hrep⟩

theorem keyPackageReceive_installs (ha : Awake s) {p : KeyPkg} (hbuf : c.buf = .admission l p) (h1 : stage1 0x0C02 c s.m = 0)
    (h2 : stage2 0x0C02 c s.m = 0) (hr : s.m.dom.roster = none) (hl : AdmitOk l) (hc : leAt l 8 8 = idevId) (hok : pkgOk p s.m = true) :
    Answers (.keyPackageReceive c) s (fun n => n.sec.ldev = keyIdOf p.certKey ∧ n.sec.deckKeys = p.decks.map keyIdOf ∧
      rd n F.SEC_RING_KEY_NUMBER = p.ringKey % 2 ^ F.SEC_RING_KEY_NUMBER.width ∧ Reported 0x14 0x1402 s.m n) := by
  have hrec : admitRec c = l := by rw [admitRec, hbuf]
  have hj := judged_recordCounter c s.m
  have hrun : keyPackageReceive c s.m = installPkg p c (recordCounter c s.m) := by
    have hcore : admitCore true c (recordCounter c s.m) = okM (installPkg p c (recordCounter c s.m)) :=
      admitCore_alone (hrec ▸ hl) (by rw [pkgOf, hbuf]) (hj.dom ▸ hr) (hrec ▸ hc) (hj.pkgOk.trans hok)
    simp [keyPackageReceive, hbuf, h1, h2, hrec, hc, hcore, okM]
  obtain ⟨hldev, hdeck, hnum⟩ := installPkg_holds p c (recordCounter c s.m)
  refine answers_mach _ s (keyPackageReceive c) _ rfl ha ?_
  rw [hrun]
  exact ⟨hldev, hdeck, hnum, reported_since hj.completable.events (installPkg_reported _ _ _)⟩

/-! The grace of the previous ring key (R449). -/

theorem keyGraceExpiry_answers (ha : Awake s) {num d : Nat} (hp : s.m.sec.prevKey = some (num, d)) (hd : d ≤ s.m.deal) :
    Answers .keyGraceExpiry s (fun n => n.sec.prevKey = none ∧ n.sec.keys = s.m.sec.keys ∧ rd n F.SEC_KEYS_PREV_RING = 0 ∧ Reported 0x14 0x1402 s.m n) := by
  have hrun : keyGraceExpiry s.m = keyEvent 1 1 num s.m.sec.ldev (showKeys (setSec { s.m.sec with prevKey := none } s.m)) := by
    simp only [keyGraceExpiry, hp]
    rw [if_pos hd]
  refine answers_mach _ s keyGraceExpiry _ rfl ha ?_
  rw [hrun]
  refine ⟨rfl, rfl, ?_, keyEvent_reported _ _ _ _ ((completable_setSec _ s.m).trans (completable_showKeys _)).events⟩
  rw [keyEvent, rd_raise _ _ _ _ _ (by decide), rd_wr_ne _ _ _ _ (by decide), showKeys, rd_wr_ne _ _ _ _ (by decide), rd_wr_ne _ _ _ _ (by decide),
    rd_wr_self]
  rfl

end Keys

/-! Boot images (R437-R439). -/

section Images
variable {s : State} {m n : Mach} {c : Cmd} {i : BootImg} {tk : Ticket}

/-- What the arguments of an FW_STAGE must satisfy. -/
structure StageOk (c : Cmd) (i : BootImg) (m : Mach) : Prop where
  buf : c.buf = .boot i
  free : m.sec.fw = none
  small : bufLen c ≤ 16777488
  window : bufOk c false m = true
  well : imageWell i = true
  length : i.length + 272 = bufLen c
  version : rd m F.SEC_SVN_FUSED ≤ i.svn

theorem StageOk.judged (h : StageOk c i m) (hj : Judged m n) : StageOk c i n := by
  obtain ⟨hbuf, hfree, hsmall, hwindow, hwell, hlength, hversion⟩ := h
  obtain ⟨ks, hks⟩ := hj.sec
  exact ⟨hbuf, by rw [hks, hfree], hsmall, (hj.bufOk false).trans hwindow, hwell, hlength, by rwa [hj.kept.rd (by decide)]⟩

/-- The staging that an FW_STAGE begins. -/
def stageBegun (c : Cmd) (tk : Ticket) (i : BootImg) (m : Mach) : FwStage := { h := { cmd := c, tk := { tk with interim := true } }, img := i, start := m.deal }

/-- The machine that stages an image: the slot that is not running is empty. -/
def imageStaged (c : Cmd) (tk : Ticket) (i : BootImg) (m : Mach) : Mach :=
  wr F.SEC_SVN_STAGED 0 (setSec { m.sec with fw := some (stageBegun c tk i m), slots := mdel (otherSlot m) m.sec.slots } m)

theorem fwStage_args (h : StageOk c i m) : ¬ (decide (16777488 < bufLen c) || !bufOk c false m || !imageWell i || i.length + 272 != bufLen c ||
    decide (i.svn < rd m F.SEC_SVN_FUSED)) = true := by
  obtain ⟨-, -, hsmall, hwindow, hwell, hlength, hversion⟩ := h
  simp [hwindow, hwell, hlength, hsmall, hversion]

theorem fwStage_stages (h : StageOk c i m) (he : i.endorseOk = true) (hs : i.sigOk = true) :
    fwStage c tk m = (imageStaged c tk i (interim tk stPending (writeBound (bufLen c) m.deal) m), { st := none }) := by
  have hargs := fwStage_args h
  have hslot : otherSlot (interim tk stPending (writeBound (bufLen c) m.deal) m) = otherSlot m := by rw [otherSlot, rd_congr _ _ _ (interim_regs ..), otherSlot]
  have hbegun : stageBegun c tk i (interim tk stPending (writeBound (bufLen c) m.deal) m) = stageBegun c tk i m := by rw [stageBegun, interim_deal, stageBegun]
  simp only [fwStage, h.buf, h.free, he, hs]
  rw [imageStaged, hslot, hbegun]
  exact (if_neg (by simp)).trans ((if_neg hargs).trans (if_neg (by simp)))

theorem fwStage_refuses (h : StageOk c i m) (hbad : i.endorseOk = false ∨ i.sigOk = false) :
    fwStage c tk m = (authFailBy 8 tk.op (fromSeat m c.src) (envKey c) m, { st := some stRefusedAuth }) := by
  have hargs := fwStage_args h
  have hsig : (!i.endorseOk || !i.sigOk) = true := by obtain h | h := hbad <;> simp [h]
  simp only [fwStage, h.buf, h.free]
  exact (if_neg (by simp)).trans ((if_neg hargs).trans (if_pos hsig))

theorem completable_interim (tk : Ticket) (st d : Nat) (m : Mach) : Completable m (interim tk st d m) := by
  unfold interim
  split
  · split
    · exact .refl m
    · exact completable_completeWith m
  · exact .refl m

theorem fwStage_answers (ha : Awake s) (hs : Signed 0x0D02 c s.m) (hok : StageOk c i s.m) (he : i.endorseOk = true) (hsig : i.sigOk = true) :
    Answers (.fwStage c) s (fun n => (∃ g, n.sec.fw = some g ∧ g.img = i ∧ g.start = s.m.deal) ∧ rd n F.SEC_SVN_STAGED = 0 ∧
      mfind n.sec.slots (otherSlot s.m) = none ∧ n.dk = s.m.dk ∧ (running s.m = true → ∀ q, c.src = .ring q → ∃ ring idx,
        NewOut s.m n (.completion ring idx c.tag 0x0D02 stPending (writeBound (bufLen c) s.m.deal)))) := by
  obtain ⟨n, hrow, hj⟩ := hostRow_judged (eff := fwStage) (.inr hs) (by decide)
  refine answers_mach _ s _ _ rfl ha ?_
  rw [hrow, runEff_silent (fwStage_stages (hok.judged hj) he hsig)]
  have hinterim := completable_interim (nowTicket 0x0D02 c s.m) stPending (writeBound (bufLen c) n.deal) n
  have hdk : n.dk = s.m.dk := samePiece_of_outside (p := .dk) hj.outside (by decide)
  refine ⟨⟨_, rfl, rfl, (interim_deal ..).trans hj.completable.deal⟩, rd_wr_self .., ?_, (interim_dk ..).trans hdk, fun hrun q hq => ?_⟩
  · have hslot : otherSlot (interim (nowTicket 0x0D02 c s.m) stPending (writeBound (bufLen c) n.deal) n) = otherSlot s.m := by
      rw [otherSlot, rd_congr _ _ _ (interim_regs ..), hj.kept.rd (by decide), otherSlot]
    rw [← hslot]
    exact mfind_mdel_self ..
  · obtain ⟨ring, idx, hnew⟩ := hj.completable.newOut_completeWith (tk := nowTicket 0x0D02 c s.m) (st := stPending)
      (d := writeBound (bufLen c) s.m.deal) (rsv := 1) (now := false) (res := []) hq (live_nowTicket hrun)
    have heq : interim (nowTicket 0x0D02 c s.m) stPending (writeBound (bufLen c) n.deal) n =
        completeWith (nowTicket 0x0D02 c s.m) stPending (writeBound (bufLen c) s.m.deal) 1 false [] n := by
      simp [interim, nowTicket, hq, hj.completable.deal]
    rw [← heq] at hnew
    exact ⟨ring, idx, newOut_mono _ _ _ _ hnew ⟨[], rfl⟩⟩

theorem completable_authFailBy (cause op seat key : Nat) (m : Mach) : Completable m (authFailBy cause op seat key m) :=
  (completable_bump _ _ (by decide)).trans <| (completable_wr _ _ (by decide)).trans (completable_raise ..)

theorem authFailBy_reported (cause op seat key : Nat) (m : Mach) : Reported 0x14 0x1401 m (authFailBy cause op seat key m) :=
  ((completable_bump _ _ (by decide)).trans (completable_wr _ _ (by decide))).events.reported

theorem authFailBy_sec (cause op seat key : Nat) (m : Mach) : (authFailBy cause op seat key m).sec = m.sec := rfl

theorem fwStage_refused (ha : Awake s) (hs : Signed 0x0D02 c s.m) (hok : StageOk c i s.m) (hbad : i.endorseOk = false ∨ i.sigOk = false) :
    Answers (.fwStage c) s (fun n => n.sec.fw = none ∧ n.sec.slots = s.m.sec.slots ∧ Reported 0x14 0x1401 (reserve c s.m) n ∧
      Completed 0x0D02 stRefusedAuth c s.m n) := by
  obtain ⟨n, hrow, hj⟩ := hostRow_judged (eff := fwStage) (.inr hs) (by decide)
  obtain ⟨q, hq⟩ := hs.1
  refine answers_mach _ s _ _ rfl ha ?_
  rw [hrow, runEff_status hq (by decide) (fwStage_refuses (hok.judged hj) hbad)]
  obtain ⟨ks, hks⟩ := hj.sec
  refine ⟨?_, ?_, ?_, (hj.completable.trans (completable_authFailBy ..)).completed_final⟩
  · rw [final_sec, authFailBy_sec, hks]
    exact hok.free
  · rw [final_sec, authFailBy_sec, hks]
  · exact reported_of_reserve (reported_then _ _ _ _ _ (reported_since hj.completable.events (authFailBy_reported _ _ _ _ _)) (completable_final ..).events.out)

/-- The machine whose staged image has been verified. -/
def imageVerified (g : FwStage) (m : Mach) : Mach :=
  wr F.SEC_SVN_STAGED g.img.svn (setSec { m.sec with fw := none, slots := mput (otherSlot m) { img := g.img } m.sec.slots } m)

theorem eventsKept_imageVerified (g : FwStage) (m : Mach) : EventsKept m (imageVerified g m) :=
  (completable_setSec _ m).events.trans (eventsKept_wr _ _ (by decide))

theorem fwStageDone_answers (ha : Awake s) {g : FwStage} (hg : s.m.sec.fw = some g) (hsvn : g.img.svn ≤ 64) :
    Answers .fwStageDone s (fun n => n.sec.fw = none ∧ mfind n.sec.slots (otherSlot s.m) = some { img := g.img } ∧
      rd n F.SEC_SVN_STAGED = g.img.svn ∧ Reported 0x14 0x1403 s.m n) := by
  have hrun : fwStageDone s.m = final g.h.tk (if g.h.tk.eff < g.start then stLate else stDone)
      (raise 0x14 0x1403 [(1, otherSlot s.m), (1, g.img.svn), (2, 0), (4, g.img.build), (8, 0)] (imageVerified g s.m)) := by
    simp only [fwStageDone, hg]
    rfl
  have hsec : (fwStageDone s.m).sec = (imageVerified g s.m).sec := by rw [hrun, final_sec, raise_sec]
  refine answers_mach _ s fwStageDone _ rfl ha ?_
  rw [hsec]
  refine ⟨rfl, mfind_mput_self .., ?_, ?_⟩
  · rw [hrun, rd_congr _ _ _ (final_regs ..), rd_raise _ _ _ _ _ (by decide), imageVerified, rd_wr_self]
    exact Nat.mod_eq_of_lt (Nat.lt_of_le_of_lt hsvn (by decide))
  · rw [hrun]
    exact reported_then _ _ _ _ _ (eventsKept_imageVerified g s.m).reported (completable_final ..).events.out

theorem fwCommit_answers (ha : Awake s) (ht : 4800000 ≤ s.m.ticks) (hv : rd s.m F.SEC_SVN_FUSED < rd s.m F.SEC_SVN_RUNNING)
    (hmax : rd s.m F.SEC_SVN_RUNNING ≤ 64) : Answers .fwCommit s (fun n => rd n F.SEC_SVN_FUSED = rd s.m F.SEC_SVN_RUNNING ∧
      n.sec.keys = s.m.sec.keys ∧ Reported 0x14 0x1404 s.m n) := by
  obtain ⟨slots, hrun⟩ : ∃ slots, fwCommit s.m = raise 0x14 0x1404 [(1, rd s.m F.SEC_SVN_FUSED), (1, rd s.m F.SEC_SVN_RUNNING), (2, 0), (4, s.m.sec.build), (8, 0)]
      (wr F.SEC_SVN_FUSED (rd s.m F.SEC_SVN_RUNNING) (setSec { s.m.sec with slots := slots } s.m)) := by
    simp only [fwCommit]
    rw [if_pos (by simp [ht, hv])]
    exact ⟨_, rfl⟩
  refine answers_mach _ s fwCommit _ rfl ha ?_
  rw [hrun]
  refine ⟨?_, rfl, ((completable_setSec _ s.m).events.trans (eventsKept_wr _ _ (by decide))).reported⟩
  rw [rd_raise _ _ _ _ _ (by decide), rd_wr_self]
  exact Nat.mod_eq_of_lt (Nat.lt_of_le_of_lt hmax (by decide))

end Images

/-- Settles O45: each command and row by its lemma above. -/
theorem keysAndImages : Obligations.KeysAndImages := fun _ ha =>
  ⟨fun _ hs hok => ⟨fun hk he hd => keyRotate_rings ha hs hok hk he hd, fun hk hno => keyRotate_missing ha hs hok hk hno, fun hk => by
      obtain ⟨t, hexec, hpend, ⟨hkeys, hdecks⟩, htold⟩ := keyRotate_operators ha hs hok hk
      exact ⟨t, hexec, hpend, hkeys, hdecks, htold⟩,
      fun hk => keyRotate_decks ha hs hok hk, fun hk he => keyRotate_caks ha hs hok hk he⟩,
    fun _ _ _ _ hbuf henv h1 hfresh hk hnew hmem hown hd => keyPackageReceive_rotates ha hbuf henv h1 hfresh hk hnew hmem hown hd,
    fun _ _ _ hbuf h1 h2 hr hlen hseat hrole hzero hc hldev hrest hok =>
      keyPackageReceive_installs ha hbuf h1 h2 hr ⟨hlen, hseat, hrole, hzero, hldev, hrest⟩ hc hok,
    fun _ _ hp hd => keyGraceExpiry_answers ha hp hd,
    fun _ _ hs hbuf hfree hsmall hwell hlength hversion =>
      have hok := ⟨hbuf, hfree, hsmall, signed_bufOk hs, hwell, hlength, hversion⟩
      ⟨fun he hsig => fwStage_answers ha hs hok he hsig, fun hbad => fwStage_refused ha hs hok hbad⟩,
    fun _ hg hsvn => fwStageDone_answers ha hg hsvn, fun ht hv hmax => fwCommit_answers ha ht hv hmax⟩

end Sys2Proof.Machine
end

section
/-! Resets and leaves (17 R467, R469; 06 R180): what a reset leaves of the registers, and what a planned leave keeps. -/
namespace Sys2Proof.Machine

section Resets
variable {m : Mach} {f : Fld} {cause count : Nat}

/-- The fields that a reset carries over, with their values. -/
def resetFlds (cause count : Nat) (m : Mach) : List (Fld × Nat) :=
  [(F.SYS_RESET_CAUSE_CAUSE, cause), (F.SYS_RESET_CAUSE_COUNT, min 0xFFFF count), (F.SYS_STRAP_BOOT_SRC, rd m F.SYS_STRAP_BOOT_SRC),
    (F.SEC_STATE_LIFECYCLE, rd m F.SEC_STATE_LIFECYCLE), (F.SEC_SVN_FUSED, rd m F.SEC_SVN_FUSED),
    (F.SEC_RING_KEY_NUMBER, rd m F.SEC_RING_KEY_NUMBER), (F.CLK_SAVED_AGE_SEC, rd m F.CLK_SAVED_AGE_SEC)]

theorem resetAll_regs (cause count : Nat) (m : Mach) :
    (resetAll cause count m).regs = (resetFlds cause count m).foldl (fun t q => rsetij q.1 0 0 q.2 t) resetRegs := rfl

theorem mget_foldl_rsetij_ne (l : List (Fld × Nat)) (t : SMap Nat) (d : Nat) (h : ∀ q ∈ l, fkey f 0 0 ≠ fkey q.1 0 0) :
    mget d (l.foldl (fun t q => rsetij q.1 0 0 q.2 t) t) (fkey f 0 0) = mget d t (fkey f 0 0) := by
  induction l generalizing t with
  | nil => rfl
  | cons q l ih =>
    rw [List.foldl_cons, ih _ fun a ha => h a (List.mem_cons_of_mem _ ha)]
    exact mget_mset_other _ _ _ _ _ _ (h q List.mem_cons_self)

/-- The registers that a reset carries over. -/
def carriedFlds : List Fld := [F.SYS_RESET_CAUSE_CAUSE, F.SYS_RESET_CAUSE_COUNT, F.SYS_STRAP_BOOT_SRC, F.SEC_STATE_LIFECYCLE, F.SEC_SVN_FUSED,
  F.SEC_RING_KEY_NUMBER, F.CLK_SAVED_AGE_SEC]

theorem resetFlds_fst (cause count : Nat) (m : Mach) : (resetFlds cause count m).map Prod.fst = carriedFlds := rfl

/-- A field that a reset does not carry over reads as after a power-on. -/
theorem rd_resetAll (h : ∀ g ∈ carriedFlds, fkey f 0 0 ≠ fkey g 0 0) (hr : mfind resetRegs (fkey f 0 0) = none) :
    rd (resetAll cause count m) f = f.reset := by
  have hne : ∀ q ∈ resetFlds cause count m, fkey f 0 0 ≠ fkey q.1 0 0 := fun q hq =>
    h _ (resetFlds_fst cause count m ▸ List.mem_map_of_mem (f := Prod.fst) hq)
  calc rd (resetAll cause count m) f = mget f.reset resetRegs (fkey f 0 0) := mget_foldl_rsetij_ne _ _ _ hne
    _ = f.reset := by rw [mget, hr, Option.getD_none]

theorem rd_resetAll_cause (cause count : Nat) (m : Mach) : rd (resetAll cause count m) F.SYS_RESET_CAUSE_CAUSE = cause % 2 ^ 4 :=
  calc rd (resetAll cause count m) F.SYS_RESET_CAUSE_CAUSE
      = mget 0 (rsetij F.SYS_RESET_CAUSE_CAUSE 0 0 cause resetRegs) (fkey F.SYS_RESET_CAUSE_CAUSE 0 0) := by
        refine mget_foldl_rsetij_ne (resetFlds cause count m).tail _ _ fun q hq => ?_
        have hmem : q.1 ∈ carriedFlds.tail := List.mem_map_of_mem (f := Prod.fst) hq
        exact (by decide : ∀ g ∈ carriedFlds.tail, fkey F.SYS_RESET_CAUSE_CAUSE 0 0 ≠ fkey g 0 0) _ hmem
    _ = cause % 2 ^ 4 := rgetij_rsetij_self ..

theorem sysReset_cause (hc : cause < 8) (m : Mach) : rd (sysReset cause m) F.SYS_RESET_CAUSE_CAUSE = cause :=
  (rd_resetAll_cause ..).trans (Nat.mod_eq_of_lt (by omega))

theorem sysReset_out (cause : Nat) (m : Mach) : ∃ l, (sysReset cause m).out = l ++ m.out := ⟨_, rfl⟩

end Resets

/-! A planned leave. -/

section Leave
variable {m : Mach} {cause : Nat}

theorem routed_setRing (x : RingSt) (m : Mach) : Routed m (setRing x m) := ⟨.of_eq rfl rfl rfl, rfl, rfl⟩

theorem completable_setIns (new cause : Nat) (m : Mach) : Completable m (setIns new cause m) := ⟨eventsKept_setIns m new cause, setIns_pace ..⟩

theorem completable_drivesLow (m : Mach) : Completable m (drivesLow m) := ⟨eventsKept_drivesLow m, by simp [drivesLow]⟩

theorem completable_floodStatus (x : RingStatus) (m : Mach) : Completable m (floodStatus x m) :=
  ⟨(kept_floodStatus x m).events (by decide), floodStatus_keep pace_sendKeeps x⟩

/-- The machine whose insertion has failed, or whose leave is announced, before its deal is set. -/
theorem routed_plannedLeave (cause : Nat) (m : Mach) : Routed m (plannedLeave cause m) := by
  simp only [plannedLeave]
  split
  · exact .refl m
  · split
    · exact ((completable_drivesLow m).trans (completable_setIns ..)).routed.trans (routed_setRing ..)
    · exact ((completable_onlyIf _ (completable_floodStatus ..)).trans (completable_setIns ..)).routed.trans (routed_setRing ..)

theorem plannedLeave_pwr (cause : Nat) (m : Mach) : (plannedLeave cause m).pwr = m.pwr :=
  samePiece_of_outside (p := .pwr) (plannedLeave_outside (ps := [.out, .hif, .ring, .block 0x1, .block 0x8]) rfl cause m) (by decide)

theorem plannedLeave_sys (cause : Nat) (m : Mach) : (plannedLeave cause m).sys = m.sys :=
  samePiece_of_outside (p := .sys) (plannedLeave_outside (ps := [.out, .hif, .ring, .block 0x1, .block 0x8]) rfl cause m) (by decide)

end Leave

end Sys2Proof.Machine
end

section
/-! Attestation, the debug unlock and a Kolica fault (16 R436, R444, R452). -/
namespace Sys2Proof.Machine

section Attest
variable {s : State} {m : Mach} {k : Nat}

theorem fieldsAt_secCtrl : fieldsAt 0x3008 = [(F.SEC_CTRL_KEY_GRACE_S, 0, 0), (F.SEC_CTRL_ATTEST, 0, 0)] := by decide +kernel

theorem regWrite_secCtrl (v : Nat) (m : Mach) :
    regWrite 0x3008 v m = writeFld v F.SEC_CTRL_ATTEST 0 0 (writeFld v F.SEC_CTRL_KEY_GRACE_S 0 0 m) := by
  simp [regWrite, writeFlds, fieldsAt_secCtrl, afterWrite]

/-- A write of a field reaches the registers alone. -/
theorem writeFld_rest (v : Nat) (f : Fld) (i j : Nat) (m : Mach) : (writeFld v f i j m).out = m.out ∧ (writeFld v f i j m).sec = m.sec := by
  unfold writeFld
  dsimp only
  split
  · split <;> exact ⟨rfl, rfl⟩
  · split <;> exact ⟨rfl, rfl⟩
  · exact ⟨rfl, rfl⟩
  · exact ⟨rfl, rfl⟩
  · exact ⟨rfl, rfl⟩

theorem attestBit (v : Word) : (v ||| 0x10000).toNat / 2 ^ 16 % 2 ^ 1 = 1 := by
  have hbit : (v ||| 0x10000).toNat.testBit 16 = true := by
    rw [BitVec.toNat_or, Nat.testBit_or, Bool.or_eq_true]
    exact .inr (by decide)
  simpa [Nat.testBit_eq_decide_div_mod_eq] using hbit

theorem secAttest_answers (ha : Awake s) (v : Word) :
    Answers (.secAttest v) s (fun n => rd n F.SEC_CTRL_ATTEST = 1 ∧ n.out = s.m.out ∧ n.sec = s.m.sec) := by
  refine answers_mach _ s (regWrite 0x3008 (v ||| 0x10000).toNat) _ rfl ha ?_
  rw [regWrite_secCtrl]
  obtain ⟨ho1, hs1⟩ := writeFld_rest (v ||| 0x10000).toNat F.SEC_CTRL_KEY_GRACE_S 0 0 s.m
  obtain ⟨ho2, hs2⟩ := writeFld_rest (v ||| 0x10000).toNat F.SEC_CTRL_ATTEST 0 0 (writeFld (v ||| 0x10000).toNat F.SEC_CTRL_KEY_GRACE_S 0 0 s.m)
  refine ⟨(writeFld_w1s _ _ rfl (by decide) (by decide)).trans (Nat.or_mod_two_eq_one.mpr (.inr ?_)), ho2.trans ho1, hs2.trans hs1⟩
  change (v ||| 0x10000).toNat / 2 ^ 16 % 2 ^ 1 % 2 = 1
  rw [attestBit]

/-- The report in its registers. -/
def reportPlaced (m : Mach) : Mach := forEach (List.range 512) (fun k x => wri F.SEC_ATTEST_BYTES k (reportWord m k) x) m

theorem rdi_wris (g : Nat → Nat) (l : List Nat) (m : Mach) (hk : k < 512) :
    rdi (forEach l (fun k x => wri F.SEC_ATTEST_BYTES k (g k) x) m) F.SEC_ATTEST_BYTES k =
      if k ∈ l then g k % 2 ^ 32 else rdi m F.SEC_ATTEST_BYTES k := by
  induction l generalizing m with
  | nil => rfl
  | cons a l ih =>
    rw [forEach_cons, ih]
    by_cases hl : k ∈ l
    · rw [if_pos hl, if_pos (List.mem_cons_of_mem _ hl)]
    · by_cases ha : k = a
      · subst ha
        rw [if_neg hl, if_pos List.mem_cons_self]
        exact rdi_wri_self _ _ _ _ hk
      · rw [if_neg hl, if_neg (by simp [ha, hl]), rdi_wri_ne]
        simp only [fkey, F.SEC_ATTEST_BYTES]
        omega

theorem reportPlaced_keep {β : Type} (g : Mach → β) (hg : ∀ k v n, g (wri F.SEC_ATTEST_BYTES k v n) = g n) (m : Mach) : g (reportPlaced m) = g m :=
  forEach_keep g _ _ (fun k n => hg k _ n) m

theorem attestReady_answers (ha : Awake s) (hf : flag s.m F.SEC_CTRL_ATTEST = true) : Answers .attestReady s (fun n =>
    rd n F.SEC_CTRL_ATTEST = 0 ∧ n.fresh = s.m.fresh + 24 ∧ n.sec = s.m.sec ∧
      (∀ k, k < 512 → rdi n F.SEC_ATTEST_BYTES k = reportWord s.m k % 2 ^ 32)) := by
  have hrun : attestReady s.m = useFresh 24 (wr F.SEC_CTRL_ATTEST 0 (reportPlaced s.m)) := by rw [attestReady, if_pos hf]; rfl
  refine answers_mach _ s attestReady _ rfl ha ?_
  rw [hrun]
  have hfresh : (reportPlaced s.m).fresh = s.m.fresh := reportPlaced_keep (·.fresh) (fun _ _ _ => rfl) s.m
  have hsec : (reportPlaced s.m).sec = s.m.sec := reportPlaced_keep (·.sec) (fun _ _ _ => rfl) s.m
  refine ⟨(rd_congr _ _ _ (useFresh_regs ..)).trans (rd_wr_self ..), by rw [useFresh_fresh, wr_fresh, hfresh], by rw [useFresh_sec, wr_sec, hsec],
    fun k hk => ?_⟩
  have hwr : rdi (useFresh 24 (wr F.SEC_CTRL_ATTEST 0 (reportPlaced s.m))) F.SEC_ATTEST_BYTES k = rdi (reportPlaced s.m) F.SEC_ATTEST_BYTES k := by
    refine (rdi_congr _ _ _ _ (useFresh_regs ..)).trans (rdi_wr_ne _ _ _ _ _ ?_)
    simp only [fkey, F.SEC_ATTEST_BYTES, F.SEC_CTRL_ATTEST]
    omega
  rw [hwr, reportPlaced, rdi_wris _ _ _ hk, if_pos (List.mem_range.mpr hk)]

end Attest

section Debug
variable {s : State} {m : Mach} {key nonce d : Nat} {k : OpKey}

theorem debugChallengeRead_answers (ha : Awake s) : Answers .debugChallengeRead s (fun n => n.sec.challenge = some (s.m.fresh, s.m.deal) ∧
    n.regs = s.m.regs ∧ n.out = .challenge idevId s.m.fresh s.m.deal :: s.m.out) :=
  answers_mach _ s debugChallengeRead _ rfl ha ⟨rfl, rfl, rfl⟩

/-- The machine that has used up its challenge and is leaving the ring. -/
def challengeUsed (m : Mach) : Mach := setSec { (plannedLeave 0 m).sec with challenge := none } (plannedLeave 0 m)

/-- The machine whose debug is unlocked. -/
def debugOpen (m : Mach) : Mach := measureImage (wr F.SEC_FLAGS_DEBUG_SEEN 1 (wr F.SEC_STATE_DEBUG 1 (challengeUsed m)))

theorem rd_measureImage (m : Mach) (f : Fld) : rd (measureImage m) f = rd m f := rfl

theorem routed_debugOpen (m : Mach) : Routed m (debugOpen m) :=
  (routed_plannedLeave 0 m).trans <| (completable_setSec _ _).routed.trans <| (routed_wr _ _ (by decide)).trans <| (routed_wr _ _ (by decide)).trans
    (completable_setSec _ _).routed

theorem debugResponse_unlocks (ha : Awake s) (hc : s.m.sec.challenge = some (nonce, d)) (hk : mfind s.m.sec.keys key = some k)
    (hr : k.roles.testBit 4 = true) : Answers (.debugResponse key true) s (fun n => rd n F.SEC_STATE_DEBUG = 1 ∧ rd n F.SEC_FLAGS_DEBUG_SEEN = 1 ∧
      n.sec.challenge = none ∧ Reported 0x14 0x1406 s.m n) := by
  have hrun : debugResponse key true s.m = raise 0x14 0x1406 [(8, key), (8, d)] (debugOpen s.m) := by
    simp only [debugResponse, hc, hk, hr]
    rfl
  refine answers_mach _ s (debugResponse key true) _ rfl ha ?_
  rw [hrun]
  refine ⟨?_, ?_, rfl, (routed_debugOpen s.m).events.reported⟩
  · rw [rd_raise _ _ _ _ _ (by decide), debugOpen, rd_measureImage,
      rd_wr_ne _ _ _ _ (by decide), rd_wr_self]
    rfl
  · rw [rd_raise _ _ _ _ _ (by decide), debugOpen, rd_measureImage, rd_wr_self]
    rfl

theorem debugResponse_ignored {ok : Bool} (ha : Awake s)
    (h : ok = false ∨ s.m.sec.challenge = none ∨ (∀ k, mfind s.m.sec.keys key = some k → k.roles.testBit 4 = false)) :
    Answers (.debugResponse key ok) s (fun n => n = s.m) := by
  refine answers_mach _ s (debugResponse key ok) _ rfl ha ?_
  unfold debugResponse
  split
  · next hc hk =>
    refine if_neg ?_
    obtain rfl | h | h := h
    · simp
    · rw [h] at hc
      cases hc
    · simp [h _ hk]
  · rfl

/-- A system reset after the loss of Kolica: what flash keeps stays (R451). -/
theorem kolicaFault_answers (ha : Awake s) : Answers .kolicaFault s (fun n => n.sys.held = some 5 ∧ n.ring.bypA = false ∧ n.ring.bypB = false ∧
    n.dk.live.digest = 0 ∧ n.sec.keys = s.m.sec.keys ∧ n.dom.roster = s.m.dom.roster ∧ rd n F.SYS_RESET_CAUSE_CAUSE = 5) := by
  have hlost := unitLost_outside (ps := [.out, .hif, .ring, .sys, .block 0x1, .block 0x8, .block 0x11]) rfl 5 s.m
  have hsec : (unitLost 5 s.m).sec = s.m.sec := samePiece_of_outside (p := .sec) hlost (by decide)
  have hdom : (unitLost 5 s.m).dom = s.m.dom := samePiece_of_outside (p := .dom) hlost (by decide)
  exact answers_mach _ s (fun m => sysReset 5 (unitLost 5 m)) _ rfl ha
    ⟨rfl, rfl, rfl, rfl, (congrArg Sec.keys hsec :), (congrArg Dom.roster hdom :), sysReset_cause (by decide) _⟩

end Debug

/-- Settles O46: each row by its lemma above. -/
theorem attestationAndDebug : Obligations.AttestationAndDebug := fun _ ha =>
  ⟨fun v => secAttest_answers ha v, fun hf => attestReady_answers ha hf, debugChallengeRead_answers ha,
    fun _ _ _ _ hc hk hr => debugResponse_unlocks ha hc hk hr, fun _ _ h => debugResponse_ignored ha h, kolicaFault_answers ha⟩

end Sys2Proof.Machine
end

section
/-! Refused authority (14 R397; 16 R441): a command that a check refuses leaves its report and its completion. -/
namespace Sys2Proof.Machine

section Refusal
variable {s : State} {m : Mach} {i : Instr} {op cause key : Nat} {eff : Eff} {c : Cmd}

/-- The header of a local command that names no deal, with zero reserved fields. -/
structure PlainHeader (op : Nat) (c : Cmd) (m : Mach) : Prop where
  local_ : ∃ q, c.src = .ring q
  flags : c.flags < 16
  rsvd : c.rsvd = 0
  deal : c.deal = 0
  tunnel : Cmd_tunnel c = false
  target : c.target = 0xFFFE ∨ (c.target ≤ 1023 ∧ member m = true ∧ c.target = ownSeat m)
  reserved : reservedOk op c = true

/-- The machine that a refusal for authority leaves. -/
def refused (op cause key : Nat) (c : Cmd) (m : Mach) : Mach :=
  final (nowTicket op c m) stRefusedAuth (authFailBy cause op (fromSeat (reserve c m) c.src) key (reserve c m))

/-- A command with a plain header is taken here. -/
theorem hostRow_taken (hh : PlainHeader op c m) (hop : op ≠ 0x0102) (hsg : (signedOp op && !Cmd_signed c) = false) :
    hostRow op eff c m = takeHere eff m.deal ⟨c, nowTicket op c m⟩ (reserve c m) := by
  obtain ⟨-, hflags, hrsvd, hdeal, htunnel, htarget, hreserved⟩ := hh
  have hself : forSelf (reserve c m) c = true := forSelf_of c _ (by simpa using htarget)
  have htk : ticket op m.deal c (reserve c m) = nowTicket op c m := by simp [ticket, nowTicket, hdeal]
  simp only [hostRow, admitCmd, header_ok op c m hflags hrsvd htarget]
  rw [if_neg (by simp), if_neg (by simp [hreserved]), if_neg (by simp [hop]), if_neg (by simp [hsg]), if_neg (by simp [hdeal]),
    if_neg (by simp [hself, htunnel]), htk]

theorem hostRow_unsound (hh : PlainHeader op c m) (hsg : signedOp op = true) (hs : Cmd_signed c = true) (hbuf : bufOk c false m = true)
    (h1 : stage1 op c m ≠ 0) : hostRow op eff c m = refused op (stage1 op c m) (envKey c) c m := by
  have hop : op ≠ 0x0102 := by
    rintro rfl
    exact absurd hsg (by decide)
  have hcarries : carriesEnv op c = true := by simp [carriesEnv, hs, hsg]
  rw [hostRow_taken hh hop (by simp [hs])]
  simp only [takeHere, checked, nowTicket, hcarries, bufOk_reserve, hbuf, stage1_reserve]
  rw [if_neg (by simp), if_neg (by simp)]
  rfl

theorem hostRow_unauthorized (hh : PlainHeader op c m) (hop : latchedOp op = true) (hsg : signedOp op = false) (hs : Cmd_signed c = false)
    (hl : m.ann.latch ≠ []) : hostRow op eff c m = refused op 9 0 c m := by
  have hne : op ≠ 0x0102 := by
    rintro rfl
    exact absurd hop (by decide)
  have hcarries : carriesEnv op c = false := by simp [carriesEnv, hs]
  have hzone : zoneLatched (reserve c m) = true := by simp [zoneLatched, hl]
  rw [hostRow_taken hh hne (by simp [hsg])]
  simp [takeHere, checked, nowTicket, hcarries, accept, applyHeld, hop, hs, hzone, refuseAuth, refused]

theorem authFails_count (cause op seat key : Nat) (m : Mach) : rd (authFailBy cause op seat key m) F.SEC_AUTH_FAILS_COUNT =
    min (2 ^ F.SEC_AUTH_FAILS_COUNT.width - 1) (rd m F.SEC_AUTH_FAILS_COUNT + 1) := by
  rw [authFailBy, rd_raise _ _ _ _ _ (by decide), rd_wr_ne _ _ _ _ (by decide), rd_bump_self]
  exact Nat.mod_eq_of_lt (Nat.lt_of_le_of_lt (Nat.min_le_left ..) (by decide))

theorem authFails_flag (cause op seat key : Nat) (m : Mach) : rd (authFailBy cause op seat key m) F.SEC_FLAGS_AUTH_FAIL = 1 := by
  rw [authFailBy, rd_raise _ _ _ _ _ (by decide), rd_wr_self]
  rfl

theorem refused_answers (ha : Awake s) (hexec : exec i s = onMach (hostRow op eff c) s) (hrow : hostRow op eff c s.m = refused op cause key c s.m) :
    Answers i s (fun n => rd n F.SEC_AUTH_FAILS_COUNT = min (2 ^ F.SEC_AUTH_FAILS_COUNT.width - 1) (rd s.m F.SEC_AUTH_FAILS_COUNT + 1) ∧
      rd n F.SEC_FLAGS_AUTH_FAIL = 1 ∧ Reported 0x14 0x1401 (reserve c s.m) n ∧ Completed op stRefusedAuth c s.m n ∧
      n.dom = s.m.dom ∧ n.ann = s.m.ann ∧ n.sec = s.m.sec ∧ n.dk = s.m.dk ∧ n.sap = s.m.sap ∧ n.pwr = s.m.pwr ∧ n.hif.held = s.m.hif.held) := by
  refine answers_mach i s (hostRow op eff c) _ hexec ha ?_
  have hcomp := completable_authFailBy cause op (fromSeat (reserve c s.m) c.src) key (reserve c s.m)
  have hall := (completable_reserve c s.m).trans hcomp
  have hheld : pace (refused op cause key c s.m) = pace s.m := (completable_final ..).pace.trans hall.pace
  rw [hrow]
  refine ⟨?_, ?_, ?_, hall.completed_final, ?_, ?_, ?_, ?_, ?_, ?_, congrArg Pace.held hheld⟩
  · rw [refused, rd_congr _ _ _ (final_regs ..), authFails_count, reserve_rd]
  · rw [refused, rd_congr _ _ _ (final_regs ..), authFails_flag]
  · exact reported_then _ _ _ _ _ (authFailBy_reported _ _ _ _ _) (completable_final ..).events.out
  all_goals
    simp [refused, authFailBy]

end Refusal

/-- Settles O47: the row is that of the command, and one of the two refusals applies. -/
theorem authorityIsRefused : Obligations.AuthorityIsRefused := by
  intro i op c s ha hcase hlocal hflags hrsvd hdeal htunnel htarget hreserved
  have hh : PlainHeader op c s.m := ⟨hlocal, hflags, hrsvd, hdeal, htunnel, htarget, hreserved⟩
  obtain ⟨hi, hs, hbuf, h1⟩ | ⟨hi, hs, hl⟩ := hcase
  · obtain ⟨rfl, rfl⟩ | ⟨rfl, rfl⟩ | ⟨rfl, rfl⟩ | ⟨rfl, rfl⟩ | ⟨rfl, rfl⟩ | ⟨rfl, rfl⟩ := hi
    · exact refused_answers ha rfl (hostRow_unsound (eff := rosterLoad) hh (by decide) hs hbuf h1)
    · exact refused_answers ha rfl (hostRow_unsound (eff := seatAdmit) hh (by decide) hs hbuf h1)
    · exact refused_answers ha rfl (hostRow_unsound (eff := seatEvict) hh (by decide) hs hbuf h1)
    · exact refused_answers ha rfl (hostRow_unsound (eff := trumpClear) hh (by decide) hs hbuf h1)
    · exact refused_answers ha rfl (hostRow_unsound (eff := keyRotate) hh (by decide) hs hbuf h1)
    · exact refused_answers ha rfl (hostRow_unsound (eff := fwStage) hh (by decide) hs hbuf h1)
  · obtain ⟨rfl, rfl⟩ | ⟨rfl, rfl⟩ := hi
    · exact refused_answers ha rfl (hostRow_unauthorized (eff := portStop) hh (by decide) (by decide) hs hl)
    · exact refused_answers ha rfl (hostRow_unauthorized (eff := systemReset) hh (by decide) (by decide) hs hl)

end Sys2Proof.Machine
end

section
/-! Resets by supplies, pins and the test port reach the device in any state; every tolerance is 0 after them and after a host-function
reset (17 R464, R467; 18 R485). -/
namespace Sys2Proof.Machine

section Pins
variable {m n : Mach} {s : State}

/-- A row of the supplies and pins acts on a held device as well. -/
theorem answers_onPins {c : Instr} {P : Mach → Prop} (f : Mach → Mach) (hexec : exec c s = onPins f s) (h : P (f s.m)) : Answers c s P :=
  ⟨{ s with m := f s.m }, hexec, rfl, h⟩

/-- A power-on reset releases the test port and PCIE_PERST_N. -/
def pinsReleased (m : Mach) : Mach := { m with sys := { m.sys with extest := false, perst := false } }

/-- The test port holds the device in a reset. -/
def testHeld (m : Mach) : Mach := { m with sys := { m.sys with extest := true, held := some 2 } }

/-- The clock that has run on while the supplies were away shows its age. -/
def clockAged (age : Nat) (m : Mach) : Mach := useFresh 1 (wr F.CLK_SAVED_AGE_SEC age m)

theorem powerOn_eq (m : Mach) : powerOn m =
    onlyIf m.clk.saved.isSome (clockAged (freeVal m).toNat) (pinsReleased (sysReset 0 m)) := rfl

theorem extestSelect_eq (m : Mach) : extestSelect m =
    testHeld (useFresh 1 (resetAll ((freeVal m).toNat % 8) (rd m F.SYS_RESET_CAUSE_COUNT + 1) m)) := rfl

theorem rd_clockAged {f : Fld} (h : fkey f 0 0 ≠ fkey F.CLK_SAVED_AGE_SEC 0 0) (age : Nat) (m : Mach) : rd (clockAged age m) f = rd m f :=
  (rd_congr _ _ _ (useFresh_regs ..)).trans (rd_wr_ne _ _ _ _ h)

/-- What a reset leaves in every field but the age of the clock, a power-on leaves too. -/
theorem rd_powerOn {f : Fld} (h : fkey f 0 0 ≠ fkey F.CLK_SAVED_AGE_SEC 0 0) (m : Mach) : rd (powerOn m) f = rd (sysReset 0 m) f := by
  rw [powerOn_eq]
  exact (onlyIf_keep (fun n => rd n f) _ (clockAged _) _ (rd_clockAged h ..)).trans (rd_congr _ _ _ rfl)

theorem tolerances_congr (h : ∀ f, f ∈ [F.PWR_TOL_RENDER_US, F.PWR_TOL_ICOM_US, F.PWR_TOL_ANN_US, F.PWR_TOL_STREAM_US] → rd n f = rd m f) :
    tolerances n = tolerances m := by
  rw [tolerances, h _ (by decide), h _ (by decide), h _ (by decide), h _ (by decide), tolerances]

theorem tolerances_regs (h : n.regs = m.regs) : tolerances n = tolerances m := tolerances_congr fun f _ => rd_congr _ _ f h

theorem tolerances_resetAll (cause count : Nat) (m : Mach) : tolerances (resetAll cause count m) = [0, 0, 0, 0] := by
  rw [tolerances, rd_resetAll (by decide) (by decide), rd_resetAll (by decide) (by decide), rd_resetAll (by decide) (by decide),
    rd_resetAll (by decide) (by decide)]
  rfl

theorem tolerances_powerOn (m : Mach) : tolerances (powerOn m) = [0, 0, 0, 0] :=
  (tolerances_congr fun f hf => rd_powerOn
    ((by decide : ∀ f ∈ [F.PWR_TOL_RENDER_US, F.PWR_TOL_ICOM_US, F.PWR_TOL_ANN_US, F.PWR_TOL_STREAM_US],
      fkey f 0 0 ≠ fkey F.CLK_SAVED_AGE_SEC 0 0) f hf) m).trans (tolerances_resetAll ..)

theorem tolerances_extestSelect (m : Mach) : tolerances (extestSelect m) = [0, 0, 0, 0] :=
  (tolerances_regs rfl).trans (tolerances_resetAll ((freeVal m).toNat % 8) (rd m F.SYS_RESET_CAUSE_COUNT + 1) m)

theorem tolerances_showTarget (m : Mach) : tolerances (showTarget m) = tolerances m :=
  tolerances_congr fun f hf =>
    have hne := (by decide : ∀ f ∈ [F.PWR_TOL_RENDER_US, F.PWR_TOL_ICOM_US, F.PWR_TOL_ANN_US, F.PWR_TOL_STREAM_US],
      fkey f 0 0 ≠ fkey F.PWR_STATE_TARGET 0 0 ∧ fkey f 0 0 ≠ fkey F.PWR_STATE_FORCED 0 0) f hf
    rd_showTarget _ hne.1 hne.2

/-- The four tolerance registers read what was written last. -/
theorem tolerances_wr (a b c d : Nat) (m : Mach) :
    tolerances (wr F.PWR_TOL_RENDER_US a (wr F.PWR_TOL_ICOM_US b (wr F.PWR_TOL_ANN_US c (wr F.PWR_TOL_STREAM_US d m)))) =
      [a % 2 ^ 32, b % 2 ^ 32, c % 2 ^ 32, d % 2 ^ 32] := by
  rw [tolerances, rd_wr_self, rd_wr_ne _ _ _ _ (by decide), rd_wr_self, rd_wr_ne _ _ _ _ (by decide), rd_wr_ne _ _ _ _ (by decide),
    rd_wr_self, rd_wr_ne _ _ _ _ (by decide), rd_wr_ne _ _ _ _ (by decide), rd_wr_ne _ _ _ _ (by decide), rd_wr_self]
  rfl

theorem tolerances_hostReset (m : Mach) : tolerances (hostReset m) = [0, 0, 0, 0] := by
  rw [hostReset_eq, clearTolerances, tolerances_showTarget, tolerances_wr, Nat.zero_mod]

theorem returnFunction_regs (m : Mach) : (returnFunction m).regs = m.regs := rfl

theorem perstLow_regs (m : Mach) : (perstLow m).regs = m.regs := rfl

theorem tolerances_functionReset (m : Mach) : tolerances (functionReset m) = [0, 0, 0, 0] := by
  rw [functionReset_eq, tolerances_regs (m := hostReset m) (returnFunction_regs _), tolerances_hostReset]

theorem tolerances_perstAssert (m : Mach) : tolerances (perstAssert m) = [0, 0, 0, 0] := by
  rw [perstAssert_eq, tolerances_regs (perstLow_regs _), tolerances_regs (returnFunction_regs _), tolerances_hostReset]

end Pins

/-- Settles O50: a reset leaves no tolerance in its registers, and a host-function reset, by whichever of its three causes, clears the four. -/
theorem tolerancesReturnToZero : Obligations.TolerancesReturnToZero := by
  unfold Obligations.TolerancesReturnToZero
  refine ⟨fun s => ⟨?_, ?_, ?_, ?_⟩, fun cause m => tolerances_resetAll .., fun s v ha => ⟨?_, ?_, ?_⟩⟩
  · exact answers_onPins powerOn rfl (tolerances_powerOn s.m)
  · exact answers_onPins (sysReset 1) rfl (tolerances_resetAll ..)
  · exact answers_onPins (sysReset 7) rfl (tolerances_resetAll ..)
  · exact answers_onPins extestSelect rfl (tolerances_extestSelect s.m)
  · obtain ⟨n, hn, -⟩ := hifCtrlWrite_reset s.m v
    refine answers_mach _ s (hifCtrlWrite (v ||| 2).toNat) _ rfl ha ?_
    rw [hn]
    exact tolerances_hostReset n
  · exact answers_mach _ s functionReset _ rfl ha (tolerances_functionReset s.m)
  · exact answers_mach _ s perstAssert _ rfl ha (tolerances_perstAssert s.m)

end Sys2Proof.Machine
end

section
/-! What the resets of the device hold and keep, and SYSTEM_RESET (17 R467, R469; 16 R451, R452; 18 R485). -/
namespace Sys2Proof.Machine

section Held
variable {m n : Mach} {s : State} {cause : Nat}

/-- Since `m` the device has been put in a reset of a cause: it is bypassed, its running state is gone, and what flash keeps stays. -/
structure PutInReset (cause : Nat) (m n : Mach) : Prop where
  held : n.sys.held = some cause
  shown : rd n F.SYS_RESET_CAUSE_CAUSE = cause
  deal : n.deal = 0
  live : n.dk.live.digest = 0
  objs : n.objs = []
  lis : n.str.lis = []
  dirs : n.sap.dirs = []
  bypA : n.ring.bypA = false
  bypB : n.ring.bypB = false
  running : running n = false
  keys : n.sec.keys = m.sec.keys
  roster : n.dom.roster = m.dom.roster
  msgs : n.ann.msgs = m.ann.msgs
  latch : n.ann.latch = m.ann.latch

theorem running_resetAll (cause count : Nat) (m : Mach) : running (resetAll cause count m) = false := by
  rw [running, rd_resetAll (by decide) (by decide)]
  rfl

theorem sysReset_puts (hc : cause < 8) (m : Mach) : PutInReset cause m (sysReset cause m) :=
  ⟨rfl, sysReset_cause hc m, rfl, rfl, rfl, rfl, rfl, rfl, rfl, running_resetAll .., rfl, rfl, rfl, rfl⟩

theorem PutInReset.pinsReleased (h : PutInReset cause m n) : PutInReset cause m (pinsReleased n) :=
  ⟨h.held, h.shown, h.deal, h.live, h.objs, h.lis, h.dirs, h.bypA, h.bypB, h.running, h.keys, h.roster, h.msgs, h.latch⟩

theorem PutInReset.clockAged (h : PutInReset cause m n) (age : Nat) : PutInReset cause m (clockAged age n) :=
  ⟨h.held, (rd_clockAged (by decide) age n).trans h.shown, h.deal, h.live, h.objs, h.lis, h.dirs, h.bypA, h.bypB,
    (congrArg (· == 1) (rd_clockAged (by decide) age n)).trans h.running, h.keys, h.roster, h.msgs, h.latch⟩

theorem powerOn_puts (m : Mach) : PutInReset 0 m (powerOn m) := by
  rw [powerOn_eq]
  have h := (sysReset_puts (cause := 0) (by decide) m).pinsReleased
  cases m.clk.saved.isSome with
  | false => exact h
  | true => exact h.clockAged _

theorem putInReset_answers {c : Instr} (h : (c = .powerOn ∧ cause = 0) ∨ (c = .resetNAssert ∧ cause = 1) ∨ (c = .pwrgoodFall ∧ cause = 7)) :
    Answers c s (PutInReset cause s.m) := by
  obtain ⟨rfl, rfl⟩ | ⟨rfl, rfl⟩ | ⟨rfl, rfl⟩ := h
  · exact answers_onPins powerOn rfl (powerOn_puts s.m)
  · exact answers_onPins (sysReset 1) rfl (sysReset_puts (by decide) s.m)
  · exact answers_onPins (sysReset 7) rfl (sysReset_puts (by decide) s.m)

end Held

section Command
variable {m n : Mach} {s : State} {c : Cmd}

theorem plannedReset_eq (cause : Nat) (m : Mach) : plannedReset cause m =
    setPwr { (plannedLeave 5 m).pwr with reset := some ((plannedLeave 5 m).pwr.reset.getD (floodDeal m, cause)) } (plannedLeave 5 m) := rfl

theorem routed_setPwr (x : Pwr) (m : Mach) : Routed m (setPwr x m) := ⟨.of_eq rfl rfl rfl, rfl, rfl⟩

theorem routed_plannedReset (cause : Nat) (m : Mach) : Routed m (plannedReset cause m) :=
  (routed_plannedLeave 5 m).trans (routed_setPwr ..)

theorem plannedReset_reset (cause : Nat) (m : Mach) : (plannedReset cause m).pwr.reset = some (m.pwr.reset.getD (floodDeal m, cause)) := by
  rw [plannedReset_eq, plannedLeave_pwr]
  rfl

theorem plannedReset_sys (cause : Nat) (m : Mach) : (plannedReset cause m).sys = m.sys := by
  rw [plannedReset_eq]
  exact plannedLeave_sys 5 m

theorem Judged.pwr (h : Judged m n) : n.pwr = m.pwr := samePiece_of_outside (p := .pwr) h.outside (by decide)

theorem Judged.sys (h : Judged m n) : n.sys = m.sys := samePiece_of_outside (p := .sys) h.outside (by decide)

theorem Judged.floodDeal (h : Judged m n) : Machine.floodDeal n = Machine.floodDeal m := by
  rw [Machine.floodDeal, h.completable.routed.deal, h.kept.rd (by decide), Machine.floodDeal]

/-- A planned SYSTEM_RESET leaves the ring first; the device resets once the leave has flooded. -/
theorem systemReset_planned (ha : Awake s) (h : Plain 0x0E02 c s.m ∨ Signed 0x0E02 c s.m) (h0 : u8 c 24 = 0) :
    Answers (.systemReset c) s (fun n => n.sys.held = none ∧ n.pwr.reset = some (s.m.pwr.reset.getD (floodDeal s.m, 2)) ∧
      Completed 0x0E02 stDone c s.m n) := by
  refine admitted_answers (eff := systemReset) rfl ha h (by decide) fun n hj => ⟨plannedReset 2 n, by rw [systemReset, h0]; rfl, routed_plannedReset 2 n,
    fun hdone => ⟨?_, ?_, hdone⟩⟩
  · rw [final_sys, plannedReset_sys, hj.sys]
    exact ha
  · rw [final_pwr, plannedReset_reset, hj.pwr, hj.floodDeal]

/-- The completion of an immediate SYSTEM_RESET is sent before the reset takes hold. -/
theorem completed_sysReset {op st : Nat} (h : Completed op st c m n) (cause : Nat) : Completed op st c m (sysReset cause n) := by
  intro hrun q hq
  obtain ⟨ring, idx, hnew⟩ := h hrun q hq
  obtain ⟨l, hl⟩ := sysReset_out cause n
  exact ⟨ring, idx, newOut_mono _ _ _ _ hnew ⟨l, hl⟩⟩

theorem systemReset_immediate (ha : Awake s) (h : Plain 0x0E02 c s.m ∨ Signed 0x0E02 c s.m) (h1 : u8 c 24 = 1) :
    Answers (.systemReset c) s (fun n => n.sys.held = some 2 ∧ n.dk.live.digest = 0 ∧ n.dom.roster = s.m.dom.roster ∧
      Completed 0x0E02 stDone c s.m n) := by
  obtain ⟨n, hrow, hj⟩ := hostRow_judged (eff := systemReset) h (by decide)
  have hst : doneOrLate (nowTicket 0x0E02 c s.m) n = stDone := if_neg (by simp [nowTicket, hj.completable.routed.deal])
  have hrun : systemReset c (nowTicket 0x0E02 c s.m) n = (sysReset 2 (final (nowTicket 0x0E02 c s.m) stDone n), { st := none }) := by
    rw [systemReset, h1, hst]
    rfl
  refine answers_mach _ s (hostRow 0x0E02 systemReset c) _ rfl ha ?_
  rw [hrow, runEff_silent hrun]
  refine ⟨rfl, rfl, ?_, completed_sysReset hj.completable.routed.completed_final 2⟩
  calc (final (nowTicket 0x0E02 c s.m) stDone n).dom.roster = n.dom.roster := by rw [final_dom]
    _ = s.m.dom.roster := by rw [hj.dom]

end Command

/-- Settles O55: the state after a reset is the power-on state but for what flash keeps, and a planned reset only notes its deal. -/
theorem resetsTakeHold : Obligations.ResetsTakeHold := by
  unfold Obligations.ResetsTakeHold
  refine ⟨fun s c cause hc => ?_, fun s => ⟨?_, ?_⟩, fun s c ha h => ⟨systemReset_immediate ha h, systemReset_planned ha h⟩⟩
  · obtain ⟨t, hexec, hpend, hreset⟩ := putInReset_answers (s := s) hc
    obtain ⟨hheld, hshown, hdeal, hlive, hobjs, hlis, hdirs, hbypA, hbypB, hrun, hkeys, hroster, hmsgs, hlatch⟩ := hreset
    exact ⟨t, hexec, hpend, hheld, hshown, hdeal, hlive, hobjs, hlis, hdirs, hbypA, hbypB, hrun, hkeys, hroster, hmsgs, hlatch⟩
  · exact answers_onPins extestSelect rfl ⟨rfl, rfl, rfl, rfl⟩
  · exact ⟨_, rfl, rfl, rfl, rfl, rfl⟩

end Sys2Proof.Machine
end

section
/-! The power manager and the resume deck (17 R457-R463, R473). -/
namespace Sys2Proof.Machine

section Tolerances
variable {m n : Mach} {s : State} {c : Cmd} {tk : Ticket} {v : PwrMove} {i off old : Nat}

/-- The tolerance that POWER_TOLERANCE gives a service: its own where the mask names the service, else the one before. -/
def tolerancePick (c : Cmd) (i off old : Nat) : Nat := if (u8 c 24).testBit i then u32 c off else old

/-- The four tolerances that POWER_TOLERANCE gives. -/
def tolerancesOf (c : Cmd) (m : Mach) : List Nat :=
  [tolerancePick c 0 28 (rd m F.PWR_TOL_RENDER_US), tolerancePick c 1 32 (rd m F.PWR_TOL_ICOM_US),
    tolerancePick c 2 36 (rd m F.PWR_TOL_ANN_US), tolerancePick c 3 40 (rd m F.PWR_TOL_STREAM_US)]

/-- The machine with the tolerances that POWER_TOLERANCE gives. -/
def tolerancesSet (c : Cmd) (m : Mach) : Mach :=
  wr F.PWR_TOL_RENDER_US (tolerancePick c 0 28 (rd m F.PWR_TOL_RENDER_US))
    (wr F.PWR_TOL_ICOM_US (tolerancePick c 1 32 (rd m F.PWR_TOL_ICOM_US))
      (wr F.PWR_TOL_ANN_US (tolerancePick c 2 36 (rd m F.PWR_TOL_ANN_US))
        (wr F.PWR_TOL_STREAM_US (tolerancePick c 3 40 (rd m F.PWR_TOL_STREAM_US)) m)))

/-- The tolerances after POWER_TOLERANCE, as the registers hold them. -/
def tolerancesShown (c : Cmd) (m : Mach) : List Nat :=
  [tolerancePick c 0 28 (rd m F.PWR_TOL_RENDER_US % 2 ^ 32), tolerancePick c 1 32 (rd m F.PWR_TOL_ICOM_US % 2 ^ 32),
    tolerancePick c 2 36 (rd m F.PWR_TOL_ANN_US % 2 ^ 32), tolerancePick c 3 40 (rd m F.PWR_TOL_STREAM_US % 2 ^ 32)]

theorem powerTolerance_sets (h1 : 1 ≤ u8 c 24) (h15 : u8 c 24 ≤ 15)
    (h : ∀ v, m.pwr.move = some v → v.entry = true → v.dst ≤ targetOf m (tolerancesOf c m)) :
    powerTolerance c tk m = okM (judgePower (tolerancesSet c m)) := by
  have hmask : ¬ (u8 c 24 = 0 || 16 ≤ u8 c 24) = true := by simp; omega
  rw [powerTolerance, if_neg hmask]
  cases hv : m.pwr.move with
  | none => rfl
  | some v =>
    exact if_neg fun hdeep => absurd (h v hv (Bool.and_elim_left hdeep)) (Nat.not_le.mpr (of_decide_eq_true (Bool.and_elim_right hdeep)))

theorem powerTolerance_waits (h1 : 1 ≤ u8 c 24) (h15 : u8 c 24 ≤ 15) (hv : m.pwr.move = some v) (he : v.entry = true)
    (hlt : targetOf m (tolerancesOf c m) < v.dst) : powerTolerance c tk m = holdStopping c tk v.at_ m := by
  have hmask : ¬ (u8 c 24 = 0 || 16 ≤ u8 c 24) = true := by simp; omega
  rw [powerTolerance, if_neg hmask, hv]
  exact if_pos ((Bool.and_eq_true _ _).mpr ⟨he, decide_eq_true hlt⟩)

theorem tolerancePick_mod : tolerancePick c i off old % 2 ^ 32 = tolerancePick c i off (old % 2 ^ 32) := by
  rw [tolerancePick, tolerancePick]
  split
  · exact Nat.mod_eq_of_lt (leAt_lt c.pay (off - 24) 4)
  · rfl

theorem tolerances_set (c : Cmd) (m : Mach) : tolerances (tolerancesSet c m) = tolerancesShown c m := by
  rw [tolerancesSet, tolerances_wr, tolerancePick_mod, tolerancePick_mod, tolerancePick_mod, tolerancePick_mod, tolerancesShown]

theorem tolerancesOf_eq_shown (h : ∀ f, f = F.PWR_TOL_RENDER_US ∨ f = F.PWR_TOL_ICOM_US ∨ f = F.PWR_TOL_ANN_US ∨ f = F.PWR_TOL_STREAM_US →
    rd m f < 2 ^ 32) : tolerancesOf c m = tolerancesShown c m := by
  rw [tolerancesShown, Nat.mod_eq_of_lt (h _ (by simp)), Nat.mod_eq_of_lt (h _ (by simp)), Nat.mod_eq_of_lt (h _ (by simp)),
    Nat.mod_eq_of_lt (h _ (by simp)), tolerancesOf]

/-! The judgement of the target. -/

theorem rd_setPwr (x : Pwr) (m : Mach) (f : Fld) : rd (setPwr x m) f = rd m f := rd_congr _ _ f rfl

theorem rd_beginMove {f : Fld} (h : fkey f 0 0 ≠ fkey F.PWR_STATE_MOVING 0 0) (entry : Bool) (dst : Nat) (m : Mach) :
    rd (beginMove entry dst m) f = rd m f := by
  rw [beginMove, rd_wr_ne _ _ _ _ h, rd_setPwr]

/-- The judgement shows the target and what forces it. -/
def targetShown (m : Mach) : Mach :=
  wr F.PWR_STATE_TARGET (targetOf m (tolerances m)) (wr F.PWR_STATE_FORCED (forcedBits m) (setPwr
    { m.pwr with deeper := if rd m F.PWR_STATE_STATE < targetOf m (tolerances m) then some (m.pwr.deeper.getD m.deal) else none } m))

theorem judgePower_eq (m : Mach) : judgePower m = targetShown m ∨ judgePower m = beginMove false 0 (targetShown m) := by
  exact (ite_eq_or_eq ..).symm

theorem rd_targetShown {f : Fld} (ht : fkey f 0 0 ≠ fkey F.PWR_STATE_TARGET 0 0) (hf : fkey f 0 0 ≠ fkey F.PWR_STATE_FORCED 0 0) (m : Mach) :
    rd (targetShown m) f = rd m f := by
  rw [targetShown, rd_wr_ne _ _ _ _ ht, rd_wr_ne _ _ _ _ hf, rd_setPwr]

theorem tolerances_judgePower (m : Mach) : tolerances (judgePower m) = tolerances m := by
  have hne : ∀ f ∈ [F.PWR_TOL_RENDER_US, F.PWR_TOL_ICOM_US, F.PWR_TOL_ANN_US, F.PWR_TOL_STREAM_US], fkey f 0 0 ≠ fkey F.PWR_STATE_MOVING 0 0 ∧
      fkey f 0 0 ≠ fkey F.PWR_STATE_TARGET 0 0 ∧ fkey f 0 0 ≠ fkey F.PWR_STATE_FORCED 0 0 := by decide
  refine tolerances_congr fun f hf => ?_
  obtain ⟨hmove, htarget, hforced⟩ := hne f hf
  obtain h | h := judgePower_eq m
  · rw [h, rd_targetShown htarget hforced]
  · rw [h, rd_beginMove hmove, rd_targetShown htarget hforced]

theorem routed_beginMove (entry : Bool) (dst : Nat) (m : Mach) : Routed m (beginMove entry dst m) :=
  (routed_setPwr ..).trans (routed_wr _ _ (by decide))

theorem routed_targetShown (m : Mach) : Routed m (targetShown m) :=
  ((routed_setPwr ..).trans (routed_wr _ _ (by decide))).trans (routed_wr _ _ (by decide))

theorem routed_judgePower (m : Mach) : Routed m (judgePower m) := by
  obtain h | h := judgePower_eq m
  · rw [h]
    exact routed_targetShown m
  · rw [h]
    exact (routed_targetShown m).trans (routed_beginMove ..)

theorem routed_tolerancesSet (c : Cmd) (m : Mach) : Routed m (tolerancesSet c m) :=
  (((routed_wr _ _ (by decide)).trans (routed_wr _ _ (by decide))).trans (routed_wr _ _ (by decide))).trans
    (routed_wr _ _ (by decide))

theorem judgePower_dk (m : Mach) : (judgePower m).dk = m.dk :=
  samePiece_of_outside (p := .dk) (judgePower_outside (ps := [.pwr, .block 0x2]) rfl m) (by decide)

/-! What a judged command still finds. -/

theorem Judged.tolerancesOf (h : Judged m n) : Machine.tolerancesOf c n = Machine.tolerancesOf c m := by
  rw [Machine.tolerancesOf, h.kept.rd (by decide), h.kept.rd (by decide), h.kept.rd (by decide), h.kept.rd (by decide), Machine.tolerancesOf]

theorem Judged.tolerancesShown (h : Judged m n) : Machine.tolerancesShown c n = Machine.tolerancesShown c m := by
  rw [Machine.tolerancesShown, h.kept.rd (by decide), h.kept.rd (by decide), h.kept.rd (by decide), h.kept.rd (by decide),
    Machine.tolerancesShown]

theorem Judged.cor (h : Judged m n) : n.cor = m.cor := samePiece_of_outside (p := .cor) h.outside (by decide)

theorem Judged.ann (h : Judged m n) : n.ann = m.ann := samePiece_of_outside (p := .ann) h.outside (by decide)

theorem Judged.dk (h : Judged m n) : n.dk = m.dk := samePiece_of_outside (p := .dk) h.outside (by decide)

theorem Judged.targetOf (h : Judged m n) (tol : List Nat) : Machine.targetOf n tol = Machine.targetOf m tol := by
  simp only [Machine.targetOf, forcedBits, playing, zoneLatched, h.cor, h.ann, h.kept.rd (f := F.PWR_CTRL_MAX_DEPTH) (by decide)]

/-- POWER_TOLERANCE where no entry is under way that its tolerances no longer permit. -/
theorem powerTolerance_replaces (ha : Awake s) (hp : Plain 0x0901 c s.m) (h1 : 1 ≤ u8 c 24) (h15 : u8 c 24 ≤ 15)
    (h : ∀ v, s.m.pwr.move = some v → v.entry = true → v.dst ≤ targetOf s.m (tolerancesOf c s.m)) :
    Answers (.powerTolerance c) s (fun n => tolerances n = tolerancesShown c s.m ∧ n.dk = s.m.dk ∧ Completed 0x0901 stDone c s.m n) := by
  refine admitted_answers (eff := powerTolerance) rfl ha (.inl hp) (by decide) fun n hj => ⟨judgePower (tolerancesSet c n), ?_, ?_, fun hdone =>
    ⟨?_, ?_, hdone⟩⟩
  · refine powerTolerance_sets h1 h15 fun v hv he => ?_
    rw [hj.tolerancesOf, hj.targetOf]
    exact h v (hj.pwr ▸ hv) he
  · exact (routed_tolerancesSet c n).trans (routed_judgePower _)
  · rw [tolerances_regs (final_regs ..), tolerances_judgePower, tolerances_set, hj.tolerancesShown]
  · rw [final_dk, judgePower_dk]
    exact hj.dk

end Tolerances

section Waiting
variable {m n : Mach} {s : State} {c : Cmd} {v : PwrMove}

/-- A command joins those that wait for the end of an entry or a wake. -/
def stoppedWith (h : Held) (m : Mach) : Mach := { m with hif := { m.hif with stopped := m.hif.stopped ++ [h] } }

theorem holdStopping_eq (c : Cmd) (tk : Ticket) (began : Nat) (m : Mach) :
    holdStopping c tk began m = (stoppedWith ⟨c, { tk with interim := true }⟩ (interim tk stBusyStopping began m), { st := none }) := rfl

theorem reserve_stopped (c : Cmd) (m : Mach) : (reserve c m).hif.stopped = m.hif.stopped := by
  rw [reserve]
  split <;> rfl

theorem interim_stopped (tk : Ticket) (st d : Nat) (h : ∃ q, tk.src = .ring q) (m : Mach) : (interim tk st d m).hif.stopped = m.hif.stopped := by
  obtain ⟨q, hq⟩ := h
  simp only [interim, completeWith, hq, apply_ite Mach.hif, apply_ite Hif.stopped]
  simp [cplHif]

/-- POWER_TOLERANCE waits where an entry is under way that its tolerances no longer permit (R463). -/
theorem powerTolerance_stops (ha : Awake s) (hp : Plain 0x0901 c s.m) (h1 : 1 ≤ u8 c 24) (h15 : u8 c 24 ≤ 15) (hv : s.m.pwr.move = some v)
    (he : v.entry = true) (hlt : targetOf s.m (tolerancesOf c s.m) < v.dst) :
    Answers (.powerTolerance c) s (fun n => tolerances n = tolerances s.m ∧
      (∃ h, n.hif.stopped = s.m.hif.stopped ++ [h] ∧ h.cmd = c ∧ h.tk.op = 0x0901) ∧
      (running s.m = true → ∀ q, c.src = .ring q → ∃ ring idx, NewOut s.m n (.completion ring idx c.tag 0x0901 stBusyStopping v.at_))) := by
  have hj := judged_reserve c s.m
  have hwait : powerTolerance c (nowTicket 0x0901 c s.m) (reserve c s.m) = holdStopping c (nowTicket 0x0901 c s.m) v.at_ (reserve c s.m) :=
    powerTolerance_waits h1 h15 ((congrArg Pwr.move hj.pwr).trans hv) he (by rwa [hj.tolerancesOf, hj.targetOf])
  refine answers_mach _ s (hostRow 0x0901 powerTolerance c) _ rfl ha ?_
  rw [plain_silent _ _ _ _ _ hp (absurd · (by decide)) (hwait.trans (holdStopping_eq ..))]
  refine ⟨?_, ⟨⟨c, { nowTicket 0x0901 c s.m with interim := true }⟩, ?_, rfl, rfl⟩, fun hrun q hq => ?_⟩
  · exact tolerances_regs ((interim_regs ..).trans (reserve_regs ..))
  · exact congrArg (· ++ _) ((interim_stopped _ _ _ hp.1 _).trans (reserve_stopped ..))
  · have hi : interim (nowTicket 0x0901 c s.m) stBusyStopping v.at_ (reserve c s.m) =
        completeWith (nowTicket 0x0901 c s.m) stBusyStopping v.at_ 1 false [] (reserve c s.m) := by simp [interim, nowTicket, hq]
    obtain ⟨ring, idx, hnew⟩ := hj.completable.newOut_completeWith (tk := nowTicket 0x0901 c s.m) (st := stBusyStopping) (d := v.at_) (rsv := 1)
      (now := false) (res := []) hq (live_nowTicket hrun)
    exact ⟨ring, idx, newOut_mono _ _ _ _ hnew ⟨[], (congrArg Mach.out hi :)⟩⟩

end Waiting

section Moves
variable {m n : Mach} {s : State} {v : PwrMove} {l : List Piece}

/-- After its dwell the entry to the target starts (R461). -/
theorem powerEntryStart_begins {d : Nat} (hd : m.pwr.deeper = some d) (hmove : m.pwr.move = none) (hst : rd m F.PWR_STATE_STATE = 0)
    (ht : targetOf m (tolerances m) ≠ 0) (hdwell : d + rd m F.PWR_CTRL_DWELL ≤ m.deal) :
    powerEntryStart m = beginMove true (targetOf m (tolerances m)) m := by
  rw [powerEntryStart, hd]
  exact if_pos (by simp [hmove, hst, ht, hdwell])

theorem beginMove_moves (entry : Bool) (dst : Nat) (m : Mach) : rd (beginMove entry dst m) F.PWR_STATE_MOVING = 1 ∧
    ∃ v, (beginMove entry dst m).pwr.move = some v ∧ v.entry = entry ∧ v.dst = dst ∧ v.at_ = m.deal := by
  refine ⟨?_, _, rfl, rfl, rfl, rfl⟩
  rw [beginMove, rd_wr_self]
  rfl

/-- The new state is shown, before its report. -/
def moveEnded (v : PwrMove) (m : Mach) : Mach :=
  wr F.PWR_STATE_STATE v.dst (wr F.PWR_STATE_MOVING 0 (wr F.PWR_FLAGS_STATE_CHANGED 1
    (setPwr { m.pwr with move := none, deeper := if v.dst < targetOf m (tolerances m) then m.pwr.deeper else none } m)))

theorem endMove_eq (v : PwrMove) (late : Bool) (m : Mach) : endMove v late m =
    raise 0x16 0x1601 [(1, v.dst), (1, v.src), (1, v.cause), (1, b2n late), (4, (m.deal - v.at_) * 125), (8, v.at_)] (moveEnded v m) := rfl

theorem eventsKept_moveEnded (v : PwrMove) (m : Mach) : EventsKept m (moveEnded v m) :=
  (((routed_setPwr ..).trans (routed_wr _ _ (by decide))).trans (routed_wr _ _ (by decide))).trans
    (routed_wr _ _ (by decide)) |>.events

/-- A move that is done since a machine: the new state is shown and reported. -/
structure MoveDone (v : PwrMove) (m n : Mach) : Prop where
  state : rd n F.PWR_STATE_STATE = v.dst
  moving : rd n F.PWR_STATE_MOVING = 0
  move : n.pwr.move = none
  reported : Reported 0x16 0x1601 m n

theorem endMove_done (hdst : v.dst < 4) (late : Bool) (h : EventsKept m n) : MoveDone v m (endMove v late n) := by
  rw [endMove_eq]
  refine ⟨?_, ?_, rfl, (h.trans (eventsKept_moveEnded v n)).reported⟩
  · rw [rd_raise _ _ _ _ _ (by decide), moveEnded, rd_wr_self]
    exact Nat.mod_eq_of_lt hdst
  · rw [rd_raise _ _ _ _ _ (by decide), moveEnded, rd_wr_ne _ _ _ _ (by decide), rd_wr_self]
    rfl

theorem rd_endMove {f : Fld} (h : ∀ g ∈ [F.PWR_STATE_STATE, F.PWR_STATE_MOVING, F.PWR_FLAGS_STATE_CHANGED, F.HIF_EV_DISCARD_COUNT],
    fkey f 0 0 ≠ fkey g 0 0) (v : PwrMove) (late : Bool) (m : Mach) : rd (endMove v late m) f = rd m f := by
  rw [endMove_eq, rd_raise _ _ _ _ _ (h _ (by decide)), moveEnded, rd_wr_ne _ _ _ _ (h _ (by decide)), rd_wr_ne _ _ _ _ (h _ (by decide)),
    rd_wr_ne _ _ _ _ (h _ (by decide)), rd_setPwr]

theorem endMove_changed (v : PwrMove) (late : Bool) (m : Mach) : rd (endMove v late m) F.PWR_FLAGS_STATE_CHANGED = 1 := by
  rw [endMove_eq, rd_raise _ _ _ _ _ (by decide), moveEnded, rd_wr_ne _ _ _ _ (by decide), rd_wr_ne _ _ _ _ (by decide), rd_wr_self]
  rfl

/-- What changes neither the host interface nor the output nor HIF_STATUS keeps where events go. -/
theorem eventsKept_of_outside (h : outside l n = outside l m) (hhif : .hif ∉ l) (hout : .out ∉ l)
    (hrun : offBlock l F.HIF_STATUS_RUNNING = true) : EventsKept m n :=
  ⟨congrArg (· == 1) (rd_of_outside h hrun (by decide) (by decide)), congrArg Hif.lat (samePiece_of_outside (p := .hif) h hhif),
    [], samePiece_of_outside (p := .out) h hout⟩

theorem eventsKept_sleepUnits (d : Nat) (m : Mach) : EventsKept m (sleepUnits d m) :=
  eventsKept_of_outside (sleepUnits_outside (ps := [.str, .frm, .rend, .cor, .icom, .sap, .block 0x13]) rfl d m) (by decide) (by decide) (by decide)

theorem eventsKept_wakeUnits (d : Nat) (m : Mach) : EventsKept m (wakeUnits d m) :=
  eventsKept_of_outside (wakeUnits_outside (ps := [.str, .frm, .rend, .cor, .sap, .block 0xC, .block 0xD]) rfl d m) (by decide) (by decide) (by decide)

theorem powerEntryDone_eq (hv : m.pwr.move = some v) (he : v.entry = true) : powerEntryDone m = endMove v false (sleepUnits v.dst m) := by
  rw [powerEntryDone, hv]
  exact if_pos he

theorem powerEntryDone_answers (ha : Awake s) (hv : s.m.pwr.move = some v) (he : v.entry = true) (hdst : v.dst < 4) :
    Answers .powerEntryDone s (fun n => rd n F.PWR_STATE_STATE = v.dst ∧ rd n F.PWR_STATE_MOVING = 0 ∧ n.pwr.move = none ∧
      rd n F.PWR_FLAGS_STATE_CHANGED = 1 ∧ Reported 0x16 0x1601 s.m n) := by
  refine answers_mach _ s powerEntryDone _ rfl ha ?_
  rw [powerEntryDone_eq hv he]
  obtain ⟨hstate, hmoving, hmove, hrep⟩ := endMove_done hdst false (eventsKept_sleepUnits v.dst s.m)
  exact ⟨hstate, hmoving, hmove, endMove_changed .., hrep⟩

/-- The end of a wake, before the mark of one that was late. -/
def wakeEnded (v : PwrMove) (m : Mach) : Mach :=
  endMove v (decide (v.at_ + wakeBound v.src < m.deal)) (bump F.PWR_WAKE_CNT_COUNT 1 (wakeUnits v.src m))

theorem wakeDone_eq (hv : m.pwr.move = some v) (he : v.entry = false) :
    wakeDone m = onlyIf (decide (v.at_ + wakeBound v.src < m.deal)) (wr F.PWR_FLAGS_WAKE_LATE 1) (wakeEnded v m) := by
  rw [wakeDone, hv]
  exact if_neg (by simp [he])

theorem rd_wakeEnded_count (v : PwrMove) (m : Mach) :
    rd (wakeEnded v m) F.PWR_WAKE_CNT_COUNT = min (2 ^ F.PWR_WAKE_CNT_COUNT.width - 1) (rd m F.PWR_WAKE_CNT_COUNT + 1) := by
  have hkept : rd (wakeUnits v.src m) F.PWR_WAKE_CNT_COUNT = rd m F.PWR_WAKE_CNT_COUNT :=
    rd_of_outside (wakeUnits_outside (ps := [.str, .frm, .rend, .cor, .sap, .block 0xC, .block 0xD]) rfl v.src m) (by decide) (by decide) (by decide)
  rw [wakeEnded, rd_endMove (by decide), rd_bump_self, hkept]
  exact Nat.mod_eq_of_lt (Nat.lt_of_le_of_lt (Nat.min_le_left ..) (by decide))

theorem MoveDone.marked (h : MoveDone v m n) (b : Bool) : MoveDone v m (onlyIf b (wr F.PWR_FLAGS_WAKE_LATE 1) n) := by
  cases b with
  | false => exact h
  | true => exact ⟨(rd_wr_ne _ _ _ _ (by decide)).trans h.state, (rd_wr_ne _ _ _ _ (by decide)).trans h.moving, h.move,
      reported_then _ _ _ _ _ h.reported ⟨[], rfl⟩⟩

theorem wakeDone_answers (ha : Awake s) (hv : s.m.pwr.move = some v) (he : v.entry = false) (hdst : v.dst < 4) :
    Answers .wakeDone s (fun n => rd n F.PWR_STATE_STATE = v.dst ∧ rd n F.PWR_STATE_MOVING = 0 ∧ n.pwr.move = none ∧
      rd n F.PWR_WAKE_CNT_COUNT = min (2 ^ F.PWR_WAKE_CNT_COUNT.width - 1) (rd s.m F.PWR_WAKE_CNT_COUNT + 1) ∧
      Reported 0x16 0x1601 s.m n) := by
  refine answers_mach _ s wakeDone _ rfl ha ?_
  rw [wakeDone_eq hv he]
  have hevents : EventsKept s.m (bump F.PWR_WAKE_CNT_COUNT 1 (wakeUnits v.src s.m)) :=
    (eventsKept_wakeUnits v.src s.m).trans (eventsKept_bump 1 _ (by decide))
  obtain ⟨hstate, hmoving, hmove, hrep⟩ := (endMove_done hdst (decide (v.at_ + wakeBound v.src < s.m.deal)) hevents).marked
    (decide (v.at_ + wakeBound v.src < s.m.deal))
  refine ⟨hstate, hmoving, hmove, ?_, hrep⟩
  exact (onlyIf_keep (fun n => rd n F.PWR_WAKE_CNT_COUNT) _ _ _ (rd_wr_ne _ _ _ _ (by decide))).trans (rd_wakeEnded_count v s.m)

end Moves

section Resume
variable {m : Mach} {s : State}

/-- The generation of the next resume copy. -/
def nextGen (m : Mach) : Nat := ((newestResume m 3).map (fun c => c.gen)).getD 0 + 1

/-- The live deck is written over the older resume copy. -/
def resumeSaved (m : Mach) : Mach :=
  { m with sys := { m.sys with resume := mput (nextGen m % 2) { deck := m.dk.live, gen := nextGen m } m.sys.resume } }

theorem resumeDeckSave_saves (hen : flag m F.SYS_RESUME_EN = true) (hdig : m.dk.live.digest ≠ 0) (hold : m.dk.live.cutDeal + 480000 ≤ m.deal)
    (hnew : (newestResume m 3).map (fun c => c.deck) ≠ some m.dk.live) : resumeDeckSave m = resumeSaved m :=
  if_pos (by simp only [hen, bne_iff_ne.mpr hdig, decide_eq_true hold, bne_iff_ne.mpr hnew, Bool.and_self])

/-- A resume copy as it is staged: no command brought it. -/
def resumeStaged (c : ResumeCopy) (m : Mach) : Mach :=
  setDk { m.dk with staged := some { c.deck with origin := 0, cutDeal := 0 }, stBase := none, stReady := m.deal }
    { m with sys := { m.sys with resumeDig := c.deck.digest } }

theorem resumeDeckRestore_stages {a : Nat} {c : ResumeCopy} (hc : newestResume m a = some c) (hlock : flag m F.TIM_STATE_LOCKED = true)
    (hvalid : flag m F.SYS_BOOT_RESUME_VALID = false) (hstage : rd m F.SYS_BOOT_STAGE ≠ 0) (hlive : m.dk.live.digest = 0)
    (hst : m.dk.staged = none) (hsg : m.dk.sg = none) (hret : m.dk.retiring = none) :
    resumeDeckRestore a m = wr F.SYS_BOOT_RESUME_VALID 1 (resumeStaged c m) := by
  rw [resumeDeckRestore, hc]
  exact if_pos (by simp [hlock, hvalid, hstage, hlive, hst, hsg, hret])

end Resume

/-- Settles O54: each row of the power manager is one of its branches, whose conditions the statement gives; what an entry stops and a wake
starts leaves the registers and the output of the power block. -/
theorem powerMoves : Obligations.PowerMoves := by
  unfold Obligations.PowerMoves
  refine ⟨fun s ha => ⟨fun c hp h1 h15 => ⟨fun hwake => ?_, fun v hv he hw => ⟨fun hle => ?_, fun hlt => ?_⟩⟩, ?_, fun v hv hdst => ⟨fun he => ?_,
    fun he => ?_⟩⟩, fun s ha => ⟨fun hen hdig hold hnew => ?_, fun a c hc hlock hvalid hstage hlive hst hsg hret => ?_⟩⟩
  · exact powerTolerance_replaces ha hp h1 h15 fun v hv he => absurd he (by simp [hwake v hv])
  · refine powerTolerance_replaces ha hp h1 h15 fun w hw' _ => ?_
    obtain rfl := Option.some.inj (hv.symm.trans hw')
    rw [tolerancesOf_eq_shown hw]
    exact hle
  · refine powerTolerance_stops ha hp h1 h15 hv he ?_
    rw [tolerancesOf_eq_shown hw]
    exact hlt
  · intro d hd hmove hst ht hdwell
    refine answers_mach _ s powerEntryStart _ rfl ha ?_
    rw [powerEntryStart_begins hd hmove hst ht hdwell]
    obtain ⟨hmoving, v, hv⟩ := beginMove_moves true (targetOf s.m (tolerances s.m)) s.m
    exact ⟨hmoving, (rd_beginMove (by decide) ..).trans hst, v, hv⟩
  · exact powerEntryDone_answers ha hv he hdst
  · exact wakeDone_answers ha hv he hdst
  · refine answers_mach _ s resumeDeckSave _ rfl ha ?_
    rw [resumeDeckSave_saves hen hdig hold hnew]
    exact ⟨mfind_mput_self .., rfl, rfl, rfl⟩
  · refine answers_mach _ s (resumeDeckRestore a) _ rfl ha ?_
    rw [resumeDeckRestore_stages hc hlock hvalid hstage hlive hst hsg hret]
    refine ⟨rfl, rfl, ?_, rfl, rfl⟩
    rw [rd_wr_self]
    rfl

end Sys2Proof.Machine
end

section
/-! The end of a reset and the boot (17 R470-R472; 16 R438). -/
namespace Sys2Proof.Machine

/-! What the running firmware keeps: the reset that holds the device, the boot over PCIe, and its DONE. -/

section BootView
variable {m n : Mach} {f : Fld}

/-- The reset that holds a device, whether it boots over PCIe, and DONE of that boot. -/
def bootView (m : Mach) : Option Nat × Bool × Nat := (m.sys.held, m.sys.pboot, rd m F.SYS_PBOOT_CTRL_DONE)

/-- Every piece but the system's own and the registers of its block. -/
def besideBoot : List Piece := [.out, .fresh, .hif, .clk, .tim, .tic, .ring, .dk, .frm, .sap, .pwr, .sec] ++ allBlocks.tail

theorem bootView_of_outside (h : outside besideBoot n = outside besideBoot m) : bootView n = bootView m := by
  have hsys : n.sys = m.sys := samePiece_of_outside (p := .sys) h (by decide)
  rw [bootView, hsys, rd_of_outside h (by decide) (by decide) (by decide), bootView]

theorem bootView_wr (h : fkey F.SYS_PBOOT_CTRL_DONE 0 0 ≠ fkey f 0 0) (v : Nat) (m : Mach) : bootView (wr f v m) = bootView m := by
  rw [bootView, rd_wr_ne _ _ _ _ h, wr_sys, bootView]

/-- A field all of whose places lie apart from DONE. -/
def doneFree (f : Fld) : Bool :=
  fkey F.SYS_PBOOT_CTRL_DONE 0 0 < fkey f 0 0 || fkey f (f.n1 - 1) (f.n2 - 1) < fkey F.SYS_PBOOT_CTRL_DONE 0 0

theorem doneFree_of_mem : ∀ f ∈ fldTable, f = F.SYS_PBOOT_CTRL_DONE ∨ doneFree f = true := by decide +kernel

theorem bootView_wrij (hf : doneFree f = true) (i j v : Nat) (m : Mach) : bootView (wrij f i j v m) = bootView m := by
  unfold wrij
  split
  · next h =>
    have hlo := fkey_mono f (Nat.zero_le i) (Nat.zero_le j)
    have hhi := fkey_mono f (show i ≤ f.n1 - 1 by omega) (show j ≤ f.n2 - 1 by omega)
    have hne : fkey F.SYS_PBOOT_CTRL_DONE 0 0 ≠ fkey f i j := by
      simp only [doneFree, Bool.or_eq_true, decide_eq_true_eq] at hf
      omega
    exact congrArg (fun d => (m.sys.held, m.sys.pboot, d)) (rgetij_rsetij_ne m.regs f F.SYS_PBOOT_CTRL_DONE i j 0 0 v hne)
  · rfl

/-- The host cannot write DONE, which is read-only. -/
theorem bootView_writeFld (hf : f ∈ fldTable) (v i j : Nat) (m : Mach) : bootView (writeFld v f i j m) = bootView m := by
  obtain rfl | hfree := doneFree_of_mem f hf
  · rfl
  · simp only [writeFld]
    (repeat' split) <;> simp only [bootView_wrij hfree]

theorem bootView_writeFlds (off v : Nat) (m : Mach) : bootView (writeFlds off v m) = bootView m :=
  forEach_invariant (P := fun n => bootView n = bootView m) (fun _ hq n hn => (bootView_writeFld (fieldsAt_mem hq) v _ _ n).trans hn) rfl

theorem bootView_startInsert (m : Mach) : bootView (startInsert m) = bootView m := by
  unfold startInsert
  split
  · exact (bootView_of_outside (setIns_outside (by decide) ..)).trans (onlyIf_keep bootView _ _ _ (bootView_wr (by decide) ..))
  · rfl

theorem bootView_writeEnable (latched : Bool) (b : Nat) (m : Mach) : bootView (writeEnable latched b m) = bootView m := by
  unfold writeEnable
  split
  · split
    · rfl
    · split
      · rfl
      · exact (bootView_startInsert _).trans (bootView_of_outside (by simp +decide))
  · exact bootView_of_outside (by split <;> [rfl; (split <;> simp +decide)])

theorem bootView_writeForce (latched : Bool) (b : Nat) (m : Mach) : bootView (writeForce latched b m) = bootView m := by
  unfold writeForce
  split
  · exact bootView_of_outside (by split <;> [rfl; (split <;> simp +decide)])
  · exact (bootView_startInsert _).trans (bootView_of_outside (by simp +decide))

theorem bootView_ringCtrlWrite (latched : Bool) (v : Nat) (m : Mach) : bootView (ringCtrlWrite latched v m) = bootView m :=
  (bootView_writeForce ..).trans <| (bootView_writeEnable ..).trans (bootView_of_outside (by simp +decide [ringCtrlPlain]))

theorem bootView_portCfgWrite (off v p : Nat) (m : Mach) : bootView (portCfgWrite off v p m) = bootView m := by
  have hfld := bootView_writeFlds off v m
  simp only [portCfgWrite]
  split
  · rfl
  · split
    · exact (bootView_of_outside (enablePort_outside (by decide) ..)).trans hfld
    · split
      · exact (bootView_of_outside (linkDown_outside (by decide) ..)).trans hfld
      · exact hfld

theorem bootView_alertPin (m : Mach) : bootView (alertPin m) = bootView m := by
  simp only [alertPin]
  split <;> rfl

theorem bootView_afterWrite (off v : Nat) (b m : Mach) : bootView (afterWrite off v b m) = bootView m := by
  unfold afterWrite
  split
  case h_7 => exact bootView_alertPin m
  case h_8 => exact bootView_alertPin m
  all_goals exact bootView_of_outside (by (repeat' split) <;> simp +decide)

/-- A word written to BAR0: the registers whose write does more, in the order of `regWrite`, and the plain ones. -/
theorem bootView_regWrite (off v : Nat) (m : Mach) : bootView (regWrite off v m) = bootView m := by
  have hfld := bootView_writeFlds off v m
  unfold regWrite
  split
  · exact bootView_of_outside (msixWrite_outside (by decide) _ _ m)
  · split
    case h_1 => exact bootView_of_outside (sysResetWrite_outside (by decide) v m)
    case h_2 => exact onlyIf_keep bootView _ _ _ ((onlyIf_keep bootView _ _ _ (bootView_wr (by decide) ..)).trans (bootView_wr (by decide) ..))
    case h_3 => exact bootView_of_outside (hifCtrlWrite_outside (by decide) v m)
    case h_4 => exact bootView_of_outside (timCtrlWrite_outside (by decide) v m)
    case h_5 => exact bootView_ringCtrlWrite _ v m
    case h_6 =>
      split
      · exact bootView_of_outside (mdioGo_outside (by decide) _ m)
      · exact hfld
    case h_11 =>
      unfold probeSelWrite
      split
      · exact bootView_writeFlds ..
      · rfl
    case h_12 =>
      split
      · exact bootView_of_outside (gclWrite_outside (by decide) v _ m)
      · exact (bootView_afterWrite ..).trans hfld
    all_goals exact bootView_portCfgWrite _ v _ m

/-- The firmware shows the number of its board. -/
def subsysShown (x : Option (Nat × Nat)) (m : Mach) : Mach := { m with sys := { m.sys with subsys := x } }

theorem bootView_setSec (x : Sec) (m : Mach) : bootView (setSec x m) = bootView m := rfl

theorem bootView_firmwareRuns (i : BootImg) (m : Mach) : bootView (firmwareRuns i m) = bootView m := by
  simp only [firmwareRuns]
  refine (bootView_startInsert _).trans <| (bootView_of_outside (seqStart_outside (by decide) _)).trans ?_
  refine (rfl : bootView (subsysShown i.subsys _) = _).trans <| (forEach_keep bootView _ _ (fun q n => bootView_regWrite _ _ n) _).trans ?_
  refine (bootView_of_outside (enterHoldover_outside (by decide) ..)).trans <| (onlyIf_keep bootView _ _ _ (bootView_wr (by decide) ..)).trans ?_
  refine (bootView_of_outside ((bootDom_outside (by decide) _).trans <| (showLdev_outside (by decide) _).trans (showKeys_outside (by decide) _))).trans ?_
  refine (bootView_wr (by decide) ..).trans <| (bootView_of_outside (measureImage_outside (by decide) _)).trans ?_
  rw [bootView_setSec, bootView_wr (by decide)]

theorem bootView_bootSlot (k : Nat) (passed : Option Nat) (m : Mach) : bootView (bootSlot k passed m) = bootView m := by
  unfold bootSlot
  split
  · rfl
  · refine (bootView_firmwareRuns ..).trans (bootView_of_outside ?_)
    split <;> simp +decide

end BootView

section Release
variable {m : Mach} {s : State} {b : BootIn}

/-- The device leaves its reset. -/
def unheld (m : Mach) : Mach := { m with sys := { m.sys with held := none } }

/-- The strap is sampled. -/
def strapSampled (b : BootIn) (m : Mach) : Mach :=
  onlyIf (rd m F.SYS_RESET_CAUSE_CAUSE < 2 || rd m F.SYS_RESET_CAUSE_CAUSE == 7) (wr F.SYS_STRAP_BOOT_SRC (b.strap % 4)) (unheld m)

/-- The boot source of the boot that a reset's end begins. -/
def bootSource (b : BootIn) (m : Mach) : Nat :=
  if rd m F.SYS_RESET_CAUSE_CAUSE < 2 ∨ rd m F.SYS_RESET_CAUSE_CAUSE = 7 then b.strap % 4 else rd m F.SYS_STRAP_BOOT_SRC

theorem rd_strapSampled (b : BootIn) (m : Mach) : rd (strapSampled b m) F.SYS_STRAP_BOOT_SRC = bootSource b m := by
  by_cases h : rd m F.SYS_RESET_CAUSE_CAUSE < 2 ∨ rd m F.SYS_RESET_CAUSE_CAUSE = 7
  · rw [strapSampled, show (_ || _) = true by simpa using h, onlyIf_true, rd_wr_self, bootSource, if_pos h]
    exact Nat.mod_mod ..
  · rw [strapSampled, show (_ || _) = false by simpa using h, bootSource, if_neg h]
    exact rd_congr _ _ _ rfl

theorem strapSampled_sys (b : BootIn) (m : Mach) : (strapSampled b m).sys = (unheld m).sys := onlyIf_keep (·.sys) _ _ _ (wr_sys ..)

/-- The boot finds the flash slots and the saved state. -/
theorem bootState_finds (b : BootIn) (m : Mach) : ∃ x, bootState b m = storeCheck b.store (setSec x (strapSampled b m)) := ⟨_, rfl⟩

theorem bootState_sys (b : BootIn) (m : Mach) : (bootState b m).sys = (unheld m).sys := by
  obtain ⟨x, hx⟩ := bootState_finds b m
  rw [hx]
  exact (samePiece_of_outside (p := .sys) (storeCheck_outside
    (ps := [.out, .hif, .clk, .ann, .sec, .dom, .block 0x1, .block 0x3, .block 0x4]) rfl ..) (by decide)).trans (strapSampled_sys b m)

theorem bootState_source (b : BootIn) (m : Mach) : rd (bootState b m) F.SYS_STRAP_BOOT_SRC = bootSource b m := by
  obtain ⟨x, hx⟩ := bootState_finds b m
  rw [hx, rd_of_outside (storeCheck_outside (ps := [.out, .hif, .clk, .ann, .sec, .dom, .block 0x1, .block 0x3, .block 0x4]) rfl ..) (by decide)
    (by decide) (by decide), ← rd_strapSampled]
  exact rd_congr _ _ _ rfl

/-! The boot source of Table 17.5. -/

theorem bootFrom_slot (hsrc : rd m F.SYS_STRAP_BOOT_SRC = 0 ∨ rd m F.SYS_STRAP_BOOT_SRC = 2) (hp : (pickSlot m).isSome = true) :
    ∃ k passed, bootFrom m = bootSlot k passed m := by
  obtain ⟨p, hp⟩ := Option.isSome_iff_exists.mp hp
  refine ⟨p.1, p.2, ?_⟩
  obtain h | h := hsrc
  · rw [bootFrom, h, hp]
    rfl
  · rw [bootFrom, h, hp]
    rfl

theorem bootFrom_awaitReset (h : rd m F.SYS_STRAP_BOOT_SRC = 3 ∨ rd m F.SYS_STRAP_BOOT_SRC = 0 ∧ pickSlot m = none) : bootFrom m = awaitReset m := by
  obtain h | ⟨h, hp⟩ := h
  · rw [bootFrom, h]
    rfl
  · rw [bootFrom, h, hp]
    rfl

theorem bootFrom_awaitPcie (h : rd m F.SYS_STRAP_BOOT_SRC = 1 ∨ rd m F.SYS_STRAP_BOOT_SRC = 2 ∧ pickSlot m = none) : bootFrom m = awaitPcie m := by
  obtain h | ⟨h, hp⟩ := h
  · rw [bootFrom, h]
    rfl
  · rw [bootFrom, h, hp]
    rfl

/-- The device waits in a reset, with the boot source that led it there. -/
def Waits (b : BootIn) (held : Nat) (m n : Mach) : Prop :=
  n.sys.held = some held ∧ n.sys.pboot = (decide (held = 8) || m.sys.pboot) ∧ rd n F.SYS_STRAP_BOOT_SRC = bootSource b m

theorem awaitReset_waits (b : BootIn) (m : Mach) : Waits b 9 m (awaitReset (bootState b m)) :=
  ⟨rfl, (congrArg Sys.pboot (bootState_sys b m) :), (rd_congr _ _ _ rfl).trans (bootState_source b m)⟩

theorem rd_awaitPcie (m : Mach) : rd (awaitPcie m) F.SYS_STRAP_BOOT_SRC = rd m F.SYS_STRAP_BOOT_SRC := by
  rw [awaitPcie, rd_wr_ne _ _ _ _ (by decide)]
  exact rd_congr _ _ _ rfl

theorem awaitPcie_waits (b : BootIn) (m : Mach) : Waits b 8 m (awaitPcie (bootState b m)) :=
  ⟨rfl, rfl, (rd_awaitPcie _).trans (bootState_source b m)⟩

theorem resetRelease_answers {P : Mach → Prop} (hc : canBoot s.m = true) (h : P (bootFrom (bootState b s.m))) : Answers (.resetRelease b) s P :=
  answers_onPins (resetRelease b) rfl (by rwa [resetRelease, hc])

theorem resetRelease_boots (hc : canBoot s.m = true) (hsrc : bootSource b s.m = 0 ∨ bootSource b s.m = 2)
    (hp : (pickSlot (bootState b s.m)).isSome = true) : Answers (.resetRelease b) s (fun n => n.sys.held = none) := by
  obtain ⟨k, passed, hboot⟩ := bootFrom_slot (by rwa [bootState_source]) hp
  refine resetRelease_answers hc ?_
  rw [hboot]
  calc (bootSlot k passed (bootState b s.m)).sys.held = (bootState b s.m).sys.held := congrArg Prod.fst (bootView_bootSlot ..)
    _ = none := congrArg Sys.held (bootState_sys b s.m)

theorem resetRelease_awaitsReset (hc : canBoot s.m = true)
    (h : bootSource b s.m = 3 ∨ bootSource b s.m = 0 ∧ pickSlot (bootState b s.m) = none) : Answers (.resetRelease b) s (Waits b 9 s.m) := by
  refine resetRelease_answers hc ?_
  rw [bootFrom_awaitReset (by rwa [bootState_source])]
  exact awaitReset_waits b s.m

theorem resetRelease_awaitsPcie (hc : canBoot s.m = true)
    (h : bootSource b s.m = 1 ∨ bootSource b s.m = 2 ∧ pickSlot (bootState b s.m) = none) : Answers (.resetRelease b) s (Waits b 8 s.m) := by
  refine resetRelease_answers hc ?_
  rw [bootFrom_awaitPcie (by rwa [bootState_source])]
  exact awaitPcie_waits b s.m

end Release

/-! The boot over PCIe (R471). -/

section Pcie
variable {m : Mach} {s : State} {i : BootImg}

/-- GO is set, whatever else the word holds. -/
theorem regWrite_pbootGo (v : Word) (m : Mach) : regWrite 0x2C (v ||| 1).toNat m = pbootGo m := by
  have hbit : (v ||| 1).toNat.testBit 0 = true := by
    rw [BitVec.toNat_or, Nat.testBit_or, Bool.or_eq_true]
    exact .inr (by decide)
  exact (congrArg (onlyIf · pbootGo m) hbit).trans (onlyIf_true ..)

theorem pbootGo_sys (m : Mach) : (pbootGo m).sys = m.sys := onlyIf_keep (·.sys) _ _ _ (wr_sys ..)

theorem pbootGo_out (m : Mach) : (pbootGo m).out = m.out := onlyIf_keep (·.out) _ _ _ (wr_out ..)

theorem pbootGo_asks (m : Mach) : rd (pbootGo m) F.SYS_PBOOT_CTRL_GO = 1 := by
  refine (onlyIf_keep (fun n => rd n F.SYS_PBOOT_CTRL_GO) _ _ _ (rd_wr_ne _ _ _ _ (by decide))).trans ?_
  rw [rd_wr_self]
  rfl

theorem pbootGo_clears (h : m.sys.pboot = true) : rd (pbootGo m) F.SYS_PBOOT_CTRL_FAIL = 0 := by
  rw [pbootGo, h, onlyIf_true, rd_wr_self]
  rfl

/-- A register of the boot over PCIe answers on a device that waits for its image. -/
theorem answers_pcie {c : Instr} {f : Mach → Mach} {P : Mach → Prop} (hexec : exec c s = onBus true f s) (hb : s.m.sys.pboot = true)
    (h : P (f s.m)) : Answers c s P := ⟨{ s with m := f s.m }, by rw [hexec, onBus, hb, Bool.and_self, Bool.or_true, if_pos rfl], rfl, h⟩

/-- The boot over PCIe is done: the device leaves its reset. -/
def pcieDone (m : Mach) : Mach := { m with sys := { m.sys with pboot := false, held := none } }

theorem pbootImageChecked_runs (hb : m.sys.pboot = true) (hg : flag m F.SYS_PBOOT_CTRL_GO = true) (hi : imageRuns i m = true) :
    pbootImageChecked i m =
      firmwareRuns i (wr F.SYS_PBOOT_CTRL_DONE 1 (wr F.SYS_BOOT_PCIE_IMAGE 1 (pcieDone (wr F.SYS_PBOOT_CTRL_GO 0 m)))) := by
  rw [pbootImageChecked, hb, hg]
  exact if_pos hi

theorem pbootImageChecked_fails (hb : m.sys.pboot = true) (hg : flag m F.SYS_PBOOT_CTRL_GO = true) (hi : imageRuns i m = false) :
    pbootImageChecked i m = wr F.SYS_PBOOT_CTRL_FAIL 1 (wr F.SYS_PBOOT_CTRL_GO 0 m) := by
  rw [pbootImageChecked, hb, hg]
  exact if_neg (Bool.not_eq_true _ ▸ hi)

theorem pbootImageChecked_boots (hb : s.m.sys.pboot = true) (hg : flag s.m F.SYS_PBOOT_CTRL_GO = true) (hi : imageRuns i s.m = true) :
    Answers (.pbootImageChecked i) s (fun n => n.sys.held = none ∧ n.sys.pboot = false ∧ rd n F.SYS_PBOOT_CTRL_DONE = 1) := by
  refine answers_onPins (pbootImageChecked i) rfl ?_
  rw [pbootImageChecked_runs hb hg hi]
  have hview : bootView (firmwareRuns i (wr F.SYS_PBOOT_CTRL_DONE 1 (wr F.SYS_BOOT_PCIE_IMAGE 1 (pcieDone (wr F.SYS_PBOOT_CTRL_GO 0 s.m))))) =
      (none, false, 1) := by
    rw [bootView_firmwareRuns, bootView, rd_wr_self]
    rfl
  exact ⟨congrArg Prod.fst hview, congrArg (·.2.1) hview, congrArg (·.2.2) hview⟩

theorem pbootImageChecked_refuses (hb : s.m.sys.pboot = true) (hg : flag s.m F.SYS_PBOOT_CTRL_GO = true) (hi : imageRuns i s.m = false) :
    Answers (.pbootImageChecked i) s (fun n => rd n F.SYS_PBOOT_CTRL_FAIL = 1 ∧ rd n F.SYS_PBOOT_CTRL_GO = 0 ∧ n.sys = s.m.sys) := by
  refine answers_onPins (pbootImageChecked i) rfl ?_
  rw [pbootImageChecked_fails hb hg hi, rd_wr_self, rd_wr_ne _ _ _ _ (by decide), rd_wr_self]
  exact ⟨rfl, rfl, rfl⟩

end Pcie

/-- Settles O56: the boot source alone chooses the branch, and the firmware that starts touches neither the reset that held the device nor
DONE. -/
theorem bootRuns : Obligations.BootRuns := by
  unfold Obligations.BootRuns
  refine ⟨fun s b => ⟨fun hc => ?_, fun hc => ⟨?_, ?_, ?_, ?_, ?_⟩⟩, fun s hb => ⟨fun v => ?_, fun i hg => ⟨?_, ?_⟩⟩, fun s v ha hb => ?_⟩
  · exact answers_onPins (resetRelease b) rfl (by rw [resetRelease, hc]; rfl)
  · exact resetRelease_boots hc
  · exact fun h hp => resetRelease_awaitsReset hc (.inr ⟨h, hp⟩)
  · exact fun h hp => resetRelease_awaitsPcie hc (.inr ⟨h, hp⟩)
  · exact fun h => resetRelease_awaitsPcie hc (.inl h)
  · exact fun h => resetRelease_awaitsReset hc (.inl h)
  · refine answers_pcie (f := regWrite 0x2C (v ||| 1).toNat) rfl hb ?_
    rw [regWrite_pbootGo]
    exact ⟨pbootGo_asks s.m, pbootGo_clears hb, pbootGo_sys s.m⟩
  · exact pbootImageChecked_boots hb hg
  · exact pbootImageChecked_refuses hb hg
  · refine answers_bus (f := regWrite 0x2C (v ||| 1).toNat) rfl ha ?_
    rw [regWrite_pbootGo]
    exact ⟨pbootGo_asks s.m, pbootGo_sys s.m, pbootGo_out s.m⟩

end Sys2Proof.Machine
end
